-- ==== Sys2Proof/Word.lean ====
section
/-! DEFINITION. The word types of the machine and their plainest arithmetic (refs: spec/00_scope.md R2, R3). -/

namespace Sys2Proof

/-- A byte of memory. -/
abbrev Byte := BitVec 8
/-- An instruction word, or a 32-bit lane (R243, R57). -/
abbrev W32 := BitVec 32
/-- A scalar register, a fat pointer or a 64-bit memory word (R57, R86). -/
abbrev W64 := BitVec 64
/-- A code address: the program counter is 48 bits wide (Table 3.1). -/
abbrev Addr := BitVec 48
/-- A predicate register: bit i governs lane i (Table 3.1). -/
abbrev Pred := BitVec 16
/-- A vector register: sixteen 32-bit lanes (Table 3.1). -/
abbrev Vec := Vector W32 16
/-- A `g` or `v` register number. -/
abbrev RegNo := BitVec 5
/-- A `p` or `m` register number. -/
abbrev PredNo := BitVec 3

end Sys2Proof
end

