-- ==== Sys2Proof/Fields.lean ====
section
/-! DEFINITION. The operand fields of the instructions, and the data that the events of the opcode table carry
(spec/12_encoding.md; spec/07_worklists.md Table 7.1 and 7.3; spec/22_host_and_pod.md Tables 22.3 and 22.6). -/

namespace Sys2Proof

/-- Integer conditions (Table 12.4). -/
inductive Cond where
  | eq | ne | lt | ge | ltn | gen
  deriving DecidableEq, Repr

/-- Floating-point conditions (Table 12.4). -/
inductive FCond where
  | eq | ne | lt | le | un | or
  deriving DecidableEq, Repr

/-- Access sizes of 1, 2, 4 and 8 bytes (R246). -/
inductive Size where
  | b | h | w | d
  deriving DecidableEq, Repr

/-- Sizes of the atomic group: 4 or 8 bytes (R328). -/
inductive ASize where
  | w | d
  deriving DecidableEq, Repr

/-- Operations of VRED and VSCAN (R260, Table 14.6). -/
inductive RedOp where
  | add | fadd | min | max | minn | maxn | fmin | fmax | and | or | xor
  deriving DecidableEq, Repr

/-- Scopes (Table 5.4). -/
inductive Scope where
  | slot | core | tile | pkg | pod
  deriving DecidableEq, Repr

/-- Operand types of MMA and MSP (R262, Table 16.1). -/
inductive MTy where
  | bf16 | f16 | e4m3 | e5m2 | e4e5 | lx8 | i8 | i4
  deriving DecidableEq, Repr

/-- Operations of AMO and RUPD (Table 15.4). -/
inductive AmoOp where
  | add | and | or | xor | min | max | minn | maxn | swap | fadd
  deriving DecidableEq, Repr

/-- An item (Table 7.1): KEY, ENTRY, the four flag bits [83:80], COUNT and WORK ID. -/
structure Item where
  key   : W32
  entry : BitVec 12
  flags : BitVec 4
  count : BitVec 16
  work  : W64
  deriving DecidableEq, Repr

/-- An item with its 80-bit identity (R156). -/
structure QItem where
  item  : Item
  ident : BitVec 80
  deriving DecidableEq, Repr

/-- What RITEM carries to a lamp (R164): a pulled item, and the version of its pull. -/
structure Pulled where
  q : QItem
  v : Nat
  deriving DecidableEq, Repr

/-- What PACK tells the keeper (R164): the position from which on the reserve has more than it sent, where it has, and how many items it sent. -/
structure PullAnswer where
  cap : Option Nat
  n   : Nat
  deriving DecidableEq, Repr

/-- What DEMOTE carries (R164): K, and whether a pull ends; on its way back, how many items the lamp has moved. -/
structure Demotion where
  k     : Option Nat
  ends  : Bool
  moved : Option Nat
  deriving DecidableEq, Repr

/-- The version that CUT carries (R161), and the version of the pull that ends with it. -/
structure CutVersion where
  v    : Nat
  ends : Option Nat
  deriving DecidableEq, Repr

/-- Who waits for the answer of a push: a WLPSH or WLRET held in a slot, a re-push (nobody waits), a launch's own range push (R173), or the keeper,
for an item that goes to its tile's reserve with a lowering of K (R163). -/
inductive PushBy where
  | wlpsh (slot : Nat) (ctx : W32)
  | wlret (slot : Nat) (ctx : W32)
  | again
  | launch (id : W32)
  | keeper
  deriving DecidableEq, Repr

/-- How far a push has come (Table 7.3, R163, R166): as it was pushed; sent by the keeper to the pushing tile's reserve; sent on to the keeper tile's;
the remainder of a range, at the keeper; sent by the keeper to the lamp where it is inserted; sent to the keeper tile's reserve with a lowering of K;
there, and to be answered. -/
inductive PushStage where
  | new | reserve | spill | rest | placed | demoted | kept
  deriving DecidableEq, Repr

/-- A push on its way (Table 7.3): worklist, item, the version its sender held, the pushing tile, the pushing party, how far it has come, the lamp
that held an item demoted for it (R160), the hop and queue delays of its way so far and the cycle in which it, or its answer, entered the network (R30). In Lantern messages lamps and tiles are numbered
over the pod: package * 4 + die, and package * 512 + tile. -/
structure PushMsg where
  wl    : Nat
  q     : QItem
  v     : Nat
  tile  : Nat
  by_   : PushBy
  stage : PushStage
  alt   : Option Nat
  path  : Nat
  since : Nat
  deriving DecidableEq, Repr

/-- Who pops: a WLPOP of a task, or a tile dispatcher's prefetch (R158). -/
inductive PopBy where
  | task (tid : W64) (slot : Nat) (ctx : W32) (op : Nat)
  | tile
  deriving DecidableEq, Repr

/-- A pop on its way from lamp to lamp (R168): worklist, lamps already visited, the popping tile and party, the hop and queue delays of its way so far and
the cycle in which it, or its answer, entered the network (R30). -/
structure PopMsg where
  wl      : Nat
  visited : Nat
  tile    : Nat
  by_     : PopBy
  path    : Nat
  since   : Nat
  deriving DecidableEq, Repr

/-- What a pop returns: an item, the status CLOSED, or nothing for a prefetch (R168). -/
inductive PopAnswer where
  | item (q : QItem)
  | closed
  | empty
  deriving DecidableEq, Repr

/-- A buoy or loss notice (R215, R216): the home that sent it, the line there, the watcher, mode and level,
and the number of the write that waits for it to be taken (R135). -/
structure Notice where
  home  : Nat
  line  : Nat
  slot  : Nat
  ctx   : W32
  mode  : Nat
  level : Nat
  ack   : Nat
  deriving DecidableEq, Repr

/-- A release message (R217): the modes are a bit mask, bit m for mode m. One for a line of another package names the line by its address in the
space ASID there, under the home number `foreignHome`. -/
structure ReleaseMsg where
  home  : Nat
  line  : Nat
  slot  : Nat
  ctx   : W32
  modes : Nat
  asid  : BitVec 14
  deriving DecidableEq, Repr

/-- The key of a package barrier instance (R223). -/
structure BarKey where
  asid : BitVec 14
  id   : BitVec 5
  gkey : BitVec 96
  deriving DecidableEq, Repr

/-- Where a barrier completion goes: a wire barrier of a tile, or a package barrier instance (R222, R224). -/
inductive BarName where
  | wire (id : Nat)
  | pkg (k : BarKey)
  deriving DecidableEq, Repr

/-- The key by which collective members are matched (R209). -/
structure CollKey where
  asid : BitVec 14
  coll : W32
  n    : Nat
  deriving DecidableEq, Repr

/-- A command record (Table 22.3) copied from a ring: its ring, and its sixteen 64-bit words. -/
structure Cmd where
  ring  : Nat
  words : Vector W64 16
  deriving DecidableEq, Repr

/-- The answer another package gives to a pod request: its status and its data (R230), the delay field of a reply (R30), and
whether a slice answered (Table 3.6). -/
structure PodAnswer where
  status : Nat
  data   : W64
  bytes  : List Byte
  delay  : BitVec 16
  sram   : Bool
  deriving DecidableEq, Repr

/-- What a package tells the keeper of a worklist that spans it (R169): the front items of its lamps, by lamp, with their positions and whether they wait
for the end of a pull; the places of the front its lamps may fill, and how many it has given back in all; how many requests of the keeper it has
answered; the identifiers in its reserves; its items that are prefetched or held and its unanswered re-pushes; the messages with an item that it has
sent to and had from each package; its accepted pushes, pops, runs and demotions; of each pop since it last told, the front items there that preceded;
and of the launch's tasks there, how many were dispatched, triggered and are alive. -/
structure WlNews where
  parts : List (Nat × List (Nat × Bool))
  places : Nat
  gave : Nat
  answered : Nat
  reserve : Nat
  busy : Nat
  sent : List (Nat × Nat)
  got : List (Nat × Nat)
  pushes : Nat
  pops : Nat
  runs : Nat
  demotes : Nat
  before : List Nat
  dispatched : Nat
  triggers : Nat
  alive : Nat
  deriving DecidableEq, Repr

/-- A Lantern message that crosses between packages (R169). Those of Table 7.3, of pops and their answers have the meaning of the events of the same
names. The others: the creation of a spanning launch, by its header and packages, and its answer by a code of Table 7.7; its start, by its launch id, header
and entry table; whether the worklist serves pops, its poppable items and its present items, as the keeper knows them; its closing, with or without
freezing; the keeper's call for free places; what a package tells the keeper; a freeze that arose there, as overflow or not; WLSTA and its answer. -/
inductive WlMsg where
  | fpush (lamp : Nat) (m : PushMsg)
  | rpush (m : PushMsg)
  | fwd (lamp : Nat) (m : PushMsg)
  | head (tile : Nat) (pos : Option Nat)
  | low (lamp : Nat)
  | pull (tile : Nat) (kn : Option Nat) (m : Nat) (v : Nat)
  | ritem (lamp : Nat) (q : QItem) (v : Nat)
  | pack (tile : Nat) (cap : Option Nat) (n : Nat)
  | demote (lamp : Nat) (k : Option Nat) (ends : Bool) (moved : Option Nat)
  | cut (toLamp : Bool) (dest : Nat) (k : Option Nat) (v : Nat) (ends : Option Nat)
  | pop (lamp : Nat) (m : PopMsg)
  | popReply (m : PopMsg) (ans : PopAnswer)
  | pushAnswer (m : PushMsg) (status : Nat)
  | create (hdr : List Byte) (pkgs : List Nat)
  | created (code : Nat)
  | begin_ (id : W32) (hdrVa : Addr) (hdr : List Byte) (entries : List W64) (pkgs : List Nat)
  | state (serves : Bool) (front present : Nat)
  | close (frozen : Bool)
  | call
  | news (n : WlNews)
  | freeze (overflow : Bool)
  | stat (word : Nat) (slot : Nat) (ctx : W32)
  | statReply (slot : Nat) (ctx : W32) (value : W64)
  deriving DecidableEq, Repr

/-- What a collective or CTL write carries to the control agent of a package (R422), where it is no event of its own: the join of a member of a
collective, with its position, its descriptor and package mask as read, and its contribution; what the root has decided, with the reduced elements and
the flags (R209, R428); a TLBI, by its kind, ASID, first page and count, and its acknowledgement (R220); the withdrawal of a parked request, by its
number (R81); a message of a worklist, by its id and launch (R169). -/
inductive PodMsg where
  | join (key : CollKey) (pos : Nat) (desc mask src : List Byte)
  | result (key : CollKey) (status : Nat) (bytes : List Byte) (flags : BitVec 5)
  | tlbi (id kind : Nat) (asid : BitVec 14) (first count : Nat)
  | tlbiAck (id : Nat)
  | withdraw (seq : W32)
  | lantern (wl : Nat) (launch : W32) (m : WlMsg)
  deriving DecidableEq, Repr

/-- A request that arrives from another package, with the header of Table 22.6 and its operands. -/
structure PodReq where
  addr  : BitVec 39
  spkg  : BitVec 8
  stile : BitVec 9
  asid  : BitVec 14
  tag   : BitVec 16
  kind  : BitVec 4
  major : BitVec 6
  op    : BitVec 7
  scu   : Bool
  seq   : W32
  acked : W32
  size  : Nat
  data  : List Byte
  mask  : Nat
  slot  : Nat
  ctx   : W32
  limit : BitVec 20
  msg   : Option PodMsg
  deriving DecidableEq, Repr

/-- Error sources (Table 10.3). -/
inductive ErrSrc where
  | sramLine (tile line : Nat)
  | sramBank (tile bank : Nat)
  | hbmLine (home line : Nat)
  | tileLogic (tile : Nat)
  | ualPort (port : Nat)
  | uePort (port : Nat)
  deriving DecidableEq, Repr

/-- What the boot ROM finds in the signed firmware image and the non-volatile store at power-on (R433 to R437):
whether the signature verifies, the image's SVN, MENTRY and commit flag, the bytes of each stage that is measured, and the
platform block's boot-report address and key, ring 0 and the address allowed to kick it, the package's pod index, the members of the pod and the pod
masks, which are set at start-up (R89, R226, R422). -/
structure Image where
  sigOk     : Bool
  svn       : W32
  mentry    : Addr
  commit    : Bool
  stages    : List (Nat × List Byte)
  reportTo  : W64
  reportKey : W32
  ring0     : W64
  ring0Src  : W64
  ring0Cq   : W64
  ring0CqKey : BitVec 36
  cert      : List Byte
  podIndex  : BitVec 8
  members   : List Nat
  podMasks  : List (Nat × BitVec 256)
  deriving DecidableEq, Repr

end Sys2Proof
end

