-- ==== Sys2Proof/Syntax.lean ====
section
/-! DEFINITION. The instructions and events of the opcode table: one constructor of `Instr` per row, with the fields the
row's encoding names (spec/12_encoding.md R243 to R264), or, for an event, the data that says which one it is
(spec/95_what_each_step_holds.md). -/

namespace Sys2Proof

/-- One constructor per row of the opcode table. -/
inductive Instr where
  /-- ADD (R270). Writes g[A] + g[B] modulo 2^64 into g[D]. -/
  | add (d : RegNo) (a : RegNo) (b : RegNo)
  /-- SUB (R270). Writes g[A] - g[B] modulo 2^64 into g[D]. -/
  | sub (d : RegNo) (a : RegNo) (b : RegNo)
  /-- MUL (R270). Writes the low 64 bits of g[A] x g[B] into g[D]. -/
  | mul (d : RegNo) (a : RegNo) (b : RegNo)
  /-- MULH (R270). Writes bits 127:64 of the signed 128-bit product into g[D]. -/
  | mulh (d : RegNo) (a : RegNo) (b : RegNo)
  /-- MULHN (R270). Writes bits 127:64 of the unsigned 128-bit product into g[D]. -/
  | mulhn (d : RegNo) (a : RegNo) (b : RegNo)
  /-- DIV (R271). Long-latency signed division toward zero, with defined results for zero divisor and overflow. -/
  | div (d : RegNo) (a : RegNo) (b : RegNo) (la : BitVec 4)
  /-- DIVN (R271). Long-latency unsigned division. -/
  | divn (d : RegNo) (a : RegNo) (b : RegNo) (la : BitVec 4)
  /-- REM (R271). Long-latency signed remainder with the sign of the dividend. -/
  | rem (d : RegNo) (a : RegNo) (b : RegNo) (la : BitVec 4)
  /-- REMN (R271). Long-latency unsigned remainder. -/
  | remn (d : RegNo) (a : RegNo) (b : RegNo) (la : BitVec 4)
  /-- AND (R270). Writes the bitwise AND of g[A] and g[B]. -/
  | and (d : RegNo) (a : RegNo) (b : RegNo)
  /-- OR (R270). Writes the bitwise OR of g[A] and g[B]. -/
  | or (d : RegNo) (a : RegNo) (b : RegNo)
  /-- XOR (R270). Writes the bitwise XOR of g[A] and g[B]. -/
  | xor (d : RegNo) (a : RegNo) (b : RegNo)
  /-- ANDN (R270). Writes g[A] AND NOT g[B]. -/
  | andn (d : RegNo) (a : RegNo) (b : RegNo)
  /-- SHL (R270). Shifts g[A] left by g[B][5:0]. -/
  | shl (d : RegNo) (a : RegNo) (b : RegNo)
  /-- SHR (R270). Shifts g[A] right logically by g[B][5:0]. -/
  | shr (d : RegNo) (a : RegNo) (b : RegNo)
  /-- SRA (R270). Shifts g[A] right arithmetically by g[B][5:0]. -/
  | sra (d : RegNo) (a : RegNo) (b : RegNo)
  /-- MIN (R270). Writes the signed minimum of g[A] and g[B]. -/
  | min (d : RegNo) (a : RegNo) (b : RegNo)
  /-- MAX (R270). Writes the signed maximum of g[A] and g[B]. -/
  | max (d : RegNo) (a : RegNo) (b : RegNo)
  /-- MINN (R270). Writes the unsigned minimum of g[A] and g[B]. -/
  | minn (d : RegNo) (a : RegNo) (b : RegNo)
  /-- MAXN (R270). Writes the unsigned maximum of g[A] and g[B]. -/
  | maxn (d : RegNo) (a : RegNo) (b : RegNo)
  /-- CLZ (R270). Counts the zero bits above the highest set bit of g[A]. -/
  | clz (d : RegNo) (a : RegNo)
  /-- POPC (R270). Counts the set bits of g[A]. -/
  | popc (d : RegNo) (a : RegNo)
  /-- BFX (R272). Extracts a sign-extended bit field that a descriptor in g[B] names. -/
  | bfx (d : RegNo) (a : RegNo) (b : RegNo)
  /-- BFXN (R272). Extracts a zero-extended bit field that a descriptor in g[B] names. -/
  | bfxn (d : RegNo) (a : RegNo) (b : RegNo)
  /-- BFI (R272). Inserts the low bits of g[A] into a bit field of g[D]. -/
  | bfi (d : RegNo) (a : RegNo) (b : RegNo)
  /-- SEL (R273). Writes g[A] when predicate p[P] is non-zero, and g[B] otherwise. -/
  | sel (d : RegNo) (a : RegNo) (b : RegNo) (p : PredNo)
  /-- CMP (R273). Sets predicate p[Pd] to all ones or zero by an integer condition on g[A] and g[B]. -/
  | cmp (p : PredNo) (a : RegNo) (b : RegNo) (cc : Cond)
  /-- ADDI (R274). Adds a sign-extended 16-bit immediate to g[A]. -/
  | addi (d : RegNo) (a : RegNo) (imm : BitVec 16)
  /-- ANDI (R274). ANDs g[A] with a zero-extended immediate. -/
  | andi (d : RegNo) (a : RegNo) (imm : BitVec 16)
  /-- ORI (R274). ORs g[A] with a zero-extended immediate. -/
  | ori (d : RegNo) (a : RegNo) (imm : BitVec 16)
  /-- XORI (R274). XORs g[A] with a zero-extended immediate. -/
  | xori (d : RegNo) (a : RegNo) (imm : BitVec 16)
  /-- SHLI (R275). Shifts g[A] left by an immediate amount. -/
  | shli (d : RegNo) (a : RegNo) (n : BitVec 6)
  /-- SHRI (R275). Shifts g[A] right logically by an immediate amount. -/
  | shri (d : RegNo) (a : RegNo) (n : BitVec 6)
  /-- SRAI (R275). Shifts g[A] right arithmetically by an immediate amount. -/
  | srai (d : RegNo) (a : RegNo) (n : BitVec 6)
  /-- LIM (R276). Replaces one 16-bit quarter of g[D] with an immediate. -/
  | lim (d : RegNo) (q : BitVec 2) (imm : BitVec 16)
  /-- CMPI (R277). Sets a predicate by comparing g[A] with a sign-extended immediate. -/
  | cmpi (p : PredNo) (cc : Cond) (a : RegNo) (imm : BitVec 15)
  /-- PADDI (R278). Adds a signed immediate byte offset to a fat pointer and keeps its tag. -/
  | paddi (d : RegNo) (a : RegNo) (imm : BitVec 16)
  /-- PADD (R278). Adds a signed register byte offset to a fat pointer and keeps its tag. -/
  | padd (d : RegNo) (a : RegNo) (b : RegNo)
  /-- PSUB (R279). Writes the exact signed difference of two pointers' virtual addresses. -/
  | psub (d : RegNo) (a : RegNo) (b : RegNo)
  /-- PTAG (R279). Sets the FMT and BLG of a pointer from g[B]. -/
  | ptag (d : RegNo) (a : RegNo) (b : RegNo)
  /-- PGET (R279). Reads the FMT and BLG of a pointer into g[D]. -/
  | pget (d : RegNo) (a : RegNo)
  /-- FADD (R281). Adds two FP32 values rounded by FRM. -/
  | fadd (d : RegNo) (a : RegNo) (b : RegNo)
  /-- FSUB (R281). Subtracts two FP32 values rounded by FRM. -/
  | fsub (d : RegNo) (a : RegNo) (b : RegNo)
  /-- FMUL (R281). Multiplies two FP32 values rounded by FRM. -/
  | fmul (d : RegNo) (a : RegNo) (b : RegNo)
  /-- FDIV (R281). Long-latency FP32 division rounded by FRM. -/
  | fdiv (d : RegNo) (a : RegNo) (b : RegNo) (la : BitVec 4)
  /-- FSQRT (R281). Long-latency FP32 square root rounded by FRM. -/
  | fsqrt (d : RegNo) (a : RegNo) (la : BitVec 4)
  /-- FMIN (R282). Returns the smaller FP32 operand and favours a non-NaN operand. -/
  | fmin (d : RegNo) (a : RegNo) (b : RegNo)
  /-- FMAX (R282). Returns the larger FP32 operand and favours a non-NaN operand. -/
  | fmax (d : RegNo) (a : RegNo) (b : RegNo)
  /-- FCMP (R283). Writes 1 or 0 by an FP32 relation. -/
  | fcmp (d : RegNo) (a : RegNo) (b : RegNo) (cc : FCond)
  /-- FCVT_F2I (R284). Converts FP32 to I32 by FRM, sign-extended. -/
  | fcvtF2i (d : RegNo) (a : RegNo)
  /-- FCVT_F2N (R284). Converts FP32 to N32 by FRM. -/
  | fcvtF2n (d : RegNo) (a : RegNo)
  /-- FCVT_I2F (R284). Converts I32 to FP32 by FRM. -/
  | fcvtI2f (d : RegNo) (a : RegNo)
  /-- FCVT_N2F (R284). Converts N32 to FP32 by FRM. -/
  | fcvtN2f (d : RegNo) (a : RegNo)
  /-- FCLASS (R285). Writes a one-hot class mask of an FP32 value. -/
  | fclass (d : RegNo) (a : RegNo)
  /-- FMA (R286). Computes the fused a x b + c, rounded once. -/
  | fma (d : RegNo) (a : RegNo) (b : RegNo) (c : RegNo)
  /-- FMS (R286). Computes the fused a x b - c, rounded once. -/
  | fms (d : RegNo) (a : RegNo) (b : RegNo) (c : RegNo)
  /-- FNMA (R286). Computes the fused c - a x b, rounded once. -/
  | fnma (d : RegNo) (a : RegNo) (b : RegNo) (c : RegNo)
  /-- BR_ANY (R288). Branches when any bit of p[P] is set. -/
  | brAny (p : PredNo) (disp : BitVec 22)
  /-- BR_NONE (R288). Branches when no bit of p[P] is set. -/
  | brNone (p : PredNo) (disp : BitVec 22)
  /-- BCC (R289). Branches when g[A] and g[B] meet an integer condition. -/
  | bcc (a : RegNo) (b : RegNo) (cc : Cond) (disp : BitVec 13)
  /-- B (R290). Branches unconditionally by a 26-bit displacement. -/
  | bra (disp : BitVec 26)
  /-- CALL (R290). Branches and writes the return address into g31. -/
  | call (disp : BitVec 26)
  /-- JR (R291). Jumps to the address in g[A]. -/
  | jr (a : RegNo)
  /-- CALLR (R291). Jumps to g[A] and writes the return address into g31. -/
  | callr (a : RegNo)
  /-- RET (R291). Jumps to the address in g31. -/
  | ret
  /-- LOOP (R292). Decrements g[A] and branches while the result is non-zero. -/
  | loop (a : RegNo) (disp : BitVec 21)
  /-- REPF (R293). Captures the following 1 to 16 instructions and runs them CNT times with register stepping. -/
  | repf (len : BitVec 4) (cnt : BitVec 8) (fm : BitVec 3) (step : BitVec 2)
  /-- LD (R320). Loads 1 to 8 bytes, sign-extended, at a scaled offset. -/
  | ld (d : RegNo) (a : RegNo) (la : BitVec 4) (x : Bool) (sz : Size) (off : BitVec 9)
  /-- LDN (R320). Loads 1 to 4 bytes, zero-extended, at a scaled offset. -/
  | ldn (d : RegNo) (a : RegNo) (la : BitVec 4) (x : Bool) (sz : Size) (off : BitVec 9)
  /-- ST (R320). Stores 1 to 8 bytes of g[D] at a scaled offset. -/
  | st (d : RegNo) (a : RegNo) (la : BitVec 4) (x : Bool) (sz : Size) (off : BitVec 9)
  /-- LDX (R321). Loads an element at base plus an index scaled by the format's element size. -/
  | ldx (d : RegNo) (a : RegNo) (b : RegNo) (la : BitVec 4) (x : Bool) (sz : Size) (z : Bool)
  /-- STX (R321). Stores an element at base plus a scaled index. -/
  | stx (d : RegNo) (a : RegNo) (b : RegNo) (la : BitVec 4) (x : Bool) (sz : Size)
  /-- LDF (R327). Waits for a full word, reads it and sets it empty. -/
  | ldf (d : RegNo) (a : RegNo) (la : BitVec 4)
  /-- LDFF (R327). Waits for a full word and reads it, leaving it full. -/
  | ldff (d : RegNo) (a : RegNo) (la : BitVec 4)
  /-- STE (R327). Waits for an empty word, writes it and sets it full. -/
  | ste (d : RegNo) (a : RegNo) (la : BitVec 4)
  /-- STEF (R327). Writes a word and sets it full unconditionally. -/
  | stef (d : RegNo) (a : RegNo) (la : BitVec 4)
  /-- FECLR (R327). Sets a word's full/empty bit to empty. -/
  | feclr (a : RegNo) (la : BitVec 4)
  /-- FEGET (R327). Returns a word's full/empty bit. -/
  | feget (d : RegNo) (a : RegNo) (la : BitVec 4)
  /-- AMO_ADD (R328). Atomically adds g[B] at the home and returns the old value. -/
  | amoAdd (d : RegNo) (a : RegNo) (b : RegNo) (la : BitVec 4) (sz : ASize)
  /-- AMO_AND (R328). Atomic bitwise AND at the home, returning the old value. -/
  | amoAnd (d : RegNo) (a : RegNo) (b : RegNo) (la : BitVec 4) (sz : ASize)
  /-- AMO_OR (R328). Atomic bitwise OR at the home, returning the old value. -/
  | amoOr (d : RegNo) (a : RegNo) (b : RegNo) (la : BitVec 4) (sz : ASize)
  /-- AMO_XOR (R328). Atomic bitwise XOR at the home, returning the old value. -/
  | amoXor (d : RegNo) (a : RegNo) (b : RegNo) (la : BitVec 4) (sz : ASize)
  /-- AMO_MIN (R328). Atomic signed minimum at the home. -/
  | amoMin (d : RegNo) (a : RegNo) (b : RegNo) (la : BitVec 4) (sz : ASize)
  /-- AMO_MAX (R328). Atomic signed maximum at the home. -/
  | amoMax (d : RegNo) (a : RegNo) (b : RegNo) (la : BitVec 4) (sz : ASize)
  /-- AMO_MINN (R328). Atomic unsigned minimum at the home. -/
  | amoMinn (d : RegNo) (a : RegNo) (b : RegNo) (la : BitVec 4) (sz : ASize)
  /-- AMO_MAXN (R328). Atomic unsigned maximum at the home. -/
  | amoMaxn (d : RegNo) (a : RegNo) (b : RegNo) (la : BitVec 4) (sz : ASize)
  /-- AMO_SWAP (R328). Atomic swap at the home, returning the old value. -/
  | amoSwap (d : RegNo) (a : RegNo) (b : RegNo) (la : BitVec 4) (sz : ASize)
  /-- AMO_FADD (R328). Atomic 4-byte FP32 add rounded RNE at the home, with flags to FFLAGS. -/
  | amoFadd (d : RegNo) (a : RegNo) (b : RegNo) (la : BitVec 4)
  /-- CAS (R329). Compares a word with g[B], writes g[C] on equality and returns the old value. -/
  | cas (d : RegNo) (a : RegNo) (b : RegNo) (c : RegNo) (sz : ASize)
  /-- LDR (R331). Loads a word and places a reservation watched by an RSV buoy. -/
  | ldr (d : RegNo) (a : RegNo) (la : BitVec 4) (sz : ASize)
  /-- STC (R331). Stores only if the slot's reservation still stands, and returns success. -/
  | stc (d : RegNo) (a : RegNo) (b : RegNo) (la : BitVec 4) (sz : ASize)
  /-- WRS (R332). Sleeps on the reservation's line until it is written, then reads it. -/
  | wrs (d : RegNo) (a : RegNo) (la : BitVec 4) (sz : ASize)
  /-- RUPD_ADD (R330). Sends a remote add applied at the home without reply. -/
  | rupdAdd (a : RegNo) (b : RegNo) (sz : ASize)
  /-- RUPD_AND (R330). Sends a remote AND update. -/
  | rupdAnd (a : RegNo) (b : RegNo) (sz : ASize)
  /-- RUPD_OR (R330). Sends a remote OR update. -/
  | rupdOr (a : RegNo) (b : RegNo) (sz : ASize)
  /-- RUPD_XOR (R330). Sends a remote XOR update. -/
  | rupdXor (a : RegNo) (b : RegNo) (sz : ASize)
  /-- RUPD_MIN (R330). Sends a remote signed minimum update. -/
  | rupdMin (a : RegNo) (b : RegNo) (sz : ASize)
  /-- RUPD_MAX (R330). Sends a remote signed maximum update. -/
  | rupdMax (a : RegNo) (b : RegNo) (sz : ASize)
  /-- RUPD_MINN (R330). Sends a remote unsigned minimum update. -/
  | rupdMinn (a : RegNo) (b : RegNo) (sz : ASize)
  /-- RUPD_MAXN (R330). Sends a remote unsigned maximum update. -/
  | rupdMaxn (a : RegNo) (b : RegNo) (sz : ASize)
  /-- RUPD_FADD (R330). Sends a remote FP32 add rounded RNE that raises no flag. -/
  | rupdFadd (a : RegNo) (b : RegNo)
  /-- FENCE (R120). Full fence: waits until earlier RUPDs are accepted at the scope. -/
  | fence (s : Scope)
  /-- FENCE_ACQ (R120). Acquire fence: only the wait for earlier long-latency results. -/
  | fenceAcq (s : Scope)
  /-- FENCE_REL (R120). Release fence: waits until earlier RUPDs are accepted at the scope. -/
  | fenceRel (s : Scope)
  /-- FENCE_ENG (R120). Engines fence: release plus earlier engine commands settled at the scope. -/
  | fenceEng (s : Scope)
  /-- BARA (R334). Arrives at a wire or package barrier as a release and records the phase. -/
  | bara (id : BitVec 5)
  /-- BARW (R334). Blocks until the barrier's phase differs from the recorded arrival phase. -/
  | barw (id : BitVec 5)
  /-- BARG (R334). Glides past an incomplete barrier the slot has arrived at. -/
  | barg (id : BitVec 5)
  /-- BARQ (R335). Writes the barrier's count, expected count, phase and arrival state. -/
  | barq (d : RegNo) (id : BitVec 5)
  /-- BARSET (R336). At S, sets a wire barrier's mask, or creates, rewrites or frees a package barrier instance. -/
  | barset (id : BitVec 5) (b : RegNo)
  /-- TXB (R338). Opens a transaction level; at depth 0 records restart point and abort target and starts the checkpoint. -/
  | txb (disp : BitVec 23)
  /-- TXELSE (R338). Arms an alternative for the current transaction level. -/
  | txelse (disp : BitVec 23)
  /-- TXE (R141). Closes an inner level, or commits the transaction at level 1. -/
  | txe
  /-- TXR (R139). Retries: discards the level's writes, turns reads into sleep buoys and takes the alternative or sleeps. -/
  | txr
  /-- TXABORT (R339). Aborts the transaction with cause EXPLICIT and a code. -/
  | txabort (c : BitVec 8)
  /-- TXST (R340). Writes the transaction status word into g[D]. -/
  | txst (d : RegNo)
  /-- VLD (R322). Loads the active lanes of a 64-byte line. -/
  | vld (d : RegNo) (a : RegNo) (la : BitVec 4) (x : Bool) (m : PredNo) (off : BitVec 7)
  /-- VLD_C (R323). Loads 16 elements of the pointer's format and widens each into a lane. -/
  | vldC (d : RegNo) (a : RegNo) (la : BitVec 4) (x : Bool) (m : PredNo) (off : BitVec 7)
  /-- VST (R322). Stores the active lanes of a vector into one line under a byte mask. -/
  | vst (d : RegNo) (a : RegNo) (la : BitVec 4) (x : Bool) (m : PredNo) (off : BitVec 7)
  /-- VLDX (R324). Gathers one element per active lane at base plus a scaled lane index. -/
  | vldx (d : RegNo) (a : RegNo) (b : RegNo) (la : BitVec 4) (x : Bool) (sz : Size) (m : PredNo) (z : Bool)
  /-- VSTX (R324). Scatters one element per active lane at base plus a scaled lane index. -/
  | vstx (d : RegNo) (a : RegNo) (b : RegNo) (la : BitVec 4) (x : Bool) (sz : Size) (m : PredNo)
  /-- VLDS (R325). Loads 4-byte lanes at a byte stride. -/
  | vlds (d : RegNo) (a : RegNo) (b : RegNo) (la : BitVec 4) (m : PredNo) (x : Bool)
  /-- VSTS (R325). Stores 4-byte lanes at a byte stride. -/
  | vsts (d : RegNo) (a : RegNo) (b : RegNo) (la : BitVec 4) (m : PredNo) (x : Bool)
  /-- VADD (R303). Lane-wise 32-bit integer add. -/
  | vadd (d : RegNo) (a : RegNo) (b : RegNo) (m : PredNo)
  /-- VSUB (R303). Lane-wise 32-bit integer subtract. -/
  | vsub (d : RegNo) (a : RegNo) (b : RegNo) (m : PredNo)
  /-- VMUL (R303). Lane-wise low 32 bits of the product. -/
  | vmul (d : RegNo) (a : RegNo) (b : RegNo) (m : PredNo)
  /-- VMULH (R303). Lane-wise high 32 bits of the signed product. -/
  | vmulh (d : RegNo) (a : RegNo) (b : RegNo) (m : PredNo)
  /-- VAND (R303). Lane-wise bitwise AND. -/
  | vand (d : RegNo) (a : RegNo) (b : RegNo) (m : PredNo)
  /-- VOR (R303). Lane-wise bitwise OR. -/
  | vor (d : RegNo) (a : RegNo) (b : RegNo) (m : PredNo)
  /-- VXOR (R303). Lane-wise bitwise XOR. -/
  | vxor (d : RegNo) (a : RegNo) (b : RegNo) (m : PredNo)
  /-- VSHL (R303). Lane-wise shift left. -/
  | vshl (d : RegNo) (a : RegNo) (b : RegNo) (m : PredNo)
  /-- VSHR (R303). Lane-wise logical shift right. -/
  | vshr (d : RegNo) (a : RegNo) (b : RegNo) (m : PredNo)
  /-- VSRA (R303). Lane-wise arithmetic shift right. -/
  | vsra (d : RegNo) (a : RegNo) (b : RegNo) (m : PredNo)
  /-- VMIN (R303). Lane-wise signed minimum. -/
  | vmin (d : RegNo) (a : RegNo) (b : RegNo) (m : PredNo)
  /-- VMAX (R303). Lane-wise signed maximum. -/
  | vmax (d : RegNo) (a : RegNo) (b : RegNo) (m : PredNo)
  /-- VMINN (R303). Lane-wise unsigned minimum. -/
  | vminn (d : RegNo) (a : RegNo) (b : RegNo) (m : PredNo)
  /-- VMAXN (R303). Lane-wise unsigned maximum. -/
  | vmaxn (d : RegNo) (a : RegNo) (b : RegNo) (m : PredNo)
  /-- VABS (R303). Lane-wise absolute value. -/
  | vabs (d : RegNo) (a : RegNo) (m : PredNo)
  /-- VNEG (R303). Lane-wise negation. -/
  | vneg (d : RegNo) (a : RegNo) (m : PredNo)
  /-- VCMP (R304). Writes a predicate by a lane-wise integer condition. -/
  | vcmp (d : PredNo) (a : RegNo) (b : RegNo) (m : PredNo) (cc : Cond)
  /-- VSEL (R304). Writes every lane from v[A] or v[B] as the mask selects. -/
  | vsel (d : RegNo) (a : RegNo) (b : RegNo) (m : PredNo)
  /-- VCLZ (R304). Lane-wise count of leading zeros. -/
  | vclz (d : RegNo) (a : RegNo) (m : PredNo)
  /-- VPOPC (R304). Lane-wise count of set bits. -/
  | vpopc (d : RegNo) (a : RegNo) (m : PredNo)
  /-- VFADD (R305). Lane-wise FP32 add. -/
  | vfadd (d : RegNo) (a : RegNo) (b : RegNo) (m : PredNo)
  /-- VFSUB (R305). Lane-wise FP32 subtract. -/
  | vfsub (d : RegNo) (a : RegNo) (b : RegNo) (m : PredNo)
  /-- VFMUL (R305). Lane-wise FP32 multiply. -/
  | vfmul (d : RegNo) (a : RegNo) (b : RegNo) (m : PredNo)
  /-- VFMIN (R305). Lane-wise FP32 minimum. -/
  | vfmin (d : RegNo) (a : RegNo) (b : RegNo) (m : PredNo)
  /-- VFMAX (R305). Lane-wise FP32 maximum. -/
  | vfmax (d : RegNo) (a : RegNo) (b : RegNo) (m : PredNo)
  /-- VFABS (R305). Lane-wise clearing of the sign bit. -/
  | vfabs (d : RegNo) (a : RegNo) (m : PredNo)
  /-- VFNEG (R305). Lane-wise inversion of the sign bit. -/
  | vfneg (d : RegNo) (a : RegNo) (m : PredNo)
  /-- VFCMP (R305). Writes a predicate by a lane-wise FP32 relation. -/
  | vfcmp (d : PredNo) (a : RegNo) (b : RegNo) (m : PredNo) (cc : FCond)
  /-- VFMA (R306). Lane-wise fused a x b + c. -/
  | vfma (d : RegNo) (a : RegNo) (b : RegNo) (c : RegNo) (m : PredNo)
  /-- VFMS (R306). Lane-wise fused a x b - c. -/
  | vfms (d : RegNo) (a : RegNo) (b : RegNo) (c : RegNo) (m : PredNo)
  /-- VFNMA (R306). Lane-wise fused c - a x b. -/
  | vfnma (d : RegNo) (a : RegNo) (b : RegNo) (c : RegNo) (m : PredNo)
  /-- VMA (R306). Lane-wise integer multiply-add, low 32 bits. -/
  | vma (d : RegNo) (a : RegNo) (b : RegNo) (c : RegNo) (m : PredNo)
  /-- VFDIV (R307). Long-latency lane-wise FP32 division. -/
  | vfdiv (d : RegNo) (a : RegNo) (b : RegNo) (la : BitVec 4) (m : PredNo)
  /-- VFSQRT (R307). Long-latency lane-wise FP32 square root. -/
  | vfsqrt (d : RegNo) (a : RegNo) (la : BitVec 4) (m : PredNo)
  /-- VFRCP (R307). Long-latency correctly rounded reciprocal. -/
  | vfrcp (d : RegNo) (a : RegNo) (la : BitVec 4) (m : PredNo)
  /-- VFRSQ (R307). Long-latency correctly rounded reciprocal square root. -/
  | vfrsq (d : RegNo) (a : RegNo) (la : BitVec 4) (m : PredNo)
  /-- VFEXP2 (R307). Long-latency correctly rounded power of two. -/
  | vfexp2 (d : RegNo) (a : RegNo) (la : BitVec 4) (m : PredNo)
  /-- VFLOG2 (R307). Long-latency correctly rounded base-2 logarithm. -/
  | vflog2 (d : RegNo) (a : RegNo) (la : BitVec 4) (m : PredNo)
  /-- VCVT_F2BF (R308). Packs two FP32 operands per lane into BF16 halves. -/
  | vcvtF2bf (d : RegNo) (a : RegNo) (b : RegNo) (m : PredNo)
  /-- VCVT_BF2F (R308). Widens one BF16 half per lane to FP32. -/
  | vcvtBf2f (d : RegNo) (a : RegNo) (h : Bool) (m : PredNo)
  /-- VCVT_F2H (R308). Packs two FP32 operands per lane into FP16 halves. -/
  | vcvtF2h (d : RegNo) (a : RegNo) (b : RegNo) (m : PredNo)
  /-- VCVT_H2F (R308). Widens one FP16 half per lane to FP32. -/
  | vcvtH2f (d : RegNo) (a : RegNo) (h : Bool) (m : PredNo)
  /-- VCVT_F2E4 (R308). Narrows FP32 to E4M3 into byte k of each lane. -/
  | vcvtF2e4 (d : RegNo) (a : RegNo) (k : BitVec 2) (m : PredNo)
  /-- VCVT_E42F (R308). Widens E4M3 byte k of each lane to FP32. -/
  | vcvtE42f (d : RegNo) (a : RegNo) (k : BitVec 2) (m : PredNo)
  /-- VCVT_F2E5 (R308). Narrows FP32 to E5M2 into byte k of each lane. -/
  | vcvtF2e5 (d : RegNo) (a : RegNo) (k : BitVec 2) (m : PredNo)
  /-- VCVT_E52F (R308). Widens E5M2 byte k of each lane to FP32. -/
  | vcvtE52f (d : RegNo) (a : RegNo) (k : BitVec 2) (m : PredNo)
  /-- VCVT_F2I (R308). Converts FP32 lanes to I32 by FRM. -/
  | vcvtF2i (d : RegNo) (a : RegNo) (m : PredNo)
  /-- VCVT_I2F (R308). Converts I32 lanes to FP32 by FRM. -/
  | vcvtI2f (d : RegNo) (a : RegNo) (m : PredNo)
  /-- VCVT_N2F (R308). Converts N32 lanes to FP32 by FRM. -/
  | vcvtN2f (d : RegNo) (a : RegNo) (m : PredNo)
  /-- VCVT_F2N (R308). Converts FP32 lanes to N32 by FRM. -/
  | vcvtF2n (d : RegNo) (a : RegNo) (m : PredNo)
  /-- VCVT_I2B (R308). Clamps I32 lanes to I8 into byte k. -/
  | vcvtI2b (d : RegNo) (a : RegNo) (k : BitVec 2) (m : PredNo)
  /-- VCVT_B2I (R308). Sign-extends I8 byte k of each lane to I32. -/
  | vcvtB2i (d : RegNo) (a : RegNo) (k : BitVec 2) (m : PredNo)
  /-- VBCAST (R309). Writes g[A][31:0] into every active lane. -/
  | vbcast (d : RegNo) (a : RegNo) (m : PredNo)
  /-- VEXT (R309). Extracts one lane into a g register. -/
  | vext (d : RegNo) (a : RegNo) (b : RegNo)
  /-- VINS (R309). Inserts g[A][31:0] into one lane. -/
  | vins (d : RegNo) (a : RegNo) (b : RegNo)
  /-- VPERM (R310). Permutes lanes by an index vector. -/
  | vperm (d : RegNo) (a : RegNo) (b : RegNo) (m : PredNo)
  /-- VIOTA (R311). Gives each active lane the count of active lanes below it. -/
  | viota (d : RegNo) (m : PredNo)
  /-- VRED (R312). Reduces active lanes to g[D] in a fixed four-level tree. -/
  | vred (d : RegNo) (a : RegNo) (op : RedOp) (m : PredNo)
  /-- VSCAN (R313). Writes inclusive prefix results over active lanes. -/
  | vscan (d : RegNo) (a : RegNo) (op : RedOp) (m : PredNo)
  /-- VCOMP (R311). Packs active lanes into the low lanes and zeroes the rest. -/
  | vcomp (d : RegNo) (a : RegNo) (m : PredNo)
  /-- VSLIDE (R310). Moves lanes by a signed distance, filling with zero. -/
  | vslide (d : RegNo) (a : RegNo) (b : RegNo) (m : PredNo)
  /-- PAND (R314). Predicate AND. -/
  | pand (d : PredNo) (a : PredNo) (b : PredNo)
  /-- POR (R314). Predicate OR. -/
  | por (d : PredNo) (a : PredNo) (b : PredNo)
  /-- PXOR (R314). Predicate XOR. -/
  | pxor (d : PredNo) (a : PredNo) (b : PredNo)
  /-- PANDN (R314). Predicate AND NOT. -/
  | pandn (d : PredNo) (a : PredNo) (b : PredNo)
  /-- PNOT (R314). Predicate NOT. -/
  | pnot (d : PredNo) (a : PredNo)
  /-- PCNT (R314). Counts the set bits of a predicate into g[D]. -/
  | pcnt (d : RegNo) (a : PredNo)
  /-- PFIRST (R314). Writes the index of the lowest set bit, or 16. -/
  | pfirst (d : RegNo) (a : PredNo)
  /-- PSET (R314). Sets a predicate from g[A][15:0]. -/
  | pset (d : PredNo) (a : RegNo)
  /-- PGETS (R314). Copies a predicate zero-extended into g[D]. -/
  | pgets (d : RegNo) (a : PredNo)
  /-- MMA (R347). Pushes a dense-A 16x16xK matrix multiply-accumulate command to q0. -/
  | mma (md : PredNo) (a : RegNo) (b : RegNo) (ty : MTy) (t : Bool) (z : Bool)
  /-- MMA_IX (R347). Pushes a matrix multiply-accumulate whose A rows are chosen by an index vector. -/
  | mmaIx (md : PredNo) (a : RegNo) (b : RegNo) (v : RegNo) (ty : MTy) (t : Bool) (z : Bool)
  /-- MSP (R349). Checks 2:4 metadata and pushes a sparse-A multiply-accumulate command. -/
  | msp (md : PredNo) (a : RegNo) (b : RegNo) (v : RegNo) (ty : MTy) (t : Bool) (z : Bool)
  /-- MZERO (R351). Pushes a command that zeroes an accumulator. -/
  | mzero (d : PredNo)
  /-- MLDA (R351). Pushes a command that loads an accumulator from memory. -/
  | mlda (d : PredNo) (a : RegNo)
  /-- MSTA (R351). Pushes a command that stores an accumulator as 16 whole-line writes. -/
  | msta (d : PredNo) (a : RegNo)
  /-- MMOV (R351). Pushes a command that copies one accumulator into another. -/
  | mmov (d : PredNo) (a : PredNo)
  /-- MSTAT (R352). Pops one matrix status word and ORs its flags into FFLAGS. -/
  | mstat (d : RegNo) (la : BitVec 4)
  /-- MWAIT (R352). Waits for all matrix commands, pops every status word and ORs the flags. -/
  | mwait (d : RegNo) (la : BitVec 4)
  /-- CPY (R353). Pushes a copy command naming a descriptor to q2. -/
  | cpy (a : RegNo)
  /-- CPYX (R353). Pushes a copy command whose tag is replaced by g[B]. -/
  | cpyx (a : RegNo) (b : RegNo)
  /-- COLL (R353). Pushes a collective command to q4. -/
  | coll (a : RegNo)
  /-- QPUSH (R354). Pushes one word onto a channel send end, consuming a credit. -/
  | qpush (g : RegNo) (q : BitVec 4)
  /-- QPUSHV (R354). Pushes 16 words onto a channel send end. -/
  | qpushv (g : RegNo) (q : BitVec 4)
  /-- QPOP (R354). Pops the oldest word of a receive end or completion queue, blocking while empty. -/
  | qpop (g : RegNo) (q : BitVec 4) (la : BitVec 4)
  /-- QPOPV (R354). Pops 16 words of a channel into vector lanes. -/
  | qpopv (g : RegNo) (q : BitVec 4) (la : BitVec 4)
  /-- QBIND (R355). Binds, rebinds or unbinds a channel end at the NI. -/
  | qbind (g : RegNo) (q : BitVec 4)
  /-- QSTAT (R195). Writes the status word of a queue register. -/
  | qstat (g : RegNo) (q : BitVec 4)
  /-- WLPSH (R357). Pushes an item to a worklist as a release and returns OK, FULL or FROZEN. -/
  | wlpsh (d : RegNo) (a : RegNo) (b : RegNo)
  /-- WLPOP (R358). Pops an item into the held list as an acquire, blocking while the worklist is empty. -/
  | wlpop (d : RegNo) (a : RegNo) (la : BitVec 4)
  /-- WLACK (R359). Accepts the held item at a position. -/
  | wlack (a : RegNo)
  /-- WLRET (R359). Re-pushes the held item at a position with its original key and identity. -/
  | wlret (a : RegNo)
  /-- WLSTA (R360). Reads a worklist statistics word from the keeper. -/
  | wlsta (d : RegNo) (a : RegNo) (b : RegNo)
  /-- WLCFG (R361). At S or M, creates a launch from a header in memory. -/
  | wlcfg (d : RegNo) (a : RegNo)
  /-- END (R363). Ends the task after a trigger-scope release, accepting held items and releasing its resources. -/
  | endTask
  /-- YIELD (R362). Sets the slot's yield flag for greedy-then-oldest issue. -/
  | yield
  /-- ALIGN (R364). Holds the core until the tile's other cores of the launch reach the same ALIGN. -/
  | align
  /-- TRIG (R365). Releases and counts the task's trigger for dependent launches. -/
  | trig
  /-- MIGR (R366). Moves the task to another tile of its window. -/
  | migr (a : RegNo)
  /-- WIDX (R367). Extracts field k of the work identifier. -/
  | widx (d : RegNo) (k : RegNo)
  /-- UERET (R368). Returns from a user event handler. -/
  | ueret
  /-- CSRR (R369). Reads a CSR into g[D]. -/
  | csrr (d : RegNo) (csr : BitVec 12)
  /-- CSRW (R369). Writes g[A] into a CSR and returns the old value. -/
  | csrw (d : RegNo) (a : RegNo) (csr : BitVec 12)
  /-- CSRS (R369). Sets the CSR bits that g[A] names. -/
  | csrs (d : RegNo) (a : RegNo) (csr : BitVec 12)
  /-- CSRC (R369). Clears the CSR bits that g[A] names. -/
  | csrc (d : RegNo) (a : RegNo) (csr : BitVec 12)
  /-- ERET (R76). Returns from a trap handler and replays from SEPC under the DONE mask. -/
  | eret
  /-- SPILL (R371). At M, makes the spill engine evict a named slot. -/
  | spill (a : RegNo)
  /-- FILL (R371). At M, makes a dispatcher fill a named free slot now. -/
  | fill (a : RegNo)
  /-- WAKE (R371). At M, sends a wake, possibly refusing, to a named slot. -/
  | wake (a : RegNo)
  /-- TLBI_RANGE (R372). Invalidates translations of an ASID over a range of pages. -/
  | tlbiRange (a : RegNo) (b : RegNo)
  /-- TLBI_ASID (R372). Invalidates every translation of an ASID. -/
  | tlbiAsid (a : RegNo)
  /-- TLBI_ALL (R372). At M, invalidates the translations of every ASID. -/
  | tlbiAll
  /-- IFLUSH (R373). Waits for earlier stores and empties the tile's instruction cache. -/
  | iflush
  /-- HALT (R373). At S, a fatal fault of the task; at M, stops the slot. -/
  | halt
  /-- MSPILL (R374). At S, writes an accumulator to memory and frees its tag. -/
  | mspill (d : PredNo) (a : RegNo)
  /-- MFILL (R374). At S, reads an accumulator from memory and tags it to the current context. -/
  | mfill (d : PredNo) (a : RegNo)
  /-- TRAP (R375). Raises the TRAP cause with a code. -/
  | trap (c : BitVec 15)
  /-- BRK (R375). Raises the BRK cause with a code. -/
  | brk (c : BitVec 15)
  /-- DISPATCH (R20). The dispatcher fills a free slot with a Ready saved task or a prefetched item and sets its state. -/
  | dispatch (slot : Nat)
  /-- PREFETCH (R179). A tile dispatcher pops items from a worklist to keep up to four. -/
  | prefetch (tile : Nat) (wl : Nat)
  /-- EVICTION (R81). The spill engine settles speculation, withdraws waits and saves a slot. -/
  | eviction (slot : Nat)
  /-- SAVE_COMPLETE (R23). A save record is complete, and later events for the task go into the record. -/
  | saveComplete (slot : Nat)
  /-- REFILL (R80). Places a saved task into a slot from its save record. -/
  | refill (slot : Nat)
  /-- MIGRATION_ARRIVAL (R83). A migrating task's record arrives and is placed into a free slot of the target tile. -/
  | migrationArrival (tid : W64) (tile : Nat)
  /-- USER_EVENT_DELIVERY (R78). A pending user event is delivered at an instruction boundary to the handler at UEVEC. -/
  | userEventDelivery (slot : Nat)
  /-- ICACHE_FILL (R287). An instruction-cache fill arrives so that a waiting fetch can issue. -/
  | icacheFill (tile : Nat) (asid : BitVec 14) (line : Nat)
  /-- ALIGN_TIMEOUT (R364). 256 cycles pass and the cores held at an ALIGN are released. -/
  | alignTimeout (core : Nat) (stamp : Nat)
  /-- HOME_ACCESS (R112). A home takes a request and performs it in the line's order after its checks. -/
  | homeAccess (req : Nat)
  /-- ACCESS_REPLY (R112). A reply or acknowledgement reaches the issuing slot and completes the access. -/
  | accessReply (req : Nat) (remote : Option PodAnswer)
  /-- UPDATE_APPLY (R118). A home applies a remote update and accepts it. -/
  | updateApply (req : Nat)
  /-- WALK_COMPLETE (R100). A translation walk finishes and fills the cache, or answers pending or traps. -/
  | walkComplete (home : Nat) (asid : BitVec 14) (vpn : Nat)
  /-- PAGE_WAKE (R104). A wake maps or refuses a pending page and reissues or fails the waiting access, update or command. -/
  | pageWake (home : Nat) (asid : BitVec 14) (vpn : Nat) (maps : Bool)
  /-- FE_RETRY_ATTEMPT (R96). Every 1,024 cycles a parked request is retried, and it traps FE_RETRY at the limit. -/
  | feRetryAttempt (req : Nat)
  /-- BUOY_NOTICE (R216). A write's notice reaches the watcher's slot or save record. -/
  | buoyNotice (n : Notice)
  /-- LOSS_NOTICE (R215). A loss notice reaches a watcher with the effect its mode gives. -/
  | lossNotice (n : Notice)
  /-- RELEASE_MESSAGE (R217). A home removes the buoys that a release message names. -/
  | releaseMessage (m : ReleaseMsg)
  /-- COMMIT_HOLD (R142). A commit hold request reaches a home and waits, takes the hold or aborts by age. -/
  | commitHold (slot : Nat) (home : Nat) (line : Nat)
  /-- COMMIT_APPLY (R141). A line's committed bytes are applied at its home and the hold is released. -/
  | commitApply (slot : Nat) (home : Nat) (line : Nat)
  /-- CHUNK_TURN (R147). The commit arbiter gives a Piste slot its turn to commit or squash its chunk. -/
  | chunkTurn (launch : W32)
  /-- FPUSH (R164). A lamp takes a front push and inserts it or forwards it. -/
  | fpush (lamp : Nat) (m : PushMsg)
  /-- RPUSH (R164). A tile's reserve takes a push at or after its copy of K. -/
  | rpush (m : PushMsg)
  /-- FWD (R164). The keeper places a forwarded item, demoting and lowering K if needed. -/
  | fwd (lamp : Nat) (m : PushMsg)
  /-- HEAD (R164). The keeper updates its summary tree of reserve heads. -/
  | head (wl : Nat) (tile : Nat) (pos : Option Nat)
  /-- LOW (R387). The keeper starts a pull for a lamp that runs low. -/
  | low (wl : Nat) (lamp : Nat)
  /-- PULL (R165). A reserve sends its items below the new cutoff as RITEMs and answers PACK. -/
  | pull (wl : Nat) (tile : Nat) (kn : Option Nat) (m : Nat) (v : Nat)
  /-- RITEM (R164). A lamp takes a pulled item, which waits unpoppable until the pull ends. -/
  | ritem (wl : Nat) (lamp : Nat) (q : Pulled)
  /-- PACK (R164). The keeper collects pull answers, sets K, demotes excess and ends the pull. -/
  | pack (wl : Nat) (tile : Nat) (cap : PullAnswer)
  /-- DEMOTE (R164). A lamp moves its items at or after K to the keeper tile's reserve. -/
  | demote (wl : Nat) (lamp : Nat) (k : Demotion)
  /-- CUT (R161). A lamp or tile replaces its copy of K and V with a newer version. -/
  | cut (wl : Nat) (toLamp : Bool) (dest : Nat) (k : Option Nat) (v : CutVersion)
  /-- POP (R168). A lamp pops its best item or passes the pop on. -/
  | pop (lamp : Nat) (m : PopMsg)
  /-- POP_REPLY (R358). A popped item or CLOSED status reaches the popping task or dispatcher. -/
  | popReply (m : PopMsg) (ans : PopAnswer)
  /-- PUSH_ANSWER (R357). A push's answer reaches the pushing slot and WLPSH retires. -/
  | pushAnswer (m : PushMsg) (status : Nat)
  /-- LAUNCH_START (R173). A Waiting launch enters Running and pushes its identifier ranges. -/
  | launchStart (launch : W32)
  /-- COSCHED_ADMISSION (R177). A COSCHED or PERSIST launch is admitted when all its tasks fit free slots. -/
  | coschedAdmission (launch : W32)
  /-- LAUNCH_RECORD_WRITE (R235). The command processor writes a final launch's record to the host ring when room exists. -/
  | launchRecordWrite (asid : BitVec 14)
  /-- WLWDOG_EXPIRY (R184). A worklist holds a present item for WLWDOG µs with no pop and freezes as Hung. -/
  | wlwdogExpiry (wl : Nat)
  /-- PACKAGE_BARRIER_ARRIVAL (R224). A barrier home counts an arrival and completes the phase at EXPECT. -/
  | packageBarrierArrival (slot : Nat) (ctx : W32) (key : BarKey)
  /-- BARRIER_ARRIVAL_REPLY (R334). The barrier home's reply reaches the slot and BARA retires. -/
  | barrierArrivalReply (slot : Nat) (ctx : W32) (id : Nat) (phase : Option Bool)
  /-- BARRIER_COMPLETION (R224). A completion message reaches a tile's NI and completes waiting or gliding slots. -/
  | barrierCompletion (tile : Nat) (name : BarName) (phase : Bool)
  /-- CHANNEL_WORD (R194). A pushed word reaches a channel receive end. -/
  | channelWord (tid : W64) (q : Nat) (sender : W64) (word : W64)
  /-- CREDIT_RETURN (R194). Credits granted or returned by a receive end reach the send end. -/
  | creditReturn (tid : W64) (q : Nat) (receiver : W64) (n : Nat)
  /-- DRY_TIMEOUT (R195). A receive end stays empty past its threshold, sets DRYF and latches a dry event. -/
  | dryTimeout (tid : W64) (q : Nat) (stamp : Nat)
  /-- MATRIX_COMMAND_START (R196). The matrix engine grants a core's command by weighted round-robin and starts it. -/
  | matrixCommandStart (tile : Nat)
  /-- MATRIX_COMMAND_COMPLETE (R198). A matrix command completes and pushes its status word to q1. -/
  | matrixCommandComplete (tile : Nat) (core : Nat)
  /-- COPY_COMMAND_START (R201). The copy engine starts a core's command and reads its descriptor. -/
  | copyCommandStart (tile : Nat) (core : Nat)
  /-- COPY_COMMAND_COMPLETE (R207). A copy ends and pushes its completion word after its release. -/
  | copyCommandComplete (tile : Nat) (core : Nat)
  /-- COLLECTIVE_JOIN (R428). A member's join message reaches the root unit, which matches and checks members. -/
  | collectiveJoin (tile : Nat) (core : Nat)
  /-- COLLECTIVE_COMPLETE (R209). The reduced result reaches every member and its completion word is pushed. -/
  | collectiveComplete (key : CollKey)
  /-- COLLTMO_EXPIRY (R211). An incomplete collective times out and every issued member completes TIMEOUT. -/
  | colltmoExpiry (key : CollKey)
  /-- TLBI_AT_HOME (R220). A home invalidates covered entries, marks walks, waits for translated accesses and acknowledges. -/
  | tlbiAtHome (home : Nat) (id : Nat)
  /-- TLBI_ACK (R220). A home's acknowledgement reaches the issuing slot, and TLBI completes at the last. -/
  | tlbiAck (id : Nat)
  /-- SWEEPER_STEP (R105). The clock sweeper examines a frame, clearing A or moving the frame to the cold queue. -/
  | sweeperStep (home : Nat)
  /-- ZEROING_STEP (R103). The zeroing engine zeroes a free frame and adds it to the pool. -/
  | zeroingStep (home : Nat)
  /-- FREEPUSH (R107). A write of FREEPUSH pushes a frame onto the free list. -/
  | freepush (home : Nat) (frame : Nat)
  /-- COLDPOP (R107). A read of COLDPOP pops the cold-queue head. -/
  | coldpop (home : Nat)
  /-- CONTROL_REGISTER_WRITE (R90). Writes a control-space register that has no behaviour of its own. -/
  | controlRegisterWrite (offset : Nat) (value : W64)
  /-- THROTTLE_STEP (R441). Every 100 µs the throttle raises or lowers DUTY from power and temperature. -/
  | throttleStep (watts : Nat) (celsius : Nat)
  /-- THERMAL_TRIP (R442). At 115 °C junction the package removes power from its dies and stacks. -/
  | thermalTrip
  /-- ERROR_EVENT (R234). An error of a source counts in its fault window and retires the source at the threshold. -/
  | errorEvent (src : ErrSrc) (poisons : Bool)
  /-- SCRUB_COMPLETE (R94). The scrub of a destroyed context's window ends and the window entry is released. -/
  | scrubComplete (asid : BitVec 14)
  /-- POD_REQUEST (R227). A receiving UALink port checks a pod request's tenant and passes it to the destination. -/
  | podRequest (port : Nat) (r : PodReq)
  /-- BUSY_RESEND (R424). 1 µs after a BUSY answer the request is resent with the same sequence. -/
  | busyResend (req : Nat)
  /-- POD_REQUEST_TIMEOUT (R425). A pod request without a reply for 10 ms fails. -/
  | podRequestTimeout (req : Nat)
  /-- RMA_WRITE (R409). An Ultra Ethernet RMA write lands in a registered region and sets landed bits. -/
  | rmaWrite (port : Nat) (pa : Nat) (bytes : List Byte)
  /-- KICK (R413). A host kick raises a ring's tail and starts executing records. -/
  | kick (port : Nat) (src : W64) (msg : BitVec 128)
  /-- KICK_REREAD (R413). After 1 µs the command processor re-reads a record not yet valid, or gives KICK_STALE. -/
  | kickReread (ring : Nat)
  /-- RING_OPEN (R410). Opens a command ring with its control block. -/
  | ringOpen (c : Cmd)
  /-- RING_CLOSE (R416). Closes a ring after its current command. -/
  | ringClose (c : Cmd)
  /-- CTX_CREATE (R418). Creates a context: ASID, window, staging, launch-record ring and S-state. -/
  | ctxCreate (c : Cmd)
  /-- CTX_DESTROY (R416). Cancels the context's launches, invalidates its translations, scrubs and frees its state. -/
  | ctxDestroy (c : Cmd)
  /-- KEY_SET (R440). Writes or frees an encryption key slot. -/
  | keySet (c : Cmd)
  /-- MAP (R418). Writes leaf entries, placing missing tables, for a run of pages. -/
  | map (c : Cmd)
  /-- UNMAP (R416). Clears V in leaf entries and completes a TLBI of the range. -/
  | unmap (c : Cmd)
  /-- LAUNCH (R420). Creates a launch from a header and output-region list. -/
  | launch (c : Cmd)
  /-- ABORT (R416). Cancels a launch. -/
  | abort (c : Cmd)
  /-- COPY_IN (R416). Copies staging data into device memory with a package-scope release. -/
  | copyIn (c : Cmd)
  /-- COPY_OUT (R416). Writes device memory to host memory by RMA write. -/
  | copyOut (c : Cmd)
  /-- QUERY (R419). Writes a named status item to host memory. -/
  | query (c : Cmd)
  /-- RESET (R431). Resets the functions a mask names and restarts them. -/
  | reset (c : Cmd)
  /-- ATTEST (R439). Writes a signed attestation report to the host. -/
  | attest (c : Cmd)
  /-- DEBUG_HALT (R429). Stops every slot of the package from issuing. -/
  | debugHalt (c : Cmd)
  /-- DEBUG_RESUME (R443). Undoes a package halt. -/
  | debugResume (c : Cmd)
  /-- DEBUG_STOP (R444). Stops one task precisely at an instruction boundary. -/
  | debugStop (c : Cmd)
  /-- DEBUG_GROUP (R444). Stops every task of a launch. -/
  | debugGroup (c : Cmd)
  /-- DEBUG_RUN (R443). Resumes stopped tasks. -/
  | debugRun (c : Cmd)
  /-- DEBUG_STEP (R445). Issues one instruction of a stopped task and stops it again. -/
  | debugStep (c : Cmd)
  /-- BPSET (R443). Sets a breakpoint entry. -/
  | bpset (c : Cmd)
  /-- BPCLR (R443). Clears a breakpoint entry. -/
  | bpclr (c : Cmd)
  /-- DEBUG_READ (R443). Writes the save-record image of a stopped task to the host. -/
  | debugRead (c : Cmd)
  /-- DEBUG_WRITE (R443). Writes a field of a stopped task's image. -/
  | debugWrite (c : Cmd)
  /-- SAMPLE (R446). Starts periodic PC sampling of an ASID's running slots. -/
  | sample (c : Cmd)
  /-- SAMPLE_PERIOD (R446). A sampling period ends and records are taken, or sent after the last period. -/
  | samplePeriod (id : Nat)
  /-- CTX_SSTATE (R417). Replaces a context's S-state block. -/
  | ctxSstate (c : Cmd)
  /-- LREC_FREE (R237). Frees launch-record ring room up to TAILSEQ. -/
  | lrecFree (c : Cmd)
  /-- COMMAND_PROCESSOR_FAILOVER (R421). The standby takes over the rings, resending or interrupting the current record. -/
  | commandProcessorFailover
  /-- POWER_ON (R433). The boot ROM verifies firmware, counts starts and releases functions, in Lightship mode after three failures. -/
  | powerOn (img : Image)
  /-- FUNCTION_READY (R431). A function's start sequence passes and sets its readiness bit. -/
  | functionReady (bit : Nat)
  /-- BOOT_REPORT (R435). The command processor writes the boot report when all functions have settled. -/
  | bootReport
  /-- BOOT_TIMEOUT (R433). 30 s after power-on, the start is judged and the boot report written. -/
  | bootTimeout
  /-- CYCLE (R65). Each core cycle runs SelectSlot, spends forfeited turns, advances CYCLE and the tile counters, and writes fixed-latency results that come due. -/
  | cycle
  /-- ILLEGAL_WORD (R244). A word that is not an instruction reaches issue and the slot traps ILLEGAL with its sub-code. -/
  | illegalWord (w : W32)
  /-- FETCH_OUTSIDE_CODE_REGION (R79). A fetch at U or S falls outside the level's code region and traps FETCH_BOUNDS. -/
  | fetchOutsideCodeRegion
  /-- POWER_OFF (R433). The package loses its supply, all state is lost, and the next power-on reports LASTSTOP 0. -/
  | powerOff
  /-- FUNCTION_FAILED (R432). A function's start sequence fails, so its ready bit stays clear and accesses parked at a failed stack trap XLATE with CODE 5. -/
  | functionFailed (bit : Nat) (reason : Nat)
  /-- HOST_ACKNOWLEDGEMENT (R237). The host acknowledges a device RMA write, letting the command processor write the launch-record head word or complete COPY_OUT. -/
  | hostAcknowledgement (id : Nat)
  /-- PACKAGE_LEAVES_POD (R169). A spanned package leaves the pod or loses its link to the keeper, and the worklist freezes with reason LOST. -/
  | packageLeavesPod (pkg : Nat)
  /-- CONTROL_REPLY (R360). A keeper, dispatcher, NI or barrier home answers a WLSTA, WLACK, WLRET, QBIND, BARQ or package BARSET, and the held instruction writes its result and retires. -/
  | controlReply (slot : Nat) (ctx : W32) (value : W64)
  deriving DecidableEq, Repr

end Sys2Proof
end

