-- ==== Sys2Proof/Event.lean ====
section
/-! DEFINITION. The events of the opcode table as data that can be in flight: the constructors of `Instr` from DISPATCH on, as a type of their
own. Each stands for the constructor of the same name (`Sys2Proof.Machine.fire`), and `Sys2Proof.Machine.exec` gives it its meaning. -/

namespace Sys2Proof

/-- One constructor per event of the opcode table. -/
inductive Event where
  /-- DISPATCH (R20). The dispatcher fills a free slot with a Ready saved task or a prefetched item and sets its state. -/
  | dispatch (slot : Nat)
  /-- PREFETCH (R179). A tile dispatcher pops items from a worklist to keep up to four. -/
  | prefetch (tile : Nat) (wl : Nat)
  /-- EVICTION (R81). The spill engine settles speculation, withdraws waits and saves a slot. -/
  | eviction (slot : Nat)
  /-- SAVE_COMPLETE (R23). A save record is complete, and later events for the task go into the record. -/
  | saveComplete (slot : Nat)
  /-- REFILL (R80). Places a saved task into a slot from its save record. -/
  | refill (slot : Nat)
  /-- MIGRATION_ARRIVAL (R83). A migrating task's record arrives and is placed into a free slot of the target tile. -/
  | migrationArrival (tid : W64) (tile : Nat)
  /-- USER_EVENT_DELIVERY (R78). A pending user event is delivered at an instruction boundary to the handler at UEVEC. -/
  | userEventDelivery (slot : Nat)
  /-- ICACHE_FILL (R287). An instruction-cache fill arrives so that a waiting fetch can issue. -/
  | icacheFill (tile : Nat) (asid : BitVec 14) (line : Nat)
  /-- ALIGN_TIMEOUT (R364). 256 cycles pass and the cores held at an ALIGN are released. -/
  | alignTimeout (core : Nat) (stamp : Nat)
  /-- HOME_ACCESS (R112). A home takes a request and performs it in the line's order after its checks. -/
  | homeAccess (req : Nat)
  /-- ACCESS_REPLY (R112). A reply or acknowledgement reaches the issuing slot and completes the access. -/
  | accessReply (req : Nat) (remote : Option PodAnswer)
  /-- UPDATE_APPLY (R118). A home applies a remote update and accepts it. -/
  | updateApply (req : Nat)
  /-- WALK_COMPLETE (R100). A translation walk finishes and fills the cache, or answers pending or traps. -/
  | walkComplete (home : Nat) (asid : BitVec 14) (vpn : Nat)
  /-- PAGE_WAKE (R104). A wake maps or refuses a pending page and reissues or fails the waiting access, update or command. -/
  | pageWake (home : Nat) (asid : BitVec 14) (vpn : Nat) (maps : Bool)
  /-- FE_RETRY_ATTEMPT (R96). Every 1,024 cycles a parked request is retried, and it traps FE_RETRY at the limit. -/
  | feRetryAttempt (req : Nat)
  /-- BUOY_NOTICE (R216). A write's notice reaches the watcher's slot or save record. -/
  | buoyNotice (n : Notice)
  /-- LOSS_NOTICE (R215). A loss notice reaches a watcher with the effect its mode gives. -/
  | lossNotice (n : Notice)
  /-- RELEASE_MESSAGE (R217). A home removes the buoys that a release message names. -/
  | releaseMessage (m : ReleaseMsg)
  /-- COMMIT_HOLD (R142). A commit hold request reaches a home and waits, takes the hold or aborts by age. -/
  | commitHold (slot : Nat) (home : Nat) (line : Nat)
  /-- COMMIT_APPLY (R141). A line's committed bytes are applied at its home and the hold is released. -/
  | commitApply (slot : Nat) (home : Nat) (line : Nat)
  /-- CHUNK_TURN (R147). The commit arbiter gives a Piste slot its turn to commit or squash its chunk. -/
  | chunkTurn (launch : W32)
  /-- FPUSH (R164). A lamp takes a front push and inserts it or forwards it. -/
  | fpush (lamp : Nat) (m : PushMsg)
  /-- RPUSH (R164). A tile's reserve takes a push at or after its copy of K. -/
  | rpush (m : PushMsg)
  /-- FWD (R164). The keeper places a forwarded item, demoting and lowering K if needed. -/
  | fwd (lamp : Nat) (m : PushMsg)
  /-- HEAD (R164). The keeper updates its summary tree of reserve heads. -/
  | head (wl : Nat) (tile : Nat) (pos : Option Nat)
  /-- LOW (R387). The keeper starts a pull for a lamp that runs low. -/
  | low (wl : Nat) (lamp : Nat)
  /-- PULL (R165). A reserve sends its items below the new cutoff as RITEMs and answers PACK. -/
  | pull (wl : Nat) (tile : Nat) (kn : Option Nat) (m : Nat) (v : Nat)
  /-- RITEM (R164). A lamp takes a pulled item, which waits unpoppable until the pull ends. -/
  | ritem (wl : Nat) (lamp : Nat) (q : Pulled)
  /-- PACK (R164). The keeper collects pull answers, sets K, demotes excess and ends the pull. -/
  | pack (wl : Nat) (tile : Nat) (cap : PullAnswer)
  /-- DEMOTE (R164). A lamp moves its items at or after K to the keeper tile's reserve. -/
  | demote (wl : Nat) (lamp : Nat) (k : Demotion)
  /-- CUT (R161). A lamp or tile replaces its copy of K and V with a newer version. -/
  | cut (wl : Nat) (toLamp : Bool) (dest : Nat) (k : Option Nat) (v : CutVersion)
  /-- POP (R168). A lamp pops its best item or passes the pop on. -/
  | pop (lamp : Nat) (m : PopMsg)
  /-- POP_REPLY (R358). A popped item or CLOSED status reaches the popping task or dispatcher. -/
  | popReply (m : PopMsg) (ans : PopAnswer)
  /-- PUSH_ANSWER (R357). A push's answer reaches the pushing slot and WLPSH retires. -/
  | pushAnswer (m : PushMsg) (status : Nat)
  /-- LAUNCH_START (R173). A Waiting launch enters Running and pushes its identifier ranges. -/
  | launchStart (launch : W32)
  /-- COSCHED_ADMISSION (R177). A COSCHED or PERSIST launch is admitted when all its tasks fit free slots. -/
  | coschedAdmission (launch : W32)
  /-- LAUNCH_RECORD_WRITE (R235). The command processor writes a final launch's record to the host ring when room exists. -/
  | launchRecordWrite (asid : BitVec 14)
  /-- WLWDOG_EXPIRY (R184). A worklist holds a present item for WLWDOG µs with no pop and freezes as Hung. -/
  | wlwdogExpiry (wl : Nat)
  /-- PACKAGE_BARRIER_ARRIVAL (R224). A barrier home counts an arrival and completes the phase at EXPECT. -/
  | packageBarrierArrival (slot : Nat) (ctx : W32) (key : BarKey)
  /-- BARRIER_ARRIVAL_REPLY (R334). The barrier home's reply reaches the slot and BARA retires. -/
  | barrierArrivalReply (slot : Nat) (ctx : W32) (id : Nat) (phase : Option Bool)
  /-- BARRIER_COMPLETION (R224). A completion message reaches a tile's NI and completes waiting or gliding slots. -/
  | barrierCompletion (tile : Nat) (name : BarName) (phase : Bool)
  /-- CHANNEL_WORD (R194). A pushed word reaches a channel receive end. -/
  | channelWord (tid : W64) (q : Nat) (sender : W64) (word : W64)
  /-- CREDIT_RETURN (R194). Credits granted or returned by a receive end reach the send end. -/
  | creditReturn (tid : W64) (q : Nat) (receiver : W64) (n : Nat)
  /-- DRY_TIMEOUT (R195). A receive end stays empty past its threshold, sets DRYF and latches a dry event. -/
  | dryTimeout (tid : W64) (q : Nat) (stamp : Nat)
  /-- MATRIX_COMMAND_START (R196). The matrix engine grants a core's command by weighted round-robin and starts it. -/
  | matrixCommandStart (tile : Nat)
  /-- MATRIX_COMMAND_COMPLETE (R198). A matrix command completes and pushes its status word to q1. -/
  | matrixCommandComplete (tile : Nat) (core : Nat)
  /-- COPY_COMMAND_START (R201). The copy engine starts a core's command and reads its descriptor. -/
  | copyCommandStart (tile : Nat) (core : Nat)
  /-- COPY_COMMAND_COMPLETE (R207). A copy ends and pushes its completion word after its release. -/
  | copyCommandComplete (tile : Nat) (core : Nat)
  /-- COLLECTIVE_JOIN (R428). A member's join message reaches the root unit, which matches and checks members. -/
  | collectiveJoin (tile : Nat) (core : Nat)
  /-- COLLECTIVE_COMPLETE (R209). The reduced result reaches every member and its completion word is pushed. -/
  | collectiveComplete (key : CollKey)
  /-- COLLTMO_EXPIRY (R211). An incomplete collective times out and every issued member completes TIMEOUT. -/
  | colltmoExpiry (key : CollKey)
  /-- TLBI_AT_HOME (R220). A home invalidates covered entries, marks walks, waits for translated accesses and acknowledges. -/
  | tlbiAtHome (home : Nat) (id : Nat)
  /-- TLBI_ACK (R220). A home's acknowledgement reaches the issuing slot, and TLBI completes at the last. -/
  | tlbiAck (id : Nat)
  /-- SWEEPER_STEP (R105). The clock sweeper examines a frame, clearing A or moving the frame to the cold queue. -/
  | sweeperStep (home : Nat)
  /-- ZEROING_STEP (R103). The zeroing engine zeroes a free frame and adds it to the pool. -/
  | zeroingStep (home : Nat)
  /-- FREEPUSH (R107). A write of FREEPUSH pushes a frame onto the free list. -/
  | freepush (home : Nat) (frame : Nat)
  /-- COLDPOP (R107). A read of COLDPOP pops the cold-queue head. -/
  | coldpop (home : Nat)
  /-- CONTROL_REGISTER_WRITE (R90). Writes a control-space register that has no behaviour of its own. -/
  | controlRegisterWrite (offset : Nat) (value : W64)
  /-- THROTTLE_STEP (R441). Every 100 µs the throttle raises or lowers DUTY from power and temperature. -/
  | throttleStep (watts : Nat) (celsius : Nat)
  /-- THERMAL_TRIP (R442). At 115 °C junction the package removes power from its dies and stacks. -/
  | thermalTrip
  /-- ERROR_EVENT (R234). An error of a source counts in its fault window and retires the source at the threshold. -/
  | errorEvent (src : ErrSrc) (poisons : Bool)
  /-- SCRUB_COMPLETE (R94). The scrub of a destroyed context's window ends and the window entry is released. -/
  | scrubComplete (asid : BitVec 14)
  /-- POD_REQUEST (R227). A receiving UALink port checks a pod request's tenant and passes it to the destination. -/
  | podRequest (port : Nat) (r : PodReq)
  /-- BUSY_RESEND (R424). 1 µs after a BUSY answer the request is resent with the same sequence. -/
  | busyResend (req : Nat)
  /-- POD_REQUEST_TIMEOUT (R425). A pod request without a reply for 10 ms fails. -/
  | podRequestTimeout (req : Nat)
  /-- RMA_WRITE (R409). An Ultra Ethernet RMA write lands in a registered region and sets landed bits. -/
  | rmaWrite (port : Nat) (pa : Nat) (bytes : List Byte)
  /-- KICK (R413). A host kick raises a ring's tail and starts executing records. -/
  | kick (port : Nat) (src : W64) (msg : BitVec 128)
  /-- KICK_REREAD (R413). After 1 µs the command processor re-reads a record not yet valid, or gives KICK_STALE. -/
  | kickReread (ring : Nat)
  /-- RING_OPEN (R410). Opens a command ring with its control block. -/
  | ringOpen (c : Cmd)
  /-- RING_CLOSE (R416). Closes a ring after its current command. -/
  | ringClose (c : Cmd)
  /-- CTX_CREATE (R418). Creates a context: ASID, window, staging, launch-record ring and S-state. -/
  | ctxCreate (c : Cmd)
  /-- CTX_DESTROY (R416). Cancels the context's launches, invalidates its translations, scrubs and frees its state. -/
  | ctxDestroy (c : Cmd)
  /-- KEY_SET (R440). Writes or frees an encryption key slot. -/
  | keySet (c : Cmd)
  /-- MAP (R418). Writes leaf entries, placing missing tables, for a run of pages. -/
  | map (c : Cmd)
  /-- UNMAP (R416). Clears V in leaf entries and completes a TLBI of the range. -/
  | unmap (c : Cmd)
  /-- LAUNCH (R420). Creates a launch from a header and output-region list. -/
  | launch (c : Cmd)
  /-- ABORT (R416). Cancels a launch. -/
  | abort (c : Cmd)
  /-- COPY_IN (R416). Copies staging data into device memory with a package-scope release. -/
  | copyIn (c : Cmd)
  /-- COPY_OUT (R416). Writes device memory to host memory by RMA write. -/
  | copyOut (c : Cmd)
  /-- QUERY (R419). Writes a named status item to host memory. -/
  | query (c : Cmd)
  /-- RESET (R431). Resets the functions a mask names and restarts them. -/
  | reset (c : Cmd)
  /-- ATTEST (R439). Writes a signed attestation report to the host. -/
  | attest (c : Cmd)
  /-- DEBUG_HALT (R429). Stops every slot of the package from issuing. -/
  | debugHalt (c : Cmd)
  /-- DEBUG_RESUME (R443). Undoes a package halt. -/
  | debugResume (c : Cmd)
  /-- DEBUG_STOP (R444). Stops one task precisely at an instruction boundary. -/
  | debugStop (c : Cmd)
  /-- DEBUG_GROUP (R444). Stops every task of a launch. -/
  | debugGroup (c : Cmd)
  /-- DEBUG_RUN (R443). Resumes stopped tasks. -/
  | debugRun (c : Cmd)
  /-- DEBUG_STEP (R445). Issues one instruction of a stopped task and stops it again. -/
  | debugStep (c : Cmd)
  /-- BPSET (R443). Sets a breakpoint entry. -/
  | bpset (c : Cmd)
  /-- BPCLR (R443). Clears a breakpoint entry. -/
  | bpclr (c : Cmd)
  /-- DEBUG_READ (R443). Writes the save-record image of a stopped task to the host. -/
  | debugRead (c : Cmd)
  /-- DEBUG_WRITE (R443). Writes a field of a stopped task's image. -/
  | debugWrite (c : Cmd)
  /-- SAMPLE (R446). Starts periodic PC sampling of an ASID's running slots. -/
  | sample (c : Cmd)
  /-- SAMPLE_PERIOD (R446). A sampling period ends and records are taken, or sent after the last period. -/
  | samplePeriod (id : Nat)
  /-- CTX_SSTATE (R417). Replaces a context's S-state block. -/
  | ctxSstate (c : Cmd)
  /-- LREC_FREE (R237). Frees launch-record ring room up to TAILSEQ. -/
  | lrecFree (c : Cmd)
  /-- COMMAND_PROCESSOR_FAILOVER (R421). The standby takes over the rings, resending or interrupting the current record. -/
  | commandProcessorFailover
  /-- POWER_ON (R433). The boot ROM verifies firmware, counts starts and releases functions, in Lightship mode after three failures. -/
  | powerOn (img : Image)
  /-- FUNCTION_READY (R431). A function's start sequence passes and sets its readiness bit. -/
  | functionReady (bit : Nat)
  /-- BOOT_REPORT (R435). The command processor writes the boot report when all functions have settled. -/
  | bootReport
  /-- BOOT_TIMEOUT (R433). 30 s after power-on, the start is judged and the boot report written. -/
  | bootTimeout
  /-- CYCLE (R65). Each core cycle runs SelectSlot, spends forfeited turns, advances CYCLE and the tile counters, and writes fixed-latency results that come due. -/
  | cycle
  /-- ILLEGAL_WORD (R244). A word that is not an instruction reaches issue and the slot traps ILLEGAL with its sub-code. -/
  | illegalWord (w : W32)
  /-- FETCH_OUTSIDE_CODE_REGION (R79). A fetch at U or S falls outside the level's code region and traps FETCH_BOUNDS. -/
  | fetchOutsideCodeRegion
  /-- POWER_OFF (R433). The package loses its supply, all state is lost, and the next power-on reports LASTSTOP 0. -/
  | powerOff
  /-- FUNCTION_FAILED (R432). A function's start sequence fails, so its ready bit stays clear and accesses parked at a failed stack trap XLATE with CODE 5. -/
  | functionFailed (bit : Nat) (reason : Nat)
  /-- HOST_ACKNOWLEDGEMENT (R237). The host acknowledges a device RMA write, letting the command processor write the launch-record head word or complete COPY_OUT. -/
  | hostAcknowledgement (id : Nat)
  /-- PACKAGE_LEAVES_POD (R169). A spanned package leaves the pod or loses its link to the keeper, and the worklist freezes with reason LOST. -/
  | packageLeavesPod (pkg : Nat)
  /-- CONTROL_REPLY (R360). A keeper, dispatcher, NI or barrier home answers a WLSTA, WLACK, WLRET, QBIND, BARQ or package BARSET, and the held instruction writes its result and retires. -/
  | controlReply (slot : Nat) (ctx : W32) (value : W64)
  deriving DecidableEq, Repr

end Sys2Proof
end

