-- ==== Sys2Proof/Machine/Map.lean ====
section
/-! DEFINITION. Sparse tables as plain data: lists of (key, value) pairs with rising keys. A key that is not listed has the table's
default value, which the reader names. -/

namespace Sys2Proof.Machine

/-- A sparse table keyed by numbers. -/
abbrev Map (α : Type) := List (Nat × α)

/-- The value at a key, or `d` where nothing is listed. -/
def Map.getD {α : Type} (d : α) : Map α → Nat → α
  | [], _ => d
  | (j, a) :: m, k => if j = k then a else Map.getD d m k

/-- The value listed at a key. -/
def Map.get? {α : Type} : Map α → Nat → Option α
  | [], _ => none
  | (j, a) :: m, k => if j = k then some a else Map.get? m k

/-- List `a` at key `k`, keeping the keys rising. -/
def Map.set {α : Type} : Map α → Nat → α → Map α
  | [], k, a => [(k, a)]
  | (j, b) :: m, k, a =>
    if k < j then (k, a) :: (j, b) :: m
    else if j = k then (k, a) :: m
    else (j, b) :: Map.set m k a

/-- Remove what is listed at key `k`. -/
def Map.del {α : Type} : Map α → Nat → Map α
  | [], _ => []
  | (j, b) :: m, k => if j = k then m else (j, b) :: Map.del m k

/-- Replace the value at key `k` by `f` of it (of `d` where nothing is listed). -/
def Map.upd {α : Type} (d : α) (m : Map α) (k : Nat) (f : α → α) : Map α :=
  Map.set m k (f (Map.getD d m k))

end Sys2Proof.Machine
end

