-- ==== Sys2Proof/Machine/Memory.lean ====
section
/-! DEFINITION. Memory: the bytes of every slice and of every HBM stack at one physical numbering, in one canonical form
(spec/04_memory_space.md R91, R95, R97, R103, R109). -/

namespace Sys2Proof.Machine

/-- Physical numbering of the package's bytes: slice `t`, offset `o` is `t * 2^22 + o` (512 slices of 4 MiB fill 2^31), and the HBM
byte with 39-bit physical address `pa` (R97) is `2^39 + pa`. -/
def sramByte (tile off : Nat) : Nat := tile * 4194304 + off
/-- The number of the HBM byte with physical address `pa` (R97). -/
def hbmByte (pa : Nat) : Nat := 549755813888 + pa

/-- What a byte that nothing has written reads as: 0. For a slice this is R95 (the start sequence zeroes every slice); for HBM the
spec gives none and 0 is the model's choice. DESIGN CHOICE (log 3), unsafe. -/
def unlistedByte : Byte := 0

/-- Memory: cells with rising addresses, none equal to `unlistedByte`. -/
abbrev Memory := List Host.Cell

/-- The byte at a physical number. -/
def Memory.read : Memory → Nat → Byte
  | [], _ => unlistedByte
  | (a, b) :: m, k => if k < a then unlistedByte else if a = k then b else Memory.read m k

/-- Write one byte, keeping the canonical form. -/
def Memory.write : Memory → Nat → Byte → Memory
  | [], k, b => if b = unlistedByte then [] else [(k, b)]
  | (a, c) :: m, k, b =>
    if k < a then (if b = unlistedByte then (a, c) :: m else (k, b) :: (a, c) :: m)
    else if a = k then (if b = unlistedByte then m else (k, b) :: m)
    else (a, c) :: Memory.write m k b

/-- `n` bytes from `k` upward. -/
def Memory.readN (m : Memory) (k : Nat) : Nat → List Byte
  | 0 => []
  | n + 1 => m.read k :: m.readN (k + 1) n

/-- Write bytes from `k` upward. -/
def Memory.writeN (m : Memory) (k : Nat) : List Byte → Memory
  | [] => m
  | b :: bs => Memory.writeN (m.write k b) (k + 1) bs

/-- Write the bytes of `bs` whose bit of `mask` is set (bit 0 for the first), from `k` upward. -/
def Memory.writeMasked (m : Memory) (k : Nat) (mask : Nat) : List Byte → Memory
  | [] => m
  | b :: bs => Memory.writeMasked (if mask % 2 = 1 then m.write k b else m) (k + 1) (mask / 2) bs

/-- The canonical form from address `lo` upward. -/
def Memory.wfFrom (lo : Nat) : Memory → Bool
  | [] => true
  | (a, b) :: m => decide (lo ≤ a) && decide (b ≠ unlistedByte) && Memory.wfFrom (a + 1) m

/-- The canonical form: rising addresses, no cell equal to what an unlisted address reads as. -/
def Memory.wf (m : Memory) : Bool := Memory.wfFrom 0 m

/-- A set of numbers (full words, poisoned lines, lines in the zero state), rising. -/
abbrev NatSet := List Nat

/-- Membership. -/
def NatSet.has (s : NatSet) (k : Nat) : Bool := s.any (· == k)

/-- Insert, keeping the numbers rising. -/
def NatSet.add : NatSet → Nat → NatSet
  | [], k => [k]
  | a :: s, k => if k < a then k :: a :: s else if a = k then a :: s else a :: NatSet.add s k

/-- Remove. -/
def NatSet.del (s : NatSet) (k : Nat) : NatSet := s.filter (· != k)

/-- Set or clear membership. -/
def NatSet.put (s : NatSet) (k : Nat) (b : Bool) : NatSet := if b then s.add k else s.del k

/-- The members outside `[lo, hi)`. -/
def NatSet.outside (s : NatSet) (lo hi : Nat) : NatSet := s.filter fun k => !(decide (lo ≤ k) && decide (k < hi))

end Sys2Proof.Machine
end

