-- ==== Sys2Proof/Machine/State.lean ====
section
/-! DEFINITION. The state of a Thozor package: every piece of state that spec/ gives it, as plain data, and its value at reset.
Slots are numbered by tile * 64 + core * 8 + slot, cores by tile * 8 + core, memory homes 0 to 63; a home number at or above 64 stands for
tile home (number - 64). -/

namespace Sys2Proof.Machine

/-! ### Slots: registers and CSRs (spec/03_registers.md) -/

/-- Privilege levels (R72). -/
inductive Level where
  | u | s | m
  deriving DecidableEq, Repr

/-- A register of a file, as a WINDOW trap names it (R69). -/
inductive RegRef where
  | g (r : RegNo)
  | v (r : RegNo)
  | p (r : PredNo)
  | q (r : BitVec 4)
  | m (r : PredNo)
  deriving DecidableEq, Repr

/-- The register files of a slot (Table 3.1) and the shadow bank of g24 to g27 (R78). -/
structure Regs where
  g      : Vector W64 32
  v      : Vector Vec 32
  p      : Vector Pred 8
  shadow : Vector W64 4
  deriving DecidableEq, Repr

/-- The user CSRs of Table 3.2. TXDEPTH is in `Spec`, SLOT is the slot's number, CYCLE is the package's. -/
structure UCsr where
  fflags  : BitVec 5
  frm     : BitVec 2
  txcause : BitVec 15
  msa     : W32
  msb     : W32
  msc     : W32
  wid     : W64
  widf    : BitVec 39
  tid     : W64
  ikey    : W32
  iarg    : W32
  launch  : W32
  seed    : W64
  ctrb    : W64
  codeb   : Addr
  codel   : Addr
  retired : W64
  turns   : W64
  uevec   : Addr
  uepc    : Addr
  uepend  : BitVec 3      -- UECAUSE.PCOPY, PCOLL, PDRY in bits 0 to 2
  uekind  : BitVec 4      -- UECAUSE.KIND
  uetag   : W32           -- UECAUSE.TAG
  uetags  : Vector W32 3  -- tag of the first coalesced event of each kind (R78)
  uemask  : BitVec 4      -- UEMASK.EN, COPY, COLL, DRY
  active  : Bool          -- UEMASK.ACTIVE
  dmap    : W64
  dacc    : Vector W32 16
  daccAt  : Nat × BitVec 16   -- the cycle of the last write of an accumulator, and the accumulators written in it (R232)
  deriving DecidableEq, Repr

/-- The supervisor CSRs of Table 3.3. -/
structure SCsr where
  spp     : BitVec 1
  intrap  : Bool
  piste   : Bool
  stvec   : Addr
  sepc    : Addr
  scause  : BitVec 39
  sxaddr  : W64
  sscratch : W64
  asid    : BitVec 14
  tenant  : BitVec 16
  wsmax   : BitVec 9
  rsmax   : BitVec 13
  deriving DecidableEq, Repr

/-- The slot-scoped machine CSRs of Table 3.4. -/
structure MCsr where
  mpp     : BitVec 2
  intrap  : Bool
  mtvec   : Addr
  mepc    : Addr
  mcause  : BitVec 39
  mxaddr  : W64
  mscratch : W64
  mdeleg  : W32
  ctxser  : W32
  mscodeb : Addr
  mscodel : Addr
  deriving DecidableEq, Repr

/-! ### Slots: issue -/

/-- The kinds of wait of a Blocked slot (Table 3.10). -/
inductive Block where
  | queue (q : Nat)
  | worklist (wl : Nat)
  | fullEmpty
  | barrier (id : Nat)
  | wrs
  | retrySleep
  | page
  deriving DecidableEq, Repr

/-- What a slot holds (Table 1.3): nothing, a task that is Ready, Blocked or Stopped, a task the spill engine is saving, or a slot
stopped by HALT at M (R373). -/
inductive Status where
  | free
  | ready
  | blocked (b : Block)
  | stopped
  | saving
  | halted
  deriving DecidableEq, Repr

/-- The long-latency kinds of Table 5.1, and the results that wait on no access (division, VFN, pops). -/
inductive OpKind where
  | ordinary | acquiring | relaxed | result
  deriving DecidableEq, Repr

/-- How a long-latency instruction writes its destination when it completes. -/
inductive WriteBack where
  | none
  | g (d : RegNo) (n : Nat) (sgn : Bool)
  | fadd (d : RegNo)
  | vec (d : RegNo) (mask : Pred) (n : Nat) (sgn : Bool)
  | vldc (d : RegNo) (mask : Pred) (fmt blg : Nat)
  | stc (d : RegNo) (home line : Nat)            -- where the reservation's buoy stands
  | wrs (d : RegNo) (n : Nat) (home line : Nat)
  | ldr (d : RegNo) (n : Nat)
  | mspill (m : PredNo)
  | mfill (m : PredNo)
  deriving DecidableEq, Repr

/-- A failed check of an access: its lane, cause, code and XADDR (R74, R318). -/
structure Failure where
  lane  : Nat
  cause : Nat
  code  : Nat
  xaddr : W64
  deriving DecidableEq, Repr

/-- An incomplete long-latency instruction of a slot (R67, R68): its address and lookahead, its destinations, its kind, the cycle
from which it is complete when no access is awaited, the elements still out, the bytes that have come back by lane, the lowest failing
lane, and its write-back. -/
structure LongOp where
  id    : Nat
  pc    : Addr
  la    : Nat
  dests : List RegRef
  kind  : OpKind
  due   : Option Nat
  left  : Nat
  got   : List (Nat × List Byte)
  fail  : Option Failure
  wb    : WriteBack
  word  : W32
  deriving DecidableEq, Repr

/-- What an instruction that holds issue waits for (R343, R120): its wait is examined again each cycle, or an answer is on its way. -/
inductive Hold where
  | none
  | again (phase : Nat)
  | answer (phase : Nat)
  deriving DecidableEq, Repr

/-- The frame state of a running REPF (R71): the captured body, passes, the fields advanced, the step, pass and place in the body, and the
address after the body. -/
structure Frame where
  body : List W32
  cnt  : Nat
  fm   : BitVec 3
  step : Nat
  pass : Nat
  idx  : Nat
  next : Addr
  deriving DecidableEq, Repr

/-- The speculative states a slot can be in (R132). -/
inductive SpecMode where
  | none | tx | glide | chunk
  deriving DecidableEq, Repr

/-- Where a commit stands (Table 6.2). -/
inductive Commit where
  | none | holding | applying
  deriving DecidableEq, Repr

/-- The register checkpoint (R132). -/
structure Ckpt where
  regs   : Regs
  fflags : BitVec 5
  frm    : BitVec 2
  frame  : Option Frame          -- chunk: the frame state at its start
  deriving DecidableEq, Repr

/-- A buoy as its watcher counts it: home, line at the home, the line's virtual number (`Cls.key`), mode and level (R133). -/
structure Watch where
  home  : Nat
  line  : Nat
  vline : Nat
  mode  : Nat
  level : Nat
  deriving DecidableEq, Repr

/-- Speculative state of a slot (spec/06_speculation.md Table 6.5), beside its lines in the core's buffer. -/
structure Spec where
  mode     : SpecMode
  depth    : Nat                      -- TXDEPTH
  restart  : Addr                     -- the outermost TXB, the BARG, or the chunk's start
  abortTo  : Addr                     -- abort target of the outermost TXB
  alts     : Vector (Option Addr) 4   -- armed alternative of levels 1 to 4
  ckpt     : Option Ckpt
  watch    : List Watch
  wake     : Bool                     -- wake-pending bit
  commit   : Commit
  toHold   : List (Nat × Nat)         -- (home, virtual line) whose hold is still to be placed, in order
  toApply  : List (Nat × Nat)         -- (home, virtual line) whose bytes are still to be applied
  barrier  : Option (Nat × BarName × Bool)   -- glide: id, barrier and the phase of the arrival
  undo     : Option (Nat × Nat)       -- a notice that acts when the frame ends (R297): abort cause and code
  stalled  : Bool                     -- glide: an access that would trap or was answered pending holds the glider (R145)
  lost     : Bool                     -- chunk: a CHUNK buoy was lost
  dirty    : Bool                     -- chunk: a commit of the round wrote a line it read
  ended    : Bool                     -- Piste: issues nothing until the turn logic lets it: its chunk has ended, or it is in none
  count    : Nat                      -- chunk: instructions issued
  updates  : List (AmoOp × Nat × W64 × W64)   -- chunk: buffered RUPDs in order: operation, size, effective pointer, operand
  deriving DecidableEq, Repr

/-- Debug requests that a slot has still to meet (R444, R445): to stop, to issue one instruction and stop again, or, after RUN, to pass the
breakpoint it stands at. -/
inductive StopReq where
  | none | stop | step | run
  deriving DecidableEq, Repr

/-- One slot. -/
structure Slot where
  status  : Status
  level   : Level
  pc      : Addr
  regs    : Regs
  u       : UCsr
  sc      : SCsr
  mc      : MCsr
  busy    : List (RegRef × Nat)    -- scoreboard: registers awaiting a fixed-latency result, and its cycle (R66)
  ops     : List LongOp            -- incomplete long-latency instructions, oldest first
  fails   : List (Addr × W32 × Failure)   -- issued instructions that failed and wait for the trap (R74)
  inwin   : Bool                   -- the first failure arose with long-latency results pending
  skip    : Addr × BitVec 15       -- replay: base address and DONE bits still to be skipped (R76)
  hold    : Hold
  word    : W32                    -- the instruction that holds issue
  wait    : Nat                    -- earliest cycle of the next issue (a taken branch, R287)
  asked   : Nat                    -- cycle in which the message left whose answer the held instruction awaits (R30)
  age     : Nat                    -- cycle of placement (R65)
  yld     : Bool
  forfeit : Nat
  frame   : Option Frame
  spec    : Spec
  rsv     : Option (W64 × Nat × Nat × Nat)   -- reservation: effective pointer, size, home, line (R331)
  rmask   : BitVec 8               -- R199
  occurred : Bool                  -- the awaited event of a Saved wait occurred (Table 3.10)
  refuse  : Bool                   -- a refusing wake waits for the withdrawn access (R81)
  commits : W64                    -- commit count of the slot (R142)
  pushSeq : BitVec 39              -- push sequence of the slot (R156)
  serial  : BitVec 40              -- dispatches at the slot (R18)
  stopReq : StopReq
  ending  : Bool                   -- the task ends at its next instruction boundary (R19, R185)
  leaving : Bool                   -- the spill engine is to evict the slot (R182, R371)
  lkey    : Nat                    -- the launch of its task, by the key of `Launch.key`
  deriving DecidableEq, Repr

/-! ### Tasks: what NIs and dispatchers hold under a TID (spec/08_engine_queues.md R191, spec/07_worklists.md R181) -/

/-- A channel end q8 to q15 (R193 to R195). -/
structure Chan where
  send    : Bool
  peer    : W64
  peerq   : Nat
  depth   : Nat
  dryev   : Bool
  dry     : Nat
  words   : List W64      -- receive end
  credits : Nat           -- send end
  since   : Nat           -- cycle of the binding or the last pop
  dryf    : Bool
  gone    : Bool
  deriving DecidableEq, Repr

/-- A held item: its worklist and itself (R181). -/
structure HeldItem where
  wl : Nat
  q  : QItem
  deriving DecidableEq, Repr

/-- Where a task is (Table 1.3). -/
inductive Place where
  | slot (id : Nat)
  | saved (tile : Nat) (rec : Nat)
  | moving
  | ended
  deriving DecidableEq, Repr

/-- What the device holds for a task outside its slot. -/
structure Task where
  launch  : Nat                        -- by the key of `Launch.key`
  asid    : BitVec 14
  place   : Place
  q1      : List W64
  q3      : List W64
  q5      : List W64
  out1    : Nat                        -- incomplete matrix commands
  out3    : Nat
  out5    : Nat
  chans   : Vector (Option Chan) 8     -- q8 to q15
  stash   : List (Nat × W64 × Nat)     -- credits kept for an end not yet bound: queue, receiver, count (R355)
  held    : Vector (Option HeldItem) 5
  arrivals : Vector (Option Bool) 32   -- barrier arrival records: phase of the last arrival (R333)
  trig    : Bool                       -- has triggered (R175)
  mser    : BitVec 16                  -- count of matrix commands issued (Table 8.5)
  colls   : Map Nat                    -- COLL operations by COLLID (R209)
  refused : List Failure               -- updates refused after they were sent (R330)
  deriving DecidableEq, Repr

/-! ### Cores and tiles -/

/-- Matrix commands in a core's q0 (R196, R345 to R351), with the operands read at issue. -/
inductive MOp where
  | mma (ty : MTy) (ix zero tr : Bool)
  | msp (ty : MTy) (zero tr : Bool)
  | mzero
  | mlda
  | msta
  | mmov (src : PredNo)
  deriving DecidableEq, Repr

/-- A matrix command: operation, accumulator, pointers, strides and index or metadata vectors, its task and its placement, its SER. -/
structure MCmd where
  op   : MOp
  md   : PredNo
  ga   : W64
  gb   : W64
  sa   : W32
  sb   : W32
  v0   : Vec
  v1   : Vec
  tid  : W64
  slot : Nat
  ctx  : W32
  asid : BitVec 14
  ser  : BitVec 16
  deriving DecidableEq, Repr

/-- A matrix command that the engine has granted: the operand rows read into its latch, the cycle in which the latch is full, and whether the command
has started (R196, R197). -/
structure MLatch where
  core   : Nat
  cmd    : MCmd
  a      : List (List Byte)
  b      : List (List Byte)
  poison : Bool
  ready  : Nat
  on     : Bool
  deriving DecidableEq, Repr

/-- A matrix command that has started: the rows an MSTA writes (slice offset and bytes), whether it met poison, the cycle of its completion. -/
structure MRun where
  cmd    : MCmd
  lines  : List (Nat × List Byte)
  poison : Bool
  done   : Nat
  left   : Nat          -- rows of an MSTA still to be written
  word   : W64          -- its status word
  deriving DecidableEq, Repr

/-- A copy or collective command in q2 or q4 (R353). -/
structure ECmd where
  desc   : W64
  tag    : Option W32
  tid    : W64
  slot   : Nat
  asid   : BitVec 14
  tenant : BitVec 16
  piste  : Bool
  issued : Nat
  waits  : List Nat     -- the slot's accesses incomplete at issue, which an acquire waits for (R126)
  deriving DecidableEq, Repr

/-- What a running copy waits for: nothing, the wake of a page, another package's answer to a read or to a write. -/
inductive CopyWait where
  | none | page | podRead | podWrite
  deriving DecidableEq, Repr

/-- A running copy command (R201 to R207): its descriptor's bytes, the next unit, the index read for its block, the source bytes of a transfer that is
still to be written and its number of units, status and flags so far. -/
structure CopyRun where
  cmd    : ECmd
  desc   : List Byte
  unit   : Nat
  idx    : Option Nat
  data   : Option (List Byte)
  units  : Nat
  status : Nat
  flags  : BitVec 5
  wait   : CopyWait
  fin    : Bool
  deriving DecidableEq, Repr

/-- The command at the head of q4 as it joins (R208, R428): its descriptor, its package mask and its contribution, so far as they have been read. -/
structure JoinRun where
  desc : Option (List Byte)
  mask : Option (List Byte)
  src  : List Byte
  deriving DecidableEq, Repr

/-- A line of the speculation buffer (R131): home, the line's virtual number (`Cls.key`), owning slot, the nesting level that wrote it, data
and byte mask. -/
structure BufLine where
  home  : Nat
  vline : Nat
  slot  : Nat
  level : Nat
  data  : List Byte
  mask  : Nat
  deriving DecidableEq, Repr

/-- An accumulator (R84): its owner tag (slot index, MCTXSER, TID) and its 256 elements, row by row. -/
structure Acc where
  owner : Option (Nat × W32 × W64)
  elems : Vector W32 256
  deriving DecidableEq, Repr

/-- An ALIGN that holds its core (R364): address, launch, cycle of issue, slot. -/
structure AlignHold where
  pc     : Addr
  launch : Nat              -- by the key of `Launch.key`
  since  : Nat
  slot   : Nat
  deriving DecidableEq, Repr

/-- A core. -/
structure Core where
  cur   : Nat              -- R65
  last  : Nat
  pol   : Bool             -- ISSUEPOL.POL
  q0    : List MCmd
  q2    : List ECmd
  q4    : List ECmd
  run0  : List MRun        -- matrix commands started and not complete
  run2  : Option CopyRun
  join4 : Option JoinRun
  buf   : List BufLine
  accs  : Vector Acc 8
  align : Option AlignHold
  deriving DecidableEq, Repr

/-- A window entry (Table 9.5). -/
structure Window where
  asid  : BitVec 14
  base  : BitVec 17
  first : Nat
  last  : Nat
  w     : Bool
  scrub : Bool
  deriving DecidableEq, Repr

/-- A wire barrier (Table 9.4). -/
structure Wire where
  mask  : W64
  arr   : W64
  phase : Bool
  deriving DecidableEq, Repr

/-- A buoy table entry (Table 9.1). -/
structure Buoy where
  line  : Nat
  slot  : Nat
  ctx   : W32
  mode  : Nat
  level : Nat
  age   : Nat
  deriving DecidableEq, Repr

/-- An instruction-cache line: address space, VA[47:6] and the 64 bytes as they stood at the fill (R14, R373). -/
structure IcLine where
  asid  : BitVec 14
  line  : Nat
  bytes : List Byte
  deriving DecidableEq, Repr

/-- A save record (Table 3.10): the task's slot state, the slot and context it was saved from, its priority and the cycle of the save,
whether it is complete, whether it may be refilled. DEDUCED (log 11). -/
structure SaveRec where
  tid   : W64
  from_ : Nat
  ctx   : W32
  prio  : Nat
  saved : Nat
  done  : Bool
  ready : Bool
  line  : Nat                    -- address of the line that a wait of kind 2, 4 or 6 is for (Table 3.10)
  slot  : Slot
  deriving DecidableEq, Repr

/-- An overflow run (R162): its slot in the overflow area, the items not yet taken, their number when it was written, and the page (VA[47:16]) that its
write, or a read of it, waits for. DESIGN CHOICE (log 48). -/
structure OvRun where
  at_   : Nat
  items : List QItem
  total : Nat
  wait  : Option (Nat × Bool)
  deriving DecidableEq, Repr

/-- A tile: CSRs of tile scope, counters, tables and dispatcher. -/
structure Tile where
  mweight : W32
  feretry : BitVec 20
  sel     : W64                    -- counter block (Table 10.1)
  pcs     : Vector (BitVec 48) 8
  pcAt    : Nat × BitVec 8         -- the cycle of the last write of a counter, and the counters written in it (R233)
  run     : Bool
  windows : List Window
  wires   : Vector Wire 16
  buoys   : List Buoy
  buoyAge : Nat
  icache  : List IcLine
  filling : List (BitVec 14 × Nat)   -- instruction lines being fetched
  mrr     : Nat × Nat                -- matrix arbitration: core being served and commands it took this round (R196)
  mbusy   : Nat                      -- cycle from which the matrix engine is free
  latches : List MLatch              -- commands granted: the one that feeds the engine and the ones to follow
  crr     : Nat                      -- copy engine: core served next (R201)
  prefetched : List (Nat × QItem)    -- worklist and item, oldest first (R179)
  asking  : List Nat                 -- worklists with a prefetch on its way
  wrr     : Map (Nat × Nat)          -- weighted round-robin by priority: worklist served and dispatches it took (R180)
  reserved : Map Nat                 -- slots (0 to 63) reserved to a COSCHED or PERSIST launch, by its key
  recs    : Map SaveRec              -- the 140 save records (R92)
  retired : Bool                     -- tile logic or a bank retired (Table 10.3)
  userTop : Nat                      -- end of the slice's user area (R92, Table 10.3)
  spared  : NatSet                   -- SRAM lines spared to spare rows (Table 10.3)
  seqs    : Map (Nat × Nat)          -- pod sequence counter and ACKED by destination home (R229)
  deriving DecidableEq, Repr

/-! ### Memory homes and dies -/

/-- A translation cache entry (Table 9.2) with its recency. -/
structure Tlb where
  asid  : BitVec 14
  vpn   : Nat
  large : Bool
  w     : Bool
  d     : Bool
  frame : Nat        -- PA[38:16]
  key   : BitVec 13
  pte   : Nat        -- PA of the leaf entry, where D is set (R101)
  poison : Bool      -- the leaf's P
  used  : Nat
  deriving DecidableEq, Repr

/-- A walk (R219): address space, page, the cycle it began, the mark a TLBI leaves on it. -/
structure Walk where
  asid   : BitVec 14
  vpn    : Nat
  began  : Nat
  marked : Bool
  running : Bool
  deriving DecidableEq, Repr

/-- A frame table entry (R102): STATE, ASID and PTEPA. -/
structure FrameEnt where
  st    : Nat
  asid  : BitVec 14
  ptepa : Nat
  deriving DecidableEq, Repr

/-- A queued fault record (R104). -/
structure FaultRec where
  asid : BitVec 14
  va   : Nat
  kind : Nat
  slot : Nat
  ctx  : W32
  deriving DecidableEq, Repr

/-- A reply cache entry (R230). -/
structure RcEntry where
  seq    : W32
  status : Nat
  data   : W64
  deriving DecidableEq, Repr

/-- A reply cache source: requester (package, tile or unit), its last known ACKED, and its valid entries by SEQ mod 64. -/
structure RcSource where
  acked   : W32
  entries : Map RcEntry
  deriving DecidableEq, Repr

/-- A memory home. -/
structure Home where
  tlb     : List Tlb
  walks   : List Walk
  frames  : Map FrameEnt
  pool    : List Nat
  free    : List Nat
  cold    : List Nat
  hand    : Nat
  poolTgt : BitVec 18
  poolLow : BitVec 18
  sweepEn : Bool
  coldWm  : BitVec 18
  rate    : BitVec 8
  buoys   : List Buoy
  buoyAge : Nat
  rc      : Map RcSource
  faults  : List FaultRec      -- fault records queued to the page service
  lasting : List Nat           -- frames whose line is marked lasting, to be retired (Table 10.3)
  deriving DecidableEq, Repr

/-- A package barrier instance (R223). -/
structure BarInst where
  key    : BarKey
  expect : Nat
  count  : Nat
  phase  : Bool
  deriving DecidableEq, Repr

/-- A joined member of a collective (R428): its package, its position, its core's command, its descriptor, its package mask, its contribution, and how
many bytes of its DST have been written. -/
structure CollMember where
  pkg    : Nat
  pos    : Nat
  cmd    : ECmd
  desc   : List Byte
  mask   : List Byte
  src    : List Byte
  put    : Nat
  deriving DecidableEq, Repr

/-- A collective in progress (R209 to R211, R428): at its root, or, where the root is in another package, as its members of this package know it. What the
root has decided is a status, the reduced elements and the flags. -/
structure Coll where
  key     : CollKey
  first   : Nat                 -- cycle of the first join
  members : List CollMember
  timedOut : Bool
  need    : Nat
  root    : Nat                 -- package of the root
  verdict : Option (Nat × List Byte × BitVec 5)
  refused : List Nat            -- positions whose DST page was refused
  wrote   : List Nat            -- positions whose DST has been written
  served  : List Nat            -- positions whose completion word has been pushed
  deriving DecidableEq, Repr

/-- A die: its barrier home, the reply-cache sequence counters of its collective unit. -/
structure Die where
  bars : List BarInst
  seqs : Map (Nat × Nat)
  deriving DecidableEq, Repr

/-! ### Lantern and launches (spec/07_worklists.md) -/

/-- An item in a lamp's part; one that a pull brought is not yet poppable and waits for its end, by the version the pull carries (Table 7.3). -/
structure FrontItem where
  q    : QItem
  pull : Option Nat
  deriving DecidableEq, Repr

/-- A running pull (R165): the new cutoff, the number asked of each reserve, the version it carries, the reserves still to answer, the least cap and the
least position demoted so far, and how many items the reserves have sent. -/
structure Pull where
  kn   : Option Nat
  m    : Nat
  v    : Nat
  left : List Nat
  cap  : Option Nat
  low  : Option Nat
  sent : Nat
  deriving DecidableEq, Repr

/-- What the keeper is about (R164): it takes its messages one at a time, and one that demotes items, or for which it calls on other packages, is over
when these have answered and the items have reached its tile's reserve. Then it goes on with `next`. DEDUCED (log 88). -/
structure KeeperOp where
  lamps : List Nat              -- lamps whose DEMOTE is not yet answered
  calls : List Nat              -- packages that have still to answer a request
  loose : Int                   -- demoted items not yet in the keeper tile's reserve
  next  : Option Event
  deriving DecidableEq, Repr

/-- A worklist (R159 to R170). A position in the item order is KEY * 2^80 + identity; `none` is +∞. Lamps are numbered over the pod. In a package that
a worklist of another home spans, this is what that package holds of it: the parts of its lamps, the reserves of its tiles and their copies of K. -/
structure WorkList where
  launch  : Nat                   -- its launch, by the key of `Launch.key`
  home    : Nat                   -- the home package
  asid    : BitVec 14
  closed  : Bool
  rho     : Nat
  depth   : Nat
  lamps   : List Nat              -- the lamps it uses, in the order of package and die
  pkgs    : List Nat              -- packages spanned
  ktile   : Nat                   -- the keeper tile, numbered over the pod
  ovbase  : Nat
  ovruns  : Nat
  k       : Option Nat
  v       : Nat
  lampK   : Map (Option Nat × Nat)
  tileK   : Map (Option Nat × Nat)
  parts   : Map (List FrontItem)  -- front parts by lamp
  places  : Nat                   -- places of the front that no item has, of those this package may fill (log 88)
  heap    : Map (List QItem)      -- reserve heap entries by tile
  runs    : Map (List OvRun)      -- overflow runs by tile
  heads   : Map (Option Nat)      -- summary tree: head of each tile's reserve, tiles numbered over the pod
  pull    : Option Pull
  op      : Option KeeperOp
  inbox   : List Event            -- messages that wait for the keeper
  waiters : List PopMsg           -- WLPOPs of this package blocked on the empty worklist
  worst   : Nat                   -- statistics (Table 7.5)
  xpkg    : Bool
  pushes  : W64
  pops    : W64
  nruns   : W32
  demotes : W32
  lastPop : Nat                   -- cycle of the last pop, or of becoming non-empty (R184)
  far     : Map WlNews            -- what the other packages have told the keeper
  last    : Option WlNews         -- what this package last told the keeper
  told    : Bool × Nat × Nat      -- what the keeper last told: whether pops are served, the poppable items, the present items
  gave    : Nat                   -- places this package has given back
  answered : Nat                  -- requests of the keeper it has answered
  before  : List Nat              -- its pops since it last told: the front items here that preceded each
  sent    : Map Nat               -- messages with an item sent to each package
  got     : Map Nat               -- and had from it
  deriving DecidableEq, Repr

/-- A launch header (Table 7.6). -/
structure Header where
  entryp  : W64
  nent    : Nat
  nf      : Nat
  ws      : BitVec 36
  wlid    : Nat
  prio    : Nat
  rho     : Nat
  depth   : Nat
  weight  : Nat
  cosched : Bool
  piste   : Bool
  persist : Bool
  preempt : Bool
  consumer : Bool
  prodwl  : Nat
  asid    : BitVec 14
  seed    : W64
  ctrb    : W64
  firstid : W64
  ntask   : W64
  codeb   : Addr
  codesz  : Nat
  ovbase  : Nat
  ovruns  : Nat
  pmaskp  : Nat
  ktile   : Nat
  lamps   : BitVec 4
  lkey    : W32
  preds   : List W32
  deriving DecidableEq, Repr

/-- Launch states (Table 7.8). -/
inductive LState where
  | waiting | running | triggered | completed | faulted | hung | cancelled
  deriving DecidableEq, Repr

/-- A launch; one of another package, whose worklist spans this one, is known here by what its home has told. -/
structure Launch where
  id      : W32
  away    : Option Nat           -- its home package, where that is another
  h       : Header
  hdrVa   : Addr
  entries : List W64             -- copy of the entry table (R172)
  st      : LState
  reason  : Nat                  -- Table 10.4 REASON
  start   : Nat
  fin     : Nat
  admitted : Bool
  pushed  : Bool                 -- its own range pushes are done (R173)
  dispatched : Nat               -- tasks dispatched
  triggers : Nat                 -- tasks that triggered or ended
  alive   : Nat                  -- tasks not Ended
  regions : List (Nat × Nat)     -- output regions (R420)
  recorded : Bool
  lseq    : Nat                  -- identity sequence of the launch's own pushes (R156)
  pseqs   : Map Nat              -- Piste: push count by logical index (R156)
  turn    : Nat                  -- Piste: logical index whose turn it is (R147)
  creator : Option Nat           -- slot whose WLCFG created it; none for the command processor
  ranging : Bool                 -- a range push of its own has no answer yet (R173)
  turnSt  : Nat                  -- Piste: 0 waiting at the turn, 1 run again while holding it, 2 executing the ending instruction
  deriving DecidableEq, Repr

/-- A worklist id that is asked for but not yet taken (R159, R160, R172): in the home package, while the other packages of a spanning launch are asked
whether the id and the entries of its shares are free there; in each of these, from its answer to the start. By whom: a slot, a ring as 32768 + its
number, another package as 65536 + its number; the packages still to answer, those that keep the id for it, and the least code answered; and the entries
it asks for of each lamp here. DEDUCED (log 89). -/
structure Opening where
  wl     : Nat
  by_    : Nat
  left   : List Nat
  taken  : List Nat
  code   : Nat
  shares : List (Nat × Nat)
  deriving DecidableEq, Repr

/-! ### Contexts, tenants and the package (spec/09_tables.md, spec/22, spec/23) -/

/-- An ASID table entry (R226). -/
structure AsidEnt where
  tenant : BitVec 16
  root   : BitVec 26
  podix  : BitVec 8
  wv     : Bool
  wbase  : BitVec 17
  deriving DecidableEq, Repr

/-- A tenant table entry (R227). -/
structure TenantEnt where
  share : BitVec 6
  rej   : W32
  deriving DecidableEq, Repr

/-- A key slot (R228). -/
structure KeyEnt where
  tenant : BitVec 16
  data   : BitVec 256
  tweak  : BitVec 256
  deriving DecidableEq, Repr

/-- The S-state block of a context (Table 22.8). -/
structure SState where
  stvec   : Addr
  mscodeb : Addr
  mscodel : Addr
  mdeleg  : W32
  sscratch : W64
  wsmax   : BitVec 9
  rsmax   : BitVec 13
  deriving DecidableEq, Repr

/-- The context table entry: window, staging region, launch-record ring and S-state block (R416 to R418, R237). -/
structure Ctx where
  first   : Nat
  last    : Nat
  wok     : Bool
  base    : BitVec 17
  staging : Nat
  stagingSz : Nat
  ringAddr : W64
  ringKey : W32
  ringLogn : Nat
  headAddr : W64
  rseq    : Nat                  -- next record sequence
  tail    : Nat                  -- TAILSEQ
  waiting : List W32             -- launches whose record waits to be written
  recWait : Option Nat           -- page (VA[47:16]) that the digest of the first of them waits for (R236)
  recFail : Bool                 -- that page was refused
  records : List (W32 × List Byte)   -- the last 256 records
  sstate  : SState
  dying   : Bool                 -- CTX_DESTROY runs
  ender   : Option Cmd           -- the CTX_DESTROY that completes with the scrub
  deriving DecidableEq, Repr

/-- A fault-window record (R234). -/
structure FaultWin where
  src    : ErrSrc
  count  : Nat
  thresh : Nat
  window : Nat
  start  : Nat
  lasting : Bool
  deriving DecidableEq, Repr

/-- A breakpoint (R443, R444). -/
structure Brk where
  asid : BitVec 14
  addr : Addr
  tid  : W64
  deriving DecidableEq, Repr

/-- A running SAMPLE (R446): period, periods left, the records taken, where they go and the command it completes. -/
structure Sample where
  id     : Nat
  period : Nat
  left   : Nat
  recs   : List Byte
  cmd    : Cmd
  deriving DecidableEq, Repr

/-- A command ring (Table 22.2) with the tail a kick raised, the re-reads made, and what the standby needs (R421). -/
structure Ring where
  base   : BitVec 39
  logn   : Nat
  owner  : BitVec 16
  open_  : Bool
  next   : W32
  done   : W32
  src    : W64
  cqaddr : W64
  cqkey  : W32
  cqlogn : Nat
  tail   : W32
  tries  : Nat
  ran    : Bool                  -- a record was executed since RING_OPEN
  code   : Nat                   -- code, SUB and VALUE of the last completion
  sub    : Nat
  value  : W64
  htag   : W64
  parked : Option (Cmd × Nat × Nat × Nat)   -- a command parked on a pending page: home, ASID, page
  refused : Bool                 -- that page was refused
  closing : Bool                 -- RING_CLOSE came while a command ran
  put    : Nat                   -- bytes that the current COPY_IN has written
  deriving DecidableEq, Repr

/-- A ring control block at reset: DONE is all ones and every other field 0 (Table 22.2). -/
def Ring.reset : Ring where
  base := 0
  logn := 0
  owner := 0
  open_ := false
  next := 0
  done := 0xFFFFFFFF
  src := 0
  cqaddr := 0
  cqkey := 0
  cqlogn := 0
  tail := 0
  tries := 0
  ran := false
  code := 0
  sub := 0
  value := 0
  htag := 0
  parked := none
  refused := false
  closing := false
  put := 0

/-- An RMA write sent to the host (R408): number, address, key, bytes, and what its acknowledgement lets happen. -/
inductive RmaWhy where
  | completion
  | record (asid : BitVec 14)
  | headWord (asid : BitVec 14)
  | copyOut (c : Cmd)
  | report
  deriving DecidableEq, Repr

/-- An RMA write to the host. -/
structure Rma where
  id    : Nat
  addr  : W64
  key   : W32
  bytes : List Byte
  why   : RmaWhy
  acked : Bool
  deriving DecidableEq, Repr

/-- Port statistics (Table 22.11). -/
structure PortStat where
  rmaok   : W64
  rmadrop : W64
  kickok  : W64
  kickdrop : W64
  retry   : W64
  tenrej  : W64
  deriving DecidableEq, Repr

/-- The host side: rings, landed bits, RMA writes sent, port statistics, notices posted to the command processor. -/
structure HostSt where
  rings  : Map Ring
  landed : List (Nat × Nat)      -- (ring, slot) whose record landed whole (R411)
  turn   : Nat                   -- ring served next (R414)
  sent   : List Rma
  ports  : Map PortStat          -- 0 to 3 Ultra Ethernet, 16 to 31 UALink
  lowPool : List Nat             -- homes that posted a low-pool notice (R103)
  cpSeq  : Nat                   -- the command processor's identity counter (R156)
  active : Bool                  -- the active command processor is the standby
  exec   : Option Nat            -- ring whose command runs (R414)
  deriving DecidableEq, Repr

/-- Boot, identity and measurement (spec/23 R431 to R440). -/
structure Boot where
  powered : Bool
  lit     : Bool                 -- LIGHT
  lightStart : Bool              -- this start is a Lightship start
  starts  : Nat                  -- start counter in the non-volatile store
  startsRead : Nat               -- as read at this start
  lastStop : Nat
  deadline : Nat                 -- cycle 30 s after power-on
  judged  : Bool                 -- the start succeeded or was judged
  reported : Bool
  ended : Bool                   -- the run ended by itself: a failed verification or a start timeout
  released : W64                 -- functions released to start
  reasons : Vector Byte 54       -- REASON bytes
  minSvn  : W32                  -- fused minimum SVN
  img     : Image
  meas    : Vector (BitVec 512) 4
  spared  : W32                  -- SPARED
  full    : Bool                 -- a RESET of every function runs (R434)
  report  : List Byte
  deriving DecidableEq, Repr

/-- Package-scope registers and tables. -/
structure Pkg where
  cycle    : W64                 -- CYCLE
  podIndex : BitVec 8
  members  : List Nat            -- members of the pod (R89)
  chunklen : BitVec 16
  colltmo  : W32
  wlwdog   : W32
  ready    : W64                 -- readiness register (Table 23.1), LIGHT apart
  share    : Map Byte            -- share table (R426)
  plim     : BitVec 12
  tlim     : Byte
  duty     : BitVec 6
  steps    : W32
  asids    : Map AsidEnt
  podmasks : Map (BitVec 256)
  tenants  : Map TenantEnt
  keys     : Map KeyEnt
  ctxs     : Map Ctx
  wins     : List FaultWin
  brks     : Map Brk
  halted   : Bool                -- DEBUG HALT (R429)
  samples  : List Sample
  boot     : Boot
  nextLaunch : W32
  launches : Map Launch
  wls      : Map WorkList
  wlOwner  : Map (BitVec 14)     -- ASID of the last launch under each worklist id
  openings : List Opening
  deriving DecidableEq, Repr

/-! ### Accesses, messages and the interleaving -/

/-- The class of an address (Table 4.3), once the issuing tile has judged it. -/
inductive Cls where
  | sram (tile off : Nat)
  | hbm (va : Nat)
  | pod (pkg : Nat) (local_ : Nat)
  | control (off : Nat)
  deriving DecidableEq, Repr

/-- What a request does at its home. -/
inductive ReqKind where
  | load
  | store
  | probe                        -- a speculative store's checks: its bytes stay in the buffer (R131)
  | amo (op : AmoOp)
  | cas (expect : W64)
  | ldf | ldff | ste | stef | feclr | feget
  | ldr | stc | wrs
  | rupd (op : AmoOp)
  | fetch
  deriving DecidableEq, Repr

/-- Where a request stands. -/
inductive ReqStage where
  | travel
  | walk                         -- waits for a translation walk
  | page                         -- answered pending: waits for the wake (R104)
  | park                         -- full/empty park list (R96)
  | line                         -- waits for a commit hold to be released (R122)
  | notices                      -- performed; its acknowledgement waits for notices to be taken (R135)
  | watch                        -- a WRS waiting on its buoy
  | wake                         -- its page's wake is on its way to the slot (R104, R448)
  | reply
  | done
  deriving DecidableEq, Repr

/-- The outcome of a request. -/
inductive ReqRes where
  | ok (data : List Byte)
  | fail (cause code : Nat)
  | pending
  deriving DecidableEq, Repr

/-- A request of a slot, an engine or another package, from its issue to its completion. -/
structure Req where
  id     : Nat
  slot   : Nat
  ctx    : W32
  tid    : W64
  op     : Nat                   -- the LongOp it belongs to
  lane   : Nat
  tile   : Nat                   -- issuing tile
  kind   : ReqKind
  ptr    : W64                   -- effective pointer
  cls    : Cls
  n      : Nat
  mask   : Nat                   -- bytes read or written, bit i for byte i
  data   : List Byte
  asid   : BitVec 14
  tenant : BitVec 16
  watch  : Option (Nat × Nat)    -- buoy to place: mode and level
  path   : Nat                   -- hop and queue delays of its way so far (R30)
  since  : Nat                   -- cycle in which it, its reply or its wake entered the network
  flies  : Bool                  -- on its way to its home
  stage  : ReqStage
  res    : ReqRes
  home   : Nat                   -- home that performs it
  line   : Nat
  notices : Nat                  -- notices not yet taken
  tries  : Nat                   -- full/empty attempts; of a request answered pending, what wake has overtaken the answer
  limit  : Nat                   -- FERETRY carried in the request
  parked : Nat                   -- cycle of the park
  order  : Nat                   -- arrival order in the park list
  scopeOk : Bool                 -- accepted at its home (RUPD)
  firstTouch : Bool
  seqNo  : W32                   -- pod sequence number
  sent   : Nat                   -- cycle of the last sending
  source : Option PodReq         -- a request that came from another package
  deriving DecidableEq, Repr

/-- An event in flight: the cycle from which it can happen, and the event. -/
structure Pending where
  due : Nat
  ev  : Event
  deriving DecidableEq, Repr

/-- A choice of what happens next: the k-th event in flight; an input from outside the package; or the cores go on (the next selected slot
issues, or a new cycle begins) while events are still on their way. -/
inductive Pick where
  | fire (k : Nat)
  | input (e : Event)
  | core
  deriving DecidableEq, Repr

/-- A TLBI in progress (R220). -/
structure TlbiOp where
  id    : Nat
  slot  : Nat
  ctx   : W32
  kind  : Nat                    -- 0 range, 1 ASID, 2 all
  asid  : BitVec 14
  first : Nat                    -- first page, VA[47:16]
  count : Nat
  left  : List Nat               -- homes it has not reached
  acks  : Nat                    -- acknowledgements still to come: one for each home, and one for each other package
  cmd   : Option Cmd             -- the host command it is part of (R416)
  ptes  : List Nat               -- the leaf entries whose V an UNMAP has cleared
  asker : Option (Nat × Nat)     -- the other package it came from, and its number there
  deriving DecidableEq, Repr

/-- A commit hold at a line (R141, R142). -/
structure LineHold where
  home : Nat
  line : Nat
  vline : Nat
  slot : Nat
  key  : Option (BitVec 512)     -- the key the line is written under
  drain : Bool                   -- of a glide drain
  point : Bool                   -- its owner is past its commit point
  deriving DecidableEq, Repr

/-- A task on its way to another tile (R83). -/
structure Moving where
  tid  : W64
  tile : Nat
  task : SaveRec
  deriving DecidableEq, Repr

/-- An engine command parked on a pending page (R104): a copy of a core, a COLL of a core that has not joined, a joined member of a collective. -/
inductive Parker where
  | copy (core : Nat)
  | join (core : Nat)
  | member (key : CollKey) (pos : Nat)
  deriving DecidableEq, Repr

/-- What waits for a page (VA[47:16]). -/
structure Park where
  asid : BitVec 14
  page : Nat
  who  : Parker
  deriving DecidableEq, Repr

/-- A notice that a watcher of another package has still to take (R135, R215): its number, the write whose acknowledgement waits for it, the package,
and the home and line here; `loss` marks a loss notice, which holds up the writes of its line. -/
structure AwayNotice where
  id   : Nat
  ack  : Nat
  pkg  : Nat
  home : Nat
  line : Nat
  loss : Bool
  deriving DecidableEq, Repr

/-- What travels, and what decides the order in which it arrives. -/
structure Net where
  pend   : List Pending
  nextId : Nat
  reqs   : Map Req
  plan   : List Pick             -- the choices still to be made; the machine takes its own order where the list is empty
  issueQ : List Nat              -- slots selected in this cycle and not yet issued
  chosen : Bool                  -- the cores have selected in this cycle
  tlbis  : List TlbiOp
  holds  : List LineHold
  moving : List Moving
  colls  : List Coll
  parks  : List Park
  out    : List (PodReq × PodAnswer)   -- answers to other packages that leave in this cycle
  outbox : List (Nat × Event)    -- requests and messages to other packages that leave in this cycle: package, and what arrives there
  away   : List AwayNotice       -- notices to watchers of other packages that are not known to be taken (R135)
  csrs   : List (Nat × Nat × W64)   -- writes of CSRs of tile and package scope made in this cycle: slot, number, value (R60)
  free   : Nat                   -- counter of free values
  deriving DecidableEq, Repr

/-- Line attributes of memory: full words (by word number), poisoned lines and zero-state lines (by line number), and the keys
under which each HBM line was last written (data key in the low half), where that was not plaintext. -/
structure Attrs where
  full   : NatSet
  poison : NatSet
  zero   : NatSet
  keyOf  : Map (BitVec 512)
  deriving DecidableEq, Repr

/-- The machine. -/
structure State where
  curId : Nat                    -- the slot in focus: the one whose instruction issues, or that the event concerns
  cur   : Slot
  slots : Map Slot               -- the other slots that are not as reset
  cores : Map Core
  tiles : Map Tile
  homes : Map Home
  dies  : Map Die
  tasks : Map Task               -- by TID
  mem   : Memory
  attrs : Attrs
  pkg   : Pkg
  host  : HostSt
  net   : Net
  deriving DecidableEq, Repr

/-- Why the machine cannot make a step. -/
inductive Fault where
  /-- Raised by an instruction given to a slot that holds no task: instructions execute only in a slot that holds one (R15, R19). Safe: the
  hardware never issues such an instruction. -/
  | slotEmpty
  deriving DecidableEq, Repr

/-- Why an instruction has no meaning in the model. -/
inductive Refusal where
  /-- Raised by an arm of `exec` whose instruction has no meaning yet. Safe: the machine stops. -/
  | notModelled (mnemonic : String)
  deriving DecidableEq, Repr

/-! ### Reset -/

/-- Register files as dispatch leaves them (R20): every register reads zero; p0 reads 0xFFFF through its reader. -/
def Regs.zero : Regs where
  g := .replicate 32 0
  v := .replicate 32 (.replicate 16 0)
  p := .replicate 8 0
  shadow := .replicate 4 0

/-- Reset values of the user CSRs (Table 3.2, Table 3.5). -/
def UCsr.reset : UCsr where
  fflags := 0
  frm := 0
  txcause := 0
  msa := 0
  msb := 0
  msc := 0
  wid := 0
  widf := 0
  tid := 0
  ikey := 0
  iarg := 0
  launch := 0
  seed := 0
  ctrb := 0
  codeb := 0
  codel := 0
  retired := 0
  turns := 0
  uevec := 0
  uepc := 0
  uepend := 0
  uekind := 0
  uetag := 0
  uetags := .replicate 3 0
  uemask := 0
  active := false
  dmap := 0xFEDCBA9876543210
  dacc := .replicate 16 0
  daccAt := (0, 0)

/-- Reset values of the supervisor CSRs (Table 3.3). -/
def SCsr.reset : SCsr where
  spp := 0
  intrap := false
  piste := false
  stvec := 0
  sepc := 0
  scause := 0
  sxaddr := 0
  sscratch := 0
  asid := 0
  tenant := 0
  wsmax := 64
  rsmax := 256

/-- Reset values of the machine CSRs (Table 3.4). MTVEC is the MENTRY of the running firmware image; before any image runs the model
takes 0. DESIGN CHOICE (log 4), unsafe. -/
def MCsr.reset : MCsr where
  mpp := 2
  intrap := false
  mtvec := 0
  mepc := 0
  mcause := 0
  mxaddr := 0
  mscratch := 0
  mdeleg := 0x003FFFFE
  ctxser := 0
  mscodeb := 0
  mscodel := 0

/-- No speculation. -/
def Spec.none : Spec where
  mode := .none
  depth := 0
  restart := 0
  abortTo := 0
  alts := .replicate 4 Option.none
  ckpt := Option.none
  watch := []
  wake := false
  commit := .none
  toHold := []
  toApply := []
  barrier := Option.none
  undo := Option.none
  stalled := false
  lost := false
  dirty := false
  ended := false
  count := 0
  updates := []

/-- A slot at reset: free, every CSR at its reset value. The level of a free slot and its pc are the model's own (log 4). -/
def Slot.reset : Slot where
  status := .free
  level := .u
  pc := 0
  regs := Regs.zero
  u := UCsr.reset
  sc := SCsr.reset
  mc := MCsr.reset
  busy := []
  ops := []
  fails := []
  inwin := false
  skip := (0, 0)
  hold := .none
  word := 0
  wait := 0
  asked := 0
  age := 0
  yld := false
  forfeit := 0
  frame := Option.none
  spec := Spec.none
  rsv := Option.none
  rmask := 0
  occurred := false
  refuse := false
  commits := 0
  pushSeq := 0
  serial := 0
  stopReq := .none
  ending := false
  leaving := false
  lkey := 0

/-- A task of which nothing is held yet. -/
def Task.fresh : Task where
  launch := 0
  asid := 0
  place := .ended
  q1 := []
  q3 := []
  q5 := []
  out1 := 0
  out3 := 0
  out5 := 0
  chans := .replicate 8 Option.none
  stash := []
  held := .replicate 5 Option.none
  arrivals := .replicate 32 Option.none
  trig := false
  mser := 0
  colls := []
  refused := []

/-- A free accumulator reads as zeros (R84). -/
def Acc.free : Acc where
  owner := Option.none
  elems := .replicate 256 0

/-- A core at reset. -/
def Core.reset : Core where
  cur := 0
  last := 0
  pol := false
  q0 := []
  q2 := []
  q4 := []
  run0 := []
  run2 := Option.none
  join4 := Option.none
  buf := []
  accs := .replicate 8 Acc.free
  align := Option.none

/-- A tile at reset (Tables 3.4, 9.4, 10.1). -/
def Tile.reset : Tile where
  mweight := 0
  feretry := 4096
  sel := 0
  pcs := .replicate 8 0
  pcAt := (0, 0)
  run := false
  windows := []
  wires := .replicate 16 ⟨0, 0, false⟩
  buoys := []
  buoyAge := 0
  icache := []
  filling := []
  mrr := (0, 0)
  mbusy := 0
  latches := []
  crr := 0
  prefetched := []
  asking := []
  wrr := []
  reserved := []
  recs := []
  retired := false
  userTop := 0x380000
  spared := []
  seqs := []

/-- A memory home at reset (Table 4.6). -/
def Home.reset : Home where
  tlb := []
  walks := []
  frames := []
  pool := []
  free := []
  cold := []
  hand := 0
  poolTgt := 256
  poolLow := 16
  sweepEn := false
  coldWm := 512
  rate := 64
  buoys := []
  buoyAge := 0
  rc := []
  faults := []
  lasting := []

/-- A die at reset. -/
def Die.reset : Die where
  bars := []
  seqs := []

/-- An image of which nothing is known. -/
def noImage : Image where
  sigOk := false
  svn := 0
  mentry := 0
  commit := false
  stages := []
  reportTo := 0
  reportKey := 0
  ring0 := 0
  ring0Src := 0
  ring0Cq := 0
  ring0CqKey := 0
  cert := []
  podIndex := 0
  members := []
  podMasks := []

/-- Boot state right after power-on reset, before the boot ROM runs (R433); the non-volatile counters read 0. DESIGN CHOICE (log 4). -/
def Boot.reset : Boot where
  powered := true
  lit := false
  lightStart := false
  starts := 0
  startsRead := 0
  lastStop := 0
  deadline := 0
  judged := false
  reported := false
  ended := false
  released := 0
  reasons := .replicate 54 0
  minSvn := 0
  img := noImage
  meas := .replicate 4 0
  spared := 0
  full := false
  report := []

/-- Package-scope state at reset (Tables 3.4, 9, 23.1, 23.3). -/
def Pkg.reset : Pkg where
  cycle := 0
  podIndex := 0
  members := []
  chunklen := 2048
  colltmo := 0
  wlwdog := 0
  ready := 0
  share := []
  plim := 2000
  tlim := 105
  duty := 0
  steps := 0
  asids := []
  podmasks := []
  tenants := []
  keys := []
  ctxs := []
  wins := []
  brks := []
  halted := false
  samples := []
  boot := Boot.reset
  nextLaunch := 1
  launches := []
  wls := []
  wlOwner := []
  openings := []

/-- The host side at reset: no ring is open. -/
def HostSt.reset : HostSt where
  rings := []
  landed := []
  turn := 0
  sent := []
  ports := []
  lowPool := []
  cpSeq := 549755813888
  active := false
  exec := none

/-- Nothing travels. -/
def Net.reset : Net where
  pend := []
  nextId := 1
  reqs := []
  plan := []
  issueQ := []
  chosen := false
  tlbis := []
  holds := []
  moving := []
  colls := []
  parks := []
  out := []
  outbox := []
  away := []
  csrs := []
  free := 0

/-- The machine right after power-on reset: every slot free, every CSR and table at the reset value the spec states, every slice zeroed with
all full/empty bits empty (R95), memory with nothing listed. -/
def State.reset : State where
  curId := 0
  cur := Slot.reset
  slots := []
  cores := []
  tiles := []
  homes := []
  dies := []
  tasks := []
  mem := []
  attrs := ⟨[], [], [], []⟩
  pkg := Pkg.reset
  host := HostSt.reset
  net := Net.reset

end Sys2Proof.Machine
end

