-- ==== Sys2Proof/Machine/Info.lean ====
section
/-! DEFINITION. What the core knows of an instruction before it issues: the registers it names, its latency and lookahead, and its
classes (spec/03_registers.md R65 to R72; spec/05_ordering.md Table 5.1; spec/06_speculation.md Table 6.3; Tables 13.1, 14.1, 15.1). -/

namespace Sys2Proof.Machine

/-- How an instruction is ordered among the accesses of its slot (Table 5.1). `ordinaryIssue` is a matrix command, which issues under the
condition of an ordinary access and is none itself (R348). -/
inductive Kind where
  | none | ordinary | acquiring | relaxed | update | ordinaryIssue
  deriving DecidableEq, Repr

/-- The row of Table 6.3 an instruction belongs to. -/
inductive SpecCls where
  | plain | mem | atomic | rupd | fence | fenceAcq | engine | wl | tx | txb | bar | csrFp | sys | trapi
  deriving DecidableEq, Repr

/-- What the core knows of an instruction before it issues. `names` holds the registers it reads or writes in the order of R69
(D, A, B, C, then the mask), `dests` its destinations. -/
structure Info where
  names  : List RegRef
  dests  : List RegRef
  lat    : Nat := 1
  la     : Nat := 0
  long   : Bool := false
  serial : Bool := false
  kind   : Kind := .none
  cls    : SpecCls := .plain
  level  : Level := .u
  push   : Option Nat := none
  csr    : Option (BitVec 12) := none

/-- An event is no instruction of a slot. -/
def Info.event : Info := { names := [], dests := [] }

/-- An access with an X bit is relaxed when it is set and ordinary otherwise (R316). -/
def accKind (x : Bool) : Kind := if x then .relaxed else .ordinary

/-- The row of Table 6.3 of a CSR write: FFLAGS and FRM have their own. -/
def csrWrite (csr : BitVec 12) : SpecCls := if csr = 0x001 ∨ csr = 0x002 then .csrFp else .sys

/-- CSRS and CSRC with A = 0 only read (R369). -/
def csrBits (a : RegNo) (csr : BitVec 12) : SpecCls := if a = 0 then .plain else csrWrite csr

/-- The level a CSR number needs (R60). Numbers above the tables' range name no CSR at any level (R264). -/
def csrLevel (csr : BitVec 12) : Level :=
  if csr.toNat < 0x100 ∨ 0x400 ≤ csr.toNat then .u else if csr.toNat < 0x200 then .s else .m

/-- Whether Tables 3.2 to 3.4 assign a CSR number (R60). -/
def csrAssigned (csr : BitVec 12) : Bool :=
  let n := csr.toNat
  decide (1 ≤ n ∧ n ≤ 4) || decide (0x10 ≤ n ∧ n ≤ 0x12) || decide (0x20 ≤ n ∧ n ≤ 0x2A) || decide (0x30 ≤ n ∧ n ≤ 0x32) ||
    decide (0x40 ≤ n ∧ n ≤ 0x43) || n == 0xB0 || decide (0xC0 ≤ n ∧ n ≤ 0xCF) || decide (0x100 ≤ n ∧ n ≤ 0x106) || n == 0x120 || n == 0x121 ||
    decide (0x200 ≤ n ∧ n ≤ 0x209) || n == 0x210 || n == 0x220 || n == 0x221 || decide (0x230 ≤ n ∧ n ≤ 0x232)

/-- The issue data of every instruction. -/
def infoOf (i : Instr) : Info :=
  match i with
  | .add d a b => { names := [.g d, .g a, .g b], dests := [.g d] }
  | .sub d a b => { names := [.g d, .g a, .g b], dests := [.g d] }
  | .mul d a b => { names := [.g d, .g a, .g b], dests := [.g d], lat := 3 }
  | .mulh d a b => { names := [.g d, .g a, .g b], dests := [.g d], lat := 3 }
  | .mulhn d a b => { names := [.g d, .g a, .g b], dests := [.g d], lat := 3 }
  | .div d a b la => { names := [.g d, .g a, .g b], dests := [.g d], la := la.toNat, long := true }
  | .divn d a b la => { names := [.g d, .g a, .g b], dests := [.g d], la := la.toNat, long := true }
  | .rem d a b la => { names := [.g d, .g a, .g b], dests := [.g d], la := la.toNat, long := true }
  | .remn d a b la => { names := [.g d, .g a, .g b], dests := [.g d], la := la.toNat, long := true }
  | .and d a b => { names := [.g d, .g a, .g b], dests := [.g d] }
  | .or d a b => { names := [.g d, .g a, .g b], dests := [.g d] }
  | .xor d a b => { names := [.g d, .g a, .g b], dests := [.g d] }
  | .andn d a b => { names := [.g d, .g a, .g b], dests := [.g d] }
  | .shl d a b => { names := [.g d, .g a, .g b], dests := [.g d] }
  | .shr d a b => { names := [.g d, .g a, .g b], dests := [.g d] }
  | .sra d a b => { names := [.g d, .g a, .g b], dests := [.g d] }
  | .min d a b => { names := [.g d, .g a, .g b], dests := [.g d] }
  | .max d a b => { names := [.g d, .g a, .g b], dests := [.g d] }
  | .minn d a b => { names := [.g d, .g a, .g b], dests := [.g d] }
  | .maxn d a b => { names := [.g d, .g a, .g b], dests := [.g d] }
  | .clz d a => { names := [.g d, .g a], dests := [.g d] }
  | .popc d a => { names := [.g d, .g a], dests := [.g d] }
  | .bfx d a b => { names := [.g d, .g a, .g b], dests := [.g d] }
  | .bfxn d a b => { names := [.g d, .g a, .g b], dests := [.g d] }
  | .bfi d a b => { names := [.g d, .g a, .g b], dests := [.g d] }
  | .sel d a b p => { names := [.g d, .g a, .g b, .p p], dests := [.g d] }
  | .cmp p a b _ => { names := [.p p, .g a, .g b], dests := [.p p] }
  | .addi d a _ => { names := [.g d, .g a], dests := [.g d] }
  | .andi d a _ => { names := [.g d, .g a], dests := [.g d] }
  | .ori d a _ => { names := [.g d, .g a], dests := [.g d] }
  | .xori d a _ => { names := [.g d, .g a], dests := [.g d] }
  | .shli d a _ => { names := [.g d, .g a], dests := [.g d] }
  | .shri d a _ => { names := [.g d, .g a], dests := [.g d] }
  | .srai d a _ => { names := [.g d, .g a], dests := [.g d] }
  | .lim d _ _ => { names := [.g d], dests := [.g d] }
  | .cmpi p _ a _ => { names := [.p p, .g a], dests := [.p p] }
  | .paddi d a _ => { names := [.g d, .g a], dests := [.g d] }
  | .padd d a b => { names := [.g d, .g a, .g b], dests := [.g d] }
  | .psub d a b => { names := [.g d, .g a, .g b], dests := [.g d] }
  | .ptag d a b => { names := [.g d, .g a, .g b], dests := [.g d] }
  | .pget d a => { names := [.g d, .g a], dests := [.g d] }
  | .fadd d a b => { names := [.g d, .g a, .g b], dests := [.g d], lat := 4 }
  | .fsub d a b => { names := [.g d, .g a, .g b], dests := [.g d], lat := 4 }
  | .fmul d a b => { names := [.g d, .g a, .g b], dests := [.g d], lat := 4 }
  | .fdiv d a b la => { names := [.g d, .g a, .g b], dests := [.g d], la := la.toNat, long := true }
  | .fsqrt d a la => { names := [.g d, .g a], dests := [.g d], la := la.toNat, long := true }
  | .fmin d a b => { names := [.g d, .g a, .g b], dests := [.g d], lat := 4 }
  | .fmax d a b => { names := [.g d, .g a, .g b], dests := [.g d], lat := 4 }
  | .fcmp d a b _ => { names := [.g d, .g a, .g b], dests := [.g d], lat := 4 }
  | .fcvtF2i d a => { names := [.g d, .g a], dests := [.g d], lat := 4 }
  | .fcvtF2n d a => { names := [.g d, .g a], dests := [.g d], lat := 4 }
  | .fcvtI2f d a => { names := [.g d, .g a], dests := [.g d], lat := 4 }
  | .fcvtN2f d a => { names := [.g d, .g a], dests := [.g d], lat := 4 }
  | .fclass d a => { names := [.g d, .g a], dests := [.g d], lat := 4 }
  | .fma d a b c => { names := [.g d, .g a, .g b, .g c], dests := [.g d], lat := 4 }
  | .fms d a b c => { names := [.g d, .g a, .g b, .g c], dests := [.g d], lat := 4 }
  | .fnma d a b c => { names := [.g d, .g a, .g b, .g c], dests := [.g d], lat := 4 }
  | .brAny p _ => { names := [.p p], dests := [], serial := true }
  | .brNone p _ => { names := [.p p], dests := [], serial := true }
  | .bcc a b _ _ => { names := [.g a, .g b], dests := [], serial := true }
  | .bra _ => { names := [], dests := [], serial := true }
  | .call _ => { names := [.g 31], dests := [.g 31], serial := true }
  | .jr a => { names := [.g a], dests := [], serial := true }
  | .callr a => { names := [.g a, .g 31], dests := [.g 31], serial := true }
  | .ret => { names := [.g 31], dests := [], serial := true }
  | .loop a _ => { names := [.g a], dests := [.g a], serial := true }
  | .repf _ _ _ _ => { names := [], dests := [], serial := true }
  | .ld d a la x _ _ => { names := [.g d, .g a], dests := [.g d], la := la.toNat, long := true, kind := accKind x, cls := .mem }
  | .ldn d a la x _ _ => { names := [.g d, .g a], dests := [.g d], la := la.toNat, long := true, kind := accKind x, cls := .mem }
  | .st d a la x _ _ => { names := [.g d, .g a], dests := [], la := la.toNat, long := true, kind := accKind x, cls := .mem }
  | .ldx d a b la x _ _ => { names := [.g d, .g a, .g b], dests := [.g d], la := la.toNat, long := true, kind := accKind x, cls := .mem }
  | .stx d a b la x _ => { names := [.g d, .g a, .g b], dests := [], la := la.toNat, long := true, kind := accKind x, cls := .mem }
  | .ldf d a la => { names := [.g d, .g a], dests := [.g d], la := la.toNat, long := true, kind := .acquiring, cls := .atomic }
  | .ldff d a la => { names := [.g d, .g a], dests := [.g d], la := la.toNat, long := true, kind := .acquiring, cls := .atomic }
  | .ste d a la => { names := [.g d, .g a], dests := [], la := la.toNat, long := true, kind := .ordinary, cls := .atomic }
  | .stef d a la => { names := [.g d, .g a], dests := [], la := la.toNat, long := true, kind := .ordinary, cls := .atomic }
  | .feclr a la => { names := [.g a], dests := [], la := la.toNat, long := true, kind := .ordinary, cls := .atomic }
  | .feget d a la => { names := [.g d, .g a], dests := [.g d], la := la.toNat, long := true, kind := .ordinary, cls := .atomic }
  | .amoAdd d a b la _ => { names := [.g d, .g a, .g b], dests := [.g d], la := la.toNat, long := true, kind := .acquiring, cls := .atomic }
  | .amoAnd d a b la _ => { names := [.g d, .g a, .g b], dests := [.g d], la := la.toNat, long := true, kind := .acquiring, cls := .atomic }
  | .amoOr d a b la _ => { names := [.g d, .g a, .g b], dests := [.g d], la := la.toNat, long := true, kind := .acquiring, cls := .atomic }
  | .amoXor d a b la _ => { names := [.g d, .g a, .g b], dests := [.g d], la := la.toNat, long := true, kind := .acquiring, cls := .atomic }
  | .amoMin d a b la _ => { names := [.g d, .g a, .g b], dests := [.g d], la := la.toNat, long := true, kind := .acquiring, cls := .atomic }
  | .amoMax d a b la _ => { names := [.g d, .g a, .g b], dests := [.g d], la := la.toNat, long := true, kind := .acquiring, cls := .atomic }
  | .amoMinn d a b la _ => { names := [.g d, .g a, .g b], dests := [.g d], la := la.toNat, long := true, kind := .acquiring, cls := .atomic }
  | .amoMaxn d a b la _ => { names := [.g d, .g a, .g b], dests := [.g d], la := la.toNat, long := true, kind := .acquiring, cls := .atomic }
  | .amoSwap d a b la _ => { names := [.g d, .g a, .g b], dests := [.g d], la := la.toNat, long := true, kind := .acquiring, cls := .atomic }
  | .amoFadd d a b la => { names := [.g d, .g a, .g b], dests := [.g d], la := la.toNat, long := true, kind := .acquiring, cls := .atomic }
  | .cas d a b c _ => { names := [.g d, .g a, .g b, .g c], dests := [.g d], long := true, kind := .acquiring, cls := .atomic }
  | .ldr d a la _ => { names := [.g d, .g a], dests := [.g d], la := la.toNat, long := true, kind := .acquiring, cls := .atomic }
  | .stc d a b la _ => { names := [.g d, .g a, .g b], dests := [.g d], la := la.toNat, long := true, kind := .ordinary, cls := .atomic }
  | .wrs d a la _ => { names := [.g d, .g a], dests := [.g d], la := la.toNat, long := true, kind := .acquiring, cls := .atomic }
  | .rupdAdd a b _ => { names := [.g a, .g b], dests := [], kind := .update, cls := .rupd }
  | .rupdAnd a b _ => { names := [.g a, .g b], dests := [], kind := .update, cls := .rupd }
  | .rupdOr a b _ => { names := [.g a, .g b], dests := [], kind := .update, cls := .rupd }
  | .rupdXor a b _ => { names := [.g a, .g b], dests := [], kind := .update, cls := .rupd }
  | .rupdMin a b _ => { names := [.g a, .g b], dests := [], kind := .update, cls := .rupd }
  | .rupdMax a b _ => { names := [.g a, .g b], dests := [], kind := .update, cls := .rupd }
  | .rupdMinn a b _ => { names := [.g a, .g b], dests := [], kind := .update, cls := .rupd }
  | .rupdMaxn a b _ => { names := [.g a, .g b], dests := [], kind := .update, cls := .rupd }
  | .rupdFadd a b => { names := [.g a, .g b], dests := [], kind := .update, cls := .rupd }
  | .fence _ => { names := [], dests := [], serial := true, cls := .fence }
  | .fenceAcq _ => { names := [], dests := [], serial := true, cls := .fenceAcq }
  | .fenceRel _ => { names := [], dests := [], serial := true, cls := .fence }
  | .fenceEng _ => { names := [], dests := [], serial := true, cls := .fence }
  | .bara _ => { names := [], dests := [], serial := true, cls := .bar }
  | .barw _ => { names := [], dests := [], serial := true, cls := .bar }
  | .barg _ => { names := [], dests := [], serial := true, cls := .bar }
  | .barq d _ => { names := [.g d], dests := [.g d], serial := true, cls := .bar }
  | .barset _ b => { names := [.g b], dests := [.g b], serial := true, cls := .bar, level := .s }
  | .txb _ => { names := [], dests := [], serial := true, cls := .txb }
  | .txelse _ => { names := [], dests := [], serial := true, cls := .tx }
  | .txe => { names := [], dests := [], serial := true, cls := .tx }
  | .txr => { names := [], dests := [], serial := true, cls := .tx }
  | .txabort _ => { names := [], dests := [], serial := true, cls := .tx }
  | .txst d => { names := [.g d], dests := [.g d], serial := true, cls := .tx }
  | .vld d a la x m _ => { names := [.v d, .g a, .p m], dests := [.v d], la := la.toNat, long := true, kind := accKind x, cls := .mem }
  | .vldC d a la x m _ => { names := [.v d, .g a, .p m], dests := [.v d], la := la.toNat, long := true, kind := accKind x, cls := .mem }
  | .vst d a la x m _ => { names := [.v d, .g a, .p m], dests := [], la := la.toNat, long := true, kind := accKind x, cls := .mem }
  | .vldx d a b la x _ m _ => { names := [.v d, .g a, .v b, .p m], dests := [.v d], la := la.toNat, long := true, kind := accKind x, cls := .mem }
  | .vstx d a b la x _ m => { names := [.v d, .g a, .v b, .p m], dests := [], la := la.toNat, long := true, kind := accKind x, cls := .mem }
  | .vlds d a b la m x => { names := [.v d, .g a, .g b, .p m], dests := [.v d], la := la.toNat, long := true, kind := accKind x, cls := .mem }
  | .vsts d a b la m x => { names := [.v d, .g a, .g b, .p m], dests := [], la := la.toNat, long := true, kind := accKind x, cls := .mem }
  | .vadd d a b m => { names := [.v d, .v a, .v b, .p m], dests := [.v d], lat := 2 }
  | .vsub d a b m => { names := [.v d, .v a, .v b, .p m], dests := [.v d], lat := 2 }
  | .vmul d a b m => { names := [.v d, .v a, .v b, .p m], dests := [.v d], lat := 3 }
  | .vmulh d a b m => { names := [.v d, .v a, .v b, .p m], dests := [.v d], lat := 3 }
  | .vand d a b m => { names := [.v d, .v a, .v b, .p m], dests := [.v d], lat := 2 }
  | .vor d a b m => { names := [.v d, .v a, .v b, .p m], dests := [.v d], lat := 2 }
  | .vxor d a b m => { names := [.v d, .v a, .v b, .p m], dests := [.v d], lat := 2 }
  | .vshl d a b m => { names := [.v d, .v a, .v b, .p m], dests := [.v d], lat := 2 }
  | .vshr d a b m => { names := [.v d, .v a, .v b, .p m], dests := [.v d], lat := 2 }
  | .vsra d a b m => { names := [.v d, .v a, .v b, .p m], dests := [.v d], lat := 2 }
  | .vmin d a b m => { names := [.v d, .v a, .v b, .p m], dests := [.v d], lat := 2 }
  | .vmax d a b m => { names := [.v d, .v a, .v b, .p m], dests := [.v d], lat := 2 }
  | .vminn d a b m => { names := [.v d, .v a, .v b, .p m], dests := [.v d], lat := 2 }
  | .vmaxn d a b m => { names := [.v d, .v a, .v b, .p m], dests := [.v d], lat := 2 }
  | .vabs d a m => { names := [.v d, .v a, .p m], dests := [.v d], lat := 2 }
  | .vneg d a m => { names := [.v d, .v a, .p m], dests := [.v d], lat := 2 }
  | .vcmp d a b m _ => { names := [.p d, .v a, .v b, .p m], dests := [.p d], lat := 2 }
  | .vsel d a b m => { names := [.v d, .v a, .v b, .p m], dests := [.v d], lat := 2 }
  | .vclz d a m => { names := [.v d, .v a, .p m], dests := [.v d], lat := 2 }
  | .vpopc d a m => { names := [.v d, .v a, .p m], dests := [.v d], lat := 2 }
  | .vfadd d a b m => { names := [.v d, .v a, .v b, .p m], dests := [.v d], lat := 4 }
  | .vfsub d a b m => { names := [.v d, .v a, .v b, .p m], dests := [.v d], lat := 4 }
  | .vfmul d a b m => { names := [.v d, .v a, .v b, .p m], dests := [.v d], lat := 4 }
  | .vfmin d a b m => { names := [.v d, .v a, .v b, .p m], dests := [.v d], lat := 4 }
  | .vfmax d a b m => { names := [.v d, .v a, .v b, .p m], dests := [.v d], lat := 4 }
  | .vfabs d a m => { names := [.v d, .v a, .p m], dests := [.v d], lat := 4 }
  | .vfneg d a m => { names := [.v d, .v a, .p m], dests := [.v d], lat := 4 }
  | .vfcmp d a b m _ => { names := [.p d, .v a, .v b, .p m], dests := [.p d], lat := 4 }
  | .vfma d a b c m => { names := [.v d, .v a, .v b, .v c, .p m], dests := [.v d], lat := 4 }
  | .vfms d a b c m => { names := [.v d, .v a, .v b, .v c, .p m], dests := [.v d], lat := 4 }
  | .vfnma d a b c m => { names := [.v d, .v a, .v b, .v c, .p m], dests := [.v d], lat := 4 }
  | .vma d a b c m => { names := [.v d, .v a, .v b, .v c, .p m], dests := [.v d], lat := 3 }
  | .vfdiv d a b la m => { names := [.v d, .v a, .v b, .p m], dests := [.v d], la := la.toNat, long := true }
  | .vfsqrt d a la m => { names := [.v d, .v a, .p m], dests := [.v d], la := la.toNat, long := true }
  | .vfrcp d a la m => { names := [.v d, .v a, .p m], dests := [.v d], la := la.toNat, long := true }
  | .vfrsq d a la m => { names := [.v d, .v a, .p m], dests := [.v d], la := la.toNat, long := true }
  | .vfexp2 d a la m => { names := [.v d, .v a, .p m], dests := [.v d], la := la.toNat, long := true }
  | .vflog2 d a la m => { names := [.v d, .v a, .p m], dests := [.v d], la := la.toNat, long := true }
  | .vcvtF2bf d a b m => { names := [.v d, .v a, .v b, .p m], dests := [.v d], lat := 3 }
  | .vcvtBf2f d a _ m => { names := [.v d, .v a, .p m], dests := [.v d], lat := 3 }
  | .vcvtF2h d a b m => { names := [.v d, .v a, .v b, .p m], dests := [.v d], lat := 3 }
  | .vcvtH2f d a _ m => { names := [.v d, .v a, .p m], dests := [.v d], lat := 3 }
  | .vcvtF2e4 d a _ m => { names := [.v d, .v a, .p m], dests := [.v d], lat := 3 }
  | .vcvtE42f d a _ m => { names := [.v d, .v a, .p m], dests := [.v d], lat := 3 }
  | .vcvtF2e5 d a _ m => { names := [.v d, .v a, .p m], dests := [.v d], lat := 3 }
  | .vcvtE52f d a _ m => { names := [.v d, .v a, .p m], dests := [.v d], lat := 3 }
  | .vcvtF2i d a m => { names := [.v d, .v a, .p m], dests := [.v d], lat := 3 }
  | .vcvtI2f d a m => { names := [.v d, .v a, .p m], dests := [.v d], lat := 3 }
  | .vcvtN2f d a m => { names := [.v d, .v a, .p m], dests := [.v d], lat := 3 }
  | .vcvtF2n d a m => { names := [.v d, .v a, .p m], dests := [.v d], lat := 3 }
  | .vcvtI2b d a _ m => { names := [.v d, .v a, .p m], dests := [.v d], lat := 3 }
  | .vcvtB2i d a _ m => { names := [.v d, .v a, .p m], dests := [.v d], lat := 3 }
  | .vbcast d a m => { names := [.v d, .g a, .p m], dests := [.v d], lat := 3 }
  | .vext d a b => { names := [.g d, .v a, .g b], dests := [.g d], lat := 3 }
  | .vins d a b => { names := [.v d, .g a, .g b], dests := [.v d], lat := 3 }
  | .vperm d a b m => { names := [.v d, .v a, .v b, .p m], dests := [.v d], lat := 3 }
  | .viota d m => { names := [.v d, .p m], dests := [.v d], lat := 3 }
  | .vred d a _ m => { names := [.g d, .v a, .p m], dests := [.g d], lat := 6 }
  | .vscan d a _ m => { names := [.v d, .v a, .p m], dests := [.v d], lat := 3 }
  | .vcomp d a m => { names := [.v d, .v a, .p m], dests := [.v d], lat := 3 }
  | .vslide d a b m => { names := [.v d, .v a, .g b, .p m], dests := [.v d], lat := 3 }
  | .pand d a b => { names := [.p d, .p a, .p b], dests := [.p d] }
  | .por d a b => { names := [.p d, .p a, .p b], dests := [.p d] }
  | .pxor d a b => { names := [.p d, .p a, .p b], dests := [.p d] }
  | .pandn d a b => { names := [.p d, .p a, .p b], dests := [.p d] }
  | .pnot d a => { names := [.p d, .p a], dests := [.p d] }
  | .pcnt d a => { names := [.g d, .p a], dests := [.g d] }
  | .pfirst d a => { names := [.g d, .p a], dests := [.g d] }
  | .pset d a => { names := [.p d, .g a], dests := [.p d] }
  | .pgets d a => { names := [.g d, .p a], dests := [.g d] }
  | .mma md a b _ _ _ => { names := [.m md, .g a, .g b], dests := [], kind := .ordinaryIssue, cls := .engine }
  | .mmaIx md a b v _ _ _ => { names := [.m md, .g a, .g b, .v v], dests := [], kind := .ordinaryIssue, cls := .engine }
  | .msp md a b v _ _ _ => { names := [.m md, .g a, .g b, .v v, .v (v + 1)], dests := [], kind := .ordinaryIssue, cls := .engine }
  | .mzero d => { names := [.m d], dests := [], cls := .engine }
  | .mlda d a => { names := [.m d, .g a], dests := [], kind := .ordinaryIssue, cls := .engine }
  | .msta d a => { names := [.m d, .g a], dests := [], cls := .engine }
  | .mmov d a => { names := [.m d, .m a], dests := [], cls := .engine }
  | .mstat d la => { names := [.g d], dests := [.g d], la := la.toNat, long := true, cls := .engine }
  | .mwait d la => { names := [.g d], dests := [.g d], la := la.toNat, long := true, cls := .engine }
  | .cpy a => { names := [.g a], dests := [], cls := .engine, push := some 2 }
  | .cpyx a b => { names := [.g a, .g b], dests := [], cls := .engine, push := some 2 }
  | .coll a => { names := [.g a], dests := [], cls := .engine, push := some 4 }
  | .qpush g q => { names := [.g g, .q q], dests := [], cls := .engine }
  | .qpushv g q => { names := [.v g, .q q], dests := [], cls := .engine }
  | .qpop g q la => { names := [.g g, .q q], dests := [.g g], la := la.toNat, long := true, cls := .engine }
  | .qpopv g q la => { names := [.v g, .q q], dests := [.v g], la := la.toNat, long := true, cls := .engine }
  | .qbind g q => { names := [.g g, .g (g + 1), .q q], dests := [], cls := .engine }
  | .qstat g q => { names := [.g g, .q q], dests := [.g g] }
  | .wlpsh d a b => { names := [.g d, .g a, .g b, .g (b + 1)], dests := [.g d], cls := .wl }
  | .wlpop d a la => { names := [.g d, .g (d + 1), .g (d + 2), .g a], dests := [.g d, .g (d + 1), .g (d + 2)], la := la.toNat, long := true, kind := .acquiring, cls := .wl }
  | .wlack a => { names := [.g a], dests := [], cls := .wl }
  | .wlret a => { names := [.g a], dests := [], cls := .wl }
  | .wlsta d a b => { names := [.g d, .g a, .g b], dests := [.g d], cls := .wl }
  | .wlcfg d a => { names := [.g d, .g a], dests := [.g d], cls := .wl }
  | .endTask => { names := [], dests := [], serial := true, cls := .wl }
  | .yield => { names := [], dests := [], serial := true }
  | .align => { names := [], dests := [], serial := true }
  | .trig => { names := [], dests := [], serial := true, cls := .wl }
  | .migr a => { names := [.g a], dests := [], serial := true, cls := .wl }
  | .widx d _ => { names := [.g d], dests := [.g d], serial := true }
  | .ueret => { names := [], dests := [], serial := true, cls := .wl }
  | .csrr d csr => { names := [.g d], dests := [.g d], serial := true, csr := some csr, level := csrLevel csr }
  | .csrw d a csr => { names := [.g d, .g a], dests := [.g d], serial := true, cls := csrWrite csr, csr := some csr, level := csrLevel csr }
  | .csrs d a csr => { names := [.g d, .g a], dests := [.g d], serial := true, cls := csrBits a csr, csr := some csr, level := csrLevel csr }
  | .csrc d a csr => { names := [.g d, .g a], dests := [.g d], serial := true, cls := csrBits a csr, csr := some csr, level := csrLevel csr }
  | .eret => { names := [], dests := [], serial := true, cls := .sys, level := .s }
  | .spill a => { names := [.g a], dests := [], serial := true, cls := .sys, level := .m }
  | .fill a => { names := [.g a], dests := [], serial := true, cls := .sys, level := .m }
  | .wake a => { names := [.g a], dests := [], serial := true, cls := .sys, level := .m }
  | .tlbiRange a b => { names := [.g a, .g b, .g (b + 1)], dests := [], serial := true, cls := .sys, level := .s }
  | .tlbiAsid a => { names := [.g a], dests := [], serial := true, cls := .sys, level := .s }
  | .tlbiAll => { names := [], dests := [], serial := true, cls := .sys, level := .m }
  | .iflush => { names := [], dests := [], serial := true, cls := .sys, level := .s }
  | .halt => { names := [], dests := [], serial := true, cls := .sys, level := .s }
  | .mspill d a => { names := [.m d, .g a], dests := [], serial := true, cls := .sys, level := .s }
  | .mfill d a => { names := [.m d, .g a], dests := [], serial := true, cls := .sys, level := .s }
  | .trap _ => { names := [], dests := [], serial := true, cls := .trapi }
  | .brk _ => { names := [], dests := [], serial := true, cls := .trapi }
  | .dispatch .. => Info.event
  | .prefetch .. => Info.event
  | .eviction .. => Info.event
  | .saveComplete .. => Info.event
  | .refill .. => Info.event
  | .migrationArrival .. => Info.event
  | .userEventDelivery .. => Info.event
  | .icacheFill .. => Info.event
  | .alignTimeout .. => Info.event
  | .homeAccess .. => Info.event
  | .accessReply .. => Info.event
  | .updateApply .. => Info.event
  | .walkComplete .. => Info.event
  | .pageWake .. => Info.event
  | .feRetryAttempt .. => Info.event
  | .buoyNotice .. => Info.event
  | .lossNotice .. => Info.event
  | .releaseMessage .. => Info.event
  | .commitHold .. => Info.event
  | .commitApply .. => Info.event
  | .chunkTurn .. => Info.event
  | .fpush .. => Info.event
  | .rpush .. => Info.event
  | .fwd .. => Info.event
  | .head .. => Info.event
  | .low .. => Info.event
  | .pull .. => Info.event
  | .ritem .. => Info.event
  | .pack .. => Info.event
  | .demote .. => Info.event
  | .cut .. => Info.event
  | .pop .. => Info.event
  | .popReply .. => Info.event
  | .pushAnswer .. => Info.event
  | .launchStart .. => Info.event
  | .coschedAdmission .. => Info.event
  | .launchRecordWrite .. => Info.event
  | .wlwdogExpiry .. => Info.event
  | .packageBarrierArrival .. => Info.event
  | .barrierArrivalReply .. => Info.event
  | .barrierCompletion .. => Info.event
  | .channelWord .. => Info.event
  | .creditReturn .. => Info.event
  | .dryTimeout .. => Info.event
  | .matrixCommandStart .. => Info.event
  | .matrixCommandComplete .. => Info.event
  | .copyCommandStart .. => Info.event
  | .copyCommandComplete .. => Info.event
  | .collectiveJoin .. => Info.event
  | .collectiveComplete .. => Info.event
  | .colltmoExpiry .. => Info.event
  | .tlbiAtHome .. => Info.event
  | .tlbiAck .. => Info.event
  | .sweeperStep .. => Info.event
  | .zeroingStep .. => Info.event
  | .freepush .. => Info.event
  | .coldpop .. => Info.event
  | .controlRegisterWrite .. => Info.event
  | .throttleStep .. => Info.event
  | .thermalTrip .. => Info.event
  | .errorEvent .. => Info.event
  | .scrubComplete .. => Info.event
  | .podRequest .. => Info.event
  | .busyResend .. => Info.event
  | .podRequestTimeout .. => Info.event
  | .rmaWrite .. => Info.event
  | .kick .. => Info.event
  | .kickReread .. => Info.event
  | .ringOpen .. => Info.event
  | .ringClose .. => Info.event
  | .ctxCreate .. => Info.event
  | .ctxDestroy .. => Info.event
  | .keySet .. => Info.event
  | .map .. => Info.event
  | .unmap .. => Info.event
  | .launch .. => Info.event
  | .abort .. => Info.event
  | .copyIn .. => Info.event
  | .copyOut .. => Info.event
  | .query .. => Info.event
  | .reset .. => Info.event
  | .attest .. => Info.event
  | .debugHalt .. => Info.event
  | .debugResume .. => Info.event
  | .debugStop .. => Info.event
  | .debugGroup .. => Info.event
  | .debugRun .. => Info.event
  | .debugStep .. => Info.event
  | .bpset .. => Info.event
  | .bpclr .. => Info.event
  | .debugRead .. => Info.event
  | .debugWrite .. => Info.event
  | .sample .. => Info.event
  | .samplePeriod .. => Info.event
  | .ctxSstate .. => Info.event
  | .lrecFree .. => Info.event
  | .commandProcessorFailover .. => Info.event
  | .powerOn .. => Info.event
  | .functionReady .. => Info.event
  | .bootReport .. => Info.event
  | .bootTimeout .. => Info.event
  | .cycle .. => Info.event
  | .illegalWord .. => Info.event
  | .fetchOutsideCodeRegion .. => Info.event
  | .powerOff .. => Info.event
  | .functionFailed .. => Info.event
  | .hostAcknowledgement .. => Info.event
  | .packageLeavesPod .. => Info.event
  | .controlReply .. => Info.event

end Sys2Proof.Machine
end

