-- ==== Sys2Proof/Machine/Float.lean ====
section
/-! DEFINITION. Floating point: formats, exact values, rounding and flags, and the operations on FP32
(spec/02_number_formats.md R31 to R56). A finite nonzero value is ± m * 2^e with m a natural number and e an integer, so every
intermediate is exact and each result is rounded once. -/

namespace Sys2Proof.Machine

/-- The flags NV, DZ, OF, UF, NX in bits 4 to 0 (R40). -/
abbrev Flags := BitVec 5
/-- Invalid. -/
def fNV : Flags := 16
/-- Division by zero. -/
def fDZ : Flags := 8
/-- Overflow. -/
def fOF : Flags := 4
/-- Underflow. -/
def fUF : Flags := 2
/-- Inexact. -/
def fNX : Flags := 1

/-- Rounding modes (R38). -/
inductive Mode where
  | rne | rz | ru | rd
  deriving DecidableEq, Repr

/-- The mode of FRM[1:0] (R38). -/
def Mode.of (frm : BitVec 2) : Mode :=
  match frm.toNat with
  | 0 => .rne | 1 => .rz | 2 => .ru | _ => .rd

/-- A floating-point format: widths of E and M, bias, whether the top exponent is special; `top` is the largest finite magnitude's
encoding (Tables 2.2 and 2.3). -/
structure Fmt where
  ew      : Nat
  mw      : Nat
  bias    : Int
  special : Bool
  top     : Nat
  nan     : Nat
  deriving DecidableEq, Repr

/-- FP32. -/
def fp32 : Fmt := ⟨8, 23, 127, true, 0x7F7FFFFF, 0x7FC00000⟩
/-- FP16. -/
def fp16 : Fmt := ⟨5, 10, 15, true, 0x7BFF, 0x7E00⟩
/-- BF16. -/
def fbf16 : Fmt := ⟨8, 7, 127, true, 0x7F7F, 0x7FC0⟩
/-- E4M3: no infinity; only S.1111.111 is special (R33). -/
def fe4m3 : Fmt := ⟨4, 3, 7, false, 0x7E, 0x7F⟩
/-- E5M2. -/
def fe5m2 : Fmt := ⟨5, 2, 15, true, 0x7B, 0x7E⟩

/-- An exact value (R32, R33): NaN, an infinity, a zero with its sign, or ± m * 2^e with m not zero. -/
inductive FVal where
  | nan
  | inf (neg : Bool)
  | zero (neg : Bool)
  | fin (neg : Bool) (m : Nat) (e : Int)
  deriving DecidableEq, Repr

/-- The bits of an encoding above the sign: 2^(ew + mw). -/
def Fmt.signBit (f : Fmt) : Nat := 2 ^ (f.ew + f.mw)

/-- The value an encoding stands for (R32, R33). -/
def Fmt.val (f : Fmt) (b : Nat) : FVal :=
  let neg := decide (b / f.signBit % 2 = 1)
  let x := b % f.signBit
  let e := x / 2 ^ f.mw
  let m := x % 2 ^ f.mw
  if f.special && e == 2 ^ f.ew - 1 then (if m = 0 then .inf neg else .nan)
  else if !f.special && x == f.nan then .nan
  else if x = 0 then .zero neg
  else if e = 0 then .fin neg m (1 - f.bias - f.mw)
  else .fin neg (2 ^ f.mw + m) (e - f.bias - f.mw)

/-- A result and the flags it raises. -/
structure FRes where
  bits  : Nat
  flags : Flags
  deriving DecidableEq, Repr

/-- The sign bit of a format, or nothing. -/
def Fmt.sign (f : Fmt) (neg : Bool) : Nat := if neg then f.signBit else 0

/-- The encoding of an infinity. -/
def Fmt.infBits (f : Fmt) (neg : Bool) : Nat := f.sign neg + (2 ^ f.ew - 1) * 2 ^ f.mw

/-- The value on overflow (R39); E4M3 gives ±448 under every mode. -/
def Fmt.overflow (f : Fmt) (mode : Mode) (neg : Bool) : Nat :=
  if !f.special then f.sign neg + f.top
  else match mode, neg with
    | .rne, _ => f.infBits neg
    | .rz, _ => f.sign neg + f.top
    | .ru, false => f.infBits false
    | .ru, true => f.sign true + f.top
    | .rd, false => f.top
    | .rd, true => f.infBits true

/-- Whether rounding goes up in magnitude, from the quotient, remainder and divisor of the cut. -/
def roundUp (mode : Mode) (neg : Bool) (q r d : Nat) : Bool :=
  match mode with
  | .rne => decide (2 * r > d) || (decide (2 * r = d) && decide (q % 2 = 1))
  | .rz => false
  | .ru => !neg && decide (r ≠ 0)
  | .rd => neg && decide (r ≠ 0)

/-- Round the value ± m * 2^e, m not zero, into a format (R8, R38, R39): tininess before rounding, overflow after it. -/
def Fmt.round (f : Fmt) (mode : Mode) (neg : Bool) (m : Nat) (e : Int) : FRes :=
  let big := e + (Nat.log2 m : Int)
  let emin := 1 - f.bias
  let q := (if big < emin then emin else big) - f.mw
  let d := (q - e).toNat
  let k := (e - q).toNat
  let lo := m * 2 ^ k / 2 ^ d
  let r := m * 2 ^ k % 2 ^ d
  let mant := if roundUp mode neg lo r (2 ^ d) then lo + 1 else lo
  let mag := ((q + f.mw + f.bias).toNat - 1) * 2 ^ f.mw + mant
  if mag > f.top then ⟨f.overflow mode neg, fOF ||| fNX⟩
  else
    let nx : Flags := if r = 0 then 0 else fNX
    let uf : Flags := if r ≠ 0 ∧ big < emin then fUF else 0
    ⟨f.sign neg + mag, nx ||| uf⟩

/-- Round an exact value into a format. NaN gives the canonical NaN (R34). -/
def Fmt.ofVal (f : Fmt) (mode : Mode) : FVal → FRes
  | .nan => ⟨f.nan, 0⟩
  | .inf neg => if f.special then ⟨f.infBits neg, 0⟩ else ⟨f.nan, fNV⟩     -- Table 2.5: ±∞ to E4M3
  | .zero neg => ⟨f.sign neg, 0⟩
  | .fin neg m e => f.round mode neg m e

/-- The sign of a value. -/
def FVal.neg : FVal → FVal
  | .nan => .nan
  | .inf n => .inf !n
  | .zero n => .zero !n
  | .fin n m e => .fin (!n) m e

/-- ± m * 2^e as an integer multiple of 2^base, base ≤ e. -/
def scaled (neg : Bool) (m : Nat) (e base : Int) : Int :=
  let x : Int := (m * 2 ^ (e - base).toNat : Nat)
  if neg then -x else x

/-- The exact sum of two values and whether it is invalid (∞ − ∞). An exact zero sum of values of opposite sign has the sign IEEE 754
gives: −0 under RD, +0 otherwise (R281). -/
def FVal.add (mode : Mode) : FVal → FVal → FVal × Flags
  | .nan, _ => (.nan, 0)
  | _, .nan => (.nan, 0)
  | .inf a, .inf b => if a = b then (.inf a, 0) else (.nan, fNV)
  | .inf a, _ => (.inf a, 0)
  | _, .inf b => (.inf b, 0)
  | .zero a, .zero b => (if a = b then .zero a else .zero (mode == .rd), 0)
  | .zero _, b => (b, 0)
  | a, .zero _ => (a, 0)
  | .fin n1 m1 e1, .fin n2 m2 e2 =>
    let base := min e1 e2
    let s := scaled n1 m1 e1 base + scaled n2 m2 e2 base
    if s = 0 then (.zero (mode == .rd), 0) else (.fin (decide (s < 0)) s.natAbs base, 0)

/-- The exact product; 0 × ∞ is invalid, a NaN operand is not (R34). -/
def FVal.mul : FVal → FVal → FVal × Flags
  | .inf _, .zero _ => (.nan, fNV)
  | .zero _, .inf _ => (.nan, fNV)
  | .nan, _ => (.nan, 0)
  | _, .nan => (.nan, 0)
  | .inf a, .inf b => (.inf (a != b), 0)
  | .inf a, .fin b _ _ => (.inf (a != b), 0)
  | .fin a _ _, .inf b => (.inf (a != b), 0)
  | .zero a, .zero b => (.zero (a != b), 0)
  | .zero a, .fin b _ _ => (.zero (a != b), 0)
  | .fin a _ _, .zero b => (.zero (a != b), 0)
  | .fin n1 m1 e1, .fin n2 m2 e2 => (.fin (n1 != n2) (m1 * m2) (e1 + e2), 0)

/-- The quotient, with the bits below the cut gathered in the last bit so that rounding sees them (R53). -/
def FVal.div : FVal → FVal → FVal × Flags
  | .nan, _ => (.nan, 0)
  | _, .nan => (.nan, 0)
  | .inf _, .inf _ => (.nan, fNV)
  | .zero _, .zero _ => (.nan, fNV)
  | .inf a, .zero b => (.inf (a != b), 0)
  | .inf a, .fin b _ _ => (.inf (a != b), 0)
  | .zero a, .inf b => (.zero (a != b), 0)
  | .fin a _ _, .inf b => (.zero (a != b), 0)
  | .zero a, .fin b _ _ => (.zero (a != b), 0)
  | .fin a _ _, .zero b => (.inf (a != b), fDZ)
  | .fin n1 m1 e1, .fin n2 m2 e2 =>
    let k := 64 + Nat.log2 m2
    let q := m1 * 2 ^ k / m2
    let r := m1 * 2 ^ k % m2
    (.fin (n1 != n2) (2 * q + (if r = 0 then 0 else 1)) (e1 - e2 - k - 1), 0)

/-- The integer square root of `n`, found bit by bit from `2^i` down; `r` is the root so far. -/
def isqrtFrom (n : Nat) : Nat → Nat → Nat
  | 0, r => if (r + 1) * (r + 1) ≤ n then r + 1 else r
  | i + 1, r => let t := r + 2 ^ (i + 1); isqrtFrom n i (if t * t ≤ n then t else r)

/-- The integer square root. -/
def isqrt (n : Nat) : Nat := isqrtFrom n (Nat.log2 n / 2 + 1) 0

/-- m * 2^e with an even exponent. -/
def evenExp (m : Nat) (e : Int) : Nat × Int := if e % 2 = 0 then (m, e) else (2 * m, e - 1)

/-- The square root, cut bits gathered in the last bit; below −0 it is invalid (R34, R281). -/
def FVal.sqrt : FVal → FVal × Flags
  | .nan => (.nan, 0)
  | .inf true => (.nan, fNV)
  | .inf false => (.inf false, 0)
  | .zero n => (.zero n, 0)
  | .fin true _ _ => (.nan, fNV)
  | .fin false m e =>
    let (m, e) := evenExp m e
    let n := m * 2 ^ 128
    let s := isqrt n
    (.fin false (2 * s + (if s * s = n then 0 else 1)) (e / 2 - 64 - 1), 0)

/-- The reciprocal square root (R54). -/
def FVal.rsqrt : FVal → FVal × Flags
  | .nan => (.nan, 0)
  | .inf true => (.nan, fNV)
  | .inf false => (.zero false, 0)
  | .zero n => (.inf n, fDZ)
  | .fin true _ _ => (.nan, fNV)
  | .fin false m e =>
    let (m, e) := evenExp m e
    let k := 64 + Nat.log2 m
    let n := 2 ^ (2 * k)
    let s := isqrt (n / m)
    (.fin false (2 * s + (if s * s * m = n then 0 else 1)) (-(e / 2) - k - 1), 0)

/-- ln 2 in units of 2^-192. -/
def ln2Fix : Nat := 4350955369971217654477563090224794165364344896676135745069

/-- Σ y^j / j! from term `t` = y^k / k! on, in units of 2^-192, `n` more terms. -/
def expTerms (y : Nat) : Nat → Nat → Nat → Nat
  | 0, _, t => t
  | n + 1, k, t => t + expTerms y n (k + 1) (t * y / (2 ^ 192 * (k + 1)))

/-- 2^x (R54). The fraction's power is a series cut after 48 terms in units of 2^-192; an input that is not an integer has an irrational
power, so the last bit marks it inexact. DEDUCED (log 10). -/
def FVal.exp2 : FVal → FVal × Flags
  | .nan => (.nan, 0)
  | .inf true => (.zero false, 0)
  | .inf false => (.inf false, 0)
  | .zero _ => (.fin false 1 0, 0)
  | .fin neg m e =>
    -- |x| at least 2^10: the result overflows, or is below half the smallest subnormal
    if e + (Nat.log2 m : Int) ≥ 10 then
      (if neg then .fin false 3 (-400) else .fin false 3 400, 0)
    else
      let x := scaled neg m e (min e 0)          -- x in units of 2^(min e 0)
      let u := (-(min e 0)).toNat
      let n := x / (2 ^ u : Nat)                 -- floor
      let f := (x - n * (2 ^ u : Nat)).toNat     -- 0 ≤ f < 2^u
      if f = 0 then (.fin false 1 n, 0)
      else
        let y := f * 2 ^ (192 - u) * ln2Fix / 2 ^ 192
        (.fin false (2 * expTerms y 48 0 (2 ^ 192) + 1) (n - 193), 0)

/-- Σ w^(2j+1) / (2j+1), in units of 2^-192: `p` is w^(2j+1), `w2` is w². -/
def atanhTerms (w2 : Nat) : Nat → Nat → Nat → Nat
  | 0, _, _ => 0
  | n + 1, j, p => p / (2 * j + 1) + atanhTerms w2 n (j + 1) (p * w2 / 2 ^ 192)

/-- log2 x (R54). The mantissa is brought into [3/4, 3/2) and its logarithm taken by the series of 2 atanh((z−1)/(z+1)) in units of 2^-192;
only a power of two has a rational logarithm, so every other result is marked inexact. DEDUCED (log 10). -/
def FVal.log2 : FVal → FVal × Flags
  | .nan => (.nan, 0)
  | .inf true => (.nan, fNV)
  | .inf false => (.inf false, 0)
  | .zero _ => (.inf true, fDZ)
  | .fin true _ _ => (.nan, fNV)
  | .fin false m e =>
    let l := Nat.log2 m
    let big := e + (l : Int)
    if m = 2 ^ l then
      (if big = 0 then .zero false else .fin (decide (big < 0)) big.natAbs 0, 0)
    else
      -- z = m / 2^s in [3/4, 3/2)
      let up := 2 * m ≥ 3 * 2 ^ l
      let s := if up then l + 1 else l
      let ex : Int := if up then big + 1 else big
      let below := m < 2 ^ s
      let num := if below then 2 ^ s - m else m - 2 ^ s
      let w := num * 2 ^ 192 / (m + 2 ^ s)
      let ln := 2 * atanhTerms (w * w / 2 ^ 192) 48 0 w
      let lg : Int := (ln * 2 ^ 192 / ln2Fix : Nat)
      let r := ex * (2 ^ 192 : Nat) + (if below then -lg else lg)
      (.fin (decide (r < 0)) (2 * r.natAbs + 1) (-193), 0)

/-- The value of FP32 bits. -/
def val32 (b : W32) : FVal := fp32.val b.toNat

/-- An FP32 result with its flags. -/
structure F32 where
  bits  : W32
  flags : Flags
  deriving DecidableEq, Repr

/-- Round a value to FP32, adding its flags to those already raised. -/
def to32 (mode : Mode) (x : FVal × Flags) : F32 :=
  let r := fp32.ofVal mode x.1
  ⟨BitVec.ofNat 32 r.bits, r.flags ||| x.2⟩

/-- FADD (R281). -/
def f32add (mode : Mode) (a b : W32) : F32 := to32 mode ((val32 a).add mode (val32 b))
/-- FSUB (R281). -/
def f32sub (mode : Mode) (a b : W32) : F32 := to32 mode ((val32 a).add mode (val32 b).neg)
/-- FMUL (R281). -/
def f32mul (mode : Mode) (a b : W32) : F32 := to32 mode ((val32 a).mul (val32 b))
/-- FDIV (R281). -/
def f32div (mode : Mode) (a b : W32) : F32 := to32 mode ((val32 a).div (val32 b))
/-- FSQRT (R281). -/
def f32sqrt (mode : Mode) (a : W32) : F32 := to32 mode (val32 a).sqrt
/-- a * b + c rounded once (R286): 0 × ∞ is invalid even when c is a NaN. -/
def f32fma (mode : Mode) (a b c : FVal) : F32 :=
  let p := a.mul b
  let s := p.1.add mode c
  to32 mode (s.1, p.2 ||| s.2)
/-- FMA, FMS, FNMA by the signs they give the product and the addend (R286). -/
def f32fused (mode : Mode) (negP negC : Bool) (a b c : W32) : F32 :=
  let a := val32 a
  let c := val32 c
  f32fma mode (if negP then a.neg else a) (val32 b) (if negC then c.neg else c)
/-- VFRCP (R54). -/
def f32rcp (a : W32) : F32 := to32 .rne ((FVal.fin false 1 0).div (val32 a))
/-- VFRSQ (R54). -/
def f32rsq (a : W32) : F32 := to32 .rne (val32 a).rsqrt
/-- VFEXP2 (R54). -/
def f32exp2 (a : W32) : F32 := to32 .rne (val32 a).exp2
/-- VFLOG2 (R54). -/
def f32log2 (a : W32) : F32 := to32 .rne (val32 a).log2

/-- Is the FP32 value a NaN? -/
def isNan32 (a : W32) : Bool := decide (a.toNat % 2 ^ 31 > 0x7F800000)
/-- Is the FP32 value subnormal (R26)? -/
def isSub32 (a : W32) : Bool := let x := a.toNat % 2 ^ 31; decide (0 < x) && decide (x < 0x00800000)
/-- The canonical NaN. -/
def nan32 : W32 := 0x7FC00000

/-- The order of two FP32 values that are not NaN: as integers, with both zeros equal. -/
def ord32 (a : W32) : Int := let x : Int := (a.toNat % 2 ^ 31 : Nat); if a.msb then -x else x

/-- Whether a < b, both not NaN. -/
def lt32 (a b : W32) : Bool := decide (ord32 a < ord32 b)

/-- FMIN (R282): −0 counts as smaller than +0. -/
def f32min (a b : W32) : W32 :=
  if isNan32 a then (if isNan32 b then nan32 else b)
  else if isNan32 b then a
  else if ord32 a = ord32 b then (if a.msb then a else b)
  else if lt32 a b then a else b

/-- FMAX (R282). -/
def f32max (a b : W32) : W32 :=
  if isNan32 a then (if isNan32 b then nan32 else b)
  else if isNan32 b then a
  else if ord32 a = ord32 b then (if a.msb then b else a)
  else if lt32 a b then b else a

/-- The relation of FCMP and the flag it raises (R283). -/
def f32cmp (c : FCond) (a b : W32) : Bool × Flags :=
  let un := isNan32 a || isNan32 b
  match c with
  | .eq => (!un && decide (ord32 a = ord32 b), 0)
  | .ne => (un || decide (ord32 a ≠ ord32 b), 0)
  | .lt => (!un && lt32 a b, if un then fNV else 0)
  | .le => (!un && !lt32 b a, if un then fNV else 0)
  | .un => (un, 0)
  | .or => (!un, 0)

/-- FCLASS (R285): one bit set for the class. -/
def f32class (a : W32) : W64 :=
  match val32 a with
  | .nan => 1 <<< 8
  | .inf true => 1
  | .inf false => 1 <<< 7
  | .zero true => 1 <<< 3
  | .zero false => 1 <<< 4
  | .fin n _ _ =>
    if isSub32 a then (if n then 1 <<< 2 else 1 <<< 5) else (if n then 1 <<< 1 else 1 <<< 6)

/-- An integer as an exact value; 0 is +0. -/
def FVal.ofInt (i : Int) : FVal := if i = 0 then .zero false else .fin (decide (i < 0)) i.natAbs 0

/-- I32 or N32 to FP32 (Table 2.5). -/
def f32ofInt (mode : Mode) (i : Int) : F32 := to32 mode (FVal.ofInt i, 0)

/-- Round ± m * 2^e to an integer by a mode, with whether it changed. -/
def roundInt (mode : Mode) (neg : Bool) (m : Nat) (e : Int) : Int × Bool :=
  let d := 2 ^ (-e).toNat
  let x := m * 2 ^ e.toNat
  let q := x / d
  let r := x % d
  let k := if roundUp mode neg q r d then q + 1 else q
  (if neg then -(k : Int) else k, decide (r ≠ 0))

/-- Float to integer with range [lo, hi] (R44). -/
def fToInt (mode : Mode) (lo hi : Int) : FVal → Int × Flags
  | .nan => (0, fNV)
  | .inf neg => (if neg then lo else hi, fNV)
  | .zero _ => (0, 0)
  | .fin neg m e =>
    let (i, nx) := roundInt mode neg m (if e > 80 then 80 else e)
    if i < lo then (lo, fNV) else if i > hi then (hi, fNV) else (i, if nx then fNX else 0)

/-- FP32 to I32 (R44). -/
def f32toI32 (mode : Mode) (a : W32) : Int × Flags := fToInt mode (-2147483648) 2147483647 (val32 a)
/-- FP32 to N32 (R44). -/
def f32toN32 (mode : Mode) (a : W32) : Int × Flags := fToInt mode 0 4294967295 (val32 a)

/-- The matrix window sum (R50) over the product terms with the flag of an invalid product, and the accumulator term. -/
def windowSum (ts : List FVal) (bad : Bool) : F32 :=
  let posInf := ts.any fun t => t == .inf false
  let negInf := ts.any fun t => t == .inf true
  if bad || (posInf && negInf) then ⟨nan32, fNV⟩
  else if ts.any fun t => t == .nan then ⟨nan32, 0⟩
  else if posInf then ⟨0x7F800000, 0⟩
  else if negInf then ⟨0xFF800000, 0⟩
  else
    let fins := ts.filterMap fun t => match t with | .fin n m e => some (n, m, e) | _ => none
    match fins with
    | [] => if ts.all fun t => t == .zero true then ⟨0x80000000, 0⟩ else ⟨0, 0⟩
    | (_, m0, e0) :: _ =>
      let big := fins.foldl (fun acc t => max acc (t.2.2 + (Nat.log2 t.2.1 : Int))) (e0 + (Nat.log2 m0 : Int))
      let q := big - 40
      let parts := fins.map fun t =>
        let k := (t.2.2 - q).toNat
        let d := 2 ^ (q - t.2.2).toNat
        let x := t.2.1 * 2 ^ k
        let u : Int := (x / d : Nat)
        (if t.1 then -u else u, decide (x % d ≠ 0))
      let s : Int := parts.foldl (fun (acc : Int) p => acc + p.1) 0
      let lost := parts.any fun p => p.2
      let r : F32 := if s = 0 then ⟨0, 0⟩ else to32 .rne (.fin (decide (s < 0)) s.natAbs q, 0)
      ⟨r.bits, if lost then r.flags ||| fNX else r.flags⟩

/-- FP32 → a 16- or 8-bit float (Table 2.5). -/
def narrow32 (f : Fmt) (mode : Mode) (a : W32) : FRes := f.ofVal mode (val32 a)

/-- A 16- or 8-bit float → FP32, exact; a NaN is canonical (Table 2.5). -/
def widen32 (f : Fmt) (b : Nat) : W32 := (to32 .rne (f.val b, 0)).bits

/-- Is an encoding of a format subnormal (R300)? -/
def Fmt.isSub (f : Fmt) (b : Nat) : Bool :=
  let x := b % f.signBit
  decide (0 < x) && decide (x < 2 ^ f.mw)

end Sys2Proof.Machine
end

