-- ==== Sys2Proof/Machine/Lx8.lean ====
section
/-! DEFINITION. LX8 blocks and the conversions between the formats of Table 2.1 (spec/02_number_formats.md R36, R43 to R49). -/

namespace Sys2Proof.Machine

/-- The bits of bytes, lowest bit of the first byte first. -/
def bitsOf (bs : List Byte) : List Bool := bs.flatMap fun b => (List.range 8).map fun i => b.getLsbD i

/-- The byte of eight bits, lowest first. -/
def byteOfBits (l : List Bool) : Byte := BitVec.ofNat 8 (l.foldr (fun b acc => 2 * acc + (if b then 1 else 0)) 0)

/-- Cut a list into pieces of `n`, at most `fuel` of them. -/
def chunks {α : Type} (n : Nat) : Nat → List α → List (List α)
  | 0, _ => []
  | fuel + 1, l => if l.isEmpty then [] else l.take n :: chunks n fuel (l.drop n)

/-- The natural number of little-endian bytes (R3). -/
def leNat : List Byte → Nat
  | [] => 0
  | b :: bs => b.toNat + 256 * leNat bs

/-- `n` little-endian bytes of a number (R3). -/
def leBytes : Nat → Nat → List Byte
  | 0, _ => []
  | n + 1, x => BitVec.ofNat 8 x :: leBytes n (x / 256)

/-- Read a token (R47): its offset, or `none` for a zero element; how many bits it took; and the bits that follow. A stream that ends inside
a token reads as zeros, and the position then shows that it ran past the end. -/
def readToken (s : List Bool) : Option Nat × Nat × List Bool :=
  let at_ i := s.getD i false
  if !at_ 0 then (some 0, 1, s.drop 1)
  else if !at_ 1 then (some 1, 2, s.drop 2)
  else if !at_ 2 then (none, 3, s.drop 3)
  else if !at_ 3 then (some 2, 4, s.drop 4)
  else
    let v := (if at_ 4 then 1 else 0) + (if at_ 5 then 2 else 0) + (if at_ 6 then 4 else 0)
    (some (3 + v), 7, s.drop 7)

/-- Decode the elements from index `i` on (R48); `none` when a token ran past the stream of `limit` bits. -/
def lx8Elems (eb : Nat) (limit : Nat) : List Nat → Nat → List Bool → Option (List FVal)
  | [], _, _ => some []
  | nib :: nibs, pos, s =>
    let (tok, len, s') := readToken s
    if pos + len > limit then none
    else
      match lx8Elems eb limit nibs (pos + len) s' with
      | none => none
      | some ys =>
        match tok with
        | none => some (.zero false :: ys)
        | some d => some (.fin (decide (nib / 8 = 1)) (8 + nib % 8) ((eb : Int) - 127 - d - 3) :: ys)

/-- LX8Decode (R48) of a block of N bytes: its elements and the flag it raises. -/
def lx8Decode (b : List Byte) : List FVal × Flags :=
  let n := b.length
  let eb := (b.getD 0 0).toNat
  if eb = 0 then (List.replicate n (.zero false), 0)
  else if eb = 255 then (List.replicate n .nan, 0)
  else
    let nibs := (List.range n).map fun i => (b.getD (1 + i / 2) 0).toNat / (if i % 2 = 0 then 1 else 16) % 16
    match lx8Elems eb (4 * n - 8) nibs 0 (bitsOf (b.drop (n / 2 + 1))) with
    | some ys => (ys, 0)
    | none => (List.replicate n .nan, fNV)

/-- The token of an element (R47). -/
def tokenBits : Option Nat → List Bool
  | none => [true, true, false]
  | some 0 => [false]
  | some 1 => [true, false]
  | some 2 => [true, true, true, false]
  | some (d + 3) => [true, true, true, true, decide (d % 2 = 1), decide (d / 2 % 2 = 1), decide (d / 4 % 2 = 1)]

/-- A nonzero element during encoding: sign, mantissa and exponent (R49). -/
structure LxElem where
  neg : Bool
  m   : Nat
  e   : Int
  deriving DecidableEq, Repr

/-- The element of a finite value, with its flags (R49); `none` for a zero. -/
def lxElem : FVal → Option LxElem × Flags
  | .fin neg m e =>
    let big := e + (Nat.log2 m : Int)
    let (q, nx) := roundInt .rne false m (e + 3 - big)
    let (q, big) := if q = 16 then ((8 : Int), big + 1) else (q, big)
    if big > 127 then (some ⟨neg, 7, 127⟩, fOF ||| fNX)
    else (some ⟨neg, q.toNat - 8, big⟩, if nx then fNX else 0)
  | _ => (none, 0)

/-- Zero the element of greatest offset, highest index among ties, until the stream fits (R49); each zeroing raises NX. -/
def lxFit (limit : Nat) : Nat → List (Option Nat) → List (Option Nat) × Flags
  | 0, ds => (ds, 0)
  | fuel + 1, ds =>
    if (ds.flatMap tokenBits).length ≤ limit then (ds, 0)
    else
      let top := ds.foldl (fun acc d => max acc (d.getD 0)) 0
      let i := ds.length - 1 - (ds.reverse.findIdx fun d => d == some top)
      let r := lxFit limit fuel (ds.set i none)
      (r.1, r.2 ||| fNX)

/-- LX8Encode (R49) of N values. -/
def lx8Encode (xs : List FVal) : List Byte × Flags :=
  let n := xs.length
  if xs.any fun x => match x with | .nan => true | .inf _ => true | _ => false then
    (255 :: List.replicate (n - 1) 0, fNV)
  else
    let es := xs.map lxElem
    let fl := es.foldl (fun acc e => acc ||| e.2) 0
    match es.filterMap (·.1) with
    | [] => (List.replicate n 0, fl)
    | e0 :: _ =>
      let top := es.foldl (fun (acc : Int) e => match e.1 with | some x => max acc x.e | none => acc) e0.e
      let eb := (max 1 (127 + top)).toNat
      let ds := es.map fun e => e.1.map fun x => ((eb : Int) - 127 - x.e).toNat
      let small := ds.any fun d => match d with | some k => decide (k > 10) | none => false
      let fl := if small then fl ||| fUF ||| fNX else fl
      let ds := ds.map fun d => match d with | some k => if k > 10 then none else some k | none => none
      let (ds, fl2) := lxFit (4 * n - 8) n ds
      let fl := fl ||| fl2
      if ds.all fun d => d == none then (List.replicate n 0, fl)
      else
        let nibs := (es.zip ds).map fun (e, d) =>
          match e.1, d with
          | some x, some _ => (if x.neg then 8 else 0) + x.m
          | _, _ => 0
        let nb := (chunks 2 n nibs).map fun p => BitVec.ofNat 8 (p.getD 0 0 + 16 * p.getD 1 0)
        let bits := ds.flatMap tokenBits
        let bits := bits ++ List.replicate (4 * n - 8 - bits.length) false
        (BitVec.ofNat 8 eb :: nb ++ (chunks 8 (n / 2) bits).map byteOfBits, fl)

/-! ### Conversions between formats (R45) -/

/-- Formats by their codes of Table 4.2, as the copy engine converts them. -/
inductive EFmt where
  | raw | i8 | n8 | i16 | n16 | i32 | n32 | i64 | i4 | f32 | f16 | bf16 | e4m3 | e5m2 | lx8 | spm
  deriving DecidableEq, Repr

/-- The format of a code (Table 4.2). -/
def EFmt.of? (c : Nat) : Option EFmt :=
  match c with
  | 0 => some .raw | 1 => some .i8 | 2 => some .n8 | 3 => some .i16 | 4 => some .n16 | 5 => some .i32 | 6 => some .n32
  | 7 => some .i64 | 8 => some .i4 | 16 => some .f32 | 17 => some .f16 | 18 => some .bf16 | 19 => some .e4m3 | 20 => some .e5m2
  | 21 => some .lx8 | 32 => some .spm | _ => none

/-- Bits of an element (Table 4.2); RAW counts as a byte for the copy engine (R203), and an LX8 element takes a byte of its block. -/
def EFmt.bits : EFmt → Nat
  | .raw | .i8 | .n8 | .e4m3 | .e5m2 | .lx8 => 8
  | .i16 | .n16 | .f16 | .bf16 => 16
  | .i32 | .n32 | .f32 => 32
  | .i64 => 64
  | .i4 | .spm => 4

/-- The floating-point layout of a format, where it is one. -/
def EFmt.float? : EFmt → Option Fmt
  | .f32 => some fp32 | .f16 => some fp16 | .bf16 => some fbf16 | .e4m3 => some fe4m3 | .e5m2 => some fe5m2 | _ => none

/-- The range of an integer format. -/
def EFmt.range? : EFmt → Option (Int × Int)
  | .i4 => some (-8, 7) | .i8 => some (-128, 127) | .n8 => some (0, 255) | .i16 => some (-32768, 32767) | .n16 => some (0, 65535)
  | .i32 => some (-2147483648, 2147483647) | .n32 => some (0, 4294967295)
  | .i64 => some (-9223372036854775808, 9223372036854775807) | _ => none

/-- The integer an element's bits stand for in a format. -/
def EFmt.int (f : EFmt) (x : Nat) : Int :=
  match f with
  | .i4 | .i8 | .i16 | .i32 | .i64 => (BitVec.ofNat f.bits x).toInt
  | _ => x

/-- A source element widened: an integer kept exact where the engine rounds it directly (I32, N32, I64), else its FP32 value (R45). -/
inductive Wide where
  | int (i : Int)
  | val (v : FVal)
  deriving DecidableEq, Repr

/-- Widen an element (R45). Every format but I32, N32 and I64 widens exactly. -/
def EFmt.widen (f : EFmt) (x : Nat) : Wide :=
  match f with
  | .i32 | .n32 | .i64 => .int (f.int x)
  | .i4 | .i8 | .n8 | .i16 | .n16 | .raw | .spm => .val (FVal.ofInt (f.int x))
  | .f32 => .val (fp32.val x) | .f16 => .val (fp16.val x) | .bf16 => .val (fbf16.val x) | .e4m3 => .val (fe4m3.val x)
  | .e5m2 => .val (fe5m2.val x)
  | .lx8 => .val .nan

/-- Narrow to a destination format, RNE (R45, Table 2.5, R44). An integer that was kept exact is clamped to an integer destination without a
flag, as I32 → I8 is; DEDUCED (log 20). -/
def EFmt.narrow (f : EFmt) (w : Wide) : Nat × Flags :=
  match f.float?, f.range?, w with
  | some ff, _, .int i => let r := ff.ofVal .rne (FVal.ofInt i); (r.bits, r.flags)
  | some ff, _, .val v => let r := ff.ofVal .rne v; (r.bits, r.flags)
  | none, some (lo, hi), .int i => ((BitVec.ofInt f.bits (max lo (min hi i))).toNat, 0)
  | none, some (lo, hi), .val v => let r := fToInt .rne lo hi v; ((BitVec.ofInt f.bits r.1).toNat, r.2)
  | none, none, .int i => ((BitVec.ofInt 8 i).toNat, 0)
  | none, none, .val v => let r := fToInt .rne 0 255 v; (r.1.toNat, r.2)

/-- The value a widened element has for LX8 encoding. -/
def Wide.fval : Wide → FVal
  | .int i => FVal.ofInt i
  | .val v => v

end Sys2Proof.Machine
end

