-- ==== Sys2Proof/Config.lean ====
section
/-! DEFINITION. What the spec leaves to the implementation and never states: free values, which nothing constrains. -/

namespace Sys2Proof

/-- The RSASSA-PSS signature of an attestation report (spec/23_bringup_security_debug.md R438, R439): the identity key's private part is in
no register, and the salt is fresh for each signature, so the 512 bytes are free. The first argument is the counter of free values, the
second the SHA-512 of what is signed. Log 7. -/
opaque Config.attestSignature : Nat → List (BitVec 8) → BitVec 4096

/-- Where the user area of a slice ends after a bank is retired (spec/10_counters.md Table 10.3): the spec says that the area shrinks and not by how much.
The arguments are the tile and the bank. Log 6. -/
opaque Config.shrunkTop : Nat → Nat → Nat

end Sys2Proof
end

