-- ==== Sys2Proof/WellFormed.lean ====
section
/-! DEFINITION. Which instruction terms are instructions: the limits of R247 and R253 to R264 that the constructors' field types do
not already impose. -/

namespace Sys2Proof

/-- The field limits of an instruction (ILLEGAL with code 5 when a word breaks them, Table 12.1). Events carry no encoding and have no
limits. -/
def Instr.wf : Instr → Bool
  | .ldn _ _ _ _ sz _ => sz != .d                       -- R257: LDN with SZ = 3
  | .vldx _ _ _ _ _ sz _ _ => sz != .d                  -- R257
  | .vstx _ _ _ _ _ sz _ => sz != .d                    -- R257
  | .loop a _ => a != 0                                 -- R256
  | .qbind g _ => decide (g.toNat ≤ 30)                 -- R247: gG:2
  | .wlpsh _ _ b => decide (b.toNat ≤ 30)               -- gB:2
  | .wlpop d _ _ => decide (d.toNat ≤ 29)               -- gD:3
  | .tlbiRange _ b => decide (b.toNat ≤ 30)             -- gB:2
  | .widx _ k => decide (1 ≤ k.toNat ∧ k.toNat ≤ 6)     -- R263
  | .msp _ _ _ v ty _ _ =>                              -- R262
    decide (v.toNat % 2 = 0 ∧ v.toNat ≤ 30) && (ty == .e4m3 || ty == .e5m2 || ty == .e4e5)
  | _ => true

end Sys2Proof
end

