-- ==== Sys2Proof/Decode.lean ====
section
/-! DEFINITION. Decoding of instruction words, total on every word and every list of bytes, and the encoder
(spec/12_encoding.md: Table 12.1 for the sub-codes and their order, Table 12.2 for the formats, Table 12.3 for the majors,
R253 to R264 for the function codes and field limits). -/

namespace Sys2Proof

/-- What a word decodes to: an instruction, or the ILLEGAL sub-code 1 to 5 of Table 12.1. -/
inductive Decoded where
  | ok (i : Instr)
  | illegal (code : Nat)
  deriving DecidableEq, Repr

/-- The 3-bit code of an integer condition (Table 12.4). -/
def Cond.code : Cond → BitVec 3
  | .eq => 0 | .ne => 1 | .lt => 2 | .ge => 3 | .ltn => 4 | .gen => 5

/-- The integer condition of a code; 6 and 7 are reserved. -/
def Cond.of? (c : BitVec 3) : Option Cond :=
  match c.toNat with
  | 0 => some .eq | 1 => some .ne | 2 => some .lt | 3 => some .ge | 4 => some .ltn | 5 => some .gen | _ => none

/-- The low three bits of a floating-point condition's function code (Table 12.4). -/
def FCond.code : FCond → BitVec 3
  | .eq => 0 | .ne => 1 | .lt => 2 | .le => 3 | .un => 4 | .or => 5

/-- The floating-point condition of the low three bits of a function code; 6 and 7 are unassigned. -/
def FCond.of? (c : BitVec 3) : Option FCond :=
  match c.toNat with
  | 0 => some .eq | 1 => some .ne | 2 => some .lt | 3 => some .le | 4 => some .un | 5 => some .or | _ => none

/-- The SZ code of an access size (R246). -/
def Size.code : Size → BitVec 2
  | .b => 0 | .h => 1 | .w => 2 | .d => 3

/-- The access size of an SZ code. -/
def Size.of (c : BitVec 2) : Size :=
  match c.toNat with
  | 0 => .b | 1 => .h | 2 => .w | _ => .d

/-- The FN[6:5] code of an atomic's size (R258). -/
def ASize.code : ASize → BitVec 2
  | .w => 2 | .d => 3

/-- The atomic size of FN[6:5]; 0 and 1 are outside the limits (R258). -/
def ASize.of? (c : BitVec 2) : Option ASize :=
  match c.toNat with
  | 2 => some .w | 3 => some .d | _ => none

/-- The FN bit of a CAS of that size (R258). -/
def ASize.bit : ASize → BitVec 1
  | .w => 0 | .d => 1

/-- The size a CAS's FN bit names. -/
def ASize.ofBit (c : BitVec 1) : ASize :=
  if c == 0 then .w else .d

/-- The operation code of VRED and VSCAN (R260). -/
def RedOp.code : RedOp → BitVec 5
  | .add => 0 | .fadd => 1 | .min => 2 | .max => 3 | .minn => 4 | .maxn => 5 | .fmin => 6 | .fmax => 7
  | .and => 8 | .or => 9 | .xor => 10

/-- The reduction of an operation code; 11 to 31 are outside the limits (R260). -/
def RedOp.of? (c : BitVec 5) : Option RedOp :=
  match c.toNat with
  | 0 => some .add | 1 => some .fadd | 2 => some .min | 3 => some .max | 4 => some .minn | 5 => some .maxn
  | 6 => some .fmin | 7 => some .fmax | 8 => some .and | 9 => some .or | 10 => some .xor | _ => none

/-- The code of a scope (Table 5.4). -/
def Scope.code : Scope → BitVec 3
  | .slot => 0 | .core => 1 | .tile => 2 | .pkg => 3 | .pod => 4

/-- The scope of a code; 5 to 7 are reserved (R119). -/
def Scope.of? (c : BitVec 3) : Option Scope :=
  match c.toNat with
  | 0 => some .slot | 1 => some .core | 2 => some .tile | 3 => some .pkg | 4 => some .pod | _ => none

/-- The TY code of a matrix type (R262). -/
def MTy.code : MTy → BitVec 4
  | .bf16 => 0 | .f16 => 1 | .e4m3 => 2 | .e5m2 => 3 | .e4e5 => 4 | .lx8 => 5 | .i8 => 6 | .i4 => 7

/-- The matrix type of a TY code; 8 to 15 are outside the limits (R262). -/
def MTy.of? (c : BitVec 4) : Option MTy :=
  match c.toNat with
  | 0 => some .bf16 | 1 => some .f16 | 2 => some .e4m3 | 3 => some .e5m2 | 4 => some .e4e5 | 5 => some .lx8
  | 6 => some .i8 | 7 => some .i4 | _ => none

/-- A 5-bit field that names a `p` or `m` register must hold 0 to 7 (R247). -/
def pred? (r : BitVec 5) : Option PredNo :=
  if r.toNat < 8 then some (r.extractLsb' 0 3) else none

/-- The limits of an instruction's used fields: code 5 where they are broken. -/
def wf? (i : Instr) : Option Instr :=
  if i.wf then some i else none

/-- As `wf?`, for the FADD operations, which exist only in `.w` (R328). -/
def wOnly? (s : BitVec 2) (i : Instr) : Option Instr :=
  if s == 2 then some i else none

/-- Checks 3, 4 and 5 of R244, in that order: unused fields zero, LA zero where it must be, limits met. -/
def check (zero la : Bool) (i : Option Instr) : Decoded :=
  if !zero then .illegal 3
  else if !la then .illegal 4
  else match i with
    | some i => .ok i
    | none => .illegal 5


/-- Format R (Table 12.2). -/
structure FmtR where
  d : BitVec 5
  a : BitVec 5
  b : BitVec 5
  la : BitVec 4
  fn : BitVec 7
  deriving DecidableEq, Repr

/-- The word with major `maj` and the fields of format R. -/
def FmtR.pack (maj : BitVec 6) (f : FmtR) : W32 :=
  (maj ++ f.d ++ f.a ++ f.b ++ f.la ++ f.fn).setWidth 32

/-- The fields of format R of a word. -/
def FmtR.unpack (w : W32) : FmtR where
  d := w.extractLsb' 21 5
  a := w.extractLsb' 16 5
  b := w.extractLsb' 11 5
  la := w.extractLsb' 7 4
  fn := w.extractLsb' 0 7

/-- Format I (Table 12.2). -/
structure FmtI where
  d : BitVec 5
  a : BitVec 5
  imm : BitVec 16
  deriving DecidableEq, Repr

/-- The word with major `maj` and the fields of format I. -/
def FmtI.pack (maj : BitVec 6) (f : FmtI) : W32 :=
  (maj ++ f.d ++ f.a ++ f.imm).setWidth 32

/-- The fields of format I of a word. -/
def FmtI.unpack (w : W32) : FmtI where
  d := w.extractLsb' 21 5
  a := w.extractLsb' 16 5
  imm := w.extractLsb' 0 16

/-- Format IC (Table 12.2). -/
structure FmtIC where
  pd : BitVec 3
  cc : BitVec 3
  a : BitVec 5
  imm : BitVec 15
  deriving DecidableEq, Repr

/-- The word with major `maj` and the fields of format IC. -/
def FmtIC.pack (maj : BitVec 6) (f : FmtIC) : W32 :=
  (maj ++ f.pd ++ f.cc ++ f.a ++ f.imm).setWidth 32

/-- The fields of format IC of a word. -/
def FmtIC.unpack (w : W32) : FmtIC where
  pd := w.extractLsb' 23 3
  cc := w.extractLsb' 20 3
  a := w.extractLsb' 15 5
  imm := w.extractLsb' 0 15

/-- Format RC (Table 12.2). -/
structure FmtRC where
  d : BitVec 5
  a : BitVec 5
  b : BitVec 5
  c : BitVec 5
  fn : BitVec 6
  deriving DecidableEq, Repr

/-- The word with major `maj` and the fields of format RC. -/
def FmtRC.pack (maj : BitVec 6) (f : FmtRC) : W32 :=
  (maj ++ f.d ++ f.a ++ f.b ++ f.c ++ f.fn).setWidth 32

/-- The fields of format RC of a word. -/
def FmtRC.unpack (w : W32) : FmtRC where
  d := w.extractLsb' 21 5
  a := w.extractLsb' 16 5
  b := w.extractLsb' 11 5
  c := w.extractLsb' 6 5
  fn := w.extractLsb' 0 6

/-- Format V (Table 12.2). -/
structure FmtV where
  d : BitVec 5
  a : BitVec 5
  b : BitVec 5
  la : BitVec 4
  m : BitVec 3
  fn : BitVec 4
  deriving DecidableEq, Repr

/-- The word with major `maj` and the fields of format V. -/
def FmtV.pack (maj : BitVec 6) (f : FmtV) : W32 :=
  (maj ++ f.d ++ f.a ++ f.b ++ f.la ++ f.m ++ f.fn).setWidth 32

/-- The fields of format V of a word. -/
def FmtV.unpack (w : W32) : FmtV where
  d := w.extractLsb' 21 5
  a := w.extractLsb' 16 5
  b := w.extractLsb' 11 5
  la := w.extractLsb' 7 4
  m := w.extractLsb' 4 3
  fn := w.extractLsb' 0 4

/-- Format VC (Table 12.2). -/
structure FmtVC where
  d : BitVec 5
  a : BitVec 5
  b : BitVec 5
  c : BitVec 5
  m : BitVec 3
  fn : BitVec 3
  deriving DecidableEq, Repr

/-- The word with major `maj` and the fields of format VC. -/
def FmtVC.pack (maj : BitVec 6) (f : FmtVC) : W32 :=
  (maj ++ f.d ++ f.a ++ f.b ++ f.c ++ f.m ++ f.fn).setWidth 32

/-- The fields of format VC of a word. -/
def FmtVC.unpack (w : W32) : FmtVC where
  d := w.extractLsb' 21 5
  a := w.extractLsb' 16 5
  b := w.extractLsb' 11 5
  c := w.extractLsb' 6 5
  m := w.extractLsb' 3 3
  fn := w.extractLsb' 0 3

/-- Format M (Table 12.2). -/
structure FmtM where
  d : BitVec 5
  a : BitVec 5
  la : BitVec 4
  x : BitVec 1
  sz : BitVec 2
  off : BitVec 9
  deriving DecidableEq, Repr

/-- The word with major `maj` and the fields of format M. -/
def FmtM.pack (maj : BitVec 6) (f : FmtM) : W32 :=
  (maj ++ f.d ++ f.a ++ f.la ++ f.x ++ f.sz ++ f.off).setWidth 32

/-- The fields of format M of a word. -/
def FmtM.unpack (w : W32) : FmtM where
  d := w.extractLsb' 21 5
  a := w.extractLsb' 16 5
  la := w.extractLsb' 12 4
  x := w.extractLsb' 11 1
  sz := w.extractLsb' 9 2
  off := w.extractLsb' 0 9

/-- Format MV (Table 12.2). -/
structure FmtMV where
  d : BitVec 5
  a : BitVec 5
  la : BitVec 4
  x : BitVec 1
  m : BitVec 3
  c : BitVec 1
  off : BitVec 7
  deriving DecidableEq, Repr

/-- The word with major `maj` and the fields of format MV. -/
def FmtMV.pack (maj : BitVec 6) (f : FmtMV) : W32 :=
  (maj ++ f.d ++ f.a ++ f.la ++ f.x ++ f.m ++ f.c ++ f.off).setWidth 32

/-- The fields of format MV of a word. -/
def FmtMV.unpack (w : W32) : FmtMV where
  d := w.extractLsb' 21 5
  a := w.extractLsb' 16 5
  la := w.extractLsb' 12 4
  x := w.extractLsb' 11 1
  m := w.extractLsb' 8 3
  c := w.extractLsb' 7 1
  off := w.extractLsb' 0 7

/-- Format MX (Table 12.2). -/
structure FmtMX where
  d : BitVec 5
  a : BitVec 5
  b : BitVec 5
  la : BitVec 4
  x : BitVec 1
  sz : BitVec 2
  m : BitVec 3
  z : BitVec 1
  deriving DecidableEq, Repr

/-- The word with major `maj` and the fields of format MX. -/
def FmtMX.pack (maj : BitVec 6) (f : FmtMX) : W32 :=
  (maj ++ f.d ++ f.a ++ f.b ++ f.la ++ f.x ++ f.sz ++ f.m ++ f.z).setWidth 32

/-- The fields of format MX of a word. -/
def FmtMX.unpack (w : W32) : FmtMX where
  d := w.extractLsb' 21 5
  a := w.extractLsb' 16 5
  b := w.extractLsb' 11 5
  la := w.extractLsb' 7 4
  x := w.extractLsb' 6 1
  sz := w.extractLsb' 4 2
  m := w.extractLsb' 1 3
  z := w.extractLsb' 0 1

/-- Format B (Table 12.2). -/
structure FmtB where
  p : BitVec 3
  s : BitVec 1
  disp : BitVec 22
  deriving DecidableEq, Repr

/-- The word with major `maj` and the fields of format B. -/
def FmtB.pack (maj : BitVec 6) (f : FmtB) : W32 :=
  (maj ++ f.p ++ f.s ++ f.disp).setWidth 32

/-- The fields of format B of a word. -/
def FmtB.unpack (w : W32) : FmtB where
  p := w.extractLsb' 23 3
  s := w.extractLsb' 22 1
  disp := w.extractLsb' 0 22

/-- Format BC (Table 12.2). -/
structure FmtBC where
  a : BitVec 5
  b : BitVec 5
  cc : BitVec 3
  disp : BitVec 13
  deriving DecidableEq, Repr

/-- The word with major `maj` and the fields of format BC. -/
def FmtBC.pack (maj : BitVec 6) (f : FmtBC) : W32 :=
  (maj ++ f.a ++ f.b ++ f.cc ++ f.disp).setWidth 32

/-- The fields of format BC of a word. -/
def FmtBC.unpack (w : W32) : FmtBC where
  a := w.extractLsb' 21 5
  b := w.extractLsb' 16 5
  cc := w.extractLsb' 13 3
  disp := w.extractLsb' 0 13

/-- Format J (Table 12.2). -/
structure FmtJ where
  disp : BitVec 26
  deriving DecidableEq, Repr

/-- The word with major `maj` and the fields of format J. -/
def FmtJ.pack (maj : BitVec 6) (f : FmtJ) : W32 :=
  (maj ++ f.disp).setWidth 32

/-- The fields of format J of a word. -/
def FmtJ.unpack (w : W32) : FmtJ where
  disp := w.extractLsb' 0 26

/-- Format L (Table 12.2). -/
structure FmtL where
  a : BitVec 5
  disp : BitVec 21
  deriving DecidableEq, Repr

/-- The word with major `maj` and the fields of format L. -/
def FmtL.pack (maj : BitVec 6) (f : FmtL) : W32 :=
  (maj ++ f.a ++ f.disp).setWidth 32

/-- The fields of format L of a word. -/
def FmtL.unpack (w : W32) : FmtL where
  a := w.extractLsb' 21 5
  disp := w.extractLsb' 0 21

/-- Format F (Table 12.2). -/
structure FmtF where
  len : BitVec 4
  cnt : BitVec 8
  fm : BitVec 3
  step : BitVec 2
  zero : BitVec 9
  deriving DecidableEq, Repr

/-- The word with major `maj` and the fields of format F. -/
def FmtF.pack (maj : BitVec 6) (f : FmtF) : W32 :=
  (maj ++ f.len ++ f.cnt ++ f.fm ++ f.step ++ f.zero).setWidth 32

/-- The fields of format F of a word. -/
def FmtF.unpack (w : W32) : FmtF where
  len := w.extractLsb' 22 4
  cnt := w.extractLsb' 14 8
  fm := w.extractLsb' 11 3
  step := w.extractLsb' 9 2
  zero := w.extractLsb' 0 9

/-- Format X (Table 12.2). -/
structure FmtX where
  md : BitVec 3
  ga : BitVec 5
  gb : BitVec 5
  vi : BitVec 5
  ty : BitVec 4
  fl : BitVec 4
  deriving DecidableEq, Repr

/-- The word with major `maj` and the fields of format X. -/
def FmtX.pack (maj : BitVec 6) (f : FmtX) : W32 :=
  (maj ++ f.md ++ f.ga ++ f.gb ++ f.vi ++ f.ty ++ f.fl).setWidth 32

/-- The fields of format X of a word. -/
def FmtX.unpack (w : W32) : FmtX where
  md := w.extractLsb' 23 3
  ga := w.extractLsb' 18 5
  gb := w.extractLsb' 13 5
  vi := w.extractLsb' 8 5
  ty := w.extractLsb' 4 4
  fl := w.extractLsb' 0 4

/-- Format T (Table 12.2). -/
structure FmtT where
  fn : BitVec 3
  disp : BitVec 23
  deriving DecidableEq, Repr

/-- The word with major `maj` and the fields of format T. -/
def FmtT.pack (maj : BitVec 6) (f : FmtT) : W32 :=
  (maj ++ f.fn ++ f.disp).setWidth 32

/-- The fields of format T of a word. -/
def FmtT.unpack (w : W32) : FmtT where
  fn := w.extractLsb' 23 3
  disp := w.extractLsb' 0 23

/-- Format S (Table 12.2). -/
structure FmtS where
  d : BitVec 5
  a : BitVec 5
  csr : BitVec 12
  fn : BitVec 4
  deriving DecidableEq, Repr

/-- The word with major `maj` and the fields of format S. -/
def FmtS.pack (maj : BitVec 6) (f : FmtS) : W32 :=
  (maj ++ f.d ++ f.a ++ f.csr ++ f.fn).setWidth 32

/-- The fields of format S of a word. -/
def FmtS.unpack (w : W32) : FmtS where
  d := w.extractLsb' 21 5
  a := w.extractLsb' 16 5
  csr := w.extractLsb' 4 12
  fn := w.extractLsb' 0 4

/-- Format Q (Table 12.2). -/
structure FmtQ where
  g : BitVec 5
  qn : BitVec 4
  la : BitVec 4
  fn : BitVec 3
  zero : BitVec 10
  deriving DecidableEq, Repr

/-- The word with major `maj` and the fields of format Q. -/
def FmtQ.pack (maj : BitVec 6) (f : FmtQ) : W32 :=
  (maj ++ f.g ++ f.qn ++ f.la ++ f.fn ++ f.zero).setWidth 32

/-- The fields of format Q of a word. -/
def FmtQ.unpack (w : W32) : FmtQ where
  g := w.extractLsb' 21 5
  qn := w.extractLsb' 17 4
  la := w.extractLsb' 13 4
  fn := w.extractLsb' 10 3
  zero := w.extractLsb' 0 10

/-- Format FC (Table 12.2). -/
structure FmtFC where
  scope : BitVec 3
  kind : BitVec 3
  zero : BitVec 20
  deriving DecidableEq, Repr

/-- The word with major `maj` and the fields of format FC. -/
def FmtFC.pack (maj : BitVec 6) (f : FmtFC) : W32 :=
  (maj ++ f.scope ++ f.kind ++ f.zero).setWidth 32

/-- The fields of format FC of a word. -/
def FmtFC.unpack (w : W32) : FmtFC where
  scope := w.extractLsb' 23 3
  kind := w.extractLsb' 20 3
  zero := w.extractLsb' 0 20

/-- The word of an instruction (Table 12.2 and R253 to R264). An event of the opcode table has no encoding: its word is the all-zero
word, which is ILLEGAL (R243). -/
def encode : Instr → W32
  | .add d a b => FmtR.pack 0x01 ⟨d, a, b, 0#4, 0#7⟩
  | .sub d a b => FmtR.pack 0x01 ⟨d, a, b, 0#4, 1#7⟩
  | .mul d a b => FmtR.pack 0x01 ⟨d, a, b, 0#4, 2#7⟩
  | .mulh d a b => FmtR.pack 0x01 ⟨d, a, b, 0#4, 3#7⟩
  | .mulhn d a b => FmtR.pack 0x01 ⟨d, a, b, 0#4, 4#7⟩
  | .div d a b la => FmtR.pack 0x01 ⟨d, a, b, la, 5#7⟩
  | .divn d a b la => FmtR.pack 0x01 ⟨d, a, b, la, 6#7⟩
  | .rem d a b la => FmtR.pack 0x01 ⟨d, a, b, la, 7#7⟩
  | .remn d a b la => FmtR.pack 0x01 ⟨d, a, b, la, 8#7⟩
  | .and d a b => FmtR.pack 0x01 ⟨d, a, b, 0#4, 16#7⟩
  | .or d a b => FmtR.pack 0x01 ⟨d, a, b, 0#4, 17#7⟩
  | .xor d a b => FmtR.pack 0x01 ⟨d, a, b, 0#4, 18#7⟩
  | .andn d a b => FmtR.pack 0x01 ⟨d, a, b, 0#4, 19#7⟩
  | .shl d a b => FmtR.pack 0x01 ⟨d, a, b, 0#4, 24#7⟩
  | .shr d a b => FmtR.pack 0x01 ⟨d, a, b, 0#4, 25#7⟩
  | .sra d a b => FmtR.pack 0x01 ⟨d, a, b, 0#4, 26#7⟩
  | .min d a b => FmtR.pack 0x01 ⟨d, a, b, 0#4, 32#7⟩
  | .max d a b => FmtR.pack 0x01 ⟨d, a, b, 0#4, 33#7⟩
  | .minn d a b => FmtR.pack 0x01 ⟨d, a, b, 0#4, 34#7⟩
  | .maxn d a b => FmtR.pack 0x01 ⟨d, a, b, 0#4, 35#7⟩
  | .clz d a => FmtR.pack 0x01 ⟨d, a, 0#5, 0#4, 40#7⟩
  | .popc d a => FmtR.pack 0x01 ⟨d, a, 0#5, 0#4, 41#7⟩
  | .bfx d a b => FmtR.pack 0x01 ⟨d, a, b, 0#4, 48#7⟩
  | .bfxn d a b => FmtR.pack 0x01 ⟨d, a, b, 0#4, 49#7⟩
  | .bfi d a b => FmtR.pack 0x01 ⟨d, a, b, 0#4, 50#7⟩
  | .sel d a b p => FmtR.pack 0x01 ⟨d, a, b, 0#1 ++ p, 56#7⟩
  | .cmp p a b cc => FmtR.pack 0x01 ⟨p ++ 0#2, a, b, 0#4, 8#4 ++ cc.code⟩
  | .addi d a imm => FmtI.pack 0x02 ⟨d, a, imm⟩
  | .andi d a imm => FmtI.pack 0x03 ⟨d, a, imm⟩
  | .ori d a imm => FmtI.pack 0x04 ⟨d, a, imm⟩
  | .xori d a imm => FmtI.pack 0x05 ⟨d, a, imm⟩
  | .shli d a n => FmtI.pack 0x06 ⟨d, a, 0#10 ++ n⟩
  | .shri d a n => FmtI.pack 0x06 ⟨d, a, 1#10 ++ n⟩
  | .srai d a n => FmtI.pack 0x06 ⟨d, a, 2#10 ++ n⟩
  | .lim d q imm => FmtI.pack 0x07 ⟨d, 0#3 ++ q, imm⟩
  | .cmpi p cc a imm => FmtIC.pack 0x08 ⟨p, cc.code, a, imm⟩
  | .paddi d a imm => FmtI.pack 0x09 ⟨d, a, imm⟩
  | .padd d a b => FmtR.pack 0x0A ⟨d, a, b, 0#4, 0#7⟩
  | .psub d a b => FmtR.pack 0x0A ⟨d, a, b, 0#4, 1#7⟩
  | .ptag d a b => FmtR.pack 0x0A ⟨d, a, b, 0#4, 2#7⟩
  | .pget d a => FmtR.pack 0x0A ⟨d, a, 0#5, 0#4, 3#7⟩
  | .fadd d a b => FmtR.pack 0x0B ⟨d, a, b, 0#4, 0#7⟩
  | .fsub d a b => FmtR.pack 0x0B ⟨d, a, b, 0#4, 1#7⟩
  | .fmul d a b => FmtR.pack 0x0B ⟨d, a, b, 0#4, 2#7⟩
  | .fdiv d a b la => FmtR.pack 0x0B ⟨d, a, b, la, 3#7⟩
  | .fsqrt d a la => FmtR.pack 0x0B ⟨d, a, 0#5, la, 4#7⟩
  | .fmin d a b => FmtR.pack 0x0B ⟨d, a, b, 0#4, 5#7⟩
  | .fmax d a b => FmtR.pack 0x0B ⟨d, a, b, 0#4, 6#7⟩
  | .fcmp d a b cc => FmtR.pack 0x0B ⟨d, a, b, 0#4, 1#4 ++ cc.code⟩
  | .fcvtF2i d a => FmtR.pack 0x0B ⟨d, a, 0#5, 0#4, 16#7⟩
  | .fcvtF2n d a => FmtR.pack 0x0B ⟨d, a, 0#5, 0#4, 17#7⟩
  | .fcvtI2f d a => FmtR.pack 0x0B ⟨d, a, 0#5, 0#4, 18#7⟩
  | .fcvtN2f d a => FmtR.pack 0x0B ⟨d, a, 0#5, 0#4, 19#7⟩
  | .fclass d a => FmtR.pack 0x0B ⟨d, a, 0#5, 0#4, 20#7⟩
  | .fma d a b c => FmtRC.pack 0x0C ⟨d, a, b, c, 0#6⟩
  | .fms d a b c => FmtRC.pack 0x0C ⟨d, a, b, c, 1#6⟩
  | .fnma d a b c => FmtRC.pack 0x0C ⟨d, a, b, c, 2#6⟩
  | .brAny p disp => FmtB.pack 0x0D ⟨p, 1#1, disp⟩
  | .brNone p disp => FmtB.pack 0x0D ⟨p, 0#1, disp⟩
  | .bcc a b cc disp => FmtBC.pack 0x0E ⟨a, b, cc.code, disp⟩
  | .bra disp => FmtJ.pack 0x0F ⟨disp⟩
  | .call disp => FmtJ.pack 0x10 ⟨disp⟩
  | .jr a => FmtR.pack 0x11 ⟨0#5, a, 0#5, 0#4, 0#7⟩
  | .callr a => FmtR.pack 0x11 ⟨0#5, a, 0#5, 0#4, 1#7⟩
  | .ret => FmtR.pack 0x11 ⟨0#5, 0#5, 0#5, 0#4, 2#7⟩
  | .loop a disp => FmtL.pack 0x12 ⟨a, disp⟩
  | .repf len cnt fm step => FmtF.pack 0x13 ⟨len, cnt, fm, step, 0#9⟩
  | .ld d a la x sz off => FmtM.pack 0x14 ⟨d, a, la, BitVec.ofBool x, sz.code, off⟩
  | .ldn d a la x sz off => FmtM.pack 0x15 ⟨d, a, la, BitVec.ofBool x, sz.code, off⟩
  | .st d a la x sz off => FmtM.pack 0x16 ⟨d, a, la, BitVec.ofBool x, sz.code, off⟩
  | .ldx d a b la x sz z => FmtMX.pack 0x17 ⟨d, a, b, la, BitVec.ofBool x, sz.code, 0#3, BitVec.ofBool z⟩
  | .stx d a b la x sz => FmtMX.pack 0x18 ⟨d, a, b, la, BitVec.ofBool x, sz.code, 0#3, 0#1⟩
  | .ldf d a la => FmtR.pack 0x19 ⟨d, a, 0#5, la, 0#7⟩
  | .ldff d a la => FmtR.pack 0x19 ⟨d, a, 0#5, la, 1#7⟩
  | .ste d a la => FmtR.pack 0x19 ⟨d, a, 0#5, la, 2#7⟩
  | .stef d a la => FmtR.pack 0x19 ⟨d, a, 0#5, la, 3#7⟩
  | .feclr a la => FmtR.pack 0x19 ⟨0#5, a, 0#5, la, 4#7⟩
  | .feget d a la => FmtR.pack 0x19 ⟨d, a, 0#5, la, 5#7⟩
  | .amoAdd d a b la sz => FmtR.pack 0x1A ⟨d, a, b, la, sz.code ++ 0#5⟩
  | .amoAnd d a b la sz => FmtR.pack 0x1A ⟨d, a, b, la, sz.code ++ 1#5⟩
  | .amoOr d a b la sz => FmtR.pack 0x1A ⟨d, a, b, la, sz.code ++ 2#5⟩
  | .amoXor d a b la sz => FmtR.pack 0x1A ⟨d, a, b, la, sz.code ++ 3#5⟩
  | .amoMin d a b la sz => FmtR.pack 0x1A ⟨d, a, b, la, sz.code ++ 4#5⟩
  | .amoMax d a b la sz => FmtR.pack 0x1A ⟨d, a, b, la, sz.code ++ 5#5⟩
  | .amoMinn d a b la sz => FmtR.pack 0x1A ⟨d, a, b, la, sz.code ++ 6#5⟩
  | .amoMaxn d a b la sz => FmtR.pack 0x1A ⟨d, a, b, la, sz.code ++ 7#5⟩
  | .amoSwap d a b la sz => FmtR.pack 0x1A ⟨d, a, b, la, sz.code ++ 8#5⟩
  | .amoFadd d a b la => FmtR.pack 0x1A ⟨d, a, b, la, 73#7⟩
  | .cas d a b c sz => FmtRC.pack 0x1B ⟨d, a, b, c, 0#5 ++ sz.bit⟩
  | .ldr d a la sz => FmtR.pack 0x1C ⟨d, a, 0#5, la, sz.code ++ 0#5⟩
  | .stc d a b la sz => FmtR.pack 0x1C ⟨d, a, b, la, sz.code ++ 1#5⟩
  | .wrs d a la sz => FmtR.pack 0x1C ⟨d, a, 0#5, la, sz.code ++ 2#5⟩
  | .rupdAdd a b sz => FmtR.pack 0x1D ⟨0#5, a, b, 0#4, sz.code ++ 0#5⟩
  | .rupdAnd a b sz => FmtR.pack 0x1D ⟨0#5, a, b, 0#4, sz.code ++ 1#5⟩
  | .rupdOr a b sz => FmtR.pack 0x1D ⟨0#5, a, b, 0#4, sz.code ++ 2#5⟩
  | .rupdXor a b sz => FmtR.pack 0x1D ⟨0#5, a, b, 0#4, sz.code ++ 3#5⟩
  | .rupdMin a b sz => FmtR.pack 0x1D ⟨0#5, a, b, 0#4, sz.code ++ 4#5⟩
  | .rupdMax a b sz => FmtR.pack 0x1D ⟨0#5, a, b, 0#4, sz.code ++ 5#5⟩
  | .rupdMinn a b sz => FmtR.pack 0x1D ⟨0#5, a, b, 0#4, sz.code ++ 6#5⟩
  | .rupdMaxn a b sz => FmtR.pack 0x1D ⟨0#5, a, b, 0#4, sz.code ++ 7#5⟩
  | .rupdFadd a b => FmtR.pack 0x1D ⟨0#5, a, b, 0#4, 73#7⟩
  | .fence s => FmtFC.pack 0x1E ⟨s.code, 0#3, 0#20⟩
  | .fenceAcq s => FmtFC.pack 0x1E ⟨s.code, 1#3, 0#20⟩
  | .fenceRel s => FmtFC.pack 0x1E ⟨s.code, 2#3, 0#20⟩
  | .fenceEng s => FmtFC.pack 0x1E ⟨s.code, 3#3, 0#20⟩
  | .bara id => FmtR.pack 0x1F ⟨0#5, id, 0#5, 0#4, 0#7⟩
  | .barw id => FmtR.pack 0x1F ⟨0#5, id, 0#5, 0#4, 1#7⟩
  | .barg id => FmtR.pack 0x1F ⟨0#5, id, 0#5, 0#4, 2#7⟩
  | .barq d id => FmtR.pack 0x1F ⟨d, id, 0#5, 0#4, 3#7⟩
  | .barset id b => FmtR.pack 0x1F ⟨0#5, id, b, 0#4, 4#7⟩
  | .txb disp => FmtT.pack 0x20 ⟨0#3, disp⟩
  | .txelse disp => FmtT.pack 0x20 ⟨1#3, disp⟩
  | .txe => FmtT.pack 0x20 ⟨2#3, 0#23⟩
  | .txr => FmtT.pack 0x20 ⟨3#3, 0#23⟩
  | .txabort c => FmtT.pack 0x20 ⟨4#3, 0#15 ++ c⟩
  | .txst d => FmtT.pack 0x20 ⟨5#3, 0#18 ++ d⟩
  | .vld d a la x m off => FmtMV.pack 0x21 ⟨d, a, la, BitVec.ofBool x, m, 0#1, off⟩
  | .vldC d a la x m off => FmtMV.pack 0x21 ⟨d, a, la, BitVec.ofBool x, m, 1#1, off⟩
  | .vst d a la x m off => FmtMV.pack 0x22 ⟨d, a, la, BitVec.ofBool x, m, 0#1, off⟩
  | .vldx d a b la x sz m z => FmtMX.pack 0x23 ⟨d, a, b, la, BitVec.ofBool x, sz.code, m, BitVec.ofBool z⟩
  | .vstx d a b la x sz m => FmtMX.pack 0x24 ⟨d, a, b, la, BitVec.ofBool x, sz.code, m, 0#1⟩
  | .vlds d a b la m x => FmtR.pack 0x25 ⟨d, a, b, la, 0#1 ++ m ++ BitVec.ofBool x ++ 0#2⟩
  | .vsts d a b la m x => FmtR.pack 0x25 ⟨d, a, b, la, 0#1 ++ m ++ BitVec.ofBool x ++ 1#2⟩
  | .vadd d a b m => FmtV.pack 0x26 ⟨d, a, b, 0#4, m, 0#4⟩
  | .vsub d a b m => FmtV.pack 0x26 ⟨d, a, b, 0#4, m, 1#4⟩
  | .vmul d a b m => FmtV.pack 0x26 ⟨d, a, b, 0#4, m, 2#4⟩
  | .vmulh d a b m => FmtV.pack 0x26 ⟨d, a, b, 0#4, m, 3#4⟩
  | .vand d a b m => FmtV.pack 0x26 ⟨d, a, b, 0#4, m, 4#4⟩
  | .vor d a b m => FmtV.pack 0x26 ⟨d, a, b, 0#4, m, 5#4⟩
  | .vxor d a b m => FmtV.pack 0x26 ⟨d, a, b, 0#4, m, 6#4⟩
  | .vshl d a b m => FmtV.pack 0x26 ⟨d, a, b, 0#4, m, 7#4⟩
  | .vshr d a b m => FmtV.pack 0x26 ⟨d, a, b, 0#4, m, 8#4⟩
  | .vsra d a b m => FmtV.pack 0x26 ⟨d, a, b, 0#4, m, 9#4⟩
  | .vmin d a b m => FmtV.pack 0x26 ⟨d, a, b, 0#4, m, 10#4⟩
  | .vmax d a b m => FmtV.pack 0x26 ⟨d, a, b, 0#4, m, 11#4⟩
  | .vminn d a b m => FmtV.pack 0x26 ⟨d, a, b, 0#4, m, 12#4⟩
  | .vmaxn d a b m => FmtV.pack 0x26 ⟨d, a, b, 0#4, m, 13#4⟩
  | .vabs d a m => FmtV.pack 0x26 ⟨d, a, 0#5, 0#4, m, 14#4⟩
  | .vneg d a m => FmtV.pack 0x26 ⟨d, a, 0#5, 0#4, m, 15#4⟩
  | .vcmp d a b m cc => FmtV.pack 0x27 ⟨(0#2 ++ d), a, b, 0#4, m, 0#1 ++ cc.code⟩
  | .vsel d a b m => FmtV.pack 0x27 ⟨d, a, b, 0#4, m, 8#4⟩
  | .vclz d a m => FmtV.pack 0x27 ⟨d, a, 0#5, 0#4, m, 9#4⟩
  | .vpopc d a m => FmtV.pack 0x27 ⟨d, a, 0#5, 0#4, m, 10#4⟩
  | .vfadd d a b m => FmtV.pack 0x28 ⟨d, a, b, 0#4, m, 0#4⟩
  | .vfsub d a b m => FmtV.pack 0x28 ⟨d, a, b, 0#4, m, 1#4⟩
  | .vfmul d a b m => FmtV.pack 0x28 ⟨d, a, b, 0#4, m, 2#4⟩
  | .vfmin d a b m => FmtV.pack 0x28 ⟨d, a, b, 0#4, m, 3#4⟩
  | .vfmax d a b m => FmtV.pack 0x28 ⟨d, a, b, 0#4, m, 4#4⟩
  | .vfabs d a m => FmtV.pack 0x28 ⟨d, a, 0#5, 0#4, m, 5#4⟩
  | .vfneg d a m => FmtV.pack 0x28 ⟨d, a, 0#5, 0#4, m, 6#4⟩
  | .vfcmp d a b m cc => FmtV.pack 0x28 ⟨(0#2 ++ d), a, b, 0#4, m, 1#1 ++ cc.code⟩
  | .vfma d a b c m => FmtVC.pack 0x29 ⟨d, a, b, c, m, 0#3⟩
  | .vfms d a b c m => FmtVC.pack 0x29 ⟨d, a, b, c, m, 1#3⟩
  | .vfnma d a b c m => FmtVC.pack 0x29 ⟨d, a, b, c, m, 2#3⟩
  | .vma d a b c m => FmtVC.pack 0x29 ⟨d, a, b, c, m, 4#3⟩
  | .vfdiv d a b la m => FmtV.pack 0x2A ⟨d, a, b, la, m, 0#4⟩
  | .vfsqrt d a la m => FmtV.pack 0x2A ⟨d, a, 0#5, la, m, 1#4⟩
  | .vfrcp d a la m => FmtV.pack 0x2A ⟨d, a, 0#5, la, m, 2#4⟩
  | .vfrsq d a la m => FmtV.pack 0x2A ⟨d, a, 0#5, la, m, 3#4⟩
  | .vfexp2 d a la m => FmtV.pack 0x2A ⟨d, a, 0#5, la, m, 4#4⟩
  | .vflog2 d a la m => FmtV.pack 0x2A ⟨d, a, 0#5, la, m, 5#4⟩
  | .vcvtF2bf d a b m => FmtV.pack 0x2B ⟨d, a, b, 0#4, m, 0#4⟩
  | .vcvtBf2f d a h m => FmtV.pack 0x2B ⟨d, a, 0#4 ++ BitVec.ofBool h, 0#4, m, 1#4⟩
  | .vcvtF2h d a b m => FmtV.pack 0x2B ⟨d, a, b, 0#4, m, 2#4⟩
  | .vcvtH2f d a h m => FmtV.pack 0x2B ⟨d, a, 0#4 ++ BitVec.ofBool h, 0#4, m, 3#4⟩
  | .vcvtF2e4 d a k m => FmtV.pack 0x2B ⟨d, a, 0#3 ++ k, 0#4, m, 4#4⟩
  | .vcvtE42f d a k m => FmtV.pack 0x2B ⟨d, a, 0#3 ++ k, 0#4, m, 5#4⟩
  | .vcvtF2e5 d a k m => FmtV.pack 0x2B ⟨d, a, 0#3 ++ k, 0#4, m, 6#4⟩
  | .vcvtE52f d a k m => FmtV.pack 0x2B ⟨d, a, 0#3 ++ k, 0#4, m, 7#4⟩
  | .vcvtF2i d a m => FmtV.pack 0x2B ⟨d, a, 0#5, 0#4, m, 8#4⟩
  | .vcvtI2f d a m => FmtV.pack 0x2B ⟨d, a, 0#5, 0#4, m, 9#4⟩
  | .vcvtN2f d a m => FmtV.pack 0x2B ⟨d, a, 0#5, 0#4, m, 10#4⟩
  | .vcvtF2n d a m => FmtV.pack 0x2B ⟨d, a, 0#5, 0#4, m, 11#4⟩
  | .vcvtI2b d a k m => FmtV.pack 0x2B ⟨d, a, 0#3 ++ k, 0#4, m, 12#4⟩
  | .vcvtB2i d a k m => FmtV.pack 0x2B ⟨d, a, 0#3 ++ k, 0#4, m, 13#4⟩
  | .vbcast d a m => FmtV.pack 0x2C ⟨d, a, 0#5, 0#4, m, 0#4⟩
  | .vext d a b => FmtV.pack 0x2C ⟨d, a, b, 0#4, 0#3, 1#4⟩
  | .vins d a b => FmtV.pack 0x2C ⟨d, a, b, 0#4, 0#3, 2#4⟩
  | .vperm d a b m => FmtV.pack 0x2C ⟨d, a, b, 0#4, m, 3#4⟩
  | .viota d m => FmtV.pack 0x2C ⟨d, 0#5, 0#5, 0#4, m, 4#4⟩
  | .vred d a op m => FmtV.pack 0x2C ⟨d, a, op.code, 0#4, m, 5#4⟩
  | .vscan d a op m => FmtV.pack 0x2C ⟨d, a, op.code, 0#4, m, 6#4⟩
  | .vcomp d a m => FmtV.pack 0x2C ⟨d, a, 0#5, 0#4, m, 7#4⟩
  | .vslide d a b m => FmtV.pack 0x2C ⟨d, a, b, 0#4, m, 8#4⟩
  | .pand d a b => FmtV.pack 0x2D ⟨(0#2 ++ d), (0#2 ++ a), (0#2 ++ b), 0#4, 0#3, 0#4⟩
  | .por d a b => FmtV.pack 0x2D ⟨(0#2 ++ d), (0#2 ++ a), (0#2 ++ b), 0#4, 0#3, 1#4⟩
  | .pxor d a b => FmtV.pack 0x2D ⟨(0#2 ++ d), (0#2 ++ a), (0#2 ++ b), 0#4, 0#3, 2#4⟩
  | .pandn d a b => FmtV.pack 0x2D ⟨(0#2 ++ d), (0#2 ++ a), (0#2 ++ b), 0#4, 0#3, 3#4⟩
  | .pnot d a => FmtV.pack 0x2D ⟨(0#2 ++ d), (0#2 ++ a), 0#5, 0#4, 0#3, 4#4⟩
  | .pcnt d a => FmtV.pack 0x2D ⟨d, (0#2 ++ a), 0#5, 0#4, 0#3, 5#4⟩
  | .pfirst d a => FmtV.pack 0x2D ⟨d, (0#2 ++ a), 0#5, 0#4, 0#3, 6#4⟩
  | .pset d a => FmtV.pack 0x2D ⟨(0#2 ++ d), a, 0#5, 0#4, 0#3, 7#4⟩
  | .pgets d a => FmtV.pack 0x2D ⟨d, (0#2 ++ a), 0#5, 0#4, 0#3, 8#4⟩
  | .mma md a b ty t z => FmtX.pack 0x2E ⟨md, a, b, 0#5, ty.code, 0#1 ++ BitVec.ofBool t ++ BitVec.ofBool z ++ 0#1⟩
  | .mmaIx md a b v ty t z => FmtX.pack 0x2E ⟨md, a, b, v, ty.code, 0#1 ++ BitVec.ofBool t ++ BitVec.ofBool z ++ 1#1⟩
  | .msp md a b v ty t z => FmtX.pack 0x2F ⟨md, a, b, v, ty.code, 0#1 ++ BitVec.ofBool t ++ BitVec.ofBool z ++ 0#1⟩
  | .mzero d => FmtR.pack 0x30 ⟨(0#2 ++ d), 0#5, 0#5, 0#4, 0#7⟩
  | .mlda d a => FmtR.pack 0x30 ⟨(0#2 ++ d), a, 0#5, 0#4, 1#7⟩
  | .msta d a => FmtR.pack 0x30 ⟨(0#2 ++ d), a, 0#5, 0#4, 2#7⟩
  | .mmov d a => FmtR.pack 0x30 ⟨(0#2 ++ d), (0#2 ++ a), 0#5, 0#4, 3#7⟩
  | .mstat d la => FmtR.pack 0x30 ⟨d, 0#5, 0#5, la, 4#7⟩
  | .mwait d la => FmtR.pack 0x30 ⟨d, 0#5, 0#5, la, 5#7⟩
  | .cpy a => FmtR.pack 0x31 ⟨0#5, a, 0#5, 0#4, 0#7⟩
  | .cpyx a b => FmtR.pack 0x31 ⟨0#5, a, b, 0#4, 1#7⟩
  | .coll a => FmtR.pack 0x32 ⟨0#5, a, 0#5, 0#4, 0#7⟩
  | .qpush g q => FmtQ.pack 0x33 ⟨g, q, 0#4, 0#3, 0#10⟩
  | .qpushv g q => FmtQ.pack 0x33 ⟨g, q, 0#4, 1#3, 0#10⟩
  | .qpop g q la => FmtQ.pack 0x33 ⟨g, q, la, 2#3, 0#10⟩
  | .qpopv g q la => FmtQ.pack 0x33 ⟨g, q, la, 3#3, 0#10⟩
  | .qbind g q => FmtQ.pack 0x33 ⟨g, q, 0#4, 4#3, 0#10⟩
  | .qstat g q => FmtQ.pack 0x33 ⟨g, q, 0#4, 5#3, 0#10⟩
  | .wlpsh d a b => FmtR.pack 0x34 ⟨d, a, b, 0#4, 0#7⟩
  | .wlpop d a la => FmtR.pack 0x34 ⟨d, a, 0#5, la, 1#7⟩
  | .wlack a => FmtR.pack 0x34 ⟨0#5, a, 0#5, 0#4, 2#7⟩
  | .wlret a => FmtR.pack 0x34 ⟨0#5, a, 0#5, 0#4, 3#7⟩
  | .wlsta d a b => FmtR.pack 0x34 ⟨d, a, b, 0#4, 4#7⟩
  | .wlcfg d a => FmtR.pack 0x34 ⟨d, a, 0#5, 0#4, 5#7⟩
  | .endTask => FmtR.pack 0x35 ⟨0#5, 0#5, 0#5, 0#4, 0#7⟩
  | .yield => FmtR.pack 0x35 ⟨0#5, 0#5, 0#5, 0#4, 1#7⟩
  | .align => FmtR.pack 0x35 ⟨0#5, 0#5, 0#5, 0#4, 2#7⟩
  | .trig => FmtR.pack 0x35 ⟨0#5, 0#5, 0#5, 0#4, 3#7⟩
  | .migr a => FmtR.pack 0x35 ⟨0#5, a, 0#5, 0#4, 4#7⟩
  | .widx d k => FmtR.pack 0x35 ⟨d, k, 0#5, 0#4, 5#7⟩
  | .ueret => FmtR.pack 0x35 ⟨0#5, 0#5, 0#5, 0#4, 6#7⟩
  | .csrr d csr => FmtS.pack 0x36 ⟨d, 0#5, csr, 0#4⟩
  | .csrw d a csr => FmtS.pack 0x36 ⟨d, a, csr, 1#4⟩
  | .csrs d a csr => FmtS.pack 0x36 ⟨d, a, csr, 2#4⟩
  | .csrc d a csr => FmtS.pack 0x36 ⟨d, a, csr, 3#4⟩
  | .eret => FmtR.pack 0x37 ⟨0#5, 0#5, 0#5, 0#4, 0#7⟩
  | .spill a => FmtR.pack 0x37 ⟨0#5, a, 0#5, 0#4, 1#7⟩
  | .fill a => FmtR.pack 0x37 ⟨0#5, a, 0#5, 0#4, 2#7⟩
  | .wake a => FmtR.pack 0x37 ⟨0#5, a, 0#5, 0#4, 3#7⟩
  | .tlbiRange a b => FmtR.pack 0x37 ⟨0#5, a, b, 0#4, 4#7⟩
  | .tlbiAsid a => FmtR.pack 0x37 ⟨1#5, a, 0#5, 0#4, 4#7⟩
  | .tlbiAll => FmtR.pack 0x37 ⟨2#5, 0#5, 0#5, 0#4, 4#7⟩
  | .iflush => FmtR.pack 0x37 ⟨0#5, 0#5, 0#5, 0#4, 5#7⟩
  | .halt => FmtR.pack 0x37 ⟨0#5, 0#5, 0#5, 0#4, 6#7⟩
  | .mspill d a => FmtR.pack 0x37 ⟨(0#2 ++ d), a, 0#5, 0#4, 7#7⟩
  | .mfill d a => FmtR.pack 0x37 ⟨(0#2 ++ d), a, 0#5, 0#4, 8#7⟩
  | .trap c => FmtI.pack 0x38 ⟨0#5, 0#5, 0#1 ++ c⟩
  | .brk c => FmtI.pack 0x38 ⟨0#5, 0#5, 1#1 ++ c⟩
  | .dispatch _ => 0
  | .prefetch _ _ => 0
  | .eviction _ => 0
  | .saveComplete _ => 0
  | .refill _ => 0
  | .migrationArrival _ _ => 0
  | .userEventDelivery _ => 0
  | .icacheFill _ _ _ => 0
  | .alignTimeout _ _ => 0
  | .homeAccess _ => 0
  | .accessReply _ _ => 0
  | .updateApply _ => 0
  | .walkComplete _ _ _ => 0
  | .pageWake _ _ _ _ => 0
  | .feRetryAttempt _ => 0
  | .buoyNotice _ => 0
  | .lossNotice _ => 0
  | .releaseMessage _ => 0
  | .commitHold _ _ _ => 0
  | .commitApply _ _ _ => 0
  | .chunkTurn _ => 0
  | .fpush _ _ => 0
  | .rpush _ => 0
  | .fwd _ _ => 0
  | .head _ _ _ => 0
  | .low _ _ => 0
  | .pull _ _ _ _ _ => 0
  | .ritem _ _ _ => 0
  | .pack _ _ _ => 0
  | .demote _ _ _ => 0
  | .cut _ _ _ _ _ => 0
  | .pop _ _ => 0
  | .popReply _ _ => 0
  | .pushAnswer _ _ => 0
  | .launchStart _ => 0
  | .coschedAdmission _ => 0
  | .launchRecordWrite _ => 0
  | .wlwdogExpiry _ => 0
  | .packageBarrierArrival _ _ _ => 0
  | .barrierArrivalReply _ _ _ _ => 0
  | .barrierCompletion _ _ _ => 0
  | .channelWord _ _ _ _ => 0
  | .creditReturn _ _ _ _ => 0
  | .dryTimeout _ _ _ => 0
  | .matrixCommandStart _ => 0
  | .matrixCommandComplete _ _ => 0
  | .copyCommandStart _ _ => 0
  | .copyCommandComplete _ _ => 0
  | .collectiveJoin _ _ => 0
  | .collectiveComplete _ => 0
  | .colltmoExpiry _ => 0
  | .tlbiAtHome _ _ => 0
  | .tlbiAck _ => 0
  | .sweeperStep _ => 0
  | .zeroingStep _ => 0
  | .freepush _ _ => 0
  | .coldpop _ => 0
  | .controlRegisterWrite _ _ => 0
  | .throttleStep _ _ => 0
  | .thermalTrip  => 0
  | .errorEvent _ _ => 0
  | .scrubComplete _ => 0
  | .podRequest _ _ => 0
  | .busyResend _ => 0
  | .podRequestTimeout _ => 0
  | .rmaWrite _ _ _ => 0
  | .kick _ _ _ => 0
  | .kickReread _ => 0
  | .ringOpen _ => 0
  | .ringClose _ => 0
  | .ctxCreate _ => 0
  | .ctxDestroy _ => 0
  | .keySet _ => 0
  | .map _ => 0
  | .unmap _ => 0
  | .launch _ => 0
  | .abort _ => 0
  | .copyIn _ => 0
  | .copyOut _ => 0
  | .query _ => 0
  | .reset _ => 0
  | .attest _ => 0
  | .debugHalt _ => 0
  | .debugResume _ => 0
  | .debugStop _ => 0
  | .debugGroup _ => 0
  | .debugRun _ => 0
  | .debugStep _ => 0
  | .bpset _ => 0
  | .bpclr _ => 0
  | .debugRead _ => 0
  | .debugWrite _ => 0
  | .sample _ => 0
  | .samplePeriod _ => 0
  | .ctxSstate _ => 0
  | .lrecFree _ => 0
  | .commandProcessorFailover  => 0
  | .powerOn _ => 0
  | .functionReady _ => 0
  | .bootReport  => 0
  | .bootTimeout  => 0
  | .cycle  => 0
  | .illegalWord _ => 0
  | .fetchOutsideCodeRegion  => 0
  | .powerOff  => 0
  | .functionFailed _ _ => 0
  | .hostAcknowledgement _ => 0
  | .packageLeavesPod _ => 0
  | .controlReply _ _ _ => 0

/-- Major 0x01, ALU. -/
def decodeAlu (f : FmtR) : Decoded :=
  match f.fn.toNat with
  | 0 => check (true) (f.la == 0) (wf? (Instr.add f.d f.a f.b))
  | 1 => check (true) (f.la == 0) (wf? (Instr.sub f.d f.a f.b))
  | 2 => check (true) (f.la == 0) (wf? (Instr.mul f.d f.a f.b))
  | 3 => check (true) (f.la == 0) (wf? (Instr.mulh f.d f.a f.b))
  | 4 => check (true) (f.la == 0) (wf? (Instr.mulhn f.d f.a f.b))
  | 5 => check (true) (true) (wf? (Instr.div f.d f.a f.b f.la))
  | 6 => check (true) (true) (wf? (Instr.divn f.d f.a f.b f.la))
  | 7 => check (true) (true) (wf? (Instr.rem f.d f.a f.b f.la))
  | 8 => check (true) (true) (wf? (Instr.remn f.d f.a f.b f.la))
  | 16 => check (true) (f.la == 0) (wf? (Instr.and f.d f.a f.b))
  | 17 => check (true) (f.la == 0) (wf? (Instr.or f.d f.a f.b))
  | 18 => check (true) (f.la == 0) (wf? (Instr.xor f.d f.a f.b))
  | 19 => check (true) (f.la == 0) (wf? (Instr.andn f.d f.a f.b))
  | 24 => check (true) (f.la == 0) (wf? (Instr.shl f.d f.a f.b))
  | 25 => check (true) (f.la == 0) (wf? (Instr.shr f.d f.a f.b))
  | 26 => check (true) (f.la == 0) (wf? (Instr.sra f.d f.a f.b))
  | 32 => check (true) (f.la == 0) (wf? (Instr.min f.d f.a f.b))
  | 33 => check (true) (f.la == 0) (wf? (Instr.max f.d f.a f.b))
  | 34 => check (true) (f.la == 0) (wf? (Instr.minn f.d f.a f.b))
  | 35 => check (true) (f.la == 0) (wf? (Instr.maxn f.d f.a f.b))
  | 40 => check (f.b == 0) (f.la == 0) (wf? (Instr.clz f.d f.a))
  | 41 => check (f.b == 0) (f.la == 0) (wf? (Instr.popc f.d f.a))
  | 48 => check (true) (f.la == 0) (wf? (Instr.bfx f.d f.a f.b))
  | 49 => check (true) (f.la == 0) (wf? (Instr.bfxn f.d f.a f.b))
  | 50 => check (true) (f.la == 0) (wf? (Instr.bfi f.d f.a f.b))
  | 56 => check ((f.la.extractLsb' 3 1) == 0) (true) (wf? (Instr.sel f.d f.a f.b (f.la.extractLsb' 0 3)))
  | 64 | 65 | 66 | 67 | 68 | 69 | 70 | 71 => check ((f.d.extractLsb' 0 2) == 0) (f.la == 0) (do let cc ← Cond.of? (f.fn.extractLsb' 0 3); wf? (Instr.cmp (f.d.extractLsb' 2 3) f.a f.b cc))
  | _ => .illegal 2

/-- Major 0x02, ADDI. -/
def decodeAddi (f : FmtI) : Decoded :=
  check (true) (true) (wf? (Instr.addi f.d f.a f.imm))

/-- Major 0x03, ANDI. -/
def decodeAndi (f : FmtI) : Decoded :=
  check (true) (true) (wf? (Instr.andi f.d f.a f.imm))

/-- Major 0x04, ORI. -/
def decodeOri (f : FmtI) : Decoded :=
  check (true) (true) (wf? (Instr.ori f.d f.a f.imm))

/-- Major 0x05, XORI. -/
def decodeXori (f : FmtI) : Decoded :=
  check (true) (true) (wf? (Instr.xori f.d f.a f.imm))

/-- Major 0x06, SHI. -/
def decodeShi (f : FmtI) : Decoded :=
  match (f.imm.extractLsb' 6 2).toNat with
  | 0 => check ((f.imm.extractLsb' 8 8) == 0) (true) (wf? (Instr.shli f.d f.a (f.imm.extractLsb' 0 6)))
  | 1 => check ((f.imm.extractLsb' 8 8) == 0) (true) (wf? (Instr.shri f.d f.a (f.imm.extractLsb' 0 6)))
  | 2 => check ((f.imm.extractLsb' 8 8) == 0) (true) (wf? (Instr.srai f.d f.a (f.imm.extractLsb' 0 6)))
  | _ => check (f.imm.extractLsb' 8 8 == 0) true none

/-- Major 0x07, LIM. -/
def decodeLim (f : FmtI) : Decoded :=
  check ((f.a.extractLsb' 2 3) == 0) (true) (wf? (Instr.lim f.d (f.a.extractLsb' 0 2) f.imm))

/-- Major 0x08, CMPI. -/
def decodeCmpi (f : FmtIC) : Decoded :=
  check (true) (true) (do let cc ← Cond.of? f.cc; wf? (Instr.cmpi f.pd cc f.a f.imm))

/-- Major 0x09, PADDI. -/
def decodePaddi (f : FmtI) : Decoded :=
  check (true) (true) (wf? (Instr.paddi f.d f.a f.imm))

/-- Major 0x0A, PTR. -/
def decodePtr (f : FmtR) : Decoded :=
  match f.fn.toNat with
  | 0 => check (true) (f.la == 0) (wf? (Instr.padd f.d f.a f.b))
  | 1 => check (true) (f.la == 0) (wf? (Instr.psub f.d f.a f.b))
  | 2 => check (true) (f.la == 0) (wf? (Instr.ptag f.d f.a f.b))
  | 3 => check (f.b == 0) (f.la == 0) (wf? (Instr.pget f.d f.a))
  | _ => .illegal 2

/-- Major 0x0B, FPU. -/
def decodeFpu (f : FmtR) : Decoded :=
  match f.fn.toNat with
  | 0 => check (true) (f.la == 0) (wf? (Instr.fadd f.d f.a f.b))
  | 1 => check (true) (f.la == 0) (wf? (Instr.fsub f.d f.a f.b))
  | 2 => check (true) (f.la == 0) (wf? (Instr.fmul f.d f.a f.b))
  | 3 => check (true) (true) (wf? (Instr.fdiv f.d f.a f.b f.la))
  | 4 => check (f.b == 0) (true) (wf? (Instr.fsqrt f.d f.a f.la))
  | 5 => check (true) (f.la == 0) (wf? (Instr.fmin f.d f.a f.b))
  | 6 => check (true) (f.la == 0) (wf? (Instr.fmax f.d f.a f.b))
  | 8 | 9 | 10 | 11 | 12 | 13 => check (true) (f.la == 0) (do let cc ← FCond.of? (f.fn.extractLsb' 0 3); wf? (Instr.fcmp f.d f.a f.b cc))
  | 16 => check (f.b == 0) (f.la == 0) (wf? (Instr.fcvtF2i f.d f.a))
  | 17 => check (f.b == 0) (f.la == 0) (wf? (Instr.fcvtF2n f.d f.a))
  | 18 => check (f.b == 0) (f.la == 0) (wf? (Instr.fcvtI2f f.d f.a))
  | 19 => check (f.b == 0) (f.la == 0) (wf? (Instr.fcvtN2f f.d f.a))
  | 20 => check (f.b == 0) (f.la == 0) (wf? (Instr.fclass f.d f.a))
  | _ => .illegal 2

/-- Major 0x0C, FMA. -/
def decodeFma (f : FmtRC) : Decoded :=
  match f.fn.toNat with
  | 0 => check (true) (true) (wf? (Instr.fma f.d f.a f.b f.c))
  | 1 => check (true) (true) (wf? (Instr.fms f.d f.a f.b f.c))
  | 2 => check (true) (true) (wf? (Instr.fnma f.d f.a f.b f.c))
  | _ => .illegal 2

/-- Major 0x0D, BR. -/
def decodeBr (f : FmtB) : Decoded :=
  if f.s == 1 then check (true) (true) (wf? (Instr.brAny f.p f.disp))
  else check (true) (true) (wf? (Instr.brNone f.p f.disp))

/-- Major 0x0E, BCC. -/
def decodeBcc (f : FmtBC) : Decoded :=
  check (true) (true) (do let cc ← Cond.of? f.cc; wf? (Instr.bcc f.a f.b cc f.disp))

/-- Major 0x0F, B. -/
def decodeB (f : FmtJ) : Decoded :=
  check (true) (true) (wf? (Instr.bra f.disp))

/-- Major 0x10, CALL. -/
def decodeCall (f : FmtJ) : Decoded :=
  check (true) (true) (wf? (Instr.call f.disp))

/-- Major 0x11, JREG. -/
def decodeJreg (f : FmtR) : Decoded :=
  match f.fn.toNat with
  | 0 => check (f.d == 0 && f.b == 0) (f.la == 0) (wf? (Instr.jr f.a))
  | 1 => check (f.d == 0 && f.b == 0) (f.la == 0) (wf? (Instr.callr f.a))
  | 2 => check (f.d == 0 && f.a == 0 && f.b == 0) (f.la == 0) (wf? Instr.ret)
  | _ => .illegal 2

/-- Major 0x12, LOOP. -/
def decodeLoop (f : FmtL) : Decoded :=
  check (true) (true) (wf? (Instr.loop f.a f.disp))

/-- Major 0x13, REPF. -/
def decodeRepf (f : FmtF) : Decoded :=
  check (f.zero == 0) (true) (wf? (Instr.repf f.len f.cnt f.fm f.step))

/-- Major 0x14, LD. -/
def decodeLd (f : FmtM) : Decoded :=
  check (true) (true) (wf? (Instr.ld f.d f.a f.la (f.x == 1) (Size.of f.sz) f.off))

/-- Major 0x15, LDN. -/
def decodeLdn (f : FmtM) : Decoded :=
  check (true) (true) (wf? (Instr.ldn f.d f.a f.la (f.x == 1) (Size.of f.sz) f.off))

/-- Major 0x16, ST. -/
def decodeSt (f : FmtM) : Decoded :=
  check (true) (true) (wf? (Instr.st f.d f.a f.la (f.x == 1) (Size.of f.sz) f.off))

/-- Major 0x17, LDX. -/
def decodeLdx (f : FmtMX) : Decoded :=
  check (f.m == 0) (true) (wf? (Instr.ldx f.d f.a f.b f.la (f.x == 1) (Size.of f.sz) (f.z == 1)))

/-- Major 0x18, STX. -/
def decodeStx (f : FmtMX) : Decoded :=
  check (f.m == 0 && f.z == 0) (true) (wf? (Instr.stx f.d f.a f.b f.la (f.x == 1) (Size.of f.sz)))

/-- Major 0x19, FE. -/
def decodeFe (f : FmtR) : Decoded :=
  match f.fn.toNat with
  | 0 => check (f.b == 0) (true) (wf? (Instr.ldf f.d f.a f.la))
  | 1 => check (f.b == 0) (true) (wf? (Instr.ldff f.d f.a f.la))
  | 2 => check (f.b == 0) (true) (wf? (Instr.ste f.d f.a f.la))
  | 3 => check (f.b == 0) (true) (wf? (Instr.stef f.d f.a f.la))
  | 4 => check (f.d == 0 && f.b == 0) (true) (wf? (Instr.feclr f.a f.la))
  | 5 => check (f.b == 0) (true) (wf? (Instr.feget f.d f.a f.la))
  | _ => .illegal 2

/-- Major 0x1A, AMO. -/
def decodeAmo (f : FmtR) : Decoded :=
  match (f.fn.extractLsb' 0 5).toNat with
  | 0 => check (true) (true) (do let sz ← ASize.of? (f.fn.extractLsb' 5 2); wf? (Instr.amoAdd f.d f.a f.b f.la sz))
  | 1 => check (true) (true) (do let sz ← ASize.of? (f.fn.extractLsb' 5 2); wf? (Instr.amoAnd f.d f.a f.b f.la sz))
  | 2 => check (true) (true) (do let sz ← ASize.of? (f.fn.extractLsb' 5 2); wf? (Instr.amoOr f.d f.a f.b f.la sz))
  | 3 => check (true) (true) (do let sz ← ASize.of? (f.fn.extractLsb' 5 2); wf? (Instr.amoXor f.d f.a f.b f.la sz))
  | 4 => check (true) (true) (do let sz ← ASize.of? (f.fn.extractLsb' 5 2); wf? (Instr.amoMin f.d f.a f.b f.la sz))
  | 5 => check (true) (true) (do let sz ← ASize.of? (f.fn.extractLsb' 5 2); wf? (Instr.amoMax f.d f.a f.b f.la sz))
  | 6 => check (true) (true) (do let sz ← ASize.of? (f.fn.extractLsb' 5 2); wf? (Instr.amoMinn f.d f.a f.b f.la sz))
  | 7 => check (true) (true) (do let sz ← ASize.of? (f.fn.extractLsb' 5 2); wf? (Instr.amoMaxn f.d f.a f.b f.la sz))
  | 8 => check (true) (true) (do let sz ← ASize.of? (f.fn.extractLsb' 5 2); wf? (Instr.amoSwap f.d f.a f.b f.la sz))
  | 9 => check (true) (true) (wOnly? (f.fn.extractLsb' 5 2) (Instr.amoFadd f.d f.a f.b f.la))
  | _ => .illegal 2

/-- Major 0x1B, CAS. -/
def decodeCas (f : FmtRC) : Decoded :=
  match f.fn.toNat with
  | 0 | 1 => check (true) (true) (wf? (Instr.cas f.d f.a f.b f.c (ASize.ofBit (f.fn.extractLsb' 0 1))))
  | _ => .illegal 2

/-- Major 0x1C, RSV. -/
def decodeRsv (f : FmtR) : Decoded :=
  match (f.fn.extractLsb' 0 5).toNat with
  | 0 => check (f.b == 0) (true) (do let sz ← ASize.of? (f.fn.extractLsb' 5 2); wf? (Instr.ldr f.d f.a f.la sz))
  | 1 => check (true) (true) (do let sz ← ASize.of? (f.fn.extractLsb' 5 2); wf? (Instr.stc f.d f.a f.b f.la sz))
  | 2 => check (f.b == 0) (true) (do let sz ← ASize.of? (f.fn.extractLsb' 5 2); wf? (Instr.wrs f.d f.a f.la sz))
  | _ => .illegal 2

/-- Major 0x1D, RUPD. -/
def decodeRupd (f : FmtR) : Decoded :=
  match (f.fn.extractLsb' 0 5).toNat with
  | 0 => check (f.d == 0) (f.la == 0) (do let sz ← ASize.of? (f.fn.extractLsb' 5 2); wf? (Instr.rupdAdd f.a f.b sz))
  | 1 => check (f.d == 0) (f.la == 0) (do let sz ← ASize.of? (f.fn.extractLsb' 5 2); wf? (Instr.rupdAnd f.a f.b sz))
  | 2 => check (f.d == 0) (f.la == 0) (do let sz ← ASize.of? (f.fn.extractLsb' 5 2); wf? (Instr.rupdOr f.a f.b sz))
  | 3 => check (f.d == 0) (f.la == 0) (do let sz ← ASize.of? (f.fn.extractLsb' 5 2); wf? (Instr.rupdXor f.a f.b sz))
  | 4 => check (f.d == 0) (f.la == 0) (do let sz ← ASize.of? (f.fn.extractLsb' 5 2); wf? (Instr.rupdMin f.a f.b sz))
  | 5 => check (f.d == 0) (f.la == 0) (do let sz ← ASize.of? (f.fn.extractLsb' 5 2); wf? (Instr.rupdMax f.a f.b sz))
  | 6 => check (f.d == 0) (f.la == 0) (do let sz ← ASize.of? (f.fn.extractLsb' 5 2); wf? (Instr.rupdMinn f.a f.b sz))
  | 7 => check (f.d == 0) (f.la == 0) (do let sz ← ASize.of? (f.fn.extractLsb' 5 2); wf? (Instr.rupdMaxn f.a f.b sz))
  | 9 => check (f.d == 0) (f.la == 0) (wOnly? (f.fn.extractLsb' 5 2) (Instr.rupdFadd f.a f.b))
  | _ => .illegal 2

/-- Major 0x1E, FENCE. -/
def decodeFence (f : FmtFC) : Decoded :=
  match f.kind.toNat with
  | 0 => check (f.zero == 0) (true) (do let s ← Scope.of? f.scope; wf? (Instr.fence s))
  | 1 => check (f.zero == 0) (true) (do let s ← Scope.of? f.scope; wf? (Instr.fenceAcq s))
  | 2 => check (f.zero == 0) (true) (do let s ← Scope.of? f.scope; wf? (Instr.fenceRel s))
  | 3 => check (f.zero == 0) (true) (do let s ← Scope.of? f.scope; wf? (Instr.fenceEng s))
  | _ => check (f.zero == 0) true none

/-- Major 0x1F, BAR. -/
def decodeBar (f : FmtR) : Decoded :=
  match f.fn.toNat with
  | 0 => check (f.d == 0 && f.b == 0) (f.la == 0) (wf? (Instr.bara f.a))
  | 1 => check (f.d == 0 && f.b == 0) (f.la == 0) (wf? (Instr.barw f.a))
  | 2 => check (f.d == 0 && f.b == 0) (f.la == 0) (wf? (Instr.barg f.a))
  | 3 => check (f.b == 0) (f.la == 0) (wf? (Instr.barq f.d f.a))
  | 4 => check (f.d == 0) (f.la == 0) (wf? (Instr.barset f.a f.b))
  | _ => .illegal 2

/-- Major 0x20, TX. -/
def decodeTx (f : FmtT) : Decoded :=
  match f.fn.toNat with
  | 0 => check (true) (true) (wf? (Instr.txb f.disp))
  | 1 => check (true) (true) (wf? (Instr.txelse f.disp))
  | 2 => check (f.disp == 0) (true) (wf? Instr.txe)
  | 3 => check (f.disp == 0) (true) (wf? Instr.txr)
  | 4 => check ((f.disp.extractLsb' 8 15) == 0) (true) (wf? (Instr.txabort (f.disp.extractLsb' 0 8)))
  | 5 => check ((f.disp.extractLsb' 5 18) == 0) (true) (wf? (Instr.txst (f.disp.extractLsb' 0 5)))
  | _ => .illegal 2

/-- Major 0x21, VLD. -/
def decodeVld (f : FmtMV) : Decoded :=
  if f.c == 0 then check (true) (true) (wf? (Instr.vld f.d f.a f.la (f.x == 1) f.m f.off))
  else check (true) (true) (wf? (Instr.vldC f.d f.a f.la (f.x == 1) f.m f.off))

/-- Major 0x22, VST. -/
def decodeVst (f : FmtMV) : Decoded :=
  check (f.c == 0) (true) (wf? (Instr.vst f.d f.a f.la (f.x == 1) f.m f.off))

/-- Major 0x23, VLDX. -/
def decodeVldx (f : FmtMX) : Decoded :=
  check (true) (true) (wf? (Instr.vldx f.d f.a f.b f.la (f.x == 1) (Size.of f.sz) f.m (f.z == 1)))

/-- Major 0x24, VSTX. -/
def decodeVstx (f : FmtMX) : Decoded :=
  check (f.z == 0) (true) (wf? (Instr.vstx f.d f.a f.b f.la (f.x == 1) (Size.of f.sz) f.m))

/-- Major 0x25, VLDS. -/
def decodeVlds (f : FmtR) : Decoded :=
  match (f.fn.extractLsb' 0 2).toNat with
  | 0 => check ((f.fn.extractLsb' 6 1) == 0) (true) (wf? (Instr.vlds f.d f.a f.b f.la (f.fn.extractLsb' 3 3) ((f.fn.extractLsb' 2 1) == 1)))
  | 1 => check ((f.fn.extractLsb' 6 1) == 0) (true) (wf? (Instr.vsts f.d f.a f.b f.la (f.fn.extractLsb' 3 3) ((f.fn.extractLsb' 2 1) == 1)))
  | _ => .illegal 2

/-- Major 0x26, VINT. -/
def decodeVint (f : FmtV) : Decoded :=
  match f.fn.toNat with
  | 0 => check (true) (f.la == 0) (wf? (Instr.vadd f.d f.a f.b f.m))
  | 1 => check (true) (f.la == 0) (wf? (Instr.vsub f.d f.a f.b f.m))
  | 2 => check (true) (f.la == 0) (wf? (Instr.vmul f.d f.a f.b f.m))
  | 3 => check (true) (f.la == 0) (wf? (Instr.vmulh f.d f.a f.b f.m))
  | 4 => check (true) (f.la == 0) (wf? (Instr.vand f.d f.a f.b f.m))
  | 5 => check (true) (f.la == 0) (wf? (Instr.vor f.d f.a f.b f.m))
  | 6 => check (true) (f.la == 0) (wf? (Instr.vxor f.d f.a f.b f.m))
  | 7 => check (true) (f.la == 0) (wf? (Instr.vshl f.d f.a f.b f.m))
  | 8 => check (true) (f.la == 0) (wf? (Instr.vshr f.d f.a f.b f.m))
  | 9 => check (true) (f.la == 0) (wf? (Instr.vsra f.d f.a f.b f.m))
  | 10 => check (true) (f.la == 0) (wf? (Instr.vmin f.d f.a f.b f.m))
  | 11 => check (true) (f.la == 0) (wf? (Instr.vmax f.d f.a f.b f.m))
  | 12 => check (true) (f.la == 0) (wf? (Instr.vminn f.d f.a f.b f.m))
  | 13 => check (true) (f.la == 0) (wf? (Instr.vmaxn f.d f.a f.b f.m))
  | 14 => check (f.b == 0) (f.la == 0) (wf? (Instr.vabs f.d f.a f.m))
  | 15 => check (f.b == 0) (f.la == 0) (wf? (Instr.vneg f.d f.a f.m))
  | _ => .illegal 2

/-- Major 0x27, VINT2. -/
def decodeVint2 (f : FmtV) : Decoded :=
  match f.fn.toNat with
  | 0 | 1 | 2 | 3 | 4 | 5 | 6 | 7 => check (true) (f.la == 0) (do let d ← pred? f.d; let cc ← Cond.of? (f.fn.extractLsb' 0 3); wf? (Instr.vcmp d f.a f.b f.m cc))
  | 8 => check (true) (f.la == 0) (wf? (Instr.vsel f.d f.a f.b f.m))
  | 9 => check (f.b == 0) (f.la == 0) (wf? (Instr.vclz f.d f.a f.m))
  | 10 => check (f.b == 0) (f.la == 0) (wf? (Instr.vpopc f.d f.a f.m))
  | _ => .illegal 2

/-- Major 0x28, VFP. -/
def decodeVfp (f : FmtV) : Decoded :=
  match f.fn.toNat with
  | 0 => check (true) (f.la == 0) (wf? (Instr.vfadd f.d f.a f.b f.m))
  | 1 => check (true) (f.la == 0) (wf? (Instr.vfsub f.d f.a f.b f.m))
  | 2 => check (true) (f.la == 0) (wf? (Instr.vfmul f.d f.a f.b f.m))
  | 3 => check (true) (f.la == 0) (wf? (Instr.vfmin f.d f.a f.b f.m))
  | 4 => check (true) (f.la == 0) (wf? (Instr.vfmax f.d f.a f.b f.m))
  | 5 => check (f.b == 0) (f.la == 0) (wf? (Instr.vfabs f.d f.a f.m))
  | 6 => check (f.b == 0) (f.la == 0) (wf? (Instr.vfneg f.d f.a f.m))
  | 8 | 9 | 10 | 11 | 12 | 13 => check (true) (f.la == 0) (do let d ← pred? f.d; let cc ← FCond.of? (f.fn.extractLsb' 0 3); wf? (Instr.vfcmp d f.a f.b f.m cc))
  | _ => .illegal 2

/-- Major 0x29, VFMA. -/
def decodeVfma (f : FmtVC) : Decoded :=
  match f.fn.toNat with
  | 0 => check (true) (true) (wf? (Instr.vfma f.d f.a f.b f.c f.m))
  | 1 => check (true) (true) (wf? (Instr.vfms f.d f.a f.b f.c f.m))
  | 2 => check (true) (true) (wf? (Instr.vfnma f.d f.a f.b f.c f.m))
  | 4 => check (true) (true) (wf? (Instr.vma f.d f.a f.b f.c f.m))
  | _ => .illegal 2

/-- Major 0x2A, VFN. -/
def decodeVfn (f : FmtV) : Decoded :=
  match f.fn.toNat with
  | 0 => check (true) (true) (wf? (Instr.vfdiv f.d f.a f.b f.la f.m))
  | 1 => check (f.b == 0) (true) (wf? (Instr.vfsqrt f.d f.a f.la f.m))
  | 2 => check (f.b == 0) (true) (wf? (Instr.vfrcp f.d f.a f.la f.m))
  | 3 => check (f.b == 0) (true) (wf? (Instr.vfrsq f.d f.a f.la f.m))
  | 4 => check (f.b == 0) (true) (wf? (Instr.vfexp2 f.d f.a f.la f.m))
  | 5 => check (f.b == 0) (true) (wf? (Instr.vflog2 f.d f.a f.la f.m))
  | _ => .illegal 2

/-- Major 0x2B, VCVT. -/
def decodeVcvt (f : FmtV) : Decoded :=
  match f.fn.toNat with
  | 0 => check (true) (f.la == 0) (wf? (Instr.vcvtF2bf f.d f.a f.b f.m))
  | 1 => check ((f.b.extractLsb' 1 4) == 0) (f.la == 0) (wf? (Instr.vcvtBf2f f.d f.a ((f.b.extractLsb' 0 1) == 1) f.m))
  | 2 => check (true) (f.la == 0) (wf? (Instr.vcvtF2h f.d f.a f.b f.m))
  | 3 => check ((f.b.extractLsb' 1 4) == 0) (f.la == 0) (wf? (Instr.vcvtH2f f.d f.a ((f.b.extractLsb' 0 1) == 1) f.m))
  | 4 => check ((f.b.extractLsb' 2 3) == 0) (f.la == 0) (wf? (Instr.vcvtF2e4 f.d f.a (f.b.extractLsb' 0 2) f.m))
  | 5 => check ((f.b.extractLsb' 2 3) == 0) (f.la == 0) (wf? (Instr.vcvtE42f f.d f.a (f.b.extractLsb' 0 2) f.m))
  | 6 => check ((f.b.extractLsb' 2 3) == 0) (f.la == 0) (wf? (Instr.vcvtF2e5 f.d f.a (f.b.extractLsb' 0 2) f.m))
  | 7 => check ((f.b.extractLsb' 2 3) == 0) (f.la == 0) (wf? (Instr.vcvtE52f f.d f.a (f.b.extractLsb' 0 2) f.m))
  | 8 => check (f.b == 0) (f.la == 0) (wf? (Instr.vcvtF2i f.d f.a f.m))
  | 9 => check (f.b == 0) (f.la == 0) (wf? (Instr.vcvtI2f f.d f.a f.m))
  | 10 => check (f.b == 0) (f.la == 0) (wf? (Instr.vcvtN2f f.d f.a f.m))
  | 11 => check (f.b == 0) (f.la == 0) (wf? (Instr.vcvtF2n f.d f.a f.m))
  | 12 => check ((f.b.extractLsb' 2 3) == 0) (f.la == 0) (wf? (Instr.vcvtI2b f.d f.a (f.b.extractLsb' 0 2) f.m))
  | 13 => check ((f.b.extractLsb' 2 3) == 0) (f.la == 0) (wf? (Instr.vcvtB2i f.d f.a (f.b.extractLsb' 0 2) f.m))
  | _ => .illegal 2

/-- Major 0x2C, VLANE. -/
def decodeVlane (f : FmtV) : Decoded :=
  match f.fn.toNat with
  | 0 => check (f.b == 0) (f.la == 0) (wf? (Instr.vbcast f.d f.a f.m))
  | 1 => check (f.m == 0) (f.la == 0) (wf? (Instr.vext f.d f.a f.b))
  | 2 => check (f.m == 0) (f.la == 0) (wf? (Instr.vins f.d f.a f.b))
  | 3 => check (true) (f.la == 0) (wf? (Instr.vperm f.d f.a f.b f.m))
  | 4 => check (f.a == 0 && f.b == 0) (f.la == 0) (wf? (Instr.viota f.d f.m))
  | 5 => check (true) (f.la == 0) (do let op ← RedOp.of? f.b; wf? (Instr.vred f.d f.a op f.m))
  | 6 => check (true) (f.la == 0) (do let op ← RedOp.of? f.b; wf? (Instr.vscan f.d f.a op f.m))
  | 7 => check (f.b == 0) (f.la == 0) (wf? (Instr.vcomp f.d f.a f.m))
  | 8 => check (true) (f.la == 0) (wf? (Instr.vslide f.d f.a f.b f.m))
  | _ => .illegal 2

/-- Major 0x2D, PRED. -/
def decodePred (f : FmtV) : Decoded :=
  match f.fn.toNat with
  | 0 => check (f.m == 0) (f.la == 0) (do let d ← pred? f.d; let a ← pred? f.a; let b ← pred? f.b; wf? (Instr.pand d a b))
  | 1 => check (f.m == 0) (f.la == 0) (do let d ← pred? f.d; let a ← pred? f.a; let b ← pred? f.b; wf? (Instr.por d a b))
  | 2 => check (f.m == 0) (f.la == 0) (do let d ← pred? f.d; let a ← pred? f.a; let b ← pred? f.b; wf? (Instr.pxor d a b))
  | 3 => check (f.m == 0) (f.la == 0) (do let d ← pred? f.d; let a ← pred? f.a; let b ← pred? f.b; wf? (Instr.pandn d a b))
  | 4 => check (f.b == 0 && f.m == 0) (f.la == 0) (do let d ← pred? f.d; let a ← pred? f.a; wf? (Instr.pnot d a))
  | 5 => check (f.b == 0 && f.m == 0) (f.la == 0) (do let a ← pred? f.a; wf? (Instr.pcnt f.d a))
  | 6 => check (f.b == 0 && f.m == 0) (f.la == 0) (do let a ← pred? f.a; wf? (Instr.pfirst f.d a))
  | 7 => check (f.b == 0 && f.m == 0) (f.la == 0) (do let d ← pred? f.d; wf? (Instr.pset d f.a))
  | 8 => check (f.b == 0 && f.m == 0) (f.la == 0) (do let a ← pred? f.a; wf? (Instr.pgets f.d a))
  | _ => .illegal 2

/-- Major 0x2E, MMA. -/
def decodeMma (f : FmtX) : Decoded :=
  if f.fl.extractLsb' 0 1 == 0 then check (f.vi == 0 && (f.fl.extractLsb' 3 1) == 0) (true) (do let ty ← MTy.of? f.ty; wf? (Instr.mma f.md f.ga f.gb ty ((f.fl.extractLsb' 2 1) == 1) ((f.fl.extractLsb' 1 1) == 1)))
  else check ((f.fl.extractLsb' 3 1) == 0) (true) (do let ty ← MTy.of? f.ty; wf? (Instr.mmaIx f.md f.ga f.gb f.vi ty ((f.fl.extractLsb' 2 1) == 1) ((f.fl.extractLsb' 1 1) == 1)))

/-- Major 0x2F, MSP. -/
def decodeMsp (f : FmtX) : Decoded :=
  check ((f.fl.extractLsb' 3 1) == 0 && (f.fl.extractLsb' 0 1) == 0) (true) (do let ty ← MTy.of? f.ty; wf? (Instr.msp f.md f.ga f.gb f.vi ty ((f.fl.extractLsb' 2 1) == 1) ((f.fl.extractLsb' 1 1) == 1)))

/-- Major 0x30, MACC. -/
def decodeMacc (f : FmtR) : Decoded :=
  match f.fn.toNat with
  | 0 => check (f.a == 0 && f.b == 0) (f.la == 0) (do let d ← pred? f.d; wf? (Instr.mzero d))
  | 1 => check (f.b == 0) (f.la == 0) (do let d ← pred? f.d; wf? (Instr.mlda d f.a))
  | 2 => check (f.b == 0) (f.la == 0) (do let d ← pred? f.d; wf? (Instr.msta d f.a))
  | 3 => check (f.b == 0) (f.la == 0) (do let d ← pred? f.d; let a ← pred? f.a; wf? (Instr.mmov d a))
  | 4 => check (f.a == 0 && f.b == 0) (true) (wf? (Instr.mstat f.d f.la))
  | 5 => check (f.a == 0 && f.b == 0) (true) (wf? (Instr.mwait f.d f.la))
  | _ => .illegal 2

/-- Major 0x31, CPY. -/
def decodeCpy (f : FmtR) : Decoded :=
  match f.fn.toNat with
  | 0 => check (f.d == 0 && f.b == 0) (f.la == 0) (wf? (Instr.cpy f.a))
  | 1 => check (f.d == 0) (f.la == 0) (wf? (Instr.cpyx f.a f.b))
  | _ => .illegal 2

/-- Major 0x32, COLL. -/
def decodeColl (f : FmtR) : Decoded :=
  match f.fn.toNat with
  | 0 => check (f.d == 0 && f.b == 0) (f.la == 0) (wf? (Instr.coll f.a))
  | _ => .illegal 2

/-- Major 0x33, QOP. -/
def decodeQop (f : FmtQ) : Decoded :=
  match f.fn.toNat with
  | 0 => check (f.zero == 0) (f.la == 0) (wf? (Instr.qpush f.g f.qn))
  | 1 => check (f.zero == 0) (f.la == 0) (wf? (Instr.qpushv f.g f.qn))
  | 2 => check (f.zero == 0) (true) (wf? (Instr.qpop f.g f.qn f.la))
  | 3 => check (f.zero == 0) (true) (wf? (Instr.qpopv f.g f.qn f.la))
  | 4 => check (f.zero == 0) (f.la == 0) (wf? (Instr.qbind f.g f.qn))
  | 5 => check (f.zero == 0) (f.la == 0) (wf? (Instr.qstat f.g f.qn))
  | _ => .illegal 2

/-- Major 0x34, WL. -/
def decodeWl (f : FmtR) : Decoded :=
  match f.fn.toNat with
  | 0 => check (true) (f.la == 0) (wf? (Instr.wlpsh f.d f.a f.b))
  | 1 => check (f.b == 0) (true) (wf? (Instr.wlpop f.d f.a f.la))
  | 2 => check (f.d == 0 && f.b == 0) (f.la == 0) (wf? (Instr.wlack f.a))
  | 3 => check (f.d == 0 && f.b == 0) (f.la == 0) (wf? (Instr.wlret f.a))
  | 4 => check (true) (f.la == 0) (wf? (Instr.wlsta f.d f.a f.b))
  | 5 => check (f.b == 0) (f.la == 0) (wf? (Instr.wlcfg f.d f.a))
  | _ => .illegal 2

/-- Major 0x35, TASK. -/
def decodeTask (f : FmtR) : Decoded :=
  match f.fn.toNat with
  | 0 => check (f.d == 0 && f.a == 0 && f.b == 0) (f.la == 0) (wf? Instr.endTask)
  | 1 => check (f.d == 0 && f.a == 0 && f.b == 0) (f.la == 0) (wf? Instr.yield)
  | 2 => check (f.d == 0 && f.a == 0 && f.b == 0) (f.la == 0) (wf? Instr.align)
  | 3 => check (f.d == 0 && f.a == 0 && f.b == 0) (f.la == 0) (wf? Instr.trig)
  | 4 => check (f.d == 0 && f.b == 0) (f.la == 0) (wf? (Instr.migr f.a))
  | 5 => check (f.b == 0) (f.la == 0) (wf? (Instr.widx f.d f.a))
  | 6 => check (f.d == 0 && f.a == 0 && f.b == 0) (f.la == 0) (wf? Instr.ueret)
  | _ => .illegal 2

/-- Major 0x36, CSR. -/
def decodeCsr (f : FmtS) : Decoded :=
  match f.fn.toNat with
  | 0 => check (f.a == 0) (true) (wf? (Instr.csrr f.d f.csr))
  | 1 => check (true) (true) (wf? (Instr.csrw f.d f.a f.csr))
  | 2 => check (true) (true) (wf? (Instr.csrs f.d f.a f.csr))
  | 3 => check (true) (true) (wf? (Instr.csrc f.d f.a f.csr))
  | _ => .illegal 2

/-- Major 0x37, PRIV. -/
def decodePriv (f : FmtR) : Decoded :=
  match f.fn.toNat with
  | 0 => check (f.d == 0 && f.a == 0 && f.b == 0) (f.la == 0) (wf? Instr.eret)
  | 1 => check (f.d == 0 && f.b == 0) (f.la == 0) (wf? (Instr.spill f.a))
  | 2 => check (f.d == 0 && f.b == 0) (f.la == 0) (wf? (Instr.fill f.a))
  | 3 => check (f.d == 0 && f.b == 0) (f.la == 0) (wf? (Instr.wake f.a))
  | 4 =>
    match f.d.toNat with
    | 0 => check (true) (f.la == 0) (wf? (Instr.tlbiRange f.a f.b))
    | 1 => check (f.b == 0) (f.la == 0) (wf? (Instr.tlbiAsid f.a))
    | 2 => check (f.a == 0 && f.b == 0) (f.la == 0) (wf? Instr.tlbiAll)
    | _ => check true (f.la == 0) none
  | 5 => check (f.d == 0 && f.a == 0 && f.b == 0) (f.la == 0) (wf? Instr.iflush)
  | 6 => check (f.d == 0 && f.a == 0 && f.b == 0) (f.la == 0) (wf? Instr.halt)
  | 7 => check (f.b == 0) (f.la == 0) (do let d ← pred? f.d; wf? (Instr.mspill d f.a))
  | 8 => check (f.b == 0) (f.la == 0) (do let d ← pred? f.d; wf? (Instr.mfill d f.a))
  | _ => .illegal 2

/-- Major 0x38, TRAPI. -/
def decodeTrapi (f : FmtI) : Decoded :=
  if f.imm.extractLsb' 15 1 == 0 then check (f.d == 0 && f.a == 0) (true) (wf? (Instr.trap (f.imm.extractLsb' 0 15)))
  else check (f.d == 0 && f.a == 0) (true) (wf? (Instr.brk (f.imm.extractLsb' 0 15)))

/-- Decode a word: checks 1 to 5 of R244, in the order given there. The checks of level and of slot state come with the
meaning of the instruction. -/
def decode (w : W32) : Decoded :=
  match (w.extractLsb' 26 6).toNat with
  | 0x01 => decodeAlu (FmtR.unpack w)
  | 0x02 => decodeAddi (FmtI.unpack w)
  | 0x03 => decodeAndi (FmtI.unpack w)
  | 0x04 => decodeOri (FmtI.unpack w)
  | 0x05 => decodeXori (FmtI.unpack w)
  | 0x06 => decodeShi (FmtI.unpack w)
  | 0x07 => decodeLim (FmtI.unpack w)
  | 0x08 => decodeCmpi (FmtIC.unpack w)
  | 0x09 => decodePaddi (FmtI.unpack w)
  | 0x0A => decodePtr (FmtR.unpack w)
  | 0x0B => decodeFpu (FmtR.unpack w)
  | 0x0C => decodeFma (FmtRC.unpack w)
  | 0x0D => decodeBr (FmtB.unpack w)
  | 0x0E => decodeBcc (FmtBC.unpack w)
  | 0x0F => decodeB (FmtJ.unpack w)
  | 0x10 => decodeCall (FmtJ.unpack w)
  | 0x11 => decodeJreg (FmtR.unpack w)
  | 0x12 => decodeLoop (FmtL.unpack w)
  | 0x13 => decodeRepf (FmtF.unpack w)
  | 0x14 => decodeLd (FmtM.unpack w)
  | 0x15 => decodeLdn (FmtM.unpack w)
  | 0x16 => decodeSt (FmtM.unpack w)
  | 0x17 => decodeLdx (FmtMX.unpack w)
  | 0x18 => decodeStx (FmtMX.unpack w)
  | 0x19 => decodeFe (FmtR.unpack w)
  | 0x1A => decodeAmo (FmtR.unpack w)
  | 0x1B => decodeCas (FmtRC.unpack w)
  | 0x1C => decodeRsv (FmtR.unpack w)
  | 0x1D => decodeRupd (FmtR.unpack w)
  | 0x1E => decodeFence (FmtFC.unpack w)
  | 0x1F => decodeBar (FmtR.unpack w)
  | 0x20 => decodeTx (FmtT.unpack w)
  | 0x21 => decodeVld (FmtMV.unpack w)
  | 0x22 => decodeVst (FmtMV.unpack w)
  | 0x23 => decodeVldx (FmtMX.unpack w)
  | 0x24 => decodeVstx (FmtMX.unpack w)
  | 0x25 => decodeVlds (FmtR.unpack w)
  | 0x26 => decodeVint (FmtV.unpack w)
  | 0x27 => decodeVint2 (FmtV.unpack w)
  | 0x28 => decodeVfp (FmtV.unpack w)
  | 0x29 => decodeVfma (FmtVC.unpack w)
  | 0x2A => decodeVfn (FmtV.unpack w)
  | 0x2B => decodeVcvt (FmtV.unpack w)
  | 0x2C => decodeVlane (FmtV.unpack w)
  | 0x2D => decodePred (FmtV.unpack w)
  | 0x2E => decodeMma (FmtX.unpack w)
  | 0x2F => decodeMsp (FmtX.unpack w)
  | 0x30 => decodeMacc (FmtR.unpack w)
  | 0x31 => decodeCpy (FmtR.unpack w)
  | 0x32 => decodeColl (FmtR.unpack w)
  | 0x33 => decodeQop (FmtQ.unpack w)
  | 0x34 => decodeWl (FmtR.unpack w)
  | 0x35 => decodeTask (FmtR.unpack w)
  | 0x36 => decodeCsr (FmtS.unpack w)
  | 0x37 => decodePriv (FmtR.unpack w)
  | 0x38 => decodeTrapi (FmtI.unpack w)
  | _ => .illegal 1

/-- The 32-bit little-endian word of four bytes (R243, R3). -/
def wordOfBytes (b0 b1 b2 b3 : Byte) : W32 := (b3 ++ b2 ++ b1 ++ b0).setWidth 32

/-- The four bytes of a word, lowest address first (R3). -/
def bytesOfWord (w : W32) : List Byte :=
  [w.extractLsb' 0 8, w.extractLsb' 8 8, w.extractLsb' 16 8, w.extractLsb' 24 8]

/-- Decode the first instruction of a list of bytes, with the bytes that follow it; `none` when fewer than four are left. -/
def decodeBytes : List Byte → Option (Decoded × List Byte)
  | b0 :: b1 :: b2 :: b3 :: rest => some (decode (wordOfBytes b0 b1 b2 b3), rest)
  | _ => none

/-- The instruction the decoder reads from a word whose bits are numbered as the opcode table numbers them. -/
def decodeTableWord (_nbits w : Nat) : Option Instr :=
  match decodeBytes (bytesOfWord (BitVec.ofNat 32 w)) with
  | some (.ok i, _) => some i
  | _ => none


end Sys2Proof
end

