-- ==== Sys2Proof/Machine/Aes.lean ====
section
/-! DEFINITION. AES-256-XTS over a 64-byte line, the encryption of HBM data (spec/04_memory_space.md R108). The tables are those of the
algorithm's own standard, which the spec names. -/

namespace Sys2Proof.Machine

/-- The AES substitution, entries 0 to 63. -/
def sbox0 : List Byte :=
  [0x63, 0x7C, 0x77, 0x7B, 0xF2, 0x6B, 0x6F, 0xC5, 0x30, 0x01, 0x67, 0x2B, 0xFE, 0xD7, 0xAB, 0x76,
   0xCA, 0x82, 0xC9, 0x7D, 0xFA, 0x59, 0x47, 0xF0, 0xAD, 0xD4, 0xA2, 0xAF, 0x9C, 0xA4, 0x72, 0xC0,
   0xB7, 0xFD, 0x93, 0x26, 0x36, 0x3F, 0xF7, 0xCC, 0x34, 0xA5, 0xE5, 0xF1, 0x71, 0xD8, 0x31, 0x15,
   0x04, 0xC7, 0x23, 0xC3, 0x18, 0x96, 0x05, 0x9A, 0x07, 0x12, 0x80, 0xE2, 0xEB, 0x27, 0xB2, 0x75]

/-- The AES substitution, entries 64 to 127. -/
def sbox1 : List Byte :=
  [0x09, 0x83, 0x2C, 0x1A, 0x1B, 0x6E, 0x5A, 0xA0, 0x52, 0x3B, 0xD6, 0xB3, 0x29, 0xE3, 0x2F, 0x84,
   0x53, 0xD1, 0x00, 0xED, 0x20, 0xFC, 0xB1, 0x5B, 0x6A, 0xCB, 0xBE, 0x39, 0x4A, 0x4C, 0x58, 0xCF,
   0xD0, 0xEF, 0xAA, 0xFB, 0x43, 0x4D, 0x33, 0x85, 0x45, 0xF9, 0x02, 0x7F, 0x50, 0x3C, 0x9F, 0xA8,
   0x51, 0xA3, 0x40, 0x8F, 0x92, 0x9D, 0x38, 0xF5, 0xBC, 0xB6, 0xDA, 0x21, 0x10, 0xFF, 0xF3, 0xD2]

/-- The AES substitution, entries 128 to 191. -/
def sbox2 : List Byte :=
  [0xCD, 0x0C, 0x13, 0xEC, 0x5F, 0x97, 0x44, 0x17, 0xC4, 0xA7, 0x7E, 0x3D, 0x64, 0x5D, 0x19, 0x73,
   0x60, 0x81, 0x4F, 0xDC, 0x22, 0x2A, 0x90, 0x88, 0x46, 0xEE, 0xB8, 0x14, 0xDE, 0x5E, 0x0B, 0xDB,
   0xE0, 0x32, 0x3A, 0x0A, 0x49, 0x06, 0x24, 0x5C, 0xC2, 0xD3, 0xAC, 0x62, 0x91, 0x95, 0xE4, 0x79,
   0xE7, 0xC8, 0x37, 0x6D, 0x8D, 0xD5, 0x4E, 0xA9, 0x6C, 0x56, 0xF4, 0xEA, 0x65, 0x7A, 0xAE, 0x08]

/-- The AES substitution, entries 192 to 255. -/
def sbox3 : List Byte :=
  [0xBA, 0x78, 0x25, 0x2E, 0x1C, 0xA6, 0xB4, 0xC6, 0xE8, 0xDD, 0x74, 0x1F, 0x4B, 0xBD, 0x8B, 0x8A,
   0x70, 0x3E, 0xB5, 0x66, 0x48, 0x03, 0xF6, 0x0E, 0x61, 0x35, 0x57, 0xB9, 0x86, 0xC1, 0x1D, 0x9E,
   0xE1, 0xF8, 0x98, 0x11, 0x69, 0xD9, 0x8E, 0x94, 0x9B, 0x1E, 0x87, 0xE9, 0xCE, 0x55, 0x28, 0xDF,
   0x8C, 0xA1, 0x89, 0x0D, 0xBF, 0xE6, 0x42, 0x68, 0x41, 0x99, 0x2D, 0x0F, 0xB0, 0x54, 0xBB, 0x16]

/-- The AES substitution. -/
def sbox : List Byte := sbox0 ++ sbox1 ++ sbox2 ++ sbox3

/-- The inverse AES substitution, entries 0 to 63. -/
def isbox0 : List Byte :=
  [0x52, 0x09, 0x6A, 0xD5, 0x30, 0x36, 0xA5, 0x38, 0xBF, 0x40, 0xA3, 0x9E, 0x81, 0xF3, 0xD7, 0xFB,
   0x7C, 0xE3, 0x39, 0x82, 0x9B, 0x2F, 0xFF, 0x87, 0x34, 0x8E, 0x43, 0x44, 0xC4, 0xDE, 0xE9, 0xCB,
   0x54, 0x7B, 0x94, 0x32, 0xA6, 0xC2, 0x23, 0x3D, 0xEE, 0x4C, 0x95, 0x0B, 0x42, 0xFA, 0xC3, 0x4E,
   0x08, 0x2E, 0xA1, 0x66, 0x28, 0xD9, 0x24, 0xB2, 0x76, 0x5B, 0xA2, 0x49, 0x6D, 0x8B, 0xD1, 0x25]

/-- The inverse AES substitution, entries 64 to 127. -/
def isbox1 : List Byte :=
  [0x72, 0xF8, 0xF6, 0x64, 0x86, 0x68, 0x98, 0x16, 0xD4, 0xA4, 0x5C, 0xCC, 0x5D, 0x65, 0xB6, 0x92,
   0x6C, 0x70, 0x48, 0x50, 0xFD, 0xED, 0xB9, 0xDA, 0x5E, 0x15, 0x46, 0x57, 0xA7, 0x8D, 0x9D, 0x84,
   0x90, 0xD8, 0xAB, 0x00, 0x8C, 0xBC, 0xD3, 0x0A, 0xF7, 0xE4, 0x58, 0x05, 0xB8, 0xB3, 0x45, 0x06,
   0xD0, 0x2C, 0x1E, 0x8F, 0xCA, 0x3F, 0x0F, 0x02, 0xC1, 0xAF, 0xBD, 0x03, 0x01, 0x13, 0x8A, 0x6B]

/-- The inverse AES substitution, entries 128 to 191. -/
def isbox2 : List Byte :=
  [0x3A, 0x91, 0x11, 0x41, 0x4F, 0x67, 0xDC, 0xEA, 0x97, 0xF2, 0xCF, 0xCE, 0xF0, 0xB4, 0xE6, 0x73,
   0x96, 0xAC, 0x74, 0x22, 0xE7, 0xAD, 0x35, 0x85, 0xE2, 0xF9, 0x37, 0xE8, 0x1C, 0x75, 0xDF, 0x6E,
   0x47, 0xF1, 0x1A, 0x71, 0x1D, 0x29, 0xC5, 0x89, 0x6F, 0xB7, 0x62, 0x0E, 0xAA, 0x18, 0xBE, 0x1B,
   0xFC, 0x56, 0x3E, 0x4B, 0xC6, 0xD2, 0x79, 0x20, 0x9A, 0xDB, 0xC0, 0xFE, 0x78, 0xCD, 0x5A, 0xF4]

/-- The inverse AES substitution, entries 192 to 255. -/
def isbox3 : List Byte :=
  [0x1F, 0xDD, 0xA8, 0x33, 0x88, 0x07, 0xC7, 0x31, 0xB1, 0x12, 0x10, 0x59, 0x27, 0x80, 0xEC, 0x5F,
   0x60, 0x51, 0x7F, 0xA9, 0x19, 0xB5, 0x4A, 0x0D, 0x2D, 0xE5, 0x7A, 0x9F, 0x93, 0xC9, 0x9C, 0xEF,
   0xA0, 0xE0, 0x3B, 0x4D, 0xAE, 0x2A, 0xF5, 0xB0, 0xC8, 0xEB, 0xBB, 0x3C, 0x83, 0x53, 0x99, 0x61,
   0x17, 0x2B, 0x04, 0x7E, 0xBA, 0x77, 0xD6, 0x26, 0xE1, 0x69, 0x14, 0x63, 0x55, 0x21, 0x0C, 0x7D]

/-- The inverse AES substitution. -/
def isbox : List Byte := isbox0 ++ isbox1 ++ isbox2 ++ isbox3

/-- Doubling in GF(2^8) with the AES polynomial. -/
def xtime (b : Byte) : Byte := (b <<< 1) ^^^ (if b.msb then 0x1B else 0)

/-- Multiplication by the low bits of `k` in GF(2^8). -/
def gmul (k : Nat) (b : Byte) : Byte :=
  let b2 := xtime b
  let b4 := xtime b2
  let b8 := xtime b4
  (if k % 2 = 1 then b else 0) ^^^ (if k / 2 % 2 = 1 then b2 else 0) ^^^ (if k / 4 % 2 = 1 then b4 else 0) ^^^
    (if k / 8 % 2 = 1 then b8 else 0)

/-- Substitute a byte. -/
def subByte (b : Byte) : Byte := sbox.getD b.toNat 0

/-- Byte-wise exclusive or. -/
def xorBytes (a b : List Byte) : List Byte := List.zipWith (· ^^^ ·) a b

/-- The key schedule of AES-256: `ws` holds the last eight words, newest first; `n` words more, from word index `i`. -/
def keyWords : Nat → Nat → Byte → List (List Byte) → List (List Byte)
  | 0, _, _, _ => []
  | n + 1, i, rc, ws =>
    let t := ws.headD []
    let t' :=
      if i % 8 = 0 then
        let r := (t.drop 1 ++ t.take 1).map subByte
        xorBytes r [rc, 0, 0, 0]
      else if i % 8 = 4 then t.map subByte
      else t
    let w := xorBytes (ws.getD 7 []) t'
    w :: keyWords n (i + 1) (if i % 8 = 0 then xtime rc else rc) (w :: ws.take 7)

/-- The fifteen round keys of a 32-byte key. -/
def roundKeys (key : List Byte) : List (List Byte) :=
  let ws := chunks 4 8 key
  (chunks 4 15 (ws ++ keyWords 52 8 1 ws.reverse)).map fun g => g.flatten

/-- Row shifts: the byte at column `c`, row `r` comes from column `c + r`. -/
def shiftRows (s : List Byte) : List Byte := (List.range 16).map fun i => s.getD ((i + 4 * (i % 4)) % 16) 0

/-- Inverse row shifts. -/
def unshiftRows (s : List Byte) : List Byte := (List.range 16).map fun i => s.getD ((i + 12 * (i % 4)) % 16) 0

/-- Mix each column by the circulant with first row `k0 k1 k2 k3`. -/
def mixColumns (k0 k1 k2 k3 : Nat) (s : List Byte) : List Byte :=
  (List.range 16).map fun i =>
    let c := i / 4 * 4
    let at_ j := s.getD (c + (i + j) % 4) 0
    gmul k0 (at_ 0) ^^^ gmul k1 (at_ 1) ^^^ gmul k2 (at_ 2) ^^^ gmul k3 (at_ 3)

/-- Encrypt one 16-byte block. -/
def aesEnc (rk : List (List Byte)) (b : List Byte) : List Byte :=
  let s := xorBytes b (rk.getD 0 [])
  let s := (rk.drop 1).take 13 |>.foldl (fun s k => xorBytes (mixColumns 2 3 1 1 (shiftRows (s.map subByte))) k) s
  xorBytes (shiftRows (s.map subByte)) (rk.getD 14 [])

/-- Decrypt one 16-byte block. -/
def aesDec (rk : List (List Byte)) (b : List Byte) : List Byte :=
  let inv s := (unshiftRows s).map fun x => isbox.getD x.toNat 0
  let s := inv (xorBytes b (rk.getD 14 []))
  let s := ((rk.drop 1).take 13).reverse.foldl (fun s k => inv (mixColumns 14 11 13 9 (xorBytes s k))) s
  xorBytes s (rk.getD 0 [])

/-- The next XTS tweak: doubling in GF(2^128). -/
def tweakNext (t : Nat) : Nat := if t / 2 ^ 127 % 2 = 1 then (2 * t % 2 ^ 128) ^^^ 0x87 else 2 * t

/-- Run the four blocks of a line from tweak `t`. -/
def xtsBlocks (f : List Byte → List Byte) : Nat → List (List Byte) → List Byte
  | _, [] => []
  | t, b :: bs => let tb := leBytes 16 t; xorBytes (f (xorBytes b tb)) tb ++ xtsBlocks f (tweakNext t) bs

/-- The bytes of a 256-bit key, low byte first (R228). -/
def keyBytes (k : BitVec 256) : List Byte := leBytes 32 k.toNat

/-- The first tweak of the line at PA `pa` under a tweak key (R108). -/
def firstTweak (tweak : BitVec 256) (pa : Nat) : Nat := leNat (aesEnc (roundKeys (keyBytes tweak)) (leBytes 16 pa))

/-- Encrypt a 64-byte line. -/
def xtsEnc (data tweak : BitVec 256) (pa : Nat) (line : List Byte) : List Byte :=
  xtsBlocks (aesEnc (roundKeys (keyBytes data))) (firstTweak tweak pa) (chunks 16 4 line)

/-- Decrypt a 64-byte line. -/
def xtsDec (data tweak : BitVec 256) (pa : Nat) (line : List Byte) : List Byte :=
  xtsBlocks (aesDec (roundKeys (keyBytes data))) (firstTweak tweak pa) (chunks 16 4 line)

end Sys2Proof.Machine
end

