-- ==== Sys2Proof/Machine/Base.lean ====
section
/-! DEFINITION. The named operations on the state that everything else is written over: slots and focus, registers, cores, tiles, homes,
messages in flight and their latencies, lines of memory, counters (spec/01 R13, R18, R28 to R30, R448; spec/03 R57, R58, R63, R66;
spec/04 R95, R103, R108, R109; spec/10 R233). -/

namespace Sys2Proof.Machine

/-! ### Numbers of slots, cores, tiles, dies and homes (R13, R18) -/

/-- The tile of a slot. -/
def tileOf (slot : Nat) : Nat := slot / 64
/-- The core of a slot, numbered over the package. -/
def coreOf (slot : Nat) : Nat := slot / 8
/-- The slot's index within its core. -/
def slotIx (slot : Nat) : Nat := slot % 8
/-- The die of a tile. -/
def dieOf (tile : Nat) : Nat := tile / 128
/-- The quadrant of a tile. -/
def quadOf (tile : Nat) : Nat := tile / 32
/-- The home number of a tile's slice. -/
def tileHome (tile : Nat) : Nat := 64 + tile

/-- The package's CYCLE as a number. -/
def State.now (s : State) : Nat := s.pkg.cycle.toNat

/-- The 24-bit slot identity of a slot: package [23:15], tile [14:6], core [5:3], slot [2:0] (Table 3.5). -/
def State.slotIdent (s : State) (slot : Nat) : BitVec 24 := BitVec.ofNat 24 (s.pkg.podIndex.toNat * 32768 + slot)

/-! ### Slots and focus -/

/-- A slot of which nothing is recorded: as reset, with MTVEC the MENTRY of the running image (Table 3.4). -/
def State.freshSlot (s : State) : Slot := { Slot.reset with mc := { MCsr.reset with mtvec := s.pkg.boot.img.mentry } }

/-- The record of a slot. -/
def State.slot (s : State) (id : Nat) : Slot := if id = s.curId then s.cur else s.slots.getD s.freshSlot id

/-- Replace the record of a slot. -/
def State.setSlot (s : State) (id : Nat) (x : Slot) : State :=
  if id = s.curId then { s with cur := x } else { s with slots := s.slots.set id x }

/-- Change the record of a slot. -/
def State.updSlot (s : State) (id : Nat) (f : Slot → Slot) : State := s.setSlot id (f (s.slot id))

/-- Bring a slot into focus. -/
def State.focus (s : State) (id : Nat) : State :=
  if id = s.curId then s
  else { s with cur := s.slot id, curId := id, slots := (s.slots.set s.curId s.cur).del id }

/-- Run an operation on a slot in focus and return the focus to where it was. -/
def State.within (s : State) (id : Nat) (f : State → State) : State := (f (s.focus id)).focus s.curId

/-- The recorded slots, with their numbers: those in focus and those that are not as reset. -/
def State.allSlots (s : State) : List (Nat × Slot) := (s.curId, s.cur) :: s.slots

/-! ### Cores, tiles, homes, dies, tasks -/

/-- A core. -/
def State.core (s : State) (c : Nat) : Core := s.cores.getD Core.reset c
/-- Change a core. -/
def State.updCore (s : State) (c : Nat) (f : Core → Core) : State := { s with cores := s.cores.set c (f (s.core c)) }
/-- A tile. -/
def State.tile (s : State) (t : Nat) : Tile := s.tiles.getD Tile.reset t
/-- Change a tile. -/
def State.updTile (s : State) (t : Nat) (f : Tile → Tile) : State := { s with tiles := s.tiles.set t (f (s.tile t)) }
/-- A memory home. -/
def State.home (s : State) (h : Nat) : Home := s.homes.getD Home.reset h
/-- Change a memory home. -/
def State.updHome (s : State) (h : Nat) (f : Home → Home) : State := { s with homes := s.homes.set h (f (s.home h)) }
/-- A die. -/
def State.die (s : State) (d : Nat) : Die := s.dies.getD Die.reset d
/-- Change a die. -/
def State.updDie (s : State) (d : Nat) (f : Die → Die) : State := { s with dies := s.dies.set d (f (s.die d)) }
/-- What is held for a task. -/
def State.task (s : State) (tid : W64) : Task := s.tasks.getD Task.fresh tid.toNat
/-- Change what is held for a task. -/
def State.updTask (s : State) (tid : W64) (f : Task → Task) : State := { s with tasks := s.tasks.set tid.toNat (f (s.task tid)) }
/-- The task of the slot in focus. -/
def State.myTid (s : State) : W64 := s.cur.u.tid
/-- The tile of the slot in focus. -/
def State.myTile (s : State) : Nat := tileOf s.curId
/-- Change the package record. -/
def State.updPkg (s : State) (f : Pkg → Pkg) : State := { s with pkg := f s.pkg }
/-- Change the boot record. -/
def State.updBoot (s : State) (f : Boot → Boot) : State := { s with pkg := { s.pkg with boot := f s.pkg.boot } }
/-- Change what travels. -/
def State.updNet (s : State) (f : Net → Net) : State := { s with net := f s.net }
/-- Change the host side. -/
def State.updHost (s : State) (f : HostSt → HostSt) : State := { s with host := f s.host }
/-- Change the focused slot. -/
def State.updCur (s : State) (f : Slot → Slot) : State := { s with cur := f s.cur }

/-- The key under which a launch is listed: its id where this package is its home, and above them the ids of each other home. -/
def launchKey (away : Option Nat) (id : W32) : Nat :=
  match away with
  | none => id.toNat
  | some p => (p + 1) * 2 ^ 32 + id.toNat
/-- The key of a launch. -/
def Launch.key (l : Launch) : Nat := launchKey l.away l.id
/-- A launch, by its key. -/
def State.launch? (s : State) (key : Nat) : Option Launch := s.pkg.launches.get? key
/-- Change a launch. -/
def State.updLaunch (s : State) (key : Nat) (f : Launch → Launch) : State :=
  match s.launch? key with
  | some l => { s with pkg := { s.pkg with launches := s.pkg.launches.set key (f l) } }
  | none => s
/-- A worklist. -/
def State.wl? (s : State) (w : Nat) : Option WorkList := s.pkg.wls.get? w
/-- Change a worklist. -/
def State.updWl (s : State) (w : Nat) (f : WorkList → WorkList) : State :=
  match s.wl? w with
  | some l => { s with pkg := { s.pkg with wls := s.pkg.wls.set w (f l) } }
  | none => s
/-- A context. -/
def State.ctx? (s : State) (asid : BitVec 14) : Option Ctx := s.pkg.ctxs.get? asid.toNat
/-- Change a context. -/
def State.updCtx (s : State) (asid : BitVec 14) (f : Ctx → Ctx) : State :=
  match s.ctx? asid with
  | some c => { s with pkg := { s.pkg with ctxs := s.pkg.ctxs.set asid.toNat (f c) } }
  | none => s

/-! ### Registers (R57, R58, R78) -/

/-- Read a scalar register: g0 reads zero, and while the user event handler runs g24 to g27 name the shadow bank. -/
def Slot.readG (x : Slot) (r : RegNo) : W64 :=
  if r = 0 then 0
  else if x.u.active && decide (24 ≤ r.toNat ∧ r.toNat ≤ 27) then x.regs.shadow.getD (r.toNat - 24) 0
  else x.regs.g.getD r.toNat 0

/-- Write a scalar register: a write to g0 is discarded. -/
def Slot.writeG (x : Slot) (r : RegNo) (v : W64) : Slot :=
  if r = 0 then x
  else if x.u.active && decide (24 ≤ r.toNat ∧ r.toNat ≤ 27) then
    { x with regs := { x.regs with shadow := x.regs.shadow.setIfInBounds (r.toNat - 24) v } }
  else { x with regs := { x.regs with g := x.regs.g.setIfInBounds r.toNat v } }

/-- Read a vector register. -/
def Slot.readV (x : Slot) (r : RegNo) : Vec := x.regs.v.getD r.toNat (.replicate 16 0)

/-- Write a vector register whole. -/
def Slot.writeV (x : Slot) (r : RegNo) (v : Vec) : Slot := { x with regs := { x.regs with v := x.regs.v.setIfInBounds r.toNat v } }

/-- Read a predicate register: p0 reads 0xFFFF. -/
def Slot.readP (x : Slot) (r : PredNo) : Pred := if r = 0 then 0xFFFF else x.regs.p.getD r.toNat 0

/-- Write a predicate register: a write to p0 is discarded. -/
def Slot.writeP (x : Slot) (r : PredNo) (v : Pred) : Slot :=
  if r = 0 then x else { x with regs := { x.regs with p := x.regs.p.setIfInBounds r.toNat v } }

/-- Lane `i` of a vector (R58). -/
def lane (v : Vec) (i : Nat) : W32 := v.getD i 0

/-- A vector of sixteen lanes. -/
def vecOf (f : Nat → W32) : Vec := Vector.ofFn fun i => f i.val

/-- Write the active lanes of a vector register; the other lanes keep their values (R58). -/
def Slot.writeLanes (x : Slot) (r : RegNo) (act : Pred) (f : Nat → W32) : Slot :=
  let old := x.readV r
  x.writeV r (vecOf fun i => if act.getLsbD i then f i else lane old i)

/-- OR flags into FFLAGS (R8, R40). -/
def Slot.raise (x : Slot) (fl : Flags) : Slot := { x with u := { x.u with fflags := x.u.fflags ||| fl } }

/-! ### Save records (R23, R82, R92, R366) -/

/-- A number with bit `j` set where `f j`. -/
def maskOf (n : Nat) (f : Nat → Bool) : Nat := (List.range n).foldl (fun a j => if f j then a + 2 ^ j else a) 0

/-- Whether the replay skips the instruction at an address (R76). -/
def skipped (sk : Addr × BitVec 15) (a : Addr) : Bool :=
  let d := (a - sk.1).toNat / 4
  decide (1 ≤ d ∧ d ≤ 15) && sk.2.getLsbD (d - 1)

/-- DONE of a trap at `at_` (R74): the instructions after it that issued and completed, and those the running replay still skips. DEDUCED (log 18). -/
def doneMask (x : Slot) (at_ : Addr) : BitVec 15 :=
  BitVec.ofNat 15 (maskOf 15 fun j =>
    let a := at_ + BitVec.ofNat 48 (4 * (j + 1))
    (decide (a.toNat < x.pc.toNat ∧ at_.toNat < a.toNat) && !(x.fails.any fun f => f.1 == a)) || skipped x.skip a)

/-- UECAUSE as it reads. -/
def UCsr.uecause (u : UCsr) : W64 :=
  BitVec.ofNat 64 (u.uepend.toNat * 2 + u.uekind.toNat * 16 + u.uetag.toNat * 2 ^ 32)

/-- Block kind and what is awaited, as Table 3.10 holds them; `line` is the address of the line awaited. -/
def Block.image (line : Nat) : Block → Nat × Nat
  | .queue q => (1, q)
  | .worklist w => (1, w)
  | .fullEmpty => (2, line)
  | .barrier b => (3, b)
  | .wrs => (4, line)
  | .retrySleep => (5, 0)
  | .page => (6, line)

/-- The 2,560-byte image of a slot's task (Table 3.10). -/
def Slot.image (x : Slot) (line : Nat) : List Byte :=
  let w := fun (v : W64) => leBytes 8 v.toNat
  let blk := match x.status with | .blocked b => b.image line | _ => (0, 0)
  let state := (if x.u.active then 4 else 0) + (doneMask x x.pc).toNat * 2 ^ 3 + blk.1 * 2 ^ 18 + (if x.occurred then 2 ^ 22 else 0) +
    x.u.fflags.toNat * 2 ^ 24 + x.u.frm.toNat * 2 ^ 29 + x.u.txcause.toNat * 2 ^ 32
  w (x.pc.setWidth 64)
    ++ ((List.range 31).flatMap fun k => w (x.regs.g.getD (k + 1) 0))
    ++ ((List.range 32).flatMap fun k => (x.regs.v.getD k (.replicate 16 0)).toList.flatMap fun e => leBytes 4 e.toNat)
    ++ ((0 : Byte) :: 0 :: (List.range 7).flatMap fun k => leBytes 2 (x.regs.p.getD (k + 1) 0).toNat)
    ++ (x.regs.shadow.toList.flatMap w)
    ++ leBytes 8 state
    ++ leBytes 8 (x.u.msa.toNat + x.u.msb.toNat * 2 ^ 32) ++ leBytes 8 (x.u.msc.toNat + x.u.ikey.toNat * 2 ^ 32)
    ++ w x.u.wid ++ w (x.u.widf.setWidth 64) ++ w x.u.tid ++ leBytes 8 (x.u.iarg.toNat + x.u.launch.toNat * 2 ^ 32)
    ++ w x.u.seed ++ w x.u.ctrb ++ w x.u.retired ++ w x.u.turns ++ w (x.u.uevec.setWidth 64) ++ w (x.u.uepc.setWidth 64) ++ w x.u.uecause
    ++ leBytes 8 (x.u.uemask.toNat + if x.u.active then 256 else 0) ++ w x.u.dmap
    ++ (x.u.dacc.toList.flatMap fun e => leBytes 4 e.toNat)
    ++ leBytes 8 blk.2 ++ leBytes 8 0

/-- A save record's bytes in its place in the reserved part of the tile's slice (R92, Table 3.10). DESIGN CHOICE (log 11). -/
def State.storeRec (s : State) (tile ix : Nat) (r : SaveRec) : State :=
  { s with mem := s.mem.writeN (sramByte tile (0x3A8000 + 2560 * ix)) (r.slot.image r.line) }

/-- Bring the bytes of the save records that `p` picks up to date. -/
def State.storeRecs (s : State) (p : SaveRec → Bool) : State :=
  s.tiles.foldl (fun s (e : Nat × Tile) => e.2.recs.foldl (fun s (r : Nat × SaveRec) => if p r.2 then s.storeRec e.1 r.1 r.2 else s) s) s

/-- Change the save records that `p` picks, those of tasks on their way included (R23, R366). -/
def State.updRecs (s : State) (p : SaveRec → Bool) (f : SaveRec → SaveRec) : State :=
  { s with
    tiles := s.tiles.map fun (e : Nat × Tile) => (e.1, { e.2 with recs := e.2.recs.map fun (r : Nat × SaveRec) => (r.1, if p r.2 then f r.2 else r.2) })
    net := { s.net with moving := s.net.moving.map fun (m : Moving) => { m with task := if p m.task then f m.task else m.task } } }

/-! ### Messages in flight and their latencies (R66, R448) -/

/-- One way from tile to tile. -/
def hopTile (a b : Nat) : Nat :=
  if a = b then 5 else if quadOf a = quadOf b then 14 else if dieOf a = dieOf b then 22 else 35
/-- One way from a tile to a unit of a die: its lamp, barrier home or collective unit. -/
def hopDie (a d : Nat) : Nat := if dieOf a = d then 22 else 35
/-- One way between units of dies. PRESUMED for die units (log 28). -/
def hopDies (a b : Nat) : Nat := if a = b then 22 else 35
/-- One way from a tile to a home: half the load latency of Table 3.8. -/
def hopHome (a h : Nat) : Nat := if h < 64 then 130 else hopTile a (h - 64)
/-- One way of a message of class CTL or UPD between a tile and a home (R448). -/
def hopMsg (a h : Nat) : Nat := if h < 64 then (if h / 16 = dieOf a then 22 else 35) else hopTile a (h - 64)
/-- One way to another package. -/
def hopPkg : Nat := 750

/-- The class of a replying home (Table 3.6). -/
def replyClass (tile home : Nat) : Nat :=
  if home < 64 then (if home / 16 = dieOf tile then 5 else 6)
  else
    let t := home - 64
    if t = tile then 0 else if t / 4 = tile / 4 then 1 else if quadOf t = quadOf tile then 2
    else if dieOf t = dieOf tile then 3 else 4

/-- Put an event in flight, to happen no earlier than `delay` cycles from now. -/
def State.after (s : State) (delay : Nat) (ev : Event) : State :=
  { s with net := { s.net with pend := s.net.pend ++ [⟨s.now + delay, ev⟩] } }

/-- Put an event in flight unless the same event is already on its way. -/
def State.afterOnce (s : State) (delay : Nat) (ev : Event) : State :=
  if s.net.pend.any fun p => p.ev == ev then s else s.after delay ev

/-- A request or message leaves for another package (R422, R448): there it arrives as the event. -/
def State.post (s : State) (pkg : Nat) (ev : Event) : State := s.updNet fun n => { n with outbox := n.outbox ++ [(pkg, ev)] }

/-- The number by which homes know a slot of another package. -/
def foreignSlot (pkg slot : Nat) : Nat := (pkg + 1) * 32768 + slot

/-- A new number for a request, an operation or a message. -/
def State.fresh (s : State) : Nat × State := (s.net.nextId, { s with net := { s.net with nextId := s.net.nextId + 1 } })

/-- A request. -/
def State.req? (s : State) (id : Nat) : Option Req := s.net.reqs.get? id
/-- List or replace a request. -/
def State.setReq (s : State) (r : Req) : State := { s with net := { s.net with reqs := s.net.reqs.set r.id r } }
/-- Remove a request. -/
def State.delReq (s : State) (id : Nat) : State := { s with net := { s.net with reqs := s.net.reqs.del id } }

/-! ### Performance counters (R233) -/

/-- Whether a counter has been written in the current cycle, so that additions of this cycle are lost (R233). -/
def Tile.pcHeld (t : Tile) (now i : Nat) : Bool := t.pcAt.1 == now && t.pcAt.2.getLsbD i

/-- Count `k` occurrences of the event with code `code` at a tile. -/
def State.tally (s : State) (tile code k : Nat) : State :=
  let t := s.tile tile
  if t.run && k != 0 then
    s.updTile tile fun t =>
      { t with pcs := Vector.ofFn fun i =>
          let c := t.pcs.getD i.val 0
          if (t.sel.extractLsb' (8 * i.val) 8).toNat = code && !t.pcHeld s.now i.val then c + BitVec.ofNat 48 k else c }
  else s

/-! ### Lines of memory -/

/-- The physical number of the first byte of a line of a home. -/
def lineBase (home line : Nat) : Nat :=
  if home < 64 then hbmByte (home * 8589934592 + line * 64) else sramByte (home - 64) (line * 64)

/-- The package-wide number of a line of a home. -/
def lineNo (home line : Nat) : Nat := lineBase home line / 64

/-- The key material of a key slot: slot 0 is plaintext (R108, R228). -/
def State.keyMat (s : State) (slot : Nat) : Option (BitVec 512) :=
  if slot = 0 then none
  else
    let k := s.pkg.keys.getD ⟨0, 0, 0⟩ slot
    some (k.tweak ++ k.data)

/-- What a line's bytes become when they were written under `wk` and are read under `rk` (R108). -/
def rekey (pa : Nat) (wk rk : Option (BitVec 512)) (line : List Byte) : List Byte :=
  if wk = rk then line
  else
    let c := match wk with
      | some k => xtsEnc (k.extractLsb' 0 256) (k.extractLsb' 256 256) pa line
      | none => line
    match rk with
    | some k => xtsDec (k.extractLsb' 0 256) (k.extractLsb' 256 256) pa c
    | none => c

/-- Read a whole line of a home under a key. A line in the zero state reads as zeros under every key (R103). -/
def State.readLine (s : State) (home line : Nat) (key : Option (BitVec 512)) : List Byte :=
  let no := lineNo home line
  if s.attrs.zero.has no then List.replicate 64 0
  else
    let b := s.mem.readN (lineBase home line) 64
    if home < 64 then rekey (home * 8589934592 + line * 64) (s.attrs.keyOf.get? no) key b else b

/-- Record the key a line stands under. -/
def setKeyOf (m : Map (BitVec 512)) (no : Nat) (key : Option (BitVec 512)) : Map (BitVec 512) :=
  match key with
  | some k => m.set no k
  | none => m.del no

/-- Write the bytes of `data` that `mask` selects into a line under a key: a zero-state line is merged with zeros and leaves that state, a line
under another key is written anew under this one (R103, R108). -/
def State.writeLine (s : State) (home line : Nat) (key : Option (BitVec 512)) (mask : Nat) (data : List Byte) : State :=
  let no := lineNo home line
  let base := lineBase home line
  if home ≥ 64 || (!s.attrs.zero.has no && s.attrs.keyOf.get? no == key) then
    { s with mem := s.mem.writeMasked base mask data }
  else
    let old := s.readLine home line key
    { s with
      mem := (s.mem.writeN base old).writeMasked base mask data
      attrs := { s.attrs with zero := s.attrs.zero.del no, keyOf := setKeyOf s.attrs.keyOf no key } }

/-- Whether a line carries line poison (R109). -/
def State.poisoned (s : State) (home line : Nat) : Bool := s.attrs.poison.has (lineNo home line)

/-- Every byte of a line. -/
def fullMask : Nat := 2 ^ 64 - 1

/-- Set or clear line poison. -/
def State.setPoison (s : State) (home line : Nat) (b : Bool) : State :=
  { s with attrs := { s.attrs with poison := s.attrs.poison.put (lineNo home line) b } }

/-- The full/empty bit of the word of a slice that holds offset `off` (R95). -/
def State.isFull (s : State) (tile off : Nat) : Bool := s.attrs.full.has (sramByte tile off / 8)

/-- Set or clear it. -/
def State.setFull (s : State) (tile off : Nat) (b : Bool) : State :=
  { s with attrs := { s.attrs with full := s.attrs.full.put (sramByte tile off / 8) b } }

/-! ### Contexts, windows, tenants -/

/-- The window entry an ASID has at a tile (R225). -/
def State.window? (s : State) (tile : Nat) (asid : BitVec 14) : Option Window :=
  (s.tile tile).windows.find? fun w => w.asid == asid

/-- The tenant of an ASID, where its entry is valid (R226). -/
def State.tenantOf? (s : State) (asid : BitVec 14) : Option (BitVec 16) := (s.pkg.asids.get? asid.toNat).map (·.tenant)

/-- A readiness bit (Table 23.1). -/
def State.isReady (s : State) (bit : Nat) : Bool := s.pkg.ready.getLsbD bit

end Sys2Proof.Machine
end

