-- ==== Sys2Proof/Machine/Specu.lean ====
section
/-! DEFINITION. The speculation buffer, buoys as their watchers see them, and what ends a speculation: abort, rollback, squash
(spec/06_speculation.md R131 to R149, R152; spec/15_memory_instructions.md R331). Every operation acts on the slot in focus unless it
names one. -/

namespace Sys2Proof.Machine

/-- The home number that stands for the homes of other packages; those of package `p` have the number `foreignHome + 1 + p`. -/
def foreignHome : Nat := 1048576

/-- The home and virtual line by which the speculation buffer knows an address of SRAM or HBM class: a slice's line by its offset, an HBM
line by its virtual address. -/
def Cls.key : Cls → Nat × Nat
  | .sram tile off => (64 + tile, off / 64)
  | .hbm va => (va / 65536 % 64, va / 64)
  | .pod p a => (foreignHome + 1 + p, a / 64)
  | .control o => (foreignHome, o / 64)

/-- Send a release message for one buoy (R217). A buoy at a home of another package is released there. -/
def State.sendRelease (s : State) (slot : Nat) (ctx : W32) (home line mode : Nat) : State :=
  let asid := (s.slot slot).sc.asid
  if home > foreignHome then
    s.post (home - foreignHome - 1) (.releaseMessage ⟨foreignHome, line, foreignSlot s.pkg.podIndex.toNat slot, ctx, 2 ^ mode, asid⟩)
  else s.after (hopMsg (tileOf slot) home) (.releaseMessage ⟨home, line, slot, ctx, 2 ^ mode, asid⟩)

/-- Release the buoys of the slot in focus that `p` picks (R217). -/
def State.releaseWatch (s : State) (p : Watch → Bool) : State :=
  let s1 := (s.cur.spec.watch.filter p).foldl
    (fun s w => s.sendRelease s.curId s.cur.mc.ctxser w.home w.line w.mode) s
  s1.updCur fun x => { x with spec := { x.spec with watch := x.spec.watch.filter fun w => !p w } }

/-! ### Buoy tables (R213) -/

/-- The number of entries of a home's buoy table (R213). -/
def buoyRoom (home : Nat) : Nat := if home < 64 then 16384 else 4096

/-- The buoy table of a home. -/
def State.buoysOf (s : State) (home : Nat) : List Buoy := if home < 64 then (s.home home).buoys else (s.tile (home - 64)).buoys

/-- Replace the buoy table of a home, with the number of the next placement. -/
def State.setBuoys (s : State) (home : Nat) (b : List Buoy) (age : Nat) : State :=
  if home < 64 then s.updHome home fun h => { h with buoys := b, buoyAge := age }
  else s.updTile (home - 64) fun t => { t with buoys := b, buoyAge := age }

/-- The placement number a home gives next. -/
def State.buoyAgeOf (s : State) (home : Nat) : Nat := if home < 64 then (s.home home).buoyAge else (s.tile (home - 64)).buoyAge

/-- Give the buoys of the slot in focus the mode and level that `f` gives them, at their homes too (R139, R141). DESIGN CHOICE (log 40). -/
def State.remode (s : State) (f : Watch → Watch) : State :=
  let s1 := (s.cur.spec.watch.filter fun w => f w != w).foldl (fun s w =>
    s.setBuoys w.home ((s.buoysOf w.home).map fun b =>
      if b.slot == s.curId && b.ctx == s.cur.mc.ctxser && b.line == w.line && b.mode == w.mode then
        { b with mode := (f w).mode, level := (f w).level } else b) (s.buoyAgeOf w.home)) s
  s1.updCur fun x => { x with spec := { x.spec with watch := x.spec.watch.map f } }

/-- TX-read and TX-sleep buoys. -/
def Watch.isTx (w : Watch) : Bool := w.mode == 1 || w.mode == 2

/-- Clear the reservation of the slot in focus and release its buoy (R331). -/
def State.clearRsv (s : State) : State :=
  match s.cur.rsv with
  | none => s
  | some (_, _, home, line) =>
    (s.sendRelease s.curId s.cur.mc.ctxser home line 4).updCur fun x => { x with rsv := none }

/-- Discard the buffer lines of a slot whose nesting level is at least `lvl` (R138, R139). -/
def State.dropBuf (s : State) (slot lvl : Nat) : State :=
  s.updCore (coreOf slot) fun c => { c with buf := c.buf.filter fun b => !(b.slot == slot && decide (lvl ≤ b.level)) }

/-- The buffer lines a slot holds, each line once (R131). -/
def State.bufKeys (s : State) (slot : Nat) : List (Nat × Nat) :=
  (((s.core (coreOf slot)).buf.filter fun b => b.slot == slot).map fun b => (b.home, b.vline)).dedup

/-- The buffer lines of a core in use, each slot's line once. DEDUCED (log 32). -/
def Core.bufUsed (c : Core) : Nat := (c.buf.map fun b => (b.slot, b.home, b.vline)).dedup.length

/-- WSMAX.LINES and RSMAX.BUOYS as they act (Table 3.5). -/
def Slot.wsLimit (x : Slot) : Nat := Nat.min x.sc.wsmax.toNat 256
def Slot.rsLimit (x : Slot) : Nat := Nat.min x.sc.rsmax.toNat 4096

/-- Whether a request belongs to the placement in focus. -/
def State.mine (s : State) (r : Req) : Bool := r.slot == s.curId && r.ctx == s.cur.mc.ctxser

/-- The buffer lines, by slot, that requests on their way will still take in a core. -/
def State.comingCore (s : State) (core : Nat) : List (Nat × Nat × Nat) :=
  ((s.net.reqs.filter fun e => e.2.slot / 8 == core && e.2.kind == .probe && e.2.stage != .reply && e.2.stage != .done).map
    fun e => (e.2.slot, e.2.cls.key)).dedup

/-- The new buffer lines and buoys that requests of the slot in focus will still take. -/
def State.comingLines (s : State) : List (Nat × Nat) :=
  ((s.net.reqs.filter fun e => s.mine e.2 && e.2.kind == .probe && e.2.stage != .reply && e.2.stage != .done).map fun e => e.2.cls.key).dedup
def State.comingWatch (s : State) : List (Nat × Nat) :=
  ((s.net.reqs.filter fun e => s.mine e.2 && e.2.watch.isSome && e.2.kind == .load && e.2.stage != .reply && e.2.stage != .done).map
    fun e => e.2.cls.key).dedup

/-- Whether buffering the lines `ks` would pass the write limit of the slot in focus, or find no line of its core's buffer free (R131). The lines that
the other slots of the core are about to take count with those they hold. -/
def State.overWrite (s : State) (ks : List (Nat × Nat)) : Bool :=
  let held := s.bufKeys s.curId
  let want := ((s.comingLines ++ ks).dedup.filter fun k => !held.contains k).length
  let core := coreOf s.curId
  let coming := (s.comingCore core).filter fun k => k.1 != s.curId && !(s.bufKeys k.1).contains k.2
  decide (held.length + want > s.cur.wsLimit) ||
    decide ((s.core core).bufUsed + coming.length + want > 256)

/-- Whether watching the lines `ks` would pass its read limit (R131). -/
def State.overRead (s : State) (ks : List (Nat × Nat)) : Bool :=
  let held := s.cur.spec.watch.map fun w => (w.home, w.vline)
  let want := ((s.comingWatch ++ ks).dedup.filter fun k => !held.contains k).length
  decide (s.cur.spec.watch.length + want > s.cur.rsLimit)

/-- Read a line through the buffer of a slot: the written bytes from its buffer lines, level by level, the others as `line` has them
(R131). -/
def State.overlay (s : State) (slot : Nat) (key : Nat × Nat) (line : List Byte) : List Byte :=
  (List.range 4).foldl (fun l lv =>
    match (s.core (coreOf slot)).buf.find? fun b => b.slot == slot && b.home == key.1 && b.vline == key.2 && b.level == lv + 1 with
    | some b => (List.range 64).map fun i => if b.mask.testBit i then b.data.getD i 0 else l.getD i 0
    | none => l) line

/-- Merge bytes into the buffer line a slot holds at a level (R131). DEDUCED (log 12). -/
def State.bufferWrite (s : State) (slot level : Nat) (key : Nat × Nat) (mask : Nat) (data : List Byte) : State :=
  s.updCore (coreOf slot) fun c =>
    let hit := fun (b : BufLine) => b.slot == slot && b.home == key.1 && b.vline == key.2 && b.level == level
    let old := (c.buf.find? hit).getD ⟨key.1, key.2, slot, level, List.replicate 64 0, 0⟩
    let new := { old with
      data := (List.range 64).map fun i => if mask.testBit i then data.getD i 0 else old.data.getD i 0
      mask := old.mask ||| mask }
    { c with buf := c.buf.filter (fun b => !hit b) ++ [new] }

/-- Forget the accesses under way of the slot in focus, and every result not yet written: a load that has not completed has had no effect,
and a speculative store is only in the buffer (R138, R145, R148). Remote updates stay on their way. -/
def State.dropOps (s : State) : State :=
  let gone := fun (r : Req) => s.mine r && r.op != 0 && (r.kind == .load || r.kind == .probe)
  { s with
    net := { s.net with reqs := s.net.reqs.filter fun e => !gone e.2 }
    cur := { s.cur with ops := [], fails := [], busy := [], inwin := false, hold := .none, skip := (0, 0) } }

/-- Start the register checkpoint of the slot in focus (R132). -/
def Slot.checkpoint (x : Slot) : Ckpt := ⟨x.regs, x.u.fflags, x.u.frm, x.frame⟩

/-- Restore the register checkpoint (R132). -/
def Slot.restore (x : Slot) : Slot :=
  match x.spec.ckpt with
  | some c => { x with regs := c.regs, u := { x.u with fflags := c.fflags, frm := c.frm } }
  | none => x

/-- The event in which a request reaches its home. -/
def Req.arrive (r : Req) : Event :=
  match r.kind with
  | .rupd _ => .updateApply r.id
  | _ => .homeAccess r.id

/-- Let the accesses that wait for a commit hold on a line try again (R122). -/
def State.retryLine (s : State) (home line : Nat) : State :=
  let wait := s.net.reqs.filter fun e => e.2.stage == .line && e.2.home == home && e.2.line == line
  wait.foldl (fun s e =>
    (s.setReq { e.2 with stage := .travel }).after 1 e.2.arrive) s

/-- Release every commit hold of a slot (R141, R142). -/
def State.dropHolds (s : State) (slot : Nat) : State :=
  let mine := s.net.holds.filter fun h => h.slot == slot
  let s1 := { s with net := { s.net with holds := s.net.holds.filter fun h => !(h.slot == slot) } }
  mine.foldl (fun s h => s.retryLine h.home h.line) s1

/-- The state of a slot that speculates no more; its TX-sleep buoys and its wake bit stay where `keep` says so. -/
def Spec.ended_ (sp : Spec) (keep : Bool) : Spec :=
  { Spec.none with watch := sp.watch, wake := keep && sp.wake }

/-- End a transaction of the slot in focus by abort (R138), with its cause, code and target. In a Piste chunk the chunk goes on at the abort
target; its TX-read and TX-sleep buoys become CHUNK buoys, so that a squash reruns the transaction (R148, R149). DEDUCED (log 82). -/
def State.txAbort (s : State) (cause code : Nat) : State :=
  let lvl := s.cur.spec.depth
  let s := (s.dropBuf s.curId 0).dropOps
  let s := s.dropHolds s.curId
  let chunk := s.cur.spec.mode == .chunk
  let s := if chunk then s.remode fun w => if w.isTx then { w with mode := 6, level := 0 } else w else s.releaseWatch Watch.isTx
  let s := s.tally s.myTile 10 1
  s.updCur fun x =>
    let y := x.restore
    { y with
      pc := x.spec.abortTo
      status := .ready
      frame := none
      wait := s.now + 1
      u := { y.u with txcause := BitVec.ofNat 15 (cause + code % 256 * 16 + lvl % 8 * 4096) }
      spec := if chunk then { x.spec with depth := 0, alts := Spec.none.alts, wake := false, commit := .none, toHold := [], toApply := [] }
              else x.spec.ended_ false }

/-- Roll a glider back (R145): the slot waits at its BARG as an arrived member. Once the barrier has completed, it goes on after the
BARG (R146). -/
def State.glideBack (s : State) : State :=
  let s := (s.dropBuf s.curId 0).dropOps
  let s := s.dropHolds s.curId
  let done := s.cur.spec.commit != .none
  let s := s.releaseWatch fun w => w.mode == 3
  let s := s.tally s.myTile 11 1
  s.updCur fun x =>
    let y := x.restore
    { y with
      pc := if done then x.spec.restart + 4 else x.spec.restart
      status := if done then .ready else match x.spec.barrier with | some (id, _) => .blocked (.barrier id) | none => .ready
      frame := none
      wait := s.now + 1
      spec := x.spec.ended_ false }

/-- Squash a chunk (R148): it runs again from its start. -/
def State.chunkSquash (s : State) : State :=
  let s := (s.dropBuf s.curId 0).dropOps
  let s := s.dropHolds s.curId
  let s := s.releaseWatch fun w => w.mode == 6 || w.isTx
  s.updCur fun x =>
    let y := x.restore
    { y with
      pc := x.spec.restart
      status := .ready
      frame := x.spec.ckpt.bind (·.frame)
      wait := s.now + 1
      spec := { Spec.none with mode := .chunk, restart := x.spec.restart, ckpt := x.spec.ckpt, watch := x.spec.watch } }

/-- Whether the slot in focus speculates and has not passed its commit point. -/
def Slot.open_ (x : Slot) : Bool := x.spec.mode != .none && x.spec.commit != .applying

/-- The speculative state in force: past its commit point a slot speculates no more (R146). -/
def Slot.specMode (x : Slot) : SpecMode := if x.spec.commit == .applying then .none else x.spec.mode

/-- Wake a sleeper (R140): its TX-sleep buoys are released and it is Ready at the restart point. -/
def State.wakeSleeper (s : State) : State :=
  (s.releaseWatch fun w => w.mode == 2).updCur fun x =>
    { x with status := .ready, spec := { x.spec with wake := false }, occurred := true }

/-- What a notice does to the slot in focus (Table 6.1): `lost` for the loss of a buoy. A notice for a buoy already released is discarded
(R216); one that would end a speculation inside a repeat frame acts when the frame has ended (R297). -/
def State.takeNotice (s : State) (n : Notice) (lost : Bool) : State :=
  let x := s.cur
  let hit := fun (w : Watch) => w.home == n.home && w.line == n.line && (w.mode == n.mode || (w.isTx && (n.mode == 1 || n.mode == 2)))
  let watched := x.spec.watch.find? hit
  let s := if lost then s.updCur fun x => { x with spec := { x.spec with watch := x.spec.watch.filter fun w => !hit w } } else s
  if n.mode = 4 then
    match x.rsv with
    | some (_, _, home, line) =>
      if home = n.home ∧ (line = n.line ∨ foreignHome < home) then s.updCur fun x => { x with rsv := none } else s
    | none => s
  else match watched with
    | none => s
    | some w =>
      if x.spec.mode == .chunk then
        s.updCur fun x => { x with spec := { x.spec with wake := x.spec.wake || w.mode == 2, lost := x.spec.lost || (lost && w.mode != 2),
                                                         dirty := x.spec.dirty || !lost || w.mode == 2 } }
      else if w.mode = 2 then
        if x.status == .blocked .retrySleep then s.wakeSleeper
        else if x.spec.mode == .tx && x.open_ then s.updCur fun x => { x with spec := { x.spec with wake := true } }
        else s
      else if !x.open_ then s
      else if x.frame.isSome then
        s.updCur fun x => { x with spec := { x.spec with undo := x.spec.undo.or (some (if lost then 3 else 1, 0)) } }
      else if x.spec.mode == .tx then s.txAbort (if lost then 3 else 1) 0
      else s.glideBack

/-- A recorded notice acts when the frame has ended (R297). -/
def State.settleUndo (s : State) : State :=
  match s.cur.spec.undo with
  | none => s
  | some (cause, code) =>
    if s.cur.specMode == .tx then s.txAbort cause code
    else if s.cur.specMode == .glide then s.glideBack
    else s

/-- Settle the speculation of a slot that is to leave (R22, Table 6.4): a transaction aborts with PREEMPT, a glider becomes a waiting member,
a chunk is discarded to its start, a sleeper keeps its buoys, the reservation is cleared. -/
def State.settleSpec (s : State) : State :=
  let s := match s.cur.specMode with
    | .tx => s.txAbort 6 0
    | .glide => s.glideBack
    | .chunk => s.chunkSquash.updCur fun x => { x with spec := x.spec.ended_ false }
    | .none => s
  s.clearRsv

end Sys2Proof.Machine
end

