-- ==== Sys2Proof/Machine/Vmem.lean ====
section
/-! DEFINITION. Memory behind the issuing slot: classes of address, window checks, translation walks and caches, first touch, poison, and
writes with the buoys they notify (spec/04_memory_space.md R89 to R109; spec/09_tables.md R213 to R219). -/

namespace Sys2Proof.Machine

/-! ### Classes and windows (R89, R93) -/

/-- The class of a local address for an ASID with window base `base` (orders 3 and 4 of Table 4.3). -/
def localClass (base : Option (BitVec 17)) (va : Nat) : Cls :=
  if base = some (BitVec.ofNat 17 (va / 2147483648)) then .sram (va / 4194304 % 512) (va % 4194304) else .hbm va

/-- The class of a virtual address issued at a tile (Table 4.3). -/
def State.classify (s : State) (tile : Nat) (asid : BitVec 14) (level : Level) (va : Nat) : Cls :=
  let base := (s.window? tile asid).map (·.base)
  if level = .m ∧ va / 16777216 = 0x7FFFFF then .control (va % 16777216)
  else if va / 2 ^ 47 % 2 = 1 then
    if va / 2 ^ 39 % 256 = s.pkg.podIndex.toNat then localClass base (va % 2 ^ 39)
    else .pod (va / 2 ^ 39 % 256) (va % 2 ^ 39)
  else localClass base va

/-- The checks of R93 at a tile against its window entry for the ASID: the PROT code of the first that fails. -/
def State.windowFault (s : State) (tile off : Nat) (asid : BitVec 14) (write : Bool) : Option Nat :=
  match s.window? tile asid with
  | none => some 1
  | some w =>
    if w.scrub || decide (tile < w.first) || decide (w.last < tile) then some 1
    else if off ≥ (s.tile tile).userTop then some 2
    else if write && !w.w then some 3
    else none

/-! ### Physical bytes -/

/-- Read `n` bytes inside one line of a home under a key. -/
def State.readHome (s : State) (home off n : Nat) (key : Option (BitVec 512)) : List Byte :=
  ((s.readLine home (off / 64) key).drop (off % 64)).take n

/-- Write bytes inside one line of a home under a key. -/
def State.writeHome (s : State) (home off : Nat) (key : Option (BitVec 512)) (data : List Byte) : State :=
  s.writeLine home (off / 64) key ((2 ^ data.length - 1) * 2 ^ (off % 64)) (List.replicate (off % 64) 0 ++ data)

/-- A page-table entry: 8 bytes at a physical address, in plaintext (R98). -/
def State.readPte (s : State) (pa : Nat) : Nat := leNat (s.readHome (pa / 2 ^ 33) (pa % 2 ^ 33) 8 none)
/-- Write a page-table entry. -/
def State.writePte (s : State) (pa v : Nat) : State := s.writeHome (pa / 2 ^ 33) (pa % 2 ^ 33) none (leBytes 8 v)

/-! ### Page-table entries (Table 4.5) -/

def pteV (e : Nat) : Bool := e.testBit 0
def pteW (e : Nat) : Bool := e.testBit 1
def pteFT (e : Nat) : Bool := e.testBit 2
def pteA (e : Nat) : Bool := e.testBit 3
def pteD (e : Nat) : Bool := e.testBit 4
def pteP (e : Nat) : Bool := e.testBit 5
def pteLeaf (e : Nat) : Bool := e.testBit 6
def pteKey (e : Nat) : Nat := e / 2 ^ 8 % 2 ^ 13
/-- ADDR as a physical address. -/
def pteAddr (e : Nat) : Nat := e / 2 ^ 24 % 2 ^ 27 * 4096
/-- The bits Table 4.5 keeps zero: [7], [23:21] and [63:51]. -/
def pteReserved (e : Nat) : Bool := e.testBit 7 || decide (e / 2 ^ 21 % 8 ≠ 0) || decide (e / 2 ^ 51 ≠ 0)
/-- Set a bit of an entry. -/
def pteSet (e bit : Nat) : Nat := if e.testBit bit then e else e + 2 ^ bit
/-- Clear a bit of an entry. -/
def pteClear (e bit : Nat) : Nat := if e.testBit bit then e - 2 ^ bit else e

/-- What a walk finds (R100). -/
inductive WalkRes where
  | leaf (pte e : Nat) (large : Bool)
  | touch (pte e : Nat)
  | pending
  | fail (code : Nat)
  deriving DecidableEq, Repr

/-- The tenant of an ASID as its table entry holds it (R226). -/
def State.asidEnt (s : State) (asid : BitVec 14) : AsidEnt := s.pkg.asids.getD ⟨0, 0, 0, false, 0⟩ asid.toNat

/-- Whether a key slot belongs to a tenant: slot 0 is plaintext and belongs to tenant 0 (R228). -/
def State.keyOwned (s : State) (slot : Nat) (tenant : BitVec 16) : Bool :=
  if slot = 0 then tenant == 0 else match s.pkg.keys.get? slot with
    | some k => k.tenant == tenant
    | none => false

/-- The physical address of the level-one entry of an address. -/
def State.rootEntry (s : State) (asid : BitVec 14) (va : Nat) : Nat :=
  (s.asidEnt asid).root.toNat * 8192 + va / 2 ^ 38 % 1024 * 8

/-- The checks of a valid leaf (R100 steps 4 to 6). -/
def State.leafRes (s : State) (asid : BitVec 14) (va pte e : Nat) (large : Bool) : WalkRes :=
  let pa := pteAddr e
  if large && (decide (pa / 2 ^ 33 ≠ 0) || decide (pa % 2 ^ 21 ≠ 0)) then .fail 2
  else if !large && (decide (pa % 65536 ≠ 0) || decide (pa / 2 ^ 33 ≠ va / 65536 % 64)) then .fail 2
  else if !s.keyOwned (pteKey e) (s.asidEnt asid).tenant then .fail 3
  else .leaf pte e large

/-- A walk from the root an ASID has (R98, R100). -/
def State.walk (s : State) (asid : BitVec 14) (va : Nat) : WalkRes :=
  let e1 := s.readPte (s.rootEntry asid va)
  if pteReserved e1 then .fail 1
  else if !pteV e1 then .pending
  else if pteLeaf e1 || decide (pteAddr e1 % 16384 ≠ 0) then .fail 1
  else
    let p2 := pteAddr e1 + va / 2 ^ 27 % 2048 * 8
    let e2 := s.readPte p2
    if pteReserved e2 then .fail 1
    else if !pteV e2 then .pending
    else if pteLeaf e2 then s.leafRes asid va p2 e2 true
    else if pteAddr e2 % 16384 ≠ 0 then .fail 1
    else
      let p3 := pteAddr e2 + va / 65536 % 2048 * 8
      let e3 := s.readPte p3
      if pteReserved e3 then .fail 1
      else if !pteV e3 then (if pteFT e3 then .touch p3 e3 else .pending)
      else if !pteLeaf e3 then .fail 1
      else s.leafRes asid va p3 e3 false

/-! ### Frames and translation caches -/

/-- The frame number PA[38:16] that a leaf gives an address; for a large page, of the home's share (R100). -/
def frameOf (va e : Nat) (large : Bool) : Nat :=
  if large then va / 65536 % 64 * 131072 + pteAddr e / 2 ^ 21 % 4096 * 32 + va / 2 ^ 22 % 32 else pteAddr e / 65536

/-- A frame table entry that nothing has changed: free, but for the last 576 frames of a home, which hold the reply caches of the home and of eight
tiles and are pinned (R102, R230). DESIGN CHOICE (log 79). -/
def frameReset (f : Nat) : FrameEnt := if 131072 - 576 ≤ f then ⟨5, 0, 0⟩ else ⟨0, 0, 0⟩

/-- The frame table entry of a frame number. -/
def State.frameEnt (s : State) (frame : Nat) : FrameEnt :=
  (s.home (frame / 131072)).frames.getD (frameReset (frame % 131072)) (frame % 131072)

/-- Change the frame table entry of a frame number. -/
def State.updFrame (s : State) (frame : Nat) (f : FrameEnt → FrameEnt) : State :=
  s.updHome (frame / 131072) fun h =>
    { h with frames := h.frames.set (frame % 131072) (f (h.frames.getD (frameReset (frame % 131072)) (frame % 131072))) }

/-- A filled frame that was cold is mapped again and leaves the cold queue (R105). -/
def State.warmFrame (s : State) (frame : Nat) : State :=
  if (s.frameEnt frame).st = 4 then
    (s.updFrame frame fun e => { e with st := 3 }).updHome (frame / 131072) fun h => { h with cold := h.cold.filter (· != frame % 131072) }
  else s

/-- The set of the translation cache an address falls in (R218). -/
def tlbSet (asid : BitVec 14) (va : Nat) : Nat := (va / 2 ^ 22 % 512) ^^^ (asid.toNat % 512)

/-- The VPN field of a page (Table 9.2): of a large page, VA[47:27] with the low bits zero. -/
def vpnOf (va : Nat) (large : Bool) : Nat := if large then va / 2 ^ 27 * 2048 else va / 65536

/-- The address whose set an entry sits in: for a large page the home's own share, VA[26:22] as its frame tells. -/
def Tlb.setOf (t : Tlb) : Nat :=
  if t.large then tlbSet t.asid (t.vpn * 65536 + t.frame % 32 * 2 ^ 22) else tlbSet t.asid (t.vpn * 65536)

/-- Whether an entry serves an address. A large page's entry is for one 4 MiB share of the home. -/
def Tlb.hits (t : Tlb) (asid : BitVec 14) (va : Nat) : Bool :=
  t.asid == asid && (if t.large then t.vpn == vpnOf va true && t.frame % 32 == va / 2 ^ 22 % 32 else t.vpn == vpnOf va false)

/-- The entry that serves an address at a home. -/
def State.tlb? (s : State) (home : Nat) (asid : BitVec 14) (va : Nat) : Option Tlb :=
  (s.home home).tlb.find? fun t => t.hits asid va

/-- Drop the least recently used entry of a set that holds eight (R218). -/
def makeWay (l : List Tlb) (set : Nat) : List Tlb :=
  let ways := l.filter fun t => t.setOf == set
  if ways.length < 8 then l
  else
    let least := ways.foldl (fun m t => Nat.min m t.used) (ways.headD ⟨0, 0, false, false, false, 0, 0, 0, false, 0⟩).used
    match ways.find? fun t => t.used == least with
    | some v => l.filter fun t => !(t == v)
    | none => l

/-- Fill the translation cache of a home (R101, R218). -/
def State.fillTlb (s : State) (home : Nat) (asid : BitVec 14) (va pte e : Nat) (large : Bool) : State :=
  let t : Tlb := ⟨asid, vpnOf va large, large, pteW e, pteD e, frameOf va e large, BitVec.ofNat 13 (pteKey e), pte, pteP e, s.now⟩
  (s.updHome home fun h => { h with tlb := makeWay (h.tlb.filter fun o => !(o.hits asid va)) t.setOf ++ [t] }).warmFrame t.frame

/-- Note the use of an entry, for replacement. -/
def State.touchTlb (s : State) (home : Nat) (t : Tlb) : State :=
  s.updHome home fun h => { h with tlb := h.tlb.map fun o => if o == t then { o with used := s.now } else o }

/-- What translation gives an access; an engine's or a unit's has to wait where no walker is free for it. -/
inductive Xl where
  | ok (t : Tlb) (first : Bool)
  | pending
  | wait
  | fail (code : Nat)
  deriving DecidableEq, Repr

/-- A home whose stack has failed, or is held in reset in Lightship mode (R432): readiness bits 24 to 31 are the stacks'. -/
def State.stackDown (s : State) (home : Nat) : Bool := s.pkg.boot.reasons.getD (24 + home / 8) 0 != 0 && !s.isReady (24 + home / 8)

/-- A home whose stack is still starting: its accesses are answered pending (R432). -/
def State.stackStarts (s : State) (home : Nat) : Bool := s.pkg.boot.reasons.getD (24 + home / 8) 0 == 0 && !s.isReady (24 + home / 8)

/-- Run a walk at a home and act on what it finds: set A and fill; or let the first-touch unit map a frame of the pool (R101, R103). -/
def State.runWalk (s : State) (home : Nat) (asid : BitVec 14) (va : Nat) : Xl × State :=
  match s.walk asid va with
  | .fail c => (.fail c, s)
  | .pending => (.pending, s)
  | .leaf pte e large =>
    let e' := pteSet e 3
    let s := if e' = e then s else s.writePte pte e'
    let s := s.fillTlb home asid va pte e' large
    match s.tlb? home asid va with
    | some t => (.ok t false, s)
    | none => (.pending, s)
  | .touch pte e =>
    match (s.home home).pool with
    | [] => (.pending, s)
    | f :: rest =>
      let frame := home * 131072 + f
      let keep := pteSet (pteSet (pteClear (pteClear (e % 2 ^ 24) 2) 4) 0) 3
      let e' := pteSet keep 6 + frame * 16 * 2 ^ 24
      let low := decide (rest.length < (s.home home).poolLow.toNat) && decide (rest.length + 1 ≥ (s.home home).poolLow.toNat)
      let s := s.updHome home fun h => { h with pool := rest }
      let s := if (s.home home).free.isEmpty then s else s.afterOnce 64 (.zeroingStep home)
      let s := if low then s.updHost fun h => { h with lowPool := h.lowPool ++ [home] } else s
      let s := s.writePte pte e'
      let s := s.updFrame frame fun _ => ⟨3, asid, pte⟩
      let s := s.fillTlb home asid va pte e' false
      match s.tlb? home asid va with
      | some t => (.ok t true, s)
      | none => (.pending, s)

/-- Whether a miss of an engine or unit has to wait: the home walks the same page already, or it has no free walker (R219). -/
def State.walkersBusy (s : State) (home : Nat) (asid : BitVec 14) (va : Nat) : Bool :=
  let w := (s.home home).walks
  w.any (fun v => v.asid == asid && v.vpn == va / 65536) || decide (16 ≤ w.length)

/-- Translate for an engine or unit, by the cache or by a walk, which takes a walker for no longer than this step (R219, log 80). -/
def State.xlate (s : State) (asid : BitVec 14) (va : Nat) : Xl × State :=
  let home := va / 65536 % 64
  if s.stackDown home then (.fail 5, s)
  else if s.stackStarts home then (.pending, s)
  else match s.tlb? home asid va with
    | some t => (.ok t false, s.touchTlb home t)
    | none => if s.walkersBusy home asid va then (.wait, s) else s.runWalk home asid va

/-- The physical address an entry gives a virtual address. -/
def Tlb.pa (t : Tlb) (va : Nat) : Nat := t.frame * 65536 + va % 65536

/-- A write through an entry whose D is clear sets D in the leaf and in the entry first (R101). -/
def State.setDirty (s : State) (home : Nat) (t : Tlb) : State :=
  if t.d then s
  else
    let s := s.writePte t.pte (pteSet (s.readPte t.pte) 4)
    s.updHome home fun h => { h with tlb := h.tlb.map fun o => if o.pte == t.pte then { o with d := true } else o }

/-! ### Buoys and writes (R134, R213 to R216) -/

/-- The way of a notice from a home to the NI of a slot's tile (R448). -/
def hopNotice (home slot : Nat) : Nat := hopMsg (tileOf slot) home

/-- A buoy that replaces the RSV buoy of the same watcher clears its reservation (R214). -/
def State.dropRsv (s : State) (home line slot : Nat) (ctx : W32) : State :=
  if slot ≥ 32768 then s
  else s.updSlot slot fun x => match x.rsv with
    | some (_, _, h, l) => if x.mc.ctxser == ctx && h == home && l == line then { x with rsv := none } else x
    | none => x

/-- Send the notice of a write, or of the loss of a buoy, to a watcher (R215, R216). One of another package gets it under a number of its own, which comes
back when it is taken. -/
def State.sendNotice (s : State) (home ack : Nat) (b : Buoy) (loss : Bool) : State :=
  let ev := fun (n : Notice) => if loss then Event.lossNotice n else Event.buoyNotice n
  if b.slot < 32768 then s.after (hopNotice home b.slot) (ev ⟨home, b.line, b.slot, b.ctx, b.mode, b.level, ack⟩)
  else
    let pkg := b.slot / 32768 - 1
    let (id, s) := s.fresh
    (s.updNet fun n => { n with away := n.away ++ [⟨id, ack, pkg, home, b.line, loss⟩] }).post pkg
      (ev ⟨foreignHome + 1 + s.pkg.podIndex.toNat, b.line, b.slot % 32768, b.ctx, b.mode, b.level, id⟩)

/-- Place a buoy (R214), evicting the entry placed earliest from a full table (R215). -/
def State.placeBuoy (s : State) (home line slot : Nat) (ctx : W32) (mode level : Nat) : State :=
  let b := s.buoysOf home
  let age := s.buoyAgeOf home
  match b.find? fun e => e.slot == slot && e.ctx == ctx && e.line == line with
  | some e =>
    if e.mode = mode then s
    else
      let s := if e.mode = 4 then s.dropRsv home line slot ctx else s
      s.setBuoys home (b.map fun o => if o == e then { o with mode := mode, level := level } else o) age
  | none =>
    let new : Buoy := ⟨line, slot, ctx, mode, level, age⟩
    if b.length < buoyRoom home then s.setBuoys home (b ++ [new]) (age + 1)
    else match b with
      | [] => s
      | old :: rest =>
        let s := s.setBuoys home (rest ++ [new]) (age + 1)
        let s := if home < 64 then s else s.tally (home - 64) 9 1
        s.sendNotice home 0 old true

/-- Remove the buoys of a watcher on a line whose mode bit is in `modes` (R217). -/
def State.removeBuoy (s : State) (home line slot : Nat) (ctx : W32) (modes : Nat) : State :=
  s.setBuoys home ((s.buoysOf home).filter fun e => !(e.slot == slot && e.ctx == ctx && e.line == line && modes.testBit e.mode))
    (s.buoyAgeOf home)

/-- Notify every buoy on a line of a write (R216), other than those of `but`: RSV and WRS entries are removed. The number of notices that
the acknowledgement `ack` must wait for comes back. -/
def State.notify (s : State) (home line ack : Nat) (but : Option Nat) : Nat × State :=
  let hit := (s.buoysOf home).filter fun e => e.line == line && !(but == some e.slot)
  let s1 := hit.foldl (fun s e => s.sendNotice home ack e false) s
  let s2 := if hit.isEmpty then s1 else s1.setBuoys home
    ((s.buoysOf home).filter fun e => !(e.line == line && !(but == some e.slot) && (e.mode == 4 || e.mode == 5))) (s.buoyAgeOf home)
  (hit.length, s2)

/-- Perform a write at a home: the bytes are written, poison is cleared by a write of the whole line, and watchers are notified (R109,
R112, R134). -/
def State.performWrite (s : State) (home line : Nat) (key : Option (BitVec 512)) (mask : Nat) (data : List Byte) (ack : Nat)
    (but : Option Nat) : Nat × State :=
  let s := s.writeLine home line key mask data
  let s := if mask % 2 ^ 64 = fullMask then s.setPoison home line false else s
  s.notify home line ack but

/-! ### Accesses of engines and units: all checks of R110 at once -/

/-- What an access of an engine or unit meets. The codes of `fail` are a trap cause and its code. -/
inductive Acc1 (α : Type) where
  | ok (a : α)
  | pending (home page : Nat)
  | wait                       -- it waits for a walker, for its line, or for a loss notice
  | fail (cause code : Nat)
  | gone                       -- the access is one of another package
  deriving DecidableEq, Repr

/-- Where an access inside one line goes: home, offset within the home, key, and whether the page is poisoned. -/
structure Spot where
  home : Nat
  off  : Nat
  key  : Option (BitVec 512)
  poison : Bool
  deriving DecidableEq, Repr

/-- A loss notice for a line is still on its way: a write to it is performed only after that (R215). -/
def State.lossComing (s : State) (home line : Nat) : Bool :=
  (s.net.pend.any fun p => match p.ev with
    | .lossNotice n => n.home == home && n.line == line
    | _ => false) || s.net.away.any fun a => a.loss && a.home == home && a.line == line

/-- An access has to wait for its line: it is under a commit hold (R122), or a write of it waits for a loss notice (R215). -/
def State.lineWaits (s : State) (home line : Nat) (write : Bool) : Bool :=
  (s.net.holds.any fun h => h.home == home && h.line == line) || (write && s.lossComing home line)

/-- Find the spot of an access inside one line, with checks 8 to 11 of Table 4.7 (`whole` for a write of the whole line). The accesses of engines and
units are accesses at S (log 81). -/
def State.spotRaw (s : State) (tile : Nat) (asid : BitVec 14) (va : Nat) (write whole : Bool) : Acc1 Spot × State :=
  match s.classify tile asid .s va with
  | .control _ => (.fail 4 7, s)
  | .pod _ _ => (.gone, s)
  | .sram t off =>
    match s.windowFault t off asid write with
    | some c => (.fail 4 c, s)
    | none =>
      if s.poisoned (64 + t) (off / 64) && !(write && whole) then (.fail 0x12 0, s) else (.ok ⟨64 + t, off, none, false⟩, s)
  | .hbm va =>
    match s.xlate asid va with
    | (.pending, s) => (.pending (va / 65536 % 64) (va / 65536), s)
    | (.wait, s) => (.wait, s)
    | (.fail c, s) => (.fail 5 c, s)
    | (.ok t _, s) =>
      let home := t.pa va / 2 ^ 33
      let off := t.pa va % 2 ^ 33
      if write && !t.w then (.fail 4 4, s)
      else if t.poison || (s.poisoned home (off / 64) && !(write && whole)) then (.fail 0x12 0, s)
      else ((.ok ⟨home, off, s.keyMat t.key.toNat, t.poison⟩), if write then s.setDirty (va / 65536 % 64) t else s)

/-- The spot of an access that its line lets through. -/
def State.spot (s : State) (tile : Nat) (asid : BitVec 14) (va : Nat) (write whole : Bool) : Acc1 Spot × State :=
  match s.spotRaw tile asid va write whole with
  | (.ok p, t) => if s.lineWaits p.home (p.off / 64) write then (.wait, s) else (.ok p, t)
  | r => r

/-- Read `n` bytes inside one line for an engine or unit. -/
def State.vread1 (s : State) (tile : Nat) (asid : BitVec 14) (va n : Nat) : Acc1 (List Byte) × State :=
  match s.spot tile asid va false false with
  | (.ok p, s) => (.ok (s.readHome p.home p.off n p.key), s)
  | (.pending h p, s) => (.pending h p, s)
  | (.wait, s) => (.wait, s)
  | (.fail a b, s) => (.fail a b, s)
  | (.gone, s) => (.gone, s)

/-- Write bytes inside one line for an engine or unit, notifying watchers under the acknowledgement `ack`. -/
def State.vwrite1 (s : State) (tile : Nat) (asid : BitVec 14) (va : Nat) (data : List Byte) (ack : Nat) : Acc1 Nat × State :=
  let whole := va % 64 == 0 && data.length == 64
  match s.spot tile asid va true whole with
  | (.ok p, s) =>
    let r := s.performWrite p.home (p.off / 64) p.key ((2 ^ data.length - 1) * 2 ^ (p.off % 64))
      (List.replicate (p.off % 64) 0 ++ data) ack none
    (.ok r.1, r.2)
  | (.pending h p, s) => (.pending h p, s)
  | (.wait, s) => (.wait, s)
  | (.fail a b, s) => (.fail a b, s)
  | (.gone, s) => (.gone, s)

/-- Cut `n` bytes at `va` into pieces that lie in one line each: (address, length). -/
def pieces : Nat → Nat → Nat → List (Nat × Nat)
  | 0, _, _ => []
  | fuel + 1, va, n =>
    if n = 0 then []
    else
      let k := Nat.min n (64 - va % 64)
      (va, k) :: pieces fuel (va + k) (n - k)

/-- Read bytes at a virtual address, line by line, stopping at the first failure. -/
def State.vreadL (s : State) (tile : Nat) (asid : BitVec 14) : List (Nat × Nat) → List Byte → Acc1 (List Byte) × State
  | [], acc => (.ok acc, s)
  | (va, n) :: rest, acc =>
    match s.vread1 tile asid va n with
    | (.ok b, s) => s.vreadL tile asid rest (acc ++ b)
    | (.pending h p, s) => (.pending h p, s)
    | (.wait, s) => (.wait, s)
    | (.fail a b, s) => (.fail a b, s)
    | (.gone, s) => (.gone, s)

/-- Read `n` bytes at a virtual address. -/
def State.vread (s : State) (tile : Nat) (asid : BitVec 14) (va n : Nat) : Acc1 (List Byte) × State :=
  s.vreadL tile asid (pieces (n / 64 + 2) va n) []

/-- Write bytes at a virtual address, line by line, stopping at the first failure; the notices to wait for are counted. -/
def State.vwriteL (s : State) (tile : Nat) (asid : BitVec 14) (ack : Nat) : List (Nat × Nat) → List Byte → Nat → Acc1 Nat × State
  | [], _, k => (.ok k, s)
  | (va, n) :: rest, data, k =>
    match s.vwrite1 tile asid va (data.take n) ack with
    | (.ok j, s) => s.vwriteL tile asid ack rest (data.drop n) (k + j)
    | (.pending h p, s) => (.pending h p, s)
    | (.wait, s) => (.wait, s)
    | (.fail a b, s) => (.fail a b, s)
    | (.gone, s) => (.gone, s)

/-- What keeps one of several lines from being written now: a wait, or a pending page. -/
def State.blocker (s : State) (tile : Nat) (asid : BitVec 14) : List (Nat × Nat) → Option (Acc1 Nat)
  | [] => none
  | (va, n) :: rest =>
    match (s.spot tile asid va true (va % 64 == 0 && n == 64)).1 with
    | .wait => some .wait
    | .pending h p => some (.pending h p)
    | .ok _ => s.blocker tile asid rest
    | _ => none

/-- Write bytes at a virtual address: nothing is written while one of the lines waits or is pending. -/
def State.vwrite (s : State) (tile : Nat) (asid : BitVec 14) (va : Nat) (data : List Byte) (ack : Nat) : Acc1 Nat × State :=
  let l := pieces (data.length / 64 + 2) va data.length
  match s.blocker tile asid l with
  | some a => (a, s)
  | none => s.vwriteL tile asid ack l data 0

/-- Queue a fault record to the page service (R104). -/
def State.faultRecord (s : State) (home : Nat) (asid : BitVec 14) (va kind slot : Nat) (ctx : W32) : State :=
  s.updHome home fun h => { h with faults := h.faults ++ [⟨asid, va, kind, slot, ctx⟩] }

/-! ### Messages to other packages (R422, R424, R428) -/

/-- The UALink port by which a tile's requests leave for a package: (STILE + DPKG) mod 16, or the next one in service (R424). -/
def State.podPort (s : State) (unit pkg : Nat) : Option Nat :=
  ((List.range 16).map fun i => (unit % 512 + pkg + i) % 16).find? fun p => s.isReady (32 + p)

/-- A collective or CTL message leaves for the control agent of another package (R422, R428). -/
def State.postMsg (s : State) (pkg : Nat) (kind : Nat) (asid : BitVec 14) (tag : BitVec 16) (unit : Nat) (m : PodMsg) : State :=
  match s.podPort unit pkg with
  | none => s
  | some port => s.post pkg (.podRequest port {
      addr := 0, spkg := s.pkg.podIndex, stile := BitVec.ofNat 9 (if 512 ≤ unit then unit - 512 else unit), asid := asid, tag := tag,
      kind := BitVec.ofNat 4 kind, major := 0, op := 0, scu := decide (512 ≤ unit), seq := 0, acked := 0, size := 64, data := [], mask := 0, slot := 0,
      ctx := 0, limit := 0, msg := some m })

end Sys2Proof.Machine
end

