-- ==== Sys2Proof/Machine/Launch.lean ====
section
/-! DEFINITION. Items, the way of a push, and what ends tasks and launches: completion, freeze, error token, fatal fault, release of
accumulators (spec/07_worklists.md R155 to R157, R164, R174 to R178, R181, R184 to R187; spec/03_registers.md R75, R84;
spec/01_device.md R19, R24, R25; spec/08_engine_queues.md R191, R194). -/

namespace Sys2Proof

/-! ### Items and their order (R157) -/

/-- The position of an item in the item order. -/
def QItem.pos (q : QItem) : Nat := q.item.key.toNat * 2 ^ 80 + q.ident.toNat

/-- RANGE of an item: bit 80. -/
def Item.range (i : Item) : Bool := i.flags.getLsbD 0
/-- The number of identifiers an item stands for. -/
def Item.size (i : Item) : Nat := if i.range then i.count.toNat + 1 else 1
/-- The number of identifiers a queued item stands for. -/
def QItem.size (q : QItem) : Nat := q.item.size

/-- The first identifier of a range as a single item (R166). -/
def QItem.first (q : QItem) : QItem := { q with item := { q.item with flags := 0, count := 0 } }
/-- The rest of a range, its index advanced (R166): `none` where nothing is left. -/
def QItem.rest (q : QItem) : Option QItem :=
  if q.size ≤ 1 then none
  else some ⟨{ q.item with count := q.item.count - 1, work := q.item.work + 1 }, q.ident + 1⟩

/-- A push as it arrives: its way so far is counted (R30). -/
def PushMsg.hop (m : PushMsg) (now : Nat) : PushMsg := { m with path := m.path + (now - m.since), since := now }
/-- A pop as it arrives. -/
def PopMsg.hop (m : PopMsg) (now : Nat) : PopMsg := { m with path := m.path + (now - m.since), since := now }

end Sys2Proof

namespace Sys2Proof.Machine

/-- Whether a position precedes a cutoff; `none` is +∞. -/
def ahead (p : Nat) : Option Nat → Bool
  | none => true
  | some k => decide (p < k)

/-- The lesser of two cutoffs. -/
def minK : Option Nat → Option Nat → Option Nat
  | none, b => b
  | a, none => a
  | some a, some b => some (Nat.min a b)

/-- Insert into a list kept in item order. -/
def insertItem (l : List QItem) (q : QItem) : List QItem :=
  match l with
  | [] => [q]
  | a :: r => if q.pos < a.pos then q :: a :: r else a :: insertItem r q

/-! ### Lamps and tiles over the pod (R160, R169) -/

/-- The package of a lamp. -/
def lampPkg (lamp : Nat) : Nat := lamp / 4
/-- The die of a lamp. -/
def lampDie (lamp : Nat) : Nat := lamp % 4
/-- The package of a tile numbered over the pod. -/
def tilePkg (tile : Nat) : Nat := tile / 512
/-- Its number in its package. -/
def tileIx (tile : Nat) : Nat := tile % 512
/-- The pod index of this package. -/
def State.own (s : State) : Nat := s.pkg.podIndex.toNat
/-- The number of a tile of this package over the pod. -/
def State.overPod (s : State) (tile : Nat) : Nat := s.own * 512 + tile

/-! ### Worklists -/

/-- The lamp of the keeper: the lowest-numbered lamp of the mask in the home package (R159). -/
def WorkList.keeperLamp (w : WorkList) : Nat := (w.lamps.find? fun l => lampPkg l == w.home).getD (w.home * 4)
/-- The lamp a tile uses: that of its die, else the keeper's (R168, Table 7.3). -/
def WorkList.lampOf (w : WorkList) (tile : Nat) : Nat :=
  let l := tilePkg tile * 4 + dieOf (tileIx tile)
  if w.lamps.contains l then l else w.keeperLamp
/-- The front part of a lamp. -/
def WorkList.part (w : WorkList) (lamp : Nat) : List FrontItem := w.parts.getD [] lamp
/-- The front items of this package's lamps. -/
def WorkList.front (w : WorkList) : List FrontItem := w.parts.flatMap (·.2)
/-- The reserve items of a tile. -/
def WorkList.reserve (w : WorkList) (tile : Nat) : List QItem := w.heap.getD [] tile ++ (w.runs.getD [] tile).flatMap (·.items)
/-- The identifiers in the reserves of this package. -/
def WorkList.kept (w : WorkList) : Nat :=
  ((w.heap.flatMap (·.2)).map QItem.size).sum + ((w.runs.flatMap fun e => e.2.flatMap (·.items)).map QItem.size).sum

/-- The items of a worklist that are on their way between its lamps and reserves: present throughout (Table 7.4). -/
def State.midway (s : State) (wl : Nat) : Nat :=
  (s.net.pend.map fun p => match p.ev with
    | .ritem o _ _ => if o == wl then 1 else 0
    | .rpush m => if m.wl == wl && m.by_ == .keeper then m.q.size else 0
    | _ => 0).sum

/-- The number of items present (R157), as far as this package knows: at the keeper, with what the other packages have told. -/
def State.present (s : State) (wl : Nat) : Nat :=
  match s.wl? wl with
  | none => 0
  | some w => w.front.length + w.kept + s.midway wl + (w.far.map fun e => (e.2.parts.map fun p => p.2.length).sum + e.2.reserve).sum +
      (if w.home = s.own then 0 else w.told.2.2)

/-- The event of the same name as a Lantern message (Table 7.3). -/
def eventOf (wl : Nat) : WlMsg → Option Event
  | .fpush lamp m => some (.fpush lamp m)
  | .rpush m => some (.rpush m)
  | .fwd lamp m => some (.fwd lamp m)
  | .head tile pos => some (.head wl tile pos)
  | .low lamp => some (.low wl lamp)
  | .pull tile kn m v => some (.pull wl tile kn m v)
  | .ritem lamp q v => some (.ritem wl lamp ⟨q, v⟩)
  | .pack tile cap n => some (.pack wl tile ⟨cap, n⟩)
  | .demote lamp k ends moved => some (.demote wl lamp ⟨k, ends, moved⟩)
  | .cut toLamp dest k v ends => some (.cut wl toLamp dest k ⟨v, ends⟩)
  | .pop lamp m => some (.pop lamp m)
  | .popReply m ans => some (.popReply m ans)
  | .pushAnswer m status => some (.pushAnswer m status)
  | _ => none

/-- Whether a Lantern message carries an item. -/
def hasItem : WlMsg → Bool
  | .fpush .. | .rpush _ | .fwd .. | .ritem .. | .popReply _ (.item _) => true
  | .pushAnswer _ st => st == 1
  | _ => false

/-- A message of a worklist that is not listed here leaves for another package. -/
def State.postWl (s : State) (pkg wl : Nat) (asid : BitVec 14) (lid : W32) (m : WlMsg) : State :=
  s.postMsg pkg 6 asid (s.asidEnt asid).tenant 512 (.lantern wl lid m)

/-- A creator gives up what it asks for (R159): the packages it asked are told so. -/
def State.dropAsk (s : State) (by_ : Nat) (asid : BitVec 14) : State :=
  let mine := s.pkg.openings.filter fun o => o.by_ == by_
  let s := s.updPkg fun p => { p with openings := p.openings.filter fun o => o.by_ != by_ }
  mine.foldl (fun (s : State) o => (o.left ++ o.taken).foldl (fun (s : State) p => s.postWl p o.wl asid 0 (.close false)) s) s

/-- Send a Lantern message of a worklist to a package: within this one it arrives after `delay` cycles; to another it leaves as a CTL write (R169). -/
def State.lantern (s : State) (pkg delay wl : Nat) (m : WlMsg) : State :=
  if pkg = s.own then (match eventOf wl m with | some e => s.after delay e | none => s)
  else match s.wl? wl with
    | none => s
    | some w =>
      let s := if hasItem m then s.updWl wl fun w => { w with sent := w.sent.set pkg (w.sent.getD 0 pkg + 1) } else s
      s.postWl pkg wl w.asid (BitVec.ofNat 32 w.launch) m

/-- Put a push on its way by the pushing tile's copy of K: FPUSH to a lamp, or RPUSH to its own reserve (Table 7.3). -/
def State.sendPush (s : State) (m : PushMsg) : State :=
  match s.wl? m.wl with
  | none => s
  | some w =>
    let t := tileIx m.tile
    let kv := w.tileK.getD (none, 0) t
    let lamp := w.lampOf m.tile
    let m := { m with v := kv.2, stage := .new, since := s.now }
    if ahead m.q.pos kv.1 then s.lantern (lampPkg lamp) (hopDie t (lampDie lamp)) m.wl (.fpush lamp m) else s.after (hopTile t t) (.rpush m)

/-- Whether an event carries an item of a worklist that is present, held for its re-push, or popped and not yet delivered. -/
def carries (w : Nat) : Event → Bool
  | .fpush _ m | .rpush m | .fwd _ m => m.wl == w && (match m.by_ with | .wlpsh .. => false | _ => true)
  | .ritem wl _ _ => wl == w
  | .popReply m (.item _) => m.wl == w
  | .pushAnswer m st => st == 1 && m.wl == w && (match m.by_ with | .again | .wlret .. => true | _ => false)
  | _ => false

/-- The items of a worklist that are prefetched or held in this package or on their way in it, and the messages that wait for its keeper. -/
def State.wlBusy (s : State) (w : Nat) : Nat :=
  (s.tiles.map fun e => (e.2.prefetched.filter fun p => p.1 == w).length).sum +
  (s.tasks.map fun e => (e.2.held.toList.filter fun h => match h with | some h => h.wl == w | none => false).length).sum +
  (s.net.pend.filter fun p => carries w p.ev).length +
  (match s.wl? w with | some l => (l.inbox.filter fun e => carries w e).length + (if l.op.isSome then 1 else 0) | none => 0)

/-- Whether every message with an item that a package has sent to another has been had there, by what the two have told. -/
def WorkList.allHad (w : WorkList) : Bool :=
  let sent := fun (a b : Nat) => if a = w.home then w.sent.getD 0 b else (((w.far.get? a).map (·.sent)).getD []).lookup b |>.getD 0
  let got := fun (a b : Nat) => if a = w.home then w.got.getD 0 b else (((w.far.get? a).map (·.got)).getD []).lookup b |>.getD 0
  w.pkgs.all fun a => w.pkgs.all fun b => a == b || sent a b == got b a

/-- No item of a worklist is present, prefetched, held or on its way (Table 7.8), in any package it spans. -/
def State.wlIdle (s : State) (w : Nat) : Bool :=
  (match s.wl? w with
   | some l => l.front.isEmpty && l.kept == 0 && l.allHad &&
       l.far.all fun e => e.2.busy == 0 && e.2.reserve == 0 && e.2.parts.all fun p => p.2.isEmpty
   | none => true) && s.wlBusy w == 0

/-! ### Tasks: what is left of one that ends or leaves its tile -/

/-- Re-push the held items of a task with their keys and identities (R24, R181); those of a closed worklist are discarded (R185). -/
def State.repushHeld (s : State) (tid : W64) (tile : Nat) : State :=
  let held := (s.task tid).held.toList
  let s := s.updTask tid fun t => { t with held := .replicate 5 none }
  held.foldl (fun s h =>
    match h with
    | none => s
    | some h =>
      match s.wl? h.wl with
      | some w => if w.closed then s else s.sendPush ⟨h.wl, h.q, 0, s.overPod tile, .again, .new, none, 0, 0⟩
      | none => s) s

/-- Release every accumulator tagged with a TID: it is zeroed and free (R84). -/
def State.releaseAccs (s : State) (tid : W64) : State :=
  { s with cores := s.cores.map fun e =>
      (e.1, { e.2 with accs := e.2.accs.map fun a =>
        match a.owner with
        | some (_, _, t) => if t = tid then Acc.free else a
        | none => a }) }

/-- Whether a matrix command of the task has started and not completed (R84). -/
def State.matrixRuns (s : State) (core : Nat) (tid : W64) : Bool := (s.core core).run0.any fun r => r.cmd.tid == tid

/-- A queue of engine commands without those of a task that have not started; `on`: its head has. -/
def dropCmds (on : Bool) (tid : W64) (q : List ECmd) : List ECmd :=
  if on then q.take 1 ++ (q.drop 1).filter fun c => c.tid != tid else q.filter fun c => c.tid != tid

/-- Discard the engine commands of a task that have not started: those of q0, q2 and q4 (R84, R212). -/
def State.dropQueues (s : State) (tid : W64) : State :=
  { s with
    cores := s.cores.map fun (e : Nat × Core) => (e.1, { e.2 with
      q0 := e.2.q0.filter fun m => m.tid != tid
      q2 := dropCmds e.2.run2.isSome tid e.2.q2
      q4 := dropCmds e.2.join4.isSome tid e.2.q4 })
    tiles := s.tiles.map fun (e : Nat × Tile) => (e.1, { e.2 with latches := e.2.latches.filter fun l => l.on || l.cmd.tid != tid }) }

/-- The receive ends of a task are released: the send ends that name it see that their receiver has ended (R194). -/
def State.endChannels (s : State) (tid : W64) : State :=
  { s with tasks := s.tasks.map fun e =>
      (e.1, { e.2 with chans := e.2.chans.map fun c =>
        match c with
        | some c => if c.send && c.peer == tid then some { c with gone := true } else some c
        | none => none }) }

/-- Forget a task that has ended: completion words, channel ends, arrival records and its own receive ends are released (R191, R194, R363). -/
def State.forgetTask (s : State) (tid : W64) : State :=
  let s := s.endChannels tid
  { s with tasks := s.tasks.del tid.toNat }

/-- Leave a slot free. Its commit count, push sequence, serial and context serial stay (R142, R156, R18, R80). -/
def Slot.freed (x : Slot) : Slot :=
  { x with
    status := .free, busy := [], ops := [], fails := [], inwin := false, skip := (0, 0), hold := .none, frame := none,
    spec := Spec.none, rsv := none, occurred := false, refuse := false, stopReq := .none, ending := false, leaving := false,
    yld := false, forfeit := 0 }

/-- The requests of the placement in focus that are parked in other packages are withdrawn there (R81, R96). -/
def State.recallParked (s : State) : State :=
  (s.net.reqs.filter fun e => s.mine e.2 && e.2.stage == .park).foldl (fun s e => match e.2.cls with
    | .pod pkg _ => s.postMsg pkg 6 e.2.asid e.2.tenant s.myTile (.withdraw e.2.seqNo)
    | _ => s) s

/-- Withdraw the requests of the placement in focus that are parked, pending or watching, and the pop it waits with: they have had no effect
(R81). -/
def State.withdraw (s : State) : State :=
  let gone := fun (r : Req) => s.mine r && (r.stage == .park || r.stage == .page || r.stage == .wake || r.stage == .watch)
  let s := (s.net.reqs.filter fun e => gone e.2 && e.2.stage == .watch).foldl
    (fun s e => s.sendRelease s.curId s.cur.mc.ctxser e.2.home e.2.line 5) s.recallParked
  { s with
    net := { s.net with reqs := s.net.reqs.filter fun e => !gone e.2 }
    pkg := { s.pkg with wls := s.pkg.wls.map fun e =>
      (e.1, { e.2 with waiters := e.2.waiters.filter fun m => match m.by_ with
        | .task _ slot ctx _ => !(slot == s.curId && ctx == s.cur.mc.ctxser)
        | .tile => true }) } }

/-! ### Launches -/

/-- Final states (R174). -/
def LState.final : LState → Bool
  | .completed | .faulted | .hung | .cancelled => true
  | _ => false

/-- A worklist is closed in this package (R176): the pops that wait are answered CLOSED, and saved tasks that wait on it can go on (R168). -/
def State.closeWl (s : State) (wl : Nat) : State :=
  match s.wl? wl with
  | none => s
  | some w =>
    let s := s.updWl wl fun w => { w with closed := true, waiters := [], inbox := [], op := none }
    let s := w.waiters.foldl (fun s m =>
      s.after (hopDie (tileIx m.tile) (lampDie (w.lampOf m.tile))) (.popReply { m with since := s.now } .closed)) s
    let s := (w.inbox ++ (w.op.bind (·.next)).toList).foldl (fun s e => s.after 0 e) s
    s.updRecs (fun r => r.slot.status == .blocked (.worklist wl) && r.slot.sc.asid == w.asid) fun r =>
      { r with ready := true, slot := { r.slot with occurred := true } }

/-- A launch of this package reaches a final state: its worklist is closed in every package it spans and waiting pops are answered, its reserved slots
and level instances are freed, and its record waits to be written (R174, R176, R177, R168). -/
def State.finishLaunch (s : State) (l : Launch) (st : LState) (reason : Nat) (frozen : Bool) : State :=
  let s := s.updLaunch l.key fun l => { l with st := st, reason := reason, fin := s.now }
  let s := match s.wl? l.h.wlid with
    | some w => if w.launch = l.key then
        ((w.pkgs.filter (· != s.own)).foldl (fun (s : State) p => s.lantern p 0 l.h.wlid (.close frozen)) s).closeWl l.h.wlid
      else s
    | none => s
  let s := { s with
    tiles := s.tiles.map fun (e : Nat × Tile) => (e.1, { e.2 with reserved := e.2.reserved.filter fun r => r.2 != l.key })
    dies := s.dies.map fun (e : Nat × Die) => (e.1, { e.2 with bars := e.2.bars.filter fun b =>
      !(b.key.gkey != 0 && b.key.gkey.extractLsb' 0 32 == l.id) }) }
  let s := s.updCtx l.h.asid fun c => { c with waiting := c.waiting ++ [l.id] }
  s.after 1 (.launchRecordWrite l.h.asid)

/-- End a task that holds no slot: a Saved or Moving task's record is discarded, its buoys are released and its engine commands that have not started
are discarded (R19, R185, R212, R217). -/
def State.endSaved (s : State) (tid : W64) (tile : Nat) : State :=
  let s := (s.tiles.flatMap fun e => (e.2.recs.map (·.2)).filter fun r => r.tid == tid).foldl (fun (s : State) r =>
    r.slot.spec.watch.foldl (fun s w => s.sendRelease r.from_ r.ctx w.home w.line w.mode) s) s
  let s := s.repushHeld tid tile
  let s := (s.releaseAccs tid).dropQueues tid
  let s := s.forgetTask tid
  { s with
    tiles := s.tiles.map fun e => (e.1, { e.2 with recs := e.2.recs.filter fun r => r.2.tid != tid })
    net := { s.net with moving := s.net.moving.filter fun m => m.tid != tid } }

/-- Stop every task of a launch in this package (R185): a slot that holds one leaves it at its next instruction boundary and its waiting engine commands
are discarded; a Saved or Moving task ends at once. A task that is being saved leaves its slot with the save. -/
def State.stopTasks (s : State) (key : Nat) : State :=
  let mine := s.tasks.filter fun e => e.2.launch == key
  mine.foldl (fun s e =>
    let tid := BitVec.ofNat 64 e.1
    match e.2.place with
    | .slot k =>
      if (s.slot k).status == .saving then
        let s := s.endSaved tid (tileOf k)
        s.updSlot k Slot.freed
      else (s.dropQueues tid).updSlot k fun x => { x with ending := true }
    | .saved t _ => s.endSaved tid t
    | .moving => s.endSaved tid (((s.net.moving.find? fun m => m.tid == tid).map (·.tile)).getD 0)
    | .ended => s) s

/-- Discard every item of a worklist (R185): present, prefetched and held. Statistics stay. -/
def State.discardItems (s : State) (w : Nat) : State :=
  let s := s.updWl w fun l => { l with
    parts := [], heap := [], runs := [], heads := [], pull := none
    far := l.far.map fun (e : Nat × WlNews) => (e.1, { e.2 with parts := [], reserve := 0, busy := 0 }) }
  { s with
    tiles := s.tiles.map fun e => (e.1, { e.2 with prefetched := e.2.prefetched.filter fun p => p.1 != w, asking := e.2.asking.filter (· != w) })
    tasks := s.tasks.map fun e => (e.1, { e.2 with held := e.2.held.map fun h => match h with
      | some h => if h.wl = w then none else some h
      | none => none }) }

/-- Freeze or cancel one launch of this package (R185). A launch in a final state is not changed. -/
def State.stopLaunch (s : State) (id : W32) (st : LState) (reason : Nat) : State :=
  match s.launch? id.toNat with
  | none => s
  | some l => if l.st.final then s else ((s.discardItems l.h.wlid).finishLaunch l st reason true).stopTasks id.toNat

/-- The error token (R186): every launch that names one of `ids` as a predecessor is cancelled, and on along the graph. -/
def State.token : Nat → List W32 → State → State
  | 0, _, s => s
  | n + 1, ids, s =>
    let succ := ((s.pkg.launches.filter fun e => e.2.away.isNone && !e.2.st.final && e.2.h.preds.any fun p => ids.contains p)).map (·.2.id)
    if succ.isEmpty then s
    else State.token n succ (succ.foldl (fun s i => s.stopLaunch i .cancelled 5) s)

/-- Freeze, cancel or abort a launch, with the error token (R184 to R186). A freeze of a launch of another package is made there, by its keeper. -/
def State.freeze (s : State) (key : Nat) (st : LState) (reason : Nat) : State :=
  match s.launch? key with
  | none => s
  | some l =>
    if l.st.final then s
    else match l.away with
      | some p => s.lantern p 0 l.h.wlid (.freeze (reason == 3))
      | none => State.token s.pkg.launches.length [l.id] (s.stopLaunch l.id st reason)

/-- A worklist that another package keeps is closed here (R176); a freeze discards its items and stops its tasks here (R185). -/
def State.closeHere (s : State) (wl : Nat) (frozen : Bool) : State :=
  match s.wl? wl with
  | none => s
  | some w =>
    let s := s.updLaunch w.launch fun l => { l with st := if frozen then .cancelled else .completed }
    if frozen then ((s.discardItems wl).closeWl wl).stopTasks w.launch else s.closeWl wl

/-- Let the launches that wait for predecessors go on where these allow it (Table 7.8). -/
def State.wakeWaiting (s : State) : State :=
  (s.pkg.launches.filter fun e => e.2.away.isNone && e.2.st == .waiting).foldl (fun s e =>
    let st := e.2.h.preds.map fun p => (s.launch? p.toNat).map (·.st)
    if st.all fun o => o == some .triggered || o == some .completed then
      s.after 1 (if (e.2.h.cosched || e.2.h.persist) && !e.2.admitted then .coschedAdmission e.2.id else .launchStart e.2.id)
    else s) s

/-- The tasks of a launch that have been dispatched, have triggered or ended, and are alive, in every package its worklist spans. -/
def State.taskCounts (s : State) (l : Launch) : Nat × Nat × Nat :=
  let far : List WlNews := match s.wl? l.h.wlid with
    | some w => if w.launch = l.key then w.far.map (·.2) else []
    | none => []
  (l.dispatched + (far.map (·.dispatched)).sum, l.triggers + (far.map (·.triggers)).sum, l.alive + (far.map (·.alive)).sum)

/-- Test the conditions of Table 7.8 (R174, R175). A PERSIST launch does not leave Running here, and a launch of another package is tested there. -/
def State.checkLaunch (s : State) (key : Nat) : State :=
  match s.launch? key with
  | none => s
  | some l =>
    if l.away.isNone && (l.st == .running || l.st == .triggered) && l.pushed && !l.h.persist && s.wlIdle l.h.wlid then
      let n := s.taskCounts l
      if n.2.2 = 0 then (s.finishLaunch l .completed 0 false).wakeWaiting
      else if l.st == .running && n.2.1 == n.1 then
        (s.updLaunch key fun l => { l with st := .triggered }).wakeWaiting
      else s
    else s

/-- Test them for the launch of a worklist: an item of it has been accepted or popped. -/
def State.checkWl (s : State) (wl : Nat) : State :=
  match s.wl? wl with
  | some w => s.checkLaunch w.launch
  | none => s

/-- A task ends: its launch counts it, and the launches whose items it has accepted are tested too (R174, R175, R181). -/
def State.countEnd (s : State) (key : Nat) (trig : Bool) (accepted : List Nat) : State :=
  let s := (s.updLaunch key fun l => { l with alive := l.alive - 1, triggers := if trig then l.triggers else l.triggers + 1 }).checkLaunch key
  accepted.foldl State.checkWl s

/-- End the task of the slot in focus, with its held items accepted (`accept`, at END) or re-pushed, its speculation ended, its accumulators
released and its slot free (R24, R84, R152, R363). -/
def State.endNow (s : State) (accept : Bool) : State :=
  let tid := s.cur.u.tid
  let launch := s.cur.lkey
  let trig := (s.task tid).trig
  let held := if accept then (s.task tid).held.toList.filterMap fun h => h.map (·.wl) else []
  let s := s.settleSpec
  let s := s.releaseWatch fun _ => true
  let s := s.withdraw.dropAsk s.curId s.cur.sc.asid
  let s := if accept then s else s.repushHeld tid s.myTile
  let s := s.releaseAccs tid
  let s := s.forgetTask tid
  ((s.updCur Slot.freed).countEnd launch trig held.dedup).afterOnce 1 (.dispatch s.curId)

/-- End the task of the slot in focus as soon as no started matrix command of it runs and no commit of it is being applied (R84, R146). -/
def State.endSoon (s : State) : State :=
  if s.matrixRuns (coreOf s.curId) s.cur.u.tid || s.cur.spec.commit == .applying then s.updCur fun x => { x with ending := true, status := .stopped }
  else s.endNow false

/-- A fatal fault of the task in focus (R75, R84, R184, R212): the slot stops, the task's waiting engine commands are discarded, the worklist of its
launch freezes, and the task ends. -/
def State.fatalFault (s : State) : State :=
  let s := s.updCur fun x => { x with status := .stopped, hold := .none, frame := none }
  let s := s.dropQueues s.cur.u.tid
  let s := s.freeze s.cur.lkey .faulted 1
  s.endSoon

end Sys2Proof.Machine
end

