-- ==== Sys2Proof/Machine/Ops.lean ====
section
/-! DEFINITION. Issue: what lets an instruction issue, how it retires, taking a trap and returning from one, and long-latency operations
(spec/03_registers.md R64 to R77, R79; spec/05_ordering.md Table 5.1; spec/06_speculation.md R137, R145, R147, R149, R151;
spec/23 R441, R444). -/

namespace Sys2Proof.Machine

/-! ### Trap causes (Table 3.9) and transaction abort causes (Table 3.5) -/

abbrev causeIllegal := 0x01
abbrev causeFetchBounds := 0x02
abbrev causeAddr := 0x03
abbrev causeProt := 0x04
abbrev causeXlate := 0x05
abbrev causeAlign := 0x06
abbrev causeFmt := 0x07
abbrev causeWindow := 0x08
abbrev causeFrame := 0x09
abbrev causeFeRetry := 0x0A
abbrev causeAccOwner := 0x0B
abbrev causeSpMeta := 0x0C
abbrev causeTxNest := 0x0D
abbrev causePriv := 0x0E
abbrev causeTrap := 0x0F
abbrev causeBrk := 0x10
abbrev causeTenant := 0x11
abbrev causePoison := 0x12
abbrev causePisteScope := 0x13
abbrev causeQueue := 0x14
abbrev causeWl := 0x15
abbrev txConflict := 1
abbrev txCapacityW := 2
abbrev txCapacityR := 3
abbrev txExplicit := 4
abbrev txIllegal := 5
abbrev txPreempt := 6
abbrev txFault := 7

/-- Levels as R72 encodes them. -/
def Level.num : Level → Nat
  | .u => 0
  | .s => 1
  | .m => 2

/-- A level from its code; code 3 is unused (R72). -/
def Level.ofNum : Nat → Level
  | 0 => .u
  | 1 => .s
  | _ => .m

/-! ### Taking a trap and returning from one (R74 to R77) -/

/-- A cause register (Table 3.5): CAUSE [7:0], CODE [22:8], INWIN [23], DONE [38:24]. DEDUCED (log 17). -/
def causeWord (cause code : Nat) (inwin : Bool) (done : BitVec 15) : BitVec 39 :=
  done ++ BitVec.ofBool inwin ++ BitVec.ofNat 15 code ++ BitVec.ofNat 8 cause

/-- TakeTrap (R74) of the slot in focus, for the instruction at `at_`; every issued instruction has completed or failed. A trap with STVEC zero,
and one at M while MSTATUS.INTRAP is set, is a fatal fault (R75). A trap clears the reservation (Table 6.4). -/
def State.takeTrap (s : State) (cause code : Nat) (xaddr : W64) (at_ : Addr) : State :=
  let x := s.cur
  let cz := causeWord cause code x.inwin (doneMask x at_)
  let s := s.clearRsv
  let base := { s.cur with
    fails := [], inwin := false, skip := (0, 0), hold := .none, status := .ready, wait := s.now + 1,
    spec := { s.cur.spec with ended := s.cur.sc.piste } }
  if x.level == .m || x.mc.mdeleg.getLsbD cause || (x.level == .s && x.sc.intrap) then
    if x.level == .m && x.mc.intrap then s.fatalFault
    else
      { s with cur := { base with
          mc := { base.mc with mepc := at_, mxaddr := xaddr, mpp := BitVec.ofNat 2 x.level.num, mcause := cz, intrap := true }
          level := .m
          pc := base.mc.mtvec } }
  else if x.sc.stvec = 0 then s.fatalFault
  else
    { s with cur := { base with
        sc := { base.sc with sepc := at_, sxaddr := xaddr, spp := BitVec.ofNat 1 x.level.num, scause := cz, intrap := true }
        level := .s
        pc := base.sc.stvec } }

/-- The first address from `a` on that the replay does not skip. -/
def skipTo (sk : Addr × BitVec 15) : Nat → Addr → Addr
  | 0, a => a
  | n + 1, a => if skipped sk a then skipTo sk n (a + 4) else a

/-- ERET at S or M (R76): level and pc come back, INTRAP is cleared, and the positions of DONE will be skipped. -/
def Slot.eret (x : Slot) : Slot :=
  let y := { x with hold := .none }
  if x.level == .m then
    { y with level := .ofNum x.mc.mpp.toNat, pc := x.mc.mepc, skip := (x.mc.mepc, x.mc.mcause.extractLsb' 24 15),
             mc := { x.mc with intrap := false } }
  else
    { y with level := .ofNum x.sc.spp.toNat, pc := x.sc.sepc, skip := (x.sc.sepc, x.sc.scause.extractLsb' 24 15),
             sc := { x.sc with intrap := false } }

/-- The trap of instructions that had issued (R73, R74): when none of the slot is incomplete, the earliest failure in program order is taken.
A glider holds at the failing instruction, which issues again when the barrier has completed (R145); a chunk ends there, short of any limit, and the
instruction is executed at the turn (R149). -/
def State.trapIfSettled (s : State) : State :=
  let x := s.cur
  if !x.ops.isEmpty then s
  else match x.fails with
    | [] => s
    | f0 :: rest =>
      let f := rest.foldl (fun m f => if f.1.toNat < m.1.toNat then f else m) f0
      let back := { x with pc := f.1, skip := (f.1, doneMask x f.1), fails := [], inwin := false }
      match x.specMode with
      | .glide => { s with cur := { back with spec := { x.spec with stalled := true } } }
      | .chunk => { s with cur := { back with spec := { x.spec with ended := true, count := 0 } } }
      | _ => s.takeTrap f.2.2.cause f.2.2.code f.2.2.xaddr f.1

/-- Whether the slot in focus is in a transaction, be it within a Piste chunk. -/
def Slot.inTx (x : Slot) : Bool := x.specMode == .tx || (x.specMode == .chunk && decide (0 < x.spec.depth))

/-- An issued instruction at `at_` fails a check (R73, R137, R145, R149): a transaction aborts with FAULT; otherwise the failure waits until every
issued instruction has completed or failed. -/
def State.failAt (s : State) (at_ : Addr) (word : W32) (f : Failure) : State :=
  if s.cur.inTx then s.txAbort txFault f.cause
  else
    (s.updCur fun x => { x with
      inwin := if x.fails.isEmpty then !x.ops.isEmpty else x.inwin
      fails := x.fails ++ [(at_, word, f)] }).trapIfSettled

/-- The instruction at the pc would trap as it issues: it has no effect (R73). A transaction aborts with FAULT, a glider stalls, a chunk ends
(R137, R145, R149). -/
def State.issueTrap (s : State) (word : W32) (cause code : Nat) (xaddr : W64) : State :=
  if s.cur.inTx then s.txAbort txFault cause
  else match s.cur.specMode with
    | .glide => s.updCur fun x => { x with spec := { x.spec with stalled := true }, hold := .none }
    | .chunk => s.updCur fun x => { x with spec := { x.spec with ended := true }, hold := .none }
    | _ => (s.updCur fun x => { x with hold := .none }).failAt s.cur.pc word ⟨0, cause, code, xaddr⟩

/-! ### Debug stops (R444) -/

/-- A debug stop at an instruction boundary: a transaction aborts with FAULT and CODE 0x10, a glider goes back to its BARG and stops when it is next
Ready, a Piste chunk ends and the stop is taken at the turn. -/
def State.takeStop (s : State) : State :=
  match s.cur.specMode with
  | .tx => (s.txAbort txFault 0x10).updCur fun x => { x with status := .stopped, stopReq := .none }
  | .glide => (s.updCur fun x => { x with stopReq := .stop }).glideBack
  | .chunk => s.updCur fun x => { x with stopReq := .stop, spec := { x.spec with ended := true } }
  | .none => s.updCur fun x => { x with status := .stopped, stopReq := .none }

/-- Whether a breakpoint names the next instruction of the slot in focus. -/
def State.atBreakpoint (s : State) : Bool :=
  let x := s.cur
  x.frame.isNone && (x.stopReq == .none || x.stopReq == .stop) &&
    s.pkg.brks.any fun e => e.2.asid == x.sc.asid && e.2.addr == x.pc && (e.2.tid == 0 || e.2.tid == x.u.tid)

/-! ### CanIssue (R65) and the row of Table 6.3 -/

/-- The answer to whether an instruction issues. -/
inductive Verdict where
  | stall
  | stop
  | trap (cause code : Nat) (xaddr : W64)
  | abort (cause code : Nat)
  | hold                       -- a glider holds at it until its barrier completes
  | endChunk
  | go
  deriving DecidableEq, Repr

/-- The name of a register in SCAUSE.CODE of a WINDOW trap (R69). -/
def RegRef.code : RegRef → Nat
  | .g r => r.toNat
  | .v r => 32 + r.toNat
  | .p r => 64 + r.toNat
  | .q r => 96 + r.toNat
  | .m r => 128 + r.toNat

/-- g0 and p0 are constants and await nothing (R57). DEDUCED (log 29). -/
def RegRef.constant : RegRef → Bool
  | .g r => r == 0
  | .p r => r == 0
  | _ => false

/-- The first register an instruction names that is the destination of an incomplete long-latency instruction (R69). -/
def Slot.conflict (x : Slot) (names : List RegRef) : Option RegRef :=
  names.find? fun r => !r.constant && x.ops.any fun o => o.dests.contains r

/-- A register the instruction names awaits a fixed-latency result (R66). -/
def Slot.awaits (x : Slot) (names : List RegRef) (now : Nat) : Bool :=
  x.busy.any fun b => decide (now < b.2) && !b.1.constant && names.contains b.1

/-- The lookahead rules (R68): the next instruction lies in every window in force. -/
def Slot.inWindows (x : Slot) : Bool :=
  x.ops.all fun o => decide (o.pc.toNat < x.pc.toNat ∧ x.pc.toNat ≤ o.pc.toNat + 4 * o.la)

/-- The issue condition of Table 5.1. -/
def Slot.orderOk (x : Slot) (k : Kind) : Bool :=
  let open_ := fun (o : OpKind) => x.ops.any fun p => p.kind == o
  match k with
  | .none => true
  | .ordinary | .acquiring | .ordinaryIssue => !open_ .ordinary && !open_ .acquiring && !open_ .relaxed
  | .relaxed => !open_ .acquiring && decide ((x.ops.filter fun p => p.kind == .relaxed).length < 8)
  | .update => !open_ .acquiring

/-- Words a completion queue of the task in focus holds or will hold, and its depth (R190). -/
def State.completionRoom (s : State) (q : Nat) : Bool :=
  let t := s.task s.myTid
  if q = 0 then decide (t.out1 + t.q1.length < 16)
  else if q = 2 then decide (t.out3 + t.q3.length < 16)
  else decide (t.out5 + t.q5.length < 8)

/-- Room in the core's command queue and in the completion queue (R189, R190). -/
def State.queueRoom (s : State) (q : Nat) : Bool :=
  let c := s.core (coreOf s.curId)
  (if q = 0 then decide (c.q0.length < 8) else if q = 2 then decide (c.q2.length < 8) else decide (c.q4.length < 4)) && s.completionRoom q

/-- How Table 6.3 meets an instruction of a class in the speculative state of the slot in focus. Classes of address are judged with the access. -/
def Slot.specRow (x : Slot) (c : SpecCls) (cause : Nat) : Verdict :=
  if x.specMode == .none then .go
  else if x.inTx then
    match c with
    | .plain | .mem | .csrFp | .fence | .fenceAcq | .tx | .txb => .go
    | .trapi => .abort txFault cause
    | _ => .abort txIllegal 0
  else if x.specMode == .glide then
    match c with
    | .plain | .mem | .csrFp | .fenceAcq => .go
    | _ => .hold
  else
    match c with
    | .plain | .mem | .csrFp | .rupd | .tx => .go
    | .txb => if x.spec.count = 0 then .go else .endChunk
    | _ => .endChunk

/-- In each block of 64 cycles the first DUTY cycles issue nothing (R441). -/
def State.throttled (s : State) : Bool := decide (s.now % 64 < s.pkg.duty.toNat)

/-- The slot in focus is Ready and nothing outside the instruction keeps it from issuing. -/
def State.mayIssue (s : State) : Bool :=
  let x := s.cur
  x.status == .ready && x.hold == .none && x.fails.isEmpty && decide (x.wait ≤ s.now) && !s.pkg.halted && !s.throttled &&
    (s.core (coreOf s.curId)).align.isNone && !x.spec.stalled && !x.spec.ended && x.spec.commit != .holding &&
    !(x.ending && x.frame.isNone) && !(x.stopReq == .stop && x.frame.isNone) && !(x.leaving && x.level == .u && x.frame.isNone)

/-- CanIssue (R65) for an instruction at the slot in focus, with the traps that precede its own effect: PRIV (R72), an unassigned CSR (R60), WINDOW (R69), and
then the row of Table 6.3. That PRIV, ILLEGAL and WINDOW come before that row inside a transaction (R151) is a DESIGN CHOICE (log 97). -/
def State.permits (s : State) (i : Instr) : Verdict :=
  let x := s.cur
  let f := infoOf i
  let w : W64 := (encode i).setWidth 64
  if !s.mayIssue || !x.inWindows then .stall
  else if (f.serial || s.atBreakpoint) && !x.ops.isEmpty then .stall
  else if s.atBreakpoint then .stop
  else if x.level.num < f.level.num then .trap causePriv 0 w
  else if (match f.csr with | some n => !csrAssigned n | none => false) then .trap causeIllegal 6 w
  else match x.conflict f.names with
    | some r => .trap causeWindow r.code w
    | none =>
      if x.awaits f.names s.now then .stall
      else if (f.csr == some 1 || f.csr == some 2) && x.busy.any (fun b => decide (s.now < b.2)) then .stall
      else if !x.orderOk f.kind then .stall
      else if (match f.push with | some q => !s.queueRoom q | none => false) then .stall
      else x.specRow f.cls (match i with | .trap _ => causeTrap | _ => causeBrk)

/-! ### Retirement and the next address (R64, R71, R76, R147) -/

/-- An instruction retires: RETIRED and the counter of code 3 (R64, R233). -/
def State.retire (s : State) : State :=
  (s.updCur fun x => { x with u := { x.u with retired := x.u.retired + 1 } }).tally s.myTile 3 1

/-- The slot spends an issue turn: TURNS and the counter of code 2 (R64, R233). A RUN has passed its breakpoint, and a STEP stops again. Outside a chunk a Piste slot
issues one instruction at its turn (R149). -/
def State.charge (s : State) : State :=
  (s.updCur fun x => { x with
    spec := { x.spec with ended := x.spec.ended || (x.sc.piste && x.spec.mode == .none) }
    u := { x.u with turns := x.u.turns + 1 }, stopReq := if x.stopReq == .run then .none else if x.stopReq == .step then .stop else x.stopReq }).tally s.myTile 2 1

/-- CHUNKLEN as it acts: values below 64 act as 64 (Table 3.5). -/
def Pkg.chunkLimit (p : Pkg) : Nat := Nat.max p.chunklen.toNat 64

/-- An instruction of a chunk has issued: a chunk of CHUNKLEN instructions ends, but not within a frame nor within a transaction
(R147, R149, R297). -/
def Slot.countChunk (x : Slot) (limit : Nat) : Slot :=
  if x.spec.mode == .chunk then
    let n := x.spec.count + 1
    { x with spec := { x.spec with count := n
                                   ended := x.spec.ended || (decide (limit ≤ n) && x.frame.isNone && decide (x.spec.depth = 0)) } }
  else x

/-- Go on to the next address, or to the next place in the running frame (R71, R76, R296). -/
def Slot.step (x : Slot) : Slot :=
  match x.frame with
  | none => { x with pc := skipTo x.skip 16 (x.pc + 4), hold := .none }
  | some f =>
    if f.idx + 1 < f.body.length then { x with frame := some { f with idx := f.idx + 1 }, hold := .none }
    else if f.pass + 1 < f.cnt then { x with frame := some { f with idx := 0, pass := f.pass + 1 }, hold := .none }
    else { x with frame := none, pc := skipTo x.skip 16 f.next, hold := .none }

/-- After an instruction has issued in sequence. A notice that came during a frame acts when the frame has ended (R297). -/
def State.advance (s : State) : State :=
  let was := s.cur.frame.isSome
  let s := s.updCur fun x => x.step.countChunk s.pkg.chunkLimit
  if was && s.cur.frame.isNone then s.settleUndo else s

/-- A taken transfer (R287): its target may issue in the second cycle after it. -/
def State.jump (s : State) (t : Addr) : State :=
  s.updCur fun x => ({ x with pc := t, hold := .none, skip := (0, 0), wait := s.now + 2 } : Slot).countChunk s.pkg.chunkLimit

/-! ### Instructions -/

/-- What an instruction does once it may issue: it retires in sequence; it transfers control and retires; it has issued as a long-latency
instruction; it holds issue; it has set everything itself; it traps, be it after a change of state; it cannot issue yet. -/
inductive Act where
  | next (s : State)
  | jump (s : State) (t : Addr)
  | long (s : State)
  | hold (s : State) (h : Hold)
  | done (s : State)
  | trap (cause code : Nat) (xaddr : W64)
  | trapIn (s : State) (cause code : Nat) (xaddr : W64)
  | abort (cause code : Nat)
  | spec                         -- what Table 6.3 says of it in a glide or a chunk: hold, or end the chunk
  | stall

/-- A glider holds at its next instruction, or a chunk ends before it (R145, R147). -/
def State.specStop (s : State) : State :=
  match s.cur.specMode with
  | .glide => s.updCur fun x => { x with spec := { x.spec with stalled := true }, hold := .none }
  | .chunk => s.updCur fun x => { x with spec := { x.spec with ended := true }, hold := .none }
  | _ => s

/-- The state after an instruction's act; `s0` is the state before it, `s1` the state with its turn spent. -/
def State.conclude (s0 s1 : State) (word : W32) (a : Act) : State :=
  match a with
  | .next s => s.retire.advance
  | .jump s t => s.retire.jump t
  | .long s => s.advance
  | .hold s h => s.updCur fun x => { x with hold := h, word := word, asked := match h with | .answer _ => s.now | _ => x.asked }
  | .done s => s
  | .trap c k x => s1.issueTrap word c k x
  | .trapIn s c k x => s.issueTrap word c k x
  | .abort c k => s1.txAbort c k
  | .spec => s0.specStop
  | .stall => s0

/-- Issue an instruction at the slot in focus: it goes through CanIssue and acts. An instruction that holds issue is examined again; one that waits
for an answer goes on when that has come. DEDUCED (log 71). -/
def issue (i : Instr) (s : State) (body : State → Act) : Host.Outcome State Fault Refusal :=
  if s.cur.status = .free then .fault .slotEmpty
  else match s.cur.hold with
    | .answer _ => .next s
    | .again _ =>
      if s.cur.status == .ready && !s.pkg.halted then .next (s.conclude s (encode i) (body s)) else .next s
    | .none =>
      match s.permits i with
      | .stall => .next s
      | .stop => .next s.takeStop
      | .trap c k x => .next (s.charge.issueTrap (encode i) c k x)
      | .abort c k => .next (s.charge.txAbort c k)
      | .hold | .endChunk => .next s.specStop
      | .go => .next (s.conclude s.charge (encode i) (body s.charge))

/-- Mark a destination as awaiting a fixed-latency result (R66); marks that have run out are forgotten. -/
def Slot.mark (x : Slot) (dests : List RegRef) (now lat : Nat) : Slot :=
  { x with busy := (x.busy.filter fun b => decide (now < b.2)) ++ (if lat ≤ 1 then [] else dests.map fun r => (r, now + lat)) }

/-- A fixed-latency instruction: it writes its result, whose destination is marked until the latency has run out, and retires. `sub` charges
subnormal service: 4 turns and 6 cycles (R26). DEDUCED (log 8). -/
def fixed (i : Instr) (s : State) (sub : Slot → Bool) (f : Slot → Slot) : Host.Outcome State Fault Refusal :=
  issue i s fun s =>
    let n := infoOf i
    let slow := sub s.cur
    let y := f s.cur
    let y := if slow then { y with forfeit := 4 } else y
    .next { s with cur := y.mark n.dests s.now (if slow then n.lat + 6 else n.lat) }

/-! ### Long-latency operations (R67, R68) -/

/-- List a long-latency operation of the slot in focus. -/
def State.openOp (s : State) (i : Instr) (kind : OpKind) (due : Option Nat) (left : Nat) (wb : WriteBack) : Nat × State :=
  let (id, s) := s.fresh
  let n := infoOf i
  (id, s.updCur fun x => { x with ops := x.ops ++ [{
    id := id, pc := x.pc, la := n.la, dests := n.dests, kind := kind, due := due, left := left, got := [], fail := none, wb := wb,
    word := encode i }] })

/-- A long-latency instruction whose result waits on no access (DIV, VFN, pops): the result is written, and stays barred by R69 until `lat`
cycles have passed. -/
def longResult (i : Instr) (s : State) (lat : Nat) (sub : Bool) (f : Slot → Slot) : Act :=
  let s := s.updCur fun x => let y := f x; if sub then { y with forfeit := 4 } else y
  .long (s.openOp i .result (some (s.now + lat + if sub then 6 else 0)) 0 .none).2

/-- Close an operation of the slot in focus: it retires (R64); when it was the last one, a waiting failure traps. -/
def State.closeOp (s : State) (id : Nat) : State :=
  ((s.updCur fun x => { x with ops := x.ops.filter fun o => o.id != id }).retire).trapIfSettled

/-- Close an operation that failed (R318): its failure waits for the other issued instructions. -/
def State.failOp (s : State) (o : LongOp) (f : Failure) : State :=
  if s.cur.inTx then s.txAbort txFault f.cause
  else
    (s.updCur fun x => { x with
      inwin := if x.fails.isEmpty then true else x.inwin
      ops := x.ops.filter fun p => p.id != o.id
      fails := x.fails ++ [(o.pc, o.word, f)] }).trapIfSettled

/-- Results that have come due complete their operations (R66, R68). -/
def State.ripen (s : State) : State :=
  let ripe := s.cur.ops.filter fun o => match o.due with | some d => decide (d ≤ s.now) | none => false
  ripe.foldl (fun s o => s.closeOp o.id) s

end Sys2Proof.Machine
end

