-- ==== Sys2Proof/Machine/Access.lean ====
section
/-! DEFINITION. Accesses of instructions: effective pointers, the checks made at issue, the requests sent, remote updates and what waits for
them (spec/04_memory_space.md R86 to R90, R110; spec/05_ordering.md R118 to R120; spec/06_speculation.md R131, R137, R145, R148;
spec/15_memory_instructions.md R317, R318, R330; spec/09_tables.md R229). -/

namespace Sys2Proof.Machine

/-! ### Pointers and formats (R86 to R88) -/

/-- FMT of a fat pointer. -/
def fmtOf (p : W64) : Nat := (p.extractLsb' 56 8).toNat
/-- BLG of a fat pointer. -/
def blgOf (p : W64) : Nat := (p.extractLsb' 52 4).toNat
/-- VA of a fat pointer. -/
def vaOf (p : W64) : Nat := (p.extractLsb' 0 48).toNat

/-- The effective pointer: bits [63:48] of the base above bits [47:0] of the exact address (R110). -/
def effPtr (base : W64) (ea : Int) : W64 := base.extractLsb' 48 16 ++ BitVec.ofInt 48 ea

/-- Twice the element bytes of a listed format code (Table 4.2); RAW gives 0 and LX8 1. -/
def fmtBytes2 : Nat → Option Nat
  | 0x00 => some 0 | 0x01 => some 2 | 0x02 => some 2 | 0x03 => some 4 | 0x04 => some 4 | 0x05 => some 8 | 0x06 => some 8
  | 0x07 => some 16 | 0x08 => some 1 | 0x10 => some 8 | 0x11 => some 4 | 0x12 => some 4 | 0x13 => some 2 | 0x14 => some 2
  | 0x15 => some 1 | 0x20 => some 1
  | _ => none

/-- The FMT sub-code of a pointer whose code is unlisted or whose BLG breaks R87 (Table 15.2). -/
def fmtFault (p : W64) : Option Nat :=
  match fmtBytes2 (fmtOf p) with
  | none => some 1
  | some _ =>
    if fmtOf p = 0x15 then (if 4 ≤ blgOf p ∧ blgOf p ≤ 6 then none else some 2)
    else if blgOf p ≠ 0 then some 2 else none

/-- The element bytes by which an indexed access of `n` bytes scales its index, or the FMT sub-code that fails (R88, R321). -/
def indexScale (p : W64) (n : Nat) : Nat ⊕ Nat :=
  match fmtFault p with
  | some c => .inr c
  | none =>
    match fmtBytes2 (fmtOf p) with
    | some 0 => .inl n
    | some 1 => .inr 4
    | some b => if b = 2 * n then .inl n else .inr 3
    | none => .inr 1

/-! ### The elements of an access and the checks at issue (Table 4.7, steps 1 to 6) -/

/-- One element: its lane, its exact byte offset from the base, its size, the bytes it takes (0: nothing is sent) and its data. -/
structure Elem where
  lane : Nat
  off  : Int
  n    : Nat
  mask : Nat
  data : List Byte
  deriving DecidableEq, Repr

/-- An access of an instruction: base pointer, alignment, what it does at its home, whether it writes, the format check that fails, whether
it may reach the control space, and its active elements. -/
structure Access where
  base  : W64
  align : Nat
  kind  : ReqKind
  write : Bool
  fmt   : Option Nat
  ctl   : Bool
  elems : List Elem
  deriving DecidableEq, Repr

/-- Whether a remote update. -/
def ReqKind.isUpdate : ReqKind → Bool
  | .rupd _ => true
  | _ => false

/-- Full/empty kinds. -/
def ReqKind.isFe : ReqKind → Bool
  | .ldf | .ldff | .ste | .stef | .feclr | .feget => true
  | _ => false

/-- Steps 1 to 6 of Table 4.7 for an element: its failure, or its effective pointer and class. A pod access of a slot that speculates is met by its row of
Table 6.3 before the steps that judge it. -/
def State.slotChecks (s : State) (a : Access) (e : Elem) : Failure ⊕ (W64 × Cls) :=
  let ea : Int := (vaOf a.base : Int) + e.off
  let p := effPtr a.base ea
  if a.base.extractLsb' 48 4 ≠ 0 then .inl ⟨e.lane, causeAddr, 1, a.base⟩
  else match a.fmt with
    | some c => .inl ⟨e.lane, causeFmt, c, a.base⟩
    | none =>
      if ea < 0 ∨ (2 : Int) ^ 48 ≤ ea then .inl ⟨e.lane, causeAddr, 2, p⟩
      else if ea.toNat % a.align ≠ 0 then .inl ⟨e.lane, causeAlign, a.align, p⟩
      else
        let c := s.classify s.myTile s.cur.sc.asid s.cur.level ea.toNat
        match c with
        | .pod pkg _ =>
          if s.cur.specMode != .none then .inr (p, c)
          else if s.cur.sc.piste then .inl ⟨e.lane, causePisteScope, 0, p⟩
          else if !s.pkg.members.contains pkg then .inl ⟨e.lane, causeAddr, 5, p⟩
          else .inr (p, c)
        | .hbm _ => if a.kind.isFe then .inl ⟨e.lane, causeProt, 5, p⟩ else .inr (p, c)
        | .control _ => if a.ctl then .inr (p, c) else .inl ⟨e.lane, causeProt, 7, p⟩
        | .sram _ _ => .inr (p, c)

/-- The elements with their pointers and classes, or the failure of the lowest lane that fails (R317, R318). -/
def State.checkAll (s : State) (a : Access) : List Elem → Failure ⊕ List (Elem × W64 × Cls)
  | [] => .inr []
  | e :: es =>
    match s.slotChecks a e with
    | .inl f => .inl f
    | .inr r =>
      match s.checkAll a es with
      | .inl f => .inl f
      | .inr l => .inr ((e, r) :: l)

/-- A class served in another package. -/
def Cls.away : Cls → Bool
  | .pod _ _ => true
  | _ => false

/-- The control class. -/
def Cls.isControl : Cls → Bool
  | .control _ => true
  | _ => false

/-! ### Requests -/

/-- The home that serves a class, and the way to it from a tile. A control-class access goes to the unit that holds the register (R90). -/
def homeOf : Cls → Nat
  | .sram t _ => tileHome t
  | .hbm va => va / 65536 % 64
  | .pod pkg _ => foreignHome + 1 + pkg
  | .control off => if off / 0x100000 = 1 then off / 0x100 % 64 else if off / 0x100000 = 2 then tileHome (off / 0x80 % 512) else 0

/-- The home in the package that receives a pod request, as its sender can tell it: the window base is that of the sender's package. DEDUCED (log 34). -/
def State.podHome (s : State) (tile : Nat) (asid : BitVec 14) (va : Nat) : Nat := homeOf (localClass ((s.window? tile asid).map (·.base)) va)

/-- The key under which a tile, or a die's collective unit, numbers its pod requests to a home (R229): package and home. DEDUCED (log 34). -/
def State.podKey (s : State) (tile : Nat) (asid : BitVec 14) (pkg va : Nat) : Nat := pkg * 1024 + s.podHome tile asid va

/-- Whether a request is one of a collective unit: its lane is 300 or above. -/
def Req.scu (r : Req) : Bool := r.op == 0 && decide (300 ≤ r.lane ∧ r.lane < 400)

/-- The requester of a pod request within the package (R229): its tile, or 512 and the die of its collective unit. -/
def Req.podUnit (r : Req) : Nat := if r.scu then 512 + dieOf r.tile else r.tile

/-- The sequence counters of a requester: the next number and ACKED by key (R229). -/
def State.podSeqs (s : State) (unit : Nat) : Map (Nat × Nat) := if unit < 512 then (s.tile unit).seqs else (s.die (unit - 512)).seqs

/-- Replace the sequence counters of a requester for a key. -/
def State.setPodSeq (s : State) (unit key : Nat) (v : Nat × Nat) : State :=
  if unit < 512 then s.updTile unit fun t => { t with seqs := t.seqs.set key v } else s.updDie (unit - 512) fun d => { d with seqs := d.seqs.set key v }

/-- The pod requests of a requester under a key: those sent that have had no reply, or (`sent` false) those that wait for a credit. -/
def State.podOut (s : State) (unit key : Nat) (sent : Bool) : List Req :=
  (s.net.reqs.filter fun e => e.2.podUnit == unit && e.2.source.isNone && (e.2.sent != 0) == sent && (sent || (e.2.stage == .travel && e.2.flies)) &&
    (match e.2.cls with
    | .pod pkg va => s.podKey e.2.tile e.2.asid pkg va == key
    | _ => false)).map (·.2)

/-- Whether a tile has a credit for a further pod request: it has at most 64 to any one home without replies (R229). -/
def State.podCredit (s : State) (tile : Nat) (asid : BitVec 14) (c : Cls) : Bool :=
  match c with
  | .pod pkg va =>
    let key := s.podKey tile asid pkg va
    decide ((s.podOut tile key true).length < 64) && (s.podOut tile key false).isEmpty
  | _ => true

/-- The span after which an unanswered pod request fails: 10 ms (R425). -/
def podTimeout : Nat := 24000000

/-- The code of an AMO operation (Table 15.4). -/
def amoCode : AmoOp → Nat
  | .add => 0 | .and => 1 | .or => 2 | .xor => 3 | .min => 4 | .max => 5 | .minn => 6 | .maxn => 7 | .swap => 8 | .fadd => 9

/-- KIND, MAJOR and FN of a request (R422, Table 22.6). FN of an instruction with a size has its code in bits [4:0]. -/
def ReqKind.podCode : ReqKind → Nat × Nat × Nat
  | .load | .fetch => (0, 0, 0)
  | .store | .probe => (1, 0, 0)
  | .amo op => (2, 0x1A, amoCode op)
  | .cas _ => (2, 0x1B, 0)
  | .ldr => (2, 0x1C, 0)
  | .stc => (2, 0x1C, 1)
  | .wrs => (2, 0x1C, 2)
  | .ldf => (3, 0, 0)
  | .ldff => (3, 0, 1)
  | .ste => (3, 0, 2)
  | .stef => (3, 0, 3)
  | .feclr => (3, 0, 4)
  | .feget => (3, 0, 5)
  | .rupd op => (4, 0, amoCode op)

/-- How far a request's first byte lies behind the first byte of the transfer that carries it: a load or store of 1 or 2 bytes travels in an aligned one of
4 (R422). -/
def Req.shift (r : Req) : Nat :=
  match r.kind, r.cls with
  | .load, .pod _ va | .store, .pod _ va => if r.n < 4 then va % 4 else 0
  | _, _ => 0

/-- The bytes a request moves as it leaves the package: 4 or 8 with byte enables for a scalar access (R422). -/
def Req.wide (r : Req) : Nat := if r.kind == .load || r.kind == .store then Nat.max r.n 4 else r.n

/-- A request as it leaves for another package, with its header (Table 22.6). -/
def State.podHeader (s : State) (r : Req) (va : Nat) : PodReq :=
  let k := r.kind.podCode
  let seqs := (s.podSeqs r.podUnit).getD (0, 0) (match r.cls with | .pod pkg va => s.podKey r.tile r.asid pkg va | _ => 0)
  { addr := BitVec.ofNat 39 (va - r.shift), spkg := s.pkg.podIndex, stile := BitVec.ofNat 9 (if r.scu then dieOf r.tile else r.tile), asid := r.asid,
    tag := r.tenant, kind := BitVec.ofNat 4 k.1, major := BitVec.ofNat 6 k.2.1, op := BitVec.ofNat 7 k.2.2, scu := r.scu, seq := r.seqNo,
    acked := BitVec.ofNat 32 seqs.2, size := r.wide,
    data := List.replicate r.shift 0 ++ r.data ++ (match r.kind with | .cas e => (List.range r.n).map fun i => e.extractLsb' (8 * i) 8 | _ => []),
    mask := r.mask * 2 ^ r.shift, slot := r.slot, ctx := r.ctx, limit := BitVec.ofNat 20 r.limit, msg := none }

/-- A pod request leaves by its port; with no port in service nothing leaves. -/
def State.podLeave (s : State) (r : Req) : State :=
  match r.cls with
  | .pod pkg va =>
    match s.podPort r.podUnit pkg with
    | some p => s.post pkg (.podRequest p (s.podHeader r va))
    | none => s
  | _ => s

/-- Whether an earlier request of the same requester under the same key waits for a credit. -/
def State.podQueued (s : State) (r : Req) (key : Nat) : Bool := (s.podOut r.podUnit key false).any fun o => decide (o.id < r.id)

/-- Send a request after a lag: into the network, or through a UALink port with the next sequence number of its home, once it has a credit (R229, R422,
R424, R425). -/
def State.sendReq (s : State) (r : Req) (lag : Nat := 0) : State :=
  let r := { r with path := 0, since := s.now + lag, flies := true, stage := .travel }
  match r.cls with
  | .pod pkg va =>
    let key := s.podKey r.tile r.asid pkg va
    if lag != 0 || decide (64 ≤ (s.podOut r.podUnit key true).length) || s.podQueued r key then
      (s.setReq { r with sent := 0 }).after (Nat.max lag 1) r.arrive
    else
      let seqs := (s.podSeqs r.podUnit).getD (0, 0) key
      let r := { r with seqNo := BitVec.ofNat 32 seqs.1, sent := s.now + 1 }
      let s := s.setPodSeq r.podUnit key ((seqs.1 + 1) % 4294967296, seqs.2)
      ((s.setReq r).podLeave r).after podTimeout (.podRequestTimeout r.id)
  | _ => (s.setReq r).after (lag + if r.kind.isUpdate then hopMsg r.tile r.home else hopHome r.tile r.home) r.arrive

/-- A request of the slot in focus for an element. -/
def State.mkReq (s : State) (op : Nat) (kind : ReqKind) (watch : Option (Nat × Nat)) (e : Elem) (p : W64) (c : Cls) : Req × State :=
  let (id, s) := s.fresh
  ({ id := id, slot := s.curId, ctx := s.cur.mc.ctxser, tid := s.cur.u.tid, op := op, lane := e.lane, tile := s.myTile, kind := kind, ptr := p,
     cls := c, n := e.n, mask := e.mask, data := e.data, asid := s.cur.sc.asid, tenant := s.cur.sc.tenant, watch := watch, path := 0,
     since := s.now, flies := true, stage := .travel, res := .ok [], home := homeOf c, line := match c with | .sram _ off => off / 64 | .hbm va => va / 64 | .pod _ va => va / 64 | .control o => o / 64,
     notices := 0, tries := 0, limit := (s.tile s.myTile).feretry.toNat, parked := 0, order := 0, scopeOk := false, firstTouch := false,
     seqNo := 0, sent := 0, source := none }, s)

/-- A write of an engine whose acknowledgement waits for notices, or an access of an engine to another package. `lane` names the engine and the
core: 100 for the matrix engine, 200 for the copy engine, 300 for the collective unit. -/
def engineReq (id slot : Nat) (ctx : W32) (tid : W64) (asid : BitVec 14) (lane tile : Nat) (p : W64) (c : Cls) (now : Nat) : Req where
  id := id
  slot := slot
  ctx := ctx
  tid := tid
  op := 0
  lane := lane
  tile := tile
  kind := .store
  ptr := p
  cls := c
  n := 64
  mask := fullMask
  data := []
  asid := asid
  tenant := 0
  watch := none
  path := 0
  since := now
  flies := false
  stage := .travel
  res := .ok []
  home := homeOf c
  line := 0
  notices := 0
  tries := 0
  limit := 0
  parked := 0
  order := 0
  scopeOk := false
  firstTouch := false
  seqNo := 0
  sent := 0
  source := none

/-- Send the elements of an access under an operation; `rows` sends one per cycle (R374). -/
def State.sendAll (s : State) (op : Nat) (kind : ReqKind) (watch : Option (Nat × Nat)) (rows : Bool) : List (Elem × W64 × Cls) → State
  | [] => s
  | (e, p, c) :: rest =>
    let (r, s) := s.mkReq op kind watch e p c
    (s.sendReq r (if rows then e.lane else 0)).sendAll op kind watch rows rest

/-- The buoy a read of the slot in focus places: mode and level (Table 6.1). DEDUCED (log 16). -/
def Slot.readBuoy (x : Slot) : Option (Nat × Nat) :=
  if x.spec.commit == .applying then none
  else if x.inTx then some (1, x.spec.depth)
  else match x.spec.mode with
    | .glide => some (3, 0)
    | .chunk => some (6, 0)
    | _ => none

/-- The slot in focus speculates: its stores stay in the buffer (R131). -/
def Slot.speculates (x : Slot) : Bool := x.specMode != .none

/-- The kind of operation an instruction opens (Table 5.1). -/
def Kind.op : Kind → OpKind
  | .acquiring => .acquiring
  | .relaxed => .relaxed
  | .ordinary => .ordinary
  | _ => .result

/-- Whether an instruction's accesses are the rows of an accumulator. -/
def WriteBack.rows : WriteBack → Bool
  | .mspill _ | .mfill _ => true
  | _ => false

/-- Issue an access (R317): the checks of every active element, the limits of the speculation buffer, then the requests. An access without bytes
completes at once and changes nothing (R322). A vector access that is one request is performed whole, also where R121 promises no more than its lanes
one by one: DESIGN CHOICE (log 84). A control-class access runs in a speculation as outside one, which Table 6.3 does not name. -/
def accessAct (i : Instr) (s : State) (a : Access) (wb : WriteBack) : Act :=
  match s.checkAll a a.elems with
  | .inl f => .trap f.cause f.code f.xaddr
  | .inr l =>
    let live := l.filter fun e => e.1.mask != 0
    let ctl := live.any fun e => e.2.2.isControl
    let spec := s.cur.speculates && !ctl
    let keys := (live.map fun e => e.2.2.key).dedup
    if spec && live.any (fun e => e.2.2.away) then (if s.cur.inTx then .abort txIllegal 0 else .spec)
    else if live.isEmpty then .next s
    else if spec && a.write && s.overWrite keys then (if s.cur.inTx then .abort txCapacityW 0 else .spec)
    else if spec && !a.write && s.overRead keys then (if s.cur.inTx then .abort txCapacityR 0 else .spec)
    else
      let (op, s) := s.openOp i (infoOf i).kind.op none live.length wb
      .long (s.sendAll op (if spec && a.write then .probe else a.kind) (if a.write || ctl then none else s.cur.readBuoy) wb.rows live)

/-! ### What a slot is blocked on (Table 3.10) -/

/-- A slot that runs or waits on its accesses is Blocked on what they wait for: a pending page, a full/empty word, or the line of a WRS; otherwise it is
Ready (R21, R96, R104, R332). -/
def State.settleBlock (s : State) (slot : Nat) (ctx : W32) : State :=
  let own := fun (r : Req) => r.slot == slot && r.ctx == ctx && r.source.isNone && !r.kind.isUpdate
  let has := fun (st : ReqStage) => s.net.reqs.any fun e => own e.2 && e.2.stage == st
  let b := if has .page || has .wake then some Block.page else if has .park then some .fullEmpty else if has .watch then some .wrs else none
  s.updSlot slot fun x =>
    if x.mc.ctxser == ctx && (x.status == .ready || x.status == .blocked .page || x.status == .blocked .fullEmpty || x.status == .blocked .wrs)
    then { x with status := match b with | some k => .blocked k | none => .ready } else x

/-- A request answered pending waits for the wake of its page, which may have overtaken the answer (`tries`: 1 where it maps the page, 2 + code where it
refuses). -/
def State.waitPage (s : State) (r : Req) : State :=
  let s := if r.tries = 0 then s.setReq { r with stage := .page }
    else (s.setReq { r with stage := .wake, since := s.now, path := 0, res := if r.tries = 1 then .ok [] else .fail causeXlate (r.tries - 2) }).after 1
      (.accessReply r.id none)
  s.settleBlock r.slot r.ctx

/-! ### Remote updates: acceptance, refusals (R118, R119, R330) -/

/-- Whether a remote update of a task awaits acceptance at a scope (Table 5.4): scopes up to tile are met by the tile port. -/
def State.updatesOut (s : State) (tid : W64) (sc : Scope) : Bool :=
  match sc with
  | .slot | .core | .tile => false
  | .pkg => s.net.reqs.any fun e => e.2.tid == tid && e.2.source.isNone && (match e.2.kind, e.2.cls with | .rupd _, .pod _ _ => false | .rupd _, _ => true | _, _ => false)
  | .pod => s.net.reqs.any fun e => e.2.tid == tid && e.2.source.isNone && (match e.2.kind with | .rupd _ => true | _ => false)

/-- Whether a scope covers the line a pointer names: lines of other packages are outside package scope (R119). -/
def State.covers (s : State) (sc : Scope) (p : W64) : Bool :=
  sc == .pod || !(p.getLsbD 47) || decide (vaOf p / 2 ^ 39 % 256 = s.pkg.podIndex.toNat)

/-- The first refused update that an instruction waiting at a scope reports (R330). -/
def State.refusal (s : State) (sc : Scope) : Option Failure := (s.task s.myTid).refused.find? fun f => s.covers sc f.xaddr

/-- Drop a reported refusal. -/
def State.dropRefusal (s : State) (f : Failure) : State := s.updTask s.myTid fun t => { t with refused := t.refused.erase f }

/-- The writes that engine commands of a task still have on their way to acceptance. -/
def State.engineWrites (s : State) (tid : W64) : Bool :=
  s.net.reqs.any fun e => e.2.tid == tid && e.2.op == 0 && e.2.kind == .store && e.2.source.isNone && (match e.2.cls with | .pod .. => false | _ => true)

/-- The writes of engine commands of a task that another package has still to perform. -/
def State.podEngineWrites (s : State) (tid : W64) : Bool :=
  s.net.reqs.any fun e => e.2.tid == tid && e.2.op == 0 && e.2.kind == .store && e.2.source.isNone && (match e.2.cls with | .pod .. => true | _ => false)

/-- Whether an engine has still to read or to write for a command of a task: a matrix command that waits or has rows to write; a copy or a
collective command that waits or has not sent its last write. -/
def State.enginesBusy (s : State) (tid : W64) : Bool :=
  (s.cores.any fun (e : Nat × Core) =>
    (e.2.q0.any fun c => c.tid == tid) || (e.2.run0.any fun r => r.cmd.tid == tid && r.left != 0) || (e.2.q2.any fun c => c.tid == tid) ||
    (match e.2.run2 with | some r => r.cmd.tid == tid && !r.fin | none => false) || (e.2.q4.any fun c => c.tid == tid)) ||
  (s.tiles.any fun (e : Nat × Tile) => e.2.latches.any fun l => l.cmd.tid == tid && !l.on) ||
  s.net.colls.any fun c => c.members.any fun m => m.pkg == s.pkg.podIndex.toNat && m.cmd.tid == tid && !c.wrote.contains m.pos && !c.served.contains m.pos

/-- Whether engine commands of a task are unsettled at a scope (R120): an engine has still to read or to write for one, or a write of one is not accepted
there (Table 5.4). -/
def State.enginesOut (s : State) (tid : W64) (sc : Scope) : Bool :=
  s.enginesBusy tid || (match sc with
    | .slot | .core | .tile => false
    | .pkg => s.engineWrites tid
    | .pod => s.engineWrites tid || s.podEngineWrites tid)

/-- Wait as FENCE of kind 0 or 2 does at a scope, and where `eng` as kind 3 does, then act (R118, R120, R330): a refusal found traps. The bytes of a
glide drain that are still being applied are earlier writes of the slot. -/
def awaitRelease (s : State) (sc : Scope) (eng : Bool) (act : State → Act) : Act :=
  if s.cur.spec.commit == .applying || s.updatesOut s.myTid sc || (eng && s.enginesOut s.myTid sc) then .hold s (.again 0)
  else match s.refusal sc with
    | some f => .trapIn (s.dropRefusal f) f.cause f.code f.xaddr
    | none => act s

/-- The data bytes of a store: the low `n` bytes of a register, least significant first. -/
def regBytes (n : Nat) (v : W64) : List Byte := (List.range n).map fun k => v.extractLsb' (8 * k) 8
/-- The bytes of a 32-bit lane, the low `n` of them. -/
def laneBytes (n : Nat) (v : W32) : List Byte := (List.range n).map fun k => v.extractLsb' (8 * k) 8
/-- The value of bytes, least significant first. -/
def bytesVal (b : List Byte) : Nat := b.foldr (fun x a => x.toNat + 256 * a) 0
/-- Extend `n` bytes to 64 bits. -/
def extend64 (n : Nat) (sgn : Bool) (b : List Byte) : W64 :=
  let v := bytesVal (b.take n)
  if sgn then (BitVec.ofNat (8 * n) v).signExtend 64 else BitVec.ofNat 64 v
/-- Extend `n` bytes to 32 bits. -/
def extend32 (n : Nat) (sgn : Bool) (b : List Byte) : W32 :=
  let v := bytesVal (b.take n)
  if sgn then (BitVec.ofNat (8 * n) v).signExtend 32 else BitVec.ofNat 32 v
/-- The mask of the low `n` bytes. -/
def lowMask (n : Nat) : Nat := 2 ^ n - 1

end Sys2Proof.Machine
end

