-- ==== Sys2Proof/Machine/Operands.lean ====
section
/-! DEFINITION. Operand forms: conditions, field descriptors, pointer arithmetic, shift amounts, immediates, branch targets, lane and
element forms (spec/12_encoding.md Table 12.4; spec/13_scalar_instructions.md R270 to R279, R287 to R292; spec/14 R301, R308 to R314). -/

namespace Sys2Proof.Machine

/-- Integer conditions (Table 12.4): the signed ones compare S values, LTN and GEN compare U values (R273). -/
def condHolds {w : Nat} (c : Cond) (x y : BitVec w) : Bool :=
  match c with
  | .eq => x == y
  | .ne => x != y
  | .lt => x.slt y
  | .ge => !x.slt y
  | .ltn => x.ult y
  | .gen => !x.ult y

/-- A shift amount of a 64-bit shift: bits [5:0] (R270). -/
def shAmt64 (y : W64) : Nat := (y.extractLsb' 0 6).toNat
/-- A shift amount of a 32-bit shift: bits [4:0] (R303). -/
def shAmt32 (y : W32) : Nat := (y.extractLsb' 0 5).toNat

/-- Zero bits above the highest set bit (R270, R304). -/
def clz {w : Nat} (x : BitVec w) : Nat := if x.toNat = 0 then w else w - 1 - Nat.log2 x.toNat
/-- Set bits (R270, R304). -/
def popc {w : Nat} (x : BitVec w) : Nat := (List.range w).foldl (fun n i => if x.getLsbD i then n + 1 else n) 0

/-- The quotient and remainder of R271. -/
def divide (sgn : Bool) (x y : W64) : W64 × W64 :=
  if y = 0 then (BitVec.allOnes 64, x)
  else if sgn then (BitVec.ofInt 64 (x.toInt.tdiv y.toInt), BitVec.ofInt 64 (x.toInt.tmod y.toInt))
  else (BitVec.ofNat 64 (x.toNat / y.toNat), BitVec.ofNat 64 (x.toNat % y.toNat))

/-- The significant bits of the quotient's magnitude: 0 for a zero quotient and for division by zero (Table 13.1). -/
def quotientBits (sgn : Bool) (x y : W64) : Nat :=
  let q := if y = 0 then 0 else if sgn then (x.toInt.tdiv y.toInt).natAbs else x.toNat / y.toNat
  if q = 0 then 0 else Nat.log2 q + 1

/-- The latency of a division (Table 13.1): 12 + ⌈7q/16⌉. -/
def divLatency (sgn : Bool) (x y : W64) : Nat := 12 + (7 * quotientBits sgn x y + 15) / 16

/-- A field descriptor: position, and length cut to what is left (R272). -/
def fieldDesc (b : W64) : Nat × Nat :=
  let pos := (b.extractLsb' 0 6).toNat
  (pos, Nat.min (b.extractLsb' 8 7).toNat (64 - pos))

/-- The mask of a field (R272). -/
def fieldMask (len : Nat) : W64 := BitVec.ofNat 64 (2 ^ len - 1)

/-- BFX and BFXN (R272). -/
def bitFieldGet (sgn : Bool) (a b : W64) : W64 :=
  let (pos, len) := fieldDesc b
  let f := (a >>> pos) &&& fieldMask len
  if sgn && decide (0 < len) && f.getLsbD (len - 1) then f ||| ~~~(fieldMask len) else f

/-- BFI (R272). -/
def bitFieldPut (d a b : W64) : W64 :=
  let (pos, len) := fieldDesc b
  let m := fieldMask len <<< pos
  (d &&& ~~~m) ||| ((a <<< pos) &&& m)

/-- PointerAdd (R278): the sum with the tag kept, or the ADDR sub-code. -/
def pointerAdd (p : W64) (off : Int) : W64 ⊕ Nat :=
  if p.extractLsb' 48 4 ≠ 0 then .inr 1
  else
    let va : Int := (vaOf p : Int) + off
    if va < 0 ∨ (2 : Int) ^ 48 ≤ va then .inr 3 else .inl (effPtr p va)

/-- PTAG (R279). -/
def pointerTag (a b : W64) : W64 := b.extractLsb' 0 8 ++ b.extractLsb' 8 4 ++ a.extractLsb' 0 52
/-- PGET (R279). -/
def pointerGet (a : W64) : W64 := ((a.extractLsb' 52 4 ++ a.extractLsb' 56 8 : BitVec 12)).setWidth 64
/-- PSUB (R279). -/
def pointerSub (a b : W64) : W64 := BitVec.ofInt 64 ((vaOf a : Int) - vaOf b)

/-- LIM replaces one quarter (R276). -/
def limQuarter (d : W64) (q : BitVec 2) (imm : BitVec 16) : W64 :=
  (d &&& ~~~((0xFFFF : W64) <<< (16 * q.toNat))) ||| (imm.setWidth 64 <<< (16 * q.toNat))

/-- A branch target: PC + 4 × SignExt(DISP), modulo 2^48 (R287). -/
def target {w : Nat} (pc : Addr) (disp : BitVec w) : Addr := pc + (disp.signExtend 48 <<< 2)

/-- The truth value a compare writes (R273). -/
def allOrNone (b : Bool) : Pred := if b then 0xFFFF else 0

/-- A lane in bits [31:0] of a scalar register (R58). -/
def lo32 (x : W64) : W32 := x.extractLsb' 0 32
/-- A 32-bit result with bits [63:32] zero (R280). -/
def hi0 (x : W32) : W64 := x.setWidth 64

end Sys2Proof.Machine
end

