-- ==== Sys2Proof/Machine/CtlSpace.lean ====
section
/-! DEFINITION. The package control space (spec/04_memory_space.md R90, R107, Table 4.9; spec/10_counters.md R233; spec/22 R426;
spec/23 R431, R441). -/

namespace Sys2Proof.Machine

/-- A field of a word. -/
def fieldOf (w : W64) (lo n : Nat) : Nat := w.toNat / 2 ^ lo % 2 ^ n

/-- A frame is retired for good, and leaves every list of its home (R107). DEDUCED (log 58). -/
def State.retireFrame (s : State) (home f : Nat) : State :=
  let s := s.updFrame (home * 131072 + f) fun _ => ⟨6, 0, 0⟩
  let s := s.updHome home fun h => { h with
    free := h.free.filter (· != f), pool := h.pool.filter (· != f), cold := h.cold.filter (· != f), lasting := h.lasting.filter (· != f) }
  s.updBoot fun b => { b with spared := b.spared + 1 }

/-- FREEPUSH (R102, R107): a frame goes onto the free list of its home; a retired frame keeps its state, and a frame that is marked lasting becomes
retired now that firmware has let go of it (R107, Table 10.3). -/
def State.freePush (s : State) (home frame : Nat) : State :=
  let f := home * 131072 + frame % 131072
  if (s.frameEnt f).st = 6 ∨ (s.home home).free.contains (frame % 131072) then s
  else if (s.home home).lasting.contains (frame % 131072) then s.retireFrame home (frame % 131072)
  else
    let s := s.updFrame f fun _ => ⟨0, 0, 0⟩
    let s := s.updHome home fun h => { h with
      free := h.free ++ [frame % 131072], pool := h.pool.filter (· != frame % 131072), cold := h.cold.filter (· != frame % 131072) }
    s.afterOnce 1 (.zeroingStep home)

/-- COLDPOP (R107): the head of the cold queue. The frame keeps its state until firmware pushes it. -/
def State.coldPop (s : State) (home : Nat) : W64 × State :=
  match (s.home home).cold with
  | [] => (0, s)
  | f :: rest => (BitVec.ofNat 64 (f + 2 ^ 63), s.updHome home fun h => { h with cold := rest })

/-! ### Fault-window records and the tenant table (R227, R234) -/

/-- THRESH and WINDOW of a source as Table 10.3 gives them. -/
def errDefaults : ErrSrc → Nat × Nat
  | .sramLine _ _ => (3, 1000000)
  | .sramBank _ _ => (1, 0)
  | .hbmLine _ _ => (2, 1000000)
  | .tileLogic _ => (4, 10000000)
  | .ualPort _ | .uePort _ => (1000, 1000)

/-- The record of a source: as Table 10.3 gives it where nothing has changed it. -/
def State.faultWin (s : State) (src : ErrSrc) : FaultWin :=
  (s.pkg.wins.find? fun w => w.src == src).getD ⟨src, 0, (errDefaults src).1, (errDefaults src).2, 0, false⟩

/-- Replace a record. -/
def State.setFaultWin (s : State) (w : FaultWin) : State :=
  s.updPkg fun p => { p with wins := p.wins.filter (fun o => o.src != w.src) ++ [w] }

/-- The source whose record has number `n`. The spec gives the records no addresses: DESIGN CHOICE (log 96). -/
def errSrcOf (n : Nat) : ErrSrc :=
  if n < 16 then .ualPort n
  else if n < 32 then .uePort (n - 16)
  else if n < 1024 then .tileLogic ((n - 32) % 512)
  else if n < 65536 then .sramBank ((n - 1024) / 64 % 512) ((n - 1024) % 64)
  else if n < 2 ^ 26 then .sramLine ((n - 65536) / 65536 % 512) (n % 65536)
  else .hbmLine ((n - 2 ^ 26) / 2 ^ 27 % 64) (n % 2 ^ 27)

/-- Where the fault-window records stand: COUNT, THRESH, WINDOW and START of record `n` at this offset and 32 n, 8 bytes each (log 96). -/
def winBase : Nat := 0x500000

/-- Where the tenant table stands: the entry of a tag at this offset and 8 times the tag (log 96). -/
def tenantBase : Nat := 0x480000

/-- Read a field of a fault-window record. -/
def FaultWin.read (w : FaultWin) : Nat → Nat
  | 0 => w.count
  | 1 => w.thresh
  | 2 => w.window
  | _ => w.start

/-- Write one. -/
def FaultWin.write (w : FaultWin) (k v : Nat) : FaultWin :=
  match k with
  | 0 => { w with count := v % 65536 }
  | 1 => { w with thresh := v }
  | 2 => { w with window := v }
  | _ => { w with start := v }

/-- The tenant table entry of a tag as a word (R227). -/
def State.tenantWord (s : State) (tag : Nat) : W64 :=
  match s.pkg.tenants.get? tag with
  | some t => BitVec.ofNat 64 (1 + tag * 2 + t.share.toNat * 2 ^ 17 + t.rej.toNat * 2 ^ 32)
  | none => 0

/-- Write it: SHARE is set, the bits of REJ that are written as 1 are cleared, V makes or frees the entry (R11, R227). -/
def State.tenantWrite (s : State) (tag : Nat) (v : W64) : State :=
  let old := (s.pkg.tenants.get? tag).getD ⟨0, 0⟩
  if !v.getLsbD 0 then s.updPkg fun p => { p with tenants := p.tenants.del tag }
  else if (s.pkg.tenants.get? tag).isNone && decide (4096 ≤ s.pkg.tenants.length) then s
  else s.updPkg fun p => { p with tenants := p.tenants.set tag ⟨v.extractLsb' 17 6, old.rej &&& ~~~(v.extractLsb' 32 32)⟩ }

/-! ### Reads and writes -/

/-- Read a register of the control space (Tables 4.6, 10.1, 23.1, 23.3); an offset the space leaves out reads zero. -/
def State.ctlRead (s : State) (off : Nat) : W64 × State :=
  if off = 0 then (BitVec.ofNat 64 (s.pkg.ready.toNat % 2 ^ 54 + (if s.pkg.boot.lit then 2 ^ 63 else 0)), s)
  else if off / 0x4000 = 0x40 then
    let home := off / 0x100 % 64
    let h := s.home home
    match off % 0x100 with
    | 0x00 => (BitVec.ofNat 64 (h.pool.length + h.cold.length * 2 ^ 18 + h.free.length * 2 ^ 36), s)
    | 0x08 => (BitVec.ofNat 64 (h.poolTgt.toNat + h.poolLow.toNat * 2 ^ 18), s)
    | 0x10 => (BitVec.ofNat 64 ((if h.sweepEn then 1 else 0) + h.coldWm.toNat * 2 + h.rate.toNat * 2 ^ 24), s)
    | 0x20 => s.coldPop home
    | _ => (0, s)
  else if off / 0x10000 = 0x20 then
    let t := s.tile (off / 0x80 % 512)
    let o := off % 0x80
    if o = 0 then (t.sel, s)
    else if 8 ≤ o ∧ o < 0x48 then ((t.pcs.getD (o / 8 - 1) 0).setWidth 64, s)
    else if o = 0x48 then (if t.run then 1 else 0, s)
    else (0, s)
  else if 0x300000 ≤ off ∧ off < 0x300200 then ((s.pkg.share.getD 0 ((off - 0x300000) / 8)).setWidth 64, s)
  else if off = 0x400000 then (BitVec.ofNat 64 (s.pkg.plim.toNat + s.pkg.tlim.toNat * 2 ^ 16), s)
  else if off = 0x400008 then (BitVec.ofNat 64 (s.pkg.duty.toNat + s.pkg.steps.toNat * 2 ^ 16), s)
  else if tenantBase ≤ off ∧ off < winBase then (s.tenantWord ((off - tenantBase) / 8), s)
  else if winBase ≤ off then (BitVec.ofNat 64 ((s.faultWin (errSrcOf ((off - winBase) / 32))).read ((off - winBase) / 8 % 4)), s)
  else (0, s)

/-- Write a register of the control space; an offset the space leaves out, and a read-only field, ignores writes. -/
def State.ctlWrite (s : State) (off : Nat) (v : W64) : State :=
  if off / 0x4000 = 0x40 then
    let home := off / 0x100 % 64
    match off % 0x100 with
    | 0x08 =>
      (s.updHome home fun h => { h with poolTgt := v.extractLsb' 0 18, poolLow := v.extractLsb' 18 18 }).afterOnce 1 (.zeroingStep home)
    | 0x10 =>
      let s := s.updHome home fun h => { h with sweepEn := v.getLsbD 0, coldWm := v.extractLsb' 1 18, rate := v.extractLsb' 24 8 }
      if v.getLsbD 0 then s.afterOnce 1 (.sweeperStep home) else s
    | 0x18 => s.freePush home (fieldOf v 0 17)
    | _ => s
  else if off / 0x10000 = 0x20 then
    let tile := off / 0x80 % 512
    let o := off % 0x80
    if o = 0 then s.updTile tile fun t => { t with sel := v }
    else if 8 ≤ o ∧ o < 0x48 then s.updTile tile fun t =>
      let bit := BitVec.ofNat 8 (2 ^ (o / 8 - 1))
      { t with
        pcs := t.pcs.setIfInBounds (o / 8 - 1) (v.extractLsb' 0 48)
        pcAt := (s.now, if t.pcAt.1 = s.now then t.pcAt.2 ||| bit else bit) }
    else if o = 0x48 then s.updTile tile fun t => { t with run := v.getLsbD 0 }
    else s
  else if 0x300000 ≤ off ∧ off < 0x300200 then
    s.updPkg fun p => { p with share := p.share.set ((off - 0x300000) / 8) (v.extractLsb' 0 8) }
  else if off = 0x400000 then
    s.updPkg fun p => { p with plim := v.extractLsb' 0 12, tlim := v.extractLsb' 16 8 }
  else if tenantBase ≤ off ∧ off < winBase then s.tenantWrite ((off - tenantBase) / 8) v
  else if winBase ≤ off then s.setFaultWin ((s.faultWin (errSrcOf ((off - winBase) / 32))).write ((off - winBase) / 8 % 4) v.toNat)
  else s

/-- CONTROL_REGISTER_WRITE (R107, R11): the command processor writes a register of the control space. -/
def execControlRegisterWrite (offset : Nat) (value : W64) (s : State) : Host.Outcome State Fault Refusal :=
  .next (s.ctlWrite offset value)

/-- FREEPUSH (R107): the command processor pushes a frame onto a home's free list. -/
def execFreepush (home frame : Nat) (s : State) : Host.Outcome State Fault Refusal := .next (s.freePush home frame)

/-- COLDPOP (R107): the command processor takes the head of a home's cold queue. -/
def execColdpop (home : Nat) (s : State) : Host.Outcome State Fault Refusal := .next (s.coldPop home).2

end Sys2Proof.Machine
end

