-- ==== Sys2Proof/Machine/Fetch.lean ====
section
/-! DEFINITION. Fetch: code regions, the tile's instruction cache, and words that are no instruction (spec/01_device.md R14;
spec/03_registers.md R79; spec/04_memory_space.md R110; spec/12_encoding.md R244; spec/16 R373). -/

namespace Sys2Proof.Machine

/-- Whether a fetch at an address lies in the code region of the slot's level (R79). -/
def Slot.inRegion (x : Slot) (a : Addr) : Bool :=
  match x.level with
  | .u => decide (x.u.codeb.toNat ≤ a.toNat ∧ a.toNat < x.u.codel.toNat)
  | .s => decide (x.mc.mscodeb.toNat ≤ a.toNat ∧ a.toNat < x.mc.mscodel.toNat)
  | .m => true

/-- The word the tile's instruction cache holds at an address of the slot in focus. -/
def State.icWord (s : State) (a : Addr) : Option W32 :=
  match (s.tile s.myTile).icache.find? fun l => l.asid == s.cur.sc.asid && l.line == a.toNat / 64 with
  | some l => some (BitVec.ofNat 32 (leNat ((l.bytes.drop (a.toNat % 64)).take 4)))
  | none => none

/-- The lines a 64 KiB instruction cache holds (R14). -/
def icLines : Nat := 1024

/-- Whether a fetch request of the slot in focus for a line is on its way. -/
def State.fetching (s : State) (line : Nat) : Bool :=
  s.net.reqs.any fun e => e.2.kind == .fetch && s.mine e.2 && e.2.line == line

/-- The slot in focus waits for the line of an address: a request of its own, and one fill for the tile, which counts each fetch that it merges (R233). A fetch
of a control-class address traps PROT with CODE 7 (R90), one of a pod-class address passes the issuing slot's steps of R110 and leaves for its package. -/
def State.wantLine (s : State) (a : Addr) : State :=
  let line := a.toNat / 64
  let asid := s.cur.sc.asid
  let c := s.classify s.myTile asid s.cur.level (line * 64)
  match c with
  | .control _ => s.issueTrap s.cur.word causeProt 7 (a.setWidth 64)
  | .pod pkg _ =>
    if s.cur.sc.piste then s.issueTrap s.cur.word causePisteScope 0 (a.setWidth 64)
    else if !s.pkg.members.contains pkg then s.issueTrap s.cur.word causeAddr 5 (a.setWidth 64)
    else if s.fetching line then s
    else
      let (r, s) := s.mkReq 0 .fetch none ⟨0, 0, 64, fullMask, []⟩ (a.setWidth 64) c
      s.sendReq { r with line := line }
  | _ =>
    if s.fetching line then s
    else
      let (r, s) := s.mkReq 0 .fetch none ⟨0, 0, 64, fullMask, []⟩ (a.setWidth 64) c
      let s := s.setReq { r with line := line }
      if (s.tile s.myTile).filling.contains (asid, line) then s.tally s.myTile 6 1
      else (s.updTile s.myTile fun t => { t with filling := t.filling ++ [(asid, line)] }).after (2 * hopHome s.myTile r.home)
        (.icacheFill s.myTile asid line)

/-- A line reaches the instruction cache; the oldest line makes room (log 15). -/
def State.deliverLine (s : State) (tile : Nat) (asid : BitVec 14) (line : Nat) (bytes : List Byte) : State :=
  let s := s.updTile tile fun t =>
    let l := t.icache.filter fun e => !(e.asid == asid && e.line == line)
    { t with icache := (if l.length < icLines then l else l.drop 1) ++ [⟨asid, line, bytes⟩] }
  { s with net := { s.net with reqs := s.net.reqs.filter fun e =>
      !(e.2.kind == .fetch && e.2.tile == tile && e.2.asid == asid && e.2.line == line && e.2.stage == .travel) } }

/-- Whether the slot in focus still needs a line: its next instruction lies there, or a REPF that holds issue captures there. -/
def State.needs (s : State) (line : Nat) : Bool :=
  s.cur.status == .ready && (decide (s.cur.pc.toNat / 64 = line) || s.cur.hold != .none)

/-- A fetch of the slot in focus fails its checks (R110): the instruction traps where it would have issued. -/
def State.failFetch (s : State) (r : Req) (cause code : Nat) : State :=
  let s := s.delReq r.id
  if s.mine r && s.needs r.line then s.issueTrap s.cur.word cause code r.ptr else s

/-- A fetch of the slot in focus is answered pending (R21, R104, R137, R145): the slot blocks until the wake; a transaction aborts with FAULT and
CODE 0 and its slot blocks; a glider stalls; a chunk ends. -/
def State.pendFetch (s : State) (r : Req) : State :=
  if !(s.mine r && s.needs r.line) then s.delReq r.id
  else if s.cur.inTx then
    (s.txAbort txFault 0).waitPage r
  else match s.cur.specMode with
    | .none | .tx => s.waitPage r
    | _ => (s.delReq r.id).specStop

/-- ICACHE_FILL (R14, R110): the line is read with the checks of an access and kept until IFLUSH; every slot that waits for it goes on, traps or
blocks. -/
def execIcacheFill (tile : Nat) (asid : BitVec 14) (line : Nat) (s : State) : Host.Outcome State Fault Refusal :=
  let filled := fun (s : State) => s.updTile tile fun t => { t with filling := t.filling.filter fun f => !(f == (asid, line)) }
  let wait := (s.net.reqs.filter fun e =>
    e.2.kind == .fetch && e.2.tile == tile && e.2.asid == asid && e.2.line == line && e.2.stage == .travel).map (·.2)
  match s.vread tile asid (line * 64) 64 with
  | (.ok bytes, s) => .next ((filled s).deliverLine tile asid line bytes)
  | (.fail c k, s) => .next (wait.foldl (fun s r => s.within r.slot fun s => s.failFetch r c k) (filled s))
  | (.pending home _, s) =>
    let s := (filled s).faultRecord home asid (line * 64) 0 (match wait with | r :: _ => r.slot | [] => tile * 64) (match wait with | r :: _ => r.ctx | [] => 0)
    .next (wait.foldl (fun s r => s.within r.slot fun s => s.pendFetch r) s)
  | (.wait, s) => .next (s.after 1 (.icacheFill tile asid line))
  | (.gone, s) => .next (filled s)

/-- What is at the next address of the slot in focus may not issue yet: nothing, or it issues and traps. -/
def State.trapNext (s : State) (word : W32) (cause code : Nat) (xaddr : W64) : State :=
  if !s.mayIssue || !s.cur.inWindows then s
  else if s.atBreakpoint then (if s.cur.ops.isEmpty then s.takeStop else s)
  else s.charge.issueTrap word cause code xaddr

/-- ILLEGAL_WORD (R244): a word that is no instruction reaches issue and traps ILLEGAL with its sub-code. -/
def execIllegalWord (w : W32) (s : State) : Host.Outcome State Fault Refusal :=
  if s.cur.status = .free then .fault .slotEmpty
  else match decode w with
    | .illegal c => .next (s.trapNext w causeIllegal c (w.setWidth 64))
    | .ok _ => .next s

/-- FETCH_OUTSIDE_CODE_REGION (R79): SEPC and SXADDR hold the fetch address. -/
def execFetchOutsideCodeRegion (s : State) : Host.Outcome State Fault Refusal :=
  if s.cur.status = .free then .fault .slotEmpty
  else if s.cur.inRegion s.cur.pc then .next s
  else .next (s.trapNext 0 causeFetchBounds 0 (s.cur.pc.setWidth 64))

end Sys2Proof.Machine
end

