-- ==== Sys2Proof/Machine/Flags.lean ====
section
/-! DEFINITION. Flags and subnormal service of floating-point instructions (spec/02_number_formats.md R39 to R41; spec/01 R26;
spec/13 R269, R280; spec/14 R315). The flags of each operation come with its result (Float.lean); here they reach FFLAGS. -/

namespace Sys2Proof.Machine

/-- The rounding mode FRM names (R38). -/
def Slot.mode (x : Slot) : Mode := Mode.of x.u.frm

/-- Subnormal service is charged when any FP32 operand or result is subnormal (R26, R269). -/
def anySub (l : List W32) : Bool := l.any isSub32

/-- A scalar floating-point instruction with an FP32 result: bits [63:32] zero, flags ORed into FFLAGS (R280). -/
def fpResult (i : Instr) (s : State) (d : RegNo) (srcs : Slot → List W32) (f : Slot → F32) : Host.Outcome State Fault Refusal :=
  fixed i s (fun x => anySub ((f x).bits :: srcs x)) fun x => (x.writeG d (hi0 (f x).bits)).raise (f x).flags

/-- A scalar floating-point instruction whose result is no FP32 value. -/
def fpOther (i : Instr) (s : State) (d : RegNo) (srcs : Slot → List W32) (f : Slot → W64 × Flags) : Host.Outcome State Fault Refusal :=
  fixed i s (fun x => anySub (srcs x)) fun x => (x.writeG d (f x).1).raise (f x).2

/-- A long-latency scalar floating-point instruction (FDIV, FSQRT): 18 cycles (Table 13.1). -/
def fpLong (i : Instr) (s : State) (d : RegNo) (srcs : Slot → List W32) (f : Slot → F32) : Host.Outcome State Fault Refusal :=
  issue i s fun s => longResult i s 18 (anySub ((f s.cur).bits :: srcs s.cur)) fun x => (x.writeG d (hi0 (f x).bits)).raise (f x).flags

/-- The flags of a vector instruction are the OR over its active lanes (R315). -/
def laneFlags (act : Pred) (f : Nat → Flags) : Flags := (List.range 16).foldl (fun a i => if act.getLsbD i then a ||| f i else a) 0

/-- Whether any active lane satisfies a test. -/
def anyLane (act : Pred) (f : Nat → Bool) : Bool := (List.range 16).any fun i => act.getLsbD i && f i

end Sys2Proof.Machine
end

