-- ==== Sys2Proof/Machine/Homes.lean ====
section
/-! DEFINITION. What a home does with a request, and what its reply does in the slot (spec/05_ordering.md R112 to R116, R121, R122, R135;
spec/04_memory_space.md R93 to R96, R100, R101, R104, R109, R110; spec/06 R131, R137, R145, R148; spec/15 R317, R318, R326 to R332;
spec/09_tables.md R213 to R219; spec/10 R232). -/

namespace Sys2Proof.Machine

/-! ### Replies -/

/-- The key of a reply-cache source (R230): a tile or a collective unit of a package. -/
def podSource (p : PodReq) : Nat := p.spkg.toNat * 1024 + (if p.scu then 512 + p.stile.toNat % 4 else p.stile.toNat)

/-- The STATUS a result has in a reply (log 5): 0; cause and code; 0x100 for pending. -/
def ReqRes.status : ReqRes → Nat
  | .ok _ => 0
  | .fail cause code => cause + code % 8 * 32
  | .pending => 0x100

/-- The STATUS that tells a WRS of another package that its slot waits for the line (log 5). -/
def statusWatch : Nat := 0x102

/-- The STATUS that tells a full/empty request of another package that it is parked (log 5). -/
def statusPark : Nat := 0x103

/-- The data of a reply. -/
def ReqRes.data : ReqRes → List Byte
  | .ok d => d
  | _ => []

/-- Save the reply of a request in the entry of its sequence number (R230). -/
def Home.saveReply (h : Home) (p : PodReq) (a : PodAnswer) : Home :=
  let e := h.rc.getD ⟨p.acked, []⟩ (podSource p)
  { h with rc := h.rc.set (podSource p) { e with entries := e.entries.set (p.seq.toNat % 64) ⟨p.seq, a.status, a.data⟩ } }

/-- The answer to a request of another package: its delay field holds the way between the packages and what the request has met here (R30). -/
def Req.answer (r : Req) (status : Nat) (data : List Byte) : PodAnswer :=
  ⟨status, BitVec.ofNat 64 (leNat (data.take 8)), data, BitVec.ofNat 16 (Nat.min (2 * hopPkg + r.path) 0xFFFF), decide (64 ≤ r.home)⟩

/-- An answer leaves for the requesting package. -/
def State.sendAnswer (s : State) (p : PodReq) (a : PodAnswer) : State := s.updNet fun n => { n with out := n.out ++ [(p, a)] }

/-- The result of a transfer of several lines, from those of its lines in order: the first that failed, pending, or all the data. -/
def joinRes : List ReqRes → ReqRes
  | [] => .ok []
  | .ok d :: l => (match joinRes l with | .ok e => .ok (d ++ e) | r => r)
  | r :: _ => r

/-- A request of another package has its result (R230): it is answered, and the reply of one that is saved is kept in the home's reply cache. One line of a
transfer of several waits for the others. -/
def State.answerPod (s : State) (r : Req) (p : PodReq) (res : ReqRes) : State :=
  let finish := fun (s : State) (res : ReqRes) =>
    let a := r.answer res.status res.data
    let s := s.sendAnswer p a
    if p.kind = 0 ∨ res = .pending then s else s.updHome r.home fun h => h.saveReply p a
  if r.op = 0 then finish (s.delReq r.id) res
  else
    let s := s.setReq { r with stage := .done, res := res }
    let all := (s.net.reqs.filter fun e => e.2.op == r.op && e.2.source.isSome).map (·.2)
    if all.any fun o => o.stage != .done then s
    else finish (all.foldl (fun s o => s.delReq o.id) s) (joinRes (all.map (·.res)))

/-- A reply leaves the home for the issuing tile. -/
def State.reply (s : State) (r : Req) (res : ReqRes) (extra : Nat) : State :=
  match r.source with
  | some p => s.answerPod r p res
  | none => (s.setReq { r with stage := .reply, res := res, since := s.now + extra }).after (hopHome r.tile r.home + extra) (.accessReply r.id none)

/-- A remote update that was refused: it is reported by the first instruction that waits for it (R330). -/
def State.refuseUpdate (s : State) (r : Req) (cause code : Nat) : State :=
  match r.source with
  | some p => s.answerPod r p (.fail cause code)
  | none => (s.delReq r.id).updTask r.tid fun t => { t with refused := t.refused ++ [⟨0, cause, code, r.ptr⟩] }

/-- A request fails a check at its home. -/
def State.refuseReq (s : State) (r : Req) (cause code : Nat) : State :=
  if r.kind.isUpdate then s.refuseUpdate r cause code else s.reply r (.fail cause code) 0

/-- The acknowledgement of a write, or the acceptance of an update, once `k` notices have been taken (R135). -/
def State.acknowledge (s : State) (r : Req) (k : Nat) (data : List Byte) (extra : Nat) : State :=
  if k ≠ 0 then s.setReq { r with stage := .notices, notices := k, res := .ok data }
  else if r.kind.isUpdate && r.source.isNone then s.delReq r.id
  else s.reply r (.ok data) extra

/-- A notice for the write numbered `ack` has been taken (R135). -/
def State.noticeTaken (s : State) (ack : Nat) : State :=
  match s.req? ack with
  | none => s
  | some r =>
    if r.stage != .notices then s
    else if r.notices > 1 then s.setReq { r with notices := r.notices - 1 }
    else if (r.kind.isUpdate || r.op == 0) && r.source.isNone then s.delReq r.id
    else match r.res with
      | .ok d => s.reply { r with notices := 0 } (.ok d) 0
      | o => s.reply { r with notices := 0 } o 0

/-- A watcher of another package has taken a notice, or never will (R135, R215). -/
def State.dropAway (s : State) (a : AwayNotice) : State :=
  let s := s.updNet fun n => { n with away := n.away.filter (· != a) }
  if a.loss then s else s.noticeTaken a.ack

/-- A watcher of another package has taken the notice of a number (R135, R215). -/
def State.awayTaken (s : State) (id : Nat) : State :=
  match s.net.away.find? fun a => a.id == id with
  | none => s
  | some a => s.dropAway a

/-! ### Order (R113, R116) -/

/-- Whether a request is a relaxed read. -/
def State.relaxedRead (s : State) (r : Req) : Bool :=
  r.kind == .load && r.source.isNone && (s.slot r.slot).ops.any fun o => o.id == r.op && o.kind == .relaxed

/-- Whether two requests come from one port: that of a tile here, or of one requester of another package (R113, R424). -/
def Req.samePort (o r : Req) : Bool :=
  match o.source, r.source with
  | none, none => o.tile == r.tile
  | some p, some q => podSource p == podSource q
  | _, _ => false

/-- Whether a request has still to be performed. -/
def Req.toPerform (o : Req) : Bool := o.stage == .travel || o.stage == .walk || o.stage == .line

/-- Whether an earlier request of the same port to the same line has still to be performed; two relaxed reads of disjoint bytes by one slot are
not ordered (R113, R116). -/
def State.mustWait (s : State) (r : Req) : Bool :=
  s.net.reqs.any fun e =>
    let o := e.2
    decide (o.id < r.id) && o.samePort r && o.kind != .fetch && o.cls.key == r.cls.key &&
      (o.toPerform || (o.slot == r.slot && o.ctx == r.ctx && (o.stage == .park || o.stage == .page || o.stage == .wake))) &&
      !(s.relaxedRead o && s.relaxedRead r && o.slot == r.slot && o.mask * 2 ^ (vaOf o.ptr % 64) &&& r.mask * 2 ^ (vaOf r.ptr % 64) == 0)

/-- A release message of the same watcher, or a loss notice, for a line is still on its way: a buoy is placed, and a write acknowledged, only
after it (R214, R215, R217; log 31). -/
def State.lineUnsettled (s : State) (r : Req) (home line : Nat) : Bool :=
  s.lossComing home line || s.net.pend.any fun p => match p.ev with
    | .releaseMessage m => m.home == home && m.line == line && m.slot == r.slot && m.ctx == r.ctx
    | _ => false

/-! ### Read-modify-write (R328) -/

/-- Combine (Table 15.4) of `n` bytes, with the flags of FADD. -/
def combine (op : AmoOp) (n : Nat) (old s : List Byte) : List Byte × Flags :=
  let w := 8 * n
  let a : BitVec w := BitVec.ofNat w (bytesVal old)
  let b : BitVec w := BitVec.ofNat w (bytesVal s)
  let out := fun (v : BitVec w) => (leBytes n v.toNat, (0 : Flags))
  match op with
  | .add => out (a + b)
  | .and => out (a &&& b)
  | .or => out (a ||| b)
  | .xor => out (a ^^^ b)
  | .min => out (if b.slt a then b else a)
  | .max => out (if a.slt b then b else a)
  | .minn => out (if b.ult a then b else a)
  | .maxn => out (if a.ult b then b else a)
  | .swap => out b
  | .fadd =>
    let r := f32add .rne (BitVec.ofNat 32 (bytesVal old)) (BitVec.ofNat 32 (bytesVal s))
    (leBytes 4 r.bits.toNat, r.flags)

/-! ### Full/empty words (R95, R96) -/

/-- The number of the aligned word a request names in its slice. -/
def Req.word (r : Req) : Nat := match r.cls with | .sram _ off => off / 8 | _ => 0

/-- The requests parked on a word, in order of arrival. -/
def State.parked (s : State) (home word : Nat) : List Req :=
  let l := (s.net.reqs.filter fun e => e.2.stage == .park && e.2.home == home && e.2.word == word).map (·.2)
  l.foldl (fun acc r => (acc.takeWhile fun o => o.order < r.order) ++ [r] ++ (acc.dropWhile fun o => o.order < r.order)) []

/-- Whether a full/empty request's need is met (Table 4.4). -/
def ReqKind.met (k : ReqKind) (full : Bool) : Bool :=
  match k with
  | .ldf | .ldff => full
  | .ste => !full
  | _ => true

/-- Perform a full/empty request whose need is met: data, new bit, and the write it is for buoys (Table 4.4, R134). -/
def State.feAct (s : State) (r : Req) (tile off : Nat) : State :=
  let home := 64 + tile
  let line := off / 64
  let bytes := s.readHome home off 8 none
  let full := s.isFull tile off
  match r.kind with
  | .ldf =>
    let n := s.notify home line r.id none
    (n.2.setFull tile off false).acknowledge r n.1 bytes 0
  | .ldff => s.reply r (.ok bytes) 0
  | .ste | .stef =>
    let n := s.performWrite home line none (lowMask 8 * 2 ^ (off % 64)) (List.replicate (off % 64) 0 ++ r.data) r.id none
    (n.2.setFull tile off true).acknowledge r n.1 [] 0
  | .feclr =>
    let n := s.notify home line r.id none
    (n.2.setFull tile off false).acknowledge r n.1 [] 0
  | _ => s.reply r (.ok (leBytes 8 (if full then 1 else 0))) 0

/-- The slot of a request that has left the park list is Blocked no more on it. -/
def State.unpark (s : State) (r : Req) : State := if r.source.isSome then s else s.settleBlock r.slot r.ctx

/-- The scan after a change of a word's bit (R96): each parked request whose need is met succeeds, in order of arrival; a success that changes the
bit starts the scan anew. `n` bounds the successes by the number parked. -/
def State.feScan (s : State) (tile off : Nat) : Nat → State
  | 0 => s
  | n + 1 =>
    match (s.parked (64 + tile) (off / 8)).find? fun r => r.kind.met (s.isFull tile off) with
    | none => s
    | some r => ((s.feAct r tile off).unpark r).feScan tile off n

/-- A full/empty request at its slice (R95, R96): performed, with a scan where it changed the bit, or parked. The first failure counts one
attempt. -/
def State.feRequest (s : State) (r : Req) (tile off : Nat) : State :=
  let full := s.isFull tile off
  if r.kind.met full then
    let s := s.feAct r tile off
    if s.isFull tile off == full then s else s.feScan tile off s.net.reqs.length
  else if r.limit ≤ 1 then s.refuseReq r causeFeRetry 0
  else
    let (o, s) := s.fresh
    let s := s.setReq { r with stage := .park, tries := 1, parked := s.now, order := o, home := 64 + tile }
    let s := match r.source with
      | some p => s.sendAnswer p (r.answer statusPark [])
      | none => s.settleBlock r.slot r.ctx
    s.after 1024 (.feRetryAttempt r.id)

/-- FE_RETRY_ATTEMPT (R96): a parked request counts one more failed attempt; at FERETRY it is removed and traps. -/
def execFeRetryAttempt (req : Nat) (s : State) : Host.Outcome State Fault Refusal :=
  match s.req? req with
  | none => .next s
  | some r =>
    if r.stage != .park then .next s
    else if r.limit ≤ r.tries + 1 then .next ((s.refuseReq r causeFeRetry 0).unpark r)
    else .next ((s.setReq { r with tries := r.tries + 1 }).after 1024 (.feRetryAttempt req))

/-! ### Performing a request at its line -/

/-- Count a buoy as watched by the slot that placed it. -/
def State.countWatch (s : State) (r : Req) (home line mode level : Nat) : State :=
  s.updSlot r.slot fun x => { x with spec := { x.spec with watch := x.spec.watch ++ [⟨home, line, r.cls.key.2, mode, level⟩] } }

/-- A buoy of a watcher on a line, of a mode. -/
def State.hasBuoy (s : State) (home line slot : Nat) (ctx : W32) (mode : Nat) : Bool :=
  (s.buoysOf home).any fun b => b.slot == slot && b.ctx == ctx && b.line == line && b.mode == mode

/-- Whether a request writes, for the permission checks (R93, R101). -/
def ReqKind.writes : ReqKind → Bool
  | .store | .probe | .amo _ | .cas _ | .ldf | .ste | .stef | .feclr | .stc | .rupd _ => true
  | _ => false

/-- The spot a request has passed its checks for: home, offset, key, and the translation entry whose D a write sets. -/
structure HomeSpot where
  home : Nat
  off  : Nat
  key  : Option (BitVec 512)
  pagePoison : Bool
  tlb  : Option Tlb

/-- A write of a request at its place: D first (R101), then the bytes, poison and notices. -/
def State.writeAt (s : State) (p : HomeSpot) (r : Req) (mask : Nat) (data : List Byte) : Nat × State :=
  let s := match p.tlb with | some t => s.setDirty r.home t | none => s
  s.performWrite p.home (p.off / 64) p.key (mask * 2 ^ (p.off % 64)) (List.replicate (p.off % 64) 0 ++ data) r.id none

/-- Perform a request (R112): commit holds (R122), poison (R109), then its effect on the line and its reply. -/
def State.perform (s : State) (r : Req) (p : HomeSpot) : State :=
  let line := p.off / 64
  let whole := (r.kind == .store || r.kind == .probe) && r.mask == fullMask && r.n == 64
  if s.net.holds.any fun h => h.home == p.home && h.line == line then s.setReq { r with stage := .line, home := p.home, line := line }
  else if p.pagePoison || (s.poisoned p.home line && !whole) then s.refuseReq r causePoison 0
  else if (r.watch.isSome || r.kind == .ldr || r.kind.writes) && s.lineUnsettled r p.home line then
    (s.setReq { r with stage := .travel }).after 1 r.arrive
  else
    let r := { r with home := p.home, line := line }
    let old := s.readHome p.home p.off r.n p.key
    match r.kind with
    | .load | .fetch =>
      let whole := s.readLine p.home line p.key
      let seen := if r.source.isNone && (s.slot r.slot).speculates && (s.slot r.slot).mc.ctxser == r.ctx
        then s.overlay r.slot r.cls.key whole else whole
      let data := (seen.drop (p.off % 64)).take r.n
      let s := match r.watch with
        | some (mode, level) =>
          if (s.slot r.slot).spec.watch.any fun w => w.home == p.home && w.vline == r.cls.key.2 then s
          else (s.placeBuoy p.home line r.slot r.ctx mode level).countWatch r p.home line mode level
        | none => s
      s.reply r (.ok data) 0
    | .store =>
      let n := s.writeAt p r r.mask r.data
      n.2.acknowledge r n.1 [] 0
    | .probe =>
      let lvl := Nat.max (s.slot r.slot).spec.depth 1
      (s.bufferWrite r.slot lvl r.cls.key (r.mask * 2 ^ (p.off % 64)) (List.replicate (p.off % 64) 0 ++ r.data)).reply r (.ok []) 0
    | .amo op =>
      let c := combine op r.n old r.data
      let n := s.writeAt p r r.mask c.1
      n.2.acknowledge r n.1 (old ++ [c.2.setWidth 8]) 4
    | .rupd op =>
      let c := combine op r.n old r.data
      let n := s.writeAt p r r.mask c.1
      n.2.acknowledge r n.1 [] 0
    | .cas expect =>
      if bytesVal old = bytesVal (regBytes r.n expect) then
        let n := s.writeAt p r r.mask r.data
        n.2.acknowledge r n.1 old 4
      else s.reply r (.ok old) 4
    | .ldr => ((s.placeBuoy p.home line r.slot r.ctx 4 0).reply r (.ok old) 4)
    | .stc =>
      if s.hasBuoy p.home line r.slot r.ctx 4 then
        let s := s.removeBuoy p.home line r.slot r.ctx (2 ^ 4)
        let n := s.writeAt p r r.mask r.data
        n.2.acknowledge r n.1 [1] 4
      else s.reply r (.ok [0]) 4
    | .wrs =>
      if s.hasBuoy p.home line r.slot r.ctx 4 then
        let s := s.placeBuoy p.home line r.slot r.ctx 5 0
        match r.source with
        | some q => (s.delReq r.id).sendAnswer q (r.answer statusWatch [])
        | none => (s.setReq { r with stage := .watch }).settleBlock r.slot r.ctx
      else s.reply r (.ok old) 4
    | _ => match r.cls with
      | .sram tile off => s.feRequest r tile off
      | _ => s.refuseReq r causeProt 5

/-! ### Walks (R219) -/

/-- The latency of a walk: three reads of page-table entries at their home. -/
def walkTime : Nat := 60

/-- A request that misses waits for the walk of its page, which begins at once while fewer than 16 run. -/
def State.waitWalk (s : State) (r : Req) (home va : Nat) : State :=
  let s := s.setReq { r with stage := .walk, home := home }
  let h := s.home home
  if h.walks.any fun w => w.asid == r.asid && w.vpn == va / 65536 then s
  else
    let run := decide ((h.walks.filter (·.running)).length < 16)
    let s := s.updHome home fun h => { h with walks := h.walks ++ [⟨r.asid, va / 65536, s.now, false, run⟩] }
    if run then s.after walkTime (.walkComplete home r.asid (va / 65536)) else s

/-- A request is answered pending (R104): a fault record goes to the page service; the home holds an update. -/
def State.answerPending (s : State) (r : Req) : State :=
  let s := s.faultRecord r.home r.asid (match r.cls with | .hbm va => va | _ => vaOf r.ptr) (if r.kind.writes then 1 else 0) r.slot r.ctx
  if r.kind.isUpdate then s.setReq { r with stage := .page } else s.reply r .pending 0

/-- The requests that wait for a page at a home in a stage. -/
def State.waitingFor (s : State) (home : Nat) (asid : BitVec 14) (vpn : Nat) (st : ReqStage) : List Req :=
  (s.net.reqs.filter fun e => e.2.stage == st && e.2.asid == asid && (match e.2.cls with
    | .hbm va => va / 65536 == vpn && va / 65536 % 64 == home
    | _ => false)).map (·.2)

/-- Start the walks that wait for a walker, in order (R219). -/
def State.startWalks (s : State) (home : Nat) : State :=
  let h := s.home home
  let room := 16 - (h.walks.filter (·.running)).length
  let next := (h.walks.filter fun w => !w.running).take room
  next.foldl (fun s w =>
    (s.updHome home fun h => { h with walks := h.walks.map fun v =>
      if v.asid == w.asid && v.vpn == w.vpn then { v with running := true, began := s.now } else v }).after walkTime
      (.walkComplete home w.asid w.vpn)) s

/-- WALK_COMPLETE (R100, R103, R219, R220): a marked walk restarts; otherwise the accesses that wait for it go on, are answered pending, or fail. -/
def execWalkComplete (home : Nat) (asid : BitVec 14) (vpn : Nat) (s : State) : Host.Outcome State Fault Refusal :=
  match (s.home home).walks.find? fun w => w.asid == asid && w.vpn == vpn && w.running with
  | none => .next s
  | some w =>
    if w.marked then
      .next ((s.updHome home fun h => { h with walks := h.walks.map fun v =>
        if v == w then { v with marked := false, began := s.now } else v }).after walkTime (.walkComplete home asid vpn))
    else
      let s := s.updHome home fun h => { h with walks := h.walks.filter fun v => !(v == w) }
      let wait := s.waitingFor home asid vpn .walk
      let go := fun (s : State) (first : Bool) =>
        (wait.foldl (fun s r => (s.setReq { r with stage := .travel, firstTouch := r.firstTouch || first }).after 1 r.arrive) s).startWalks home
      match s.runWalk home asid (vpn * 65536) with
      | (.ok _ first, s) => .next (go s first)
      | (.wait, s) => .next (go s false)
      | (.pending, s) => .next ((wait.foldl (fun s r => s.answerPending r) s).startWalks home)
      | (.fail c, s) => .next ((wait.foldl (fun s r => s.refuseReq r causeXlate c) s).startWalks home)

/-! ### HOME_ACCESS and UPDATE_APPLY -/

/-- A request reaches its home: window checks at a slice, translation and write permission at a memory home (Table 4.7, steps 8 to 10), a register
of the control space, then its effect. A pod request that waits at its NI for a credit tries again (R229). -/
def State.atHome (s : State) (r : Req) : State :=
  let r := if r.flies && !r.cls.away then { r with path := r.path + (s.now - r.since), flies := false } else r
  if r.stage != .travel then s
  else if s.mustWait r && !r.cls.away then (s.setReq r).after 1 r.arrive
  else match r.cls with
    | .sram t off =>
      match s.windowFault t off r.asid r.kind.writes with
      | some c => s.refuseReq r causeProt c
      | none => s.perform r ⟨64 + t, off, none, false, none⟩
    | .hbm va =>
      let home := va / 65536 % 64
      if r.kind.isFe then s.refuseReq r causeProt 5
      else if s.stackDown home then s.refuseReq r causeXlate 5
      else if s.stackStarts home then s.answerPending { r with home := home }
      else match s.tlb? home r.asid va with
        | none => s.waitWalk r home va
        | some t =>
          let s := s.touchTlb home t
          if r.kind.writes && !t.w then s.refuseReq r causeProt 4
          else s.perform { r with home := home } ⟨home, t.pa va % 2 ^ 33, s.keyMat t.key.toNat, t.poison, some t⟩
    | .control off =>
      if r.kind == .store then (s.ctlWrite off (BitVec.ofNat 64 (bytesVal r.data))).reply r (.ok []) 0
      else
        let v := s.ctlRead off
        v.2.reply r (.ok (leBytes 8 v.1.toNat)) 0
    | .pod _ _ => if r.flies && r.sent = 0 then s.sendReq r else s

/-- HOME_ACCESS (R112): a request reaches its home. A request that has been withdrawn is not there. -/
def execHomeAccess (req : Nat) (s : State) : Host.Outcome State Fault Refusal :=
  match s.req? req with
  | none => .next s
  | some r => .next (s.atHome r)

/-- UPDATE_APPLY (R118, R330): a remote update reaches its home. -/
def execUpdateApply (req : Nat) (s : State) : Host.Outcome State Fault Refusal :=
  match s.req? req with
  | none => .next s
  | some r => if r.kind.isUpdate then .next (s.atHome r) else .next s

/-! ### ACCESS_REPLY -/

/-- Add a reply's delay field into the accumulator DMAP selects for its class, saturating (R63, R232). An addition in the cycle in which the accumulator has
been written is lost (R232). -/
def Slot.addDelay (x : Slot) (now cls delay : Nat) : Slot :=
  let n := (x.u.dmap.extractLsb' (4 * cls) 4).toNat
  if x.u.daccAt.1 = now && x.u.daccAt.2.getLsbD n then x
  else
    let v := Nat.min ((x.u.dacc.getD n 0).toNat + Nat.min delay 0xFFFF) 0xFFFFFFFF
    { x with u := { x.u with dacc := x.u.dacc.setIfInBounds n (BitVec.ofNat 32 v) } }

/-- The class of a request's reply (Table 3.6); `sram` says of another package's home what answered. DESIGN CHOICE for registers of the control space
(log 47). -/
def Req.replyCls (r : Req) (sram : Bool) : Nat :=
  match r.cls with
  | .pod _ _ => if sram then 10 else 11
  | .control off => if off / 0x100000 = 1 ∨ off / 0x100000 = 2 then replyClass r.tile r.home else if dieOf r.tile = 0 then 5 else 6
  | _ => if r.firstTouch then 12 else replyClass r.tile r.home

/-- The delay field of a message that reaches a slot: the hop and queue delays of the request's way and of its own (R30). -/
def State.delayOf (s : State) (r : Req) : Nat := r.path + (s.now - r.since)

/-- Convert the elements of VLD.C (Table 15.3): lane values and flags. -/
def widenC (fmt : Nat) (b : List Byte) : List W32 × Flags :=
  match fmt with
  | 0x10 | 0x05 | 0x06 => ((List.range 16).map fun k => extend32 4 false (b.drop (4 * k)), 0)
  | 0x11 => ((List.range 16).map fun k => widen32 fp16 (bytesVal ((b.drop (2 * k)).take 2)), 0)
  | 0x12 => ((List.range 16).map fun k => widen32 fbf16 (bytesVal ((b.drop (2 * k)).take 2)), 0)
  | 0x13 => ((List.range 16).map fun k => widen32 fe4m3 (bytesVal ((b.drop k).take 1)), 0)
  | 0x14 => ((List.range 16).map fun k => widen32 fe5m2 (bytesVal ((b.drop k).take 1)), 0)
  | 0x03 => ((List.range 16).map fun k => extend32 2 true (b.drop (2 * k)), 0)
  | 0x04 => ((List.range 16).map fun k => extend32 2 false (b.drop (2 * k)), 0)
  | 0x01 => ((List.range 16).map fun k => extend32 1 true (b.drop k), 0)
  | 0x02 => ((List.range 16).map fun k => extend32 1 false (b.drop k), 0)
  | _ =>
    let r := lx8Decode b
    ((List.range 16).map fun k => (to32 .rne (r.1.getD k .nan, 0)).bits, r.2)

/-- Write back the result of a completed access (R317): `r` is its last request. -/
def Slot.writeBack (x : Slot) (o : LongOp) (r : Req) : Slot :=
  let data := (o.got.head?.map (·.2)).getD []
  match o.wb with
  | .none => x
  | .g d n sgn => x.writeG d (extend64 n sgn data)
  | .fadd d => (x.writeG d (extend64 4 false data)).raise ((data.getD 4 0).setWidth 5)
  | .vec d mask n sgn =>
    x.writeLanes d mask fun k =>
      if n = 64 then extend32 4 false (data.drop (4 * k))
      else extend32 n sgn (((o.got.find? fun e => e.1 == k).map (·.2)).getD [])
  | .vldc d mask fmt _ =>
    let w := widenC fmt data
    (x.writeLanes d mask fun k => w.1.getD k 0).raise w.2
  | .stc d _ _ => x.writeG d (extend64 1 false data)
  | .wrs d n _ _ => x.writeG d (extend64 n true data)
  | .ldr d n => { x.writeG d (extend64 n true data) with rsv := some (r.ptr, n, r.home, r.line) }
  | .mspill _ => x
  | .mfill m => { x with rmask := x.rmask &&& ~~~(BitVec.ofNat 8 (2 ^ m.toNat)) }

/-- What MSPILL and MFILL do to their accumulator once every row has been written or read (R200). -/
def State.accBack (s : State) (o : LongOp) : State :=
  let core := coreOf s.curId
  match o.wb with
  | .mspill m => s.updCore core fun c => { c with accs := c.accs.setIfInBounds m.toNat Acc.free }
  | .mfill m =>
    let row := fun (r : Nat) => ((o.got.find? fun e => e.1 == r).map (·.2)).getD []
    let acc : Acc := ⟨some (slotIx s.curId, s.cur.mc.ctxser, s.cur.u.tid),
      Vector.ofFn fun n => BitVec.ofNat 32 (leNat (((row (n.val / 16)).drop (4 * (n.val % 16))).take 4))⟩
    s.updCore core fun c => { c with accs := c.accs.setIfInBounds m.toNat acc }
  | _ => s

/-- The buoy of a reservation that an STC or a WRS has taken up is released when that fails (R331). -/
def State.dropWatch (s : State) (o : LongOp) : State :=
  match o.wb with
  | .stc _ home line | .wrs _ _ home line => s.sendRelease s.curId s.cur.mc.ctxser home line 4
  | _ => s

/-- An element of an operation of the slot in focus has come back (R317, R318). -/
def State.elementDone (s : State) (r : Req) (res : ReqRes) : State :=
  let s := s.delReq r.id
  match s.cur.ops.find? fun o => o.id == r.op with
  | none => s
  | some o =>
    let fail := match res with
      | .fail c k =>
        let f : Failure := ⟨r.lane, c, k, r.ptr⟩
        (match o.fail with | some g => if g.lane ≤ r.lane then some g else some f | none => some f)
      | _ => o.fail
    let got := match res with | .ok d => o.got ++ [(r.lane, d)] | _ => o.got
    let o := { o with left := o.left - 1, got := got, fail := fail }
    if o.left ≠ 0 then s.updCur fun x => { x with ops := x.ops.map fun p => if p.id = o.id then o else p }
    else match o.fail with
      | some f => (s.dropWatch o).failOp o f
      | none => ((s.accBack o).updCur fun x => x.writeBack o r).closeOp o.id

/-- An access of the slot in focus is answered pending: the slot blocks until the wake; a transaction aborts with FAULT and CODE 0 and its slot
blocks before it goes on; in a glide or a chunk the access is withdrawn (R104, R137, R145, R147). -/
def State.pendAccess (s : State) (r : Req) : State :=
  if s.cur.inTx then (s.txAbort txFault 0).waitPage { r with op := 0 }
  else if s.cur.speculates then s.elementDone r (.fail causeXlate 4)
  else s.waitPage r

/-- A reply reaches the slot in focus, of a class and with a delay. -/
def State.takeReply (s : State) (r : Req) (res : ReqRes) (cls delay : Nat) : State :=
  let s := s.updCur fun x => x.addDelay s.now cls delay
  match res with
  | .pending => s.pendAccess r
  | res => (s.elementDone r res).settleBlock r.slot r.ctx

/-- What a reply from another package says of a request (Table 22.6, R227, R230). -/
def Req.podRes (r : Req) (a : PodAnswer) : ReqRes :=
  if a.status = 0 then
    let b := if a.bytes.isEmpty then leBytes 8 a.data.toNat else a.bytes
    .ok (if r.kind == .load then (b.drop r.shift).take r.n else b)
  else if a.status = 0x100 then .pending
  else .fail (a.status % 0x20) (a.status / 0x20 % 8)

/-- The requester's ACKED after a reply (R229): the lowest number to that home without a reply. -/
def State.ackPod (s : State) (r : Req) : State :=
  match r.cls with
  | .pod pkg va =>
    let key := s.podKey r.tile r.asid pkg va
    let out := (s.podOut r.podUnit key true).filter fun o => o.id != r.id
    let next := ((s.podSeqs r.podUnit).getD (0, 0) key).1
    let low := out.foldl (fun m o => if (BitVec.ofNat 32 m - o.seqNo).toNat < 2147483648 then o.seqNo.toNat else m) next
    s.setPodSeq r.podUnit key (next, low)
  | _ => s

/-- Another package has answered a request: it asks for patience, or the request is over. -/
def State.podReply (s : State) (r : Req) (a : PodAnswer) : State :=
  if a.status = 0x101 then s.after 2400 (.busyResend r.id)
  else
    let s := s.ackPod r
    let r := { r with sent := 0 }
    if r.kind == .wrs && a.status = statusWatch then (s.setReq { r with stage := .watch }).settleBlock r.slot r.ctx
    else if a.status = statusPark then (s.setReq { r with stage := .park }).settleBlock r.slot r.ctx
    else if 100 ≤ r.lane ∧ r.op = 0 ∧ r.kind ≠ .fetch then s.setReq { r with stage := .done, res := r.podRes a }
    else if r.kind.isUpdate then
      match r.podRes a with
      | .fail c k => s.refuseUpdate r c k
      | .pending => s.setReq { r with stage := .page }
      | .ok _ => s.delReq r.id
    else if r.kind == .fetch then
      match r.podRes a with
      | .ok d => s.deliverLine r.tile r.asid r.line d
      | .fail c k => s.within r.slot fun s => s.failFetch r c k
      | .pending => s.within r.slot fun s => s.pendFetch r
    else s.within r.slot fun s => if s.mine r then s.takeReply r (r.podRes a) (r.replyCls a.sram) a.delay.toNat else s.delReq r.id

/-! ### Wakes (R104) -//-! ### Wakes (R104) -/

/-- The marks of requests that only stand for the wait of a page: of an access withdrawn at eviction, and of an instruction that holds issue. -/
def withdrawnLane : Nat := 501
def holdLane : Nat := 500

/-- A wake leaves the home of a pending page for the slot of a request that waits for it; an update is held at the home and goes on there (R104, R448). -/
def State.sendWake (s : State) (r : Req) (maps : Bool) (code : Nat) : State :=
  if r.kind.isUpdate then
    if maps then (s.setReq { r with stage := .travel }).after 1 (.updateApply r.id) else s.refuseUpdate r causeXlate code
  else
    (s.setReq { r with stage := .wake, path := 0, since := s.now, res := if maps then .ok [] else .fail causeXlate code }).after (hopMsg r.tile r.home)
      (.accessReply r.id none)

/-- A wake reaches a request that waits for a page: it is reissued, or takes the refusal (R104). A request that only holds a slot until the wake
has had its effect (R137). -/
def State.wakeReq (s : State) (r : Req) (maps : Bool) (code : Nat := 4) : State :=
  let unpage := fun (s : State) => s.settleBlock r.slot r.ctx
  if r.kind.isUpdate then
    if maps then s.sendReq { r with tries := 0 } else s.refuseUpdate r causeXlate code
  else if r.kind == .fetch then
    let s := unpage (s.delReq r.id)
    if maps || r.op ≠ 0 then s else s.within r.slot fun s => if s.mine r && s.needs r.line && !s.cur.inTx then s.issueTrap s.cur.word causeXlate code r.ptr else s
  else if r.op = 0 then
    let s := s.delReq r.id
    let s := if r.lane = withdrawnLane then s.updRecs (fun e => e.from_ == r.slot && e.ctx == r.ctx && e.slot.status == .blocked .page) fun e =>
        { e with ready := true, slot := { e.slot with
            occurred := true, fails := if maps || r.order == 1 then e.slot.fails else [(e.slot.pc, e.slot.word, ⟨0, causeXlate, code, r.ptr⟩)] } }
      else if r.lane = holdLane && !maps then s.updSlot r.slot fun x => if x.mc.ctxser == r.ctx then { x with refuse := true } else x
      else s
    unpage s
  else
    let s := s.updSlot r.slot fun x => if x.mc.ctxser == r.ctx then x.addDelay s.now (r.replyCls false) (s.delayOf r) else x
    if maps then unpage (s.sendReq { r with res := .ok [], tries := 0 })
    else
      unpage (s.within r.slot fun s => if s.mine r then (s.setReq { r with stage := .travel }).elementDone r (.fail causeXlate code) else s.delReq r.id)

/-- A WRS of the slot in focus wakes: it reads at the home after the waking write (R332). A notice of another package names the line there, so that its
home alone tells which WRS is meant. -/
def State.wakeWrs (s : State) (home line : Nat) : State :=
  match s.net.reqs.find? fun e => s.mine e.2 && e.2.stage == .watch && e.2.home == home && (e.2.line == line || decide (foreignHome < home)) with
  | none => s
  | some e => (s.sendReq { e.2 with kind := .load }).settleBlock e.2.slot e.2.ctx

/-- What a wake does to the slot it names. -/
def State.wakeSlot (s : State) (k : Nat) (refuse : Bool) : State :=
  let x := s.slot k
  match x.status with
  | .blocked .page =>
    let wait := s.net.reqs.filter fun e =>
      e.2.slot == k && e.2.ctx == x.mc.ctxser && e.2.stage == .page && !e.2.kind.isUpdate && e.2.source.isNone
    wait.foldl (fun s e => s.wakeReq e.2 (!refuse)) s
  | .blocked .retrySleep => s.within k State.wakeSleeper
  | .blocked .wrs => s.within k fun s =>
    match s.net.reqs.find? fun e => s.mine e.2 && e.2.stage == .watch with
    | some e => s.wakeWrs e.2.home e.2.line
    | none => s
  | _ => s

/-- What marks the message of a WAKE instruction on its way. -/
def wakeLane : Nat := 502
/-- A WAKE message names its slot by a number that no slot of the package has. -/
def wakeMark : Nat := 16777216

/-- A WAKE instruction of the slot in focus sends its message to a slot (R371, R448). -/
def State.sendWakeTo (s : State) (k : Nat) (refuse : Bool) : State :=
  let (id, s) := s.fresh
  let r := { engineReq id (wakeMark + k) 0 0 0 wakeLane (tileOf k) 0 (.control 0) s.now with
    kind := .load, stage := .wake, res := if refuse then .fail causeXlate 4 else .ok [] }
  (s.setReq r).after (hopTile s.myTile (tileOf k)) (.accessReply id none)

/-- ACCESS_REPLY (R112, R230): a reply, the wake of a page, or another package's answer to a pod request, reaches its tile. A request that has been
withdrawn, or whose placement has gone, is not there. A notice is answered in the same way once it is taken there (R135; log 5). -/
def execAccessReply (req : Nat) (remote : Option PodAnswer) (s : State) : Host.Outcome State Fault Refusal :=
  match s.req? req with
  | none => .next (if remote.isSome then s.awayTaken req else s)
  | some r =>
    match remote with
    | some a => if r.cls.away && (r.stage == .travel || r.stage == .park) then .next (s.podReply r a) else .next s
    | none =>
      if r.lane = wakeLane && r.op == 0 then .next ((s.delReq req).wakeSlot (r.slot - wakeMark) (match r.res with | .fail .. => true | _ => false))
      else if r.stage == .wake then .next (s.wakeReq r (match r.res with | .fail .. => false | _ => true) (match r.res with | .fail _ k => k | _ => 4))
      else if r.stage != .reply then .next s
      else .next (s.within r.slot fun s => if s.mine r then s.takeReply r r.res (r.replyCls false) (s.delayOf r) else s.delReq req)

/-- The home and line there of a line that a release message of another package names by its address (R89, R217). -/
def State.foreignLine (s : State) (asid : BitVec 14) (line : Nat) : Option (Nat × Nat) :=
  let e := s.asidEnt asid
  match localClass (if e.wv then some e.wbase else none) (line * 64) with
  | .sram t off => some (64 + t, off / 64)
  | .hbm va =>
    let home := va / 65536 % 64
    match s.tlb? home asid va with
    | some t => some (home, t.pa va % 2 ^ 33 / 64)
    | none => (match s.walk asid va with
      | .leaf _ e large => some (home, (frameOf va e large * 65536 + va % 65536) % 2 ^ 33 / 64)
      | _ => none)
  | _ => none

/-- RELEASE_MESSAGE (R217). -/
def execReleaseMessage (m : ReleaseMsg) (s : State) : Host.Outcome State Fault Refusal :=
  if m.home < foreignHome then .next (s.removeBuoy m.home m.line m.slot m.ctx m.modes)
  else match s.foreignLine m.asid m.line with
    | some (home, line) => .next (s.removeBuoy home line m.slot m.ctx m.modes)
    | none => .next s

/-! ### Notices (R135, R216) -/

/-- A notice reaches the slot it names (R216): the placement it was placed by, the record that task was saved in, or nobody.
A Saved sleeper that wakes gives up its TX-sleep buoys (R140, R217). -/
def State.deliverNotice (s : State) (n : Notice) (lost : Bool) : State :=
  let x := s.slot n.slot
  if x.mc.ctxser == n.ctx && x.status != .free && x.status != .saving then
    s.within n.slot fun s => if n.mode = 5 then s.wakeWrs n.home n.line else s.takeNotice n lost
  else
    let its := fun (r : SaveRec) => r.from_ == n.slot && r.ctx == n.ctx && (n.mode == 2 || n.mode == 5)
    let sleeps := (s.tiles.flatMap fun e => e.2.recs.map (·.2)).filter fun r => its r && r.slot.status == .blocked .retrySleep
    let s := sleeps.foldl (fun (s : State) r =>
      (r.slot.spec.watch.filter fun w => w.mode == 2).foldl (fun s w => s.sendRelease r.from_ r.ctx w.home w.line 2) s) s
    s.updRecs its fun r => { r with
      ready := true
      slot := { r.slot with
        occurred := true
        spec := if r.slot.status == .blocked .retrySleep then { r.slot.spec with watch := r.slot.spec.watch.filter fun w => w.mode != 2 } else r.slot.spec } }

/-- Tell the package of a notice's home that the notice is taken (R135; log 5). -/
def State.tellTaken (s : State) (n : Notice) : State := s.post (n.home - foreignHome - 1) (.accessReply n.ack (some ⟨0, 0, [], 0, false⟩))

/-- BUOY_NOTICE (R216): a write's notice is taken, and the write's acknowledgement has one fewer to wait for (R135). -/
def execBuoyNotice (n : Notice) (s : State) : Host.Outcome State Fault Refusal :=
  let t := s.deliverNotice n false
  .next (if foreignHome < n.home then t.tellTaken n else t.noticeTaken n.ack)

/-- LOSS_NOTICE (R215): the loss of a buoy is taken. -/
def execLossNotice (n : Notice) (s : State) : Host.Outcome State Fault Refusal :=
  let t := s.deliverNotice n true
  .next (if foreignHome < n.home then t.tellTaken n else t)

end Sys2Proof.Machine
end

