-- ==== Sys2Proof/Machine/Tx.lean ====
section
/-! DEFINITION. Transactions: TXB, TXELSE, TXE, TXR, TXABORT, TXST, and the commit protocol of transactions and glide drains
(spec/06_speculation.md R136 to R142, R146, R149; spec/15_memory_instructions.md R337 to R340). -/

namespace Sys2Proof.Machine

/-! ### Levels -/

/-- Arm or disarm the alternative of a level. -/
def Spec.arm (sp : Spec) (level : Nat) (a : Option Addr) : Spec := { sp with alts := sp.alts.setIfInBounds (level - 1) a }

/-- The alternative armed at a level. -/
def Spec.alt (sp : Spec) (level : Nat) : Option Addr := if level = 0 then Option.none else sp.alts.getD (level - 1) Option.none

/-- The buffer lines a slot wrote at a level pass to the level below (R141). -/
def State.foldLevel (s : State) (slot level : Nat) : State :=
  let up := (s.core (coreOf slot)).buf.filter fun b => b.slot == slot && b.level == level
  up.foldl (fun s b => s.bufferWrite slot (level - 1) (b.home, b.vline) b.mask b.data) (s.dropBuf slot level)

/-! ### Commit (R141, R142, R146) -/

/-- The acknowledgement number under which a slot's commit notifies watchers. -/
def commitAck (slot : Nat) : Nat := 2 ^ 60 + slot

/-- Whether one key of the buffer precedes another: by home, then by address within the home (R141). -/
def keyBefore (a b : Nat × Nat) : Bool := decide (a.1 < b.1 ∨ (a.1 = b.1 ∧ a.2 < b.2))

/-- The address within its home of a line of the write set in focus: that of the translation its page has now, for a line of HBM class (R141). -/
def State.homeLine (s : State) (k : Nat × Nat) : Nat :=
  if k.1 ≥ 64 then k.2
  else
    let va := k.2 * 64
    match s.tlb? k.1 s.cur.sc.asid va with
    | some t => t.pa va % 2 ^ 33 / 64
    | none => match s.walk s.cur.sc.asid va with
      | .leaf _ e large => (frameOf va e large * 65536 + va % 65536) % 2 ^ 33 / 64
      | _ => k.2

/-- Insert into a list of keys, each with its home and address there, kept in the order of R141. -/
def insertKey : List ((Nat × Nat) × (Nat × Nat)) → (Nat × Nat) × (Nat × Nat) → List ((Nat × Nat) × (Nat × Nat))
  | [], k => [k]
  | a :: l, k => if keyBefore k.1 a.1 then k :: a :: l else a :: insertKey l k

/-- The write set of the slot in focus in the order of R141. -/
def State.writeSet (s : State) : List (Nat × Nat) :=
  ((s.bufKeys s.curId).foldl (fun l k => insertKey l ((k.1, s.homeLine k), k)) []).map (·.2)

/-- Where a buffered line goes: its home, line and key, with the checks of a write. -/
def State.commitSpot (s : State) (slot : Nat) (key : Nat × Nat) (whole : Bool) : Acc1 Spot × State :=
  if key.1 ≥ 64 then
    let t := key.1 - 64
    match s.windowFault t (key.2 * 64) (s.slot slot).sc.asid true with
    | some c => (.fail causeProt c, s)
    | none => if s.poisoned key.1 key.2 && !whole then (.fail causePoison 0, s) else (.ok ⟨key.1, key.2 * 64, none, false⟩, s)
  else s.spotRaw (tileOf slot) (s.slot slot).sc.asid (key.2 * 64) true whole

/-- The buffered bytes of a line: mask and data, the higher levels over the lower ones. -/
def State.buffered (s : State) (slot : Nat) (key : Nat × Nat) : Nat × List Byte :=
  let l := (s.core (coreOf slot)).buf.filter fun b => b.slot == slot && b.home == key.1 && b.vline == key.2
  (l.foldl (fun m b => m ||| b.mask) 0, s.overlay slot key (List.replicate 64 0))

/-- The commit ends: the commit count increments; a transaction's TXE retires (R141, R142). -/
def State.finishCommit (s : State) : State :=
  let tx := s.cur.spec.mode == .tx
  let s := s.dropHolds s.curId
  let s := s.updCur fun x => { x with commits := x.commits + 1, spec := { Spec.none with watch := x.spec.watch } }
  if tx then s.retire.advance else s

/-- The commit point (R141): the buoys of the speculation are released and its lines are applied from now on. A drained glider goes on without
speculation (R146). -/
def State.commitPoint (s : State) : State :=
  let keys := s.writeSet
  let s := s.releaseWatch fun w => w.isTx || w.mode == 3
  let s := { s with net := { s.net with holds := s.net.holds.map fun (h : LineHold) => if h.slot = s.curId then { h with point := true } else h } }
  let s := s.updCur fun x => { x with spec := { x.spec with
    wake := false, commit := .applying, toHold := [], toApply := keys, stalled := false, undo := none } }
  match keys with
  | [] => s.finishCommit
  | (h, v) :: _ => s.after 1 (.commitApply s.curId h v)

/-- The commit point of the speculation in focus has to wait (R122, R123, log 30): a notice for one of its buoys is on its way, or a line it has read
is held by a committed writer that has yet to apply it. -/
def State.noticeComing (s : State) : Bool :=
  (s.net.pend.any fun p => match p.ev with
    | .buoyNotice n | .lossNotice n => n.slot == s.curId && n.ctx == s.cur.mc.ctxser && (n.mode == 1 || n.mode == 3 || n.mode == 6)
    | _ => false) ||
  s.net.holds.any fun h => h.point && h.slot != s.curId && s.cur.spec.watch.any fun w =>
    w.home == h.home && w.line == h.line && (w.mode == 1 || w.mode == 3 || w.mode == 6)

/-- A line of the write set in focus is under the commit hold of another slot (R122). -/
def State.writesHeld (s : State) : Bool :=
  s.net.holds.any fun h => h.slot != s.curId && (s.bufKeys s.curId).contains (h.home, h.vline)

/-- With every hold placed, the commit point is reached, unless a notice has come or is on its way (R141, R145, R297, log 30). -/
def State.reachPoint (s : State) : State :=
  let again := s.after 1 (.commitHold s.curId 0 0)
  if s.cur.spec.undo.isSome then (if s.cur.frame.isSome then again else s.settleUndo)
  else if s.noticeComing then again
  else s.commitPoint

/-- Start a commit of the slot in focus: holds are placed one after another. With an empty write set the commit point is reached at once. -/
def State.startCommit (s : State) : State :=
  let keys := s.writeSet
  let s := s.updCur fun x => { x with spec := { x.spec with commit := .holding, toHold := keys } }
  match keys with
  | [] => if s.cur.ops.isEmpty then s.reachPoint else s.after 1 (.commitHold s.curId 0 0)
  | k :: _ => s.after (hopHome s.myTile (Nat.min k.1 575)) (.commitHold s.curId k.1 k.2)

/-- Whether the placement of slot `d` is older than that of slot `c` (R142). -/
def State.olderThan (s : State) (d c : Nat) : Bool :=
  decide ((s.slot d).commits.toNat < (s.slot c).commits.toNat ∨ ((s.slot d).commits = (s.slot c).commits ∧ (s.slotIdent d).toNat < (s.slotIdent c).toNat))

/-- A hold of the slot in focus is placed; the next request leaves. DEDUCED (log 38). -/
def State.placeHold (s : State) (p : Spot) (vline : Nat) : State :=
  let drain := s.cur.spec.mode == .glide
  let s := s.updNet fun n => { n with holds := n.holds ++ [⟨p.home, p.off / 64, vline, s.curId, p.key, drain, false⟩] }
  let s := s.updCur fun x => { x with spec := { x.spec with toHold := x.spec.toHold.drop 1 } }
  match s.cur.spec.toHold with
  | [] => s.after 1 (.commitHold s.curId 0 0)
  | (h, v) :: _ => s.after (hopHome s.myTile h) (.commitHold s.curId h v)

/-- The commit of the slot in focus cannot write a line: a transaction aborts with FAULT (R137). A glide drain goes back: it rolls back and the code
after its BARG runs again without speculation, where the write traps or waits. DESIGN CHOICE (log 83). -/
def State.commitFails (s : State) (code : Nat) : State :=
  if s.cur.spec.mode == .glide then s.glideBack else s.txAbort txFault code

/-- A line of the commit in focus lies in a page that is pending: a transaction aborts with FAULT and CODE 0, and its slot blocks until the wake (R137). -/
def State.commitPends (s : State) (home vline : Nat) : State :=
  let s := s.faultRecord home s.cur.sc.asid (vline * 64) 1 s.curId s.cur.mc.ctxser
  if s.cur.spec.mode == .glide then s.glideBack
  else
    let s := s.txAbort txFault 0
    let (r, s) := s.mkReq 0 .load none ⟨0, 0, 1, 1, []⟩ (BitVec.ofNat 64 (vline * 64)) (.hbm (vline * 64))
    (s.setReq { r with stage := .page, flies := false }).settleBlock s.curId s.cur.mc.ctxser

/-- A commit hold request of the slot in focus reaches a home (R141, R142). With every hold placed, the commit point is reached. -/
def State.holdStep (s : State) (home vline : Nat) : State :=
  let again := s.after 1 (.commitHold s.curId home vline)
  if s.cur.spec.commit != .holding then s
  else if !s.cur.ops.isEmpty then again
  else match s.cur.spec.toHold with
    | [] => s.reachPoint
    | k :: _ =>
      if k != (home, vline) then s
      else match s.commitSpot s.curId k ((s.buffered s.curId k).1 == fullMask) with
        | (.pending h _, s) => s.commitPends h vline
        | (.wait, s) => s.after 1 (.commitHold s.curId home vline)
        | (.fail c _, s) => s.commitFails c
        | (.gone, s) => s.commitFails 0
        | (.ok p, s) =>
          match s.net.holds.find? fun h => h.home == p.home && h.line == p.off / 64 && h.slot != s.curId with
          | none => s.placeHold p vline
          | some d =>
            if d.point || d.drain then s.after 1 (.commitHold s.curId home vline)
            else if s.olderThan d.slot s.curId then
              (if s.cur.spec.mode == .glide then s.after 1 (.commitHold s.curId home vline) else s.txAbort txConflict 0)
            else (s.within d.slot fun s => s.txAbort txConflict 0).placeHold p vline

/-- COMMIT_HOLD (R142). -/
def execCommitHold (slot home line : Nat) (s : State) : Host.Outcome State Fault Refusal :=
  .next (s.within slot fun s => s.holdStep home line)

/-- Notices of the writes of a commit of the slot in focus are still to be taken (R135). -/
def State.commitUnseen (s : State) : Bool :=
  (s.net.pend.any fun p => match p.ev with | .buoyNotice n => n.ack == commitAck s.curId | _ => false) ||
    s.net.away.any fun a => a.ack == commitAck s.curId

/-- Apply one line of a commit of the slot in focus and release its hold; when all are applied and their notices taken, the commit ends
(R135, R141). -/
def State.applyStep (s : State) (home vline : Nat) : State :=
  if s.cur.spec.commit != .applying then s
  else match s.cur.spec.toApply with
    | [] =>
      if s.commitUnseen then
        s.after 1 (.commitApply s.curId home vline)
      else s.finishCommit
    | k :: rest =>
      if k != (home, vline) then s
      else if s.net.holds.any fun h => h.slot == s.curId && h.home == home && h.vline == vline && s.lossComing h.home h.line then
        s.after 1 (.commitApply s.curId home vline)
      else
        let s := match s.net.holds.find? fun h => h.slot == s.curId && h.home == home && h.vline == vline with
          | some h =>
            let w := s.buffered s.curId k
            let s := (s.performWrite h.home h.line h.key w.1 w.2 (commitAck s.curId) (some s.curId)).2
            ({ s with net := { s.net with holds := s.net.holds.filter fun o => o != h } }).retryLine h.home h.line
          | none => s
        let s := s.updCore (coreOf s.curId) fun c => { c with buf := c.buf.filter fun b =>
          !(b.slot == s.curId && b.home == home && b.vline == vline) }
        let s := s.updCur fun x => { x with spec := { x.spec with toApply := rest } }
        match rest with
        | [] => s.after 1 (.commitApply s.curId 0 0)
        | (h, v) :: _ => s.after 1 (.commitApply s.curId h v)

/-- COMMIT_APPLY (R141). -/
def execCommitApply (slot home line : Nat) (s : State) : Host.Outcome State Fault Refusal :=
  .next (s.within slot fun s => s.applyStep home line)

/-! ### Instructions -/

/-- TXB (R136, R338): the outermost one opens the transaction; an inner one opens a level; at depth 4 the transaction aborts. In Piste mode it is
the start of a chunk (R149). -/
def execTxb (disp : BitVec 23) (s : State) : Host.Outcome State Fault Refusal :=
  issue (.txb disp) s fun s =>
    let x := s.cur
    if x.spec.commit != .none then .stall
    else if x.inTx then
      if x.spec.depth ≥ 4 then .abort txFault causeTxNest
      else .next (s.updCur fun x => { x with spec := { x.spec.arm (x.spec.depth + 1) none with depth := x.spec.depth + 1 } })
    else
      let sp := if x.spec.mode == .chunk then x.spec
        else { Spec.none with mode := if x.sc.piste then .chunk else .tx, restart := x.pc, ckpt := some x.checkpoint, watch := x.spec.watch }
      .next (s.updCur fun x => { x with spec := { sp with depth := 1, abortTo := target x.pc disp, alts := Spec.none.alts } })

/-- TXELSE (R136, R338). -/
def execTxelse (disp : BitVec 23) (s : State) : Host.Outcome State Fault Refusal :=
  issue (.txelse disp) s fun s =>
    if !s.cur.inTx then .trap causeIllegal 7 ((encode (.txelse disp)).setWidth 64)
    else .next (s.updCur fun x => { x with spec := x.spec.arm x.spec.depth (some (target x.pc disp)) })

/-- TXE at an inner level (R141). -/
def State.closeLevel (s : State) : State :=
  let lvl := s.cur.spec.depth
  let s := s.foldLevel s.curId lvl
  let s := s.remode fun w => if w.isTx && w.level == lvl then { w with level := lvl - 1 } else w
  s.updCur fun x => { x with spec := { x.spec.arm lvl none with depth := lvl - 1 } }

/-- TXE (R141, R149): it closes an inner level; at level 1 it commits, at once where nothing was written. In Piste mode it ends the chunk, which
commits at its turn. -/
def execTxe (s : State) : Host.Outcome State Fault Refusal :=
  issue .txe s fun s =>
    if !s.cur.inTx then .trap causeIllegal 7 ((encode .txe).setWidth 64)
    else if 1 < s.cur.spec.depth then .next s.closeLevel
    else if s.cur.spec.mode == .chunk then
      .next (s.updCur fun x => { x with spec := { x.spec with
        depth := 0, alts := Spec.none.alts, ended := true, count := Nat.max x.spec.count s.pkg.chunkLimit } })
    else if s.writeSet.isEmpty then (if s.noticeComing then .hold s (.again 0) else .done s.commitPoint)
    else .done (s.startCommit.updCur fun x => { x with hold := .answer 0, word := encode .txe })

/-- The retry passes out of level 1 (R140): the slot sleeps at the restart point, or goes on at once when its wake-pending bit is set. A Piste chunk
ends asleep at its start. -/
def State.txSleep (s : State) : State :=
  let s := s.dropBuf s.curId 0
  let chunk := s.cur.spec.mode == .chunk
  let s := s.updCur fun x =>
    let y := x.restore
    { y with
      pc := x.spec.restart
      wait := s.now + 1
      status := .blocked .retrySleep
      spec := if chunk then { x.spec with depth := 0, alts := Spec.none.alts, ended := true } else x.spec.ended_ true }
  if !chunk && s.cur.spec.wake then s.wakeSleeper else s

/-- TXR at level `n` (R139). -/
def State.txRetry : Nat → State → State
  | 0, s => s.txSleep
  | n + 1, s =>
    let s := s.dropBuf s.curId (n + 1)
    let s := s.remode fun w =>
      if (w.mode == 1 && w.level == n + 1) || (w.mode == 2 && decide (n + 1 < w.level)) then { w with mode := 2, level := n + 1 } else w
    match s.cur.spec.alt (n + 1) with
    | some a => (s.updCur fun x => { x with spec := { x.spec.arm (n + 1) none with depth := n + 1 } }).jump a
    | none => State.txRetry n s

/-- TXR (R139, R140). -/
def execTxr (s : State) : Host.Outcome State Fault Refusal :=
  issue .txr s fun s =>
    if !s.cur.inTx then .trap causeIllegal 7 ((encode .txr).setWidth 64)
    else .done (State.txRetry s.cur.spec.depth s.retire)

/-- TXABORT (R339). -/
def execTxabort (c : BitVec 8) (s : State) : Host.Outcome State Fault Refusal :=
  issue (.txabort c) s fun s => if s.cur.inTx then .done (s.retire.txAbort txExplicit c.toNat) else .next s

/-- What TXST reads (R340). -/
def State.txStatus (s : State) : W64 :=
  let x := s.cur
  BitVec.ofNat 64 (x.spec.depth + (s.bufKeys s.curId).length * 2 ^ 3 + (x.spec.watch.filter Watch.isTx).length * 2 ^ 12
    + (if x.spec.wake then 2 ^ 25 else 0) + (if (x.spec.alt x.spec.depth).isSome then 2 ^ 26 else 0) + (if x.rsv.isSome then 2 ^ 27 else 0))

/-- TXST (R340). -/
def execTxst (d : RegNo) (s : State) : Host.Outcome State Fault Refusal :=
  issue (.txst d) s fun s => .next { s with cur := s.cur.writeG d s.txStatus }

end Sys2Proof.Machine
end

