-- ==== Sys2Proof/Machine/Bar.lean ====
section
/-! DEFINITION. Barriers and what answers instructions that hold issue: BARA, BARW, BARG, BARQ, BARSET, arrivals, completions
(spec/15_memory_instructions.md R333 to R336; spec/09_tables.md R221 to R224; spec/06 R144, R146; spec/07 R177). -/

namespace Sys2Proof.Machine

/-! ### Arrival records -/

/-- The arrival record of a task for a barrier id (R333). -/
def Task.arrival (t : Task) (id : BitVec 5) : Option Bool := t.arrivals.getD id.toNat none

/-- Set or clear an arrival record. -/
def Task.arrive (t : Task) (id : BitVec 5) (a : Option Bool) : Task := { t with arrivals := t.arrivals.setIfInBounds id.toNat a }

/-! ### Groups and barrier homes (R17, R177, R223) -/

/-- The width of field `k` of WIDF, `k` from 1. -/
def widthOf (widf : BitVec 39) (k : Nat) : Nat := (widf.extractLsb' (6 * (k - 1)) 6).toNat
/-- The number of fields of WIDF. -/
def fieldsOf (widf : BitVec 39) : Nat := (widf.extractLsb' 36 3).toNat
/-- The place of the lowest bit of field `k`: the widths of the fields inside it. -/
def belowField (widf : BitVec 39) (k : Nat) : Nat := ((List.range (fieldsOf widf - k)).map fun j => widthOf widf (k + 1 + j)).sum

/-- The group key of the level-`k` group of a work identifier: launch id, then the values of fields 1 to `k` (R223). DEDUCED (log 41). -/
def groupKey (launch : W32) (wid : W64) (widf : BitVec 39) (k : Nat) : BitVec 96 := (wid >>> belowField widf k) ++ launch

/-- The key of the package barrier that an id names in a slot: ids 15 + k of a COSCHED launch name level instances (R333). -/
def State.barKey (s : State) (x : Slot) (id : BitVec 5) : BarKey :=
  let k := id.toNat - 15
  let level := match s.launch? x.lkey with
    | some l => l.h.cosched && decide (k < fieldsOf x.u.widf)
    | none => false
  ⟨x.sc.asid, id, if level then groupKey x.u.launch x.u.wid x.u.widf k else 0⟩

/-- The barrier an id names in a slot. -/
def State.barName (s : State) (x : Slot) (id : BitVec 5) : BarName := if id.toNat < 16 then .wire id.toNat else .pkg (s.barKey x id)

/-- The first die in cyclic order from `d` whose readiness bit is set, or `d` where none is. -/
def State.readyDie (s : State) (d : Nat) : Nat :=
  match (List.range 4).find? fun k => s.isReady ((d + k) % 4) with
  | some k => (d + k) % 4
  | none => d

/-- The die of a package barrier's home (R223). -/
def State.barDie (s : State) (k : BarKey) : Nat :=
  s.readyDie ((k.asid.toNat + k.id.toNat + (k.gkey.extractLsb' 0 32).toNat + (k.gkey.extractLsb' 32 32).toNat +
    (k.gkey.extractLsb' 64 32).toNat) % 4)

/-- A package barrier instance. -/
def State.barInst (s : State) (k : BarKey) : Option BarInst := (s.die (s.barDie k)).bars.find? fun b => b.key == k

/-- Replace, list or remove a package barrier instance. -/
def State.setBar (s : State) (k : BarKey) (b : Option BarInst) : State :=
  s.updDie (s.barDie k) fun d => { d with bars := d.bars.filter (fun o => o.key != k) ++ b.toList }

/-- Send a completion of a package barrier's phase to every tile of the ASID's window (R224). -/
def State.sendCompletion (s : State) (k : BarKey) (phase : Bool) : State :=
  let tiles := s.tiles.filter fun e => e.2.windows.any fun w => w.asid == k.asid
  tiles.foldl (fun s e => s.after (hopDie e.1 (s.barDie k)) (.barrierCompletion e.1 (.pkg k) phase)) s

/-- An instance whose COUNT has reached EXPECT completes (R224). -/
def State.settleBar (s : State) (b : BarInst) : State :=
  if b.expect ≤ b.count then (s.setBar b.key (some { b with count := 0, phase := !b.phase })).sendCompletion b.key b.phase
  else s.setBar b.key (some b)

/-- A wire barrier that every member has reached completes (R222). -/
def State.settleWire (s : State) (tile id : Nat) : State :=
  let w := (s.tile tile).wires.getD id ⟨0, 0, false⟩
  if w.mask ≠ 0 ∧ w.arr &&& w.mask = w.mask then
    (s.updTile tile fun t => { t with wires := t.wires.setIfInBounds id { w with arr := 0, phase := !w.phase } }).after 1
      (.barrierCompletion tile (.wire id) w.phase)
  else s

/-- Whether a barrier has completed the phase of an arrival: the phase differs, or the instance is gone (R224, R334). -/
def State.barDone (s : State) (n : BarName) (phase : Bool) : Bool :=
  match n with
  | .wire id => ((s.tile s.myTile).wires.getD id ⟨0, 0, false⟩).phase != phase
  | .pkg k => match s.barInst k with
    | some b => b.phase != phase
    | none => true

/-! ### BARA, BARW, BARG -/

/-- BARA (R222, R224, R334): it waits as a release at the barrier's scope, arrives, and retires when the arrival has been counted. -/
def execBara (id : BitVec 5) (s : State) : Host.Outcome State Fault Refusal :=
  issue (.bara id) s fun s =>
    let word := (encode (.bara id)).setWidth 64
    if id.toNat < 16 then
      awaitRelease s .tile false fun s =>
        let w := (s.tile s.myTile).wires.getD id.toNat ⟨0, 0, false⟩
        let bit := s.curId % 64
        if !w.mask.getLsbD bit then .trap causeIllegal 7 word
        else if w.arr.getLsbD bit then .hold s (.again 0)
        else
          let s := s.updTile s.myTile fun t => { t with wires := t.wires.setIfInBounds id.toNat { w with arr := w.arr ||| BitVec.ofNat 64 (2 ^ bit) } }
          let s := s.updTask s.myTid fun t => t.arrive id (some w.phase)
          .next (s.settleWire s.myTile id.toNat)
    else
      awaitRelease s .pkg false fun s =>
        let k := s.barKey s.cur id
        .hold (s.after (hopDie s.myTile (s.barDie k)) (.packageBarrierArrival s.curId s.cur.mc.ctxser k)) (.answer 0)

/-- Block the slot in focus in a barrier wait (R334). -/
def State.waitBarrier (s : State) (id : BitVec 5) : State := s.updCur fun x => { x with status := .blocked (.barrier id.toNat), hold := .none }

/-- BARW (R334). -/
def execBarw (id : BitVec 5) (s : State) : Host.Outcome State Fault Refusal :=
  issue (.barw id) s fun s =>
    match (s.task s.myTid).arrival id with
    | none => .next s
    | some phase =>
      if s.barDone (s.barName s.cur id) phase then .next (s.updTask s.myTid fun t => t.arrive id none)
      else .done (s.retire.waitBarrier id)

/-- BARG (R144, R334): it starts a glide at an incomplete barrier; in Piste mode it waits as BARW does. -/
def execBarg (id : BitVec 5) (s : State) : Host.Outcome State Fault Refusal :=
  issue (.barg id) s fun s =>
    match (s.task s.myTid).arrival id with
    | none => .next s
    | some phase =>
      let n := s.barName s.cur id
      if s.barDone n phase then .next (s.updTask s.myTid fun t => t.arrive id none)
      else if s.cur.sc.piste then .done (s.retire.waitBarrier id)
      else if s.cur.spec.commit != .none then .stall
      else .next (s.updCur fun x => { x with spec := { Spec.none with
        mode := .glide, restart := x.pc, ckpt := some x.checkpoint, watch := x.spec.watch, barrier := some (id.toNat, n, phase) } })

/-! ### BARQ, BARSET and answers -/

/-- A value for an instruction of the slot in focus that holds issue is on its way (CONTROL_REPLY). -/
def State.answerIn (s : State) (delay : Nat) (v : W64) : State := s.after delay (.controlReply s.curId s.cur.mc.ctxser v)

/-- What BARQ reads (R335). -/
def State.barStatus (s : State) (id : BitVec 5) : W64 :=
  let arrived := if ((s.task s.myTid).arrival id).isSome then 2 ^ 51 else 0
  match s.barName s.cur id with
  | .wire n =>
    let w := (s.tile s.myTile).wires.getD n ⟨0, 0, false⟩
    BitVec.ofNat 64 (popc (w.arr &&& w.mask) + popc w.mask * 2 ^ 25 + (if w.phase then 2 ^ 50 else 0) + arrived + 2 ^ 52)
  | .pkg k => match s.barInst k with
    | none => 0
    | some b => BitVec.ofNat 64 (b.count + b.expect * 2 ^ 25 + (if b.phase then 2 ^ 50 else 0) + arrived)

/-- BARQ (R335). -/
def execBarq (d : RegNo) (id : BitVec 5) (s : State) : Host.Outcome State Fault Refusal :=
  issue (.barq d id) s fun s =>
    if id.toNat < 16 then .next { s with cur := s.cur.writeG d (s.barStatus id) }
    else .hold (s.answerIn (2 * hopDie s.myTile (s.barDie (s.barKey s.cur id))) (s.barStatus id)) (.answer 0)

/-- BARSET of a package barrier (R224, R336): its status and what it changes. -/
def State.configureBar (s : State) (k : BarKey) (expect : Nat) : Nat × State :=
  if 2 ^ 24 < expect then (2, s)
  else match s.barInst k with
    | some b =>
      if expect = 0 then (0, (s.setBar k none).sendCompletion k b.phase)
      else (0, s.settleBar { b with expect := expect })
    | none =>
      if expect = 0 then (0, s)
      else if (s.die (s.barDie k)).bars.length ≥ 1024 then (1, s)
      else (0, s.setBar k (some ⟨k, expect, 0, false⟩))

/-- BARSET (R222, R336). -/
def execBarset (id : BitVec 5) (b : RegNo) (s : State) : Host.Outcome State Fault Refusal :=
  issue (.barset id b) s fun s =>
    let v := s.cur.readG b
    if id.toNat < 16 then
      let s := s.updTile s.myTile fun t =>
        { t with wires := t.wires.setIfInBounds id.toNat { t.wires.getD id.toNat ⟨0, 0, false⟩ with mask := v } }
      .next ((s.settleWire s.myTile id.toNat).updCur fun x => x.writeG b 0)
    else
      let k : BarKey := ⟨s.cur.sc.asid, id, 0⟩
      let r := s.configureBar k v.toNat
      .hold (r.2.answerIn (2 * hopDie s.myTile (s.barDie k)) (BitVec.ofNat 64 r.1)) (.answer 0)

/-- The register in which an instruction that holds issue receives its answer. -/
def answerReg (i : Instr) : Option RegNo :=
  match i with
  | .barq d _ => some d
  | .barset _ b => some b
  | .wlsta d _ _ => some d
  | .wlcfg d _ => some d
  | .wlpsh d _ _ => some d
  | .qstat g _ => some g
  | _ => none

/-- The answer to the instruction of the slot in focus that holds issue: it writes its result and retires. DEDUCED (log 77). -/
def State.answered (s : State) (v : W64) : State :=
  let s := match decode s.cur.word with
    | .ok i => (match answerReg i with | some d => s.updCur fun x => x.writeG d v | none => s)
    | .illegal _ => s
  s.retire.advance

/-- Whether the placement in focus is the one a message names and waits for an answer. -/
def Slot.expects (x : Slot) (ctx : W32) : Bool :=
  x.mc.ctxser == ctx && (match x.hold with | .answer _ => true | _ => false)

/-- The class of the unit that answers an instruction which holds issue, where Table 3.6 names it: a barrier home, or a worklist's keeper. -/
def replyUnit (w : W32) : Option Nat :=
  match decode w with
  | .ok (.barq ..) | .ok (.barset ..) => some 8
  | .ok (.wlsta ..) => some 7
  | _ => none

/-- CONTROL_REPLY (R63, R335, R336, R355, R359, R360): the reply's delay is added, and the held instruction writes its result and retires. -/
def execControlReply (slot : Nat) (ctx : W32) (value : W64) (s : State) : Host.Outcome State Fault Refusal :=
  .next (s.within slot fun s =>
    if !s.cur.expects ctx then s
    else
      let s := match replyUnit s.cur.word with
        | some c => s.updCur fun x => x.addDelay s.now c (s.now - x.asked)
        | none => s
      s.answered value)

/-- PACKAGE_BARRIER_ARRIVAL (R224): every arrival counts; at a key with no instance it will trap. -/
def execPackageBarrierArrival (slot : Nat) (ctx : W32) (key : BarKey) (s : State) : Host.Outcome State Fault Refusal :=
  let back := hopDie (tileOf slot) (s.barDie key)
  match s.barInst key with
  | none => .next (s.after back (.barrierArrivalReply slot ctx key.id.toNat none))
  | some b => .next ((s.settleBar { b with count := b.count + 1 }).after back (.barrierArrivalReply slot ctx key.id.toNat (some b.phase)))

/-- BARRIER_ARRIVAL_REPLY (R63, R334): the phase of the arrival is recorded and BARA retires; without an instance it traps ILLEGAL with CODE 7. -/
def execBarrierArrivalReply (slot : Nat) (ctx : W32) (id : Nat) (phase : Option Bool) (s : State) : Host.Outcome State Fault Refusal :=
  .next (s.within slot fun s =>
    if !s.cur.expects ctx then s
    else
      let bid := BitVec.ofNat 5 id
      let s := s.updCur fun x => x.addDelay s.now 8 (s.now - x.asked)
      match phase with
      | none => s.issueTrap s.cur.word causeIllegal 7 (s.cur.word.setWidth 64)
      | some p => (s.updTask s.myTid fun t => t.arrive bid (some p)).retire.advance)

/-! ### Completions (R222, R224, R146) -/

/-- Whether a slot's record waits at a barrier at a phase: its block and its arrival record say so. -/
def State.waitsAt (s : State) (x : Slot) (n : BarName) (phase : Bool) : Bool :=
  match x.status with
  | .blocked (.barrier id) =>
    let bid := BitVec.ofNat 5 id
    s.barName x bid == n && (s.task x.u.tid).arrival bid == some phase
  | _ => false

/-- The wait of a slot's record is over: it goes on after the instruction at which it waited. -/
def Slot.passBarrier (x : Slot) : Slot := { x with status := .ready, pc := skipTo x.skip 16 (x.pc + 4) }

/-- Whether a completion is for the glide of a slot, and its frame has still to end (R297). -/
def Slot.glidesAt (x : Slot) (n : BarName) (phase : Bool) : Bool :=
  x.spec.mode == .glide && x.spec.commit == .none && (match x.spec.barrier with | some (_, m, p) => m == n && p == phase | none => false)

/-- A completion reaches the slot in focus: a waiting member goes on; a glide commits once no frame runs (R146, R297). -/
def State.completeHere (s : State) (n : BarName) (phase : Bool) : State :=
  if s.waitsAt s.cur n phase then
    match s.cur.status with
    | .blocked (.barrier id) => (s.updTask s.myTid fun t => t.arrive (BitVec.ofNat 5 id) none).updCur Slot.passBarrier
    | _ => s
  else match s.cur.spec.barrier with
    | some (id, _, _) =>
      if s.cur.glidesAt n phase && s.cur.frame.isNone then
        (s.updTask s.myTid fun t => t.arrive (BitVec.ofNat 5 id) none).startCommit
      else s
    | none => s

/-- BARRIER_COMPLETION (R23, R222, R224): a tile's NI completes the slots and the Saved tasks that wait or glide at the old phase;
one that a running frame holds up is delivered again (R297). -/
def execBarrierCompletion (tile : Nat) (name : BarName) (phase : Bool) (s : State) : Host.Outcome State Fault Refusal :=
  let waits := fun (r : SaveRec) => decide (tileOf r.from_ = tile) && s.waitsAt r.slot name phase
  let done := ((s.tile tile).recs.map (·.2)).filter waits
  let s1 := s.updRecs waits fun r => { r with ready := true, slot := { r.slot.passBarrier with occurred := true } }
  let s2 := done.foldl (fun s r => match r.slot.status with
    | .blocked (.barrier id) => s.updTask r.tid fun t => t.arrive (BitVec.ofNat 5 id) none
    | _ => s) s1
  let slots := (List.range 64).map fun k => tile * 64 + k
  let s3 := slots.foldl (fun s k => if (s.slot k).status == .free then s else s.within k fun s => s.completeHere name phase) s2
  let framed := slots.any fun k => (s3.slot k).frame.isSome && (s3.slot k).glidesAt name phase
  .next (if framed then s3.afterOnce 1 (.barrierCompletion tile name phase) else s3)

end Sys2Proof.Machine
end

