-- ==== Sys2Proof/Machine/Queue.lean ====
section
/-! DEFINITION. Queue registers: completion queues, channels, user events that they latch, and the QOP group with MSTAT and MWAIT
(spec/08_engine_queues.md R189 to R195, R198; spec/16_engine_instructions.md R352, R354, R355; spec/03 R78; spec/01 R23). -/

namespace Sys2Proof.Machine

/-! ### Tasks wherever they are -/

/-- The creating tile of a task: TID [54:46] (R191). -/
def creator (tid : W64) : Nat := (tid.extractLsb' 46 9).toNat

/-- Change the slot state of a task, in its slot or in its save record (R23). -/
def State.updHolder (s : State) (tid : W64) (f : Slot → Slot) : State :=
  match (s.task tid).place with
  | .slot k => s.updSlot k fun x => if x.u.tid == tid then f x else x
  | .saved _ _ | .moving => s.updRecs (fun r => r.tid == tid) fun r => { r with slot := f r.slot }
  | .ended => s

/-- The event that a task waits for, if it waits with kind `b`, occurs (Table 1.3, R23). -/
def State.wakeTask (s : State) (tid : W64) (b : Block) : State :=
  match (s.task tid).place with
  | .slot k => s.updSlot k fun x => if x.u.tid == tid && x.status == .blocked b then { x with status := .ready } else x
  | .saved _ _ | .moving =>
    s.updRecs (fun r => r.tid == tid && r.slot.status == .blocked b) fun r => { r with ready := true, slot := { r.slot with occurred := true } }
  | .ended => s

/-- Latch a user event of a kind (0 copy, 1 collective, 2 dry): events of one kind coalesce and the first tag is kept (R78). -/
def Slot.latch (x : Slot) (kind : Nat) (tag : W32) : Slot :=
  if x.u.uepend.getLsbD kind then x
  else { x with u := { x.u with uepend := x.u.uepend ||| BitVec.ofNat 3 (2 ^ kind), uetags := x.u.uetags.setIfInBounds kind tag } }

/-! ### Completion queues (R189 to R191) -/

/-- The words of a completion queue. -/
def Task.words (t : Task) (q : Nat) : List W64 := if q = 1 then t.q1 else if q = 3 then t.q3 else t.q5

/-- Replace them. -/
def Task.setWords (t : Task) (q : Nat) (l : List W64) : Task :=
  if q = 1 then { t with q1 := l } else if q = 3 then { t with q3 := l } else { t with q5 := l }

/-- A completion word reaches a task's queue, and its arrival wakes a pop that waits for it (R191). -/
def State.pushWord (s : State) (tid : W64) (q : Nat) (w : W64) : State :=
  if (s.task tid).place = .ended then s
  else (s.updTask tid fun t => t.setWords q (t.words q ++ [w])).wakeTask tid (.queue q)

/-- How long a pop of a word that is held takes (R191). -/
def State.popTime (s : State) : Nat := if creator s.myTid = s.myTile then 10 else 2 * hopTile s.myTile (creator s.myTid)

/-- The slot in focus is Blocked in a pop, which is examined again when a word has come (R19, R354). -/
def State.blockPop (s : State) (q : Nat) : Act :=
  .hold (s.updCur fun x => { x with status := .blocked (.queue q) }) (.again 1)

/-- FLAGS of a matrix status word; one with STATUS POISON contributes none (R352). -/
def wordFlags (w : W64) : Flags := if w.extractLsb' 24 8 = 7 then 0 else w.extractLsb' 16 5

/-- MSTAT (R352). -/
def execMstat (d : RegNo) (la : BitVec 4) (s : State) : Host.Outcome State Fault Refusal :=
  issue (.mstat d la) s fun s =>
    match (s.task s.myTid).q1 with
    | [] => s.blockPop 1
    | w :: rest =>
      let s := s.updTask s.myTid fun t => { t with q1 := rest }
      longResult (.mstat d la) s s.popTime false fun x => (x.writeG d w).raise (wordFlags w)

/-- What MWAIT does once nothing is incomplete: every word of q1 is popped, their flags ORed into FFLAGS and their OR returned (R352). -/
def State.popAll (s : State) (d : RegNo) : State :=
  let l := (s.task s.myTid).q1
  let s := s.updTask s.myTid fun t => { t with q1 := [] }
  s.updCur fun x => (x.writeG d (l.foldl (· ||| ·) 0)).raise (l.foldl (fun f w => f ||| wordFlags w) 0)

/-- MWAIT (R352): with matrix commands incomplete its result comes when the last of them has completed. -/
def execMwait (d : RegNo) (la : BitVec 4) (s : State) : Host.Outcome State Fault Refusal :=
  issue (.mwait d la) s fun s =>
    if (s.task s.myTid).out1 = 0 then
      let lat := s.popTime
      .long ((s.popAll d).openOp (.mwait d la) .result (some (s.now + lat)) 0 .none).2
    else .long (s.openOp (.mwait d la) .result none 1 .none).2

/-- A matrix command of the task in focus has completed: an MWAIT that waits for it gets its result when none is left (R352). -/
def State.mwaitDone (s : State) : State :=
  if (s.task s.myTid).out1 ≠ 0 then s
  else s.cur.ops.foldl (fun s o =>
    match decode o.word with
    | .ok (.mwait d _) =>
      if o.due.isSome then s
      else
        let t := s.popTime
        (s.popAll d).updCur fun x => { x with ops := x.ops.map fun p => if p.id = o.id then { p with due := some (s.now + t), left := 0 } else p }
    | _ => s) s

/-! ### Channels (R193 to R195) -/

/-- A channel end of a task. -/
def Task.chan (t : Task) (q : Nat) : Option Chan := t.chans.getD (q - 8) none
/-- Bind or release a channel end. -/
def Task.setChan (t : Task) (q : Nat) (c : Option Chan) : Task := { t with chans := t.chans.setIfInBounds (q - 8) c }

/-- Let the dry clock of a receive end run from now (R195). -/
def State.startDry (s : State) (tid : W64) (q : Nat) (c : Chan) : State :=
  if c.dry = 0 then s else s.after (c.dry * 1024) (.dryTimeout tid q s.now)

/-- Take `n` words from a receive end of the task in focus and return the credits (R194). -/
def State.takeWords (s : State) (q n : Nat) (c : Chan) : State :=
  let d := { c with words := c.words.drop n, since := s.now }
  let s := s.updTask s.myTid fun t => t.setChan q (some d)
  let s := s.after (hopTile (creator s.myTid) (creator c.peer)) (.creditReturn c.peer c.peerq s.myTid n)
  if d.words.isEmpty then s.startDry s.myTid q d else s

/-- The depth of the channel a send end feeds, as its receive end was bound: `none` until it is. -/
def State.peerDepth (s : State) (tid : W64) (c : Chan) : Option Nat :=
  match (s.task c.peer).chan c.peerq with
  | some r => if !r.send && r.peer == tid then some (r.depth + 1) else none
  | none => none

/-- A trap for misuse of a queue register (R192): SXADDR holds the instruction word. DEDUCED (log 46). -/
def queueTrap (i : Instr) (code : Nat) : Act := .trap causeQueue code ((encode i).setWidth 64)

/-- Push `ws` as one push on a send end (R192, R194, R354). -/
def pushChan (i : Instr) (s : State) (q : Nat) (ws : List W64) : Act :=
  if q < 6 then queueTrap i 1
  else if q < 8 then queueTrap i 2
  else match (s.task s.myTid).chan q with
    | none => queueTrap i 3
    | some c =>
      if !c.send then queueTrap i 3
      else if c.gone then queueTrap i 6
      else if decide (1 < ws.length) && (match s.peerDepth s.myTid c with | some d => decide (d < 16) | none => false) then queueTrap i 7
      else if c.credits < ws.length then .stall
      else
        let me := s.myTid
        let s := s.updTask me fun t => t.setChan q (some { c with credits := c.credits - ws.length })
        .next (ws.foldl (fun s w => s.after (hopTile s.myTile (creator c.peer)) (.channelWord c.peer c.peerq me w)) s)

/-- QPUSH (R354). -/
def execQpush (g : RegNo) (q : BitVec 4) (s : State) : Host.Outcome State Fault Refusal :=
  issue (.qpush g q) s fun s => pushChan (.qpush g q) s q.toNat [s.cur.readG g]

/-- QPUSHV (R354). -/
def execQpushv (v : RegNo) (q : BitVec 4) (s : State) : Host.Outcome State Fault Refusal :=
  issue (.qpushv v q) s fun s => pushChan (.qpushv v q) s q.toNat ((List.range 16).map fun i => (lane (s.cur.readV v) i).setWidth 64)

/-- QPOP (R354): a completion queue, or a receive end. -/
def execQpop (g : RegNo) (q : BitVec 4) (la : BitVec 4) (s : State) : Host.Outcome State Fault Refusal :=
  issue (.qpop g q la) s fun s =>
    let i : Instr := .qpop g q la
    let n := q.toNat
    if n = 0 ∨ n = 2 ∨ n = 4 then queueTrap i 1
    else if n = 6 ∨ n = 7 then queueTrap i 2
    else if n < 8 then
      match (s.task s.myTid).words n with
      | [] => s.blockPop n
      | w :: rest =>
        let s := s.updTask s.myTid fun t => t.setWords n rest
        longResult i s s.popTime false fun x => x.writeG g w
    else match (s.task s.myTid).chan n with
      | none => queueTrap i 3
      | some c =>
        if c.send then queueTrap i 3
        else match c.words with
          | [] => s.blockPop n
          | w :: _ => longResult i (s.takeWords n 1 c) s.popTime false fun x => x.writeG g w

/-- QPOPV (R354). -/
def execQpopv (v : RegNo) (q : BitVec 4) (la : BitVec 4) (s : State) : Host.Outcome State Fault Refusal :=
  issue (.qpopv v q la) s fun s =>
    let i : Instr := .qpopv v q la
    let n := q.toNat
    if n < 6 then queueTrap i 1
    else if n < 8 then queueTrap i 2
    else match (s.task s.myTid).chan n with
      | none => queueTrap i 3
      | some c =>
        if c.send then queueTrap i 3
        else if c.depth + 1 < 16 then queueTrap i 7
        else if c.words.length < 16 then s.blockPop n
        else longResult i (s.takeWords n 16 c) s.popTime false fun x => x.writeV v (vecOf fun k => lo32 (c.words.getD k 0))

/-- The time until an access to a channel end's NI is confirmed. -/
def State.niTime (s : State) : Nat := 2 * hopTile s.myTile (creator s.myTid)

/-- QBIND (R192, R193, R355). -/
def execQbind (g : RegNo) (q : BitVec 4) (s : State) : Host.Outcome State Fault Refusal :=
  issue (.qbind g q) s fun s =>
    let i : Instr := .qbind g q
    let n := q.toNat
    let peer := s.cur.readG g
    let c := s.cur.readG (g + 1)
    let pq := (c.extractLsb' 0 4).toNat
    let me := s.myTid
    if n = 6 ∨ n = 7 then queueTrap i 2
    else if n < 8 then queueTrap i 4
    else if c.getLsbD 9 then
      .hold ((s.updTask me fun t => t.setChan n none).answerIn s.niTime 0) (.answer 0)
    else if pq < 8 ∨ c.extractLsb' 11 5 ≠ 0 ∨ c.extractLsb' 32 32 ≠ 0 then queueTrap i 4
    else if (s.task peer).place = .ended ∨ (s.task peer).asid ≠ s.cur.sc.asid then queueTrap i 5
    else
      let send := c.getLsbD 8
      let t := s.task me
      let kept := ((t.stash.filter fun e => e.1 == n && e.2.1 == peer).map (·.2.2)).sum
      let ch : Chan := {
        send := send, peer := peer, peerq := pq, depth := (c.extractLsb' 4 4).toNat, dryev := c.getLsbD 10, dry := (c.extractLsb' 16 16).toNat,
        words := [], credits := if send then kept else 0, since := s.now, dryf := false, gone := false }
      let s := s.updTask me fun t =>
        { t.setChan n (some ch) with stash := if send then t.stash.filter fun e => !(e.1 == n && e.2.1 == peer) else t.stash }
      let s := if send then s
        else (s.after (hopTile (creator me) (creator peer)) (.creditReturn peer pq me (ch.depth + 1))).startDry me n ch
      .hold (s.answerIn s.niTime 0) (.answer 0)

/-- What QSTAT reads (Table 8.4). OCC has five bits, and a send end can hold more credits than that after it was bound again: it then reads 31. DESIGN CHOICE
(log 100). -/
def State.queueStatus (s : State) (q : Nat) : W64 :=
  let t := s.task s.myTid
  let c := s.core (coreOf s.curId)
  if q = 0 then BitVec.ofNat 64 (8 - c.q0.length)
  else if q = 2 then BitVec.ofNat 64 (8 - c.q2.length)
  else if q = 4 then BitVec.ofNat 64 (4 - c.q4.length)
  else if q < 6 then BitVec.ofNat 64 ((t.words q).length + (if q = 1 then t.out1 else if q = 3 then t.out3 else t.out5) * 2 ^ 5)
  else match t.chan q with
    | none => 0
    | some c => BitVec.ofNat 64 ((if c.send then Nat.min c.credits 31 else c.words.length) + 2 ^ 10 + (if c.send then 2 ^ 11 else 0) +
        (if c.dryf then 2 ^ 12 else 0) + (if c.gone then 2 ^ 13 else 0))

/-- QSTAT (R195, R354). -/
def execQstat (g : RegNo) (q : BitVec 4) (s : State) : Host.Outcome State Fault Refusal :=
  issue (.qstat g q) s fun s =>
    let n := q.toNat
    if n = 6 ∨ n = 7 then queueTrap (.qstat g q) 2
    else if creator s.myTid = s.myTile then .next { s with cur := s.cur.writeG g (s.queueStatus n) }
    else .hold (s.answerIn s.niTime (s.queueStatus n)) (.answer 0)

/-- CHANNEL_WORD (R194, R195): a word reaches the receive end that is bound to its sender; at any other end it is discarded. -/
def execChannelWord (tid : W64) (q : Nat) (sender word : W64) (s : State) : Host.Outcome State Fault Refusal :=
  match (s.task tid).chan q with
  | none => .next s
  | some c =>
    if c.send || c.peer != sender then .next s
    else .next ((s.updTask tid fun t => t.setChan q (some { c with words := c.words ++ [word], dryf := false })).wakeTask tid (.queue q))

/-- CREDIT_RETURN (R194, R355): credits reach the send end bound to the receiver, or are kept until it is. -/
def execCreditReturn (tid : W64) (q : Nat) (receiver : W64) (n : Nat) (s : State) : Host.Outcome State Fault Refusal :=
  if (s.task tid).place = .ended then .next s
  else .next (s.updTask tid fun t =>
    match t.chan q with
    | some c => if c.send && c.peer == receiver then t.setChan q (some { c with credits := c.credits + n })
                else { t with stash := t.stash ++ [(q, receiver, n)] }
    | none => { t with stash := t.stash ++ [(q, receiver, n)] })

/-- DRY_TIMEOUT (R195): the end has held no word since `stamp`, its binding or its last pop. -/
def execDryTimeout (tid : W64) (q stamp : Nat) (s : State) : Host.Outcome State Fault Refusal :=
  match (s.task tid).chan q with
  | none => .next s
  | some c =>
    if c.send || c.since != stamp || !c.words.isEmpty || c.dryf then .next s
    else
      let s := s.updTask tid fun t => t.setChan q (some { c with dryf := true })
      .next (if c.dryev then s.updHolder tid fun x => x.latch 2 (BitVec.ofNat 32 q) else s)

end Sys2Proof.Machine
end

