-- ==== Sys2Proof/Machine/Matrix.lean ====
section
/-! DEFINITION. The matrix engine: MMA, MSP, the MACC group, arbitration, operands, results and status words
(spec/08_engine_queues.md R189, R190, R196 to R199; spec/16_engine_instructions.md R344 to R352; spec/02_number_formats.md R37, R50 to R52;
spec/03 R84). -/

namespace Sys2Proof

/-! ### Types (Table 16.1) -/

/-- The format codes GA may have. -/
def MTy.aFmts : MTy → List Nat
  | .bf16 => [0x12] | .f16 => [0x11] | .e4m3 => [0x13] | .e5m2 => [0x14] | .e4e5 => [0x13] | .lx8 => [0x15] | .i8 => [0x01, 0x02] | .i4 => [0x08]
/-- The format codes GB may have. -/
def MTy.bFmts : MTy → List Nat
  | .bf16 => [0x12] | .f16 => [0x11] | .e4m3 => [0x13] | .e5m2 => [0x14] | .e4e5 => [0x14] | .lx8 => [0x15] | .i8 => [0x01, 0x02] | .i4 => [0x08]
/-- K of a dense product. -/
def MTy.k : MTy → Nat
  | .bf16 | .f16 => 16
  | .i4 => 64
  | _ => 32
/-- Bits of an element. -/
def MTy.bits : MTy → Nat
  | .bf16 | .f16 => 16
  | .i4 => 4
  | _ => 8
/-- Whether the accumulator is INT32. -/
def MTy.isInt : MTy → Bool
  | .i8 | .i4 => true
  | _ => false
/-- The alignment of a row whose pointer is `p`. -/
def MTy.rowAlign (t : MTy) (p : W64) : Nat :=
  match t with
  | .bf16 | .f16 => 2
  | .lx8 => 2 ^ (p.extractLsb' 52 4).toNat
  | _ => 1

end Sys2Proof

namespace Sys2Proof.Machine

/-- The type, whether A is indexed, whether B is transposed, and whether it is an MSP. -/
def MOp.shape : MOp → Option (MTy × Bool × Bool × Bool)
  | .mma ty ix _ tr => some (ty, ix, tr, false)
  | .msp ty _ tr => some (ty, false, tr, true)
  | _ => none

/-- The logical K of a product. -/
def logicalK (ty : MTy) (sp : Bool) : Nat := if sp then 64 else ty.k

/-! ### Rows (R347, R351) -/

/-- The offsets of the rows of A from GA.VA, and their bytes. -/
def MCmd.aRows (c : MCmd) : List (Int × Nat) :=
  match c.op.shape with
  | some (ty, ix, _, sp) =>
    let n := (if sp then 32 else ty.k) * ty.bits / 8
    (List.range 16).map fun (r : Nat) =>
      (if ix then (lane c.v0 r).toInt * (ty.bits / 8 : Nat) else (r : Int) * c.sa.toInt, n)
  | none => match c.op with
    | .mlda | .msta => (List.range 16).map fun (r : Nat) => ((r : Int) * c.sa.toInt, 64)
    | _ => []

/-- The offsets of the rows of B from GB.VA, and their bytes. -/
def MCmd.bRows (c : MCmd) : List (Int × Nat) :=
  match c.op.shape with
  | some (ty, _, tr, sp) =>
    let k := logicalK ty sp
    (List.range (if tr then 16 else k)).map fun (r : Nat) => ((r : Int) * c.sb.toInt, (if tr then k else 16) * ty.bits / 8)
  | none => []

/-- Every row, with the pointer it is taken from and the alignment its start must have. -/
def MCmd.rows (c : MCmd) : List (W64 × Int × Nat × Nat) :=
  let al (p : W64) : Nat := match c.op.shape with
    | some (ty, _) => ty.rowAlign p
    | none => 64
  (c.aRows.map fun r => (c.ga, r.1, r.2, al c.ga)) ++ (c.bRows.map fun r => (c.gb, r.1, r.2, al c.gb))

/-! ### Checks at issue (R198, R346) -/

/-- The first row that fails a test gives its trap. -/
def firstRow (l : List (W64 × Int × Nat × Nat)) (f : W64 → Int → Nat → Nat → Option (Nat × Nat × W64)) : Option (Nat × Nat × W64) :=
  l.findSome? fun r => f r.1 ((vaOf r.1 : Int) + r.2.1) r.2.2.1 r.2.2.2

/-- Step 1: bits [51:48] of the pointer, then the address of each row. -/
def rowAddr (p : W64) (ea : Int) : Option (Nat × Nat × W64) :=
  if p.extractLsb' 48 4 ≠ 0 then some (causeAddr, 1, p)
  else if ea < 0 ∨ (2 : Int) ^ 48 ≤ ea then some (causeAddr, 2, effPtr p ea)
  else none

/-- Step 2: the formats of A and B. -/
def MCmd.fmtTrap (c : MCmd) : Option (Nat × Nat × W64) :=
  match c.op.shape with
  | none => none
  | some (ty, ix, tr, sp) =>
    let bad := fun (code : Nat) (p : W64) => some (causeFmt, code, p)
    let k := logicalK ty sp
    match fmtFault c.ga, fmtFault c.gb with
    | some e, _ => bad e c.ga
    | none, some e => bad e c.gb
    | none, none =>
      if !ty.aFmts.contains (fmtOf c.ga) then bad 3 c.ga
      else if !ty.bFmts.contains (fmtOf c.gb) then bad 3 c.gb
      else if ty == .lx8 && decide (ty.k % 2 ^ blgOf c.ga ≠ 0) then bad 3 c.ga
      else if ty == .lx8 && decide ((if tr then k else 16) % 2 ^ blgOf c.gb ≠ 0) then bad 3 c.gb
      else if ix && (ty == .lx8 || ty == .i4) then bad 4 c.ga
      else none

/-- Step 4: the row lies wholly in the issuing tile's slice and window; a store needs a window that may be written. -/
def State.rowProt (s : State) (write : Bool) (p : W64) (ea : Int) (n : Nat) : Option (Nat × Nat × W64) :=
  match s.classify s.myTile s.cur.sc.asid s.cur.level ea.toNat with
  | .sram t off =>
    if t ≠ s.myTile ∨ 4194304 < off + n then some (causeProt, 6, effPtr p ea)
    else match s.windowFault t off s.cur.sc.asid write, s.windowFault t (off + n - 1) s.cur.sc.asid write with
      | some 3, _ => some (causeProt, 3, effPtr p ea)
      | none, none => none
      | _, _ => some (causeProt, 6, effPtr p ea)
  | _ => some (causeProt, 6, effPtr p ea)

/-- The 4-bit code of group `g` of row `r` (R37). -/
def spCode (v0 v1 : Vec) (r g : Nat) : Nat :=
  let v := if r < 8 then v0 else v1
  (lane v (2 * (r % 8) + g / 8)).toNat / 16 ^ (g % 8) % 16

/-- Step 5: the first code with i0 ≥ i1 (R349). -/
def MCmd.spTrap (c : MCmd) : Option (Nat × Nat × W64) :=
  match c.op with
  | .msp .. =>
    (List.range 256).findSome? fun j =>
      let code := spCode c.v0 c.v1 (j / 16) (j % 16)
      if code % 4 ≥ code / 4 then some (causeSpMeta, j, BitVec.ofNat 64 code) else none
  | _ => none

/-- The checks of R346 up to the metadata. -/
def State.matrixTrap (s : State) (c : MCmd) : Option (Nat × Nat × W64) :=
  let rows := c.rows
  let write := c.op == .msta
  (firstRow rows fun p ea _ _ => rowAddr p ea)
    |>.or c.fmtTrap
    |>.or (firstRow rows fun p ea _ al => if ea.toNat % al ≠ 0 then some (causeAlign, al, effPtr p ea) else none)
    |>.or (firstRow rows fun p ea n _ => s.rowProt write p ea n)
    |>.or c.spTrap

/-- The owner check of R199: the state with the accumulator taken, or the code and SXADDR of ACC_OWNER. -/
def State.ownAcc (s : State) (n : Nat) : (Nat × W64) ⊕ State :=
  let me := (slotIx s.curId, s.cur.mc.ctxser, s.cur.u.tid)
  let a := (s.core (coreOf s.curId)).accs.getD n Acc.free
  let take := (s.updCore (coreOf s.curId) fun c => { c with accs := c.accs.setIfInBounds n { a with owner := some me } }).updCur fun x =>
    { x with rmask := x.rmask &&& ~~~(BitVec.ofNat 8 (2 ^ n)) }
  match a.owner with
  | none => if s.cur.rmask.getLsbD n then .inl (n + 8, 0) else .inr take
  | some o =>
    if o = me then .inr take
    else if o.2.2 = s.cur.u.tid ∧ s.cur.rmask.getLsbD n = true then .inr take
    else .inl (n, o.2.2)

/-- Issue a matrix command: its checks, the owner check of each accumulator it names, room for it, then the push to q0 (R344, R346). -/
def pushMatrix (i : Instr) (s : State) (op : MOp) (md : PredNo) (more : List PredNo) (ga gb : W64) (sa sb : W32) (v0 v1 : Vec) :
    Host.Outcome State Fault Refusal :=
  issue i s fun s =>
    let ser := (s.task s.myTid).mser + 1
    let c : MCmd := ⟨op, md, ga, gb, sa, sb, v0, v1, s.myTid, s.curId, s.cur.mc.ctxser, s.cur.sc.asid, ser⟩
    match s.matrixTrap c with
    | some (cause, code, x) => .trap cause code x
    | none =>
      match (md :: more).foldl (fun (r : (Nat × W64) ⊕ State) n => match r with | .inr s => s.ownAcc n.toNat | e => e) (.inr s) with
      | .inl (code, x) => .trap causeAccOwner code x
      | .inr t =>
        if !s.queueRoom 0 then .stall
        else
          let s := t.updCore (coreOf t.curId) fun k => { k with q0 := k.q0 ++ [c] }
          let s := s.updTask s.myTid fun t => { t with mser := ser, out1 := t.out1 + 1 }
          .next (s.afterOnce 1 (.matrixCommandStart s.myTile))

/-- A vector of zeros, for commands that take none. -/
def noVec : Vec := .replicate 16 0

/-- MMA with a dense A (R345 to R347). -/
def execMma (md : PredNo) (a b : RegNo) (ty : MTy) (t z : Bool) (s : State) : Host.Outcome State Fault Refusal :=
  let x := s.cur
  pushMatrix (.mma md a b ty t z) s (.mma ty false z t) md [] (x.readG a) (x.readG b) x.u.msa x.u.msb noVec noVec
/-- MMA with an indexed A (R347). -/
def execMmaIx (md : PredNo) (a b v : RegNo) (ty : MTy) (t z : Bool) (s : State) : Host.Outcome State Fault Refusal :=
  let x := s.cur
  pushMatrix (.mmaIx md a b v ty t z) s (.mma ty true z t) md [] (x.readG a) (x.readG b) x.u.msa x.u.msb (x.readV v) noVec
/-- MSP (R349). -/
def execMsp (md : PredNo) (a b v : RegNo) (ty : MTy) (t z : Bool) (s : State) : Host.Outcome State Fault Refusal :=
  let x := s.cur
  pushMatrix (.msp md a b v ty t z) s (.msp ty z t) md [] (x.readG a) (x.readG b) x.u.msa x.u.msb (x.readV v) (x.readV (v + 1))
/-- MZERO (R351). -/
def execMzero (d : PredNo) (s : State) : Host.Outcome State Fault Refusal :=
  pushMatrix (.mzero d) s .mzero d [] 0 0 0 0 noVec noVec
/-- MLDA (R351). -/
def execMlda (d : PredNo) (a : RegNo) (s : State) : Host.Outcome State Fault Refusal :=
  pushMatrix (.mlda d a) s .mlda d [] (s.cur.readG a) 0 s.cur.u.msc 0 noVec noVec
/-- MSTA (R351). -/
def execMsta (d : PredNo) (a : RegNo) (s : State) : Host.Outcome State Fault Refusal :=
  pushMatrix (.msta d a) s .msta d [] (s.cur.readG a) 0 s.cur.u.msc 0 noVec noVec
/-- MMOV (R351): both accumulators pass the owner check. -/
def execMmov (d a : PredNo) (s : State) : Host.Outcome State Fault Refusal :=
  pushMatrix (.mmov d a) s (.mmov a) d [a] 0 0 0 0 noVec noVec

/-! ### Products -/

/-- The values of a row of a floating-point format, with the flag of an LX8 stream (R48). -/
def rowVals (fmt blg : Nat) (b : List Byte) : List FVal × Flags :=
  match fmt with
  | 0x15 =>
    let bl := (chunks (2 ^ blg) (b.length / 2 ^ blg) b).map lx8Decode
    (bl.flatMap (·.1), bl.foldl (fun f r => f ||| r.2) 0)
  | 0x11 => ((List.range (b.length / 2)).map fun k => fp16.val (leNat ((b.drop (2 * k)).take 2)), 0)
  | 0x12 => ((List.range (b.length / 2)).map fun k => fbf16.val (leNat ((b.drop (2 * k)).take 2)), 0)
  | 0x13 => (b.map fun x => fe4m3.val x.toNat, 0)
  | _ => (b.map fun x => fe5m2.val x.toNat, 0)

/-- The values of a row of an integer format. -/
def rowInts (fmt : Nat) (b : List Byte) : List Int :=
  match fmt with
  | 0x08 => b.flatMap fun x => [(x.extractLsb' 0 4).toInt, (x.extractLsb' 4 4).toInt]
  | 0x01 => b.map BitVec.toInt
  | _ => b.map fun x => (x.toNat : Int)

/-- The pairs (column of A as stored, logical column) of a row of A. -/
def MCmd.columns (c : MCmd) (row : Nat) : List (Nat × Nat) :=
  match c.op with
  | .msp .. => (List.range 32).map fun e =>
      let code := spCode c.v0 c.v1 row (e / 2)
      (e, 4 * (e / 2) + (if e % 2 = 0 then code % 4 else code / 4))
  | .mma ty .. => (List.range ty.k).map fun k => (k, k)
  | _ => []

/-- Whether the command zeroes its accumulator first (FL[1]). -/
def MOp.zeroes : MOp → Bool
  | .mma _ _ z _ => z
  | .msp _ z _ => z
  | _ => false

/-- The product of a command on the bytes of its rows: the new accumulator and its flags (R50, R51, R347, R349). -/
def MCmd.product (c : MCmd) (ty : MTy) (tr : Bool) (a b : List (List Byte)) (acc : Vector W32 256) : Vector W32 256 × Flags :=
  if ty.isInt then
    let av := a.map (rowInts (fmtOf c.ga))
    let bv := b.map (rowInts (fmtOf c.gb))
    (Vector.ofFn fun n =>
      let i := n.val / 16
      let j := n.val % 16
      let prior : Int := if c.op.zeroes then 0 else (acc.getD n.val 0).toInt
      BitVec.ofInt 32 ((c.columns i).foldl (fun (sum : Int) e =>
        sum + (av.getD i []).getD e.1 0 * (if tr then (bv.getD j []).getD e.2 0 else (bv.getD e.2 []).getD j 0)) prior), 0)
  else
    let av := a.map (rowVals (fmtOf c.ga) (blgOf c.ga))
    let bv := b.map (rowVals (fmtOf c.gb) (blgOf c.gb))
    let dec := (av ++ bv).foldl (fun f r => f ||| r.2) 0
    let el := fun (n : Nat) =>
      let i := n / 16
      let j := n % 16
      let t := (c.columns i).map fun e =>
        ((av.getD i ([], 0)).1.getD e.1 .nan).mul (if tr then (bv.getD j ([], 0)).1.getD e.2 .nan else (bv.getD e.2 ([], 0)).1.getD j .nan)
      let prior := if c.op.zeroes then FVal.zero false else val32 (acc.getD n 0)
      windowSum ((t.map (·.1)) ++ [prior]) (t.any fun p => p.2 != 0)
    let r := Vector.ofFn (n := 256) fun n => el n.val
    (Vector.ofFn fun n => (r.getD n.val ⟨0, 0⟩).bits, r.toList.foldl (fun f x => f ||| x.flags) dec)

/-! ### The engine (R196 to R198) -/

/-- `n` bytes of a slice. -/
def State.sliceRead (s : State) (tile off n : Nat) : List Byte := s.mem.readN (sramByte tile off) n

/-- The slice offset of a row. -/
def rowOff (p : W64) (off : Int) : Nat := ((vaOf p : Int) + off).toNat % 4194304

/-- The lines of the slice that rows touch. -/
def rowLines (rows : List (W64 × Int × Nat × Nat)) : List Nat :=
  (rows.flatMap fun r => let o := rowOff r.1 r.2.1; [o / 64, (o + r.2.2.1 - 1) / 64]).dedup

/-- MWEIGHT.Wc + 1. -/
def Tile.weight (t : Tile) (c : Nat) : Nat := (t.mweight.extractLsb' (4 * c) 4).toNat + 1

/-- The core served next in the round that has come to core `c`, which has taken `n` commands in it: the first from there on with a command and a share left
(R196). -/
def State.nextCore (s : State) (tile c n : Nat) : Option (Nat × Nat) :=
  (((List.range 8).filter fun k => decide (c ≤ k)).map fun k => (k, if k = c then n else 0)).find? fun e =>
    !(s.core (tile * 8 + e.1)).q0.isEmpty && decide (e.2 < (s.tile tile).weight e.1)

/-- A round ends when every core has taken its share or has no command left: the next one begins with core 0 (R196). -/
def State.settleRound (s : State) (tile : Nat) : State :=
  let r := (s.tile tile).mrr
  if (s.nextCore tile r.1 r.2).isSome then s else s.updTile tile fun t => { t with mrr := (0, 0) }

/-- Occupancy of a command (R196). -/
def MOp.occupancy : MOp → Nat
  | .mma .. | .msp .. => 2
  | .mlda | .msta => 4
  | _ => 1

/-- Change an accumulator of a core. -/
def State.setAcc (s : State) (core n : Nat) (e : Vector W32 256) : State :=
  s.updCore core fun c => { c with accs := c.accs.setIfInBounds n { c.accs.getD n Acc.free with elems := e } }

/-- The word of Table 8.5. -/
def matrixStatus (c : MCmd) (fl : Flags) (poison : Bool) : W64 :=
  BitVec.ofNat 64 (c.ser.toNat + fl.toNat * 2 ^ 16 + c.md.toNat * 2 ^ 21 + (if poison then 7 * 2 ^ 24 else 0))

/-- The cycles a latch takes to fill (R197): the distinct lines by 8, or the most lines of one bank, and at least 1; a command without operands takes none. -/
def fillTime (lines : List Nat) : Nat :=
  if lines.isEmpty then 0
  else Nat.max (Nat.max 1 ((lines.length + 7) / 8)) ((lines.map fun l => (lines.filter fun k => k % 32 = l % 32).length).foldl Nat.max 0)

/-- The slice lines a command reads (R348). -/
def MCmd.readLines (c : MCmd) : List Nat := match c.op with | .msta => [] | _ => rowLines c.rows

/-- The command's latch, filled from the slice (R197, R348). DEDUCED (log 39). -/
def State.fillLatch (s : State) (core : Nat) (c : MCmd) : MLatch :=
  let tile := core / 8
  let read := fun (rows : List (Int × Nat)) (p : W64) => rows.map fun r => s.sliceRead tile (rowOff p r.1) r.2
  let lines := c.readLines
  { core := core, cmd := c, a := if lines.isEmpty then [] else read c.aRows c.ga, b := if lines.isEmpty then [] else read c.bRows c.gb,
    poison := lines.any fun l => s.poisoned (64 + tile) l, ready := s.now + fillTime lines, on := false }

/-- Start a command from its latch: its accumulator takes the result, and its status word is known. An MSTA takes the rows it will write. Commands
stand in `run0` in issue order. -/
def State.startMatrix (s : State) (l : MLatch) : State :=
  let core := l.core
  let c := l.cmd
  let tile := core / 8
  let acc := ((s.core core).accs.getD c.md.toNat Acc.free).elems
  let run := fun (fl : Flags) (lines : List (Nat × List Byte)) (lat left : Nat) =>
    MRun.mk c lines l.poison (s.now + lat) left (matrixStatus c fl l.poison)
  let go := fun (s : State) (r : MRun) =>
    (s.updCore core fun k => { k with run0 := k.run0 ++ [r] }).after (r.done - s.now) (.matrixCommandComplete tile (core % 8))
  let s := match c.op with | .mma .. | .msp .. => s.tally tile 7 1 | _ => s
  if l.poison then go s (run 0 [] (match c.op with | .mlda => 4 | _ => 12) 0)
  else match c.op with
    | .mma ty _ _ tr =>
      let p := c.product ty tr l.a l.b acc
      go (s.setAcc core c.md.toNat p.1) (run p.2 [] 12 0)
    | .msp ty _ tr =>
      let p := c.product ty tr l.a l.b acc
      go (s.setAcc core c.md.toNat p.1) (run p.2 [] 12 0)
    | .mzero => go (s.setAcc core c.md.toNat (.replicate 256 0)) (run 0 [] 1 0)
    | .mmov a => go (s.setAcc core c.md.toNat ((s.core core).accs.getD a.toNat Acc.free).elems) (run 0 [] 1 0)
    | .mlda =>
      let b := l.a.flatten
      go (s.setAcc core c.md.toNat (Vector.ofFn fun n => BitVec.ofNat 32 (leNat ((b.drop (4 * n.val)).take 4)))) (run 0 [] 4 0)
    | .msta =>
      let rows := (List.range 16).map fun (r : Nat) =>
        (rowOff c.ga ((r : Int) * c.sa.toInt), (List.range 16).flatMap fun j => leBytes 4 (acc.getD (16 * r + j) 0).toNat)
      go s (run 0 rows 1 16)

/-- The slice lines that incomplete MSTAs of a core still write (R348). -/
def State.stored (s : State) (core : Nat) : List Nat :=
  ((s.core core).run0.flatMap fun r => if r.cmd.op == .msta then rowLines r.cmd.rows else []) ++
    (s.tile (core / 8)).latches.flatMap fun l => if l.core == core && !l.on && l.cmd.op == .msta then rowLines l.cmd.rows else []

/-- Whether a slot of a tile has an access to a line on its way that the tile's port has accepted before (R113). -/
def State.portAhead (s : State) (tile : Nat) (asid : BitVec 14) (key : Nat × Nat) : Bool :=
  s.net.reqs.any fun e => e.2.tile == tile && e.2.source.isNone && e.2.kind != .fetch && e.2.toPerform && e.2.asid == asid && e.2.cls.key == key

/-- A line of the tile's slice that an engine has to wait for: it is under a commit hold (R122), or an access of the tile to it is on its way (R113). -/
def State.rowWaits (s : State) (tile : Nat) (asid : BitVec 14) (line : Nat) (write : Bool) : Bool :=
  s.lineWaits (64 + tile) line write || s.portAhead tile asid (64 + tile, line)

/-- The gather unit, when it is idle and a latch is free, takes the next command by weighted round-robin (R196, R197), once its operand lines let it. -/
def State.grantMatrix (s : State) (tile : Nat) : State :=
  let t := s.tile tile
  if 2 ≤ t.latches.length || t.latches.any fun l => decide (s.now < l.ready) then s
  else match (s.nextCore tile t.mrr.1 t.mrr.2).or (s.nextCore tile 0 0) with
    | none => s.settleRound tile
    | some (c, n) =>
      let core := tile * 8 + c
      match (s.core core).q0 with
      | [] => s
      | cmd :: rest =>
        let held := s.stored core
        if cmd.readLines.any fun l => held.contains l || s.rowWaits tile cmd.asid l false then s
        else
          let l := s.fillLatch core cmd
          ((s.updCore core fun k => { k with q0 := rest }).updTile tile fun t =>
            { t with mrr := (c, n + 1), latches := t.latches ++ [l] }).settleRound tile

/-- The command that fed the engine leaves its latch; the next one starts when its latch is full. -/
def State.feedMatrix (s : State) (tile : Nat) : State :=
  let t := s.tile tile
  if s.now < t.mbusy then s
  else match t.latches.filter fun l => !l.on with
    | [] => s.updTile tile fun t => { t with latches := [] }
    | l :: rest =>
      let s := s.updTile tile fun t => { t with latches := l :: rest }
      if s.now < l.ready then s
      else (s.startMatrix l).updTile tile fun t => { t with latches := { l with on := true } :: rest, mbusy := s.now + l.cmd.op.occupancy }

/-- MATRIX_COMMAND_START (R196, R197): a command starts when the engine is free and its latch full, and the gather unit takes the next one. A command
whose operand lines an incomplete MSTA of its core still writes is not taken (R348). -/
def execMatrixCommandStart (tile : Nat) (s : State) : Host.Outcome State Fault Refusal :=
  let s := (((s.feedMatrix tile).grantMatrix tile).feedMatrix tile).grantMatrix tile
  let t := s.tile tile
  let waits := (List.range 8).any fun c => !(s.core (tile * 8 + c)).q0.isEmpty
  if t.latches.isEmpty && !waits then .next s
  else
    let dues := (t.mbusy :: t.latches.map (·.ready)).filter fun d => decide (s.now < d)
    .next (s.afterOnce (dues.foldl (fun m d => Nat.min m (d - s.now)) (if dues.isEmpty then 1 else 64)) (.matrixCommandStart tile))

/-- Write a row of an MSTA: one whole-line write, under its own acknowledgement (R196). -/
def State.storeRow (s : State) (tile core : Nat) (c : MCmd) (off : Nat) (data : List Byte) : State :=
  let (id, s) := s.fresh
  let r := s.performWrite (64 + tile) (off / 64) none fullMask data id none
  if r.1 = 0 then r.2
  else r.2.setReq { engineReq id c.slot c.ctx c.tid c.asid (100 + core % 8) tile c.ga (.sram tile off) s.now with stage := .notices, notices := r.1 }

/-- The oldest command of a core completes: its status word goes to q1 (R198). -/
def State.finishMatrix (s : State) (core : Nat) (r : MRun) : State :=
  let s := s.updCore core fun k => { k with run0 := k.run0.drop 1 }
  if (s.task r.cmd.tid).place = .ended then s
  else
    let s := s.updTask r.cmd.tid fun t => { t with out1 := t.out1 - 1 }
    let s := s.pushWord r.cmd.tid 1 r.word
    match (s.task r.cmd.tid).place with
    | .slot k => s.within k fun s => if s.cur.u.tid == r.cmd.tid then s.mwaitDone else s
    | _ => s

/-- MATRIX_COMMAND_COMPLETE (R196, R198): commands of a core complete in issue order; an MSTA writes a row per cycle and completes when all its rows
are acknowledged. -/
def execMatrixCommandComplete (tile core : Nat) (s : State) : Host.Outcome State Fault Refusal :=
  let c := tile * 8 + core
  let again := fun (s : State) => s.after 1 (.matrixCommandComplete tile core)
  match (s.core c).run0 with
  | [] => .next s
  | r :: rest =>
    if s.now < r.done then .next (s.after (r.done - s.now) (.matrixCommandComplete tile core))
    else if r.left ≠ 0 then
      match r.lines[16 - r.left]? with
      | none => .next s
      | some (off, data) =>
        if s.rowWaits tile r.cmd.asid (off / 64) true then .next (again s)
        else
          let s := s.storeRow tile c r.cmd off data
          .next (again (s.updCore c fun k => { k with run0 := { r with left := r.left - 1 } :: rest }))
    else if s.net.reqs.any fun e => e.2.op == 0 && e.2.lane == 100 + core && e.2.tile == tile && e.2.stage == .notices then .next (again s)
    else .next (s.finishMatrix c r)

end Sys2Proof.Machine
end

