-- ==== Sys2Proof/Machine/Copy.lean ====
section
/-! DEFINITION. The copy engine: CPY, CPYX, descriptors, transfers, conversion and completion (spec/08_engine_queues.md R189, R190, R201 to
R207; spec/16_engine_instructions.md R344, R353; spec/02_number_formats.md R45; spec/04_memory_space.md R104, R110; spec/05 R126). -/

namespace Sys2Proof.Machine

/-! ### Engine accesses -/

/-- What an access of an engine meets. -/
inductive Eng (α : Type) where
  | ok (a : α)
  | again                       -- it has to wait for its line or for a walker
  | pending (page : Nat)
  | fail (status : Nat)
  | pod

/-- The engine status of a trap cause (Table 8.8). -/
def engStatus (cause : Nat) : Nat :=
  if cause = causeAddr then 2 else if cause = causeFmt then 3 else if cause = causeAlign then 4 else if cause = causeProt then 5
  else if cause = causeXlate then 6 else if cause = causePoison then 7 else if cause = causeTenant then 8
  else if cause = causePisteScope then 9 else 5

/-- Whether accesses of the tile's slots to one of the lines are ahead of an engine's at the tile's port (R113). -/
def State.linesAhead (s : State) (tile : Nat) (asid : BitVec 14) (l : List (Nat × Nat)) : Bool :=
  l.any fun e => s.portAhead tile asid (s.classify tile asid .s e.1).key

/-- Read `n` bytes for an engine, with the checks of R110. -/
def State.engRead (s : State) (tile : Nat) (asid : BitVec 14) (va : Int) (n : Nat) : Eng (List Byte) × State :=
  if va < 0 ∨ (2 : Int) ^ 48 < va + n then (.fail 2, s)
  else
    let l := pieces (n / 64 + 2) va.toNat n
    if s.linesAhead tile asid l then (.again, s)
    else match s.vreadL tile asid l [] with
      | (.ok b, s) => (.ok b, s)
      | (.pending _ p, s) => (.pending p, s)
      | (.wait, s) => (.again, s)
      | (.fail c _, s) => (.fail (engStatus c), s)
      | (.gone, s) => (.pod, s)

/-- Write bytes for an engine; the write's acknowledgement waits for the notices it sends (R135). -/
def State.engWrite (s : State) (tile lane : Nat) (c : ECmd) (va : Int) (data : List Byte) : Eng Unit × State :=
  let n := data.length
  if va < 0 ∨ (2 : Int) ^ 48 < va + n then (.fail 2, s)
  else if s.linesAhead tile c.asid (pieces (n / 64 + 2) va.toNat n) then (.again, s)
  else
    let (id, s) := s.fresh
    match s.vwrite tile c.asid va.toNat data id with
    | (.ok k, s) =>
      (.ok (), if k = 0 then s
        else s.setReq { engineReq id c.slot 0 c.tid c.asid lane tile (BitVec.ofInt 64 va) (.hbm va.toNat) s.now with stage := .notices, notices := k })
    | (.pending _ p, s) => (.pending p, s)
    | (.wait, s) => (.again, s)
    | (.fail k _, s) => (.fail (engStatus k), s)
    | (.gone, s) => (.pod, s)

/-- Park an engine command on a page: a fault record goes to the page service, and the wake lets it go on (R104). -/
def State.park (s : State) (who : Parker) (c : ECmd) (page : Nat) (write : Bool) : State :=
  let s := s.faultRecord (page % 64) c.asid (page * 65536) (if write then 1 else 0) c.slot (s.slot c.slot).mc.ctxser
  { s with net := { s.net with parks := s.net.parks ++ [⟨c.asid, page, who⟩] } }

/-- Whether the acquire of a command is met: every access of its slot that was incomplete at issue has completed, and the task's updates are
accepted at the scope (R126). -/
def State.acquired (s : State) (c : ECmd) (sc : Scope) : Bool :=
  !((s.slot c.slot).ops.any fun o => c.waits.contains o.id) && !s.updatesOut c.tid sc

/-- Whether writes of an engine's core still wait for their notices. -/
def State.engineBusy (s : State) (tile lane : Nat) : Bool :=
  s.net.reqs.any fun e => e.2.op == 0 && e.2.lane == lane && e.2.tile == tile && e.2.source.isNone

/-- A scope by its code; codes 5 to 7 are reserved (R119). -/
def scopeOf : Nat → Option Scope
  | 0 => some .slot | 1 => some .core | 2 => some .tile | 3 => some .pkg | 4 => some .pod
  | _ => none

/-- Whether acceptance at a scope is met by the tile port (Table 5.4). -/
def nearScope : Scope → Bool
  | .slot | .core | .tile => true
  | _ => false

/-! ### Descriptors (R202) -/

/-- A field of a descriptor: `n` bytes at `off`. -/
def descAt (d : List Byte) (off n : Nat) : Nat := leNat ((d.drop off).take n)

/-- A copy descriptor, read. -/
structure CopyPlan where
  src   : W64
  dst   : W64
  mode  : Nat
  acq   : Bool
  asc   : Nat
  rel   : Bool
  rsc   : Nat
  event : Bool
  nidx  : Nat
  tag   : W32
  word3 : Nat                       -- the word at 0x18
  flag15 : Bool
  dims  : List (Nat × Int × Int)    -- SIZE, SSTRIDE, DSTRIDE, innermost first
  sfmt  : Option EFmt
  dfmt  : Option EFmt

/-- Read a copy descriptor. -/
def CopyPlan.of (d : List Byte) : CopyPlan :=
  let fl := descAt d 0x10 8
  let src := BitVec.ofNat 64 (descAt d 0 8)
  let dst := BitVec.ofNat 64 (descAt d 8 8)
  { src := src, dst := dst, mode := fl % 8, acq := fl.testBit 6, asc := fl / 2 ^ 7 % 8, rel := fl.testBit 10, rsc := fl / 2 ^ 11 % 8,
    event := fl.testBit 14, nidx := fl / 2 ^ 16 % 2 ^ 16, tag := BitVec.ofNat 32 (fl / 2 ^ 32), word3 := descAt d 0x18 8, flag15 := fl.testBit 15
    dims := (List.range (fl / 8 % 8 + 1)).map fun i =>
      (descAt d (0x20 + 12 * i) 4, (BitVec.ofNat 32 (descAt d (0x24 + 12 * i) 4)).toInt, (BitVec.ofNat 32 (descAt d (0x28 + 12 * i) 4)).toInt)
    sfmt := EFmt.of? (fmtOf src), dfmt := EFmt.of? (fmtOf dst) }

/-- The number of elements in a group of a side: 2 for I4 and SPM, 2^BLG for LX8 (R203). -/
def groupOf (f : EFmt) (p : W64) : Nat :=
  match f with
  | .i4 | .spm => 2
  | .lx8 => 2 ^ blgOf p
  | _ => 1

/-- Whether a command moves single elements of a format that has groups: a gather or scatter of one dimension (R204). -/
def CopyPlan.single (p : CopyPlan) : Bool :=
  (p.mode == 1 || p.mode == 2) && p.dims.length == 1 &&
    (match p.sfmt, p.dfmt with | some sf, some df => groupOf sf p.src != 1 || groupOf df p.dst != 1 | _, _ => false)

/-- Whether two sides have one format. -/
def CopyPlan.same (p : CopyPlan) : Bool := fmtOf p.src == fmtOf p.dst && blgOf p.src == blgOf p.dst

/-- BLK, FIRST, TCNT and TSTEP of a deal (R206). -/
def CopyPlan.blk (p : CopyPlan) : Nat := p.word3 % 2 ^ 16
def CopyPlan.first (p : CopyPlan) : Nat := p.word3 / 2 ^ 16 % 2 ^ 9
def CopyPlan.tcnt (p : CopyPlan) : Nat := p.word3 / 2 ^ 25 % 2 ^ 10
def CopyPlan.tstep (p : CopyPlan) : Nat := p.word3 / 2 ^ 35 % 2 ^ 9

/-- The elements moved at once: the larger group of the two sides. A deal moves source groups as bytes. DESIGN CHOICE (log 14). -/
def CopyPlan.unit (p : CopyPlan) : Nat :=
  let gs := match p.sfmt with | some f => groupOf f p.src | none => 1
  let gd := match p.dfmt with | some f => groupOf f p.dst | none => 1
  if p.single then 1 else if p.mode = 3 then gs else Nat.max gs gd

/-- The rule of R203 for the strides of a side whose format has groups; a gather or scatter ignores the SIZE of its outermost dimension (R204). -/
def CopyPlan.strideOk (p : CopyPlan) (g : Nat) (stride : Nat × Int × Int → Int) : Bool :=
  g == 1 || match p.dims with
    | [] => false
    | d0 :: rest => stride d0 == 1 && (p.single || d0.1 % g == 0) && rest.all fun d => stride d % (g : Int) == 0

/-- The status a descriptor is refused with (R203, R206, Table 8.8). A copy between RAW or SPM and another format, which R45 does not convert, ends with
FMT. DESIGN CHOICE (log 85). -/
def CopyPlan.refusal (p : CopyPlan) (sramDst : Bool) : Option Nat :=
  if p.flag15 || decide (3 < p.mode) || (scopeOf p.asc).isNone || (scopeOf p.rsc).isNone then some 1
  else if decide (p.nidx ≠ 0) && (p.mode == 0 || p.mode == 3) then some 1
  else if p.mode == 0 && decide (p.word3 ≠ 0) then some 1
  else if (p.mode == 1 || p.mode == 2) && decide (2 ^ 48 ≤ p.word3) then some 1
  else if p.mode == 3 && (decide (2 ^ 44 ≤ p.word3) || p.blk == 0 || p.tcnt == 0 || decide (512 < p.tcnt) || p.dims.any fun d => d.2.2 != 0) then some 1
  else if p.src.extractLsb' 48 4 ≠ 0 ∨ p.dst.extractLsb' 48 4 ≠ 0 then some 2
  else if (fmtFault p.src).isSome || (fmtFault p.dst).isSome then some 3
  else match p.sfmt, p.dfmt with
    | some sf, some df =>
      if p.mode == 3 then
        if !sramDst || !(p.same || df == .raw) || !p.strideOk (groupOf sf p.src) (·.2.1) then some 1 else none
      else if !p.same && (sf == .raw || df == .raw || sf == .spm || df == .spm) then some 3
      else if !p.strideOk (groupOf sf p.src) (·.2.1) || !p.strideOk (groupOf df p.dst) (·.2.2) then some 1
      else if (p.mode == 1 || p.mode == 2) && decide (p.word3 % 4 ≠ 0) then some 4
      else none
    | _, _ => some 3

/-! ### Units -/

/-- The sizes of the dimensions in units: dimension 0 is divided by the unit, and an index list replaces the outermost. -/
def CopyPlan.counts (p : CopyPlan) : List Nat :=
  let l := p.dims.map (·.1)
  let l := match l with | [] => [] | d0 :: r => d0 / p.unit :: r
  if p.mode = 1 ∨ p.mode = 2 then l.dropLast ++ [p.nidx + 1] else l

/-- The number of units of a command. -/
def CopyPlan.total (p : CopyPlan) : Nat := p.counts.foldl (· * ·) 1

/-- The indices of a unit, innermost first. -/
def unitIdx : List Nat → Nat → List Nat
  | [], _ => []
  | c :: cs, u => u % c :: unitIdx cs (u / c)

/-- The block of a unit in a gather or scatter. -/
def CopyPlan.block (p : CopyPlan) (u : Nat) : Nat := (unitIdx p.counts u).getLastD 0

/-- The element offset of a unit on one side: `top` replaces the outermost index there. -/
def CopyPlan.offset (p : CopyPlan) (u : Nat) (stride : Nat × Int × Int → Int) (top : Option Nat) : Int :=
  let ix := unitIdx p.counts u
  let ix := match ix with | [] => [] | i0 :: r => i0 * p.unit :: r
  let ix := match top with | some t => ix.dropLast ++ [t] | none => ix
  ((p.dims.zip ix).map fun (e : (Nat × Int × Int) × Nat) => stride e.1 * (e.2 : Int)).sum

/-- The accesses of a unit on one side: addresses and bytes. Elements of a format with groups are adjacent; others follow the innermost
stride. A single element of such a format is reached by its whole group. -/
def CopyPlan.spans (p : CopyPlan) (f : EFmt) (side : W64) (off stride : Int) : List (Int × Nat) :=
  let g := groupOf f side
  if g = 1 then
    (List.range p.unit).map fun (k : Nat) => ((vaOf side : Int) + (off + (k : Int) * stride) * (f.bits / 8 : Nat), f.bits / 8)
  else if p.single then [((vaOf side : Int) + off / (g : Int) * (g * f.bits / 8 : Nat), g * f.bits / 8)]
  else [((vaOf side : Int) + off * f.bits / 8, p.unit * f.bits / 8)]

/-- The alignment an access of a side must have: that of its element, or of its LX8 block. -/
def alignOf (f : EFmt) (p : W64) : Nat :=
  match f with
  | .i4 | .spm => 1
  | .lx8 => 2 ^ blgOf p
  | _ => f.bits / 8

/-- Elements of a side as widened values, with decode flags. -/
def unpack (f : EFmt) (p : W64) (b : List Byte) : List Wide × Flags :=
  match f with
  | .lx8 =>
    let bl := (chunks (2 ^ blgOf p) (b.length / 2 ^ blgOf p) b).map lx8Decode
    ((bl.flatMap (·.1)).map .val, bl.foldl (fun fl r => fl ||| r.2) 0)
  | .i4 | .spm => (b.flatMap fun x => [f.widen (x.toNat % 16), f.widen (x.toNat / 16)], 0)
  | _ => ((List.range (b.length / (f.bits / 8))).map fun k => f.widen (leNat ((b.drop (k * (f.bits / 8))).take (f.bits / 8))), 0)

/-- Widened values as elements of a side, with the flags of narrowing (R45). -/
def repack (f : EFmt) (p : W64) (l : List Wide) : List Byte × Flags :=
  match f with
  | .lx8 =>
    let n := 2 ^ blgOf p
    let bl := (chunks n (l.length / n) l).map fun c => lx8Encode (c.map Wide.fval)
    (bl.flatMap (·.1), bl.foldl (fun fl r => fl ||| r.2) 0)
  | .i4 | .spm =>
    let e := l.map f.narrow
    ((chunks 2 (l.length / 2) e).map fun c => BitVec.ofNat 8 ((c.getD 0 (0, 0)).1 + 16 * (c.getD 1 (0, 0)).1), e.foldl (fun fl r => fl ||| r.2) 0)
  | _ =>
    let e := l.map f.narrow
    (e.flatMap fun r => leBytes (f.bits / 8) r.1, e.foldl (fun fl r => fl ||| r.2) 0)

/-- Convert the bytes of whole units (R45, R203): nothing changes where the formats are equal, or in a deal. -/
def CopyPlan.convert (p : CopyPlan) (b : List Byte) : List Byte × Flags :=
  if p.same || p.mode == 3 then (b, 0)
  else match p.sfmt, p.dfmt with
    | some sf, some df =>
      let w := unpack sf p.src b
      let r := repack df p.dst w.1
      (r.1, w.2 ||| r.2)
    | _, _ => (b, 0)

/-- The element offset of a unit on the source side, and on the destination side. -/
def CopyPlan.srcOff (p : CopyPlan) (u : Nat) (idx : Option Nat) : Int := p.offset u (·.2.1) (if p.mode = 1 then idx else none)
def CopyPlan.dstOff (p : CopyPlan) (u : Nat) (idx : Option Nat) : Int := p.offset u (·.2.2) (if p.mode = 2 then idx else none)

/-- Move a single element of a format with groups (R204): the source's group is read, and the element replaces one of the destination's group as it stands.
DESIGN CHOICE (log 86). -/
def CopyPlan.pick (p : CopyPlan) (u : Nat) (idx : Option Nat) (src old : List Byte) : List Byte × Flags :=
  match p.sfmt, p.dfmt with
  | some sf, some df =>
    let gs := groupOf sf p.src
    let gd := groupOf df p.dst
    let w := unpack sf p.src src
    let el := w.1.getD ((p.srcOff u idx).toNat % gs) (.val (.zero false))
    if gd = 1 then let r := repack df p.dst [el]; (r.1, w.2 ||| r.2)
    else
      let o := unpack df p.dst old
      let r := repack df p.dst (o.1.set ((p.dstOff u idx).toNat % gd) el)
      (r.1, w.2 ||| r.2)
  | _, _ => (src, 0)

/-- The source accesses of a unit. -/
def CopyPlan.reads (p : CopyPlan) (u : Nat) (idx : Option Nat) : List (Int × Nat) :=
  match p.sfmt with
  | none => []
  | some f => p.spans f p.src (p.srcOff u idx) ((p.dims.headD (0, 0, 0)).2.1)

/-- The destination accesses of a unit. -/
def CopyPlan.writes (p : CopyPlan) (u : Nat) (idx : Option Nat) : List (Int × Nat) :=
  match p.sfmt, p.dfmt with
  | some sf, some df =>
    if p.mode = 3 then
      let n := p.unit * sf.bits / 8
      let pos := u * n
      let bb := p.blk * 64
      let b := pos / bb
      let t := (p.first + b % p.tcnt * p.tstep) % 512
      let va := vaOf p.dst
      let base := va - va / 4194304 % 512 * 4194304 + t * 4194304
      [((base : Int) + (b / p.tcnt * bb + pos % bb : Nat), n)]
    else p.spans df p.dst (p.dstOff u idx) ((p.dims.headD (0, 0, 0)).2.2)
  | _, _ => []

/-! ### Transfers (R201, R422) -/

/-- Spans with neighbours that join up made one. -/
def mergeSpans : List (Int × Nat) → List (Int × Nat)
  | [] => []
  | e :: r =>
    match mergeSpans r with
    | [] => [e]
    | f :: t => if e.1 + e.2 = f.1 then (e.1, e.2 + f.2) :: t else e :: f :: t

/-- Where spans end that follow each other from an address on; `none` where they do not. -/
def followOn : List (Int × Nat) → Int → Option Int
  | [], e => some e
  | (a, n) :: r, e => if a = e then followOn r (e + n) else none

/-- The units from `u` on that join a transfer: their destination follows on and stays below `dlim`, and so does their source where `slim` bounds it. The
number of units, and where both sides end. -/
def CopyPlan.runOn (p : CopyPlan) (idx : Option Nat) (blk total : Nat) (dlim : Int) (slim : Option Int) : Nat → Nat → Int → Int → Nat × Int × Int
  | 0, _, d, e => (0, d, e)
  | n + 1, u, d, e =>
    if total ≤ u ∨ p.single ∨ ((p.mode = 1 ∨ p.mode = 2) ∧ p.block u ≠ blk) then (0, d, e)
    else match followOn (p.writes u idx) d, (match slim with | some l => (followOn (p.reads u idx) e).bind fun x => if x ≤ l then some x else none | none => some e) with
      | some d', some e' =>
        if d' ≤ dlim then
          let r := p.runOn idx blk total dlim slim n (u + 1) d' e'
          (r.1 + 1, r.2)
        else (0, d, e)
      | _, _ => (0, d, e)

/-- The units of the transfer that begins with a unit: those whose bytes lie in one line of the destination, or, where a side lies in another package, a
contiguous and aligned run of 256 bytes there (R201, R422). -/
def CopyPlan.runLen (p : CopyPlan) (u : Nat) (idx : Option Nat) (podSrc podDst : Bool) : Nat :=
  let blk := p.block u
  let total := p.total
  let w := mergeSpans (p.writes u idx)
  let r := mergeSpans (p.reads u idx)
  let d0 := (w.headD (0, 0)).1
  let d1 := d0 + (w.headD (0, 0)).2
  let s0 := (r.headD (0, 0)).1
  let s1 := s0 + (r.headD (0, 0)).2
  let near := 1 + (p.runOn idx blk total ((d0 / 64 + 1) * 64) none 64 (u + 1) d1 s1).1
  if podDst && d0 % 256 == 0 then
    let t := p.runOn idx blk total (d0 + 256) none 256 (u + 1) d1 s1
    if t.2.1 = d0 + 256 then 1 + t.1 else near
  else if podSrc && s0 % 256 == 0 then
    let t := p.runOn idx blk total (2 ^ 48) (some (s0 + 256)) 256 (u + 1) d1 s1
    if t.2.2 = s0 + 256 then 1 + t.1 else near
  else near

/-- The source accesses, and the destination accesses, of `k` units. -/
def CopyPlan.readRun (p : CopyPlan) (u k : Nat) (idx : Option Nat) : List (Int × Nat) :=
  mergeSpans ((List.range k).flatMap fun i => p.reads (u + i) idx)
def CopyPlan.writeRun (p : CopyPlan) (u k : Nat) (idx : Option Nat) : List (Int × Nat) :=
  mergeSpans ((List.range k).flatMap fun i => p.writes (u + i) idx)

/-- The status of the first of some accesses that fails the issuing engine's steps of R110: within 48 bits, then aligned. -/
def spanFault (al : Nat) (l : List (Int × Nat)) : Option Nat :=
  l.findSome? fun e => if e.1 < 0 ∨ (2 : Int) ^ 48 < e.1 + e.2 then some 2 else if e.1 % (al : Int) ≠ 0 then some 4 else none

/-! ### Issue -/

/-- Push a copy command to q2 (R344, R353). -/
def pushCopy (i : Instr) (s : State) (a : RegNo) (tag : Option W32) : Host.Outcome State Fault Refusal :=
  issue i s fun s =>
    let x := s.cur
    let c : ECmd := ⟨x.readG a, tag, x.u.tid, s.curId, x.sc.asid, x.sc.tenant, x.sc.piste, s.now, x.ops.map (·.id)⟩
    let core := coreOf s.curId
    let s := s.updCore core fun k => { k with q2 := k.q2 ++ [c] }
    let s := s.updTask s.myTid fun t => { t with out3 := t.out3 + 1 }
    .next (s.afterOnce 1 (.copyCommandStart s.myTile (core % 8)))

/-- CPY (R353). -/
def execCpy (a : RegNo) (s : State) : Host.Outcome State Fault Refusal := pushCopy (.cpy a) s a none
/-- CPYX (R353): the low half of g[B] replaces TAG. -/
def execCpyx (a b : RegNo) (s : State) : Host.Outcome State Fault Refusal := pushCopy (.cpyx a b) s a (some (lo32 (s.cur.readG b)))

/-! ### The engine -/

/-- A completion word (Table 8.7). -/
def completionWord (tag : W32) (status : Nat) (fl : Flags) : W64 :=
  BitVec.ofNat 64 (tag.toNat + status * 2 ^ 32 + fl.toNat * 2 ^ 40)

/-- An engine's command ends for its task: the completion word is pushed, the event is latched, the delay is added (R63, R207, R232). -/
def State.completeCmd (s : State) (c : ECmd) (q kind cls : Nat) (tag : W32) (status : Nat) (fl : Flags) (event : Bool) : State :=
  if (s.task c.tid).place = .ended then s
  else
    let s := s.updTask c.tid fun t => if q = 3 then { t with out3 := t.out3 - 1 } else { t with out5 := t.out5 - 1 }
    let s := s.updHolder c.tid fun x => x.addDelay s.now cls (s.now - c.issued)
    let s := s.pushWord c.tid q (completionWord tag status fl)
    if event then s.updHolder c.tid fun x => x.latch kind tag else s

/-- Replace the running copy of a core. -/
def State.setCopy (s : State) (core : Nat) (r : CopyRun) : State := s.updCore core fun k => { k with run2 := some r }

/-- Let the running copy of a core go on after `n` cycles. -/
def State.copyOn (s : State) (core n : Nat) : State := s.afterOnce n (.copyCommandComplete (core / 8) (core % 8))

/-- A copy fails or ends: what is left is its release and its completion word. -/
def State.endCopy (s : State) (core : Nat) (r : CopyRun) (status : Nat) : State :=
  (s.setCopy core { r with fin := true, status := status, wait := .none }).copyOn core 1

/-- Read or write the spans of a unit one after another. -/
def State.readSpans (s : State) (tile : Nat) (asid : BitVec 14) : List (Int × Nat) → List Byte → Eng (List Byte) × State
  | [], acc => (.ok acc, s)
  | (va, n) :: rest, acc =>
    match s.engRead tile asid va n with
    | (.ok b, s) => s.readSpans tile asid rest (acc ++ b)
    | r => r

/-- Write the spans of a unit one after another. -/
def State.writeSpans (s : State) (tile lane : Nat) (c : ECmd) : List (Int × Nat) → List Byte → Eng Unit × State
  | [], _ => (.ok (), s)
  | (va, n) :: rest, data =>
    match s.engWrite tile lane c va (data.take n) with
    | (.ok _, s) => s.writeSpans tile lane c rest (data.drop n)
    | r => r

/-- The requests that an engine's core has at another package. DESIGN CHOICE (log 76). -/
def State.podReqs (s : State) (tile lane : Nat) : List Req :=
  (s.net.reqs.filter fun e => e.2.op == 0 && e.2.lane == lane && e.2.tile == tile && (match e.2.cls with | .pod .. => true | _ => false)).map (·.2)

/-- Cut `n` bytes at `va` into the transfers of R422: 256 bytes where they are aligned, pieces of one line each elsewhere. -/
def podPieces : Nat → Nat → Nat → List (Nat × Nat)
  | 0, _, _ => []
  | fuel + 1, va, n =>
    if n = 0 then []
    else
      let k := if va % 256 = 0 ∧ 256 ≤ n then 256 else Nat.min n (64 - va % 64)
      (va, k) :: podPieces fuel (va + k) (n - k)

/-- Send spans to another package, after steps 5 and 6 of R110: a Piste slot's command has no pod access, and a package that is no member is not
reached (R89). The status of a failure, or the state with the requests sent. -/
def State.podSpans (s : State) (tile lane : Nat) (c : ECmd) (kind : ReqKind) (l : List (Int × Nat)) (data : List Byte) : Nat ⊕ State :=
  let cut := l.flatMap fun e => podPieces (e.2 / 64 + 2) e.1.toNat e.2
  (cut.foldl (fun (acc : (Nat ⊕ State) × List Byte) e =>
    match acc.1, s.classify tile c.asid .s e.1 with
    | .inr s, .pod pkg va =>
      if c.piste then (.inl 9, [])
      else if !s.pkg.members.contains pkg then (.inl 2, [])
      else
        let (id, s) := s.fresh
        (.inr (s.sendReq { engineReq id c.slot 0 c.tid c.asid lane tile (BitVec.ofNat 64 e.1) (.pod pkg va) s.now with
          kind := kind, n := e.2, mask := lowMask e.2, data := acc.2.take e.2, tenant := c.tenant, order := id }), acc.2.drop e.2)
    | .inr _, _ => (.inl 5, [])
    | r, _ => (r, [])) (.inr s, data)).1

/-- What has come back of an engine's accesses to another package. -/
inductive PodBack where
  | data (b : List Byte)
  | fail (status : Nat)
  | page (n : Nat)

/-- The number under which an engine's command parks on a page of another package. -/
def podPage (pkg va : Nat) : Nat := (foreignHome + 1 + pkg) * 4294967296 + va / 65536

/-- The answers of another package to an engine's accesses, once all are there: their data, or the first that failed or is pending. -/
def podAnswers (l : List Req) : Option PodBack :=
  if l.any fun r => r.stage != .done then none
  else some (l.foldl (fun acc r => match acc, r.res with
    | .data b, .ok d => .data (b ++ d)
    | .data _, .fail c _ => .fail (engStatus c)
    | .data _, .pending => .page (match r.cls with | .pod pkg va => podPage pkg va | _ => 0)
    | e, _ => e) (.data []))

/-- Park an engine command on a page of another package: its wake message lets it go on (R104). -/
def State.parkPod (s : State) (who : Parker) (c : ECmd) (page : Nat) : State := s.updNet fun n => { n with parks := n.parks ++ [⟨c.asid, page, who⟩] }

/-- The core whose turn it is to use the copy engine of a tile: the first from the pointer on that has a transfer to make or a command to start (R201). -/
def State.copyTurn (s : State) (tile : Nat) : Option Nat :=
  ((List.range 8).map fun i => ((s.tile tile).crr + i) % 8).find? fun c =>
    let k := s.core (tile * 8 + c)
    match k.run2 with
    | some r => !r.fin && r.wait == .none
    | none => !k.q2.isEmpty

/-- A core has had its turn. -/
def State.passCopy (s : State) (core : Nat) : State := s.updTile (core / 8) fun t => { t with crr := (core + 1) % 8 }

/-- A transfer has been made: on to the next. The counter of code 8 counts its 64-byte transfers (R233). -/
def State.nextUnit (s : State) (core : Nat) (r : CopyRun) (p : CopyPlan) (bytes : Nat) (fl : Flags) : State :=
  let u := r.unit + r.units
  let idx := if p.block u = p.block r.unit then r.idx else none
  let s := s.tally (core / 8) 8 (Nat.max 1 ((bytes + 63) / 64))
  (s.setCopy core { r with unit := u, units := 0, data := none, idx := idx, flags := r.flags ||| fl, wait := .none }).copyOn core 1

/-- The status a span's side asks for. -/
def CopyPlan.dstAlign (p : CopyPlan) : Nat := match p.dfmt with | some f => if p.mode = 3 then 1 else alignOf f p.dst | none => 1
def CopyPlan.srcAlign (p : CopyPlan) : Nat := match p.sfmt with | some f => alignOf f p.src | none => 1

/-- What a transfer writes: the converted bytes, and their flags. A single element of a format with groups takes the destination's group as it stands, which
stands behind the source bytes where another package has sent it. -/
def State.copyData (s : State) (core : Nat) (r : CopyRun) (p : CopyPlan) (raw : List Byte) (w : List (Int × Nat)) : Eng (List Byte × Flags) × State :=
  let n := ((p.readRun r.unit r.units r.idx).map (·.2)).sum
  if !p.single then (.ok (p.convert raw), s)
  else if n < raw.length then (.ok (p.pick r.unit r.idx (raw.take n) (raw.drop n)), s)
  else match s.readSpans (core / 8) r.cmd.asid w [] with
    | (.ok old, s) => (.ok (p.pick r.unit r.idx raw old), s)
    | (.again, s) => (.again, s)
    | (.pending page, s) => (.pending page, s)
    | (.fail st, s) => (.fail st, s)
    | (.pod, s) => (.pod, s)

/-- Ask another package for spans: the running copy of a core waits for the answers. -/
def State.askSpans (s : State) (core : Nat) (r : CopyRun) (l : List (Int × Nat)) : State :=
  match s.podSpans (core / 8) (200 + core % 8) r.cmd .load l [] with
  | .inl st => s.endCopy core r st
  | .inr s => (s.setCopy core { r with wait := .podRead }).copyOn core 64

/-- Write a transfer's data. -/
def State.putUnit (s : State) (core : Nat) (r : CopyRun) (p : CopyPlan) (raw : List Byte) : State :=
  let tile := core / 8
  let lane := 200 + core % 8
  let w := p.writeRun r.unit r.units r.idx
  let bytes := (w.map (·.2)).sum
  match spanFault p.dstAlign w with
  | some st => s.endCopy core r st
  | none => match s.copyData core r p raw w with
    | (.again, s) => s.copyOn core 1
    | (.pending page, s) => (s.setCopy core { r with wait := .page }).park (.copy core) r.cmd page true
    | (.fail st, s) => s.endCopy core r st
    | (.pod, s) => s.askSpans core r w
    | (.ok d, s) => match s.writeSpans tile lane r.cmd w d.1 with
      | (.ok _, s) => s.nextUnit core r p bytes d.2
      | (.again, s) => s.copyOn core 1
      | (.pending page, s) => (s.setCopy core { r with wait := .page }).park (.copy core) r.cmd page true
      | (.fail st, s) => s.endCopy core r st
      | (.pod, s) =>
        match s.podSpans tile lane r.cmd .store w d.1 with
        | .inl st => s.endCopy core r st
        | .inr s => (s.setCopy core { r with wait := .podWrite, fin := decide (p.total ≤ r.unit + r.units) }).copyOn core 64

/-- Make the next transfer of a copy: its index where it has one, its source, its destination (R203, R204, R206). Source bytes that have been read are
kept while the destination waits. -/
def State.copyUnit (s : State) (core : Nat) (r : CopyRun) (p : CopyPlan) : State :=
  let tile := core / 8
  if (p.mode = 1 ∨ p.mode = 2) ∧ r.idx = none then
    let at_ : Int := ((p.word3 + 4 * p.block r.unit : Nat) : Int)
    match s.engRead tile r.cmd.asid at_ 4 with
    | (.ok b, s) => (s.setCopy core { r with idx := some (leNat b) }).copyOn core 1
    | (.again, s) => s.copyOn core 1
    | (.pending page, s) => (s.setCopy core { r with wait := .page }).park (.copy core) r.cmd page false
    | (.fail st, s) => s.endCopy core r st
    | (.pod, s) => s.askSpans core r [(at_, 4)]
  else match r.data with
    | some b => s.putUnit core r p b
    | none =>
      let pod := fun (l : List (Int × Nat)) => match s.classify tile r.cmd.asid .s ((l.headD (0, 0)).1.toNat) with | .pod .. => true | _ => false
      let k := p.runLen r.unit r.idx (pod (p.reads r.unit r.idx)) (pod (p.writes r.unit r.idx))
      let rd := p.readRun r.unit k r.idx
      match spanFault p.srcAlign rd with
      | some st => s.endCopy core r st
      | none => match s.readSpans tile r.cmd.asid rd [] with
        | (.ok b, s) =>
          let r := { r with data := some b, units := k }
          (s.setCopy core r).putUnit core r p b
        | (.again, s) => s.copyOn core 1
        | (.pending page, s) => (s.setCopy core { r with wait := .page }).park (.copy core) r.cmd page false
        | (.fail st, s) => s.endCopy core r st
        | (.pod, s) => s.askSpans core { r with units := k } rd

/-- The command of a running copy has its descriptor, read after its acquire: it starts, or is refused (R202, R203, R206). -/
def State.startCopy (s : State) (core : Nat) (c : ECmd) (d : List Byte) : State :=
  let p := CopyPlan.of d
  let sram := match s.classify (core / 8) c.asid .s (vaOf p.dst) with | .sram .. => true | _ => false
  let st := (p.refusal sram).getD 0
  (s.setCopy core ⟨c, d, 0, none, none, 0, st, 0, .none, st != 0⟩).copyOn core 1

/-- Whether a descriptor's acquire is met, or has a scope that is none. -/
def State.copyAcquired (s : State) (c : ECmd) (d : List Byte) : Bool :=
  let p := CopyPlan.of d
  match scopeOf p.asc with
  | some sc => !p.acq || s.acquired c sc
  | none => true

/-- The answers of another package have come: the descriptor, an index, the source bytes, or the acknowledgement of a write. A descriptor read before its
acquire is read again after it. -/
def State.podCopy (s : State) (core : Nat) (r : CopyRun) (p : CopyPlan) : State :=
  let l := s.podReqs (core / 8) (200 + core % 8)
  match podAnswers l with
  | none => s.copyOn core 64
  | some a =>
    let s := l.foldl (fun s q => s.delReq q.id) s
    match a with
    | .fail st => s.endCopy core { r with data := none } st
    | .page n => (s.setCopy core { r with wait := .page, fin := false, units := if r.data.isSome then r.units else 0 }).parkPod (.copy core) r.cmd n
    | .data b =>
      if r.desc.isEmpty then
        if r.units = 1 ∨ !(CopyPlan.of b).acq then s.startCopy core r.cmd b
        else (s.setCopy core { r with data := some b, wait := .none }).copyOn core 1
      else if r.wait = .podWrite then s.nextUnit core r p b.length 0
      else if (p.mode = 1 ∨ p.mode = 2) ∧ r.idx = none then (s.setCopy core { r with idx := some (leNat b), wait := .none }).copyOn core 1
      else (s.setCopy core { r with data := some (r.data.getD [] ++ b), wait := .none }).copyOn core 1

/-- A command whose descriptor lies in another package asks for it. -/
def State.askDesc (s : State) (core : Nat) (c : ECmd) (acquired : Bool) : State :=
  let r : CopyRun := ⟨c, [], 0, none, none, if acquired then 1 else 0, 0, 0, .podRead, false⟩
  match s.podSpans (core / 8) (200 + core % 8) c .load [((vaOf c.desc : Int), 128)] [] with
  | .inl st => s.endCopy core r st
  | .inr s => (s.setCopy core r).copyOn core 64

/-- COPY_COMMAND_START (R126, R201, R202): the head of q2 reads its descriptor after its acquire and starts. A command whose descriptor cannot be read
completes with TAG 0, or the tag CPYX gave it, and latches no event. DESIGN CHOICE (log 87). -/
def execCopyCommandStart (tile core : Nat) (s : State) : Host.Outcome State Fault Refusal :=
  let k := tile * 8 + core
  match (s.core k).run2, (s.core k).q2 with
  | none, c :: rest =>
    if s.copyTurn tile != some core then .next (s.afterOnce 1 (.copyCommandStart tile core))
    else
      let s := s.passCopy k
      let take := fun (s : State) => s.updCore k fun k => { k with q2 := rest }
      let fail := fun (s : State) (st : Nat) => (take s).endCopy k ⟨c, [], 0, none, none, 0, 0, 0, .none, true⟩ st
      if c.desc.extractLsb' 48 4 ≠ 0 then .next (fail s 2)
      else if 2 ^ 48 < vaOf c.desc + 128 then .next (fail s 2)
      else if vaOf c.desc % 64 ≠ 0 then .next (fail s 4)
      else match s.engRead tile c.asid (vaOf c.desc) 128 with
        | (.ok d, t) =>
          if s.copyAcquired c d then .next ((take t).startCopy k c d) else .next (s.afterOnce 1 (.copyCommandStart tile core))
        | (.again, s) => .next (s.afterOnce 1 (.copyCommandStart tile core))
        | (.pending page, s) =>
          .next (((take s).setCopy k ⟨c, [], 0, none, none, 0, 0, 0, .page, false⟩).park (.copy k) c page false)
        | (.fail st, s) => .next (fail s st)
        | (.pod, s) => .next ((take s).askDesc k c false)
  | _, _ => .next s

/-- COPY_COMMAND_COMPLETE (R201, R203 to R207): the running copy of a core makes its next transfer when its turn comes; after the last one, or the first
failure, it waits for its release and completes, and the core's next command starts. -/
def execCopyCommandComplete (tile core : Nat) (s : State) : Host.Outcome State Fault Refusal :=
  let k := tile * 8 + core
  match (s.core k).run2 with
  | none => .next s
  | some r =>
    let p := CopyPlan.of r.desc
    match r.wait with
    | .page => .next s
    | .podRead | .podWrite => .next (s.podCopy k r p)
    | .none =>
      if !r.fin then
        if s.copyTurn tile != some core then .next (s.copyOn k 1)
        else
          let s := s.passCopy k
          if r.desc.isEmpty then
            match r.data with
            | some d => if s.copyAcquired r.cmd d then .next (s.askDesc k r.cmd true) else .next (s.copyOn k 1)
            | none => .next (s.askDesc k r.cmd false)
          else if p.total ≤ r.unit then .next (s.endCopy k r 0)
          else .next (s.copyUnit k r p)
      else if p.rel && (match scopeOf p.rsc with | some sc => !nearScope sc | none => false) && s.engineBusy tile (200 + core) then .next (s.copyOn k 1)
      else
        let s := s.updCore k fun c => { c with run2 := none }
        let s := s.completeCmd r.cmd 3 0 13 (r.cmd.tag.getD p.tag) r.status r.flags p.event
        .next (s.afterOnce 1 (.copyCommandStart tile core))

/-- A wake reaches a copy parked on a page (R104): it goes on, or completes with XLATE. A copy parked at its descriptor reads it again. -/
def State.wakeCopy (s : State) (core : Nat) (maps : Bool) : State :=
  match (s.core core).run2 with
  | none => s
  | some r =>
    if !maps then s.endCopy core r 6
    else if r.desc.isEmpty then
      (s.updCore core fun k => { k with q2 := r.cmd :: k.q2, run2 := none }).afterOnce 1 (.copyCommandStart (core / 8) (core % 8))
    else (s.setCopy core { r with wait := .none }).copyOn core 1

end Sys2Proof.Machine
end

