-- ==== Sys2Proof/Machine/Coll.lean ====
section
/-! DEFINITION. The collective unit: COLL, joins, the reduction tree, completion and time-out (spec/08_engine_queues.md R189, R208 to R211;
spec/16_engine_instructions.md R344, R353; spec/02_number_formats.md R55, R56; spec/22_host_and_pod.md R428, R429). -/

namespace Sys2Proof.Machine

/-! ### Descriptors (R208) -/

/-- A collective descriptor, read. -/
structure CollPlan where
  src    : W64
  dst    : W64
  kind   : Nat
  op     : Nat
  acq    : Bool
  asc    : Nat
  rel    : Bool
  rsc    : Nat
  event  : Bool
  tag    : W32
  count  : Nat
  root   : Nat
  span   : Bool
  tfirst : Nat
  tcnt   : Nat            -- member tiles
  collid : W32
  pmaskp : Nat
  clean  : Bool           -- reserved fields are zero

/-- Read a collective descriptor. -/
def CollPlan.of (d : List Byte) : CollPlan :=
  let fl := descAt d 0x10 8
  let m := descAt d 0x20 8
  { src := BitVec.ofNat 64 (descAt d 0 8), dst := BitVec.ofNat 64 (descAt d 8 8), kind := fl % 8, op := fl / 8 % 16, acq := fl.testBit 8,
    asc := fl / 2 ^ 9 % 8, rel := fl.testBit 12, rsc := fl / 2 ^ 13 % 8, event := fl.testBit 16, tag := BitVec.ofNat 32 (fl / 2 ^ 32),
    count := descAt d 0x18 4, root := descAt d 0x1C 4, span := m.testBit 0, tfirst := m / 2 % 512, tcnt := m / 2 ^ 10 % 512 + 1,
    collid := BitVec.ofNat 32 (m / 2 ^ 32), pmaskp := descAt d 0x28 8,
    clean := !fl.testBit 7 && fl / 2 ^ 17 % 2 ^ 15 == 0 && m / 2 ^ 19 % 2 ^ 13 == 0 && descAt d 0x30 16 == 0 }

/-- The element bytes of a collective type; `none` for a format that is none (R208). -/
def collBytes (p : W64) : Option Nat :=
  match fmtOf p with
  | 0x10 | 0x05 | 0x06 => some 4
  | 0x07 => some 8
  | _ => none

/-- Whether a descriptor keeps what Table 8.9 says of it alone, at a tile (R209, R210). -/
def CollPlan.clear (p : CollPlan) (tile : Nat) : Bool :=
  p.clean && decide (p.kind ≤ 3) && decide (p.op ≤ 5) && (scopeOf p.asc).isSome && (scopeOf p.rsc).isSome &&
  decide (p.pmaskp < 2 ^ 48) && (p.span || p.pmaskp == 0) && decide (p.tfirst + p.tcnt ≤ 512) &&
  decide (p.tfirst ≤ tile ∧ tile < p.tfirst + p.tcnt) &&
  (p.kind == 3 ||
    ((collBytes p.src).isSome && fmtOf p.dst == fmtOf p.src && blgOf p.src == 0 && blgOf p.dst == 0 &&
     (decide (p.op < 3) || fmtOf p.src != 0x10)))

/-- Whether a descriptor keeps what Table 8.9 says of it for `k` members (R209, R210). -/
def CollPlan.suits (p : CollPlan) (k : Nat) : Bool := (p.kind != 1 || p.count % k == 0) && (p.kind != 2 || decide (p.root < k))

/-! ### The reduction (R55, R56, R209) -/

/-- Combine neighbours; an unpaired value passes up unchanged. -/
def pairUp {α : Type} (f : α → α → α) : List α → List α
  | a :: b :: r => f a b :: pairUp f r
  | l => l

/-- The pairwise tree over the positions of a package. -/
def pairTree {α : Type} (f : α → α → α) : Nat → List α → List α
  | 0, l => l
  | n + 1, l => if l.length ≤ 1 then l else pairTree f n (pairUp f l)

/-- One level of the tree across packages: groups of sixteen, each combined from left to right. -/
def sixteenUp {α : Type} (f : α → α → α) (l : List α) : List α :=
  (List.range ((l.length + 15) / 16)).flatMap fun i =>
    match (l.drop (16 * i)).take 16 with
    | [] => []
    | a :: r => [r.foldl f a]

/-- The radix-16 tree over the packages. -/
def sixteenTree {α : Type} (f : α → α → α) : Nat → List α → List α
  | 0, l => l
  | n + 1, l => if l.length ≤ 1 then l else sixteenTree f n (sixteenUp f l)

/-- One step on two elements of a type with their flags. -/
def collStep (fmt op : Nat) (a b : Nat × Flags) : Nat × Flags :=
  let fl := a.2 ||| b.2
  if fmt = 0x10 then
    let x := BitVec.ofNat 32 a.1
    let y := BitVec.ofNat 32 b.1
    match op with
    | 0 => let r := f32add .rne x y; (r.bits.toNat, fl ||| r.flags)
    | 1 => ((f32min x y).toNat, fl)
    | _ => ((f32max x y).toNat, fl)
  else
    let w := if fmt = 0x07 then 64 else 32
    let x := BitVec.ofNat w a.1
    let y := BitVec.ofNat w b.1
    let less := if fmt = 0x06 then x.ult y else x.slt y
    let r := match op with
      | 0 => x + y
      | 1 => if less then x else y
      | 2 => if less then y else x
      | 3 => x &&& y
      | 4 => x ||| y
      | _ => x ^^^ y
    (r.toNat, fl)

/-- Reduce one element of every member, in order of position, of which each package has `per` (R56, R209). -/
def collElem (fmt op per : Nat) (l : List Nat) : Nat × Flags :=
  let step := collStep fmt op
  let leaf := l.map fun x => (x, (0 : Flags))
  let sums := (List.range ((l.length + per - 1) / per)).flatMap fun i => pairTree step per ((leaf.drop (per * i)).take per)
  let r := (sixteenTree step 3 sums).headD (0, 0)
  if fmt = 0x10 then
    let v := l.map fun x => val32 (BitVec.ofNat 32 x)
    let nan := v.any fun x => x == .nan
    let infs := op == 0 && v.contains (.inf false) && v.contains (.inf true)
    if nan || infs then (nan32.toNat, fNV)
    else if isNan32 (BitVec.ofNat 32 r.1) then (nan32.toNat, r.2 ||| fNV)
    else r
  else r

/-- Reduce the contributions of all members, of which each package has `per`. -/
def collReduce (fmt op n count per : Nat) (srcs : List (List Byte)) : List Byte × Flags :=
  let e := (List.range count).map fun i => collElem fmt op per (srcs.map fun b => leNat ((b.drop (i * n)).take n))
  (e.flatMap fun x => leBytes n x.1, e.foldl (fun f x => f ||| x.2) 0)

/-! ### Issue and joining -/

/-- COLL (R353): it pushes a command to q4. -/
def execColl (a : RegNo) (s : State) : Host.Outcome State Fault Refusal :=
  issue (.coll a) s fun s =>
    let x := s.cur
    let c : ECmd := ⟨x.readG a, none, x.u.tid, s.curId, x.sc.asid, x.sc.tenant, x.sc.piste, s.now, x.ops.map (·.id)⟩
    let core := coreOf s.curId
    let s := s.updCore core fun k => { k with q4 := k.q4 ++ [c] }
    let s := s.updTask s.myTid fun t => { t with out5 := t.out5 + 1 }
    .next (s.afterOnce 1 (.collectiveJoin s.myTile (core % 8)))

/-- A collective by its key. -/
def State.coll? (s : State) (k : CollKey) : Option Coll := s.net.colls.find? fun c => c.key == k

/-- List, replace or remove a collective. -/
def State.setColl (s : State) (k : CollKey) (c : Option Coll) : State :=
  { s with net := { s.net with colls := s.net.colls.filter (fun o => o.key != k) ++ c.toList } }

/-- The member at a position. -/
def Coll.at (c : Coll) (pos : Nat) : Option CollMember := c.members.find? fun m => m.pos == pos

/-- The packages of a member's mask: its own package alone, or the set bits of the mask read at PMASKP (R208). -/
def maskPkgs (own : Nat) (span : Bool) (b : List Byte) : List Nat :=
  if span then (List.range 256).filter fun k => (leNat b).testBit k else [own]

/-- The packages of a member. -/
def CollMember.pkgs (m : CollMember) : List Nat := maskPkgs m.pkg (CollPlan.of m.desc).span m.mask

/-- Whether a member disagrees with the member at position 0 (R210). -/
def CollMember.differs (m z : CollMember) : Bool :=
  let f := fun (m : CollMember) =>
    let p := CollPlan.of m.desc
    (p.kind, p.op, (if p.kind = 3 then 0 else fmtOf p.src), p.count, p.root, p.tfirst, p.tcnt, m.pkgs)
  f m != f z

/-- Whether the members that have joined disagree (R210): known once the member at position 0 is among them. -/
def Coll.mismatch (c : Coll) : Bool :=
  match c.at 0 with
  | none => false
  | some z => c.members.any fun m => m.differs z

/-- What the root decides, once it can: a mismatch, the time-out, or, with every member, the reduced elements or those of the broadcast's root with the
flags (R209 to R211). -/
def Coll.decide_ (c : Coll) : Option (Nat × List Byte × BitVec 5) :=
  if c.mismatch then some (10, [], 0)
  else if c.timedOut then some (11, [], 0)
  else match c.at 0 with
    | none => none
    | some z =>
      if c.members.length < c.need then none
      else
        let p := CollPlan.of z.desc
        let n := (collBytes p.src).getD 4
        let srcs := (List.range c.need).map fun i => ((c.at i).map (·.src)).getD []
        match p.kind with
        | 0 | 1 => let r := collReduce (fmtOf p.src) p.op n p.count p.tcnt srcs; some (0, r.1, r.2)
        | 2 => some (0, srcs.getD p.root [], 0)
        | _ => some (0, [], 0)

/-- The root's decision travels to the members (R209): to those of this package, and with a message to each other package that has one. -/
def State.spreadColl (s : State) (c : Coll) (v : Nat × List Byte × BitVec 5) : State :=
  let away := c.members.filter fun m => m.pkg != s.pkg.podIndex.toNat && !c.served.contains m.pos
  let s := (away.map (·.pkg)).dedup.foldl (fun s p =>
    s.postMsg p 5 c.key.asid (s.asidEnt c.key.asid).tenant 512 (.result c.key v.1 v.2.1 v.2.2)) s
  let c := { c with verdict := some v, served := c.served ++ away.map (·.pos) }
  (s.setColl c.key (if decide (0 < c.need) && decide (c.need ≤ c.served.length) then none else some c)).afterOnce 35 (.collectiveComplete c.key)

/-- A member's join message reaches the root (R209, R211, R428): it counts, and may decide the collective; one that has been decided answers at once. -/
def State.joinColl (s : State) (key : CollKey) (m : CollMember) : State :=
  let own := s.pkg.podIndex.toNat
  let fresh := (s.coll? key).isNone
  let c := (s.coll? key).getD ⟨key, s.now, [], false, 0, own, none, [], [], []⟩
  let c := { c with members := c.members ++ [m], need := if m.pos = 0 then (CollPlan.of m.desc).tcnt * m.pkgs.length else c.need }
  let s := s.setColl key (some c)
  let s := if fresh && s.pkg.colltmo != 0 then s.after (s.pkg.colltmo.toNat * 2400) (.colltmoExpiry key) else s
  match c.verdict.or c.decide_ with
  | some v => s.spreadColl c v
  | none => s

/-- A member of this package joins a collective whose root is in another package: it is noted here, and its join message leaves (R428). -/
def State.joinAway (s : State) (key : CollKey) (m : CollMember) (root : Nat) : State :=
  let p := CollPlan.of m.desc
  let c := (s.coll? key).getD ⟨key, s.now, [], false, p.tcnt, root, none, [], [], []⟩
  let s := s.setColl key (some { c with members := c.members ++ [m] })
  let s := s.postMsg root 5 key.asid m.cmd.tenant (512 + dieOf (tileOf m.cmd.slot)) (.join key m.pos m.desc m.mask m.src)
  if c.verdict.isSome then s.afterOnce 1 (.collectiveComplete key) else s

/-- A join message of another package reaches the root here. -/
def State.joinForeign (s : State) (pkg : Nat) (tag : BitVec 16) (key : CollKey) (pos : Nat) (desc mask src : List Byte) : State :=
  s.joinColl key ⟨pkg, pos, ⟨0, none, 0, 0, key.asid, tag, false, s.now, []⟩, desc, mask, src, 0⟩

/-- What the root in another package has decided reaches the members here. -/
def State.takeResult (s : State) (key : CollKey) (v : Nat × List Byte × BitVec 5) : State :=
  match s.coll? key with
  | none => s
  | some c => (s.setColl key (some { c with verdict := some v })).afterOnce 35 (.collectiveComplete key)

/-- A COLL that takes no part completes at once (R210). -/
def State.dropColl (s : State) (core : Nat) (c : ECmd) (tag : W32) (event : Bool) (status : Nat) : State :=
  let s := s.updCore core fun k => { k with q4 := k.q4.drop 1, join4 := none }
  (s.completeCmd c 5 1 9 tag status 0 event).afterOnce 1 (.collectiveJoin (core / 8) (core % 8))

/-- The contribution of a member: nothing for a barrier and for a broadcast's other members (R209). -/
def CollPlan.srcLen (p : CollPlan) (pos : Nat) : Nat :=
  if p.kind = 3 ∨ (p.kind = 2 ∧ pos ≠ p.root) then 0 else p.count * (collBytes p.src).getD 4

/-- The bytes a member's DST receives: its share of a reduce-scatter, and the whole result otherwise (R209). -/
def CollPlan.dstLen (p : CollPlan) (k : Nat) : Nat :=
  if p.kind = 3 then 0 else (if p.kind = 1 then p.count / Nat.max k 1 else p.count) * (collBytes p.src).getD 4

/-- The status with which SRC and DST fail the issuing engine's steps of R110. -/
def CollPlan.pointerFault (p : CollPlan) (pos k : Nat) : Option Nat :=
  let n := (collBytes p.src).getD 4
  if p.kind = 3 then none
  else if p.src.extractLsb' 48 4 ≠ 0 ∨ p.dst.extractLsb' 48 4 ≠ 0 then some 2
  else spanFault n [((vaOf p.src : Int), p.srcLen pos), ((vaOf p.dst : Int), p.dstLen k)]

/-- What comes next of a command that joins: a read, its join, or its end with a status. -/
inductive JoinStep where
  | read (va n : Nat)
  | wait
  | join (pos root : Nat)
  | fail (status : Nat)

/-- A member's position among `pkgs`, at a tile of a package (R209). -/
def CollPlan.position (p : CollPlan) (own tile : Nat) (pkgs : List Nat) : Nat := (pkgs.filter fun q => q < own).length * p.tcnt + (tile - p.tfirst)

/-- The next step of the command at the head of a core's q4: its descriptor, and its acquire; then its package mask; then its contribution, as many as 64
lines at a time (R126, R208, R210). -/
def State.joinStep (s : State) (tile : Nat) (c : ECmd) (j : JoinRun) : JoinStep :=
  match j.desc with
  | none =>
    if c.desc.extractLsb' 48 4 ≠ 0 ∨ 2 ^ 48 < vaOf c.desc + 64 then .fail 2
    else if vaOf c.desc % 64 ≠ 0 then .fail 4
    else if j.mask == some [] then .wait
    else .read (vaOf c.desc) 64
  | some d =>
    let p := CollPlan.of d
    if !p.clear tile then .fail 1
    else match j.mask with
      | none => .read p.pmaskp 32
      | some m =>
        let own := s.pkg.podIndex.toNat
        let pkgs := maskPkgs own p.span m
        let k := p.tcnt * pkgs.length
        let pos := p.position own tile pkgs
        if !pkgs.contains own || !p.suits k then .fail 1
        else match p.pointerFault pos k with
          | some st => .fail st
          | none =>
            let left := p.srcLen pos - j.src.length
            if left = 0 then .join pos (pkgs.headD own) else .read (vaOf p.src + j.src.length) (Nat.min left 4096)

/-- Whether the acquire of a descriptor is met, or has a scope that is none. -/
def State.joinAcquired (s : State) (c : ECmd) (d : List Byte) : Bool :=
  let p := CollPlan.of d
  match scopeOf p.asc with | some sc => !p.acq || s.acquired c sc | none => true

/-- A command whose descriptor has shown that it acquires (`mask` is empty) reads it again once that is met (`mask` holds a byte), and uses it then. -/
def State.joinReady (s : State) (c : ECmd) (j : JoinRun) : JoinRun :=
  if j.desc.isNone && j.mask == some [] && s.joinAcquired c j.src then { j with mask := some [1] } else j

/-- The bytes of the last read of a command that joins have come. -/
def State.joinData (s : State) (core : Nat) (j : JoinRun) (b : List Byte) : State :=
  let put := fun (j : JoinRun) => (s.updCore core fun k => { k with join4 := some j }).afterOnce 1 (.collectiveJoin (core / 8) (core % 8))
  match j.desc with
  | none =>
    let p := CollPlan.of b
    if !p.acq || j.mask == some [1] then put ⟨some b, if p.span then none else some [], []⟩ else put ⟨none, some [], b⟩
  | some d => if j.mask.isNone then put ⟨some d, some b, []⟩ else put { j with src := j.src ++ b }

/-- The number a task's next collective with an identifier has, and the count that goes on (R209). -/
def State.collCount (s : State) (c : ECmd) (id : W32) : Nat := (s.task c.tid).colls.getD 0 id.toNat
def State.bumpColl (s : State) (c : ECmd) (id : W32) : State := s.updTask c.tid fun u => { u with colls := u.colls.set id.toNat (s.collCount c id + 1) }

/-- The command at the head of a core's q4 ends without joining. -/
def State.failJoin (s : State) (core : Nat) (c : ECmd) (j : JoinRun) (st : Nat) : State :=
  match j.desc with
  | none => s.dropColl core c 0 false st
  | some d => let p := CollPlan.of d; (s.bumpColl c p.collid).dropColl core c p.tag p.event st

/-- COLLECTIVE_JOIN (R126, R208 to R211, R428): the head of a core's q4 reads its descriptor after its acquire, then its package mask and its
contribution, and joins at the root, the collective unit of the member at position 0. -/
def execCollectiveJoin (tile core : Nat) (s : State) : Host.Outcome State Fault Refusal :=
  let k := tile * 8 + core
  let lane := 300 + core
  match (s.core k).q4 with
  | [] => .next s
  | c :: _ =>
    let again := fun (s : State) (n : Nat) => s.afterOnce n (.collectiveJoin tile core)
    let j := s.joinReady c ((s.core k).join4.getD ⟨none, none, []⟩)
    let sent := s.podReqs tile lane
    if s.net.parks.any fun p => p.who == .join k then .next s
    else if !sent.isEmpty then
      match podAnswers sent with
      | none => .next (again s 64)
      | some a =>
        let s := sent.foldl (fun s q => s.delReq q.id) s
        match a with
        | .data b => .next (s.joinData k j b)
        | .fail st => .next (s.failJoin k c j st)
        | .page n => .next (s.parkPod (.join k) c n)
    else match s.joinStep tile c j with
      | .wait => .next (again s 1)
      | .fail st => .next (s.failJoin k c j st)
      | .read va n =>
        match s.engRead tile c.asid va n with
        | (.ok b, s) => .next (s.joinData k j b)
        | (.again, s) => .next (again s 1)
        | (.pending page, s) => .next (s.park (.join k) c page false)
        | (.fail st, s) => .next (s.failJoin k c j st)
        | (.pod, s) =>
          match s.podSpans tile lane c .load [((va : Int), n)] [] with
          | .inl st => .next (s.failJoin k c j st)
          | .inr s => .next (again (s.updCore k fun k => { k with join4 := some j }) 64)
      | .join pos root =>
        let d := j.desc.getD []
        let p := CollPlan.of d
        let key : CollKey := ⟨c.asid, p.collid, s.collCount c p.collid⟩
        let own := s.pkg.podIndex.toNat
        let m : CollMember := ⟨own, pos, c, d, j.mask.getD [], j.src, 0⟩
        let s := (s.bumpColl c p.collid).updCore k fun k => { k with q4 := k.q4.drop 1, join4 := none }
        let s := if root = own then s.joinColl key m else s.joinAway key m root
        .next (again s 1)

/-! ### Completion -/

/-- What a member's DST receives of a result (R209). -/
def CollMember.share (m : CollMember) (b : List Byte) : List Byte :=
  let p := CollPlan.of m.desc
  if p.kind = 1 then
    let n := p.dstLen (p.tcnt * m.pkgs.length)
    (b.drop (m.pos * n)).take n
  else b

/-- A member's completion word is pushed; a collective whose members are all served is forgotten. -/
def State.serveMember (s : State) (c : Coll) (m : CollMember) (status : Nat) (fl : Flags) : State :=
  let p := CollPlan.of m.desc
  let s := s.completeCmd m.cmd 5 1 9 p.tag status fl p.event
  let c := { c with served := c.served ++ [m.pos] }
  let done := decide (0 < c.need) && decide (c.need ≤ c.served.length)
  let s := s.setColl c.key (if done then none else some c)
  if done then s else s.afterOnce 1 (.collectiveComplete c.key)

/-- A member has written some of its DST. -/
def Coll.wrote_ (c : Coll) (m : CollMember) (n total : Nat) : Coll :=
  { c with members := c.members.map fun o => if o.pos = m.pos then { o with put := o.put + n } else o
           wrote := if total ≤ m.put + n then c.wrote ++ [m.pos] else c.wrote }

/-- COLLECTIVE_COMPLETE (R209, R211): one member of this package after another is given the result, waits for its release, and completes. -/
def execCollectiveComplete (key : CollKey) (s : State) : Host.Outcome State Fault Refusal :=
  match s.coll? key with
  | none => .next s
  | some c =>
    let again := fun (s : State) (n : Nat) => s.afterOnce n (.collectiveComplete key)
    let parked := fun (m : CollMember) => s.net.parks.any fun p => p.who == .member key m.pos
    match c.verdict, c.members.find? fun m => m.pkg == s.pkg.podIndex.toNat && !c.served.contains m.pos && !parked m with
    | some v, some m =>
      let p := CollPlan.of m.desc
      let tile := tileOf m.cmd.slot
      let lane := 300 + coreOf m.cmd.slot % 8
      let b := m.share v.2.1
      let n := Nat.min 4096 (b.length - m.put)
      let sent := s.podReqs tile lane
      if v.1 ≠ 0 then .next (s.serveMember c m v.1 0)
      else if c.refused.contains m.pos then .next (s.serveMember c m 6 0)
      else if c.wrote.contains m.pos then
        if p.rel && (match scopeOf p.rsc with | some sc => !nearScope sc | none => false) && s.engineBusy tile lane then .next (again s 1)
        else .next (s.serveMember c m 0 v.2.2)
      else if b.length ≤ m.put then .next (again (s.setColl key (some (c.wrote_ m 0 b.length))) 1)
      else if !sent.isEmpty then
        match podAnswers sent with
        | none => .next (again s 64)
        | some a =>
          let s := sent.foldl (fun s q => s.delReq q.id) s
          match a with
          | .data _ => .next (again (s.setColl key (some (c.wrote_ m n b.length))) 1)
          | .fail st => .next (s.serveMember c m st v.2.2)
          | .page q => .next ((again s 1).parkPod (.member key m.pos) m.cmd q)
      else
        let va : Int := ((vaOf p.dst + m.put : Nat) : Int)
        let data := (b.drop m.put).take n
        match s.engWrite tile lane m.cmd va data with
        | (.ok _, s) => .next (again (s.setColl key (some (c.wrote_ m n b.length))) 1)
        | (.again, s) => .next (again s 1)
        | (.pending page, s) => .next ((again s 1).park (.member key m.pos) m.cmd page true)
        | (.fail st, s) => .next (s.serveMember c m st v.2.2)
        | (.pod, s) =>
          match s.podSpans tile lane m.cmd .store [(va, data.length)] data with
          | .inl st => .next (s.serveMember c m st v.2.2)
          | .inr s => .next (again s 64)
    | _, _ => .next s

/-- COLLTMO_EXPIRY (R211): a collective that is still incomplete completes with TIMEOUT at every member that has issued it. -/
def execColltmoExpiry (key : CollKey) (s : State) : Host.Outcome State Fault Refusal :=
  match s.coll? key with
  | none => .next s
  | some c =>
    if c.verdict.isSome then .next s
    else
      let c := { c with timedOut := true }
      .next ((s.setColl key (some c)).spreadColl c (11, [], 0))

/-- A wake reaches an engine command parked on a page (R104): it goes on, or completes with XLATE. -/
def State.unpark1 (s : State) (p : Park) (maps : Bool) : State :=
  match p.who with
  | .copy core => s.wakeCopy core maps
  | .join core =>
    if maps then s.afterOnce 1 (.collectiveJoin (core / 8) (core % 8))
    else match (s.core core).q4 with
      | [] => s
      | c :: _ => s.failJoin core c ((s.core core).join4.getD ⟨none, none, []⟩) 6
  | .member key pos =>
    let s := match s.coll? key with
      | some c => if maps then s else s.setColl key (some { c with refused := c.refused ++ [pos] })
      | none => s
    s.afterOnce 1 (.collectiveComplete key)

end Sys2Proof.Machine
end

