-- ==== Sys2Proof/Machine/Lantern.lean ====
section
/-! DEFINITION. Lantern: lamps, keeper, reserves, and the messages between them, within a package and over the pod (spec/07_worklists.md R157 to R170,
R179, R187; spec/19_program_worklist.md R386, R387; Table 7.3). -/

namespace Sys2Proof.Machine

/-! ### Shares and entries (R160) -/

/-- The share of a lamp of the worklist. -/
def WorkList.share (w : WorkList) (lamp : Nat) : Nat :=
  let j := (w.lamps.filter fun d => decide (d < lamp)).length
  let n := Nat.max w.lamps.length 1
  if w.lamps.contains lamp then (w.rho + 1) / n + (if j < (w.rho + 1) % n then 1 else 0) else 0

/-- The shares of the lamps of a package. -/
def WorkList.shareOf (w : WorkList) (pkg : Nat) : Nat := ((w.lamps.filter fun d => lampPkg d == pkg).map w.share).sum

/-- The entries of a lamp that no worklist has reserved, and those of them in use. -/
def State.spareUsed (s : State) (lamp : Nat) : Nat × Nat :=
  let live := s.pkg.wls.filter fun e => !e.2.closed
  let asked := s.pkg.openings.map fun o => (o.shares.lookup lamp).getD 0
  (256 - (live.map fun e => e.2.share lamp).sum - asked.sum, (live.map fun e => (e.2.part lamp).length - e.2.share lamp).sum)

/-- Whether a lamp of this package can take one more item of a worklist. -/
def State.hasEntry (s : State) (w : WorkList) (lamp : Nat) : Bool :=
  decide ((w.part lamp).length < w.share lamp) || (let u := s.spareUsed lamp; decide (u.2 < u.1))

/-! ### The front, as far as this package knows it -/

/-- A front item as the keeper knows it: its lamp, its position, whether it waits for the end of a pull. -/
structure Known where
  lamp : Nat
  pos  : Nat
  waits : Bool

/-- The items of the lamps: those of this package, and those that the other packages have told of. -/
def WorkList.known (w : WorkList) : List Known :=
  (w.parts.flatMap fun e => e.2.map fun f => ⟨e.1, f.q.pos, f.pull.isSome⟩) ++
    w.far.flatMap fun e => e.2.parts.flatMap fun p => p.2.map fun i => ⟨p.1, i.1, i.2⟩

/-- Front items: those a pull has not ended yet wait beside them (Table 7.3). -/
def WorkList.live (w : WorkList) : List Known := w.known.filter fun i => !i.waits

/-- The number of items in a lamp's part. -/
def WorkList.size (w : WorkList) (lamp : Nat) : Nat := (w.known.filter fun i => i.lamp == lamp).length

/-- Whether the front holds ρ + 1 items: no place is left of those that the keeper may fill. -/
def WorkList.full (w : WorkList) : Bool := w.places == 0

/-- The last front item. -/
def WorkList.lastFront (w : WorkList) : Option Known :=
  w.live.foldl (fun acc x => match acc with | none => some x | some y => if y.pos < x.pos then some x else some y) none

/-- The lamp with the largest share less part size, the earliest on a tie; `coming` are items on their way to a lamp. -/
def WorkList.roomiest (w : WorkList) (coming : Nat → Nat) : Nat :=
  (w.lamps.foldl (fun (acc : Nat × Int) d =>
    let r : Int := (w.share d : Int) - w.size d - coming d
    if acc.2 < r then (d, r) else acc) (w.keeperLamp, -100000)).1

/-- The RITEMs of a worklist on their way to a lamp of this package. -/
def State.coming (s : State) (wl lamp : Nat) : Nat :=
  (s.net.pend.filter fun e => match e.ev with | .ritem o d _ => o == wl && d == lamp | _ => false).length

/-- The lamp an RITEM goes to: the one with the most free share, the earliest on a tie (R387). -/
def State.freest (s : State) (wl : Nat) (w : WorkList) : Nat := w.roomiest (s.coming wl)

/-- Put an item into a lamp's part. -/
def WorkList.putFront (w : WorkList) (lamp : Nat) (q : QItem) (pull : Option Nat) : WorkList :=
  { w with parts := w.parts.set lamp (w.part lamp ++ [⟨q, pull⟩]) }

/-- Remove an item from a lamp's part. -/
def WorkList.cutFront (w : WorkList) (lamp : Nat) (pos : Nat) : WorkList :=
  { w with parts := w.parts.set lamp ((w.part lamp).filter fun f => f.q.pos != pos) }

/-- The tiles of this package that a worklist has: those where its ASID has a window. -/
def State.wlTiles (s : State) (w : WorkList) : List Nat := (s.tiles.filter fun e => e.2.windows.any fun v => v.asid == w.asid).map (·.1)

/-- The cycle from which a worklist's watchdog counts, and its expiry (R184). The keeper's package keeps it. -/
def State.watchWl (s : State) (wl : Nat) : State :=
  match s.wl? wl with
  | some w => if s.pkg.wlwdog = 0 ∨ w.home ≠ s.own then s else s.afterOnce (s.pkg.wlwdog.toNat * 2400) (.wlwdogExpiry wl)
  | none => s

/-- An item is about to be present: a worklist that held none counts its watchdog from here (R184). -/
def State.stirWatch (s : State) (wl : Nat) : State :=
  if s.present wl = 0 then (s.updWl wl fun w => { w with lastPop := s.now }).watchWl wl else s

/-- Whether items of a worklist may be popped: only while its launch is Running or Triggered (R386). -/
def State.serves (s : State) (w : WorkList) : Bool :=
  match s.launch? w.launch with
  | some l => l.st == .running || l.st == .triggered
  | none => false

/-- The number of poppable items, as far as this package knows. -/
def State.poppable (s : State) (w : WorkList) : Nat := w.live.length + (if w.home = s.own then 0 else w.told.2.1)

/-- A pop leaves its tile for the first lamp (R168). -/
def State.sendPop (s : State) (w : WorkList) (m : PopMsg) : State :=
  let lamp := w.lampOf m.tile
  s.lantern (lampPkg lamp) (hopDie (tileIx m.tile) (lampDie lamp)) m.wl (.pop lamp { m with visited := 0, since := s.now })

/-- Items have become poppable: a blocked pop tries again, that of a saved task can be issued again, and dispatchers prefetch (R23, R168, R179, R386). -/
def State.stirWl (s : State) (wl : Nat) : State :=
  match s.wl? wl with
  | none => s
  | some w =>
    if !s.serves w then s else
    let s := match w.waiters with
      | [] => s
      | m :: rest => (s.updWl wl fun w => { w with waiters := rest }).sendPop w m
    let s := s.updRecs (fun r => r.slot.status == .blocked (.worklist wl) && r.slot.sc.asid == w.asid) fun r =>
      { r with ready := true, slot := { r.slot with occurred := true } }
    (s.wlTiles w).foldl (fun s t =>
      if (s.tile t).asking.contains wl || decide (4 ≤ ((s.tile t).prefetched.filter fun p => p.1 == wl).length) then s
      else s.afterOnce 1 (.prefetch t wl)) s

/-- Every blocked pop of a worklist tries again. -/
def State.stirAll (s : State) (wl : Nat) : State :=
  (List.range (Nat.max 1 (((s.wl? wl).map fun w => w.waiters.length).getD 0))).foldl (fun s _ => s.stirWl wl) s

/-! ### Reserve (R162, R163) -/

/-- The first item of a tile's reserve. -/
def WorkList.headOf (w : WorkList) (tile : Nat) : Option QItem :=
  (w.reserve tile).foldl (fun acc q => match acc with | none => some q | some p => if q.pos < p.pos then some q else some p) none

/-- The run of a tile that holds an item, where one does. -/
def WorkList.runWith (w : WorkList) (tile pos : Nat) : Option OvRun :=
  (w.runs.getD [] tile).find? fun r => r.items.any fun q => q.pos == pos

/-- Report the head of a reserve to the keeper; a report that reaches a run whose page is pending waits with it. -/
def State.sendHead (s : State) (wl tile : Nat) : State :=
  match s.wl? wl with
  | none => s
  | some w =>
    let head := w.headOf tile
    let waits := match head with
      | some q => (match w.runWith tile q.pos with | some r => r.wait.isSome | none => false)
      | none => false
    if waits then s else s.lantern w.home (hopDie tile (lampDie w.keeperLamp)) wl (.head (s.overPod tile) (head.map QItem.pos))

/-- Whether a tile of this package is a worklist's keeper tile. -/
def State.isKeeper (s : State) (w : WorkList) (tile : Nat) : Bool := w.ktile == s.overPod tile

/-- The run slots an insert may not use: the keeper tile holds some back for demotions (R163). -/
def State.heldBack (s : State) (w : WorkList) (tile : Nat) (demotion : Bool) : Nat :=
  if s.isKeeper w tile && !demotion then (w.ovruns + 7) / 8 else 0

/-- A free run slot of a tile. -/
def State.freeRun (s : State) (w : WorkList) (tile : Nat) (demotion : Bool) : Option Nat :=
  let used := (w.runs.getD [] tile).map (·.at_)
  if w.ovruns ≤ used.length + s.heldBack w tile demotion then none else (List.range w.ovruns).find? fun k => !used.contains k

/-- Whether a tile's shared heap of 256 entries has room, and the worklist's own entries too. DESIGN CHOICE (log 90): a worklist below its DEPTH writes a
run as well where the shared heap is full. -/
def State.heapRoom (s : State) (w : WorkList) (tile : Nat) : Bool :=
  decide ((w.heap.getD [] tile).length < w.depth + 1) &&
    decide ((s.pkg.wls.map fun e => (e.2.heap.getD [] tile).length).sum < 256)

/-- Where a run slot lies (R162). -/
def WorkList.runVa (w : WorkList) (tile slot : Nat) : Nat := w.ovbase + (tile * w.ovruns + slot) * 1024

/-- The bytes of an item in memory (R154). -/
def itemBytes (q : QItem) : List Byte :=
  let i := q.item
  leBytes 8 i.work.toNat ++ leBytes 8 ((i.key ++ i.entry ++ i.flags ++ i.count).toNat)

/-- The bytes of a run slot: items in order, unused ones zero. -/
def runBytes (l : List QItem) : List Byte := (l.flatMap itemBytes ++ List.replicate 1024 0).take 1024

/-- What came of an insert into a reserve: done, or the worklist froze; no room; to be tried again, since a line or a walker is not free. -/
inductive Inserted where
  | done (s : State)
  | full
  | again (s : State)

/-- Insert an item into a tile's reserve (R162, R163). -/
def State.insertReserve (s : State) (wl tile : Nat) (q : QItem) (demotion : Bool) : Inserted :=
  match s.wl? wl with
  | none => .full
  | some w =>
    if s.heapRoom w tile then
      .done ((s.updWl wl fun w => { w with heap := w.heap.set tile (insertItem (w.heap.getD [] tile) q) }).sendHead wl tile)
    else match s.freeRun w tile demotion with
      | none => .full
      | some slot =>
        let all := insertItem (w.heap.getD [] tile) q
        let run := all.take 64
        let add := fun (s : State) (wait : Option (Nat × Bool)) =>
          let s := s.updWl wl fun w => { w with
            heap := w.heap.set tile (all.drop 64), nruns := w.nruns + 1, runs := w.runs.set tile (w.runs.getD [] tile ++ [⟨slot, run, run.length, wait⟩]) }
          Inserted.done (s.sendHead wl tile)
        match s.vwrite tile w.asid (w.runVa tile slot) (runBytes run) 0 with
        | (.ok _, s) => add s none
        | (.pending home page, s) => add (s.faultRecord home w.asid (page * 65536) 1 (tile * 64) 0) (some (page, true))
        | (.wait, s) => .again s
        | (.fail _ _, s) => .done (s.freeze w.launch .faulted 3)
        | (.gone, s) => .done (s.freeze w.launch .faulted 3)

/-- Take the first identifier of a reserve's first item (R166); `none`: nothing is there. -/
def WorkList.takeHead (w : WorkList) (tile : Nat) : Option (QItem × WorkList) :=
  match w.headOf tile with
  | none => none
  | some q =>
    let sub := fun (l : List QItem) => l.flatMap fun p => if p.pos = q.pos then p.rest.toList else [p]
    some (q.first, { w with
      heap := w.heap.set tile (sub (w.heap.getD [] tile))
      runs := w.runs.set tile (((w.runs.getD [] tile).map fun r => { r with items := sub r.items }).filter fun r => !r.items.isEmpty) })

/-- The runs of a tile from which a pull takes items: of the first `n` identifiers, those that precede `kn`. -/
def WorkList.reach (w : WorkList) (tile : Nat) (kn : Option Nat) : Nat → List OvRun
  | 0 => []
  | n + 1 =>
    match w.headOf tile, w.takeHead tile with
    | some q, some (_, w') =>
      if !ahead q.pos kn then [] else (w.runWith tile q.pos).toList ++ w'.reach tile kn n
    | _, _ => []

/-! ### Answers -/

/-- A push is decided at a unit `hop` cycles from its tile: an accepted one is counted, and its answer is on its way (R170, R357). -/
def State.answerPush (s : State) (m : PushMsg) (status hop : Nat) : State :=
  if m.by_ == .keeper then s
  else
    let s := if status = 0 then s.updWl m.wl fun w => { w with pushes := w.pushes + BitVec.ofNat 64 m.q.size } else s
    let m := { m with since := s.now }
    if tilePkg m.tile = s.own then s.after hop (.pushAnswer m status) else s.lantern (tilePkg m.tile) hop m.wl (.pushAnswer m status)

/-! ### The keeper: its messages one at a time (R164) -/

/-- A lamp tells the keeper that it runs low (Table 7.3, R168, R387). -/
def State.sendLow (s : State) (wl lamp : Nat) : State :=
  match s.wl? wl with
  | none => s
  | some w => s.lantern w.home (hopDies (lampDie lamp) (lampDie w.keeperLamp)) wl (.low lamp)

/-- A lamp's part has fallen to at most half its share: LOW goes to the keeper (R387). DEDUCED (log 44). -/
def State.lowIf (s : State) (wl lamp : Nat) : State :=
  match s.wl? wl with
  | none => s
  | some w => if (w.part lamp).length ≤ w.share lamp / 2 then s.sendLow wl lamp else s

/-- The keeper is busy until what it has asked for is answered; then it goes on with `next`. DEMOTE goes to every lamp (R164). -/
def State.demoteAll (s : State) (wl : Nat) (ends : Bool) (loose : Nat) (next : Option Event) : State :=
  match s.wl? wl with
  | none => s
  | some w =>
    let s := s.updWl wl fun w => { w with op := some {
      lamps := w.lamps.filter fun d => lampPkg d == s.own, calls := (w.lamps.filter fun d => lampPkg d != s.own).map lampPkg, loose := loose, next := next } }
    w.lamps.foldl (fun s d => s.lantern (lampPkg d) (hopDies (lampDie w.keeperLamp) (lampDie d)) wl (.demote d w.k ends none)) s

/-- K changes: V increments and CUT goes to every lamp and tile (R164). -/
def State.sendCut (s : State) (wl : Nat) (ends : Option Nat) : State :=
  match s.wl? wl with
  | none => s
  | some w0 =>
    let s := s.updWl wl fun w => { w with v := w.v + 1 }
    let v := w0.v + 1
    let s := w0.lamps.foldl (fun (s : State) d => s.lantern (lampPkg d) (hopDies (lampDie w0.keeperLamp) (lampDie d)) wl (.cut true d w0.k v ends)) s
    let s := (w0.pkgs.filter (· != s.own)).foldl (fun (s : State) p => s.lantern p 0 wl (.cut false (p * 512) w0.k v ends)) s
    (s.wlTiles w0).foldl (fun s t => s.after (hopDie t (lampDie w0.keeperLamp)) (.cut wl false (s.overPod t) w0.k ⟨v, ends⟩)) s

/-- The keeper lowers K: DEMOTE and CUT go out (R164); a running pull keeps K no higher than this. -/
def State.lowerK (s : State) (wl k : Nat) (loose : Nat) (next : Option Event) : State :=
  ((s.updWl wl fun w => { w with k := some k, pull := w.pull.map fun p => { p with low := minK p.low (some k) } }).demoteAll wl false loose next).sendCut
    wl none

/-- An item goes to the keeper tile's reserve with a lowering of K (R163); the keeper is told when it is there. -/
def State.sendDown (s : State) (w : WorkList) (wl : Nat) (q : QItem) (hop : Nat) : State :=
  s.lantern w.home hop wl (.rpush ⟨wl, q, 0, w.ktile, .keeper, .demoted, none, 0, s.now⟩)

/-- The way from the keeper's lamp to its tile. -/
def WorkList.downHop (w : WorkList) : Nat := hopDie (tileIx w.ktile) (lampDie w.keeperLamp)

/-- The keeper calls the free places of the other packages in, where these have any, so that it knows the whole front. -/
def State.callIn (s : State) (wl : Nat) (next : Event) : State :=
  match s.wl? wl with
  | none => s
  | some w =>
    let lent := (w.far.filter fun e => e.2.places != 0).map (·.1)
    let s := s.updWl wl fun w => { w with op := some ⟨[], lent, 0, some next⟩ }
    lent.foldl (fun s p => s.lantern p 0 wl .call) s

/-- Whether places of the front are with other packages. -/
def WorkList.lends (w : WorkList) : Bool := w.far.any fun e => e.2.places != 0

/-- The keeper has an item inserted at a lamp, or at another where that has no entry (R160): it is busy until the lamp has taken it. -/
def State.insertAt (s : State) (wl lamp : Nat) (m : PushMsg) (next : Option Event) : State :=
  match s.wl? wl with
  | none => s
  | some w =>
    let alt := m.alt.getD (w.roomiest fun _ => 0)
    let at_ := if lampPkg lamp = s.own && !s.hasEntry w lamp then alt else lamp
    let far := lampPkg at_ != s.own
    let s := s.updWl wl fun w => { w with
      places := w.places - 1, op := some ⟨[], if far then [lampPkg at_] else [], if far then 0 else 1, next⟩ }
    s.lantern (lampPkg at_) (hopDies (lampDie w.keeperLamp) (lampDie at_)) wl (.fpush at_ { m with stage := .placed, alt := some alt, since := s.now })

/-- Place a single item that precedes K, for the message `m` (Table 7.3, FWD); `retry` is taken up again with the lamp that held
the item demoted to make room, `kept` follows where the item has gone to the keeper tile, and `next` where it has been inserted. -/
def State.placeFront (s : State) (wl lamp : Nat) (m : PushMsg) (retry : Nat → Event) (kept : Event) (next : Option Event) : State :=
  match s.wl? wl with
  | none => s
  | some w =>
    if !w.full then s.insertAt wl lamp m next
    else match w.lastFront with
      | none => (s.lowerK wl m.q.pos 1 (some kept)).sendDown w wl m.q w.downHop
      | some x =>
        if x.pos < m.q.pos then (s.lowerK wl m.q.pos 1 (some kept)).sendDown w wl m.q w.downHop
        else s.lowerK wl x.pos 0 (some (retry x.lamp))

/-! ### Pulls (R165, R166) -/

/-- The keeper starts a pull unless one is running (R165, R387). A pull that would find no item and a K at +∞ changes nothing and is left out. In another
package its tiles answer together. -/
def State.startPull (s : State) (wl : Nat) : State :=
  match s.wl? wl with
  | none => s
  | some w =>
    let heads := w.heads.filterMap fun e => e.2
    let bare := w.k.isNone && heads.isEmpty && w.kept == 0 && s.midway wl == 0 && w.far.all fun e => e.2.reserve == 0
    if w.pull.isSome || w.closed || bare then s
    else if w.lends then s.callIn wl (.low wl w.keeperLamp)
    else
      let least := heads.foldl Nat.min (heads.headD 0)
      let others := heads.erase least
      let kn := match others with | [] => none | h :: t => some (t.foldl Nat.min h)
      let tiles := s.wlTiles w
      let pkgs := w.pkgs.filter (· != s.own)
      let s := s.updWl wl fun w => { w with pull := some ⟨kn, w.places, w.v, tiles.map s.overPod ++ pkgs.map (· * 512), none, none, 0⟩ }
      let s := pkgs.foldl (fun (s : State) p => s.lantern p 0 wl (.pull (p * 512) kn w.places w.v)) s
      tiles.foldl (fun s t => s.after (hopDie t (lampDie w.keeperLamp)) (.pull wl (s.overPod t) kn w.places w.v)) s

/-- The pull ends (Table 7.3, PACK): the items it brought become front items, those at or after the new K and any excess are demoted first, then CUT. K
stays at or before what was demoted while it ran, as R161 asks. DEDUCED (log 43). -/
def State.endPull (s : State) (wl : Nat) (w : WorkList) (p : Pull) : State :=
  let k0 := minK (minK p.kn p.cap) p.low
  let all := ((w.known.map (·.pos)).filter fun x => ahead x k0).mergeSort (· ≤ ·)
  let k := match all[w.rho + 1]? with | some x => some x | none => k0
  if w.known.any fun i => !ahead i.pos k then
    (s.updWl wl fun w => { w with k := k, pull := some { p with
      low := k, sent := (w.known.filter fun i => i.waits && ahead i.pos k).length } }).demoteAll wl true 0 none
  else
    let waits := (w.known.filter (·.waits)).length
    (s.updWl wl fun w => { w with k := k, pull := none, places := w.places - waits }).sendCut wl (some p.v)

/-- End the running pull where every reserve has answered, every item sent has arrived and the keeper is free. -/
def State.tryEndPull (s : State) (wl : Nat) : State :=
  match s.wl? wl with
  | none => s
  | some w =>
    match w.pull with
    | none => s
    | some p =>
      if w.home = s.own && w.op.isNone && p.left.isEmpty && (w.known.filter (·.waits)).length == p.sent then s.endPull wl w p else s

/-- Something that the keeper waits for has come: when all has, it goes on with what follows and with the messages that have come meanwhile. -/
def State.opStep (s : State) (wl : Nat) (f : KeeperOp → KeeperOp) : State :=
  match s.wl? wl with
  | none => s
  | some w =>
    match w.op.map f with
    | none => s
    | some o =>
      if o.lamps.isEmpty && o.calls.isEmpty && o.loose == 0 then
        let s := s.updWl wl fun w => { w with op := none, inbox := [] }
        ((o.next.toList ++ w.inbox).foldl (fun s e => s.after 0 e) s).tryEndPull wl
      else s.updWl wl fun w => { w with op := some o }

/-- A message waits for the keeper. -/
def State.queue (s : State) (wl : Nat) (e : Event) : State :=
  s.updWl wl fun w => if w.inbox.contains e then w else { w with inbox := w.inbox ++ [e] }

/-! ### Pushes (Table 7.3) -/

/-- FWD (Table 7.3, R160, R163, R166): the keeper places a forwarded item; of a range the first identifier goes to the front and the remainder to its
tile's reserve, K being lowered to it. An item that a lamp could not take comes back and is placed elsewhere. -/
def execFwd (lamp : Nat) (m : PushMsg) (s : State) : Host.Outcome State Fault Refusal :=
  let m := m.hop s.now
  match s.wl? m.wl with
  | none => .next (s.answerPush m 2 22)
  | some w =>
    let back := hopDie (tileIx m.tile) (lampDie w.keeperLamp)
    if w.closed then .next (s.answerPush m 2 back)
    else if m.stage == .placed then
      let s := s.updWl m.wl fun w => { w with places := w.places + 1 }
      let s := if lampPkg lamp = s.own then s.opStep m.wl fun o => { o with loose := o.loose - 1 } else s
      .next (s.after 0 (.fwd (m.alt.getD lamp) { m with stage := .new, alt := none }))
    else if w.op.isSome then .next (s.queue m.wl (.fwd lamp m))
    else match m.stage with
      | .kept => .next (s.answerPush m 0 back)
      | .rest =>
        let kept := Event.fwd lamp { m with stage := .kept }
        if !ahead m.q.pos w.k then
          .next ((s.updWl m.wl fun w => { w with op := some ⟨[], [], 1, some kept⟩ }).sendDown w m.wl m.q w.downHop)
        else if w.lends then .next (s.callIn m.wl (.fwd lamp m))
        else if w.live.any fun i => !ahead i.pos (some m.q.pos) then .next (s.lowerK m.wl m.q.pos 0 (some (.fwd lamp m)))
        else .next ((s.lowerK m.wl m.q.pos 1 (some kept)).sendDown w m.wl m.q w.downHop)
      | _ =>
        if !ahead m.q.pos w.k then .next (s.lantern (tilePkg m.tile) back m.wl (.rpush { m with stage := .reserve, since := s.now }))
        else if w.full && w.lends then .next (s.callIn m.wl (.fwd lamp m))
        else match m.q.rest with
          | none => .next (s.placeFront m.wl lamp { m with q := m.q.first } (fun d => .fwd lamp { m with alt := some d }) (.fwd lamp { m with stage := .kept }) none)
          | some r =>
            let rest := Event.fwd lamp { m with q := r, stage := .rest }
            let makesRoom := w.full && (match w.lastFront with | some x => decide (m.q.pos ≤ x.pos) | none => false)
            let s := s.placeFront m.wl lamp { m with q := m.q.first, by_ := .keeper } (fun d => .fwd lamp { m with alt := some d }) rest (some rest)
            .next (if makesRoom then s else s.updWl m.wl fun w => { w with pushes := w.pushes + 1 })

/-- FPUSH (Table 7.3): the lamp inserts where the item precedes its K at its version, no CUT is on its way to it and a place of the front is free, or
where the keeper has placed the item; otherwise it forwards to the keeper. -/
def execFpush (lamp : Nat) (m : PushMsg) (s : State) : Host.Outcome State Fault Refusal :=
  let m := m.hop s.now
  match s.wl? m.wl with
  | none => .next (s.answerPush m 2 22)
  | some w =>
    let c := w.lampK.getD (none, 0) lamp
    let back := hopDie (tileIx m.tile) (lampDie lamp)
    let take := fun (s : State) => (((s.stirWatch m.wl).updWl m.wl fun w => w.putFront lamp m.q.first none).stirWl m.wl).answerPush m 0 back
    let fwd := s.lantern w.home (hopDies (lampDie lamp) (lampDie w.keeperLamp)) m.wl (.fwd lamp { m with since := s.now })
    let done := fun (s : State) => if w.home = s.own then s.opStep m.wl fun o => { o with loose := o.loose - 1 }
      else s.updWl m.wl fun w => { w with answered := w.answered + 1 }
    if w.closed then .next (s.answerPush m 2 back)
    else if m.stage == .placed then
      if s.hasEntry w lamp then .next (done (take s))
      else .next (if w.home = s.own then fwd else done fwd)
    else if m.v = c.2 ∧ (w.home = s.own → c.2 = w.v) ∧ ahead m.q.pos c.1 = true ∧ w.places ≠ 0 ∧ m.q.size = 1 ∧ s.hasEntry w lamp = true then
      .next (take (s.updWl m.wl fun w => { w with places := w.places - 1 }))
    else .next fwd

/-- RPUSH (Table 7.3, R163): the tile inserts at its current version; otherwise the item is a new push. One that the keeper sends is inserted unless it
precedes the tile's K; one for which the pushing tile has no room goes to the keeper tile, and is refused where that has none either. An item that comes
with a lowering of K is inserted in any case, or the worklist freezes. -/
def execRpush (m0 : PushMsg) (s : State) : Host.Outcome State Fault Refusal :=
  let m := m0.hop s.now
  match s.wl? m.wl with
  | none => .next (s.answerPush m 2 22)
  | some w =>
    let at_ := if m.stage == .spill then tileIx w.ktile else tileIx m.tile
    let c := w.tileK.getD (none, 0) at_
    let back := if m.stage == .spill then 35 else hopTile at_ at_
    let keeper := lampDie w.keeperLamp
    if w.closed then .next (s.answerPush m 2 back)
    else if m.stage == .demoted then
      match s.insertReserve m.wl at_ m.q true with
      | .done s => .next (s.after (hopDie at_ keeper) (.pushAnswer { m with since := s.now } 0))
      | .again s => .next (s.after 1 (.rpush m0))
      | .full => .next (s.freeze w.launch .faulted 3)
    else if ahead m.q.pos c.1 || (m.stage == .new && m.v != c.2) then
      .next (if m.stage == .spill then s.after (hopDie at_ keeper) (.fwd w.keeperLamp { m with stage := .new }) else s.sendPush m)
    else match (s.stirWatch m.wl).insertReserve m.wl at_ m.q false with
      | .done s => .next (s.answerPush m (match s.wl? m.wl with | some w => if w.closed then 2 else 0 | none => 2) back)
      | .again s => .next (s.after 1 (.rpush m0))
      | .full =>
        if s.isKeeper w at_ then .next (s.answerPush m 1 back)
        else .next (s.lantern w.home (hopTile at_ (tileIx w.ktile)) m.wl (.rpush { m with stage := .spill, since := s.now }))

/-- LOW (Table 7.3). -/
def execLow (wl : Nat) (lamp : Nat) (s : State) : Host.Outcome State Fault Refusal :=
  match s.wl? wl with
  | none => .next s
  | some w => if w.op.isSome then .next (s.queue wl (.low wl lamp)) else .next (s.startPull wl)

/-- HEAD (Table 7.3): the summary tree of reserve heads. -/
def execHead (wl tile : Nat) (pos : Option Nat) (s : State) : Host.Outcome State Fault Refusal :=
  .next (s.updWl wl fun w => { w with heads := w.heads.set tile pos })

/-- The lamp that stands for the keeper's choice: an RITEM of another package goes to the keeper first, which knows the free shares. -/
def anyLamp : Nat := 1024

/-- An RITEM leaves for the lamp with the most free share. -/
def State.sendRitem (s : State) (wl tile : Nat) (q : QItem) (v : Nat) : State :=
  match s.wl? wl with
  | none => s
  | some w =>
    if w.home != s.own then s.lantern w.home 0 wl (.ritem anyLamp q v)
    else
      let lamp := s.freest wl w
      let s := if lampPkg lamp = s.own then s
        else s.updWl wl fun w => { w with far := w.far.map fun (e : Nat × WlNews) =>
          (e.1, if e.1 = lampPkg lamp then { e.2 with parts := e.2.parts ++ [(lamp, [(q.pos, true)])] } else e.2) }
      s.lantern (lampPkg lamp) (hopDie tile (lampDie lamp)) wl (.ritem lamp q v)

/-- The reserve sends its items that precede `kn`, at most `n` of them (R165, R166). -/
def State.sendItems (s : State) (wl tile : Nat) (kn : Option Nat) (v : Nat) : Nat → State
  | 0 => s
  | n + 1 =>
    match s.wl? wl with
    | none => s
    | some w =>
      match w.takeHead tile with
      | none => s
      | some (q, w') => if !ahead q.pos kn then s else ((s.updWl wl fun _ => w').sendRitem wl tile q v).sendItems wl tile kn v n

/-- What the runs that a pull reaches let it do: go on, wait, or freeze the worklist. -/
inductive RunsRead where
  | ok | wait (lag : Nat) | bad

/-- Read the runs that a pull reaches (R162): one that meets a pending page waits for its wake. -/
def State.readRuns (s : State) (wl tile : Nat) (w : WorkList) : List OvRun → RunsRead × State
  | [] => (.ok, s)
  | r :: rest =>
    if r.wait.isSome then (.wait 16, s)
    else
      let from_ := (r.total - r.items.length) * 16
      match s.vread tile w.asid (w.runVa tile r.at_ + from_) (r.items.length * 16) with
      | (.ok _, s) => s.readRuns wl tile w rest
      | (.wait, s) => (.wait 1, s)
      | (.pending home page, s) =>
        let s := s.faultRecord home w.asid (page * 65536) 0 (tile * 64) 0
        (.wait 16, s.updWl wl fun w => { w with runs := w.runs.set tile ((w.runs.getD [] tile).map fun o =>
          if o.at_ = r.at_ then { o with wait := some (page, false) } else o) })
      | (.fail _ _, s) => (.bad, s)
      | (.gone, s) => (.bad, s)

/-- PULL (Table 7.3, R162, R165): a pull that reaches a run waiting for a page waits with it; a run that cannot be read freezes the worklist. -/
def execPull (wl tile : Nat) (kn : Option Nat) (m v : Nat) (s : State) : Host.Outcome State Fault Refusal :=
  match s.wl? wl with
  | none => .next s
  | some w =>
    let t := tileIx tile
    if w.closed then .next s
    else match s.readRuns wl t w (w.reach t kn m) with
      | (.wait lag, s) => .next (s.after lag (.pull wl tile kn m v))
      | (.bad, s) => .next (s.freeze w.launch .faulted 3)
      | (.ok, s) =>
        let size := fun (s : State) => ((s.wl? wl).map fun w => ((w.reserve t).map QItem.size).sum).getD 0
        let before := size s
        let s := s.sendItems wl t kn v m
        let n := before - size s
        let next := match (s.wl? wl).bind fun w => w.headOf t with
          | some q => if ahead q.pos kn then some q.pos else none
          | none => none
        let s := s.updWl wl fun w => { w with tileK := w.tileK.set t (kn, v) }
        .next ((s.sendHead wl t).after (hopDie t (lampDie w.keeperLamp)) (.pack wl tile ⟨if n = m then next else none, n⟩))

/-- RITEM (Table 7.3): the item waits at the lamp until the pull ends. -/
def execRitem (wl lamp : Nat) (q : Pulled) (s : State) : Host.Outcome State Fault Refusal :=
  match s.wl? wl with
  | none => .next s
  | some w =>
    if w.closed then .next s
    else if lamp = anyLamp then .next (s.sendRitem wl (tileIx w.ktile) q.q q.v)
    else .next ((s.updWl wl fun w => w.putFront lamp q.q (some q.v)).tryEndPull wl)

/-- PACK (Table 7.3): when every reserve has answered and every item it sent has arrived, the pull ends. Another package's reserves answer together. -/
def execPack (wl tile : Nat) (cap : PullAnswer) (s : State) : Host.Outcome State Fault Refusal :=
  match s.wl? wl with
  | none => .next s
  | some w =>
    match w.pull with
    | none => .next s
    | some p =>
      let p := { p with left := p.left.filter (· != tile), cap := minK p.cap cap.cap, sent := p.sent + cap.n }
      if w.home != s.own && p.left.isEmpty then
        .next ((s.updWl wl fun w => { w with pull := none }).lantern w.home 0 wl (.pack (s.own * 512) p.cap p.sent))
      else .next ((s.updWl wl fun w => { w with pull := some p }).tryEndPull wl)

/-- DEMOTE (R164): a lamp moves its items at or after K to the keeper tile's reserve, at the end of a pull those that wait for it too, and tells the
keeper, to whom the places return. -/
def execDemote (wl lamp : Nat) (k : Demotion) (s : State) : Host.Outcome State Fault Refusal :=
  match s.wl? wl with
  | none => .next s
  | some w =>
    match k.moved with
    | some n => .next (s.opStep wl fun o => { o with lamps := o.lamps.erase lamp, loose := o.loose + n })
    | none =>
      if w.closed then .next s
      else
        let late := (w.part lamp).filter fun f => !ahead f.q.pos k.k && (f.pull.isNone || k.ends)
        let n := late.length
        let free := (late.filter (·.pull.isNone)).length
        let s := late.foldl (fun s f => s.sendDown w wl f.q (hopDie (tileIx w.ktile) (lampDie lamp))) s
        let s := s.updWl wl fun w =>
          let w := late.foldl (fun w f => w.cutFront lamp f.q.pos) w
          { w with demotes := w.demotes + BitVec.ofNat 32 n }
        let s := if n = 0 then s else s.lowIf wl lamp
        if w.home = s.own then
          .next ((s.updWl wl fun w => { w with places := w.places + free }).after (hopDies (lampDie lamp) (lampDie w.keeperLamp))
            (.demote wl lamp { k with moved := some n }))
        else .next (s.updWl wl fun w => { w with gave := w.gave + free, answered := w.answered + 1 })

/-- CUT (R161): a copy of K and V is replaced by one with a larger V; with the end of a pull the items that waited at the lamp become poppable. -/
def execCut (wl : Nat) (toLamp : Bool) (dest : Nat) (k : Option Nat) (v : CutVersion) (s : State) : Host.Outcome State Fault Refusal :=
  if toLamp then
    let s := s.updWl wl fun w =>
      let part := (w.part dest).map fun f => if v.ends.isSome && f.pull == v.ends then { f with pull := none } else f
      let w := { w with parts := if (w.part dest).isEmpty then w.parts else w.parts.set dest part }
      if (w.lampK.getD (none, 0) dest).2 < v.v then { w with lampK := w.lampK.set dest (k, v.v) } else w
    .next (if v.ends.isSome then s.stirAll wl else s)
  else
    let t := tileIx dest
    .next (s.updWl wl fun w => if (w.tileK.getD (none, 0) t).2 < v.v then { w with tileK := w.tileK.set t (k, v.v) } else w)

/-! ### Pops (R168) -/

/-- The poppable item of a lamp that precedes all others there. -/
def WorkList.best (w : WorkList) (lamp : Nat) : Option QItem :=
  ((w.part lamp).filter (·.pull.isNone)).foldl
    (fun acc f => match acc with | none => some f.q | some p => if f.q.pos < p.pos then some f.q else some p) none

/-- The next lamp of a worklist in cyclic order. -/
def WorkList.nextLamp (w : WorkList) (lamp : Nat) : Nat :=
  match w.lamps.filter fun d => decide (lamp < d) with
  | d :: _ => d
  | [] => w.lamps.headD 0

/-- A lamp's pop is counted (R170): the front items that precede the popped one in this package, and every item of another package's part. What other
packages' pops count, the keeper adds when it hears of them. -/
def WorkList.countPop (w : WorkList) (own pos now : Nat) : WorkList :=
  let mine := (w.parts.flatMap (·.2)).filter fun f => f.pull.isNone
  let ahead := (mine.filter fun f => decide (f.q.pos < pos)).length
  let w := { w with pops := w.pops + 1, lastPop := now }
  if w.home = own then
    let others := w.live.length - mine.length
    { w with worst := Nat.max w.worst (ahead + others), xpkg := w.xpkg || decide (others ≠ 0), places := w.places + 1 }
  else { w with before := w.before ++ [ahead], gave := w.gave + 1 }

/-- POP (R168, R170): the lamp pops its best item, passes the pop on, or finds the worklist empty. -/
def execPop (lamp : Nat) (m : PopMsg) (s : State) : Host.Outcome State Fault Refusal :=
  let m := m.hop s.now
  match s.wl? m.wl with
  | none => .next (s.after 22 (.popReply m .closed))
  | some w =>
    let reply := fun (s : State) (a : PopAnswer) => s.lantern (tilePkg m.tile) (hopDie (tileIx m.tile) (lampDie lamp)) m.wl (.popReply m a)
    if w.closed then .next (reply s .closed)
    else match if s.serves w then w.best lamp else none with
      | some q =>
        let s := s.updWl m.wl fun w => (w.countPop s.own q.pos s.now).cutFront lamp q.pos
        .next ((reply ((s.lowIf m.wl lamp).watchWl m.wl) (.item q)).checkWl m.wl)
      | none =>
        if m.visited + 1 < w.lamps.length then
          let d := w.nextLamp lamp
          .next (s.lantern (lampPkg d) (hopDies (lampDie lamp) (lampDie d)) m.wl (.pop d { m with visited := m.visited + 1 }))
        else .next (reply (s.sendLow m.wl lamp) .empty)

/-- Whether a worklist still takes items. -/
def State.wlOpen (s : State) (wl : Nat) : Bool := match s.wl? wl with | some w => !w.closed | none => false

/-- An item that nobody takes is pushed again with its key and identity (R24, R181). -/
def State.repush (s : State) (m : PopMsg) (q : QItem) : State :=
  if s.wlOpen m.wl then s.sendPush ⟨m.wl, q, 0, m.tile, .again, .new, none, 0, 0⟩ else s

/-- The WLPOP of the slot in focus gets its answer: three registers, and a place in the held list (R181, R358). -/
def State.popAnswered (s : State) (m : PopMsg) (op : Nat) (ans : PopAnswer) : State :=
  match s.cur.ops.find? fun o => o.id == op with
  | none => (match ans with | .item q => s.repush m q | _ => s)
  | some o =>
    let d := match decode o.word with | .ok (.wlpop d _ _) => d | _ => 0
    let s := s.updCur fun x => { x with status := if x.status == .blocked (.worklist m.wl) then .ready else x.status }
    let s := s.updCur fun x => x.addDelay s.now 7 m.path
    match ans with
    | .item q =>
      let held := (s.task s.myTid).held
      match (List.range 4).find? fun k => (held.getD (k + 1) none).isNone with
      | none => s.repush m q
      | some k =>
        let s := s.updTask s.myTid fun t => { t with held := t.held.setIfInBounds (k + 1) (some ⟨m.wl, q⟩) }
        let i := q.item
        (s.updCur fun x => ((x.writeG d (BitVec.ofNat 64 ((k + 1) * 256))).writeG (d + 1) i.work).writeG (d + 2) (i.key ++ i.entry ++ i.flags ++ i.count)).closeOp op
    | _ => (s.updCur fun x => ((x.writeG d 3).writeG (d + 1) 0).writeG (d + 2) 0).closeOp op

/-- A pop that found the worklist empty: the task blocks until an item becomes poppable (R168); where one has become so meanwhile, it tries again. -/
def State.popWaits (s : State) (m : PopMsg) (slot : Nat) : State :=
  match s.wl? m.wl with
  | none => s.within slot fun s => match m.by_ with | .task _ _ _ op => s.popAnswered m op .closed | .tile => s
  | some w =>
    if w.closed then s.within slot fun s => match m.by_ with | .task _ _ _ op => s.popAnswered m op .closed | .tile => s
    else if s.serves w && s.poppable w != 0 then s.sendPop w m
    else
      let s := s.updWl m.wl fun w => { w with waiters := w.waiters ++ [m] }
      s.updSlot slot fun x => if x.status == .ready then { x with status := .blocked (.worklist m.wl) } else x

/-- Whether a tile dispatcher may take one more item of a worklist: it keeps up to four (R179), and of a launch that reserves slots none beyond the
reserved slots it has free while another tile still has one (R177). DEDUCED (log 91). -/
def State.mayPrefetch (s : State) (tile wl : Nat) (w : WorkList) : Bool :=
  let spoken := fun (t : Nat) => ((s.tile t).prefetched.filter fun p => p.1 == wl).length + (if (s.tile t).asking.contains wl then 1 else 0)
  let kept := fun (t : Nat) => ((s.tile t).reserved.filter fun r => r.2 == w.launch && (s.slot (t * 64 + r.1)).status == .free).length
  let binds := match s.launch? w.launch with | some l => l.h.cosched || l.h.persist | none => false
  !(s.tile tile).asking.contains wl && decide (((s.tile tile).prefetched.filter fun p => p.1 == wl).length < 4) &&
    (!binds || decide (spoken tile < kept tile) || (s.wlTiles w).all fun t => decide (kept t ≤ spoken t))

/-- POP_REPLY (R179, R181, R358): the item reaches the task that popped it, or the dispatcher; one that finds neither is pushed again. -/
def execPopReply (m : PopMsg) (ans : PopAnswer) (s : State) : Host.Outcome State Fault Refusal :=
  let m := m.hop s.now
  match m.by_ with
  | .task tid slot ctx op =>
    let x := s.slot slot
    if x.mc.ctxser == ctx && x.u.tid == tid && x.status != .free && x.status != .saving then
      .next (match ans with | .empty => s.popWaits m slot | _ => s.within slot fun s => s.popAnswered m op ans)
    else .next (match ans with | .item q => s.repush m q | _ => s)
  | .tile =>
    let t := tileIx m.tile
    let s := s.updTile t fun v => { v with asking := v.asking.filter (· != m.wl) }
    match ans with
    | .item q =>
      if s.wlOpen m.wl then
        let s := s.updTile t fun v => { v with prefetched := v.prefetched ++ [(m.wl, q)] }
        .next ((s.afterOnce 1 (.prefetch t m.wl)).afterOnce 1 (.dispatch (t * 64)))
      else .next s
    | _ => .next (if s.present m.wl = 0 || !s.wlOpen m.wl then s else s.afterOnce 1 (.prefetch t m.wl))

/-- PREFETCH (R179, R386): a tile dispatcher that may take one more item of a worklist asks for it. -/
def execPrefetch (tile wl : Nat) (s : State) : Host.Outcome State Fault Refusal :=
  match s.wl? wl with
  | none => .next s
  | some w =>
    if w.closed || !s.mayPrefetch tile wl w || !(s.wlTiles w).contains tile || s.present wl = 0 || !s.serves w ||
        ((s.launch? w.launch).map (·.h.piste)).getD false then
      .next s
    else .next ((s.updTile tile fun t => { t with asking := t.asking ++ [wl] }).sendPop w ⟨wl, 0, s.overPod tile, .tile, 0, 0⟩)

/-! ### What the packages of a worklist tell each other (R169) -/

/-- What this package tells the keeper of a worklist of another home. -/
def State.newsOf (s : State) (wl : Nat) (w : WorkList) : WlNews where
  parts := w.parts.map fun e => (e.1, e.2.map fun f => (f.q.pos, f.pull.isSome))
  places := w.places
  gave := w.gave
  answered := w.answered
  reserve := w.kept
  busy := s.wlBusy wl
  sent := w.sent
  got := w.got
  pushes := w.pushes.toNat
  pops := w.pops.toNat
  runs := w.nruns.toNat
  demotes := w.demotes.toNat
  before := w.before
  dispatched := ((s.launch? w.launch).map (·.dispatched)).getD 0
  triggers := ((s.launch? w.launch).map (·.triggers)).getD 0
  alive := ((s.launch? w.launch).map (·.alive)).getD 0

/-- At the start of a cycle a package tells the keepers what has changed here, and a keeper tells the packages what has changed with it. -/
def State.tellWls (s : State) : State :=
  s.pkg.wls.foldl (fun (s : State) (e : Nat × WorkList) =>
    let w := e.2
    if w.pkgs.length ≤ 1 || w.launch = 0 then s
    else if w.home = s.own then
      let told := (s.serves w, w.live.length, s.present e.1)
      if told == w.told || w.closed then s
      else (w.pkgs.filter (· != s.own)).foldl (fun (s : State) p => s.lantern p 0 e.1 (.state told.1 told.2.1 told.2.2))
        (s.updWl e.1 fun w => { w with told := told })
    else
      let n := s.newsOf e.1 w
      if w.last == some n then s else (s.updWl e.1 fun w => { w with last := some { n with before := [] }, before := [] }).lantern w.home 0 e.1 (.news n)) s

/-- The keeper hears from a package (R169, R170): places return, its requests are answered, pops are counted with the items of the other packages' parts. -/
def State.takeNews (s : State) (pkg wl : Nat) (n : WlNews) : State :=
  match s.wl? wl with
  | none => s
  | some w =>
    let old := (w.far.get? pkg).getD { n with gave := 0, answered := 0, demotes := 0, pops := 0, parts := [] }
    let w' := { w with far := w.far.set pkg n }
    let here := (w'.live.filter fun i => lampPkg i.lamp != pkg).length
    let s := s.stirWatch wl
    let s := s.updWl wl fun w => { w with
      far := w.far.set pkg n
      places := w.places + (n.gave - old.gave)
      worst := n.before.foldl (fun a b => Nat.max a (b + here)) w.worst
      xpkg := w.xpkg || (!n.before.isEmpty && decide (here ≠ 0))
      lastPop := if n.pops = old.pops then w.lastPop else s.now }
    let s := if w.op.isNone then s else s.opStep wl fun o => { o with
      loose := o.loose + ((n.demotes : Int) - old.demotes)
      calls := (List.replicate (n.answered - old.answered) pkg).foldl List.erase o.calls }
    let s := s.tryEndPull wl
    let size : WlNews → Nat := fun n => (n.parts.map fun p => (p.2.filter fun i => !i.2).length).sum
    (if size old < size n then s.stirAll wl else s).checkLaunch w.launch

/-- A pull reaches the reserves of another package: they answer together. -/
def State.fanPull (s : State) (wl : Nat) (kn : Option Nat) (m v : Nat) : State :=
  match s.wl? wl with
  | none => s
  | some w =>
    let tiles := s.wlTiles w
    if tiles.isEmpty then s.lantern w.home 0 wl (.pack (s.own * 512) none 0)
    else
      let s := s.updWl wl fun w => { w with pull := some ⟨kn, m, v, tiles.map s.overPod, none, none, 0⟩ }
      tiles.foldl (fun s t => s.after 22 (.pull wl (s.overPod t) kn m v)) s

/-- What another package knows of the worklist from its keeper. -/
def State.heard (s : State) (wl : Nat) (serves : Bool) (front present : Nat) : State :=
  match s.wl? wl with
  | none => s
  | some w =>
    let s := s.updWl wl fun w => { w with told := (serves, front, present) }
    let s := s.updLaunch w.launch fun l => if l.st.final then l else { l with st := if serves then .running else .waiting }
    if serves && (decide (w.told.2.1 < front) || !w.told.1) then s.stirAll wl else s

end Sys2Proof.Machine
end

