-- ==== Sys2Proof/Machine/Create.lean ====
section
/-! DEFINITION. The creation of launches: headers, refusals, the range pushes at the start of Running, admission of co-scheduled launches and the
watchdog (spec/07_worklists.md R156, R159, R160, R171 to R178, R184, R186; spec/01_device.md R16, R17). -/

namespace Sys2Proof.Machine

/-! ### Headers (R171) -/

/-- Read a launch header. Counts that the header holds less one are kept as it holds them. -/
def Header.of (b : List Byte) : Header :=
  let w := fun (o : Nat) => descAt b o 8
  { entryp := BitVec.ofNat 64 (w 0), nent := w 8 % 2 ^ 12, nf := w 8 / 2 ^ 12 % 8, ws := BitVec.ofNat 36 (w 8 / 2 ^ 16),
    wlid := w 0x10 % 2 ^ 10, prio := w 0x10 / 2 ^ 10 % 8, rho := w 0x10 / 2 ^ 13 % 2 ^ 10, depth := w 0x10 / 2 ^ 23 % 2 ^ 6,
    weight := w 0x10 / 2 ^ 29 % 16, cosched := (w 0x10).testBit 33, piste := (w 0x10).testBit 34, persist := (w 0x10).testBit 35,
    preempt := (w 0x10).testBit 36, consumer := (w 0x10).testBit 37, prodwl := w 0x10 / 2 ^ 38 % 2 ^ 10,
    asid := BitVec.ofNat 14 (w 0x10 / 2 ^ 48), seed := BitVec.ofNat 64 (w 0x18), ctrb := BitVec.ofNat 64 (w 0x20),
    firstid := BitVec.ofNat 64 (w 0x28), ntask := BitVec.ofNat 64 (w 0x30), codeb := BitVec.ofNat 48 (w 0x38), codesz := w 0x38 / 2 ^ 48,
    ovbase := w 0x40 % 2 ^ 48, ovruns := w 0x40 / 2 ^ 48, pmaskp := w 0x48 % 2 ^ 48, ktile := w 0x48 / 2 ^ 48 % 2 ^ 9,
    lamps := BitVec.ofNat 4 (w 0x48 / 2 ^ 57), lkey := BitVec.ofNat 32 (w 0x50),
    preds := (List.range (Nat.min (w 0x50 / 2 ^ 32 % 16) 8)).map fun i => BitVec.ofNat 32 (descAt b (0x60 + 4 * i) 4) }

/-- The bits a header keeps zero, and a predecessor count that Table 7.6 does not list. -/
def headerReserved (b : List Byte) : Bool :=
  let w := fun (o : Nat) => descAt b o 8
  (w 8).testBit 15 || decide (w 8 / 2 ^ 52 ≠ 0) || decide (w 0x10 / 2 ^ 62 ≠ 0) || decide (w 0x48 / 2 ^ 61 ≠ 0) || decide (w 0x50 / 2 ^ 36 ≠ 0) ||
    decide (w 0x58 ≠ 0) || decide (8 < w 0x50 / 2 ^ 32 % 16)

/-- WIDF of the launch's tasks (Table 3.5). -/
def Header.widf (h : Header) : BitVec 39 := BitVec.ofNat 3 h.nf ++ h.ws

/-- W: the total of the field widths. -/
def Header.width (h : Header) : Nat := ((List.range 6).map fun k => widthOf h.widf (k + 1)).sum

/-- CODEL (Table 7.6). -/
def Header.codel (h : Header) : Addr := h.codeb + BitVec.ofNat 48 (4096 * h.codesz)

/-- The dies of LAMPS, in order. -/
def Header.dies (h : Header) : List Nat := (List.range 4).filter fun d => h.lamps.getLsbD d

/-! ### Refusal (R172, Table 7.7) -/

/-- The class an address has for the command processor acting in an address space, by its window base. -/
def State.ctxClass (s : State) (asid : BitVec 14) (va : Nat) : Cls :=
  let e := s.asidEnt asid
  localClass (if e.wv then some e.wbase else none) va

/-- The number of slots of the tiles of a context's window. -/
def State.windowSlots (s : State) (asid : BitVec 14) : Nat :=
  match s.ctx? asid with
  | some c => if c.wok then 64 * (c.last + 1 - c.first) else 0
  | none => 0

/-- The lamps a launch uses: those of LAMPS in every package it spans (R159, R160). -/
def Header.allLamps (h : Header) (pkgs : List Nat) : List Nat := pkgs.flatMap fun p => h.dies.map fun d => p * 4 + d

/-- A package of which the keeper has not heard yet: its lamps may fill the places of their shares. -/
def freshNews (places : Nat) : WlNews where
  parts := []
  places := places
  gave := 0
  answered := 0
  reserve := 0
  busy := 0
  sent := []
  got := []
  pushes := 0
  pops := 0
  runs := 0
  demotes := 0
  before := []
  dispatched := 0
  triggers := 0
  alive := 0

/-- A worklist as creation leaves it in a package (R159 to R161), by its launch's key and its home. -/
def Header.worklist (h : Header) (key home own : Nat) (pkgs : List Nat) (now : Nat) : WorkList :=
  let w : WorkList := {
    launch := key, home := home, asid := h.asid, closed := false, rho := h.rho, depth := h.depth, lamps := h.allLamps pkgs, pkgs := pkgs,
    ktile := home * 512 + h.ktile, ovbase := h.ovbase, ovruns := h.ovruns, k := none, v := 0, lampK := [], tileK := [], parts := [], places := 0,
    heap := [], runs := [], heads := [], pull := none, op := none, inbox := [], waiters := [], worst := 0, xpkg := false, pushes := 0, pops := 0,
    nruns := 0, demotes := 0, lastPop := now, far := [], last := none, told := (false, 0, 0), gave := 0, answered := 0, before := [], sent := [],
    got := [] }
  { w with
    places := w.shareOf own
    far := if home = own then (pkgs.filter (· != own)).map fun p => (p, freshNews (w.shareOf p)) else [] }

/-- The entries that a new worklist asks for of the lamps of a package. -/
def WorkList.asks (w : WorkList) (own : Nat) : List (Nat × Nat) := (w.lamps.filter fun d => lampPkg d == own).map fun d => (d, w.share d)

/-- Whether the shares of a new worklist fit the entries no worklist has reserved (R160). -/
def State.sharesFit (s : State) (w : WorkList) : Bool := (w.asks s.own).all fun e => decide (e.2 ≤ (s.spareUsed e.1).1)

/-- Whether a worklist id is in use in this package: by a launch that is not in a final state, or asked for by another. -/
def State.wlInUse (s : State) (wl by_ : Nat) : Bool :=
  (match s.wl? wl with | some w => !w.closed | none => false) || s.pkg.openings.any fun o => o.wl == wl && o.by_ != by_

/-- The first code of Table 7.7 that applies to a header. `b` holds its bytes, `entries` its entry table, `pkgs` the packages it spans, `owned`
whether its ASID is the creator's, `far` the least code that another package has answered. -/
def State.refuseLaunch (s : State) (b : List Byte) (entries : List W64) (pkgs : List Nat) (owned : Bool) (by_ far : Nat) : Option Nat :=
  let h := Header.of b
  let preds := h.preds.map fun p => s.launch? p.toNat
  if headerReserved b || h.nf == 0 || decide (6 < h.nf) || decide (64 < h.width) ||
      (List.range 6).any (fun k => decide (h.nf ≤ k) && decide (widthOf h.widf (k + 1) ≠ 0)) || (!h.consumer && h.prodwl != 0) then some 1
  else if 2 ^ h.width < h.firstid.toNat + h.ntask.toNat ∨ 2 ^ h.width ≤ h.firstid.toNat then some 2
  else if !owned then some 3
  else if s.wlInUse h.wlid by_ || far == 4 then some 4
  else if h.lamps == 0 || decide (256 * (h.dies.length * pkgs.length) < h.rho + 1) || !s.sharesFit (h.worklist 0 s.own s.own pkgs 0) || far == 5 then
    some 5
  else if h.codesz == 0 || h.ovruns == 0 || decide (h.ovbase % 1024 ≠ 0) || decide (2 ^ 47 ≤ h.ovbase) ||
      (match s.ctxClass h.asid h.ovbase with | .hbm _ => false | _ => true) ||
      !(match s.ctx? h.asid with | some c => c.wok && decide (c.first ≤ h.ktile ∧ h.ktile ≤ c.last) | none => false) ||
      entries.any (fun e => e.extractLsb' 0 2 != 0) then some 6
  else if preds.any (fun p => match p with | none => true | some l => l.h.asid != h.asid || l.h.persist) then some 7
  else if h.consumer && !(match s.wl? h.prodwl with | some w => w.asid == h.asid | none => false) then some 8
  else if h.piste && h.pmaskp != 0 then some 9
  else if (h.cosched || h.persist) && decide (s.windowSlots h.asid < h.ntask.toNat) then some 10
  else if pkgs.any (fun p => p != s.own && !s.pkg.members.contains p) then some 11
  else none

/-- The packages a launch spans: the home package alone, or those of its mask (R169). -/
def State.launchPkgs (s : State) (pmaskp : Nat) (mask : List Byte) : List Nat := maskPkgs s.own (pmaskp != 0) mask

/-! ### Creation (R172, R174) -/

/-- Whether every predecessor lets a launch run, and whether one has failed (Table 7.8). -/
def State.predsReady (s : State) (h : Header) : Bool :=
  h.preds.all fun p => match s.launch? p.toNat with
    | some l => l.st == .triggered || l.st == .completed
    | none => false
def State.predsFailed (s : State) (h : Header) : Bool :=
  h.preds.any fun p => match s.launch? p.toNat with
    | some l => l.st == .faulted || l.st == .hung || l.st == .cancelled
    | none => false

/-- Whether 256 records of a context wait unwritten: its new launches stay Waiting (R235). -/
def State.recordsFull (s : State) (asid : BitVec 14) : Bool := match s.ctx? asid with | some c => decide (256 ≤ c.waiting.length) | none => false

/-- Whether a launch may be created: `some none`; refused: `some (some code)`; not known yet: `none`. Where it spans packages these are asked first, and
those that keep the id for a launch that is then refused are told so (R159, R172). DEDUCED (log 89). -/
def State.mayCreate (s : State) (by_ : Nat) (b : List Byte) (entries : List W64) (pkgs : List Nat) (owned : Bool) : Option (Option Nat) × State :=
  let h := Header.of b
  let others := pkgs.filter fun p => p != s.own && s.pkg.members.contains p
  match s.refuseLaunch b entries pkgs owned by_ 0, s.pkg.openings.find? fun o => o.by_ == by_ with
  | c, none =>
    if others.isEmpty || (match c with | some k => decide (k ≤ 4) | none => false) then (some c, s)
    else
      let s := s.updPkg fun p => { p with
        openings := p.openings ++ [⟨h.wlid, by_, others, [], 0, (h.worklist 0 s.own s.own pkgs 0).asks s.own⟩] }
      (none, others.foldl (fun (s : State) p => s.postWl p h.wlid h.asid 0 (.create b pkgs)) s)
  | _, some o =>
    if !o.left.isEmpty then (none, s)
    else
      let s := s.updPkg fun p => { p with openings := p.openings.filter fun o => o.by_ != by_ }
      match if o.wl = h.wlid then s.refuseLaunch b entries pkgs owned by_ o.code else some 4 with
      | none => (some none, s)
      | some c => (some (some c), o.taken.foldl (fun (s : State) p => s.postWl p o.wl h.asid 0 (.close false)) s)

/-- A launch as its creation leaves it. -/
def Header.launch (h : Header) (id : W32) (away : Option Nat) (hdrVa : Addr) (entries : List W64) (creator : Option Nat) (regions : List (Nat × Nat)) :
    Launch where
  id := id
  away := away
  h := h
  hdrVa := hdrVa
  entries := entries
  st := .waiting
  reason := 0
  start := 0
  fin := 0
  admitted := false
  pushed := false
  dispatched := 0
  triggers := 0
  alive := 0
  regions := regions
  recorded := false
  lseq := 0
  pseqs := []
  turn := 0
  creator := creator
  ranging := false
  turnSt := 0

/-- Create a launch that no code of Table 7.7 refuses: it takes the next launch id and its worklist id, in every package it spans. A launch without tasks
and predecessors completes at once, unless 256 records of its context wait (R235); one whose predecessor has failed is cancelled. DEDUCED (log 49). -/
def State.createLaunch (s : State) (b : List Byte) (hdrVa : Addr) (entries : List W64) (pkgs : List Nat) (creator : Option Nat)
    (regions : List (Nat × Nat)) : W32 × State :=
  let h := Header.of b
  let id := s.pkg.nextLaunch
  let l := h.launch id none hdrVa entries creator regions
  let s := s.updPkg fun p => { p with
    nextLaunch := p.nextLaunch + 1, launches := p.launches.set id.toNat l,
    wls := p.wls.set h.wlid (h.worklist id.toNat s.own s.own pkgs s.now), wlOwner := p.wlOwner.set h.wlid h.asid }
  let s := (pkgs.filter (· != s.own)).foldl (fun (s : State) p => s.postWl p h.wlid h.asid id (.begin_ id hdrVa b entries pkgs)) s
  if s.predsFailed h then (id, s.stopLaunch id .cancelled 5)
  else if h.ntask == 0 && h.preds.isEmpty && !(s.recordsFull h.asid) then (id, (s.finishLaunch l .completed 0 false).wakeWaiting)
  else if s.predsReady h then (id, s.after 1 (if h.cosched || h.persist then .coschedAdmission id else .launchStart id))
  else (id, s)

/-- Another package asks for a worklist id and the entries of its lamps' shares here (R159, R160). -/
def State.asked (s : State) (pkg wl : Nat) (asid : BitVec 14) (hdr : List Byte) (pkgs : List Nat) : State :=
  let w := (Header.of hdr).worklist 0 pkg s.own pkgs s.now
  let code := if s.wlInUse wl (65536 + pkg) then 4 else if s.sharesFit w then 0 else 5
  let s := if code = 0 then s.updPkg fun p => { p with openings := p.openings ++ [⟨wl, 65536 + pkg, [], [], 0, w.asks s.own⟩] } else s
  s.postWl pkg wl asid 0 (.created code)

/-- A package answers a home that asked it. -/
def State.createdBy (s : State) (pkg wl code : Nat) : State :=
  s.updPkg fun p => { p with openings := p.openings.map fun o =>
    if o.wl = wl ∧ o.left.contains pkg then { o with
      left := o.left.filter (· != pkg), taken := if code = 0 then o.taken ++ [pkg] else o.taken,
      code := if code = 0 then o.code else if o.code = 0 then code else Nat.min o.code code } else o }

/-- A spanning launch of another home starts here: its worklist is listed with its launch. -/
def State.begun (s : State) (pkg wl : Nat) (id : W32) (hdrVa : Addr) (hdr : List Byte) (entries : List W64) (pkgs : List Nat) : State :=
  let h := Header.of hdr
  let l := h.launch id (some pkg) hdrVa entries none []
  s.updPkg fun p => { p with
    openings := p.openings.filter fun o => !(o.wl == wl && o.by_ == 65536 + pkg)
    launches := p.launches.set l.key l
    wls := p.wls.set wl (h.worklist l.key pkg s.own pkgs s.now)
    wlOwner := p.wlOwner.set wl h.asid }

/-! ### Running (R156, R173) -/

/-- The tile from which a launch's own pushes leave (log 35). -/
def Launch.pushTile (l : Launch) : Nat := match l.creator with | some k => tileOf k | none => l.h.ktile

/-- Whether a slot has a WLPSH that is not answered yet. -/
def State.pushing (s : State) (slot : Nat) : Bool :=
  let x := s.slot slot
  (match x.hold with | .answer _ => true | _ => false) && (match decode x.word with | .ok (.wlpsh ..) => true | _ => false)

/-- Whether a range push that a slot makes for a launch it created is not answered yet. -/
def State.rangesOut (s : State) (slot : Nat) : Bool := s.pkg.launches.any fun e => e.2.ranging && e.2.creator == some slot

/-- The identity of a launch's next range item (R156). -/
def State.rangeIdent (s : State) (l : Launch) : BitVec 80 :=
  let pkgIdent := s.own * 2 ^ 15
  let mk := fun (who seq : Nat) => BitVec.ofNat 80 (who * 2 ^ 56 + seq * 2 ^ 16)
  if l.h.piste then mk pkgIdent (2 ^ 39 + l.lseq % 2 ^ 39)
  else match l.creator with
    | some k => mk (s.slotIdent k).toNat (s.slot k).pushSeq.toNat
    | none => mk pkgIdent s.host.cpSeq

/-- The counter from which a range item had its identity goes on: a slot's when the push is accepted, the command processor's when it pushes (R156). -/
def State.countRange (s : State) (l : Launch) (accepted : Bool) : State :=
  if l.h.piste then s
  else match l.creator with
    | some k => if accepted then s.updSlot k fun x => { x with pushSeq := x.pushSeq + 1 } else s
    | none => if accepted then s else s.updHost fun h => { h with cpSeq := if h.cpSeq + 1 = 2 ^ 40 then 2 ^ 39 else h.cpSeq + 1 }

/-- Push the next range of a launch, or note that all are pushed (R173). A push of a slot waits for the slot's other pushes, so that no two items share an
identity. -/
def State.pushRange (s : State) (id : W32) : State :=
  match s.launch? id.toNat with
  | none => s
  | some l =>
    let done := 65536 * l.lseq
    if l.st != .running || l.ranging then s
    else if l.h.ntask.toNat ≤ done then (s.updLaunch id.toNat fun l => { l with pushed := true }).checkLaunch id.toNat
    else if (match l.creator with | some k => s.pushing k || s.rangesOut k | none => false) then s.after 1 (.launchStart id)
    else
      let n := Nat.min 65536 (l.h.ntask.toNat - done)
      let ident := s.rangeIdent l
      let s := (s.countRange l false).updLaunch id.toNat fun l => { l with lseq := l.lseq + 1, ranging := true }
      s.sendPush ⟨l.h.wlid, ⟨⟨l.h.lkey, 0, 1, BitVec.ofNat 16 (n - 1), l.h.firstid + BitVec.ofNat 64 done⟩, ident⟩, 0, s.overPod l.pushTile, .launch id,
        .new, none, 0, 0⟩

/-- LAUNCH_START (R173, Table 7.8): a Waiting launch whose predecessors allow it enters Running and pushes its ranges one after another. -/
def execLaunchStart (launch : W32) (s : State) : Host.Outcome State Fault Refusal :=
  match s.launch? launch.toNat with
  | none => .next s
  | some l =>
    if l.st == .running && !l.pushed then .next (s.pushRange launch)
    else if l.st != .waiting || !s.predsReady l.h || ((l.h.cosched || l.h.persist) && !l.admitted) || s.recordsFull l.h.asid then .next s
    else if l.h.ntask == 0 && l.h.preds.isEmpty then .next (s.finishLaunch l .completed 0 false).wakeWaiting
    else
      let s := (s.updLaunch launch.toNat fun l => { l with st := .running, start := s.now, pseqs := [], lseq := 0 }).stirAll l.h.wlid
      let s := s.pushRange launch
      .next (if l.h.piste then s.after 1 (.chunkTurn launch) else s)

/-! ### COSCHED and PERSIST (R177, R178) -/

/-- The slots of a window's tiles that hold no task and are reserved to no launch, with their tiles, in order. An admission reserves the first of them: the
lowest tile and slot first. DESIGN CHOICE (log 92). -/
def State.freeSlots (s : State) (asid : BitVec 14) : List Nat :=
  match s.ctx? asid with
  | none => []
  | some c =>
    if !c.wok then []
    else
      (List.range (c.last + 1 - c.first)).flatMap fun t =>
        (List.range 64).filterMap fun k =>
          let id := (c.first + t) * 64 + k
          if (s.slot id).status == .free && ((s.tile (c.first + t)).reserved.get? k).isNone then some id else none

/-- The keys of the level-`k` groups of a launch's tasks and their sizes (R17, R177). -/
def Header.groups (h : Header) (id : W32) (k : Nat) : List (BitVec 96 × Nat) :=
  (List.range h.ntask.toNat).foldl (fun acc j =>
    let g := groupKey id (h.firstid + BitVec.ofNat 64 j) h.widf k
    match acc with
    | (g', n) :: r => if g' = g then (g, n + 1) :: r else (g, 1) :: acc
    | [] => [(g, 1)]) []

/-- The level instances that an admission makes for a COSCHED launch (R177). -/
def Header.instances (h : Header) (id : W32) : List BarInst :=
  if !h.cosched then []
  else (List.range (h.nf - 1)).flatMap fun k => (h.groups id (k + 1)).map fun g => ⟨⟨h.asid, BitVec.ofNat 5 (16 + k), g.1⟩, g.2, 0, false⟩

/-- Whether every barrier home has its instances free (R223, R224): it holds at most 1,024. -/
def State.barsFree (s : State) (l : List BarInst) : Bool :=
  (List.range 4).all fun d => decide ((s.die d).bars.length + (l.filter fun b => s.barDie b.key == d).length ≤ 1024)

/-- COSCHED_ADMISSION (R177, R178, R224): when free slots for all tasks and the barrier instances are there, they are reserved, the level instances of a
COSCHED launch are made, and it starts. Until then it tries again. -/
def execCoschedAdmission (launch : W32) (s : State) : Host.Outcome State Fault Refusal :=
  match s.launch? launch.toNat with
  | none => .next s
  | some l =>
    if l.st != .waiting || l.admitted || !s.predsReady l.h then .next s
    else
      let free := s.freeSlots l.h.asid
      let insts := l.h.instances launch
      if decide (free.length < l.h.ntask.toNat) || !s.barsFree insts then .next (s.after 64 (.coschedAdmission launch))
      else
        let s := (free.take l.h.ntask.toNat).foldl (fun s k =>
          s.updTile (tileOf k) fun t => { t with reserved := t.reserved.set (k % 64) l.key }) s
        let s := insts.foldl (fun s b => s.setBar b.key (some b)) s
        .next ((s.updLaunch l.key fun l => { l with admitted := true }).after 1 (.launchStart launch))

/-! ### Watchdog (R184) -/

/-- WLWDOG_EXPIRY (R184): a worklist that has held a present item for WLWDOG µs with no pop freezes; otherwise the watchdog looks again when
that time can have passed. -/
def execWlwdogExpiry (wl : Nat) (s : State) : Host.Outcome State Fault Refusal :=
  match s.wl? wl with
  | none => .next s
  | some w =>
    let span := s.pkg.wlwdog.toNat * 2400
    if w.closed || span = 0 || w.home != s.own || s.present wl = 0 then .next s
    else if w.lastPop + span ≤ s.now then .next (s.freeze w.launch .hung 2)
    else .next (s.after (w.lastPop + span - s.now) (.wlwdogExpiry wl))

end Sys2Proof.Machine
end

