-- ==== Sys2Proof/Machine/Worklist.lean ====
section
/-! DEFINITION. Worklist instructions: WLPSH, WLPOP, WLACK, WLRET, WLSTA, WLCFG, and the answers of pushes
(spec/16_engine_instructions.md R356 to R361; spec/07_worklists.md R155, R156, R168, R170, R172, R181; spec/05_ordering.md R124). -/

namespace Sys2Proof.Machine

/-! ### Waits and traps -/

/-- Wait until every earlier access of the slot has completed and every earlier update is accepted at a scope, then act (R124). -/
def awaitAll (s : State) (sc : Scope) (act : State → Act) : Act :=
  if !s.cur.ops.isEmpty then .hold s (.again 0) else awaitRelease s sc false act

/-- A worklist's scope: package, or pod where it spans packages (R124). -/
def State.wlScope (s : State) (wl : Nat) : Scope :=
  match s.wl? wl with
  | some w => if w.pkgs.length ≤ 1 then .pkg else .pod
  | none => .pkg

/-- The worklist id a register names (R356). -/
def wlOf (v : W64) : Nat := (v.extractLsb' 0 10).toNat

/-- The worklist an id names within an address space (Table 7.2, code 1). -/
def State.myWl (s : State) (wl : Nat) (asid : BitVec 14) : Option WorkList :=
  match s.wl? wl with
  | some w => if w.asid = asid then some w else none
  | none => none

/-- The item of two registers (R357, Table 7.1). -/
def itemOf (lo hi : W64) : Item := ⟨hi.extractLsb' 32 32, hi.extractLsb' 20 12, hi.extractLsb' 16 4, hi.extractLsb' 0 16, lo⟩

/-- The checks of R155 on an item for a launch: the WL sub-code of the first that fails (Table 7.2). DEDUCED (log 45). -/
def itemFault (i : Item) (h : Header) : Option Nat :=
  if i.flags.extractLsb' 1 3 ≠ 0 ∨ (i.range = false ∧ i.count ≠ 0) then some 2
  else if h.nent < i.entry.toNat then some 3
  else if 2 ^ h.width ≤ i.work.toNat + i.count.toNat then some 4
  else none

/-- The logical index of a slot in Piste mode (R147). -/
def State.logical (s : State) (slot : Nat) (asid : BitVec 14) : Nat :=
  64 * (tileOf slot - ((s.window? (tileOf slot) asid).map (·.first)).getD 0) + slot % 64

/-- The identity of the next push of the slot in focus (R156). -/
def State.pushIdent (s : State) : BitVec 80 :=
  let mk := fun (who seq : Nat) => BitVec.ofNat 80 (who * 2 ^ 56 + seq * 2 ^ 16)
  if s.cur.sc.piste then
    let li := s.logical s.curId s.cur.sc.asid
    mk (2 ^ 23 + li) (((s.launch? s.cur.lkey).map fun l => l.pseqs.getD 0 li).getD 0)
  else mk (s.slotIdent s.curId).toNat s.cur.pushSeq.toNat

/-- An accepted push advances the sequence its identity was taken from (R156). DEDUCED (log 42). -/
def State.countPush (s : State) : State :=
  if s.cur.sc.piste then
    let li := s.logical s.curId s.cur.sc.asid
    s.updLaunch s.cur.lkey fun l => { l with pseqs := l.pseqs.set li (l.pseqs.getD 0 li + 1) }
  else s.updCur fun x => { x with pushSeq := x.pushSeq + 1 }

/-! ### WLPSH (R357) -/

/-- WLPSH: it waits as a release, checks its item, sends the push and holds issue until it is answered. -/
def execWlpsh (d a b : RegNo) (s : State) : Host.Outcome State Fault Refusal :=
  issue (.wlpsh d a b) s fun s =>
    let wl := wlOf (s.cur.readG a)
    let hi := s.cur.readG (b + 1)
    awaitAll s (s.wlScope wl) fun s =>
      match s.myWl wl s.cur.sc.asid with
      | none => .trap causeWl 1 hi
      | some w =>
        let i := itemOf (s.cur.readG b) hi
        match (s.launch? w.launch).bind fun l => itemFault i l.h with
        | some c => .trap causeWl c hi
        | none =>
          if s.rangesOut s.curId then .hold s (.again 0)
          else
            let m : PushMsg := ⟨wl, ⟨i, s.pushIdent⟩, 0, s.overPod s.myTile, .wlpsh s.curId s.cur.mc.ctxser, .new, none, 0, s.now⟩
            .hold (if w.closed then s.after (2 * hopDie s.myTile (lampDie (w.lampOf m.tile))) (.pushAnswer m 2) else s.sendPush m) (.answer 0)

/-- A re-push that found no room: it is a new push after this many cycles (log 36). -/
def retryPush : Nat := 64

/-- PUSH_ANSWER (R156, R173, R357, R359): a push is answered. An accepted push advances its sequence and WLPSH retires with the status; the next range
of a launch follows, and one that finds no room freezes the worklist. An item that is pushed again is not refused for want of room: it is pushed until
it is taken. A demotion that has arrived is one the keeper waits for. -/
def execPushAnswer (m : PushMsg) (status : Nat) (s : State) : Host.Outcome State Fault Refusal :=
  let m := m.hop s.now
  let again := fun (s : State) => s.after retryPush (.rpush { m with stage := .new, v := 2 ^ 32 })
  match m.by_ with
  | .wlpsh slot ctx => .next (s.within slot fun s =>
      let s := if status = 0 && s.cur.mc.ctxser == ctx then s.countPush else s
      if s.cur.expects ctx then (s.updCur fun x => x.addDelay s.now 7 m.path).answered (BitVec.ofNat 64 status) else s)
  | .wlret slot ctx =>
    if status = 1 then .next (again s)
    else .next (s.within slot fun s => if s.cur.expects ctx then (s.updCur fun x => x.addDelay s.now 7 m.path).answered 0 else s)
  | .again => .next (if status = 1 then again s else s)
  | .keeper => .next (s.opStep m.wl fun o => { o with loose := o.loose - 1 })
  | .launch id =>
    let s := s.updLaunch id.toNat fun l => { l with ranging := false }
    if status = 0 then
      .next ((match s.launch? id.toNat with | some l => s.countRange l true | none => s).pushRange id)
    else if status = 1 then .next (s.freeze id.toNat .faulted 3)
    else .next s

/-! ### WLPOP (R358) -/

/-- WLPOP: with four items held it traps; otherwise its pop is on its way, and it completes with the answer. -/
def execWlpop (d a : RegNo) (la : BitVec 4) (s : State) : Host.Outcome State Fault Refusal :=
  issue (.wlpop d a la) s fun s =>
    let wl := wlOf (s.cur.readG a)
    match s.myWl wl s.cur.sc.asid with
    | none => .trap causeWl 1 (s.cur.readG a)
    | some w =>
      if (List.range 4).all fun k => ((s.task s.myTid).held.getD (k + 1) none).isSome then .trap causeWl 5 (s.cur.readG a)
      else
        let (op, s) := s.openOp (.wlpop d a la) .acquiring none 1 .none
        .long (s.sendPop w ⟨wl, 0, s.overPod s.myTile, .task s.myTid s.curId s.cur.mc.ctxser op, 0, s.now⟩)

/-! ### WLACK and WLRET (R359) -/

/-- The held item a register names, where there is one. -/
def State.heldAt (s : State) (a : RegNo) : Option HeldItem :=
  let k := ((s.cur.readG a).extractLsb' 0 3).toNat
  if 5 ≤ k then none else (s.task s.myTid).held.getD k none

/-- Remove it from the held list. -/
def State.dropHeld (s : State) (a : RegNo) : State :=
  s.updTask s.myTid fun t => { t with held := t.held.setIfInBounds ((s.cur.readG a).extractLsb' 0 3).toNat none }

/-- WLACK: the item leaves the list, which may complete its launch (R174); the dispatcher's confirmation ends the instruction. -/
def execWlack (a : RegNo) (s : State) : Host.Outcome State Fault Refusal :=
  issue (.wlack a) s fun s =>
    match s.heldAt a with
    | none => .trap causeWl 6 (s.cur.readG a)
    | some h => .hold (((s.dropHeld a).checkWl h.wl).answerIn (2 * hopTile s.myTile s.myTile) 0) (.answer 0)

/-- WLRET: after its wait as a release the item is pushed again with its key and identity; that of a closed worklist is discarded. One that a freeze
has discarded during the wait is gone. -/
def execWlret (a : RegNo) (s : State) : Host.Outcome State Fault Refusal :=
  issue (.wlret a) s fun s =>
    let done := fun (s : State) => Act.hold (s.answerIn (2 * hopTile s.myTile s.myTile) 0) (.answer 0)
    match s.heldAt a with
    | none => if s.cur.hold == .none then .trap causeWl 6 (s.cur.readG a) else done s
    | some h =>
      awaitAll s (s.wlScope h.wl) fun s =>
        let s := s.dropHeld a
        if s.wlOpen h.wl then .hold (s.sendPush ⟨h.wl, h.q, 0, s.overPod s.myTile, .wlret s.curId s.cur.mc.ctxser, .new, none, 0, s.now⟩) (.answer 0)
        else done s

/-! ### WLSTA (R170, R360) -/

/-- A statistics word of a worklist at its keeper (Table 7.5): what the packages it spans have counted is added. -/
def State.wlStat (s : State) (wl : Nat) (w : WorkList) (n : Nat) : W64 :=
  let far := fun (f : WlNews → Nat) => (w.far.map fun e => f e.2).sum
  match n with
  | 0 => BitVec.ofNat 64 (w.worst + w.rho * 2 ^ 10 + (if w.xpkg then 2 ^ 20 else 0) +
      (match w.k with | some k => k / 2 ^ 80 | none => 0xFFFFFFFF) * 2 ^ 32)
  | 1 => w.pushes + BitVec.ofNat 64 (far (·.pushes))
  | 2 => w.pops + BitVec.ofNat 64 (far (·.pops))
  | 3 => (w.demotes + BitVec.ofNat 32 (far (·.demotes))) ++ (w.nruns + BitVec.ofNat 32 (far (·.runs)))
  | 4 => BitVec.ofNat 64 (s.present wl)
  | _ => 0

/-- WLSTA: the keeper's reply ends the instruction. -/
def execWlsta (d a b : RegNo) (s : State) : Host.Outcome State Fault Refusal :=
  issue (.wlsta d a b) s fun s =>
    let wl := wlOf (s.cur.readG a)
    match s.pkg.wlOwner.get? wl with
    | none => .hold (s.answerIn (2 * hopDie s.myTile 0) 0) (.answer 0)
    | some o =>
      if o ≠ s.cur.sc.asid then .trap causeWl 7 (s.cur.readG a)
      else match s.wl? wl with
        | none => .hold (s.answerIn (2 * hopDie s.myTile 0) 0) (.answer 0)
        | some w =>
          let n := (s.cur.readG b).toNat
          if w.home = s.own then .hold (s.answerIn (2 * hopDie s.myTile (lampDie w.keeperLamp)) (s.wlStat wl w n)) (.answer 0)
          else .hold (s.lantern w.home 0 wl (.stat n s.curId s.cur.mc.ctxser)) (.answer 0)

/-! ### WLCFG (R172, R361) -/

/-- What a read made by the slot in focus for a creation meets: its bytes; a wait; a trap. -/
inductive CfgRead where
  | ok (b : List Byte)
  | wait
  | fail (cause code : Nat) (xaddr : W64)

/-- The mark of the requests of a slot's creation at another package. -/
def cfgLane (slot : Nat) : Nat := 400 + slot % 64

/-- A read of the slot in focus has met a pending page: the slot blocks until the wake, and then reads again; after a refusal it traps (R104). -/
def State.cfgPends (s : State) (r : Req) : CfgRead × State :=
  if s.cur.refuse then (.fail causeXlate 4 r.ptr, s.updCur fun x => { x with refuse := false })
  else (.wait, (s.setReq { r with lane := holdLane, stage := .page, flies := false, sent := 0 }).settleBlock s.curId s.cur.mc.ctxser)

/-- Read pieces of memory as accesses of the slot in focus (R110). Pieces of another package are asked for one after another. A pending page blocks the
slot until its wake; a refused one traps. -/
def State.cfgRead (s : State) (base : W64) : List (Nat × Nat) → List Byte → CfgRead × State
  | [], acc => (.ok acc, s)
  | (va, n) :: rest, acc =>
    let p := effPtr base va
    match s.classify s.myTile s.cur.sc.asid s.cur.level va with
    | .control _ => (.fail causeProt 7 p, s)
    | .pod pkg a =>
      if s.cur.sc.piste then (.fail causePisteScope 0 p, s)
      else if !s.pkg.members.contains pkg then (.fail causeAddr 5 p, s)
      else match (s.podReqs s.myTile (cfgLane s.curId)).find? fun r => r.ptr == p with
        | some r =>
          if r.stage != .done then (.wait, s)
          else (match r.res with
            | .ok d => s.cfgRead base rest (acc ++ d)
            | .fail c k => (.fail c k p, s)
            | .pending => s.cfgPends r)
        | none =>
          let (id, s) := s.fresh
          (.wait, s.sendReq { engineReq id s.curId s.cur.mc.ctxser s.myTid s.cur.sc.asid (cfgLane s.curId) s.myTile p (.pod pkg a) s.now with
            kind := .load, n := n, mask := lowMask n, tenant := s.cur.sc.tenant, order := id })
    | _ =>
      match s.vread1 s.myTile s.cur.sc.asid va n with
      | (.ok b, s) => s.cfgRead base rest (acc ++ b)
      | (.fail c k, s) => (.fail c k p, s)
      | (.gone, s) | (.wait, s) => (.wait, s)
      | (.pending home page, s) =>
        let (id, s) := s.fresh
        (s.faultRecord home s.cur.sc.asid (page * 65536) 0 s.curId s.cur.mc.ctxser).cfgPends
          (engineReq id s.curId s.cur.mc.ctxser s.myTid s.cur.sc.asid holdLane s.myTile p (.hbm va) s.now)

/-- Read `n` bytes at a fat pointer, aligned to `al`, as accesses of the slot in focus. -/
def State.cfgSpan (s : State) (p : W64) (n al : Nat) : CfgRead × State :=
  if p.extractLsb' 48 4 ≠ 0 then (.fail causeAddr 1 p, s)
  else if 2 ^ 48 < vaOf p + n then (.fail causeAddr 2 (effPtr p (2 ^ 48 : Nat)), s)
  else if vaOf p % al ≠ 0 then (.fail causeAlign al p, s)
  else s.cfgRead p (pieces (n / 64 + 2) (vaOf p) n) []

/-- The creation of the slot in focus is decided: its answers from other packages are forgotten. -/
def State.cfgEnd (s : State) : State :=
  let s := (s.podReqs s.myTile (cfgLane s.curId)).foldl (fun s r => s.delReq r.id) s
  s.updCur fun x => { x with refuse := false }

/-- The eight-byte words of a list of bytes. -/
def wordsOf (b : List Byte) : List W64 := (List.range (b.length / 8)).map fun i => BitVec.ofNat 64 (descAt b (8 * i) 8)

/-- WLCFG: at U it traps; else it waits as a release, reads the header, the package mask and the entry table, and creates the launch or reports its
refusal. -/
def execWlcfg (d a : RegNo) (s : State) : Host.Outcome State Fault Refusal :=
  issue (.wlcfg d a) s fun s =>
    let p := s.cur.readG a
    let asid := s.cur.sc.asid
    if s.cur.level == .u then .trap causeWl 7 p
    else awaitAll s .pkg fun s =>
      match s.cfgSpan p 128 64 with
      | (.wait, s) => .hold s (.again 0)
      | (.fail c k x, s) => .trapIn s.cfgEnd c k x
      | (.ok hb, s) =>
        let h := Header.of hb
        match if h.pmaskp = 0 then (.ok [], s) else s.cfgSpan (BitVec.ofNat 64 h.pmaskp) 32 8 with
        | (.wait, s) => .hold s (.again 0)
        | (.fail c k x, s) => .trapIn s.cfgEnd c k x
        | (.ok mask, s) =>
          match s.cfgSpan h.entryp (8 * (h.nent + 1)) 8 with
          | (.wait, s) => .hold s (.again 0)
          | (.fail c k x, s) => .trapIn s.cfgEnd c k x
          | (.ok eb, s) =>
            let pkgs := s.launchPkgs h.pmaskp mask
            let t := 2 * hopDie s.myTile 0
            match s.mayCreate s.curId hb (wordsOf eb) pkgs (h.asid == asid) with
            | (none, s) => .hold s (.again 0)
            | (some (some c), s) => .hold (s.cfgEnd.answerIn t (BitVec.ofNat 64 c)) (.answer 0)
            | (some none, s) =>
              let r := s.cfgEnd.createLaunch hb (p.extractLsb' 0 48) (wordsOf eb) pkgs (some s.curId) []
              .hold (r.2.answerIn t (BitVec.ofNat 64 (r.1.toNat * 2 ^ 32))) (.answer 0)

/-! ### Messages from other packages (R169) -/

/-- A message as it arrives: the way between the packages counts as a hop delay (R30). -/
def landed (m : WlMsg) (now : Nat) : WlMsg :=
  let push := fun (m : PushMsg) => { m with path := m.path + hopPkg, since := now }
  let pop := fun (m : PopMsg) => { m with path := m.path + hopPkg, since := now }
  match m with
  | .fpush lamp m => .fpush lamp (push m)
  | .rpush m => .rpush (push m)
  | .fwd lamp m => .fwd lamp (push m)
  | .pushAnswer m st => .pushAnswer (push m) st
  | .pop lamp m => .pop lamp (pop m)
  | .popReply m a => .popReply (pop m) a
  | m => m

/-- A message for a worklist that is not here any more is answered as a closed one answers. -/
def State.lanternStray (s : State) (pkg wl : Nat) (asid : BitVec 14) (lid : W32) (m : WlMsg) : State :=
  let send := fun (p : Nat) (m : WlMsg) => if p = s.own then (match eventOf wl m with | some e => s.after 1 e | none => s) else s.postWl p wl asid lid m
  match m with
  | .fpush _ m | .rpush m | .fwd _ m => if m.by_ == .keeper then s else send (tilePkg m.tile) (.pushAnswer m 2)
  | .pop _ m => send (tilePkg m.tile) (.popReply m .closed)
  | .pushAnswer m st => s.after 1 (.pushAnswer m st)
  | .popReply m _ => s.after 1 (.popReply m .closed)
  | .stat _ slot ctx => s.postWl pkg wl asid lid (.statReply slot ctx 0)
  | .statReply slot ctx v => s.after 1 (.controlReply slot ctx v)
  | .close _ => s.updPkg fun p => { p with openings := p.openings.filter fun o => !(o.wl == wl && o.by_ == 65536 + pkg) }
  | _ => s

/-- A message for a worklist that is here. -/
def State.lanternTaken (s : State) (pkg wl : Nat) (w : WorkList) (m : WlMsg) : State :=
  let s := if hasItem m then s.updWl wl fun w => { w with got := w.got.set pkg (w.got.getD 0 pkg + 1) } else s
  match m with
  | .pull _ kn n v => s.fanPull wl kn n v
  | .cut false _ k v ends => (s.wlTiles w).foldl (fun s t => s.after 22 (.cut wl false (s.overPod t) k ⟨v, ends⟩)) s
  | .state serves front present => s.heard wl serves front present
  | .close frozen => s.closeHere wl frozen
  | .call => s.updWl wl fun w => { w with gave := w.gave + w.places, places := 0, answered := w.answered + 1 }
  | .news n => s.takeNews pkg wl n
  | .freeze overflow => s.freeze w.launch .faulted (if overflow then 3 else 1)
  | .stat n slot ctx => s.lantern pkg 0 wl (.statReply slot ctx (s.wlStat wl w n))
  | .statReply slot ctx v => s.after 1 (.controlReply slot ctx v)
  | m => match eventOf wl m with
    | some e => s.after 1 e
    | none => s

/-- A Lantern message of a worklist arrives from another package (R169). -/
def State.lanternArrives (s : State) (pkg wl : Nat) (asid : BitVec 14) (lid : W32) (m : WlMsg) : State :=
  match m with
  | .create hdr pkgs => s.asked pkg wl asid hdr pkgs
  | .created code => s.createdBy pkg wl code
  | .begin_ id hdrVa hdr entries pkgs => s.begun pkg wl id hdrVa hdr entries pkgs
  | m =>
    let m := landed m s.now
    match s.wl? wl with
    | some w => if BitVec.ofNat 32 w.launch = lid then s.lanternTaken pkg wl w m else s.lanternStray pkg wl asid lid m
    | none => s.lanternStray pkg wl asid lid m

end Sys2Proof.Machine
end

