-- ==== Sys2Proof/Machine/Task.lean ====
section
/-! DEFINITION. Task instructions: END, YIELD, ALIGN, TRIG, MIGR, WIDX, UERET, and the delivery of user events
(spec/16_engine_instructions.md R362 to R368; spec/03_registers.md R65, R78, R83; spec/01 R17, R19; spec/05 R125). -/

namespace Sys2Proof.Machine

/-! ### END and TRIG (R125, R363, R365) -/

/-- The scope at which a task of a launch triggers: pod where a dependent launch spans packages (R125). What depends on a launch of another package its home
alone knows, so that its tasks trigger at pod scope. -/
def State.trigScope (s : State) (key : Nat) : Scope :=
  match s.launch? key with
  | some l => if l.away.isSome || (s.pkg.launches.any fun e => e.2.h.preds.contains l.id && e.2.h.pmaskp != 0) then .pod else .pkg
  | none => .pkg

/-- END: it waits as FENCE of kind 3 at the trigger scope and until every update is accepted at pod scope, reports a refused update, then the task
ends and its slot is free. -/
def execEndTask (s : State) : Host.Outcome State Fault Refusal :=
  issue .endTask s fun s =>
    if s.cur.spec.commit != .none || s.enginesOut s.myTid (s.trigScope s.cur.lkey) || s.updatesOut s.myTid .pod then .hold s (.again 0)
    else match s.refusal .pod with
      | some f => .trapIn (s.dropRefusal f) f.cause f.code f.xaddr
      | none => .done (s.retire.endNow true)

/-- A task's trigger is counted once (R175). -/
def State.countTrig (s : State) : State :=
  if (s.task s.myTid).trig then s
  else
    let s := s.updTask s.myTid fun t => { t with trig := true }
    (s.updLaunch s.cur.lkey fun l => { l with triggers := l.triggers + 1 }).checkLaunch s.cur.lkey

/-- TRIG: it waits as FENCE of kind 3 at the trigger scope. -/
def execTrig (s : State) : Host.Outcome State Fault Refusal :=
  issue .trig s fun s => awaitRelease s (s.trigScope s.cur.lkey) true fun s => .next s.countTrig

/-! ### YIELD, WIDX, UERET -/

/-- YIELD (R65). -/
def execYield (s : State) : Host.Outcome State Fault Refusal :=
  issue .yield s fun s => .next (s.updCur fun x => { x with yld := true })

/-- Field `k` of a work identifier (R367). -/
def workField (widf : BitVec 39) (wid : W64) (k : Nat) : W64 :=
  if fieldsOf widf < k then 0 else BitVec.ofNat 64 (wid.toNat / 2 ^ belowField widf k % 2 ^ widthOf widf k)

/-- WIDX (R367). -/
def execWidx (d : RegNo) (k : BitVec 5) (s : State) : Host.Outcome State Fault Refusal :=
  fixed (.widx d k) s (fun _ => false) fun x => x.writeG d (workField x.u.widf x.u.wid k.toNat)

/-- UERET (R78, R368). -/
def execUeret (s : State) : Host.Outcome State Fault Refusal :=
  issue .ueret s fun s =>
    if s.cur.u.active then
      .done (s.retire.updCur fun x => { x with pc := x.u.uepc, u := { x.u with active := false }, skip := (0, 0), hold := .none, wait := s.now + 1 })
    else .trap causeIllegal 7 ((encode .ueret).setWidth 64)

/-! ### User events (R78) -/

/-- Whether a replay still has instructions to skip after the pc. -/
def Slot.replaying (x : Slot) : Bool :=
  (List.range 15).any fun j => x.skip.2.getLsbD j && decide (x.pc.toNat < x.skip.1.toNat + 4 * (j + 1))

/-- The kind of the user event to deliver next: pending and enabled, copy before collective before dry. -/
def Slot.dueEvent (x : Slot) : Option Nat :=
  if x.u.uemask.getLsbD 0 then (List.range 3).find? fun k => x.u.uepend.getLsbD k && x.u.uemask.getLsbD (k + 1) else none

/-- Whether the slot is at a boundary at which a user event may be delivered. DEDUCED (log 52). -/
def Slot.atUserEvent (x : Slot) : Bool :=
  x.status == .ready && x.hold == .none && !x.u.active && x.level == .u && x.spec.depth == 0 && x.spec.mode == .none && x.frame.isNone &&
    x.ops.isEmpty && x.fails.isEmpty && !x.replaying && !x.ending && x.stopReq == .none

/-- Deliver a user event. -/
def Slot.deliver (x : Slot) (k : Nat) : Slot :=
  { x with
    pc := x.u.uevec
    skip := (0, 0)
    u := { x.u with
      uepend := x.u.uepend &&& ~~~(BitVec.ofNat 3 (2 ^ k))
      uekind := BitVec.ofNat 4 (k + 1)
      uetag := x.u.uetags.getD k 0
      uepc := x.pc
      active := true } }

/-- Deliver the user event that is due in the slot in focus, where it may be. -/
def State.userEvent (s : State) : State :=
  match s.cur.dueEvent with
  | none => s
  | some k => if s.cur.atUserEvent && !s.pkg.halted then s.updCur fun x => x.deliver k else s

/-- USER_EVENT_DELIVERY (R78). In Piste mode it is made at the turn (Table 6.4). -/
def execUserEventDelivery (slot : Nat) (s : State) : Host.Outcome State Fault Refusal :=
  .next (s.within slot fun s => s.userEvent)

/-! ### ALIGN (R364) -/

/-- Whether a core has a Ready slot of a launch. -/
def State.coreRuns (s : State) (core launch : Nat) : Bool :=
  (List.range 8).any fun k => (s.slot (core * 8 + k)).status == .ready && (s.slot (core * 8 + k)).lkey == launch

/-- Whether a core is held at an address. -/
def State.heldAtPc (s : State) (core : Nat) (pc : Addr) : Bool := match (s.core core).align with | some o => o.pc == pc | none => false

/-- Release the cores of a tile that are held at an address. -/
def State.releaseAlign (s : State) (tile : Nat) (pc : Addr) : State :=
  (List.range 8).foldl (fun s c => if s.heldAtPc (tile * 8 + c) pc then s.updCore (tile * 8 + c) fun k => { k with align := none } else s) s

/-- Whether the hold of a core of a tile is over: every other core with a Ready slot of the launch is held at the address, or a slot held there has
left Ready. -/
def State.alignOver (s : State) (tile : Nat) (h : AlignHold) : Bool :=
  ((List.range 8).all fun c => s.heldAtPc (tile * 8 + c) h.pc || !s.coreRuns (tile * 8 + c) h.launch) ||
    (List.range 8).any fun c => s.heldAtPc (tile * 8 + c) h.pc && (match (s.core (tile * 8 + c)).align with
      | some o => (s.slot o.slot).status != .ready
      | none => false)

/-- Look at the holds of a tile. DEDUCED (log 53). -/
def State.settleAlign (s : State) (tile : Nat) : State :=
  (List.range 8).foldl (fun s c => match (s.core (tile * 8 + c)).align with
    | some h => if s.alignOver tile h then s.releaseAlign tile h.pc else s
    | none => s) s

/-- ALIGN: it retires, and its core is held. -/
def execAlign (s : State) : Host.Outcome State Fault Refusal :=
  issue .align s fun s =>
    let core := coreOf s.curId
    let h : AlignHold := ⟨s.cur.pc, s.cur.lkey, s.now, s.curId⟩
    let s := s.updCore core fun k => { k with align := some h }
    .next ((s.settleAlign s.myTile).after 256 (.alignTimeout core s.now))

/-- ALIGN_TIMEOUT: 256 cycles have passed since a core was held. -/
def execAlignTimeout (core stamp : Nat) (s : State) : Host.Outcome State Fault Refusal :=
  match (s.core core).align with
  | some h => if h.since = stamp then .next (s.releaseAlign (core / 8) h.pc) else .next s
  | none => .next s

/-! ### MIGR (R83, R366) -/

/-- The record of the task of the slot in focus. -/
def State.record (s : State) (done : Bool) : SaveRec where
  tid := s.myTid
  from_ := s.curId
  ctx := s.cur.mc.ctxser
  prio := ((s.launch? s.cur.lkey).map (·.h.prio)).getD 0
  saved := s.now
  done := done
  ready := false
  line := match s.net.reqs.find? fun e => s.mine e.2 && (e.2.stage == .page || e.2.stage == .park || e.2.stage == .watch) with
    | some e => vaOf e.2.ptr / 64 * 64
    | none => 0
  slot := s.cur

/-- The task of the slot in focus leaves for another tile: its record travels, its accumulators are released and its slot is free. -/
def State.migrate (s : State) (tile : Nat) : State :=
  let s := s.clearRsv.releaseAccs s.myTid
  let m : Moving := ⟨s.myTid, tile, s.record true⟩
  let s := s.updTask s.myTid fun t => { t with place := .moving }
  let s := s.updNet fun n => { n with moving := n.moving ++ [m] }
  let s := s.after (40 + hopTile s.myTile tile) (.migrationArrival s.myTid tile)
  (s.updCur Slot.freed).afterOnce 1 (.dispatch s.curId)

/-- MIGR: outside the window it traps; its own tile changes nothing; where its state forbids it, it traps; otherwise it waits for the task's matrix
commands and moves the task. -/
def execMigr (a : RegNo) (s : State) : Host.Outcome State Fault Refusal :=
  issue (.migr a) s fun s =>
    let tile := ((s.cur.readG a).extractLsb' 0 9).toNat
    let inside := match s.window? s.myTile s.cur.sc.asid with
      | some w => decide (w.first ≤ tile ∧ tile ≤ w.last)
      | none => false
    let fixedLaunch := ((s.launch? s.cur.lkey).map fun l => l.h.cosched || l.h.persist).getD false
    if !inside then .trap causeProt 1 (s.cur.readG a)
    else if tile = s.myTile then .next s
    else if fixedLaunch || s.cur.level != .u then .trap causeIllegal 7 ((encode (.migr a)).setWidth 64)
    else if s.cur.spec.commit != .none || (s.task s.myTid).out1 != 0 then .hold s (.again 0)
    else .done (s.retire.advance.migrate tile)

end Sys2Proof.Machine
end

