-- ==== Sys2Proof/Machine/Csr.lean ====
section
/-! DEFINITION. CSR instructions: what every CSR number reads and what a write leaves (spec/16_engine_instructions.md R369;
spec/03_registers.md R60 to R64, R78, Tables 3.2 to 3.5; spec/07 R184; spec/08 R211). -/

namespace Sys2Proof.Machine

/-- An instruction address in a CSR: bits [1:0] read 0 (Table 3.5). -/
def csrAddr (v : W64) : Addr := v.extractLsb' 2 46 ++ (0 : BitVec 2)

/-- The bits of a CSR of tile or package scope (Table 3.4). -/
def sharedBits : Nat → Nat
  | 0x221 => 20
  | 0x230 => 16
  | _ => 32

/-- A CSR of tile or package scope as the slot in focus reads it: its own write of this cycle, which others see from the next cycle (R60), or `v`. -/
def State.ownWrite (s : State) (n : Nat) (v : W64) : W64 :=
  match (s.net.csrs.filter fun e => e.1 == s.curId && e.2.1 == n).getLast? with
  | some e => e.2.2.extractLsb' 0 (sharedBits n) |>.setWidth 64
  | none => v

/-- What a CSR number reads in the slot in focus (Tables 3.2 to 3.5). DEDUCED (log 62). -/
def State.csrRead (s : State) (n : Nat) : W64 :=
  let x := s.cur
  let z := fun {w : Nat} (v : BitVec w) => (v.setWidth 64 : W64)
  match n with
  | 0x001 => z x.u.fflags
  | 0x002 => z x.u.frm
  | 0x003 => z x.u.txcause
  | 0x004 => BitVec.ofNat 64 x.spec.depth
  | 0x010 => z x.u.msa
  | 0x011 => z x.u.msb
  | 0x012 => z x.u.msc
  | 0x020 => x.u.wid
  | 0x021 => z x.u.widf
  | 0x022 => x.u.tid
  | 0x023 => z x.u.ikey
  | 0x024 => z x.u.iarg
  | 0x025 => z (s.slotIdent s.curId)
  | 0x026 => z x.u.launch
  | 0x027 => x.u.seed
  | 0x028 => x.u.ctrb
  | 0x029 => z x.u.codeb
  | 0x02A => z x.u.codel
  | 0x030 => s.pkg.cycle
  | 0x031 => x.u.retired
  | 0x032 => x.u.turns
  | 0x040 => z x.u.uevec
  | 0x041 => z x.u.uepc
  | 0x042 => x.u.uecause
  | 0x043 => BitVec.ofNat 64 (x.u.uemask.toNat + if x.u.active then 256 else 0)
  | 0x0B0 => x.u.dmap
  | 0x100 => BitVec.ofNat 64 (x.sc.spp.toNat + (if x.sc.intrap then 2 else 0) + (if x.sc.piste then 4 else 0))
  | 0x101 => z x.sc.stvec
  | 0x102 => z x.sc.sepc
  | 0x103 => z x.sc.scause
  | 0x104 => x.sc.sxaddr
  | 0x105 => x.sc.sscratch
  | 0x106 => BitVec.ofNat 64 (x.sc.asid.toNat + x.sc.tenant.toNat * 2 ^ 16)
  | 0x120 => z x.sc.wsmax
  | 0x121 => z x.sc.rsmax
  | 0x200 => BitVec.ofNat 64 (x.mc.mpp.toNat + if x.mc.intrap then 4 else 0)
  | 0x201 => z x.mc.mtvec
  | 0x202 => z x.mc.mepc
  | 0x203 => z x.mc.mcause
  | 0x204 => x.mc.mxaddr
  | 0x205 => x.mc.mscratch
  | 0x206 => z x.mc.mdeleg
  | 0x207 => z x.mc.ctxser
  | 0x208 => z x.mc.mscodeb
  | 0x209 => z x.mc.mscodel
  | 0x210 => if (s.core (coreOf s.curId)).pol then 1 else 0
  | 0x220 => s.ownWrite n ((s.tile s.myTile).mweight.setWidth 64)
  | 0x221 => s.ownWrite n ((s.tile s.myTile).feretry.setWidth 64)
  | 0x230 => s.ownWrite n (s.pkg.chunklen.setWidth 64)
  | 0x231 => s.ownWrite n (s.pkg.colltmo.setWidth 64)
  | 0x232 => s.ownWrite n (s.pkg.wlwdog.setWidth 64)
  | _ => if 0xC0 ≤ n ∧ n ≤ 0xCF then z (x.u.dacc.getD (n - 0xC0) 0) else 0

/-- Change the user CSRs of the slot in focus. -/
def State.updU (s : State) (f : UCsr → UCsr) : State := s.updCur fun x => { x with u := f x.u }
/-- Change its supervisor CSRs. -/
def State.updSc (s : State) (f : SCsr → SCsr) : State := s.updCur fun x => { x with sc := f x.sc }
/-- Change its machine CSRs. -/
def State.updMc (s : State) (f : MCsr → MCsr) : State := s.updCur fun x => { x with mc := f x.mc }

/-- COLLTMO is written: collectives that have begun are timed by the new value (R211). -/
def State.timeColls (s : State) : State :=
  if s.pkg.colltmo = 0 then s
  else (s.net.colls.filter fun c => c.verdict.isNone && c.root == s.own).foldl (fun s c =>
    s.afterOnce (Nat.max 1 (c.first + s.pkg.colltmo.toNat * 2400 - s.now)) (.colltmoExpiry c.key)) s

/-- What a CSR write leaves, for the RW fields of its number; RO fields and reserved bits are left as they are (R11, R369). -/
def State.csrWrite (s : State) (n : Nat) (v : W64) : State :=
  match n with
  | 0x001 => s.updU fun u => { u with fflags := v.extractLsb' 0 5 }
  | 0x002 => s.updU fun u => { u with frm := v.extractLsb' 0 2 }
  | 0x003 => s.updU fun u => { u with txcause := v.extractLsb' 0 15 }
  | 0x010 => s.updU fun u => { u with msa := v.extractLsb' 0 32 }
  | 0x011 => s.updU fun u => { u with msb := v.extractLsb' 0 32 }
  | 0x012 => s.updU fun u => { u with msc := v.extractLsb' 0 32 }
  | 0x040 => s.updU fun u => { u with uevec := csrAddr v }
  | 0x041 => s.updU fun u => { u with uepc := csrAddr v }
  | 0x043 => s.updU fun u => { u with uemask := v.extractLsb' 0 4 }
  | 0x0B0 => s.updU fun u => { u with dmap := v }
  | 0x100 => s.updSc fun c => { c with spp := v.extractLsb' 0 1, intrap := v.getLsbD 1 }
  | 0x101 => s.updSc fun c => { c with stvec := csrAddr v }
  | 0x102 => s.updSc fun c => { c with sepc := csrAddr v }
  | 0x103 => s.updSc fun c => { c with scause := v.extractLsb' 0 39 }
  | 0x104 => s.updSc fun c => { c with sxaddr := v }
  | 0x105 => s.updSc fun c => { c with sscratch := v }
  | 0x106 => s.updSc fun c => { c with asid := v.extractLsb' 0 14 }
  | 0x120 => s.updSc fun c => { c with wsmax := v.extractLsb' 0 9 }
  | 0x121 => s.updSc fun c => { c with rsmax := v.extractLsb' 0 13 }
  | 0x200 => s.updMc fun c => { c with mpp := if v.extractLsb' 0 2 = 3 then c.mpp else v.extractLsb' 0 2, intrap := v.getLsbD 2 }
  | 0x201 => s.updMc fun c => { c with mtvec := csrAddr v }
  | 0x202 => s.updMc fun c => { c with mepc := csrAddr v }
  | 0x203 => s.updMc fun c => { c with mcause := v.extractLsb' 0 39 }
  | 0x204 => s.updMc fun c => { c with mxaddr := v }
  | 0x205 => s.updMc fun c => { c with mscratch := v }
  | 0x206 => s.updMc fun c => { c with mdeleg := v.extractLsb' 0 32 }
  | 0x208 => s.updMc fun c => { c with mscodeb := csrAddr v }
  | 0x209 => s.updMc fun c => { c with mscodel := csrAddr v }
  | 0x210 => s.updCore (coreOf s.curId) fun c => { c with pol := v.getLsbD 0 }
  | 0x220 | 0x221 | 0x230 | 0x231 | 0x232 => s.updNet fun net => { net with csrs := net.csrs ++ [(s.curId, n, v)] }
  | _ =>
    if 0xC0 ≤ n ∧ n ≤ 0xCF then s.updU fun u =>
      let bit := BitVec.ofNat 16 (2 ^ (n - 0xC0))
      { u with
        dacc := u.dacc.setIfInBounds (n - 0xC0) (v.extractLsb' 0 32)
        daccAt := (s.now, if u.daccAt.1 = s.now then u.daccAt.2 ||| bit else bit) }
    else s

/-- A write of a CSR of tile or package scope takes effect with the next cycle (R60). -/
def State.csrLand (s : State) (slot n : Nat) (v : W64) : State :=
  match n with
  | 0x220 => s.updTile (tileOf slot) fun t => { t with mweight := v.extractLsb' 0 32 }
  | 0x221 => s.updTile (tileOf slot) fun t => { t with feretry := v.extractLsb' 0 20 }
  | 0x230 => s.updPkg fun p => { p with chunklen := v.extractLsb' 0 16 }
  | 0x231 => (s.updPkg fun p => { p with colltmo := v.extractLsb' 0 32 }).timeColls
  | 0x232 =>
    let s := s.updPkg fun p => { p with wlwdog := v.extractLsb' 0 32 }
    (s.pkg.wls.filter fun e => !e.2.closed && s.present e.1 != 0).foldl (fun s e => s.watchWl e.1) s
  | _ => s

/-- The writes that the last cycle has left take effect. -/
def State.csrsLand (s : State) : State :=
  s.net.csrs.foldl (fun s e => s.csrLand e.1 e.2.1 e.2.2) (s.updNet fun n => { n with csrs := [] })

/-- Clear the W1C bits of UECAUSE that a word has set (R11, R78). -/
def State.clearPend (s : State) (v : W64) : State := s.updU fun u => { u with uepend := u.uepend &&& ~~~(v.extractLsb' 1 3) }

/-- Whether a write would give the slot an ASID that is not its tenant's (R62). -/
def State.asidFault (s : State) (n : Nat) (v : W64) : Bool :=
  n == 0x106 && s.tenantOf? (v.extractLsb' 0 14) != some s.cur.sc.tenant

/-- CSRop (R369). `v` is the word to write, with the bits of g[A] that clear W1C bits; `none` only reads. -/
def csrOp (i : Instr) (s : State) (d : RegNo) (csr : BitVec 12) (v : State → W64 → Option (W64 × W64)) : Host.Outcome State Fault Refusal :=
  issue i s fun s =>
    let n := csr.toNat
    let old := s.csrRead n
    match v s old with
    | none => .next (s.updCur fun x => x.writeG d old)
    | some (new, clear) =>
      if s.asidFault n new then .trap causePriv 0 ((encode i).setWidth 64)
      else .next ((clearIf (s.csrWrite n new) n clear).updCur fun x => x.writeG d old)
where
  /-- W1C bits stand in UECAUSE alone. -/
  clearIf (s : State) (n : Nat) (v : W64) : State := if n = 0x042 then s.clearPend v else s

/-- CSRR (R369). -/
def execCsrr (d : RegNo) (csr : BitVec 12) (s : State) : Host.Outcome State Fault Refusal :=
  csrOp (.csrr d csr) s d csr fun _ _ => none
/-- CSRW (R369). -/
def execCsrw (d a : RegNo) (csr : BitVec 12) (s : State) : Host.Outcome State Fault Refusal :=
  csrOp (.csrw d a csr) s d csr fun s _ => some (s.cur.readG a, s.cur.readG a)
/-- CSRS (R369): with A = 0 it only reads. -/
def execCsrs (d a : RegNo) (csr : BitVec 12) (s : State) : Host.Outcome State Fault Refusal :=
  csrOp (.csrs d a csr) s d csr fun s old => if a = 0 then none else some (old ||| s.cur.readG a, s.cur.readG a)
/-- CSRC (R369): W1C bits are not cleared by it. -/
def execCsrc (d a : RegNo) (csr : BitVec 12) (s : State) : Host.Outcome State Fault Refusal :=
  csrOp (.csrc d a csr) s d csr fun s old => if a = 0 then none else some (old &&& ~~~(s.cur.readG a), 0)

end Sys2Proof.Machine
end

