-- ==== Sys2Proof/Machine/Dispatcher.lean ====
section
/-! DEFINITION. Tile dispatchers and spill engines: dispatch, refill, arrival of migrating tasks, eviction (spec/01_device.md R18, R20, R22 to R24;
spec/03_registers.md R80 to R83; spec/07_worklists.md R179 to R183; spec/08 R199; spec/04 R92). -/

namespace Sys2Proof.Machine

/-! ### Free slots -/

/-- Whether a launch reserves its slots (R177, R178). -/
def Launch.binds (l : Launch) : Bool := l.h.cosched || l.h.persist

/-- The launch a slot is reserved to. -/
def State.reservedTo (s : State) (slot : Nat) : Option Nat := (s.tile (tileOf slot)).reserved.get? (slot % 64)

/-- Whether a slot may take a task of a launch: it is free and reserved to that launch or to none (R177, R178, R391). -/
def State.slotFits (s : State) (slot : Nat) (l : Launch) : Bool :=
  (s.slot slot).status == .free && (match s.reservedTo slot with | some r => r == l.key | none => true)

/-- The slot of a tile that takes a task of a launch: one reserved to it, then `pref` where it fits, else the first that does. DESIGN CHOICE (log 50). -/
def State.slotFor (s : State) (pref : Nat) (l : Launch) : Option Nat :=
  let all := pref :: (List.range 64).map fun k => tileOf pref * 64 + k
  let kept := if l.binds then all.find? fun k => s.slotFits k l && s.reservedTo k == some l.key else none
  kept.or (all.find? fun k => s.slotFits k l)

/-- The slots of a tile that are free and reserved to no launch. -/
def State.openSlots (s : State) (tile : Nat) : List Nat :=
  ((List.range 64).map fun k => tile * 64 + k).filter fun k =>
    (s.slot k).status == .free && (s.reservedTo k).isNone

/-- The slots of a tile that hold no task. -/
def State.emptySlots (s : State) (tile : Nat) : List Nat := ((List.range 64).map fun k => tile * 64 + k).filter fun k => (s.slot k).status == .free

/-! ### Placement (R20, R80) -/

/-- What every placement does to a slot: the context serial, the age, the code region and the S-state of the context (R20, R80, R417). -/
def State.placed (s : State) (y : Slot) (l : Launch) : Slot :=
  let ss := ((s.ctx? l.h.asid).map (·.sstate)).getD ⟨0, 0, 0, 0, 0, 0, 0⟩
  { y with
    lkey := l.key
    level := .u
    age := s.now
    wait := s.now + 1
    yld := false
    forfeit := 0
    u := { y.u with codeb := l.h.codeb, codel := l.h.codel, launch := l.id }
    sc := { y.sc with
      piste := l.h.piste, stvec := ss.stvec, asid := l.h.asid, tenant := (s.asidEnt l.h.asid).tenant, sscratch := ss.sscratch,
      wsmax := ss.wsmax, rsmax := ss.rsmax }
    mc := { y.mc with ctxser := y.mc.ctxser + 1, mscodeb := ss.mscodeb, mscodel := ss.mscodel, mdeleg := ss.mdeleg }
    spec := { Spec.none with ended := l.h.piste, watch := y.spec.watch, wake := y.spec.wake } }

/-- The user CSRs of a dispatched task (R20). -/
def taskCsrs (l : Launch) (i : Item) (tid : W64) : UCsr :=
  { UCsr.reset with
    wid := i.work, widf := l.h.widf, ikey := i.key, iarg := i.entry ++ i.flags ++ i.count, tid := tid, launch := l.id, seed := l.h.seed,
    ctrb := l.h.ctrb, codeb := l.h.codeb, codel := l.h.codel }

/-- The registers of a dispatched task: g1 the work identifier, g2 the key (R20). -/
def taskRegs (i : Item) : Regs :=
  { Regs.zero with g := (Regs.zero.g.setIfInBounds 1 i.work).setIfInBounds 2 (i.key.setWidth 64) }

/-- Dispatch an item into a slot (R18, R20, R181). The first dispatch at a slot has the serial 0, so that the TID of the first task at slot 0 of package 0 is
0: DESIGN CHOICE (log 94). -/
def State.dispatchItem (s : State) (slot wl : Nat) (q : QItem) (l : Launch) : State :=
  let x := s.slot slot
  let i := q.first.item
  let tid : W64 := s.slotIdent slot ++ x.serial
  let y := s.placed { x.freed with
    status := .ready, pc := (l.entries.getD i.entry.toNat 0).extractLsb' 0 48, regs := taskRegs i, u := taskCsrs l i tid, rmask := 0,
    serial := x.serial + 1 } l
  let s := s.setSlot slot y
  let s := { s with tasks := s.tasks.set tid.toNat { Task.fresh with
    launch := l.key, asid := l.h.asid, place := .slot slot, held := Task.fresh.held.setIfInBounds 0 (some ⟨wl, q.first⟩) } }
  s.updLaunch l.key fun l => { l with dispatched := l.dispatched + 1, alive := l.alive + 1 }

/-- The kind of wait of a record ends with its refill: a sleeper's TX-sleep buoys are released where it was woken (R23, R140). -/
def State.releaseSleep (s : State) (r : SaveRec) : State :=
  if r.slot.status == .blocked .retrySleep then
    (r.slot.spec.watch.filter fun w => w.mode == 2).foldl (fun s w => s.sendRelease r.from_ r.ctx w.home w.line 2) s
  else s

/-- Place a saved or migrating task into a slot (R80, R199): its registers and CSRs come from its record, and what the record does not hold stays with
the slot. A refused wake traps as soon as the task runs (R81, R104). -/
def State.refillInto (s : State) (slot : Nat) (r : SaveRec) (l : Launch) : State :=
  let x := s.slot slot
  let z := r.slot
  let s := s.releaseSleep r
  let y := s.placed { x.freed with
    status := .ready, pc := z.pc, regs := z.regs, u := z.u, skip := z.skip, fails := z.fails, word := z.word, rmask := 0xFF, stopReq := z.stopReq } l
  let s := s.setSlot slot y
  let s := s.updTask r.tid fun t => { t with place := .slot slot }
  let s := s.updNet fun n => { n with reqs := n.reqs.filter fun e => !(e.2.lane == withdrawnLane && e.2.slot == r.from_ && e.2.ctx == r.ctx) }
  s.within slot fun s => s.trapIfSettled

/-! ### The order of R180 -/

/-- The launch a worklist belongs to. -/
def State.wlLaunch (s : State) (wl : Nat) : Option Launch := (s.wl? wl).bind fun w => s.launch? w.launch

/-- Whether a producer worklist is non-empty (R183); an item on its way to a dispatcher counts as prefetched. -/
def State.producing (s : State) (wl : Nat) : Bool :=
  (match s.wl? wl with | some w => !w.closed && decide (0 < s.present wl) | none => false) ||
    (s.tiles.any fun e => e.2.prefetched.any fun p => p.1 == wl) || s.net.pend.any fun p => match p.ev with
      | .popReply m (.item _) => m.wl == wl && (match m.by_ with | .tile => true | .task .. => false)
      | _ => false

/-- The Ready saved task of a tile that goes first: highest priority, then oldest save (R180). -/
def State.bestSaved (s : State) (tile : Nat) (fits : Launch → Bool) : Option (Nat × SaveRec × Launch) :=
  (s.tile tile).recs.foldl (fun acc e =>
    if !(e.2.ready && e.2.done) then acc
    else match s.launch? e.2.slot.lkey with
      | none => acc
      | some l =>
        if !fits l then acc
        else match acc with
          | none => some (e.1, e.2, l)
          | some (_, b, _) => if b.prio < e.2.prio ∨ (b.prio = e.2.prio ∧ e.2.saved < b.saved) then some (e.1, e.2, l) else acc) none

/-- The worklists that have an item prefetched at a tile which may be dispatched now, with their launches, in order of id. A consumer's item is not placed in
the last free slot while its producer is non-empty (R183): the last of those that are reserved to none, or of all where the consumer reserves slots. -/
def State.offers (s : State) (tile : Nat) (fits : Launch → Bool) : List (Nat × Launch) :=
  let ids := ((s.tile tile).prefetched.map (·.1)).dedup
  let room := fun (l : Launch) => (if l.binds then s.emptySlots tile else s.openSlots tile).length
  ((List.range 1024).filter fun w => ids.contains w).filterMap fun w =>
    match s.wlLaunch w with
    | none => none
    | some l =>
      if l.st.final || !fits l then none
      else if l.h.consumer && decide (room l ≤ 1) && s.producing l.h.prodwl then none
      else some (w, l)

/-- The worklist that is served next among those of one priority (R180): weighted round-robin in order of id, each priority with its own round. -/
def nextServed (t : Tile) (prio : Nat) (l : List (Nat × Launch)) : Option (Nat × Launch × Nat) :=
  let at_ := t.wrr.getD (0, 0) prio
  match l.find? fun e => e.1 == at_.1 && decide (at_.2 < e.2.h.weight + 1) with
  | some e => some (e.1, e.2, at_.2 + 1)
  | none => match (l.find? fun e => decide (at_.1 < e.1)).or l.head? with
    | some e => some (e.1, e.2, 1)
    | none => none

/-- Place the first task that R180 would place into a slot that fits it; `none` where no task waits for one. A task that has migrated here takes the next
free slot (R83). -/
def State.fillSlot (s : State) (tile : Nat) (slotFor : Launch → Option Nat) (saved items : Bool) : Option State :=
  let fits := fun (l : Launch) => (slotFor l).isSome
  let moved := if saved then s.net.moving.find? fun m => m.tile == tile && m.task.ready &&
      (match s.launch? m.task.slot.lkey with | some l => fits l | none => false) else none
  match moved with
  | some m =>
    match s.launch? m.task.slot.lkey with
    | none => none
    | some l => match slotFor l with
      | none => none
      | some k => some (({ s with net := { s.net with moving := s.net.moving.filter fun o => o.tid != m.tid } }).refillInto k m.task l)
  | none =>
    let rec_ := if saved then s.bestSaved tile fits else none
    let offers := if items then s.offers tile fits else []
    let top := offers.foldl (fun n e => Nat.max n e.2.h.prio) 0
    let item := nextServed (s.tile tile) top (offers.filter fun e => e.2.h.prio == top)
    let useItem := match rec_, item with
      | some (_, r, _), some (_, l, _) => decide (r.prio < l.h.prio)
      | none, some _ => true
      | _, none => false
    if useItem then
      match item with
      | none => none
      | some (w, l, n) =>
        match slotFor l, (s.tile tile).prefetched.find? fun p => p.1 == w with
        | some k, some p =>
          let s := s.updTile tile fun t => { t with prefetched := t.prefetched.erase p, wrr := t.wrr.set top (w, n) }
          let tiles := match s.wl? w with | some v => if l.binds then s.wlTiles v else [tile] | none => []
          some (tiles.foldl (fun s t => s.afterOnce 1 (.prefetch t w)) (s.dispatchItem k w p.2 l))
        | _, _ => none
    else match rec_ with
      | none => none
      | some (ix, r, l) => match slotFor l with
        | none => none
        | some k => some ((s.updTile tile fun t => { t with recs := t.recs.del ix }).refillInto k r l)

/-! ### Eviction by the dispatcher (R182, R183) -/

/-- The task that a dispatcher may evict for a PREEMPT item of priority `p`: the lowest priority, then the youngest. -/
def State.victim (s : State) (tile p : Nat) : Option Nat :=
  let all := ((List.range 64).map fun k => tile * 64 + k).filterMap fun k =>
    let x := s.slot k
    if x.status == .free || x.status == .saving || x.status == .halted || x.level != .u then none
    else match s.launch? x.lkey with
      | some l => if l.h.cosched || l.h.persist || decide (p ≤ l.h.prio) then none else some (k, l.h.prio, x.age)
      | none => none
  (all.foldl (fun (acc : Option (Nat × Nat × Nat)) e => match acc with
    | none => some e
    | some b => if e.2.1 < b.2.1 ∨ (e.2.1 = b.2.1 ∧ b.2.2 < e.2.2) then some e else acc) none).map (·.1)

/-- The youngest Blocked consumer task of a producer at a tile. -/
def State.consumer (s : State) (tile wl : Nat) : Option Nat :=
  let all := ((List.range 64).map fun k => tile * 64 + k).filterMap fun k =>
    let x := s.slot k
    match x.status, s.launch? x.lkey with
    | .blocked _, some l =>
      if l.h.consumer && l.h.prodwl == wl && x.level == .u && !(l.h.cosched || l.h.persist) then some (k, x.age) else none
    | _, _ => none
  (all.foldl (fun (acc : Option (Nat × Nat)) e => match acc with
    | none => some e
    | some b => if b.2 < e.2 then some e else acc) none).map (·.1)

/-- The slot a dispatcher evicts for an item it holds when its tile has no free slot: that of a consumer for its producer's item, or of a task of lower
priority for an item of a PREEMPT worklist. One eviction runs at a time. It looks at the worklists in the order of their prefetched items, and for
each at the consumer first: DESIGN CHOICE (log 93). -/
def State.preemptVictim (s : State) (tile : Nat) : Option Nat :=
  let busy := (List.range 64).any fun k => (s.slot (tile * 64 + k)).leaving || (s.slot (tile * 64 + k)).status == .saving
  if busy || !(s.openSlots tile).isEmpty then none
  else
    (((s.tile tile).prefetched.map (·.1)).dedup).findSome? fun w => match s.wlLaunch w with
      | none => none
      | some l => if l.st.final then none else (s.consumer tile w).or (if l.h.preempt then s.victim tile l.h.prio else none)

/-- Start that eviction. -/
def State.preempt (s : State) (tile : Nat) : State :=
  match s.preemptVictim tile with
  | none => s
  | some k => s.updSlot k fun x => { x with leaving := true }

/-! ### The events -/

/-- DISPATCH (R20, R179, R180, R182, R183): the dispatcher of the slot's tile fills a free slot, this one where it fits; with none free it may evict. -/
def execDispatch (slot : Nat) (s : State) : Host.Outcome State Fault Refusal :=
  let tile := tileOf slot
  match s.fillSlot tile (fun l => s.slotFor slot l) true true with
  | some s => .next (s.afterOnce 1 (.dispatch (tile * 64)))
  | none => .next (s.preempt tile)

/-- REFILL (R80, R180): the first Ready saved task of the tile that fits the slot is placed into it. -/
def execRefill (slot : Nat) (s : State) : Host.Outcome State Fault Refusal :=
  .next ((s.fillSlot (tileOf slot) (fun l => if s.slotFits slot l then some slot else none) true false).getD s)

/-- MIGRATION_ARRIVAL (R83): the record of a migrating task arrives; it is placed into the next free slot of the tile. -/
def execMigrationArrival (tid : W64) (tile : Nat) (s : State) : Host.Outcome State Fault Refusal :=
  let s := s.updNet fun n => { n with moving := n.moving.map fun m =>
    if m.tid == tid && m.tile == tile then { m with task := { m.task with ready := true } } else m }
  .next ((s.fillSlot tile (fun l => s.slotFor (tile * 64) l) true false).getD s)

/-! ### Eviction and saving (R22, R23, R81) -/

/-- A wait that eviction withdraws: an operation all of whose accesses are parked, pending or watching, or a pop of the worklist. -/
def State.opWaits (s : State) (o : LongOp) : Bool :=
  let mine := s.net.reqs.filter fun e => s.mine e.2 && e.2.op == o.id
  let popWaits := s.pkg.wls.any fun e => e.2.waiters.any fun m => match m.by_ with | .task _ _ _ op => op == o.id | .tile => false
  popWaits || (!mine.isEmpty && decide (mine.length = o.left) && mine.all fun e => e.2.stage == .park || e.2.stage == .page || e.2.stage == .wake || e.2.stage == .watch)

/-- Whether the slot in focus is at an instruction boundary at which it can be evicted, ended or stopped: no frame runs, nothing holds issue but a
wait that can be withdrawn, and every issued instruction has completed or waits so. A commit that is being applied is finished first. -/
def State.atBoundary (s : State) : Bool :=
  let x := s.cur
  let held := match x.hold with
    | .none => true
    | .again _ => (match x.status with | .blocked (.queue _) => true | _ => false)
    | .answer _ => false
  x.frame.isNone && held && x.spec.commit == .none && (x.spec.mode == .chunk || x.spec.updates.isEmpty) && x.ops.all fun o => s.opWaits o

/-- Withdraw the waits of the slot in focus: the oldest withdrawn instruction is the restart point, and the replay skips what has completed after it
(R74, R81). A request on a pending page leaves a mark by which the wake finds the record (order 1: the
access was an aborted transaction's, and its refusal concerns nobody, R137). DEDUCED (log 51). -/
def State.withdrawWaits (s : State) : State :=
  let x := s.cur
  let paged := fun (r : Req) => s.mine r && (r.stage == .page || r.stage == .wake) && !r.kind.isUpdate
  let parked := fun (r : Req) => s.mine r && r.op != 0 && (r.stage == .park || r.stage == .watch)
  let mark := fun (r : Req) => if paged r then { r with op := 0, lane := withdrawnLane, kind := .load, order := if r.op = 0 ∧ r.kind ≠ .fetch then 1 else 0 } else r
  let s := s.recallParked
  let s := s.updNet fun n => { n with reqs := (n.reqs.filter fun e => !parked e.2).map fun (e : Nat × Req) => (e.1, mark e.2) }
  let s := s.updPkg fun p => { p with wls := p.wls.map fun (e : Nat × WorkList) => (e.1, { e.2 with waiters := e.2.waiters.filter fun m =>
    match m.by_ with | .task _ slot ctx _ => !(slot == s.curId && ctx == s.cur.mc.ctxser) | .tile => true }) }
  match x.ops with
  | [] => s.updCur fun x => { x with hold := .none, busy := [] }
  | o :: _ =>
    let y := { x with fails := x.ops.map fun p => (p.pc, p.word, ⟨0, 0, 0, 0⟩) }
    s.updCur fun x => { x with pc := o.pc, word := o.word, skip := (o.pc, doneMask y o.pc), ops := [], fails := [], inwin := false, busy := [],
                               hold := .none }

/-- A free save record of a tile. -/
def State.freeRec (s : State) (tile : Nat) : Option Nat := (List.range 140).find? fun k => ((s.tile tile).recs.get? k).isNone

/-- Whether a saved task waits for no event: its dispatcher may refill it at once (R23, R81). -/
def Slot.resumes (x : Slot) : Bool :=
  match x.status with
  | .blocked .fullEmpty => true
  | .blocked _ => x.occurred
  | _ => true

/-- Start the save of the task of the slot in focus (R22, R24, R81). -/
def State.startSave (s : State) : State :=
  match s.freeRec s.myTile with
  | none => s
  | some ix =>
    let s := s.settleSpec
    let line := (s.record false).line
    let s := s.withdrawWaits
    let s := s.repushHeld s.myTid s.myTile
    let r := { s.record false with ready := s.cur.resumes, line := line }
    let s := s.updTile s.myTile fun t => { t with recs := t.recs.set ix r }
    let s := s.updTask s.myTid fun t => { t with place := .saved s.myTile ix }
    let s := s.tally s.myTile 12 1
    (s.updCur fun x => { x with status := .saving, leaving := false }).after 40 (.saveComplete s.curId)

/-- EVICTION (R22, R81): a slot that is to leave, at U and at a boundary, is saved. Until then, and while another slot of the tile is being saved or no save
record is free, nothing happens. -/
def execEviction (slot : Nat) (s : State) : Host.Outcome State Fault Refusal :=
  .next (s.within slot fun s =>
    let x := s.cur
    let there := match x.status with | .ready | .blocked _ => true | _ => false
    let busy := (List.range 64).any fun k => (s.slot (s.myTile * 64 + k)).status == .saving
    if x.leaving && there && x.level == .u && s.atBoundary && !busy then s.startSave else s)

/-- SAVE_COMPLETE (R23): the record is complete, and the slot is free. -/
def execSaveComplete (slot : Nat) (s : State) : Host.Outcome State Fault Refusal :=
  let x := s.slot slot
  if x.status != .saving then .next s
  else
    let s := s.updTile (tileOf slot) fun t => { t with recs := t.recs.map fun (e : Nat × SaveRec) =>
      (e.1, if e.2.from_ == slot && e.2.ctx == x.mc.ctxser then { e.2 with done := true } else e.2) }
    let s := s.storeRecs fun r => r.from_ == slot && r.ctx == x.mc.ctxser
    .next ((s.updSlot slot Slot.freed).afterOnce 1 (.dispatch slot))

end Sys2Proof.Machine
end

