-- ==== Sys2Proof/Machine/Priv.lean ====
section
/-! DEFINITION. Privileged and trap instructions: ERET, SPILL, FILL, WAKE, TLBI, IFLUSH, HALT, MSPILL, MFILL, TRAP, BRK
(spec/16_engine_instructions.md R370 to R375; spec/03 R75 to R77; spec/08 R199, R200; spec/09 R220). -/

namespace Sys2Proof.Machine

/-- ERET (R76, R371). -/
def execEret (s : State) : Host.Outcome State Fault Refusal :=
  issue .eret s fun s => .done (s.retire.updCur fun x => { x.eret with wait := s.now + 1 })

/-! ### SPILL, FILL, WAKE (R371) -/

/-- The slot that g[A][23:0] names, where it is of this package (R18). -/
def State.namedSlot (s : State) (v : W64) : Option Nat :=
  let n := (v.extractLsb' 0 24).toNat
  if n / 32768 = s.pkg.podIndex.toNat then some (n % 32768) else none

/-- Whether a slot holds a task that the spill engine can evict once it is at U. -/
def Slot.evictable (x : Slot) : Bool :=
  match x.status with
  | .ready | .blocked _ | .stopped | .halted => true
  | _ => false

/-- SPILL: the spill engine is told to evict the slot. A slot at U is waited for until its save begins; one at S or M, and the issuing slot itself,
leaves when it is next at U. -/
def execSpill (a : RegNo) (s : State) : Host.Outcome State Fault Refusal :=
  issue (.spill a) s fun s =>
    match s.namedSlot (s.cur.readG a) with
    | none => .next s
    | some k =>
      let x := s.slot k
      if s.cur.hold == .again 1 then (if x.leaving && x.level == .u && x.evictable then .hold s (.again 1) else .next s)
      else if !x.evictable then .next s
      else
        let s := (s.updSlot k fun y => { y with leaving := true }).afterOnce 1 (.eviction k)
        if k = s.curId || x.level != .u then .next s else .hold s (.again 1)

/-- FILL: the dispatcher places into the named free slot the first task that R180 would place. -/
def execFill (a : RegNo) (s : State) : Host.Outcome State Fault Refusal :=
  issue (.fill a) s fun s =>
    match s.namedSlot (s.cur.readG a) with
    | none => .next s
    | some k => .next ((s.fillSlot (tileOf k) (fun l => if s.slotFits k l then some k else none) true true).getD s)

/-- WAKE: the wake travels to the tile of the slot it names (R448). -/
def execWake (a : RegNo) (s : State) : Host.Outcome State Fault Refusal :=
  issue (.wake a) s fun s =>
    let v := s.cur.readG a
    match s.namedSlot v with
    | none => .next s
    | some k => .next (s.sendWakeTo k (v.getLsbD 24))

/-! ### TLBI (R220, R372) -/

/-- The other packages that hold translations of an ASID: those its pod mask names (R220, R226). -/
def State.podPkgs (s : State) (asid : BitVec 14) : List Nat :=
  match s.pkg.asids.get? asid.toNat with
  | none => []
  | some e =>
    let m := s.pkg.podmasks.getD 0 e.podix.toNat
    (List.range 256).filter fun k => m.getLsbD k && k != s.pkg.podIndex.toNat

/-- The other packages a TLBI reaches. DEDUCED (log 56). -/
def State.tlbiPkgs (s : State) (kind : Nat) (asid : BitVec 14) : List Nat :=
  if kind = 2 then ((s.pkg.asids.flatMap fun e => s.podPkgs (BitVec.ofNat 14 e.1))).dedup else s.podPkgs asid

/-- A TLBI goes to every memory home of the package. -/
def State.startTlbi (s : State) (tile : Nat) (op : TlbiOp) : State :=
  op.left.foldl (fun s h => s.after (hopDie tile (h / 16)) (.tlbiAtHome h op.id)) (s.updNet fun n => { n with tlbis := n.tlbis ++ [op] })

/-- An address space under which a TLBI travels to a package: its own, or for one of every address space one whose pod mask names the package. -/
def State.tlbiAsid (s : State) (kind : Nat) (asid : BitVec 14) (pkg : Nat) : BitVec 14 :=
  if kind = 2 then (((s.pkg.asids.map fun e => BitVec.ofNat 14 e.1).find? fun a => (s.podPkgs a).contains pkg).getD asid) else asid

/-- Send a TLBI from a die's tile to every memory home of the package and to the packages it reaches. -/
def State.sendTlbi (s : State) (tile slot : Nat) (ctx : W32) (kind : Nat) (asid : BitVec 14) (first count : Nat) (cmd : Option Cmd)
    (ptes : List Nat) : State :=
  let (id, s) := s.fresh
  let pkgs := s.tlbiPkgs kind asid
  let s := s.startTlbi tile ⟨id, slot, ctx, kind, asid, first, count, List.range 64, 64 + pkgs.length, cmd, ptes, none⟩
  pkgs.foldl (fun s p =>
    let a := s.tlbiAsid kind asid p
    s.postMsg p 6 a (s.asidEnt a).tenant 512 (.tlbi id kind asid first count)) s

/-- A TLBI of an instruction: at S its ASID must belong to SASID.TENANT; it holds issue until it completes. -/
def tlbiAct (i : Instr) (kind : Nat) (asid : BitVec 14) (first count : Nat) (s : State) : Act :=
  if s.cur.level == .s && kind != 2 && s.tenantOf? asid != some s.cur.sc.tenant then .trap causePriv 0 ((encode i).setWidth 64)
  else if kind = 0 ∧ count = 0 then .next s
  else .hold (s.sendTlbi s.myTile s.curId s.cur.mc.ctxser kind asid first count none []) (.answer 0)

/-- TLBI of a range. -/
def execTlbiRange (a b : RegNo) (s : State) : Host.Outcome State Fault Refusal :=
  issue (.tlbiRange a b) s fun s =>
    let x := s.cur
    tlbiAct (.tlbiRange a b) 0 ((x.readG a).extractLsb' 0 14) (fieldOf (x.readG b) 16 32) (x.readG (b + 1)).toNat s
/-- TLBI of an ASID. -/
def execTlbiAsid (a : RegNo) (s : State) : Host.Outcome State Fault Refusal :=
  issue (.tlbiAsid a) s fun s => tlbiAct (.tlbiAsid a) 1 ((s.cur.readG a).extractLsb' 0 14) 0 0 s
/-- TLBI of every ASID. -/
def execTlbiAll (s : State) : Host.Outcome State Fault Refusal := issue .tlbiAll s fun s => tlbiAct .tlbiAll 2 0 0 0 s

/-! ### IFLUSH and HALT (R373) -/

/-- IFLUSH: the tile's instruction cache is emptied once every earlier store has completed. -/
def execIflush (s : State) : Host.Outcome State Fault Refusal :=
  issue .iflush s fun s =>
    if s.cur.spec.commit != .none then .hold s (.again 0) else .next (s.updTile s.myTile fun t => { t with icache := [] })

/-- HALT: a fatal fault at S; at M the slot stops. -/
def execHalt (s : State) : Host.Outcome State Fault Refusal :=
  issue .halt s fun s =>
    if s.cur.level == .m then .done (s.retire.advance.updCur fun x => { x with status := .halted }) else .done s.fatalFault

/-! ### MSPILL and MFILL (R200, R374) -/

/-- Whether an accumulator of the core of the slot in focus has a command that is not complete. -/
def State.accInUse (s : State) (n : PredNo) : Bool :=
  let c := s.core (coreOf s.curId)
  let uses := fun (m : MCmd) => m.md == n || (match m.op with | .mmov src => src == n | _ => false)
  c.q0.any uses || (c.run0.any fun r => uses r.cmd) || (s.tile s.myTile).latches.any fun l => l.core == coreOf s.curId && !l.on && uses l.cmd

/-- Row `r` of an accumulator as bytes. -/
def Acc.row (a : Acc) (r : Nat) : List Byte :=
  (List.range 16).flatMap fun k => leBytes 4 (a.elems.getD (16 * r + k) 0).toNat

/-- The access of 16 rows at an address. -/
def rowsAccess (base : W64) (kind : ReqKind) (write : Bool) (data : Nat → List Byte) : Access :=
  ⟨base, 64, kind, write, none, false, (List.range 16).map fun r => ⟨r, 64 * r, 64, fullMask, data r⟩⟩

/-- MSPILL: the rows are written, and then the accumulator is zeroed and free. -/
def execMspill (d : PredNo) (a : RegNo) (s : State) : Host.Outcome State Fault Refusal :=
  issue (.mspill d a) s fun s =>
    if s.accInUse d then .hold s (.again 0)
    else accessAct (.mspill d a) s (rowsAccess (s.cur.readG a) .store true ((s.core (coreOf s.curId)).accs.getD d.toNat Acc.free).row) (.mspill d)

/-- MFILL: an accumulator tagged to another context traps; otherwise the rows are read, and then the accumulator is tagged and RMASK cleared. -/
def execMfill (d : PredNo) (a : RegNo) (s : State) : Host.Outcome State Fault Refusal :=
  issue (.mfill d a) s fun s =>
    let foreign := match ((s.core (coreOf s.curId)).accs.getD d.toNat Acc.free).owner with
      | none => none
      | some o =>
        if o = (slotIx s.curId, s.cur.mc.ctxser, s.cur.u.tid) ∨ (o.2.2 = s.cur.u.tid ∧ s.cur.rmask.getLsbD d.toNat = true) then none else some o.2.2
    let acc := rowsAccess (s.cur.readG a) .load false fun _ => []
    match s.checkAll acc acc.elems with
    | .inl f => .trap f.cause f.code f.xaddr
    | .inr _ =>
      match foreign with
      | some t => .trap causeAccOwner d.toNat t
      | none => if s.accInUse d then .hold s (.again 0) else accessAct (.mfill d a) s acc (.mfill d)

/-! ### TRAP and BRK (R375) -/

/-- TRAP. -/
def execTrap (c : BitVec 15) (s : State) : Host.Outcome State Fault Refusal := issue (.trap c) s fun _ => .trap causeTrap c.toNat 0
/-- BRK. -/
def execBrk (c : BitVec 15) (s : State) : Host.Outcome State Fault Refusal := issue (.brk c) s fun _ => .trap causeBrk c.toNat 0

end Sys2Proof.Machine
end

