-- ==== Sys2Proof/Machine/Piste.lean ====
section
/-! DEFINITION. Piste mode: the commit arbiter of a launch, chunks, squash and commit, and what a slot does at its turn
(spec/06_speculation.md R147 to R149, Table 6.4; spec/03 R78). A launch's `turnSt` says where the turn stands: 0 it has come, 1 the chunk runs again,
2 the ending instruction executes, 3 committed with that instruction to follow, 4 committed with a new chunk to follow. -/

namespace Sys2Proof.Machine

/-- The window of a launch: its first tile and its number of slots (R91, R147). -/
def State.turnWindow (s : State) (l : Launch) : Option (Nat × Nat) :=
  (s.ctx? l.h.asid).map fun c => (c.first, 64 * (c.last + 1 - c.first))

/-- Set where the turn of a launch stands. -/
def State.setTurn (s : State) (id : W32) (st : Nat) : State := s.updLaunch id.toNat fun l => { l with turnSt := st }

/-- The turn passes to the next logical index (R147). -/
def State.passTurn (s : State) (l : Launch) (n : Nat) : State :=
  s.updLaunch l.key fun k => { k with turn := if k.turn + 1 < n then k.turn + 1 else 0, turnSt := 0 }

/-- Start a chunk in a slot (R132, R147). -/
def Slot.startChunk (x : Slot) : Slot :=
  { x with spec := { Spec.none with mode := .chunk, restart := x.pc, ckpt := some x.checkpoint, watch := x.spec.watch } }

/-- Whether messages of a worklist are on their way that decide which item is its first, or who has popped one. A re-push that waits for room is in the
worklist again only when it is taken. -/
def State.wlMoving (s : State) (wl : Nat) : Bool :=
  s.net.pend.any fun p => match p.ev with
    | .rpush m => m.wl == wl && m.v != 2 ^ 32
    | .fpush _ m | .fwd _ m => m.wl == wl
    | .pop _ m | .popReply m _ => m.wl == wl
    | .pull w .. | .ritem w .. | .pack w .. | .demote w .. | .cut w .. | .head w .. | .low w _ => w == wl
    | _ => false

/-- Whether a message in flight is one that a task's turn has caused, or that its worklists' state depends on. -/
def State.causedBy (s : State) (tid : W64) (asid : BitVec 14) (wl : Nat) : Event → Bool
  | .channelWord _ _ sender _ => sender == tid
  | .creditReturn _ _ receiver _ => receiver == tid
  | .packageBarrierArrival slot .. => slot == s.curId
  | .barrierCompletion _ (.pkg k) _ => k.asid == asid
  | .barrierCompletion _ (.wire _) _ => true
  | .popReply m _ | .pop _ m => m.wl == wl
  | _ => false

/-- Whether engine commands of a task are not over: matrix and copy commands, and collectives that have not joined, or are decided but have still to
write. A collective that waits for its other members does not hold up their turns. -/
def State.enginesRun (s : State) (tid : W64) : Bool :=
  (s.task tid).out1 != 0 || (s.task tid).out3 != 0 || (s.cores.any fun e => e.2.q4.any fun c => c.tid == tid) ||
    s.net.colls.any fun c => c.verdict.isSome && (c.members.any fun m => m.cmd.tid == tid) &&
      c.members.any fun m => m.pkg == s.own && !c.served.contains m.pos

/-- Whether what the slot in focus has done at its turn is not over: notices to be taken, updates to be accepted, words, credits, barrier messages and
answers on their way, engine commands. The turn waits for it, so that the next one finds the same whatever the delays (R129, R150). DEDUCED (log 95). -/
def State.turnWrites (s : State) : Bool :=
  let wl := ((s.launch? s.cur.lkey).map (·.h.wlid)).getD 1024
  s.updatesOut s.myTid .pkg || s.enginesRun s.myTid || s.commitUnseen || s.net.pend.any fun p => s.causedBy s.myTid s.cur.sc.asid wl p.ev

/-- Whether everything the slot in focus has issued is over. -/
def State.turnSettled (s : State) : Bool :=
  s.cur.ops.isEmpty && s.cur.fails.isEmpty && s.cur.hold == .none && s.cur.spec.commit == .none && !s.turnWrites

/-- The spots of the write set of the slot in focus; `none` where a line cannot be written now. -/
def State.chunkSpots : List (Nat × Nat) → State → Option (List ((Nat × Nat) × Spot)) × State
  | [], s => (some [], s)
  | k :: ks, s =>
    match s.commitSpot s.curId k ((s.buffered s.curId k).1 == fullMask) with
    | (.ok p, s) =>
      match State.chunkSpots ks s with
      | (some l, s) => (some ((k, p) :: l), s)
      | (none, s) => (none, s)
    | (_, s) => (none, s)

/-- Send the next of the buffered updates of a committed chunk (R148): each one when the last has been applied, so that they are applied in program order. -/
def State.sendUpdate (s : State) (u : AmoOp × Nat × W64 × W64) : State :=
  let s := s.updCur fun x => { x with spec := { x.spec with updates := x.spec.updates.drop 1 } }
  let c := s.classify s.myTile s.cur.sc.asid s.cur.level (vaOf u.2.2.1)
  let (r, s) := s.mkReq 0 (.rupd u.1) none ⟨0, 0, u.2.1, lowMask u.2.1, regBytes u.2.1 u.2.2.2⟩ u.2.2.1 c
  s.sendReq r

/-- Commit the chunk of the slot in focus at its turn (R148): its lines are written, then its updates go out. A line that cannot be written makes the
chunk run again, and it then ends before that write. DEDUCED (log 13). -/
def State.chunkCommit (s : State) (id : W32) : State :=
  match State.chunkSpots s.writeSet s with
  | (none, s) => s.chunkSquash.setTurn id 1
  | (some l, s) =>
    let s := l.foldl (fun s (e : (Nat × Nat) × Spot) =>
      let w := s.buffered s.curId e.1
      (s.performWrite e.2.home (e.2.off / 64) e.2.key w.1 w.2 (commitAck s.curId) (some s.curId)).2) s
    let s := s.dropBuf s.curId 0
    let s := s.releaseWatch fun w => w.mode == 6 || w.isTx
    let limit := decide (s.pkg.chunkLimit ≤ s.cur.spec.count)
    (s.updCur fun x => { x with
      commits := x.commits + 1, spec := { Spec.none with watch := x.spec.watch, ended := true, updates := x.spec.updates } }).setTurn id (if limit then 4 else 3)

/-- The turn of the slot in focus is over: a user event that is due is delivered, a new chunk starts, and the turn passes. -/
def State.endTurn (s : State) (l : Launch) (n : Nat) : State := (s.userEvent.updCur Slot.startChunk).passTurn l n

/-- A sleeping chunk at its turn (R140, R148): a write or a loss since it began makes it run again; otherwise the slot sleeps on outside any chunk. -/
def State.sleepTurn (s : State) (l : Launch) (n : Nat) : State :=
  let sp := s.cur.spec
  if s.noticeComing then s
  else if sp.dirty || sp.lost || sp.wake then s.chunkSquash.setTurn l.id 1
  else ((s.releaseWatch fun w => w.mode == 6 || w.mode == 1).updCur fun x =>
    { x with spec := { x.spec.ended_ true with ended := true } }).passTurn l n

/-- The turn of a Ready slot. -/
def State.readyTurn (s : State) (l : Launch) (n : Nat) : State :=
  let x := s.cur
  if x.spec.mode == .chunk then
    if l.turnSt = 2 then s.passTurn l n
    else if !x.spec.ended || !x.ops.isEmpty || x.hold != .none || s.noticeComing || s.writesHeld then s
    else if l.turnSt = 0 && (x.spec.dirty || x.spec.lost) then s.chunkSquash.setTurn l.id 1
    else s.chunkCommit l.id
  else if x.spec.mode != .none then s.passTurn l n
  else if l.turnSt = 3 || l.turnSt = 4 then
    if s.turnWrites then s
    else match x.spec.updates with
    | u :: _ => s.sendUpdate u
    | [] =>
    if l.turnSt = 4 then (if x.stopReq == .stop then s.takeStop.passTurn l n else s.endTurn l n)
    else if x.stopReq == .stop then s.takeStop.passTurn l n
    else (s.updCur fun x => { x with spec := { x.spec with ended := false } }).setTurn l.id 2
  else if l.turnSt = 2 && !x.spec.ended then s
  else if x.hold != .none then (if l.turnSt = 2 then s else s.setTurn l.id 2)
  else if !s.turnSettled then s
  else if x.stopReq == .stop then s.takeStop.passTurn l n
  else s.endTurn l n

/-- The turn of an empty slot: the first item in (key, identity) order is dealt to it, and its first chunk starts after the turn (R147, R149). -/
def State.dealTurn (s : State) (slot : Nat) (l : Launch) (n : Nat) : State :=
  match s.wl? l.h.wlid with
  | none => s.passTurn l n
  | some w =>
    if l.turnSt ≠ 0 || w.closed || !s.slotFits slot l then s.passTurn l n
    else if w.pull.isSome || w.op.isSome || s.wlMoving l.h.wlid then s
    else
      let best := (w.parts.map (·.1)).foldl (fun (acc : Option (Nat × QItem)) d => match acc, w.best d with
        | some a, some q => if q.pos < a.2.pos then some (d, q) else some a
        | none, some q => some (d, q)
        | a, none => a) none
      match best with
      | none => if s.present l.h.wlid = 0 then s.passTurn l n else s.sendLow l.h.wlid w.keeperLamp
      | some (d, q) =>
        let s := s.updWl l.h.wlid fun w => (w.countPop s.own q.pos s.now).cutFront d q.pos
        let s := ((s.lowIf l.h.wlid d).watchWl l.h.wlid).dispatchItem slot l.h.wlid q l
        (s.updSlot slot Slot.startChunk).passTurn l n

/-- The turn of one slot. -/
def State.turn (s : State) (l : Launch) (slot n : Nat) : State :=
  let x := s.slot slot
  if x.status == .free then s.dealTurn slot l n
  else if x.lkey != l.key then s.passTurn l n
  else match x.status with
    | .blocked .retrySleep => if x.spec.mode == .chunk then s.within slot fun s => s.sleepTurn l n else s.passTurn l n
    | .ready => s.within slot fun s => s.readyTurn l n
    | _ => s.passTurn l n

/-- CHUNK_TURN (R147): the commit arbiter looks at the slot whose turn it is. -/
def execChunkTurn (launch : W32) (s : State) : Host.Outcome State Fault Refusal :=
  match s.launch? launch.toNat with
  | none => .next s
  | some l =>
    if l.st.final then .next s
    else match s.turnWindow l with
      | none => .next s
      | some (first, n) => .next ((s.turn l (first * 64 + l.turn) n).after 1 (.chunkTurn launch))

end Sys2Proof.Machine
end

