-- ==== Sys2Proof/Machine/MemEvents.lean ====
section
/-! DEFINITION. Events of the memory system and the package: wakes of pages, TLBI at homes, the sweeper, the zeroing engine, the throttle, errors and
retirement (spec/04_memory_space.md R94, R102 to R107; spec/09_tables.md R220; spec/10_counters.md R234; spec/23 R441). -/

namespace Sys2Proof.Machine

/-! ### Wakes (R104, R432) -/

/-- The page a request of HBM class lies in. -/
def Req.page (r : Req) : Option Nat := match r.cls with | .hbm va => some (va / 65536) | _ => none

/-- The overflow runs of a worklist that wait for a page are written, or can be read again, or the refusal freezes the launch (R162, R163). -/
def State.wakeRuns (s : State) (wl : Nat) (hit : Nat → Bool) (maps : Bool) : State :=
  match s.wl? wl with
  | none => s
  | some w =>
    let wait := w.runs.flatMap fun e => (e.2.filter fun r => match r.wait with | some p => hit p.1 | none => false).map fun r => (e.1, r)
    wait.foldl (fun s (e : Nat × OvRun) =>
      let setWait := fun (s : State) (v : Option (Nat × Bool)) => (s.updWl wl fun w => { w with runs := w.runs.map fun (t : Nat × List OvRun) =>
        if t.1 = e.1 then (t.1, t.2.map fun r => if r.at_ = e.2.at_ then { r with wait := v } else r) else t }).sendHead wl e.1
      if !maps then s.freeze w.launch .faulted 3
      else match e.2.wait with
        | some (_, true) =>
          (match s.vwrite e.1 w.asid (w.runVa e.1 e.2.at_) (runBytes e.2.items) 0 with
          | (.ok _, s) => setWait s none
          | (.pending home page, s) => setWait (s.faultRecord home w.asid (page * 65536) 1 (e.1 * 64) 0) (some (page, true))
          | (.wait, s) => s.after 1 (.pageWake ((e.2.wait.getD (0, true)).1 % 64) w.asid (e.2.wait.getD (0, true)).1 true)
          | (.fail _ _, s) => s.freeze w.launch .faulted 3
          | (.gone, s) => s.freeze w.launch .faulted 3)
        | _ => setWait s none) s

/-- The packages whose fault records a wake answers, for the pages `hit` picks: the page service has dealt with the records. -/
def State.answerFaults (s : State) (hit : BitVec 14 → Nat → Bool) (maps : Bool) : State :=
  let on := fun (f : FaultRec) => hit f.asid (f.va / 65536)
  let foreign := (s.homes.flatMap fun e => e.2.faults.filter fun f => on f && decide (32768 ≤ f.slot)).map fun f =>
    (f.slot / 32768 - 1, f.asid, f.va / 65536)
  let s := { s with homes := s.homes.map fun (e : Nat × Home) => (e.1, { e.2 with faults := e.2.faults.filter fun f => !on f }) }
  foreign.dedup.foldl (fun s e => s.post e.1 (.pageWake (foreignHome + 1 + s.own) e.2.1 e.2.2 maps)) s

/-- A wake for the units that wait for one of the pages `hit` picks: engines, launch records and rings (R104, R236, R414). -/
def State.wakeUnits (s : State) (hit : BitVec 14 → Nat → Bool) (maps : Bool) : State :=
  let parked := s.net.parks.filter fun p => hit p.asid p.page
  let s := s.updNet fun n => { n with parks := n.parks.filter fun p => !hit p.asid p.page }
  let s := parked.foldl (fun s p => s.unpark1 p maps) s
  let s := s.pkg.ctxs.foldl (fun s (e : Nat × Ctx) =>
    let asid := BitVec.ofNat 14 e.1
    match e.2.recWait with
    | some p => if hit asid p then (s.updCtx asid fun c => { c with recWait := none, recFail := !maps }).afterOnce 1 (.launchRecordWrite asid) else s
    | none => s) s
  s.host.rings.foldl (fun s (e : Nat × Ring) =>
    match e.2.parked with
    | some (_, _, asid, p) =>
      if hit (BitVec.ofNat 14 asid) p then
        (s.updHost fun h => { h with rings := h.rings.set e.1 { e.2 with refused := !maps } }).after 1 (.kickReread e.1)
      else s
    | none => s) s

/-- A wake, for the pages `hit` picks: what waits for one goes on, or takes the refusal with `code` (R104). A wake overtakes an answer "pending" that is
still on its way; one for a slot travels from the home (R448). -/
def State.wakePages (s : State) (hit : BitVec 14 → Nat → Bool) (maps : Bool) (code : Nat) : State :=
  let on := fun (r : Req) => match r.page with | some p => hit r.asid p | none => false
  let s := s.answerFaults hit maps
  let s := (s.net.reqs.filter fun e => e.2.stage == .reply && e.2.res == .pending && on e.2).foldl (fun s (e : Nat × Req) =>
    s.setReq { e.2 with tries := if maps then 1 else 2 + code }) s
  let s := (s.net.reqs.filter fun e => e.2.stage == .page && on e.2).foldl (fun s (e : Nat × Req) => s.sendWake e.2 maps code) s
  let s := s.pkg.wls.foldl (fun s (e : Nat × WorkList) => s.wakeRuns e.1 (hit e.2.asid) maps) s
  s.wakeUnits hit maps

/-- PAGE_WAKE (R104): the page service maps or refuses a page. A home number above `foreignHome` stands for the wake message of another package. -/
def execPageWake (home : Nat) (asid : BitVec 14) (vpn : Nat) (maps : Bool) (s : State) : Host.Outcome State Fault Refusal :=
  if home > foreignHome then
    let on := fun (r : Req) => r.stage == .page && r.asid == asid && (match r.cls with
      | .pod pkg va => decide (pkg = home - foreignHome - 1 ∧ va / 65536 = vpn)
      | _ => false)
    let s := (s.net.reqs.filter fun e => on e.2).foldl (fun s (e : Nat × Req) => s.wakeReq { e.2 with path := hopPkg, since := s.now } maps) s
    .next (s.wakeUnits (fun a p => a == asid && p == home * 4294967296 + vpn) maps)
  else .next (s.wakePages (fun a p => a == asid && p == vpn) maps 4)

/-! ### TLBI (R220) -/

/-- Whether a TLBI covers a span of pages of an ASID. -/
def TlbiOp.covers (t : TlbiOp) (asid : BitVec 14) (page n : Nat) : Bool :=
  t.kind == 2 || (t.asid == asid && (t.kind == 1 || (decide (t.first < page + n) && decide (page < t.first + t.count))))

/-- Whether an access translated by a covered entry has still to be performed at a home: it waits for a commit hold, or is a commit itself. -/
def State.tlbiWaits (s : State) (t : TlbiOp) (home : Nat) : Bool :=
  (s.net.reqs.any fun e => e.2.stage == .line && (match e.2.cls with
    | .hbm va => va / 65536 % 64 == home && t.covers e.2.asid (va / 65536) 1
    | _ => false)) ||
  s.net.holds.any fun h => decide (h.home < 64) && h.vline / 1024 % 64 == home && t.covers (s.slot h.slot).sc.asid (h.vline / 1024) 1

/-- TLBI_AT_HOME (R220): covered entries are invalidated and walks marked; once the accesses translated before have been performed, the home
acknowledges. -/
def execTlbiAtHome (home id : Nat) (s : State) : Host.Outcome State Fault Refusal :=
  match s.net.tlbis.find? fun t => t.id == id with
  | none => .next s
  | some t =>
    let s := if !(t.left.contains home) then s
      else
        let s := s.updNet fun n => { n with tlbis := n.tlbis.map fun (o : TlbiOp) => if o.id = id then { o with left := o.left.filter (· != home) } else o }
        s.updHome home fun h => { h with
          tlb := h.tlb.filter fun e => !(t.covers e.asid e.vpn (if e.large then 2048 else 1))
          walks := h.walks.map fun (w : Walk) => if t.covers w.asid w.vpn 1 && decide (w.began < s.now) then { w with marked := true } else w }
    if s.tlbiWaits t home then .next (s.after 1 (.tlbiAtHome home id))
    else .next (s.after (1 + hopDie (tileOf t.slot) (home / 16)) (.tlbiAck id))

/-! ### Frames: zeroing and sweeping (R103, R105) -/

/-- List a run of numbers. -/
def NatSet.addRange (s : NatSet) (lo n : Nat) : NatSet :=
  (s.filter fun k => decide (k < lo)) ++ (List.range n).map (lo + ·) ++ s.filter fun k => decide (lo + n ≤ k)

/-- Memory without the cells of `[lo, hi)`. -/
def Memory.outside (m : Memory) (lo hi : Nat) : Memory := m.filter fun c => !(decide (lo ≤ c.1) && decide (c.1 < hi))

/-- Set every line of a frame to the zero state. -/
def State.zeroFrame (s : State) (home f : Nat) : State :=
  let base := hbmByte (home * 8589934592 + f * 65536)
  { s with mem := s.mem.outside base (base + 65536), attrs := { s.attrs with zero := s.attrs.zero.addRange (base / 64) 1024 } }

/-- ZEROING_STEP (R103): while the pool is below POOLTGT, the first free frame is zeroed and joins the pool. -/
def execZeroingStep (home : Nat) (s : State) : Host.Outcome State Fault Refusal :=
  let h := s.home home
  match h.free with
  | [] => .next s
  | f :: rest =>
    if h.poolTgt.toNat ≤ h.pool.length then .next s
    else
      let s := (s.zeroFrame home f).updFrame (home * 131072 + f) fun _ => ⟨2, 0, 0⟩
      .next ((s.updHome home fun h => { h with free := rest, pool := h.pool ++ [f] }).afterOnce 64 (.zeroingStep home))

/-- SWEEPER_STEP (R105): the sweeper looks at the frame at its hand and moves on, RATE frames a microsecond; it pauses at the watermark. -/
def execSweeperStep (home : Nat) (s : State) : Host.Outcome State Fault Refusal :=
  let h := s.home home
  if !h.sweepEn || h.rate = 0 then .next s
  else if h.coldWm.toNat ≤ h.cold.length then .next (s.afterOnce 2400 (.sweeperStep home))
  else
    let f := h.hand
    let s := s.updHome home fun h => { h with hand := (f + 1) % 131072 }
    let e := s.frameEnt (home * 131072 + f)
    let s := if e.st ≠ 3 then s
      else
        let pte := s.readPte e.ptepa
        if pteA pte then
          (s.writePte e.ptepa (pteClear pte 3)).updHome home fun h => { h with tlb := h.tlb.filter fun t => !(t.pte == e.ptepa && t.asid == e.asid) }
        else
          (s.updFrame (home * 131072 + f) fun e => { e with st := 4 }).updHome home fun h => { h with cold := h.cold ++ [f] }
    .next (s.afterOnce (2400 / h.rate.toNat) (.sweeperStep home))

/-! ### Throttle (R441) -/

/-- THROTTLE_STEP (R441): DUTY follows the package power and the highest junction temperature, which are inputs. -/
def execThrottleStep (watts celsius : Nat) (s : State) : Host.Outcome State Fault Refusal :=
  let plim := Nat.min s.pkg.plim.toNat 2000
  let tlim := Nat.min s.pkg.tlim.toNat 105
  let d := s.pkg.duty.toNat
  if plim < watts ∨ tlim < celsius then
    .next (s.updPkg fun p => { p with duty := BitVec.ofNat 6 (Nat.min (d + 1) 56), steps := if d < 56 then p.steps + 1 else p.steps })
  else if watts + 100 < plim ∧ celsius + 5 < tlim then .next (s.updPkg fun p => { p with duty := BitVec.ofNat 6 (d - 1) })
  else .next s

/-! ### Errors (R234, Table 10.3) -/

/-- Clear a readiness bit for good (R431, R435). -/
def State.retireFunction (s : State) (bit : Nat) : State :=
  s.updPkg fun p => { p with ready := p.ready &&& ~~~(BitVec.ofNat 64 (2 ^ bit)), boot := { p.boot with reasons := p.boot.reasons.setIfInBounds bit 5 } }

/-- The pod requests that have had no reply from the port they left by are sent again, in the order of their numbers, on the next port in service (R424). -/
def State.resendAll (s : State) (port : Nat) : State :=
  let left := fun (unit pkg : Nat) => ((List.range 16).map fun i => (unit % 512 + pkg + i) % 16).find? fun p => p == port || s.isReady (32 + p)
  let out := (s.net.reqs.map (·.2)).filter fun r => r.sent != 0 && r.source.isNone && (match r.cls with
    | .pod pkg _ => left r.podUnit pkg == some port
    | _ => false)
  let stream := fun (r : Req) => (r.podUnit, match r.cls with | .pod pkg va => s.podKey r.tile r.asid pkg va | _ => 0)
  let rank := fun (r : Req) => (r.seqNo - BitVec.ofNat 32 ((s.podSeqs r.podUnit).getD (0, 0) (stream r).2).2).toNat
  let sorted := (out.map stream).dedup.flatMap fun k => (out.filter fun r => stream r == k).mergeSort fun a b => decide (rank a ≤ rank b)
  sorted.foldl (fun s r => ((s.setReq { r with sent := s.now + 1 }).podLeave r).after podTimeout (.podRequestTimeout r.id)) s

/-- The retirement of a source (Table 10.3). -/
def State.retireSrc (s : State) : ErrSrc → State
  | .sramLine t l => (s.updTile t fun x => { x with spared := x.spared.add l }).updBoot fun b => { b with spared := b.spared + 1 }
  | .sramBank t k => s.updTile t fun x => { x with retired := true, userTop := Nat.min x.userTop (Config.shrunkTop t k) }
  | .hbmLine h l =>
    let f := l / 1024 % 131072
    let st := (s.frameEnt (h * 131072 + f)).st
    if st = 6 then s
    else if st ≤ 2 then s.retireFrame h f
    else s.updHome h fun x => { x with lasting := if x.lasting.contains f then x.lasting else x.lasting ++ [f] }
  | .tileLogic t =>
    let s := s.updTile t fun x => { x with retired := true }
    let keys := ((s.tasks.filter fun e => match e.2.place with
      | .slot k => tileOf k == t
      | .saved u _ => u == t
      | _ => false).map fun e => e.2.launch).dedup
    keys.foldl (fun s key => s.freeze key .faulted 1) s
  | .ualPort p => (s.retireFunction (32 + p)).resendAll p
  | .uePort p => s.retireFunction (48 + p)

/-- The line an error poisons. -/
def errLine : ErrSrc → Option (Nat × Nat)
  | .sramLine t l => some (64 + t, l)
  | .hbmLine h l => some (h, l)
  | _ => none

/-- ERROR_EVENT (R234, R109): the fault window of the source counts the error; at the threshold the source is marked lasting and retired. An
uncorrectable error in a line poisons it; an error of a port is a link-level retransmission, which RETRY counts (Table 22.11). -/
def execErrorEvent (src : ErrSrc) (poisons : Bool) (s : State) : Host.Outcome State Fault Refusal :=
  let s := match errLine src with
    | some (h, l) => if poisons then s.setPoison h l true else s
    | none => s
  let retry := fun (s : State) (port : Nat) =>
    s.updHost fun h => { h with ports := h.ports.upd ⟨0, 0, 0, 0, 0, 0⟩ port fun (p : PortStat) => { p with retry := p.retry + 1 } }
  let s := match src with
    | .uePort p => retry s p
    | .ualPort p => retry s (16 + p)
    | _ => s
  let w := s.faultWin src
  let t := s.now / 2400
  let w : FaultWin := if w.count = 0 ∨ w.start + w.window ≤ t then { w with start := t, count := 0 } else w
  let w : FaultWin := { w with count := Nat.min (w.count + 1) 0xFFFF }
  let past := w.thresh != 0 && decide (w.thresh ≤ w.count)
  let w : FaultWin := if past then { w with lasting := true, count := 0 } else w
  let s := s.setFaultWin w
  .next (if past then s.retireSrc src else s)

end Sys2Proof.Machine
end

