-- ==== Sys2Proof/Machine/Port.lean ====
section
/-! DEFINITION. Requests between packages: what arrives at a UALink port, reply caches, resending and loss (spec/22_host_and_pod.md R422 to R427;
spec/09_tables.md R227, R229, R230; spec/07 R169). -/

namespace Sys2Proof.Machine

/-! ### What a request asks (Table 22.6, R422) -/

/-- An AMO operation by its code (Table 15.4). -/
def amoOf : Nat → Option AmoOp
  | 0 => some .add | 1 => some .and | 2 => some .or | 3 => some .xor | 4 => some .min | 5 => some .max | 6 => some .minn | 7 => some .maxn
  | 8 => some .swap | 9 => some .fadd
  | _ => none

/-- What a request does at its home. A compare-and-swap carries its new value and then the value it expects. -/
def podKind (p : PodReq) : Option ReqKind :=
  let fn := p.op.toNat
  match p.kind.toNat with
  | 0 => some .load
  | 1 => some .store
  | 2 =>
    match p.major.toNat with
    | 0x1A => (amoOf (fn % 32)).map ReqKind.amo
    | 0x1B => some (.cas (BitVec.ofNat 64 (leNat ((p.data.drop p.size).take p.size))))
    | 0x1C => (match fn % 32 with | 0 => some .ldr | 1 => some .stc | 2 => some .wrs | _ => none)
    | _ => none
  | 3 => (match fn with | 0 => some .ldf | 1 => some .ldff | 2 => some .ste | 3 => some .stef | 4 => some .feclr | 5 => some .feget | _ => none)
  | 4 => (amoOf (fn % 32)).map ReqKind.rupd
  | _ => none


/-! ### The reply cache (R230) -/

/-- Whether sequence number `a` precedes `b`, modulo 2^32 (R229). -/
def seqBefore (a b : W32) : Bool := a != b && decide ((b - a).toNat < 2147483648)

/-- A source slot after a request carrying ACKED: entries below it are freed. -/
def RcSource.ack (e : RcSource) (acked : W32) : RcSource :=
  let a := if seqBefore e.acked acked then acked else e.acked
  { acked := a, entries := e.entries.filter fun v => !seqBefore v.2.seq a }

/-- What the reply cache of a home says of a request. -/
inductive RcVerdict where
  | discard
  | saved (e : RcEntry)
  | busy
  | perform
  deriving DecidableEq, Repr

/-- Consult the reply cache of a home for a request: the source's ACKED is brought up to date first. -/
def Home.consult (h : Home) (p : PodReq) : RcVerdict × Home :=
  let src := podSource p
  let old := h.rc.getD ⟨p.acked, []⟩ src
  if seqBefore p.seq old.acked then (.discard, h)
  else
    let e := old.ack p.acked
    let live := h.rc.filter fun v => !v.2.entries.isEmpty || v.1 == src
    if (h.rc.get? src).isNone && decide (4096 ≤ live.length) && live.length == h.rc.length then (.busy, h)
    else
      let base : Map RcSource := if (h.rc.get? src).isNone && decide (4096 ≤ h.rc.length) then live else h.rc
      let h := { h with rc := base.set src e }
      match e.entries.get? (p.seq.toNat % 64) with
      | some v => if v.seq = p.seq then (.saved v, h) else (.perform, h)
      | none => (.perform, h)

/-! ### POD_REQUEST (R227, R423, R110) -/

/-- A request of another package as its home serves it: one line of it, of `n` bytes from `off` on, as part `lane` of the transfer `op`, or all of it. -/
def podPart (p : PodReq) (id op lane : Nat) (k : ReqKind) (c : Cls) (off n now : Nat) : Req where
  id := id
  slot := foreignSlot p.spkg.toNat p.slot
  ctx := p.ctx
  tid := 0
  op := op
  lane := lane
  tile := 0
  kind := k
  ptr := p.addr.setWidth 64 + BitVec.ofNat 64 off
  cls := c
  n := n
  mask := if k = .store then p.mask / 2 ^ off % 2 ^ n else 2 ^ n - 1
  data := (p.data.drop off).take n
  asid := p.asid
  tenant := p.tag
  watch := none
  path := 0
  since := now + 1
  flies := true
  stage := .travel
  res := .ok []
  home := homeOf c
  line := match c with | .sram _ off => off / 64 | .hbm va => va / 64 | .pod _ a => a / 64 | .control o => o / 64
  notices := 0
  tries := 0
  limit := p.limit.toNat
  parked := 0
  order := 0
  scopeOk := false
  firstTouch := false
  seqNo := p.seq
  sent := 0
  source := some p

/-- The class a request's address has in this package. -/
def State.podCls (s : State) (asid : BitVec 14) (va : Nat) : Cls :=
  let e := s.asidEnt asid
  localClass (if e.wv then some e.wbase else none) va

/-- The lines of a transfer of several: each is served as a request of its own, and the answer waits for all of them (R113, R122, R230). -/
def State.podLines (s : State) (p : PodReq) (k : ReqKind) (op : Nat) : List (Nat × Nat) → Nat → State
  | [], _ => s
  | (va, n) :: rest, lane =>
    let (id, s) := s.fresh
    let r := podPart p id op lane k (s.podCls p.asid va) (va - p.addr.toNat) n s.now
    State.podLines ((s.setReq r).after 1 r.arrive) p k op rest (lane + 1)

/-- A request that has passed the tenant check goes to its home. -/
def State.podAdmit (s : State) (p : PodReq) (k : ReqKind) : State :=
  let va := p.addr.toNat
  let c := s.podCls p.asid va
  let home := homeOf c
  let again := s.net.reqs.any fun r => match r.2.source with | some q => podSource q == podSource p && q.seq == p.seq && r.2.home == home | none => false
  let sram := decide (64 ≤ home)
  if again then s
  else match (s.home home).consult p with
    | (.discard, h) => s.updHome home fun _ => h
    | (.saved v, h) => (s.updHome home fun _ => h).sendAnswer p ⟨v.status, v.data, leBytes 8 v.data.toNat, BitVec.ofNat 16 (2 * hopPkg), sram⟩
    | (.busy, _) => s.sendAnswer p ⟨0x101, 0, [], 0, sram⟩
    | (.perform, h) =>
      let s := s.updHome home fun _ => h
      let (id, s) := s.fresh
      if 64 < va % 64 + p.size then s.podLines p k id (pieces (p.size / 64 + 2) va p.size) 0
      else
        let r := podPart p id 0 0 k c 0 p.size s.now
        (s.setReq r).after 1 r.arrive

/-- A collective or CTL message that has passed the tenant check (R81, R169, R220, R428). -/
def State.takeMsg (s : State) (p : PodReq) : PodMsg → State
  | .join key pos desc mask src => s.joinForeign p.spkg.toNat p.tag key pos desc mask src
  | .result key status bytes flags => s.takeResult key (status, bytes, flags)
  | .tlbi id kind asid first count =>
    let (own, s) := s.fresh
    s.startTlbi 0 ⟨own, 0, 0, kind, if kind = 2 then p.asid else asid, first, count, List.range 64, 64, none, [], some (p.spkg.toNat, id)⟩
  | .tlbiAck id => s.after 1 (.tlbiAck id)
  | .withdraw seq =>
    { s with net := { s.net with reqs := s.net.reqs.filter fun e => !(e.2.stage == .park && e.2.seqNo == seq && (match e.2.source with
      | some q => podSource q == podSource p
      | none => false)) } }
  | .lantern wl launch m => s.lanternArrives p.spkg.toNat wl p.asid launch m

/-- POD_REQUEST (R227): the receiving port checks the tenant; a request that fails is dropped and counted in REJ of its tag. -/
def execPodRequest (port : Nat) (r : PodReq) (s : State) : Host.Outcome State Fault Refusal :=
  if !(s.isReady (32 + port)) then .next s
  else if s.tenantOf? r.asid != some r.tag then
    let s := match s.pkg.tenants.get? r.tag.toNat with
      | some t => s.updPkg fun p => { p with tenants := p.tenants.set r.tag.toNat { t with rej := t.rej + 1 } }
      | none => s
    let s := s.updHost fun h => { h with ports := h.ports.upd ⟨0, 0, 0, 0, 0, 0⟩ (16 + port) fun (p : PortStat) => { p with tenrej := p.tenrej + 1 } }
    .next (if r.msg.isSome then s else s.sendAnswer r ⟨causeTenant, 0, [], BitVec.ofNat 16 (2 * hopPkg), false⟩)
  else match r.msg with
    | some m => .next (s.takeMsg r m)
    | none => (match podKind r with
      | some k => .next (s.podAdmit r k)
      | none => .next s)

/-! ### Resending and loss (R424, R425, R169) -/

/-- BUSY_RESEND (R424): a request that was answered BUSY is sent again with its sequence number. -/
def execBusyResend (req : Nat) (s : State) : Host.Outcome State Fault Refusal :=
  match s.req? req with
  | none => .next s
  | some r =>
    if r.sent = 0 || r.stage != .travel then .next s
    else .next (((s.setReq { r with sent := s.now + 1 }).podLeave r).after podTimeout (.podRequestTimeout req))

/-- The watchers of a package are gone: their buoys leave the tables, and nothing waits for a notice sent there. DESIGN CHOICE (log 5). -/
def State.loseWatchers (s : State) (pkg : Nat) : State :=
  let kept := fun (l : List Buoy) => l.filter fun b => b.slot / 32768 != pkg + 1
  let s := { s with
    homes := s.homes.map fun (e : Nat × Home) => (e.1, { e.2 with buoys := kept e.2.buoys })
    tiles := s.tiles.map fun (e : Nat × Tile) => (e.1, { e.2 with buoys := kept e.2.buoys }) }
  (s.net.away.filter fun a => a.pkg == pkg).foldl State.dropAway s

/-- The worklists that span a package freeze, with reason LOST (R169, R184); those it keeps are closed here. What is asked of it is not answered. -/
def State.losePackage (s : State) (pkg : Nat) : State :=
  let spans := s.pkg.wls.filter fun e => !e.2.closed && e.2.pkgs.contains pkg && decide (1 < e.2.pkgs.length)
  let s := s.updPkg fun p => { p with openings := (p.openings.filter fun o => o.by_ != 65536 + pkg).map fun o =>
    { o with left := o.left.filter (· != pkg), taken := o.taken.filter (· != pkg) } }
  spans.foldl (fun s (e : Nat × WorkList) =>
    if e.2.home = s.own then s.freeze e.2.launch .faulted 4 else if e.2.home = pkg then s.closeHere e.1 true else s) (s.loseWatchers pkg)

/-- POD_REQUEST_TIMEOUT (R425): a request that has had no reply 10 ms after its last sending fails, and the worklists that span the package freeze. -/
def execPodRequestTimeout (req : Nat) (s : State) : Host.Outcome State Fault Refusal :=
  match s.req? req with
  | none => .next s
  | some r =>
    match r.cls with
    | .pod pkg _ =>
      if r.sent = 0 || r.stage != .travel || decide (s.now + 1 < r.sent + podTimeout) then .next s
      else
        let s := s.losePackage pkg
        let r := { r with sent := 0 }
        if r.lane ≥ 100 then .next (s.setReq { r with stage := .done, res := .fail causeAddr 4 })
        else if r.kind.isUpdate then .next (s.refuseUpdate r causeAddr 4)
        else if r.kind == .fetch then .next (s.within r.slot fun s => s.failFetch r causeAddr 4)
        else .next (s.within r.slot fun s => if s.mine r then s.elementDone r (.fail causeAddr 4) else s.delReq req)
    | _ => .next s

/-- PACKAGE_LEAVES_POD (R169). -/
def execPackageLeavesPod (pkg : Nat) (s : State) : Host.Outcome State Fault Refusal := .next (s.losePackage pkg)

end Sys2Proof.Machine
end

