-- ==== Sys2Proof/Machine/Rings.lean ====
section
/-! DEFINITION. Command rings: RMA messages, kicks, records, completions, and what every host command has in common
(spec/22_host_and_pod.md R408 to R416, R418). -/

/-! ### Command records (Table 22.3) -/

namespace Sys2Proof

/-- SEQ. -/
def Cmd.seq (c : Cmd) : W32 := (c.words.getD 0 0).extractLsb' 0 32
/-- OPC. -/
def Cmd.opc (c : Cmd) : Nat := ((c.words.getD 0 0).extractLsb' 32 16).toNat
/-- ASID. -/
def Cmd.asid (c : Cmd) : BitVec 14 := (c.words.getD 1 0).extractLsb' 32 14
/-- HTAG. -/
def Cmd.htag (c : Cmd) : W64 := c.words.getD 2 0
/-- ARG0 to ARG12. -/
def Cmd.arg (c : Cmd) (k : Nat) : W64 := c.words.getD (3 + k) 0
/-- A bit field of an operand. -/
def Cmd.field (c : Cmd) (k lo n : Nat) : Nat := (c.arg k).toNat / 2 ^ lo % 2 ^ n

end Sys2Proof

namespace Sys2Proof.Machine

/-- A command record as sixteen words. -/
def cmdOf (ring : Nat) (b : List Byte) : Cmd := ⟨ring, Vector.ofFn fun k => BitVec.ofNat 64 (leNat ((b.drop (8 * k.val)).take 8))⟩

/-! ### Physical accesses of the command processor -/

/-- Split a span of physical HBM bytes at line boundaries: (address, bytes). -/
def physPieces : Nat → Nat → Nat → List (Nat × Nat)
  | 0, _, _ => []
  | f + 1, pa, n => if n = 0 then [] else
    let k := Nat.min n (64 - pa % 64)
    (pa, k) :: physPieces f (pa + k) (n - k)

/-- Read physical HBM bytes, which are plaintext (R98, R411). A home that starts answers pending, one that failed fails (R432). -/
def State.physRead (s : State) (pa n : Nat) : Acc1 (List Byte) :=
  (physPieces (n / 64 + 2) pa n).foldl (fun (acc : Acc1 (List Byte)) p =>
    match acc with
    | .ok b =>
      let h := p.1 / 2 ^ 33
      if h ≥ 64 then .fail causeAddr 2
      else if s.stackDown h then .fail causeXlate 5
      else if s.stackStarts h then .pending h h
      else if s.poisoned h (p.1 % 2 ^ 33 / 64) then .fail causePoison 0
      else .ok (b ++ s.readHome h (p.1 % 2 ^ 33) p.2 none)
    | e => e) (.ok [])

/-- Write physical HBM bytes as plaintext, line by line; watchers are notified. -/
def State.physWrite (s : State) (pa : Nat) (b : List Byte) : State :=
  (physPieces (b.length / 64 + 2) pa b.length).foldl (fun s p =>
    (s.performWrite (p.1 / 2 ^ 33) (p.1 % 2 ^ 33 / 64) none ((2 ^ p.2 - 1) * 2 ^ (p.1 % 64))
      (List.replicate (p.1 % 64) 0 ++ (b.drop (p.1 - pa)).take p.2) 0 none).2) s

/-! ### RMA messages -/

/-- Count at a port (Table 22.11). -/
def State.countPort (s : State) (port : Nat) (f : PortStat → PortStat) : State :=
  s.updHost fun h => { h with ports := h.ports.upd ⟨0, 0, 0, 0, 0, 0⟩ port f }

/-- Send an RMA write to the host (R408). -/
def State.sendRma (s : State) (addr : W64) (key : W32) (b : List Byte) (why : RmaWhy) : State :=
  let (id, s) := s.fresh
  s.updHost fun h => { h with sent := h.sent ++ [⟨id, addr, key, b, why, false⟩] }

/-- Whether a physical byte lies in a registered region: an open ring or a staging region (R409). -/
def State.registered (s : State) (pa : Nat) : Bool :=
  (s.host.rings.any fun e => e.2.open_ && decide (e.2.base.toNat ≤ pa ∧ pa < e.2.base.toNat + 128 * 2 ^ e.2.logn)) ||
    s.pkg.ctxs.any fun e => !e.2.dying && decide (e.2.staging ≤ pa ∧ pa < e.2.staging + e.2.stagingSz)

/-- The slots of the open rings that a span covers whole. -/
def State.coveredSlots (s : State) (pa n : Nat) : List (Nat × Nat) :=
  s.host.rings.flatMap fun (e : Nat × Ring) =>
    if e.2.open_ then
      ((List.range (2 ^ e.2.logn)).filter fun k =>
        decide (pa ≤ e.2.base.toNat + 128 * k ∧ e.2.base.toNat + 128 * (k + 1) ≤ pa + n)).map fun k => (e.1, k)
    else []

/-- RMA_WRITE (R408, R409, R411): a message of up to 4 MiB that lies in registered regions is performed and sets the landed bits of the slots it covers
whole; any other is dropped and counted. -/
def execRmaWrite (port pa : Nat) (bytes : List Byte) (s : State) : Host.Outcome State Fault Refusal :=
  if !(s.isReady (48 + port)) then .next s
  else if 4194304 < bytes.length || !((List.range bytes.length).all fun k => s.registered (pa + k)) then
    .next (s.countPort port fun p => { p with rmadrop := p.rmadrop + 1 })
  else
    let new := s.coveredSlots pa bytes.length
    let s := (s.physWrite pa bytes).countPort port fun p => { p with rmaok := p.rmaok + 1 }
    .next (s.updHost fun h => { h with landed := h.landed ++ new.filter fun k => !h.landed.contains k })

/-! ### Rings (R410 to R415) -/

/-- The control block of one of the 16 command rings (R410). -/
def State.ring? (s : State) (r : Nat) : Option Ring := if r < 16 then some (s.host.rings.getD Ring.reset r) else none

/-- Replace a ring. -/
def State.setRing (s : State) (n : Nat) (r : Ring) : State := s.updHost fun h => { h with rings := h.rings.set n r }

/-- Send the completion of a sequence number (R415). -/
def State.sendCqe (s : State) (n : Nat) (r : Ring) (seq : W32) (code sub : Nat) (htag value : W64) : State :=
  let w0 := seq.toNat + n * 2 ^ 32 + code * 2 ^ 40 + sub % 256 * 2 ^ 48
  s.sendRma (r.cqaddr + BitVec.ofNat 64 (32 * (seq.toNat % 2 ^ r.cqlogn))) r.cqkey
    (leBytes 8 w0 ++ leBytes 8 htag.toNat ++ leBytes 8 value.toNat ++ leBytes 8 0) .completion

/-- A ring with records left is looked at again. -/
def State.serveRing (s : State) (n : Nat) (delay : Nat) : State :=
  match s.ring? n with
  | some r => if r.open_ && r.next != r.tail then s.afterOnce delay (.kickReread n) else s
  | none => s

/-- A command completes (R413, R415): NEXT moves on, and code and value are kept for a failover (R421). -/
def State.finishCmd (s : State) (c : Cmd) (code sub : Nat) (value : W64) : State :=
  match s.ring? c.ring with
  | none => s
  | some r =>
    let s := s.sendCqe c.ring r c.seq code sub c.htag value
    let s := s.setRing c.ring { r with next := c.seq + 1, ran := true, code := code, sub := sub, value := value, htag := c.htag, parked := none,
                                       refused := false, open_ := r.open_ && !r.closing, closing := false, put := 0 }
    let s := s.updHost fun h => { h with exec := if h.exec = some c.ring then none else h.exec }
    s.serveRing c.ring 1

/-- The command an OPC, and for DEBUG a sub-command, names (Tables 22.5, 23.4). -/
def cmdEvent (c : Cmd) : Option Event :=
  match c.opc with
  | 0x01 => some (.ringOpen c) | 0x02 => some (.ringClose c) | 0x03 => some (.ctxCreate c) | 0x04 => some (.ctxDestroy c)
  | 0x05 => some (.keySet c) | 0x06 => some (.map c) | 0x07 => some (.unmap c) | 0x08 => some (.launch c)
  | 0x09 => some (.abort c) | 0x0A => some (.copyIn c) | 0x0B => some (.copyOut c) | 0x0C => some (.query c)
  | 0x0D => some (.reset c) | 0x0E => some (.attest c) | 0x10 => some (.ctxSstate c) | 0x11 => some (.lrecFree c)
  | 0x0F => (match c.field 0 0 8 with
    | 0 => some (.debugHalt c) | 1 => some (.debugResume c) | 2 => some (.debugStop c) | 3 => some (.debugGroup c) | 4 => some (.debugRun c)
    | 5 => some (.debugStep c) | 6 => some (.bpset c) | 7 => some (.bpclr c) | 8 => some (.debugRead c) | 9 => some (.debugWrite c)
    | 10 => some (.sample c)
    | _ => none)
  | _ => none

/-- Whether a copied record is record `seq`, whole (R413). -/
def recordOk (seq : W32) (b : List Byte) : Bool :=
  leNat (b.take 4) == seq.toNat && leNat ((b.drop 8).take 4) == (crc32c (b.take 8 ++ [0, 0, 0, 0] ++ b.drop 12)).toNat

/-- Whether a ring has something to run in its next turn: a record it has not taken yet and does not wait to read again, or a parked command that its page's
wake lets go on (R413, R414). -/
def State.ringWants (s : State) (k : Nat) : Bool :=
  let due := s.net.pend.any fun p => decide (p.due ≤ s.now) && p.ev == .kickReread k
  match s.ring? k with
  | none => false
  | some r => if r.parked.isSome then due && !r.refused else r.open_ && r.next != r.tail && r.done != r.next && (r.tries == 0 || due)

/-- Whether ring `n` comes first, in cyclic order after the ring served last, among the rings that have something to run (R414). DESIGN CHOICE (log 22). -/
def State.firstServed (s : State) (n : Nat) : Bool :=
  let dist := fun (k : Nat) => (k + 16 - s.host.turn % 16 + 15) % 16
  (List.range 16).all fun k => !(s.ringWants k) || decide (dist n ≤ dist k)

/-- A copied record is run (R413): DONE becomes its number, and the command is carried out. -/
def State.runRecord (s : State) (n : Nat) (r : Ring) (c : Cmd) : State :=
  let s := s.setRing n { r with done := r.next, tries := 0 }
  let s := s.updHost fun h => { h with turn := n }
  match cmdEvent c with
  | none => s.finishCmd c 3 0 0
  | some e => (s.updHost fun h => { h with exec := some n }).after 1 e

/-- Read the next record of a ring, clearing its landed bit (R411, R413). -/
def State.readRecord (s : State) (n : Nat) (r : Ring) : State :=
  let k := r.next.toNat % 2 ^ r.logn
  let landed := s.host.landed.contains (n, k)
  let s := s.updHost fun h => { h with landed := h.landed.filter (· != (n, k)) }
  match s.physRead (r.base.toNat + 128 * k) 128 with
  | .ok b =>
    if landed && recordOk r.next b then s.runRecord n r (cmdOf n b)
    else again s
  | _ => again s
where
  /-- The record is not valid yet: it is read again after 1 µs, at most 64 times. -/
  again (s : State) : State :=
    if r.tries = 64 then (s.sendCqe n r r.next 1 0 0 0).setRing n { r with tail := r.next, tries := 0 }
    else (s.setRing n { r with tries := r.tries + 1 }).after 2400 (.kickReread n)

/-- KICK_REREAD (R413, R414): the command processor looks at a ring: a command whose page has been woken goes on or fails, a ring that has records
left reads the next one. -/
def execKickReread (ring : Nat) (s : State) : Host.Outcome State Fault Refusal :=
  match s.ring? ring with
  | none => .next s
  | some r =>
    match r.parked with
    | some (c, _) =>
      if r.refused then .next (s.finishCmd c 6 6 0)
      else if s.host.exec.isSome || !s.firstServed ring then .next (s.afterOnce 1 (.kickReread ring))
      else match cmdEvent c with
        | some e => .next (((s.setRing ring { r with parked := none }).updHost fun h => { h with exec := some ring, turn := ring }).after 1 e)
        | none => .next (s.finishCmd c 3 0 0)
    | none =>
      if !r.open_ || r.next == r.tail || r.done == r.next then .next s
      else if s.host.exec.isSome || !s.firstServed ring then .next (s.afterOnce 1 (.kickReread ring))
      else .next (s.readRecord ring r)

/-- KICK (R412, R413): an accepted kick raises the tail. -/
def execKick (port : Nat) (src : W64) (msg : BitVec 128) (s : State) : Host.Outcome State Fault Refusal :=
  let n := (msg.extractLsb' 0 4).toNat
  let t := msg.extractLsb' 32 32
  let drop := s.countPort port fun p => { p with kickdrop := p.kickdrop + 1 }
  match s.ring? n with
  | none => .next drop
  | some r =>
    if !r.open_ || r.src != src || msg.extractLsb' 4 28 != 0 || msg.extractLsb' 64 64 != 0 || !(s.isReady (48 + port)) then .next drop
    else
      let s := s.countPort port fun p => { p with kickok := p.kickok + 1 }
      let d := fun (x : W32) => (x - r.next).toNat
      if 2 ^ r.logn < d t then .next (s.sendCqe n r r.next 2 0 0 0)
      else
        let s := if d r.tail < d t then s.setRing n { r with tail := t } else s
        .next (if r.parked.isSome then s else s.serveRing n 1)

/-! ### What every command has in common (R415, R416, R418) -/

/-- What a command comes to: it completes; it is parked on a page; it is tried again after a while; it completes by a later event. -/
inductive CmdRes where
  | done (s : State) (code sub : Nat) (value : W64)
  | park (s : State) (home asid page : Nat)
  | wait (s : State) (delay : Nat)
  | later (s : State)

/-- The operand bits each command names (Table 22.9), word by word; words beyond the list are zero. -/
def cmdBits (opc : Nat) : List Nat :=
  let all := 2 ^ 64 - 1
  let lo := fun (n : Nat) => 2 ^ n - 1
  let at_ := fun (p n : Nat) => (2 ^ n - 1) * 2 ^ p
  match opc with
  | 0x01 => [lo 4, lo 39 + at_ 40 4, lo 16, all, all, lo 36]
  | 0x02 => [lo 4]
  | 0x03 => [lo 24, at_ 13 26, lo 19 + at_ 31 17, lo 39, all, all, lo 37, all, lo 39]
  | 0x05 => [lo 13 + at_ 32 1, lo 16, all, all, all, all, all, all, all, all]
  | 0x06 => [lo 48, lo 33, lo 33, lo 3 + at_ 8 13]
  | 0x07 => [lo 48, lo 33]
  | 0x08 => [lo 48, lo 48, lo 16]
  | 0x09 => [lo 32]
  | 0x0A => [all, lo 48, all]
  | 0x0B => [lo 48, all, all, lo 32]
  | 0x0C => [lo 8 + at_ 16 32, all, lo 32]
  | 0x0D => [lo 54]
  | 0x0E => [all, all, all, all, all, all, all, all, all, lo 32]
  | 0x10 => [lo 39]
  | 0x11 => [all]
  | _ => []

/-- The operand bits of the DEBUG sub-commands (Table 23.4). -/
def debugBits (sub : Nat) : List Nat :=
  let all := 2 ^ 64 - 1
  let lo := fun (n : Nat) => 2 ^ n - 1
  match sub with
  | 2 | 5 => [lo 8, all]
  | 3 => [lo 8, lo 32]
  | 4 => [lo 8, all, 1]
  | 6 => [lo 8, lo 6, lo 14, lo 48, all]
  | 7 => [lo 8, lo 6]
  | 8 => [lo 8, all, all, lo 32]
  | 9 => [lo 8, all, all, all]
  | 10 => [lo 8, all, all, all, lo 32]
  | _ => [lo 8]

/-- Whether every bit a command does not name is zero. `asid` says whether its ASID field is named. -/
def cmdClean (c : Cmd) (bits : List Nat) (asid : Bool) : Bool :=
  decide (c.words.getD 0 0 < 2 ^ 48) && decide ((c.words.getD 1 0).toNat < 2 ^ 46) && (asid || c.asid == 0) &&
    (List.range 13).all fun k => (c.arg k) &&& ~~~(BitVec.ofNat 64 (bits.getD k 0)) == 0

/-- Whether a ring may act on an ASID: ring 0 on every one, another on those of its owner (Table 22.4). -/
def State.ringOwns (s : State) (ring : Nat) (asid : BitVec 14) : Bool :=
  ring == 0 || (match s.ring? ring with | some r => s.tenantOf? asid == some r.owner | none => false)

/-- The mark of the requests that a ring's command has at another package. -/
def ringLane (ring : Nat) : Nat := 600 + ring

/-- Forget the answers that a unit has had from other packages. -/
def State.unitEnd (s : State) (lane : Nat) (asid : BitVec 14) : State :=
  (s.net.reqs.filter fun e => e.2.op == 0 && e.2.lane == lane && e.2.asid == asid).foldl (fun s (e : Nat × Req) => s.delReq e.1) s

/-- The tile from which a context's accesses by the command processor leave: the first of its window. DESIGN CHOICE (log 99). -/
def State.podTile (s : State) (asid : BitVec 14) : Nat := ((s.ctx? asid).map (·.first)).getD 0

/-- Ask another package for a piece of an access of a unit, or take its answer; a pending page there is asked again after its wake (R89, R104). -/
def State.unitAsk (s : State) (lane : Nat) (asid : BitVec 14) (kind : ReqKind) (va n pkg a : Nat) (data : List Byte) : Acc1 (List Byte) × State :=
  let tile := s.podTile asid
  if !s.pkg.members.contains pkg then (.fail causeAddr 5, s)
  else match (s.podReqs tile lane).find? fun r => r.asid == asid && r.ptr == BitVec.ofNat 64 va with
    | some r =>
      if r.stage != .done then (.wait, s)
      else (match r.res with
        | .ok d => (.ok d, s)
        | .fail c k => (.fail c k, s)
        | .pending => (.pending (foreignHome + 1 + pkg) (podPage pkg a), s.delReq r.id))
    | none =>
      let (id, s) := s.fresh
      (.wait, s.sendReq { engineReq id (tile * 64) 0 0 asid lane tile (BitVec.ofNat 64 va) (.pod pkg a) s.now with
        kind := kind, n := n, mask := lowMask n, data := data, tenant := (s.asidEnt asid).tenant, order := id })

/-- Read pieces of memory of an ASID for the command processor, with the checks of R110; those of another package are asked for one after another. -/
def State.unitRead (s : State) (lane : Nat) (asid : BitVec 14) : List (Nat × Nat) → List Byte → Acc1 (List Byte) × State
  | [], acc => (.ok acc, s)
  | (va, n) :: rest, acc =>
    match (match s.classify (s.podTile asid) asid .s va with
      | .pod pkg a => s.unitAsk lane asid .load va n pkg a []
      | _ => s.vread1 (s.podTile asid) asid va n) with
    | (.ok b, s) => s.unitRead lane asid rest (acc ++ b)
    | r => r

/-- Write pieces of memory of an ASID for the command processor; `k` counts the bytes written. -/
def State.unitWrite (s : State) (lane : Nat) (asid : BitVec 14) : List (Nat × Nat) → List Byte → Nat → (Acc1 Unit × Nat) × State
  | [], _, k => ((.ok (), k), s)
  | (va, n) :: rest, data, k =>
    match s.classify (s.podTile asid) asid .s va with
    | .pod pkg a =>
      (match s.unitAsk lane asid .store va n pkg a (data.take n) with
      | (.ok _, s) => s.unitWrite lane asid rest (data.drop n) (k + n)
      | (.wait, s) => ((.wait, k), s)
      | (.pending h p, s) => ((.pending h p, k), s)
      | (.fail c d, s) => ((.fail c d, k), s)
      | (.gone, s) => ((.gone, k), s))
    | _ =>
      match s.vwrite1 (s.podTile asid) asid va (data.take n) 0 with
      | (.ok _, s) => s.unitWrite lane asid rest (data.drop n) (k + n)
      | (.wait, s) => ((.wait, k), s)
      | (.pending h p, s) => ((.pending h p, k), s)
      | (.fail c d, s) => ((.fail c d, k), s)
      | (.gone, s) => ((.gone, k), s)

/-- The fault record of a page that a unit's access has met pending: its home writes it, here or in another package. -/
def State.unitFault (s : State) (home : Nat) (asid : BitVec 14) (page : Nat) (write : Bool) : State :=
  if foreignHome < home then s else s.faultRecord home asid (page * 65536) (if write then 1 else 0) 0 0

/-- Carry out a command that has passed its checks. -/
def State.conclude_ (s : State) (c : Cmd) (e : Event) : CmdRes → State
  | .done s code sub v => (s.unitEnd (ringLane c.ring) c.asid).finishCmd c code sub v
  | .park s' home asid page =>
    match s'.ring? c.ring with
    | some r =>
      let s' := s'.setRing c.ring { r with parked := some (c, home, asid, page), refused := false }
      s'.updHost fun h => { h with exec := if h.exec = some c.ring then none else h.exec }
    | none => s
  | .wait s' d => s'.after d e
  | .later s' => s'.unitEnd (ringLane c.ring) c.asid

/-- Run a host command: reserved bits (BAD_REC), the context it names (REFUSED, SUB 3), the ring it may come on (DENIED), then its body. DEDUCED (log 60). -/
def hostCmd (c : Cmd) (e : Event) (s : State) (ok : Bool) (ring0 asid : Bool) (body : State → CmdRes) : Host.Outcome State Fault Refusal :=
  if (s.ring? c.ring).isNone then .next s
  else if !ok then .next (s.finishCmd c 3 0 0)
  else if asid && (s.tenantOf? c.asid).isNone then .next (s.finishCmd c 5 3 0)
  else if ring0 && c.ring != 0 then .next (s.finishCmd c 4 0 0)
  else if asid && !s.ringOwns c.ring c.asid then .next (s.finishCmd c 4 0 0)
  else .next (s.conclude_ c e (body s))

/-- A failed access of a command: FAULT with the status of Table 8.8. -/
def cmdFault (s : State) (cause : Nat) : CmdRes := .done s 6 (engStatus cause) 0

end Sys2Proof.Machine
end

