-- ==== Sys2Proof/Machine/Host.lean ====
section
/-! DEFINITION. Host commands on rings, contexts, keys, pages, launches and data, the completion of a TLBI, and launch records
(spec/22_host_and_pod.md R416 to R420; spec/10_counters.md R235 to R237; spec/09 R220; spec/23 R440). -/

namespace Sys2Proof.Machine

/-! ### Rings (Table 22.9) -/

/-- RING_OPEN (R410): a ring that is not open starts with NEXT 0 and DONE all ones. -/
def execRingOpen (c : Cmd) (s : State) : Host.Outcome State Fault Refusal :=
  let logn := c.field 1 40 4
  let cq := c.field 5 32 4
  let base := c.field 1 0 39
  let ok := cmdClean c (cmdBits 0x01) false && c.field 0 0 4 != 0 && decide (4 ≤ logn ∧ logn ≤ 12) && decide (4 ≤ cq ∧ cq ≤ 12) && base % 4096 == 0
  hostCmd c (.ringOpen c) s ok true false fun s =>
    let r : Ring := {
      base := BitVec.ofNat 39 base, logn := logn, owner := (c.arg 2).extractLsb' 0 16, open_ := true, next := 0, done := 0xFFFFFFFF, src := c.arg 3,
      cqaddr := c.arg 4, cqkey := (c.arg 5).extractLsb' 0 32, cqlogn := cq, tail := 0, tries := 0, ran := false, code := 0, sub := 0, value := 0,
      htag := 0, parked := none, refused := false, closing := false, put := 0 }
    .done ((s.setRing (c.field 0 0 4) r).updHost fun h => { h with landed := h.landed.filter fun k => k.1 != c.field 0 0 4 }) 0 0 0

/-- RING_CLOSE (R416): the ring closes after its current command. -/
def execRingClose (c : Cmd) (s : State) : Host.Outcome State Fault Refusal :=
  hostCmd c (.ringClose c) s (cmdClean c (cmdBits 0x02) false) true false fun s =>
    let n := c.field 0 0 4
    match s.ring? n with
    | none => .done s 0 0 0
    | some r =>
      if n = c.ring ∨ r.parked.isSome then .done (s.setRing n { r with closing := true }) 0 0 0
      else .done (s.setRing n { r with open_ := false }) 0 0 0

/-! ### Contexts (R91, R416 to R418) -/

/-- Read an S-state block: `none` where it breaks R417. -/
def sstateOf (b : List Byte) : Option SState :=
  let w := fun (k : Nat) => leNat ((b.drop (8 * k)).take 8)
  let bad := decide (2 ^ 48 ≤ w 0) || decide (2 ^ 48 ≤ w 1) || decide (2 ^ 48 ≤ w 2) || decide (2 ^ 32 ≤ w 3) || decide (w 0 % 4 ≠ 0) || decide (w 1 % 4 ≠ 0) ||
    decide (w 2 % 4 ≠ 0) || decide (w 2 < w 1) || decide (2 ^ 29 ≤ w 5) || decide (w 5 / 2 ^ 9 % 2 ^ 7 ≠ 0) || decide (w 6 ≠ 0) || decide (w 7 ≠ 0)
  if bad then none
  else some { stvec := BitVec.ofNat 48 (w 0), mscodeb := BitVec.ofNat 48 (w 1), mscodel := BitVec.ofNat 48 (w 2), mdeleg := BitVec.ofNat 32 (w 3),
              sscratch := BitVec.ofNat 64 (w 4), wsmax := BitVec.ofNat 9 (w 5), rsmax := BitVec.ofNat 13 (w 5 / 2 ^ 16) }

/-- Go on with the S-state block at a physical address. -/
def State.withSstate (s : State) (pa : Nat) (f : SState → CmdRes) : CmdRes :=
  match s.physRead pa 64 with
  | .ok b => (match sstateOf b with | some x => f x | none => .done s 3 0 0)
  | .pending home page => .park s home 0 page
  | .wait => .wait s 1
  | .fail cause _ => cmdFault s cause
  | .gone => cmdFault s causeAddr

/-- CTX_CREATE (R91, R226, R417, R418, R432). -/
def execCtxCreate (c : Cmd) (s : State) : Host.Outcome State Fault Refusal :=
  let first := c.field 2 0 9
  let last := c.field 2 9 9
  let logn := c.field 6 32 5
  let ok := cmdClean c (cmdBits 0x03) true && decide (first ≤ last) && decide (4 ≤ logn ∧ logn ≤ 16)
  hostCmd c (.ctxCreate c) s ok true false fun s =>
    let tiles := (List.range (last + 1 - first)).map (first + ·)
    let tag : BitVec 16 := (c.arg 0).extractLsb' 0 16
    let base : BitVec 17 := (c.arg 2).extractLsb' 31 17
    if (s.tenantOf? c.asid).isSome then .done s 5 4 0
    else if tiles.any fun t => !(s.isReady (4 + quadOf t)) || (s.tile t).retired || (s.tile t).windows.any (·.scrub) then .done s 5 1 0
    else if tiles.any fun t => decide (16 ≤ (s.tile t).windows.length) then .done s 7 0 0
    else if (s.pkg.tenants.get? tag.toNat).isNone && decide (4096 ≤ s.pkg.tenants.length) then .done s 7 0 0
    else s.withSstate (c.field 8 0 39) fun ss =>
      let s := tiles.foldl (fun s t => s.updTile t fun x => { x with windows := x.windows ++ [⟨c.asid, base, first, last, (c.arg 2).getLsbD 18, false⟩] }) s
      let ctx : Ctx := {
        first := first, last := last, wok := true, base := base, staging := c.field 3 0 39, stagingSz := (c.arg 4).toNat, ringAddr := c.arg 5,
        ringKey := (c.arg 6).extractLsb' 0 32, ringLogn := logn, headAddr := c.arg 7, rseq := 0, tail := 0, waiting := [], recWait := none, recFail := false,
        records := [], sstate := ss, dying := false, ender := none }
      .done (s.updPkg fun p => { p with
        asids := p.asids.set c.asid.toNat ⟨tag, (c.arg 1).extractLsb' 13 26, (c.arg 0).extractLsb' 16 8, true, base⟩
        ctxs := p.ctxs.set c.asid.toNat ctx
        tenants := if (p.tenants.get? tag.toNat).isSome then p.tenants else p.tenants.set tag.toNat ⟨0, 0⟩ }) 0 0 0

/-- CTX_SSTATE (R417). -/
def execCtxSstate (c : Cmd) (s : State) : Host.Outcome State Fault Refusal :=
  hostCmd c (.ctxSstate c) s (cmdClean c (cmdBits 0x10) true) true true fun s =>
    s.withSstate (c.field 0 0 39) fun ss => .done (s.updCtx c.asid fun x => { x with sstate := ss }) 0 0 0

/-- What of an ASID still runs: tasks and copies. -/
def State.ctxRuns (s : State) (asid : BitVec 14) : Bool :=
  (s.tasks.any fun e => e.2.asid == asid) ||
    s.cores.any fun e => (e.2.q2.any fun k => k.asid == asid) || (match e.2.run2 with | some r => r.cmd.asid == asid | none => false)

/-- Whether the next launch record of a context finds room in its ring (R237). -/
def Ctx.room (c : Ctx) : Bool := decide (c.rseq < c.tail + 2 ^ c.ringLogn)

/-- CTX_DESTROY (R416): every launch is Cancelled; when its tasks have gone and the records that find room are written, the TLBI of the ASID goes
out. -/
def execCtxDestroy (c : Cmd) (s : State) : Host.Outcome State Fault Refusal :=
  hostCmd c (.ctxDestroy c) s (cmdClean c (cmdBits 0x04) true) true true fun s =>
    let live := (s.pkg.launches.filter fun e => e.2.away.isNone && e.2.h.asid == c.asid && !e.2.st.final).map (·.1)
    let s := live.foldl (fun s id => s.freeze id .cancelled 7) s
    let s := s.updCtx c.asid fun x => { x with dying := true }
    let records := match s.ctx? c.asid with | some x => !x.waiting.isEmpty && x.room | none => false
    if s.ctxRuns c.asid || records then .wait s 16
    else .later (s.sendTlbi 0 0 0 1 c.asid 0 0 (some c) [])

/-- The rest of CTX_DESTROY, once the TLBI has completed: scrub, barrier instances, the ASID table entry, and the keys of a tenant that has no other
ASID (R94, R224, R440). The command completes with the scrub (R414). DEDUCED (log 61). -/
def State.destroyed (s : State) (c : Cmd) : State :=
  let tag := (s.asidEnt c.asid).tenant
  let scrub := fun (w : Window) => if w.asid = c.asid then { w with scrub := true } else w
  let s := { s with
    tiles := s.tiles.map fun (e : Nat × Tile) => (e.1, { e.2 with windows := e.2.windows.map scrub })
    cores := s.cores.map fun (e : Nat × Core) => (e.1, { e.2 with q4 := e.2.q4.filter fun k => k.asid != c.asid })
    dies := s.dies.map fun (e : Nat × Die) => (e.1, { e.2 with bars := e.2.bars.filter fun b => b.key.asid != c.asid })
    net := { s.net with colls := s.net.colls.filter fun k => k.key.asid != c.asid } }
  let s := s.updPkg fun p => { p with asids := p.asids.del c.asid.toNat }
  let s := if s.pkg.asids.any fun e => e.2.tenant == tag then s
    else s.updPkg fun p => { p with keys := p.keys.map fun (e : Nat × KeyEnt) => (e.1, if e.2.tenant = tag then ⟨tag, 0, 0⟩ else e.2) }
  (s.updCtx c.asid fun x => { x with ender := some c }).after 57344 (.scrubComplete c.asid)

/-! ### Scrub (R94) -/

/-- The scrub of one slice: bytes zero, bits empty, poison clear. It is a write for the buoys of every line, and a change for the full/empty requests parked
there (R96, R134). -/
def State.scrubTile (s : State) (t : Nat) : State :=
  let lo := sramByte t 0
  let hi := sramByte t 0x380000
  let s := { s with
    mem := s.mem.outside lo hi
    attrs := { s.attrs with full := s.attrs.full.outside (lo / 8) (hi / 8), poison := s.attrs.poison.outside (lo / 64) (hi / 64) } }
  let lines := (((s.buoysOf (64 + t)).map (·.line)).filter fun l => decide (l < 57344)).dedup
  let s := lines.foldl (fun s l => (s.notify (64 + t) l 0 none).2) s
  let words := (((s.net.reqs.filter fun e => e.2.stage == .park && e.2.home == 64 + t).map (·.2.word)).filter fun k => decide (k < 458752)).dedup
  words.foldl (fun s k => s.feScan t (8 * k) s.net.reqs.length) s

/-- SCRUB_COMPLETE (R94, R414): the user area of every slice of the departing window is scrubbed and its window entry released; CTX_DESTROY completes. -/
def execScrubComplete (asid : BitVec 14) (s : State) : Host.Outcome State Fault Refusal :=
  let gone := fun (w : Window) => w.asid == asid && w.scrub
  let tiles := (s.tiles.filter fun e => e.2.windows.any gone).map (·.1)
  let s := tiles.foldl (fun s t => (s.scrubTile t).updTile t fun x => { x with windows := x.windows.filter fun w => !gone w }) s
  .next (match (s.ctx? asid).bind (·.ender) with
    | some c => (s.updCtx asid fun x => { x with ender := none }).finishCmd c 0 0 0
    | none => s)

/-- KEY_SET (R228, R440). -/
def execKeySet (c : Cmd) (s : State) : Host.Outcome State Fault Refusal :=
  hostCmd c (.keySet c) s (cmdClean c (cmdBits 0x05) false) true false fun s =>
    let slot := c.field 0 0 13
    if (c.arg 0).getLsbD 32 then .done (s.updPkg fun p => { p with keys := p.keys.del slot }) 0 0 0
    else
      let k := fun (i : Nat) => c.arg (2 + i)
      let e : KeyEnt := ⟨(c.arg 1).extractLsb' 0 16, k 3 ++ k 2 ++ k 1 ++ k 0, k 7 ++ k 6 ++ k 5 ++ k 4⟩
      .done (s.updPkg fun p => { p with keys := p.keys.set slot e }) 0 0 0

/-! ### Page tables (R418) -/

/-- Read a page-table entry for the command processor: its home may be starting, or have failed. -/
def State.pteRead (s : State) (pa : Nat) : Acc1 Nat :=
  let h := pa / 2 ^ 33
  if s.stackDown h then .fail causeXlate 5 else if s.stackStarts h then .pending h h else .ok (s.readPte pa)

/-- Take a frame from the pool of a page's home and pin it as a table; the entry that names it is made valid. -/
def State.placeTable (s : State) (asid : BitVec 14) (va entry : Nat) : Option State :=
  let home := va / 65536 % 64
  match (s.home home).pool with
  | [] => none
  | f :: rest =>
    let frame := home * 131072 + f
    let low := decide (rest.length + 1 = (s.home home).poolLow.toNat)
    let s := (s.updHome home fun h => { h with pool := rest }).afterOnce 1 (.zeroingStep home)
    let s := if low then s.updHost fun h => { h with lowPool := h.lowPool ++ [home] } else s
    let s := s.updFrame frame fun _ => ⟨5, asid, entry⟩
    some (s.writePte entry (1 + frame * 16 * 2 ^ 24))

/-- Go on with the table an entry names, placed where it is missing (R418); `full` where the pool is empty. -/
def State.tableAt (s : State) (asid : BitVec 14) (va entry : Nat) (full : State → CmdRes) (k : State → Nat → CmdRes) : CmdRes :=
  match s.pteRead entry with
  | .pending home page => .park s home 0 page
  | .wait => .wait s 1
  | .fail cause _ => cmdFault s cause
  | .gone => cmdFault s causeXlate
  | .ok e =>
    if pteV e then (if pteLeaf e || pteReserved e || decide (pteAddr e % 16384 ≠ 0) then cmdFault s causeXlate else k s (pteAddr e))
    else match s.placeTable asid va entry with
      | none => full s
      | some s => k s (pteAddr (s.readPte entry))

/-- The leaf entry MAP writes for page `i` (R99, R418). -/
def cmdLeaf (c : Cmd) (large : Bool) (va i : Nat) : Nat :=
  let flags := 64 + c.field 3 0 1 * 2 + c.field 3 2 1 * 32 + c.field 3 8 13 * 256
  let a := c.field 2 0 33
  if c.field 3 1 1 = 1 then flags + 4
  else if large then flags + 1 + (a / 2 ^ 21 + i) * 512 * 2 ^ 24
  else
    let h := va / 65536 % 64 + i
    flags + 1 + (h % 64 * 2 ^ 33 + a + 65536 * (h / 64)) / 4096 * 2 ^ 24

/-- The frames of a large page, 32 in every home, are held pinned (R102). -/
def State.pinLarge (s : State) (asid : BitVec 14) (a pte : Nat) : State :=
  let mine := (List.range 32).map fun j => a % 4096 * 32 + j
  (List.range 64).foldl (fun s h =>
    let s := s.updHome h fun x => { x with
      free := x.free.filter fun f => !mine.contains f, pool := x.pool.filter fun f => !mine.contains f, cold := x.cold.filter fun f => !mine.contains f }
    mine.foldl (fun s f => s.updFrame (h * 131072 + f) fun _ => ⟨5, asid, pte⟩) s) s

/-- Map pages `i` and following, `n` of them. -/
def State.mapPages (c : Cmd) (large : Bool) (va : Nat) : Nat → Nat → State → CmdRes
  | 0, _, s => .done s 0 0 0
  | n + 1, i, s =>
    let a := if large then (va / 2 ^ 27 + i) * 2 ^ 27 else (va / 65536 + i) * 65536
    let full := fun (s : State) => CmdRes.done s 7 0 (BitVec.ofNat 64 i)
    s.tableAt c.asid a (s.rootEntry c.asid a) full fun s t2 =>
      let e2 := t2 + a / 2 ^ 27 % 2048 * 8
      let put := fun (s : State) (p : Nat) => match s.pteRead p with
        | .ok _ =>
          let s := s.writePte p (cmdLeaf c large va i)
          State.mapPages c large va n (i + 1) (if large then s.pinLarge c.asid (c.field 2 0 33 / 2 ^ 21 + i) p else s)
        | .wait => .wait s 1
        | .pending home page => .park s home 0 page
        | .fail cause _ => cmdFault s cause
        | .gone => cmdFault s causeXlate
      if large then put s e2
      else s.tableAt c.asid a e2 full fun s t3 => put s (t3 + a / 65536 % 2048 * 8)

/-- MAP (R418, R432). -/
def execMap (c : Cmd) (s : State) : Host.Outcome State Fault Refusal :=
  let large := c.field 1 32 1 = 1
  let n := c.field 1 0 32
  let va := c.field 0 0 48
  let a := c.field 2 0 33
  let ft := c.field 3 1 1 = 1
  let fits := if large then va / 2 ^ 27 + n ≤ 2 ^ 21 ∧ a / 2 ^ 21 + n ≤ 4096 else va / 65536 + n ≤ 2 ^ 32 ∧ a + 65536 * ((va / 65536 % 64 + n + 63) / 64) ≤ 2 ^ 33
  let ok := cmdClean c (cmdBits 0x06) true && (if ft then decide (a = 0 ∧ ¬ large) else decide (a % (if large then 2 ^ 21 else 65536) = 0)) && decide fits
  hostCmd c (.map c) s ok false true fun s =>
    let homes := if large then List.range 64 else (List.range (Nat.min n 64)).map fun i => (va / 65536 + i) % 64
    if !ft && homes.any s.stackDown then .done s 5 2 0
    else State.mapPages c large va n 0 s

/-- The place of the leaf entry of a page; `none` where a table is missing. -/
def State.leafPlace (s : State) (asid : BitVec 14) (va : Nat) (large : Bool) : Acc1 (Option Nat) :=
  match s.pteRead (s.rootEntry asid va) with
  | .pending h p => .pending h p
  | .wait => .wait
  | .fail a b => .fail a b
  | .gone => .gone
  | .ok e1 =>
    if !pteV e1 || pteLeaf e1 || decide (pteAddr e1 % 16384 ≠ 0) then .ok none
    else
      let p2 := pteAddr e1 + va / 2 ^ 27 % 2048 * 8
      match s.pteRead p2 with
      | .pending h p => .pending h p
      | .wait => .wait
      | .fail a b => .fail a b
      | .gone => .gone
      | .ok e2 =>
        if large then .ok (some p2)
        else if !pteV e2 || pteLeaf e2 || decide (pteAddr e2 % 16384 ≠ 0) then .ok none
        else
          let p3 := pteAddr e2 + va / 65536 % 2048 * 8
          match s.pteRead p3 with
          | .pending h p => .pending h p
          | .wait => .wait
          | .fail a b => .fail a b
          | .gone => .gone
          | .ok _ => .ok (some p3)

/-- The valid leaf entries of a run of pages. -/
def State.leaves (s : State) (asid : BitVec 14) (va : Nat) (large : Bool) : Nat → Nat → List Nat → Acc1 (List Nat)
  | 0, _, acc => .ok acc
  | n + 1, i, acc =>
    let a := if large then (va / 2 ^ 27 + i) * 2 ^ 27 else (va / 65536 + i) * 65536
    if 2 ^ 48 ≤ a then .ok acc
    else match s.leafPlace asid a large with
      | .pending h p => .pending h p
      | .wait => .wait
      | .fail x y => .fail x y
      | .gone => .gone
      | .ok none => s.leaves asid va large n (i + 1) acc
      | .ok (some p) => s.leaves asid va large n (i + 1) (if pteV (s.readPte p) && pteLeaf (s.readPte p) then acc ++ [p] else acc)

/-- UNMAP (R416): V is cleared in the leaf entries, and a TLBI of the range follows. -/
def execUnmap (c : Cmd) (s : State) : Host.Outcome State Fault Refusal :=
  let large := c.field 1 32 1 == 1
  let n := c.field 1 0 32
  let va := c.field 0 0 48
  hostCmd c (.unmap c) s (cmdClean c (cmdBits 0x07) true) false true fun s =>
    if n = 0 then .done s 0 0 0
    else match s.leaves c.asid va large n 0 [] with
      | .pending home page => .park s home 0 page
      | .wait => .wait s 1
      | .fail cause _ => cmdFault s cause
      | .gone => cmdFault s causeXlate
      | .ok l =>
        let s := l.foldl (fun s p => s.writePte p (pteClear (s.readPte p) 0)) s
        .later (s.sendTlbi 0 0 0 0 c.asid (if large then va / 2 ^ 27 * 2048 else va / 65536) (if large then n * 2048 else n) (some c) l)

/-- TLBI_ACK (R220): with the last acknowledgement the instruction retires, or the host command goes on. -/
def execTlbiAck (id : Nat) (s : State) : Host.Outcome State Fault Refusal :=
  match s.net.tlbis.find? fun t => t.id == id with
  | none => .next s
  | some t =>
    if 1 < t.acks then
      .next (s.updNet fun n => { n with tlbis := n.tlbis.map fun (o : TlbiOp) => if o.id = id then { o with acks := o.acks - 1 } else o })
    else
      let s := s.updNet fun n => { n with tlbis := n.tlbis.filter fun o => o.id != id }
      match t.cmd with
      | none => (match t.asker with
        | some a => .next (s.postMsg a.1 6 t.asid (s.asidEnt t.asid).tenant 512 (.tlbiAck a.2))
        | none => .next (s.within t.slot fun s => if s.cur.expects t.ctx then s.retire.advance else s))
      | some c =>
        if c.opc = 0x04 then .next (s.destroyed c)
        else .next (s.finishCmd c 0 0 (BitVec.ofNat 64 (t.ptes.filter fun p => pteD (s.readPte p)).length))

/-! ### Reads and writes of a context's memory by the command processor -/

/-- Read memory of an ASID for a ring's command and go on: the command parks on a pending page, and waits for a line under a commit hold, for a walker or
for another package. -/
def State.cpRead (s : State) (ring : Nat) (asid : BitVec 14) (va n al : Nat) (k : List Byte → State → CmdRes) : CmdRes :=
  if 2 ^ 48 < va + n then cmdFault s causeAddr
  else if va % al ≠ 0 then cmdFault s causeAlign
  else match s.unitRead (ringLane ring) asid (pieces (n / 64 + 2) va n) [] with
    | (.ok b, s) => k b s
    | (.wait, s) => .wait s 16
    | (.pending home page, s) => .park (s.unitFault home asid page false) home asid.toNat page
    | (.fail cause _, s) => cmdFault s cause
    | (.gone, s) => cmdFault s causeAddr

/-- COPY_IN (R409, R416): bytes of the staging region are written to memory of the ASID; what has been written stays written while the command waits. -/
def execCopyIn (c : Cmd) (s : State) : Host.Outcome State Fault Refusal :=
  hostCmd c (.copyIn c) s (cmdClean c (cmdBits 0x0A) true) false true fun s =>
    let off := (c.arg 0).toNat
    let va := c.field 1 0 48
    let n := (c.arg 2).toNat
    let put := ((s.ring? c.ring).map (·.put)).getD 0
    match s.ctx? c.asid with
    | none => .done s 5 3 0
    | some x =>
      if x.stagingSz < off + n ∨ 2 ^ 48 < va + n then cmdFault s causeAddr
      else match s.physRead (x.staging + off) n with
        | .pending home page => .park s home 0 page
        | .wait => .wait s 1
        | .fail cause _ => cmdFault s cause
        | .gone => cmdFault s causeAddr
        | .ok b =>
          let r := s.unitWrite (ringLane c.ring) c.asid (pieces (n / 64 + 2) (va + put) (n - put)) (b.drop put) put
          let s := match r.2.ring? c.ring with | some g => r.2.setRing c.ring { g with put := r.1.2 } | none => r.2
          match r.1.1 with
          | .ok _ => .done s 0 0 0
          | .wait => .wait s 16
          | .pending home page => .park (s.unitFault home c.asid page true) home c.asid.toNat page
          | .fail cause _ => cmdFault s cause
          | .gone => cmdFault s causeAddr

/-- Bytes in messages of at most 4 MiB. -/
def messages : Nat → List Byte → List (List Byte)
  | 0, _ => []
  | n + 1, b => if b.isEmpty then [] else b.take 4194304 :: messages n (b.drop 4194304)

/-- COPY_OUT (R416): memory of the ASID goes to the host; the command completes when the host has acknowledged every message. -/
def execCopyOut (c : Cmd) (s : State) : Host.Outcome State Fault Refusal :=
  hostCmd c (.copyOut c) s (cmdClean c (cmdBits 0x0B) true) false true fun s =>
    let n := (c.arg 1).toNat
    s.cpRead c.ring c.asid (c.field 0 0 48) n 1 fun b s =>
      if n = 0 then .done s 0 0 0
      else .later (((messages (n / 4194304 + 1) b).foldl (fun (a : Nat × State) m =>
        (a.1 + m.length, a.2.sendRma (c.arg 2 + BitVec.ofNat 64 a.1) ((c.arg 3).extractLsb' 0 32) m (.copyOut c))) (0, s)).2)

/-! ### Launches (R172, R416, R420) -/

/-- The regions of an output-region list; `none` where an entry breaks R420. -/
def regionsOf (b : List Byte) : Option (List (Nat × Nat)) :=
  (List.range (b.length / 16)).foldr (fun k acc =>
    let va := leNat ((b.drop (16 * k)).take 8)
    let n := leNat ((b.drop (16 * k + 8)).take 8)
    match acc with
    | none => none
    | some l => if 2 ^ 48 ≤ va ∨ n = 0 ∨ 2 ^ 40 < n then none else some ((va, n) :: l)) (some [])

/-- A region list that fails a check completes LAUNCH with BAD_REC (R420). -/
def CmdRes.badList : CmdRes → CmdRes
  | .done s 6 _ _ => .done s 3 0 0
  | r => r

/-- LAUNCH (R172, R420): header, mask, entry table and region list are read, and the launch is created or refused. -/
def execLaunch (c : Cmd) (s : State) : Host.Outcome State Fault Refusal :=
  hostCmd c (.launch c) s (cmdClean c (cmdBits 0x08) true) false true fun s =>
    let hdr := c.field 0 0 48
    let n := c.field 2 0 16
    s.cpRead c.ring c.asid hdr 128 64 fun hb s =>
      let h := Header.of hb
      let mask := fun (k : List Byte → State → CmdRes) => if h.pmaskp = 0 then k [] s else s.cpRead c.ring c.asid h.pmaskp 32 8 k
      mask fun mb s =>
        if h.entryp.extractLsb' 48 4 ≠ 0 then cmdFault s causeAddr
        else s.cpRead c.ring c.asid (vaOf h.entryp) (8 * (h.nent + 1)) 8 fun eb s =>
          let made := fun (rb : List Byte) (s : State) =>
            match regionsOf rb with
            | none => CmdRes.done s 3 0 0
            | some regs =>
              let pkgs := s.launchPkgs h.pmaskp mb
              match s.mayCreate (32768 + c.ring) hb (wordsOf eb) pkgs (s.ringOwns c.ring h.asid) with
              | (none, s) => .wait s 16
              | (some (some k), s) => .done s 5 k 0
              | (some none, s) =>
                let r := s.createLaunch hb (BitVec.ofNat 48 hdr) (wordsOf eb) pkgs none regs
                .done r.2 0 0 (r.1.setWidth 64)
          if n = 0 then made [] s
          else (s.cpRead c.ring c.asid (c.field 1 0 48) (16 * n) 8 made).badList

/-- The STATE code of a launch record (Table 10.4). -/
def LState.code : LState → Nat
  | .faulted => 1
  | .hung => 2
  | .cancelled => 3
  | _ => 0

/-- ABORT (R416, Table 7.8). -/
def execAbort (c : Cmd) (s : State) : Host.Outcome State Fault Refusal :=
  hostCmd c (.abort c) s (cmdClean c (cmdBits 0x09) false) false false fun s =>
    match s.launch? ((c.arg 0).extractLsb' 0 32).toNat with
    | none => .done s 5 5 0
    | some l =>
      if !s.ringOwns c.ring l.h.asid then .done s 4 0 0
      else if l.st.final then .done s 0 0 (BitVec.ofNat 64 l.st.code)
      else .done (s.freeze l.key .cancelled 6) 0 0 0

/-! ### Launch records (R235 to R237) -/

/-- The head of a context's launch-record ring: the records written and acknowledged (R237). -/
def State.recordHead (s : State) (asid : BitVec 14) (c : Ctx) : Nat := c.rseq - if s.host.sent.any fun r => r.why == .record asid then 1 else 0

/-- LREC_FREE (R237): TAILSEQ is the largest received, clamped to the head. -/
def execLrecFree (c : Cmd) (s : State) : Host.Outcome State Fault Refusal :=
  hostCmd c (.lrecFree c) s (cmdClean c (cmdBits 0x11) true) false true fun s =>
    .done ((s.updCtx c.asid fun x => { x with tail := Nat.max x.tail (Nat.min (c.arg 0).toNat (s.recordHead c.asid x)) }).afterOnce 1 (.launchRecordWrite c.asid)) 0 0 0

/-- The mark of the requests that the digest of a context's launches has at another package. -/
def digestLane : Nat := 700

/-- Read the output regions in order (R236). -/
def State.readRegions (s : State) (asid : BitVec 14) (l : List (Nat × Nat)) : Acc1 (List Byte) × State :=
  if l.any fun e => decide (2 ^ 48 < e.1 + e.2) then (.fail causeAddr 2, s)
  else s.unitRead digestLane asid (l.flatMap fun e => pieces (e.2 / 64 + 2) e.1 e.2) []

/-- A launch record (Table 10.4). -/
def launchRecord (l : Launch) (slots rseq : Nat) (digest : List Byte) (err : Bool) : List Byte :=
  let w0 := l.id.toNat + l.st.code * 2 ^ 32 + (if l.h.piste then 2 ^ 34 else 0) + (if l.h.persist then 2 ^ 35 else 0) + l.h.asid.toNat * 2 ^ 36
  leBytes 8 w0 ++ leBytes 8 l.h.seed.toNat ++ leBytes 8 l.h.ctrb.toNat ++ leBytes 8 l.start ++ leBytes 8 l.fin
    ++ leBytes 8 (l.hdrVa.toNat + (slots - 1) * 2 ^ 48) ++ leBytes 8 rseq ++ leBytes 8 (l.reason + if err then 256 else 0) ++ digest

/-- Write the record of a launch: one RMA write, the room taken, the last 256 kept (R237, Table 22.10). -/
def State.writeRecord (s : State) (asid : BitVec 14) (x : Ctx) (l : Launch) (digest : List Byte) (err : Bool) : State :=
  let b := launchRecord l (64 * (x.last + 1 - x.first)) x.rseq digest err
  let s := s.sendRma (x.ringAddr + BitVec.ofNat 64 (128 * (x.rseq % 2 ^ x.ringLogn))) x.ringKey b (.record asid)
  let s := s.updCtx asid fun c => { c with
    rseq := c.rseq + 1, waiting := c.waiting.drop 1, recFail := false, records := (c.records ++ [(l.id, b)]).drop (c.records.length + 1 - 256) }
  let s := s.updLaunch l.key fun l => { l with recorded := true }
  if x.waiting.length = 256 then s.wakeWaiting else s

/-- LAUNCH_RECORD_WRITE (R235 to R237): the record of the launch that became final first is written when room exists and its regions can be
read. -/
def execLaunchRecordWrite (asid : BitVec 14) (s : State) : Host.Outcome State Fault Refusal :=
  match s.ctx? asid with
  | none => .next s
  | some x =>
    match x.waiting with
    | [] => .next s
    | id :: _ =>
      if x.recWait.isSome || !x.room || s.host.sent.any (fun r => r.why == .record asid) then .next s
      else match s.launch? id.toNat with
        | none => .next (s.updCtx asid fun c => { c with waiting := c.waiting.drop 1 })
        | some l =>
          let zero := List.replicate 64 (0 : Byte)
          if l.regions.isEmpty || (l.st == .cancelled && decide (l.start = 0)) then .next (s.writeRecord asid x l zero false)
          else
            let finish := fun (s : State) (d : List Byte) (err : Bool) => Host.Outcome.next ((s.unitEnd digestLane asid).writeRecord asid x l d err)
            if x.recFail then finish s zero true
            else match s.readRegions asid l.regions with
              | (.ok b, s) => finish s (sha512 b) false
              | (.fail _ _, s) | (.gone, s) => finish s zero true
              | (.wait, s) => .next (s.after 16 (.launchRecordWrite asid))
              | (.pending home page, s) =>
                .next ((s.unitFault home asid page false).updCtx asid fun c => { c with recWait := some page })

/-- HOST_ACKNOWLEDGEMENT (R237, R416): the head word follows a record, and COPY_OUT completes with its last message. -/
def execHostAcknowledgement (id : Nat) (s : State) : Host.Outcome State Fault Refusal :=
  match s.host.sent.find? fun r => r.id == id with
  | none => .next s
  | some r =>
    let s := s.updHost fun h => { h with sent := h.sent.filter fun o => o.id != id }
    match r.why with
    | .record asid =>
      (match s.ctx? asid with
       | some c => .next ((s.sendRma c.headAddr c.ringKey (leBytes 8 c.rseq) (.headWord asid)).afterOnce 1 (.launchRecordWrite asid))
       | none => .next s)
    | .copyOut c => if s.host.sent.any fun o => o.why == .copyOut c then .next s else .next (s.finishCmd c 0 0 0)
    | _ => .next s

end Sys2Proof.Machine
end

