-- ==== Sys2Proof/Machine/Boot.lean ====
section
/-! DEFINITION. Start-up and Lightship mode, resets, power, the boot report, attestation, QUERY and the failover of the command processor
(spec/23_bringup_security_debug.md R431 to R442; spec/22_host_and_pod.md R419, R421). -/

namespace Sys2Proof.Machine

/-! ### Readiness and the boot report (R431, R435) -/

/-- The readiness register with LIGHT (Table 23.1). -/
def State.readyWord (s : State) : W64 := (s.ctlRead 0).1

/-- A 512-bit register as its 64 bytes, and back. -/
def digestOf (b : List Byte) : BitVec 512 := BitVec.ofNat 512 (leNat b)

/-- The bit of Table 23.1 that a source marked lasting belongs to: of a tile's logic its quadrant's, of an SRAM bank its die's, of a port its own. -/
def errBit : ErrSrc → Option Nat
  | .tileLogic t => some (4 + quadOf t)
  | .sramBank t _ => some (20 + dieOf t)
  | .ualPort p => some (32 + p)
  | .uePort p => some (48 + p)
  | .sramLine .. | .hbmLine .. => none

/-- The reason bytes of the boot report: a function that starts while a source of it is marked lasting shows 5 (R234); spared lines and retired frames are
counted in SPARED. DESIGN CHOICE (log 98). -/
def State.reasonBytes (s : State) : List Byte :=
  let lasting := (s.pkg.wins.filter (·.lasting)).filterMap fun w => errBit w.src
  (List.range 54).map fun k =>
    let r := s.pkg.boot.reasons.getD k 0
    if r = 0 ∧ lasting.contains k then 5 else r

/-- The boot report (Table 23.2). -/
def State.bootReportBytes (s : State) : List Byte :=
  let b := s.pkg.boot
  leBytes 8 (b.startsRead % 256 + (if b.lit then 256 else 0) + b.lastStop * 2 ^ 16)
    ++ leBytes 8 s.readyWord.toNat
    ++ s.reasonBytes ++ [0, 0]
    ++ leBytes 8 b.img.ring0.toNat ++ leBytes 8 b.img.ring0Src.toNat
    ++ leBytes 8 (b.spared.toNat + b.img.svn.toNat * 2 ^ 32)
    ++ leBytes 64 (b.meas.getD 0 0).toNat
    ++ List.replicate 96 0

/-- The functions of the readiness register that have been released and have neither become ready nor failed. -/
def State.unsettled (s : State) : List Nat :=
  (List.range 54).filter fun k => s.pkg.boot.released.getLsbD k && !(s.isReady k) && s.pkg.boot.reasons.getD k 0 == 0

/-- Once every released function has settled, the boot report is due (R435). -/
def State.settleBoot (s : State) : State :=
  if s.pkg.boot.released != 0 && s.unsettled.isEmpty && !s.pkg.boot.reported then s.afterOnce 1 .bootReport else s

/-- Write the boot report (R435): through port 0, or the lowest ready port in Lightship mode. -/
def State.writeReport (s : State) : State :=
  let b := s.bootReportBytes
  let port := if s.pkg.boot.lightStart then (List.range 4).any fun p => s.isReady (48 + p) else s.isReady 48
  let s := s.updBoot fun x => { x with report := b, reported := true }
  if port then s.sendRma s.pkg.boot.img.reportTo s.pkg.boot.img.reportKey b .report else s

/-- BOOT_REPORT (R435). -/
def execBootReport (s : State) : Host.Outcome State Fault Refusal :=
  if s.pkg.boot.reported || !(s.isReady 52 || s.isReady 53) then .next s else .next s.writeReport

/-! ### Power-on (R433, R434, R436, R437) -/

/-- Extend a measurement register with a stage (R437). -/
def extend (meas : Vector (BitVec 512) 4) (n : Nat) (stage : List Byte) : Vector (BitVec 512) 4 :=
  meas.setIfInBounds n (digestOf (sha512 (leBytes 64 (meas.getD n 0).toNat ++ sha512 stage)))

/-- The functions that a start releases (R433, R434): all, or in Lightship mode the command processor, quadrant 0, HBM stack 0, Ultra Ethernet
port 0, and die 0. DESIGN CHOICE (log 65). -/
def releasedBy (light : Bool) : W64 := if light then BitVec.ofNat 64 (2 ^ 0 + 2 ^ 4 + 2 ^ 24 + 2 ^ 48 + 2 ^ 52) else BitVec.ofNat 64 (2 ^ 54 - 1)

/-- The reason codes a start begins with. -/
def reasonsOf (light : Bool) : Vector Byte 54 :=
  Vector.ofFn fun k => if (releasedBy light).getLsbD k.val then 0 else 6

/-- The package as it is when its functions begin to start: everything at reset but the boot record, and MTVEC the MENTRY of the image. What the model
itself keeps (the plan and the counters) goes on. -/
def State.afresh (s : State) (b : Boot) : State :=
  { State.reset with
    cur := { Slot.reset with mc := { MCsr.reset with mtvec := b.img.mentry } }
    pkg := { Pkg.reset with boot := b, podIndex := b.img.podIndex, members := b.img.members,
                            podmasks := b.img.podMasks.foldl (fun m e => m.set e.1 e.2) [] }
    net := { Net.reset with plan := s.net.plan, nextId := s.net.nextId, free := s.net.free } }

/-- POWER_ON (R433): the boot ROM verifies the image, reads and then counts the start, and releases the functions. A package that has power already
is not changed. -/
def execPowerOn (img : Image) (s : State) : Host.Outcome State Fault Refusal :=
  let b := s.pkg.boot
  if b.powered && b.deadline != 0 then .next s
  else
    let ok := img.sigOk && decide (b.minSvn.toNat ≤ img.svn.toNat)
    let b : Boot := { Boot.reset with
      starts := b.starts + 1, startsRead := b.starts, lastStop := b.lastStop, minSvn := b.minSvn, spared := b.spared, deadline := 72000000000 }
    if ok then
      let light := decide (3 ≤ b.startsRead)
      let b : Boot := { b with
        img := img, lightStart := light, released := releasedBy light, reasons := reasonsOf light
        meas := img.stages.foldl (fun m e => extend m e.1 e.2) (.replicate 4 0) }
      .next ((s.afresh b).after 72000000000 .bootTimeout)
    else .next (s.afresh { b with judged := true, ended := true, lastStop := 4 })

/-! ### Functions that start (R431 to R433) -/

/-- Ring 0 opens at the address the platform block gives (R410). -/
def State.openRing0 (s : State) : State :=
  let i := s.pkg.boot.img
  s.setRing 0 {
    base := i.ring0.extractLsb' 0 39, logn := (i.ring0.extractLsb' 40 4).toNat, owner := 0, open_ := true, next := 0, done := 0xFFFFFFFF,
    src := i.ring0Src, cqaddr := i.ring0Cq, cqkey := i.ring0CqKey.extractLsb' 0 32, cqlogn := (i.ring0CqKey.extractLsb' 32 4).toNat, tail := 0,
    tries := 0, ran := false, code := 0, sub := 0, value := 0, htag := 0, parked := none, refused := false, closing := false, put := 0 }

/-- A start succeeds (R433, R434, R436): the start counter is cleared, LIGHT follows the kind of start, and a committing image raises the least
SVN. -/
def Boot.succeed (b : Boot) : Boot :=
  { b with judged := true, starts := 0, lit := b.lightStart || (b.lit && !b.full), full := false
           minSvn := if b.img.commit && decide (b.minSvn.toNat < b.img.svn.toNat) then b.img.svn else b.minSvn }

/-- What waits for a stack of HBM goes on, or fails. -/
def State.wakeStack (s : State) (bit : Nat) (maps : Bool) : State :=
  if 24 ≤ bit ∧ bit < 32 then s.wakePages (fun _ p => p % 64 / 8 == bit - 24) maps 5 else s

/-- FUNCTION_READY (R431, R432): the start sequence of a released function passes. -/
def execFunctionReady (bit : Nat) (s : State) : Host.Outcome State Fault Refusal :=
  if !(s.pkg.boot.released.getLsbD bit) || s.isReady bit || s.pkg.boot.reasons.getD bit 1 != 0 then .next s
  else
    let s := s.updPkg fun p => { p with ready := p.ready ||| BitVec.ofNat 64 (2 ^ bit) }
    let s := s.wakeStack bit true
    let s := if bit = 52 && (match s.ring? 0 with | some r => !r.open_ | none => true) then s.openRing0 else s
    let s := if bit = 52 && !s.pkg.boot.judged then s.updBoot Boot.succeed else s
    .next s.settleBoot

/-- FUNCTION_FAILED (R432): the start sequence of a released function fails, for good. -/
def execFunctionFailed (bit reason : Nat) (s : State) : Host.Outcome State Fault Refusal :=
  if !(s.pkg.boot.released.getLsbD bit) || s.isReady bit || s.pkg.boot.reasons.getD bit 1 != 0 || reason = 0 then .next s
  else
    let s := s.updBoot fun b => { b with reasons := b.reasons.setIfInBounds bit (BitVec.ofNat 8 reason) }
    .next (s.wakeStack bit false).settleBoot

/-- BOOT_TIMEOUT (R433, R435): 30 s after power-on a function that has not settled has timed out, a start that has not succeeded has failed, and the
report is written. -/
def execBootTimeout (s : State) : Host.Outcome State Fault Refusal :=
  if s.pkg.boot.deadline = 0 ∨ s.now < s.pkg.boot.deadline then .next s
  else
    let late := s.unsettled
    let s := s.updBoot fun b => { b with reasons := late.foldl (fun r k => r.setIfInBounds k 4) b.reasons }
    let s := late.foldl (fun s k => s.wakeStack k false) s
    let s := if s.pkg.boot.reported then s else s.writeReport
    .next (if s.pkg.boot.judged then s else s.updBoot fun b => { b with judged := true, ended := true, lastStop := 3 })

/-! ### The end of a run (R433, R442) -/

/-- The package without power: all state is lost but the non-volatile store and the fuses. A run that has ended by itself keeps what ended it. -/
def State.unpowered (s : State) (stop : Nat) : State :=
  let b := s.pkg.boot
  s.afresh { Boot.reset with
    powered := false, starts := b.starts, minSvn := b.minSvn, spared := b.spared
    lastStop := if b.powered && !b.ended then stop else b.lastStop }

/-- POWER_OFF (R433). -/
def execPowerOff (s : State) : Host.Outcome State Fault Refusal := .next (s.unpowered 0)

/-- THERMAL_TRIP (R442). -/
def execThermalTrip (s : State) : Host.Outcome State Fault Refusal := .next (s.unpowered 2)

/-! ### RESET (R431, R434) -/

/-- Launches, by key, that lose a task or an item with what `slot`, `tile` and `lamp` pick. -/
def State.launchesOn (s : State) (slot tile lamp : Nat → Bool) : List Nat :=
  let byTask := (s.tasks.filter fun e => match e.2.place with
    | .slot k => slot k
    | .saved t _ => tile t
    | _ => false).map fun e => e.2.launch
  let wlOn := fun (e : Nat × WorkList) => !e.2.closed &&
    ((e.2.lamps.any fun d => decide (d / 4 = s.own) && lamp (d % 4)) || (s.tiles.any fun t => tile t.1 && t.2.prefetched.any fun p => p.1 == e.1) ||
      e.2.heap.any (fun h => tile h.1 && !h.2.isEmpty) || (decide (e.2.ktile / 512 = s.own) && tile (e.2.ktile % 512)))
  (byTask ++ (s.pkg.wls.filter wlOn).map fun e => e.2.launch).dedup

/-- A slot after its quadrant was reset: the counters that name tasks, placements and messages go on (R18, R80, R142, R156). -/
def State.resetSlot (s : State) (x : Slot) : Slot :=
  { s.freshSlot with
    mc := { s.freshSlot.mc with ctxser := x.mc.ctxser }
    serial := x.serial, commits := x.commits, pushSeq := x.pushSeq }

/-- Zero a slice whole (R95). -/
def State.zeroSlice (s : State) (t : Nat) : State :=
  let lo := sramByte t 0
  let hi := sramByte (t + 1) 0
  { s with
    mem := s.mem.outside lo hi
    attrs := { s.attrs with full := s.attrs.full.outside (lo / 8) (hi / 8), poison := s.attrs.poison.outside (lo / 64) (hi / 64) } }

/-- Reset a quadrant (log 37): the launches that have a task or an item there freeze, its slots, cores and tiles are as at reset, its slices zero. -/
def State.resetQuad (s : State) (q : Nat) : State :=
  let mine := fun (t : Nat) => quadOf t == q
  let s := (s.launchesOn (fun k => mine (tileOf k)) mine fun _ => false).foldl (fun s key => s.freeze key .faulted 1) s
  let here := s.tasks.filter fun e => match e.2.place with | .slot k => mine (tileOf k) | .saved t _ => mine t | _ => false
  let s := here.foldl (fun s (e : Nat × Task) => s.endSaved (BitVec.ofNat 64 e.1) (32 * q)) s
  let s := { s with
    cur := if mine (tileOf s.curId) then s.resetSlot s.cur else s.cur
    slots := s.slots.map fun (e : Nat × Slot) => (e.1, if mine (tileOf e.1) then s.resetSlot e.2 else e.2)
    cores := s.cores.filter fun e => !mine (e.1 / 8)
    tiles := s.tiles.map fun (e : Nat × Tile) => (e.1, if mine e.1 then resetTile e.2 else e.2)
    net := { s.net with reqs := s.net.reqs.filter fun e => e.2.source.isSome || !mine (tileOf e.2.slot)
                        holds := s.net.holds.filter fun h => !mine (tileOf h.slot) } }
  (List.range 32).foldl (fun s k => s.zeroSlice (32 * q + k)) s
where
  /-- What of a tile outlives its reset: what the dispatcher holds for launches, the window table, what errors retired, pod sequences. -/
  resetTile (t : Tile) : Tile :=
    { Tile.reset with
      windows := t.windows, prefetched := t.prefetched, asking := t.asking, wrr := t.wrr, reserved := t.reserved, retired := t.retired
      userTop := t.userTop, spared := t.spared, seqs := t.seqs }

/-- Reset one function of the readiness register (R431): its bit is clear, it starts again, and what it held is as at reset (log 37). -/
def State.resetBit (s : State) (bit : Nat) : State :=
  let s := s.updPkg fun p => { p with
    ready := p.ready &&& ~~~(BitVec.ofNat 64 (2 ^ bit))
    boot := { p.boot with released := p.boot.released ||| BitVec.ofNat 64 (2 ^ bit), reasons := p.boot.reasons.setIfInBounds bit 0 } }
  if bit < 4 then
    ((s.launchesOn (fun _ => false) (fun _ => false) fun d => d == bit).foldl (fun s key => s.freeze key .faulted 1) s).updDie bit fun d =>
      { d with bars := [] }
  else if bit < 20 then s.resetQuad (bit - 4)
  else if bit < 24 then (List.range 128).foldl (fun s k => s.zeroSlice (128 * (bit - 20) + k)) s
  else if bit = (if s.host.active then 53 else 52) then
    s.updHost fun h => { h with rings := [], landed := [], exec := none, turn := 0 }
  else s

/-- RESET (R431, R434): the functions of the mask start again; with every function named, the whole package does. -/
def execReset (c : Cmd) (s : State) : Host.Outcome State Fault Refusal :=
  hostCmd c (.reset c) s (cmdClean c (cmdBits 0x0D) false) true false fun s =>
    let mask := c.field 0 0 54
    let s := s.finishCmd c 0 0 0
    if mask = 2 ^ 54 - 1 then
      let b := s.pkg.boot
      let t := s.afresh { b with
        judged := false, reported := false, ended := false, lightStart := false, full := true, released := releasedBy false
        reasons := .replicate 54 0, lastStop := 1, deadline := 72000000000 }
      .later ((t.updHost fun h => { h with sent := s.host.sent }).after 72000000000 .bootTimeout)
    else .later (((List.range 54).filter fun k => mask / 2 ^ k % 2 = 1).foldl (fun s k => s.resetBit k) s)

/-! ### ATTEST (R438, R439) -/

/-- ATTEST (Table 23.6). -/
def execAttest (c : Cmd) (s : State) : Host.Outcome State Fault Refusal :=
  hostCmd c (.attest c) s (cmdClean c (cmdBits 0x0E) false) false false fun s =>
    let b := s.pkg.boot
    let n := b.img.cert.length
    let pad := (8 - n % 8) % 8
    let body := (List.range 8).flatMap (fun k => leBytes 8 (c.arg k).toNat)
      ++ (List.range 4).flatMap (fun k => leBytes 64 (b.meas.getD k 0).toNat)
      ++ leBytes 8 s.readyWord.toNat ++ leBytes 8 (b.img.svn.toNat + if b.lit then 2 ^ 32 else 0) ++ leBytes 8 n ++ b.img.cert
      ++ List.replicate pad 0
    let sig := Config.attestSignature s.net.free (sha512 body)
    let s := s.updNet fun n => { n with free := n.free + 1 }
    .done (s.sendRma (c.arg 8) ((c.arg 9).extractLsb' 0 32) (body ++ leBytes 512 sig.toNat) .report) 0 0 (BitVec.ofNat 64 (0x158 + n + pad + 512))

/-! ### QUERY (R419) -/

/-- The record of a launch among the last of the contexts a ring may act on; zeros where there is none. -/
def State.recordOf (s : State) (ring : Nat) (id : W32) : List Byte :=
  ((s.pkg.ctxs.filter fun e => s.ringOwns ring (BitVec.ofNat 14 e.1)).findSome? fun e =>
    (e.2.records.find? fun r => r.1 == id).map (·.2)).getD (List.replicate 128 0)

/-- The bytes of an item (Table 22.10); `none` where the item or its index is unknown. -/
def State.queryItem (s : State) (c : Cmd) (item index : Nat) : Option (List Byte) :=
  let words := fun (l : List W64) => l.flatMap fun w => leBytes 8 w.toNat
  match item with
  | 0 => some (words [s.readyWord])
  | 1 => some (if s.pkg.boot.report.isEmpty then s.bootReportBytes else s.pkg.boot.report)
  | 2 => if index < 512 then some (words ((List.range 10).map fun k => (s.ctlRead (0x200000 + 0x80 * index + 8 * k)).1)) else none
  | 3 => some (s.recordOf c.ring (BitVec.ofNat 32 index))
  | 4 =>
    let owner := ((s.ring? c.ring).map (·.owner)).getD 0
    some (words [((s.pkg.tenants.getD ⟨0, 0⟩ owner.toNat).rej.setWidth 64)])
  | 5 =>
    if index < 4 ∨ (16 ≤ index ∧ index < 32) then
      let p := s.host.ports.getD ⟨0, 0, 0, 0, 0, 0⟩ index
      some (words [p.rmaok, p.rmadrop, p.kickok, p.kickdrop, p.retry, p.tenrej, 0, 0])
    else none
  | 6 => if index < 64 then some (words ((List.range 5).map fun k => (s.ctlRead (0x100000 + 0x100 * index + 8 * k)).1)) else none
  | 7 =>
    if index < 1024 then
      match s.pkg.wlOwner.get? index, s.wl? index with
      | some a, some w => some (if s.ringOwns c.ring a then words ((List.range 5).map (s.wlStat index w)) else List.replicate 40 0)
      | _, _ => some (List.replicate 40 0)
    else none
  | _ => none

/-- QUERY (R419). -/
def execQuery (c : Cmd) (s : State) : Host.Outcome State Fault Refusal :=
  hostCmd c (.query c) s (cmdClean c (cmdBits 0x0C) false) false false fun s =>
    let item := c.field 0 0 8
    match s.queryItem c item (c.field 0 16 32) with
    | none => .done s 3 0 0
    | some b =>
      if (item = 1 ∨ item = 6) ∧ c.ring ≠ 0 then .done s 4 0 0
      else .done (s.sendRma (c.arg 1) ((c.arg 2).extractLsb' 0 32) b .report) 0 0 (BitVec.ofNat 64 b.length)

/-! ### Failover (R421) -/

/-- The command an event carries. -/
def Event.command? : Event → Option Cmd
  | .ringOpen c | .ringClose c | .ctxCreate c | .ctxDestroy c | .keySet c | .map c | .unmap c | .launch c | .abort c | .copyIn c | .copyOut c
  | .query c | .reset c | .attest c | .debugHalt c | .debugResume c | .debugStop c | .debugGroup c | .debugRun c | .debugStep c | .bpset c
  | .bpclr c | .debugRead c | .debugWrite c | .sample c | .ctxSstate c | .lrecFree c => some c
  | _ => none

/-- The command a ring is executing. -/
def State.running (s : State) (ring : Nat) : Option Cmd :=
  let all := (s.net.pend.filterMap fun p => Event.command? p.ev) ++ (s.net.tlbis.filterMap (·.cmd)) ++ (s.pkg.samples.map (·.cmd)) ++
    (s.host.sent.filterMap fun r => match r.why with | .copyOut c => some c | _ => none) ++
    (match s.ring? ring with | some r => (r.parked.map (·.1)).toList | none => []) ++ (s.pkg.ctxs.filterMap fun e => e.2.ender)
  all.find? fun c => c.ring == ring

/-- The standby drops what the failed command processor was doing: the effects already made stay. DESIGN CHOICE (log 66). -/
def State.interruptRing (s : State) (n : Nat) (r : Ring) : State :=
  let other := fun (c : Cmd) => c.ring != n
  let seq := r.next
  let c := s.running n
  let s := { s with
    net := { s.net with
      pend := s.net.pend.filter fun p => match Event.command? p.ev with | some c => other c | none => true
      tlbis := s.net.tlbis.map fun (t : TlbiOp) => match t.cmd with | some c => if other c then t else { t with cmd := none } | none => t }
    pkg := { s.pkg with
      samples := s.pkg.samples.filter fun k => other k.cmd
      ctxs := s.pkg.ctxs.map fun (e : Nat × Ctx) => (e.1, { e.2 with ender := e.2.ender.filter other }) }
    host := { s.host with sent := s.host.sent.map fun (m : Rma) => match m.why with
      | .copyOut c => if other c then m else { m with why := .report }
      | _ => m } }
  let launch := match c with | some c => c.opc == 0x08 | none => false
  let value : W64 := if launch then 0xFFFFFFFFFFFFFFFF else 0
  let htag := match c with | some c => c.htag | none => 0
  let s := match c with | some c => (s.unitEnd (ringLane n) c.asid).dropAsk (32768 + n) c.asid | none => s
  let s := s.sendCqe n r seq 8 0 htag value
  s.setRing n { r with next := seq + 1, ran := true, code := 8, sub := 0, value := value, htag := htag, parked := none, refused := false,
                       open_ := r.open_ && !r.closing, closing := false, put := 0 }

/-- COMMAND_PROCESSOR_FAILOVER (R421): the standby takes over the rings. A LAUNCH that is interrupted has not created its launch, since creation and
completion are one step here. -/
def execCommandProcessorFailover (s : State) : Host.Outcome State Fault Refusal :=
  if s.host.active || !(s.isReady 53) then .next s
  else
    let s := s.updHost fun h => { h with active := true, exec := none }
    .next ((s.host.rings.filter fun e => e.2.open_).foldl (fun s (e : Nat × Ring) =>
      let s := if e.2.done == e.2.next then s.interruptRing e.1 e.2
        else if e.2.ran then s.sendCqe e.1 e.2 e.2.done e.2.code e.2.sub e.2.htag e.2.value
        else s
      s.serveRing e.1 1) s)

end Sys2Proof.Machine
end

