-- ==== Sys2Proof/Machine/Frame.lean ====
section
/-! DEFINITION. Repeat frames: the classes a body may hold and the register fields a pass advances (spec/13_scalar_instructions.md R294,
R295). -/

namespace Sys2Proof.Machine

/-- Advance a g or v field that FM selects by `k`: `none` when it leaves its file (R295). -/
def adv5 (sel : Bool) (k : Nat) (r : RegNo) : Option RegNo :=
  if sel then (if r.toNat + k < 32 then some (BitVec.ofNat 5 (r.toNat + k)) else none) else some r

/-- Advance a p field that FM selects by `k`: `none` when it leaves its file (R295). -/
def adv3 (sel : Bool) (k : Nat) (r : PredNo) : Option PredNo :=
  if sel then (if r.toNat + k < 8 then some (BitVec.ofNat 3 (r.toNat + k)) else none) else some r

/-- The instruction a body instruction is when the fields of FM (D, A, B in bits 2 to 0) have advanced by `amt`: the outer `none` where its class
may not stand in a body (R294), the inner one where a field leaves its file (R295). -/
def advanced (fm : BitVec 3) (amt : Nat) (i : Instr) : Option (Option Instr) :=
  let fd := fm.getLsbD 2
  let fa := fm.getLsbD 1
  let fb := fm.getLsbD 0
  match i with
  | .add d a b => some (do let d ← adv5 fd amt d; let a ← adv5 fa amt a; let b ← adv5 fb amt b; return .add d a b)
  | .sub d a b => some (do let d ← adv5 fd amt d; let a ← adv5 fa amt a; let b ← adv5 fb amt b; return .sub d a b)
  | .mul d a b => some (do let d ← adv5 fd amt d; let a ← adv5 fa amt a; let b ← adv5 fb amt b; return .mul d a b)
  | .mulh d a b => some (do let d ← adv5 fd amt d; let a ← adv5 fa amt a; let b ← adv5 fb amt b; return .mulh d a b)
  | .mulhn d a b => some (do let d ← adv5 fd amt d; let a ← adv5 fa amt a; let b ← adv5 fb amt b; return .mulhn d a b)
  | .and d a b => some (do let d ← adv5 fd amt d; let a ← adv5 fa amt a; let b ← adv5 fb amt b; return .and d a b)
  | .or d a b => some (do let d ← adv5 fd amt d; let a ← adv5 fa amt a; let b ← adv5 fb amt b; return .or d a b)
  | .xor d a b => some (do let d ← adv5 fd amt d; let a ← adv5 fa amt a; let b ← adv5 fb amt b; return .xor d a b)
  | .andn d a b => some (do let d ← adv5 fd amt d; let a ← adv5 fa amt a; let b ← adv5 fb amt b; return .andn d a b)
  | .shl d a b => some (do let d ← adv5 fd amt d; let a ← adv5 fa amt a; let b ← adv5 fb amt b; return .shl d a b)
  | .shr d a b => some (do let d ← adv5 fd amt d; let a ← adv5 fa amt a; let b ← adv5 fb amt b; return .shr d a b)
  | .sra d a b => some (do let d ← adv5 fd amt d; let a ← adv5 fa amt a; let b ← adv5 fb amt b; return .sra d a b)
  | .min d a b => some (do let d ← adv5 fd amt d; let a ← adv5 fa amt a; let b ← adv5 fb amt b; return .min d a b)
  | .max d a b => some (do let d ← adv5 fd amt d; let a ← adv5 fa amt a; let b ← adv5 fb amt b; return .max d a b)
  | .minn d a b => some (do let d ← adv5 fd amt d; let a ← adv5 fa amt a; let b ← adv5 fb amt b; return .minn d a b)
  | .maxn d a b => some (do let d ← adv5 fd amt d; let a ← adv5 fa amt a; let b ← adv5 fb amt b; return .maxn d a b)
  | .clz d a => some (do let d ← adv5 fd amt d; let a ← adv5 fa amt a; return .clz d a)
  | .popc d a => some (do let d ← adv5 fd amt d; let a ← adv5 fa amt a; return .popc d a)
  | .bfx d a b => some (do let d ← adv5 fd amt d; let a ← adv5 fa amt a; let b ← adv5 fb amt b; return .bfx d a b)
  | .bfxn d a b => some (do let d ← adv5 fd amt d; let a ← adv5 fa amt a; let b ← adv5 fb amt b; return .bfxn d a b)
  | .bfi d a b => some (do let d ← adv5 fd amt d; let a ← adv5 fa amt a; let b ← adv5 fb amt b; return .bfi d a b)
  | .sel d a b p => some (do let d ← adv5 fd amt d; let a ← adv5 fa amt a; let b ← adv5 fb amt b; return .sel d a b p)
  | .cmp p a b cc => some (do let p ← adv3 fd amt p; let a ← adv5 fa amt a; let b ← adv5 fb amt b; return .cmp p a b cc)
  | .addi d a imm => some (do let d ← adv5 fd amt d; let a ← adv5 fa amt a; return .addi d a imm)
  | .andi d a imm => some (do let d ← adv5 fd amt d; let a ← adv5 fa amt a; return .andi d a imm)
  | .ori d a imm => some (do let d ← adv5 fd amt d; let a ← adv5 fa amt a; return .ori d a imm)
  | .xori d a imm => some (do let d ← adv5 fd amt d; let a ← adv5 fa amt a; return .xori d a imm)
  | .shli d a n => some (do let d ← adv5 fd amt d; let a ← adv5 fa amt a; return .shli d a n)
  | .shri d a n => some (do let d ← adv5 fd amt d; let a ← adv5 fa amt a; return .shri d a n)
  | .srai d a n => some (do let d ← adv5 fd amt d; let a ← adv5 fa amt a; return .srai d a n)
  | .lim d q imm => some (do let d ← adv5 fd amt d; return .lim d q imm)
  | .cmpi p cc a imm => some (do let p ← adv3 fd amt p; let a ← adv5 fa amt a; return .cmpi p cc a imm)
  | .fadd d a b => some (do let d ← adv5 fd amt d; let a ← adv5 fa amt a; let b ← adv5 fb amt b; return .fadd d a b)
  | .fsub d a b => some (do let d ← adv5 fd amt d; let a ← adv5 fa amt a; let b ← adv5 fb amt b; return .fsub d a b)
  | .fmul d a b => some (do let d ← adv5 fd amt d; let a ← adv5 fa amt a; let b ← adv5 fb amt b; return .fmul d a b)
  | .fmin d a b => some (do let d ← adv5 fd amt d; let a ← adv5 fa amt a; let b ← adv5 fb amt b; return .fmin d a b)
  | .fmax d a b => some (do let d ← adv5 fd amt d; let a ← adv5 fa amt a; let b ← adv5 fb amt b; return .fmax d a b)
  | .fcmp d a b cc => some (do let d ← adv5 fd amt d; let a ← adv5 fa amt a; let b ← adv5 fb amt b; return .fcmp d a b cc)
  | .fcvtF2i d a => some (do let d ← adv5 fd amt d; let a ← adv5 fa amt a; return .fcvtF2i d a)
  | .fcvtF2n d a => some (do let d ← adv5 fd amt d; let a ← adv5 fa amt a; return .fcvtF2n d a)
  | .fcvtI2f d a => some (do let d ← adv5 fd amt d; let a ← adv5 fa amt a; return .fcvtI2f d a)
  | .fcvtN2f d a => some (do let d ← adv5 fd amt d; let a ← adv5 fa amt a; return .fcvtN2f d a)
  | .fclass d a => some (do let d ← adv5 fd amt d; let a ← adv5 fa amt a; return .fclass d a)
  | .fma d a b c => some (do let d ← adv5 fd amt d; let a ← adv5 fa amt a; let b ← adv5 fb amt b; return .fma d a b c)
  | .fms d a b c => some (do let d ← adv5 fd amt d; let a ← adv5 fa amt a; let b ← adv5 fb amt b; return .fms d a b c)
  | .fnma d a b c => some (do let d ← adv5 fd amt d; let a ← adv5 fa amt a; let b ← adv5 fb amt b; return .fnma d a b c)
  | .vadd d a b m => some (do let d ← adv5 fd amt d; let a ← adv5 fa amt a; let b ← adv5 fb amt b; return .vadd d a b m)
  | .vsub d a b m => some (do let d ← adv5 fd amt d; let a ← adv5 fa amt a; let b ← adv5 fb amt b; return .vsub d a b m)
  | .vmul d a b m => some (do let d ← adv5 fd amt d; let a ← adv5 fa amt a; let b ← adv5 fb amt b; return .vmul d a b m)
  | .vmulh d a b m => some (do let d ← adv5 fd amt d; let a ← adv5 fa amt a; let b ← adv5 fb amt b; return .vmulh d a b m)
  | .vand d a b m => some (do let d ← adv5 fd amt d; let a ← adv5 fa amt a; let b ← adv5 fb amt b; return .vand d a b m)
  | .vor d a b m => some (do let d ← adv5 fd amt d; let a ← adv5 fa amt a; let b ← adv5 fb amt b; return .vor d a b m)
  | .vxor d a b m => some (do let d ← adv5 fd amt d; let a ← adv5 fa amt a; let b ← adv5 fb amt b; return .vxor d a b m)
  | .vshl d a b m => some (do let d ← adv5 fd amt d; let a ← adv5 fa amt a; let b ← adv5 fb amt b; return .vshl d a b m)
  | .vshr d a b m => some (do let d ← adv5 fd amt d; let a ← adv5 fa amt a; let b ← adv5 fb amt b; return .vshr d a b m)
  | .vsra d a b m => some (do let d ← adv5 fd amt d; let a ← adv5 fa amt a; let b ← adv5 fb amt b; return .vsra d a b m)
  | .vmin d a b m => some (do let d ← adv5 fd amt d; let a ← adv5 fa amt a; let b ← adv5 fb amt b; return .vmin d a b m)
  | .vmax d a b m => some (do let d ← adv5 fd amt d; let a ← adv5 fa amt a; let b ← adv5 fb amt b; return .vmax d a b m)
  | .vminn d a b m => some (do let d ← adv5 fd amt d; let a ← adv5 fa amt a; let b ← adv5 fb amt b; return .vminn d a b m)
  | .vmaxn d a b m => some (do let d ← adv5 fd amt d; let a ← adv5 fa amt a; let b ← adv5 fb amt b; return .vmaxn d a b m)
  | .vabs d a m => some (do let d ← adv5 fd amt d; let a ← adv5 fa amt a; return .vabs d a m)
  | .vneg d a m => some (do let d ← adv5 fd amt d; let a ← adv5 fa amt a; return .vneg d a m)
  | .vcmp d a b m cc => some (do let d ← adv3 fd amt d; let a ← adv5 fa amt a; let b ← adv5 fb amt b; return .vcmp d a b m cc)
  | .vsel d a b m => some (do let d ← adv5 fd amt d; let a ← adv5 fa amt a; let b ← adv5 fb amt b; return .vsel d a b m)
  | .vclz d a m => some (do let d ← adv5 fd amt d; let a ← adv5 fa amt a; return .vclz d a m)
  | .vpopc d a m => some (do let d ← adv5 fd amt d; let a ← adv5 fa amt a; return .vpopc d a m)
  | .vfadd d a b m => some (do let d ← adv5 fd amt d; let a ← adv5 fa amt a; let b ← adv5 fb amt b; return .vfadd d a b m)
  | .vfsub d a b m => some (do let d ← adv5 fd amt d; let a ← adv5 fa amt a; let b ← adv5 fb amt b; return .vfsub d a b m)
  | .vfmul d a b m => some (do let d ← adv5 fd amt d; let a ← adv5 fa amt a; let b ← adv5 fb amt b; return .vfmul d a b m)
  | .vfmin d a b m => some (do let d ← adv5 fd amt d; let a ← adv5 fa amt a; let b ← adv5 fb amt b; return .vfmin d a b m)
  | .vfmax d a b m => some (do let d ← adv5 fd amt d; let a ← adv5 fa amt a; let b ← adv5 fb amt b; return .vfmax d a b m)
  | .vfabs d a m => some (do let d ← adv5 fd amt d; let a ← adv5 fa amt a; return .vfabs d a m)
  | .vfneg d a m => some (do let d ← adv5 fd amt d; let a ← adv5 fa amt a; return .vfneg d a m)
  | .vfcmp d a b m cc => some (do let d ← adv3 fd amt d; let a ← adv5 fa amt a; let b ← adv5 fb amt b; return .vfcmp d a b m cc)
  | .vfma d a b c m => some (do let d ← adv5 fd amt d; let a ← adv5 fa amt a; let b ← adv5 fb amt b; return .vfma d a b c m)
  | .vfms d a b c m => some (do let d ← adv5 fd amt d; let a ← adv5 fa amt a; let b ← adv5 fb amt b; return .vfms d a b c m)
  | .vfnma d a b c m => some (do let d ← adv5 fd amt d; let a ← adv5 fa amt a; let b ← adv5 fb amt b; return .vfnma d a b c m)
  | .vma d a b c m => some (do let d ← adv5 fd amt d; let a ← adv5 fa amt a; let b ← adv5 fb amt b; return .vma d a b c m)
  | .vcvtF2bf d a b m => some (do let d ← adv5 fd amt d; let a ← adv5 fa amt a; let b ← adv5 fb amt b; return .vcvtF2bf d a b m)
  | .vcvtBf2f d a h m => some (do let d ← adv5 fd amt d; let a ← adv5 fa amt a; return .vcvtBf2f d a h m)
  | .vcvtF2h d a b m => some (do let d ← adv5 fd amt d; let a ← adv5 fa amt a; let b ← adv5 fb amt b; return .vcvtF2h d a b m)
  | .vcvtH2f d a h m => some (do let d ← adv5 fd amt d; let a ← adv5 fa amt a; return .vcvtH2f d a h m)
  | .vcvtF2e4 d a k m => some (do let d ← adv5 fd amt d; let a ← adv5 fa amt a; return .vcvtF2e4 d a k m)
  | .vcvtE42f d a k m => some (do let d ← adv5 fd amt d; let a ← adv5 fa amt a; return .vcvtE42f d a k m)
  | .vcvtF2e5 d a k m => some (do let d ← adv5 fd amt d; let a ← adv5 fa amt a; return .vcvtF2e5 d a k m)
  | .vcvtE52f d a k m => some (do let d ← adv5 fd amt d; let a ← adv5 fa amt a; return .vcvtE52f d a k m)
  | .vcvtF2i d a m => some (do let d ← adv5 fd amt d; let a ← adv5 fa amt a; return .vcvtF2i d a m)
  | .vcvtI2f d a m => some (do let d ← adv5 fd amt d; let a ← adv5 fa amt a; return .vcvtI2f d a m)
  | .vcvtN2f d a m => some (do let d ← adv5 fd amt d; let a ← adv5 fa amt a; return .vcvtN2f d a m)
  | .vcvtF2n d a m => some (do let d ← adv5 fd amt d; let a ← adv5 fa amt a; return .vcvtF2n d a m)
  | .vcvtI2b d a k m => some (do let d ← adv5 fd amt d; let a ← adv5 fa amt a; return .vcvtI2b d a k m)
  | .vcvtB2i d a k m => some (do let d ← adv5 fd amt d; let a ← adv5 fa amt a; return .vcvtB2i d a k m)
  | .vbcast d a m => some (do let d ← adv5 fd amt d; let a ← adv5 fa amt a; return .vbcast d a m)
  | .vext d a b => some (do let d ← adv5 fd amt d; let a ← adv5 fa amt a; let b ← adv5 fb amt b; return .vext d a b)
  | .vins d a b => some (do let d ← adv5 fd amt d; let a ← adv5 fa amt a; let b ← adv5 fb amt b; return .vins d a b)
  | .vperm d a b m => some (do let d ← adv5 fd amt d; let a ← adv5 fa amt a; let b ← adv5 fb amt b; return .vperm d a b m)
  | .viota d m => some (do let d ← adv5 fd amt d; return .viota d m)
  | .vred d a op m => some (do let d ← adv5 fd amt d; let a ← adv5 fa amt a; return .vred d a op m)
  | .vscan d a op m => some (do let d ← adv5 fd amt d; let a ← adv5 fa amt a; return .vscan d a op m)
  | .vcomp d a m => some (do let d ← adv5 fd amt d; let a ← adv5 fa amt a; return .vcomp d a m)
  | .vslide d a b m => some (do let d ← adv5 fd amt d; let a ← adv5 fa amt a; let b ← adv5 fb amt b; return .vslide d a b m)
  | .pand d a b => some (do let d ← adv3 fd amt d; let a ← adv3 fa amt a; let b ← adv3 fb amt b; return .pand d a b)
  | .por d a b => some (do let d ← adv3 fd amt d; let a ← adv3 fa amt a; let b ← adv3 fb amt b; return .por d a b)
  | .pxor d a b => some (do let d ← adv3 fd amt d; let a ← adv3 fa amt a; let b ← adv3 fb amt b; return .pxor d a b)
  | .pandn d a b => some (do let d ← adv3 fd amt d; let a ← adv3 fa amt a; let b ← adv3 fb amt b; return .pandn d a b)
  | .pnot d a => some (do let d ← adv3 fd amt d; let a ← adv3 fa amt a; return .pnot d a)
  | .pcnt d a => some (do let d ← adv5 fd amt d; let a ← adv3 fa amt a; return .pcnt d a)
  | .pfirst d a => some (do let d ← adv5 fd amt d; let a ← adv3 fa amt a; return .pfirst d a)
  | .pset d a => some (do let d ← adv3 fd amt d; let a ← adv5 fa amt a; return .pset d a)
  | .pgets d a => some (do let d ← adv5 fd amt d; let a ← adv3 fa amt a; return .pgets d a)
  | _ => none

end Sys2Proof.Machine
end

