-- ==== Sys2Proof/Machine/Control.lean ====
section
/-! DEFINITION. Control instructions: branches, calls, counted loops and repeat frames (spec/13_scalar_instructions.md R287 to R297). -/

namespace Sys2Proof.Machine

/-- A conditional transfer (R287): taken to its target, or on in sequence. -/
def branchIf (i : Instr) (s : State) (taken : Slot → Bool) (t : Slot → Addr) : Host.Outcome State Fault Refusal :=
  issue i s fun s => if taken s.cur then .jump s (t s.cur) else .next s

/-- BR.ANY (R288). -/
def execBrAny (p : PredNo) (disp : BitVec 22) (s : State) : Host.Outcome State Fault Refusal :=
  branchIf (.brAny p disp) s (fun x => x.readP p != 0) fun x => target x.pc disp
/-- BR.NONE (R288). -/
def execBrNone (p : PredNo) (disp : BitVec 22) (s : State) : Host.Outcome State Fault Refusal :=
  branchIf (.brNone p disp) s (fun x => x.readP p == 0) fun x => target x.pc disp
/-- BCC (R289). -/
def execBcc (a b : RegNo) (cc : Cond) (disp : BitVec 13) (s : State) : Host.Outcome State Fault Refusal :=
  branchIf (.bcc a b cc disp) s (fun x => condHolds cc (x.readG a) (x.readG b)) fun x => target x.pc disp
/-- B (R290). -/
def execBra (disp : BitVec 26) (s : State) : Host.Outcome State Fault Refusal :=
  branchIf (.bra disp) s (fun _ => true) fun x => target x.pc disp

/-- The return address: PC + 4, zero-extended (R290). -/
def Slot.link (x : Slot) : Slot := x.writeG 31 ((x.pc + 4).setWidth 64)

/-- CALL (R290). -/
def execCall (disp : BitVec 26) (s : State) : Host.Outcome State Fault Refusal :=
  issue (.call disp) s fun s => .jump { s with cur := s.cur.link } (target s.cur.pc disp)

/-- JumpReg (R291): a misaligned target traps ALIGN with CODE 4 before g31 is written. -/
def jumpReg (i : Instr) (s : State) (r : RegNo) (link : Bool) : Host.Outcome State Fault Refusal :=
  issue i s fun s =>
    let t := s.cur.readG r
    if t.extractLsb' 0 2 ≠ 0 then .trap causeAlign 4 t
    else .jump (if link then { s with cur := s.cur.link } else s) (t.extractLsb' 0 48)

/-- JR (R291). -/
def execJr (a : RegNo) (s : State) : Host.Outcome State Fault Refusal := jumpReg (.jr a) s a false
/-- CALLR (R291). -/
def execCallr (a : RegNo) (s : State) : Host.Outcome State Fault Refusal := jumpReg (.callr a) s a true
/-- RET (R291). -/
def execRet (s : State) : Host.Outcome State Fault Refusal := jumpReg .ret s 31 false

/-- LOOP (R292): it decrements g[A] and is taken while the new value is not zero. -/
def execLoop (a : RegNo) (disp : BitVec 21) (s : State) : Host.Outcome State Fault Refusal :=
  issue (.loop a disp) s fun s =>
    let n := s.cur.readG a - 1
    let t := { s with cur := s.cur.writeG a n }
    if n ≠ 0 then .jump t (target s.cur.pc disp) else .next t

/-! ### REPF (R293 to R297) -/

/-- What capture finds. -/
inductive Captured where
  | ok (body : List W32)
  | missing (a : Addr)
  | trap (cause code : Nat) (xaddr : W64)
  deriving DecidableEq, Repr

/-- CaptureFrame (R293), from body position `j` on; `last` is STEP × (CNT − 1), by which the last pass advances the fields of FM. -/
def State.capture (s : State) (fm : BitVec 3) (last : Nat) : Nat → Nat → Captured
  | 0, _ => .ok []
  | n + 1, j =>
    let a := s.cur.pc + BitVec.ofNat 48 (4 * (j + 1))
    if !s.cur.inRegion a then .trap causeFetchBounds 0 (a.setWidth 64)
    else match s.icWord a with
      | none => .missing a
      | some w =>
        match decode w with
        | .illegal c => .trap causeIllegal c (w.setWidth 64)
        | .ok i =>
          match advanced fm last i with
          | none => .trap causeFrame 1 (w.setWidth 64)
          | some none => .trap causeFrame 2 (w.setWidth 64)
          | some (some _) =>
            match s.capture fm last n (j + 1) with
            | .ok l => .ok (w :: l)
            | r => r

/-- REPF (R293): it captures the body in one turn; the passes run from the next cycle on. A line of the body that the instruction cache does not
hold is fetched first. -/
def execRepf (len : BitVec 4) (cnt : BitVec 8) (fm : BitVec 3) (step : BitVec 2) (s : State) : Host.Outcome State Fault Refusal :=
  issue (.repf len cnt fm step) s fun s =>
    match s.capture fm ((step.toNat + 1) * cnt.toNat) (len.toNat + 1) 0 with
    | .trap c k x => .trap c k x
    | .missing a =>
      let t := s.updCur fun x => { x with hold := .again 0, word := encode (.repf len cnt fm step) }
      .done (t.wantLine a)
    | .ok body =>
      let f : Frame := ⟨body, cnt.toNat + 1, fm, step.toNat + 1, 0, 0, s.cur.pc + BitVec.ofNat 48 (4 * (len.toNat + 2))⟩
      .done (s.retire.updCur fun x => ({ x with frame := some f, hold := .none, wait := s.now + 1 } : Slot).countChunk s.pkg.chunkLimit)

/-- The instruction a running frame issues next (R295): the body word with its selected fields advanced by STEP × pass. -/
def Frame.current (f : Frame) : Option Instr :=
  match decode (f.body.getD f.idx 0) with
  | .ok i => (advanced f.fm (f.step * f.pass) i).join
  | .illegal _ => none

end Sys2Proof.Machine
end

