-- ==== Sys2Proof/Machine/Debug.lean ====
section
/-! DEFINITION. DEBUG and its sub-commands: package halt, stops, steps, breakpoints, images of stopped tasks, samples
(spec/23_bringup_security_debug.md R443 to R447; spec/22 R429). -/

namespace Sys2Proof.Machine

/-! ### The package (R429, R443) -/

/-- DEBUG HALT (R429): every slot stops issuing. -/
def execDebugHalt (c : Cmd) (s : State) : Host.Outcome State Fault Refusal :=
  hostCmd c (.debugHalt c) s (cmdClean c (debugBits 0) false) true false fun s => .done (s.updPkg fun p => { p with halted := true }) 0 0 0

/-- DEBUG RESUME (R443). -/
def execDebugResume (c : Cmd) (s : State) : Host.Outcome State Fault Refusal :=
  hostCmd c (.debugResume c) s (cmdClean c (debugBits 1) false) true false fun s => .done (s.updPkg fun p => { p with halted := false }) 0 0 0

/-! ### Tasks (R444, R445) -/

/-- Go on with a task that the ring may debug: an unknown TID is refused with SUB 5, one of another tenant is denied (log 23). -/
def State.debugTask (s : State) (c : Cmd) (f : Task → CmdRes) : CmdRes :=
  match s.tasks.get? (c.arg 1).toNat with
  | none => .done s 5 5 0
  | some t => if s.ringOwns c.ring t.asid then f t else .done s 4 0 0

/-- Go on with a launch that the ring may debug. -/
def State.debugLaunch (s : State) (c : Cmd) (f : Launch → CmdRes) : CmdRes :=
  match s.launch? ((c.arg 1).extractLsb' 0 32).toNat with
  | none => .done s 5 5 0
  | some l => if s.ringOwns c.ring l.h.asid then f l else .done s 4 0 0

/-- Ask a task to stop; a Saved or Moving one stops when it has been placed. -/
def State.askStop (s : State) (tid : W64) (t : Task) : State :=
  let ask := fun (x : Slot) => if x.status == .stopped || x.status == .halted then x else { x with stopReq := .stop }
  match t.place with
  | .slot k => s.updSlot k ask
  | _ => s.updRecs (fun r => r.tid == tid) fun r => { r with slot := ask r.slot }

/-- Whether a slot holds a task that debug has stopped, or HALT at M. -/
def Slot.debugStopped (x : Slot) : Bool := !x.ending && (x.status == .stopped || x.status == .halted)

/-- Let a stopped task run: it passes the breakpoint it stands at. A stop it has not met yet is withdrawn. -/
def State.runTask (s : State) (tid : W64) (t : Task) (req : StopReq) : State :=
  match t.place with
  | .slot k => s.updSlot k fun x =>
    if x.debugStopped then { x with status := .ready, stopReq := req } else if x.stopReq == .stop then { x with stopReq := .none } else x
  | _ => s.updRecs (fun r => r.tid == tid) fun r => { r with slot := { r.slot with stopReq := .none } }

/-- The tasks of a launch. -/
def State.tasksOf (s : State) (key : Nat) : List (Nat × Task) := s.tasks.filter fun e => e.2.launch == key

/-- DEBUG STOP (R444). -/
def execDebugStop (c : Cmd) (s : State) : Host.Outcome State Fault Refusal :=
  hostCmd c (.debugStop c) s (cmdClean c (debugBits 2) false) false false fun s =>
    s.debugTask c fun t => .done (s.askStop (c.arg 1) t) 0 0 0

/-- DEBUG GROUP (R444). -/
def execDebugGroup (c : Cmd) (s : State) : Host.Outcome State Fault Refusal :=
  hostCmd c (.debugGroup c) s (cmdClean c (debugBits 3) false) false false fun s =>
    s.debugLaunch c fun l => .done ((s.tasksOf l.key).foldl (fun s (e : Nat × Task) => s.askStop (BitVec.ofNat 64 e.1) e.2) s) 0 0 0

/-- DEBUG RUN (R443). -/
def execDebugRun (c : Cmd) (s : State) : Host.Outcome State Fault Refusal :=
  let group := (c.arg 2).getLsbD 0
  hostCmd c (.debugRun c) s (cmdClean c (debugBits 4) false && !(group && (c.arg 1).extractLsb' 32 32 != 0)) false false fun s =>
    if group then
      s.debugLaunch c fun l => .done ((s.tasksOf l.key).foldl (fun s (e : Nat × Task) => s.runTask (BitVec.ofNat 64 e.1) e.2 .run) s) 0 0 0
    else s.debugTask c fun t => .done (s.runTask (c.arg 1) t .run) 0 0 0

/-- Go on with the slot of a stopped task; a task that is not stopped is refused with SUB 6 (log 23). -/
def State.debugSlot (s : State) (c : Cmd) (f : Nat → Slot → CmdRes) : CmdRes :=
  s.debugTask c fun t => match t.place with
    | .slot k => if (s.slot k).debugStopped then f k (s.slot k) else .done s 5 6 0
    | _ => .done s 5 6 0

/-- DEBUG STEP (R445). -/
def execDebugStep (c : Cmd) (s : State) : Host.Outcome State Fault Refusal :=
  hostCmd c (.debugStep c) s (cmdClean c (debugBits 5) false) false false fun s =>
    s.debugSlot c fun k _ => .done (s.updSlot k fun x => { x with status := .ready, stopReq := .step }) 0 0 0

/-! ### Breakpoints (R443, R444) -/

/-- Whether a breakpoint entry is free or of an ASID the ring may act on. -/
def State.mayBreak (s : State) (c : Cmd) (n : Nat) : Bool :=
  match s.pkg.brks.get? n with
  | some b => s.ringOwns c.ring b.asid
  | none => true

/-- BPSET (R443). -/
def execBpset (c : Cmd) (s : State) : Host.Outcome State Fault Refusal :=
  hostCmd c (.bpset c) s (cmdClean c (debugBits 6) false) false false fun s =>
    let asid : BitVec 14 := (c.arg 2).extractLsb' 0 14
    let n := c.field 1 0 6
    let b : Brk := ⟨asid, (c.arg 3).extractLsb' 0 48, c.arg 4⟩
    if (s.tenantOf? asid).isNone then .done s 5 3 0
    else if !s.ringOwns c.ring asid || !s.mayBreak c n then .done s 4 0 0
    else .done (s.updPkg fun p => { p with brks := p.brks.set n b }) 0 0 0

/-- BPCLR (R443). -/
def execBpclr (c : Cmd) (s : State) : Host.Outcome State Fault Refusal :=
  hostCmd c (.bpclr c) s (cmdClean c (debugBits 7) false) false false fun s =>
    let n := c.field 1 0 6
    if !s.mayBreak c n then .done s 4 0 0 else .done (s.updPkg fun p => { p with brks := p.brks.del n }) 0 0 0

/-! ### Images (R82, Table 3.10) -/

/-- The low and the high 32 bits of a word. -/
def halves (v : W64) : W32 × W32 := (v.extractLsb' 0 32, v.extractLsb' 32 32)

/-- Write the word at an offset of the image, for the fields that are not RO. -/
def Slot.patch (x : Slot) (off : Nat) (v : W64) : Slot :=
  let k := off / 8
  let preds := fun (lo : Nat) => (List.range 4).foldl (fun (p : Vector Pred 8) j => if lo + j = 0 then p else p.setIfInBounds (lo + j) (v.extractLsb' (16 * j) 16)) x.regs.p
  if k = 0 then { x with pc := csrAddr v, skip := (0, 0) }
  else if k < 32 then { x with regs := { x.regs with g := x.regs.g.setIfInBounds k v } }
  else if k < 288 then
    let r := (k - 32) / 8
    let i := (k - 32) % 8 * 2
    let old := x.regs.v.getD r (.replicate 16 0)
    { x with regs := { x.regs with v := x.regs.v.setIfInBounds r ((old.setIfInBounds i (halves v).1).setIfInBounds (i + 1) (halves v).2) } }
  else if k < 290 then { x with regs := { x.regs with p := preds (4 * (k - 288)) } }
  else if k < 294 then { x with regs := { x.regs with shadow := x.regs.shadow.setIfInBounds (k - 290) v } }
  else if off = 0x930 then
    { x with u := { x.u with fflags := v.extractLsb' 24 5, frm := v.extractLsb' 29 2, txcause := v.extractLsb' 32 15 } }
  else if off = 0x938 then { x with u := { x.u with msa := (halves v).1, msb := (halves v).2 } }
  else if off = 0x940 then { x with u := { x.u with msc := (halves v).1 } }
  else if off = 0x988 then { x with u := { x.u with uevec := csrAddr v } }
  else if off = 0x990 then { x with u := { x.u with uepc := csrAddr v } }
  else if off = 0x998 then { x with u := { x.u with uepend := x.u.uepend &&& ~~~(v.extractLsb' 1 3) } }
  else if off = 0x9A0 then { x with u := { x.u with uemask := v.extractLsb' 0 4 } }
  else if off = 0x9A8 then { x with u := { x.u with dmap := v } }
  else if 0x9B0 ≤ off ∧ off < 0x9F0 then
    let i := (off - 0x9B0) / 4
    { x with u := { x.u with dacc := (x.u.dacc.setIfInBounds i (halves v).1).setIfInBounds (i + 1) (halves v).2 } }
  else x

/-- DEBUG READ (R443). -/
def execDebugRead (c : Cmd) (s : State) : Host.Outcome State Fault Refusal :=
  hostCmd c (.debugRead c) s (cmdClean c (debugBits 8) false) false false fun s =>
    s.debugSlot c fun _ x => .done (s.sendRma (c.arg 2) ((c.arg 3).extractLsb' 0 32) (x.image 0) .report) 0 0 2560

/-- DEBUG WRITE (R443): an offset that is no word of the image is a bad record. -/
def execDebugWrite (c : Cmd) (s : State) : Host.Outcome State Fault Refusal :=
  let off := (c.arg 2).toNat
  hostCmd c (.debugWrite c) s (cmdClean c (debugBits 9) false && decide (off % 8 = 0 ∧ off < 2560)) false false fun s =>
    s.debugSlot c fun k _ => .done (s.updSlot k fun x => x.patch off (c.arg 3)) 0 0 0

/-! ### Samples (R446) -/

/-- SAMPLE (R446): periodic samples of running slots; the command completes with the last. Its record names no ASID (R418): it samples the address spaces that
its ring may act on. DESIGN CHOICE (log 101). -/
def execSample (c : Cmd) (s : State) : Host.Outcome State Fault Refusal :=
  hostCmd c (.sample c) s (cmdClean c (debugBits 10) false) false false fun s =>
    let period := Nat.max 1 (c.arg 1).toNat
    let n := (c.arg 2).toNat
    if n = 0 then .done s 0 0 0
    else
      let (id, s) := s.fresh
      let k : Sample := ⟨id, period, n, [], c⟩
      .later ((s.updPkg fun p => { p with samples := p.samples ++ [k] }).after period (.samplePeriod id))

/-- The records of one period: TID, slot identity, PC and CYCLE of every running slot of the address spaces that a ring may act on. -/
def State.sampleNow (s : State) (ring : Nat) : List Byte :=
  let running := s.allSlots.filter fun e => e.2.status == .ready && s.ringOwns ring e.2.sc.asid
  running.flatMap fun e =>
    leBytes 8 e.2.u.tid.toNat ++ leBytes 8 (s.slotIdent e.1).toNat ++ leBytes 8 e.2.pc.toNat ++ leBytes 8 s.now

/-- SAMPLE_PERIOD (R446). -/
def execSamplePeriod (id : Nat) (s : State) : Host.Outcome State Fault Refusal :=
  match s.pkg.samples.find? fun k => k.id == id with
  | none => .next s
  | some k =>
    let recs := k.recs ++ s.sampleNow k.cmd.ring
    if 1 < k.left then
      .next ((s.updPkg fun p => { p with samples := p.samples.map fun (o : Sample) =>
        if o.id = id then { o with left := o.left - 1, recs := recs } else o }).after k.period (.samplePeriod id))
    else
      let s := s.updPkg fun p => { p with samples := p.samples.filter fun o => o.id != id }
      .next ((s.sendRma (k.cmd.arg 3) ((k.cmd.arg 4).extractLsb' 0 32) recs .report).finishCmd k.cmd 0 0 0)

end Sys2Proof.Machine
end

