-- ==== Sys2Proof/Machine/MemInstr.lean ====
section
/-! DEFINITION. Loads, stores, full/empty instructions, atomics, reservations, remote updates and FENCE as they issue
(spec/15_memory_instructions.md R316 to R332; spec/05_ordering.md R120). What the homes do is in Homes.lean. -/

namespace Sys2Proof.Machine

/-- Access sizes in bytes (R246, R328). -/
def szBytes : Size → Nat
  | .b => 1
  | .h => 2
  | .w => 4
  | .d => 8
def aszBytes : ASize → Nat
  | .w => 4
  | .d => 8

/-- A byte of 4 mask bits per active lane. -/
def laneMask (act : Pred) : Nat := maskOf 64 fun k => act.getLsbD (k / 4)
/-- The bytes of a vector: lane i in bytes 4i to 4i + 3 (R58). -/
def vecBytes (v : Vec) : List Byte := (List.range 64).map fun k => (lane v (k / 4)).extractLsb' (8 * (k % 4)) 8
/-- The active lanes in order. -/
def activeLanes (act : Pred) : List Nat := (List.range 16).filter fun k => act.getLsbD k

/-! ### Scalar loads and stores (R320, R321) -/

/-- A scalar load at an offset. -/
def scalarLoad (i : Instr) (s : State) (d a : RegNo) (n : Nat) (off : Int) (fmt : Option Nat) (sgn ctl : Bool) : Host.Outcome State Fault Refusal :=
  issue i s fun s => accessAct i s ⟨s.cur.readG a, n, .load, false, fmt, ctl, [⟨0, off, n, lowMask n, []⟩]⟩ (.g d n sgn)

/-- A scalar store at an offset; g[D] is the data. -/
def scalarStore (i : Instr) (s : State) (d a : RegNo) (n : Nat) (off : Int) (fmt : Option Nat) (ctl : Bool) : Host.Outcome State Fault Refusal :=
  issue i s fun s =>
    accessAct i s ⟨s.cur.readG a, n, .store, true, fmt, ctl, [⟨0, off, n, lowMask n, regBytes n (s.cur.readG d)⟩]⟩ .none

/-- The scaled index of LDX and STX, and the format check (R321). -/
def indexOff (x : Slot) (a b : RegNo) (n : Nat) : Int × Option Nat :=
  match indexScale (x.readG a) n with
  | .inl e => ((x.readG b).toInt * e, none)
  | .inr c => (0, some c)

/-- LD (R320). -/
def execLd (d a : RegNo) (la : BitVec 4) (x : Bool) (sz : Size) (off : BitVec 9) (s : State) : Host.Outcome State Fault Refusal :=
  scalarLoad (.ld d a la x sz off) s d a (szBytes sz) (off.toInt * szBytes sz) none true (sz == .d && !x)
/-- LDN (R320). -/
def execLdn (d a : RegNo) (la : BitVec 4) (x : Bool) (sz : Size) (off : BitVec 9) (s : State) : Host.Outcome State Fault Refusal :=
  scalarLoad (.ldn d a la x sz off) s d a (szBytes sz) (off.toInt * szBytes sz) none false false
/-- ST (R320). -/
def execSt (d a : RegNo) (la : BitVec 4) (x : Bool) (sz : Size) (off : BitVec 9) (s : State) : Host.Outcome State Fault Refusal :=
  scalarStore (.st d a la x sz off) s d a (szBytes sz) (off.toInt * szBytes sz) none (sz == .d && !x)
/-- LDX (R321). -/
def execLdx (d a b : RegNo) (la : BitVec 4) (x : Bool) (sz : Size) (z : Bool) (s : State) : Host.Outcome State Fault Refusal :=
  let o := indexOff s.cur a b (szBytes sz)
  scalarLoad (.ldx d a b la x sz z) s d a (szBytes sz) o.1 o.2 (!z) false
/-- STX (R321). -/
def execStx (d a b : RegNo) (la : BitVec 4) (x : Bool) (sz : Size) (s : State) : Host.Outcome State Fault Refusal :=
  let o := indexOff s.cur a b (szBytes sz)
  scalarStore (.stx d a b la x sz) s d a (szBytes sz) o.1 o.2 false

/-! ### Full/empty instructions (R327) -/

/-- A full/empty instruction: no offset, 8-byte aligned. -/
def feAccess (i : Instr) (s : State) (a : RegNo) (k : ReqKind) (write : Bool) (data : Slot → List Byte) (wb : WriteBack) :
    Host.Outcome State Fault Refusal :=
  issue i s fun s => accessAct i s ⟨s.cur.readG a, 8, k, write, none, false, [⟨0, 0, 8, lowMask 8, data s.cur⟩]⟩ wb

/-- LDF (R327). -/
def execLdf (d a : RegNo) (la : BitVec 4) (s : State) : Host.Outcome State Fault Refusal :=
  feAccess (.ldf d a la) s a .ldf true (fun _ => []) (.g d 8 false)
/-- LDFF (R327). -/
def execLdff (d a : RegNo) (la : BitVec 4) (s : State) : Host.Outcome State Fault Refusal :=
  feAccess (.ldff d a la) s a .ldff false (fun _ => []) (.g d 8 false)
/-- STE (R327). -/
def execSte (d a : RegNo) (la : BitVec 4) (s : State) : Host.Outcome State Fault Refusal :=
  feAccess (.ste d a la) s a .ste true (fun x => regBytes 8 (x.readG d)) .none
/-- STEF (R327). -/
def execStef (d a : RegNo) (la : BitVec 4) (s : State) : Host.Outcome State Fault Refusal :=
  feAccess (.stef d a la) s a .stef true (fun x => regBytes 8 (x.readG d)) .none
/-- FECLR (R327). -/
def execFeclr (a : RegNo) (la : BitVec 4) (s : State) : Host.Outcome State Fault Refusal :=
  feAccess (.feclr a la) s a .feclr true (fun _ => []) .none
/-- FEGET (R327). -/
def execFeget (d a : RegNo) (la : BitVec 4) (s : State) : Host.Outcome State Fault Refusal :=
  feAccess (.feget d a la) s a .feget false (fun _ => []) (.g d 8 false)

/-! ### Atomics (R328, R329) -/

/-- An AMO: g[D] takes the old value, extended as Table 15.4 gives. -/
def amo (i : Instr) (s : State) (a b : RegNo) (n : Nat) (op : AmoOp) (wb : WriteBack) : Host.Outcome State Fault Refusal :=
  issue i s fun s =>
    accessAct i s ⟨s.cur.readG a, n, .amo op, true, none, false, [⟨0, 0, n, lowMask n, regBytes n (s.cur.readG b)⟩]⟩ wb

/-- AMO.ADD (R328). -/
def execAmoAdd (d a b : RegNo) (la : BitVec 4) (sz : ASize) (s : State) : Host.Outcome State Fault Refusal :=
  amo (.amoAdd d a b la sz) s a b (aszBytes sz) .add (.g d (aszBytes sz) true)
/-- AMO.AND (R328). -/
def execAmoAnd (d a b : RegNo) (la : BitVec 4) (sz : ASize) (s : State) : Host.Outcome State Fault Refusal :=
  amo (.amoAnd d a b la sz) s a b (aszBytes sz) .and (.g d (aszBytes sz) true)
/-- AMO.OR (R328). -/
def execAmoOr (d a b : RegNo) (la : BitVec 4) (sz : ASize) (s : State) : Host.Outcome State Fault Refusal :=
  amo (.amoOr d a b la sz) s a b (aszBytes sz) .or (.g d (aszBytes sz) true)
/-- AMO.XOR (R328). -/
def execAmoXor (d a b : RegNo) (la : BitVec 4) (sz : ASize) (s : State) : Host.Outcome State Fault Refusal :=
  amo (.amoXor d a b la sz) s a b (aszBytes sz) .xor (.g d (aszBytes sz) true)
/-- AMO.MIN (R328). -/
def execAmoMin (d a b : RegNo) (la : BitVec 4) (sz : ASize) (s : State) : Host.Outcome State Fault Refusal :=
  amo (.amoMin d a b la sz) s a b (aszBytes sz) .min (.g d (aszBytes sz) true)
/-- AMO.MAX (R328). -/
def execAmoMax (d a b : RegNo) (la : BitVec 4) (sz : ASize) (s : State) : Host.Outcome State Fault Refusal :=
  amo (.amoMax d a b la sz) s a b (aszBytes sz) .max (.g d (aszBytes sz) true)
/-- AMO.MINN (R328). -/
def execAmoMinn (d a b : RegNo) (la : BitVec 4) (sz : ASize) (s : State) : Host.Outcome State Fault Refusal :=
  amo (.amoMinn d a b la sz) s a b (aszBytes sz) .minn (.g d (aszBytes sz) false)
/-- AMO.MAXN (R328). -/
def execAmoMaxn (d a b : RegNo) (la : BitVec 4) (sz : ASize) (s : State) : Host.Outcome State Fault Refusal :=
  amo (.amoMaxn d a b la sz) s a b (aszBytes sz) .maxn (.g d (aszBytes sz) false)
/-- AMO.SWAP (R328). -/
def execAmoSwap (d a b : RegNo) (la : BitVec 4) (sz : ASize) (s : State) : Host.Outcome State Fault Refusal :=
  amo (.amoSwap d a b la sz) s a b (aszBytes sz) .swap (.g d (aszBytes sz) true)
/-- AMO.FADD (R328): its flags reach FFLAGS at completion. -/
def execAmoFadd (d a b : RegNo) (la : BitVec 4) (s : State) : Host.Outcome State Fault Refusal :=
  amo (.amoFadd d a b la) s a b 4 .fadd (.fadd d)
/-- CAS (R329). -/
def execCas (d a b c : RegNo) (sz : ASize) (s : State) : Host.Outcome State Fault Refusal :=
  issue (.cas d a b c sz) s fun s =>
    let n := aszBytes sz
    accessAct (.cas d a b c sz) s ⟨s.cur.readG a, n, .cas (s.cur.readG b), true, none, false,
      [⟨0, 0, n, lowMask n, regBytes n (s.cur.readG c)⟩]⟩ (.g d n true)

/-! ### Reservations (R331, R332) -/

/-- Whether the slot in focus holds a reservation at this address and size. -/
def Slot.reserved (x : Slot) (p : W64) (n : Nat) : Bool :=
  match x.rsv with
  | some (q, m, _, _) => vaOf q == vaOf p && m == n
  | none => false

/-- Where the buoy of a slot's reservation stands: home and line. -/
def Slot.rsvAt (x : Slot) : Nat × Nat := match x.rsv with | some (_, _, home, line) => (home, line) | none => (0, 0)

/-- LDR (R331): an earlier reservation is released first. -/
def execLdr (d a : RegNo) (la : BitVec 4) (sz : ASize) (s : State) : Host.Outcome State Fault Refusal :=
  issue (.ldr d a la sz) s fun s =>
    let n := aszBytes sz
    let acc : Access := ⟨s.cur.readG a, n, .ldr, false, none, false, [⟨0, 0, n, lowMask n, []⟩]⟩
    match s.checkAll acc acc.elems with
    | .inl f => .trap f.cause f.code f.xaddr
    | .inr _ => accessAct (.ldr d a la sz) s.clearRsv acc (.ldr d n)
/-- STC (R331). -/
def execStc (d a b : RegNo) (la : BitVec 4) (sz : ASize) (s : State) : Host.Outcome State Fault Refusal :=
  issue (.stc d a b la sz) s fun s =>
    let n := aszBytes sz
    let acc : Access := ⟨s.cur.readG a, n, .stc, true, none, false, [⟨0, 0, n, lowMask n, regBytes n (s.cur.readG b)⟩]⟩
    match s.checkAll acc acc.elems with
    | .inl f => .trap f.cause f.code f.xaddr
    | .inr _ =>
      if s.cur.reserved (s.cur.readG a) n then
        accessAct (.stc d a b la sz) (s.updCur fun x => { x with rsv := none }) acc (.stc d s.cur.rsvAt.1 s.cur.rsvAt.2)
      else longResult (.stc d a b la sz) s.clearRsv 1 false fun x => x.writeG d 0
/-- WRS (R332). -/
def execWrs (d a : RegNo) (la : BitVec 4) (sz : ASize) (s : State) : Host.Outcome State Fault Refusal :=
  issue (.wrs d a la sz) s fun s =>
    let n := aszBytes sz
    let acc : Access := ⟨s.cur.readG a, n, .wrs, false, none, false, [⟨0, 0, n, lowMask n, []⟩]⟩
    match s.checkAll acc acc.elems with
    | .inl f => .trap f.cause f.code f.xaddr
    | .inr _ =>
      if s.cur.reserved (s.cur.readG a) n then
        accessAct (.wrs d a la sz) (s.updCur fun x => { x with rsv := none }) acc (.wrs d n s.cur.rsvAt.1 s.cur.rsvAt.2)
      else accessAct (.wrs d a la sz) s.clearRsv { acc with kind := .load } (.g d n true)

/-! ### Remote updates (R330) -/

/-- A remote update: it is sent, once the NI has a credit for it (Table 5.1, R229), or kept with its chunk in program order (R148), and retires at once. -/
def rupd (i : Instr) (s : State) (a b : RegNo) (n : Nat) (op : AmoOp) : Host.Outcome State Fault Refusal :=
  issue i s fun s =>
    let e : Elem := ⟨0, 0, n, lowMask n, regBytes n (s.cur.readG b)⟩
    match s.slotChecks ⟨s.cur.readG a, n, .rupd op, true, none, false, [e]⟩ e with
    | .inl f => .trap f.cause f.code f.xaddr
    | .inr (p, c) =>
      if s.cur.speculates then
        if c.away then .spec
        else .next (s.updCur fun x => { x with spec := { x.spec with
          updates := x.spec.updates ++ [((op, n, p, s.cur.readG b) : AmoOp × Nat × W64 × W64)] } })
      else if !s.podCredit s.myTile s.cur.sc.asid c then .stall
      else
        let (r, s) := s.mkReq 0 (.rupd op) none e p c
        .next (s.sendReq r)

/-- RUPD.ADD (R330). -/
def execRupdAdd (a b : RegNo) (sz : ASize) (s : State) : Host.Outcome State Fault Refusal :=
  rupd (.rupdAdd a b sz) s a b (aszBytes sz) .add
/-- RUPD.AND (R330). -/
def execRupdAnd (a b : RegNo) (sz : ASize) (s : State) : Host.Outcome State Fault Refusal :=
  rupd (.rupdAnd a b sz) s a b (aszBytes sz) .and
/-- RUPD.OR (R330). -/
def execRupdOr (a b : RegNo) (sz : ASize) (s : State) : Host.Outcome State Fault Refusal :=
  rupd (.rupdOr a b sz) s a b (aszBytes sz) .or
/-- RUPD.XOR (R330). -/
def execRupdXor (a b : RegNo) (sz : ASize) (s : State) : Host.Outcome State Fault Refusal :=
  rupd (.rupdXor a b sz) s a b (aszBytes sz) .xor
/-- RUPD.MIN (R330). -/
def execRupdMin (a b : RegNo) (sz : ASize) (s : State) : Host.Outcome State Fault Refusal :=
  rupd (.rupdMin a b sz) s a b (aszBytes sz) .min
/-- RUPD.MAX (R330). -/
def execRupdMax (a b : RegNo) (sz : ASize) (s : State) : Host.Outcome State Fault Refusal :=
  rupd (.rupdMax a b sz) s a b (aszBytes sz) .max
/-- RUPD.MINN (R330). -/
def execRupdMinn (a b : RegNo) (sz : ASize) (s : State) : Host.Outcome State Fault Refusal :=
  rupd (.rupdMinn a b sz) s a b (aszBytes sz) .minn
/-- RUPD.MAXN (R330). -/
def execRupdMaxn (a b : RegNo) (sz : ASize) (s : State) : Host.Outcome State Fault Refusal :=
  rupd (.rupdMaxn a b sz) s a b (aszBytes sz) .maxn
/-- RUPD.FADD (R330): no flag anywhere. -/
def execRupdFadd (a b : RegNo) (s : State) : Host.Outcome State Fault Refusal :=
  rupd (.rupdFadd a b) s a b 4 .fadd

/-! ### FENCE (R120) -/

/-- FENCE of kind 0 (R120). -/
def execFence (sc : Scope) (s : State) : Host.Outcome State Fault Refusal :=
  issue (.fence sc) s fun s => awaitRelease s sc false .next
/-- FENCE of kind 1 (R120): only the wait of R70. -/
def execFenceAcq (sc : Scope) (s : State) : Host.Outcome State Fault Refusal :=
  issue (.fenceAcq sc) s fun s => .next s
/-- FENCE of kind 2 (R120). -/
def execFenceRel (sc : Scope) (s : State) : Host.Outcome State Fault Refusal :=
  issue (.fenceRel sc) s fun s => awaitRelease s sc false .next
/-- FENCE of kind 3 (R120). -/
def execFenceEng (sc : Scope) (s : State) : Host.Outcome State Fault Refusal :=
  issue (.fenceEng sc) s fun s => awaitRelease s sc true .next

/-! ### Vector loads and stores (R322 to R325) -/

/-- VLD (R322). -/
def execVld (d a : RegNo) (la : BitVec 4) (x : Bool) (m : PredNo) (off : BitVec 7) (s : State) : Host.Outcome State Fault Refusal :=
  issue (.vld d a la x m off) s fun s =>
    let act := s.cur.readP m
    accessAct (.vld d a la x m off) s ⟨s.cur.readG a, 64, .load, false, none, false, [⟨0, off.toInt * 64, 64, laneMask act, []⟩]⟩
      (.vec d act 64 false)
/-- The span of VLD.C and the bytes of an element (Table 15.3); the FMT sub-code otherwise. -/
def spanOf (p : W64) : Nat × Nat ⊕ Nat :=
  match fmtFault p with
  | some c => .inr c
  | none =>
    match fmtOf p with
    | 0x10 | 0x05 | 0x06 => .inl (64, 4)
    | 0x11 | 0x12 | 0x03 | 0x04 => .inl (32, 2)
    | 0x13 | 0x14 | 0x01 | 0x02 => .inl (16, 1)
    | 0x15 => .inl (2 ^ blgOf p, 0)
    | _ => .inr 3

/-- VLD.C (R323). -/
def execVldC (d a : RegNo) (la : BitVec 4) (x : Bool) (m : PredNo) (off : BitVec 7) (s : State) : Host.Outcome State Fault Refusal :=
  issue (.vldC d a la x m off) s fun s =>
    let act := s.cur.readP m
    let p := s.cur.readG a
    let acc : Access := match spanOf p with
      | .inl (n, e) =>
        ⟨p, n, .load, false, none, false,
          [⟨0, off.toInt * 64, n, if act = 0 then 0 else if e = 0 then lowMask n else maskOf n fun k => act.getLsbD (k / e), []⟩]⟩
      | .inr c => ⟨p, 1, .load, false, some c, false, [⟨0, 0, 1, 1, []⟩]⟩
    accessAct (.vldC d a la x m off) s acc (.vldc d act (fmtOf p) (blgOf p))
/-- VST (R322). -/
def execVst (d a : RegNo) (la : BitVec 4) (x : Bool) (m : PredNo) (off : BitVec 7) (s : State) : Host.Outcome State Fault Refusal :=
  issue (.vst d a la x m off) s fun s =>
    let act := s.cur.readP m
    accessAct (.vst d a la x m off) s
      ⟨s.cur.readG a, 64, .store, true, none, false, [⟨0, off.toInt * 64, 64, laneMask act, vecBytes (s.cur.readV d)⟩]⟩ .none
/-- The elements of an indexed or strided vector access: one for each active lane. -/
def laneElems (x : Slot) (m : PredNo) (n : Nat) (off : Nat → Int) (data : Nat → List Byte) : List Elem :=
  (activeLanes (x.readP m)).map fun k => ⟨k, off k, n, lowMask n, data k⟩

/-- The lane offsets of VLDX and VSTX, and the format check (R324). -/
def laneOff (x : Slot) (a b : RegNo) (n : Nat) : (Nat → Int) × Option Nat :=
  match indexScale (x.readG a) n with
  | .inl e => (fun k => (lane (x.readV b) k).toInt * e, none)
  | .inr c => (fun _ => 0, some c)

/-- VLDX (R324). -/
def execVldx (d a b : RegNo) (la : BitVec 4) (x : Bool) (sz : Size) (m : PredNo) (z : Bool) (s : State) : Host.Outcome State Fault Refusal :=
  issue (.vldx d a b la x sz m z) s fun s =>
    let n := szBytes sz
    let o := laneOff s.cur a b n
    accessAct (.vldx d a b la x sz m z) s ⟨s.cur.readG a, n, .load, false, o.2, false, laneElems s.cur m n o.1 fun _ => []⟩
      (.vec d (s.cur.readP m) n (!z))
/-- VSTX (R324). -/
def execVstx (d a b : RegNo) (la : BitVec 4) (x : Bool) (sz : Size) (m : PredNo) (s : State) : Host.Outcome State Fault Refusal :=
  issue (.vstx d a b la x sz m) s fun s =>
    let n := szBytes sz
    let o := laneOff s.cur a b n
    accessAct (.vstx d a b la x sz m) s
      ⟨s.cur.readG a, n, .store, true, o.2, false, laneElems s.cur m n o.1 fun k => laneBytes n (lane (s.cur.readV d) k)⟩ .none
/-- VLDS (R325). -/
def execVlds (d a b : RegNo) (la : BitVec 4) (m : PredNo) (x : Bool) (s : State) : Host.Outcome State Fault Refusal :=
  issue (.vlds d a b la m x) s fun s =>
    accessAct (.vlds d a b la m x) s
      ⟨s.cur.readG a, 4, .load, false, none, false, laneElems s.cur m 4 (fun k => (k : Int) * (s.cur.readG b).toInt) fun _ => []⟩
      (.vec d (s.cur.readP m) 4 false)
/-- VSTS (R325). -/
def execVsts (d a b : RegNo) (la : BitVec 4) (m : PredNo) (x : Bool) (s : State) : Host.Outcome State Fault Refusal :=
  issue (.vsts d a b la m x) s fun s =>
    accessAct (.vsts d a b la m x) s
      ⟨s.cur.readG a, 4, .store, true, none, false,
        laneElems s.cur m 4 (fun k => (k : Int) * (s.cur.readG b).toInt) fun k => laneBytes 4 (lane (s.cur.readV d) k)⟩ .none

end Sys2Proof.Machine
end

