-- ==== Sys2Proof/Machine/Cycle.lean ====
section
/-! DEFINITION. A core cycle: what reaches an instruction boundary there, which slot each core selects, and CYCLE and the tile counters
(spec/03_registers.md R64 to R66; spec/10_counters.md R233; spec/01 R19, R26; spec/07 R185; spec/23 R444). -/

namespace Sys2Proof.Machine

/-! ### What is next at a slot -/

/-- What a slot's place in the program holds: an instruction, a word that is none, an address outside the code region, or a line not yet fetched. -/
inductive Next where
  | instr (i : Instr)
  | illegal (w : W32)
  | outside
  | missing

/-- The next instruction of the slot in focus (R71, R79, R244): one that holds issue, the next of the running frame, or the word at the pc. -/
def State.next (s : State) : Next :=
  let x := s.cur
  let word := fun (w : W32) => match decode w with | .ok i => Next.instr i | .illegal _ => Next.illegal w
  if x.hold != .none then word x.word
  else match x.frame with
    | some f => (match f.current with | some i => .instr i | none => .illegal (f.body.getD f.idx 0))
    | none =>
      if !x.inRegion x.pc then .outside
      else match s.icWord x.pc with
        | some w => word w
        | none => .missing

/-- What keeps a slot from issuing (R65, R233): nothing, a register that awaits a result, a lookahead window, a line to be fetched, or something
else. -/
inductive Ready where
  | go | scoreboard | window | line | no
  deriving DecidableEq, Repr

/-- The meanings that can end without an issue after R65 has let the instruction pass: matrix commands, whose room is tested last (R346), remote updates, which
need a credit (Table 5.1), and accesses at which a glider holds or a chunk ends (Table 6.3). -/
def triedMeaning (i : Instr) : Option (State → Host.Outcome State Fault Refusal) :=
  match i with
  | .mma md a b ty t z => some (execMma md a b ty t z)
  | .mmaIx md a b v ty t z => some (execMmaIx md a b v ty t z)
  | .msp md a b v ty t z => some (execMsp md a b v ty t z)
  | .mzero d => some (execMzero d)
  | .mlda d a => some (execMlda d a)
  | .msta d a => some (execMsta d a)
  | .mmov d a => some (execMmov d a)
  | .rupdAdd a b sz => some (execRupdAdd a b sz)
  | .rupdAnd a b sz => some (execRupdAnd a b sz)
  | .rupdOr a b sz => some (execRupdOr a b sz)
  | .rupdXor a b sz => some (execRupdXor a b sz)
  | .rupdMin a b sz => some (execRupdMin a b sz)
  | .rupdMax a b sz => some (execRupdMax a b sz)
  | .rupdMinn a b sz => some (execRupdMinn a b sz)
  | .rupdMaxn a b sz => some (execRupdMaxn a b sz)
  | .rupdFadd a b => some (execRupdFadd a b)
  | .ld d a la x sz off => some (execLd d a la x sz off)
  | .ldn d a la x sz off => some (execLdn d a la x sz off)
  | .st d a la x sz off => some (execSt d a la x sz off)
  | .ldx d a b la x sz z => some (execLdx d a b la x sz z)
  | .stx d a b la x sz => some (execStx d a b la x sz)
  | .vld d a la x m off => some (execVld d a la x m off)
  | .vldC d a la x m off => some (execVldC d a la x m off)
  | .vst d a la x m off => some (execVst d a la x m off)
  | .vldx d a b la x sz m z => some (execVldx d a b la x sz m z)
  | .vstx d a b la x sz m => some (execVstx d a b la x sz m)
  | .vlds d a b la m x => some (execVlds d a b la m x)
  | .vsts d a b la m x => some (execVsts d a b la m x)
  | _ => none

/-- Whether such an instruction of the slot in focus would not issue: its turn is not spent. In a transaction everything that passes R65 issues. -/
def State.unspent (s : State) (i : Instr) : Bool :=
  !s.cur.inTx && match triedMeaning i with
    | some f => (match f s with | .next t => t.cur.u.turns == s.cur.u.turns | _ => false)
    | none => false

/-- The conditions of CanIssue that an instruction's own meaning tests: room at a channel's receive end or in a command queue, a credit, and a commit that
still runs. -/
def State.waits (s : State) (i : Instr) : Bool :=
  let stalls := fun (a : Act) => match a with | .stall => true | _ => false
  (((infoOf i).kind == .update || s.cur.speculates || ((infoOf i).cls == .engine && !s.queueRoom 0)) && s.unspent i) || match i with
  | .qpush g q => stalls (pushChan i s q.toNat [s.cur.readG g])
  | .qpushv _ q => stalls (pushChan i s q.toNat (List.replicate 16 0))
  | .txb _ => s.cur.spec.commit != .none
  | .barg id => s.cur.spec.commit != .none && !s.cur.sc.piste && (match (s.task s.myTid).arrival id with
    | some phase => !s.barDone (s.barName s.cur id) phase
    | none => false)
  | _ => false

/-- CanIssue (R65) of the slot in focus. -/
def State.canIssue (s : State) : Ready :=
  let x := s.cur
  if !s.mayIssue || (s.cur.dueEvent.isSome && s.cur.atUserEvent && !x.sc.piste) then .no
  else match s.next with
    | .missing => .line
    | .outside | .illegal _ => if x.inWindows then .go else .window
    | .instr i =>
      if !x.inWindows then .window
      else match s.permits i with
        | .stall => if (x.conflict (infoOf i).names).isNone && x.awaits (infoOf i).names s.now then .scoreboard else .no
        | .go => if s.waits i then .no else .go
        | .trap .. | .abort .. => .go
        | .stop | .hold | .endChunk => .no

/-- What the slot in focus does at an instruction that it reaches and does not issue: it stops at a breakpoint; a glider holds; a chunk ends (R145, R147,
R443). -/
def State.meet (s : State) : State :=
  if !s.mayIssue || !s.cur.inWindows || (s.cur.dueEvent.isSome && s.cur.atUserEvent && !s.cur.sc.piste) then s
  else match s.next with
    | .instr i =>
      (match s.permits i with
      | .stop => s.takeStop
      | .hold | .endChunk => s.specStop
      | .go =>
        if s.cur.speculates && s.unspent i then (match triedMeaning i with
          | some f => (match f s with | .next t => t | _ => s)
          | none => s)
        else s
      | _ => s)
    | _ => s

/-! ### SelectSlot (R65) -/

/-- The member of a list of slots with the least (age, index). -/
def State.oldest (s : State) (l : List Nat) : Option Nat :=
  (l.foldl (fun (acc : Option (Nat × Nat)) k =>
    let a := (s.slot k).age
    match acc with
    | none => some (a, k)
    | some b => if a < b.1 ∨ (a = b.1 ∧ k < b.2) then some (a, k) else some b) none).map (·.2)

/-- The slot the procedure looks at first among the eligible slots `e` of a core. -/
def State.choose (s : State) (core : Nat) (e : List Nat) : Option Nat :=
  let c := s.core core
  let cur := core * 8 + c.cur
  if !c.pol then
    if e.contains cur && !(s.slot cur).yld then some cur
    else s.oldest (if (s.slot cur).yld && e != [cur] then e.filter (· != cur) else e)
  else ((List.range 8).map fun k => core * 8 + (c.last + 1 + k) % 8).find? fun k => e.contains k

/-- SelectSlot for a core; a chosen slot that forfeits spends its turn and the rest go on. -/
def State.select : Nat → State → Nat → List Nat → Option Nat × State
  | 0, s, _, _ => (none, s)
  | n + 1, s, core, e =>
    match s.choose core e with
    | none => (none, s)
    | some k =>
      if 0 < (s.slot k).forfeit then
        let s := s.updSlot k fun x => { x with forfeit := x.forfeit - 1, u := { x.u with turns := x.u.turns + 1 } }
        State.select n ((s.tally (core / 8) 2 1).tally (core / 8) 13 1) core (e.filter (· != k))
      else
        let old := core * 8 + (s.core core).cur
        let s := if old = k then s else s.updSlot old fun x => { x with yld := false }
        let s := s.updSlot k fun x => { x with yld := false }
        (some k, s.updCore core fun c => { c with cur := k % 8, last := k % 8 })

/-! ### Boundaries -/

/-- Whether the task of the slot in focus, which is to end, can end now (R19, R84, R146, R185): at an instruction boundary, with no started matrix
command, no commit being applied and no update of a committed chunk still to be sent. A frame that runs goes on to its end (R297). An instruction that only waits to be examined again has had no effect. -/
def State.mayEnd (s : State) : Bool :=
  let x := s.cur
  let answered := match x.hold with | .answer _ => false | _ => true
  let blocked := match x.status with | .blocked _ => true | _ => false
  x.status != .saving && (x.frame.isNone || x.spec.stalled || x.spec.ended || blocked) && answered && x.spec.commit != .applying &&
    (x.spec.mode == .chunk || x.spec.updates.isEmpty) && (x.ops.all fun o => s.opWaits o) && !s.matrixRuns (coreOf s.curId) x.u.tid

/-- Whether a debug stop of the slot in focus is taken now (R444). -/
def State.mayStop (s : State) : Bool :=
  let x := s.cur
  x.stopReq == .stop && x.status == .ready && x.hold == .none && x.frame.isNone && x.ops.isEmpty && x.fails.isEmpty && x.spec.commit != .applying &&
    (!x.sc.piste || (x.spec.mode == .chunk && !x.spec.ended))

/-- What reaches its boundary at the slot in focus as a cycle begins: results that have come due, the end of a task, a debug stop, an instruction that is
met without an issue; an eviction and a user event are on their way. -/
def State.settleSlot (s : State) : State :=
  let s := if s.cur.ops.isEmpty then s else s.ripen
  let x := s.cur
  if x.ending then (if s.mayEnd then s.endNow false else if x.frame.isSome then s.meet else s)
  else if x.leaving && x.level == .u && s.atBoundary then s.afterOnce 0 (.eviction s.curId)
  else if s.mayStop then s.takeStop
  else if x.dueEvent.isSome && x.atUserEvent && !x.sc.piste && !s.pkg.halted then s.afterOnce 0 (.userEventDelivery s.curId)
  else s.meet

/-- Whether an instruction that holds issue at the slot in focus is examined again in this cycle; a Piste slot outside a chunk acts at its turn
(R149). DEDUCED (log 9). -/
def State.reexamine (s : State) : Bool :=
  let x := s.cur
  let again := match x.hold with | .again _ => true | _ => false
  again && x.status == .ready && !s.pkg.halted && (!x.sc.piste || x.spec.mode == .chunk || (match s.launch? x.lkey with
    | some l => l.turnSt == 2 && (match s.turnWindow l with | some (first, _) => first * 64 + l.turn == s.curId | none => false)
    | none => false))

/-! ### The cycle -/

/-- The slots that hold a task. -/
def State.taken (s : State) : List Nat := (s.allSlots.filter fun e => e.2.status != .free).map (·.1)

/-- A core's part of a cycle: stalls are counted, lines are asked for, and one slot is selected. -/
def State.cycleCore (s : State) (core : Nat) (mine : List Nat) : State :=
  let st := mine.map fun k => (k, (s.focus k).canIssue)
  let count := fun (r : Ready) => (st.filter fun e => e.2 == r).length
  let s := (s.tally (core / 8) 4 (count .scoreboard)).tally (core / 8) 5 (count .window)
  let s := (st.filter fun e => e.2 == .line).foldl (fun s e => s.within e.1 fun s => s.wantLine s.cur.pc) s
  let (pick, s) := State.select 8 s core ((st.filter fun e => e.2 == .go).map (·.1))
  match pick with
  | some k => s.updNet fun n => { n with issueQ := n.issueQ ++ [k] }
  | none => s

/-- A dispatcher that could place or evict a task now is told so. -/
def State.wakeDispatcher (s : State) (tile : Nat) : State :=
  let t := s.tile tile
  let any := (t.recs.any fun r => r.2.ready && r.2.done) || !t.prefetched.isEmpty || s.net.moving.any fun m => m.tile == tile && m.task.ready
  if any && ((s.preemptVictim tile).isSome || (s.fillSlot tile (fun l => s.slotFor (tile * 64) l) true true).isSome) then
    s.afterOnce 0 (.dispatch (tile * 64))
  else s

/-- A new cycle begins: CYCLE advances, what left for other packages has gone, writes of shared CSRs of the last cycle act (R60), keepers are told what has
changed, and the counters of cycles count. -/
def State.beginCycle (s : State) : State :=
  let s := s.updPkg fun p => { p with cycle := p.cycle + 1 }
  let s := (s.updNet fun n => { n with out := [], outbox := [], issueQ := [], chosen := false }).csrsLand.tellWls
  s.tiles.foldl (fun s (e : Nat × Tile) => s.tally e.1 1 1) s

/-- The messages of a cycle have been taken: results come due, boundaries are acted on, and each core selects at most one slot. DESIGN CHOICE (log 67). -/
def State.selectAll (s : State) : State :=
  let s := s.taken.foldl (fun s k => s.within k fun s => s.settleSlot) s
  let s := ((s.taken.map tileOf).dedup).foldl (fun s t => s.settleAlign t) s
  let s := ((s.tiles.map (·.1)) ++ (s.net.moving.map (·.tile))).dedup.foldl (fun s t => s.wakeDispatcher t) s
  let slots := s.taken
  let s := ((slots.map coreOf).dedup).foldl (fun s c => s.cycleCore c (slots.filter fun k => coreOf k == c)) s
  let more := (s.taken.filter fun k => (s.focus k).reexamine)
  s.updNet fun n => { n with issueQ := n.issueQ ++ more, chosen := true }

/-- CYCLE (R64, R65, R66, R233): it happens twice in each cycle, as the cycle begins and, once its messages have been taken, as the cores select. A
package without power stands still. -/
def execCycle (s : State) : Host.Outcome State Fault Refusal :=
  if !s.pkg.boot.powered then .next s
  else if s.net.chosen then .next s.beginCycle
  else .next s.selectAll

end Sys2Proof.Machine
end

