-- ==== Sys2Proof/Machine/Scalar.lean ====
section
/-! DEFINITION. Integer, pointer and scalar floating-point instructions (spec/13_scalar_instructions.md R270 to R286). -/

namespace Sys2Proof.Machine

/-- An integer instruction of two registers and no other effect (R270). -/
def alu2 (i : Instr) (s : State) (d a b : RegNo) (f : W64 → W64 → W64) : Host.Outcome State Fault Refusal :=
  fixed i s (fun _ => false) fun x => x.writeG d (f (x.readG a) (x.readG b))

/-- An integer instruction of one register (R270, R274, R275). -/
def alu1 (i : Instr) (s : State) (d a : RegNo) (f : W64 → W64) : Host.Outcome State Fault Refusal :=
  fixed i s (fun _ => false) fun x => x.writeG d (f (x.readG a))

/-- An instruction that writes a predicate from registers (R273, R277). -/
def setP (i : Instr) (s : State) (p : PredNo) (f : Slot → Bool) : Host.Outcome State Fault Refusal :=
  fixed i s (fun _ => false) fun x => x.writeP p (allOrNone (f x))

/-! ### ALU (R270 to R273) -/

/-- ADD (R270). -/
def execAdd (d a b : RegNo) (s : State) : Host.Outcome State Fault Refusal := alu2 (.add d a b) s d a b fun x y => x + y
/-- SUB (R270). -/
def execSub (d a b : RegNo) (s : State) : Host.Outcome State Fault Refusal := alu2 (.sub d a b) s d a b fun x y => x - y
/-- MUL (R270). -/
def execMul (d a b : RegNo) (s : State) : Host.Outcome State Fault Refusal := alu2 (.mul d a b) s d a b fun x y => x * y
/-- MULH (R270). -/
def execMulh (d a b : RegNo) (s : State) : Host.Outcome State Fault Refusal :=
  alu2 (.mulh d a b) s d a b fun x y => (x.signExtend 128 * y.signExtend 128).extractLsb' 64 64
/-- MULHN (R270). -/
def execMulhn (d a b : RegNo) (s : State) : Host.Outcome State Fault Refusal :=
  alu2 (.mulhn d a b) s d a b fun x y => (x.setWidth 128 * y.setWidth 128).extractLsb' 64 64

/-- The division family (R271): long-latency, its latency given by the quotient. -/
def divFam (i : Instr) (s : State) (d a b : RegNo) (sgn quo : Bool) : Host.Outcome State Fault Refusal :=
  issue i s fun s =>
    let x := s.cur.readG a
    let y := s.cur.readG b
    let r := divide sgn x y
    longResult i s (divLatency sgn x y) false fun c => c.writeG d (if quo then r.1 else r.2)

/-- DIV (R271). -/
def execDiv (d a b : RegNo) (la : BitVec 4) (s : State) : Host.Outcome State Fault Refusal := divFam (.div d a b la) s d a b true true
/-- DIVN (R271). -/
def execDivn (d a b : RegNo) (la : BitVec 4) (s : State) : Host.Outcome State Fault Refusal := divFam (.divn d a b la) s d a b false true
/-- REM (R271). -/
def execRem (d a b : RegNo) (la : BitVec 4) (s : State) : Host.Outcome State Fault Refusal := divFam (.rem d a b la) s d a b true false
/-- REMN (R271). -/
def execRemn (d a b : RegNo) (la : BitVec 4) (s : State) : Host.Outcome State Fault Refusal := divFam (.remn d a b la) s d a b false false

/-- AND (R270). -/
def execAnd (d a b : RegNo) (s : State) : Host.Outcome State Fault Refusal := alu2 (.and d a b) s d a b fun x y => x &&& y
/-- OR (R270). -/
def execOr (d a b : RegNo) (s : State) : Host.Outcome State Fault Refusal := alu2 (.or d a b) s d a b fun x y => x ||| y
/-- XOR (R270). -/
def execXor (d a b : RegNo) (s : State) : Host.Outcome State Fault Refusal := alu2 (.xor d a b) s d a b fun x y => x ^^^ y
/-- ANDN (R270). -/
def execAndn (d a b : RegNo) (s : State) : Host.Outcome State Fault Refusal := alu2 (.andn d a b) s d a b fun x y => x &&& ~~~y
/-- SHL (R270). -/
def execShl (d a b : RegNo) (s : State) : Host.Outcome State Fault Refusal := alu2 (.shl d a b) s d a b fun x y => x <<< shAmt64 y
/-- SHR (R270). -/
def execShr (d a b : RegNo) (s : State) : Host.Outcome State Fault Refusal := alu2 (.shr d a b) s d a b fun x y => x >>> shAmt64 y
/-- SRA (R270). -/
def execSra (d a b : RegNo) (s : State) : Host.Outcome State Fault Refusal := alu2 (.sra d a b) s d a b fun x y => x.sshiftRight (shAmt64 y)
/-- MIN (R270). -/
def execMin (d a b : RegNo) (s : State) : Host.Outcome State Fault Refusal := alu2 (.min d a b) s d a b fun x y => if y.slt x then y else x
/-- MAX (R270). -/
def execMax (d a b : RegNo) (s : State) : Host.Outcome State Fault Refusal := alu2 (.max d a b) s d a b fun x y => if x.slt y then y else x
/-- MINN (R270). -/
def execMinn (d a b : RegNo) (s : State) : Host.Outcome State Fault Refusal := alu2 (.minn d a b) s d a b fun x y => if y.ult x then y else x
/-- MAXN (R270). -/
def execMaxn (d a b : RegNo) (s : State) : Host.Outcome State Fault Refusal := alu2 (.maxn d a b) s d a b fun x y => if x.ult y then y else x
/-- CLZ (R270). -/
def execClz (d a : RegNo) (s : State) : Host.Outcome State Fault Refusal := alu1 (.clz d a) s d a fun x => BitVec.ofNat 64 (clz x)
/-- POPC (R270). -/
def execPopc (d a : RegNo) (s : State) : Host.Outcome State Fault Refusal := alu1 (.popc d a) s d a fun x => BitVec.ofNat 64 (popc x)
/-- BFX (R272). -/
def execBfx (d a b : RegNo) (s : State) : Host.Outcome State Fault Refusal := alu2 (.bfx d a b) s d a b (bitFieldGet true)
/-- BFXN (R272). -/
def execBfxn (d a b : RegNo) (s : State) : Host.Outcome State Fault Refusal := alu2 (.bfxn d a b) s d a b (bitFieldGet false)
/-- BFI (R272): it reads g[D]. -/
def execBfi (d a b : RegNo) (s : State) : Host.Outcome State Fault Refusal :=
  fixed (.bfi d a b) s (fun _ => false) fun x => x.writeG d (bitFieldPut (x.readG d) (x.readG a) (x.readG b))
/-- SEL (R273). -/
def execSel (d a b : RegNo) (p : PredNo) (s : State) : Host.Outcome State Fault Refusal :=
  fixed (.sel d a b p) s (fun _ => false) fun x => x.writeG d (if x.readP p ≠ 0 then x.readG a else x.readG b)
/-- CMP (R273). -/
def execCmp (p : PredNo) (a b : RegNo) (cc : Cond) (s : State) : Host.Outcome State Fault Refusal :=
  setP (.cmp p a b cc) s p fun x => condHolds cc (x.readG a) (x.readG b)

/-! ### Immediates (R274 to R277) -/

/-- ADDI (R274). -/
def execAddi (d a : RegNo) (imm : BitVec 16) (s : State) : Host.Outcome State Fault Refusal := alu1 (.addi d a imm) s d a fun x => x + imm.signExtend 64
/-- ANDI (R274). -/
def execAndi (d a : RegNo) (imm : BitVec 16) (s : State) : Host.Outcome State Fault Refusal := alu1 (.andi d a imm) s d a fun x => x &&& imm.setWidth 64
/-- ORI (R274). -/
def execOri (d a : RegNo) (imm : BitVec 16) (s : State) : Host.Outcome State Fault Refusal := alu1 (.ori d a imm) s d a fun x => x ||| imm.setWidth 64
/-- XORI (R274). -/
def execXori (d a : RegNo) (imm : BitVec 16) (s : State) : Host.Outcome State Fault Refusal := alu1 (.xori d a imm) s d a fun x => x ^^^ imm.setWidth 64
/-- SHLI (R275). -/
def execShli (d a : RegNo) (n : BitVec 6) (s : State) : Host.Outcome State Fault Refusal := alu1 (.shli d a n) s d a fun x => x <<< n.toNat
/-- SHRI (R275). -/
def execShri (d a : RegNo) (n : BitVec 6) (s : State) : Host.Outcome State Fault Refusal := alu1 (.shri d a n) s d a fun x => x >>> n.toNat
/-- SRAI (R275). -/
def execSrai (d a : RegNo) (n : BitVec 6) (s : State) : Host.Outcome State Fault Refusal := alu1 (.srai d a n) s d a fun x => x.sshiftRight n.toNat
/-- LIM (R276): it reads and writes g[D]. -/
def execLim (d : RegNo) (q : BitVec 2) (imm : BitVec 16) (s : State) : Host.Outcome State Fault Refusal :=
  alu1 (.lim d q imm) s d d fun x => limQuarter x q imm
/-- CMPI (R277). -/
def execCmpi (p : PredNo) (cc : Cond) (a : RegNo) (imm : BitVec 15) (s : State) : Host.Outcome State Fault Refusal :=
  setP (.cmpi p cc a imm) s p fun x => condHolds cc (x.readG a) (imm.signExtend 64)

/-! ### Pointers (R278, R279) -/

/-- PADD and PADDI (R278): an ADDR trap carries g[A]. -/
def ptrAdd (i : Instr) (s : State) (d a : RegNo) (off : Slot → Int) : Host.Outcome State Fault Refusal :=
  issue i s fun s =>
    match pointerAdd (s.cur.readG a) (off s.cur) with
    | .inl p => .next { s with cur := (s.cur.writeG d p).mark (infoOf i).dests s.now 1 }
    | .inr c => .trap causeAddr c (s.cur.readG a)

/-- PADDI (R278). -/
def execPaddi (d a : RegNo) (imm : BitVec 16) (s : State) : Host.Outcome State Fault Refusal := ptrAdd (.paddi d a imm) s d a fun _ => imm.toInt
/-- PADD (R278). -/
def execPadd (d a b : RegNo) (s : State) : Host.Outcome State Fault Refusal := ptrAdd (.padd d a b) s d a fun x => (x.readG b).toInt
/-- PSUB (R279). -/
def execPsub (d a b : RegNo) (s : State) : Host.Outcome State Fault Refusal := alu2 (.psub d a b) s d a b pointerSub
/-- PTAG (R279). -/
def execPtag (d a b : RegNo) (s : State) : Host.Outcome State Fault Refusal := alu2 (.ptag d a b) s d a b pointerTag
/-- PGET (R279). -/
def execPget (d a : RegNo) (s : State) : Host.Outcome State Fault Refusal := alu1 (.pget d a) s d a pointerGet

/-! ### Scalar floating point (R280 to R286) -/

/-- FADD (R281). -/
def execFadd (d a b : RegNo) (s : State) : Host.Outcome State Fault Refusal :=
  fpResult (.fadd d a b) s d (fun x => [lo32 (x.readG a), lo32 (x.readG b)]) fun x => f32add x.mode (lo32 (x.readG a)) (lo32 (x.readG b))
/-- FSUB (R281). -/
def execFsub (d a b : RegNo) (s : State) : Host.Outcome State Fault Refusal :=
  fpResult (.fsub d a b) s d (fun x => [lo32 (x.readG a), lo32 (x.readG b)]) fun x => f32sub x.mode (lo32 (x.readG a)) (lo32 (x.readG b))
/-- FMUL (R281). -/
def execFmul (d a b : RegNo) (s : State) : Host.Outcome State Fault Refusal :=
  fpResult (.fmul d a b) s d (fun x => [lo32 (x.readG a), lo32 (x.readG b)]) fun x => f32mul x.mode (lo32 (x.readG a)) (lo32 (x.readG b))
/-- FDIV (R281). -/
def execFdiv (d a b : RegNo) (la : BitVec 4) (s : State) : Host.Outcome State Fault Refusal :=
  fpLong (.fdiv d a b la) s d (fun x => [lo32 (x.readG a), lo32 (x.readG b)]) fun x => f32div x.mode (lo32 (x.readG a)) (lo32 (x.readG b))
/-- FSQRT (R281). -/
def execFsqrt (d a : RegNo) (la : BitVec 4) (s : State) : Host.Outcome State Fault Refusal :=
  fpLong (.fsqrt d a la) s d (fun x => [lo32 (x.readG a)]) fun x => f32sqrt x.mode (lo32 (x.readG a))
/-- FMIN (R282). -/
def execFmin (d a b : RegNo) (s : State) : Host.Outcome State Fault Refusal :=
  fpResult (.fmin d a b) s d (fun x => [lo32 (x.readG a), lo32 (x.readG b)]) fun x => ⟨f32min (lo32 (x.readG a)) (lo32 (x.readG b)), 0⟩
/-- FMAX (R282). -/
def execFmax (d a b : RegNo) (s : State) : Host.Outcome State Fault Refusal :=
  fpResult (.fmax d a b) s d (fun x => [lo32 (x.readG a), lo32 (x.readG b)]) fun x => ⟨f32max (lo32 (x.readG a)) (lo32 (x.readG b)), 0⟩
/-- FCMP (R283). -/
def execFcmp (d a b : RegNo) (cc : FCond) (s : State) : Host.Outcome State Fault Refusal :=
  fpOther (.fcmp d a b cc) s d (fun x => [lo32 (x.readG a), lo32 (x.readG b)]) fun x =>
    let r := f32cmp cc (lo32 (x.readG a)) (lo32 (x.readG b))
    (if r.1 then 1 else 0, r.2)
/-- FCVT.F2I (R284). -/
def execFcvtF2i (d a : RegNo) (s : State) : Host.Outcome State Fault Refusal :=
  fpOther (.fcvtF2i d a) s d (fun x => [lo32 (x.readG a)]) fun x =>
    let r := f32toI32 x.mode (lo32 (x.readG a))
    (BitVec.ofInt 64 r.1, r.2)
/-- FCVT.F2N (R284). -/
def execFcvtF2n (d a : RegNo) (s : State) : Host.Outcome State Fault Refusal :=
  fpOther (.fcvtF2n d a) s d (fun x => [lo32 (x.readG a)]) fun x =>
    let r := f32toN32 x.mode (lo32 (x.readG a))
    (BitVec.ofInt 64 r.1, r.2)
/-- FCVT.I2F (R284). -/
def execFcvtI2f (d a : RegNo) (s : State) : Host.Outcome State Fault Refusal :=
  fpResult (.fcvtI2f d a) s d (fun _ => []) fun x => f32ofInt x.mode (lo32 (x.readG a)).toInt
/-- FCVT.N2F (R284). -/
def execFcvtN2f (d a : RegNo) (s : State) : Host.Outcome State Fault Refusal :=
  fpResult (.fcvtN2f d a) s d (fun _ => []) fun x => f32ofInt x.mode (lo32 (x.readG a)).toNat
/-- FCLASS (R285). -/
def execFclass (d a : RegNo) (s : State) : Host.Outcome State Fault Refusal :=
  fpOther (.fclass d a) s d (fun x => [lo32 (x.readG a)]) fun x => (f32class (lo32 (x.readG a)), 0)

/-- FMA, FMS and FNMA: one rounding (R286). -/
def fusedG (i : Instr) (s : State) (d a b c : RegNo) (negP negC : Bool) : Host.Outcome State Fault Refusal :=
  fpResult i s d (fun x => [lo32 (x.readG a), lo32 (x.readG b), lo32 (x.readG c)]) fun x =>
    f32fused x.mode negP negC (lo32 (x.readG a)) (lo32 (x.readG b)) (lo32 (x.readG c))

/-- FMA (R286). -/
def execFma (d a b c : RegNo) (s : State) : Host.Outcome State Fault Refusal := fusedG (.fma d a b c) s d a b c false false
/-- FMS (R286). -/
def execFms (d a b c : RegNo) (s : State) : Host.Outcome State Fault Refusal := fusedG (.fms d a b c) s d a b c false true
/-- FNMA (R286). -/
def execFnma (d a b c : RegNo) (s : State) : Host.Outcome State Fault Refusal := fusedG (.fnma d a b c) s d a b c true false

end Sys2Proof.Machine
end

