-- ==== Sys2Proof/Machine/Vector.lean ====
section
/-! DEFINITION. Vector and predicate instructions (spec/14_vector_instructions.md R298 to R315; spec/02_number_formats.md R43, R44, R54, R55). -/

namespace Sys2Proof.Machine

/-! ### Shared forms: active lanes only are written, raise flags and charge service (R298, R300) -/

/-- Integer lanes (R303). -/
def vInt (i : Instr) (s : State) (d : RegNo) (m : PredNo) (f : Slot → Nat → W32) : Host.Outcome State Fault Refusal :=
  fixed i s (fun _ => false) fun x => x.writeLanes d (x.readP m) (f x)

/-- Two-source integer lanes. -/
def vInt2 (i : Instr) (s : State) (d a b : RegNo) (m : PredNo) (f : W32 → W32 → W32) : Host.Outcome State Fault Refusal :=
  vInt i s d m fun x k => f (lane (x.readV a) k) (lane (x.readV b) k)

/-- Floating-point lanes: `subs` are the FP operands of a lane, `sub` tells which results count as subnormal (R300). -/
def vFp (i : Instr) (s : State) (d : RegNo) (m : PredNo) (subs : Slot → Nat → List W32) (f : Slot → Nat → F32) : Host.Outcome State Fault Refusal :=
  fixed i s (fun x => anyLane (x.readP m) fun k => anySub ((f x k).bits :: subs x k)) fun x =>
    (x.writeLanes d (x.readP m) fun k => (f x k).bits).raise (laneFlags (x.readP m) fun k => (f x k).flags)

/-- Two-source floating-point lanes. -/
def vFp2 (i : Instr) (s : State) (d a b : RegNo) (m : PredNo) (f : Mode → W32 → W32 → F32) : Host.Outcome State Fault Refusal :=
  vFp i s d m (fun x k => [lane (x.readV a) k, lane (x.readV b) k]) fun x k => f x.mode (lane (x.readV a) k) (lane (x.readV b) k)

/-- One-source floating-point lanes. -/
def vFp1 (i : Instr) (s : State) (d a : RegNo) (m : PredNo) (f : Mode → W32 → F32) : Host.Outcome State Fault Refusal :=
  vFp i s d m (fun x k => [lane (x.readV a) k]) fun x k => f x.mode (lane (x.readV a) k)

/-- Three-source fused lanes (R306). -/
def vFused (i : Instr) (s : State) (d a b c : RegNo) (m : PredNo) (negP negC : Bool) : Host.Outcome State Fault Refusal :=
  vFp i s d m (fun x k => [lane (x.readV a) k, lane (x.readV b) k, lane (x.readV c) k]) fun x k =>
    f32fused x.mode negP negC (lane (x.readV a) k) (lane (x.readV b) k) (lane (x.readV c) k)

/-- The VFN group: long-latency, all lanes complete together (R307, Table 14.1). -/
def vFn (i : Instr) (s : State) (d : RegNo) (m : PredNo) (lat : Nat) (subs : Slot → Nat → List W32) (f : Slot → Nat → F32) :
    Host.Outcome State Fault Refusal :=
  issue i s fun s =>
    longResult i s lat (anyLane (s.cur.readP m) fun k => anySub ((f s.cur k).bits :: subs s.cur k)) fun x =>
      (x.writeLanes d (x.readP m) fun k => (f x k).bits).raise (laneFlags (x.readP m) fun k => (f x k).flags)

/-- One-source VFN. -/
def vFn1 (i : Instr) (s : State) (d a : RegNo) (m : PredNo) (lat : Nat) (f : Mode → W32 → F32) : Host.Outcome State Fault Refusal :=
  vFn i s d m lat (fun x k => [lane (x.readV a) k]) fun x k => f x.mode (lane (x.readV a) k)

/-- A compare into a predicate: all 16 bits are written, inactive ones 0 (R299). -/
def vToP (i : Instr) (s : State) (d m : PredNo) (sub : Slot → Nat → Bool) (f : Slot → Nat → Bool × Flags) : Host.Outcome State Fault Refusal :=
  fixed i s (fun x => anyLane (x.readP m) (sub x)) fun x =>
    (x.writeP d (BitVec.ofNat 16 (maskOf 16 fun k => (x.readP m).getLsbD k && (f x k).1))).raise (laneFlags (x.readP m) fun k => (f x k).2)

/-- A conversion of lanes: `sub` tells whether a lane's FP operand or result is subnormal in its own format (R300, R308). -/
def vCvt (i : Instr) (s : State) (d : RegNo) (m : PredNo) (sub : Slot → Nat → Bool) (f : Slot → Nat → W32 × Flags) :
    Host.Outcome State Fault Refusal :=
  fixed i s (fun x => anyLane (x.readP m) (sub x)) fun x =>
    (x.writeLanes d (x.readP m) fun k => (f x k).1).raise (laneFlags (x.readP m) fun k => (f x k).2)

/-- Half `h` or byte `k` of a lane. -/
def halfOf (v : W32) (h : Bool) : Nat := (v.extractLsb' (if h then 16 else 0) 16).toNat
def byteOf (v : W32) (k : BitVec 2) : Nat := (v.extractLsb' (8 * k.toNat) 8).toNat
/-- Replace byte `k` of a lane (R308). -/
def putByte (v : W32) (k : BitVec 2) (b : Nat) : W32 :=
  (v &&& ~~~((0xFF : W32) <<< (8 * k.toNat))) ||| (BitVec.ofNat 32 (b % 256) <<< (8 * k.toNat))

/-- Two floats into the halves of a lane (Table 14.5, FN 0 and 2). -/
def cvtPair (i : Instr) (s : State) (d a b : RegNo) (m : PredNo) (fm : Fmt) : Host.Outcome State Fault Refusal :=
  vCvt i s d m
    (fun x k =>
      let p := lane (x.readV a) k
      let q := lane (x.readV b) k
      isSub32 p || isSub32 q || fm.isSub (narrow32 fm x.mode p).bits || fm.isSub (narrow32 fm x.mode q).bits)
    fun x k =>
      let p := narrow32 fm x.mode (lane (x.readV a) k)
      let q := narrow32 fm x.mode (lane (x.readV b) k)
      (BitVec.ofNat 16 q.bits ++ BitVec.ofNat 16 p.bits, p.flags ||| q.flags)

/-- A half to FP32 (FN 1 and 3). -/
def cvtHalf (i : Instr) (s : State) (d a : RegNo) (h : Bool) (m : PredNo) (fm : Fmt) : Host.Outcome State Fault Refusal :=
  vCvt i s d m (fun x k => fm.isSub (halfOf (lane (x.readV a) k) h) || isSub32 (widen32 fm (halfOf (lane (x.readV a) k) h)))
    fun x k => (widen32 fm (halfOf (lane (x.readV a) k) h), 0)

/-- FP32 into byte `k` of the destination lane, the others kept (FN 4 and 6). -/
def cvtToByte (i : Instr) (s : State) (d a : RegNo) (k : BitVec 2) (m : PredNo) (fm : Fmt) : Host.Outcome State Fault Refusal :=
  vCvt i s d m (fun x j => isSub32 (lane (x.readV a) j) || fm.isSub (narrow32 fm x.mode (lane (x.readV a) j)).bits)
    fun x j =>
      let r := narrow32 fm x.mode (lane (x.readV a) j)
      (putByte (lane (x.readV d) j) k r.bits, r.flags)

/-- Byte `k` to FP32 (FN 5 and 7). -/
def cvtOfByte (i : Instr) (s : State) (d a : RegNo) (k : BitVec 2) (m : PredNo) (fm : Fmt) : Host.Outcome State Fault Refusal :=
  vCvt i s d m (fun x j => fm.isSub (byteOf (lane (x.readV a) j) k) || isSub32 (widen32 fm (byteOf (lane (x.readV a) j) k)))
    fun x j => (widen32 fm (byteOf (lane (x.readV a) j) k), 0)

/-! ### VINT and VINT2 (R303, R304) -/

/-- VADD (R303). -/
def execVadd (d a b : RegNo) (m : PredNo) (s : State) : Host.Outcome State Fault Refusal :=
  vInt2 (.vadd d a b m) s d a b m fun x y => x + y
/-- VSUB (R303). -/
def execVsub (d a b : RegNo) (m : PredNo) (s : State) : Host.Outcome State Fault Refusal :=
  vInt2 (.vsub d a b m) s d a b m fun x y => x - y
/-- VMUL (R303). -/
def execVmul (d a b : RegNo) (m : PredNo) (s : State) : Host.Outcome State Fault Refusal :=
  vInt2 (.vmul d a b m) s d a b m fun x y => x * y
/-- VMULH (R303). -/
def execVmulh (d a b : RegNo) (m : PredNo) (s : State) : Host.Outcome State Fault Refusal :=
  vInt2 (.vmulh d a b m) s d a b m fun x y => (x.signExtend 64 * y.signExtend 64).extractLsb' 32 32
/-- VAND (R303). -/
def execVand (d a b : RegNo) (m : PredNo) (s : State) : Host.Outcome State Fault Refusal :=
  vInt2 (.vand d a b m) s d a b m fun x y => x &&& y
/-- VOR (R303). -/
def execVor (d a b : RegNo) (m : PredNo) (s : State) : Host.Outcome State Fault Refusal :=
  vInt2 (.vor d a b m) s d a b m fun x y => x ||| y
/-- VXOR (R303). -/
def execVxor (d a b : RegNo) (m : PredNo) (s : State) : Host.Outcome State Fault Refusal :=
  vInt2 (.vxor d a b m) s d a b m fun x y => x ^^^ y
/-- VSHL (R303). -/
def execVshl (d a b : RegNo) (m : PredNo) (s : State) : Host.Outcome State Fault Refusal :=
  vInt2 (.vshl d a b m) s d a b m fun x y => x <<< shAmt32 y
/-- VSHR (R303). -/
def execVshr (d a b : RegNo) (m : PredNo) (s : State) : Host.Outcome State Fault Refusal :=
  vInt2 (.vshr d a b m) s d a b m fun x y => x >>> shAmt32 y
/-- VSRA (R303). -/
def execVsra (d a b : RegNo) (m : PredNo) (s : State) : Host.Outcome State Fault Refusal :=
  vInt2 (.vsra d a b m) s d a b m fun x y => x.sshiftRight (shAmt32 y)
/-- VMIN (R303). -/
def execVmin (d a b : RegNo) (m : PredNo) (s : State) : Host.Outcome State Fault Refusal :=
  vInt2 (.vmin d a b m) s d a b m fun x y => if y.slt x then y else x
/-- VMAX (R303). -/
def execVmax (d a b : RegNo) (m : PredNo) (s : State) : Host.Outcome State Fault Refusal :=
  vInt2 (.vmax d a b m) s d a b m fun x y => if x.slt y then y else x
/-- VMINN (R303). -/
def execVminn (d a b : RegNo) (m : PredNo) (s : State) : Host.Outcome State Fault Refusal :=
  vInt2 (.vminn d a b m) s d a b m fun x y => if y.ult x then y else x
/-- VMAXN (R303). -/
def execVmaxn (d a b : RegNo) (m : PredNo) (s : State) : Host.Outcome State Fault Refusal :=
  vInt2 (.vmaxn d a b m) s d a b m fun x y => if x.ult y then y else x
/-- VABS (R303). -/
def execVabs (d a : RegNo) (m : PredNo) (s : State) : Host.Outcome State Fault Refusal :=
  vInt (.vabs d a m) s d m fun x k => let y := lane (x.readV a) k; if y.msb then -y else y
/-- VNEG (R303). -/
def execVneg (d a : RegNo) (m : PredNo) (s : State) : Host.Outcome State Fault Refusal :=
  vInt (.vneg d a m) s d m fun x k => -(lane (x.readV a) k)
/-- VCMP (R304). -/
def execVcmp (d : PredNo) (a b : RegNo) (m : PredNo) (cc : Cond) (s : State) : Host.Outcome State Fault Refusal :=
  vToP (.vcmp d a b m cc) s d m (fun _ _ => false) fun x k => (condHolds cc (lane (x.readV a) k) (lane (x.readV b) k), 0)
/-- VSEL (R304): every lane is written. -/
def execVsel (d a b : RegNo) (m : PredNo) (s : State) : Host.Outcome State Fault Refusal :=
  fixed (.vsel d a b m) s (fun _ => false) fun x =>
    x.writeV d (vecOf fun k => if (x.readP m).getLsbD k then lane (x.readV a) k else lane (x.readV b) k)
/-- VCLZ (R304). -/
def execVclz (d a : RegNo) (m : PredNo) (s : State) : Host.Outcome State Fault Refusal :=
  vInt (.vclz d a m) s d m fun x k => BitVec.ofNat 32 (clz (lane (x.readV a) k))
/-- VPOPC (R304). -/
def execVpopc (d a : RegNo) (m : PredNo) (s : State) : Host.Outcome State Fault Refusal :=
  vInt (.vpopc d a m) s d m fun x k => BitVec.ofNat 32 (popc (lane (x.readV a) k))

/-! ### VFP and VFMA (R305, R306) -/

/-- VFADD (R305). -/
def execVfadd (d a b : RegNo) (m : PredNo) (s : State) : Host.Outcome State Fault Refusal :=
  vFp2 (.vfadd d a b m) s d a b m f32add
/-- VFSUB (R305). -/
def execVfsub (d a b : RegNo) (m : PredNo) (s : State) : Host.Outcome State Fault Refusal :=
  vFp2 (.vfsub d a b m) s d a b m f32sub
/-- VFMUL (R305). -/
def execVfmul (d a b : RegNo) (m : PredNo) (s : State) : Host.Outcome State Fault Refusal :=
  vFp2 (.vfmul d a b m) s d a b m f32mul
/-- VFMIN (R305). -/
def execVfmin (d a b : RegNo) (m : PredNo) (s : State) : Host.Outcome State Fault Refusal :=
  vFp2 (.vfmin d a b m) s d a b m fun _ x y => ⟨f32min x y, 0⟩
/-- VFMAX (R305). -/
def execVfmax (d a b : RegNo) (m : PredNo) (s : State) : Host.Outcome State Fault Refusal :=
  vFp2 (.vfmax d a b m) s d a b m fun _ x y => ⟨f32max x y, 0⟩
/-- VFABS (R305). -/
def execVfabs (d a : RegNo) (m : PredNo) (s : State) : Host.Outcome State Fault Refusal :=
  vFp1 (.vfabs d a m) s d a m fun _ x => ⟨if isNan32 x then nan32 else x &&& 0x7FFFFFFF, 0⟩
/-- VFNEG (R305). -/
def execVfneg (d a : RegNo) (m : PredNo) (s : State) : Host.Outcome State Fault Refusal :=
  vFp1 (.vfneg d a m) s d a m fun _ x => ⟨if isNan32 x then nan32 else x ^^^ 0x80000000, 0⟩
/-- VFCMP (R305). -/
def execVfcmp (d : PredNo) (a b : RegNo) (m : PredNo) (cc : FCond) (s : State) : Host.Outcome State Fault Refusal :=
  vToP (.vfcmp d a b m cc) s d m (fun x k => isSub32 (lane (x.readV a) k) || isSub32 (lane (x.readV b) k))
    fun x k => f32cmp cc (lane (x.readV a) k) (lane (x.readV b) k)
/-- VFMA (R306). -/
def execVfma (d a b c : RegNo) (m : PredNo) (s : State) : Host.Outcome State Fault Refusal :=
  vFused (.vfma d a b c m) s d a b c m false false
/-- VFMS (R306). -/
def execVfms (d a b c : RegNo) (m : PredNo) (s : State) : Host.Outcome State Fault Refusal :=
  vFused (.vfms d a b c m) s d a b c m false true
/-- VFNMA (R306). -/
def execVfnma (d a b c : RegNo) (m : PredNo) (s : State) : Host.Outcome State Fault Refusal :=
  vFused (.vfnma d a b c m) s d a b c m true false
/-- VMA (R306). -/
def execVma (d a b c : RegNo) (m : PredNo) (s : State) : Host.Outcome State Fault Refusal :=
  vInt (.vma d a b c m) s d m fun x k => lane (x.readV a) k * lane (x.readV b) k + lane (x.readV c) k

/-! ### VFN (R307): latencies of Table 14.1 -/

/-- VFDIV (R307). -/
def execVfdiv (d a b : RegNo) (la : BitVec 4) (m : PredNo) (s : State) : Host.Outcome State Fault Refusal :=
  vFn (.vfdiv d a b la m) s d m 22 (fun x k => [lane (x.readV a) k, lane (x.readV b) k]) fun x k => f32div x.mode (lane (x.readV a) k) (lane (x.readV b) k)
/-- VFSQRT (R307). -/
def execVfsqrt (d a : RegNo) (la : BitVec 4) (m : PredNo) (s : State) : Host.Outcome State Fault Refusal :=
  vFn1 (.vfsqrt d a la m) s d a m 20 f32sqrt
/-- VFRCP (R307). -/
def execVfrcp (d a : RegNo) (la : BitVec 4) (m : PredNo) (s : State) : Host.Outcome State Fault Refusal :=
  vFn1 (.vfrcp d a la m) s d a m 16 (fun _ x => f32rcp x)
/-- VFRSQ (R307). -/
def execVfrsq (d a : RegNo) (la : BitVec 4) (m : PredNo) (s : State) : Host.Outcome State Fault Refusal :=
  vFn1 (.vfrsq d a la m) s d a m 18 (fun _ x => f32rsq x)
/-- VFEXP2 (R307). -/
def execVfexp2 (d a : RegNo) (la : BitVec 4) (m : PredNo) (s : State) : Host.Outcome State Fault Refusal :=
  vFn1 (.vfexp2 d a la m) s d a m 24 (fun _ x => f32exp2 x)
/-- VFLOG2 (R307). -/
def execVflog2 (d a : RegNo) (la : BitVec 4) (m : PredNo) (s : State) : Host.Outcome State Fault Refusal :=
  vFn1 (.vflog2 d a la m) s d a m 30 (fun _ x => f32log2 x)

/-! ### VCVT (R308, Table 14.5) -/

/-- VCVT.F2BF (R308). -/
def execVcvtF2bf (d a b : RegNo) (m : PredNo) (s : State) : Host.Outcome State Fault Refusal :=
  cvtPair (.vcvtF2bf d a b m) s d a b m fbf16
/-- VCVT.BF2F (R308). -/
def execVcvtBf2f (d a : RegNo) (h : Bool) (m : PredNo) (s : State) : Host.Outcome State Fault Refusal :=
  cvtHalf (.vcvtBf2f d a h m) s d a h m fbf16
/-- VCVT.F2H (R308). -/
def execVcvtF2h (d a b : RegNo) (m : PredNo) (s : State) : Host.Outcome State Fault Refusal :=
  cvtPair (.vcvtF2h d a b m) s d a b m fp16
/-- VCVT.H2F (R308). -/
def execVcvtH2f (d a : RegNo) (h : Bool) (m : PredNo) (s : State) : Host.Outcome State Fault Refusal :=
  cvtHalf (.vcvtH2f d a h m) s d a h m fp16
/-- VCVT.F2E4 (R308). -/
def execVcvtF2e4 (d a : RegNo) (k : BitVec 2) (m : PredNo) (s : State) : Host.Outcome State Fault Refusal :=
  cvtToByte (.vcvtF2e4 d a k m) s d a k m fe4m3
/-- VCVT.E42F (R308). -/
def execVcvtE42f (d a : RegNo) (k : BitVec 2) (m : PredNo) (s : State) : Host.Outcome State Fault Refusal :=
  cvtOfByte (.vcvtE42f d a k m) s d a k m fe4m3
/-- VCVT.F2E5 (R308). -/
def execVcvtF2e5 (d a : RegNo) (k : BitVec 2) (m : PredNo) (s : State) : Host.Outcome State Fault Refusal :=
  cvtToByte (.vcvtF2e5 d a k m) s d a k m fe5m2
/-- VCVT.E52F (R308). -/
def execVcvtE52f (d a : RegNo) (k : BitVec 2) (m : PredNo) (s : State) : Host.Outcome State Fault Refusal :=
  cvtOfByte (.vcvtE52f d a k m) s d a k m fe5m2
/-- VCVT.F2I (R308, R44). -/
def execVcvtF2i (d a : RegNo) (m : PredNo) (s : State) : Host.Outcome State Fault Refusal :=
  vCvt (.vcvtF2i d a m) s d m (fun x k => isSub32 (lane (x.readV a) k)) fun x k =>
    let r := f32toI32 x.mode (lane (x.readV a) k)
    (BitVec.ofInt 32 r.1, r.2)
/-- VCVT.I2F (R308). -/
def execVcvtI2f (d a : RegNo) (m : PredNo) (s : State) : Host.Outcome State Fault Refusal :=
  vCvt (.vcvtI2f d a m) s d m (fun _ _ => false) fun x k =>
    let r := f32ofInt x.mode (lane (x.readV a) k).toInt
    (r.bits, r.flags)
/-- VCVT.N2F (R308). -/
def execVcvtN2f (d a : RegNo) (m : PredNo) (s : State) : Host.Outcome State Fault Refusal :=
  vCvt (.vcvtN2f d a m) s d m (fun _ _ => false) fun x k =>
    let r := f32ofInt x.mode (lane (x.readV a) k).toNat
    (r.bits, r.flags)
/-- VCVT.F2N (R308, R44). -/
def execVcvtF2n (d a : RegNo) (m : PredNo) (s : State) : Host.Outcome State Fault Refusal :=
  vCvt (.vcvtF2n d a m) s d m (fun x k => isSub32 (lane (x.readV a) k)) fun x k =>
    let r := f32toN32 x.mode (lane (x.readV a) k)
    (BitVec.ofInt 32 r.1, r.2)
/-- VCVT.I2B (R308): the clamp raises no flag. -/
def execVcvtI2b (d a : RegNo) (k : BitVec 2) (m : PredNo) (s : State) : Host.Outcome State Fault Refusal :=
  vCvt (.vcvtI2b d a k m) s d m (fun _ _ => false) fun x j =>
    let v := (lane (x.readV a) j).toInt
    let c := if v < -128 then -128 else if 127 < v then 127 else v
    (putByte (lane (x.readV d) j) k (BitVec.ofInt 8 c).toNat, 0)
/-- VCVT.B2I (R308). -/
def execVcvtB2i (d a : RegNo) (k : BitVec 2) (m : PredNo) (s : State) : Host.Outcome State Fault Refusal :=
  vCvt (.vcvtB2i d a k m) s d m (fun _ _ => false) fun x j =>
    ((BitVec.ofNat 8 (byteOf (lane (x.readV a) j) k)).signExtend 32, 0)

/-! ### Lane movement, reductions, scans (R309 to R313) -/

/-- A lane index in bits [3:0] of a register (R309). -/
def laneIx (b : W64) : Nat := (b.extractLsb' 0 4).toNat

/-- VBCAST (R309). -/
def execVbcast (d a : RegNo) (m : PredNo) (s : State) : Host.Outcome State Fault Refusal :=
  vInt (.vbcast d a m) s d m fun x _ => lo32 (x.readG a)
/-- VEXT (R309). -/
def execVext (d a b : RegNo) (s : State) : Host.Outcome State Fault Refusal :=
  fixed (.vext d a b) s (fun _ => false) fun x => x.writeG d (hi0 (lane (x.readV a) (laneIx (x.readG b))))
/-- VINS (R309). -/
def execVins (d a b : RegNo) (s : State) : Host.Outcome State Fault Refusal :=
  fixed (.vins d a b) s (fun _ => false) fun x =>
    x.writeV d (vecOf fun k => if k = laneIx (x.readG b) then lo32 (x.readG a) else lane (x.readV d) k)
/-- VPERM (R310). -/
def execVperm (d a b : RegNo) (m : PredNo) (s : State) : Host.Outcome State Fault Refusal :=
  vInt (.vperm d a b m) s d m fun x k => lane (x.readV a) ((lane (x.readV b) k).extractLsb' 0 4).toNat
/-- VIOTA (R311). -/
def execViota (d : RegNo) (m : PredNo) (s : State) : Host.Outcome State Fault Refusal :=
  vInt (.viota d m) s d m fun x k => BitVec.ofNat 32 ((List.range k).filter fun j => (x.readP m).getLsbD j).length
/-- The lanes of a vector that a predicate picks, in order. -/
def picked (act : Pred) (v : Vec) : List W32 := ((List.range 16).filter fun k => act.getLsbD k).map (lane v)

/-- The identity of a reduction (Table 14.6). -/
def redIdent : RedOp → W32
  | .add => 0
  | .fadd => 0x80000000
  | .min => 0x7FFFFFFF
  | .max => 0x80000000
  | .minn => 0xFFFFFFFF
  | .maxn => 0
  | .fmin | .fmax => nan32
  | .and => 0xFFFFFFFF
  | .or | .xor => 0

/-- Combine (Table 14.6), with its flags. -/
def redComb (op : RedOp) (mode : Mode) (x y : W32) : F32 :=
  match op with
  | .add => ⟨x + y, 0⟩
  | .fadd => f32add mode x y
  | .min => ⟨if y.slt x then y else x, 0⟩
  | .max => ⟨if x.slt y then y else x, 0⟩
  | .minn => ⟨if y.ult x then y else x, 0⟩
  | .maxn => ⟨if x.ult y then y else x, 0⟩
  | .fmin => ⟨f32min x y, 0⟩
  | .fmax => ⟨f32max x y, 0⟩
  | .and => ⟨x &&& y, 0⟩
  | .or => ⟨x ||| y, 0⟩
  | .xor => ⟨x ^^^ y, 0⟩

/-- Whether a reduction works on FP values (Table 14.1). -/
def redFp : RedOp → Bool
  | .fadd | .fmin | .fmax => true
  | _ => false

/-- One level of the tree (R55): adjacent pairs, the lower lane on the left; the flags and whether a result is subnormal are gathered. -/
def redLevel (op : RedOp) (mode : Mode) : List W32 → List W32 × Flags × Bool
  | x :: y :: rest =>
    let c := redComb op mode x y
    let r := redLevel op mode rest
    (c.bits :: r.1, c.flags ||| r.2.1, isSub32 c.bits || r.2.2)
  | l => (l, 0, false)

/-- The four levels of the tree: result, flags, and whether a partial result is subnormal (R55, R312). -/
def redTree (op : RedOp) (mode : Mode) : Nat → List W32 → W32 × Flags × Bool
  | 0, l => (l.headD 0, 0, false)
  | n + 1, l =>
    let a := redLevel op mode l
    let r := redTree op mode n a.1
    (r.1, a.2.1 ||| r.2.1, a.2.2 || r.2.2)

/-- VRED's sixteen entering lanes (R312). -/
def redLanes (op : RedOp) (act : Pred) (v : Vec) : List W32 := (List.range 16).map fun k => if act.getLsbD k then lane v k else redIdent op

/-- The value VRED writes (Table 14.6). -/
def redResult (op : RedOp) (x : W32) : W64 :=
  match op with
  | .add | .min | .max => x.signExtend 64
  | _ => x.setWidth 64

/-- Inclusive prefix results over the active lanes, left to right: (lane, value) pairs, flags, and whether a partial result is subnormal (R313). -/
def scanFrom (op : RedOp) (mode : Mode) : Option W32 → List (Nat × W32) → List (Nat × W32) × Flags × Bool
  | _, [] => ([], 0, false)
  | none, (k, v) :: rest =>
    let w := if redFp op && isNan32 v then 0x7FC00000 else v
    let r := scanFrom op mode (some v) rest
    ((k, w) :: r.1, r.2)
  | some acc, (k, v) :: rest =>
    let c := redComb op mode acc v
    let r := scanFrom op mode (some c.bits) rest
    ((k, c.bits) :: r.1, c.flags ||| r.2.1, isSub32 c.bits || r.2.2)

/-- The scan of a vector under a mask. -/
def scanOf (op : RedOp) (mode : Mode) (act : Pred) (v : Vec) : List (Nat × W32) × Flags × Bool :=
  scanFrom op mode none (((List.range 16).filter fun k => act.getLsbD k).map fun k => (k, lane v k))

/-- VRED (R312). -/
def execVred (d a : RegNo) (op : RedOp) (m : PredNo) (s : State) : Host.Outcome State Fault Refusal :=
  fixed (.vred d a op m) s
    (fun x => redFp op && (anySub (picked (x.readP m) (x.readV a)) || (redTree op x.mode 4 (redLanes op (x.readP m) (x.readV a))).2.2))
    fun x =>
      let r := redTree op x.mode 4 (redLanes op (x.readP m) (x.readV a))
      (x.writeG d (redResult op r.1)).raise r.2.1
/-- VSCAN (R313). -/
def execVscan (d a : RegNo) (op : RedOp) (m : PredNo) (s : State) : Host.Outcome State Fault Refusal :=
  fixed (.vscan d a op m) s
    (fun x => redFp op && (anySub (picked (x.readP m) (x.readV a)) || (scanOf op x.mode (x.readP m) (x.readV a)).2.2))
    fun x =>
      let r := scanOf op x.mode (x.readP m) (x.readV a)
      (x.writeLanes d (x.readP m) fun k => ((r.1.find? fun e => e.1 == k).map (·.2)).getD 0).raise r.2.1
/-- VCOMP (R311): every lane is written. -/
def execVcomp (d a : RegNo) (m : PredNo) (s : State) : Host.Outcome State Fault Refusal :=
  fixed (.vcomp d a m) s (fun _ => false) fun x => x.writeV d (vecOf fun k => (picked (x.readP m) (x.readV a)).getD k 0)
/-- VSLIDE (R310). -/
def execVslide (d a b : RegNo) (m : PredNo) (s : State) : Host.Outcome State Fault Refusal :=
  vInt (.vslide d a b m) s d m fun x k =>
    let j : Int := (k : Int) + (x.readG b).toInt
    if 0 ≤ j ∧ j ≤ 15 then lane (x.readV a) j.toNat else 0

/-! ### Predicates (R314) -/

/-- A predicate instruction that writes a predicate. -/
def predP (i : Instr) (s : State) (d : PredNo) (f : Slot → Pred) : Host.Outcome State Fault Refusal :=
  fixed i s (fun _ => false) fun x => x.writeP d (f x)

/-- PAND (R314). -/
def execPand (d a b : PredNo) (s : State) : Host.Outcome State Fault Refusal :=
  predP (.pand d a b) s d fun x => x.readP a &&& x.readP b
/-- POR (R314). -/
def execPor (d a b : PredNo) (s : State) : Host.Outcome State Fault Refusal :=
  predP (.por d a b) s d fun x => x.readP a ||| x.readP b
/-- PXOR (R314). -/
def execPxor (d a b : PredNo) (s : State) : Host.Outcome State Fault Refusal :=
  predP (.pxor d a b) s d fun x => x.readP a ^^^ x.readP b
/-- PANDN (R314). -/
def execPandn (d a b : PredNo) (s : State) : Host.Outcome State Fault Refusal :=
  predP (.pandn d a b) s d fun x => x.readP a &&& ~~~(x.readP b)
/-- PNOT (R314). -/
def execPnot (d a : PredNo) (s : State) : Host.Outcome State Fault Refusal :=
  predP (.pnot d a) s d fun x => ~~~(x.readP a)
/-- PCNT (R314). -/
def execPcnt (d : RegNo) (a : PredNo) (s : State) : Host.Outcome State Fault Refusal :=
  fixed (.pcnt d a) s (fun _ => false) fun x => x.writeG d (BitVec.ofNat 64 (popc (x.readP a)))
/-- PFIRST (R314). -/
def execPfirst (d : RegNo) (a : PredNo) (s : State) : Host.Outcome State Fault Refusal :=
  fixed (.pfirst d a) s (fun _ => false) fun x =>
    x.writeG d (BitVec.ofNat 64 (((List.range 16).find? fun k => (x.readP a).getLsbD k).getD 16))
/-- PSET (R314). -/
def execPset (d : PredNo) (a : RegNo) (s : State) : Host.Outcome State Fault Refusal :=
  predP (.pset d a) s d fun x => (x.readG a).extractLsb' 0 16
/-- PGETS (R314). -/
def execPgets (d : RegNo) (a : PredNo) (s : State) : Host.Outcome State Fault Refusal :=
  fixed (.pgets d a) s (fun _ => false) fun x => x.writeG d ((x.readP a).setWidth 64)

end Sys2Proof.Machine
end

