-- ==== Sys2Proof/Machine/Dispatch.lean ====
section
/-! DEFINITION. The one match from instructions to their meanings: one arm per row of the opcode table. -/

namespace Sys2Proof.Machine
open Sys2Proof

/-- The meaning of every instruction and event. -/
def exec (i : Instr) (s : State) : Host.Outcome State Fault Refusal :=
  match i with
  | .add d a b => Sys2Proof.Machine.execAdd d a b s
  | .sub d a b => Sys2Proof.Machine.execSub d a b s
  | .mul d a b => Sys2Proof.Machine.execMul d a b s
  | .mulh d a b => Sys2Proof.Machine.execMulh d a b s
  | .mulhn d a b => Sys2Proof.Machine.execMulhn d a b s
  | .div d a b la => Sys2Proof.Machine.execDiv d a b la s
  | .divn d a b la => Sys2Proof.Machine.execDivn d a b la s
  | .rem d a b la => Sys2Proof.Machine.execRem d a b la s
  | .remn d a b la => Sys2Proof.Machine.execRemn d a b la s
  | .and d a b => Sys2Proof.Machine.execAnd d a b s
  | .or d a b => Sys2Proof.Machine.execOr d a b s
  | .xor d a b => Sys2Proof.Machine.execXor d a b s
  | .andn d a b => Sys2Proof.Machine.execAndn d a b s
  | .shl d a b => Sys2Proof.Machine.execShl d a b s
  | .shr d a b => Sys2Proof.Machine.execShr d a b s
  | .sra d a b => Sys2Proof.Machine.execSra d a b s
  | .min d a b => Sys2Proof.Machine.execMin d a b s
  | .max d a b => Sys2Proof.Machine.execMax d a b s
  | .minn d a b => Sys2Proof.Machine.execMinn d a b s
  | .maxn d a b => Sys2Proof.Machine.execMaxn d a b s
  | .clz d a => Sys2Proof.Machine.execClz d a s
  | .popc d a => Sys2Proof.Machine.execPopc d a s
  | .bfx d a b => Sys2Proof.Machine.execBfx d a b s
  | .bfxn d a b => Sys2Proof.Machine.execBfxn d a b s
  | .bfi d a b => Sys2Proof.Machine.execBfi d a b s
  | .sel d a b p => Sys2Proof.Machine.execSel d a b p s
  | .cmp p a b cc => Sys2Proof.Machine.execCmp p a b cc s
  | .addi d a imm => Sys2Proof.Machine.execAddi d a imm s
  | .andi d a imm => Sys2Proof.Machine.execAndi d a imm s
  | .ori d a imm => Sys2Proof.Machine.execOri d a imm s
  | .xori d a imm => Sys2Proof.Machine.execXori d a imm s
  | .shli d a n => Sys2Proof.Machine.execShli d a n s
  | .shri d a n => Sys2Proof.Machine.execShri d a n s
  | .srai d a n => Sys2Proof.Machine.execSrai d a n s
  | .lim d q imm => Sys2Proof.Machine.execLim d q imm s
  | .cmpi p cc a imm => Sys2Proof.Machine.execCmpi p cc a imm s
  | .paddi d a imm => Sys2Proof.Machine.execPaddi d a imm s
  | .padd d a b => Sys2Proof.Machine.execPadd d a b s
  | .psub d a b => Sys2Proof.Machine.execPsub d a b s
  | .ptag d a b => Sys2Proof.Machine.execPtag d a b s
  | .pget d a => Sys2Proof.Machine.execPget d a s
  | .fadd d a b => Sys2Proof.Machine.execFadd d a b s
  | .fsub d a b => Sys2Proof.Machine.execFsub d a b s
  | .fmul d a b => Sys2Proof.Machine.execFmul d a b s
  | .fdiv d a b la => Sys2Proof.Machine.execFdiv d a b la s
  | .fsqrt d a la => Sys2Proof.Machine.execFsqrt d a la s
  | .fmin d a b => Sys2Proof.Machine.execFmin d a b s
  | .fmax d a b => Sys2Proof.Machine.execFmax d a b s
  | .fcmp d a b cc => Sys2Proof.Machine.execFcmp d a b cc s
  | .fcvtF2i d a => Sys2Proof.Machine.execFcvtF2i d a s
  | .fcvtF2n d a => Sys2Proof.Machine.execFcvtF2n d a s
  | .fcvtI2f d a => Sys2Proof.Machine.execFcvtI2f d a s
  | .fcvtN2f d a => Sys2Proof.Machine.execFcvtN2f d a s
  | .fclass d a => Sys2Proof.Machine.execFclass d a s
  | .fma d a b c => Sys2Proof.Machine.execFma d a b c s
  | .fms d a b c => Sys2Proof.Machine.execFms d a b c s
  | .fnma d a b c => Sys2Proof.Machine.execFnma d a b c s
  | .brAny p disp => Sys2Proof.Machine.execBrAny p disp s
  | .brNone p disp => Sys2Proof.Machine.execBrNone p disp s
  | .bcc a b cc disp => Sys2Proof.Machine.execBcc a b cc disp s
  | .bra disp => Sys2Proof.Machine.execBra disp s
  | .call disp => Sys2Proof.Machine.execCall disp s
  | .jr a => Sys2Proof.Machine.execJr a s
  | .callr a => Sys2Proof.Machine.execCallr a s
  | .ret => Sys2Proof.Machine.execRet s
  | .loop a disp => Sys2Proof.Machine.execLoop a disp s
  | .repf len cnt fm step => Sys2Proof.Machine.execRepf len cnt fm step s
  | .ld d a la x sz off => Sys2Proof.Machine.execLd d a la x sz off s
  | .ldn d a la x sz off => Sys2Proof.Machine.execLdn d a la x sz off s
  | .st d a la x sz off => Sys2Proof.Machine.execSt d a la x sz off s
  | .ldx d a b la x sz z => Sys2Proof.Machine.execLdx d a b la x sz z s
  | .stx d a b la x sz => Sys2Proof.Machine.execStx d a b la x sz s
  | .ldf d a la => Sys2Proof.Machine.execLdf d a la s
  | .ldff d a la => Sys2Proof.Machine.execLdff d a la s
  | .ste d a la => Sys2Proof.Machine.execSte d a la s
  | .stef d a la => Sys2Proof.Machine.execStef d a la s
  | .feclr a la => Sys2Proof.Machine.execFeclr a la s
  | .feget d a la => Sys2Proof.Machine.execFeget d a la s
  | .amoAdd d a b la sz => Sys2Proof.Machine.execAmoAdd d a b la sz s
  | .amoAnd d a b la sz => Sys2Proof.Machine.execAmoAnd d a b la sz s
  | .amoOr d a b la sz => Sys2Proof.Machine.execAmoOr d a b la sz s
  | .amoXor d a b la sz => Sys2Proof.Machine.execAmoXor d a b la sz s
  | .amoMin d a b la sz => Sys2Proof.Machine.execAmoMin d a b la sz s
  | .amoMax d a b la sz => Sys2Proof.Machine.execAmoMax d a b la sz s
  | .amoMinn d a b la sz => Sys2Proof.Machine.execAmoMinn d a b la sz s
  | .amoMaxn d a b la sz => Sys2Proof.Machine.execAmoMaxn d a b la sz s
  | .amoSwap d a b la sz => Sys2Proof.Machine.execAmoSwap d a b la sz s
  | .amoFadd d a b la => Sys2Proof.Machine.execAmoFadd d a b la s
  | .cas d a b c sz => Sys2Proof.Machine.execCas d a b c sz s
  | .ldr d a la sz => Sys2Proof.Machine.execLdr d a la sz s
  | .stc d a b la sz => Sys2Proof.Machine.execStc d a b la sz s
  | .wrs d a la sz => Sys2Proof.Machine.execWrs d a la sz s
  | .rupdAdd a b sz => Sys2Proof.Machine.execRupdAdd a b sz s
  | .rupdAnd a b sz => Sys2Proof.Machine.execRupdAnd a b sz s
  | .rupdOr a b sz => Sys2Proof.Machine.execRupdOr a b sz s
  | .rupdXor a b sz => Sys2Proof.Machine.execRupdXor a b sz s
  | .rupdMin a b sz => Sys2Proof.Machine.execRupdMin a b sz s
  | .rupdMax a b sz => Sys2Proof.Machine.execRupdMax a b sz s
  | .rupdMinn a b sz => Sys2Proof.Machine.execRupdMinn a b sz s
  | .rupdMaxn a b sz => Sys2Proof.Machine.execRupdMaxn a b sz s
  | .rupdFadd a b => Sys2Proof.Machine.execRupdFadd a b s
  | .fence sc => Sys2Proof.Machine.execFence sc s
  | .fenceAcq sc => Sys2Proof.Machine.execFenceAcq sc s
  | .fenceRel sc => Sys2Proof.Machine.execFenceRel sc s
  | .fenceEng sc => Sys2Proof.Machine.execFenceEng sc s
  | .bara id => Sys2Proof.Machine.execBara id s
  | .barw id => Sys2Proof.Machine.execBarw id s
  | .barg id => Sys2Proof.Machine.execBarg id s
  | .barq d id => Sys2Proof.Machine.execBarq d id s
  | .barset id b => Sys2Proof.Machine.execBarset id b s
  | .txb disp => Sys2Proof.Machine.execTxb disp s
  | .txelse disp => Sys2Proof.Machine.execTxelse disp s
  | .txe => Sys2Proof.Machine.execTxe s
  | .txr => Sys2Proof.Machine.execTxr s
  | .txabort c => Sys2Proof.Machine.execTxabort c s
  | .txst d => Sys2Proof.Machine.execTxst d s
  | .vld d a la x m off => Sys2Proof.Machine.execVld d a la x m off s
  | .vldC d a la x m off => Sys2Proof.Machine.execVldC d a la x m off s
  | .vst d a la x m off => Sys2Proof.Machine.execVst d a la x m off s
  | .vldx d a b la x sz m z => Sys2Proof.Machine.execVldx d a b la x sz m z s
  | .vstx d a b la x sz m => Sys2Proof.Machine.execVstx d a b la x sz m s
  | .vlds d a b la m x => Sys2Proof.Machine.execVlds d a b la m x s
  | .vsts d a b la m x => Sys2Proof.Machine.execVsts d a b la m x s
  | .vadd d a b m => Sys2Proof.Machine.execVadd d a b m s
  | .vsub d a b m => Sys2Proof.Machine.execVsub d a b m s
  | .vmul d a b m => Sys2Proof.Machine.execVmul d a b m s
  | .vmulh d a b m => Sys2Proof.Machine.execVmulh d a b m s
  | .vand d a b m => Sys2Proof.Machine.execVand d a b m s
  | .vor d a b m => Sys2Proof.Machine.execVor d a b m s
  | .vxor d a b m => Sys2Proof.Machine.execVxor d a b m s
  | .vshl d a b m => Sys2Proof.Machine.execVshl d a b m s
  | .vshr d a b m => Sys2Proof.Machine.execVshr d a b m s
  | .vsra d a b m => Sys2Proof.Machine.execVsra d a b m s
  | .vmin d a b m => Sys2Proof.Machine.execVmin d a b m s
  | .vmax d a b m => Sys2Proof.Machine.execVmax d a b m s
  | .vminn d a b m => Sys2Proof.Machine.execVminn d a b m s
  | .vmaxn d a b m => Sys2Proof.Machine.execVmaxn d a b m s
  | .vabs d a m => Sys2Proof.Machine.execVabs d a m s
  | .vneg d a m => Sys2Proof.Machine.execVneg d a m s
  | .vcmp d a b m cc => Sys2Proof.Machine.execVcmp d a b m cc s
  | .vsel d a b m => Sys2Proof.Machine.execVsel d a b m s
  | .vclz d a m => Sys2Proof.Machine.execVclz d a m s
  | .vpopc d a m => Sys2Proof.Machine.execVpopc d a m s
  | .vfadd d a b m => Sys2Proof.Machine.execVfadd d a b m s
  | .vfsub d a b m => Sys2Proof.Machine.execVfsub d a b m s
  | .vfmul d a b m => Sys2Proof.Machine.execVfmul d a b m s
  | .vfmin d a b m => Sys2Proof.Machine.execVfmin d a b m s
  | .vfmax d a b m => Sys2Proof.Machine.execVfmax d a b m s
  | .vfabs d a m => Sys2Proof.Machine.execVfabs d a m s
  | .vfneg d a m => Sys2Proof.Machine.execVfneg d a m s
  | .vfcmp d a b m cc => Sys2Proof.Machine.execVfcmp d a b m cc s
  | .vfma d a b c m => Sys2Proof.Machine.execVfma d a b c m s
  | .vfms d a b c m => Sys2Proof.Machine.execVfms d a b c m s
  | .vfnma d a b c m => Sys2Proof.Machine.execVfnma d a b c m s
  | .vma d a b c m => Sys2Proof.Machine.execVma d a b c m s
  | .vfdiv d a b la m => Sys2Proof.Machine.execVfdiv d a b la m s
  | .vfsqrt d a la m => Sys2Proof.Machine.execVfsqrt d a la m s
  | .vfrcp d a la m => Sys2Proof.Machine.execVfrcp d a la m s
  | .vfrsq d a la m => Sys2Proof.Machine.execVfrsq d a la m s
  | .vfexp2 d a la m => Sys2Proof.Machine.execVfexp2 d a la m s
  | .vflog2 d a la m => Sys2Proof.Machine.execVflog2 d a la m s
  | .vcvtF2bf d a b m => Sys2Proof.Machine.execVcvtF2bf d a b m s
  | .vcvtBf2f d a h m => Sys2Proof.Machine.execVcvtBf2f d a h m s
  | .vcvtF2h d a b m => Sys2Proof.Machine.execVcvtF2h d a b m s
  | .vcvtH2f d a h m => Sys2Proof.Machine.execVcvtH2f d a h m s
  | .vcvtF2e4 d a k m => Sys2Proof.Machine.execVcvtF2e4 d a k m s
  | .vcvtE42f d a k m => Sys2Proof.Machine.execVcvtE42f d a k m s
  | .vcvtF2e5 d a k m => Sys2Proof.Machine.execVcvtF2e5 d a k m s
  | .vcvtE52f d a k m => Sys2Proof.Machine.execVcvtE52f d a k m s
  | .vcvtF2i d a m => Sys2Proof.Machine.execVcvtF2i d a m s
  | .vcvtI2f d a m => Sys2Proof.Machine.execVcvtI2f d a m s
  | .vcvtN2f d a m => Sys2Proof.Machine.execVcvtN2f d a m s
  | .vcvtF2n d a m => Sys2Proof.Machine.execVcvtF2n d a m s
  | .vcvtI2b d a k m => Sys2Proof.Machine.execVcvtI2b d a k m s
  | .vcvtB2i d a k m => Sys2Proof.Machine.execVcvtB2i d a k m s
  | .vbcast d a m => Sys2Proof.Machine.execVbcast d a m s
  | .vext d a b => Sys2Proof.Machine.execVext d a b s
  | .vins d a b => Sys2Proof.Machine.execVins d a b s
  | .vperm d a b m => Sys2Proof.Machine.execVperm d a b m s
  | .viota d m => Sys2Proof.Machine.execViota d m s
  | .vred d a op m => Sys2Proof.Machine.execVred d a op m s
  | .vscan d a op m => Sys2Proof.Machine.execVscan d a op m s
  | .vcomp d a m => Sys2Proof.Machine.execVcomp d a m s
  | .vslide d a b m => Sys2Proof.Machine.execVslide d a b m s
  | .pand d a b => Sys2Proof.Machine.execPand d a b s
  | .por d a b => Sys2Proof.Machine.execPor d a b s
  | .pxor d a b => Sys2Proof.Machine.execPxor d a b s
  | .pandn d a b => Sys2Proof.Machine.execPandn d a b s
  | .pnot d a => Sys2Proof.Machine.execPnot d a s
  | .pcnt d a => Sys2Proof.Machine.execPcnt d a s
  | .pfirst d a => Sys2Proof.Machine.execPfirst d a s
  | .pset d a => Sys2Proof.Machine.execPset d a s
  | .pgets d a => Sys2Proof.Machine.execPgets d a s
  | .mma md a b ty t z => Sys2Proof.Machine.execMma md a b ty t z s
  | .mmaIx md a b v ty t z => Sys2Proof.Machine.execMmaIx md a b v ty t z s
  | .msp md a b v ty t z => Sys2Proof.Machine.execMsp md a b v ty t z s
  | .mzero d => Sys2Proof.Machine.execMzero d s
  | .mlda d a => Sys2Proof.Machine.execMlda d a s
  | .msta d a => Sys2Proof.Machine.execMsta d a s
  | .mmov d a => Sys2Proof.Machine.execMmov d a s
  | .mstat d la => Sys2Proof.Machine.execMstat d la s
  | .mwait d la => Sys2Proof.Machine.execMwait d la s
  | .cpy a => Sys2Proof.Machine.execCpy a s
  | .cpyx a b => Sys2Proof.Machine.execCpyx a b s
  | .coll a => Sys2Proof.Machine.execColl a s
  | .qpush g q => Sys2Proof.Machine.execQpush g q s
  | .qpushv g q => Sys2Proof.Machine.execQpushv g q s
  | .qpop g q la => Sys2Proof.Machine.execQpop g q la s
  | .qpopv g q la => Sys2Proof.Machine.execQpopv g q la s
  | .qbind g q => Sys2Proof.Machine.execQbind g q s
  | .qstat g q => Sys2Proof.Machine.execQstat g q s
  | .wlpsh d a b => Sys2Proof.Machine.execWlpsh d a b s
  | .wlpop d a la => Sys2Proof.Machine.execWlpop d a la s
  | .wlack a => Sys2Proof.Machine.execWlack a s
  | .wlret a => Sys2Proof.Machine.execWlret a s
  | .wlsta d a b => Sys2Proof.Machine.execWlsta d a b s
  | .wlcfg d a => Sys2Proof.Machine.execWlcfg d a s
  | .endTask => Sys2Proof.Machine.execEndTask s
  | .yield => Sys2Proof.Machine.execYield s
  | .align => Sys2Proof.Machine.execAlign s
  | .trig => Sys2Proof.Machine.execTrig s
  | .migr a => Sys2Proof.Machine.execMigr a s
  | .widx d k => Sys2Proof.Machine.execWidx d k s
  | .ueret => Sys2Proof.Machine.execUeret s
  | .csrr d csr => Sys2Proof.Machine.execCsrr d csr s
  | .csrw d a csr => Sys2Proof.Machine.execCsrw d a csr s
  | .csrs d a csr => Sys2Proof.Machine.execCsrs d a csr s
  | .csrc d a csr => Sys2Proof.Machine.execCsrc d a csr s
  | .eret => Sys2Proof.Machine.execEret s
  | .spill a => Sys2Proof.Machine.execSpill a s
  | .fill a => Sys2Proof.Machine.execFill a s
  | .wake a => Sys2Proof.Machine.execWake a s
  | .tlbiRange a b => Sys2Proof.Machine.execTlbiRange a b s
  | .tlbiAsid a => Sys2Proof.Machine.execTlbiAsid a s
  | .tlbiAll => Sys2Proof.Machine.execTlbiAll s
  | .iflush => Sys2Proof.Machine.execIflush s
  | .halt => Sys2Proof.Machine.execHalt s
  | .mspill d a => Sys2Proof.Machine.execMspill d a s
  | .mfill d a => Sys2Proof.Machine.execMfill d a s
  | .trap c => Sys2Proof.Machine.execTrap c s
  | .brk c => Sys2Proof.Machine.execBrk c s
  | .dispatch slot => Sys2Proof.Machine.execDispatch slot s
  | .prefetch tile wl => Sys2Proof.Machine.execPrefetch tile wl s
  | .eviction slot => Sys2Proof.Machine.execEviction slot s
  | .saveComplete slot => Sys2Proof.Machine.execSaveComplete slot s
  | .refill slot => Sys2Proof.Machine.execRefill slot s
  | .migrationArrival tid tile => Sys2Proof.Machine.execMigrationArrival tid tile s
  | .userEventDelivery slot => Sys2Proof.Machine.execUserEventDelivery slot s
  | .icacheFill tile asid line => Sys2Proof.Machine.execIcacheFill tile asid line s
  | .alignTimeout core stamp => Sys2Proof.Machine.execAlignTimeout core stamp s
  | .homeAccess req => Sys2Proof.Machine.execHomeAccess req s
  | .accessReply req remote => Sys2Proof.Machine.execAccessReply req remote s
  | .updateApply req => Sys2Proof.Machine.execUpdateApply req s
  | .walkComplete home asid vpn => Sys2Proof.Machine.execWalkComplete home asid vpn s
  | .pageWake home asid vpn maps => Sys2Proof.Machine.execPageWake home asid vpn maps s
  | .feRetryAttempt req => Sys2Proof.Machine.execFeRetryAttempt req s
  | .buoyNotice n => Sys2Proof.Machine.execBuoyNotice n s
  | .lossNotice n => Sys2Proof.Machine.execLossNotice n s
  | .releaseMessage m => Sys2Proof.Machine.execReleaseMessage m s
  | .commitHold slot home line => Sys2Proof.Machine.execCommitHold slot home line s
  | .commitApply slot home line => Sys2Proof.Machine.execCommitApply slot home line s
  | .chunkTurn launch => Sys2Proof.Machine.execChunkTurn launch s
  | .fpush lamp m => Sys2Proof.Machine.execFpush lamp m s
  | .rpush m => Sys2Proof.Machine.execRpush m s
  | .fwd lamp m => Sys2Proof.Machine.execFwd lamp m s
  | .head wl tile pos => Sys2Proof.Machine.execHead wl tile pos s
  | .low wl lamp => Sys2Proof.Machine.execLow wl lamp s
  | .pull wl tile kn m v => Sys2Proof.Machine.execPull wl tile kn m v s
  | .ritem wl lamp q => Sys2Proof.Machine.execRitem wl lamp q s
  | .pack wl tile cap => Sys2Proof.Machine.execPack wl tile cap s
  | .demote wl lamp k => Sys2Proof.Machine.execDemote wl lamp k s
  | .cut wl toLamp dest k v => Sys2Proof.Machine.execCut wl toLamp dest k v s
  | .pop lamp m => Sys2Proof.Machine.execPop lamp m s
  | .popReply m ans => Sys2Proof.Machine.execPopReply m ans s
  | .pushAnswer m status => Sys2Proof.Machine.execPushAnswer m status s
  | .launchStart launch => Sys2Proof.Machine.execLaunchStart launch s
  | .coschedAdmission launch => Sys2Proof.Machine.execCoschedAdmission launch s
  | .launchRecordWrite asid => Sys2Proof.Machine.execLaunchRecordWrite asid s
  | .wlwdogExpiry wl => Sys2Proof.Machine.execWlwdogExpiry wl s
  | .packageBarrierArrival slot ctx key => Sys2Proof.Machine.execPackageBarrierArrival slot ctx key s
  | .barrierArrivalReply slot ctx id phase => Sys2Proof.Machine.execBarrierArrivalReply slot ctx id phase s
  | .barrierCompletion tile name phase => Sys2Proof.Machine.execBarrierCompletion tile name phase s
  | .channelWord tid q sender word => Sys2Proof.Machine.execChannelWord tid q sender word s
  | .creditReturn tid q receiver n => Sys2Proof.Machine.execCreditReturn tid q receiver n s
  | .dryTimeout tid q stamp => Sys2Proof.Machine.execDryTimeout tid q stamp s
  | .matrixCommandStart tile => Sys2Proof.Machine.execMatrixCommandStart tile s
  | .matrixCommandComplete tile core => Sys2Proof.Machine.execMatrixCommandComplete tile core s
  | .copyCommandStart tile core => Sys2Proof.Machine.execCopyCommandStart tile core s
  | .copyCommandComplete tile core => Sys2Proof.Machine.execCopyCommandComplete tile core s
  | .collectiveJoin tile core => Sys2Proof.Machine.execCollectiveJoin tile core s
  | .collectiveComplete key => Sys2Proof.Machine.execCollectiveComplete key s
  | .colltmoExpiry key => Sys2Proof.Machine.execColltmoExpiry key s
  | .tlbiAtHome home id => Sys2Proof.Machine.execTlbiAtHome home id s
  | .tlbiAck id => Sys2Proof.Machine.execTlbiAck id s
  | .sweeperStep home => Sys2Proof.Machine.execSweeperStep home s
  | .zeroingStep home => Sys2Proof.Machine.execZeroingStep home s
  | .freepush home frame => Sys2Proof.Machine.execFreepush home frame s
  | .coldpop home => Sys2Proof.Machine.execColdpop home s
  | .controlRegisterWrite offset value => Sys2Proof.Machine.execControlRegisterWrite offset value s
  | .throttleStep watts celsius => Sys2Proof.Machine.execThrottleStep watts celsius s
  | .thermalTrip => Sys2Proof.Machine.execThermalTrip s
  | .errorEvent src poisons => Sys2Proof.Machine.execErrorEvent src poisons s
  | .scrubComplete asid => Sys2Proof.Machine.execScrubComplete asid s
  | .podRequest port r => Sys2Proof.Machine.execPodRequest port r s
  | .busyResend req => Sys2Proof.Machine.execBusyResend req s
  | .podRequestTimeout req => Sys2Proof.Machine.execPodRequestTimeout req s
  | .rmaWrite port pa bytes => Sys2Proof.Machine.execRmaWrite port pa bytes s
  | .kick port src msg => Sys2Proof.Machine.execKick port src msg s
  | .kickReread ring => Sys2Proof.Machine.execKickReread ring s
  | .ringOpen c => Sys2Proof.Machine.execRingOpen c s
  | .ringClose c => Sys2Proof.Machine.execRingClose c s
  | .ctxCreate c => Sys2Proof.Machine.execCtxCreate c s
  | .ctxDestroy c => Sys2Proof.Machine.execCtxDestroy c s
  | .keySet c => Sys2Proof.Machine.execKeySet c s
  | .map c => Sys2Proof.Machine.execMap c s
  | .unmap c => Sys2Proof.Machine.execUnmap c s
  | .launch c => Sys2Proof.Machine.execLaunch c s
  | .abort c => Sys2Proof.Machine.execAbort c s
  | .copyIn c => Sys2Proof.Machine.execCopyIn c s
  | .copyOut c => Sys2Proof.Machine.execCopyOut c s
  | .query c => Sys2Proof.Machine.execQuery c s
  | .reset c => Sys2Proof.Machine.execReset c s
  | .attest c => Sys2Proof.Machine.execAttest c s
  | .debugHalt c => Sys2Proof.Machine.execDebugHalt c s
  | .debugResume c => Sys2Proof.Machine.execDebugResume c s
  | .debugStop c => Sys2Proof.Machine.execDebugStop c s
  | .debugGroup c => Sys2Proof.Machine.execDebugGroup c s
  | .debugRun c => Sys2Proof.Machine.execDebugRun c s
  | .debugStep c => Sys2Proof.Machine.execDebugStep c s
  | .bpset c => Sys2Proof.Machine.execBpset c s
  | .bpclr c => Sys2Proof.Machine.execBpclr c s
  | .debugRead c => Sys2Proof.Machine.execDebugRead c s
  | .debugWrite c => Sys2Proof.Machine.execDebugWrite c s
  | .sample c => Sys2Proof.Machine.execSample c s
  | .samplePeriod id => Sys2Proof.Machine.execSamplePeriod id s
  | .ctxSstate c => Sys2Proof.Machine.execCtxSstate c s
  | .lrecFree c => Sys2Proof.Machine.execLrecFree c s
  | .commandProcessorFailover => Sys2Proof.Machine.execCommandProcessorFailover s
  | .powerOn img => Sys2Proof.Machine.execPowerOn img s
  | .functionReady bit => Sys2Proof.Machine.execFunctionReady bit s
  | .bootReport => Sys2Proof.Machine.execBootReport s
  | .bootTimeout => Sys2Proof.Machine.execBootTimeout s
  | .cycle => Sys2Proof.Machine.execCycle s
  | .illegalWord w => Sys2Proof.Machine.execIllegalWord w s
  | .fetchOutsideCodeRegion => Sys2Proof.Machine.execFetchOutsideCodeRegion s
  | .powerOff => Sys2Proof.Machine.execPowerOff s
  | .functionFailed bit reason => Sys2Proof.Machine.execFunctionFailed bit reason s
  | .hostAcknowledgement id => Sys2Proof.Machine.execHostAcknowledgement id s
  | .packageLeavesPod pkg => Sys2Proof.Machine.execPackageLeavesPod pkg s
  | .controlReply slot ctx value => Sys2Proof.Machine.execControlReply slot ctx value s

end Sys2Proof.Machine
end

