-- ==== Sys2Proof/Machine/Fire.lean ====
section
/-! DEFINITION. Events as they happen: the meaning of each, which of them come from outside the package, and which keep their order
(spec/01_device.md R28; spec/05 R116; spec/08 R194). -/

namespace Sys2Proof.Machine

/-- What an event does: the meaning that `exec` gives the constructor of the same name. -/
def fire (e : Event) (s : State) : Host.Outcome State Fault Refusal :=
  match e with
  | .dispatch slot => execDispatch slot s
  | .prefetch tile wl => execPrefetch tile wl s
  | .eviction slot => execEviction slot s
  | .saveComplete slot => execSaveComplete slot s
  | .refill slot => execRefill slot s
  | .migrationArrival tid tile => execMigrationArrival tid tile s
  | .userEventDelivery slot => execUserEventDelivery slot s
  | .icacheFill tile asid line => execIcacheFill tile asid line s
  | .alignTimeout core stamp => execAlignTimeout core stamp s
  | .homeAccess req => execHomeAccess req s
  | .accessReply req remote => execAccessReply req remote s
  | .updateApply req => execUpdateApply req s
  | .walkComplete home asid vpn => execWalkComplete home asid vpn s
  | .pageWake home asid vpn maps => execPageWake home asid vpn maps s
  | .feRetryAttempt req => execFeRetryAttempt req s
  | .buoyNotice n => execBuoyNotice n s
  | .lossNotice n => execLossNotice n s
  | .releaseMessage m => execReleaseMessage m s
  | .commitHold slot home line => execCommitHold slot home line s
  | .commitApply slot home line => execCommitApply slot home line s
  | .chunkTurn launch => execChunkTurn launch s
  | .fpush lamp m => execFpush lamp m s
  | .rpush m => execRpush m s
  | .fwd lamp m => execFwd lamp m s
  | .head wl tile pos => execHead wl tile pos s
  | .low wl lamp => execLow wl lamp s
  | .pull wl tile kn m v => execPull wl tile kn m v s
  | .ritem wl lamp q => execRitem wl lamp q s
  | .pack wl tile cap => execPack wl tile cap s
  | .demote wl lamp k => execDemote wl lamp k s
  | .cut wl toLamp dest k v => execCut wl toLamp dest k v s
  | .pop lamp m => execPop lamp m s
  | .popReply m ans => execPopReply m ans s
  | .pushAnswer m status => execPushAnswer m status s
  | .launchStart launch => execLaunchStart launch s
  | .coschedAdmission launch => execCoschedAdmission launch s
  | .launchRecordWrite asid => execLaunchRecordWrite asid s
  | .wlwdogExpiry wl => execWlwdogExpiry wl s
  | .packageBarrierArrival slot ctx key => execPackageBarrierArrival slot ctx key s
  | .barrierArrivalReply slot ctx id phase => execBarrierArrivalReply slot ctx id phase s
  | .barrierCompletion tile name phase => execBarrierCompletion tile name phase s
  | .channelWord tid q sender word => execChannelWord tid q sender word s
  | .creditReturn tid q receiver n => execCreditReturn tid q receiver n s
  | .dryTimeout tid q stamp => execDryTimeout tid q stamp s
  | .matrixCommandStart tile => execMatrixCommandStart tile s
  | .matrixCommandComplete tile core => execMatrixCommandComplete tile core s
  | .copyCommandStart tile core => execCopyCommandStart tile core s
  | .copyCommandComplete tile core => execCopyCommandComplete tile core s
  | .collectiveJoin tile core => execCollectiveJoin tile core s
  | .collectiveComplete key => execCollectiveComplete key s
  | .colltmoExpiry key => execColltmoExpiry key s
  | .tlbiAtHome home id => execTlbiAtHome home id s
  | .tlbiAck id => execTlbiAck id s
  | .sweeperStep home => execSweeperStep home s
  | .zeroingStep home => execZeroingStep home s
  | .freepush home frame => execFreepush home frame s
  | .coldpop home => execColdpop home s
  | .controlRegisterWrite offset value => execControlRegisterWrite offset value s
  | .throttleStep watts celsius => execThrottleStep watts celsius s
  | .thermalTrip => execThermalTrip s
  | .errorEvent src poisons => execErrorEvent src poisons s
  | .scrubComplete asid => execScrubComplete asid s
  | .podRequest port r => execPodRequest port r s
  | .busyResend req => execBusyResend req s
  | .podRequestTimeout req => execPodRequestTimeout req s
  | .rmaWrite port pa bytes => execRmaWrite port pa bytes s
  | .kick port src msg => execKick port src msg s
  | .kickReread ring => execKickReread ring s
  | .ringOpen c => execRingOpen c s
  | .ringClose c => execRingClose c s
  | .ctxCreate c => execCtxCreate c s
  | .ctxDestroy c => execCtxDestroy c s
  | .keySet c => execKeySet c s
  | .map c => execMap c s
  | .unmap c => execUnmap c s
  | .launch c => execLaunch c s
  | .abort c => execAbort c s
  | .copyIn c => execCopyIn c s
  | .copyOut c => execCopyOut c s
  | .query c => execQuery c s
  | .reset c => execReset c s
  | .attest c => execAttest c s
  | .debugHalt c => execDebugHalt c s
  | .debugResume c => execDebugResume c s
  | .debugStop c => execDebugStop c s
  | .debugGroup c => execDebugGroup c s
  | .debugRun c => execDebugRun c s
  | .debugStep c => execDebugStep c s
  | .bpset c => execBpset c s
  | .bpclr c => execBpclr c s
  | .debugRead c => execDebugRead c s
  | .debugWrite c => execDebugWrite c s
  | .sample c => execSample c s
  | .samplePeriod id => execSamplePeriod id s
  | .ctxSstate c => execCtxSstate c s
  | .lrecFree c => execLrecFree c s
  | .commandProcessorFailover => execCommandProcessorFailover s
  | .powerOn img => execPowerOn img s
  | .functionReady bit => execFunctionReady bit s
  | .bootReport => execBootReport s
  | .bootTimeout => execBootTimeout s
  | .cycle => execCycle s
  | .illegalWord w => execIllegalWord w s
  | .fetchOutsideCodeRegion => execFetchOutsideCodeRegion s
  | .powerOff => execPowerOff s
  | .functionFailed bit reason => execFunctionFailed bit reason s
  | .hostAcknowledgement id => execHostAcknowledgement id s
  | .packageLeavesPod pkg => execPackageLeavesPod pkg s
  | .controlReply slot ctx value => execControlReply slot ctx value s

/-- Events that come from outside the package: the host, the page service and firmware, other packages, sensors, errors and power. -/
def external : Event → Bool
  | .accessReply _ (some _) | .pageWake .. | .buoyNotice _ | .lossNotice _ | .releaseMessage _ | .packageBarrierArrival ..
  | .barrierArrivalReply .. | .barrierCompletion .. | .channelWord .. | .creditReturn .. | .controlReply .. | .controlRegisterWrite .. | .freepush ..
  | .coldpop _ | .throttleStep .. | .thermalTrip | .errorEvent .. | .podRequest .. | .rmaWrite .. | .kick .. | .commandProcessorFailover
  | .powerOn _ | .powerOff | .functionReady _ | .functionFailed .. | .hostAcknowledgement _ | .packageLeavesPod _ => true
  | _ => false

/-- The stream in which an event keeps its order: the words of a channel (R194). Accesses may arrive in any order; their home performs them in the order
that R113 and R116 ask for. -/
def eventStream : Event → Option (List Nat)
  | .channelWord tid q .. => some [2, tid.toNat, q]
  | _ => none

/-- Whether the k-th event in flight can happen now: its time has come, and no earlier one of its stream is still on its way. -/
def State.canFire (s : State) (k : Nat) : Option Pending :=
  match s.net.pend[k]? with
  | none => none
  | some p =>
    let st := eventStream p.ev
    if decide (p.due ≤ s.now) && (st.isNone || !((s.net.pend.take k).any fun q => eventStream q.ev == st)) then some p else none

/-- The place of the event whose time came first among those that can happen now. -/
def State.nextDue (s : State) : Option Nat :=
  (s.net.pend.foldl (fun (acc : Nat × Option (Nat × Nat)) p =>
    (acc.1 + 1, if (s.canFire acc.1).isSome then (match acc.2 with
      | none => some (p.due, acc.1)
      | some b => if p.due < b.1 then some (p.due, acc.1) else some b) else acc.2)) (0, none)).2.map (·.2)

/-- Take an event out of flight. -/
def State.unpend (s : State) (k : Nat) : State := s.updNet fun n => { n with pend := n.pend.eraseIdx k }

/-- Make the choice that the plan names next and forget it. -/
def State.unplan (s : State) : State := s.updNet fun n => { n with plan := n.plan.drop 1 }

end Sys2Proof.Machine
end

