-- ==== Sys2Proof/Machine/Issue.lean ====
section
/-! DEFINITION. The issue of a selected slot, and the loading of one instruction for the host's questions (spec/03_registers.md R65, R71, R79;
spec/12_encoding.md R244). -/

namespace Sys2Proof.Machine

/-- Issue the next instruction of the slot in focus: `exec` of what its place in the program holds. A slot that holds no task by now issues
nothing. -/
def State.issueNext (s : State) : Host.Outcome State Fault Refusal :=
  if s.cur.status = .free then .next s
  else match s.next with
    | .instr i => exec i s
    | .illegal w => execIllegalWord w s
    | .outside => execFetchOutsideCodeRegion s
    | .missing => .next s

/-- The cores go on: the next selected slot issues, or a new cycle begins. -/
def State.coreStep (s : State) : Host.Outcome State Fault Refusal :=
  match s.net.issueQ with
  | k :: rest => (({ s with net := { s.net with issueQ := rest } } : State).focus k).issueNext
  | [] => execCycle s

/-- The machine's own order: an event whose time has come happens first, then the cores go on. DESIGN CHOICE (log 2). -/
def State.ownStep (s : State) : Host.Outcome State Fault Refusal :=
  match s.nextDue with
  | some k => (match s.canFire k with
    | some p => fire p.ev (s.unpend k)
    | none => s.coreStep)
  | none => s.coreStep

/-- What a choice of the plan does: one that cannot be made is passed over. DESIGN CHOICE (log 2). -/
def State.planStep (s : State) (p : Pick) : Host.Outcome State Fault Refusal :=
  match p with
  | .input e => if external e then fire e s else .next s
  | .fire k => (match s.canFire k with
    | some p => fire p.ev (s.unpend k)
    | none => .next s)
  | .core => s.coreStep

/-- The bytes of a word as they stand in memory: the least significant first (R240). -/
def wordBytes (w : Nat) : List Byte := (List.range 4).map fun k => BitVec.ofNat 8 (w / 2 ^ (8 * k))

/-- The slot in focus about to issue one word: a task at M stands at address 0, whose line the tile's instruction cache holds, and the cores go on
with it (log 1). -/
def State.loadWord (s : State) (w : Nat) : State :=
  let line : IcLine := ⟨s.cur.sc.asid, 0, wordBytes w ++ List.replicate 60 0⟩
  let x : Slot := { s.cur with
    status := .ready, level := .m, pc := 0, busy := [], ops := [], fails := [], skip := (0, 0), hold := .none, wait := 0, frame := none
    spec := Spec.none, stopReq := .none, ending := false, leaving := false
    sc := { s.cur.sc with piste := false }, mc := { s.cur.mc with intrap := false } }
  let s := s.updTile (tileOf s.curId) fun t => { t with icache := line :: t.icache }
  let s := s.updCore (coreOf s.curId) fun c => { c with align := none }
  { s with
    cur := x
    pkg := { s.pkg with halted := false, duty := 0, boot := { s.pkg.boot with powered := true } }
    net := { s.net with plan := [.core], issueQ := [s.curId] } }

end Sys2Proof.Machine
end

