-- ==== Sys2Proof/Machine/Step.lean ====
section
/-! DEFINITION. One step of the machine, and the loading of one instruction where it fetches next. -/

namespace Sys2Proof.Machine

/-- One step: the choice the plan names, or the machine's own order where the plan is empty. -/
def step (s : State) : Host.Outcome State Fault Refusal :=
  match s.net.plan with
  | p :: _ => s.unplan.planStep p
  | [] => s.ownStep

/-- The machine with one instruction of `nbits` bits where the very next step fetches (every instruction has 32 bits). -/
def State.withFetchWord (s : State) (_nbits w : Nat) : State := s.loadWord w

end Sys2Proof.Machine
end

