-- ==== Sys2Proof/Safety.lean ====
section
/-! DEFINITION. What statements are stated in terms of. -/

namespace Sys2Proof

/-- The rows of the opcode table that are events: they have no word. -/
def Instr.isEvent (i : Instr) : Bool :=
  match i with
  | .dispatch ..
  | .prefetch ..
  | .eviction ..
  | .saveComplete ..
  | .refill ..
  | .migrationArrival ..
  | .userEventDelivery ..
  | .icacheFill ..
  | .alignTimeout ..
  | .homeAccess ..
  | .accessReply ..
  | .updateApply ..
  | .walkComplete ..
  | .pageWake ..
  | .feRetryAttempt ..
  | .buoyNotice ..
  | .lossNotice ..
  | .releaseMessage ..
  | .commitHold ..
  | .commitApply ..
  | .chunkTurn ..
  | .fpush ..
  | .rpush ..
  | .fwd ..
  | .head ..
  | .low ..
  | .pull ..
  | .ritem ..
  | .pack ..
  | .demote ..
  | .cut ..
  | .pop ..
  | .popReply ..
  | .pushAnswer ..
  | .launchStart ..
  | .coschedAdmission ..
  | .launchRecordWrite ..
  | .wlwdogExpiry ..
  | .packageBarrierArrival ..
  | .barrierArrivalReply ..
  | .barrierCompletion ..
  | .channelWord ..
  | .creditReturn ..
  | .dryTimeout ..
  | .matrixCommandStart ..
  | .matrixCommandComplete ..
  | .copyCommandStart ..
  | .copyCommandComplete ..
  | .collectiveJoin ..
  | .collectiveComplete ..
  | .colltmoExpiry ..
  | .tlbiAtHome ..
  | .tlbiAck ..
  | .sweeperStep ..
  | .zeroingStep ..
  | .freepush ..
  | .coldpop ..
  | .controlRegisterWrite ..
  | .throttleStep ..
  | .thermalTrip ..
  | .errorEvent ..
  | .scrubComplete ..
  | .podRequest ..
  | .busyResend ..
  | .podRequestTimeout ..
  | .rmaWrite ..
  | .kick ..
  | .kickReread ..
  | .ringOpen ..
  | .ringClose ..
  | .ctxCreate ..
  | .ctxDestroy ..
  | .keySet ..
  | .map ..
  | .unmap ..
  | .launch ..
  | .abort ..
  | .copyIn ..
  | .copyOut ..
  | .query ..
  | .reset ..
  | .attest ..
  | .debugHalt ..
  | .debugResume ..
  | .debugStop ..
  | .debugGroup ..
  | .debugRun ..
  | .debugStep ..
  | .bpset ..
  | .bpclr ..
  | .debugRead ..
  | .debugWrite ..
  | .sample ..
  | .samplePeriod ..
  | .ctxSstate ..
  | .lrecFree ..
  | .commandProcessorFailover ..
  | .powerOn ..
  | .functionReady ..
  | .bootReport ..
  | .bootTimeout ..
  | .cycle ..
  | .illegalWord ..
  | .fetchOutsideCodeRegion ..
  | .powerOff ..
  | .functionFailed ..
  | .hostAcknowledgement ..
  | .packageLeavesPod ..
  | .controlReply .. => true
  | _ => false

end Sys2Proof

namespace Sys2Proof.Machine

/-! ### When an instruction executes -/

/-- The instruction may issue at the slot in focus and nothing comes before its own effect: CanIssue (R65), the level (R72), the lookahead windows (R69)
and the row of Table 6.3 let it; and when it ends a running frame, no notice has been kept for that end (R297). -/
def CanIssue (i : Instr) (s : State) : Prop := s.permits i = .go ∧ (s.cur.frame = none ∨ s.cur.spec.undo = none)

/-! ### The spec's readings of operands -/

/-- A condition on two values (Table 12.4): the signed ones compare two's-complement values, LTN and GEN compare unsigned ones (R273). -/
def Meets {w : Nat} (c : Cond) (x y : BitVec w) : Prop :=
  match c with
  | .eq => x = y
  | .ne => x ≠ y
  | .lt => x.toInt < y.toInt
  | .ge => y.toInt ≤ x.toInt
  | .ltn => x.toNat < y.toNat
  | .gen => y.toNat ≤ x.toNat

/-- The zero bits above the highest set bit of a value, `w` for the value 0 (R270, R304). -/
def zerosAbove {w : Nat} (x : BitVec w) : Nat := if x = 0 then w else w - (Nat.log2 x.toNat + 1)

/-- The set bits of a value (R270, R304). -/
def setBits {w : Nat} (x : BitVec w) : Nat := (List.range w).countP fun k => x.getLsbD k

/-- The quotient and remainder of a division (R271): both forms give all ones and the dividend for a zero divisor; a signed quotient is rounded toward
zero, and a remainder has the sign of the dividend. -/
def quotient (sgn : Bool) (x y : W64) : Int :=
  if y = 0 then -1 else if sgn then x.toInt.tdiv y.toInt else (x.toNat / y.toNat : Nat)
def remainder (sgn : Bool) (x y : W64) : Int :=
  if y = 0 then x.toInt else if sgn then x.toInt - x.toInt.tdiv y.toInt * y.toInt else (x.toNat % y.toNat : Nat)

/-- The field a descriptor names (R272): its place, and its length cut to the bits above that place. -/
def fieldPlace (b : W64) : Nat := b.toNat % 64
def fieldLen (b : W64) : Nat := Nat.min (b.toNat / 256 % 128) (64 - fieldPlace b)
/-- The value of that field of `a`, as an unsigned number (R272). -/
def fieldVal (a b : W64) : Nat := a.toNat / 2 ^ fieldPlace b % 2 ^ fieldLen b

/-! ### What changes in the registers of a slot -/

/-- From `x` to `y` one scalar register changes, to `v`; g0 still reads zero, and the bank that is out of view keeps its values (R57, R78). -/
structure SetsG (x y : Slot) (d : RegNo) (v : W64) : Prop where
  g : ∀ r, y.readG r = if r = d ∧ r ≠ 0 then v else x.readG r
  v : y.regs.v = x.regs.v
  p : y.regs.p = x.regs.p
  shadow : x.u.active = false → y.regs.shadow = x.regs.shadow
  bank : x.u.active = true → ∀ k, 24 ≤ k → k ≤ 27 → y.regs.g.getD k 0 = x.regs.g.getD k 0

/-- From `x` to `y` one predicate register changes, to `v`; p0 still reads all ones (R57). -/
structure SetsP (x y : Slot) (d : PredNo) (v : Pred) : Prop where
  p : ∀ r, y.readP r = if r = d ∧ r ≠ 0 then v else x.readP r
  g : y.regs.g = x.regs.g
  v : y.regs.v = x.regs.v
  shadow : y.regs.shadow = x.regs.shadow

/-- From `x` to `y` the active lanes of one vector register change, to `f` of their number (R58). -/
structure SetsLanes (x y : Slot) (d : RegNo) (act : Pred) (f : Nat → W32) : Prop where
  v : ∀ r k, k < 16 → lane (y.readV r) k = if r = d ∧ act.getLsbD k = true then f k else lane (x.readV r) k
  g : y.regs.g = x.regs.g
  p : y.regs.p = x.regs.p
  shadow : y.regs.shadow = x.regs.shadow

/-! ### The frames of instructions -/

/-- Beside the slot in focus only counters of tiles changed. -/
structure OnlySlot (s t : State) : Prop where
  rest : t = { s with cur := t.cur, tiles := t.tiles }
  counters : ∀ k, t.tile k = { s.tile k with pcs := (t.tile k).pcs }

/-- Beside the slot in focus only counters of tiles and the counter that numbers operations and requests changed. -/
structure OnlySlotNamed (s t : State) : Prop where
  rest : t = { s with cur := t.cur, tiles := t.tiles, net := { s.net with nextId := t.net.nextId } }
  counters : ∀ k, t.tile k = { s.tile k with pcs := (t.tile k).pcs }

/-- The slot after an instruction that retired in sequence: RETIRED and TURNS count it, the next place follows, and what else may differ is registers, FFLAGS,
the scoreboard, turns forfeited, debug requests met and the counts of a chunk. -/
structure Sequel (x y : Slot) : Prop where
  rest : y = { x with
    regs := y.regs
    u := { x.u with fflags := y.u.fflags, retired := x.u.retired + 1, turns := x.u.turns + 1 }
    pc := y.pc, frame := y.frame, busy := y.busy, forfeit := y.forfeit, stopReq := y.stopReq
    spec := { x.spec with count := y.spec.count, ended := y.spec.ended } }
  pc : y.pc = x.step.pc
  frame : y.frame = x.step.frame

/-- An instruction retired in sequence, and beside its destinations nothing else happened (R64, R66, R71). -/
structure Retires (s t : State) : Prop where
  only : OnlySlot s t
  slot : Sequel s.cur t.cur

/-- The slot after a long-latency instruction has issued (R67, R68): TURNS counts it, it is listed as incomplete, and the next place follows. -/
structure Opened (x y : Slot) (o : LongOp) : Prop where
  rest : y = { x with
    regs := y.regs
    u := { x.u with fflags := y.u.fflags, turns := x.u.turns + 1 }
    ops := x.ops ++ [o]
    pc := y.pc, frame := y.frame, forfeit := y.forfeit, stopReq := y.stopReq
    spec := { x.spec with count := y.spec.count, ended := y.spec.ended } }
  pc : y.pc = x.step.pc
  frame : y.frame = x.step.frame
  at_ : o.pc = x.pc

/-- The slot after a taken transfer (R64, R71, R287): the target follows, no earlier than the second cycle after. -/
structure Jumped (x y : Slot) (now : Nat) (target : Nat) : Prop where
  rest : y = { x with
    regs := y.regs
    u := { x.u with retired := x.u.retired + 1, turns := x.u.turns + 1 }
    pc := y.pc, skip := y.skip, wait := y.wait, stopReq := y.stopReq
    spec := { x.spec with count := y.spec.count, ended := y.spec.ended } }
  pc : y.pc = BitVec.ofNat 48 target
  wait : y.wait = now + 2

/-! ### Results -/

/-- The instruction completes, writes `v` to g[D], and changes no flag. -/
def Gives (i : Instr) (s : State) (d : RegNo) (v : W64) : Prop :=
  CanIssue i s → ∃ t, exec i s = .next t ∧ Retires s t ∧ SetsG s.cur t.cur d v ∧ t.cur.u.fflags = s.cur.u.fflags

/-- The instruction completes, writes `v` to g[D], and raises the flags `fl`. -/
def GivesFp (i : Instr) (s : State) (d : RegNo) (v : W64) (fl : Flags) : Prop :=
  CanIssue i s → ∃ t, exec i s = .next t ∧ Retires s t ∧ SetsG s.cur t.cur d v ∧ t.cur.u.fflags = s.cur.u.fflags ||| fl

/-- The instruction completes, writes `v` to p[D], and raises the flags `fl`. -/
def GivesP (i : Instr) (s : State) (d : PredNo) (v : Pred) (fl : Flags) : Prop :=
  CanIssue i s → ∃ t, exec i s = .next t ∧ Retires s t ∧ SetsP s.cur t.cur d v ∧ t.cur.u.fflags = s.cur.u.fflags ||| fl

/-- The instruction completes, writes `f` to the active lanes of v[D], and raises the flags `fl`. -/
def GivesLanes (i : Instr) (s : State) (d : RegNo) (act : Pred) (f : Nat → W32) (fl : Flags) : Prop :=
  CanIssue i s → ∃ t, exec i s = .next t ∧ Retires s t ∧ SetsLanes s.cur t.cur d act f ∧ t.cur.u.fflags = s.cur.u.fflags ||| fl

/-- A long-latency instruction that waits for no access completes: g[D] takes `v`, the flags `fl` are raised, and the result stays barred (R69) until `lat`
cycles have passed. -/
def GivesLater (i : Instr) (s : State) (d : RegNo) (v : W64) (fl : Flags) (la lat : Nat) : Prop :=
  CanIssue i s → ∃ t o, exec i s = .next t ∧ OnlySlotNamed s t ∧ Opened s.cur t.cur o ∧ SetsG s.cur t.cur d v ∧
    t.cur.u.fflags = s.cur.u.fflags ||| fl ∧ o.la = la ∧ o.dests = [.g d] ∧ o.due = some (s.now + lat) ∧ o.left = 0

/-- A long-latency vector instruction, likewise. -/
def GivesLanesLater (i : Instr) (s : State) (d : RegNo) (act : Pred) (f : Nat → W32) (fl : Flags) (la lat : Nat) : Prop :=
  CanIssue i s → ∃ t o, exec i s = .next t ∧ OnlySlotNamed s t ∧ Opened s.cur t.cur o ∧ SetsLanes s.cur t.cur d act f ∧
    t.cur.u.fflags = s.cur.u.fflags ||| fl ∧ o.la = la ∧ o.dests = [.v d] ∧ o.due = some (s.now + lat) ∧ o.left = 0

/-- A transfer is taken to an address, and no register changes. -/
def Goes (i : Instr) (s : State) (target : Nat) : Prop :=
  CanIssue i s → ∃ t, exec i s = .next t ∧ OnlySlot s t ∧ Jumped s.cur t.cur s.now target ∧ t.cur.regs = s.cur.regs

/-- A transfer is taken to an address, and g[D] takes `v`. -/
def GoesSetting (i : Instr) (s : State) (target : Nat) (d : RegNo) (v : W64) : Prop :=
  CanIssue i s → ∃ t, exec i s = .next t ∧ OnlySlot s t ∧ Jumped s.cur t.cur s.now target ∧ SetsG s.cur t.cur d v

/-- The instruction retires in sequence, and no register and no flag changes. -/
def GoesOn (i : Instr) (s : State) : Prop :=
  CanIssue i s → ∃ t, exec i s = .next t ∧ Retires s t ∧ t.cur.regs = s.cur.regs ∧ t.cur.u.fflags = s.cur.u.fflags

/-- The instruction traps as it issues, before any effect of its own (R73, R74): it spends its turn and takes the trap with this cause, code and XADDR, or
meets the rule of its transaction, glide or chunk in its place (R137, R145, R149). -/
def Traps (i : Instr) (s : State) (cause code : Nat) (xaddr : W64) : Prop :=
  CanIssue i s → exec i s = .next (s.charge.issueTrap (encode i) cause code xaddr)

/-- The order of FP32 values (R282, R283): sign and magnitude, with the two zeros equal. -/
def fpOrder (a : W32) : Int := if a.msb then -(a.toNat % 2 ^ 31 : Nat) else (a.toNat % 2 ^ 31 : Nat)
/-- A NaN of FP32. -/
def IsNaN (a : W32) : Prop := 0x7F800000 < a.toNat % 2 ^ 31

/-- A relation of FCMP (R283). -/
def FMeets (c : FCond) (a b : W32) : Prop :=
  match c with
  | .eq => ¬IsNaN a ∧ ¬IsNaN b ∧ fpOrder a = fpOrder b
  | .ne => IsNaN a ∨ IsNaN b ∨ fpOrder a ≠ fpOrder b
  | .lt => ¬IsNaN a ∧ ¬IsNaN b ∧ fpOrder a < fpOrder b
  | .le => ¬IsNaN a ∧ ¬IsNaN b ∧ fpOrder a ≤ fpOrder b
  | .un => IsNaN a ∨ IsNaN b
  | .or => ¬IsNaN a ∧ ¬IsNaN b

/-- The relations that raise NV on a NaN operand (R283). -/
def FSignals (c : FCond) (a b : W32) : Prop := (c = .lt ∨ c = .le) ∧ (IsNaN a ∨ IsNaN b)

/-- The smaller of two FP32 values (R282): −0 is smaller than +0, and a NaN gives way to a number. -/
def IsMin (r a b : W32) : Prop :=
  (IsNaN a ∧ IsNaN b ∧ r = 0x7FC00000) ∨ (IsNaN a ∧ ¬IsNaN b ∧ r = b) ∨ (¬IsNaN a ∧ IsNaN b ∧ r = a) ∨
  (¬IsNaN a ∧ ¬IsNaN b ∧ (r = a ∨ r = b) ∧ fpOrder r ≤ fpOrder a ∧ fpOrder r ≤ fpOrder b ∧
    (fpOrder a = fpOrder b → (a.msb ∨ b.msb) → r.msb))

/-- The larger (R282). -/
def IsMax (r a b : W32) : Prop :=
  (IsNaN a ∧ IsNaN b ∧ r = 0x7FC00000) ∨ (IsNaN a ∧ ¬IsNaN b ∧ r = b) ∨ (¬IsNaN a ∧ IsNaN b ∧ r = a) ∨
  (¬IsNaN a ∧ ¬IsNaN b ∧ (r = a ∨ r = b) ∧ fpOrder a ≤ fpOrder r ∧ fpOrder b ≤ fpOrder r ∧
    (fpOrder a = fpOrder b → (¬a.msb ∨ ¬b.msb) → ¬r.msb))

/-- The bit FCLASS sets (R285). -/
def classBit (a : W32) : Nat :=
  let m := a.toNat % 2 ^ 31
  if 0x7F800000 < m then 8
  else if m = 0x7F800000 then (if a.msb then 0 else 7)
  else if 0x00800000 ≤ m then (if a.msb then 1 else 6)
  else if 0 < m then (if a.msb then 2 else 5)
  else (if a.msb then 3 else 4)

/-- Subnormal service (R26, R269): some FP32 operand or result is subnormal. -/
def Subnormal (a : W32) : Prop := 0 < a.toNat % 2 ^ 31 ∧ a.toNat % 2 ^ 31 < 0x00800000

/-! ### Repeat frames (R293 to R296) -/

/-- The address of body position `j` of a REPF at the pc. -/
def bodyAt (s : State) (j : Nat) : Addr := s.cur.pc + BitVec.ofNat 48 (4 * (j + 1))

/-- The word of body position `j`, in the code region and held by the instruction cache. -/
def Fetched (s : State) (j : Nat) (w : W32) : Prop := s.cur.inRegion (bodyAt s j) = true ∧ s.icWord (bodyAt s j) = some w

/-- A word that may stand in a body whose last pass adds `last` to the selected fields (R294, R295). -/
def Framable (fm : BitVec 3) (last : Nat) (w : W32) : Prop := ∃ i k, decode w = .ok i ∧ advanced fm last i = some (some k)

/-! ### Accesses (R317, Table 4.7) -/

/-- The exact address of an element: VA of the base and the element's offset. -/
def elemVa (p : W64) (off : Int) : Int := (p.toNat % 2 ^ 48 : Nat) + off

/-- The class of an element's address as the slot in focus sees it (Table 4.3). -/
def elemCls (s : State) (p : W64) (off : Int) : Cls := s.classify s.myTile s.cur.sc.asid s.cur.level (elemVa p off).toNat

/-- An element passes steps 1 to 6 of Table 4.7: the base keeps [51:48] zero, the address is in range and aligned, and its class may be reached by the
access: FE words lie in slices, control addresses take the 8-byte forms, another package is a member and the launch no Piste launch. -/
structure Reaches (s : State) (p : W64) (align : Nat) (k : ReqKind) (ctl : Bool) (e : Elem) : Prop where
  tag : p.extractLsb' 48 4 = 0
  low : 0 ≤ elemVa p e.off
  high : elemVa p e.off < 2 ^ 48
  aligned : (elemVa p e.off).toNat % align = 0
  cls : match elemCls s p e.off with
    | .sram _ _ => True
    | .hbm _ => k.isFe = false
    | .control _ => ctl = true
    | .pod pkg _ => s.cur.sc.piste = false ∧ pkg ∈ s.pkg.members

/-- Elements that name a byte: one with an empty mask sends nothing (R322). -/
def liveElems (elems : List Elem) : List Elem := elems.filter fun e => e.mask != 0

/-- Some element of an access lies in the control space, where Table 6.3 has no row for it: the access runs as outside a speculation. -/
def anyControl (s : State) (p : W64) (live : List Elem) : Bool := live.any fun e => (elemCls s p e.off).isControl

/-- An access meets the speculation of the slot in focus: a write stays in the buffer, a read places a buoy (R131, R137). -/
def speculative (s : State) (p : W64) (live : List Elem) : Bool := s.cur.speculates && !anyControl s p live

/-- Room for an access of a slot that speculates: no element lies in another package, and the limits of the speculation buffer hold (R131, R137). -/
def Roomy (s : State) (p : W64) (write : Bool) (live : List Elem) : Prop :=
  speculative s p live = true → (∀ e ∈ live, (elemCls s p e.off).away = false) ∧
    (if write then s.overWrite (live.map fun e => (elemCls s p e.off).key).dedup = false
      else s.overRead (live.map fun e => (elemCls s p e.off).key).dedup = false)

/-- Beside the slot in focus only counters, the numbering of pod requests and what travels changed: no byte of memory, no register of another slot, no
table. -/
structure OnlySent (s t : State) : Prop where
  rest : t = { s with
    cur := t.cur, tiles := t.tiles
    net := { s.net with nextId := t.net.nextId, reqs := t.net.reqs, pend := t.net.pend, outbox := t.net.outbox } }
  counters : ∀ k, t.tile k = { s.tile k with pcs := (t.tile k).pcs, seqs := (t.tile k).seqs }

/-- A request of the slot in focus for an element: sent now, not yet performed. -/
structure Sent (s t : State) (op : Nat) (k : ReqKind) (p : W64) (e : Elem) (r : Req) : Prop where
  listed : t.req? r.id = some r
  new : s.net.nextId ≤ r.id
  op : r.op = op
  lane : r.lane = e.lane
  slot : r.slot = s.curId
  ctx : r.ctx = s.cur.mc.ctxser
  tid : r.tid = s.cur.u.tid
  asid : r.asid = s.cur.sc.asid
  tenant : r.tenant = s.cur.sc.tenant
  kind : r.kind = k
  ptr : r.ptr = p.extractLsb' 48 16 ++ BitVec.ofInt 48 (elemVa p e.off)
  cls : r.cls = elemCls s p e.off
  n : r.n = e.n
  mask : r.mask = e.mask
  data : r.data = e.data
  stage : r.stage = .travel
  source : r.source = none

/-- The instruction is an access that completes its issue (R317): every element passes its checks, one request is sent for each element that names a byte,
and the instruction is listed as incomplete with its destinations; no register, no flag and no byte of memory changes yet. Where the slot speculates, a
write sends a probe and its bytes stay in the buffer (R131). -/
def Accesses (i : Instr) (s : State) (p : W64) (align : Nat) (k : ReqKind) (write ctl : Bool) (elems : List Elem) (kind : OpKind)
    (dests : List RegRef) (la : Nat) (wb : WriteBack) : Prop :=
  CanIssue i s → (∀ e ∈ elems, Reaches s p align k ctl e) → liveElems elems ≠ [] → Roomy s p write (liveElems elems) →
    ∃ t o, exec i s = .next t ∧ OnlySent s t ∧ Opened s.cur t.cur o ∧ t.cur.regs = s.cur.regs ∧ t.cur.u.fflags = s.cur.u.fflags ∧
      o.left = (liveElems elems).length ∧ o.kind = kind ∧ o.dests = dests ∧ o.la = la ∧ o.wb = wb ∧ o.got = [] ∧ o.fail = none ∧ o.due = none ∧
      ∀ e ∈ liveElems elems, ∃ r, Sent s t o.id (if speculative s p (liveElems elems) && write then .probe else k) p e r

/-- Element bytes of the formats of Table 4.2, where an indexed access can scale by them (R88): RAW takes the access size. -/
def scaleOf (p : W64) (n : Nat) : Option Nat :=
  let blgOk : Bool := p.extractLsb' 52 4 == 0
  match (p.extractLsb' 56 8).toNat with
  | 0x00 => if blgOk then some n else none
  | 0x01 | 0x02 | 0x13 | 0x14 => if blgOk && n == 1 then some 1 else none
  | 0x03 | 0x04 | 0x11 | 0x12 => if blgOk && n == 2 then some 2 else none
  | 0x05 | 0x06 | 0x10 => if blgOk && n == 4 then some 4 else none
  | 0x07 => if blgOk && n == 8 then some 8 else none
  | _ => none

/-- The span of VLD.C and its element bytes, 0 for a block (Table 15.3). -/
def spanC (p : W64) : Option (Nat × Nat) :=
  let blg := (p.extractLsb' 52 4).toNat
  match (p.extractLsb' 56 8).toNat with
  | 0x10 | 0x05 | 0x06 => if blg = 0 then some (64, 4) else none
  | 0x11 | 0x12 | 0x03 | 0x04 => if blg = 0 then some (32, 2) else none
  | 0x13 | 0x14 | 0x01 | 0x02 => if blg = 0 then some (16, 1) else none
  | 0x15 => if 4 ≤ blg ∧ blg ≤ 6 then some (2 ^ blg, 0) else none
  | _ => none

/-- The number whose bit `j` is set where `f j`, for `j` below `n`. -/
def bitsWhere (n : Nat) (f : Nat → Bool) : Nat := ((List.range n).filter f).foldl (fun a j => a + 2 ^ j) 0

/-- The low `n` bytes of a register, the least significant first (R3). -/
def lowBytes {w : Nat} (n : Nat) (v : BitVec w) : List Byte := (List.range n).map fun k => BitVec.ofNat 8 (v.toNat / 2 ^ (8 * k))

/-- One element of `n` bytes at an offset. -/
def oneElem (off : Int) (n : Nat) (data : List Byte) : List Elem := [⟨0, off, n, 2 ^ n - 1, data⟩]

/-- The elements of the active lanes of a vector access (R318, R324). -/
def actLanes (act : Pred) (n : Nat) (off : Nat → Int) (data : Nat → List Byte) : List Elem :=
  ((List.range 16).filter fun k => act.getLsbD k).map fun k => ⟨k, off k, n, 2 ^ n - 1, data k⟩

/-- The kind of an ordinary access: relaxed with X (R116, R316). -/
def xKind (x : Bool) : OpKind := if x then .relaxed else .ordinary

/-- A size in bytes (R246). -/
def bytesOf : Size → Nat
  | .b => 1
  | .h => 2
  | .w => 4
  | .d => 8
/-- The size of an atomic in bytes (R328). -/
def aBytesOf : ASize → Nat
  | .w => 4
  | .d => 8

/-- A remote update retires at once and sends its update as soon as the NI has a credit for it (Table 5.1), or where the slot speculates keeps it with the
chunk (R118, R148, R330). -/
def Updates (i : Instr) (s : State) (p : W64) (n : Nat) (op : AmoOp) (v : W64) : Prop :=
  let e : Elem := ⟨0, 0, n, 2 ^ n - 1, lowBytes n v⟩
  CanIssue i s → Reaches s p n (.rupd op) false e →
    (s.cur.speculates = false → s.podCredit s.myTile s.cur.sc.asid (elemCls s p 0) = false → exec i s = .next s) ∧
    (s.cur.speculates = false → s.podCredit s.myTile s.cur.sc.asid (elemCls s p 0) = true → ∃ t r, exec i s = .next t ∧ OnlySent s t ∧ Sequel s.cur t.cur ∧ t.cur.regs = s.cur.regs ∧
      t.cur.u.fflags = s.cur.u.fflags ∧ Sent s t 0 (.rupd op) p e r) ∧
    (s.cur.speculates = true → (elemCls s p 0).away = false → ∃ t, exec i s = .next t ∧ OnlySlot s t ∧ t.cur.regs = s.cur.regs ∧
      t.cur.pc = s.cur.step.pc ∧
      t.cur.spec.updates = s.cur.spec.updates ++ [(op, n, p.extractLsb' 48 16 ++ BitVec.ofInt 48 (elemVa p 0), v)])

/-- An instruction of the slot in focus waits: it holds issue, its turn spent, and is examined again each cycle (R120, R343). -/
def Holds (i : Instr) (s : State) : Prop :=
  CanIssue i s → ∃ t, exec i s = .next t ∧ OnlySlot s t ∧ t.cur.hold = .again 0 ∧ t.cur.word = encode i ∧ t.cur.pc = s.cur.pc ∧
    t.cur.regs = s.cur.regs ∧ t.cur.u.retired = s.cur.u.retired ∧ t.cur.u.turns = s.cur.u.turns + 1

/-! ### Lanes together (R55, R298, R312, R313, R315) -/

/-- Flags gathered from the active lanes: a flag is raised where some active lane raises it (R315). -/
def Gathers (act : Pred) (f : Nat → Flags) (fl : Flags) : Prop :=
  ∀ j, j < 5 → (fl.getLsbD j = true ↔ ∃ k, k < 16 ∧ act.getLsbD k = true ∧ (f k).getLsbD j = true)

/-- A predicate that holds a relation on the active lanes and 0 elsewhere (R299). -/
def Marks (act : Pred) (rel : Nat → Prop) (v : Pred) : Prop := ∀ k, k < 16 → (v.getLsbD k = true ↔ act.getLsbD k = true ∧ rel k)

/-- The active lanes' numbers, in order. -/
def activeOf (act : Pred) : List Nat := (List.range 16).filter fun k => act.getLsbD k

/-- The tree of R55 over `2 ^ n` lanes from lane `k` on: halves are reduced on their own and then combined, the lower lanes on the left. Each value comes
with the flags raised on the way. -/
def treeOf (f : W32 → W32 → F32) (leaf : Nat → W32) : Nat → Nat → W32 × Flags
  | 0, k => (leaf k, 0)
  | n + 1, k =>
    let a := treeOf f leaf n k
    let b := treeOf f leaf n (k + 2 ^ n)
    ((f a.1 b.1).bits, a.2 ||| b.2 ||| (f a.1 b.1).flags)

/-- The running result of a scan after the lanes of a list (R313): nothing before the first. -/
def runOf (f : W32 → W32 → F32) (x : Nat → W32) : List Nat → Option W32
  | [] => none
  | k :: rest => some (rest.foldl (fun a j => (f a (x j)).bits) (x k))

/-- The flags that lane `k` of a scan raises: those of combining it with what came before. -/
def runFlags (f : W32 → W32 → F32) (x : Nat → W32) (act : Pred) (k : Nat) : Flags :=
  match runOf f x ((activeOf act).filter fun j => decide (j < k)) with
  | none => 0
  | some a => (f a (x k)).flags

/-- An instruction that may issue completes, and the state after it satisfies `P`. -/
def Completes (i : Instr) (s : State) (P : State → Prop) : Prop := CanIssue i s → ∃ t, exec i s = .next t ∧ P t

/-! ### Instructions that act beyond their slot -/

/-- Beside the slot in focus, counters of tiles, its core, its task and what was put in flight, nothing changed: no byte of memory, no attribute, no other
slot, home or die, and nothing of the package or the host. -/
structure Confined (s t : State) : Prop where
  rest : t = { s with
    cur := t.cur, tiles := t.tiles, cores := t.cores, tasks := t.tasks
    net := { s.net with pend := t.net.pend, nextId := t.net.nextId } }
  counters : ∀ k, t.tile k = { s.tile k with pcs := (t.tile k).pcs }
  cores : ∀ c, c ≠ coreOf s.curId → t.core c = s.core c
  tasks : ∀ n : W64, n ≠ s.cur.u.tid → t.task n = s.task n
  pend : s.net.pend <+: t.net.pend

/-- The instruction retired in sequence with no register and no flag changed (R64). -/
structure Passed (x y : Slot) : Prop where
  seq : Sequel x y
  regs : y.regs = x.regs
  fflags : y.u.fflags = x.u.fflags

/-- The instruction has issued and holds issue: its turn is spent, and all else of the slot is as before (R343). -/
def Waiting (i : Instr) (x y : Slot) (h : Hold) : Prop :=
  y = { x with
    u := { x.u with turns := x.u.turns + 1 }
    hold := h, asked := y.asked, word := encode i, stopReq := y.stopReq, spec := { x.spec with ended := y.spec.ended } }

/-- The instruction is Blocked and will be examined again when what it waits for has come (R19, R354). -/
def BlockedIn (i : Instr) (x y : Slot) (b : Block) : Prop :=
  y = { x with
    u := { x.u with turns := x.u.turns + 1 }
    status := .blocked b, hold := .again 1, word := encode i, stopReq := y.stopReq, spec := { x.spec with ended := y.spec.ended } }

/-- An event that has been put in flight, to happen no earlier than after a time. -/
def Posts (s t : State) (delay : Nat) (e : Event) : Prop := t.net.pend = s.net.pend ++ [⟨s.now + delay, e⟩]

/-- A Lantern message of a worklist leaves for a package: within this one it arrives as the event of its name after `delay` cycles; where the package
is another, it goes through the port to it as a CTL write (R169). -/
def Sends (s t : State) (wl : Nat) (w : WorkList) (pkg delay : Nat) (m : WlMsg) : Prop :=
  (pkg = s.pkg.podIndex.toNat → ∃ e, eventOf wl m = some e ∧ ⟨s.now + delay, e⟩ ∈ t.net.pend) ∧
  (pkg ≠ s.pkg.podIndex.toNat → ∀ port, s.podPort 512 pkg = some port → ∃ q, (pkg, Event.podRequest port q) ∈ t.net.outbox ∧ q.asid = w.asid ∧
    q.kind = 6 ∧ q.msg = some (.lantern wl (BitVec.ofNat 32 w.launch) m))

/-- A wait as a release at a scope is over: no update awaits acceptance there, no drain is being applied, and no refused update is to be reported
(R118, R120, R330). -/
def Released (s : State) (sc : Scope) : Prop :=
  s.cur.spec.commit ≠ .applying ∧ s.updatesOut s.cur.u.tid sc = false ∧ s.refusal sc = none

/-- An abort of the transaction of the slot in focus, which is in no Piste chunk (R138): from `s`, the state in which it arose. -/
structure Aborted (s t : State) (cause code : Nat) : Prop where
  pc : t.cur.pc = s.cur.spec.abortTo
  level : t.cur.level = s.cur.level
  status : t.cur.status = .ready
  spec : t.cur.spec = { Spec.none with watch := s.cur.spec.watch.filter fun w => !w.isTx }
  regs : ∀ c, s.cur.spec.ckpt = some c → t.cur.regs = c.regs ∧ t.cur.u.fflags = c.fflags ∧ t.cur.u.frm = c.frm
  txcause : t.cur.u.txcause = BitVec.ofNat 15 (cause + code % 256 * 16 + s.cur.spec.depth % 8 * 4096)
  buf : ∀ b ∈ (t.core (coreOf s.curId)).buf, b.slot ≠ s.curId
  ops : t.cur.ops = []
  rest : t = { s with
    cur := t.cur, tiles := t.tiles, cores := t.cores
    net := { s.net with pend := t.net.pend, reqs := t.net.reqs, holds := t.net.holds, outbox := t.net.outbox } }

/-- What a trap taken at S or M writes (R74): cause word, SXADDR or MXADDR, the saved pc and level, INTRAP, and where the slot goes on. -/
def causeBits (cause code : Nat) (inwin : Bool) (done : BitVec 15) : BitVec 39 :=
  BitVec.ofNat 39 (cause % 2 ^ 8 + code % 2 ^ 15 * 2 ^ 8 + (if inwin then 2 ^ 23 else 0) + done.toNat * 2 ^ 24)

/-- A trap at the pc taken to S (R74): beside the level, the pc and the trap registers of S, only what issue leaves behind is cleared. -/
structure TakenAtS (x y : Slot) (now cause code : Nat) (xaddr : W64) : Prop where
  level : y.level = .s
  pc : y.pc = x.sc.stvec
  sc : y.sc = { x.sc with
    sepc := x.pc, sxaddr := xaddr, spp := BitVec.ofNat 1 x.level.num, scause := causeBits cause code false (doneMask x x.pc), intrap := true }
  mc : y.mc = x.mc
  regs : y.regs = x.regs
  u : y.u = { x.u with turns := x.u.turns + 1 }
  skip : y.skip = (0, 0)
  wait : y.wait = now + 1
  status : y.status = .ready
  rsv : y.rsv = none

/-- A trap at the pc taken to M (R74). -/
structure TakenAtM (x y : Slot) (now cause code : Nat) (xaddr : W64) : Prop where
  level : y.level = .m
  pc : y.pc = x.mc.mtvec
  mc : y.mc = { x.mc with
    mepc := x.pc, mxaddr := xaddr, mpp := BitVec.ofNat 2 x.level.num, mcause := causeBits cause code false (doneMask x x.pc), intrap := true }
  sc : y.sc = x.sc
  regs : y.regs = x.regs
  u : y.u = { x.u with turns := x.u.turns + 1 }
  skip : y.skip = (0, 0)
  wait : y.wait = now + 1
  status : y.status = .ready
  rsv : y.rsv = none

/-- A trap goes to M (R74): from M, where MDELEG sends its cause there, or from S while SSTATUS.INTRAP is set. -/
def ToM (x : Slot) (cause : Nat) : Prop := x.level = .m ∨ x.mc.mdeleg.getLsbD cause = true ∨ (x.level = .s ∧ x.sc.intrap = true)

/-! ### CSRs (Tables 3.2 to 3.5) -/

/-- The bits of a CSR that a write sets, and those that only read; every other bit is reserved and reads 0. UECAUSE and MSTATUS have rules of their own. -/
def csrMasks (n : Nat) : W64 × W64 :=
  if n = 0x001 then (0x1F, 0)
  else if n = 0x002 then (0x3, 0)
  else if n = 0x003 then (0x7FFF, 0)
  else if 0x010 ≤ n ∧ n ≤ 0x012 then (0xFFFFFFFF, 0)
  else if n = 0x040 ∨ n = 0x041 ∨ n = 0x101 ∨ n = 0x102 ∨ n = 0x201 ∨ n = 0x202 ∨ n = 0x208 ∨ n = 0x209 then (0xFFFFFFFFFFFC, 0)
  else if n = 0x043 then (0xF, 0x100)
  else if n = 0x0B0 ∨ n = 0x104 ∨ n = 0x105 ∨ n = 0x204 ∨ n = 0x205 then (0xFFFFFFFFFFFFFFFF, 0)
  else if 0x0C0 ≤ n ∧ n ≤ 0x0CF then (0xFFFFFFFF, 0)
  else if n = 0x100 then (0x3, 0x4)
  else if n = 0x103 ∨ n = 0x203 then (0x7FFFFFFFFF, 0)
  else if n = 0x106 then (0x3FFF, 0xFFFF0000)
  else if n = 0x120 then (0x1FF, 0)
  else if n = 0x121 then (0x1FFF, 0)
  else if n = 0x206 ∨ n = 0x220 ∨ n = 0x231 ∨ n = 0x232 then (0xFFFFFFFF, 0)
  else if n = 0x210 then (0x1, 0)
  else if n = 0x221 then (0xFFFFF, 0)
  else if n = 0x230 then (0xFFFF, 0)
  else (0, 0xFFFFFFFFFFFFFFFF)

/-- What a CSR reads after `v` was written to it, with `clear` the bits that clear pending events: `old` is what it read before. MPP never takes 3. -/
def csrAfter (n : Nat) (old v clear : W64) : W64 :=
  if n = 0x042 then old &&& ~~~(clear &&& 0xE)
  else if n = 0x200 then (v &&& 0x4) ||| (if v &&& 0x3 = 0x3 then old &&& 0x3 else v &&& 0x3)
  else (v &&& (csrMasks n).1) ||| (old &&& (csrMasks n).2)

/-- A CSR instruction has written: the CSR reads as it should, every other CSR is as before, and RETIRED and TURNS count the instruction. -/
structure WroteCsr (s t : State) (n : Nat) (v clear : W64) : Prop where
  this : n ≠ 0x031 → n ≠ 0x032 → t.csrRead n = csrAfter n (s.csrRead n) v clear
  others : ∀ m, m ≠ n → m ≠ 0x031 → m ≠ 0x032 → t.csrRead m = s.csrRead m
  retired : t.csrRead 0x031 = s.csrRead 0x031 + 1
  turns : t.csrRead 0x032 = s.csrRead 0x032 + 1
  pc : t.cur.pc = s.cur.step.pc
  mem : t.mem = s.mem
  attrs : t.attrs = s.attrs
  tasks : t.tasks = s.tasks

/-- An ASID that SASID may take: one the tenant table gives to the tenant of the slot (R62). -/
def AsidOk (s : State) (n : Nat) (v : W64) : Prop := n = 0x106 → s.tenantOf? (v.extractLsb' 0 14) = some s.cur.sc.tenant

/-! ### Homes and replies (R95, R96, R112, R135, R317, Table 15.4) -/

/-- The bytes a slice shows at an offset; a line in the zero state reads as zeros (R103). -/
def seenBytes (s : State) (tile off n : Nat) : List Byte :=
  if s.attrs.zero.has (lineNo (64 + tile) (off / 64)) = true then List.replicate n 0
  else (List.range n).map fun k => s.mem.read (sramByte tile off + k)

/-- A request of this package has reached the home of a slice and nothing keeps it from being performed: it passes the window checks, no earlier request
of its tile to the line is still to be performed, the line is not held, not poisoned, and no message of its watchers is on its way. -/
structure AtSlice (s : State) (id : Nat) (r : Req) (tile off : Nat) : Prop where
  listed : s.req? id = some r
  id : r.id = id
  cls : r.cls = .sram tile off
  stage : r.stage = .travel
  source : r.source = none
  window : s.windowFault tile off r.asid r.kind.writes = none
  turn : s.mustWait r = false
  free : ∀ h ∈ s.net.holds, ¬(h.home = 64 + tile ∧ h.line = off / 64)
  clean : s.poisoned (64 + tile) (off / 64) = false
  settled : s.lineUnsettled r (64 + tile) (off / 64) = false
  fits : off % 64 + r.n ≤ 64
  mask : r.mask < 2 ^ r.n
  data : r.data.length = r.n
  canon : s.mem.wf = true

/-- What a home changes in performing a request: bytes, full/empty bits, poison and buoys of slices, the request, and what travels. -/
structure AtHomeOnly (s t : State) : Prop where
  rest : t = { s with
    mem := t.mem, tiles := t.tiles, attrs := { s.attrs with full := t.attrs.full, poison := t.attrs.poison }
    net := { s.net with reqs := t.net.reqs, pend := t.net.pend, outbox := t.net.outbox, away := t.net.away, nextId := t.net.nextId } }
  away : ∃ l, t.net.away = s.net.away ++ l ∧ t.net.nextId = s.net.nextId + l.length
  buoys : ∀ k, t.tile k = { s.tile k with buoys := (t.tile k).buoys, buoyAge := (t.tile k).buoyAge }

/-- Of the bytes from `base` on, those that `mask` picks are now those of `data`, and every other byte of memory is as before. -/
def Wrote (s t : State) (base n mask : Nat) (data : List Byte) : Prop :=
  ∀ a, t.mem.read a = if base ≤ a ∧ a < base + n ∧ mask.testBit (a - base) = true then data.getD (a - base) 0 else s.mem.read a

/-- The watchers of a line at a home. -/
def watchersOf (s : State) (home line : Nat) : List Buoy := (s.buoysOf home).filter fun b => b.line == line

/-- A request as it stands at its home: the way it has come is counted (R30, R112). -/
def atItsHome (s : State) (r : Req) (home line : Nat) : Req :=
  { r with home := home, line := line, path := if r.flies then r.path + (s.now - r.since) else r.path, flies := false }

/-- A request has been performed and is answered (R112, R135): at once where its line has no watcher, and otherwise once every watcher has taken the
notice that was sent to it. A watcher of another package has its notice sent there, under a number that is kept until it is taken. -/
structure Answered (s t : State) (q : Req) (ws : List Buoy) (data : List Byte) (extra : Nat) : Prop where
  now_ : ws = [] → t.req? q.id = some { q with stage := .reply, res := .ok data, since := s.now + extra } ∧
    Posts s t (hopHome q.tile q.home + extra) (.accessReply q.id none)
  later : ws ≠ [] → t.req? q.id = some { q with stage := .notices, notices := ws.length, res := .ok data }
  here : ∀ b ∈ ws, b.slot < 32768 →
    ⟨s.now + hopNotice q.home b.slot, .buoyNotice ⟨q.home, q.line, b.slot, b.ctx, b.mode, b.level, q.id⟩⟩ ∈ t.net.pend
  away : ∀ b ∈ ws, 32768 ≤ b.slot → ∃ n, ⟨n, q.id, b.slot / 32768 - 1, q.home, q.line, false⟩ ∈ t.net.away ∧
    (b.slot / 32768 - 1, .buoyNotice ⟨foreignHome + 1 + s.pkg.podIndex.toNat, q.line, b.slot % 32768, b.ctx, b.mode, b.level, n⟩) ∈ t.net.outbox

/-- The full/empty bits after one word's has been set: every other word keeps its own (R95). -/
def FullAfter (s t : State) (tile off : Nat) (full : Bool) : Prop :=
  ∀ u o, t.isFull u o = if sramByte u o / 8 = sramByte tile off / 8 then full else s.isFull u o

/-- Combine (Table 15.4) of two values of `n` bytes: the new value and the flags. -/
def combined (op : AmoOp) (n a b : Nat) : Nat × Flags :=
  let m := 2 ^ (8 * n)
  let sg (x : Nat) : Int := if 2 * x < m then (x : Int) else (x : Int) - m
  match op with
  | .add => ((a + b) % m, 0)
  | .and => (a &&& b, 0)
  | .or => (a ||| b, 0)
  | .xor => (a ^^^ b, 0)
  | .min => (if sg b < sg a then b else a, 0)
  | .max => (if sg a < sg b then b else a, 0)
  | .minn => (Nat.min a b, 0)
  | .maxn => (Nat.max a b, 0)
  | .swap => (b, 0)
  | .fadd => ((f32add .rne (BitVec.ofNat 32 a) (BitVec.ofNat 32 b)).bits.toNat, (f32add .rne (BitVec.ofNat 32 a) (BitVec.ofNat 32 b)).flags)

/-- The number of `n` bytes, the least significant first (R3). -/
def numberOf (b : List Byte) : Nat := b.foldr (fun x acc => x.toNat + 256 * acc) 0
/-- The `n` bytes of a number, the least significant first (R3). -/
def bytesOfNat (n v : Nat) : List Byte := (List.range n).map fun k => BitVec.ofNat 8 (v / 2 ^ (8 * k))

/-- What a register takes from the bytes of a load: the number they make, sign-extended from `n` bytes or zero-extended (R320). -/
def loaded (n : Nat) (sgn : Bool) (b : List Byte) : W64 :=
  let v := numberOf (b.take n)
  if sgn = true ∧ 2 ^ (8 * n) ≤ 2 * v then BitVec.ofInt 64 ((v : Int) - 2 ^ (8 * n)) else BitVec.ofNat 64 v

/-- A request of the slot in focus keeps it Blocked: a parked one, one on a pending page, one that watches its line. -/
def Waits (s : State) (r : Req) : Prop :=
  r.slot = s.curId ∧ r.ctx = s.cur.mc.ctxser ∧ (r.stage = .page ∨ r.stage = .wake ∨ r.stage = .park ∨ r.stage = .watch)

/-- A reply that has come to the slot in focus, which runs, for the last element of the oldest form of wait: an operation of the slot that is not in a
transaction, with nothing failed before. -/
structure LastReply (s : State) (id : Nat) (r : Req) (o : LongOp) : Prop where
  listed : s.req? id = some r
  id : r.id = id
  stage : r.stage = .reply
  slot : r.slot = s.curId
  ctx : r.ctx = s.cur.mc.ctxser
  op : s.cur.ops.find? (fun p => p.id == r.op) = some o
  left : o.left = 1
  ok : o.fail = none
  clean : s.cur.fails = []
  tx : s.cur.inTx = false
  runs : s.cur.status = .ready
  others : ∀ e ∈ s.net.reqs, e.1 ≠ r.id → ¬Waits s e.2

/-- The slot after an operation has completed: the instruction retires, its place in the list is gone, and the delay is counted (R64, R232, R317). -/
structure Closed (x y : Slot) (id : Nat) : Prop where
  rest : y = { x with
    regs := y.regs, ops := x.ops.filter fun p => p.id != id
    u := { x.u with retired := x.u.retired + 1, dacc := y.u.dacc, fflags := y.u.fflags } }

/-- An instruction of the slot in focus holds issue for an answer (R343). -/
structure AwaitsAnswer (s : State) (slot : Nat) (ctx : W32) (i : Instr) : Prop where
  slot : slot = s.curId
  ctx : ctx = s.cur.mc.ctxser
  hold : ∃ k, s.cur.hold = .answer k
  word : decode s.cur.word = .ok i
  frame : s.cur.frame = none

/-- The slot after the instruction that held issue has retired: one register may have changed, the next place follows. -/
structure Resumed (x y : Slot) : Prop where
  rest : y = { x with
    regs := y.regs, pc := y.pc, hold := .none
    u := { x.u with retired := x.u.retired + 1, dacc := y.u.dacc }
    spec := { x.spec with count := y.spec.count, ended := y.spec.ended } }
  pc : y.pc = x.step.pc

/-- A trap taken at S for an instruction that had issued and failed (R74): SEPC is its address, SXADDR the pointer that failed, INWIN is set. -/
structure TrappedLate (x y : Slot) (at_ : Addr) (cause code : Nat) (xaddr : W64) : Prop where
  level : y.level = .s
  pc : y.pc = x.sc.stvec
  sepc : y.sc.sepc = at_
  sxaddr : y.sc.sxaddr = xaddr
  spp : y.sc.spp = BitVec.ofNat 1 x.level.num
  intrap : y.sc.intrap = true
  scause : y.sc.scause.toNat % 2 ^ 24 = cause + code * 2 ^ 8 + 2 ^ 23
  regs : y.regs = x.regs
  u : y.u = { x.u with dacc := y.u.dacc }
  ops : y.ops = []

/-- A trap with this cause would be taken at S, outside speculation, with one operation open and nothing failed before. -/
structure TrapsToS (x : Slot) (o : LongOp) (cause code : Nat) : Prop where
  only : x.ops = [o]
  mode : x.spec.mode = .none
  rsv : x.rsv = none
  causeFits : cause < 32
  codeFits : code < 32768
  goes : ¬ToM x cause
  vec : x.sc.stvec ≠ 0

/-- Only one access waits for a page, or for the wake that is on its way, and nothing else does. -/
structure OnlyWaiter (s : State) (id : Nat) (r : Req) (page : Nat) (st : ReqStage) : Prop where
  reqs : s.net.reqs = [(id, r)]
  at_ : r.page = some page
  id : r.id = id
  stage : r.stage = st
  parks : s.net.parks = []
  runs : ∀ wl w, s.wl? wl = some w → ∀ e ∈ w.runs, ∀ o ∈ e.2, o.wait = none
  records : ∀ e ∈ s.pkg.ctxs, e.2.recWait ≠ some page
  rings : ∀ e ∈ s.host.rings, e.2.parked = none
  slot : r.slot = s.curId
  ctx : r.ctx = s.cur.mc.ctxser
  blocked : s.cur.status = .blocked .page

/-! ### Accesses of units, and host commands (R110, R413, R415, R416) -/

/-- An access of a unit at a tile lies in a slice, where it passes its checks, no commit holds its line and no loss notice holds up a write of it. -/
def InSlice (s : State) (tile : Nat) (asid : BitVec 14) (va u off : Nat) (write : Bool) : Prop :=
  s.classify tile asid .s va = .sram u off ∧ s.windowFault u off asid write = none ∧ s.poisoned (64 + u) (off / 64) = false ∧ va % 64 = off % 64 ∧
    s.lineWaits (64 + u) (off / 64) write = false

/-- A command completes (R413, R415, Table 22.4): its completion is the last message sent, NEXT moves on, what a failover would repeat is kept, and the command
processor is free. `r` is the ring as the command's effect left it. -/
structure Finished (s t : State) (c : Cmd) (r : Ring) (code sub : Nat) (value : W64) : Prop where
  ring : t.ring? c.ring = some { r with
    next := c.seq + 1, ran := true, code := code, sub := sub, value := value, htag := c.htag, parked := none, refused := false
    open_ := r.open_ && !r.closing, closing := false, put := 0 }
  sent : ∃ m, t.host.sent.getLast? = some m ∧ m.why = .completion ∧ m.key = r.cqkey ∧
    m.addr = r.cqaddr + BitVec.ofNat 64 (32 * (c.seq.toNat % 2 ^ r.cqlogn)) ∧
    m.bytes = bytesOfNat 8 (c.seq.toNat + c.ring * 2 ^ 32 + code * 2 ^ 40 + sub * 2 ^ 48) ++ bytesOfNat 8 c.htag.toNat ++ bytesOfNat 8 value.toNat ++ bytesOfNat 8 0
  free : s.host.exec = some c.ring → t.host.exec = none
  slots : t.curId = s.curId

/-- An RMA write that a command sent to the host: where, under which key, and the bytes. -/
def SentTo (t : State) (addr : W64) (key : W32) (bytes : List Byte) : Prop := ∃ m ∈ t.host.sent, m.addr = addr ∧ m.key = key ∧ m.bytes = bytes

end Sys2Proof.Machine
end

