-- ==== Sys2Proof/Certificates/Slice0/Obligations.lean ====
section
/-! DEFINITION. The statements for the provers. -/

open Sys2Proof Sys2Proof.Machine

/-! ### Scalar instructions (spec/13_scalar_instructions.md) -/

/-- R270, R274 to R276, Table 13.2: what the integer instructions write, with their frame: the destination apart, every register, CSR, flag, byte of memory
and table is as before. Each of them completes wherever it may issue. -/
def Obligations.IntegerResults : Prop :=
  ∀ (s : State) (d a b : RegNo) (imm : BitVec 16) (n : BitVec 6) (q : BitVec 2),
    let x := s.cur.readG a
    let y := s.cur.readG b
    Gives (.add d a b) s d (BitVec.ofInt 64 (x.toInt + y.toInt)) ∧
    Gives (.sub d a b) s d (BitVec.ofInt 64 (x.toInt - y.toInt)) ∧
    Gives (.mul d a b) s d (BitVec.ofInt 64 (x.toInt * y.toInt)) ∧
    Gives (.mulh d a b) s d (BitVec.ofInt 64 (x.toInt * y.toInt / 2 ^ 64)) ∧
    Gives (.mulhn d a b) s d (BitVec.ofNat 64 (x.toNat * y.toNat / 2 ^ 64)) ∧
    Gives (.and d a b) s d (x &&& y) ∧
    Gives (.or d a b) s d (x ||| y) ∧
    Gives (.xor d a b) s d (x ^^^ y) ∧
    Gives (.andn d a b) s d (x &&& ~~~y) ∧
    Gives (.shl d a b) s d (x <<< (y.toNat % 64)) ∧
    Gives (.shr d a b) s d (x >>> (y.toNat % 64)) ∧
    Gives (.sra d a b) s d (x.sshiftRight (y.toNat % 64)) ∧
    Gives (.min d a b) s d (if x.toInt ≤ y.toInt then x else y) ∧
    Gives (.max d a b) s d (if y.toInt ≤ x.toInt then x else y) ∧
    Gives (.minn d a b) s d (if x.toNat ≤ y.toNat then x else y) ∧
    Gives (.maxn d a b) s d (if y.toNat ≤ x.toNat then x else y) ∧
    Gives (.clz d a) s d (BitVec.ofNat 64 (zerosAbove x)) ∧
    Gives (.popc d a) s d (BitVec.ofNat 64 (setBits x)) ∧
    Gives (.addi d a imm) s d (BitVec.ofInt 64 (x.toInt + imm.toInt)) ∧
    Gives (.andi d a imm) s d (x &&& BitVec.ofNat 64 imm.toNat) ∧
    Gives (.ori d a imm) s d (x ||| BitVec.ofNat 64 imm.toNat) ∧
    Gives (.xori d a imm) s d (x ^^^ BitVec.ofNat 64 imm.toNat) ∧
    Gives (.shli d a n) s d (x <<< n.toNat) ∧
    Gives (.shri d a n) s d (x >>> n.toNat) ∧
    Gives (.srai d a n) s d (x.sshiftRight n.toNat) ∧
    Gives (.lim d q imm) s d
      ((s.cur.readG d &&& ~~~(0xFFFF#64 <<< (16 * q.toNat))) ||| (BitVec.ofNat 64 imm.toNat <<< (16 * q.toNat)))

/-- R272, R273, R277, R279: bit fields, compares, selection and pointer arithmetic that never traps. -/
def Obligations.FieldCompareResults : Prop :=
  ∀ (s : State) (d a b : RegNo) (p : PredNo) (cc : Cond) (k : BitVec 15),
    let x := s.cur.readG a
    let y := s.cur.readG b
    Gives (.bfx d a b) s d
      (BitVec.ofInt 64 (if 0 < fieldLen y ∧ 2 ^ (fieldLen y - 1) ≤ fieldVal x y then (fieldVal x y : Int) - 2 ^ fieldLen y else fieldVal x y)) ∧
    Gives (.bfxn d a b) s d (BitVec.ofNat 64 (fieldVal x y)) ∧
    Gives (.bfi d a b) s d
      (let m : W64 := BitVec.ofNat 64 (2 ^ fieldLen y - 1) <<< fieldPlace y
       (s.cur.readG d &&& ~~~m) ||| ((x <<< fieldPlace y) &&& m)) ∧
    (s.cur.readP p ≠ 0 → Gives (.sel d a b p) s d x) ∧
    (s.cur.readP p = 0 → Gives (.sel d a b p) s d y) ∧
    (Meets cc x y → GivesP (.cmp p a b cc) s p 0xFFFF 0) ∧
    (¬Meets cc x y → GivesP (.cmp p a b cc) s p 0 0) ∧
    (Meets cc x (k.signExtend 64) → GivesP (.cmpi p cc a k) s p 0xFFFF 0) ∧
    (¬Meets cc x (k.signExtend 64) → GivesP (.cmpi p cc a k) s p 0 0) ∧
    Gives (.psub d a b) s d (BitVec.ofInt 64 ((x.toNat % 2 ^ 48 : Nat) - (y.toNat % 2 ^ 48 : Nat))) ∧
    Gives (.ptag d a b) s d (y.extractLsb' 0 8 ++ y.extractLsb' 8 4 ++ x.extractLsb' 0 52) ∧
    Gives (.pget d a) s d (BitVec.ofNat 64 (x.toNat / 2 ^ 56 + x.toNat / 2 ^ 52 % 16 * 256))

/-- R271, R281, Table 13.1: what division and square root write, and for how many cycles the result is barred; a subnormal operand or result adds 6.
The model's own choices in it: log 8. -/
def Obligations.DivisionResults : Prop :=
  ∀ (s : State) (d a b : RegNo) (la : BitVec 4),
    let x := s.cur.readG a
    let y := s.cur.readG b
    let bits (q : Int) : Nat := if q = 0 then 0 else Nat.log2 q.natAbs + 1
    let lat (sgn : Bool) : Nat := 12 + (7 * (if y = 0 then 0 else bits (quotient sgn x y)) + 15) / 16
    let e := f32div s.cur.mode (x.setWidth 32) (y.setWidth 32)
    let r := f32sqrt s.cur.mode (x.setWidth 32)
    GivesLater (.div d a b la) s d (BitVec.ofInt 64 (quotient true x y)) 0 la.toNat (lat true) ∧
    GivesLater (.divn d a b la) s d (BitVec.ofInt 64 (quotient false x y)) 0 la.toNat (lat false) ∧
    GivesLater (.rem d a b la) s d (BitVec.ofInt 64 (remainder true x y)) 0 la.toNat (lat true) ∧
    GivesLater (.remn d a b la) s d (BitVec.ofInt 64 (remainder false x y)) 0 la.toNat (lat false) ∧
    ((¬Subnormal (x.setWidth 32) ∧ ¬Subnormal (y.setWidth 32) ∧ ¬Subnormal e.bits) →
      GivesLater (.fdiv d a b la) s d (e.bits.setWidth 64) e.flags la.toNat 18) ∧
    ((Subnormal (x.setWidth 32) ∨ Subnormal (y.setWidth 32) ∨ Subnormal e.bits) →
      GivesLater (.fdiv d a b la) s d (e.bits.setWidth 64) e.flags la.toNat 24) ∧
    ((¬Subnormal (x.setWidth 32) ∧ ¬Subnormal r.bits) → GivesLater (.fsqrt d a la) s d (r.bits.setWidth 64) r.flags la.toNat 18) ∧
    ((Subnormal (x.setWidth 32) ∨ Subnormal r.bits) → GivesLater (.fsqrt d a la) s d (r.bits.setWidth 64) r.flags la.toNat 24)

/-- R278: PADD and PADDI keep the tag and add to the VA, and trap ADDR with CODE 1 or 3. -/
def Obligations.PointerAddition : Prop :=
  ∀ (s : State) (d a b : RegNo) (imm : BitVec 16),
    let p := s.cur.readG a
    let near (off : Int) : Prop := p.extractLsb' 48 4 = 0 ∧ 0 ≤ (p.toNat % 2 ^ 48 : Nat) + off ∧ (p.toNat % 2 ^ 48 : Nat) + off < 2 ^ 48
    let sum (off : Int) : W64 := BitVec.ofInt 64 (p.toNat + off)
    (near (s.cur.readG b).toInt → Gives (.padd d a b) s d (sum (s.cur.readG b).toInt)) ∧
    (near imm.toInt → Gives (.paddi d a imm) s d (sum imm.toInt)) ∧
    (p.extractLsb' 48 4 ≠ 0 → Traps (.padd d a b) s 0x03 1 p ∧ Traps (.paddi d a imm) s 0x03 1 p) ∧
    (p.extractLsb' 48 4 = 0 → ¬near (s.cur.readG b).toInt → Traps (.padd d a b) s 0x03 3 p) ∧
    (p.extractLsb' 48 4 = 0 → ¬near imm.toInt → Traps (.paddi d a imm) s 0x03 3 p)

/-- R280 to R286: scalar floating point. Results have bits [63:32] zero and their flags are ORed into FFLAGS; FMIN, FMAX and FCLASS raise none. -/
def Obligations.ScalarFpResults : Prop :=
  ∀ (s : State) (d a b c : RegNo) (cc : FCond),
    let x := (s.cur.readG a).setWidth 32
    let y := (s.cur.readG b).setWidth 32
    let z := (s.cur.readG c).setWidth 32
    let m := s.cur.mode
    let result (i : Instr) (r : F32) : Prop := GivesFp i s d (r.bits.setWidth 64) r.flags
    result (.fadd d a b) (f32add m x y) ∧
    result (.fsub d a b) (f32sub m x y) ∧
    result (.fmul d a b) (f32mul m x y) ∧
    (∃ r, IsMin r x y ∧ Gives (.fmin d a b) s d (r.setWidth 64)) ∧
    (∃ r, IsMax r x y ∧ Gives (.fmax d a b) s d (r.setWidth 64)) ∧
    (∀ (v : W64) (fl : Flags), (v = 1 ↔ FMeets cc x y) → (v = 0 ↔ ¬FMeets cc x y) → (fl = 16 ↔ FSignals cc x y) → (fl = 0 ↔ ¬FSignals cc x y) →
      GivesFp (.fcmp d a b cc) s d v fl) ∧
    GivesFp (.fcvtF2i d a) s d (BitVec.ofInt 64 (f32toI32 m x).1) (f32toI32 m x).2 ∧
    GivesFp (.fcvtF2n d a) s d (BitVec.ofInt 64 (f32toN32 m x).1) (f32toN32 m x).2 ∧
    result (.fcvtI2f d a) (f32ofInt m x.toInt) ∧
    result (.fcvtN2f d a) (f32ofInt m x.toNat) ∧
    Gives (.fclass d a) s d (BitVec.ofNat 64 (2 ^ classBit x)) ∧
    result (.fma d a b c) (f32fused m false false x y z) ∧
    result (.fms d a b c) (f32fused m false true x y z) ∧
    result (.fnma d a b c) (f32fused m true false x y z)

/-- R287 to R292: transfers of control. PCi is the pc; CALL and CALLR write g31 with PCi + 4 after the target has been read; LOOP goes back while the new
count is not zero; a misaligned register target traps ALIGN with CODE 4 and leaves g31. -/
def Obligations.ControlTransfers : Prop :=
  ∀ (s : State) (a b : RegNo) (p : PredNo) (cc : Cond) (d22 : BitVec 22) (d13 : BitVec 13) (d26 : BitVec 26) (d21 : BitVec 21),
    let x := s.cur.readG a
    let y := s.cur.readG b
    let place (off : Int) : Nat := ((s.cur.pc.toNat + 4 * off : Int) % 2 ^ 48).toNat
    let next : W64 := BitVec.ofNat 64 (place 1)
    (s.cur.readP p ≠ 0 → Goes (.brAny p d22) s (place d22.toInt) ∧ GoesOn (.brNone p d22) s) ∧
    (s.cur.readP p = 0 → GoesOn (.brAny p d22) s ∧ Goes (.brNone p d22) s (place d22.toInt)) ∧
    (Meets cc x y → Goes (.bcc a b cc d13) s (place d13.toInt)) ∧
    (¬Meets cc x y → GoesOn (.bcc a b cc d13) s) ∧
    Goes (.bra d26) s (place d26.toInt) ∧
    GoesSetting (.call d26) s (place d26.toInt) 31 next ∧
    (x.toNat % 4 = 0 → Goes (.jr a) s (x.toNat % 2 ^ 48) ∧ GoesSetting (.callr a) s (x.toNat % 2 ^ 48) 31 next) ∧
    (x.toNat % 4 ≠ 0 → Traps (.jr a) s 0x06 4 x ∧ Traps (.callr a) s 0x06 4 x) ∧
    ((s.cur.readG 31).toNat % 4 = 0 → Goes .ret s ((s.cur.readG 31).toNat % 2 ^ 48)) ∧
    ((s.cur.readG 31).toNat % 4 ≠ 0 → Traps .ret s 0x06 4 (s.cur.readG 31)) ∧
    (x ≠ 1 → GoesSetting (.loop a d21) s (place d21.toInt) a (x - 1)) ∧
    (x = 1 → Gives (.loop a d21) s a 0)

/-- R293 to R296: REPF captures its body in one turn and the frame starts in the next cycle; a body that cannot run traps at the REPF and no pass runs. -/
def Obligations.FrameCapture : Prop :=
  ∀ (s : State) (len : BitVec 4) (cnt : BitVec 8) (fm : BitVec 3) (step : BitVec 2) (body : List W32),
    let i : Instr := .repf len cnt fm step
    let last := (step.toNat + 1) * cnt.toNat
    CanIssue i s → body.length = len.toNat + 1 →
      ((∀ j w, body[j]? = some w → Fetched s j w ∧ Framable fm last w) →
        ∃ t, exec i s = .next t ∧ OnlySlot s t ∧ t.cur.regs = s.cur.regs ∧ t.cur.u.retired = s.cur.u.retired + 1 ∧
          t.cur.u.turns = s.cur.u.turns + 1 ∧ t.cur.wait = s.now + 1 ∧
          t.cur.frame = some ⟨body, cnt.toNat + 1, fm, step.toNat + 1, 0, 0, s.cur.pc + BitVec.ofNat 48 (4 * (len.toNat + 2))⟩) ∧
      (∀ j w, body[j]? = some w → (∀ k v, k < j → body[k]? = some v → Fetched s k v ∧ Framable fm last v) →
        (s.cur.inRegion (bodyAt s j) = false → Traps i s 0x02 0 ((bodyAt s j).setWidth 64)) ∧
        (Fetched s j w → ∀ c, decode w = .illegal c → Traps i s 0x01 c (w.setWidth 64)) ∧
        (Fetched s j w → ∀ k, decode w = .ok k → advanced fm last k = none → Traps i s 0x09 1 (w.setWidth 64)) ∧
        (Fetched s j w → ∀ k, decode w = .ok k → advanced fm last k = some none → Traps i s 0x09 2 (w.setWidth 64)))

/-! ### Memory instructions (spec/15_memory_instructions.md) -/

/-- R317, R320 to R325, Table 15.1: loads. The elements of each form, their offsets and sizes, and how the result will be extended.
The model's own choices in it: log 16. -/
def Obligations.LoadsIssue : Prop :=
  ∀ (s : State) (d a b : RegNo) (la : BitVec 4) (x z : Bool) (sz : Size) (m : PredNo) (off : BitVec 9) (off7 : BitVec 7),
    let p := s.cur.readG a
    let n := bytesOf sz
    let act := s.cur.readP m
    Accesses (.ld d a la x sz off) s p n .load false (sz == .d && !x) (oneElem (off.toInt * n) n []) (xKind x) [.g d] la.toNat (.g d n true) ∧
    Accesses (.ldn d a la x sz off) s p n .load false false (oneElem (off.toInt * n) n []) (xKind x) [.g d] la.toNat (.g d n false) ∧
    (∀ e, scaleOf p n = some e →
      Accesses (.ldx d a b la x sz z) s p n .load false false (oneElem ((s.cur.readG b).toInt * e) n []) (xKind x) [.g d] la.toNat (.g d n (!z))) ∧
    Accesses (.vld d a la x m off7) s p 64 .load false false [⟨0, off7.toInt * 64, 64, bitsWhere 64 fun k => act.getLsbD (k / 4), []⟩]
      (xKind x) [.v d] la.toNat (.vec d act 64 false) ∧
    (∀ span e, spanC p = some (span, e) →
      Accesses (.vldC d a la x m off7) s p span .load false false
        [⟨0, off7.toInt * 64, span,
          if act = 0 then 0 else if e = 0 then 2 ^ span - 1 else bitsWhere span fun k => act.getLsbD (k / e), []⟩]
        (xKind x) [.v d] la.toNat (.vldc d act (p.extractLsb' 56 8).toNat (p.extractLsb' 52 4).toNat)) ∧
    (∀ e, scaleOf p n = some e →
      Accesses (.vldx d a b la x sz m z) s p n .load false false (actLanes act n (fun k => (lane (s.cur.readV b) k).toInt * e) fun _ => [])
        (xKind x) [.v d] la.toNat (.vec d act n (!z))) ∧
    Accesses (.vlds d a b la m x) s p 4 .load false false (actLanes act 4 (fun k => (k : Int) * (s.cur.readG b).toInt) fun _ => [])
      (xKind x) [.v d] la.toNat (.vec d act 4 false)

/-- R317, R320 to R325: stores. The data is read as they issue; no register is written and no byte of memory changes before the home performs them.
The model's own choices in it: log 12. -/
def Obligations.StoresIssue : Prop :=
  ∀ (s : State) (d a b : RegNo) (la : BitVec 4) (x : Bool) (sz : Size) (m : PredNo) (off : BitVec 9) (off7 : BitVec 7),
    let p := s.cur.readG a
    let n := bytesOf sz
    let act := s.cur.readP m
    let v := s.cur.readV d
    Accesses (.st d a la x sz off) s p n .store true (sz == .d && !x) (oneElem (off.toInt * n) n (lowBytes n (s.cur.readG d)))
      (xKind x) [] la.toNat .none ∧
    (∀ e, scaleOf p n = some e →
      Accesses (.stx d a b la x sz) s p n .store true false (oneElem ((s.cur.readG b).toInt * e) n (lowBytes n (s.cur.readG d)))
        (xKind x) [] la.toNat .none) ∧
    Accesses (.vst d a la x m off7) s p 64 .store true false
      [⟨0, off7.toInt * 64, 64, bitsWhere 64 fun k => act.getLsbD (k / 4), (List.range 16).flatMap fun k => lowBytes 4 (lane v k)⟩]
      (xKind x) [] la.toNat .none ∧
    (∀ e, scaleOf p n = some e →
      Accesses (.vstx d a b la x sz m) s p n .store true false
        (actLanes act n (fun k => (lane (s.cur.readV b) k).toInt * e) fun k => lowBytes n (lane v k)) (xKind x) [] la.toNat .none) ∧
    Accesses (.vsts d a b la m x) s p 4 .store true false
      (actLanes act 4 (fun k => (k : Int) * (s.cur.readG b).toInt) fun k => lowBytes 4 (lane v k)) (xKind x) [] la.toNat .none

/-- R327: full/empty instructions; the address has no offset and is 8-byte aligned. -/
def Obligations.FullEmptyIssue : Prop :=
  ∀ (s : State) (d a : RegNo) (la : BitVec 4),
    let p := s.cur.readG a
    let fe (i : Instr) (k : ReqKind) (write : Bool) (data : List Byte) (kind : OpKind) (dests : List RegRef) (wb : WriteBack) : Prop :=
      Accesses i s p 8 k write false (oneElem 0 8 data) kind dests la.toNat wb
    fe (.ldf d a la) .ldf true [] .acquiring [.g d] (.g d 8 false) ∧
    fe (.ldff d a la) .ldff false [] .acquiring [.g d] (.g d 8 false) ∧
    fe (.ste d a la) .ste true (lowBytes 8 (s.cur.readG d)) .ordinary [] .none ∧
    fe (.stef d a la) .stef true (lowBytes 8 (s.cur.readG d)) .ordinary [] .none ∧
    fe (.feclr a la) .feclr true [] .ordinary [] .none ∧
    fe (.feget d a la) .feget false [] .ordinary [.g d] (.g d 8 false)

/-- R328, R329: AMO and CAS; the `.w` results of MINN and MAXN and of FADD are zero-extended, the others sign-extended. -/
def Obligations.AtomicsIssue : Prop :=
  ∀ (s : State) (d a b c : RegNo) (la : BitVec 4) (sz : ASize),
    let p := s.cur.readG a
    let n := aBytesOf sz
    let amo (i : Instr) (op : AmoOp) (sgn : Bool) : Prop :=
      Accesses i s p n (.amo op) true false (oneElem 0 n (lowBytes n (s.cur.readG b))) .acquiring [.g d] la.toNat (.g d n sgn)
    amo (.amoAdd d a b la sz) .add true ∧ amo (.amoAnd d a b la sz) .and true ∧ amo (.amoOr d a b la sz) .or true ∧
    amo (.amoXor d a b la sz) .xor true ∧ amo (.amoMin d a b la sz) .min true ∧ amo (.amoMax d a b la sz) .max true ∧
    amo (.amoMinn d a b la sz) .minn false ∧ amo (.amoMaxn d a b la sz) .maxn false ∧ amo (.amoSwap d a b la sz) .swap true ∧
    Accesses (.amoFadd d a b la) s p 4 (.amo .fadd) true false (oneElem 0 4 (lowBytes 4 (s.cur.readG b))) .acquiring [.g d] la.toNat (.fadd d) ∧
    Accesses (.cas d a b c sz) s p n (.cas (s.cur.readG b)) true false (oneElem 0 n (lowBytes n (s.cur.readG c))) .acquiring [.g d] 0 (.g d n true)

/-- R331, R332: reservations. LDR releases an earlier reservation and reads; STC and WRS act on a reservation of the same address and size, which they
use up; STC without one writes 0 and WRS without one is a plain read. -/
def Obligations.ReservationsIssue : Prop :=
  ∀ (s : State) (d a b : RegNo) (la : BitVec 4) (sz : ASize),
    let p := s.cur.readG a
    let n := aBytesOf sz
    let e : Elem := ⟨0, 0, n, 2 ^ n - 1, lowBytes n (s.cur.readG b)⟩
    let heldAt (home line : Nat) : Prop := ∃ q, s.cur.rsv = some (q, n, home, line) ∧ q.extractLsb' 0 48 = p.extractLsb' 0 48
    let held : Prop := ∃ home line, heldAt home line
    let opens (i : Instr) (k : ReqKind) (wb : WriteBack) (kind : OpKind) : Prop :=
      CanIssue i s → Reaches s p n k false e → s.cur.speculates = false →
        ∃ t o r, exec i s = .next t ∧ t.cur.ops = s.cur.ops ++ [o] ∧ o.wb = wb ∧ o.kind = kind ∧ o.dests = [.g d] ∧ o.la = la.toNat ∧
          t.cur.rsv = none ∧ t.cur.regs = s.cur.regs ∧ t.cur.u.fflags = s.cur.u.fflags ∧ t.cur.pc = s.cur.step.pc ∧ t.mem = s.mem ∧
          t.attrs = s.attrs ∧ t.req? r.id = some r ∧ s.net.nextId ≤ r.id ∧ r.op = o.id ∧ r.kind = k ∧ r.slot = s.curId ∧ r.n = n ∧
          r.ptr = p.extractLsb' 48 16 ++ BitVec.ofInt 48 (elemVa p 0)
    opens (.ldr d a la sz) .ldr (.ldr d n) .acquiring ∧
    (∀ home line, heldAt home line → opens (.stc d a b la sz) .stc (.stc d home line) .ordinary) ∧
    (¬held → CanIssue (.stc d a b la sz) s → Reaches s p n .stc false e →
      ∃ t o, exec (.stc d a b la sz) s = .next t ∧ SetsG s.cur t.cur d 0 ∧ t.cur.ops = s.cur.ops ++ [o] ∧ o.dests = [.g d] ∧
        o.due = some (s.now + 1) ∧ t.cur.rsv = none ∧ t.mem = s.mem ∧ t.attrs = s.attrs ∧ t.net.reqs = s.net.reqs) ∧
    (∀ home line, heldAt home line → opens (.wrs d a la sz) .wrs (.wrs d n home line) .acquiring) ∧
    (¬held → opens (.wrs d a la sz) .load (.g d n true) .acquiring)

/-- R118, R330, Table 5.1: remote updates retire at once and write no register; they do not issue while the NI has no credit. -/
def Obligations.UpdatesIssue : Prop :=
  ∀ (s : State) (a b : RegNo) (sz : ASize),
    let p := s.cur.readG a
    let v := s.cur.readG b
    let n := aBytesOf sz
    Updates (.rupdAdd a b sz) s p n .add v ∧ Updates (.rupdAnd a b sz) s p n .and v ∧ Updates (.rupdOr a b sz) s p n .or v ∧
    Updates (.rupdXor a b sz) s p n .xor v ∧ Updates (.rupdMin a b sz) s p n .min v ∧ Updates (.rupdMax a b sz) s p n .max v ∧
    Updates (.rupdMinn a b sz) s p n .minn v ∧ Updates (.rupdMaxn a b sz) s p n .maxn v ∧ Updates (.rupdFadd a b) s p 4 .fadd v

/-- R317, Table 4.7: steps 1, 3 and 4 fail before anything is sent, in that order: a base with a set bit in [51:48], an address out of range, one that is
not aligned. The XADDR is the base, and then the effective pointer, which is the base in the forms without an
offset. -/
def Obligations.AccessTraps : Prop :=
  ∀ (s : State) (d a b c : RegNo) (la : BitVec 4) (x : Bool) (sz : Size) (asz : ASize) (off : BitVec 9),
    let p := s.cur.readG a
    let traps (i : Instr) (o : Int) (n : Nat) : Prop :=
      let q : W64 := p.extractLsb' 48 16 ++ BitVec.ofInt 48 (elemVa p o)
      (p.extractLsb' 48 4 ≠ 0 → Traps i s 0x03 1 p) ∧
      (p.extractLsb' 48 4 = 0 → (elemVa p o < 0 ∨ 2 ^ 48 ≤ elemVa p o) → Traps i s 0x03 2 q) ∧
      (p.extractLsb' 48 4 = 0 → 0 ≤ elemVa p o → elemVa p o < 2 ^ 48 → (elemVa p o).toNat % n ≠ 0 → Traps i s 0x06 n q)
    let plain (i : Instr) (n : Nat) : Prop :=
      (p.extractLsb' 48 4 ≠ 0 → Traps i s 0x03 1 p) ∧ (p.extractLsb' 48 4 = 0 → (elemVa p 0).toNat % n ≠ 0 → Traps i s 0x06 n p)
    traps (.ld d a la x sz off) (off.toInt * bytesOf sz) (bytesOf sz) ∧
    traps (.ldn d a la x sz off) (off.toInt * bytesOf sz) (bytesOf sz) ∧
    traps (.st d a la x sz off) (off.toInt * bytesOf sz) (bytesOf sz) ∧
    plain (.ldf d a la) 8 ∧ plain (.stef d a la) 8 ∧ plain (.amoAdd d a b la asz) (aBytesOf asz) ∧ plain (.cas d a b c asz) (aBytesOf asz) ∧
    plain (.ldr d a la asz) (aBytesOf asz) ∧ plain (.rupdAdd a b asz) (aBytesOf asz)

/-- R120: FENCE. Kind 1 waits only as R70 says; kinds 0 and 2 retire once no remote update of the task awaits acceptance at their scope, kind 3 once the
engine commands of the task have read and written what they will and their writes are accepted at the scope as well; until then the instruction holds issue; a refused update is reported by the wait (R330). -/
def Obligations.Fences : Prop :=
  ∀ (s : State) (sc : Scope),
    let quiet : Prop := s.cur.spec.commit ≠ .applying ∧ s.updatesOut s.cur.u.tid sc = false
    let settled : Prop := s.enginesOut s.cur.u.tid sc = false
    let kind (i : Instr) (done : Prop) : Prop :=
      (done → s.refusal sc = none → GoesOn i s) ∧ (¬done → Holds i s) ∧
      (done → ∀ f, s.refusal sc = some f → CanIssue i s →
        ∃ t, exec i s = .next t ∧ t = ((s.charge.dropRefusal f).issueTrap (encode i) f.cause f.code f.xaddr))
    GoesOn (.fenceAcq sc) s ∧ kind (.fence sc) quiet ∧ kind (.fenceRel sc) quiet ∧ kind (.fenceEng sc) (quiet ∧ settled)

/-! ### Vector and predicate instructions (spec/14_vector_instructions.md) -/

/-- R298, R299, R303, R304, R306: integer lanes. Only active lanes of the destination change. -/
def Obligations.VectorIntegerResults : Prop :=
  ∀ (s : State) (d a b c : RegNo) (m : PredNo),
    let act := s.cur.readP m
    let x (k : Nat) := lane (s.cur.readV a) k
    let y (k : Nat) := lane (s.cur.readV b) k
    let z (k : Nat) := lane (s.cur.readV c) k
    let gives (i : Instr) (f : Nat → W32) : Prop := GivesLanes i s d act f 0
    let wrap (f : Nat → Int) (k : Nat) : W32 := BitVec.ofInt 32 (f k)
    gives (.vadd d a b m) (wrap fun k => (x k).toInt + (y k).toInt) ∧
    gives (.vsub d a b m) (wrap fun k => (x k).toInt - (y k).toInt) ∧
    gives (.vmul d a b m) (wrap fun k => (x k).toInt * (y k).toInt) ∧
    gives (.vmulh d a b m) (wrap fun k => (x k).toInt * (y k).toInt / 2 ^ 32) ∧
    gives (.vand d a b m) (fun k => x k &&& y k) ∧
    gives (.vor d a b m) (fun k => x k ||| y k) ∧
    gives (.vxor d a b m) (fun k => x k ^^^ y k) ∧
    gives (.vshl d a b m) (fun k => x k <<< ((y k).toNat % 32)) ∧
    gives (.vshr d a b m) (fun k => x k >>> ((y k).toNat % 32)) ∧
    gives (.vsra d a b m) (fun k => (x k).sshiftRight ((y k).toNat % 32)) ∧
    gives (.vmin d a b m) (fun k => if (x k).toInt ≤ (y k).toInt then x k else y k) ∧
    gives (.vmax d a b m) (fun k => if (y k).toInt ≤ (x k).toInt then x k else y k) ∧
    gives (.vminn d a b m) (fun k => if (x k).toNat ≤ (y k).toNat then x k else y k) ∧
    gives (.vmaxn d a b m) (fun k => if (y k).toNat ≤ (x k).toNat then x k else y k) ∧
    gives (.vabs d a m) (wrap fun k => ((x k).toInt.natAbs : Int)) ∧
    gives (.vneg d a m) (wrap fun k => -(x k).toInt) ∧
    gives (.vclz d a m) (wrap fun k => (zerosAbove (x k) : Int)) ∧
    gives (.vpopc d a m) (wrap fun k => (setBits (x k) : Int)) ∧
    gives (.vma d a b c m) (wrap fun k => (x k).toInt * (y k).toInt + (z k).toInt)

/-- R299, R304, R305: compares write all 16 bits of the predicate, 0 for inactive lanes; a signalling relation raises NV. -/
def Obligations.VectorCompares : Prop :=
  ∀ (s : State) (d m : PredNo) (a b : RegNo) (cc : Cond) (fc : FCond) (v w : Pred) (fl : Flags),
    let act := s.cur.readP m
    let x (k : Nat) := lane (s.cur.readV a) k
    let y (k : Nat) := lane (s.cur.readV b) k
    (Marks act (fun k => Meets cc (x k) (y k)) v → GivesP (.vcmp d a b m cc) s d v 0) ∧
    (Marks act (fun k => FMeets fc (x k) (y k)) w →
      (fl = 16 ↔ ∃ k, k < 16 ∧ act.getLsbD k = true ∧ FSignals fc (x k) (y k)) →
      (fl = 0 ↔ ¬∃ k, k < 16 ∧ act.getLsbD k = true ∧ FSignals fc (x k) (y k)) → GivesP (.vfcmp d a b m fc) s d w fl)

/-- R304, R309 to R311: movement of lanes. VSEL and VCOMP write every lane, VINS writes the one it names, VEXT a scalar register. -/
def Obligations.LaneMovement : Prop :=
  ∀ (s : State) (d a b : RegNo) (m : PredNo),
    let act := s.cur.readP m
    let x (k : Nat) := lane (s.cur.readV a) k
    let y (k : Nat) := lane (s.cur.readV b) k
    let low := (s.cur.readG a).setWidth 32
    let ix := (s.cur.readG b).toNat % 16
    GivesLanes (.vsel d a b m) s d 0xFFFF (fun k => if act.getLsbD k = true then x k else y k) 0 ∧
    GivesLanes (.vbcast d a m) s d act (fun _ => low) 0 ∧
    Gives (.vext d a b) s d ((x ix).setWidth 64) ∧
    GivesLanes (.vins d a b) s d (BitVec.ofNat 16 (2 ^ ix)) (fun _ => low) 0 ∧
    GivesLanes (.vperm d a b m) s d act (fun k => x ((y k).toNat % 16)) 0 ∧
    GivesLanes (.viota d m) s d act (fun k => BitVec.ofNat 32 ((List.range k).countP fun j => act.getLsbD j)) 0 ∧
    GivesLanes (.vcomp d a m) s d 0xFFFF (fun k => ((activeOf act).map x).getD k 0) 0 ∧
    GivesLanes (.vslide d a b m) s d act
      (fun k => if 0 ≤ k + (s.cur.readG b).toInt ∧ k + (s.cur.readG b).toInt ≤ 15 then x (k + (s.cur.readG b).toInt).toNat else 0) 0

/-- R298, R305, R306, R315: floating-point lanes; the flags are those of the active lanes together. -/
def Obligations.VectorFpResults : Prop :=
  ∀ (s : State) (d a b c : RegNo) (m : PredNo),
    let act := s.cur.readP m
    let md := s.cur.mode
    let x (k : Nat) := lane (s.cur.readV a) k
    let y (k : Nat) := lane (s.cur.readV b) k
    let z (k : Nat) := lane (s.cur.readV c) k
    let gives (i : Instr) (f : Nat → F32) : Prop := ∀ fl, Gathers act (fun k => (f k).flags) fl → GivesLanes i s d act (fun k => (f k).bits) fl
    gives (.vfadd d a b m) (fun k => f32add md (x k) (y k)) ∧
    gives (.vfsub d a b m) (fun k => f32sub md (x k) (y k)) ∧
    gives (.vfmul d a b m) (fun k => f32mul md (x k) (y k)) ∧
    (∃ f, (∀ k, IsMin (f k) (x k) (y k)) ∧ GivesLanes (.vfmin d a b m) s d act f 0) ∧
    (∃ f, (∀ k, IsMax (f k) (x k) (y k)) ∧ GivesLanes (.vfmax d a b m) s d act f 0) ∧
    (∀ f, (∀ k, IsNaN (x k) → f k = 0x7FC00000) → (∀ k, ¬IsNaN (x k) → f k = (x k) &&& 0x7FFFFFFF) → GivesLanes (.vfabs d a m) s d act f 0) ∧
    (∀ f, (∀ k, IsNaN (x k) → f k = 0x7FC00000) → (∀ k, ¬IsNaN (x k) → f k = (x k) ^^^ 0x80000000) → GivesLanes (.vfneg d a m) s d act f 0) ∧
    gives (.vfma d a b c m) (fun k => f32fused md false false (x k) (y k) (z k)) ∧
    gives (.vfms d a b c m) (fun k => f32fused md false true (x k) (y k) (z k)) ∧
    gives (.vfnma d a b c m) (fun k => f32fused md true false (x k) (y k) (z k))

/-- R300, R307, Table 14.1: the VFN group, its latencies, and 6 cycles more where an active lane has a subnormal operand or result.
The model's own choices in it: logs 8, 10. -/
def Obligations.VectorFunctionResults : Prop :=
  ∀ (s : State) (d a b : RegNo) (la : BitVec 4) (m : PredNo) (fl : Flags),
    let act := s.cur.readP m
    let md := s.cur.mode
    let x (k : Nat) := lane (s.cur.readV a) k
    let y (k : Nat) := lane (s.cur.readV b) k
    let gives (i : Instr) (f : Nat → F32) (two : Bool) (lat : Nat) : Prop :=
      let slow : Prop := ∃ k, k < 16 ∧ act.getLsbD k = true ∧ (Subnormal (x k) ∨ (two = true ∧ Subnormal (y k)) ∨ Subnormal (f k).bits)
      Gathers act (fun k => (f k).flags) fl →
        (¬slow → GivesLanesLater i s d act (fun k => (f k).bits) fl la.toNat lat) ∧
        (slow → GivesLanesLater i s d act (fun k => (f k).bits) fl la.toNat (lat + 6))
    gives (.vfdiv d a b la m) (fun k => f32div md (x k) (y k)) true 22 ∧
    gives (.vfsqrt d a la m) (fun k => f32sqrt md (x k)) false 20 ∧
    gives (.vfrcp d a la m) (fun k => f32rcp (x k)) false 16 ∧
    gives (.vfrsq d a la m) (fun k => f32rsq (x k)) false 18 ∧
    gives (.vfexp2 d a la m) (fun k => f32exp2 (x k)) false 24 ∧
    gives (.vflog2 d a la m) (fun k => f32log2 (x k)) false 30

/-- R308, Table 14.5: conversions of lanes. A half or a byte of the destination lane keeps what the form does not write; widening raises no flag, and
neither does a conversion between bytes and integers. -/
def Obligations.ConversionResults : Prop :=
  ∀ (s : State) (d a b : RegNo) (h : Bool) (q : BitVec 2) (m : PredNo),
    let act := s.cur.readP m
    let md := s.cur.mode
    let x (k : Nat) := lane (s.cur.readV a) k
    let y (k : Nat) := lane (s.cur.readV b) k
    let half (k : Nat) : Nat := (x k).toNat / 2 ^ (if h then 16 else 0) % 2 ^ 16
    let byte (k : Nat) : Nat := (x k).toNat / 2 ^ (8 * q.toNat) % 2 ^ 8
    let put (k n : Nat) : W32 :=
      (lane (s.cur.readV d) k &&& ~~~(0xFF#32 <<< (8 * q.toNat))) ||| (BitVec.ofNat 32 (n % 256) <<< (8 * q.toNat))
    let gives (i : Instr) (f : Nat → W32) (fs : Nat → Flags) : Prop := ∀ fl, Gathers act fs fl → GivesLanes i s d act f fl
    let pair (i : Instr) (fm : Fmt) : Prop :=
      gives i (fun k => BitVec.ofNat 32 ((narrow32 fm md (y k)).bits % 2 ^ 16 * 2 ^ 16 + (narrow32 fm md (x k)).bits % 2 ^ 16))
        (fun k => (narrow32 fm md (x k)).flags ||| (narrow32 fm md (y k)).flags)
    pair (.vcvtF2bf d a b m) fbf16 ∧
    pair (.vcvtF2h d a b m) fp16 ∧
    gives (.vcvtBf2f d a h m) (fun k => widen32 fbf16 (half k)) (fun _ => 0) ∧
    gives (.vcvtH2f d a h m) (fun k => widen32 fp16 (half k)) (fun _ => 0) ∧
    gives (.vcvtF2e4 d a q m) (fun k => put k (narrow32 fe4m3 md (x k)).bits) (fun k => (narrow32 fe4m3 md (x k)).flags) ∧
    gives (.vcvtF2e5 d a q m) (fun k => put k (narrow32 fe5m2 md (x k)).bits) (fun k => (narrow32 fe5m2 md (x k)).flags) ∧
    gives (.vcvtE42f d a q m) (fun k => widen32 fe4m3 (byte k)) (fun _ => 0) ∧
    gives (.vcvtE52f d a q m) (fun k => widen32 fe5m2 (byte k)) (fun _ => 0) ∧
    gives (.vcvtF2i d a m) (fun k => BitVec.ofInt 32 (f32toI32 md (x k)).1) (fun k => (f32toI32 md (x k)).2) ∧
    gives (.vcvtF2n d a m) (fun k => BitVec.ofInt 32 (f32toN32 md (x k)).1) (fun k => (f32toN32 md (x k)).2) ∧
    gives (.vcvtI2f d a m) (fun k => (f32ofInt md (x k).toInt).bits) (fun k => (f32ofInt md (x k).toInt).flags) ∧
    gives (.vcvtN2f d a m) (fun k => (f32ofInt md (x k).toNat).bits) (fun k => (f32ofInt md (x k).toNat).flags) ∧
    gives (.vcvtI2b d a q m)
      (fun k => put k (if (x k).toInt < -128 then 0x80 else if 127 < (x k).toInt then 0x7F else (x k).toNat % 256)) (fun _ => 0) ∧
    gives (.vcvtB2i d a q m) (fun k => BitVec.ofInt 32 (if byte k < 128 then (byte k : Int) else (byte k : Int) - 256)) (fun _ => 0)

/-- R55, R312, R313, Table 14.6: VRED over the active lanes, an inactive lane entering as the identity, and VSCAN, whose result in an active lane is the
running result up to it, a NaN as the canonical one (R34). FADD goes over the tree of R55, and its flags are those of the whole tree. -/
def Obligations.ReductionResults : Prop :=
  ∀ (s : State) (d a : RegNo) (m : PredNo) (op : RedOp),
    let act := s.cur.readP m
    let md := s.cur.mode
    let x (k : Nat) := lane (s.cur.readV a) k
    let xs := (activeOf act).map x
    let best (key : W32 → Int) (none_ r : W32) : Prop := (xs = [] ∧ r = none_) ∨ (r ∈ xs ∧ ∀ v ∈ xs, key r ≤ key v)
    let tree (o : RedOp) := treeOf (redComb o md) (fun k => if act.getLsbD k = true then x k else redIdent o) 4 0
    let run (k : Nat) : W32 := (runOf (redComb op md) x ((activeOf act).filter fun j => decide (j ≤ k))).getD 0
    let scan (k : Nat) : W32 := if (op = .fadd ∨ op = .fmin ∨ op = .fmax) ∧ isNan32 (run k) = true then 0x7FC00000 else run k
    Gives (.vred d a .add m) s d ((BitVec.ofInt 32 (xs.map BitVec.toInt).sum).signExtend 64) ∧
    (∃ r, best (fun v => v.toInt) 0x7FFFFFFF r ∧ Gives (.vred d a .min m) s d (r.signExtend 64)) ∧
    (∃ r, best (fun v => -v.toInt) 0x80000000 r ∧ Gives (.vred d a .max m) s d (r.signExtend 64)) ∧
    (∃ r, best (fun v => v.toNat) 0xFFFFFFFF r ∧ Gives (.vred d a .minn m) s d (r.setWidth 64)) ∧
    (∃ r, best (fun v => -(v.toNat : Int)) 0 r ∧ Gives (.vred d a .maxn m) s d (r.setWidth 64)) ∧
    Gives (.vred d a .and m) s d ((xs.foldl (fun p q => p &&& q) 0xFFFFFFFF : W32).setWidth 64) ∧
    Gives (.vred d a .or m) s d ((xs.foldl (fun p q => p ||| q) 0 : W32).setWidth 64) ∧
    Gives (.vred d a .xor m) s d ((xs.foldl (fun p q => p ^^^ q) 0 : W32).setWidth 64) ∧
    GivesFp (.vred d a .fadd m) s d ((tree .fadd).1.setWidth 64) (tree .fadd).2 ∧
    Gives (.vred d a .fmin m) s d ((tree .fmin).1.setWidth 64) ∧
    Gives (.vred d a .fmax m) s d ((tree .fmax).1.setWidth 64) ∧
    (∀ fl, Gathers act (runFlags (redComb op md) x act) fl → GivesLanes (.vscan d a op m) s d act scan fl)

/-- R314: the predicate instructions. -/
def Obligations.PredicateResults : Prop :=
  ∀ (s : State) (d a b : PredNo) (g : RegNo) (n : Nat),
    let x := s.cur.readP a
    let y := s.cur.readP b
    GivesP (.pand d a b) s d (x &&& y) 0 ∧
    GivesP (.por d a b) s d (x ||| y) 0 ∧
    GivesP (.pxor d a b) s d (x ^^^ y) 0 ∧
    GivesP (.pandn d a b) s d (x &&& ~~~y) 0 ∧
    GivesP (.pnot d a) s d (~~~x) 0 ∧
    GivesP (.pset d g) s d ((s.cur.readG g).setWidth 16) 0 ∧
    Gives (.pcnt g a) s g (BitVec.ofNat 64 (setBits x)) ∧
    ((n < 16 ∧ x.getLsbD n = true ∨ n = 16) → (∀ k, k < n → x.getLsbD k = false) → Gives (.pfirst g a) s g (BitVec.ofNat 64 n)) ∧
    Gives (.pgets g a) s g (x.setWidth 64)

/-! ### Barriers, transactions, traps (spec/15_memory_instructions.md R333 to R340; spec/03_registers.md R74 to R76) -/

/-- R222, R334 to R336: the barrier instructions at wire barriers, ids 0 to 15. BARA arrives and completes the barrier when it is the last member; BARW and
BARG go on at a completed phase; BARQ reads; BARSET writes the mask at S or M and returns 0.
The model's own choices in it: log 77. -/
def Obligations.WireBarriers : Prop :=
  ∀ (s : State) (id : BitVec 5) (d b : RegNo), id.toNat < 16 →
    let wire (t : State) (k : Nat) : Wire := (t.tile s.myTile).wires.getD k ⟨0, 0, false⟩
    let w := wire s id.toNat
    let bit := s.curId % 64
    let all (m a : W64) : Prop := m ≠ 0 ∧ a &&& m = m
    let others (t : State) : Prop := ∀ k, k ≠ id.toNat → wire t k = wire s k
    let rest (t : State) : Prop := t = { s with cur := t.cur, tiles := t.tiles, tasks := t.tasks, net := { s.net with pend := t.net.pend } }
    let completed (t : State) : Prop := Posts s t 1 (.barrierCompletion s.myTile (.wire id.toNat) w.phase)
    let arr := w.arr ||| BitVec.ofNat 64 (2 ^ bit)
    let v := s.cur.readG b
    (Released s .tile → w.mask.getLsbD bit = true → w.arr.getLsbD bit = false →
      Completes (.bara id) s fun t => Passed s.cur t.cur ∧ rest t ∧ others t ∧ (t.task s.cur.u.tid).arrival id = some w.phase ∧
        (all w.mask arr → wire t id.toNat = ⟨w.mask, 0, !w.phase⟩ ∧ completed t) ∧
        (¬all w.mask arr → wire t id.toNat = ⟨w.mask, arr, w.phase⟩ ∧ t.net = s.net)) ∧
    (Released s .tile → w.mask.getLsbD bit = false → Traps (.bara id) s 0x01 7 ((encode (.bara id)).setWidth 64)) ∧
    ((s.task s.cur.u.tid).arrival id = none → GoesOn (.barw id) s ∧ GoesOn (.barg id) s) ∧
    (∀ ph, (s.task s.cur.u.tid).arrival id = some ph → ph ≠ w.phase →
      let done (t : State) : Prop := Passed s.cur t.cur ∧ Confined s t ∧ (t.task s.cur.u.tid).arrival id = none ∧ t.net = s.net
      Completes (.barw id) s done ∧ Completes (.barg id) s done) ∧
    (∀ ph, (s.task s.cur.u.tid).arrival id = some ph → ph = w.phase →
      let blocks (t : State) : Prop := OnlySlot s t ∧ t.cur.status = .blocked (.barrier id.toNat) ∧ t.cur.hold = .none ∧ t.cur.pc = s.cur.pc ∧
        t.cur.regs = s.cur.regs ∧ t.cur.u = { s.cur.u with retired := s.cur.u.retired + 1, turns := s.cur.u.turns + 1 }
      Completes (.barw id) s blocks ∧
      (s.cur.sc.piste = true → Completes (.barg id) s blocks) ∧
      (s.cur.sc.piste = false → s.cur.spec.commit = .none → Completes (.barg id) s fun t => OnlySlot s t ∧ t.cur.regs = s.cur.regs ∧
        t.cur.u = { s.cur.u with retired := s.cur.u.retired + 1, turns := s.cur.u.turns + 1 } ∧ t.cur.pc = s.cur.step.pc ∧
        t.cur.spec = { Spec.none with
          mode := .glide, restart := s.cur.pc, ckpt := some ⟨s.cur.regs, s.cur.u.fflags, s.cur.u.frm, s.cur.frame⟩, watch := s.cur.spec.watch
          barrier := some (id.toNat, .wire id.toNat, ph) })) ∧
    Gives (.barq d id) s d (BitVec.ofNat 64 (setBits (w.arr &&& w.mask) + setBits w.mask * 2 ^ 25 + (if w.phase then 2 ^ 50 else 0) +
      (if ((s.task s.cur.u.tid).arrival id).isSome then 2 ^ 51 else 0) + 2 ^ 52)) ∧
    (Completes (.barset id b) s fun t => Sequel s.cur t.cur ∧ SetsG s.cur t.cur b 0 ∧ rest t ∧ others t ∧
      (all v w.arr → wire t id.toNat = ⟨v, 0, !w.phase⟩ ∧ completed t) ∧ (¬all v w.arr → wire t id.toNat = ⟨v, w.arr, w.phase⟩ ∧ t.net = s.net))

/-- R136, R138, R139, R141, R337 to R340, Table 6.2: the transaction instructions outside Piste mode. TXB opens a level, TXELSE arms its alternative, TXE
closes an inner level or commits, TXR goes to an alternative or to sleep, TXABORT and a TXB at depth 4 abort, TXST reads.
The model's own choices in it: logs 30, 40. -/
def Obligations.TransactionInstructions : Prop :=
  ∀ (s : State) (disp : BitVec 23) (c : BitVec 8) (d : RegNo), s.cur.spec.commit = .none → s.cur.sc.piste = false →
    let x := s.cur
    let n := x.spec.depth
    let dest : Addr := BitVec.ofNat 48 ((x.pc.toNat + 4 * disp.toInt : Int) % 2 ^ 48).toNat
    let kept (t : State) : Prop := t.cur.regs = x.regs ∧ t.cur.u = { x.u with retired := x.u.retired + 1, turns := x.u.turns + 1 } ∧
      t.cur.pc = x.step.pc ∧ t.mem = s.mem ∧ t.attrs = s.attrs
    let open_ : Prop := x.spec.mode = .tx
    (x.spec.mode = .none → Completes (.txb disp) s fun t => OnlySlot s t ∧ kept t ∧
      t.cur.spec = { Spec.none with
        mode := .tx, depth := 1, restart := x.pc, abortTo := dest, ckpt := some ⟨x.regs, x.u.fflags, x.u.frm, x.frame⟩, watch := x.spec.watch }) ∧
    (open_ → n < 4 → Completes (.txb disp) s fun t => OnlySlot s t ∧ kept t ∧
      t.cur.spec = { x.spec with depth := n + 1, alts := x.spec.alts.setIfInBounds n none }) ∧
    (open_ → 4 ≤ n → Completes (.txb disp) s fun t => Aborted s t 7 0x0D) ∧
    (open_ → Completes (.txelse disp) s fun t => OnlySlot s t ∧ kept t ∧ t.cur.spec = { x.spec with alts := x.spec.alts.setIfInBounds (n - 1) (some dest) }) ∧
    (x.spec.mode = .none → Traps (.txelse disp) s 0x01 7 ((encode (.txelse disp)).setWidth 64) ∧ Traps .txe s 0x01 7 ((encode .txe).setWidth 64) ∧
      Traps .txr s 0x01 7 ((encode .txr).setWidth 64) ∧ GoesOn (.txabort c) s) ∧
    (open_ → 1 < n → Completes .txe s fun t => kept t ∧ t.cur.spec = { x.spec with
        depth := n - 1, alts := x.spec.alts.setIfInBounds (n - 1) none
        watch := x.spec.watch.map fun w => if w.isTx && w.level == n then { w with level := n - 1 } else w } ∧
      ∀ l ∈ (t.core (coreOf s.curId)).buf, l.slot = s.curId → l.level ≠ n) ∧
    (open_ → n = 1 → s.bufKeys s.curId = [] → s.noticeComing = false → Completes .txe s fun t => kept t ∧ t.cur.commits = x.commits + 1 ∧
      t.cur.spec = { Spec.none with watch := x.spec.watch.filter fun w => !w.isTx && w.mode != 3 }) ∧
    (open_ → n = 1 → ∀ k ks, s.writeSet = k :: ks → Completes .txe s fun t => t.cur.hold = .answer 0 ∧ t.cur.word = encode .txe ∧ t.cur.pc = x.pc ∧
      t.cur.regs = x.regs ∧ t.cur.u = { x.u with turns := x.u.turns + 1 } ∧ t.mem = s.mem ∧ t.attrs = s.attrs ∧
      t.cur.spec = { x.spec with commit := .holding, toHold := k :: ks } ∧
      Posts s t (hopHome s.myTile (Nat.min k.1 575)) (.commitHold s.curId k.1 k.2)) ∧
    (open_ → 1 ≤ n → ∀ a, x.spec.alt n = some a → Completes .txr s fun t => t.cur.pc = a ∧ t.cur.regs = x.regs ∧ t.cur.spec.depth = n ∧
      t.cur.spec.alt n = none ∧ t.cur.spec.mode = .tx ∧ t.cur.u.txcause = x.u.txcause ∧ t.mem = s.mem ∧ t.attrs = s.attrs ∧
      (∀ l ∈ (t.core (coreOf s.curId)).buf, l.slot = s.curId → l.level < n) ∧
      t.cur.spec.watch = x.spec.watch.map fun w =>
        if (w.mode == 1 && w.level == n) || (w.mode == 2 && decide (n < w.level)) then { w with mode := 2, level := n } else w) ∧
    (open_ → (∀ k, k ≤ n → x.spec.alt k = none) → ∀ cp, x.spec.ckpt = some cp → Completes .txr s fun t =>
      t.cur.pc = x.spec.restart ∧ t.cur.regs = cp.regs ∧ t.cur.u.fflags = cp.fflags ∧ t.cur.u.frm = cp.frm ∧ t.cur.spec.depth = 0 ∧
      t.cur.spec.mode = .none ∧ t.cur.u.txcause = x.u.txcause ∧ t.mem = s.mem ∧ t.attrs = s.attrs ∧
      (∀ l ∈ (t.core (coreOf s.curId)).buf, l.slot ≠ s.curId) ∧
      t.cur.status = if x.spec.wake then .ready else .blocked .retrySleep) ∧
    (open_ → Completes (.txabort c) s fun t => Aborted s t 4 c.toNat) ∧
    Gives (.txst d) s d (BitVec.ofNat 64 (n + (s.bufKeys s.curId).length * 2 ^ 3 + (x.spec.watch.filter fun w => w.mode == 1 || w.mode == 2).length * 2 ^ 12 +
      (if x.spec.wake then 2 ^ 25 else 0) + (if (x.spec.alt n).isSome then 2 ^ 26 else 0) + (if x.rsv.isSome then 2 ^ 27 else 0)))

/-- R74, R75, R375: TRAP and BRK take traps 0x0F and 0x10 with their operand as CODE; outside speculation the trap is taken at once, to S or to M. At M with
INTRAP set, and to S with STVEC zero, it is a fatal fault, after which the slot issues nothing.
The model's own choices in it: logs 17, 18. -/
def Obligations.TrapsTaken : Prop :=
  ∀ (s : State) (c : BitVec 15), s.cur.spec.mode = .none → s.cur.spec.commit = .none →
    let x := s.cur
    let takes (i : Instr) (cause : Nat) : Prop :=
      (ToM x cause → ¬(x.level = .m ∧ x.mc.intrap = true) → Completes i s fun t => TakenAtM x t.cur s.now cause c.toNat 0 ∧
        t = { s with cur := t.cur, tiles := t.tiles, net := { s.net with pend := t.net.pend, outbox := t.net.outbox } }) ∧
      (¬ToM x cause → x.sc.stvec ≠ 0 → Completes i s fun t => TakenAtS x t.cur s.now cause c.toNat 0 ∧
        t = { s with cur := t.cur, tiles := t.tiles, net := { s.net with pend := t.net.pend, outbox := t.net.outbox } }) ∧
      ((x.level = .m ∧ x.mc.intrap = true) ∨ (¬ToM x cause ∧ x.sc.stvec = 0) → Completes i s fun t =>
        (t.cur.status = .stopped ∨ t.cur.status = .free) ∧ t.mem = s.mem)
    takes (.trap c) 0x0F ∧ takes (.brk c) 0x10

/-! ### Engines and queues (spec/16_engine_instructions.md R344 to R355; spec/08_engine_queues.md) -/

/-- R190, R199, R344, R346, R347, R349, R351: a matrix command whose rows, formats and metadata pass the checks, on an accumulator that is free or the task's
own, is appended to q0 with its operands read, one command more is incomplete, and the accumulator is the task's. Another task's accumulator traps ACC_OWNER. Without room for the command in q0 or for its word in q1 the instruction that
passes its checks does not issue.
The model's own choices in it: log 29. -/
def Obligations.MatrixCommands : Prop :=
  ∀ (s : State) (n k : PredNo) (a b v : RegNo) (ty : MTy) (tr z : Bool),
    let x := s.cur
    let me := (slotIx s.curId, x.mc.ctxser, x.u.tid)
    let core := coreOf s.curId
    let acc (t : State) (m : PredNo) : Acc := (t.core core).accs.getD m.toNat Acc.free
    let mine (m : PredNo) : Prop := (acc s m).owner = some me ∨ ((acc s m).owner = none ∧ x.rmask.getLsbD m.toNat = false)
    let cmd (op : MOp) (ga gb : W64) (sa sb : W32) (v0 v1 : Vec) : MCmd :=
      ⟨op, n, ga, gb, sa, sb, v0, v1, x.u.tid, s.curId, x.mc.ctxser, x.sc.asid, (s.task x.u.tid).mser + 1⟩
    let zeros : Vec := .replicate 16 0
    let room : Prop := (s.core core).q0.length < 8 ∧ (s.task x.u.tid).out1 + (s.task x.u.tid).q1.length < 16
    let pushed (ms : List PredNo) (c : MCmd) (t : State) : Prop :=
      Confined s t ∧ Passed x { t.cur with rmask := x.rmask } ∧ (t.core core).q0 = (s.core core).q0 ++ [c] ∧
        (∀ m ∈ ms, (acc t m).owner = some me ∧ (acc t m).elems = (acc s m).elems ∧ t.cur.rmask.getLsbD m.toNat = false) ∧
        (t.task x.u.tid).out1 = (s.task x.u.tid).out1 + 1 ∧ (t.task x.u.tid).mser = (s.task x.u.tid).mser + 1 ∧
        ∃ p ∈ t.net.pend, p.ev = .matrixCommandStart s.myTile
    let pushes (i : Instr) (ms : List PredNo) (c : MCmd) : Prop :=
      (∀ m ∈ ms, mine m) → s.matrixTrap c = none → (room → Completes i s (pushed ms c)) ∧ (¬room → CanIssue i s → exec i s = .next s)
    pushes (.mma n a b ty tr z) [n] (cmd (.mma ty false z tr) (x.readG a) (x.readG b) x.u.msa x.u.msb zeros zeros) ∧
    pushes (.mmaIx n a b v ty tr z) [n] (cmd (.mma ty true z tr) (x.readG a) (x.readG b) x.u.msa x.u.msb (x.readV v) zeros) ∧
    pushes (.msp n a b v ty tr z) [n] (cmd (.msp ty z tr) (x.readG a) (x.readG b) x.u.msa x.u.msb (x.readV v) (x.readV (v + 1))) ∧
    pushes (.mlda n a) [n] (cmd .mlda (x.readG a) 0 x.u.msc 0 zeros zeros) ∧
    pushes (.msta n a) [n] (cmd .msta (x.readG a) 0 x.u.msc 0 zeros zeros) ∧
    (mine n → room → Completes (.mzero n) s (pushed [n] (cmd .mzero 0 0 0 0 zeros zeros))) ∧
    (mine n → mine k → room → Completes (.mmov n k) s (pushed [n, k] (cmd (.mmov k) 0 0 0 0 zeros zeros))) ∧
    (∀ o, (acc s n).owner = some o → o ≠ me → o.2.2 ≠ x.u.tid → Traps (.mzero n) s 0x0B n.toNat o.2.2 ∧ Traps (.mmov n k) s 0x0B n.toNat o.2.2) ∧
    ((acc s n).owner = none → x.rmask.getLsbD n.toNat = true → Traps (.mzero n) s 0x0B (n.toNat + 8) 0)

/-- R189, R190, R198, R344, R352 to R354: CPY, CPYX and COLL push a command and go on; MSTAT, MWAIT and the pops take completion words, and Block the slot
where there is none.
The model's own choices in it: log 8. -/
def Obligations.EngineQueues : Prop :=
  ∀ (s : State) (d a b : RegNo) (la : BitVec 4) (q : BitVec 4),
    let x := s.cur
    let tid := x.u.tid
    let task (t : State) := t.task tid
    let core := coreOf s.curId
    let cmd (tag : Option W32) : ECmd := ⟨x.readG a, tag, tid, s.curId, x.sc.asid, x.sc.tenant, x.sc.piste, s.now, x.ops.map (·.id)⟩
    let way := if (tid.toNat / 2 ^ 46) % 2 ^ 9 = s.myTile then 10 else 2 * hopTile s.myTile ((tid.toNat / 2 ^ 46) % 2 ^ 9)
    let flagsOf (w : W64) : Flags := if w.extractLsb' 24 8 = 7 then 0 else w.extractLsb' 16 5
    let later (i : Instr) (v : W64) (fl : Flags) (left : Task) : Prop :=
      Completes i s fun t => ∃ o, Confined s t ∧ Opened x t.cur o ∧ SetsG x t.cur d v ∧ t.cur.u.fflags = x.u.fflags ||| fl ∧
        o.la = la.toNat ∧ o.dests = [.g d] ∧ o.due = some (s.now + way) ∧ task t = left
    let blocks (i : Instr) (n : Nat) : Prop := Completes i s fun t => OnlySlot s t ∧ BlockedIn i x t.cur (.queue n)
    let copies (i : Instr) (c : ECmd) : Prop := Completes i s fun t => Confined s t ∧ Passed x t.cur ∧
      t.core core = { s.core core with q2 := (s.core core).q2 ++ [c] } ∧ task t = { task s with out3 := (task s).out3 + 1 } ∧
      ∃ p ∈ t.net.pend, p.ev = .copyCommandStart s.myTile (core % 8)
    copies (.cpy a) (cmd none) ∧
    copies (.cpyx a b) (cmd (some ((x.readG b).setWidth 32))) ∧
    (Completes (.coll a) s fun t => Confined s t ∧ Passed x t.cur ∧ t.core core = { s.core core with q4 := (s.core core).q4 ++ [cmd none] } ∧
      task t = { task s with out5 := (task s).out5 + 1 } ∧ ∃ p ∈ t.net.pend, p.ev = .collectiveJoin s.myTile (core % 8)) ∧
    (∀ w ws, (task s).q1 = w :: ws → later (.mstat d la) w (flagsOf w) { task s with q1 := ws }) ∧
    ((task s).q1 = [] → blocks (.mstat d la) 1) ∧
    ((task s).out1 = 0 → later (.mwait d la) ((task s).q1.foldl (fun p w => p ||| w) 0) ((task s).q1.foldl (fun f w => f ||| flagsOf w) 0)
      { task s with q1 := [] }) ∧
    ((task s).out1 ≠ 0 → Completes (.mwait d la) s fun t => ∃ o, Confined s t ∧ Opened x t.cur o ∧ t.cur.regs = x.regs ∧ t.cur.u.fflags = x.u.fflags ∧
      o.dests = [.g d] ∧ o.due = none ∧ o.left = 1 ∧ task t = task s) ∧
    (∀ w ws, q = 1 → (task s).q1 = w :: ws → later (.qpop d q la) w 0 { task s with q1 := ws }) ∧
    (∀ w ws, q = 3 → (task s).q3 = w :: ws → later (.qpop d q la) w 0 { task s with q3 := ws }) ∧
    (∀ w ws, q = 5 → (task s).q5 = w :: ws → later (.qpop d q la) w 0 { task s with q5 := ws }) ∧
    (q = 1 ∧ (task s).q1 = [] ∨ q = 3 ∧ (task s).q3 = [] ∨ q = 5 ∧ (task s).q5 = [] → blocks (.qpop d q la) q.toNat) ∧
    (q = 0 ∨ q = 2 ∨ q = 4 → Traps (.qpop d q la) s 0x14 1 ((encode (.qpop d q la)).setWidth 64)) ∧
    (q = 6 ∨ q = 7 → Traps (.qpop d q la) s 0x14 2 ((encode (.qpop d q la)).setWidth 64))

/-- R192 to R195, R354, R355, Table 8.4: channels. A push takes credits and sends its words in order; a pop takes words and returns credits; QBIND binds an
end, and QSTAT reads.
The model's own choices in it: log 46. -/
def Obligations.Channels : Prop :=
  ∀ (s : State) (g v : RegNo) (q la : BitVec 4), 8 ≤ q.toNat →
    let x := s.cur
    let me := x.u.tid
    let n := q.toNat
    let home (t : W64) : Nat := t.toNat / 2 ^ 46 % 2 ^ 9
    let chan (t : State) : Option Chan := (t.task me).chans.getD (n - 8) none
    let set (c : Option Chan) : Task := { s.task me with chans := (s.task me).chans.setIfInBounds (n - 8) c }
    let lanes : List W64 := (List.range 16).map fun k => (lane (x.readV v) k).setWidth 64
    let way := if home me = s.myTile then 10 else 2 * hopTile s.myTile (home me)
    let word (i : Instr) : W64 := (encode i).setWidth 64
    let takes (c : Chan) (k : Nat) (t : State) : Prop := t.task me = set (some { c with words := c.words.drop k, since := s.now }) ∧
      ⟨s.now + hopTile (home me) (home c.peer), .creditReturn c.peer c.peerq me k⟩ ∈ t.net.pend
    (∀ c, chan s = some c → c.send = true → c.gone = false → 1 ≤ c.credits → Completes (.qpush g q) s fun t => Confined s t ∧ Passed x t.cur ∧
      t.task me = set (some { c with credits := c.credits - 1 }) ∧
      Posts s t (hopTile s.myTile (home c.peer)) (.channelWord c.peer c.peerq me (x.readG g))) ∧
    (∀ c, chan s = some c → c.send = true → c.gone = false → 16 ≤ c.credits → (∀ k, s.peerDepth me c = some k → 16 ≤ k) →
      Completes (.qpushv v q) s fun t => Confined s t ∧ Passed x t.cur ∧ t.task me = set (some { c with credits := c.credits - 16 }) ∧
        t.net.pend = s.net.pend ++ lanes.map fun w => ⟨s.now + hopTile s.myTile (home c.peer), .channelWord c.peer c.peerq me w⟩) ∧
    (∀ c w ws, chan s = some c → c.send = false → c.words = w :: ws → Completes (.qpop g q la) s fun t => ∃ o, Confined s t ∧ Opened x t.cur o ∧
      SetsG x t.cur g w ∧ o.dests = [.g g] ∧ o.due = some (s.now + way) ∧ takes c 1 t) ∧
    (∀ c, chan s = some c → c.send = false → 15 ≤ c.depth → 16 ≤ c.words.length → Completes (.qpopv v q la) s fun t => ∃ o, Confined s t ∧
      Opened x t.cur o ∧ SetsLanes x t.cur v 0xFFFF (fun k => (c.words.getD k 0).setWidth 32) ∧ o.dests = [.v v] ∧ o.due = some (s.now + way) ∧
      takes c 16 t) ∧
    (∀ c, chan s = some c → c.send = false →
      (c.words = [] → Completes (.qpop g q la) s fun t => OnlySlot s t ∧ BlockedIn (.qpop g q la) x t.cur (.queue n)) ∧
      (15 ≤ c.depth → c.words.length < 16 → Completes (.qpopv v q la) s fun t => OnlySlot s t ∧ BlockedIn (.qpopv v q la) x t.cur (.queue n)) ∧
      (c.depth < 15 → Traps (.qpopv v q la) s 0x14 7 (word (.qpopv v q la))) ∧
      Traps (.qpush g q) s 0x14 3 (word (.qpush g q))) ∧
    (chan s = none → Traps (.qpush g q) s 0x14 3 (word (.qpush g q)) ∧ Traps (.qpop g q la) s 0x14 3 (word (.qpop g q la))) ∧
    (∀ c, chan s = some c → c.send = true → c.gone = true → Traps (.qpush g q) s 0x14 6 (word (.qpush g q))) ∧
    ((x.readG (g + 1)).getLsbD 9 = true → Completes (.qbind g q) s fun t => Confined s t ∧ Waiting (.qbind g q) x t.cur (.answer 0) ∧
      t.task me = set none ∧ Posts s t (2 * hopTile s.myTile (home me)) (.controlReply s.curId x.mc.ctxser 0)) ∧
    (∀ pq depth : Nat, ∀ (send dryev : Bool) (dry : Nat), 8 ≤ pq → pq < 16 → depth < 16 → dry < 2 ^ 16 →
      (x.readG (g + 1)).toNat = pq + depth * 2 ^ 4 + (if send then 2 ^ 8 else 0) + (if dryev then 2 ^ 10 else 0) + dry * 2 ^ 16 →
      (s.task (x.readG g)).place ≠ .ended → (s.task (x.readG g)).asid = x.sc.asid → Completes (.qbind g q) s fun t => Confined s t ∧
        Waiting (.qbind g q) x t.cur (.answer 0) ∧
        (∃ p ∈ t.net.pend, p = ⟨s.now + 2 * hopTile s.myTile (home me), .controlReply s.curId x.mc.ctxser 0⟩) ∧
        ∃ c, chan t = some c ∧ c.send = send ∧ c.peer = x.readG g ∧ c.peerq = pq ∧ c.depth = depth ∧ c.dryev = dryev ∧ c.dry = dry ∧ c.words = [] ∧
          c.dryf = false ∧ c.gone = false ∧ (send = false → c.credits = 0)) ∧
    (home me = s.myTile →
      (chan s = none → Gives (.qstat g q) s g 0) ∧
      (∀ c, chan s = some c → Gives (.qstat g q) s g (BitVec.ofNat 64 ((if c.send then Nat.min c.credits 31 else c.words.length) + 2 ^ 10 +
        (if c.send then 2 ^ 11 else 0) + (if c.dryf then 2 ^ 12 else 0) + (if c.gone then 2 ^ 13 else 0))))) ∧
    (home me ≠ s.myTile → Completes (.qstat g q) s fun t => Confined s t ∧ Waiting (.qstat g q) x t.cur (.answer 0) ∧
      ∃ r, Posts s t (2 * hopTile s.myTile (home me)) (.controlReply s.curId x.mc.ctxser r))

/-! ### Worklists, tasks, CSRs and privileged instructions (spec/16_engine_instructions.md R356 to R374) -/

/-- R124, R156, R169, R170, R357 to R361: the worklist instructions at an open worklist of the address space. A push goes by the tile's copy of K to a lamp
or to the own reserve; a pop goes to the lamp the tile uses; both cross to the lamp's package where it is another. WLACK drops a held item; WLRET pushes it
again; WLSTA asks for a statistics word, in another package where that is the home; WLCFG creates a launch or reports why it does not.
The model's own choices in it: logs 42, 45, 49, 54. -/
def Obligations.WorklistInstructions : Prop :=
  ∀ (s : State) (d a b : RegNo) (la : BitVec 4),
    let x := s.cur
    let tid := x.u.tid
    let va := x.readG a
    let wl := va.toNat % 1024
    let hi := x.readG (b + 1)
    let item := itemOf (x.readG b) hi
    let k := va.toNat % 8
    let held := (s.task tid).held.getD k none
    let own := s.pkg.podIndex.toNat
    let tile := own * 512 + s.myTile
    let here := tile % 512
    let quiet (sc : Scope) : Prop := x.ops = [] ∧ Released s sc
    let listed (w : WorkList) : Prop := s.wl? wl = some w ∧ w.asid = x.sc.asid
    let open_ (w : WorkList) : Prop := listed w ∧ w.closed = false
    let crosses (id : Nat) (w : WorkList) (pkg : Nat) (m : WlMsg) (t : State) : Prop := t.mem = s.mem ∧ t.attrs = s.attrs ∧ t.homes = s.homes ∧
      t.net.pend = s.net.pend ∧ ∀ port, s.podPort 512 pkg = some port → ∃ q, t.net.outbox = s.net.outbox ++ [(pkg, .podRequest port q)] ∧ q.asid = w.asid ∧
        q.kind = 6 ∧ q.msg = some (.lantern id (BitVec.ofNat 32 w.launch) m)
    let waiting (i : Instr) (t : State) : Prop := Waiting i x t.cur (.answer 0)
    let waits (i : Instr) (t : State) : Prop := Confined s t ∧ waiting i t
    let goes (w : WorkList) (m : PushMsg) (t : State) : Prop :=
      let kv := w.tileK.getD (none, 0) here
      let n := { m with v := kv.2 }
      let lamp := w.lampOf tile
      let first : Prop := ∀ c, kv.1 = some c → m.q.pos < c
      (first → lamp / 4 = own → Confined s t ∧ Posts s t (hopDie here (lamp % 4)) (.fpush lamp n)) ∧
      (first → lamp / 4 ≠ own → crosses m.wl w (lamp / 4) (.fpush lamp n) t) ∧
      (¬first → Confined s t ∧ Posts s t 5 (.rpush n))
    (∀ w l, open_ w → quiet (s.wlScope wl) → s.launch? w.launch = some l → itemFault item l.h = none → s.rangesOut s.curId = false →
      Completes (.wlpsh d a b) s fun t => waiting (.wlpsh d a b) t ∧ t.tasks = s.tasks ∧
        goes w ⟨wl, ⟨item, s.pushIdent⟩, 0, tile, .wlpsh s.curId x.mc.ctxser, .new, none, 0, s.now⟩ t) ∧
    (∀ w l, listed w → w.closed = true → quiet (s.wlScope wl) → s.launch? w.launch = some l → itemFault item l.h = none → s.rangesOut s.curId = false →
      Completes (.wlpsh d a b) s fun t => waits (.wlpsh d a b) t ∧ Posts s t (2 * hopDie s.myTile (w.lampOf tile % 4))
        (.pushAnswer ⟨wl, ⟨item, s.pushIdent⟩, 0, tile, .wlpsh s.curId x.mc.ctxser, .new, none, 0, s.now⟩ 2)) ∧
    (∀ w l c, listed w → quiet (s.wlScope wl) → s.launch? w.launch = some l → itemFault item l.h = some c → Traps (.wlpsh d a b) s 0x15 c hi) ∧
    ((∀ w, s.wl? wl = some w → w.asid ≠ x.sc.asid) →
      (quiet (s.wlScope wl) → Traps (.wlpsh d a b) s 0x15 1 hi) ∧ Traps (.wlpop d a la) s 0x15 1 va) ∧
    (∀ w, listed w → (∃ j, 1 ≤ j ∧ j ≤ 4 ∧ (s.task tid).held.getD j none = none) → Completes (.wlpop d a la) s fun t => ∃ o,
      Opened x t.cur o ∧ t.cur.regs = x.regs ∧ t.cur.u.fflags = x.u.fflags ∧ o.kind = .acquiring ∧ o.la = la.toNat ∧
      o.dests = [.g d, .g (d + 1), .g (d + 2)] ∧ o.due = none ∧ t.tasks = s.tasks ∧
      (let lamp := w.lampOf tile
       let m : PopMsg := ⟨wl, 0, tile, .task tid s.curId x.mc.ctxser o.id, 0, s.now⟩
       (lamp / 4 = own → Confined s t ∧ Posts s t (hopDie here (lamp % 4)) (.pop lamp m)) ∧ (lamp / 4 ≠ own → crosses wl w (lamp / 4) (.pop lamp m) t))) ∧
    (∀ w, listed w → (∀ j, 1 ≤ j → j ≤ 4 → (s.task tid).held.getD j none ≠ none) → Traps (.wlpop d a la) s 0x15 5 va) ∧
    (∀ h, k < 5 → held = some h →
      (Completes (.wlack a) s fun t => waiting (.wlack a) t ∧ t.task tid = { s.task tid with held := (s.task tid).held.setIfInBounds k none } ∧
        t.mem = s.mem ∧ t.attrs = s.attrs ∧ ⟨s.now + 2 * 5, .controlReply s.curId x.mc.ctxser 0⟩ ∈ t.net.pend ∧
        ((s.charge.dropHeld a).checkWl h.wl = s.charge.dropHeld a → Confined s t)) ∧
      (∀ w, quiet (s.wlScope h.wl) → s.wl? h.wl = some w → w.closed = false → Completes (.wlret a) s fun t => waiting (.wlret a) t ∧
        t.task tid = { s.task tid with held := (s.task tid).held.setIfInBounds k none } ∧
        goes w ⟨h.wl, h.q, 0, tile, .wlret s.curId x.mc.ctxser, .new, none, 0, s.now⟩ t) ∧
      (∀ w, quiet (s.wlScope h.wl) → s.wl? h.wl = some w → w.closed = true → Completes (.wlret a) s fun t => waits (.wlret a) t ∧
        t.task tid = { s.task tid with held := (s.task tid).held.setIfInBounds k none } ∧ Posts s t (2 * 5) (.controlReply s.curId x.mc.ctxser 0))) ∧
    (5 ≤ k ∨ held = none → Traps (.wlack a) s 0x15 6 va ∧ Traps (.wlret a) s 0x15 6 va) ∧
    (∀ w, s.pkg.wlOwner.get? wl = some x.sc.asid → s.wl? wl = some w →
      (w.home = own → Completes (.wlsta d a b) s fun t => waits (.wlsta d a b) t ∧ t.tasks = s.tasks ∧
        ∃ v : W64, Posts s t (2 * hopDie s.myTile (w.keeperLamp % 4)) (.controlReply s.curId x.mc.ctxser v) ∧
          (let far (f : WlNews → Nat) : Nat := (w.far.map fun e => f e.2).sum
           (x.readG b = 0 → v = BitVec.ofNat 64 (w.worst + w.rho * 2 ^ 10 + (if w.xpkg then 2 ^ 20 else 0) +
            (match w.k with | some c => c / 2 ^ 80 | none => 2 ^ 32 - 1) * 2 ^ 32)) ∧
           (x.readG b = 1 → v = w.pushes + BitVec.ofNat 64 (far (·.pushes))) ∧ (x.readG b = 2 → v = w.pops + BitVec.ofNat 64 (far (·.pops))) ∧
           (x.readG b = 3 → v = BitVec.ofNat 64 ((w.nruns.toNat + far (·.runs)) % 2 ^ 32 + (w.demotes.toNat + far (·.demotes)) % 2 ^ 32 * 2 ^ 32)) ∧
           (x.readG b = 4 → v = BitVec.ofNat 64 (s.present wl)))) ∧
      (w.home ≠ own → Completes (.wlsta d a b) s fun t => waiting (.wlsta d a b) t ∧ t.tasks = s.tasks ∧
        crosses wl w w.home (.stat (x.readG b).toNat s.curId x.mc.ctxser) t)) ∧
    (∀ o, s.pkg.wlOwner.get? wl = some o → o ≠ x.sc.asid → Traps (.wlsta d a b) s 0x15 7 va) ∧
    (s.pkg.wlOwner.get? wl = none → Completes (.wlsta d a b) s fun t => waits (.wlsta d a b) t ∧
      ∃ n, Posts s t n (.controlReply s.curId x.mc.ctxser 0)) ∧
    (x.level = .u → Traps (.wlcfg d a) s 0x15 7 va) ∧
    (x.level ≠ .u → quiet .pkg →
      (∀ s1, s.charge.cfgSpan va 128 64 = (.wait, s1) → Completes (.wlcfg d a) s fun t => t.cur.hold = .again 0 ∧ t.cur.regs = s1.cur.regs ∧
        t.cur.pc = s1.cur.pc ∧ t.mem = s1.mem) ∧
      (∀ c n y s1, s.charge.cfgSpan va 128 64 = (.fail c n y, s1) →
        Completes (.wlcfg d a) s fun t => t = s1.cfgEnd.issueTrap (encode (.wlcfg d a)) c n y)) ∧
    (∀ hb eb s1 s2, x.level ≠ .u → quiet .pkg → s.charge.cfgSpan va 128 64 = (.ok hb, s1) → (Header.of hb).pmaskp = 0 →
      s1.cfgSpan (Header.of hb).entryp (8 * ((Header.of hb).nent + 1)) 8 = (.ok eb, s2) → (∀ o ∈ s2.pkg.openings, o.by_ ≠ s.curId) →
      let refusal := s2.refuseLaunch hb (wordsOf eb) (s2.launchPkgs 0 []) ((Header.of hb).asid == x.sc.asid) s.curId 0
      (∀ c, refusal = some c → Completes (.wlcfg d a) s fun t => t.cur.hold = .answer 0 ∧ t.cur.regs = x.regs ∧ t.pkg = s2.pkg ∧ t.mem = s2.mem ∧
        ⟨s.now + 2 * hopDie s.myTile 0, .controlReply s.curId x.mc.ctxser (BitVec.ofNat 64 c)⟩ ∈ t.net.pend) ∧
      (refusal = none → Completes (.wlcfg d a) s fun t => t.cur.hold = .answer 0 ∧ t.cur.regs = x.regs ∧ t.mem = s2.mem ∧
        t.pkg.nextLaunch = s2.pkg.nextLaunch + 1 ∧
        (∃ l, t.launch? s2.pkg.nextLaunch.toNat = some l ∧ l.h = Header.of hb ∧ l.entries = wordsOf eb ∧ l.creator = some s.curId) ∧
        (∃ w, t.wl? (Header.of hb).wlid = some w ∧ w.launch = s2.pkg.nextLaunch.toNat ∧ w.asid = (Header.of hb).asid) ∧
        ⟨s.now + 2 * hopDie s.myTile 0, .controlReply s.curId x.mc.ctxser (BitVec.ofNat 64 (s2.pkg.nextLaunch.toNat * 2 ^ 32))⟩ ∈ t.net.pend))

/-- R65, R78, R83, R125, R175, R363 to R368: the task instructions.
The model's own choices in it: log 53. -/
def Obligations.TaskInstructions : Prop :=
  ∀ (s : State) (d a : RegNo) (k : BitVec 5),
    let x := s.cur
    let tid := x.u.tid
    let core := coreOf s.curId
    let counted : UCsr := { x.u with retired := x.u.retired + 1, turns := x.u.turns + 1 }
    let scope := s.trigScope x.lkey
    let dest := (x.readG a).toNat % 512
    let moves (w : Window) : Prop := s.window? s.myTile x.sc.asid = some w ∧ w.first ≤ dest ∧ dest ≤ w.last
    let bound : Prop := ∃ l, s.launch? x.lkey = some l ∧ (l.h.cosched = true ∨ l.h.persist = true)
    (s.enginesOut tid scope = false → Released s .pod → Completes .endTask s fun t => t.cur.status = .free ∧ t.cur.u = counted ∧ (t.task tid).place = .ended ∧
      (∀ l, s.launch? x.lkey = some l → ∃ m, t.launch? x.lkey = some m ∧ m.alive = l.alive - 1) ∧ t.mem = s.mem ∧ t.attrs = s.attrs ∧
      (∃ p ∈ t.net.pend, p.ev = .dispatch s.curId)) ∧
    (s.enginesOut tid scope = true ∨ s.updatesOut tid .pod = true → Holds .endTask s) ∧
    (Completes .yield s fun t => OnlySlot s t ∧ Passed x { t.cur with yld := x.yld } ∧ t.cur.yld = true) ∧
    (Completes .align s fun t => Passed x t.cur ∧ t.mem = s.mem ∧ t.tasks = s.tasks ∧ Posts s t 256 (.alignTimeout core s.now) ∧
      (∀ c, c / 8 = s.myTile → c ≠ core → s.coreRuns c x.lkey = true → (∀ e, e / 8 = s.myTile → (s.core e).align = none) →
        (t.core core).align = some ⟨x.pc, x.lkey, s.now, s.curId⟩) ∧
      ((∀ c, c / 8 = s.myTile → c ≠ core → s.coreRuns c x.lkey = false) → (t.core core).align = none)) ∧
    (s.enginesOut tid scope = false → Released s scope → Completes .trig s fun t => Passed x t.cur ∧ (t.task tid).trig = true ∧
      t.mem = s.mem ∧ t.attrs = s.attrs ∧ ((s.task tid).trig = true → OnlySlot s t) ∧
      ((s.task tid).trig = false → ∀ l, s.launch? x.lkey = some l → ∃ m, t.launch? x.lkey = some m ∧ m.triggers = l.triggers + 1)) ∧
    (∀ w, moves w → dest = s.myTile → GoesOn (.migr a) s) ∧
    ((∀ w, ¬moves w) → Traps (.migr a) s 0x04 1 (x.readG a)) ∧
    (∀ w, moves w → dest ≠ s.myTile → bound ∨ x.level ≠ .u → Traps (.migr a) s 0x01 7 ((encode (.migr a)).setWidth 64)) ∧
    (∀ w, moves w → dest ≠ s.myTile → ¬bound → x.level = .u → x.spec.commit = .none → (s.task tid).out1 = 0 → Completes (.migr a) s fun t =>
      t.cur.status = .free ∧ (t.task tid).place = .moving ∧ t.mem = s.mem ∧ t.attrs = s.attrs ∧
      (∃ m ∈ t.net.moving, m.tid = tid ∧ m.tile = dest ∧ m.task.tid = tid ∧ m.task.slot.regs = x.regs ∧ m.task.slot.u = counted ∧
        m.task.slot.pc = x.step.pc) ∧
      ⟨s.now + 40 + hopTile s.myTile dest, .migrationArrival tid dest⟩ ∈ t.net.pend) ∧
    (1 ≤ k.toNat → k.toNat ≤ 6 →
      let nf := x.u.widf.toNat / 2 ^ 36 % 8
      let width (j : Nat) : Nat := x.u.widf.toNat / 2 ^ (6 * (j - 1)) % 2 ^ 6
      let below := ((List.range 7).map fun j => if k.toNat < j ∧ j ≤ nf then width j else 0).sum
      Gives (.widx d k) s d (if nf < k.toNat then 0 else BitVec.ofNat 64 (x.u.wid.toNat / 2 ^ below % 2 ^ width k.toNat))) ∧
    (x.u.active = true → Completes .ueret s fun t => OnlySlot s t ∧ t.cur.pc = x.u.uepc ∧ t.cur.regs = x.regs ∧ t.cur.u = { counted with active := false } ∧
      t.cur.level = x.level ∧ t.cur.wait = s.now + 1) ∧
    (x.u.active = false → Traps .ueret s 0x01 7 ((encode .ueret).setWidth 64))

/-- R11, R60 to R62, R78, R369, Tables 3.2 to 3.5: every CSR instruction on every CSR. The old value goes to g[D]; a write sets the fields that may be
written and leaves every other CSR as it was; an ASID of another tenant traps PRIV. TURNS reads as it is with the instruction's own turn counted.
The model's own choices in it: log 62. -/
def Obligations.CsrInstructions : Prop :=
  ∀ (s : State) (d a : RegNo) (csr : BitVec 12),
    let x := s.cur
    let n := csr.toNat
    let v := x.readG a
    let old := if n = 0x032 then s.csrRead n + 1 else s.csrRead n
    let writes (i : Instr) (w clear : W64) : Prop :=
      (AsidOk s n w → Completes i s fun t => SetsG x t.cur d old ∧ WroteCsr s t n w clear) ∧ (¬AsidOk s n w → Traps i s 0x0E 0 ((encode i).setWidth 64))
    Gives (.csrr d csr) s d old ∧
    writes (.csrw d a csr) v v ∧
    (a ≠ 0 → writes (.csrs d a csr) (old ||| v) v ∧ writes (.csrc d a csr) (old &&& ~~~v) 0) ∧
    (a = 0 → Gives (.csrs d a csr) s d old ∧ Gives (.csrc d a csr) s d old)

/-- R76, R200, R220, R371 to R374: the privileged instructions at the level that may run them.
The model's own choices in it: logs 55, 56, 57, 70. -/
def Obligations.PrivilegedInstructions : Prop :=
  ∀ (s : State) (a b : RegNo) (n : PredNo),
    let x := s.cur
    let va := x.readG a
    let counted : UCsr := { x.u with retired := x.u.retired + 1, turns := x.u.turns + 1 }
    let k := va.toNat % 2 ^ 15
    let here : Prop := va.toNat % 2 ^ 24 / 2 ^ 15 = s.pkg.podIndex.toNat
    let y := s.slot k
    let asid := va.extractLsb' 0 14
    let free : Prop := s.accInUse n = false
    let sends (kind : Nat) (as : BitVec 14) (first count : Nat) (i : Instr) : Prop :=
      Completes i s fun t => Waiting i x t.cur (.answer 0) ∧ t.mem = s.mem ∧ t.attrs = s.attrs ∧ t.homes = s.homes ∧
        (∃ op : TlbiOp, t.net.tlbis = s.net.tlbis ++ [op] ∧ op.slot = s.curId ∧ op.ctx = x.mc.ctxser ∧ op.kind = kind ∧ op.asid = as ∧ op.first = first ∧
          op.count = count ∧ op.left = List.range 64 ∧ op.acks = 64 + (s.tlbiPkgs kind as).length ∧
          op.asker = none ∧ (∀ h, h < 64 → ⟨s.now + hopDie s.myTile (h / 16), .tlbiAtHome h op.id⟩ ∈ t.net.pend) ∧
          ∀ pkg ∈ s.tlbiPkgs kind as, ∀ port, s.podPort 512 pkg = some port → ∃ q, (pkg, .podRequest port q) ∈ t.net.outbox ∧ q.kind = 6 ∧
            q.msg = some (.tlbi op.id kind as first count))
    (x.level = .m → Completes .eret s fun t => OnlySlot s t ∧ t.cur.level = (if x.mc.mpp = 0 then .u else if x.mc.mpp = 1 then .s else .m) ∧
      t.cur.pc = x.mc.mepc ∧ t.cur.mc = { x.mc with intrap := false } ∧ t.cur.sc = x.sc ∧ t.cur.regs = x.regs ∧ t.cur.u = counted ∧
      t.cur.skip = (x.mc.mepc, x.mc.mcause.extractLsb' 24 15)) ∧
    (x.level = .s → Completes .eret s fun t => OnlySlot s t ∧ t.cur.level = (if x.sc.spp = 0 then .u else .s) ∧ t.cur.pc = x.sc.sepc ∧
      t.cur.sc = { x.sc with intrap := false } ∧ t.cur.mc = x.mc ∧ t.cur.regs = x.regs ∧ t.cur.u = counted ∧
      t.cur.skip = (x.sc.sepc, x.sc.scause.extractLsb' 24 15)) ∧
    (¬here → GoesOn (.spill a) s ∧ GoesOn (.fill a) s ∧ GoesOn (.wake a) s) ∧
    (here → k ≠ s.curId → y.status ≠ .free → y.status ≠ .saving →
      Completes (.spill a) s fun t => t.slot k = { y with leaving := true } ∧ t.mem = s.mem ∧ t.attrs = s.attrs ∧ t.tasks = s.tasks ∧
        (∃ p ∈ t.net.pend, p.ev = .eviction k) ∧ (y.level = .u → Waiting (.spill a) x t.cur (.again 1)) ∧ (y.level ≠ .u → Passed x t.cur)) ∧
    (here → k ≠ s.curId → y.status = .free ∨ y.status = .saving → GoesOn (.spill a) s) ∧
    (here → k ≠ s.curId → ∀ ix r l, (s.tile (tileOf k)).recs = [(ix, r)] → (s.tile (tileOf k)).prefetched = [] → s.net.moving = [] → r.ready = true →
      r.done = true → r.slot.fails = [] → s.launch? r.slot.lkey = some l → s.slotFits k l = true → Completes (.fill a) s fun t =>
        Passed x t.cur ∧ (t.slot k).status = .ready ∧ (t.slot k).level = .u ∧ (t.slot k).pc = r.slot.pc ∧ (t.slot k).regs = r.slot.regs ∧
        (t.slot k).u = { r.slot.u with codeb := l.h.codeb, codel := l.h.codel, launch := l.id } ∧
        (t.slot k).mc.ctxser = y.mc.ctxser + 1 ∧ (t.task r.tid).place = .slot k ∧ (t.tile (tileOf k)).recs = [] ∧ t.mem = s.mem) ∧
    (here → k ≠ s.curId → y.status ≠ .free → GoesOn (.fill a) s) ∧
    (here → Completes (.wake a) s fun t => Passed x t.cur ∧ OnlySent s t ∧ ∃ r, t.req? r.id = some r ∧ s.net.nextId ≤ r.id ∧ r.op = 0 ∧ r.lane = wakeLane ∧
      r.slot = wakeMark + k ∧ r.stage = .wake ∧ r.res = (if va.getLsbD 24 then .fail 0x05 4 else .ok []) ∧
      Posts s t (hopTile s.myTile (tileOf k)) (.accessReply r.id none)) ∧
    (x.level = .m ∨ s.tenantOf? asid = some x.sc.tenant →
      ((x.readG (b + 1)).toNat ≠ 0 → sends 0 asid ((x.readG b).toNat / 2 ^ 16 % 2 ^ 32) (x.readG (b + 1)).toNat (.tlbiRange a b)) ∧
      (x.readG (b + 1) = 0 → GoesOn (.tlbiRange a b) s) ∧ sends 1 asid 0 0 (.tlbiAsid a)) ∧
    (x.level = .s → s.tenantOf? asid ≠ some x.sc.tenant → Traps (.tlbiRange a b) s 0x0E 0 ((encode (.tlbiRange a b)).setWidth 64) ∧
      Traps (.tlbiAsid a) s 0x0E 0 ((encode (.tlbiAsid a)).setWidth 64)) ∧
    sends 2 0 0 0 .tlbiAll ∧
    (x.spec.commit = .none → Completes .iflush s fun t => Passed x t.cur ∧ (t.tile s.myTile).icache = [] ∧
      t = { s with cur := t.cur, tiles := t.tiles } ∧ ∀ j, j ≠ s.myTile → (t.tile j).icache = (s.tile j).icache) ∧
    (x.level = .m → Completes .halt s fun t => OnlySlot s t ∧ t.cur.status = .halted ∧ t.cur.regs = x.regs ∧ t.cur.u = counted) ∧
    (x.level = .s → Completes .halt s fun t => (t.cur.status = .stopped ∨ t.cur.status = .free) ∧ t.mem = s.mem) ∧
    (free → Accesses (.mspill n a) s va 64 .store true false
      ((List.range 16).map fun r => ⟨r, 64 * r, 64, 2 ^ 64 - 1, (List.range 16).flatMap fun j =>
        lowBytes 4 ((((s.core (coreOf s.curId)).accs.getD n.toNat Acc.free).elems).getD (16 * r + j) 0)⟩) .result [] 0 (.mspill n)) ∧
    (free → ((s.core (coreOf s.curId)).accs.getD n.toNat Acc.free).owner = none ∨
        ((s.core (coreOf s.curId)).accs.getD n.toNat Acc.free).owner = some (slotIx s.curId, x.mc.ctxser, x.u.tid) →
      Accesses (.mfill n a) s va 64 .load false false ((List.range 16).map fun r => ⟨r, 64 * r, 64, 2 ^ 64 - 1, []⟩) .result [] 0 (.mfill n))


/-! ### Events at homes and replies (spec/05_ordering.md R112 to R118, R135; spec/04_memory_space.md R95, R96) -/

/-- R93, R95, R96, R112, R118, R328 to R332: what a home does with a request to a slice. Loads answer with the bytes; stores write the bytes their mask
picks and no other byte; atomics combine and answer with the old value; a conditional store writes only where the reservation still stands; full/empty
forms act, or wait on the word; a request that fails the window check is answered with PROT.
The model's own choices in it: logs 2, 5, 31, 74. -/
def Obligations.HomeAccesses : Prop :=
  ∀ (s : State) (id : Nat) (r : Req) (tile off : Nat), AtSlice s id r tile off →
    let home := 64 + tile
    let line := off / 64
    let base := sramByte tile off
    let q : Req := atItsHome s r home line
    let old := seenBytes s tile off r.n
    let ws := watchersOf s home line
    let does (P : State → Prop) : Prop := ∃ t, exec (.homeAccess id) s = .next t ∧ P t
    let same (t : State) : Prop := t.mem = s.mem ∧ t.attrs = s.attrs
    let mine (b : Buoy) : Bool := b.slot == r.slot && b.ctx == r.ctx && b.mode == 4
    let fe (k : ReqKind) (P : State → Prop) : Prop := r.kind = k → r.n = 8 → off % 8 = 0 → s.parked home (off / 8) = [] → does P
    (r.kind = .load → r.watch = none → (s.slot r.slot).speculates = false → does fun t => AtHomeOnly s t ∧ same t ∧
      t.tiles = s.tiles ∧ Answered s t q [] old 0) ∧
    (r.kind = .store → does fun t => AtHomeOnly s t ∧ t.attrs.full = s.attrs.full ∧ Wrote s t base r.n r.mask r.data ∧ Answered s t q ws [] 0) ∧
    (∀ op, r.kind = .amo op → r.mask = 2 ^ r.n - 1 → (r.n = 8 ∨ r.n = 4) → (op = .fadd → r.n = 4) → does fun t =>
      let c := combined op r.n (numberOf old) (numberOf r.data)
      AtHomeOnly s t ∧ t.attrs.full = s.attrs.full ∧ Wrote s t base r.n r.mask (bytesOfNat r.n c.1) ∧ Answered s t q ws (old ++ [c.2.setWidth 8]) 4) ∧
    (∀ v, r.kind = .cas v → r.mask = 2 ^ r.n - 1 → r.n ≤ 8 →
      (old = bytesOfNat r.n v.toNat → does fun t => AtHomeOnly s t ∧ t.attrs.full = s.attrs.full ∧ Wrote s t base r.n r.mask r.data ∧ Answered s t q ws old 4) ∧
      (old ≠ bytesOfNat r.n v.toNat → does fun t => AtHomeOnly s t ∧ same t ∧ t.tiles = s.tiles ∧ Answered s t q [] old 4)) ∧
    (r.kind = .ldr → (∀ b ∈ s.buoysOf home, ¬(b.slot = r.slot ∧ b.ctx = r.ctx ∧ b.line = line)) → (s.buoysOf home).length < 4096 → does fun t =>
      AtHomeOnly s t ∧ same t ∧ t.buoysOf home = s.buoysOf home ++ [⟨line, r.slot, r.ctx, 4, 0, s.buoyAgeOf home⟩] ∧ Answered s t q [] old 4) ∧
    (r.kind = .stc →
      ((∃ b ∈ ws, mine b = true) → does fun t => AtHomeOnly s t ∧ t.attrs.full = s.attrs.full ∧ Wrote s t base r.n r.mask r.data ∧
        Answered s t q (ws.filter fun b => !mine b) [1] 4) ∧
      ((∀ b ∈ ws, mine b = false) → does fun t => AtHomeOnly s t ∧ same t ∧ t.tiles = s.tiles ∧ Answered s t q [] [0] 4)) ∧
    (r.kind = .wrs → (∀ b ∈ ws, mine b = false) → does fun t => AtHomeOnly s t ∧ same t ∧ t.tiles = s.tiles ∧ Answered s t q [] old 4) ∧
    fe .ldf (fun t => s.isFull tile off = true → AtHomeOnly s t ∧ t.mem = s.mem ∧ FullAfter s t tile off false ∧ Answered s t q ws old 0) ∧
    fe .ldff (fun t => s.isFull tile off = true → AtHomeOnly s t ∧ same t ∧ Answered s t q [] old 0) ∧
    fe .ste (fun t => s.isFull tile off = false → AtHomeOnly s t ∧ Wrote s t base 8 0xFF r.data ∧ FullAfter s t tile off true ∧ Answered s t q ws [] 0) ∧
    fe .stef (fun t => AtHomeOnly s t ∧ Wrote s t base 8 0xFF r.data ∧ FullAfter s t tile off true ∧ Answered s t q ws [] 0) ∧
    fe .feclr (fun t => AtHomeOnly s t ∧ t.mem = s.mem ∧ FullAfter s t tile off false ∧ Answered s t q ws [] 0) ∧
    fe .feget (fun t => AtHomeOnly s t ∧ same t ∧ Answered s t q [] (bytesOfNat 8 (if s.isFull tile off = true then 1 else 0)) 0) ∧
    ((r.kind = .ldf ∨ r.kind = .ldff) ∧ s.isFull tile off = false ∨ r.kind = .ste ∧ s.isFull tile off = true →
      (1 < r.limit → does fun t => same t ∧ Posts s t 1024 (.feRetryAttempt id) ∧ (∃ k, t.req? id = some { q with
          stage := .park, tries := 1, parked := s.now, order := k }) ∧
        (r.slot = s.curId → r.ctx = s.cur.mc.ctxser → s.cur.status = .ready → (∀ e ∈ s.net.reqs, ¬Waits s e.2) →
          t.cur = { s.cur with status := .blocked .fullEmpty })) ∧
      (r.limit ≤ 1 → does fun t => AtHomeOnly s t ∧ same t ∧ t.req? id = some { q with stage := .reply, res := .fail 0x0A 0, since := s.now } ∧
        Posts s t (hopHome r.tile home) (.accessReply id none)))

/-- R93, R118, R330: a remote update that reaches its home is combined with the bytes there and, once no watcher has still to take a notice, is accepted: its
request is gone and nothing answers it. One that fails the window check is kept for the first instruction of its task that waits for it.
The model's own choices in it: logs 2, 31. -/
def Obligations.UpdatesApplied : Prop :=
  ∀ (s : State) (id : Nat) (r : Req) (tile off : Nat) (op : AmoOp), r.kind = .rupd op →
    let home := 64 + tile
    let line := off / 64
    let old := seenBytes s tile off r.n
    (AtSlice s id r tile off → r.mask = 2 ^ r.n - 1 → (r.n = 8 ∨ r.n = 4) → (op = .fadd → r.n = 4) →
      ∃ t, exec (.updateApply id) s = .next t ∧ AtHomeOnly s t ∧ t.attrs.full = s.attrs.full ∧
        Wrote s t (sramByte tile off) r.n r.mask (bytesOfNat r.n (combined op r.n (numberOf old) (numberOf r.data)).1) ∧
        (watchersOf s home line = [] → t.net.reqs = s.net.reqs.del id ∧ t.net.pend = s.net.pend) ∧
        (watchersOf s home line ≠ [] →
          t.req? id = some { atItsHome s r home line with stage := .notices, notices := (watchersOf s home line).length, res := .ok [] })) ∧
    (∀ c, s.req? id = some r → r.id = id → r.cls = .sram tile off → r.stage = .travel → r.source = none → s.mustWait r = false →
      s.windowFault tile off r.asid true = some c →
      ∃ t, exec (.updateApply id) s = .next t ∧ t.mem = s.mem ∧ t.attrs = s.attrs ∧ t.net = { s.net with reqs := s.net.reqs.del id } ∧ t.cur = s.cur ∧
        t.task r.tid = { s.task r.tid with refused := (s.task r.tid).refused ++ [⟨0, 0x04, c, r.ptr⟩] })

/-- R63, R64, R74, R112, R232, R317, R334, R343, R357, R358: what a reply or an answer does in the slot that waits for it. The last reply of a load writes the
register and the instruction retires; a failed one traps at the instruction that was issued, with its effective pointer as XADDR; an answer lets the
instruction that holds issue write its result and retire.
The model's own choices in it: logs 17, 47. -/
def Obligations.RepliesTaken : Prop :=
  ∀ (s : State), let x := s.cur
    let flow (t : State) : Prop := t = { s with
      cur := t.cur, tiles := t.tiles, tasks := t.tasks, net := { s.net with reqs := t.net.reqs, pend := t.net.pend, outbox := t.net.outbox } }
    (∀ id r o d n sgn data, LastReply s id r o → r.res = .ok data → o.wb = .g d n sgn → o.got = [] → (n = 1 ∨ n = 2 ∨ n = 4 ∨ n = 8) → n ≤ data.length →
      ∃ t, exec (.accessReply id none) s = .next t ∧ flow t ∧ Closed x t.cur o.id ∧ SetsG x t.cur d (loaded n sgn data) ∧ t.cur.u.fflags = x.u.fflags ∧
        t.tasks = s.tasks ∧ t.net = { s.net with reqs := s.net.reqs.del id }) ∧
    (∀ id r o data, LastReply s id r o → r.res = .ok data → o.wb = .none →
      ∃ t, exec (.accessReply id none) s = .next t ∧ flow t ∧ Closed x t.cur o.id ∧ t.cur.regs = x.regs ∧ t.cur.u.fflags = x.u.fflags ∧
        t.tasks = s.tasks ∧ t.net = { s.net with reqs := s.net.reqs.del id }) ∧
    (∀ id r o d m data, LastReply s id r o → r.res = .ok data → o.wb = .vec d m 64 false → o.got = [] → data.length = 64 →
      ∃ t, exec (.accessReply id none) s = .next t ∧ flow t ∧ Closed x t.cur o.id ∧ t.cur.u.fflags = x.u.fflags ∧
        SetsLanes x t.cur d m (fun k => BitVec.ofNat 32 (numberOf ((data.drop (4 * k)).take 4)))) ∧
    (∀ id r o cause code, LastReply s id r o → r.res = .fail cause code → x.ops = [o] → x.spec.mode = .none → x.rsv = none → cause < 32 → code < 32768 →
      ¬ToM x cause → x.sc.stvec ≠ 0 →
      ∃ t, exec (.accessReply id none) s = .next t ∧ flow t ∧ t.cur.level = .s ∧ t.cur.pc = x.sc.stvec ∧ t.cur.sc.sepc = o.pc ∧ t.cur.sc.sxaddr = r.ptr ∧
        t.cur.sc.spp = BitVec.ofNat 1 x.level.num ∧ t.cur.sc.intrap = true ∧ t.cur.sc.scause.toNat % 2 ^ 24 = cause + code * 2 ^ 8 + 2 ^ 23 ∧
        t.cur.regs = x.regs ∧ t.cur.u = { x.u with dacc := t.cur.u.dacc } ∧ t.cur.ops = []) ∧
    (∀ slot ctx i v, AwaitsAnswer s slot ctx i →
      let writes (d : RegNo) : Prop := ∃ t, exec (.controlReply slot ctx v) s = .next t ∧ flow t ∧ t.tasks = s.tasks ∧ t.net = s.net ∧ Resumed x t.cur ∧
        SetsG x t.cur d v
      (∀ d id, i = .barq d id → writes d) ∧ (∀ id b, i = .barset id b → writes b) ∧ (∀ d a b, i = .wlsta d a b → writes d) ∧
      (∀ d a, i = .wlcfg d a → writes d) ∧ (∀ g q, i = .qstat g q → writes g) ∧
      ((∃ a, i = .wlack a ∨ i = .wlret a) ∨ (∃ g q, i = .qbind g q) → ∃ t, exec (.controlReply slot ctx v) s = .next t ∧ flow t ∧ t.tasks = s.tasks ∧
        t.net = s.net ∧ Resumed x t.cur ∧ t.cur.regs = x.regs)) ∧
    (∀ slot ctx id ph, AwaitsAnswer s slot ctx (.bara id) →
      (∃ t, exec (.barrierArrivalReply slot ctx id.toNat (some ph)) s = .next t ∧ flow t ∧ Resumed x t.cur ∧ t.cur.regs = x.regs ∧
        t.task x.u.tid = { s.task x.u.tid with arrivals := (s.task x.u.tid).arrivals.setIfInBounds id.toNat (some ph) } ∧ t.net = s.net) ∧
      (exec (.barrierArrivalReply slot ctx id.toNat none) s = .next
        ((s.updCur fun y => y.addDelay s.now 8 (s.now - x.asked)).issueTrap x.word 0x01 7 (x.word.setWidth 64)))) ∧
    (∀ (m : PushMsg) (status : Nat) slot ctx d a b, m.by_ = .wlpsh slot ctx → AwaitsAnswer s slot ctx (.wlpsh d a b) → (status ≠ 0 ∨ x.sc.piste = false) →
      ∃ t, exec (.pushAnswer m status) s = .next t ∧ flow t ∧ Resumed x { t.cur with pushSeq := x.pushSeq } ∧ t.tasks = s.tasks ∧ t.net = s.net ∧
        t.cur.pushSeq = x.pushSeq + (if status = 0 then 1 else 0) ∧ SetsG x t.cur d (BitVec.ofNat 64 status)) ∧
    (∀ (m : PopMsg) slot ctx op d a la o q k, m.by_ = .task x.u.tid slot ctx op → slot = s.curId → ctx = x.mc.ctxser → x.status = .blocked (.worklist m.wl) →
      x.ops.find? (fun p => p.id == op) = some o → o.id = op → decode o.word = .ok (.wlpop d a la) → x.fails = [] →
      k < 4 → (s.task x.u.tid).held.getD (k + 1) none = none → (∀ j, j < k → (s.task x.u.tid).held.getD (j + 1) none ≠ none) →
      ∃ t, exec (.popReply m (.item q)) s = .next t ∧ flow t ∧ t.net = s.net ∧ t.cur.status = .ready ∧
        Closed { x with status := .ready } t.cur op ∧
        t.task x.u.tid = { s.task x.u.tid with held := (s.task x.u.tid).held.setIfInBounds (k + 1) (some ⟨m.wl, q⟩) } ∧
        ∀ r, t.cur.readG r = if r = 0 then 0 else if r = d + 2 then q.item.key ++ q.item.entry ++ q.item.flags ++ q.item.count
          else if r = d + 1 then q.item.work else if r = d then BitVec.ofNat 64 ((k + 1) * 256) else x.readG r) ∧
    (∀ (m : PopMsg) slot ctx op d a la o, m.by_ = .task x.u.tid slot ctx op → slot = s.curId → ctx = x.mc.ctxser → x.status = .blocked (.worklist m.wl) →
      x.ops.find? (fun p => p.id == op) = some o → o.id = op → decode o.word = .ok (.wlpop d a la) → x.fails = [] →
      ∃ t, exec (.popReply m .closed) s = .next t ∧ flow t ∧ t.net = s.net ∧ t.tasks = s.tasks ∧ Closed { x with status := .ready } t.cur op ∧
        ∀ r, t.cur.readG r = if r = 0 then 0 else if r = d + 2 ∨ r = d + 1 then 0 else if r = d then 3 else x.readG r)

/-- R100, R101, R103, R104, R105, R107, R110, R220, R448: walks, wakes and their way to the slot, TLBI at homes, the sweeper, the zeroing engine, the lists of frames, and lines that reach
the instruction cache.
The model's own choices in it: logs 2, 15, 58. -/
def Obligations.PagesAndFrames : Prop :=
  ∀ (s : State) (home : Nat) (asid : BitVec 14) (vpn id : Nat) (r : Req),
    let h := s.home home
    let quiet (t : State) : Prop := t.mem = s.mem ∧ t.attrs = s.attrs
    (∀ w, (h.walks.find? fun v => v.asid == asid && v.vpn == vpn && v.running) = some w →
      (w.marked = true → ∃ t, exec (.walkComplete home asid vpn) s = .next t ∧ quiet t ∧ Posts s t 60 (.walkComplete home asid vpn) ∧ t.net.reqs = s.net.reqs) ∧
      (w.marked = false → s.waitingFor home asid vpn .walk = [r] → r.id = id → r.kind = .load → r.source = none →
        (∀ pte e large, s.walk asid (vpn * 65536) = .leaf pte e large → pteA e = true → vpn % 64 = home → home < 64 →
          ∃ t, exec (.walkComplete home asid vpn) s = .next t ∧ quiet t ∧ t.req? id = some { r with stage := .travel } ∧
            ⟨s.now + 1, .homeAccess id⟩ ∈ t.net.pend ∧
            ∃ c ∈ (t.home home).tlb, c.asid = asid ∧ c.frame = frameOf (vpn * 65536) e large ∧ c.w = pteW e ∧ c.d = pteD e ∧ c.large = large ∧
              c.key.toNat = pteKey e ∧ c.poison = pteP e) ∧
        (s.walk asid (vpn * 65536) = .pending → ∃ t, exec (.walkComplete home asid vpn) s = .next t ∧ quiet t ∧
          t.req? id = some { r with stage := .reply, res := .pending, since := s.now } ∧ ⟨s.now + hopHome r.tile r.home, .accessReply id none⟩ ∈ t.net.pend ∧
          ∃ f ∈ (t.home r.home).faults, f.asid = asid ∧ f.slot = r.slot ∧ f.ctx = r.ctx) ∧
        (∀ c, s.walk asid (vpn * 65536) = .fail c → ∃ t, exec (.walkComplete home asid vpn) s = .next t ∧ quiet t ∧
          t.req? id = some { r with stage := .reply, res := .fail 0x05 c, since := s.now } ∧ ⟨s.now + hopHome r.tile r.home, .accessReply id none⟩ ∈ t.net.pend))) ∧
    (OnlyWaiter s id r vpn .page → r.asid = asid → r.kind = .load → r.source = none → home ≤ foreignHome → ∀ maps,
      ∃ t, exec (.pageWake home asid vpn maps) s = .next t ∧ quiet t ∧ t.cur = s.cur ∧
        t.req? id = some { r with stage := .wake, path := 0, since := s.now, res := if maps then .ok [] else .fail 0x05 4 } ∧
        ⟨s.now + hopMsg r.tile r.home, .accessReply id none⟩ ∈ t.net.pend) ∧
    (OnlyWaiter s id r vpn .wake → r.kind = .load → r.op ≠ 0 → r.source = none →
      (∀ b, r.res = .ok b → ∃ t, exec (.accessReply id none) s = .next t ∧ quiet t ∧
        t.req? id = some { r with stage := .travel, res := .ok [], tries := 0, path := 0, since := s.now, flies := true } ∧
        ⟨s.now + hopHome r.tile r.home, .homeAccess id⟩ ∈ t.net.pend ∧ t.cur.status = .ready ∧ t.cur.regs = s.cur.regs ∧ t.cur.pc = s.cur.pc) ∧
      (∀ o c, r.res = .fail 0x05 c → c < 32768 → s.cur.ops.find? (fun p => p.id == r.op) = some o → o.left = 1 → o.fail = none → s.cur.fails = [] →
        TrapsToS s.cur o 0x05 c → ∃ t, exec (.accessReply id none) s = .next t ∧ quiet t ∧ TrappedLate s.cur t.cur o.pc 0x05 c r.ptr)) ∧
    (∀ k, s.req? id = some r → r.id = id → r.lane = wakeLane → r.op = 0 → r.slot = wakeMark + k → k ≠ s.curId → let y := s.slot k
      (y.status = .blocked .retrySleep → ∃ t, exec (.accessReply id none) s = .next t ∧ quiet t ∧ t.cur = s.cur ∧ t.slot k = { y with
        status := .ready, occurred := true, spec := { y.spec with wake := false, watch := y.spec.watch.filter fun w => w.mode != 2 } }) ∧
      (y.status = .ready → exec (.accessReply id none) s = .next { s with net := { s.net with reqs := s.net.reqs.del id } })) ∧
    (∀ op, (s.net.tlbis.find? fun t => t.id == id) = some op → op.left.contains home = true → s.tlbiWaits op home = false →
      ∃ t, exec (.tlbiAtHome home id) s = .next t ∧ quiet t ∧ t.cur = s.cur ∧
        (t.home home).tlb = h.tlb.filter (fun e => !(op.covers e.asid e.vpn (if e.large then 2048 else 1))) ∧
        Posts s t (1 + hopDie (tileOf op.slot) (home / 16)) (.tlbiAck id) ∧
        ∀ w ∈ (t.home home).walks, op.covers w.asid w.vpn 1 = true → w.began < s.now → w.marked = true) ∧
    (∀ op, (s.net.tlbis.find? fun t => t.id == id) = some op →
      (1 < op.acks → exec (.tlbiAck id) s = .next { s with net := { s.net with
        tlbis := s.net.tlbis.map fun (o : TlbiOp) => if o.id = id then { o with acks := o.acks - 1 } else o } }) ∧
      (op.acks ≤ 1 → op.cmd = none → ∀ pkg n, op.asker = some (pkg, n) → ∃ t, exec (.tlbiAck id) s = .next t ∧ quiet t ∧ t.cur = s.cur ∧
        t.net.tlbis = s.net.tlbis.filter (fun o => o.id != id) ∧
        ∀ port, s.podPort 512 pkg = some port → ∃ q, t.net.outbox = s.net.outbox ++ [(pkg, .podRequest port q)] ∧ q.msg = some (.tlbiAck n)) ∧
      (op.acks ≤ 1 → op.cmd = none → op.asker = none → op.slot = s.curId → op.ctx = s.cur.mc.ctxser → s.cur.hold = .answer 0 → s.cur.frame = none →
        ∃ t, exec (.tlbiAck id) s = .next t ∧ quiet t ∧ Resumed s.cur t.cur ∧ t.cur.regs = s.cur.regs ∧
          t.net = { s.net with tlbis := s.net.tlbis.filter fun o => o.id != id })) ∧
    (h.sweepEn = true → h.rate ≠ 0 → h.cold.length < h.coldWm.toNat → home < 64 → h.hand < 131072 →
      let f := h.hand
      let e := s.frameEnt (home * 131072 + f)
      let next := (f + 1) % 131072
      (e.st ≠ 3 → ∃ t, exec (.sweeperStep home) s = .next t ∧ quiet t ∧ t.home home = { h with hand := next }) ∧
      (e.st = 3 → pteA (s.readPte e.ptepa) = true → e.ptepa % 8 = 0 → e.ptepa < 2 ^ 39 → s.mem.wf = true → ∃ t, exec (.sweeperStep home) s = .next t ∧
        pteA (t.readPte e.ptepa) = false ∧ t.home home = { h with hand := next, tlb := h.tlb.filter fun c => !(c.pte == e.ptepa && c.asid == e.asid) }) ∧
      (e.st = 3 → pteA (s.readPte e.ptepa) = false → ∃ t, exec (.sweeperStep home) s = .next t ∧ quiet t ∧ (t.home home).cold = h.cold ++ [f] ∧
        (t.frameEnt (home * 131072 + f)).st = 4 ∧ (t.home home).hand = next)) ∧
    (∀ f rest, h.free = f :: rest → h.pool.length < h.poolTgt.toNat → home < 64 → f < 131072 → s.mem.wf = true →
      let base := hbmByte (home * 8589934592 + f * 65536)
      ∃ t, exec (.zeroingStep home) s = .next t ∧ (t.home home).free = rest ∧ (t.home home).pool = h.pool ++ [f] ∧
        t.frameEnt (home * 131072 + f) = ⟨2, 0, 0⟩ ∧ (∀ a, t.mem.read a = if base ≤ a ∧ a < base + 65536 then 0 else s.mem.read a) ∧
        (∀ k, k < 1024 → t.attrs.zero.has (base / 64 + k) = true) ∧ t.attrs.full = s.attrs.full ∧ t.cur = s.cur) ∧
    (∀ f, home < 64 → f < 131072 → (s.frameEnt (home * 131072 + f)).st ≠ 6 → h.free.contains f = false → h.lasting.contains f = false →
      ∃ t, exec (.freepush home f) s = .next t ∧ quiet t ∧ (t.home home).free = h.free ++ [f] ∧ (t.frameEnt (home * 131072 + f)).st = 0) ∧
    (∀ f rest, h.cold = f :: rest → ∃ t, exec (.coldpop home) s = .next t ∧ quiet t ∧ t.home home = { h with cold := rest } ∧ t.net = s.net) ∧
    (∀ tile line u off, s.classify tile asid .s (line * 64) = .sram u off → s.windowFault u off asid false = none → s.poisoned (64 + u) (off / 64) = false →
      s.lineWaits (64 + u) (off / 64) false = false → ∃ t, exec (.icacheFill tile asid line) s = .next t ∧ quiet t ∧
        (t.tile tile).icache.find? (fun l => l.asid == asid && l.line == line) = some ⟨asid, line, seenBytes s u off 64⟩)

/-- R96, R122, R135, R138, R141, R142, R145, R147, R148, R215 to R217, R297: full/empty retries, notices and losses, those to and from other packages among
them, release messages, the commit of a transaction line by line, and the turns of Piste chunks, which send the updates of a committed chunk one after another.
The model's own choices in it: logs 2, 5, 13, 30, 31, 38. -/
def Obligations.NoticesAndCommits : Prop :=
  ∀ (s : State),
    let x := s.cur
    let quiet (t : State) : Prop := t.mem = s.mem ∧ t.attrs = s.attrs
    let watches (n : Notice) : Prop := ∃ w, x.spec.watch.find? (fun w => w.home == n.home && w.line == n.line) = some w ∧ w.mode = n.mode
    let to_ (n : Notice) : Prop := n.slot = s.curId ∧ n.ctx = x.mc.ctxser ∧ x.status ≠ .free ∧ x.status ≠ .saving ∧ s.req? n.ack = none
    (∀ id r, s.req? id = some r → r.id = id → r.stage = .park → r.source = none → r.kind.isUpdate = false →
      (r.tries + 1 < r.limit → ∃ t, exec (.feRetryAttempt id) s = .next t ∧ t = { s with net := t.net } ∧
        t.req? id = some { r with tries := r.tries + 1 } ∧ Posts s t 1024 (.feRetryAttempt id)) ∧
      (r.limit ≤ r.tries + 1 → ∃ t, exec (.feRetryAttempt id) s = .next t ∧ quiet t ∧ t.req? id = some { r with
          stage := .reply, res := .fail 0x0A 0, since := s.now } ∧
        (r.slot = s.curId → r.ctx = x.mc.ctxser → x.status = .blocked .fullEmpty → (∀ e ∈ s.net.reqs, e.1 ≠ id → ¬Waits s e.2) →
          t.cur = { x with status := .ready }))) ∧
    (∀ n, to_ n → n.mode = 1 → watches n → x.spec.mode = .tx → x.spec.commit ≠ .applying → x.frame = none →
      (∃ t, exec (.buoyNotice n) s = .next t ∧ Aborted s t 1 0) ∧ (∃ t, exec (.lossNotice n) s = .next t ∧ Aborted s t 3 0)) ∧
    (∀ n p k, to_ n → n.mode = 4 → x.rsv = some (p, k, n.home, n.line) →
      (∃ t, exec (.buoyNotice n) s = .next t ∧ t = { s with cur := { x with rsv := none }, net := { s.net with outbox := t.net.outbox } }) ∧
      (∃ t, exec (.lossNotice n) s = .next t ∧ quiet t ∧ t.cur.rsv = none ∧ t.cur.regs = x.regs ∧ t.cur.pc = x.pc ∧ t.cur.status = x.status)) ∧
    (∀ n, to_ n → n.mode = 2 → watches n → x.spec.mode = .none → x.status = .blocked .retrySleep → ∃ t, exec (.buoyNotice n) s = .next t ∧ quiet t ∧
      t.cur.status = .ready ∧ t.cur.pc = x.pc ∧ t.cur.regs = x.regs ∧ ∀ w ∈ t.cur.spec.watch, w.mode ≠ 2) ∧
    (∀ n c id b ph, to_ n → n.mode = 3 → watches n → x.spec.mode = .glide → x.spec.commit = .none → x.frame = none → x.spec.ckpt = some c →
      x.spec.barrier = some (id, b, ph) → ∃ t, exec (.buoyNotice n) s = .next t ∧ quiet t ∧ t.cur.regs = c.regs ∧ t.cur.pc = x.spec.restart ∧
        t.cur.status = .blocked (.barrier id) ∧ t.cur.spec.mode = .none ∧ ∀ l ∈ (t.core (coreOf s.curId)).buf, l.slot ≠ s.curId) ∧
    (∀ n, foreignHome < n.home →
      let told : Nat × Event := (n.home - foreignHome - 1, .accessReply n.ack (some ⟨0, 0, [], 0, false⟩))
      (∃ t, exec (.buoyNotice n) s = .next t ∧ quiet t ∧ told ∈ t.net.outbox) ∧ (∃ t, exec (.lossNotice n) s = .next t ∧ quiet t ∧ told ∈ t.net.outbox)) ∧
    (∀ id a ans, s.req? id = none → (s.net.away.find? fun o => o.id == id) = some a →
      let left := s.net.away.filter (· != a)
      (a.loss = true → exec (.accessReply id (some ans)) s = .next { s with net := { s.net with away := left } }) ∧
      (∀ r, a.loss = false → s.req? a.ack = some r → r.id = a.ack → r.stage = .notices →
        (1 < r.notices → exec (.accessReply id (some ans)) s = .next { s with net := { s.net with
          away := left, reqs := s.net.reqs.set r.id { r with notices := r.notices - 1 } } }) ∧
        (∀ d, r.notices = 1 → r.source = none → r.kind.isUpdate = false → r.op ≠ 0 → r.res = .ok d → ∃ t, exec (.accessReply id (some ans)) s = .next t ∧
          t = { s with net := t.net } ∧ t.net.away = left ∧ t.req? a.ack = some { r with notices := 0, stage := .reply, since := s.now } ∧
          Posts s t (hopHome r.tile r.home) (.accessReply a.ack none)))) ∧
    (∀ n r d, n.home ≤ foreignHome → (s.slot n.slot).mc.ctxser ≠ n.ctx → s.req? n.ack = some r → r.id = n.ack → r.stage = .notices → r.source = none → r.kind.isUpdate = false →
      r.op ≠ 0 → r.res = .ok d → ∃ t, exec (.buoyNotice n) s = .next t ∧ quiet t ∧ t.cur = x ∧
        (r.notices = 1 → t.req? n.ack = some { r with notices := 0, stage := .reply, since := s.now } ∧
          ⟨s.now + hopHome r.tile r.home, .accessReply n.ack none⟩ ∈ t.net.pend) ∧
        (1 < r.notices → t.req? n.ack = some { r with notices := r.notices - 1 } ∧ (n.mode ≠ 2 → t.net.pend = s.net.pend))) ∧
    (∀ m : ReleaseMsg,
      let frees (home line : Nat) : Prop := ∃ t, exec (.releaseMessage m) s = .next t ∧ quiet t ∧ t.cur = x ∧ t.net = s.net ∧
        t.buoysOf home = (s.buoysOf home).filter (fun e => !(e.slot == m.slot && e.ctx == m.ctx && e.line == line && m.modes.testBit e.mode)) ∧
        ∀ k, k ≠ home → t.buoysOf k = s.buoysOf k
      (m.home < foreignHome → frees m.home m.line) ∧
      (foreignHome ≤ m.home → (∀ home line, s.foreignLine m.asid m.line = some (home, line) → frees home line) ∧
        (s.foreignLine m.asid m.line = none → exec (.releaseMessage m) s = .next s))) ∧
    (∀ home v ks, x.spec.commit = .holding → x.ops = [] → x.spec.toHold = (home, v) :: ks → 64 ≤ home →
      s.windowFault (home - 64) (v * 64) x.sc.asid true = none → s.poisoned home v = false →
      let held (h : LineHold) : Prop := h ∈ s.net.holds ∧ h.home = home ∧ h.line = v ∧ h.slot ≠ s.curId
      ((∀ h, ¬held h) → ∃ t, exec (.commitHold s.curId home v) s = .next t ∧ quiet t ∧
        t.net.holds = s.net.holds ++ [⟨home, v, v, s.curId, none, x.spec.mode == .glide, false⟩] ∧ t.cur = { x with spec := { x.spec with toHold := ks } } ∧
        (ks = [] → Posts s t 1 (.commitHold s.curId 0 0)) ∧ (∀ k l, ks = k :: l → Posts s t (hopHome s.myTile k.1) (.commitHold s.curId k.1 k.2))) ∧
      (∀ h, (s.net.holds.find? fun o => o.home == home && o.line == v && o.slot != s.curId) = some h → h.point = false → h.drain = false →
        s.olderThan h.slot s.curId = true → x.spec.mode = .tx → ∃ t, exec (.commitHold s.curId home v) s = .next t ∧ Aborted s t 1 0) ∧
      (∀ h, (s.net.holds.find? fun o => o.home == home && o.line == v && o.slot != s.curId) = some h → h.point = true →
        ∃ t, exec (.commitHold s.curId home v) s = .next t ∧ t = { s with net := t.net } ∧ Posts s t 1 (.commitHold s.curId home v))) ∧
    (x.spec.commit = .holding → x.ops = [] → x.spec.toHold = [] → ∀ c k, x.spec.undo = some (c, k) →
      (x.frame = none → x.spec.mode = .tx → ∃ t, exec (.commitHold s.curId 0 0) s = .next t ∧ Aborted s t c k) ∧
      (x.frame ≠ none → ∃ t, exec (.commitHold s.curId 0 0) s = .next t ∧ t = { s with net := t.net } ∧ Posts s t 1 (.commitHold s.curId 0 0))) ∧
    (∀ k ks, x.spec.commit = .holding → x.ops = [] → x.spec.toHold = [] → x.spec.undo = none → s.noticeComing = false → s.writeSet = k :: ks →
      ∃ t, exec (.commitHold s.curId 0 0) s = .next t ∧ quiet t ∧ t.cur.spec.commit = .applying ∧ t.cur.spec.toApply = k :: ks ∧ t.cur.regs = x.regs ∧
        (∀ h ∈ t.net.holds, h.slot = s.curId → h.point = true) ∧ ⟨s.now + 1, .commitApply s.curId k.1 k.2⟩ ∈ t.net.pend) ∧
    (∀ home v rest h b, x.spec.commit = .applying → x.spec.toApply = (home, v) :: rest → 64 ≤ home → s.mem.wf = true →
      (s.net.holds.find? fun o => o.slot == s.curId && o.home == home && o.vline == v) = some h →
      ((s.core (coreOf s.curId)).buf.filter fun l => l.slot == s.curId && l.home == home && l.vline == v) = [b] → 1 ≤ b.level → b.level ≤ 4 →
      b.data.length = 64 → b.mask < 2 ^ 64 → (∀ o ∈ s.net.holds, s.lossComing o.home o.line = false) →
      ∃ t, exec (.commitApply s.curId home v) s = .next t ∧ Wrote s t (sramByte (home - 64) (h.line * 64)) 64 b.mask b.data ∧ t.attrs.full = s.attrs.full ∧
        t.net.holds = s.net.holds.filter (· != h) ∧ t.cur = { x with spec := { x.spec with toApply := rest } } ∧
        ∀ l ∈ (t.core (coreOf s.curId)).buf, ¬(l.slot = s.curId ∧ l.home = home ∧ l.vline = v)) ∧
    (∀ home v rest h, x.spec.commit = .applying → x.spec.toApply = (home, v) :: rest → h ∈ s.net.holds → h.slot = s.curId → h.home = home → h.vline = v →
      s.lossComing h.home h.line = true →
      ∃ t, exec (.commitApply s.curId home v) s = .next t ∧ t = { s with net := t.net } ∧ Posts s t 1 (.commitApply s.curId home v)) ∧
    (x.spec.commit = .applying → x.spec.toApply = [] → x.spec.mode = .tx → x.frame = none → (∀ p ∈ s.net.pend, ∀ n, p.ev = .buoyNotice n → n.ack ≠ 2 ^ 60 + s.curId) →
      (∀ a ∈ s.net.away, a.ack ≠ 2 ^ 60 + s.curId) →
      ∃ t, exec (.commitApply s.curId 0 0) s = .next t ∧ quiet t ∧ t.cur.commits = x.commits + 1 ∧ t.cur.regs = x.regs ∧ t.cur.pc = x.step.pc ∧
        t.cur.u = { x.u with retired := x.u.retired + 1 } ∧ t.cur.spec.mode = .none ∧ t.cur.spec.commit = .none ∧ t.cur.hold = .none ∧
        ∀ h ∈ t.net.holds, h.slot ≠ s.curId) ∧
    (∀ l first n, l.away = none → s.launch? l.id.toNat = some l → l.st = .running → s.turnWindow l = some (first, n) →
      let at_ := first * 64 + l.turn
      let passed (t : State) : Prop := ∃ m, t.launch? l.id.toNat = some m ∧ m.turn = (if l.turn + 1 < n then l.turn + 1 else 0) ∧ m.turnSt = 0
      ((s.slot at_).status = .free → s.wl? l.h.wlid = none → ∃ t, exec (.chunkTurn l.id) s = .next t ∧ quiet t ∧ t.cur = x ∧ passed t ∧
        Posts s t 1 (.chunkTurn l.id)) ∧
      (at_ = s.curId → x.status = .ready → x.lkey = l.id.toNat → x.spec.mode = .chunk → x.spec.ended = true → x.ops = [] → x.hold = .none →
        s.noticeComing = false → s.writesHeld = false → l.turnSt = 0 →
        ((x.spec.dirty = true ∨ x.spec.lost = true) → ∀ c, x.spec.ckpt = some c → ∃ t, exec (.chunkTurn l.id) s = .next t ∧ quiet t ∧ t.cur.regs = c.regs ∧
          t.cur.pc = x.spec.restart ∧ t.cur.spec.mode = .chunk ∧ t.cur.spec.ended = false ∧ (∀ b ∈ (t.core (coreOf s.curId)).buf, b.slot ≠ s.curId) ∧
          ∃ m, t.launch? l.id.toNat = some m ∧ m.turn = l.turn ∧ m.turnSt = 1) ∧
        (x.spec.dirty = false → x.spec.lost = false → s.writeSet = [] → ∃ t, exec (.chunkTurn l.id) s = .next t ∧ quiet t ∧
          t.cur.spec.updates = x.spec.updates ∧ t.cur.regs = x.regs ∧ t.cur.pc = x.pc ∧ t.cur.commits = x.commits + 1 ∧ t.cur.spec.mode = .none ∧ t.cur.spec.ended = true ∧
          ∃ m, t.launch? l.id.toNat = some m ∧ m.turn = l.turn ∧ m.turnSt = (if s.pkg.chunkLimit ≤ x.spec.count then 4 else 3))) ∧
      (∀ op k p v us, at_ = s.curId → x.status = .ready → x.lkey = l.id.toNat → x.spec.mode = .none → (l.turnSt = 3 ∨ l.turnSt = 4) → s.turnWrites = false →
        x.spec.updates = (op, k, p, v) :: us → ∃ t q, exec (.chunkTurn l.id) s = .next t ∧ quiet t ∧ t.cur.spec.updates = us ∧ t.cur.regs = x.regs ∧
          t.req? q.id = some q ∧ s.net.nextId ≤ q.id ∧ q.op = 0 ∧ q.kind = .rupd op ∧ q.ptr = p ∧ q.n = k ∧ t.launch? l.id.toNat = some l))

/-! ### Events of worklists, launches and tasks (spec/07_worklists.md) -/

/-- R157 to R170, R179, R386, R387, Table 7.3: what a lamp, a reserve, the keeper and a tile dispatcher do with each message of a worklist that is open.
Lamps and tiles are numbered over the pod, and a message to another package's crosses.
The model's own choices in it: logs 2, 36, 42, 43, 44, 63, 88, 90, 91. -/
def Obligations.WorklistMessages : Prop :=
  ∀ (s : State) (wl lamp tile : Nat) (w : WorkList) (m : PushMsg) (o : PopMsg), s.wl? wl = some w → w.closed = false → m.wl = wl → o.wl = wl →
    lamp / 4 = s.pkg.podIndex.toNat →
    let own := s.pkg.podIndex.toNat
    let u := tile % 512
    let kl := w.keeperLamp
    let kt := w.ktile % 512
    let quiet (t : State) : Prop := t.cur = s.cur ∧ t.tasks = s.tasks ∧ t.slots = s.slots
    let list (t : State) (P : WorkList → Prop) : Prop := ∃ v, t.wl? wl = some v ∧ P v
    let heap (v : WorkList) (a : Nat) : List QItem := v.heap.getD [] a
    let before (p : Nat) (k : Option Nat) : Prop := ∀ c, k = some c → p < c
    let c := w.lampK.getD (none, 0) lamp
    let k := w.tileK.getD (none, 0) u
    let on : PushMsg := { m with path := m.path + (s.now - m.since), since := s.now }
    let op : PopMsg := { o with path := o.path + (s.now - o.since), since := s.now }
    let answered (t : State) (a : PushMsg) (status hop : Nat) : Prop := m.by_ ≠ .keeper → Sends s t wl w (m.tile / 512) hop (.pushAnswer a status)
    let counted (v : WorkList) (n : Nat) : Prop := v.pushes = if m.by_ = .keeper then w.pushes else w.pushes + BitVec.ofNat 64 n
    let down (t : State) (q : QItem) (hop : Nat) : Prop := Sends s t wl w w.home hop (.rpush ⟨wl, q, 0, w.ktile, .keeper, .demoted, none, 0, s.now⟩)
    let lowered (t : State) (p : Nat) : Prop := list t (fun v => v.k = some p ∧ v.v = w.v + 1) ∧
      (∀ d ∈ w.lamps, Sends s t wl w (d / 4) (hopDies (kl % 4) (d % 4)) (.demote d (some p) false none) ∧
        Sends s t wl w (d / 4) (hopDies (kl % 4) (d % 4)) (.cut true d (some p) (w.v + 1) none)) ∧
      ∀ a ∈ s.wlTiles w, ⟨s.now + hopDie a (kl % 4), .cut wl false (s.overPod a) (some p) ⟨w.v + 1, none⟩⟩ ∈ t.net.pend
    let s0 := s.stirWatch wl
    ((s.tile tile).asking.contains wl = false → ((s.tile tile).prefetched.filter fun p => p.1 == wl).length < 4 → (s.wlTiles w).contains tile = true →
      s.present wl ≠ 0 → s.serves w = true → (∀ l, s.launch? w.launch = some l → l.h.piste = false ∧
        (l.h.cosched = true ∨ l.h.persist = true → s.mayPrefetch tile wl w = true)) → ∃ t, exec (.prefetch tile wl) s = .next t ∧ quiet t ∧
        t.tile tile = { s.tile tile with asking := (s.tile tile).asking ++ [wl] } ∧ (let d := w.lampOf (own * 512 + tile)
          Sends s t wl w (d / 4) (hopDie ((own * 512 + tile) % 512) (d % 4)) (.pop d ⟨wl, 0, own * 512 + tile, .tile, 0, s.now⟩))) ∧
    -- FPUSH: the lamp takes it, sends it on to the keeper, or inserts what the keeper has placed
    (m.stage ≠ .placed → m.q.size = 1 → m.v = c.2 → (w.home = own → c.2 = w.v) → before m.q.pos c.1 → w.places ≠ 0 → s.hasEntry w lamp = true →
      ∃ t, exec (.fpush lamp m) s = .next t ∧ quiet t ∧ answered t on 0 (hopDie (m.tile % 512) (lamp % 4)) ∧ list t fun v =>
        v.part lamp = w.part lamp ++ [⟨m.q.first, none⟩] ∧ v.places = w.places - 1 ∧ counted v 1 ∧ v.k = w.k ∧ v.heap = w.heap) ∧
    (m.stage ≠ .placed → (m.v ≠ c.2 ∨ (w.home = own ∧ c.2 ≠ w.v) ∨ ¬before m.q.pos c.1 ∨ w.places = 0 ∨ m.q.size ≠ 1 ∨ s.hasEntry w lamp = false) →
      ∃ t, exec (.fpush lamp m) s = .next t ∧ quiet t ∧ Sends s t wl w w.home (hopDies (lamp % 4) (kl % 4)) (.fwd lamp on) ∧
        list t fun v => v.parts = w.parts ∧ v.places = w.places ∧ v.k = w.k ∧ v.heap = w.heap) ∧
    (m.stage = .placed → s.hasEntry w lamp = true → w.pull = none → ∃ t, exec (.fpush lamp m) s = .next t ∧
      answered t on 0 (hopDie (m.tile % 512) (lamp % 4)) ∧ (∀ r, w.home = own → w.op = some r → r.lamps = [] → r.calls = [] → r.loose = 1 →
        ∀ e ∈ r.next.toList ++ w.inbox, ⟨s.now, e⟩ ∈ t.net.pend) ∧ list t fun v =>
        v.part lamp = w.part lamp ++ [⟨m.q.first, none⟩] ∧ v.places = w.places ∧ v.answered = (if w.home = own then w.answered else w.answered + 1) ∧
        ∀ r, w.home = own → w.op = some r → v.op = if r.lamps = [] ∧ r.calls = [] ∧ r.loose = 1 then none else some { r with loose := r.loose - 1 }) ∧
    -- RPUSH: the reserve takes it, as a run where the heap is full; a new push again; the keeper tile; a demotion
    (m.stage = .new ∨ m.stage = .reserve → m.tile = tile → ¬before m.q.pos k.1 → (m.stage = .new → m.v = k.2) →
      (s0.heapRoom w u = true → ∃ t, exec (.rpush m) s = .next t ∧ quiet t ∧ answered t on 0 (hopTile u u) ∧ list t fun v =>
        counted v m.q.size ∧ v.parts = w.parts ∧ v.k = w.k ∧ (∀ q, q ∈ heap v u ↔ q = m.q ∨ q ∈ heap w u) ∧ ∀ a, a ≠ u → heap v a = heap w a) ∧
      (∀ slot r s', s0.heapRoom w u = false → s0.freeRun w u false = some slot →
        s0.vwrite u w.asid (w.runVa u slot) (runBytes ((insertItem (heap w u) m.q).take 64)) 0 = (.ok r, s') → s'.pkg.wls = s0.pkg.wls →
        ∃ t, exec (.rpush m) s = .next t ∧ t.mem = s'.mem ∧ list t fun v => counted v m.q.size ∧ heap v u = (insertItem (heap w u) m.q).drop 64 ∧
          v.nruns = w.nruns + 1 ∧ v.runs.getD [] u = w.runs.getD [] u ++
            [⟨slot, (insertItem (heap w u) m.q).take 64, ((insertItem (heap w u) m.q).take 64).length, none⟩]) ∧
      (s0.heapRoom w u = false → s0.freeRun w u false = none → ∃ t, exec (.rpush m) s = .next t ∧ quiet t ∧
        (w.ktile = own * 512 + u → answered t on 1 (hopTile u u)) ∧
        (w.ktile ≠ own * 512 + u → Sends s t wl w w.home (hopTile u kt) (.rpush { on with stage := .spill })))) ∧
    (m.stage = .new → m.tile = tile → before m.q.pos k.1 ∨ m.v ≠ k.2 → ∃ t, exec (.rpush m) s = .next t ∧ quiet t ∧
      (before m.q.pos k.1 → let d := w.lampOf tile; Sends s t wl w (d / 4) (hopDie u (d % 4)) (.fpush d { on with v := k.2 })) ∧
      (¬before m.q.pos k.1 → ⟨s.now + hopTile u u, .rpush { on with v := k.2 }⟩ ∈ t.net.pend)) ∧
    (m.stage = .demoted → m.tile = tile → s.heapRoom w u = true → ∃ t, exec (.rpush m) s = .next t ∧ quiet t ∧
      ⟨s.now + hopDie u (kl % 4), .pushAnswer on 0⟩ ∈ t.net.pend ∧ list t fun v => v.parts = w.parts ∧ ∀ q, q ∈ heap v u ↔ q = m.q ∨ q ∈ heap w u) ∧
    -- FWD: the keeper, one message at a time
    (m.stage ≠ .placed → w.op ≠ none → ∃ t, exec (.fwd lamp m) s = .next t ∧ quiet t ∧ t.net = s.net ∧
      list t fun v => v = { w with inbox := if w.inbox.contains (.fwd lamp on) then w.inbox else w.inbox ++ [.fwd lamp on] }) ∧
    (m.stage = .new → w.op = none → ¬before m.q.pos w.k → ∃ t, exec (.fwd lamp m) s = .next t ∧ quiet t ∧
      Sends s t wl w (m.tile / 512) (hopDie (m.tile % 512) (kl % 4)) (.rpush { on with stage := .reserve })) ∧
    (m.stage = .new → w.op = none → before m.q.pos w.k → w.places ≠ 0 → ∃ t at_ alt, exec (.fwd lamp m) s = .next t ∧ quiet t ∧
      (s.hasEntry w lamp = true → at_ = lamp) ∧ (s.hasEntry w lamp = false → at_ = alt) ∧ (∀ d, m.alt = some d → alt = d) ∧ (m.alt = none → alt = w.roomiest fun _ => 0) ∧
      (m.q.size ≤ 1 → Sends s t wl w (at_ / 4) (hopDies (kl % 4) (at_ % 4)) (.fpush at_ { on with q := m.q.first, stage := .placed, alt := some alt }) ∧
        list t fun v => v.places = w.places - 1 ∧ v.pushes = w.pushes ∧ (at_ / 4 = own → v.op = some ⟨[], [], 1, none⟩)) ∧
      (1 < m.q.size →
        Sends s t wl w (at_ / 4) (hopDies (kl % 4) (at_ % 4)) (.fpush at_ { on with q := m.q.first, by_ := .keeper, stage := .placed, alt := some alt }) ∧
        list t fun v => v.places = w.places - 1 ∧ v.pushes = w.pushes + 1 ∧ ∀ r, m.q.rest = some r → at_ / 4 = own →
          v.op = some ⟨[], [], 1, some (.fwd lamp { on with q := r, stage := .rest })⟩)) ∧
    (∀ x, m.stage = .new → m.q.size ≤ 1 → w.op = none → before m.q.pos w.k → w.places = 0 → w.lends = false → w.lastFront = some x →
      ∃ t, exec (.fwd lamp m) s = .next t ∧ quiet t ∧ (x.pos < m.q.pos → lowered t m.q.pos ∧ down t m.q.first (hopDie kt (kl % 4))) ∧
        (m.q.pos ≤ x.pos → lowered t x.pos ∧ list t fun v => ∃ r, v.op = some r ∧ r.next = some (.fwd lamp { on with alt := some x.lamp }))) ∧
    (m.stage = .rest → w.op = none →
      (¬before m.q.pos w.k → ∃ t, exec (.fwd lamp m) s = .next t ∧ quiet t ∧ down t m.q (hopDie kt (kl % 4)) ∧
        list t fun v => v.k = w.k ∧ v.op = some ⟨[], [], 1, some (.fwd lamp { on with stage := .kept })⟩) ∧
      (before m.q.pos w.k → w.lends = false → (∀ i ∈ w.live, i.pos < m.q.pos) →
        ∃ t, exec (.fwd lamp m) s = .next t ∧ quiet t ∧ lowered t m.q.pos ∧ down t m.q (hopDie kt (kl % 4))) ∧
      (before m.q.pos w.k → w.lends = false → (∃ i ∈ w.live, m.q.pos ≤ i.pos) → ∃ t, exec (.fwd lamp m) s = .next t ∧ quiet t ∧ lowered t m.q.pos)) ∧
    (m.stage = .kept → w.op = none → ∃ t, exec (.fwd lamp m) s = .next t ∧ quiet t ∧ answered t on 0 (hopDie (m.tile % 512) (kl % 4)) ∧
      list t fun v => counted v m.q.size) ∧
    -- HEAD, LOW, PULL, RITEM, PACK
    (∀ pos, ∃ t, exec (.head wl tile pos) s = .next t ∧ quiet t ∧ t.net = s.net ∧ list t fun v => v = { w with heads := w.heads.set tile pos }) ∧
    (let heads := w.heads.filterMap (·.2)
     let p : Pull := ⟨(heads.mergeSort fun a b => decide (a ≤ b))[1]?, w.places, w.v,
       (s.wlTiles w).map s.overPod ++ (w.pkgs.filter (· != own)).map (· * 512), none, none, 0⟩
     w.pull = none → w.op = none → w.lends = false → heads ≠ [] → ∃ t, exec (.low wl lamp) s = .next t ∧ quiet t ∧ list t (fun v => v = { w with pull := some p }) ∧
        (∀ a ∈ s.wlTiles w, ⟨s.now + hopDie a (kl % 4), .pull wl (s.overPod a) p.kn p.m w.v⟩ ∈ t.net.pend) ∧
        ∀ a ∈ w.pkgs, a ≠ own → Sends s t wl w a 0 (.pull (a * 512) p.kn p.m w.v)) ∧
    (w.op ≠ none → ∃ t, exec (.low wl lamp) s = .next t ∧ quiet t ∧ t.net = s.net ∧
      list t fun v => v = { w with inbox := if w.inbox.contains (.low wl lamp) then w.inbox else w.inbox ++ [.low wl lamp] }) ∧
    (∀ kn n v, n ≠ 0 → (∀ q ∈ w.reserve u, ¬before q.pos kn) → ∃ t, exec (.pull wl tile kn n v) s = .next t ∧ quiet t ∧
      list t (fun x => x = { w with tileK := w.tileK.set u (kn, v) }) ∧ ⟨s.now + hopDie u (kl % 4), .pack wl tile ⟨none, 0⟩⟩ ∈ t.net.pend) ∧
    (∀ kn n v q, n ≠ 0 → heap w u = [q] → w.runs.getD [] u = [] → q.size = 1 → before q.pos kn → ∃ t, exec (.pull wl tile kn n v) s = .next t ∧ quiet t ∧
      list t (fun x => heap x u = [] ∧ x.tileK.getD (none, 0) u = (kn, v)) ∧
      (w.home = own → let d := s.freest wl w; Sends s t wl w (d / 4) (hopDie u (d % 4)) (.ritem d q.first v)) ∧
      (w.home ≠ own → Sends s t wl w w.home 0 (.ritem 1024 q.first v)) ∧ ⟨s.now + hopDie u (kl % 4), .pack wl tile ⟨none, 1⟩⟩ ∈ t.net.pend) ∧
    (∀ kn n v q r, n ≠ 0 → w.headOf u = some q → before q.pos kn → w.runWith u q.pos = some r → r.wait ≠ none → ∃ t, exec (.pull wl tile kn n v) s = .next t ∧
      t = { s with net := t.net } ∧ Posts s t 16 (.pull wl tile kn n v)) ∧
    (∀ q v, lamp ≠ 1024 → (∀ p, w.pull = some p → p.left ≠ []) → ∃ t, exec (.ritem wl lamp ⟨q, v⟩) s = .next t ∧ quiet t ∧
      list t fun x => x.part lamp = w.part lamp ++ [⟨q, some v⟩] ∧ x.k = w.k ∧ x.heap = w.heap) ∧
    (∀ p cap n, w.home = own → w.pull = some p → (∃ a ∈ p.left, a ≠ tile) → ∃ t, exec (.pack wl tile ⟨cap, n⟩) s = .next t ∧ quiet t ∧ t.net = s.net ∧
      list t fun v => v = { w with pull := some { p with left := p.left.filter (· != tile), cap := minK p.cap cap, sent := p.sent + n } }) ∧
    (∀ p cap n, w.home = own → w.op = none → w.pull = some p → (∀ a ∈ p.left, a = tile) → (w.known.filter (·.waits)).length = p.sent + n →
      let k0 := minK (minK p.kn (minK p.cap cap)) p.low
      w.known.length ≤ w.rho + 1 → (∀ i ∈ w.known, before i.pos k0) → ∃ t, exec (.pack wl tile ⟨cap, n⟩) s = .next t ∧ quiet t ∧
        list t (fun v => v.pull = none ∧ v.k = k0 ∧ v.v = w.v + 1 ∧ v.parts = w.parts ∧ v.places = w.places - (w.known.filter (·.waits)).length) ∧
        (∀ d ∈ w.lamps, Sends s t wl w (d / 4) (hopDies (kl % 4) (d % 4)) (.cut true d k0 (w.v + 1) (some p.v))) ∧
        ∀ a ∈ s.wlTiles w, ⟨s.now + hopDie a (kl % 4), .cut wl false (s.overPod a) k0 ⟨w.v + 1, (some p.v)⟩⟩ ∈ t.net.pend) ∧
    -- DEMOTE and CUT
    (∀ kd ends late, (w.part lamp).filter (fun f => !ahead f.q.pos kd && (f.pull.isNone || ends)) = late → ∃ t, exec (.demote wl lamp ⟨kd, ends, none⟩) s = .next t ∧
      quiet t ∧ (∀ f ∈ late, down t f.q (hopDie kt (lamp % 4))) ∧
      (w.home = own → ⟨s.now + hopDies (lamp % 4) (kl % 4), .demote wl lamp ⟨kd, ends, some late.length⟩⟩ ∈ t.net.pend) ∧
      list t fun v => (∀ f, f ∈ v.part lamp ↔ f ∈ w.part lamp ∧ ∀ e ∈ late, f.q.pos ≠ e.q.pos) ∧ v.demotes = w.demotes + BitVec.ofNat 32 late.length ∧
        (w.home = own → v.places = w.places + (late.filter (·.pull.isNone)).length) ∧
        (w.home ≠ own → v.gave = w.gave + (late.filter (·.pull.isNone)).length ∧ v.answered = w.answered + 1)) ∧
    (∀ kd ends (n : Nat) r, w.op = some r → w.pull = none →
      let r' : KeeperOp := { r with lamps := r.lamps.erase lamp, loose := r.loose + n }
      let done_ : Prop := r'.lamps = [] ∧ r'.calls = [] ∧ r'.loose = 0
      ∃ t, exec (.demote wl lamp ⟨kd, ends, some n⟩) s = .next t ∧ quiet t ∧ (done_ → list t (fun v => v = { w with op := none, inbox := [] }) ∧
        ∀ e ∈ r.next.toList ++ w.inbox, ⟨s.now, e⟩ ∈ t.net.pend) ∧ (¬done_ → t.net = s.net ∧ list t fun v => v = { w with op := some r' })) ∧
    (∀ kc v ends, (∃ t, exec (.cut wl true lamp kc ⟨v, ends⟩) s = .next t ∧ quiet t ∧ list t fun x =>
        x.part lamp = (w.part lamp).map (fun f => if ends ≠ none ∧ f.pull = ends then { f with pull := none } else f) ∧ (∀ d, d ≠ lamp → x.part d = w.part d) ∧
        x.k = w.k ∧ x.lampK = if c.2 < v then w.lampK.set lamp (kc, v) else w.lampK) ∧
      ∃ t, exec (.cut wl false tile kc ⟨v, ends⟩) s = .next t ∧ quiet t ∧ t.net = s.net ∧ list t fun x => x = { w with
        tileK := if k.2 < v then w.tileK.set u (kc, v) else w.tileK }) ∧
    -- POP
    (∀ q, s.serves w = true → ⟨q, none⟩ ∈ w.part lamp → (∀ f ∈ w.part lamp, f.pull = none → f.q ≠ q → q.pos < f.q.pos) → ∃ t, exec (.pop lamp o) s = .next t ∧
      Sends s t wl w (o.tile / 512) (hopDie (o.tile % 512) (lamp % 4)) (.popReply op (.item q)) ∧ (o.tile / 512 = own → quiet t ∧ list t fun v =>
        let mine := ((w.front.filter fun f => f.pull.isNone).filter fun f => decide (f.q.pos < q.pos)).length
        let others := w.live.length - (w.front.filter fun f => f.pull.isNone).length
        v.part lamp = (w.part lamp).filter (fun f => f.q.pos != q.pos) ∧ v.pops = w.pops + 1 ∧ v.lastPop = s.now ∧
        (w.home = own → v.places = w.places + 1 ∧ v.worst = Nat.max w.worst (mine + others) ∧ v.xpkg = (w.xpkg || decide (others ≠ 0))) ∧
        (w.home ≠ own → v.gave = w.gave + 1 ∧ v.before = w.before ++ [mine]))) ∧
    ((s.serves w = false ∨ ∀ f ∈ w.part lamp, f.pull ≠ none) → (o.visited + 1 < w.lamps.length →
        ∃ t, exec (.pop lamp o) s = .next t ∧ t = { s with net := t.net } ∧
          Sends s t wl w (w.nextLamp lamp / 4) (hopDies (lamp % 4) (w.nextLamp lamp % 4)) (.pop (w.nextLamp lamp) { op with visited := o.visited + 1 })) ∧
      (w.lamps.length ≤ o.visited + 1 → ∃ t, exec (.pop lamp o) s = .next t ∧ quiet t ∧
        Sends s t wl w (o.tile / 512) (hopDie (o.tile % 512) (lamp % 4)) (.popReply op .empty) ∧
        Sends s t wl w w.home (hopDies (lamp % 4) (kl % 4)) (.low lamp))) ∧
    (∀ tid slot ctx opId, slot = s.curId → o.by_ = .task tid slot ctx opId → s.cur.mc.ctxser = ctx → s.cur.u.tid = tid → s.cur.status = .ready →
      (s.serves w = false ∨ s.poppable w = 0) → ∃ t, exec (.popReply o .empty) s = .next t ∧ t.cur = { s.cur with status := .blocked (.worklist wl) } ∧
        t.net = s.net ∧ list t fun v => v = { w with waiters := w.waiters ++ [op] })

/-- R20, R22, R23, R78, R80, R81, R83, R364: dispatch, refill, the arrival of a migrating task, eviction and its completion, delivery of a user event, and the
end of an ALIGN.
The model's own choices in it: logs 2, 11, 50, 52, 53, 94. -/
def Obligations.TaskEvents : Prop :=
  ∀ (s : State) (slot : Nat) (l : Launch),
    let tile := tileOf slot
    let y := s.slot slot
    let quiet (t : State) : Prop := t.mem = s.mem ∧ t.attrs = s.attrs
    let x := s.cur
    let fits : Prop := s.launch? l.key = some l ∧ s.slotFits slot l = true ∧ (l.binds = true → s.reservedTo slot = some l.key)
    let again (z : Slot) (r : SaveRec) : Prop := z.status = .ready ∧ z.level = .u ∧ z.pc = r.slot.pc ∧ z.regs = r.slot.regs ∧
      z.u = { r.slot.u with codeb := l.h.codeb, codel := l.h.codel, launch := l.id } ∧ z.skip = r.slot.skip ∧ z.mc.ctxser = y.mc.ctxser + 1 ∧ z.ops = [] ∧
      z.lkey = l.key ∧ z.sc.asid = l.h.asid ∧ z.sc.piste = l.h.piste ∧ z.rmask = 0xFF
    (∀ wl w q, fits → (s.tile tile).prefetched = [(wl, q)] → (s.tile tile).recs = [] → s.net.moving = [] → s.wl? wl = some w → w.launch = l.key → wl < 1024 →
      l.st.final = false → l.h.consumer = false → q.item.flags = 0 → q.item.count = 0 → ∃ t, exec (.dispatch slot) s = .next t ∧ quiet t ∧
        let z := t.slot slot
        let tid : W64 := s.slotIdent slot ++ y.serial
        z.status = .ready ∧ z.level = .u ∧ z.pc = (l.entries.getD q.item.entry.toNat 0).extractLsb' 0 48 ∧
        (∀ r, z.readG r = if r = 1 then q.item.work else if r = 2 then q.item.key.setWidth 64 else 0) ∧ (∀ r, z.readV r = .replicate 16 0) ∧
        (∀ r, z.readP r = if r = 0 then 0xFFFF else 0) ∧
        z.u = { UCsr.reset with
          wid := q.item.work, widf := l.h.widf, ikey := q.item.key, iarg := q.item.entry ++ q.item.flags ++ q.item.count, tid := tid, launch := l.id
          seed := l.h.seed, ctrb := l.h.ctrb, codeb := l.h.codeb, codel := l.h.codel } ∧
        z.lkey = l.key ∧ z.serial = y.serial + 1 ∧ z.mc.ctxser = y.mc.ctxser + 1 ∧ z.sc.asid = l.h.asid ∧ z.sc.piste = l.h.piste ∧
        (t.task tid).place = .slot slot ∧ (t.task tid).launch = l.key ∧ (t.task tid).held.getD 0 none = some ⟨wl, q⟩ ∧ (t.tile tile).prefetched = [] ∧
        ∃ m, t.launch? l.key = some m ∧ m.dispatched = l.dispatched + 1 ∧ m.alive = l.alive + 1) ∧
    (∀ ix r, fits → (s.tile tile).recs = [(ix, r)] → s.net.moving = [] → r.ready = true → r.done = true → r.slot.lkey = l.key → r.slot.fails = [] →
      ∃ t, exec (.refill slot) s = .next t ∧ quiet t ∧ again (t.slot slot) r ∧ (t.task r.tid).place = .slot slot ∧ (t.tile tile).recs = []) ∧
    (∀ m, fits → slot = tile * 64 → s.net.moving = [m] → m.tile = tile → m.task.slot.lkey = l.key → m.task.slot.fails = [] →
      ∃ t, exec (.migrationArrival m.tid tile) s = .next t ∧ quiet t ∧ again (t.slot slot) m.task ∧ (t.task m.task.tid).place = .slot slot ∧ t.net.moving = []) ∧
    (slot = s.curId → x.leaving = true → x.status = .ready → x.level = .u → x.frame = none → x.hold = .none → x.spec = Spec.none → x.ops = [] → x.rsv = none →
      (∀ k, k < 64 → (s.slot (s.myTile * 64 + k)).status ≠ .saving) → (s.tile tile).recs = [] → ∃ t, exec (.eviction slot) s = .next t ∧ quiet t ∧ t.cur.status = .saving ∧ (t.task x.u.tid).place = .saved tile 0 ∧
        (∃ r, (t.tile tile).recs = [(0, r)] ∧ r.tid = x.u.tid ∧ r.from_ = slot ∧ r.ctx = x.mc.ctxser ∧ r.done = false ∧ r.ready = true ∧ r.slot.regs = x.regs ∧
          r.slot.pc = x.pc ∧ r.slot.u = x.u) ∧ ⟨s.now + 40, .saveComplete slot⟩ ∈ t.net.pend) ∧
    (slot = s.curId → (x.leaving = false ∨ x.level ≠ .u ∨ x.frame ≠ none ∨ x.spec.commit ≠ .none ∨
      ∃ k, k < 64 ∧ (s.slot (s.myTile * 64 + k)).status = .saving) → exec (.eviction slot) s = .next s) ∧
    (slot = s.curId → x.status = .saving → ∃ t, exec (.saveComplete slot) s = .next t ∧ t.attrs = s.attrs ∧ t.cur.status = .free ∧ t.cur.mc = x.mc ∧
      (t.tile tile).recs = (s.tile tile).recs.map (fun e => (e.1, if e.2.from_ == slot && e.2.ctx == x.mc.ctxser then { e.2 with done := true } else e.2)) ∧
      (∀ ix z q n, s.mem.wf = true → s.tiles = [(tile, z)] → z.recs = [(ix, q)] → q.from_ = slot → q.ctx = x.mc.ctxser → n < 2560 →
        t.mem.read (sramByte tile (0x3A8000 + 2560 * ix) + n) = (q.slot.image q.line).getD n 0) ∧
      ∃ p ∈ t.net.pend, p.ev = .dispatch slot) ∧
    (∀ k, slot = s.curId → k < 3 → x.atUserEvent = true → s.pkg.halted = false → x.u.uemask.getLsbD 0 = true → x.u.uepend.getLsbD k = true →
      x.u.uemask.getLsbD (k + 1) = true → (∀ j, j < k → (x.u.uepend.getLsbD j && x.u.uemask.getLsbD (j + 1)) = false) →
      ∃ t, exec (.userEventDelivery slot) s = .next t ∧ t = { s with cur := t.cur } ∧ t.cur.pc = x.u.uevec ∧ t.cur.regs = x.regs ∧ t.cur.level = x.level ∧
        t.cur.u = { x.u with
          uepc := x.pc, active := true, uekind := BitVec.ofNat 4 (k + 1), uetag := x.u.uetags.getD k 0, uepend := x.u.uepend &&& ~~~(BitVec.ofNat 3 (2 ^ k)) }) ∧
    (x.level ≠ .u ∨ x.u.active = true ∨ x.frame ≠ none ∨ x.ops ≠ [] → exec (.userEventDelivery s.curId) s = .next s) ∧
    (∀ core stamp h, (s.core core).align = some h → h.since = stamp → ∃ t, exec (.alignTimeout core stamp) s = .next t ∧ t = { s with cores := t.cores } ∧
      ∀ c, c / 8 = core / 8 → (t.core c).align = ((s.core c).align.bind fun o => if o.pc = h.pc then none else some o))

/-- R169, R173 to R178, R184, R185, R235, R237: a launch starts and pushes its ranges one after another, is admitted, its record is written, and worklists
freeze; when a package leaves the pod, its watchers go with it.
The model's own choices in it: logs 2, 5, 35, 42, 69, 92. -/
def Obligations.LaunchEvents : Prop :=
  ∀ (s : State) (l : Launch),
    let own := s.pkg.podIndex.toNat
    let quiet (t : State) : Prop := t.mem = s.mem ∧ t.attrs = s.attrs
    let now_ (t : State) (P : Launch → Prop) : Prop := ∃ m, t.launch? l.key = some m ∧ P m
    let tile := own * 512 + l.pushTile
    let alone : Prop := ∀ k, l.creator = some k → s.pushing k = false ∧ s.rangesOut k = false
    let ranges (w : WorkList) (n : Nat) (t : State) : Prop := now_ t (fun m => m.st = .running ∧ m.h = l.h ∧ m.ranging = true ∧ m.lseq = n + 1) ∧
      ∃ m, Sends s t l.h.wlid w (w.lampOf tile / 4) (hopDie (tile % 512) (w.lampOf tile % 4)) (.fpush (w.lampOf tile) m) ∧ m.wl = l.h.wlid ∧
        m.by_ = .launch l.id ∧ m.stage = .new ∧ m.q.item.key = l.h.lkey ∧ m.q.item.entry = 0 ∧ m.q.item.flags = 1 ∧
        m.q.item.count = BitVec.ofNat 16 (Nat.min 65536 (l.h.ntask.toNat - 65536 * n) - 1) ∧ m.q.item.work = l.h.firstid + BitVec.ofNat 64 (65536 * n)
    s.launch? l.key = some l →
    (l.away = none →
      (∀ w, s.wl? l.h.wlid = some w → (w.tileK.getD (none, 0) (tile % 512)).1 = none → l.ranging = false → alone →
        (l.st = .waiting → l.h.preds = [] → l.h.cosched = false → l.h.persist = false → l.h.piste = false → s.recordsFull l.h.asid = false →
          l.h.ntask ≠ 0 → ∃ t, exec (.launchStart l.id) s = .next t ∧ quiet t ∧ now_ t (fun m => m.start = s.now) ∧ ranges w 0 t) ∧
        (l.st = .running → l.pushed = false → 65536 * l.lseq < l.h.ntask.toNat →
          ∃ t, exec (.launchStart l.id) s = .next t ∧ quiet t ∧ ranges w l.lseq t)) ∧
      (l.st = .running → l.pushed = false → l.ranging = false → l.h.ntask.toNat ≤ 65536 * l.lseq →
        ∃ t, exec (.launchStart l.id) s = .next t ∧ quiet t ∧ now_ t fun m => m.pushed = true) ∧
      (l.st = .waiting → l.h.preds = [] → l.h.cosched = false → l.h.persist = false → s.recordsFull l.h.asid = false → l.h.ntask = 0 →
        ∃ t, exec (.launchStart l.id) s = .next t ∧ quiet t ∧ now_ t fun m => m.st = .completed ∧ m.reason = 0 ∧ m.fin = s.now) ∧
      ((l.st ≠ .waiting ∧ (l.st ≠ .running ∨ l.pushed = true)) ∨ (l.st = .waiting ∧ s.predsReady l.h = false) → exec (.launchStart l.id) s = .next s) ∧
      (l.st = .waiting → l.admitted = false → s.predsReady l.h = true →
        let room : Prop := l.h.ntask.toNat ≤ (s.freeSlots l.h.asid).length ∧ s.barsFree (l.h.instances l.id) = true
        (¬room → ∃ t, exec (.coschedAdmission l.id) s = .next t ∧ t = { s with net := t.net } ∧ Posts s t 64 (.coschedAdmission l.id)) ∧
        (room → ∃ t, exec (.coschedAdmission l.id) s = .next t ∧ quiet t ∧ now_ t (fun m => m = { l with admitted := true }) ∧
          Posts s t 1 (.launchStart l.id) ∧ (∀ k ∈ (s.freeSlots l.h.asid).take l.h.ntask.toNat, (t.tile (tileOf k)).reserved.get? (k % 64) = some l.key) ∧
          ∀ b ∈ l.h.instances l.id, ((l.h.instances l.id).map (·.key)).Nodup → b ∈ (t.die (t.barDie b.key)).bars)) ∧
      (∀ c rest, s.ctx? l.h.asid = some c → c.waiting = l.id :: rest → c.recWait = none → c.rseq < c.tail + 2 ^ c.ringLogn → rest.length < 255 →
        (∀ r ∈ s.host.sent, r.why ≠ .record l.h.asid) → l.regions = [] → ∃ t, exec (.launchRecordWrite l.h.asid) s = .next t ∧ quiet t ∧
          now_ t (fun m => m = { l with recorded := true }) ∧ (∃ r, t.host.sent = s.host.sent ++ [r] ∧ r.why = .record l.h.asid ∧ r.key = c.ringKey ∧
            r.addr = c.ringAddr + BitVec.ofNat 64 (128 * (c.rseq % 2 ^ c.ringLogn)) ∧ r.bytes.length = 128) ∧
          ∃ d, t.ctx? l.h.asid = some d ∧ d.waiting = rest ∧ d.rseq = c.rseq + 1 ∧ d.tail = c.tail) ∧
      (∀ w, s.wl? l.h.wlid = some w → w.launch = l.key → w.home = own → w.closed = false → s.present l.h.wlid ≠ 0 → s.pkg.wlwdog ≠ 0 →
        (s.now < w.lastPop + s.pkg.wlwdog.toNat * 2400 → ∃ t, exec (.wlwdogExpiry l.h.wlid) s = .next t ∧ t = { s with net := t.net } ∧
          Posts s t (w.lastPop + s.pkg.wlwdog.toNat * 2400 - s.now) (.wlwdogExpiry l.h.wlid)) ∧
        (w.lastPop + s.pkg.wlwdog.toNat * 2400 ≤ s.now → l.st.final = false → ∃ t, exec (.wlwdogExpiry l.h.wlid) s = .next t ∧ quiet t ∧
          now_ t (fun m => m.st = .hung ∧ m.reason = 2 ∧ m.fin = s.now) ∧
          ∃ v, t.wl? l.h.wlid = some v ∧ v.closed = true ∧ v.parts = [] ∧ v.heap = [] ∧ v.runs = [])) ∧
      (∀ w pkg, s.pkg.wls = [(l.h.wlid, w)] → w.launch = l.key → w.home = own → w.closed = false → pkg ∈ w.pkgs → 1 < w.pkgs.length → l.st.final = false →
        ∃ t, exec (.packageLeavesPod pkg) s = .next t ∧ quiet t ∧ now_ t (fun m => m.st = .faulted ∧ m.reason = 4 ∧ m.fin = s.now))) ∧
    (∀ w pkg, s.pkg.wls = [(l.h.wlid, w)] → w.launch = l.key → w.home = pkg → pkg ≠ own → w.closed = false → pkg ∈ w.pkgs → 1 < w.pkgs.length →
      l.st.final = false → ∃ t, exec (.packageLeavesPod pkg) s = .next t ∧ quiet t ∧ now_ t (fun m => m.st = .cancelled) ∧
        ∃ v, t.wl? l.h.wlid = some v ∧ v.closed = true ∧ v.parts = [] ∧ v.heap = [] ∧ v.runs = []) ∧
    (∀ c asid, s.ctx? asid = some c → (c.waiting = [] ∨ c.tail + 2 ^ c.ringLogn ≤ c.rseq) → exec (.launchRecordWrite asid) s = .next s) ∧
    (∀ pkg, s.pkg.openings = [] → (∀ e ∈ s.pkg.wls, e.2.closed = true ∨ pkg ∉ e.2.pkgs ∨ e.2.pkgs.length ≤ 1) →
      (∀ a ∈ s.net.away, a.pkg ≠ pkg) → ∃ t, exec (.packageLeavesPod pkg) s = .next t ∧ t = { s with homes := t.homes, tiles := t.tiles } ∧
        (∀ home, t.buoysOf home = (s.buoysOf home).filter fun b => b.slot / 32768 != pkg + 1) ∧
        (∀ k, t.home k = { s.home k with buoys := (t.home k).buoys }) ∧ ∀ k, t.tile k = { s.tile k with buoys := (t.tile k).buoys }) ∧
    (∀ pkg, ∃ t, exec (.packageLeavesPod pkg) s = .next t ∧ (∀ home, ∀ b ∈ t.buoysOf home, b.slot / 32768 ≠ pkg + 1) ∧ ∀ a ∈ t.net.away, a.pkg ≠ pkg)

/-- R194, R195, R222 to R224, R334 to R336, Table 8.4: the barrier instructions at package barriers, ids 16 to 31; arrivals at a barrier home; completions at
a tile; and what reaches the ends of a channel.
The model's own choices in it: logs 2, 77. -/
def Obligations.BarriersAndChannelEvents : Prop :=
  ∀ (s : State) (id : BitVec 5) (d b : RegNo), 16 ≤ id.toNat →
    let x := s.cur
    let tid := x.u.tid
    let key := s.barKey x id
    let die := s.barDie key
    let inst (t : State) (k : BarKey) : Option BarInst := t.barInst k
    let far := 2 * hopDie s.myTile die
    let quiet (t : State) : Prop := t.mem = s.mem ∧ t.attrs = s.attrs
    let told (t : State) (k : BarKey) (ph : Bool) : Prop := ∀ e ∈ s.tiles, (∃ w ∈ e.2.windows, w.asid = k.asid) →
      ⟨s.now + hopDie e.1 (s.barDie k), .barrierCompletion e.1 (.pkg k) ph⟩ ∈ t.net.pend
    let reads (t : State) (v : Nat) : Prop := Posts s t far (.controlReply s.curId x.mc.ctxser (BitVec.ofNat 64 v))
    let back (t : State) (v : Nat) : Prop := ⟨s.now + 2 * hopDie s.myTile (s.barDie ⟨x.sc.asid, id, 0⟩), .controlReply s.curId x.mc.ctxser (BitVec.ofNat 64 v)⟩ ∈ t.net.pend
    let arrived := if ((s.task tid).arrival id).isSome then 2 ^ 51 else 0
    let v := (s.cur.readG b).toNat
    let own : BarKey := ⟨x.sc.asid, id, 0⟩
    (Released s .pkg → Completes (.bara id) s fun t => Confined s t ∧ Waiting (.bara id) x t.cur (.answer 0) ∧ t.tasks = s.tasks ∧
      Posts s t (hopDie s.myTile die) (.packageBarrierArrival s.curId x.mc.ctxser key)) ∧
    (∀ ph, (s.task tid).arrival id = some ph →
      let done (i : Instr) : Prop := Completes i s fun t => Passed x t.cur ∧ Confined s t ∧ (t.task tid).arrival id = none ∧ t.net = s.net
      (inst s key = none ∨ (∃ k, inst s key = some k ∧ k.phase ≠ ph) → done (.barw id) ∧ done (.barg id)) ∧
      (∀ k, inst s key = some k → k.phase = ph → Completes (.barw id) s fun t => OnlySlot s t ∧ t.cur.status = .blocked (.barrier id.toNat) ∧ t.cur.pc = x.pc ∧
        t.cur.regs = x.regs ∧ t.cur.u = { x.u with retired := x.u.retired + 1, turns := x.u.turns + 1 })) ∧
    (inst s key = none → Completes (.barq d id) s fun t => Confined s t ∧ Waiting (.barq d id) x t.cur (.answer 0) ∧ reads t 0) ∧
    (∀ k, inst s key = some k → Completes (.barq d id) s fun t => Confined s t ∧ Waiting (.barq d id) x t.cur (.answer 0) ∧
      reads t (k.count + k.expect * 2 ^ 25 + (if k.phase then 2 ^ 50 else 0) + arrived)) ∧
    (2 ^ 24 < v → Completes (.barset id b) s fun t => Waiting (.barset id b) x t.cur (.answer 0) ∧ t.dies = s.dies ∧ back t 2) ∧
    (v ≤ 2 ^ 24 → v ≠ 0 → inst s own = none → (s.die (s.barDie own)).bars.length < 1024 → Completes (.barset id b) s fun t =>
      Waiting (.barset id b) x t.cur (.answer 0) ∧ inst t own = some ⟨own, v, 0, false⟩ ∧ back t 0) ∧
    (v ≤ 2 ^ 24 → v ≠ 0 → ∀ k, inst s own = some k → Completes (.barset id b) s fun t => Waiting (.barset id b) x t.cur (.answer 0) ∧ back t 0 ∧
      (k.count < v → inst t own = some { k with expect := v }) ∧
      (v ≤ k.count → inst t own = some { k with expect := v, count := 0, phase := !k.phase } ∧ told t own k.phase)) ∧
    (v = 0 → ∀ k, inst s own = some k → Completes (.barset id b) s fun t => Waiting (.barset id b) x t.cur (.answer 0) ∧ back t 0 ∧ inst t own = none ∧
      told t own k.phase) ∧
    (∀ slot ctx k, let home := hopDie (tileOf slot) (s.barDie k)
      (inst s k = none → ∃ t, exec (.packageBarrierArrival slot ctx k) s = .next t ∧ t = { s with net := t.net } ∧
        Posts s t home (.barrierArrivalReply slot ctx k.id.toNat none)) ∧
      (∀ i, inst s k = some i → ∃ t, exec (.packageBarrierArrival slot ctx k) s = .next t ∧ quiet t ∧ t.cur = x ∧
        ⟨s.now + home, .barrierArrivalReply slot ctx k.id.toNat (some i.phase)⟩ ∈ t.net.pend ∧
        (i.count + 1 < i.expect → inst t k = some { i with count := i.count + 1 }) ∧
        (i.expect ≤ i.count + 1 → inst t k = some { i with count := 0, phase := !i.phase } ∧ told t k i.phase))) ∧
    (∀ name ph, (∀ k, k < 64 → s.myTile * 64 + k ≠ s.curId → (s.slot (s.myTile * 64 + k)).status = .free) → (∀ e ∈ (s.tile s.myTile).recs, e.2.tid ≠ tid) →
      s.barName x id = name → (s.task tid).arrival id = some ph →
      (x.status = .blocked (.barrier id.toNat) → ∃ t, exec (.barrierCompletion s.myTile name ph) s = .next t ∧ quiet t ∧ (t.task tid).arrival id = none ∧
        t.cur = { x with status := .ready, pc := skipTo x.skip 16 (x.pc + 4) }) ∧
      (x.status = .ready → x.spec.mode = .glide → x.spec.commit = .none → x.spec.barrier = some (id.toNat, name, ph) →
        (x.frame = none → s.writeSet ≠ [] → ∃ t, exec (.barrierCompletion s.myTile name ph) s = .next t ∧ quiet t ∧ (t.task tid).arrival id = none ∧
          t.cur = { x with spec := { x.spec with commit := .holding, toHold := s.writeSet } }) ∧
        (x.frame ≠ none → ∃ t, exec (.barrierCompletion s.myTile name ph) s = .next t ∧ quiet t ∧ t.cur = x ∧
          ∃ e ∈ t.net.pend, e.ev = .barrierCompletion s.myTile name ph)) ∧
      (x.status = .ready → x.spec.barrier = none → ∃ t, exec (.barrierCompletion s.myTile name ph) s = .next t ∧ quiet t ∧ t.cur = x)) ∧
    (∀ me q c, 8 ≤ q → q < 16 → (s.task me).chan q = some c → (s.task me).place = .slot s.curId → me = tid →
      (∀ word, c.send = false → ∃ t, exec (.channelWord me q c.peer word) s = .next t ∧ quiet t ∧ t.net = s.net ∧
        t.task me = { s.task me with chans := (s.task me).chans.setIfInBounds (q - 8) (some { c with words := c.words ++ [word], dryf := false }) } ∧
        (x.status = .blocked (.queue q) → t.cur = { x with status := .ready }) ∧ (x.status = .ready → t.cur = x)) ∧
      (∀ other word, other ≠ c.peer ∨ c.send = true → exec (.channelWord me q other word) s = .next s) ∧
      (∀ n, c.send = true → ∃ t, exec (.creditReturn me q c.peer n) s = .next t ∧ t = { s with tasks := t.tasks } ∧
        t.task me = { s.task me with chans := (s.task me).chans.setIfInBounds (q - 8) (some { c with credits := c.credits + n }) }) ∧
      (c.send = false → c.words = [] → c.dryf = false → ∃ t, exec (.dryTimeout me q c.since) s = .next t ∧ quiet t ∧ t.net = s.net ∧
        t.task me = { s.task me with chans := (s.task me).chans.setIfInBounds (q - 8) (some { c with dryf := true }) } ∧
        (c.dryev = true → t.cur.u.uepend.getLsbD 2 = true ∧ (x.u.uepend.getLsbD 2 = false → t.cur.u.uetags.getD 2 0 = BitVec.ofNat 32 q)) ∧
        (c.dryev = false → t.cur = x)) ∧
      (∀ stamp, stamp ≠ c.since ∨ c.words ≠ [] → exec (.dryTimeout me q stamp) s = .next s))

/-! ### Events of engines (spec/08_engine_queues.md) -/

/-- R126, R189, R190, R196 to R198, R201 to R211, R348: a matrix command is taken, fills its latch, starts, writes its rows and completes; a copy reads its
descriptor, makes a transfer and completes; a collective is joined, decided, served and times out. ADD of integers is their sum modulo 2^32.
The model's own choices in it: logs 2, 14, 39, 81, 87. -/
def Obligations.EngineEvents : Prop :=
  ∀ (s : State) (tile core : Nat), core < 8 →
    let x := s.cur
    let k := tile * 8 + core
    let quiet (t : State) : Prop := t.mem = s.mem ∧ t.attrs = s.attrs
    let acc (t : State) (n : Nat) := ((t.core k).accs.getD n Acc.free).elems
    let idle : Prop := (s.tile tile).mbusy ≤ s.now ∧ (s.tile tile).mrr.1 < 8 ∧ ∀ c, c < 8 → c ≠ core → (s.core (tile * 8 + c)).q0 = []
    let mine (tid : W64) : Prop := (s.task tid).place = .slot s.curId ∧ x.u.tid = tid
    let same (t : State) : Prop := t.cur.regs = x.regs ∧ t.cur.pc = x.pc ∧ t.cur.u.fflags = x.u.fflags
    let woken (t : State) (q : Nat) : Prop := (x.status = .blocked (.queue q) → t.cur.status = .ready) ∧ (x.status ≠ .blocked (.queue q) → t.cur.status = x.status)
    let word (tag : W32) (status : Nat) (fl : Flags) : W64 := BitVec.ofNat 64 (tag.toNat + status * 2 ^ 32 + fl.toNat * 2 ^ 40)
    let copied (t : State) (tid : W64) (w : W64) : Prop := same t ∧ woken t 3 ∧
      t.task tid = { s.task tid with q3 := (s.task tid).q3 ++ [w], out3 := (s.task tid).out3 - 1 }
    let collected (t : State) (tid : W64) (w : W64) (n : Map Nat) : Prop := same t ∧ woken t 5 ∧
      t.task tid = { s.task tid with q5 := (s.task tid).q5 ++ [w], out5 := (s.task tid).out5 - 1, colls := n }
    let own := s.pkg.podIndex.toNat
    let onLine (asid : BitVec 14) (va u off : Nat) (write : Bool) : Prop := InSlice s tile asid va u off write ∧ s.portAhead tile asid (64 + u, off / 64) = false
    let isHere (asid : BitVec 14) (l : List (Int × Nat)) : Prop := ∀ q a, s.classify tile asid .s (l.headD (0, 0)).1.toNat ≠ .pod q a
    (∀ cmd, idle → (s.tile tile).latches = [] → (s.core k).q0 = [cmd] → cmd.op = .mzero → ∃ t, exec (.matrixCommandStart tile) s = .next t ∧ quiet t ∧ t.cur = x ∧
      (t.core k).q0 = [] ∧ acc t cmd.md.toNat = .replicate 256 0 ∧ (∀ n, n ≠ cmd.md.toNat → acc t n = acc s n) ∧
      ⟨s.now + 1, .matrixCommandComplete tile core⟩ ∈ t.net.pend) ∧
    (∀ cmd, idle → (s.tile tile).latches = [] → (s.core k).q0 = [cmd] → (s.core k).run0 = [] → cmd.readLines ≠ [] →
      (∀ n ∈ cmd.readLines, s.rowWaits tile cmd.asid n false = false) →
      ∃ t, exec (.matrixCommandStart tile) s = .next t ∧ quiet t ∧ t.cur = x ∧ (t.core k).q0 = [] ∧ (t.core k).accs = (s.core k).accs ∧
        (∃ l, (t.tile tile).latches = [l] ∧ l.core = k ∧ l.cmd = cmd ∧ l.on = false ∧ l.ready = s.now + fillTime cmd.readLines ∧
          l.poison = cmd.readLines.any fun n => s.poisoned (64 + tile) n) ∧ ∃ p ∈ t.net.pend, p.ev = .matrixCommandStart tile) ∧
    (∀ l, idle → (s.tile tile).latches = [l] → (s.core k).q0 = [] → l.core = k → l.on = false → l.ready ≤ s.now →
      let started (w : W64) (n : Nat) (t : State) : Prop := quiet t ∧ (t.tile tile).mbusy = s.now + n ∧ (t.tile tile).latches = [{ l with on := true }] ∧
        ∃ r, (t.core k).run0 = (s.core k).run0 ++ [r] ∧ r.cmd = l.cmd ∧ r.word = w ∧ ⟨r.done, .matrixCommandComplete tile core⟩ ∈ t.net.pend
      let plain : W64 := BitVec.ofNat 64 (l.cmd.ser.toNat + l.cmd.md.toNat * 2 ^ 21)
      (∀ ix z tr, l.poison = false → l.cmd.op = .mma .i8 ix z tr → fmtOf l.cmd.ga = 1 → fmtOf l.cmd.gb = 1 →
        ∃ t, exec (.matrixCommandStart tile) s = .next t ∧ started plain 2 t ∧ (∀ n, n ≠ l.cmd.md.toNat → acc t n = acc s n) ∧
          ∀ i j, i < 16 → j < 16 → (acc t l.cmd.md.toNat).getD (16 * i + j) 0 = BitVec.ofInt 32
            ((if z then 0 else ((acc s l.cmd.md.toNat).getD (16 * i + j) 0).toInt) + ((List.range 32).map fun c => ((l.a.getD i []).getD c 0).toInt *
              (if tr then (l.b.getD j []).getD c 0 else (l.b.getD c []).getD j 0).toInt).sum)) ∧
      (∀ a, l.poison = false → l.cmd.op = .mmov a → ∃ t, exec (.matrixCommandStart tile) s = .next t ∧ started plain 1 t ∧
        acc t l.cmd.md.toNat = acc s a.toNat) ∧
      (l.poison = true → l.cmd.op = .mlda → ∃ t, exec (.matrixCommandStart tile) s = .next t ∧ started (plain + 7 * 2 ^ 24) 4 t ∧
        (t.core k).accs = (s.core k).accs)) ∧
    (∀ r, (s.core k).run0 = [r] → r.done ≤ s.now →
      (r.left = 0 → s.net.reqs = [] → mine r.cmd.tid → x.ops = [] → ∃ t, exec (.matrixCommandComplete tile core) s = .next t ∧ quiet t ∧ (t.core k).run0 = [] ∧
        t.task r.cmd.tid = { s.task r.cmd.tid with q1 := (s.task r.cmd.tid).q1 ++ [r.word], out1 := (s.task r.cmd.tid).out1 - 1 } ∧ same t ∧ woken t 1) ∧
      (∀ off data, r.left ≠ 0 → r.lines[16 - r.left]? = some (off, data) → s.rowWaits tile r.cmd.asid (off / 64) true = false → data.length = 64 → off % 64 = 0 → s.mem.wf = true →
        ∃ t, exec (.matrixCommandComplete tile core) s = .next t ∧ Wrote s t (sramByte tile off) 64 (2 ^ 64 - 1) data ∧ t.attrs.full = s.attrs.full ∧
          t.poisoned (64 + tile) (off / 64) = false ∧ (t.core k).run0 = [{ r with left := r.left - 1 }] ∧
          ⟨s.now + 1, .matrixCommandComplete tile core⟩ ∈ t.net.pend)) ∧
    (∀ c rest, (s.core k).run2 = none → (s.core k).q2 = c :: rest →
      let runs (r : CopyRun) : Prop := ∃ t, exec (.copyCommandStart tile core) s = .next t ∧ quiet t ∧ t.cur = x ∧ t.core k = { s.core k with q2 := rest, run2 := some r } ∧
        ∃ p ∈ t.net.pend, p.ev = .copyCommandComplete tile core
      (s.copyTurn tile ≠ some core → ∃ t, exec (.copyCommandStart tile core) s = .next t ∧ t = { s with net := t.net } ∧
        ∃ p ∈ t.net.pend, p.ev = .copyCommandStart tile core) ∧
      (s.copyTurn tile = some core →
        (c.desc.extractLsb' 48 4 ≠ 0 ∨ 2 ^ 48 < vaOf c.desc + 128 → runs ⟨c, [], 0, none, none, 0, 2, 0, .none, true⟩) ∧
        (c.desc.extractLsb' 48 4 = 0 → vaOf c.desc + 128 ≤ 2 ^ 48 → vaOf c.desc % 64 ≠ 0 → runs ⟨c, [], 0, none, none, 0, 4, 0, .none, true⟩) ∧
        (∀ u off d sram, c.desc.extractLsb' 48 4 = 0 → vaOf c.desc % 64 = 0 → vaOf c.desc + 128 ≤ 2 ^ 48 → onLine c.asid (vaOf c.desc) u off false →
          onLine c.asid (vaOf c.desc + 64) u (off + 64) false → d = seenBytes s u off 64 ++ seenBytes s u (off + 64) 64 → (CopyPlan.of d).acq = false →
          (sram = true ↔ ∃ w o, s.classify tile c.asid .s (vaOf (CopyPlan.of d).dst) = .sram w o) →
          ((CopyPlan.of d).refusal sram = none → runs ⟨c, d, 0, none, none, 0, 0, 0, .none, false⟩) ∧
          (∀ st, (CopyPlan.of d).refusal sram = some st → st ≠ 0 → runs ⟨c, d, 0, none, none, 0, st, 0, .none, true⟩)))) ∧
    (∀ r, (s.core k).run2 = some r →
      let p := CopyPlan.of r.desc
      (r.wait = .page → exec (.copyCommandComplete tile core) s = .next s) ∧
      (r.wait = .none → r.fin = false → s.copyTurn tile ≠ some core → ∃ t, exec (.copyCommandComplete tile core) s = .next t ∧ t = { s with net := t.net } ∧
        ∃ p ∈ t.net.pend, p.ev = .copyCommandComplete tile core) ∧
      (∀ (va n u off vb v o : Nat), r.wait = .none → r.fin = false → s.copyTurn tile = some core → r.desc ≠ [] → r.data = none → r.unit < p.total → p.mode = 0 →
        p.same = true → p.single = false → s.mem.wf = true → isHere r.cmd.asid (p.reads r.unit none) → isHere r.cmd.asid (p.writes r.unit none) →
        let m := p.runLen r.unit none false false
        p.readRun r.unit m none = [((va : Int), n)] → p.writeRun r.unit m none = [((vb : Int), n)] → r.idx = none → 0 < n → va % 64 + n ≤ 64 → vb % 64 + n ≤ 64 →
        va + n ≤ 2 ^ 48 → vb + n ≤ 2 ^ 48 → va % p.srcAlign = 0 → vb % p.dstAlign = 0 →
        onLine r.cmd.asid va u off false → onLine r.cmd.asid vb v o true → ∃ t, exec (.copyCommandComplete tile core) s = .next t ∧
          Wrote s t (sramByte v o) n (2 ^ n - 1) (seenBytes s u off n) ∧ t.attrs.full = s.attrs.full ∧ t.cur = x ∧
          (t.core k).run2 = some { r with unit := r.unit + m, units := 0 } ∧ ∃ p ∈ t.net.pend, p.ev = .copyCommandComplete tile core) ∧
      (r.wait = .none → r.fin = true → p.rel = false → mine r.cmd.tid → ∃ t, exec (.copyCommandComplete tile core) s = .next t ∧ quiet t ∧ (t.core k).run2 = none ∧
        copied t r.cmd.tid (word (r.cmd.tag.getD p.tag) r.status r.flags) ∧ (p.event = true → t.cur.u.uepend.getLsbD 0 = true) ∧
        (p.event = false → t.cur.u.uepend = x.u.uepend) ∧ ∃ p ∈ t.net.pend, p.ev = .copyCommandStart tile core)) ∧
    (∀ c rest, (s.core k).q4 = c :: rest → s.net.parks = [] → s.podReqs tile (300 + core) = [] →
      let dropped (status : Nat) : Prop := mine c.tid → ∃ t, exec (.collectiveJoin tile core) s = .next t ∧ quiet t ∧ (t.core k).q4 = rest ∧
        collected t c.tid (word 0 status 0) (s.task c.tid).colls
      ((s.core k).join4 = none →
        (c.desc.extractLsb' 48 4 ≠ 0 ∨ 2 ^ 48 < vaOf c.desc + 64 → dropped 2) ∧
        (c.desc.extractLsb' 48 4 = 0 → vaOf c.desc + 64 ≤ 2 ^ 48 → vaOf c.desc % 64 ≠ 0 → dropped 4) ∧
        (∀ u off, c.desc.extractLsb' 48 4 = 0 → vaOf c.desc % 64 = 0 → vaOf c.desc + 64 ≤ 2 ^ 48 → onLine c.asid (vaOf c.desc) u off false →
          let d := seenBytes s u off 64
          (CollPlan.of d).acq = false → ∃ t, exec (.collectiveJoin tile core) s = .next t ∧ quiet t ∧ t.cur = x ∧ t.tasks = s.tasks ∧
            t.core k = { s.core k with join4 := some ⟨some d, if (CollPlan.of d).span then none else some [], []⟩ } ∧
            ∃ e ∈ t.net.pend, e.ev = .collectiveJoin tile core)) ∧
      (∀ d src, (s.core k).join4 = some ⟨some d, some [], src⟩ →
        let p := CollPlan.of d
        let n := (s.task c.tid).colls.getD 0 p.collid.toNat
        let key : CollKey := ⟨c.asid, p.collid, n⟩
        let pos := tile - p.tfirst
        let m : CollMember := ⟨own, pos, c, d, [], src, 0⟩
        (p.span = false → p.clear tile = false → mine c.tid → ∃ t, exec (.collectiveJoin tile core) s = .next t ∧ quiet t ∧ (t.core k).q4 = rest ∧
          collected t c.tid (word p.tag 1 0) ((s.task c.tid).colls.set p.collid.toNat (n + 1))) ∧
        (p.span = false → p.clear tile = true → p.suits p.tcnt = true → p.pointerFault pos p.tcnt = none → src.length = p.srcLen pos →
          let o := (s.coll? key).getD ⟨key, s.now, [], false, 0, own, none, [], [], []⟩
          let o' : Coll := { o with members := o.members ++ [m], need := if pos = 0 then p.tcnt else o.need }
          let joins (P : State → Prop) : Prop := ∃ t, exec (.collectiveJoin tile core) s = .next t ∧ quiet t ∧ t.cur = x ∧ (t.core k).q4 = rest ∧
            (t.task c.tid).colls.getD 0 p.collid.toNat = n + 1 ∧ P t
          let decided (v : Nat × List Byte × BitVec 5) : Prop := joins fun t => t.coll? key = some { o' with verdict := some v } ∧
            ∃ e ∈ t.net.pend, e.ev = .collectiveComplete key
          let alike : Prop := ∀ z, o'.at 0 = some z → ∀ a ∈ o'.members, a.differs z = false
          o.key = key → o.verdict = none → o.timedOut = false → o.served = [] → (∀ z ∈ o.members, z.pkg = own) →
          (o'.at 0 = none ∨ (alike ∧ o'.members.length < o'.need) → joins fun t => t.coll? key = some o') ∧
          (¬alike → decided (10, [], 0)) ∧
          (∀ z, o'.at 0 = some z → alike → o'.members.length = o'.need →
            let q := CollPlan.of z.desc
            let of_ (i : Nat) : List Byte := ((o'.at i).map (·.src)).getD []
            (q.kind = 3 → decided (0, [], 0)) ∧ (q.kind = 2 → q.root < o'.need → decided (0, of_ q.root, 0)) ∧
            (q.kind = 0 ∨ q.kind = 1 → q.op = 0 → q.count = 1 → fmtOf q.src = 5 ∨ fmtOf q.src = 6 → o'.need = q.tcnt → 0 < q.tcnt →
              (∀ i, i < o'.need → (of_ i).length = 4) →
              decided (0, bytesOfNat 4 (((List.range o'.need).map fun i => numberOf (of_ i)).sum % 2 ^ 32), 0)))))) ∧
    (∀ key o m v, s.coll? key = some o → o.key = key → o.members = [m] → m.pkg = own → o.verdict = some v → o.served = [] → s.net.parks = [] →
      tileOf m.cmd.slot = tile → coreOf m.cmd.slot % 8 = core → s.podReqs tile (300 + core) = [] →
      let p := CollPlan.of m.desc
      let b := m.share v.2.1
      let put (n : Nat) : Coll := { o with members := [{ m with put := m.put + n }], wrote := [m.pos] }
      let serves (status : Nat) (fl : Flags) : Prop := mine m.cmd.tid → ∃ t, exec (.collectiveComplete key) s = .next t ∧ quiet t ∧
        collected t m.cmd.tid (word p.tag status fl) (s.task m.cmd.tid).colls ∧ (p.event = true → t.cur.u.uepend.getLsbD 1 = true) ∧
        (o.need = 1 → t.coll? key = none) ∧ (1 < o.need → t.coll? key = some { o with served := [m.pos] })
      (v.1 ≠ 0 → serves v.1 0) ∧ (v.1 = 0 → o.refused = [m.pos] → serves 6 0) ∧
      (v.1 = 0 → o.refused = [] → o.wrote = [m.pos] → p.rel = false → serves 0 v.2.2) ∧
      (v.1 = 0 → o.refused = [] → o.wrote = [] → b.length ≤ m.put → ∃ t, exec (.collectiveComplete key) s = .next t ∧ quiet t ∧ t.cur = x ∧
        t.coll? key = some (put 0) ∧ ∃ e ∈ t.net.pend, e.ev = .collectiveComplete key) ∧
      (∀ u off, v.1 = 0 → o.refused = [] → o.wrote = [] → m.put = 0 → 0 < b.length → s.mem.wf = true → vaOf p.dst + b.length ≤ 2 ^ 48 →
        onLine m.cmd.asid (vaOf p.dst) u off true → off % 64 + b.length ≤ 64 →
        ∃ t, exec (.collectiveComplete key) s = .next t ∧ Wrote s t (sramByte u off) b.length (2 ^ b.length - 1) b ∧ t.cur = x ∧ t.attrs.full = s.attrs.full ∧
          t.coll? key = some (put b.length) ∧ ∃ e ∈ t.net.pend, e.ev = .collectiveComplete key)) ∧
    (∀ key o, s.coll? key = some o → o.key = key →
      (o.verdict = none → o.served = [] → (∀ z ∈ o.members, z.pkg = own) → ∃ t, exec (.colltmoExpiry key) s = .next t ∧ t = { s with net := t.net } ∧
        t.coll? key = some { o with timedOut := true, verdict := some (11, [], 0) } ∧ ∃ e ∈ t.net.pend, e.ev = .collectiveComplete key) ∧
      (o.verdict ≠ none → exec (.colltmoExpiry key) s = .next s))

/-! ### Events of the package (spec/04_memory_space.md, spec/10_counters.md, spec/23_bringup_security_debug.md) -/

/-- R11, R64, R79, R94, R105 to R107, R233, R234, R244, R433, R441, R442, Tables 4.6, 10.1, 10.3, 23.3: writes of control registers, the throttle, errors and
retirement, the tenant table, the end of power, the end of a scrub, the two halves of a cycle, and words that no instruction stands in. A CSR of tile or
package scope changes as the cycle after its write begins (R60).
The model's own choices in it: logs 2, 6, 25, 65, 67, 96. -/
def Obligations.PackageEvents : Prop :=
  ∀ (s : State),
    let x := s.cur
    let quiet (t : State) : Prop := t.mem = s.mem ∧ t.attrs = s.attrs
    let writes (off : Nat) (v : W64) (P : State → Prop) : Prop := ∃ t, exec (.controlRegisterWrite off v) s = .next t ∧ quiet t ∧ t.cur = x ∧ P t
    (∀ h v, h < 64 →
      writes (0x100008 + 0x100 * h) v (fun t => t.home h = { s.home h with poolTgt := v.extractLsb' 0 18, poolLow := v.extractLsb' 18 18 } ∧
        (∀ k, k ≠ h → t.home k = s.home k) ∧ ∃ p ∈ t.net.pend, p.ev = .zeroingStep h) ∧
      writes (0x100010 + 0x100 * h) v (fun t => t.home h = { s.home h with sweepEn := v.getLsbD 0, coldWm := v.extractLsb' 1 18, rate := v.extractLsb' 24 8 } ∧
        (∀ k, k ≠ h → t.home k = s.home k) ∧ (v.getLsbD 0 = true → ∃ p ∈ t.net.pend, p.ev = .sweeperStep h)) ∧
      exec (.controlRegisterWrite (0x100000 + 0x100 * h) v) s = .next s ∧ exec (.controlRegisterWrite (0x100020 + 0x100 * h) v) s = .next s) ∧
    (∀ tile v, tile < 512 →
      let at_ (k : Nat) (f : Tile) : Prop := writes (0x200000 + 0x80 * tile + 8 * k) v fun t => t.tile tile = f ∧ (∀ n, n ≠ tile → t.tile n = s.tile n) ∧ t.net = s.net
      at_ 0 { s.tile tile with sel := v } ∧
      (∀ k, k < 8 → at_ (k + 1) { s.tile tile with
        pcs := (s.tile tile).pcs.setIfInBounds k (v.extractLsb' 0 48)
        pcAt := (s.now, (if (s.tile tile).pcAt.1 = s.now then (s.tile tile).pcAt.2 else 0) ||| BitVec.ofNat 8 (2 ^ k)) }) ∧
      at_ 9 { s.tile tile with run := v.getLsbD 0 }) ∧
    (∀ k v, k < 64 → writes (0x300000 + 8 * k) v fun t => ∀ j, t.pkg.share.getD 0 j = if j = k then v.extractLsb' 0 8 else s.pkg.share.getD 0 j) ∧
    (∀ v, exec (.controlRegisterWrite 0x400000 v) s = .next { s with pkg := { s.pkg with plim := v.extractLsb' 0 12, tlim := v.extractLsb' 16 8 } } ∧
      exec (.controlRegisterWrite 0 v) s = .next s ∧ exec (.controlRegisterWrite 0x400008 v) s = .next s) ∧
    (∀ tag v e, tag < 65536 → s.pkg.tenants.get? tag = some e →
      writes (0x480000 + 8 * tag) v fun t => (∀ j, j ≠ tag → t.pkg.tenants.getD ⟨0, 0⟩ j = s.pkg.tenants.getD ⟨0, 0⟩ j) ∧
        (v.getLsbD 0 = true → t.pkg.tenants.get? tag = some ⟨v.extractLsb' 17 6, e.rej &&& ~~~(v.extractLsb' 32 32)⟩) ∧
        (v.getLsbD 0 = false → s.pkg.tenants = [(tag, e)] → t.pkg.tenants = [])) ∧
    (∀ n k v, n < 64 → k < 4 →
      let src : ErrSrc := if n < 16 then .ualPort n else if n < 32 then .uePort (n - 16) else .tileLogic (n - 32)
      let w := s.faultWin src
      writes (0x500000 + 32 * n + 8 * k) v fun t => t.faultWin src = (if k = 0 then { w with count := v.toNat % 65536 } else if k = 1 then { w with thresh := v.toNat }
        else if k = 2 then { w with window := v.toNat } else { w with start := v.toNat }) ∧ ∀ o, o ≠ src → t.faultWin o = s.faultWin o) ∧
    (∀ port poisons,
      let stat (t : State) (n : Nat) : PortStat := t.host.ports.getD ⟨0, 0, 0, 0, 0, 0⟩ n
      (∃ t, exec (.errorEvent (.uePort port) poisons) s = .next t ∧ t.mem = s.mem ∧ stat t port = { stat s port with retry := (stat s port).retry + 1 }) ∧
      ∃ t, exec (.errorEvent (.ualPort port) poisons) s = .next t ∧ t.mem = s.mem ∧ stat t (16 + port) = { stat s (16 + port) with retry := (stat s (16 + port)).retry + 1 }) ∧
    (∀ watts celsius,
      let plim := Nat.min s.pkg.plim.toNat 2000
      let tlim := Nat.min s.pkg.tlim.toNat 105
      let duty := s.pkg.duty
      (plim < watts ∨ tlim < celsius → (duty.toNat < 56 →
        exec (.throttleStep watts celsius) s = .next { s with pkg := { s.pkg with duty := duty + 1, steps := s.pkg.steps + 1 } }) ∧
        (duty = 56 → exec (.throttleStep watts celsius) s = .next s)) ∧
      (watts + 100 < plim → celsius + 5 < tlim → (duty ≠ 0 → exec (.throttleStep watts celsius) s = .next { s with pkg := { s.pkg with duty := duty - 1 } }) ∧
        (duty = 0 → exec (.throttleStep watts celsius) s = .next s)) ∧
      (watts ≤ plim → celsius ≤ tlim → plim ≤ watts + 100 ∨ tlim ≤ celsius + 5 → exec (.throttleStep watts celsius) s = .next s)) ∧
    (∀ tile line poisons,
      let src : ErrSrc := .sramLine tile line
      let counted (w : FaultWin) : Prop := ∃ t, exec (.errorEvent src poisons) s = .next t ∧ t.mem = s.mem ∧ t.cur = x ∧ (t.pkg.wins.find? fun v => v.src == src) = some w ∧
        (∀ v, v ≠ src → (t.pkg.wins.find? fun e => e.src == v) = s.pkg.wins.find? fun e => e.src == v) ∧
        (poisons = true → t.poisoned (64 + tile) line = true) ∧ (w.lasting = true → w.count = 0 → (t.tile tile).spared.has line = true)
      let at_ := s.now / 2400
      ((s.pkg.wins.find? fun v => v.src == src) = none → counted ⟨src, 1, 3, 1000000, at_, false⟩) ∧
      (∀ w, (s.pkg.wins.find? fun v => v.src == src) = some w → w.count ≠ 0 → w.count < 0xFFFF → w.thresh ≠ 0 →
        (at_ < w.start + w.window → w.count + 1 < w.thresh → w.lasting = false → counted { w with count := w.count + 1 }) ∧
        (at_ < w.start + w.window → w.thresh ≤ w.count + 1 → counted { w with lasting := true, count := 0 }) ∧
        (w.start + w.window ≤ at_ → 1 < w.thresh → w.lasting = false → counted { w with start := at_, count := 1 }))) ∧
    (let b := s.pkg.boot
     let off (stop : Nat) (t : State) : Prop := t.mem = State.reset.mem ∧ t.attrs = State.reset.attrs ∧ t.slots = State.reset.slots ∧ t.tiles = State.reset.tiles ∧
       t.homes = State.reset.homes ∧ t.tasks = State.reset.tasks ∧ t.host = State.reset.host ∧ t.net.pend = [] ∧ t.pkg.ready = 0 ∧ t.pkg.boot = { Boot.reset with
         powered := false, starts := b.starts, minSvn := b.minSvn, spared := b.spared, lastStop := if b.powered && !b.ended then stop else b.lastStop }
     (∃ t, exec .powerOff s = .next t ∧ off 0 t) ∧ ∃ t, exec .thermalTrip s = .next t ∧ off 2 t) ∧
    (∀ tile z w asid, s.tiles = [(tile, z)] → z.windows = [w] → w.asid = asid → w.scrub = true → s.buoysOf (64 + tile) = [] → s.net.reqs = [] →
      let lo := sramByte tile 0
      let hi := sramByte tile 0x380000
      let scrubbed (t : State) : Prop := (∀ a, t.mem.read a = if lo ≤ a ∧ a < hi then 0 else s.mem.read a) ∧
        (∀ k, t.attrs.full.has k = (s.attrs.full.has k && !decide (lo / 8 ≤ k ∧ k < hi / 8))) ∧
        (∀ k, t.attrs.poison.has k = (s.attrs.poison.has k && !decide (lo / 64 ≤ k ∧ k < hi / 64))) ∧ t.tile tile = { z with windows := [] }
      (∀ e, s.ctx? asid = some e → e.ender = none → ∃ t, exec (.scrubComplete asid) s = .next t ∧ scrubbed t ∧ t.cur = x ∧ t.net = s.net) ∧
      (∀ e c r, s.ctx? asid = some e → e.ender = some c → s.ring? c.ring = some r → ∃ t, exec (.scrubComplete asid) s = .next t ∧ scrubbed t ∧ Finished s t c r 0 0 0)) ∧
    (s.pkg.boot.powered = false → exec .cycle s = .next s) ∧
    (s.pkg.boot.powered = true → s.net.chosen = true → (∀ e ∈ s.pkg.wls, e.2.pkgs.length ≤ 1) →
      (s.net.csrs = [] → ∃ t, exec .cycle s = .next t ∧ quiet t ∧ t.pkg = { s.pkg with cycle := s.pkg.cycle + 1 } ∧ t.cur = x ∧
        t.slots = s.slots ∧ t.net.pend = s.net.pend ∧ t.net.issueQ = [] ∧ t.net.chosen = false ∧ t.net.out = [] ∧ t.net.outbox = []) ∧
      (∀ slot n v, s.net.csrs = [(slot, n, v)] → ∃ t, exec .cycle s = .next t ∧ quiet t ∧ t.cur = x ∧ t.net.csrs = [] ∧ t.net.chosen = false ∧
        t.pkg.chunklen = (if n = 0x230 then v.extractLsb' 0 16 else s.pkg.chunklen) ∧ t.pkg.colltmo = (if n = 0x231 then v.extractLsb' 0 32 else s.pkg.colltmo) ∧
        t.pkg.wlwdog = (if n = 0x232 then v.extractLsb' 0 32 else s.pkg.wlwdog) ∧
        (t.tile (tileOf slot)).mweight = (if n = 0x220 then v.extractLsb' 0 32 else (s.tile (tileOf slot)).mweight) ∧
        (t.tile (tileOf slot)).feretry = (if n = 0x221 then v.extractLsb' 0 20 else (s.tile (tileOf slot)).feretry))) ∧
    (s.pkg.boot.powered = true → s.net.chosen = false → (∀ e ∈ s.slots, e.2.status = .free) → s.tiles = [] → s.net.moving = [] → (∀ c, (s.core c).align = none) →
      x.status = .ready → x.ops = [] → x.ending = false → x.leaving = false → x.stopReq = .none → x.dueEvent = none → s.canIssue = .go → x.forfeit = 0 →
      ∃ t, exec .cycle s = .next t ∧ quiet t ∧ t.net.issueQ = s.net.issueQ ++ [s.curId] ∧ t.net.chosen = true ∧ t.cur = { x with yld := false } ∧ t.pkg = s.pkg ∧
        (t.core (coreOf s.curId)).cur = s.curId % 8 ∧ (t.core (coreOf s.curId)).last = s.curId % 8) ∧
    (let traps (e : Instr) (cause code : Nat) (xaddr : W64) : Prop := s.mayIssue = true → x.ops = [] → x.frame = none → x.spec.mode = .none → x.spec.commit = .none → s.atBreakpoint = false →
       (ToM x cause → ¬(x.level = .m ∧ x.mc.intrap = true) → ∃ t, exec e s = .next t ∧ quiet t ∧ TakenAtM x t.cur s.now cause code xaddr) ∧
       (¬ToM x cause → x.sc.stvec ≠ 0 → ∃ t, exec e s = .next t ∧ quiet t ∧ TakenAtS x t.cur s.now cause code xaddr)
     (∀ w c, decode w = .illegal c → traps (.illegalWord w) 1 c (w.setWidth 64)) ∧
     (x.inRegion x.pc = false → traps .fetchOutsideCodeRegion 2 0 (x.pc.setWidth 64)) ∧
     (x.status = .free → ∀ w, exec (.illegalWord w) s = .fault .slotEmpty ∧ exec .fetchOutsideCodeRegion s = .fault .slotEmpty))

/-- R65: the procedure that selects a slot. With POL 0 a core stays with its current slot while that is eligible and has not yielded, and otherwise takes the
eligible slot with the least (age, index), passing over a slot that yielded where another is eligible; with POL 1 it takes the next in turn after the last. A slot
that forfeits spends a turn. -/
def Obligations.SlotSelection : Prop :=
  ∀ (s : State) (core : Nat) (e : List Nat), (∀ k ∈ e, k / 8 = core) → e.Nodup →
    let c := s.core core
    let cur := core * 8 + c.cur
    let picked := s.choose core e
    let before (a b : Nat) : Prop := (s.slot a).age < (s.slot b).age ∨ ((s.slot a).age = (s.slot b).age ∧ a < b)
    (e = [] → picked = none) ∧
    (c.pol = false → cur ∈ e → (s.slot cur).yld = false → picked = some cur) ∧
    (c.pol = false → cur ∉ e → ∀ k, picked = some k ↔ k ∈ e ∧ ∀ j ∈ e, j ≠ k → before k j) ∧
    (c.pol = false → cur ∈ e → (s.slot cur).yld = true → (e = [cur] → picked = some cur) ∧
      (e ≠ [cur] → ∀ k, picked = some k ↔ k ∈ e ∧ k ≠ cur ∧ ∀ j ∈ e, j ≠ cur → j ≠ k → before k j)) ∧
    (c.pol = true → ∀ d, d < 8 → core * 8 + (c.last + 1 + d) % 8 ∈ e → (∀ j, j < d → core * 8 + (c.last + 1 + j) % 8 ∉ e) →
      picked = some (core * 8 + (c.last + 1 + d) % 8)) ∧
    (∀ k n, picked = some k → (s.slot k).forfeit = 0 → (State.select (n + 1) s core e).1 = some k ∧
      ((State.select (n + 1) s core e).2.core core).cur = k % 8 ∧ ((State.select (n + 1) s core e).2.slot k).yld = false) ∧
    (∀ k n, picked = some k → 0 < (s.slot k).forfeit → e = [k] → (State.select (n + 2) s core e).1 = none ∧
      ((State.select (n + 2) s core e).2.slot k).forfeit = (s.slot k).forfeit - 1 ∧ ((State.select (n + 2) s core e).2.slot k).u.turns = (s.slot k).u.turns + 1)

/-! ### Ports, rings and host commands (spec/22_host_and_pod.md, spec/23_bringup_security_debug.md) -/

/-- R227, R229, R230, R237, R408 to R416, R422 to R425: requests of other packages, resending and time-out, RMA writes, kicks, the reading of records, and the
host's acknowledgements.
The model's own choices in it: logs 2, 5, 22. -/
def Obligations.PortEvents : Prop :=
  ∀ (s : State),
    let x := s.cur
    let quiet (t : State) : Prop := t.mem = s.mem ∧ t.attrs = s.attrs
    let noPort : PortStat := ⟨0, 0, 0, 0, 0, 0⟩
    let stat (t : State) (p : Nat) : PortStat := t.host.ports.getD noPort p
    (∀ port (r : PodReq),
      let go := exec (.podRequest port r) s
      let e := s.asidEnt r.asid
      let c := localClass (if e.wv then some e.wbase else none) r.addr.toNat
      let h := s.home (homeOf c)
      let src := podSource r
      (s.isReady (32 + port) = false → go = .next s) ∧
      (s.isReady (32 + port) = true → s.tenantOf? r.asid ≠ some r.tag → r.msg = none → ∀ n, s.pkg.tenants.get? r.tag.toNat = some n → ∃ t, go = .next t ∧ quiet t ∧ t.cur = x ∧
        t.homes = s.homes ∧ t.net.reqs = s.net.reqs ∧ t.net.out = s.net.out ++ [(r, ⟨0x11, 0, [], 1500, false⟩)] ∧
        t.pkg.tenants.get? r.tag.toNat = some { n with rej := n.rej + 1 } ∧ stat t (16 + port) = { stat s (16 + port) with tenrej := (stat s (16 + port)).tenrej + 1 }) ∧
      (s.isReady (32 + port) = true → s.tenantOf? r.asid = some r.tag → r.msg = none → r.kind.toNat ≤ 1 → s.net.reqs = [] →
        (∀ o, h.rc.get? src = some o → seqBefore r.seq o.acked = true → ∃ t, go = .next t ∧ quiet t ∧ t.cur = x ∧ t.net = s.net) ∧
        (∀ o v, h.rc.get? src = some o → seqBefore r.seq o.acked = false → o.entries.get? (r.seq.toNat % 64) = some v → v.seq = r.seq → seqBefore o.acked r.acked = false →
          (∀ k ∈ o.entries, seqBefore k.2.seq o.acked = false) → ∃ t, go = .next t ∧ quiet t ∧ t.net.reqs = [] ∧
            ∃ a, t.net.out = s.net.out ++ [(r, a)] ∧ a.status = v.status ∧ a.data = v.data) ∧
        (h.rc.get? src = none → h.rc.length < 4096 → seqBefore r.seq r.acked = false → r.addr.toNat % 64 + r.size ≤ 64 →
          ∃ t, go = .next t ∧ quiet t ∧ t.cur = x ∧ (t.home (homeOf c)).rc.get? src = some ⟨r.acked, []⟩ ∧ Posts s t 1 (.homeAccess s.net.nextId) ∧
            ∃ q, t.req? s.net.nextId = some q ∧ q.source = some r ∧ q.stage = .travel ∧ q.kind = (if r.kind.toNat = 0 then .load else .store) ∧ q.cls = c ∧ q.n = r.size ∧
              q.asid = r.asid ∧ q.data = r.data.take r.size ∧ (r.kind.toNat = 1 → q.mask = r.mask % 2 ^ r.size)) ∧
        (h.rc.get? src = none → h.rc.length < 4096 → seqBefore r.seq r.acked = false → 64 < r.addr.toNat % 64 + r.size → r.addr.toNat + r.size ≤ 2 ^ 48 →
          ∃ t, go = .next t ∧ quiet t ∧ t.cur = x ∧ ∀ n, (r.addr.toNat ≤ n ∧ n < r.addr.toNat + r.size ∧ (n = r.addr.toNat ∨ n % 64 = 0)) →
            ∃ q, t.req? q.id = some q ∧ q.source = some r ∧ q.op = s.net.nextId ∧ q.ptr.toNat = n ∧ q.n = Nat.min (64 - n % 64) (r.addr.toNat + r.size - n) ∧
              q.data = (r.data.drop (n - r.addr.toNat)).take q.n ∧ q.stage = .travel ∧ ⟨s.now + 1, .homeAccess q.id⟩ ∈ t.net.pend)) ∧
      (∀ id, s.isReady (32 + port) = true → s.tenantOf? r.asid = some r.tag → r.msg = some (.tlbiAck id) → ∃ t, go = .next t ∧ quiet t ∧ Posts s t 1 (.tlbiAck id))) ∧
    (∀ id r, s.req? id = some r → r.id = id →
      (r.sent ≠ 0 → r.stage = .travel → ∃ t, exec (.busyResend id) s = .next t ∧ t = { s with net := t.net } ∧ t.req? id = some { r with sent := s.now + 1 } ∧
        Posts s t 24000000 (.podRequestTimeout id)) ∧
      (r.sent = 0 ∨ r.stage ≠ .travel → exec (.busyResend id) s = .next s ∧ exec (.podRequestTimeout id) s = .next s) ∧
      (s.now + 1 < r.sent + 24000000 → exec (.podRequestTimeout id) s = .next s) ∧
      (∀ pkg va, r.cls = .pod pkg va → r.sent ≠ 0 → r.stage = .travel → r.sent + 24000000 ≤ s.now + 1 → (∀ e ∈ s.pkg.wls, pkg ∉ e.2.pkgs) → s.pkg.openings = [] →
        (100 ≤ r.lane → ∃ t, exec (.podRequestTimeout id) s = .next t ∧ t = { s with net := t.net, homes := t.homes, tiles := t.tiles } ∧
          t.req? id = some { r with sent := 0, stage := .done, res := .fail 3 4 }) ∧
        (∀ o, r.lane < 100 → r.kind = .load → r.slot = s.curId → r.ctx = x.mc.ctxser → x.ops.find? (fun p => p.id == r.op) = some o → o.left = 1 → o.fail = none →
          x.fails = [] → TrapsToS x o 3 4 → ∃ t, exec (.podRequestTimeout id) s = .next t ∧ quiet t ∧ TrappedLate x t.cur o.pc 3 4 r.ptr))) ∧
    (∀ port pa (b : List Byte), b.length ≠ 0 →
      let go := exec (.rmaWrite port pa b) s
      (s.isReady (48 + port) = false → go = .next s) ∧
      (s.isReady (48 + port) = true → 4194304 < b.length ∨ (∃ k, k < b.length ∧ s.registered (pa + k) = false) → ∃ t, go = .next t ∧ t = { s with host := t.host } ∧
        t.host = { s.host with ports := t.host.ports } ∧ stat t port = { stat s port with rmadrop := (stat s port).rmadrop + 1 }) ∧
      (s.isReady (48 + port) = true → (∀ k, k < b.length → s.registered (pa + k) = true) → pa % 64 = 0 → pa + 128 ≤ 2 ^ 39 → b.length = 128 → s.mem.wf = true →
        (∀ l, l < 2 → s.attrs.zero.has (hbmByte pa / 64 + l) = false ∧ s.attrs.keyOf.get? (hbmByte pa / 64 + l) = none) → ∃ t, go = .next t ∧
          Wrote s t (hbmByte pa) 128 (2 ^ 128 - 1) b ∧ stat t port = { stat s port with rmaok := (stat s port).rmaok + 1 } ∧ t.host.rings = s.host.rings ∧
          ∀ n r k, s.host.rings.get? n = some r → (∀ e ∈ s.host.rings, e.1 = n → e.2 = r) → (t.host.landed.contains (n, k) = true ↔ s.host.landed.contains (n, k) = true ∨
            (r.open_ = true ∧ k < 2 ^ r.logn ∧ pa = r.base.toNat + 128 * k)))) ∧
    (∀ port src (msg : BitVec 128),
      let n := (msg.extractLsb' 0 4).toNat
      let tail := msg.extractLsb' 32 32
      let go := exec (.kick port src msg) s
      let counted (t : State) (q : PortStat) : Prop := quiet t ∧ t.cur = x ∧ stat t port = q
      let dropped : Prop := ∃ t, go = .next t ∧ counted t { stat s port with kickdrop := (stat s port).kickdrop + 1 } ∧ t.host.rings = s.host.rings ∧ t.net = s.net
      let ok : PortStat := { stat s port with kickok := (stat s port).kickok + 1 }
      (∀ r, s.ring? n = some r →
        (r.open_ = false ∨ r.src ≠ src ∨ msg.extractLsb' 4 28 ≠ 0 ∨ msg.extractLsb' 64 64 ≠ 0 ∨ s.isReady (48 + port) = false → dropped) ∧
        (r.open_ = true → r.src = src → msg.extractLsb' 4 28 = 0 → msg.extractLsb' 64 64 = 0 → s.isReady (48 + port) = true →
          let d (v : W32) : Nat := (v - r.next).toNat
          (2 ^ r.logn < d tail → ∃ t, go = .next t ∧ counted t ok ∧ t.host.rings = s.host.rings ∧ ∃ m : Rma, t.host.sent = s.host.sent ++ [m] ∧ m.why = .completion ∧
            m.bytes = bytesOfNat 8 (r.next.toNat + n * 2 ^ 32 + 2 * 2 ^ 40) ++ bytesOfNat 8 0 ++ bytesOfNat 8 0 ++ bytesOfNat 8 0) ∧
          (d tail ≤ 2 ^ r.logn → d r.tail < d tail → r.parked = none → ∃ t, go = .next t ∧ counted t ok ∧ t.ring? n = some { r with tail := tail } ∧
            ∃ p ∈ t.net.pend, p.ev = .kickReread n) ∧
          (d tail ≤ 2 ^ r.logn → d tail ≤ d r.tail → ∃ t, go = .next t ∧ counted t ok ∧ t.host.rings = s.host.rings)))) ∧
    (∀ n r, s.ring? n = some r → n < 16 →
      let go := exec (.kickReread n) s
      let k := r.next.toNat % 2 ^ r.logn
      (∀ c w e, r.parked = some (c, w) → cmdEvent c = some e → c.ring = n →
        (r.refused = true → ∃ t, go = .next t ∧ quiet t ∧ Finished s t c r 6 6 0) ∧
        (r.refused = false → s.host.exec = none → s.firstServed n = true →
          ∃ t, go = .next t ∧ quiet t ∧ t.ring? n = some { r with parked := none } ∧ t.host.exec = some n ∧ t.host.turn = n ∧ Posts s t 1 e) ∧
        (r.refused = false → s.host.exec ≠ none ∨ s.firstServed n = false → ∃ t, go = .next t ∧ t = { s with net := t.net } ∧ ∃ p ∈ t.net.pend, p.ev = .kickReread n)) ∧
      (r.parked = none → r.open_ = false ∨ r.next = r.tail ∨ r.done = r.next → go = .next s) ∧
      (r.parked = none → r.open_ = true → r.next ≠ r.tail → r.done ≠ r.next → s.host.exec ≠ none ∨ s.firstServed n = false →
        ∃ t, go = .next t ∧ t = { s with net := t.net } ∧ ∃ p ∈ t.net.pend, p.ev = .kickReread n) ∧
      (r.parked = none → r.open_ = true → r.next ≠ r.tail → r.done ≠ r.next → s.host.exec = none → s.firstServed n = true →
        let c (b : List Byte) : Cmd := ⟨n, Vector.ofFn fun j => BitVec.ofNat 64 (numberOf ((b.drop (8 * j.val)).take 8))⟩
        let whole (b : List Byte) : Prop := s.physRead (r.base.toNat + 128 * k) 128 = .ok b ∧ s.host.landed.contains (n, k) = true ∧ numberOf (b.take 4) = r.next.toNat ∧
          numberOf ((b.drop 8).take 4) = (crc32c (b.take 8 ++ [0, 0, 0, 0] ++ b.drop 12)).toNat
        (∀ b e, whole b → cmdEvent (c b) = some e → ∃ t, go = .next t ∧ quiet t ∧ t.cur = x ∧ t.ring? n = some { r with done := r.next, tries := 0 } ∧
          t.host.exec = some n ∧ t.host.turn = n ∧ Posts s t 1 e ∧ t.host.landed.contains (n, k) = false) ∧
        (∀ b, whole b → cmdEvent (c b) = none → ∃ t, go = .next t ∧ quiet t ∧ Finished s t (c b) { r with done := r.next, tries := 0 } 3 0 0) ∧
        ((∀ b, ¬whole b) →
          (r.tries ≠ 64 → ∃ t, go = .next t ∧ quiet t ∧ t.ring? n = some { r with tries := r.tries + 1 } ∧ Posts s t 2400 (.kickReread n)) ∧
          (r.tries = 64 → ∃ t, go = .next t ∧ quiet t ∧ t.ring? n = some { r with tail := r.next, tries := 0 } ∧ ∃ m : Rma, t.host.sent = s.host.sent ++ [m] ∧ m.why = .completion ∧
            m.bytes = bytesOfNat 8 (r.next.toNat + n * 2 ^ 32 + 2 ^ 40) ++ bytesOfNat 8 0 ++ bytesOfNat 8 0 ++ bytesOfNat 8 0)))) ∧
    (∀ id m, (s.host.sent.find? fun r => r.id == id) = some m →
      let rest := s.host.sent.filter fun r => r.id != id
      let go := exec (.hostAcknowledgement id) s
      (∀ asid c, m.why = .record asid → s.ctx? asid = some c → ∃ t, go = .next t ∧ quiet t ∧ t.cur = x ∧ (∃ p ∈ t.net.pend, p.ev = .launchRecordWrite asid) ∧
        ∃ w : Rma, t.host.sent = rest ++ [w] ∧ w.why = .headWord asid ∧ w.addr = c.headAddr ∧ w.key = c.ringKey ∧ w.bytes = bytesOfNat 8 c.rseq) ∧
      (∀ c r, m.why = .copyOut c → s.ring? c.ring = some r → (∀ o ∈ rest, o.why ≠ .copyOut c) → ∃ t, go = .next t ∧ quiet t ∧ Finished s t c r 0 0 0) ∧
      (∀ c, m.why = .copyOut c → (∃ o ∈ rest, o.why = .copyOut c) → go = .next { s with host := { s.host with sent := rest } }) ∧
      (m.why = .completion ∨ m.why = .report → go = .next { s with host := { s.host with sent := rest } })) ∧
    (∀ id, (s.host.sent.find? fun r => r.id == id) = none → exec (.hostAcknowledgement id) s = .next s)

/-- R415, R416, R418, Tables 22.4, 22.5, 23.4: what every host command has in common. A record with a bit set that the command does not name is a bad record; a
command for ring 0 is denied on another ring; a command that names an ASID is refused where no context has it and denied where the ring's owner does not.
The model's own choices in it: log 60. -/
def Obligations.CommandRefusals : Prop :=
  ∀ (s : State) (c : Cmd) (r : Ring), s.ring? c.ring = some r →
    let ends (e : Instr) (code sub : Nat) : Prop := ∃ t, exec e s = .next t ∧ t.mem = s.mem ∧ t.attrs = s.attrs ∧ t.cur = s.cur ∧ t.tasks = s.tasks ∧ t.pkg = s.pkg ∧
      Finished s t c r code sub 0
    let package : List (Instr × List Nat × Bool) := [(.ringClose c, cmdBits 0x02, false), (.ctxDestroy c, cmdBits 0x04, true), (.ctxSstate c, cmdBits 0x10, true),
      (.keySet c, cmdBits 0x05, false), (.reset c, cmdBits 0x0D, false), (.debugHalt c, debugBits 0, false), (.debugResume c, debugBits 1, false)]
    let owned : List (Instr × List Nat) := [(.unmap c, cmdBits 0x07), (.launch c, cmdBits 0x08), (.copyIn c, cmdBits 0x0A), (.copyOut c, cmdBits 0x0B),
      (.lrecFree c, cmdBits 0x11)]
    let free : List (Instr × List Nat) := [(.abort c, cmdBits 0x09), (.query c, cmdBits 0x0C), (.attest c, cmdBits 0x0E), (.debugStop c, debugBits 2),
      (.debugGroup c, debugBits 3), (.debugRun c, debugBits 4), (.debugStep c, debugBits 5), (.bpset c, debugBits 6), (.bpclr c, debugBits 7), (.debugRead c, debugBits 8),
      (.debugWrite c, debugBits 9), (.sample c, debugBits 10)]
    (∀ e ∈ package, (cmdClean c e.2.1 e.2.2 = false → ends e.1 3 0) ∧ (cmdClean c e.2.1 e.2.2 = true → e.2.2 = true → s.tenantOf? c.asid = none → ends e.1 5 3) ∧
      (cmdClean c e.2.1 e.2.2 = true → e.2.2 = false ∨ s.tenantOf? c.asid ≠ none → c.ring ≠ 0 → ends e.1 4 0)) ∧
    (∀ e ∈ owned, (cmdClean c e.2 true = false → ends e.1 3 0) ∧ (cmdClean c e.2 true = true → s.tenantOf? c.asid = none → ends e.1 5 3) ∧
      (∀ owner, cmdClean c e.2 true = true → s.tenantOf? c.asid = some owner → c.ring ≠ 0 → owner ≠ r.owner → ends e.1 4 0)) ∧
    (∀ e ∈ free, cmdClean c e.2 false = false → ends e.1 3 0) ∧
    (cmdClean c (cmdBits 0x01) false = false → ends (.ringOpen c) 3 0) ∧ (cmdClean c (cmdBits 0x03) true = false → ends (.ctxCreate c) 3 0) ∧
    (cmdClean c (cmdBits 0x06) true = false → ends (.map c) 3 0)

/-- R91, R94, R220, R226, R228, R237, R410, R416 to R418, R440, Table 22.9: rings, contexts, keys, pages and freed records.
The model's own choices in it: logs 60, 61. -/
def Obligations.RingAndContextCommands : Prop :=
  ∀ (s : State) (c : Cmd) (r : Ring), s.ring? c.ring = some r →
    let quiet (t : State) : Prop := t.mem = s.mem ∧ t.attrs = s.attrs
    let asid := c.asid
    let owned : Prop := ∃ o, s.tenantOf? asid = some o ∧ (c.ring = 0 ∨ o = r.owner)
    let word (b : List Byte) (k : Nat) : Nat := numberOf ((b.drop (8 * k)).take 8)
    let good (b : List Byte) : Prop := word b 0 < 2 ^ 48 ∧ word b 1 ≤ word b 2 ∧ word b 2 < 2 ^ 48 ∧ word b 3 < 2 ^ 32 ∧ word b 0 % 4 = 0 ∧ word b 1 % 4 = 0 ∧ word b 2 % 4 = 0 ∧
      word b 5 < 2 ^ 29 ∧ word b 5 / 2 ^ 9 % 2 ^ 7 = 0 ∧ word b 6 = 0 ∧ word b 7 = 0
    let block (b : List Byte) : SState := ⟨BitVec.ofNat 48 (word b 0), BitVec.ofNat 48 (word b 1), BitVec.ofNat 48 (word b 2), BitVec.ofNat 32 (word b 3),
      BitVec.ofNat 64 (word b 4), BitVec.ofNat 9 (word b 5), BitVec.ofNat 13 (word b 5 / 2 ^ 16)⟩
    (c.ring = 0 → cmdClean c (cmdBits 0x01) false = true →
      let n := c.field 0 0 4
      let logn := c.field 1 40 4
      let cq := c.field 5 32 4
      n ≠ 0 → 4 ≤ logn → logn ≤ 12 → 4 ≤ cq → cq ≤ 12 → c.field 1 0 39 % 4096 = 0 → ∃ t, exec (.ringOpen c) s = .next t ∧ quiet t ∧ Finished s t c r 0 0 0 ∧
        (∀ k, t.host.landed.contains (n, k) = false) ∧ ∃ q, t.ring? n = some q ∧ q.open_ = true ∧ q.base = (c.arg 1).extractLsb' 0 39 ∧ q.logn = logn ∧
          q.owner = (c.arg 2).extractLsb' 0 16 ∧ q.src = c.arg 3 ∧ q.cqaddr = c.arg 4 ∧ q.cqkey = (c.arg 5).extractLsb' 0 32 ∧ q.cqlogn = cq ∧ q.next = 0 ∧
          q.done = 0xFFFFFFFF ∧ q.tail = 0 ∧ q.parked = none ∧ q.ran = false) ∧
    (c.ring = 0 → cmdClean c (cmdBits 0x02) false = true →
      let n := c.field 0 0 4
      (∀ q, s.ring? n = some q → n ≠ 0 → q.parked = none → ∃ t, exec (.ringClose c) s = .next t ∧ quiet t ∧ Finished s t c r 0 0 0 ∧ t.ring? n = some { q with open_ := false }) ∧
      (∀ q, s.ring? n = some q → n ≠ 0 → q.parked ≠ none → ∃ t, exec (.ringClose c) s = .next t ∧ quiet t ∧ Finished s t c r 0 0 0 ∧ t.ring? n = some { q with closing := true }) ∧
      (n = 0 → ∃ t, exec (.ringClose c) s = .next t ∧ quiet t ∧ Finished s t c { r with closing := true } 0 0 0)) ∧
    (c.ring = 0 → cmdClean c (cmdBits 0x03) true = true →
      let first := c.field 2 0 9
      let last := c.field 2 9 9
      let tag : BitVec 16 := (c.arg 0).extractLsb' 0 16
      let base : BitVec 17 := (c.arg 2).extractLsb' 31 17
      let mine (k : Nat) : Prop := first ≤ k ∧ k ≤ last
      first ≤ last → 4 ≤ c.field 6 32 5 → c.field 6 32 5 ≤ 16 →
        (∀ o, s.tenantOf? asid = some o → ∃ t, exec (.ctxCreate c) s = .next t ∧ quiet t ∧ Finished s t c r 5 4 0) ∧
        (s.tenantOf? asid = none → (∃ k, mine k ∧ (s.isReady (4 + quadOf k) = false ∨ (s.tile k).retired = true ∨ ∃ w ∈ (s.tile k).windows, w.scrub = true)) →
          ∃ t, exec (.ctxCreate c) s = .next t ∧ quiet t ∧ Finished s t c r 5 1 0) ∧
        (∀ b, s.tenantOf? asid = none → (∀ k, mine k → s.isReady (4 + quadOf k) = true ∧ (s.tile k).retired = false ∧ (∀ w ∈ (s.tile k).windows, w.scrub = false) ∧
            (s.tile k).windows.length < 16) → s.pkg.tenants.length < 4096 → s.physRead (c.field 8 0 39) 64 = .ok b →
          (¬good b → ∃ t, exec (.ctxCreate c) s = .next t ∧ quiet t ∧ Finished s t c r 3 0 0 ∧ t.tiles = s.tiles) ∧
          (good b → ∃ t, exec (.ctxCreate c) s = .next t ∧ quiet t ∧ t.cur = s.cur ∧ Finished s t c r 0 0 0 ∧
            (∀ k, t.tile k = if mine k then { s.tile k with windows := (s.tile k).windows ++ [⟨asid, base, first, last, (c.arg 2).getLsbD 18, false⟩] } else s.tile k) ∧
            t.pkg.asids.get? asid.toNat = some ⟨tag, (c.arg 1).extractLsb' 13 26, (c.arg 0).extractLsb' 16 8, true, base⟩ ∧ (t.pkg.tenants.get? tag.toNat).isSome = true ∧
            (∀ e, s.pkg.tenants.get? tag.toNat = some e → t.pkg.tenants = s.pkg.tenants) ∧
            ∃ x, t.ctx? asid = some x ∧ x.first = first ∧ x.last = last ∧ x.base = base ∧ x.staging = c.field 3 0 39 ∧ x.stagingSz = (c.arg 4).toNat ∧ x.ringAddr = c.arg 5 ∧
              x.ringKey = (c.arg 6).extractLsb' 0 32 ∧ x.ringLogn = c.field 6 32 5 ∧ x.headAddr = c.arg 7 ∧ x.rseq = 0 ∧ x.tail = 0 ∧ x.waiting = [] ∧ x.records = [] ∧
              x.sstate = block b ∧ x.dying = false))) ∧
    (c.ring = 0 → cmdClean c (cmdBits 0x10) true = true → owned → ∀ b, s.physRead (c.field 0 0 39) 64 = .ok b →
      (¬good b → ∃ t, exec (.ctxSstate c) s = .next t ∧ quiet t ∧ Finished s t c r 3 0 0) ∧
      (∀ x, good b → s.ctx? asid = some x → ∃ t, exec (.ctxSstate c) s = .next t ∧ quiet t ∧ Finished s t c r 0 0 0 ∧ t.ctx? asid = some { x with sstate := block b })) ∧
    (c.ring = 0 → cmdClean c (cmdBits 0x04) true = true → owned → ∀ x, s.ctx? asid = some x → x.waiting = [] →
      (∀ e ∈ s.pkg.launches, e.2.away = none → e.2.h.asid = asid → e.2.st.final = true) → s.net.reqs = [] →
        (s.ctxRuns asid = true → ∃ t, exec (.ctxDestroy c) s = .next t ∧ quiet t ∧ t.ctx? asid = some { x with dying := true } ∧ Posts s t 16 (.ctxDestroy c)) ∧
        (s.ctxRuns asid = false → ∃ t, exec (.ctxDestroy c) s = .next t ∧ quiet t ∧ t.ctx? asid = some { x with dying := true } ∧
          (∃ o : TlbiOp, t.net.tlbis = s.net.tlbis ++ [o] ∧ o.kind = 1 ∧ o.asid = asid ∧ o.cmd = some c ∧ (∀ h, h ∈ o.left ↔ h < 64) ∧ 64 ≤ o.acks) ∧
          ∀ h, h < 64 → ⟨s.now + hopDie 0 (h / 16), .tlbiAtHome h s.net.nextId⟩ ∈ t.net.pend)) ∧
    (∀ o id x, (s.net.tlbis.find? fun v => v.id == id) = some o → o.acks ≤ 1 → o.cmd = some c → s.ctx? asid = some x →
      (c.opc = 4 → ∃ t, exec (.tlbiAck id) s = .next t ∧ quiet t ∧ t.pkg.asids = s.pkg.asids.del asid.toNat ∧ t.ctx? asid = some { x with ender := some c } ∧
        t.host = s.host ∧ Posts s t 57344 (.scrubComplete asid) ∧ (∀ e ∈ t.tiles, ∀ w ∈ e.2.windows, w.asid = asid → w.scrub = true) ∧
        (∀ e ∈ t.dies, ∀ b ∈ e.2.bars, b.key.asid ≠ asid) ∧ ∀ e ∈ t.cores, ∀ k ∈ e.2.q4, k.asid ≠ asid) ∧
      (c.opc ≠ 4 → ∃ t, exec (.tlbiAck id) s = .next t ∧ quiet t ∧
        Finished s t c r 0 0 (BitVec.ofNat 64 (o.ptes.filter fun p => (s.readPte p).testBit 4).length))) ∧
    (c.ring = 0 → cmdClean c (cmdBits 0x05) false = true →
      let slot := c.field 0 0 13
      ((c.arg 0).getLsbD 32 = true → ∃ t, exec (.keySet c) s = .next t ∧ quiet t ∧ Finished s t c r 0 0 0 ∧ t.pkg.keys = s.pkg.keys.del slot) ∧
      ((c.arg 0).getLsbD 32 = false → ∃ t, exec (.keySet c) s = .next t ∧ quiet t ∧ Finished s t c r 0 0 0 ∧
        ∀ k, t.pkg.keys.get? k = if k = slot then some ⟨(c.arg 1).extractLsb' 0 16, c.arg 5 ++ c.arg 4 ++ c.arg 3 ++ c.arg 2, c.arg 9 ++ c.arg 8 ++ c.arg 7 ++ c.arg 6⟩
          else s.pkg.keys.get? k)) ∧
    (cmdClean c (cmdBits 0x11) true = true → owned → ∀ x, s.ctx? asid = some x → ∃ t, exec (.lrecFree c) s = .next t ∧ quiet t ∧ Finished s t c r 0 0 0 ∧
      t.ctx? asid = some { x with tail := Nat.max x.tail (Nat.min (c.arg 0).toNat (x.rseq - if ∃ m ∈ s.host.sent, m.why = .record asid then 1 else 0)) } ∧ ∃ p ∈ t.net.pend, p.ev = .launchRecordWrite asid) ∧
    (owned → s.mem.wf = true →
      let va := c.field 0 0 48
      let p1 := s.rootEntry asid va
      let e1 := s.readPte p1
      let p2 := pteAddr e1 + va / 2 ^ 27 % 2048 * 8
      let e2 := s.readPte p2
      let p3 := pteAddr e2 + va / 65536 % 2048 * 8
      let e3 := s.readPte p3
      let up (p : Nat) : Prop := p / 2 ^ 33 < 64 ∧ s.isReady (24 + p / 2 ^ 33 / 8) = true
      let table (e : Nat) : Prop := pteV e = true ∧ pteLeaf e = false ∧ pteReserved e = false ∧ pteAddr e % 16384 = 0
      c.field 1 0 32 = 1 → c.field 1 32 1 = 0 → up p1 →
        (cmdClean c (cmdBits 0x06) true = true →
          let a := c.field 2 0 33
          let ft := c.field 3 1 1
          let flags := 64 + c.field 3 0 1 * 2 + c.field 3 2 1 * 32 + c.field 3 8 13 * 256
          (ft = 1 → a = 0) → a % 65536 = 0 → a + 65536 ≤ 2 ^ 33 → ft = 1 ∨ s.isReady (24 + va / 65536 % 64 / 8) = true →
            (table e1 → up p2 → table e2 → up p3 → ∃ t, exec (.map c) s = .next t ∧ Finished s t c r 0 0 0 ∧
              t.readPte p3 = (if ft = 1 then flags + 4 else flags + 1 + (va / 65536 % 64 * 2 ^ 33 + a) / 4096 * 2 ^ 24)) ∧
            (pteV e1 = false → (s.home (va / 65536 % 64)).pool = [] → ∃ t, exec (.map c) s = .next t ∧ quiet t ∧ Finished s t c r 7 0 0)) ∧
        (cmdClean c (cmdBits 0x07) true = true → table e1 → up p2 → table e2 → up p3 → pteV e3 = true → pteLeaf e3 = true → ∃ t, exec (.unmap c) s = .next t ∧
          t.readPte p3 = e3 - 1 ∧ ∃ o : TlbiOp, t.net.tlbis = s.net.tlbis ++ [o] ∧ o.kind = 0 ∧ o.asid = asid ∧ o.first = va / 65536 ∧ o.count = 1 ∧ o.cmd = some c ∧ o.ptes = [p3] ∧
            (∀ h, h ∈ o.left ↔ h < 64))) ∧
    (cmdClean c (cmdBits 0x07) true = true → owned → c.field 1 0 32 = 0 → ∃ t, exec (.unmap c) s = .next t ∧ quiet t ∧ Finished s t c r 0 0 0)

/-- R172, R235, R408, R409, R416, R419, R420, R431, R434, R438, R439, Tables 7.7, 7.8, 22.9, 22.10, 23.6: launches, data, queries, attestation and resets.
The model's own choices in it: logs 37, 60. -/
def Obligations.LaunchAndDataCommands : Prop :=
  ∀ (s : State) (c : Cmd) (r : Ring), s.ring? c.ring = some r →
    let quiet (t : State) : Prop := t.mem = s.mem ∧ t.attrs = s.attrs
    let asid := c.asid
    let owns (a : BitVec 14) : Prop := c.ring = 0 ∨ s.tenantOf? a = some r.owner
    let owned : Prop := (s.tenantOf? asid).isSome = true ∧ owns asid
    let tile := s.podTile asid
    let ends (e : Instr) (code sub : Nat) (v : W64) : Prop := ∃ t, exec e s = .next t ∧ quiet t ∧ Finished s t c r code sub v
    (cmdClean c (cmdBits 0x08) true = true → owned → ∀ u off e eo,
      let hdr := c.field 0 0 48
      let hb := seenBytes s u off 64 ++ seenBytes s u (off + 64) 64
      let h := Header.of hb
      let ep := vaOf h.entryp
      let n := 8 * (h.nent + 1)
      let eb := seenBytes s e eo n
      hdr % 64 = 0 → hdr + 128 ≤ 2 ^ 48 → InSlice s tile asid hdr u off false → InSlice s tile asid (hdr + 64) u (off + 64) false → h.pmaskp = 0 →
        s.pkg.openings = [] → h.entryp.extractLsb' 48 4 = 0 → ep % 8 = 0 → ep % 64 + n ≤ 64 → ep + n ≤ 2 ^ 48 → InSlice s tile asid ep e eo false → c.field 2 0 16 = 0 →
        let verdict := s.refuseLaunch hb (wordsOf eb) [s.own] (s.ringOwns c.ring h.asid) (32768 + c.ring) 0
        (∀ k, verdict = some k → ends (.launch c) 5 k 0) ∧
        (verdict = none → h.preds = [] → h.ntask ≠ 0 → ∃ t, exec (.launch c) s = .next t ∧ quiet t ∧ Finished s t c r 0 0 (s.pkg.nextLaunch.setWidth 64) ∧
          t.pkg.nextLaunch = s.pkg.nextLaunch + 1 ∧ (∃ w, t.wl? h.wlid = some w ∧ w.launch = s.pkg.nextLaunch.toNat) ∧
          ∃ l, t.launch? s.pkg.nextLaunch.toNat = some l ∧ l.id = s.pkg.nextLaunch ∧ l.h = h ∧ l.hdrVa = BitVec.ofNat 48 hdr ∧ l.entries = wordsOf eb ∧ l.st = .waiting ∧
            l.regions = [] ∧ l.creator = none ∧ l.away = none)) ∧
    (cmdClean c (cmdBits 0x09) false = true →
      let id := (c.arg 0).extractLsb' 0 32
      (s.launch? id.toNat = none → ends (.abort c) 5 5 0) ∧
      (∀ l, s.launch? id.toNat = some l → l.id = id → l.away = none →
        (¬owns l.h.asid → ends (.abort c) 4 0 0) ∧
        (owns l.h.asid → l.st.final = true → ends (.abort c) 0 0 (match l.st with | .faulted => 1 | .hung => 2 | .cancelled => 3 | _ => 0)) ∧
        (owns l.h.asid → l.st.final = false → ∃ t, exec (.abort c) s = .next t ∧ Finished s t c r 0 0 0 ∧
          ∃ m, t.launch? id.toNat = some m ∧ m.st = .cancelled ∧ m.reason = 6 ∧ m.fin = s.now))) ∧
    (cmdClean c (cmdBits 0x0A) true = true → owned → ∀ x, s.ctx? asid = some x →
      let off := (c.arg 0).toNat
      let va := c.field 1 0 48
      let n := (c.arg 2).toNat
      (x.stagingSz < off + n ∨ 2 ^ 48 < va + n → ends (.copyIn c) 6 2 0) ∧
      (off ≤ x.stagingSz → n = 0 → ends (.copyIn c) 0 0 0) ∧
      (∀ b u o, r.put = 0 → off + n ≤ x.stagingSz → va + n ≤ 2 ^ 48 → 0 < n → va % 64 + n ≤ 64 → s.physRead (x.staging + off) n = .ok b → b.length = n → InSlice s tile asid va u o true →
        s.mem.wf = true → ∃ t, exec (.copyIn c) s = .next t ∧ Wrote s t (sramByte u o) n (2 ^ n - 1) b ∧ t.attrs.full = s.attrs.full ∧ Finished s t c r 0 0 0)) ∧
    (cmdClean c (cmdBits 0x0B) true = true → owned →
      let va := c.field 0 0 48
      let n := (c.arg 1).toNat
      (2 ^ 48 < va + n → ends (.copyOut c) 6 2 0) ∧
      (n = 0 → ends (.copyOut c) 0 0 0) ∧
      (∀ u o, 0 < n → va % 64 + n ≤ 64 → va + n ≤ 2 ^ 48 → InSlice s tile asid va u o false → ∃ t, exec (.copyOut c) s = .next t ∧ quiet t ∧ t.host.rings = s.host.rings ∧
        ∃ m : Rma, t.host.sent = s.host.sent ++ [m] ∧ m.why = .copyOut c ∧ m.addr = c.arg 2 ∧ m.key = (c.arg 3).extractLsb' 0 32 ∧ m.bytes = seenBytes s u o n)) ∧
    (cmdClean c (cmdBits 0x0C) false = true →
      let item := c.field 0 0 8
      let index := c.field 0 16 32
      let gives (b : List Byte) : Prop := ∃ t, exec (.query c) s = .next t ∧ quiet t ∧ Finished s t c r 0 0 (BitVec.ofNat 64 b.length) ∧
        SentTo t (c.arg 1) ((c.arg 2).extractLsb' 0 32) b
      (item = 0 → gives (bytesOfNat 8 (s.pkg.ready.toNat % 2 ^ 54 + if s.pkg.boot.lit then 2 ^ 63 else 0))) ∧
      (item = 1 → c.ring ≠ 0 → ends (.query c) 4 0 0) ∧ (item = 1 → c.ring = 0 → s.pkg.boot.report ≠ [] → gives s.pkg.boot.report) ∧
      (item = 4 → ∀ e, s.pkg.tenants.get? r.owner.toNat = some e → gives (bytesOfNat 8 e.rej.toNat)) ∧
      (item = 2 → 512 ≤ index → ends (.query c) 3 0 0) ∧ (item = 6 → index < 64 → c.ring ≠ 0 → ends (.query c) 4 0 0) ∧ (item = 7 → 1024 ≤ index → ends (.query c) 3 0 0) ∧
      (8 ≤ item → ends (.query c) 3 0 0)) ∧
    (cmdClean c (cmdBits 0x0E) false = true →
      let b := s.pkg.boot
      let n := b.img.cert.length
      let pad := (8 - n % 8) % 8
      let body := (List.range 8).flatMap (fun k => bytesOfNat 8 (c.arg k).toNat) ++ (List.range 4).flatMap (fun k => bytesOfNat 64 (b.meas.getD k 0).toNat) ++
        bytesOfNat 8 (s.pkg.ready.toNat % 2 ^ 54 + if b.lit then 2 ^ 63 else 0) ++ bytesOfNat 8 (b.img.svn.toNat + if b.lit then 2 ^ 32 else 0) ++ bytesOfNat 8 n ++ b.img.cert ++
        List.replicate pad 0
      ∃ t, exec (.attest c) s = .next t ∧ quiet t ∧ Finished s t c r 0 0 (BitVec.ofNat 64 (0x158 + n + pad + 512)) ∧
        ∃ sig, SentTo t (c.arg 8) ((c.arg 9).extractLsb' 0 32) (body ++ sig) ∧ sig.length = 512) ∧
    (cmdClean c (cmdBits 0x0D) false = true → c.ring = 0 →
      let mask := c.field 0 0 54
      let b := s.pkg.boot
      (mask = 0 → ends (.reset c) 0 0 0) ∧
      (mask = 2 ^ 54 - 1 → ∃ t, exec (.reset c) s = .next t ∧ t.mem = State.reset.mem ∧ t.slots = State.reset.slots ∧ t.pkg.ready = 0 ∧ t.pkg.boot.lastStop = 1 ∧
        t.pkg.boot.starts = b.starts ∧ t.pkg.boot.minSvn = b.minSvn ∧ t.pkg.boot.img = b.img ∧ t.pkg.boot.released = 2 ^ 54 - 1 ∧ t.host.rings = [] ∧
        t.cur.mc.mtvec = b.img.mentry ∧ t.net.pend = [⟨72000000000, .bootTimeout⟩] ∧ ∃ m : Rma, t.host.sent.getLast? = some m ∧ m.why = .completion) ∧
      (∀ bit, 24 ≤ bit → bit < 52 → mask = 2 ^ bit → ∃ t, exec (.reset c) s = .next t ∧ quiet t ∧ Finished s t c r 0 0 0 ∧ t.cur = s.cur ∧ t.isReady bit = false ∧
        (∀ k, k ≠ bit → t.isReady k = s.isReady k) ∧ t.pkg.boot.released.getLsbD bit = true ∧ t.pkg.boot.reasons.getD bit 0 = 0) ∧
      (∀ q, q < 4 → mask = 2 ^ (20 + q) → ∃ t, exec (.reset c) s = .next t ∧ Finished s t c r 0 0 0 ∧ t.isReady (20 + q) = false ∧
        ∀ a, t.mem.read a = if sramByte (128 * q) 0 ≤ a ∧ a < sramByte (128 * q + 128) 0 then 0 else s.mem.read a) ∧
      (mask = 2 ^ 52 → s.host.active = false → ∃ t, exec (.reset c) s = .next t ∧ quiet t ∧ t.isReady 52 = false ∧ t.host.rings = [] ∧ t.host.exec = none))

/-- R82, R429, R443 to R447, Tables 3.10, 23.4: the package is halted and resumed, tasks stop, run and step, breakpoints are set and cleared, the image of a
stopped task is read and written, and running slots are sampled.
The model's own choices in it: logs 23, 101. -/
def Obligations.DebugCommands : Prop :=
  ∀ (s : State) (c : Cmd) (r : Ring), s.ring? c.ring = some r →
    let quiet (t : State) : Prop := t.mem = s.mem ∧ t.attrs = s.attrs
    let owns (a : BitVec 14) : Prop := c.ring = 0 ∨ s.tenantOf? a = some r.owner
    let does (e : Instr) (P : State → Prop) : Prop := ∃ t, exec e s = .next t ∧ quiet t ∧ Finished s t c r 0 0 0 ∧ P t
    let ends (e : Instr) (code sub : Nat) : Prop := ∃ t, exec e s = .next t ∧ quiet t ∧ t.slots = s.slots ∧ t.cur = s.cur ∧ Finished s t c r code sub 0
    let clean (sub : Nat) : Prop := cmdClean c (debugBits sub) false = true
    let stopped (y : Slot) : Prop := y.ending = false ∧ (y.status = .stopped ∨ y.status = .halted)
    let alone (k : Nat) (y : Slot) (t : State) : Prop := t.slot k = y ∧ ∀ j, j ≠ k → t.slot j = s.slot j
    let task := s.tasks.get? (c.arg 1).toNat
    (clean 0 → c.ring = 0 → does (.debugHalt c) fun t => t.pkg = { s.pkg with halted := true } ∧ t.cur = s.cur) ∧
    (clean 1 → c.ring = 0 → does (.debugResume c) fun t => t.pkg = { s.pkg with halted := false } ∧ t.cur = s.cur) ∧
    (task = none → (clean 2 → ends (.debugStop c) 5 5) ∧ (clean 5 → ends (.debugStep c) 5 5) ∧ (clean 8 → ends (.debugRead c) 5 5) ∧
      (clean 9 → (c.arg 2).toNat % 8 = 0 → (c.arg 2).toNat < 2560 → ends (.debugWrite c) 5 5) ∧ (clean 4 → (c.arg 2).getLsbD 0 = false → ends (.debugRun c) 5 5)) ∧
    (∀ v, task = some v → ¬owns v.asid → (clean 2 → ends (.debugStop c) 4 0) ∧ (clean 5 → ends (.debugStep c) 4 0) ∧ (clean 8 → ends (.debugRead c) 4 0) ∧
      (clean 9 → (c.arg 2).toNat % 8 = 0 → (c.arg 2).toNat < 2560 → ends (.debugWrite c) 4 0)) ∧
    (∀ v k, task = some v → owns v.asid → v.place = .slot k →
      let y := s.slot k
      (clean 2 → (y.status ≠ .stopped → y.status ≠ .halted → does (.debugStop c) (alone k { y with stopReq := .stop })) ∧
        (y.status = .stopped ∨ y.status = .halted → does (.debugStop c) (alone k y))) ∧
      (clean 4 → (c.arg 2).getLsbD 0 = false → (stopped y → does (.debugRun c) (alone k { y with status := .ready, stopReq := .run })) ∧
        (¬stopped y → y.stopReq = .stop → does (.debugRun c) (alone k { y with stopReq := .none }))) ∧
      (clean 5 → (stopped y → does (.debugStep c) (alone k { y with status := .ready, stopReq := .step })) ∧ (¬stopped y → ends (.debugStep c) 5 6)) ∧
      (clean 8 → (¬stopped y → ends (.debugRead c) 5 6) ∧ (stopped y → ∃ t, exec (.debugRead c) s = .next t ∧ quiet t ∧ Finished s t c r 0 0 2560 ∧ t.cur = s.cur ∧
        ∃ b, SentTo t (c.arg 2) ((c.arg 3).extractLsb' 0 32) b ∧ b.length = 2560 ∧ b.take 8 = bytesOfNat 8 y.pc.toNat ∧
          (∀ n, 0 < n → n < 32 → (b.drop (8 * n)).take 8 = bytesOfNat 8 (y.readG (BitVec.ofNat 5 n)).toNat) ∧ (b.drop 0x958).take 8 = bytesOfNat 8 y.u.tid.toNat)) ∧
      (clean 9 → stopped y →
        let off := (c.arg 2).toNat
        (∀ n, 0 < n → n < 32 → off = 8 * n → does (.debugWrite c) fun t => alone k { y with regs := (t.slot k).regs } t ∧
          ∀ j, (t.slot k).readG j = if j = BitVec.ofNat 5 n then c.arg 3 else y.readG j) ∧
        (off = 0 → does (.debugWrite c) (alone k { y with pc := (c.arg 3).extractLsb' 0 48 &&& ~~~3, skip := (0, 0) })) ∧
        (off = 0x958 → does (.debugWrite c) (alone k y)))) ∧
    (clean 9 → (c.arg 2).toNat % 8 ≠ 0 ∨ 2560 ≤ (c.arg 2).toNat → ends (.debugWrite c) 3 0) ∧
    (∀ l, s.launch? ((c.arg 1).extractLsb' 0 32).toNat = some l → owns l.h.asid →
      (clean 3 → ∃ t, exec (.debugGroup c) s = .next t ∧ quiet t ∧ Finished s t c r 0 0 0 ∧ ∀ e ∈ s.tasks, e.2.launch = l.key → ∀ k, e.2.place = .slot k →
        (s.slot k).status ≠ .stopped → (s.slot k).status ≠ .halted → t.slot k = { s.slot k with stopReq := .stop }) ∧
      (clean 4 → (c.arg 2).getLsbD 0 = true → (c.arg 1).extractLsb' 32 32 = 0 → ∃ t, exec (.debugRun c) s = .next t ∧ quiet t ∧ Finished s t c r 0 0 0 ∧
        ∀ e ∈ s.tasks, e.2.launch = l.key → ∀ k, e.2.place = .slot k → stopped (s.slot k) → t.slot k = { s.slot k with status := .ready, stopReq := .run })) ∧
    (let n := c.field 1 0 6
     let mine : Prop := ∀ b, s.pkg.brks.get? n = some b → owns b.asid
     let asid : BitVec 14 := (c.arg 2).extractLsb' 0 14
     (clean 6 → s.tenantOf? asid = none → ends (.bpset c) 5 3) ∧
     (clean 6 → s.tenantOf? asid ≠ none → ¬(owns asid ∧ mine) → ends (.bpset c) 4 0) ∧
     (clean 6 → s.tenantOf? asid ≠ none → owns asid → mine → does (.bpset c) fun t =>
       ∀ k, t.pkg.brks.get? k = if k = n then some ⟨asid, (c.arg 3).extractLsb' 0 48, c.arg 4⟩ else s.pkg.brks.get? k) ∧
     (clean 7 → ¬mine → ends (.bpclr c) 4 0) ∧ (clean 7 → mine → does (.bpclr c) fun t => t.pkg.brks = s.pkg.brks.del n)) ∧
    (clean 10 →
      let n := (c.arg 2).toNat
      let period := if (c.arg 1).toNat = 0 then 1 else (c.arg 1).toNat
      (n = 0 → ends (.sample c) 0 0) ∧
      (n ≠ 0 → ∃ t, exec (.sample c) s = .next t ∧ quiet t ∧ t.host = s.host ∧ t.pkg = { s.pkg with samples := s.pkg.samples ++ [⟨s.net.nextId, period, n, [], c⟩] } ∧
        Posts s t period (.samplePeriod s.net.nextId))) ∧
    (∀ k id, (s.pkg.samples.find? fun v => v.id == id) = some k → k.cmd = c → (∀ e ∈ s.slots, ¬(e.2.status = .ready ∧ owns e.2.sc.asid)) →
      let x := s.cur
      let own_ := bytesOfNat 8 x.u.tid.toNat ++ bytesOfNat 8 (s.slotIdent s.curId).toNat ++ bytesOfNat 8 x.pc.toNat ++ bytesOfNat 8 s.now
      ∀ now_, (x.status = .ready ∧ owns x.sc.asid → now_ = own_) → (¬(x.status = .ready ∧ owns x.sc.asid) → now_ = []) →
      (1 < k.left → ∃ t, exec (.samplePeriod id) s = .next t ∧ quiet t ∧ t.cur = x ∧ t.host = s.host ∧ Posts s t k.period (.samplePeriod id) ∧
        (t.pkg.samples.find? fun v => v.id == id) = some { k with left := k.left - 1, recs := k.recs ++ now_ }) ∧
      (k.left ≤ 1 → ∃ t, exec (.samplePeriod id) s = .next t ∧ quiet t ∧ t.cur = x ∧ Finished s t c r 0 0 0 ∧ (∀ v ∈ t.pkg.samples, v.id ≠ id) ∧
        SentTo t (c.arg 3) ((c.arg 4).extractLsb' 0 32) (k.recs ++ now_))) ∧
    (∀ id, (s.pkg.samples.find? fun v => v.id == id) = none → exec (.samplePeriod id) s = .next s)

/-- R421, R431 to R437, Tables 23.1, 23.2: power-on, functions that become ready or fail, the boot report, the 30 s limit, and the failover of the command
processor.
The model's own choices in it: logs 65, 66, 98. -/
def Obligations.BootEvents : Prop :=
  ∀ (s : State),
    let b := s.pkg.boot
    let quiet (t : State) : Prop := t.mem = s.mem ∧ t.attrs = s.attrs
    let open_ (bit : Nat) : Prop := b.released.getLsbD bit = true ∧ s.isReady bit = false ∧ b.reasons.getD bit 0 = 0 ∧ bit < 54
    let settled (bit : Nat) : Prop := ∀ k, k < 54 → b.released.getLsbD k = true → k ≠ bit → s.isReady k = true ∨ b.reasons.getD k 0 ≠ 0
    (∀ img,
      let fresh (t : State) : Prop := t.mem = State.reset.mem ∧ t.attrs = State.reset.attrs ∧ t.slots = State.reset.slots ∧ t.host = State.reset.host ∧ t.now = 0 ∧ t.pkg.ready = 0 ∧
        t.pkg.boot.powered = true ∧ t.pkg.boot.starts = b.starts + 1 ∧ t.pkg.boot.startsRead = b.starts ∧ t.pkg.boot.minSvn = b.minSvn
      (b.powered = true → b.deadline ≠ 0 → exec (.powerOn img) s = .next s) ∧
      (b.powered = false ∨ b.deadline = 0 →
        (img.sigOk = true → b.minSvn.toNat ≤ img.svn.toNat → ∃ t, exec (.powerOn img) s = .next t ∧ fresh t ∧ t.pkg.boot.img = img ∧ t.cur.mc.mtvec = img.mentry ∧
          t.pkg.podIndex = img.podIndex ∧ t.net.pend = [⟨72000000000, .bootTimeout⟩] ∧ t.pkg.boot.lastStop = b.lastStop ∧
          (t.pkg.boot.lightStart = true ↔ 3 ≤ b.starts) ∧
          (∀ k, k < 54 → (t.pkg.boot.released.getLsbD k = true ↔ b.starts < 3 ∨ k = 0 ∨ k = 4 ∨ k = 24 ∨ k = 48 ∨ k = 52)) ∧
          (∀ k, k < 54 → t.pkg.boot.reasons.getD k 0 = if t.pkg.boot.released.getLsbD k then 0 else 6) ∧
          ∀ n d, n < 4 → img.stages = [(n, d)] → (t.pkg.boot.meas.getD n 0).toNat = numberOf (sha512 (List.replicate 64 0 ++ sha512 d))) ∧
        (img.sigOk = false ∨ img.svn.toNat < b.minSvn.toNat → ∃ t, exec (.powerOn img) s = .next t ∧ fresh t ∧ t.pkg.boot.lastStop = 4 ∧ t.pkg.boot.released = 0 ∧
          t.net.pend = []))) ∧
    (∀ bit, b.released.getLsbD bit = false ∨ s.isReady bit = true ∨ b.reasons.getD bit 0 ≠ 0 → exec (.functionReady bit) s = .next s ∧
      ∀ reason, exec (.functionFailed bit reason) s = .next s) ∧
    (∀ bit, open_ bit →
      (∃ t, exec (.functionReady bit) s = .next t ∧ t.isReady bit = true ∧ (∀ k, k ≠ bit → t.isReady k = s.isReady k) ∧
        (settled bit → b.reported = false → ∃ p ∈ t.net.pend, p.ev = .bootReport) ∧
        (bit ≠ 52 → t.pkg.boot = b) ∧
        (bit = 52 → b.judged = false → t.pkg.boot.judged = true ∧ t.pkg.boot.starts = 0 ∧ (b.img.commit = false → t.pkg.boot.minSvn = b.minSvn) ∧
          (b.img.commit = true → b.minSvn.toNat < b.img.svn.toNat → t.pkg.boot.minSvn = b.img.svn) ∧ (b.lightStart = true → t.pkg.boot.lit = true)) ∧
        (bit = 52 → (∀ r, s.ring? 0 = some r → r.open_ = false) → ∃ r, t.ring? 0 = some r ∧ r.open_ = true ∧ r.base = b.img.ring0.extractLsb' 0 39 ∧ r.logn = (b.img.ring0.extractLsb' 40 4).toNat ∧
          r.src = b.img.ring0Src ∧ r.cqaddr = b.img.ring0Cq ∧ r.next = 0 ∧ r.done = 0xFFFFFFFF)) ∧
      (∀ reason, 0 < reason → reason < 256 → ∃ t, exec (.functionFailed bit reason) s = .next t ∧ t.isReady bit = false ∧
        t.pkg.boot = { b with reasons := b.reasons.setIfInBounds bit (BitVec.ofNat 8 reason) } ∧
        (settled bit → b.reported = false → ∃ p ∈ t.net.pend, p.ev = .bootReport))) ∧
    (b.reported = true ∨ (s.isReady 52 = false ∧ s.isReady 53 = false) → exec .bootReport s = .next s) ∧
    (b.reported = false → s.isReady 52 = true ∨ s.isReady 53 = true → ∃ t, exec .bootReport s = .next t ∧ quiet t ∧ t.pkg.boot.reported = true ∧ t.pkg.boot.report.length = 256 ∧
      (t.pkg.boot.report.drop 8).take 8 = bytesOfNat 8 (s.pkg.ready.toNat % 2 ^ 54 + if b.lit then 2 ^ 63 else 0) ∧
      (∀ k, k < 54 → let marked : Prop := ∃ w ∈ s.pkg.wins, w.lasting = true ∧ match w.src with
            | .tileLogic n => k = 4 + quadOf n
            | .sramBank n _ => k = 20 + n / 128
            | .ualPort p => k = 32 + p
            | .uePort p => k = 48 + p
            | .sramLine .. => False
            | .hbmLine .. => False
          (b.reasons.getD k 0 ≠ 0 ∨ ¬marked → t.pkg.boot.report.getD (16 + k) 0 = b.reasons.getD k 0) ∧
          (b.reasons.getD k 0 = 0 → marked → t.pkg.boot.report.getD (16 + k) 0 = 5)) ∧
      (b.lightStart = false → s.isReady 48 = true → ∃ m : Rma, t.host.sent = s.host.sent ++ [m] ∧ m.addr = b.img.reportTo ∧ m.key = b.img.reportKey ∧ m.bytes = t.pkg.boot.report) ∧
      (s.isReady 48 = false → b.lightStart = false → t.host = s.host)) ∧
    (b.deadline = 0 ∨ s.now < b.deadline → exec .bootTimeout s = .next s) ∧
    (b.deadline ≠ 0 → b.deadline ≤ s.now → ∃ t, exec .bootTimeout s = .next t ∧ t.pkg.boot.reported = true ∧
      (∀ k, k < 54 → t.pkg.boot.reasons.getD k 0 = if b.released.getLsbD k = true ∧ s.isReady k = false ∧ b.reasons.getD k 0 = 0 then 4 else b.reasons.getD k 0) ∧
      (b.judged = false → t.pkg.boot.judged = true ∧ t.pkg.boot.ended = true ∧ t.pkg.boot.lastStop = 3) ∧ (b.judged = true → t.pkg.boot.lastStop = b.lastStop)) ∧
    (s.host.active = true ∨ s.isReady 53 = false → exec .commandProcessorFailover s = .next s) ∧
    (∀ n r, s.host.active = false → s.isReady 53 = true → s.host.rings = [(n, r)] → r.open_ = true → ∃ t, exec .commandProcessorFailover s = .next t ∧ quiet t ∧ t.cur = s.cur ∧
      t.host.active = true ∧ t.host.exec = none ∧
      (∀ c, r.done = r.next → s.running n = some c → (∀ o ∈ s.host.sent, ∀ k, o.why ≠ .copyOut k) →
        let v : W64 := if c.opc = 8 then 0xFFFFFFFFFFFFFFFF else 0
        (∃ q, t.ring? n = some q ∧ q.next = r.next + 1 ∧ q.code = 8 ∧ q.value = v ∧ q.parked = none) ∧
        ∃ m : Rma, t.host.sent = s.host.sent ++ [m] ∧ m.why = .completion ∧
          m.bytes = bytesOfNat 8 (r.next.toNat + n * 2 ^ 32 + 8 * 2 ^ 40) ++ bytesOfNat 8 c.htag.toNat ++ bytesOfNat 8 v.toNat ++ bytesOfNat 8 0) ∧
      (r.done ≠ r.next → r.ran = true → t.ring? n = some r ∧ ∃ m : Rma, t.host.sent = s.host.sent ++ [m] ∧ m.why = .completion ∧
        m.bytes = bytesOfNat 8 (r.done.toNat + n * 2 ^ 32 + r.code * 2 ^ 40 + r.sub % 256 * 2 ^ 48) ++ bytesOfNat 8 r.htag.toNat ++ bytesOfNat 8 r.value.toNat ++ bytesOfNat 8 0) ∧
      (r.done ≠ r.next → r.ran = false → t.ring? n = some r ∧ t.host.sent = s.host.sent))

/-! ### Rules that hold of the whole machine -/

/-- R69: an instruction that reads or writes a register that is the destination of an incomplete long-latency instruction traps WINDOW where it would issue,
and never issues. -/
def Obligations.WindowRule : Prop :=
  ∀ (s : State) (i : Instr), s.cur.status ≠ .free → s.cur.hold = .none →
    let x := s.cur
    let f := infoOf i
    let pending (r : RegRef) : Prop := r ∈ f.names ∧ r.constant = false ∧ ∃ o ∈ x.ops, r ∈ o.dests
    (∃ r, pending r) →
      (s.mayIssue = true → x.inWindows = true → f.serial = false → s.atBreakpoint = false → f.level.num ≤ x.level.num → (∀ n, f.csr = some n → csrAssigned n = true) →
        ∃ r, pending r ∧ exec i s = .next (s.charge.issueTrap (encode i) 0x08 r.code ((encode i).setWidth 64))) ∧
      (exec i s = .next s ∨ exec i s = .next s.takeStop ∨ ∃ cause code, exec i s = .next (s.charge.issueTrap (encode i) cause code ((encode i).setWidth 64)))

/-- R62: CSRW, CSRS and CSRC trap PRIV where the value that they would write to SASID has an ASID that the tenant table does not give to the slot's tenant, and
SASID stays as it is. -/
def Obligations.AsidWrites : Prop :=
  ∀ (s : State) (d a : RegNo),
    let x := s.cur
    let v := x.readG a
    let old := s.csrRead 0x106
    let foreign (w : W64) : Prop := s.tenantOf? (w.extractLsb' 0 14) ≠ some x.sc.tenant
    let traps (i : Instr) : Prop := Traps i s 0x0E 0 ((encode i).setWidth 64) ∧
      (x.spec.mode = .none → x.spec.commit = .none → (ToM x 0x0E ∧ ¬(x.level = .m ∧ x.mc.intrap = true)) ∨ (¬ToM x 0x0E ∧ x.sc.stvec ≠ 0) →
        Completes i s fun t => t.cur.sc.asid = x.sc.asid ∧ t.cur.sc.tenant = x.sc.tenant)
    (foreign v → traps (.csrw d a 0x106)) ∧ (a ≠ 0 → foreign (old ||| v) → traps (.csrs d a 0x106)) ∧ (a ≠ 0 → foreign (old &&& ~~~v) → traps (.csrc d a 0x106))

/-- R95, R109, R431, Tables 1.3, 3.2 to 3.4: what reset leaves. The CSRs hold the values of the tables (MTVEC that of an image not yet loaded), every slot is
Free, every word of every slice is zero and empty, no line is poisoned, and no function is ready.
The model's own choices in it: log 4. -/
def Obligations.ResetState : Prop :=
  (∀ n : BitVec 12, csrAssigned n = true → State.reset.csrRead n.toNat =
    if n = 0x0B0 then 0xFEDCBA9876543210 else if n = 0x120 then 64 else if n = 0x121 then 256 else if n = 0x200 then 2 else if n = 0x206 then 0x003FFFFE
    else if n = 0x221 then 4096 else if n = 0x230 then 2048 else 0) ∧
  (∀ k, (State.reset.slot k).status = .free) ∧
  (∀ tile off, State.reset.mem.read (sramByte tile off) = 0 ∧ State.reset.isFull tile off = false) ∧
  (∀ home line, State.reset.poisoned home line = false) ∧ ∀ bit, State.reset.isReady bit = false

/-- The memory of the reset state has the canonical form. -/
def Obligations.ResetMemoryCanonical : Prop := State.reset.mem.wf = true

/-- Whatever a step does, an instruction or an event, memory keeps its canonical form: its addresses rise strictly and no entry holds what an unlisted address
reads as. Equal memories are then equal data. -/
def Obligations.StepKeepsMemoryCanonical : Prop := ∀ (s t : State), s.mem.wf = true → step s = .next t → t.mem.wf = true

/-- R243, R246: the words of every well-formed instruction decode to it, with every operand at every value that its encoding admits. -/
def Obligations.DecodeEncode : Prop := ∀ (i : Instr), i.isEvent = false → i.wf = true → decode (encode i) = .ok i

/-- R244, R251 to R263, Table 12.1: the example words of the spec decode as it says. -/
def Obligations.DecodingSamples : Prop :=
  decode 0x20A28010 = .ok (.cmpi 1 .lt 5 16) ∧ decode 0xA5002208 = .ok (.vfma 8 0 4 8 1) ∧ decode 0xCCE62800 = .ok (.qpop 7 3 1) ∧
  decode 0x08A50001 = .ok (.addi 5 5 1) ∧ decode 0x38A65FFC = .ok (.bcc 5 6 .lt 0x1FFC) ∧ decode 0x05053044 = .ok (.cmp 2 5 6 .ltn) ∧
  decode 0xD12A6000 = .ok (.wlpsh 9 10 12) ∧ decode 0xB890A621 = .ok (.mmaIx 1 4 5 6 .e4m3 false false) ∧ decode 0xD80A0101 = .ok (.csrw 0 10 0x010) ∧
  decode 0x84640202 = .ok (.vld 3 4 0 false 2 2) ∧ decode 0x68E42860 = .ok (.amoAdd 7 4 5 0 .d) ∧ decode 0x58A40402 = .ok (.st 5 4 0 false .w 2) ∧
  decode 0xC4042801 = .ok (.cpyx 4 5) ∧ decode 0x04611080 = .illegal 4 ∧ decode 0xE4000000 = .illegal 1 ∧ decode 0x9C221806 = .illegal 5 ∧ decode 0xAC221001 = .illegal 3 ∧
  decode 0xA0000007 = .illegal 2 ∧ decode 0 = .illegal 1 ∧ decode 0xFFFFFFFF = .illegal 1

/-- R65, R79, R244: a step of the cores runs what the word at the program counter of the selected slot decodes to, and traps where there is no instruction. Nothing
is added around it: the instruction itself moves the program counter, in retiring. An instruction that holds issue, and one of a running frame, stands before the
word at the program counter.
The model's own choices in it: logs 1, 2. -/
def Obligations.StepRunsDecoded : Prop :=
  ∀ (s : State),
    (∀ k rest choices, s.net.issueQ = k :: rest → s.net.plan = .core :: choices →
      let u : State := ({ s with net := { s.net with plan := choices, issueQ := rest } } : State).focus k
      let x := u.cur
      x.status ≠ .free →
        (x.hold = .none → x.frame = none → x.inRegion x.pc = true → ∀ w, u.icWord x.pc = some w →
          (∀ i, decode w = .ok i → step s = exec i u) ∧ (∀ c, decode w = .illegal c → step s = exec (.illegalWord w) u)) ∧
        (x.hold = .none → x.frame = none → x.inRegion x.pc = false → step s = exec .fetchOutsideCodeRegion u) ∧
        (x.hold = .none → x.frame = none → x.inRegion x.pc = true → u.icWord x.pc = none → step s = .next u) ∧
        (∀ i, x.hold ≠ .none → decode x.word = .ok i → step s = exec i u) ∧
        (∀ f i, x.hold = .none → x.frame = some f → f.current = some i → step s = exec i u)) ∧
    (∀ nbits w i, decode (BitVec.ofNat 32 w) = .ok i → ∃ u, step (s.withFetchWord nbits w) = exec i u ∧ u.curId = s.curId ∧ u.cur.pc = 0 ∧ u.cur.level = .m ∧
      u.cur.regs = s.cur.regs ∧ u.mem = s.mem)

/-- No instruction and no event is refused, and none faults but an instruction, a word or a fetch that is given to a slot which holds no task.
The model's own choices in it: log 72. -/
def Obligations.EveryInstructionAnswers : Prop :=
  ∀ (s : State) (i : Instr),
    (s.cur.status ≠ .free → ∃ t, exec i s = .next t) ∧ (s.cur.status = .free → i.isEvent = false → exec i s = .fault .slotEmpty)
end

