-- ==== Sys2Proof/Laws/Map.lean ====
section
/-! SUPPORT. Sparse tables: what a table reads after an entry is set or removed. -/

namespace Sys2Proof.Machine

theorem Map.getD_set {α : Type} (d a : α) (m : Map α) (k j : Nat) :
    (Map.set m k a).getD d j = if j = k then a else m.getD d j := by
  induction m with
  | nil => simp [Map.set, Map.getD, eq_comm]
  | cons e m ih =>
    obtain ⟨i, b⟩ := e
    simp only [Map.set]
    split
    · simp [Map.getD, eq_comm]
    · split
      · subst_vars
        simp only [Map.getD, eq_comm (a := j)]
        split <;> rfl
      · simp only [Map.getD, ih]
        split
        · subst_vars
          rw [if_neg (by omega)]
        · rfl

theorem Map.get?_set {α : Type} (a : α) (m : Map α) (k j : Nat) :
    (Map.set m k a).get? j = if j = k then some a else m.get? j := by
  induction m with
  | nil => simp [Map.set, Map.get?, eq_comm]
  | cons e m ih =>
    obtain ⟨i, b⟩ := e
    simp only [Map.set]
    split
    · simp [Map.get?, eq_comm]
    · split
      · subst_vars
        simp only [Map.get?, eq_comm (a := j)]
        split <;> rfl
      · simp only [Map.get?, ih]
        split
        · subst_vars
          rw [if_neg (by omega)]
        · rfl

@[simp] theorem Map.getD_set_same {α : Type} (d a : α) (m : Map α) (k : Nat) : (Map.set m k a).getD d k = a := by
  simp [Map.getD_set]

@[simp] theorem Map.get?_set_same {α : Type} (a : α) (m : Map α) (k : Nat) : (Map.set m k a).get? k = some a := by
  simp [Map.get?_set]

/-! ### Cores, tiles, homes, dies, tasks -/

theorem State.tile_updTile (s : State) (t k : Nat) (f : Tile → Tile) :
    (s.updTile t f).tile k = if k = t then f (s.tile t) else s.tile k := Map.getD_set ..
theorem State.core_updCore (s : State) (c k : Nat) (f : Core → Core) :
    (s.updCore c f).core k = if k = c then f (s.core c) else s.core k := Map.getD_set ..
theorem State.home_updHome (s : State) (h k : Nat) (f : Home → Home) :
    (s.updHome h f).home k = if k = h then f (s.home h) else s.home k := Map.getD_set ..
theorem State.die_updDie (s : State) (d k : Nat) (f : Die → Die) :
    (s.updDie d f).die k = if k = d then f (s.die d) else s.die k := Map.getD_set ..
theorem State.task_updTask (s : State) (t k : W64) (f : Task → Task) :
    (s.updTask t f).task k = if k = t then f (s.task t) else s.task k := by
  unfold State.updTask State.task
  rw [Map.getD_set]
  simp only [BitVec.toNat_inj]

/-- Counting changes counters of the tile alone. -/
theorem State.tile_tally (s : State) (t c n k : Nat) :
    (s.tally t c n).tile k = { s.tile k with pcs := ((s.tally t c n).tile k).pcs } := by
  unfold State.tally
  dsimp only
  split
  · rw [State.tile_updTile]
    split
    · subst_vars; rfl
    · rfl
  · rfl

/-- Spending a turn and retiring change counters of tiles alone. -/
theorem State.tile_charge (s : State) (k : Nat) : s.charge.tile k = { s.tile k with pcs := (s.charge.tile k).pcs } := by
  exact State.tile_tally ..
theorem State.tile_retire (s : State) (k : Nat) : s.retire.tile k = { s.tile k with pcs := (s.retire.tile k).pcs } := by
  exact State.tile_tally ..

end Sys2Proof.Machine
end

