-- ==== Sys2Proof/Laws/Regs.lean ====
section
/-! SUPPORT. The register files of a slot: what a read gives after a write (R57, R58, R78). -/

namespace Sys2Proof.Machine

theorem vget {α : Type} {n : Nat} (v : Vector α n) (j : Nat) (d : α) : v.getD j d = if h : j < n then v[j] else d := by
  obtain ⟨a, rfl⟩ := v
  simp only [Vector.getD, Array.getD]
  rfl

theorem vget_set {α : Type} {n : Nat} (v : Vector α n) (i j : Nat) (a d : α) (hi : i < n) :
    (v.setIfInBounds i a).getD j d = if j = i then a else v.getD j d := by
  rw [vget, vget]
  by_cases hj : j < n
  · simp only [hj, dif_pos, Vector.getElem_setIfInBounds, eq_comm]
  · rw [dif_neg hj, dif_neg hj, if_neg (by omega)]

@[simp] theorem Slot.readG_zero (x : Slot) : x.readG 0 = 0 := by simp [Slot.readG]
@[simp] theorem Slot.readP_zero (x : Slot) : x.readP 0 = 0xFFFF := by simp [Slot.readP]

@[simp] theorem Slot.writeG_u (x : Slot) (d : RegNo) (v : W64) : (x.writeG d v).u = x.u := by
  unfold Slot.writeG
  split
  · rfl
  · split <;> rfl

/-- Scalar registers after a write. -/
theorem Slot.writeG_sets (x : Slot) (d : RegNo) (v : W64) : SetsG x (x.writeG d v) d v := by
  have hd := d.isLt
  by_cases hd0 : d = 0
  · subst hd0
    refine ⟨fun r => ?_, rfl, rfl, fun _ => rfl, fun _ _ _ _ => rfl⟩
    rw [if_neg (by simp)]
    simp [Slot.writeG]
  · have e : x.writeG d v = if x.u.active && decide (24 ≤ d.toNat ∧ d.toNat ≤ 27) then
        { x with regs := { x.regs with shadow := x.regs.shadow.setIfInBounds (d.toNat - 24) v } }
      else { x with regs := { x.regs with g := x.regs.g.setIfInBounds d.toNat v } } := by
      rw [Slot.writeG, if_neg hd0]
    rw [e]
    split
    · rename_i h
      simp only [Bool.and_eq_true, decide_eq_true_eq] at h
      refine ⟨fun r => ?_, rfl, rfl, fun ha => by simp_all, fun _ _ _ _ => rfl⟩
      unfold Slot.readG
      by_cases hr : r = 0
      · simp [hr]
      · simp only [hr, if_false, h.1, Bool.true_and, decide_eq_true_eq, ne_eq, not_false_eq_true, and_true]
        split
        · rw [vget_set _ _ _ _ _ (by omega)]
          by_cases hrd : r = d
          · simp [hrd]
          · rw [if_neg hrd, if_neg]
            intro hc
            apply hrd
            apply BitVec.eq_of_toNat_eq
            omega
        · rw [if_neg]
          rintro rfl
          omega
    · rename_i h
      simp only [Bool.and_eq_true, decide_eq_true_eq, not_and, and_imp] at h
      refine ⟨fun r => ?_, rfl, rfl, fun _ => rfl, fun ha k h1 h2 => ?_⟩
      · unfold Slot.readG
        by_cases hr : r = 0
        · simp [hr]
        · simp only [hr, if_false, ne_eq, not_false_eq_true, and_true, Bool.and_eq_true, decide_eq_true_eq]
          split
          · rename_i h2
            rw [if_neg]
            rintro rfl
            exact h h2.1 h2.2.1 h2.2.2
          · rw [vget_set _ _ _ _ _ (by omega)]
            simp only [BitVec.toNat_inj]
      · rw [vget_set _ _ _ _ _ (by omega), if_neg]
        rintro rfl
        exact h ha h1 h2

/-- Predicate registers after a write. -/
theorem Slot.writeP_sets (x : Slot) (d : PredNo) (v : Pred) : SetsP x (x.writeP d v) d v := by
  by_cases hd0 : d = 0
  · subst hd0
    refine ⟨fun r => ?_, rfl, rfl, rfl⟩
    rw [if_neg (by simp)]
    simp [Slot.writeP]
  · have e : x.writeP d v = { x with regs := { x.regs with p := x.regs.p.setIfInBounds d.toNat v } } := by rw [Slot.writeP, if_neg hd0]
    rw [e]
    refine ⟨fun r => ?_, rfl, rfl, rfl⟩
    unfold Slot.readP
    by_cases hr : r = 0
    · simp [hr]
    · simp only [hr, if_false, ne_eq, not_false_eq_true, and_true]
      rw [vget_set _ _ _ _ _ d.isLt]
      simp only [BitVec.toNat_inj]

theorem lane_vecOf (f : Nat → W32) (k : Nat) (h : k < 16) : lane (vecOf f) k = f k := by
  unfold lane vecOf
  rw [vget, dif_pos h]
  simp

theorem Slot.readV_writeV (x : Slot) (d r : RegNo) (v : Vec) : (x.writeV d v).readV r = if r = d then v else x.readV r := by
  unfold Slot.readV Slot.writeV
  rw [vget_set _ _ _ _ _ d.isLt]
  simp only [BitVec.toNat_inj]

/-- Vector registers after a write of their active lanes. -/
theorem Slot.writeLanes_sets (x : Slot) (d : RegNo) (act : Pred) (f : Nat → W32) : SetsLanes x (x.writeLanes d act f) d act f := by
  refine ⟨fun r k hk => ?_, rfl, rfl, rfl⟩
  unfold Slot.writeLanes
  dsimp only
  rw [Slot.readV_writeV]
  by_cases hr : r = d
  · subst hr
    simp only [if_pos, true_and]
    rw [lane_vecOf _ _ hk]
  · simp [hr]

end Sys2Proof.Machine
end

