-- ==== Sys2Proof/Laws/State.lean ====
section
/-! SUPPORT. What each update of the state leaves in each of its fields, so that no proof unfolds a record update. -/

namespace Sys2Proof.Machine

/-! ### `State.updCur` -/

@[simp] theorem State.updCur_curId (s : State) (f : Slot → Slot) : (s.updCur f).curId = s.curId := rfl
@[simp] theorem State.updCur_cur (s : State) (f : Slot → Slot) : (s.updCur f).cur = f s.cur := rfl
@[simp] theorem State.updCur_slots (s : State) (f : Slot → Slot) : (s.updCur f).slots = s.slots := rfl
@[simp] theorem State.updCur_cores (s : State) (f : Slot → Slot) : (s.updCur f).cores = s.cores := rfl
@[simp] theorem State.updCur_tiles (s : State) (f : Slot → Slot) : (s.updCur f).tiles = s.tiles := rfl
@[simp] theorem State.updCur_homes (s : State) (f : Slot → Slot) : (s.updCur f).homes = s.homes := rfl
@[simp] theorem State.updCur_dies (s : State) (f : Slot → Slot) : (s.updCur f).dies = s.dies := rfl
@[simp] theorem State.updCur_tasks (s : State) (f : Slot → Slot) : (s.updCur f).tasks = s.tasks := rfl
@[simp] theorem State.updCur_mem (s : State) (f : Slot → Slot) : (s.updCur f).mem = s.mem := rfl
@[simp] theorem State.updCur_attrs (s : State) (f : Slot → Slot) : (s.updCur f).attrs = s.attrs := rfl
@[simp] theorem State.updCur_pkg (s : State) (f : Slot → Slot) : (s.updCur f).pkg = s.pkg := rfl
@[simp] theorem State.updCur_host (s : State) (f : Slot → Slot) : (s.updCur f).host = s.host := rfl
@[simp] theorem State.updCur_net (s : State) (f : Slot → Slot) : (s.updCur f).net = s.net := rfl

/-! ### `State.updCore` -/

@[simp] theorem State.updCore_curId (s : State) (c : Nat) (f : Core → Core) : (s.updCore c f).curId = s.curId := rfl
@[simp] theorem State.updCore_cur (s : State) (c : Nat) (f : Core → Core) : (s.updCore c f).cur = s.cur := rfl
@[simp] theorem State.updCore_slots (s : State) (c : Nat) (f : Core → Core) : (s.updCore c f).slots = s.slots := rfl
@[simp] theorem State.updCore_tiles (s : State) (c : Nat) (f : Core → Core) : (s.updCore c f).tiles = s.tiles := rfl
@[simp] theorem State.updCore_homes (s : State) (c : Nat) (f : Core → Core) : (s.updCore c f).homes = s.homes := rfl
@[simp] theorem State.updCore_dies (s : State) (c : Nat) (f : Core → Core) : (s.updCore c f).dies = s.dies := rfl
@[simp] theorem State.updCore_tasks (s : State) (c : Nat) (f : Core → Core) : (s.updCore c f).tasks = s.tasks := rfl
@[simp] theorem State.updCore_mem (s : State) (c : Nat) (f : Core → Core) : (s.updCore c f).mem = s.mem := rfl
@[simp] theorem State.updCore_attrs (s : State) (c : Nat) (f : Core → Core) : (s.updCore c f).attrs = s.attrs := rfl
@[simp] theorem State.updCore_pkg (s : State) (c : Nat) (f : Core → Core) : (s.updCore c f).pkg = s.pkg := rfl
@[simp] theorem State.updCore_host (s : State) (c : Nat) (f : Core → Core) : (s.updCore c f).host = s.host := rfl
@[simp] theorem State.updCore_net (s : State) (c : Nat) (f : Core → Core) : (s.updCore c f).net = s.net := rfl

/-! ### `State.updTile` -/

@[simp] theorem State.updTile_curId (s : State) (k : Nat) (f : Tile → Tile) : (s.updTile k f).curId = s.curId := rfl
@[simp] theorem State.updTile_cur (s : State) (k : Nat) (f : Tile → Tile) : (s.updTile k f).cur = s.cur := rfl
@[simp] theorem State.updTile_slots (s : State) (k : Nat) (f : Tile → Tile) : (s.updTile k f).slots = s.slots := rfl
@[simp] theorem State.updTile_cores (s : State) (k : Nat) (f : Tile → Tile) : (s.updTile k f).cores = s.cores := rfl
@[simp] theorem State.updTile_homes (s : State) (k : Nat) (f : Tile → Tile) : (s.updTile k f).homes = s.homes := rfl
@[simp] theorem State.updTile_dies (s : State) (k : Nat) (f : Tile → Tile) : (s.updTile k f).dies = s.dies := rfl
@[simp] theorem State.updTile_tasks (s : State) (k : Nat) (f : Tile → Tile) : (s.updTile k f).tasks = s.tasks := rfl
@[simp] theorem State.updTile_mem (s : State) (k : Nat) (f : Tile → Tile) : (s.updTile k f).mem = s.mem := rfl
@[simp] theorem State.updTile_attrs (s : State) (k : Nat) (f : Tile → Tile) : (s.updTile k f).attrs = s.attrs := rfl
@[simp] theorem State.updTile_pkg (s : State) (k : Nat) (f : Tile → Tile) : (s.updTile k f).pkg = s.pkg := rfl
@[simp] theorem State.updTile_host (s : State) (k : Nat) (f : Tile → Tile) : (s.updTile k f).host = s.host := rfl
@[simp] theorem State.updTile_net (s : State) (k : Nat) (f : Tile → Tile) : (s.updTile k f).net = s.net := rfl

/-! ### `State.updHome` -/

@[simp] theorem State.updHome_curId (s : State) (h : Nat) (f : Home → Home) : (s.updHome h f).curId = s.curId := rfl
@[simp] theorem State.updHome_cur (s : State) (h : Nat) (f : Home → Home) : (s.updHome h f).cur = s.cur := rfl
@[simp] theorem State.updHome_slots (s : State) (h : Nat) (f : Home → Home) : (s.updHome h f).slots = s.slots := rfl
@[simp] theorem State.updHome_cores (s : State) (h : Nat) (f : Home → Home) : (s.updHome h f).cores = s.cores := rfl
@[simp] theorem State.updHome_tiles (s : State) (h : Nat) (f : Home → Home) : (s.updHome h f).tiles = s.tiles := rfl
@[simp] theorem State.updHome_dies (s : State) (h : Nat) (f : Home → Home) : (s.updHome h f).dies = s.dies := rfl
@[simp] theorem State.updHome_tasks (s : State) (h : Nat) (f : Home → Home) : (s.updHome h f).tasks = s.tasks := rfl
@[simp] theorem State.updHome_mem (s : State) (h : Nat) (f : Home → Home) : (s.updHome h f).mem = s.mem := rfl
@[simp] theorem State.updHome_attrs (s : State) (h : Nat) (f : Home → Home) : (s.updHome h f).attrs = s.attrs := rfl
@[simp] theorem State.updHome_pkg (s : State) (h : Nat) (f : Home → Home) : (s.updHome h f).pkg = s.pkg := rfl
@[simp] theorem State.updHome_host (s : State) (h : Nat) (f : Home → Home) : (s.updHome h f).host = s.host := rfl
@[simp] theorem State.updHome_net (s : State) (h : Nat) (f : Home → Home) : (s.updHome h f).net = s.net := rfl

/-! ### `State.updDie` -/

@[simp] theorem State.updDie_curId (s : State) (d : Nat) (f : Die → Die) : (s.updDie d f).curId = s.curId := rfl
@[simp] theorem State.updDie_cur (s : State) (d : Nat) (f : Die → Die) : (s.updDie d f).cur = s.cur := rfl
@[simp] theorem State.updDie_slots (s : State) (d : Nat) (f : Die → Die) : (s.updDie d f).slots = s.slots := rfl
@[simp] theorem State.updDie_cores (s : State) (d : Nat) (f : Die → Die) : (s.updDie d f).cores = s.cores := rfl
@[simp] theorem State.updDie_tiles (s : State) (d : Nat) (f : Die → Die) : (s.updDie d f).tiles = s.tiles := rfl
@[simp] theorem State.updDie_homes (s : State) (d : Nat) (f : Die → Die) : (s.updDie d f).homes = s.homes := rfl
@[simp] theorem State.updDie_tasks (s : State) (d : Nat) (f : Die → Die) : (s.updDie d f).tasks = s.tasks := rfl
@[simp] theorem State.updDie_mem (s : State) (d : Nat) (f : Die → Die) : (s.updDie d f).mem = s.mem := rfl
@[simp] theorem State.updDie_attrs (s : State) (d : Nat) (f : Die → Die) : (s.updDie d f).attrs = s.attrs := rfl
@[simp] theorem State.updDie_pkg (s : State) (d : Nat) (f : Die → Die) : (s.updDie d f).pkg = s.pkg := rfl
@[simp] theorem State.updDie_host (s : State) (d : Nat) (f : Die → Die) : (s.updDie d f).host = s.host := rfl
@[simp] theorem State.updDie_net (s : State) (d : Nat) (f : Die → Die) : (s.updDie d f).net = s.net := rfl

/-! ### `State.updTask` -/

@[simp] theorem State.updTask_curId (s : State) (tid : W64) (f : Task → Task) : (s.updTask tid f).curId = s.curId := rfl
@[simp] theorem State.updTask_cur (s : State) (tid : W64) (f : Task → Task) : (s.updTask tid f).cur = s.cur := rfl
@[simp] theorem State.updTask_slots (s : State) (tid : W64) (f : Task → Task) : (s.updTask tid f).slots = s.slots := rfl
@[simp] theorem State.updTask_cores (s : State) (tid : W64) (f : Task → Task) : (s.updTask tid f).cores = s.cores := rfl
@[simp] theorem State.updTask_tiles (s : State) (tid : W64) (f : Task → Task) : (s.updTask tid f).tiles = s.tiles := rfl
@[simp] theorem State.updTask_homes (s : State) (tid : W64) (f : Task → Task) : (s.updTask tid f).homes = s.homes := rfl
@[simp] theorem State.updTask_dies (s : State) (tid : W64) (f : Task → Task) : (s.updTask tid f).dies = s.dies := rfl
@[simp] theorem State.updTask_mem (s : State) (tid : W64) (f : Task → Task) : (s.updTask tid f).mem = s.mem := rfl
@[simp] theorem State.updTask_attrs (s : State) (tid : W64) (f : Task → Task) : (s.updTask tid f).attrs = s.attrs := rfl
@[simp] theorem State.updTask_pkg (s : State) (tid : W64) (f : Task → Task) : (s.updTask tid f).pkg = s.pkg := rfl
@[simp] theorem State.updTask_host (s : State) (tid : W64) (f : Task → Task) : (s.updTask tid f).host = s.host := rfl
@[simp] theorem State.updTask_net (s : State) (tid : W64) (f : Task → Task) : (s.updTask tid f).net = s.net := rfl

/-! ### `State.updPkg` -/

@[simp] theorem State.updPkg_curId (s : State) (f : Pkg → Pkg) : (s.updPkg f).curId = s.curId := rfl
@[simp] theorem State.updPkg_cur (s : State) (f : Pkg → Pkg) : (s.updPkg f).cur = s.cur := rfl
@[simp] theorem State.updPkg_slots (s : State) (f : Pkg → Pkg) : (s.updPkg f).slots = s.slots := rfl
@[simp] theorem State.updPkg_cores (s : State) (f : Pkg → Pkg) : (s.updPkg f).cores = s.cores := rfl
@[simp] theorem State.updPkg_tiles (s : State) (f : Pkg → Pkg) : (s.updPkg f).tiles = s.tiles := rfl
@[simp] theorem State.updPkg_homes (s : State) (f : Pkg → Pkg) : (s.updPkg f).homes = s.homes := rfl
@[simp] theorem State.updPkg_dies (s : State) (f : Pkg → Pkg) : (s.updPkg f).dies = s.dies := rfl
@[simp] theorem State.updPkg_tasks (s : State) (f : Pkg → Pkg) : (s.updPkg f).tasks = s.tasks := rfl
@[simp] theorem State.updPkg_mem (s : State) (f : Pkg → Pkg) : (s.updPkg f).mem = s.mem := rfl
@[simp] theorem State.updPkg_attrs (s : State) (f : Pkg → Pkg) : (s.updPkg f).attrs = s.attrs := rfl
@[simp] theorem State.updPkg_pkg (s : State) (f : Pkg → Pkg) : (s.updPkg f).pkg = f s.pkg := rfl
@[simp] theorem State.updPkg_host (s : State) (f : Pkg → Pkg) : (s.updPkg f).host = s.host := rfl
@[simp] theorem State.updPkg_net (s : State) (f : Pkg → Pkg) : (s.updPkg f).net = s.net := rfl

/-! ### `State.updNet` -/

@[simp] theorem State.updNet_curId (s : State) (f : Net → Net) : (s.updNet f).curId = s.curId := rfl
@[simp] theorem State.updNet_cur (s : State) (f : Net → Net) : (s.updNet f).cur = s.cur := rfl
@[simp] theorem State.updNet_slots (s : State) (f : Net → Net) : (s.updNet f).slots = s.slots := rfl
@[simp] theorem State.updNet_cores (s : State) (f : Net → Net) : (s.updNet f).cores = s.cores := rfl
@[simp] theorem State.updNet_tiles (s : State) (f : Net → Net) : (s.updNet f).tiles = s.tiles := rfl
@[simp] theorem State.updNet_homes (s : State) (f : Net → Net) : (s.updNet f).homes = s.homes := rfl
@[simp] theorem State.updNet_dies (s : State) (f : Net → Net) : (s.updNet f).dies = s.dies := rfl
@[simp] theorem State.updNet_tasks (s : State) (f : Net → Net) : (s.updNet f).tasks = s.tasks := rfl
@[simp] theorem State.updNet_mem (s : State) (f : Net → Net) : (s.updNet f).mem = s.mem := rfl
@[simp] theorem State.updNet_attrs (s : State) (f : Net → Net) : (s.updNet f).attrs = s.attrs := rfl
@[simp] theorem State.updNet_pkg (s : State) (f : Net → Net) : (s.updNet f).pkg = s.pkg := rfl
@[simp] theorem State.updNet_host (s : State) (f : Net → Net) : (s.updNet f).host = s.host := rfl
@[simp] theorem State.updNet_net (s : State) (f : Net → Net) : (s.updNet f).net = f s.net := rfl

/-! ### `State.updHost` -/

@[simp] theorem State.updHost_curId (s : State) (f : HostSt → HostSt) : (s.updHost f).curId = s.curId := rfl
@[simp] theorem State.updHost_cur (s : State) (f : HostSt → HostSt) : (s.updHost f).cur = s.cur := rfl
@[simp] theorem State.updHost_slots (s : State) (f : HostSt → HostSt) : (s.updHost f).slots = s.slots := rfl
@[simp] theorem State.updHost_cores (s : State) (f : HostSt → HostSt) : (s.updHost f).cores = s.cores := rfl
@[simp] theorem State.updHost_tiles (s : State) (f : HostSt → HostSt) : (s.updHost f).tiles = s.tiles := rfl
@[simp] theorem State.updHost_homes (s : State) (f : HostSt → HostSt) : (s.updHost f).homes = s.homes := rfl
@[simp] theorem State.updHost_dies (s : State) (f : HostSt → HostSt) : (s.updHost f).dies = s.dies := rfl
@[simp] theorem State.updHost_tasks (s : State) (f : HostSt → HostSt) : (s.updHost f).tasks = s.tasks := rfl
@[simp] theorem State.updHost_mem (s : State) (f : HostSt → HostSt) : (s.updHost f).mem = s.mem := rfl
@[simp] theorem State.updHost_attrs (s : State) (f : HostSt → HostSt) : (s.updHost f).attrs = s.attrs := rfl
@[simp] theorem State.updHost_pkg (s : State) (f : HostSt → HostSt) : (s.updHost f).pkg = s.pkg := rfl
@[simp] theorem State.updHost_host (s : State) (f : HostSt → HostSt) : (s.updHost f).host = f s.host := rfl
@[simp] theorem State.updHost_net (s : State) (f : HostSt → HostSt) : (s.updHost f).net = s.net := rfl

/-! ### `State.updBoot` -/

@[simp] theorem State.updBoot_curId (s : State) (f : Boot → Boot) : (s.updBoot f).curId = s.curId := rfl
@[simp] theorem State.updBoot_cur (s : State) (f : Boot → Boot) : (s.updBoot f).cur = s.cur := rfl
@[simp] theorem State.updBoot_slots (s : State) (f : Boot → Boot) : (s.updBoot f).slots = s.slots := rfl
@[simp] theorem State.updBoot_cores (s : State) (f : Boot → Boot) : (s.updBoot f).cores = s.cores := rfl
@[simp] theorem State.updBoot_tiles (s : State) (f : Boot → Boot) : (s.updBoot f).tiles = s.tiles := rfl
@[simp] theorem State.updBoot_homes (s : State) (f : Boot → Boot) : (s.updBoot f).homes = s.homes := rfl
@[simp] theorem State.updBoot_dies (s : State) (f : Boot → Boot) : (s.updBoot f).dies = s.dies := rfl
@[simp] theorem State.updBoot_tasks (s : State) (f : Boot → Boot) : (s.updBoot f).tasks = s.tasks := rfl
@[simp] theorem State.updBoot_mem (s : State) (f : Boot → Boot) : (s.updBoot f).mem = s.mem := rfl
@[simp] theorem State.updBoot_attrs (s : State) (f : Boot → Boot) : (s.updBoot f).attrs = s.attrs := rfl
@[simp] theorem State.updBoot_pkg (s : State) (f : Boot → Boot) : (s.updBoot f).pkg = { s.pkg with boot := f s.pkg.boot } := rfl
@[simp] theorem State.updBoot_host (s : State) (f : Boot → Boot) : (s.updBoot f).host = s.host := rfl
@[simp] theorem State.updBoot_net (s : State) (f : Boot → Boot) : (s.updBoot f).net = s.net := rfl

/-! ### `State.after` -/

@[simp] theorem State.after_curId (s : State) (d : Nat) (e : Event) : (s.after d e).curId = s.curId := rfl
@[simp] theorem State.after_cur (s : State) (d : Nat) (e : Event) : (s.after d e).cur = s.cur := rfl
@[simp] theorem State.after_slots (s : State) (d : Nat) (e : Event) : (s.after d e).slots = s.slots := rfl
@[simp] theorem State.after_cores (s : State) (d : Nat) (e : Event) : (s.after d e).cores = s.cores := rfl
@[simp] theorem State.after_tiles (s : State) (d : Nat) (e : Event) : (s.after d e).tiles = s.tiles := rfl
@[simp] theorem State.after_homes (s : State) (d : Nat) (e : Event) : (s.after d e).homes = s.homes := rfl
@[simp] theorem State.after_dies (s : State) (d : Nat) (e : Event) : (s.after d e).dies = s.dies := rfl
@[simp] theorem State.after_tasks (s : State) (d : Nat) (e : Event) : (s.after d e).tasks = s.tasks := rfl
@[simp] theorem State.after_mem (s : State) (d : Nat) (e : Event) : (s.after d e).mem = s.mem := rfl
@[simp] theorem State.after_attrs (s : State) (d : Nat) (e : Event) : (s.after d e).attrs = s.attrs := rfl
@[simp] theorem State.after_pkg (s : State) (d : Nat) (e : Event) : (s.after d e).pkg = s.pkg := rfl
@[simp] theorem State.after_host (s : State) (d : Nat) (e : Event) : (s.after d e).host = s.host := rfl
@[simp] theorem State.after_net (s : State) (d : Nat) (e : Event) : (s.after d e).net = { s.net with pend := s.net.pend ++ [⟨s.now + d, e⟩] } := rfl

/-! ### `State.setReq` -/

@[simp] theorem State.setReq_curId (s : State) (r : Req) : (s.setReq r).curId = s.curId := rfl
@[simp] theorem State.setReq_cur (s : State) (r : Req) : (s.setReq r).cur = s.cur := rfl
@[simp] theorem State.setReq_slots (s : State) (r : Req) : (s.setReq r).slots = s.slots := rfl
@[simp] theorem State.setReq_cores (s : State) (r : Req) : (s.setReq r).cores = s.cores := rfl
@[simp] theorem State.setReq_tiles (s : State) (r : Req) : (s.setReq r).tiles = s.tiles := rfl
@[simp] theorem State.setReq_homes (s : State) (r : Req) : (s.setReq r).homes = s.homes := rfl
@[simp] theorem State.setReq_dies (s : State) (r : Req) : (s.setReq r).dies = s.dies := rfl
@[simp] theorem State.setReq_tasks (s : State) (r : Req) : (s.setReq r).tasks = s.tasks := rfl
@[simp] theorem State.setReq_mem (s : State) (r : Req) : (s.setReq r).mem = s.mem := rfl
@[simp] theorem State.setReq_attrs (s : State) (r : Req) : (s.setReq r).attrs = s.attrs := rfl
@[simp] theorem State.setReq_pkg (s : State) (r : Req) : (s.setReq r).pkg = s.pkg := rfl
@[simp] theorem State.setReq_host (s : State) (r : Req) : (s.setReq r).host = s.host := rfl
@[simp] theorem State.setReq_net (s : State) (r : Req) : (s.setReq r).net = { s.net with reqs := s.net.reqs.set r.id r } := rfl

/-! ### `State.delReq` -/

@[simp] theorem State.delReq_curId (s : State) (id : Nat) : (s.delReq id).curId = s.curId := rfl
@[simp] theorem State.delReq_cur (s : State) (id : Nat) : (s.delReq id).cur = s.cur := rfl
@[simp] theorem State.delReq_slots (s : State) (id : Nat) : (s.delReq id).slots = s.slots := rfl
@[simp] theorem State.delReq_cores (s : State) (id : Nat) : (s.delReq id).cores = s.cores := rfl
@[simp] theorem State.delReq_tiles (s : State) (id : Nat) : (s.delReq id).tiles = s.tiles := rfl
@[simp] theorem State.delReq_homes (s : State) (id : Nat) : (s.delReq id).homes = s.homes := rfl
@[simp] theorem State.delReq_dies (s : State) (id : Nat) : (s.delReq id).dies = s.dies := rfl
@[simp] theorem State.delReq_tasks (s : State) (id : Nat) : (s.delReq id).tasks = s.tasks := rfl
@[simp] theorem State.delReq_mem (s : State) (id : Nat) : (s.delReq id).mem = s.mem := rfl
@[simp] theorem State.delReq_attrs (s : State) (id : Nat) : (s.delReq id).attrs = s.attrs := rfl
@[simp] theorem State.delReq_pkg (s : State) (id : Nat) : (s.delReq id).pkg = s.pkg := rfl
@[simp] theorem State.delReq_host (s : State) (id : Nat) : (s.delReq id).host = s.host := rfl
@[simp] theorem State.delReq_net (s : State) (id : Nat) : (s.delReq id).net = { s.net with reqs := s.net.reqs.del id } := rfl

/-! ### `State.setPoison` -/

@[simp] theorem State.setPoison_curId (s : State) (h l : Nat) (b : Bool) : (s.setPoison h l b).curId = s.curId := rfl
@[simp] theorem State.setPoison_cur (s : State) (h l : Nat) (b : Bool) : (s.setPoison h l b).cur = s.cur := rfl
@[simp] theorem State.setPoison_slots (s : State) (h l : Nat) (b : Bool) : (s.setPoison h l b).slots = s.slots := rfl
@[simp] theorem State.setPoison_cores (s : State) (h l : Nat) (b : Bool) : (s.setPoison h l b).cores = s.cores := rfl
@[simp] theorem State.setPoison_tiles (s : State) (h l : Nat) (b : Bool) : (s.setPoison h l b).tiles = s.tiles := rfl
@[simp] theorem State.setPoison_homes (s : State) (h l : Nat) (b : Bool) : (s.setPoison h l b).homes = s.homes := rfl
@[simp] theorem State.setPoison_dies (s : State) (h l : Nat) (b : Bool) : (s.setPoison h l b).dies = s.dies := rfl
@[simp] theorem State.setPoison_tasks (s : State) (h l : Nat) (b : Bool) : (s.setPoison h l b).tasks = s.tasks := rfl
@[simp] theorem State.setPoison_mem (s : State) (h l : Nat) (b : Bool) : (s.setPoison h l b).mem = s.mem := rfl
@[simp] theorem State.setPoison_pkg (s : State) (h l : Nat) (b : Bool) : (s.setPoison h l b).pkg = s.pkg := rfl
@[simp] theorem State.setPoison_host (s : State) (h l : Nat) (b : Bool) : (s.setPoison h l b).host = s.host := rfl
@[simp] theorem State.setPoison_net (s : State) (h l : Nat) (b : Bool) : (s.setPoison h l b).net = s.net := rfl

/-! ### `State.setFull` -/

@[simp] theorem State.setFull_curId (s : State) (k o : Nat) (b : Bool) : (s.setFull k o b).curId = s.curId := rfl
@[simp] theorem State.setFull_cur (s : State) (k o : Nat) (b : Bool) : (s.setFull k o b).cur = s.cur := rfl
@[simp] theorem State.setFull_slots (s : State) (k o : Nat) (b : Bool) : (s.setFull k o b).slots = s.slots := rfl
@[simp] theorem State.setFull_cores (s : State) (k o : Nat) (b : Bool) : (s.setFull k o b).cores = s.cores := rfl
@[simp] theorem State.setFull_tiles (s : State) (k o : Nat) (b : Bool) : (s.setFull k o b).tiles = s.tiles := rfl
@[simp] theorem State.setFull_homes (s : State) (k o : Nat) (b : Bool) : (s.setFull k o b).homes = s.homes := rfl
@[simp] theorem State.setFull_dies (s : State) (k o : Nat) (b : Bool) : (s.setFull k o b).dies = s.dies := rfl
@[simp] theorem State.setFull_tasks (s : State) (k o : Nat) (b : Bool) : (s.setFull k o b).tasks = s.tasks := rfl
@[simp] theorem State.setFull_mem (s : State) (k o : Nat) (b : Bool) : (s.setFull k o b).mem = s.mem := rfl
@[simp] theorem State.setFull_pkg (s : State) (k o : Nat) (b : Bool) : (s.setFull k o b).pkg = s.pkg := rfl
@[simp] theorem State.setFull_host (s : State) (k o : Nat) (b : Bool) : (s.setFull k o b).host = s.host := rfl
@[simp] theorem State.setFull_net (s : State) (k o : Nat) (b : Bool) : (s.setFull k o b).net = s.net := rfl

/-! ### `State.tally`, `State.charge` and `State.retire`: counters apart, they leave every other field -/

@[simp] theorem State.tally_curId (s : State) (t c k : Nat) : (s.tally t c k).curId = s.curId := by unfold State.tally; dsimp only; split <;> rfl
@[simp] theorem State.tally_cur (s : State) (t c k : Nat) : (s.tally t c k).cur = s.cur := by unfold State.tally; dsimp only; split <;> rfl
@[simp] theorem State.tally_slots (s : State) (t c k : Nat) : (s.tally t c k).slots = s.slots := by unfold State.tally; dsimp only; split <;> rfl
@[simp] theorem State.tally_cores (s : State) (t c k : Nat) : (s.tally t c k).cores = s.cores := by unfold State.tally; dsimp only; split <;> rfl
@[simp] theorem State.tally_homes (s : State) (t c k : Nat) : (s.tally t c k).homes = s.homes := by unfold State.tally; dsimp only; split <;> rfl
@[simp] theorem State.tally_dies (s : State) (t c k : Nat) : (s.tally t c k).dies = s.dies := by unfold State.tally; dsimp only; split <;> rfl
@[simp] theorem State.tally_tasks (s : State) (t c k : Nat) : (s.tally t c k).tasks = s.tasks := by unfold State.tally; dsimp only; split <;> rfl
@[simp] theorem State.tally_mem (s : State) (t c k : Nat) : (s.tally t c k).mem = s.mem := by unfold State.tally; dsimp only; split <;> rfl
@[simp] theorem State.tally_attrs (s : State) (t c k : Nat) : (s.tally t c k).attrs = s.attrs := by unfold State.tally; dsimp only; split <;> rfl
@[simp] theorem State.tally_pkg (s : State) (t c k : Nat) : (s.tally t c k).pkg = s.pkg := by unfold State.tally; dsimp only; split <;> rfl
@[simp] theorem State.tally_host (s : State) (t c k : Nat) : (s.tally t c k).host = s.host := by unfold State.tally; dsimp only; split <;> rfl
@[simp] theorem State.tally_net (s : State) (t c k : Nat) : (s.tally t c k).net = s.net := by unfold State.tally; dsimp only; split <;> rfl
@[simp] theorem State.charge_curId (s : State) : s.charge.curId = s.curId := by simp [State.charge]
@[simp] theorem State.charge_slots (s : State) : s.charge.slots = s.slots := by simp [State.charge]
@[simp] theorem State.charge_cores (s : State) : s.charge.cores = s.cores := by simp [State.charge]
@[simp] theorem State.charge_homes (s : State) : s.charge.homes = s.homes := by simp [State.charge]
@[simp] theorem State.charge_dies (s : State) : s.charge.dies = s.dies := by simp [State.charge]
@[simp] theorem State.charge_tasks (s : State) : s.charge.tasks = s.tasks := by simp [State.charge]
@[simp] theorem State.charge_mem (s : State) : s.charge.mem = s.mem := by simp [State.charge]
@[simp] theorem State.charge_attrs (s : State) : s.charge.attrs = s.attrs := by simp [State.charge]
@[simp] theorem State.charge_pkg (s : State) : s.charge.pkg = s.pkg := by simp [State.charge]
@[simp] theorem State.charge_host (s : State) : s.charge.host = s.host := by simp [State.charge]
@[simp] theorem State.charge_net (s : State) : s.charge.net = s.net := by simp [State.charge]
@[simp] theorem State.retire_curId (s : State) : s.retire.curId = s.curId := by simp [State.retire]
@[simp] theorem State.retire_slots (s : State) : s.retire.slots = s.slots := by simp [State.retire]
@[simp] theorem State.retire_cores (s : State) : s.retire.cores = s.cores := by simp [State.retire]
@[simp] theorem State.retire_homes (s : State) : s.retire.homes = s.homes := by simp [State.retire]
@[simp] theorem State.retire_dies (s : State) : s.retire.dies = s.dies := by simp [State.retire]
@[simp] theorem State.retire_tasks (s : State) : s.retire.tasks = s.tasks := by simp [State.retire]
@[simp] theorem State.retire_mem (s : State) : s.retire.mem = s.mem := by simp [State.retire]
@[simp] theorem State.retire_attrs (s : State) : s.retire.attrs = s.attrs := by simp [State.retire]
@[simp] theorem State.retire_pkg (s : State) : s.retire.pkg = s.pkg := by simp [State.retire]
@[simp] theorem State.retire_host (s : State) : s.retire.host = s.host := by simp [State.retire]
@[simp] theorem State.retire_net (s : State) : s.retire.net = s.net := by simp [State.retire]
theorem State.charge_cur (s : State) : s.charge.cur = { s.cur with
    spec := { s.cur.spec with ended := s.cur.spec.ended || (s.cur.sc.piste && s.cur.spec.mode == .none) }
    u := { s.cur.u with turns := s.cur.u.turns + 1 }
    stopReq := if s.cur.stopReq == .run then .none else if s.cur.stopReq == .step then .stop else s.cur.stopReq } := by
  simp [State.charge]
theorem State.retire_cur (s : State) : s.retire.cur = { s.cur with u := { s.cur.u with retired := s.cur.u.retired + 1 } } := by
  simp [State.retire]

@[simp] theorem State.retire_status (s : State) : s.retire.cur.status = s.cur.status := by rw [State.retire_cur]
@[simp] theorem State.charge_status (s : State) : s.charge.cur.status = s.cur.status := by rw [State.charge_cur]
@[simp] theorem State.retire_level (s : State) : s.retire.cur.level = s.cur.level := by rw [State.retire_cur]
@[simp] theorem State.charge_level (s : State) : s.charge.cur.level = s.cur.level := by rw [State.charge_cur]
@[simp] theorem State.retire_pc (s : State) : s.retire.cur.pc = s.cur.pc := by rw [State.retire_cur]
@[simp] theorem State.charge_pc (s : State) : s.charge.cur.pc = s.cur.pc := by rw [State.charge_cur]
@[simp] theorem State.retire_regs (s : State) : s.retire.cur.regs = s.cur.regs := by rw [State.retire_cur]
@[simp] theorem State.charge_regs (s : State) : s.charge.cur.regs = s.cur.regs := by rw [State.charge_cur]
@[simp] theorem State.retire_sc (s : State) : s.retire.cur.sc = s.cur.sc := by rw [State.retire_cur]
@[simp] theorem State.charge_sc (s : State) : s.charge.cur.sc = s.cur.sc := by rw [State.charge_cur]
@[simp] theorem State.retire_mc (s : State) : s.retire.cur.mc = s.cur.mc := by rw [State.retire_cur]
@[simp] theorem State.charge_mc (s : State) : s.charge.cur.mc = s.cur.mc := by rw [State.charge_cur]
@[simp] theorem State.retire_busy (s : State) : s.retire.cur.busy = s.cur.busy := by rw [State.retire_cur]
@[simp] theorem State.charge_busy (s : State) : s.charge.cur.busy = s.cur.busy := by rw [State.charge_cur]
@[simp] theorem State.retire_ops (s : State) : s.retire.cur.ops = s.cur.ops := by rw [State.retire_cur]
@[simp] theorem State.charge_ops (s : State) : s.charge.cur.ops = s.cur.ops := by rw [State.charge_cur]
@[simp] theorem State.retire_fails (s : State) : s.retire.cur.fails = s.cur.fails := by rw [State.retire_cur]
@[simp] theorem State.charge_fails (s : State) : s.charge.cur.fails = s.cur.fails := by rw [State.charge_cur]
@[simp] theorem State.retire_inwin (s : State) : s.retire.cur.inwin = s.cur.inwin := by rw [State.retire_cur]
@[simp] theorem State.charge_inwin (s : State) : s.charge.cur.inwin = s.cur.inwin := by rw [State.charge_cur]
@[simp] theorem State.retire_skip (s : State) : s.retire.cur.skip = s.cur.skip := by rw [State.retire_cur]
@[simp] theorem State.charge_skip (s : State) : s.charge.cur.skip = s.cur.skip := by rw [State.charge_cur]
@[simp] theorem State.retire_hold (s : State) : s.retire.cur.hold = s.cur.hold := by rw [State.retire_cur]
@[simp] theorem State.charge_hold (s : State) : s.charge.cur.hold = s.cur.hold := by rw [State.charge_cur]
@[simp] theorem State.retire_word (s : State) : s.retire.cur.word = s.cur.word := by rw [State.retire_cur]
@[simp] theorem State.charge_word (s : State) : s.charge.cur.word = s.cur.word := by rw [State.charge_cur]
@[simp] theorem State.retire_wait (s : State) : s.retire.cur.wait = s.cur.wait := by rw [State.retire_cur]
@[simp] theorem State.charge_wait (s : State) : s.charge.cur.wait = s.cur.wait := by rw [State.charge_cur]
@[simp] theorem State.retire_age (s : State) : s.retire.cur.age = s.cur.age := by rw [State.retire_cur]
@[simp] theorem State.charge_age (s : State) : s.charge.cur.age = s.cur.age := by rw [State.charge_cur]
@[simp] theorem State.retire_yld (s : State) : s.retire.cur.yld = s.cur.yld := by rw [State.retire_cur]
@[simp] theorem State.charge_yld (s : State) : s.charge.cur.yld = s.cur.yld := by rw [State.charge_cur]
@[simp] theorem State.retire_forfeit (s : State) : s.retire.cur.forfeit = s.cur.forfeit := by rw [State.retire_cur]
@[simp] theorem State.charge_forfeit (s : State) : s.charge.cur.forfeit = s.cur.forfeit := by rw [State.charge_cur]
@[simp] theorem State.retire_frame (s : State) : s.retire.cur.frame = s.cur.frame := by rw [State.retire_cur]
@[simp] theorem State.charge_frame (s : State) : s.charge.cur.frame = s.cur.frame := by rw [State.charge_cur]
@[simp] theorem State.retire_rsv (s : State) : s.retire.cur.rsv = s.cur.rsv := by rw [State.retire_cur]
@[simp] theorem State.charge_rsv (s : State) : s.charge.cur.rsv = s.cur.rsv := by rw [State.charge_cur]
@[simp] theorem State.retire_rmask (s : State) : s.retire.cur.rmask = s.cur.rmask := by rw [State.retire_cur]
@[simp] theorem State.charge_rmask (s : State) : s.charge.cur.rmask = s.cur.rmask := by rw [State.charge_cur]
@[simp] theorem State.retire_occurred (s : State) : s.retire.cur.occurred = s.cur.occurred := by rw [State.retire_cur]
@[simp] theorem State.charge_occurred (s : State) : s.charge.cur.occurred = s.cur.occurred := by rw [State.charge_cur]
@[simp] theorem State.retire_refuse (s : State) : s.retire.cur.refuse = s.cur.refuse := by rw [State.retire_cur]
@[simp] theorem State.charge_refuse (s : State) : s.charge.cur.refuse = s.cur.refuse := by rw [State.charge_cur]
@[simp] theorem State.retire_commits (s : State) : s.retire.cur.commits = s.cur.commits := by rw [State.retire_cur]
@[simp] theorem State.charge_commits (s : State) : s.charge.cur.commits = s.cur.commits := by rw [State.charge_cur]
@[simp] theorem State.retire_pushSeq (s : State) : s.retire.cur.pushSeq = s.cur.pushSeq := by rw [State.retire_cur]
@[simp] theorem State.charge_pushSeq (s : State) : s.charge.cur.pushSeq = s.cur.pushSeq := by rw [State.charge_cur]
@[simp] theorem State.retire_serial (s : State) : s.retire.cur.serial = s.cur.serial := by rw [State.retire_cur]
@[simp] theorem State.charge_serial (s : State) : s.charge.cur.serial = s.cur.serial := by rw [State.charge_cur]
@[simp] theorem State.retire_ending (s : State) : s.retire.cur.ending = s.cur.ending := by rw [State.retire_cur]
@[simp] theorem State.charge_ending (s : State) : s.charge.cur.ending = s.cur.ending := by rw [State.charge_cur]
@[simp] theorem State.retire_leaving (s : State) : s.retire.cur.leaving = s.cur.leaving := by rw [State.retire_cur]
@[simp] theorem State.charge_leaving (s : State) : s.charge.cur.leaving = s.cur.leaving := by rw [State.charge_cur]
@[simp] theorem State.retire_spec (s : State) : s.retire.cur.spec = s.cur.spec := by rw [State.retire_cur]
@[simp] theorem State.charge_u_fflags (s : State) : s.charge.cur.u.fflags = s.cur.u.fflags := by rw [State.charge_cur]
@[simp] theorem State.retire_u_fflags (s : State) : s.retire.cur.u.fflags = s.cur.u.fflags := by rw [State.retire_cur]
@[simp] theorem State.charge_u_frm (s : State) : s.charge.cur.u.frm = s.cur.u.frm := by rw [State.charge_cur]
@[simp] theorem State.retire_u_frm (s : State) : s.retire.cur.u.frm = s.cur.u.frm := by rw [State.retire_cur]
@[simp] theorem State.charge_u_txcause (s : State) : s.charge.cur.u.txcause = s.cur.u.txcause := by rw [State.charge_cur]
@[simp] theorem State.retire_u_txcause (s : State) : s.retire.cur.u.txcause = s.cur.u.txcause := by rw [State.retire_cur]
@[simp] theorem State.charge_u_msa (s : State) : s.charge.cur.u.msa = s.cur.u.msa := by rw [State.charge_cur]
@[simp] theorem State.retire_u_msa (s : State) : s.retire.cur.u.msa = s.cur.u.msa := by rw [State.retire_cur]
@[simp] theorem State.charge_u_msb (s : State) : s.charge.cur.u.msb = s.cur.u.msb := by rw [State.charge_cur]
@[simp] theorem State.retire_u_msb (s : State) : s.retire.cur.u.msb = s.cur.u.msb := by rw [State.retire_cur]
@[simp] theorem State.charge_u_msc (s : State) : s.charge.cur.u.msc = s.cur.u.msc := by rw [State.charge_cur]
@[simp] theorem State.retire_u_msc (s : State) : s.retire.cur.u.msc = s.cur.u.msc := by rw [State.retire_cur]
@[simp] theorem State.charge_u_wid (s : State) : s.charge.cur.u.wid = s.cur.u.wid := by rw [State.charge_cur]
@[simp] theorem State.retire_u_wid (s : State) : s.retire.cur.u.wid = s.cur.u.wid := by rw [State.retire_cur]
@[simp] theorem State.charge_u_widf (s : State) : s.charge.cur.u.widf = s.cur.u.widf := by rw [State.charge_cur]
@[simp] theorem State.retire_u_widf (s : State) : s.retire.cur.u.widf = s.cur.u.widf := by rw [State.retire_cur]
@[simp] theorem State.charge_u_tid (s : State) : s.charge.cur.u.tid = s.cur.u.tid := by rw [State.charge_cur]
@[simp] theorem State.retire_u_tid (s : State) : s.retire.cur.u.tid = s.cur.u.tid := by rw [State.retire_cur]
@[simp] theorem State.charge_u_ikey (s : State) : s.charge.cur.u.ikey = s.cur.u.ikey := by rw [State.charge_cur]
@[simp] theorem State.retire_u_ikey (s : State) : s.retire.cur.u.ikey = s.cur.u.ikey := by rw [State.retire_cur]
@[simp] theorem State.charge_u_iarg (s : State) : s.charge.cur.u.iarg = s.cur.u.iarg := by rw [State.charge_cur]
@[simp] theorem State.retire_u_iarg (s : State) : s.retire.cur.u.iarg = s.cur.u.iarg := by rw [State.retire_cur]
@[simp] theorem State.charge_u_launch (s : State) : s.charge.cur.u.launch = s.cur.u.launch := by rw [State.charge_cur]
@[simp] theorem State.retire_u_launch (s : State) : s.retire.cur.u.launch = s.cur.u.launch := by rw [State.retire_cur]
@[simp] theorem State.charge_u_seed (s : State) : s.charge.cur.u.seed = s.cur.u.seed := by rw [State.charge_cur]
@[simp] theorem State.retire_u_seed (s : State) : s.retire.cur.u.seed = s.cur.u.seed := by rw [State.retire_cur]
@[simp] theorem State.charge_u_ctrb (s : State) : s.charge.cur.u.ctrb = s.cur.u.ctrb := by rw [State.charge_cur]
@[simp] theorem State.retire_u_ctrb (s : State) : s.retire.cur.u.ctrb = s.cur.u.ctrb := by rw [State.retire_cur]
@[simp] theorem State.charge_u_codeb (s : State) : s.charge.cur.u.codeb = s.cur.u.codeb := by rw [State.charge_cur]
@[simp] theorem State.retire_u_codeb (s : State) : s.retire.cur.u.codeb = s.cur.u.codeb := by rw [State.retire_cur]
@[simp] theorem State.charge_u_codel (s : State) : s.charge.cur.u.codel = s.cur.u.codel := by rw [State.charge_cur]
@[simp] theorem State.retire_u_codel (s : State) : s.retire.cur.u.codel = s.cur.u.codel := by rw [State.retire_cur]
@[simp] theorem State.charge_u_uevec (s : State) : s.charge.cur.u.uevec = s.cur.u.uevec := by rw [State.charge_cur]
@[simp] theorem State.retire_u_uevec (s : State) : s.retire.cur.u.uevec = s.cur.u.uevec := by rw [State.retire_cur]
@[simp] theorem State.charge_u_uepc (s : State) : s.charge.cur.u.uepc = s.cur.u.uepc := by rw [State.charge_cur]
@[simp] theorem State.retire_u_uepc (s : State) : s.retire.cur.u.uepc = s.cur.u.uepc := by rw [State.retire_cur]
@[simp] theorem State.charge_u_uepend (s : State) : s.charge.cur.u.uepend = s.cur.u.uepend := by rw [State.charge_cur]
@[simp] theorem State.retire_u_uepend (s : State) : s.retire.cur.u.uepend = s.cur.u.uepend := by rw [State.retire_cur]
@[simp] theorem State.charge_u_uekind (s : State) : s.charge.cur.u.uekind = s.cur.u.uekind := by rw [State.charge_cur]
@[simp] theorem State.retire_u_uekind (s : State) : s.retire.cur.u.uekind = s.cur.u.uekind := by rw [State.retire_cur]
@[simp] theorem State.charge_u_uetag (s : State) : s.charge.cur.u.uetag = s.cur.u.uetag := by rw [State.charge_cur]
@[simp] theorem State.retire_u_uetag (s : State) : s.retire.cur.u.uetag = s.cur.u.uetag := by rw [State.retire_cur]
@[simp] theorem State.charge_u_uetags (s : State) : s.charge.cur.u.uetags = s.cur.u.uetags := by rw [State.charge_cur]
@[simp] theorem State.retire_u_uetags (s : State) : s.retire.cur.u.uetags = s.cur.u.uetags := by rw [State.retire_cur]
@[simp] theorem State.charge_u_uemask (s : State) : s.charge.cur.u.uemask = s.cur.u.uemask := by rw [State.charge_cur]
@[simp] theorem State.retire_u_uemask (s : State) : s.retire.cur.u.uemask = s.cur.u.uemask := by rw [State.retire_cur]
@[simp] theorem State.charge_u_active (s : State) : s.charge.cur.u.active = s.cur.u.active := by rw [State.charge_cur]
@[simp] theorem State.retire_u_active (s : State) : s.retire.cur.u.active = s.cur.u.active := by rw [State.retire_cur]
@[simp] theorem State.charge_u_dmap (s : State) : s.charge.cur.u.dmap = s.cur.u.dmap := by rw [State.charge_cur]
@[simp] theorem State.retire_u_dmap (s : State) : s.retire.cur.u.dmap = s.cur.u.dmap := by rw [State.retire_cur]
@[simp] theorem State.charge_u_dacc (s : State) : s.charge.cur.u.dacc = s.cur.u.dacc := by rw [State.charge_cur]
@[simp] theorem State.retire_u_dacc (s : State) : s.retire.cur.u.dacc = s.cur.u.dacc := by rw [State.retire_cur]
@[simp] theorem State.charge_undo (s : State) : s.charge.cur.spec.undo = s.cur.spec.undo := by rw [State.charge_cur]
end Sys2Proof.Machine
end

