-- ==== Sys2Proof/Laws/Issue.lean ====
section
/-! SUPPORT. Issue: what the shared operation `issue` can do, and what an instruction that retires in sequence leaves. -/

namespace Sys2Proof.Machine

/-- An instruction given to a slot that holds a task always makes a step. -/
theorem issue_total (i : Instr) (s : State) (body : State → Act) (h : s.cur.status ≠ .free) : ∃ t, issue i s body = .next t := by
  unfold issue
  rw [if_neg h]
  split
  · exact ⟨_, rfl⟩
  · split <;> exact ⟨_, rfl⟩
  · split <;> exact ⟨_, rfl⟩

/-- What `issue` answers: nothing, an instruction's act, a trap, an abort, a stop, or what speculation says of it. -/
theorem issue_cases {i : Instr} {s t : State} {body : State → Act} (h : issue i s body = .next t) :
    t = s ∨ t = s.conclude s (encode i) (body s) ∨ t = s.conclude s.charge (encode i) (body s.charge) ∨ t = s.takeStop ∨ t = s.specStop ∨
      (∃ c k x, t = s.charge.issueTrap (encode i) c k x) ∨ (∃ c k, t = s.charge.txAbort c k) := by
  unfold issue at h
  split at h
  · cases h
  · split at h
    · cases h; exact .inl rfl
    · split at h <;> cases h
      · exact .inr (.inl rfl)
      · exact .inl rfl
    · split at h <;> cases h
      · exact .inl rfl
      · exact .inr (.inr (.inr (.inl rfl)))
      · exact .inr (.inr (.inr (.inr (.inr (.inl ⟨_, _, _, rfl⟩)))))
      · exact .inr (.inr (.inr (.inr (.inr (.inr ⟨_, _, rfl⟩)))))
      · exact .inr (.inr (.inr (.inr (.inl rfl))))
      · exact .inr (.inr (.inr (.inr (.inl rfl))))
      · exact .inr (.inr (.inl rfl))

/-- An instruction that may issue stands at a Ready slot that holds nothing. -/
theorem CanIssue.ready {i : Instr} {s : State} (h : CanIssue i s) : s.mayIssue = true := by
  have h := h.1
  by_contra hm
  rw [Bool.not_eq_true] at hm
  unfold State.permits at h
  simp only [hm, Bool.not_false, Bool.true_or, if_true] at h
  cases h

theorem CanIssue.status {i : Instr} {s : State} (h : CanIssue i s) : s.cur.status = .ready := by
  have := h.ready
  simp only [State.mayIssue, Bool.and_eq_true, beq_iff_eq] at this
  tauto

theorem CanIssue.hold {i : Instr} {s : State} (h : CanIssue i s) : s.cur.hold = .none := by
  have := h.ready
  simp only [State.mayIssue, Bool.and_eq_true, beq_iff_eq] at this
  tauto

theorem CanIssue.fails {i : Instr} {s : State} (h : CanIssue i s) : s.cur.fails = [] := by
  have := h.ready
  simp only [State.mayIssue, Bool.and_eq_true, beq_iff_eq, List.isEmpty_iff] at this
  tauto

/-- An instruction that may issue acts. -/
theorem issue_go {i : Instr} {s : State} (body : State → Act) (h : CanIssue i s) :
    issue i s body = .next (s.conclude s.charge (encode i) (body s.charge)) := by
  unfold issue
  rw [if_neg (by rw [h.status]; decide), h.hold]
  dsimp only
  rw [h.1]

theorem Slot.step_frame_none {x : Slot} (h : x.frame = none) : x.step.frame = none := by
  unfold Slot.step
  rw [h]

theorem Slot.step_spec (x : Slot) : x.step.spec = x.spec := by
  unfold Slot.step
  split
  · rfl
  · split
    · rfl
    · split <;> rfl

theorem Slot.countChunk_rest (x : Slot) (n : Nat) :
    x.countChunk n = { x with spec := { x.spec with count := (x.countChunk n).spec.count, ended := (x.countChunk n).spec.ended } } := by
  unfold Slot.countChunk
  dsimp only
  split <;> rfl

theorem Slot.step_rest (x : Slot) : x.step = { x with pc := x.step.pc, frame := x.step.frame, hold := .none } := by
  unfold Slot.step
  split
  · rw [‹x.frame = none›]
  · split
    · rfl
    · split <;> rfl

/-- Going on in sequence, where no notice waits for the end of a frame. -/
theorem State.advance_eq {s : State} (h : s.cur.frame = none ∨ s.cur.spec.undo = none) :
    s.advance = s.updCur fun x => x.step.countChunk s.pkg.chunkLimit := by
  unfold State.advance
  dsimp only
  split
  · rename_i hw
    rcases h with h | h
    · simp [h] at hw
    · unfold State.settleUndo
      have : (s.updCur fun x => x.step.countChunk s.pkg.chunkLimit).cur.spec.undo = none := by
        rw [State.updCur_cur, Slot.countChunk_rest]
        simp only
        rw [Slot.step_spec]
        exact h
      rw [this]
  · rfl

/-- A change of the slot that leaves all but registers, FFLAGS, the scoreboard and the turns forfeited. -/
def Plain (f : Slot → Slot) : Prop :=
  ∀ x, f x = { x with regs := (f x).regs, u := { x.u with fflags := (f x).u.fflags }, busy := (f x).busy, forfeit := (f x).forfeit }

theorem Slot.pc_step_congr (x y : Slot) (h1 : y.pc = x.pc) (h2 : y.skip = x.skip) (h3 : y.frame = x.frame) :
    y.step.pc = x.step.pc ∧ y.step.frame = x.step.frame := by
  unfold Slot.step
  rw [h3]
  split
  · simp [h1, h2, h3]
  · split
    · simp [h1]
    · split
      · simp [h1]
      · simp [h2]

theorem OnlySlot.trans {a b c : State} (h : OnlySlot a b) (k : OnlySlot b c) : OnlySlot a c := by
  refine ⟨?_, fun n => ?_⟩
  · have := k.rest
    rw [h.rest] at this
    exact this
  · have := k.counters n
    rw [h.counters n] at this
    exact this

theorem OnlySlot.updCur (s : State) (f : Slot → Slot) : OnlySlot s (s.updCur f) := ⟨rfl, fun _ => rfl⟩

theorem OnlySlot.tally (s : State) (t c n : Nat) : OnlySlot s (s.tally t c n) := by
  refine ⟨?_, fun k => State.tile_tally s t c n k⟩
  unfold State.tally
  dsimp only
  split <;> rfl

theorem OnlySlot.charge (s : State) : OnlySlot s s.charge := (OnlySlot.updCur s _).trans (OnlySlot.tally ..)
theorem OnlySlot.retire (s : State) : OnlySlot s s.retire := (OnlySlot.updCur s _).trans (OnlySlot.tally ..)

/-- An instruction whose act is a plain change of its slot retires in sequence. -/
theorem issue_plain {i : Instr} {s : State} {body : State → Act} (f : Slot → Slot) (hf : Plain f) (h : CanIssue i s)
    (hb : body s.charge = .next { s.charge with cur := f s.charge.cur }) :
    ∃ t, issue i s body = .next t ∧ Retires s t ∧ t.cur.regs = (f s.charge.cur).regs ∧ t.cur.u.fflags = (f s.charge.cur).u.fflags := by
  refine ⟨_, issue_go body h, ?_⟩
  rw [hb]
  have hhold := h.hold
  simp only [State.conclude]
  have hx := hf s.charge.cur
  have ho : OnlySlot s (s.charge.updCur f) := (OnlySlot.charge s).trans (OnlySlot.updCur _ _)
  change Retires s (s.charge.updCur f).retire.advance ∧ (s.charge.updCur f).retire.advance.cur.regs = _ ∧
    (s.charge.updCur f).retire.advance.cur.u.fflags = _
  rw [State.advance_eq (by simp only [State.retire_cur, State.updCur_cur]; rw [hx]; simpa using h.2)]
  have hc : ∀ n, (s.charge.updCur f).retire.cur.step.countChunk n = _ := fun n => Slot.countChunk_rest _ _
  have hs := Slot.pc_step_congr s.cur (s.charge.updCur f).retire.cur (by simp only [State.retire_cur, State.updCur_cur]; rw [hx]; simp)
    (by simp only [State.retire_cur, State.updCur_cur]; rw [hx]; simp) (by simp only [State.retire_cur, State.updCur_cur]; rw [hx]; simp)
  refine ⟨⟨ho.trans ((OnlySlot.retire _).trans (OnlySlot.updCur _ _)), ⟨?_, ?_, ?_⟩⟩, ?_, ?_⟩
  · simp only [State.updCur_cur]
    rw [hc, Slot.step_rest]
    simp only [State.retire_cur, State.updCur_cur]
    rw [hx]
    simp only [State.charge_cur]
    rw [← hhold]
  · simp only [State.updCur_cur]
    rw [hc]
    exact hs.1
  · simp only [State.updCur_cur]
    rw [hc]
    exact hs.2
  · simp only [State.updCur_cur]
    rw [hc, Slot.step_rest]
    simp only [State.retire_cur, State.updCur_cur]
  · simp only [State.updCur_cur]
    rw [hc, Slot.step_rest]
    simp only [State.retire_cur, State.updCur_cur]

end Sys2Proof.Machine
end

