-- ==== Sys2Proof/Laws/Fixed.lean ====
section
/-! SUPPORT. Fixed-latency instructions: what `fixed` answers for a change of one register (R64, R66). -/

namespace Sys2Proof.Machine

@[simp] theorem State.charge_readG (s : State) (r : RegNo) : s.charge.cur.readG r = s.cur.readG r := by simp [Slot.readG]
@[simp] theorem State.charge_readP (s : State) (r : PredNo) : s.charge.cur.readP r = s.cur.readP r := by simp [Slot.readP]
@[simp] theorem State.charge_readV (s : State) (r : RegNo) : s.charge.cur.readV r = s.cur.readV r := by simp [Slot.readV]
@[simp] theorem State.charge_mode (s : State) : s.charge.cur.mode = s.cur.mode := by simp [Slot.mode]

/-- A write of one scalar register, of registers and bank alone. -/
theorem SetsG.of_regs {x y z : Slot} {d : RegNo} {v : W64} (h : SetsG x y d v) (hr : z.regs = y.regs) (ha : z.u.active = y.u.active) :
    SetsG x z d v := by
  refine ⟨fun r => ?_, by rw [hr]; exact h.v, by rw [hr]; exact h.p, fun k => by rw [hr]; exact h.shadow k, fun k => by rw [hr]; exact h.bank k⟩
  rw [← h.g r]
  simp [Slot.readG, hr, ha]

theorem SetsG.from_regs {x y z : Slot} {d : RegNo} {v : W64} (h : SetsG x z d v) (hr : x.regs = y.regs) (ha : x.u.active = y.u.active) :
    SetsG y z d v := by
  refine ⟨fun r => ?_, by rw [← hr]; exact h.v, by rw [← hr]; exact h.p, fun k => by rw [← hr]; exact h.shadow (ha.trans k),
    fun k => by rw [← hr]; exact h.bank (ha.trans k)⟩
  rw [h.g r]
  simp [Slot.readG, hr, ha]

theorem SetsP.of_regs {x y z : Slot} {d : PredNo} {v : Pred} (h : SetsP x y d v) (hr : z.regs = y.regs) : SetsP x z d v := by
  refine ⟨fun r => ?_, by rw [hr]; exact h.g, by rw [hr]; exact h.v, by rw [hr]; exact h.shadow⟩
  rw [← h.p r]
  simp [Slot.readP, hr]

theorem SetsP.from_regs {x y z : Slot} {d : PredNo} {v : Pred} (h : SetsP x z d v) (hr : x.regs = y.regs) : SetsP y z d v := by
  refine ⟨fun r => ?_, by rw [← hr]; exact h.g, by rw [← hr]; exact h.v, by rw [← hr]; exact h.shadow⟩
  rw [h.p r]
  simp [Slot.readP, hr]

theorem SetsLanes.of_regs {x y z : Slot} {d : RegNo} {act : Pred} {f : Nat → W32} (h : SetsLanes x y d act f) (hr : z.regs = y.regs) :
    SetsLanes x z d act f := by
  refine ⟨fun r k hk => ?_, by rw [hr]; exact h.g, by rw [hr]; exact h.p, by rw [hr]; exact h.shadow⟩
  rw [← h.v r k hk]
  simp [Slot.readV, hr]

theorem SetsLanes.from_regs {x y z : Slot} {d : RegNo} {act : Pred} {f : Nat → W32} (h : SetsLanes x z d act f) (hr : x.regs = y.regs) :
    SetsLanes y z d act f := by
  refine ⟨fun r k hk => ?_, by rw [← hr]; exact h.g, by rw [← hr]; exact h.p, by rw [← hr]; exact h.shadow⟩
  rw [h.v r k hk]
  simp [Slot.readV, hr]

/-- What a fixed-latency instruction leaves is `f` of its slot, with the destination marked and turns forfeited. -/
theorem fixed_plain {i : Instr} {s : State} (sub : Slot → Bool) (f : Slot → Slot) (hf : Plain f) (h : CanIssue i s) :
    ∃ t, fixed i s sub f = .next t ∧ Retires s t ∧ t.cur.regs = (f s.charge.cur).regs ∧ t.cur.u.fflags = (f s.charge.cur).u.fflags := by
  unfold fixed
  refine issue_plain (fun x => (if sub x = true then { f x with forfeit := 4 } else f x).mark (infoOf i).dests s.charge.now
    (if sub x = true then (infoOf i).lat + 6 else (infoOf i).lat)) ?_ h rfl |>.imp fun t ht => ⟨ht.1, ht.2.1, ht.2.2.1.trans ?_, ht.2.2.2.trans ?_⟩
  · intro x
    unfold Slot.mark
    dsimp only
    split <;> (rw [hf x])
  · dsimp only
    unfold Slot.mark
    split <;> rfl
  · dsimp only
    unfold Slot.mark
    split <;> rfl

theorem Slot.writeG_rest (x : Slot) (d : RegNo) (v : W64) : x.writeG d v = { x with regs := (x.writeG d v).regs } := by
  unfold Slot.writeG
  split
  · rfl
  · split <;> rfl

theorem Plain.writeG (d : RegNo) (v : Slot → W64) : Plain fun x => x.writeG d (v x) := by
  intro x
  dsimp only
  rw [Slot.writeG_rest]

theorem Plain.writeP (d : PredNo) (v : Slot → Pred) : Plain fun x => x.writeP d (v x) := by
  intro x
  unfold Slot.writeP
  split <;> rfl

theorem Plain.writeGraise (d : RegNo) (v : Slot → W64) (fl : Slot → Flags) : Plain fun x => (x.writeG d (v x)).raise (fl x) := by
  intro x
  dsimp only [Slot.raise]
  rw [Slot.writeG_rest]

theorem Plain.writePraise (d : PredNo) (v : Slot → Pred) (fl : Slot → Flags) : Plain fun x => (x.writeP d (v x)).raise (fl x) := by
  intro x
  unfold Slot.writeP Slot.raise
  split <;> rfl

theorem Plain.writeLanesRaise (d : RegNo) (act : Slot → Pred) (v : Slot → Nat → W32) (fl : Slot → Flags) :
    Plain fun x => (x.writeLanes d (act x) (v x)).raise (fl x) := by
  intro x
  rfl

theorem Retires.active {s t : State} (h : Retires s t) : t.cur.u.active = s.cur.u.active := by
  rw [h.slot.rest]

/-- A fixed-latency instruction that writes one scalar register and raises flags. -/
theorem fixed_givesFp {i : Instr} {s : State} (sub : Slot → Bool) (d : RegNo) (v : Slot → W64) (fl : Slot → Flags) (h : CanIssue i s) :
    ∃ t, fixed i s sub (fun x => (x.writeG d (v x)).raise (fl x)) = .next t ∧ Retires s t ∧ SetsG s.cur t.cur d (v s.charge.cur) ∧
      t.cur.u.fflags = s.cur.u.fflags ||| fl s.charge.cur := by
  obtain ⟨t, h1, h2, h3, h4⟩ := fixed_plain sub _ (Plain.writeGraise d v fl) h
  refine ⟨t, h1, h2, ?_, ?_⟩
  · refine ((Slot.writeG_sets s.charge.cur d (v s.charge.cur)).of_regs (h3.trans rfl) ?_).from_regs (by simp) (by simp)
    rw [h2.active, Slot.writeG_u]
    simp
  · rw [h4]
    simp [Slot.raise]

/-- A fixed-latency instruction that writes one scalar register. -/
theorem fixed_gives {i : Instr} {s : State} (sub : Slot → Bool) (d : RegNo) (v : Slot → W64) (h : CanIssue i s) :
    ∃ t, fixed i s sub (fun x => x.writeG d (v x)) = .next t ∧ Retires s t ∧ SetsG s.cur t.cur d (v s.charge.cur) ∧
      t.cur.u.fflags = s.cur.u.fflags := by
  obtain ⟨t, h1, h2, h3, h4⟩ := fixed_plain sub _ (Plain.writeG d v) h
  refine ⟨t, h1, h2, ?_, ?_⟩
  · refine ((Slot.writeG_sets s.charge.cur d (v s.charge.cur)).of_regs h3 ?_).from_regs (by simp) (by simp)
    rw [h2.active, Slot.writeG_u]
    simp
  · rw [h4]
    simp

/-- A fixed-latency instruction that writes one predicate register. -/
theorem fixed_givesP {i : Instr} {s : State} (sub : Slot → Bool) (d : PredNo) (v : Slot → Pred) (h : CanIssue i s) :
    ∃ t, fixed i s sub (fun x => x.writeP d (v x)) = .next t ∧ Retires s t ∧ SetsP s.cur t.cur d (v s.charge.cur) ∧
      t.cur.u.fflags = s.cur.u.fflags ||| 0 := by
  obtain ⟨t, h1, h2, h3, h4⟩ := fixed_plain sub _ (Plain.writeP d v) h
  refine ⟨t, h1, h2, ((Slot.writeP_sets s.charge.cur d (v s.charge.cur)).of_regs h3).from_regs (by simp), ?_⟩
  rw [h4]
  unfold Slot.writeP
  split <;> simp

theorem fixed_givesPraise {i : Instr} {s : State} (sub : Slot → Bool) (d : PredNo) (v : Slot → Pred) (fl : Slot → Flags) (h : CanIssue i s) :
    ∃ t, fixed i s sub (fun x => (x.writeP d (v x)).raise (fl x)) = .next t ∧ Retires s t ∧ SetsP s.cur t.cur d (v s.charge.cur) ∧
      t.cur.u.fflags = s.cur.u.fflags ||| fl s.charge.cur := by
  obtain ⟨t, h1, h2, h3, h4⟩ := fixed_plain sub _ (Plain.writePraise d v fl) h
  refine ⟨t, h1, h2, ((Slot.writeP_sets s.charge.cur d (v s.charge.cur)).of_regs (h3.trans rfl)).from_regs (by simp), ?_⟩
  rw [h4]
  unfold Slot.writeP Slot.raise
  split <;> simp

/-- A fixed-latency instruction that writes the active lanes of one vector register and raises flags. -/
theorem fixed_givesLanes {i : Instr} {s : State} (sub : Slot → Bool) (d : RegNo) (act : Slot → Pred) (v : Slot → Nat → W32) (fl : Slot → Flags)
    (h : CanIssue i s) :
    ∃ t, fixed i s sub (fun x => (x.writeLanes d (act x) (v x)).raise (fl x)) = .next t ∧ Retires s t ∧
      SetsLanes s.cur t.cur d (act s.charge.cur) (v s.charge.cur) ∧ t.cur.u.fflags = s.cur.u.fflags ||| fl s.charge.cur := by
  obtain ⟨t, h1, h2, h3, h4⟩ := fixed_plain sub _ (Plain.writeLanesRaise d act v fl) h
  refine ⟨t, h1, h2, ((Slot.writeLanes_sets s.charge.cur d (act s.charge.cur) (v s.charge.cur)).of_regs (h3.trans rfl)).from_regs (by simp), ?_⟩
  rw [h4]
  simp [Slot.raise, Slot.writeLanes, Slot.writeV]

end Sys2Proof.Machine
end

