-- ==== Sys2Proof/Laws/Arith.lean ====
section
/-! SUPPORT. The arithmetic of the meanings, in the spec's readings (R270 to R277, R304). -/

namespace Sys2Proof.Machine

theorem hi_int (v : Int) : (BitVec.ofInt 128 v).extractLsb' 64 64 = BitVec.ofInt 64 (v / 2 ^ 64) := by
  apply BitVec.eq_of_toNat_eq
  simp only [BitVec.extractLsb'_toNat, BitVec.toNat_ofInt, Nat.shiftRight_eq_div_pow]
  omega
theorem mulh_eq (x y : W64) : (x.signExtend 128 * y.signExtend 128).extractLsb' 64 64 = BitVec.ofInt 64 (x.toInt * y.toInt / 2 ^ 64) := by
  rw [← hi_int]
  congr 1
  apply BitVec.eq_of_toInt_eq
  rw [BitVec.toInt_mul, BitVec.toInt_signExtend_of_le (by omega), BitVec.toInt_signExtend_of_le (by omega), BitVec.toInt_ofInt]
theorem mulhn_eq (x y : W64) : (x.setWidth 128 * y.setWidth 128).extractLsb' 64 64 = BitVec.ofNat 64 (x.toNat * y.toNat / 2 ^ 64) := by
  apply BitVec.eq_of_toNat_eq
  have hx := x.isLt
  have hy := y.isLt
  have : x.toNat * y.toNat < 2 ^ 128 := by nlinarith
  simp only [BitVec.extractLsb'_toNat, BitVec.toNat_mul, BitVec.toNat_setWidth, Nat.shiftRight_eq_div_pow, BitVec.toNat_ofNat]
  rw [Nat.mod_eq_of_lt (a := x.toNat) (by omega), Nat.mod_eq_of_lt (a := y.toNat) (by omega), Nat.mod_eq_of_lt this]
theorem popc_eq {w} (x : BitVec w) : popc x = setBits x := by
  unfold popc setBits
  suffices h : ∀ (l : List Nat) (n : Nat), l.foldl (fun n i => if x.getLsbD i then n + 1 else n) n = n + l.countP fun k => x.getLsbD k by simpa using h (List.range w) 0
  intro l
  induction l with
  | nil => simp
  | cons a l ih => intro n; simp only [List.foldl_cons, List.countP_cons, ih]; split <;> omega
theorem clz_eq {w} (x : BitVec w) : clz x = zerosAbove x := by
  unfold clz zerosAbove
  by_cases h : x = 0
  · simp [h]
  · have : x.toNat ≠ 0 := by simpa [← BitVec.toNat_inj] using h
    rw [if_neg this, if_neg h]; omega
theorem addi_eq (x : W64) (k : BitVec 16) : x + k.signExtend 64 = BitVec.ofInt 64 (x.toInt + k.toInt) := by
  apply BitVec.eq_of_toInt_eq
  rw [BitVec.toInt_add, BitVec.toInt_signExtend_of_le (by omega), BitVec.toInt_ofInt]
theorem condHolds_iff {w : Nat} (c : Cond) (x y : BitVec w) : condHolds c x y = true ↔ Meets c x y := by
  cases c <;> simp [condHolds, Meets, BitVec.slt, BitVec.ult]

end Sys2Proof.Machine
end

