-- ==== Sys2Proof/Laws/Codec.lean ====
section
/-! SUPPORT. The formats of instruction words read back what was packed into them: one lemma for the fields and one for the major of each format. -/

namespace Sys2Proof

/-- A field that lies in the low part of a concatenation. -/
theorem extract_lo {v w : Nat} (x : BitVec v) (y : BitVec w) (k n : Nat) (h : k + n ≤ w) :
    (x ++ y).extractLsb' k n = y.extractLsb' k n := by
  ext i hi
  simp only [BitVec.getElem_extractLsb', BitVec.getLsbD_append]
  rw [if_pos (by simpa using by omega)]

/-- A field that lies in the high part of a concatenation. -/
theorem extract_hi {v w : Nat} (x : BitVec v) (y : BitVec w) (k n : Nat) (h : w ≤ k) :
    (x ++ y).extractLsb' k n = x.extractLsb' (k - w) n := by
  ext i hi
  simp only [BitVec.getElem_extractLsb', BitVec.getLsbD_append]
  rw [if_neg (by simpa using by omega)]
  congr 1
  omega

/-- The whole of a word. -/
theorem extract_all {w : Nat} (x : BitVec w) : x.extractLsb' 0 w = x := by
  ext i hi
  simp

theorem FmtR.unpack_pack (m : BitVec 6) (f : FmtR) : FmtR.unpack (FmtR.pack m f) = f := by
  simp (disch := omega) only [FmtR.unpack, FmtR.pack, BitVec.setWidth_eq, extract_lo, extract_hi, extract_all, Nat.reduceSub]

theorem FmtR.major_pack (m : BitVec 6) (f : FmtR) : (FmtR.pack m f).extractLsb' 26 6 = m := by
  simp (disch := omega) only [FmtR.pack, BitVec.setWidth_eq, extract_hi, extract_all, Nat.reduceSub]

theorem FmtI.unpack_pack (m : BitVec 6) (f : FmtI) : FmtI.unpack (FmtI.pack m f) = f := by
  simp (disch := omega) only [FmtI.unpack, FmtI.pack, BitVec.setWidth_eq, extract_lo, extract_hi, extract_all, Nat.reduceSub]

theorem FmtI.major_pack (m : BitVec 6) (f : FmtI) : (FmtI.pack m f).extractLsb' 26 6 = m := by
  simp (disch := omega) only [FmtI.pack, BitVec.setWidth_eq, extract_hi, extract_all, Nat.reduceSub]

theorem FmtIC.unpack_pack (m : BitVec 6) (f : FmtIC) : FmtIC.unpack (FmtIC.pack m f) = f := by
  simp (disch := omega) only [FmtIC.unpack, FmtIC.pack, BitVec.setWidth_eq, extract_lo, extract_hi, extract_all, Nat.reduceSub]

theorem FmtIC.major_pack (m : BitVec 6) (f : FmtIC) : (FmtIC.pack m f).extractLsb' 26 6 = m := by
  simp (disch := omega) only [FmtIC.pack, BitVec.setWidth_eq, extract_hi, extract_all, Nat.reduceSub]

theorem FmtRC.unpack_pack (m : BitVec 6) (f : FmtRC) : FmtRC.unpack (FmtRC.pack m f) = f := by
  simp (disch := omega) only [FmtRC.unpack, FmtRC.pack, BitVec.setWidth_eq, extract_lo, extract_hi, extract_all, Nat.reduceSub]

theorem FmtRC.major_pack (m : BitVec 6) (f : FmtRC) : (FmtRC.pack m f).extractLsb' 26 6 = m := by
  simp (disch := omega) only [FmtRC.pack, BitVec.setWidth_eq, extract_hi, extract_all, Nat.reduceSub]

theorem FmtV.unpack_pack (m : BitVec 6) (f : FmtV) : FmtV.unpack (FmtV.pack m f) = f := by
  simp (disch := omega) only [FmtV.unpack, FmtV.pack, BitVec.setWidth_eq, extract_lo, extract_hi, extract_all, Nat.reduceSub]

theorem FmtV.major_pack (m : BitVec 6) (f : FmtV) : (FmtV.pack m f).extractLsb' 26 6 = m := by
  simp (disch := omega) only [FmtV.pack, BitVec.setWidth_eq, extract_hi, extract_all, Nat.reduceSub]

theorem FmtVC.unpack_pack (m : BitVec 6) (f : FmtVC) : FmtVC.unpack (FmtVC.pack m f) = f := by
  simp (disch := omega) only [FmtVC.unpack, FmtVC.pack, BitVec.setWidth_eq, extract_lo, extract_hi, extract_all, Nat.reduceSub]

theorem FmtVC.major_pack (m : BitVec 6) (f : FmtVC) : (FmtVC.pack m f).extractLsb' 26 6 = m := by
  simp (disch := omega) only [FmtVC.pack, BitVec.setWidth_eq, extract_hi, extract_all, Nat.reduceSub]

theorem FmtM.unpack_pack (m : BitVec 6) (f : FmtM) : FmtM.unpack (FmtM.pack m f) = f := by
  simp (disch := omega) only [FmtM.unpack, FmtM.pack, BitVec.setWidth_eq, extract_lo, extract_hi, extract_all, Nat.reduceSub]

theorem FmtM.major_pack (m : BitVec 6) (f : FmtM) : (FmtM.pack m f).extractLsb' 26 6 = m := by
  simp (disch := omega) only [FmtM.pack, BitVec.setWidth_eq, extract_hi, extract_all, Nat.reduceSub]

theorem FmtMV.unpack_pack (m : BitVec 6) (f : FmtMV) : FmtMV.unpack (FmtMV.pack m f) = f := by
  simp (disch := omega) only [FmtMV.unpack, FmtMV.pack, BitVec.setWidth_eq, extract_lo, extract_hi, extract_all, Nat.reduceSub]

theorem FmtMV.major_pack (m : BitVec 6) (f : FmtMV) : (FmtMV.pack m f).extractLsb' 26 6 = m := by
  simp (disch := omega) only [FmtMV.pack, BitVec.setWidth_eq, extract_hi, extract_all, Nat.reduceSub]

theorem FmtMX.unpack_pack (m : BitVec 6) (f : FmtMX) : FmtMX.unpack (FmtMX.pack m f) = f := by
  simp (disch := omega) only [FmtMX.unpack, FmtMX.pack, BitVec.setWidth_eq, extract_lo, extract_hi, extract_all, Nat.reduceSub]

theorem FmtMX.major_pack (m : BitVec 6) (f : FmtMX) : (FmtMX.pack m f).extractLsb' 26 6 = m := by
  simp (disch := omega) only [FmtMX.pack, BitVec.setWidth_eq, extract_hi, extract_all, Nat.reduceSub]

theorem FmtB.unpack_pack (m : BitVec 6) (f : FmtB) : FmtB.unpack (FmtB.pack m f) = f := by
  simp (disch := omega) only [FmtB.unpack, FmtB.pack, BitVec.setWidth_eq, extract_lo, extract_hi, extract_all, Nat.reduceSub]

theorem FmtB.major_pack (m : BitVec 6) (f : FmtB) : (FmtB.pack m f).extractLsb' 26 6 = m := by
  simp (disch := omega) only [FmtB.pack, BitVec.setWidth_eq, extract_hi, extract_all, Nat.reduceSub]

theorem FmtBC.unpack_pack (m : BitVec 6) (f : FmtBC) : FmtBC.unpack (FmtBC.pack m f) = f := by
  simp (disch := omega) only [FmtBC.unpack, FmtBC.pack, BitVec.setWidth_eq, extract_lo, extract_hi, extract_all, Nat.reduceSub]

theorem FmtBC.major_pack (m : BitVec 6) (f : FmtBC) : (FmtBC.pack m f).extractLsb' 26 6 = m := by
  simp (disch := omega) only [FmtBC.pack, BitVec.setWidth_eq, extract_hi, extract_all, Nat.reduceSub]

theorem FmtJ.unpack_pack (m : BitVec 6) (f : FmtJ) : FmtJ.unpack (FmtJ.pack m f) = f := by
  simp (disch := omega) only [FmtJ.unpack, FmtJ.pack, BitVec.setWidth_eq, extract_lo, extract_hi, extract_all, Nat.reduceSub]

theorem FmtJ.major_pack (m : BitVec 6) (f : FmtJ) : (FmtJ.pack m f).extractLsb' 26 6 = m := by
  simp (disch := omega) only [FmtJ.pack, BitVec.setWidth_eq, extract_hi, extract_all, Nat.reduceSub]

theorem FmtL.unpack_pack (m : BitVec 6) (f : FmtL) : FmtL.unpack (FmtL.pack m f) = f := by
  simp (disch := omega) only [FmtL.unpack, FmtL.pack, BitVec.setWidth_eq, extract_lo, extract_hi, extract_all, Nat.reduceSub]

theorem FmtL.major_pack (m : BitVec 6) (f : FmtL) : (FmtL.pack m f).extractLsb' 26 6 = m := by
  simp (disch := omega) only [FmtL.pack, BitVec.setWidth_eq, extract_hi, extract_all, Nat.reduceSub]

theorem FmtF.unpack_pack (m : BitVec 6) (f : FmtF) : FmtF.unpack (FmtF.pack m f) = f := by
  simp (disch := omega) only [FmtF.unpack, FmtF.pack, BitVec.setWidth_eq, extract_lo, extract_hi, extract_all, Nat.reduceSub]

theorem FmtF.major_pack (m : BitVec 6) (f : FmtF) : (FmtF.pack m f).extractLsb' 26 6 = m := by
  simp (disch := omega) only [FmtF.pack, BitVec.setWidth_eq, extract_hi, extract_all, Nat.reduceSub]

theorem FmtX.unpack_pack (m : BitVec 6) (f : FmtX) : FmtX.unpack (FmtX.pack m f) = f := by
  simp (disch := omega) only [FmtX.unpack, FmtX.pack, BitVec.setWidth_eq, extract_lo, extract_hi, extract_all, Nat.reduceSub]

theorem FmtX.major_pack (m : BitVec 6) (f : FmtX) : (FmtX.pack m f).extractLsb' 26 6 = m := by
  simp (disch := omega) only [FmtX.pack, BitVec.setWidth_eq, extract_hi, extract_all, Nat.reduceSub]

theorem FmtT.unpack_pack (m : BitVec 6) (f : FmtT) : FmtT.unpack (FmtT.pack m f) = f := by
  simp (disch := omega) only [FmtT.unpack, FmtT.pack, BitVec.setWidth_eq, extract_lo, extract_hi, extract_all, Nat.reduceSub]

theorem FmtT.major_pack (m : BitVec 6) (f : FmtT) : (FmtT.pack m f).extractLsb' 26 6 = m := by
  simp (disch := omega) only [FmtT.pack, BitVec.setWidth_eq, extract_hi, extract_all, Nat.reduceSub]

theorem FmtS.unpack_pack (m : BitVec 6) (f : FmtS) : FmtS.unpack (FmtS.pack m f) = f := by
  simp (disch := omega) only [FmtS.unpack, FmtS.pack, BitVec.setWidth_eq, extract_lo, extract_hi, extract_all, Nat.reduceSub]

theorem FmtS.major_pack (m : BitVec 6) (f : FmtS) : (FmtS.pack m f).extractLsb' 26 6 = m := by
  simp (disch := omega) only [FmtS.pack, BitVec.setWidth_eq, extract_hi, extract_all, Nat.reduceSub]

theorem FmtQ.unpack_pack (m : BitVec 6) (f : FmtQ) : FmtQ.unpack (FmtQ.pack m f) = f := by
  simp (disch := omega) only [FmtQ.unpack, FmtQ.pack, BitVec.setWidth_eq, extract_lo, extract_hi, extract_all, Nat.reduceSub]

theorem FmtQ.major_pack (m : BitVec 6) (f : FmtQ) : (FmtQ.pack m f).extractLsb' 26 6 = m := by
  simp (disch := omega) only [FmtQ.pack, BitVec.setWidth_eq, extract_hi, extract_all, Nat.reduceSub]

theorem FmtFC.unpack_pack (m : BitVec 6) (f : FmtFC) : FmtFC.unpack (FmtFC.pack m f) = f := by
  simp (disch := omega) only [FmtFC.unpack, FmtFC.pack, BitVec.setWidth_eq, extract_lo, extract_hi, extract_all, Nat.reduceSub]

theorem FmtFC.major_pack (m : BitVec 6) (f : FmtFC) : (FmtFC.pack m f).extractLsb' 26 6 = m := by
  simp (disch := omega) only [FmtFC.pack, BitVec.setWidth_eq, extract_hi, extract_all, Nat.reduceSub]

theorem extract_lo_1_15 (x : BitVec 1) (y : BitVec 15) (k n : Nat) (h : k + n ≤ 15) :
    @BitVec.extractLsb' 16 k n (x ++ y) = y.extractLsb' k n := extract_lo x y k n h

theorem extract_hi_1_15 (x : BitVec 1) (y : BitVec 15) (k n : Nat) (h : 15 ≤ k) :
    @BitVec.extractLsb' 16 k n (x ++ y) = x.extractLsb' (k - 15) n := extract_hi x y k n h

theorem extract_lo_1_3 (x : BitVec 1) (y : BitVec 3) (k n : Nat) (h : k + n ≤ 3) :
    @BitVec.extractLsb' 4 k n (x ++ y) = y.extractLsb' k n := extract_lo x y k n h

theorem extract_hi_1_3 (x : BitVec 1) (y : BitVec 3) (k n : Nat) (h : 3 ≤ k) :
    @BitVec.extractLsb' 4 k n (x ++ y) = x.extractLsb' (k - 3) n := extract_hi x y k n h

theorem extract_lo_10_6 (x : BitVec 10) (y : BitVec 6) (k n : Nat) (h : k + n ≤ 6) :
    @BitVec.extractLsb' 16 k n (x ++ y) = y.extractLsb' k n := extract_lo x y k n h

theorem extract_hi_10_6 (x : BitVec 10) (y : BitVec 6) (k n : Nat) (h : 6 ≤ k) :
    @BitVec.extractLsb' 16 k n (x ++ y) = x.extractLsb' (k - 6) n := extract_hi x y k n h

theorem extract_lo_15_8 (x : BitVec 15) (y : BitVec 8) (k n : Nat) (h : k + n ≤ 8) :
    @BitVec.extractLsb' 23 k n (x ++ y) = y.extractLsb' k n := extract_lo x y k n h

theorem extract_hi_15_8 (x : BitVec 15) (y : BitVec 8) (k n : Nat) (h : 8 ≤ k) :
    @BitVec.extractLsb' 23 k n (x ++ y) = x.extractLsb' (k - 8) n := extract_hi x y k n h

theorem extract_lo_18_5 (x : BitVec 18) (y : BitVec 5) (k n : Nat) (h : k + n ≤ 5) :
    @BitVec.extractLsb' 23 k n (x ++ y) = y.extractLsb' k n := extract_lo x y k n h

theorem extract_hi_18_5 (x : BitVec 18) (y : BitVec 5) (k n : Nat) (h : 5 ≤ k) :
    @BitVec.extractLsb' 23 k n (x ++ y) = x.extractLsb' (k - 5) n := extract_hi x y k n h

theorem extract_lo_3_2 (x : BitVec 3) (y : BitVec 2) (k n : Nat) (h : k + n ≤ 2) :
    @BitVec.extractLsb' 5 k n (x ++ y) = y.extractLsb' k n := extract_lo x y k n h

theorem extract_hi_3_2 (x : BitVec 3) (y : BitVec 2) (k n : Nat) (h : 2 ≤ k) :
    @BitVec.extractLsb' 5 k n (x ++ y) = x.extractLsb' (k - 2) n := extract_hi x y k n h

theorem extract_lo_4_1 (x : BitVec 4) (y : BitVec 1) (k n : Nat) (h : k + n ≤ 1) :
    @BitVec.extractLsb' 5 k n (x ++ y) = y.extractLsb' k n := extract_lo x y k n h

theorem extract_hi_4_1 (x : BitVec 4) (y : BitVec 1) (k n : Nat) (h : 1 ≤ k) :
    @BitVec.extractLsb' 5 k n (x ++ y) = x.extractLsb' (k - 1) n := extract_hi x y k n h

/-- A register number of three bits in a field of five (R247). -/
theorem pred?_low (d : PredNo) : pred? (0#2 ++ d) = some d := by
  revert d
  decide

/-- The function field of VLDS and VSTS. -/
theorem vlds_fn (m : BitVec 3) (x : BitVec 1) (k : BitVec 2) :
    @BitVec.extractLsb' 7 0 2 (0#1 ++ m ++ x ++ k) = k ∧ @BitVec.extractLsb' 7 2 1 (0#1 ++ m ++ x ++ k) = x ∧
      @BitVec.extractLsb' 7 3 3 (0#1 ++ m ++ x ++ k) = m ∧ @BitVec.extractLsb' 7 6 1 (0#1 ++ m ++ x ++ k) = 0#1 := by
  revert m x k
  decide

end Sys2Proof
end

