-- ==== Sys2Proof/Laws/Dispatch.lean ====
section
/-! SUPPORT. Each arm of `exec`, as an equation: a proof about an instruction rewrites with its own. -/

namespace Sys2Proof.Machine

theorem exec_add (d : RegNo) (a : RegNo) (b : RegNo) (σ : State) : exec (.add d a b) σ = execAdd d a b σ := rfl
theorem exec_sub (d : RegNo) (a : RegNo) (b : RegNo) (σ : State) : exec (.sub d a b) σ = execSub d a b σ := rfl
theorem exec_mul (d : RegNo) (a : RegNo) (b : RegNo) (σ : State) : exec (.mul d a b) σ = execMul d a b σ := rfl
theorem exec_mulh (d : RegNo) (a : RegNo) (b : RegNo) (σ : State) : exec (.mulh d a b) σ = execMulh d a b σ := rfl
theorem exec_mulhn (d : RegNo) (a : RegNo) (b : RegNo) (σ : State) : exec (.mulhn d a b) σ = execMulhn d a b σ := rfl
theorem exec_div (d : RegNo) (a : RegNo) (b : RegNo) (la : BitVec 4) (σ : State) : exec (.div d a b la) σ = execDiv d a b la σ := rfl
theorem exec_divn (d : RegNo) (a : RegNo) (b : RegNo) (la : BitVec 4) (σ : State) : exec (.divn d a b la) σ = execDivn d a b la σ := rfl
theorem exec_rem (d : RegNo) (a : RegNo) (b : RegNo) (la : BitVec 4) (σ : State) : exec (.rem d a b la) σ = execRem d a b la σ := rfl
theorem exec_remn (d : RegNo) (a : RegNo) (b : RegNo) (la : BitVec 4) (σ : State) : exec (.remn d a b la) σ = execRemn d a b la σ := rfl
theorem exec_and (d : RegNo) (a : RegNo) (b : RegNo) (σ : State) : exec (.and d a b) σ = execAnd d a b σ := rfl
theorem exec_or (d : RegNo) (a : RegNo) (b : RegNo) (σ : State) : exec (.or d a b) σ = execOr d a b σ := rfl
theorem exec_xor (d : RegNo) (a : RegNo) (b : RegNo) (σ : State) : exec (.xor d a b) σ = execXor d a b σ := rfl
theorem exec_andn (d : RegNo) (a : RegNo) (b : RegNo) (σ : State) : exec (.andn d a b) σ = execAndn d a b σ := rfl
theorem exec_shl (d : RegNo) (a : RegNo) (b : RegNo) (σ : State) : exec (.shl d a b) σ = execShl d a b σ := rfl
theorem exec_shr (d : RegNo) (a : RegNo) (b : RegNo) (σ : State) : exec (.shr d a b) σ = execShr d a b σ := rfl
theorem exec_sra (d : RegNo) (a : RegNo) (b : RegNo) (σ : State) : exec (.sra d a b) σ = execSra d a b σ := rfl
theorem exec_min (d : RegNo) (a : RegNo) (b : RegNo) (σ : State) : exec (.min d a b) σ = execMin d a b σ := rfl
theorem exec_max (d : RegNo) (a : RegNo) (b : RegNo) (σ : State) : exec (.max d a b) σ = execMax d a b σ := rfl
theorem exec_minn (d : RegNo) (a : RegNo) (b : RegNo) (σ : State) : exec (.minn d a b) σ = execMinn d a b σ := rfl
theorem exec_maxn (d : RegNo) (a : RegNo) (b : RegNo) (σ : State) : exec (.maxn d a b) σ = execMaxn d a b σ := rfl
theorem exec_clz (d : RegNo) (a : RegNo) (σ : State) : exec (.clz d a) σ = execClz d a σ := rfl
theorem exec_popc (d : RegNo) (a : RegNo) (σ : State) : exec (.popc d a) σ = execPopc d a σ := rfl
theorem exec_bfx (d : RegNo) (a : RegNo) (b : RegNo) (σ : State) : exec (.bfx d a b) σ = execBfx d a b σ := rfl
theorem exec_bfxn (d : RegNo) (a : RegNo) (b : RegNo) (σ : State) : exec (.bfxn d a b) σ = execBfxn d a b σ := rfl
theorem exec_bfi (d : RegNo) (a : RegNo) (b : RegNo) (σ : State) : exec (.bfi d a b) σ = execBfi d a b σ := rfl
theorem exec_sel (d : RegNo) (a : RegNo) (b : RegNo) (p : PredNo) (σ : State) : exec (.sel d a b p) σ = execSel d a b p σ := rfl
theorem exec_cmp (p : PredNo) (a : RegNo) (b : RegNo) (cc : Cond) (σ : State) : exec (.cmp p a b cc) σ = execCmp p a b cc σ := rfl
theorem exec_addi (d : RegNo) (a : RegNo) (imm : BitVec 16) (σ : State) : exec (.addi d a imm) σ = execAddi d a imm σ := rfl
theorem exec_andi (d : RegNo) (a : RegNo) (imm : BitVec 16) (σ : State) : exec (.andi d a imm) σ = execAndi d a imm σ := rfl
theorem exec_ori (d : RegNo) (a : RegNo) (imm : BitVec 16) (σ : State) : exec (.ori d a imm) σ = execOri d a imm σ := rfl
theorem exec_xori (d : RegNo) (a : RegNo) (imm : BitVec 16) (σ : State) : exec (.xori d a imm) σ = execXori d a imm σ := rfl
theorem exec_shli (d : RegNo) (a : RegNo) (n : BitVec 6) (σ : State) : exec (.shli d a n) σ = execShli d a n σ := rfl
theorem exec_shri (d : RegNo) (a : RegNo) (n : BitVec 6) (σ : State) : exec (.shri d a n) σ = execShri d a n σ := rfl
theorem exec_srai (d : RegNo) (a : RegNo) (n : BitVec 6) (σ : State) : exec (.srai d a n) σ = execSrai d a n σ := rfl
theorem exec_lim (d : RegNo) (q : BitVec 2) (imm : BitVec 16) (σ : State) : exec (.lim d q imm) σ = execLim d q imm σ := rfl
theorem exec_cmpi (p : PredNo) (cc : Cond) (a : RegNo) (imm : BitVec 15) (σ : State) : exec (.cmpi p cc a imm) σ = execCmpi p cc a imm σ := rfl
theorem exec_paddi (d : RegNo) (a : RegNo) (imm : BitVec 16) (σ : State) : exec (.paddi d a imm) σ = execPaddi d a imm σ := rfl
theorem exec_padd (d : RegNo) (a : RegNo) (b : RegNo) (σ : State) : exec (.padd d a b) σ = execPadd d a b σ := rfl
theorem exec_psub (d : RegNo) (a : RegNo) (b : RegNo) (σ : State) : exec (.psub d a b) σ = execPsub d a b σ := rfl
theorem exec_ptag (d : RegNo) (a : RegNo) (b : RegNo) (σ : State) : exec (.ptag d a b) σ = execPtag d a b σ := rfl
theorem exec_pget (d : RegNo) (a : RegNo) (σ : State) : exec (.pget d a) σ = execPget d a σ := rfl
theorem exec_fadd (d : RegNo) (a : RegNo) (b : RegNo) (σ : State) : exec (.fadd d a b) σ = execFadd d a b σ := rfl
theorem exec_fsub (d : RegNo) (a : RegNo) (b : RegNo) (σ : State) : exec (.fsub d a b) σ = execFsub d a b σ := rfl
theorem exec_fmul (d : RegNo) (a : RegNo) (b : RegNo) (σ : State) : exec (.fmul d a b) σ = execFmul d a b σ := rfl
theorem exec_fdiv (d : RegNo) (a : RegNo) (b : RegNo) (la : BitVec 4) (σ : State) : exec (.fdiv d a b la) σ = execFdiv d a b la σ := rfl
theorem exec_fsqrt (d : RegNo) (a : RegNo) (la : BitVec 4) (σ : State) : exec (.fsqrt d a la) σ = execFsqrt d a la σ := rfl
theorem exec_fmin (d : RegNo) (a : RegNo) (b : RegNo) (σ : State) : exec (.fmin d a b) σ = execFmin d a b σ := rfl
theorem exec_fmax (d : RegNo) (a : RegNo) (b : RegNo) (σ : State) : exec (.fmax d a b) σ = execFmax d a b σ := rfl
theorem exec_fcmp (d : RegNo) (a : RegNo) (b : RegNo) (cc : FCond) (σ : State) : exec (.fcmp d a b cc) σ = execFcmp d a b cc σ := rfl
theorem exec_fcvtF2i (d : RegNo) (a : RegNo) (σ : State) : exec (.fcvtF2i d a) σ = execFcvtF2i d a σ := rfl
theorem exec_fcvtF2n (d : RegNo) (a : RegNo) (σ : State) : exec (.fcvtF2n d a) σ = execFcvtF2n d a σ := rfl
theorem exec_fcvtI2f (d : RegNo) (a : RegNo) (σ : State) : exec (.fcvtI2f d a) σ = execFcvtI2f d a σ := rfl
theorem exec_fcvtN2f (d : RegNo) (a : RegNo) (σ : State) : exec (.fcvtN2f d a) σ = execFcvtN2f d a σ := rfl
theorem exec_fclass (d : RegNo) (a : RegNo) (σ : State) : exec (.fclass d a) σ = execFclass d a σ := rfl
theorem exec_fma (d : RegNo) (a : RegNo) (b : RegNo) (c : RegNo) (σ : State) : exec (.fma d a b c) σ = execFma d a b c σ := rfl
theorem exec_fms (d : RegNo) (a : RegNo) (b : RegNo) (c : RegNo) (σ : State) : exec (.fms d a b c) σ = execFms d a b c σ := rfl
theorem exec_fnma (d : RegNo) (a : RegNo) (b : RegNo) (c : RegNo) (σ : State) : exec (.fnma d a b c) σ = execFnma d a b c σ := rfl
theorem exec_brAny (p : PredNo) (disp : BitVec 22) (σ : State) : exec (.brAny p disp) σ = execBrAny p disp σ := rfl
theorem exec_brNone (p : PredNo) (disp : BitVec 22) (σ : State) : exec (.brNone p disp) σ = execBrNone p disp σ := rfl
theorem exec_bcc (a : RegNo) (b : RegNo) (cc : Cond) (disp : BitVec 13) (σ : State) : exec (.bcc a b cc disp) σ = execBcc a b cc disp σ := rfl
theorem exec_bra (disp : BitVec 26) (σ : State) : exec (.bra disp) σ = execBra disp σ := rfl
theorem exec_call (disp : BitVec 26) (σ : State) : exec (.call disp) σ = execCall disp σ := rfl
theorem exec_jr (a : RegNo) (σ : State) : exec (.jr a) σ = execJr a σ := rfl
theorem exec_callr (a : RegNo) (σ : State) : exec (.callr a) σ = execCallr a σ := rfl
theorem exec_ret (s : State) : exec .ret s = execRet s := rfl
theorem exec_loop (a : RegNo) (disp : BitVec 21) (σ : State) : exec (.loop a disp) σ = execLoop a disp σ := rfl
theorem exec_repf (len : BitVec 4) (cnt : BitVec 8) (fm : BitVec 3) (step : BitVec 2) (σ : State) : exec (.repf len cnt fm step) σ = execRepf len cnt fm step σ := rfl
theorem exec_ld (d : RegNo) (a : RegNo) (la : BitVec 4) (x : Bool) (sz : Size) (off : BitVec 9) (σ : State) : exec (.ld d a la x sz off) σ = execLd d a la x sz off σ := rfl
theorem exec_ldn (d : RegNo) (a : RegNo) (la : BitVec 4) (x : Bool) (sz : Size) (off : BitVec 9) (σ : State) : exec (.ldn d a la x sz off) σ = execLdn d a la x sz off σ := rfl
theorem exec_st (d : RegNo) (a : RegNo) (la : BitVec 4) (x : Bool) (sz : Size) (off : BitVec 9) (σ : State) : exec (.st d a la x sz off) σ = execSt d a la x sz off σ := rfl
theorem exec_ldx (d : RegNo) (a : RegNo) (b : RegNo) (la : BitVec 4) (x : Bool) (sz : Size) (z : Bool) (σ : State) : exec (.ldx d a b la x sz z) σ = execLdx d a b la x sz z σ := rfl
theorem exec_stx (d : RegNo) (a : RegNo) (b : RegNo) (la : BitVec 4) (x : Bool) (sz : Size) (σ : State) : exec (.stx d a b la x sz) σ = execStx d a b la x sz σ := rfl
theorem exec_ldf (d : RegNo) (a : RegNo) (la : BitVec 4) (σ : State) : exec (.ldf d a la) σ = execLdf d a la σ := rfl
theorem exec_ldff (d : RegNo) (a : RegNo) (la : BitVec 4) (σ : State) : exec (.ldff d a la) σ = execLdff d a la σ := rfl
theorem exec_ste (d : RegNo) (a : RegNo) (la : BitVec 4) (σ : State) : exec (.ste d a la) σ = execSte d a la σ := rfl
theorem exec_stef (d : RegNo) (a : RegNo) (la : BitVec 4) (σ : State) : exec (.stef d a la) σ = execStef d a la σ := rfl
theorem exec_feclr (a : RegNo) (la : BitVec 4) (σ : State) : exec (.feclr a la) σ = execFeclr a la σ := rfl
theorem exec_feget (d : RegNo) (a : RegNo) (la : BitVec 4) (σ : State) : exec (.feget d a la) σ = execFeget d a la σ := rfl
theorem exec_amoAdd (d : RegNo) (a : RegNo) (b : RegNo) (la : BitVec 4) (sz : ASize) (σ : State) : exec (.amoAdd d a b la sz) σ = execAmoAdd d a b la sz σ := rfl
theorem exec_amoAnd (d : RegNo) (a : RegNo) (b : RegNo) (la : BitVec 4) (sz : ASize) (σ : State) : exec (.amoAnd d a b la sz) σ = execAmoAnd d a b la sz σ := rfl
theorem exec_amoOr (d : RegNo) (a : RegNo) (b : RegNo) (la : BitVec 4) (sz : ASize) (σ : State) : exec (.amoOr d a b la sz) σ = execAmoOr d a b la sz σ := rfl
theorem exec_amoXor (d : RegNo) (a : RegNo) (b : RegNo) (la : BitVec 4) (sz : ASize) (σ : State) : exec (.amoXor d a b la sz) σ = execAmoXor d a b la sz σ := rfl
theorem exec_amoMin (d : RegNo) (a : RegNo) (b : RegNo) (la : BitVec 4) (sz : ASize) (σ : State) : exec (.amoMin d a b la sz) σ = execAmoMin d a b la sz σ := rfl
theorem exec_amoMax (d : RegNo) (a : RegNo) (b : RegNo) (la : BitVec 4) (sz : ASize) (σ : State) : exec (.amoMax d a b la sz) σ = execAmoMax d a b la sz σ := rfl
theorem exec_amoMinn (d : RegNo) (a : RegNo) (b : RegNo) (la : BitVec 4) (sz : ASize) (σ : State) : exec (.amoMinn d a b la sz) σ = execAmoMinn d a b la sz σ := rfl
theorem exec_amoMaxn (d : RegNo) (a : RegNo) (b : RegNo) (la : BitVec 4) (sz : ASize) (σ : State) : exec (.amoMaxn d a b la sz) σ = execAmoMaxn d a b la sz σ := rfl
theorem exec_amoSwap (d : RegNo) (a : RegNo) (b : RegNo) (la : BitVec 4) (sz : ASize) (σ : State) : exec (.amoSwap d a b la sz) σ = execAmoSwap d a b la sz σ := rfl
theorem exec_amoFadd (d : RegNo) (a : RegNo) (b : RegNo) (la : BitVec 4) (σ : State) : exec (.amoFadd d a b la) σ = execAmoFadd d a b la σ := rfl
theorem exec_cas (d : RegNo) (a : RegNo) (b : RegNo) (c : RegNo) (sz : ASize) (σ : State) : exec (.cas d a b c sz) σ = execCas d a b c sz σ := rfl
theorem exec_ldr (d : RegNo) (a : RegNo) (la : BitVec 4) (sz : ASize) (σ : State) : exec (.ldr d a la sz) σ = execLdr d a la sz σ := rfl
theorem exec_stc (d : RegNo) (a : RegNo) (b : RegNo) (la : BitVec 4) (sz : ASize) (σ : State) : exec (.stc d a b la sz) σ = execStc d a b la sz σ := rfl
theorem exec_wrs (d : RegNo) (a : RegNo) (la : BitVec 4) (sz : ASize) (σ : State) : exec (.wrs d a la sz) σ = execWrs d a la sz σ := rfl
theorem exec_rupdAdd (a : RegNo) (b : RegNo) (sz : ASize) (σ : State) : exec (.rupdAdd a b sz) σ = execRupdAdd a b sz σ := rfl
theorem exec_rupdAnd (a : RegNo) (b : RegNo) (sz : ASize) (σ : State) : exec (.rupdAnd a b sz) σ = execRupdAnd a b sz σ := rfl
theorem exec_rupdOr (a : RegNo) (b : RegNo) (sz : ASize) (σ : State) : exec (.rupdOr a b sz) σ = execRupdOr a b sz σ := rfl
theorem exec_rupdXor (a : RegNo) (b : RegNo) (sz : ASize) (σ : State) : exec (.rupdXor a b sz) σ = execRupdXor a b sz σ := rfl
theorem exec_rupdMin (a : RegNo) (b : RegNo) (sz : ASize) (σ : State) : exec (.rupdMin a b sz) σ = execRupdMin a b sz σ := rfl
theorem exec_rupdMax (a : RegNo) (b : RegNo) (sz : ASize) (σ : State) : exec (.rupdMax a b sz) σ = execRupdMax a b sz σ := rfl
theorem exec_rupdMinn (a : RegNo) (b : RegNo) (sz : ASize) (σ : State) : exec (.rupdMinn a b sz) σ = execRupdMinn a b sz σ := rfl
theorem exec_rupdMaxn (a : RegNo) (b : RegNo) (sz : ASize) (σ : State) : exec (.rupdMaxn a b sz) σ = execRupdMaxn a b sz σ := rfl
theorem exec_rupdFadd (a : RegNo) (b : RegNo) (σ : State) : exec (.rupdFadd a b) σ = execRupdFadd a b σ := rfl
theorem exec_fence (s : Scope) (σ : State) : exec (.fence s) σ = execFence s σ := rfl
theorem exec_fenceAcq (s : Scope) (σ : State) : exec (.fenceAcq s) σ = execFenceAcq s σ := rfl
theorem exec_fenceRel (s : Scope) (σ : State) : exec (.fenceRel s) σ = execFenceRel s σ := rfl
theorem exec_fenceEng (s : Scope) (σ : State) : exec (.fenceEng s) σ = execFenceEng s σ := rfl
theorem exec_bara (id : BitVec 5) (σ : State) : exec (.bara id) σ = execBara id σ := rfl
theorem exec_barw (id : BitVec 5) (σ : State) : exec (.barw id) σ = execBarw id σ := rfl
theorem exec_barg (id : BitVec 5) (σ : State) : exec (.barg id) σ = execBarg id σ := rfl
theorem exec_barq (d : RegNo) (id : BitVec 5) (σ : State) : exec (.barq d id) σ = execBarq d id σ := rfl
theorem exec_barset (id : BitVec 5) (b : RegNo) (σ : State) : exec (.barset id b) σ = execBarset id b σ := rfl
theorem exec_txb (disp : BitVec 23) (σ : State) : exec (.txb disp) σ = execTxb disp σ := rfl
theorem exec_txelse (disp : BitVec 23) (σ : State) : exec (.txelse disp) σ = execTxelse disp σ := rfl
theorem exec_txe (s : State) : exec .txe s = execTxe s := rfl
theorem exec_txr (s : State) : exec .txr s = execTxr s := rfl
theorem exec_txabort (c : BitVec 8) (σ : State) : exec (.txabort c) σ = execTxabort c σ := rfl
theorem exec_txst (d : RegNo) (σ : State) : exec (.txst d) σ = execTxst d σ := rfl
theorem exec_vld (d : RegNo) (a : RegNo) (la : BitVec 4) (x : Bool) (m : PredNo) (off : BitVec 7) (σ : State) : exec (.vld d a la x m off) σ = execVld d a la x m off σ := rfl
theorem exec_vldC (d : RegNo) (a : RegNo) (la : BitVec 4) (x : Bool) (m : PredNo) (off : BitVec 7) (σ : State) : exec (.vldC d a la x m off) σ = execVldC d a la x m off σ := rfl
theorem exec_vst (d : RegNo) (a : RegNo) (la : BitVec 4) (x : Bool) (m : PredNo) (off : BitVec 7) (σ : State) : exec (.vst d a la x m off) σ = execVst d a la x m off σ := rfl
theorem exec_vldx (d : RegNo) (a : RegNo) (b : RegNo) (la : BitVec 4) (x : Bool) (sz : Size) (m : PredNo) (z : Bool) (σ : State) : exec (.vldx d a b la x sz m z) σ = execVldx d a b la x sz m z σ := rfl
theorem exec_vstx (d : RegNo) (a : RegNo) (b : RegNo) (la : BitVec 4) (x : Bool) (sz : Size) (m : PredNo) (σ : State) : exec (.vstx d a b la x sz m) σ = execVstx d a b la x sz m σ := rfl
theorem exec_vlds (d : RegNo) (a : RegNo) (b : RegNo) (la : BitVec 4) (m : PredNo) (x : Bool) (σ : State) : exec (.vlds d a b la m x) σ = execVlds d a b la m x σ := rfl
theorem exec_vsts (d : RegNo) (a : RegNo) (b : RegNo) (la : BitVec 4) (m : PredNo) (x : Bool) (σ : State) : exec (.vsts d a b la m x) σ = execVsts d a b la m x σ := rfl
theorem exec_vadd (d : RegNo) (a : RegNo) (b : RegNo) (m : PredNo) (σ : State) : exec (.vadd d a b m) σ = execVadd d a b m σ := rfl
theorem exec_vsub (d : RegNo) (a : RegNo) (b : RegNo) (m : PredNo) (σ : State) : exec (.vsub d a b m) σ = execVsub d a b m σ := rfl
theorem exec_vmul (d : RegNo) (a : RegNo) (b : RegNo) (m : PredNo) (σ : State) : exec (.vmul d a b m) σ = execVmul d a b m σ := rfl
theorem exec_vmulh (d : RegNo) (a : RegNo) (b : RegNo) (m : PredNo) (σ : State) : exec (.vmulh d a b m) σ = execVmulh d a b m σ := rfl
theorem exec_vand (d : RegNo) (a : RegNo) (b : RegNo) (m : PredNo) (σ : State) : exec (.vand d a b m) σ = execVand d a b m σ := rfl
theorem exec_vor (d : RegNo) (a : RegNo) (b : RegNo) (m : PredNo) (σ : State) : exec (.vor d a b m) σ = execVor d a b m σ := rfl
theorem exec_vxor (d : RegNo) (a : RegNo) (b : RegNo) (m : PredNo) (σ : State) : exec (.vxor d a b m) σ = execVxor d a b m σ := rfl
theorem exec_vshl (d : RegNo) (a : RegNo) (b : RegNo) (m : PredNo) (σ : State) : exec (.vshl d a b m) σ = execVshl d a b m σ := rfl
theorem exec_vshr (d : RegNo) (a : RegNo) (b : RegNo) (m : PredNo) (σ : State) : exec (.vshr d a b m) σ = execVshr d a b m σ := rfl
theorem exec_vsra (d : RegNo) (a : RegNo) (b : RegNo) (m : PredNo) (σ : State) : exec (.vsra d a b m) σ = execVsra d a b m σ := rfl
theorem exec_vmin (d : RegNo) (a : RegNo) (b : RegNo) (m : PredNo) (σ : State) : exec (.vmin d a b m) σ = execVmin d a b m σ := rfl
theorem exec_vmax (d : RegNo) (a : RegNo) (b : RegNo) (m : PredNo) (σ : State) : exec (.vmax d a b m) σ = execVmax d a b m σ := rfl
theorem exec_vminn (d : RegNo) (a : RegNo) (b : RegNo) (m : PredNo) (σ : State) : exec (.vminn d a b m) σ = execVminn d a b m σ := rfl
theorem exec_vmaxn (d : RegNo) (a : RegNo) (b : RegNo) (m : PredNo) (σ : State) : exec (.vmaxn d a b m) σ = execVmaxn d a b m σ := rfl
theorem exec_vabs (d : RegNo) (a : RegNo) (m : PredNo) (σ : State) : exec (.vabs d a m) σ = execVabs d a m σ := rfl
theorem exec_vneg (d : RegNo) (a : RegNo) (m : PredNo) (σ : State) : exec (.vneg d a m) σ = execVneg d a m σ := rfl
theorem exec_vcmp (d : PredNo) (a : RegNo) (b : RegNo) (m : PredNo) (cc : Cond) (σ : State) : exec (.vcmp d a b m cc) σ = execVcmp d a b m cc σ := rfl
theorem exec_vsel (d : RegNo) (a : RegNo) (b : RegNo) (m : PredNo) (σ : State) : exec (.vsel d a b m) σ = execVsel d a b m σ := rfl
theorem exec_vclz (d : RegNo) (a : RegNo) (m : PredNo) (σ : State) : exec (.vclz d a m) σ = execVclz d a m σ := rfl
theorem exec_vpopc (d : RegNo) (a : RegNo) (m : PredNo) (σ : State) : exec (.vpopc d a m) σ = execVpopc d a m σ := rfl
theorem exec_vfadd (d : RegNo) (a : RegNo) (b : RegNo) (m : PredNo) (σ : State) : exec (.vfadd d a b m) σ = execVfadd d a b m σ := rfl
theorem exec_vfsub (d : RegNo) (a : RegNo) (b : RegNo) (m : PredNo) (σ : State) : exec (.vfsub d a b m) σ = execVfsub d a b m σ := rfl
theorem exec_vfmul (d : RegNo) (a : RegNo) (b : RegNo) (m : PredNo) (σ : State) : exec (.vfmul d a b m) σ = execVfmul d a b m σ := rfl
theorem exec_vfmin (d : RegNo) (a : RegNo) (b : RegNo) (m : PredNo) (σ : State) : exec (.vfmin d a b m) σ = execVfmin d a b m σ := rfl
theorem exec_vfmax (d : RegNo) (a : RegNo) (b : RegNo) (m : PredNo) (σ : State) : exec (.vfmax d a b m) σ = execVfmax d a b m σ := rfl
theorem exec_vfabs (d : RegNo) (a : RegNo) (m : PredNo) (σ : State) : exec (.vfabs d a m) σ = execVfabs d a m σ := rfl
theorem exec_vfneg (d : RegNo) (a : RegNo) (m : PredNo) (σ : State) : exec (.vfneg d a m) σ = execVfneg d a m σ := rfl
theorem exec_vfcmp (d : PredNo) (a : RegNo) (b : RegNo) (m : PredNo) (cc : FCond) (σ : State) : exec (.vfcmp d a b m cc) σ = execVfcmp d a b m cc σ := rfl
theorem exec_vfma (d : RegNo) (a : RegNo) (b : RegNo) (c : RegNo) (m : PredNo) (σ : State) : exec (.vfma d a b c m) σ = execVfma d a b c m σ := rfl
theorem exec_vfms (d : RegNo) (a : RegNo) (b : RegNo) (c : RegNo) (m : PredNo) (σ : State) : exec (.vfms d a b c m) σ = execVfms d a b c m σ := rfl
theorem exec_vfnma (d : RegNo) (a : RegNo) (b : RegNo) (c : RegNo) (m : PredNo) (σ : State) : exec (.vfnma d a b c m) σ = execVfnma d a b c m σ := rfl
theorem exec_vma (d : RegNo) (a : RegNo) (b : RegNo) (c : RegNo) (m : PredNo) (σ : State) : exec (.vma d a b c m) σ = execVma d a b c m σ := rfl
theorem exec_vfdiv (d : RegNo) (a : RegNo) (b : RegNo) (la : BitVec 4) (m : PredNo) (σ : State) : exec (.vfdiv d a b la m) σ = execVfdiv d a b la m σ := rfl
theorem exec_vfsqrt (d : RegNo) (a : RegNo) (la : BitVec 4) (m : PredNo) (σ : State) : exec (.vfsqrt d a la m) σ = execVfsqrt d a la m σ := rfl
theorem exec_vfrcp (d : RegNo) (a : RegNo) (la : BitVec 4) (m : PredNo) (σ : State) : exec (.vfrcp d a la m) σ = execVfrcp d a la m σ := rfl
theorem exec_vfrsq (d : RegNo) (a : RegNo) (la : BitVec 4) (m : PredNo) (σ : State) : exec (.vfrsq d a la m) σ = execVfrsq d a la m σ := rfl
theorem exec_vfexp2 (d : RegNo) (a : RegNo) (la : BitVec 4) (m : PredNo) (σ : State) : exec (.vfexp2 d a la m) σ = execVfexp2 d a la m σ := rfl
theorem exec_vflog2 (d : RegNo) (a : RegNo) (la : BitVec 4) (m : PredNo) (σ : State) : exec (.vflog2 d a la m) σ = execVflog2 d a la m σ := rfl
theorem exec_vcvtF2bf (d : RegNo) (a : RegNo) (b : RegNo) (m : PredNo) (σ : State) : exec (.vcvtF2bf d a b m) σ = execVcvtF2bf d a b m σ := rfl
theorem exec_vcvtBf2f (d : RegNo) (a : RegNo) (h : Bool) (m : PredNo) (σ : State) : exec (.vcvtBf2f d a h m) σ = execVcvtBf2f d a h m σ := rfl
theorem exec_vcvtF2h (d : RegNo) (a : RegNo) (b : RegNo) (m : PredNo) (σ : State) : exec (.vcvtF2h d a b m) σ = execVcvtF2h d a b m σ := rfl
theorem exec_vcvtH2f (d : RegNo) (a : RegNo) (h : Bool) (m : PredNo) (σ : State) : exec (.vcvtH2f d a h m) σ = execVcvtH2f d a h m σ := rfl
theorem exec_vcvtF2e4 (d : RegNo) (a : RegNo) (k : BitVec 2) (m : PredNo) (σ : State) : exec (.vcvtF2e4 d a k m) σ = execVcvtF2e4 d a k m σ := rfl
theorem exec_vcvtE42f (d : RegNo) (a : RegNo) (k : BitVec 2) (m : PredNo) (σ : State) : exec (.vcvtE42f d a k m) σ = execVcvtE42f d a k m σ := rfl
theorem exec_vcvtF2e5 (d : RegNo) (a : RegNo) (k : BitVec 2) (m : PredNo) (σ : State) : exec (.vcvtF2e5 d a k m) σ = execVcvtF2e5 d a k m σ := rfl
theorem exec_vcvtE52f (d : RegNo) (a : RegNo) (k : BitVec 2) (m : PredNo) (σ : State) : exec (.vcvtE52f d a k m) σ = execVcvtE52f d a k m σ := rfl
theorem exec_vcvtF2i (d : RegNo) (a : RegNo) (m : PredNo) (σ : State) : exec (.vcvtF2i d a m) σ = execVcvtF2i d a m σ := rfl
theorem exec_vcvtI2f (d : RegNo) (a : RegNo) (m : PredNo) (σ : State) : exec (.vcvtI2f d a m) σ = execVcvtI2f d a m σ := rfl
theorem exec_vcvtN2f (d : RegNo) (a : RegNo) (m : PredNo) (σ : State) : exec (.vcvtN2f d a m) σ = execVcvtN2f d a m σ := rfl
theorem exec_vcvtF2n (d : RegNo) (a : RegNo) (m : PredNo) (σ : State) : exec (.vcvtF2n d a m) σ = execVcvtF2n d a m σ := rfl
theorem exec_vcvtI2b (d : RegNo) (a : RegNo) (k : BitVec 2) (m : PredNo) (σ : State) : exec (.vcvtI2b d a k m) σ = execVcvtI2b d a k m σ := rfl
theorem exec_vcvtB2i (d : RegNo) (a : RegNo) (k : BitVec 2) (m : PredNo) (σ : State) : exec (.vcvtB2i d a k m) σ = execVcvtB2i d a k m σ := rfl
theorem exec_vbcast (d : RegNo) (a : RegNo) (m : PredNo) (σ : State) : exec (.vbcast d a m) σ = execVbcast d a m σ := rfl
theorem exec_vext (d : RegNo) (a : RegNo) (b : RegNo) (σ : State) : exec (.vext d a b) σ = execVext d a b σ := rfl
theorem exec_vins (d : RegNo) (a : RegNo) (b : RegNo) (σ : State) : exec (.vins d a b) σ = execVins d a b σ := rfl
theorem exec_vperm (d : RegNo) (a : RegNo) (b : RegNo) (m : PredNo) (σ : State) : exec (.vperm d a b m) σ = execVperm d a b m σ := rfl
theorem exec_viota (d : RegNo) (m : PredNo) (σ : State) : exec (.viota d m) σ = execViota d m σ := rfl
theorem exec_vred (d : RegNo) (a : RegNo) (op : RedOp) (m : PredNo) (σ : State) : exec (.vred d a op m) σ = execVred d a op m σ := rfl
theorem exec_vscan (d : RegNo) (a : RegNo) (op : RedOp) (m : PredNo) (σ : State) : exec (.vscan d a op m) σ = execVscan d a op m σ := rfl
theorem exec_vcomp (d : RegNo) (a : RegNo) (m : PredNo) (σ : State) : exec (.vcomp d a m) σ = execVcomp d a m σ := rfl
theorem exec_vslide (d : RegNo) (a : RegNo) (b : RegNo) (m : PredNo) (σ : State) : exec (.vslide d a b m) σ = execVslide d a b m σ := rfl
theorem exec_pand (d : PredNo) (a : PredNo) (b : PredNo) (σ : State) : exec (.pand d a b) σ = execPand d a b σ := rfl
theorem exec_por (d : PredNo) (a : PredNo) (b : PredNo) (σ : State) : exec (.por d a b) σ = execPor d a b σ := rfl
theorem exec_pxor (d : PredNo) (a : PredNo) (b : PredNo) (σ : State) : exec (.pxor d a b) σ = execPxor d a b σ := rfl
theorem exec_pandn (d : PredNo) (a : PredNo) (b : PredNo) (σ : State) : exec (.pandn d a b) σ = execPandn d a b σ := rfl
theorem exec_pnot (d : PredNo) (a : PredNo) (σ : State) : exec (.pnot d a) σ = execPnot d a σ := rfl
theorem exec_pcnt (d : RegNo) (a : PredNo) (σ : State) : exec (.pcnt d a) σ = execPcnt d a σ := rfl
theorem exec_pfirst (d : RegNo) (a : PredNo) (σ : State) : exec (.pfirst d a) σ = execPfirst d a σ := rfl
theorem exec_pset (d : PredNo) (a : RegNo) (σ : State) : exec (.pset d a) σ = execPset d a σ := rfl
theorem exec_pgets (d : RegNo) (a : PredNo) (σ : State) : exec (.pgets d a) σ = execPgets d a σ := rfl
theorem exec_mma (md : PredNo) (a : RegNo) (b : RegNo) (ty : MTy) (t : Bool) (z : Bool) (σ : State) : exec (.mma md a b ty t z) σ = execMma md a b ty t z σ := rfl
theorem exec_mmaIx (md : PredNo) (a : RegNo) (b : RegNo) (v : RegNo) (ty : MTy) (t : Bool) (z : Bool) (σ : State) : exec (.mmaIx md a b v ty t z) σ = execMmaIx md a b v ty t z σ := rfl
theorem exec_msp (md : PredNo) (a : RegNo) (b : RegNo) (v : RegNo) (ty : MTy) (t : Bool) (z : Bool) (σ : State) : exec (.msp md a b v ty t z) σ = execMsp md a b v ty t z σ := rfl
theorem exec_mzero (d : PredNo) (σ : State) : exec (.mzero d) σ = execMzero d σ := rfl
theorem exec_mlda (d : PredNo) (a : RegNo) (σ : State) : exec (.mlda d a) σ = execMlda d a σ := rfl
theorem exec_msta (d : PredNo) (a : RegNo) (σ : State) : exec (.msta d a) σ = execMsta d a σ := rfl
theorem exec_mmov (d : PredNo) (a : PredNo) (σ : State) : exec (.mmov d a) σ = execMmov d a σ := rfl
theorem exec_mstat (d : RegNo) (la : BitVec 4) (σ : State) : exec (.mstat d la) σ = execMstat d la σ := rfl
theorem exec_mwait (d : RegNo) (la : BitVec 4) (σ : State) : exec (.mwait d la) σ = execMwait d la σ := rfl
theorem exec_cpy (a : RegNo) (σ : State) : exec (.cpy a) σ = execCpy a σ := rfl
theorem exec_cpyx (a : RegNo) (b : RegNo) (σ : State) : exec (.cpyx a b) σ = execCpyx a b σ := rfl
theorem exec_coll (a : RegNo) (σ : State) : exec (.coll a) σ = execColl a σ := rfl
theorem exec_qpush (g : RegNo) (q : BitVec 4) (σ : State) : exec (.qpush g q) σ = execQpush g q σ := rfl
theorem exec_qpushv (g : RegNo) (q : BitVec 4) (σ : State) : exec (.qpushv g q) σ = execQpushv g q σ := rfl
theorem exec_qpop (g : RegNo) (q : BitVec 4) (la : BitVec 4) (σ : State) : exec (.qpop g q la) σ = execQpop g q la σ := rfl
theorem exec_qpopv (g : RegNo) (q : BitVec 4) (la : BitVec 4) (σ : State) : exec (.qpopv g q la) σ = execQpopv g q la σ := rfl
theorem exec_qbind (g : RegNo) (q : BitVec 4) (σ : State) : exec (.qbind g q) σ = execQbind g q σ := rfl
theorem exec_qstat (g : RegNo) (q : BitVec 4) (σ : State) : exec (.qstat g q) σ = execQstat g q σ := rfl
theorem exec_wlpsh (d : RegNo) (a : RegNo) (b : RegNo) (σ : State) : exec (.wlpsh d a b) σ = execWlpsh d a b σ := rfl
theorem exec_wlpop (d : RegNo) (a : RegNo) (la : BitVec 4) (σ : State) : exec (.wlpop d a la) σ = execWlpop d a la σ := rfl
theorem exec_wlack (a : RegNo) (σ : State) : exec (.wlack a) σ = execWlack a σ := rfl
theorem exec_wlret (a : RegNo) (σ : State) : exec (.wlret a) σ = execWlret a σ := rfl
theorem exec_wlsta (d : RegNo) (a : RegNo) (b : RegNo) (σ : State) : exec (.wlsta d a b) σ = execWlsta d a b σ := rfl
theorem exec_wlcfg (d : RegNo) (a : RegNo) (σ : State) : exec (.wlcfg d a) σ = execWlcfg d a σ := rfl
theorem exec_endTask (s : State) : exec .endTask s = execEndTask s := rfl
theorem exec_yield (s : State) : exec .yield s = execYield s := rfl
theorem exec_align (s : State) : exec .align s = execAlign s := rfl
theorem exec_trig (s : State) : exec .trig s = execTrig s := rfl
theorem exec_migr (a : RegNo) (σ : State) : exec (.migr a) σ = execMigr a σ := rfl
theorem exec_widx (d : RegNo) (k : RegNo) (σ : State) : exec (.widx d k) σ = execWidx d k σ := rfl
theorem exec_ueret (s : State) : exec .ueret s = execUeret s := rfl
theorem exec_csrr (d : RegNo) (csr : BitVec 12) (σ : State) : exec (.csrr d csr) σ = execCsrr d csr σ := rfl
theorem exec_csrw (d : RegNo) (a : RegNo) (csr : BitVec 12) (σ : State) : exec (.csrw d a csr) σ = execCsrw d a csr σ := rfl
theorem exec_csrs (d : RegNo) (a : RegNo) (csr : BitVec 12) (σ : State) : exec (.csrs d a csr) σ = execCsrs d a csr σ := rfl
theorem exec_csrc (d : RegNo) (a : RegNo) (csr : BitVec 12) (σ : State) : exec (.csrc d a csr) σ = execCsrc d a csr σ := rfl
theorem exec_eret (s : State) : exec .eret s = execEret s := rfl
theorem exec_spill (a : RegNo) (σ : State) : exec (.spill a) σ = execSpill a σ := rfl
theorem exec_fill (a : RegNo) (σ : State) : exec (.fill a) σ = execFill a σ := rfl
theorem exec_wake (a : RegNo) (σ : State) : exec (.wake a) σ = execWake a σ := rfl
theorem exec_tlbiRange (a : RegNo) (b : RegNo) (σ : State) : exec (.tlbiRange a b) σ = execTlbiRange a b σ := rfl
theorem exec_tlbiAsid (a : RegNo) (σ : State) : exec (.tlbiAsid a) σ = execTlbiAsid a σ := rfl
theorem exec_tlbiAll (s : State) : exec .tlbiAll s = execTlbiAll s := rfl
theorem exec_iflush (s : State) : exec .iflush s = execIflush s := rfl
theorem exec_halt (s : State) : exec .halt s = execHalt s := rfl
theorem exec_mspill (d : PredNo) (a : RegNo) (σ : State) : exec (.mspill d a) σ = execMspill d a σ := rfl
theorem exec_mfill (d : PredNo) (a : RegNo) (σ : State) : exec (.mfill d a) σ = execMfill d a σ := rfl
theorem exec_trap (c : BitVec 15) (σ : State) : exec (.trap c) σ = execTrap c σ := rfl
theorem exec_brk (c : BitVec 15) (σ : State) : exec (.brk c) σ = execBrk c σ := rfl
theorem exec_dispatch (slot : Nat) (σ : State) : exec (.dispatch slot) σ = execDispatch slot σ := rfl
theorem exec_prefetch (tile : Nat) (wl : Nat) (σ : State) : exec (.prefetch tile wl) σ = execPrefetch tile wl σ := rfl
theorem exec_eviction (slot : Nat) (σ : State) : exec (.eviction slot) σ = execEviction slot σ := rfl
theorem exec_saveComplete (slot : Nat) (σ : State) : exec (.saveComplete slot) σ = execSaveComplete slot σ := rfl
theorem exec_refill (slot : Nat) (σ : State) : exec (.refill slot) σ = execRefill slot σ := rfl
theorem exec_migrationArrival (tid : W64) (tile : Nat) (σ : State) : exec (.migrationArrival tid tile) σ = execMigrationArrival tid tile σ := rfl
theorem exec_userEventDelivery (slot : Nat) (σ : State) : exec (.userEventDelivery slot) σ = execUserEventDelivery slot σ := rfl
theorem exec_icacheFill (tile : Nat) (asid : BitVec 14) (line : Nat) (σ : State) : exec (.icacheFill tile asid line) σ = execIcacheFill tile asid line σ := rfl
theorem exec_alignTimeout (core : Nat) (stamp : Nat) (σ : State) : exec (.alignTimeout core stamp) σ = execAlignTimeout core stamp σ := rfl
theorem exec_homeAccess (req : Nat) (σ : State) : exec (.homeAccess req) σ = execHomeAccess req σ := rfl
theorem exec_accessReply (req : Nat) (remote : Option PodAnswer) (σ : State) : exec (.accessReply req remote) σ = execAccessReply req remote σ := rfl
theorem exec_updateApply (req : Nat) (σ : State) : exec (.updateApply req) σ = execUpdateApply req σ := rfl
theorem exec_walkComplete (home : Nat) (asid : BitVec 14) (vpn : Nat) (σ : State) : exec (.walkComplete home asid vpn) σ = execWalkComplete home asid vpn σ := rfl
theorem exec_pageWake (home : Nat) (asid : BitVec 14) (vpn : Nat) (maps : Bool) (σ : State) : exec (.pageWake home asid vpn maps) σ = execPageWake home asid vpn maps σ := rfl
theorem exec_feRetryAttempt (req : Nat) (σ : State) : exec (.feRetryAttempt req) σ = execFeRetryAttempt req σ := rfl
theorem exec_buoyNotice (n : Notice) (σ : State) : exec (.buoyNotice n) σ = execBuoyNotice n σ := rfl
theorem exec_lossNotice (n : Notice) (σ : State) : exec (.lossNotice n) σ = execLossNotice n σ := rfl
theorem exec_releaseMessage (m : ReleaseMsg) (σ : State) : exec (.releaseMessage m) σ = execReleaseMessage m σ := rfl
theorem exec_commitHold (slot : Nat) (home : Nat) (line : Nat) (σ : State) : exec (.commitHold slot home line) σ = execCommitHold slot home line σ := rfl
theorem exec_commitApply (slot : Nat) (home : Nat) (line : Nat) (σ : State) : exec (.commitApply slot home line) σ = execCommitApply slot home line σ := rfl
theorem exec_chunkTurn (launch : W32) (σ : State) : exec (.chunkTurn launch) σ = execChunkTurn launch σ := rfl
theorem exec_fpush (lamp : Nat) (m : PushMsg) (σ : State) : exec (.fpush lamp m) σ = execFpush lamp m σ := rfl
theorem exec_rpush (m : PushMsg) (σ : State) : exec (.rpush m) σ = execRpush m σ := rfl
theorem exec_fwd (lamp : Nat) (m : PushMsg) (σ : State) : exec (.fwd lamp m) σ = execFwd lamp m σ := rfl
theorem exec_head (wl : Nat) (tile : Nat) (pos : Option Nat) (σ : State) : exec (.head wl tile pos) σ = execHead wl tile pos σ := rfl
theorem exec_low (wl : Nat) (lamp : Nat) (σ : State) : exec (.low wl lamp) σ = execLow wl lamp σ := rfl
theorem exec_pull (wl : Nat) (tile : Nat) (kn : Option Nat) (m : Nat) (v : Nat) (σ : State) : exec (.pull wl tile kn m v) σ = execPull wl tile kn m v σ := rfl
theorem exec_ritem (wl : Nat) (lamp : Nat) (q : Pulled) (σ : State) : exec (.ritem wl lamp q) σ = execRitem wl lamp q σ := rfl
theorem exec_pack (wl : Nat) (tile : Nat) (cap : PullAnswer) (σ : State) : exec (.pack wl tile cap) σ = execPack wl tile cap σ := rfl
theorem exec_demote (wl : Nat) (lamp : Nat) (k : Demotion) (σ : State) : exec (.demote wl lamp k) σ = execDemote wl lamp k σ := rfl
theorem exec_cut (wl : Nat) (toLamp : Bool) (dest : Nat) (k : Option Nat) (v : CutVersion) (σ : State) : exec (.cut wl toLamp dest k v) σ = execCut wl toLamp dest k v σ := rfl
theorem exec_pop (lamp : Nat) (m : PopMsg) (σ : State) : exec (.pop lamp m) σ = execPop lamp m σ := rfl
theorem exec_popReply (m : PopMsg) (ans : PopAnswer) (σ : State) : exec (.popReply m ans) σ = execPopReply m ans σ := rfl
theorem exec_pushAnswer (m : PushMsg) (status : Nat) (σ : State) : exec (.pushAnswer m status) σ = execPushAnswer m status σ := rfl
theorem exec_launchStart (launch : W32) (σ : State) : exec (.launchStart launch) σ = execLaunchStart launch σ := rfl
theorem exec_coschedAdmission (launch : W32) (σ : State) : exec (.coschedAdmission launch) σ = execCoschedAdmission launch σ := rfl
theorem exec_launchRecordWrite (asid : BitVec 14) (σ : State) : exec (.launchRecordWrite asid) σ = execLaunchRecordWrite asid σ := rfl
theorem exec_wlwdogExpiry (wl : Nat) (σ : State) : exec (.wlwdogExpiry wl) σ = execWlwdogExpiry wl σ := rfl
theorem exec_packageBarrierArrival (slot : Nat) (ctx : W32) (key : BarKey) (σ : State) : exec (.packageBarrierArrival slot ctx key) σ = execPackageBarrierArrival slot ctx key σ := rfl
theorem exec_barrierArrivalReply (slot : Nat) (ctx : W32) (id : Nat) (phase : Option Bool) (σ : State) : exec (.barrierArrivalReply slot ctx id phase) σ = execBarrierArrivalReply slot ctx id phase σ := rfl
theorem exec_barrierCompletion (tile : Nat) (name : BarName) (phase : Bool) (σ : State) : exec (.barrierCompletion tile name phase) σ = execBarrierCompletion tile name phase σ := rfl
theorem exec_channelWord (tid : W64) (q : Nat) (sender : W64) (word : W64) (σ : State) : exec (.channelWord tid q sender word) σ = execChannelWord tid q sender word σ := rfl
theorem exec_creditReturn (tid : W64) (q : Nat) (receiver : W64) (n : Nat) (σ : State) : exec (.creditReturn tid q receiver n) σ = execCreditReturn tid q receiver n σ := rfl
theorem exec_dryTimeout (tid : W64) (q : Nat) (stamp : Nat) (σ : State) : exec (.dryTimeout tid q stamp) σ = execDryTimeout tid q stamp σ := rfl
theorem exec_matrixCommandStart (tile : Nat) (σ : State) : exec (.matrixCommandStart tile) σ = execMatrixCommandStart tile σ := rfl
theorem exec_matrixCommandComplete (tile : Nat) (core : Nat) (σ : State) : exec (.matrixCommandComplete tile core) σ = execMatrixCommandComplete tile core σ := rfl
theorem exec_copyCommandStart (tile : Nat) (core : Nat) (σ : State) : exec (.copyCommandStart tile core) σ = execCopyCommandStart tile core σ := rfl
theorem exec_copyCommandComplete (tile : Nat) (core : Nat) (σ : State) : exec (.copyCommandComplete tile core) σ = execCopyCommandComplete tile core σ := rfl
theorem exec_collectiveJoin (tile : Nat) (core : Nat) (σ : State) : exec (.collectiveJoin tile core) σ = execCollectiveJoin tile core σ := rfl
theorem exec_collectiveComplete (key : CollKey) (σ : State) : exec (.collectiveComplete key) σ = execCollectiveComplete key σ := rfl
theorem exec_colltmoExpiry (key : CollKey) (σ : State) : exec (.colltmoExpiry key) σ = execColltmoExpiry key σ := rfl
theorem exec_tlbiAtHome (home : Nat) (id : Nat) (σ : State) : exec (.tlbiAtHome home id) σ = execTlbiAtHome home id σ := rfl
theorem exec_tlbiAck (id : Nat) (σ : State) : exec (.tlbiAck id) σ = execTlbiAck id σ := rfl
theorem exec_sweeperStep (home : Nat) (σ : State) : exec (.sweeperStep home) σ = execSweeperStep home σ := rfl
theorem exec_zeroingStep (home : Nat) (σ : State) : exec (.zeroingStep home) σ = execZeroingStep home σ := rfl
theorem exec_freepush (home : Nat) (frame : Nat) (σ : State) : exec (.freepush home frame) σ = execFreepush home frame σ := rfl
theorem exec_coldpop (home : Nat) (σ : State) : exec (.coldpop home) σ = execColdpop home σ := rfl
theorem exec_controlRegisterWrite (offset : Nat) (value : W64) (σ : State) : exec (.controlRegisterWrite offset value) σ = execControlRegisterWrite offset value σ := rfl
theorem exec_throttleStep (watts : Nat) (celsius : Nat) (σ : State) : exec (.throttleStep watts celsius) σ = execThrottleStep watts celsius σ := rfl
theorem exec_thermalTrip (s : State) : exec .thermalTrip s = execThermalTrip s := rfl
theorem exec_errorEvent (src : ErrSrc) (poisons : Bool) (σ : State) : exec (.errorEvent src poisons) σ = execErrorEvent src poisons σ := rfl
theorem exec_scrubComplete (asid : BitVec 14) (σ : State) : exec (.scrubComplete asid) σ = execScrubComplete asid σ := rfl
theorem exec_podRequest (port : Nat) (r : PodReq) (σ : State) : exec (.podRequest port r) σ = execPodRequest port r σ := rfl
theorem exec_busyResend (req : Nat) (σ : State) : exec (.busyResend req) σ = execBusyResend req σ := rfl
theorem exec_podRequestTimeout (req : Nat) (σ : State) : exec (.podRequestTimeout req) σ = execPodRequestTimeout req σ := rfl
theorem exec_rmaWrite (port : Nat) (pa : Nat) (bytes : List Byte) (σ : State) : exec (.rmaWrite port pa bytes) σ = execRmaWrite port pa bytes σ := rfl
theorem exec_kick (port : Nat) (src : W64) (msg : BitVec 128) (σ : State) : exec (.kick port src msg) σ = execKick port src msg σ := rfl
theorem exec_kickReread (ring : Nat) (σ : State) : exec (.kickReread ring) σ = execKickReread ring σ := rfl
theorem exec_ringOpen (c : Cmd) (σ : State) : exec (.ringOpen c) σ = execRingOpen c σ := rfl
theorem exec_ringClose (c : Cmd) (σ : State) : exec (.ringClose c) σ = execRingClose c σ := rfl
theorem exec_ctxCreate (c : Cmd) (σ : State) : exec (.ctxCreate c) σ = execCtxCreate c σ := rfl
theorem exec_ctxDestroy (c : Cmd) (σ : State) : exec (.ctxDestroy c) σ = execCtxDestroy c σ := rfl
theorem exec_keySet (c : Cmd) (σ : State) : exec (.keySet c) σ = execKeySet c σ := rfl
theorem exec_map (c : Cmd) (σ : State) : exec (.map c) σ = execMap c σ := rfl
theorem exec_unmap (c : Cmd) (σ : State) : exec (.unmap c) σ = execUnmap c σ := rfl
theorem exec_launch (c : Cmd) (σ : State) : exec (.launch c) σ = execLaunch c σ := rfl
theorem exec_abort (c : Cmd) (σ : State) : exec (.abort c) σ = execAbort c σ := rfl
theorem exec_copyIn (c : Cmd) (σ : State) : exec (.copyIn c) σ = execCopyIn c σ := rfl
theorem exec_copyOut (c : Cmd) (σ : State) : exec (.copyOut c) σ = execCopyOut c σ := rfl
theorem exec_query (c : Cmd) (σ : State) : exec (.query c) σ = execQuery c σ := rfl
theorem exec_reset (c : Cmd) (σ : State) : exec (.reset c) σ = execReset c σ := rfl
theorem exec_attest (c : Cmd) (σ : State) : exec (.attest c) σ = execAttest c σ := rfl
theorem exec_debugHalt (c : Cmd) (σ : State) : exec (.debugHalt c) σ = execDebugHalt c σ := rfl
theorem exec_debugResume (c : Cmd) (σ : State) : exec (.debugResume c) σ = execDebugResume c σ := rfl
theorem exec_debugStop (c : Cmd) (σ : State) : exec (.debugStop c) σ = execDebugStop c σ := rfl
theorem exec_debugGroup (c : Cmd) (σ : State) : exec (.debugGroup c) σ = execDebugGroup c σ := rfl
theorem exec_debugRun (c : Cmd) (σ : State) : exec (.debugRun c) σ = execDebugRun c σ := rfl
theorem exec_debugStep (c : Cmd) (σ : State) : exec (.debugStep c) σ = execDebugStep c σ := rfl
theorem exec_bpset (c : Cmd) (σ : State) : exec (.bpset c) σ = execBpset c σ := rfl
theorem exec_bpclr (c : Cmd) (σ : State) : exec (.bpclr c) σ = execBpclr c σ := rfl
theorem exec_debugRead (c : Cmd) (σ : State) : exec (.debugRead c) σ = execDebugRead c σ := rfl
theorem exec_debugWrite (c : Cmd) (σ : State) : exec (.debugWrite c) σ = execDebugWrite c σ := rfl
theorem exec_sample (c : Cmd) (σ : State) : exec (.sample c) σ = execSample c σ := rfl
theorem exec_samplePeriod (id : Nat) (σ : State) : exec (.samplePeriod id) σ = execSamplePeriod id σ := rfl
theorem exec_ctxSstate (c : Cmd) (σ : State) : exec (.ctxSstate c) σ = execCtxSstate c σ := rfl
theorem exec_lrecFree (c : Cmd) (σ : State) : exec (.lrecFree c) σ = execLrecFree c σ := rfl
theorem exec_commandProcessorFailover (s : State) : exec .commandProcessorFailover s = execCommandProcessorFailover s := rfl
theorem exec_powerOn (img : Image) (σ : State) : exec (.powerOn img) σ = execPowerOn img σ := rfl
theorem exec_functionReady (bit : Nat) (σ : State) : exec (.functionReady bit) σ = execFunctionReady bit σ := rfl
theorem exec_bootReport (s : State) : exec .bootReport s = execBootReport s := rfl
theorem exec_bootTimeout (s : State) : exec .bootTimeout s = execBootTimeout s := rfl
theorem exec_cycle (s : State) : exec .cycle s = execCycle s := rfl
theorem exec_illegalWord (w : W32) (σ : State) : exec (.illegalWord w) σ = execIllegalWord w σ := rfl
theorem exec_fetchOutsideCodeRegion (s : State) : exec .fetchOutsideCodeRegion s = execFetchOutsideCodeRegion s := rfl
theorem exec_powerOff (s : State) : exec .powerOff s = execPowerOff s := rfl
theorem exec_functionFailed (bit : Nat) (reason : Nat) (σ : State) : exec (.functionFailed bit reason) σ = execFunctionFailed bit reason σ := rfl
theorem exec_hostAcknowledgement (id : Nat) (σ : State) : exec (.hostAcknowledgement id) σ = execHostAcknowledgement id σ := rfl
theorem exec_packageLeavesPod (pkg : Nat) (σ : State) : exec (.packageLeavesPod pkg) σ = execPackageLeavesPod pkg σ := rfl
theorem exec_controlReply (slot : Nat) (ctx : W32) (value : W64) (σ : State) : exec (.controlReply slot ctx value) σ = execControlReply slot ctx value σ := rfl

end Sys2Proof.Machine
end

