-- ==== Sys2Proof/Laws/Long.lean ====
section
/-! SUPPORT. Long-latency results and transfers of control: what they leave (R67, R68, R71, R287). -/

namespace Sys2Proof.Machine

theorem OnlySlotNamed.of_onlySlot {s t : State} (h : OnlySlot s t) : OnlySlotNamed s t :=
  ⟨by have := h.rest; rw [this], h.counters⟩

theorem OnlySlotNamed.trans {a b c : State} (h : OnlySlotNamed a b) (k : OnlySlotNamed b c) : OnlySlotNamed a c := by
  refine ⟨?_, fun n => ?_⟩
  · have := k.rest
    rw [h.rest] at this
    exact this
  · have := k.counters n
    rw [h.counters n] at this
    exact this

/-- The operation that `openOp` lists. -/
def State.opOf (s : State) (i : Instr) (kind : OpKind) (due : Option Nat) (left : Nat) (wb : WriteBack) : LongOp where
  id := s.net.nextId
  pc := s.cur.pc
  la := (infoOf i).la
  dests := (infoOf i).dests
  kind := kind
  due := due
  left := left
  got := []
  fail := none
  wb := wb
  word := encode i

theorem State.openOp_eq (s : State) (i : Instr) (kind : OpKind) (due : Option Nat) (left : Nat) (wb : WriteBack) :
    s.openOp i kind due left wb = (s.net.nextId,
      { s with cur := { s.cur with ops := s.cur.ops ++ [s.opOf i kind due left wb] }, net := { s.net with nextId := s.net.nextId + 1 } }) := rfl

/-- An instruction whose act is a plain change of its slot and a new long-latency operation goes on in sequence. -/
theorem issue_long {i : Instr} {s : State} {body : State → Act} (f : Slot → Slot) (hf : Plain f) (kind : OpKind) (due : Option Nat) (left : Nat)
    (wb : WriteBack) (h : CanIssue i s) (hbusy : ∀ x, (f x).busy = x.busy)
    (hb : body s.charge = .long ((s.charge.updCur f).openOp i kind due left wb).2) :
    ∃ t, issue i s body = .next t ∧ OnlySlotNamed s t ∧ Opened s.cur t.cur ((s.charge.updCur f).opOf i kind due left wb) ∧
      t.cur.regs = (f s.charge.cur).regs ∧ t.cur.u.fflags = (f s.charge.cur).u.fflags := by
  refine ⟨_, issue_go body h, ?_⟩
  rw [hb]
  have hhold := h.hold
  simp only [State.conclude]
  have hx : f s.charge.cur = { s.charge.cur with
      regs := (f s.charge.cur).regs, u := { s.charge.cur.u with fflags := (f s.charge.cur).u.fflags }, forfeit := (f s.charge.cur).forfeit } := by
    have := hf s.charge.cur
    rw [hbusy s.charge.cur] at this
    exact this
  rw [State.openOp_eq]
  dsimp only
  have ho : OnlySlotNamed s (s.charge.updCur f) := .of_onlySlot ((OnlySlot.charge s).trans (OnlySlot.updCur _ _))
  rw [State.advance_eq (by simp only [State.updCur_cur]; rw [hx]; simpa using h.2)]
  have hc : ∀ (y : Slot) n, y.step.countChunk n = _ := fun y n => Slot.countChunk_rest _ _
  have hs := Slot.pc_step_congr s.cur ({ (f s.charge.cur) with ops := (f s.charge.cur).ops ++ [(s.charge.updCur f).opOf i kind due left wb] } : Slot)
    (by dsimp only; rw [hx]; simp) (by dsimp only; rw [hx]; simp) (by dsimp only; rw [hx]; simp)
  refine ⟨ho.trans ⟨rfl, fun _ => rfl⟩, ⟨?_, ?_, ?_, ?_⟩, ?_, ?_⟩
  · simp only [State.updCur_cur]
    rw [hc, Slot.step_rest]
    rw [hx]
    simp only [State.charge_cur]
    rw [hhold]
  · simp only [State.updCur_cur]
    rw [hc]
    exact hs.1
  · simp only [State.updCur_cur]
    rw [hc]
    exact hs.2
  · show (f s.charge.cur).pc = _
    rw [hx]
    simp
  · simp only [State.updCur_cur]
    rw [hc, Slot.step_rest]
  · simp only [State.updCur_cur]
    rw [hc, Slot.step_rest]

/-- The results that wait for no access: the change of the slot, and the operation listed. -/
theorem long_sets {i : Instr} {s : State} (lat : Slot → Nat) (sub : Slot → Bool) (f : Slot → Slot)
    (hf : ∀ x, f x = { x with regs := (f x).regs, u := { x.u with fflags := (f x).u.fflags } }) (h : CanIssue i s) :
    ∃ t o, issue i s (fun s => longResult i s (lat s.cur) (sub s.cur) f) = .next t ∧ OnlySlotNamed s t ∧ Opened s.cur t.cur o ∧
      t.cur.regs = (f s.charge.cur).regs ∧ t.cur.u.fflags = (f s.charge.cur).u.fflags ∧ o.la = (infoOf i).la ∧ o.dests = (infoOf i).dests ∧
      o.due = some (s.now + (lat s.charge.cur + if sub s.charge.cur then 6 else 0)) ∧ o.left = 0 := by
  have hp : Plain fun x => if sub s.charge.cur = true then { f x with forfeit := 4 } else f x := by
    intro x
    dsimp only
    split <;> (rw [hf x])
  have hb : ∀ x : Slot, (if sub s.charge.cur = true then { f x with forfeit := 4 } else f x).busy = x.busy := by
    intro x
    split <;> (rw [hf x])
  obtain ⟨t, h1, h2, h3, h4, h5⟩ := issue_long (i := i) (s := s) (body := fun s => longResult i s (lat s.cur) (sub s.cur) f) _ hp .result
    (some (s.charge.now + lat s.charge.cur + if sub s.charge.cur = true then 6 else 0)) 0 .none h hb rfl
  refine ⟨t, _, h1, h2, h3, ?_, ?_, rfl, rfl, ?_, rfl⟩
  · rw [h4]
    split <;> rfl
  · rw [h5]
    split <;> rfl
  · simp [State.opOf, State.now, Nat.add_assoc]

theorem Slot.writeG_fl (d : RegNo) (v : W64) (x : Slot) :
    x.writeG d v = { x with regs := (x.writeG d v).regs, u := { x.u with fflags := (x.writeG d v).u.fflags } } := by
  rw [Slot.writeG_rest]

theorem Slot.writeGraise_fl (d : RegNo) (v : W64) (fl : Flags) (x : Slot) : (x.writeG d v).raise fl =
    { x with regs := ((x.writeG d v).raise fl).regs, u := { x.u with fflags := ((x.writeG d v).raise fl).u.fflags } } := by
  dsimp only [Slot.raise]
  rw [Slot.writeG_rest]

/-- A taken transfer. -/
theorem jump_goes {i : Instr} {s : State} {body : State → Act} (f : Slot → Slot) (hf : ∀ x, f x = { x with regs := (f x).regs }) (target : Addr)
    (h : CanIssue i s) (hb : body s.charge = .jump (s.charge.updCur f) target) :
    ∃ t, issue i s body = .next t ∧ OnlySlot s t ∧ Jumped s.cur t.cur s.now target.toNat ∧ t.cur.regs = (f s.charge.cur).regs := by
  refine ⟨_, issue_go body h, ?_⟩
  rw [hb]
  have hhold := h.hold
  simp only [State.conclude, State.jump]
  have hx := hf s.charge.cur
  refine ⟨(OnlySlot.charge s).trans ((OnlySlot.updCur _ f).trans ((OnlySlot.retire _).trans (OnlySlot.updCur _ _))), ⟨?_, ?_, ?_⟩, ?_⟩
  · simp only [State.updCur_cur]
    rw [Slot.countChunk_rest]
    simp only [State.retire_cur, State.updCur_cur]
    rw [hx]
    simp only [State.charge_cur]
    rw [hhold]
  · simp only [State.updCur_cur]
    rw [Slot.countChunk_rest]
    simp
  · simp only [State.updCur_cur]
    rw [Slot.countChunk_rest]
    simp [State.now]
  · simp only [State.updCur_cur]
    rw [Slot.countChunk_rest]
    simp only [State.retire_cur, State.updCur_cur]

/-- An instruction that changes nothing and retires in sequence. -/
theorem next_goesOn {i : Instr} {s : State} {body : State → Act} (h : CanIssue i s) (hb : body s.charge = .next s.charge) :
    ∃ t, issue i s body = .next t ∧ Retires s t ∧ t.cur.regs = s.cur.regs ∧ t.cur.u.fflags = s.cur.u.fflags := by
  obtain ⟨t, h1, h2, h3, h4⟩ := issue_plain (fun x => x) (fun _ => rfl) h hb
  exact ⟨t, h1, h2, by simpa using h3, by simpa using h4⟩

/-- An instruction whose act is a trap. -/
theorem trap_traps {i : Instr} {s : State} {body : State → Act} {c k : Nat} {x : W64} (h : CanIssue i s) (hb : body s.charge = .trap c k x) :
    issue i s body = .next (s.charge.issueTrap (encode i) c k x) := by
  rw [issue_go body h, hb]
  rfl

end Sys2Proof.Machine
end

