-- ==== Sys2Proof/Laws/Memory.lean ====
section
/-! SUPPORT. Memory: reading after writing, and the canonical form that every memory operation keeps. -/

namespace Sys2Proof.Machine

/-! ### The canonical form -/

theorem Memory.wfFrom_mono {lo lo' : Nat} (h : lo' ≤ lo) {m : Memory} (hm : m.wfFrom lo) : m.wfFrom lo' := by
  cases m with
  | nil => rfl
  | cons c m =>
    obtain ⟨a, b⟩ := c
    simp only [Memory.wfFrom, Bool.and_eq_true, decide_eq_true_eq] at hm ⊢
    exact ⟨⟨le_trans h hm.1.1, hm.1.2⟩, hm.2⟩

theorem Memory.wfFrom_write {lo : Nat} {m : Memory} (k : Nat) (b : Byte) (hk : lo ≤ k) (hm : m.wfFrom lo) :
    (m.write k b).wfFrom lo := by
  induction m generalizing lo with
  | nil =>
    simp only [Memory.write]
    split
    · rfl
    · simp_all [Memory.wfFrom]
  | cons c m ih =>
    obtain ⟨a, c⟩ := c
    simp only [Memory.wfFrom, Bool.and_eq_true, decide_eq_true_eq] at hm
    simp only [Memory.write]
    split
    · split
      · simpa [Memory.wfFrom] using hm
      · simp only [Memory.wfFrom, Bool.and_eq_true, decide_eq_true_eq]
        exact ⟨⟨hk, ‹_›⟩, ⟨by omega, hm.1.2⟩, hm.2⟩
    · split
      · split
        · exact Memory.wfFrom_mono (by omega) hm.2
        · simp only [Memory.wfFrom, Bool.and_eq_true, decide_eq_true_eq]
          subst_vars
          exact ⟨⟨hk, ‹_›⟩, hm.2⟩
      · simp only [Memory.wfFrom, Bool.and_eq_true, decide_eq_true_eq]
        exact ⟨hm.1, ih (by omega) hm.2⟩

/-- A write keeps the canonical form. -/
@[simp] theorem Memory.wf_write {m : Memory} (k : Nat) (b : Byte) (hm : m.wf = true) : (m.write k b).wf = true :=
  Memory.wfFrom_write k b (Nat.zero_le k) hm

/-- A write of several bytes keeps it. -/
@[simp] theorem Memory.wf_writeN {m : Memory} (k : Nat) (l : List Byte) (hm : m.wf = true) : (m.writeN k l).wf = true := by
  induction l generalizing m k with
  | nil => exact hm
  | cons b l ih => exact ih (k + 1) (Memory.wf_write k b hm)

/-- A masked write keeps it. -/
@[simp] theorem Memory.wf_writeMasked {m : Memory} (k mask : Nat) (l : List Byte) (hm : m.wf = true) :
    (m.writeMasked k mask l).wf = true := by
  induction l generalizing m k mask with
  | nil => exact hm
  | cons b l ih =>
    simp only [Memory.writeMasked]
    split
    · exact ih _ _ (Memory.wf_write k b hm)
    · exact ih _ _ hm

theorem Memory.wfFrom_filter {lo : Nat} {m : Memory} (p : Host.Cell → Bool) (hm : m.wfFrom lo) : Memory.wfFrom lo (m.filter p) := by
  induction m generalizing lo with
  | nil => rfl
  | cons c m ih =>
    obtain ⟨a, b⟩ := c
    simp only [Memory.wfFrom, Bool.and_eq_true, decide_eq_true_eq] at hm
    simp only [List.filter_cons]
    split
    · simp only [Memory.wfFrom, Bool.and_eq_true, decide_eq_true_eq]
      exact ⟨hm.1, ih hm.2⟩
    · exact Memory.wfFrom_mono (by omega) (ih hm.2)

/-- Dropping the cells of a range keeps it. -/
@[simp] theorem Memory.wf_outside {m : Memory} (lo hi : Nat) (hm : m.wf = true) : (m.outside lo hi).wf = true :=
  Memory.wfFrom_filter _ hm

/-- A write of a line keeps it. -/
@[simp] theorem State.wf_writeLine {s : State} (h l : Nat) (k : Option (BitVec 512)) (mask : Nat) (d : List Byte) (hs : s.mem.wf = true) :
    (s.writeLine h l k mask d).mem.wf = true := by
  unfold State.writeLine
  dsimp only
  split
  · exact Memory.wf_writeMasked _ _ _ hs
  · exact Memory.wf_writeMasked _ _ _ (Memory.wf_writeN _ _ hs)

/-! ### Reading after writing -/

theorem Memory.read_below {lo : Nat} {m : Memory} (hm : m.wfFrom lo) {k : Nat} (h : k < lo) : m.read k = unlistedByte := by
  cases m with
  | nil => rfl
  | cons c m =>
    obtain ⟨a, b⟩ := c
    simp only [Memory.wfFrom, Bool.and_eq_true, decide_eq_true_eq] at hm
    simp only [Memory.read]
    rw [if_pos (by omega)]

theorem Memory.read_write_from {lo : Nat} {m : Memory} (hm : m.wfFrom lo) (k j : Nat) (b : Byte) :
    (m.write k b).read j = if j = k then b else m.read j := by
  induction m generalizing lo with
  | nil =>
    simp only [Memory.write]
    split
    · subst_vars; simp [Memory.read]
    · simp only [Memory.read]
      split <;> split <;> (try split) <;> first | rfl | omega
  | cons c m ih =>
    obtain ⟨a, c⟩ := c
    simp only [Memory.wfFrom, Bool.and_eq_true, decide_eq_true_eq] at hm
    simp only [Memory.write]
    split
    · split
      · by_cases hj : j = k
        · subst_vars; simp [Memory.read, ‹_ < a›]
        · rw [if_neg hj]
      · simp only [Memory.read]
        repeat' split
        all_goals first | rfl | omega
    · split
      · rename_i hak
        split
        · rename_i hb
          rw [hb]
          by_cases hj : j = k
          · rw [if_pos hj]; exact Memory.read_below hm.2 (by omega)
          · simp only [Memory.read, if_neg hj]
            split
            · exact Memory.read_below hm.2 (by omega)
            · rw [if_neg (by omega)]
        · simp only [Memory.read]
          repeat' split
          all_goals first | rfl | omega
      · simp only [Memory.read, ih hm.2]
        repeat' split
        all_goals first | rfl | omega

/-- A byte reads what was written to it last; every other byte is as before. -/
theorem Memory.read_write {m : Memory} (hm : m.wf = true) (k j : Nat) (b : Byte) :
    (m.write k b).read j = if j = k then b else m.read j := Memory.read_write_from hm k j b

/-- A masked write leaves every byte outside its range as it was. -/
theorem Memory.read_writeMasked_other {m : Memory} (hm : m.wf = true) (k mask j : Nat) (l : List Byte) (hj : j < k ∨ k + l.length ≤ j) :
    (m.writeMasked k mask l).read j = m.read j := by
  induction l generalizing m k mask with
  | nil => rfl
  | cons b l ih =>
    simp only [List.length_cons] at hj
    simp only [Memory.writeMasked]
    split
    · rw [ih (Memory.wf_write k b hm) (k + 1) _ (by omega), Memory.read_write hm, if_neg (by omega)]
    · exact ih hm (k + 1) _ (by omega)

/-- A masked write writes the bytes whose bit of the mask is set, and no other. -/
theorem Memory.read_writeMasked {m : Memory} (hm : m.wf = true) (k mask : Nat) (l : List Byte) (i : Nat) (hi : i < l.length) :
    (m.writeMasked k mask l).read (k + i) = if mask.testBit i then l[i] else m.read (k + i) := by
  induction l generalizing m k mask i with
  | nil => simp at hi
  | cons b l ih =>
    simp only [Memory.writeMasked]
    have hm' : (if mask % 2 = 1 then m.write k b else m).wf = true := by
      split
      · exact Memory.wf_write k b hm
      · exact hm
    cases i with
    | zero =>
      rw [Memory.read_writeMasked_other hm' _ _ _ _ (by omega)]
      simp only [Nat.add_zero, Nat.testBit_zero, List.getElem_cons_zero, decide_eq_true_eq]
      split
      · simp [Memory.read_write hm]
      · rfl
    | succ i =>
      have := ih hm' (k + 1) (mask / 2) i (by simpa using hi)
      rw [show k + (i + 1) = k + 1 + i by omega, this]
      simp only [List.getElem_cons_succ, Nat.testBit_succ]
      split
      · rfl
      · split
        · rw [Memory.read_write hm, if_neg (by omega)]
        · rfl

end Sys2Proof.Machine
end

