-- ==== Sys2Proof/Laws/PerInstr.lean ====
section
/-! SUPPORT. Per instruction: what the encoder writes, the decoder reads back. -/

namespace Sys2Proof.Laws.RoundTrip
open Sys2Proof

/-- Decoding the word of a well-formed instruction gives the instruction back; events have no words. -/
def Statement (i : Instr) : Prop := i.isEvent = false → i.wf = true → decode (encode i) = .ok i


theorem add (d : RegNo) (a : RegNo) (b : RegNo) : Statement (.add d a b) := by
  intro _ hw
  rw [show encode (.add d a b) = FmtR.pack 0x01 ⟨d, a, b, 0#4, 0#7⟩ from rfl, decode, FmtR.major_pack, FmtR.unpack_pack]
  rfl

theorem sub (d : RegNo) (a : RegNo) (b : RegNo) : Statement (.sub d a b) := by
  intro _ hw
  rw [show encode (.sub d a b) = FmtR.pack 0x01 ⟨d, a, b, 0#4, 1#7⟩ from rfl, decode, FmtR.major_pack, FmtR.unpack_pack]
  rfl

theorem mul (d : RegNo) (a : RegNo) (b : RegNo) : Statement (.mul d a b) := by
  intro _ hw
  rw [show encode (.mul d a b) = FmtR.pack 0x01 ⟨d, a, b, 0#4, 2#7⟩ from rfl, decode, FmtR.major_pack, FmtR.unpack_pack]
  rfl

theorem mulh (d : RegNo) (a : RegNo) (b : RegNo) : Statement (.mulh d a b) := by
  intro _ hw
  rw [show encode (.mulh d a b) = FmtR.pack 0x01 ⟨d, a, b, 0#4, 3#7⟩ from rfl, decode, FmtR.major_pack, FmtR.unpack_pack]
  rfl

theorem mulhn (d : RegNo) (a : RegNo) (b : RegNo) : Statement (.mulhn d a b) := by
  intro _ hw
  rw [show encode (.mulhn d a b) = FmtR.pack 0x01 ⟨d, a, b, 0#4, 4#7⟩ from rfl, decode, FmtR.major_pack, FmtR.unpack_pack]
  rfl

theorem div (d : RegNo) (a : RegNo) (b : RegNo) (la : BitVec 4) : Statement (.div d a b la) := by
  intro _ hw
  rw [show encode (.div d a b la) = FmtR.pack 0x01 ⟨d, a, b, la, 5#7⟩ from rfl, decode, FmtR.major_pack, FmtR.unpack_pack]
  rfl

theorem divn (d : RegNo) (a : RegNo) (b : RegNo) (la : BitVec 4) : Statement (.divn d a b la) := by
  intro _ hw
  rw [show encode (.divn d a b la) = FmtR.pack 0x01 ⟨d, a, b, la, 6#7⟩ from rfl, decode, FmtR.major_pack, FmtR.unpack_pack]
  rfl

theorem rem (d : RegNo) (a : RegNo) (b : RegNo) (la : BitVec 4) : Statement (.rem d a b la) := by
  intro _ hw
  rw [show encode (.rem d a b la) = FmtR.pack 0x01 ⟨d, a, b, la, 7#7⟩ from rfl, decode, FmtR.major_pack, FmtR.unpack_pack]
  rfl

theorem remn (d : RegNo) (a : RegNo) (b : RegNo) (la : BitVec 4) : Statement (.remn d a b la) := by
  intro _ hw
  rw [show encode (.remn d a b la) = FmtR.pack 0x01 ⟨d, a, b, la, 8#7⟩ from rfl, decode, FmtR.major_pack, FmtR.unpack_pack]
  rfl

theorem and (d : RegNo) (a : RegNo) (b : RegNo) : Statement (.and d a b) := by
  intro _ hw
  rw [show encode (.and d a b) = FmtR.pack 0x01 ⟨d, a, b, 0#4, 16#7⟩ from rfl, decode, FmtR.major_pack, FmtR.unpack_pack]
  rfl

theorem or (d : RegNo) (a : RegNo) (b : RegNo) : Statement (.or d a b) := by
  intro _ hw
  rw [show encode (.or d a b) = FmtR.pack 0x01 ⟨d, a, b, 0#4, 17#7⟩ from rfl, decode, FmtR.major_pack, FmtR.unpack_pack]
  rfl

theorem xor (d : RegNo) (a : RegNo) (b : RegNo) : Statement (.xor d a b) := by
  intro _ hw
  rw [show encode (.xor d a b) = FmtR.pack 0x01 ⟨d, a, b, 0#4, 18#7⟩ from rfl, decode, FmtR.major_pack, FmtR.unpack_pack]
  rfl

theorem andn (d : RegNo) (a : RegNo) (b : RegNo) : Statement (.andn d a b) := by
  intro _ hw
  rw [show encode (.andn d a b) = FmtR.pack 0x01 ⟨d, a, b, 0#4, 19#7⟩ from rfl, decode, FmtR.major_pack, FmtR.unpack_pack]
  rfl

theorem shl (d : RegNo) (a : RegNo) (b : RegNo) : Statement (.shl d a b) := by
  intro _ hw
  rw [show encode (.shl d a b) = FmtR.pack 0x01 ⟨d, a, b, 0#4, 24#7⟩ from rfl, decode, FmtR.major_pack, FmtR.unpack_pack]
  rfl

theorem shr (d : RegNo) (a : RegNo) (b : RegNo) : Statement (.shr d a b) := by
  intro _ hw
  rw [show encode (.shr d a b) = FmtR.pack 0x01 ⟨d, a, b, 0#4, 25#7⟩ from rfl, decode, FmtR.major_pack, FmtR.unpack_pack]
  rfl

theorem sra (d : RegNo) (a : RegNo) (b : RegNo) : Statement (.sra d a b) := by
  intro _ hw
  rw [show encode (.sra d a b) = FmtR.pack 0x01 ⟨d, a, b, 0#4, 26#7⟩ from rfl, decode, FmtR.major_pack, FmtR.unpack_pack]
  rfl

theorem min (d : RegNo) (a : RegNo) (b : RegNo) : Statement (.min d a b) := by
  intro _ hw
  rw [show encode (.min d a b) = FmtR.pack 0x01 ⟨d, a, b, 0#4, 32#7⟩ from rfl, decode, FmtR.major_pack, FmtR.unpack_pack]
  rfl

theorem max (d : RegNo) (a : RegNo) (b : RegNo) : Statement (.max d a b) := by
  intro _ hw
  rw [show encode (.max d a b) = FmtR.pack 0x01 ⟨d, a, b, 0#4, 33#7⟩ from rfl, decode, FmtR.major_pack, FmtR.unpack_pack]
  rfl

theorem minn (d : RegNo) (a : RegNo) (b : RegNo) : Statement (.minn d a b) := by
  intro _ hw
  rw [show encode (.minn d a b) = FmtR.pack 0x01 ⟨d, a, b, 0#4, 34#7⟩ from rfl, decode, FmtR.major_pack, FmtR.unpack_pack]
  rfl

theorem maxn (d : RegNo) (a : RegNo) (b : RegNo) : Statement (.maxn d a b) := by
  intro _ hw
  rw [show encode (.maxn d a b) = FmtR.pack 0x01 ⟨d, a, b, 0#4, 35#7⟩ from rfl, decode, FmtR.major_pack, FmtR.unpack_pack]
  rfl

theorem clz (d : RegNo) (a : RegNo) : Statement (.clz d a) := by
  intro _ hw
  rw [show encode (.clz d a) = FmtR.pack 0x01 ⟨d, a, 0#5, 0#4, 40#7⟩ from rfl, decode, FmtR.major_pack, FmtR.unpack_pack]
  rfl

theorem popc (d : RegNo) (a : RegNo) : Statement (.popc d a) := by
  intro _ hw
  rw [show encode (.popc d a) = FmtR.pack 0x01 ⟨d, a, 0#5, 0#4, 41#7⟩ from rfl, decode, FmtR.major_pack, FmtR.unpack_pack]
  rfl

theorem bfx (d : RegNo) (a : RegNo) (b : RegNo) : Statement (.bfx d a b) := by
  intro _ hw
  rw [show encode (.bfx d a b) = FmtR.pack 0x01 ⟨d, a, b, 0#4, 48#7⟩ from rfl, decode, FmtR.major_pack, FmtR.unpack_pack]
  rfl

theorem bfxn (d : RegNo) (a : RegNo) (b : RegNo) : Statement (.bfxn d a b) := by
  intro _ hw
  rw [show encode (.bfxn d a b) = FmtR.pack 0x01 ⟨d, a, b, 0#4, 49#7⟩ from rfl, decode, FmtR.major_pack, FmtR.unpack_pack]
  rfl

theorem bfi (d : RegNo) (a : RegNo) (b : RegNo) : Statement (.bfi d a b) := by
  intro _ hw
  rw [show encode (.bfi d a b) = FmtR.pack 0x01 ⟨d, a, b, 0#4, 50#7⟩ from rfl, decode, FmtR.major_pack, FmtR.unpack_pack]
  rfl

theorem sel (d : RegNo) (a : RegNo) (b : RegNo) (p : PredNo) : Statement (.sel d a b p) := by
  intro _ hw
  rw [show encode (.sel d a b p) = FmtR.pack 0x01 ⟨d, a, b, 0#1 ++ p, 56#7⟩ from rfl, decode, FmtR.major_pack, FmtR.unpack_pack]
  simp (disch := omega) [decodeAlu, check, wf?, wOnly?, Cond.code, Cond.of?, FCond.code, FCond.of?, Size.code, Size.of, ASize.code, ASize.of?, ASize.bit, ASize.ofBit, RedOp.code, RedOp.of?, Scope.code, Scope.of?, MTy.code, MTy.of?, extract_lo_1_15, extract_hi_1_15, extract_lo_1_3, extract_hi_1_3, extract_lo_10_6, extract_hi_10_6, extract_lo_15_8, extract_hi_15_8, extract_lo_18_5, extract_hi_18_5, extract_lo_3_2, extract_hi_3_2, extract_lo_4_1, extract_hi_4_1, pred?_low, vlds_fn, extract_all, hw]

theorem cmp (p : PredNo) (a : RegNo) (b : RegNo) (cc : Cond) : Statement (.cmp p a b cc) := by
  intro _ hw
  rw [show encode (.cmp p a b cc) = FmtR.pack 0x01 ⟨p ++ 0#2, a, b, 0#4, 8#4 ++ cc.code⟩ from rfl, decode, FmtR.major_pack, FmtR.unpack_pack]
  cases cc <;> simp (disch := omega) [decodeAlu, check, wf?, wOnly?, Cond.code, Cond.of?, FCond.code, FCond.of?, Size.code, Size.of, ASize.code, ASize.of?, ASize.bit, ASize.ofBit, RedOp.code, RedOp.of?, Scope.code, Scope.of?, MTy.code, MTy.of?, extract_lo_1_15, extract_hi_1_15, extract_lo_1_3, extract_hi_1_3, extract_lo_10_6, extract_hi_10_6, extract_lo_15_8, extract_hi_15_8, extract_lo_18_5, extract_hi_18_5, extract_lo_3_2, extract_hi_3_2, extract_lo_4_1, extract_hi_4_1, pred?_low, vlds_fn, extract_all, hw]

theorem addi (d : RegNo) (a : RegNo) (imm : BitVec 16) : Statement (.addi d a imm) := by
  intro _ hw
  rw [show encode (.addi d a imm) = FmtI.pack 0x02 ⟨d, a, imm⟩ from rfl, decode, FmtI.major_pack, FmtI.unpack_pack]
  rfl

theorem andi (d : RegNo) (a : RegNo) (imm : BitVec 16) : Statement (.andi d a imm) := by
  intro _ hw
  rw [show encode (.andi d a imm) = FmtI.pack 0x03 ⟨d, a, imm⟩ from rfl, decode, FmtI.major_pack, FmtI.unpack_pack]
  rfl

theorem ori (d : RegNo) (a : RegNo) (imm : BitVec 16) : Statement (.ori d a imm) := by
  intro _ hw
  rw [show encode (.ori d a imm) = FmtI.pack 0x04 ⟨d, a, imm⟩ from rfl, decode, FmtI.major_pack, FmtI.unpack_pack]
  rfl

theorem xori (d : RegNo) (a : RegNo) (imm : BitVec 16) : Statement (.xori d a imm) := by
  intro _ hw
  rw [show encode (.xori d a imm) = FmtI.pack 0x05 ⟨d, a, imm⟩ from rfl, decode, FmtI.major_pack, FmtI.unpack_pack]
  rfl

theorem shli (d : RegNo) (a : RegNo) (n : BitVec 6) : Statement (.shli d a n) := by
  intro _ hw
  rw [show encode (.shli d a n) = FmtI.pack 0x06 ⟨d, a, 0#10 ++ n⟩ from rfl, decode, FmtI.major_pack, FmtI.unpack_pack]
  simp (disch := omega) [decodeShi, check, wf?, wOnly?, Cond.code, Cond.of?, FCond.code, FCond.of?, Size.code, Size.of, ASize.code, ASize.of?, ASize.bit, ASize.ofBit, RedOp.code, RedOp.of?, Scope.code, Scope.of?, MTy.code, MTy.of?, extract_lo_1_15, extract_hi_1_15, extract_lo_1_3, extract_hi_1_3, extract_lo_10_6, extract_hi_10_6, extract_lo_15_8, extract_hi_15_8, extract_lo_18_5, extract_hi_18_5, extract_lo_3_2, extract_hi_3_2, extract_lo_4_1, extract_hi_4_1, pred?_low, vlds_fn, extract_all, hw]

theorem shri (d : RegNo) (a : RegNo) (n : BitVec 6) : Statement (.shri d a n) := by
  intro _ hw
  rw [show encode (.shri d a n) = FmtI.pack 0x06 ⟨d, a, 1#10 ++ n⟩ from rfl, decode, FmtI.major_pack, FmtI.unpack_pack]
  simp (disch := omega) [decodeShi, check, wf?, wOnly?, Cond.code, Cond.of?, FCond.code, FCond.of?, Size.code, Size.of, ASize.code, ASize.of?, ASize.bit, ASize.ofBit, RedOp.code, RedOp.of?, Scope.code, Scope.of?, MTy.code, MTy.of?, extract_lo_1_15, extract_hi_1_15, extract_lo_1_3, extract_hi_1_3, extract_lo_10_6, extract_hi_10_6, extract_lo_15_8, extract_hi_15_8, extract_lo_18_5, extract_hi_18_5, extract_lo_3_2, extract_hi_3_2, extract_lo_4_1, extract_hi_4_1, pred?_low, vlds_fn, extract_all, hw]

theorem srai (d : RegNo) (a : RegNo) (n : BitVec 6) : Statement (.srai d a n) := by
  intro _ hw
  rw [show encode (.srai d a n) = FmtI.pack 0x06 ⟨d, a, 2#10 ++ n⟩ from rfl, decode, FmtI.major_pack, FmtI.unpack_pack]
  simp (disch := omega) [decodeShi, check, wf?, wOnly?, Cond.code, Cond.of?, FCond.code, FCond.of?, Size.code, Size.of, ASize.code, ASize.of?, ASize.bit, ASize.ofBit, RedOp.code, RedOp.of?, Scope.code, Scope.of?, MTy.code, MTy.of?, extract_lo_1_15, extract_hi_1_15, extract_lo_1_3, extract_hi_1_3, extract_lo_10_6, extract_hi_10_6, extract_lo_15_8, extract_hi_15_8, extract_lo_18_5, extract_hi_18_5, extract_lo_3_2, extract_hi_3_2, extract_lo_4_1, extract_hi_4_1, pred?_low, vlds_fn, extract_all, hw]

theorem lim (d : RegNo) (q : BitVec 2) (imm : BitVec 16) : Statement (.lim d q imm) := by
  intro _ hw
  rw [show encode (.lim d q imm) = FmtI.pack 0x07 ⟨d, 0#3 ++ q, imm⟩ from rfl, decode, FmtI.major_pack, FmtI.unpack_pack]
  simp (disch := omega) [decodeLim, check, wf?, wOnly?, Cond.code, Cond.of?, FCond.code, FCond.of?, Size.code, Size.of, ASize.code, ASize.of?, ASize.bit, ASize.ofBit, RedOp.code, RedOp.of?, Scope.code, Scope.of?, MTy.code, MTy.of?, extract_lo_1_15, extract_hi_1_15, extract_lo_1_3, extract_hi_1_3, extract_lo_10_6, extract_hi_10_6, extract_lo_15_8, extract_hi_15_8, extract_lo_18_5, extract_hi_18_5, extract_lo_3_2, extract_hi_3_2, extract_lo_4_1, extract_hi_4_1, pred?_low, vlds_fn, extract_all, hw]

theorem cmpi (p : PredNo) (cc : Cond) (a : RegNo) (imm : BitVec 15) : Statement (.cmpi p cc a imm) := by
  intro _ hw
  rw [show encode (.cmpi p cc a imm) = FmtIC.pack 0x08 ⟨p, cc.code, a, imm⟩ from rfl, decode, FmtIC.major_pack, FmtIC.unpack_pack]
  cases cc <;> rfl

theorem paddi (d : RegNo) (a : RegNo) (imm : BitVec 16) : Statement (.paddi d a imm) := by
  intro _ hw
  rw [show encode (.paddi d a imm) = FmtI.pack 0x09 ⟨d, a, imm⟩ from rfl, decode, FmtI.major_pack, FmtI.unpack_pack]
  rfl

theorem padd (d : RegNo) (a : RegNo) (b : RegNo) : Statement (.padd d a b) := by
  intro _ hw
  rw [show encode (.padd d a b) = FmtR.pack 0x0A ⟨d, a, b, 0#4, 0#7⟩ from rfl, decode, FmtR.major_pack, FmtR.unpack_pack]
  rfl

theorem psub (d : RegNo) (a : RegNo) (b : RegNo) : Statement (.psub d a b) := by
  intro _ hw
  rw [show encode (.psub d a b) = FmtR.pack 0x0A ⟨d, a, b, 0#4, 1#7⟩ from rfl, decode, FmtR.major_pack, FmtR.unpack_pack]
  rfl

theorem ptag (d : RegNo) (a : RegNo) (b : RegNo) : Statement (.ptag d a b) := by
  intro _ hw
  rw [show encode (.ptag d a b) = FmtR.pack 0x0A ⟨d, a, b, 0#4, 2#7⟩ from rfl, decode, FmtR.major_pack, FmtR.unpack_pack]
  rfl

theorem pget (d : RegNo) (a : RegNo) : Statement (.pget d a) := by
  intro _ hw
  rw [show encode (.pget d a) = FmtR.pack 0x0A ⟨d, a, 0#5, 0#4, 3#7⟩ from rfl, decode, FmtR.major_pack, FmtR.unpack_pack]
  rfl

theorem fadd (d : RegNo) (a : RegNo) (b : RegNo) : Statement (.fadd d a b) := by
  intro _ hw
  rw [show encode (.fadd d a b) = FmtR.pack 0x0B ⟨d, a, b, 0#4, 0#7⟩ from rfl, decode, FmtR.major_pack, FmtR.unpack_pack]
  rfl

theorem fsub (d : RegNo) (a : RegNo) (b : RegNo) : Statement (.fsub d a b) := by
  intro _ hw
  rw [show encode (.fsub d a b) = FmtR.pack 0x0B ⟨d, a, b, 0#4, 1#7⟩ from rfl, decode, FmtR.major_pack, FmtR.unpack_pack]
  rfl

theorem fmul (d : RegNo) (a : RegNo) (b : RegNo) : Statement (.fmul d a b) := by
  intro _ hw
  rw [show encode (.fmul d a b) = FmtR.pack 0x0B ⟨d, a, b, 0#4, 2#7⟩ from rfl, decode, FmtR.major_pack, FmtR.unpack_pack]
  rfl

theorem fdiv (d : RegNo) (a : RegNo) (b : RegNo) (la : BitVec 4) : Statement (.fdiv d a b la) := by
  intro _ hw
  rw [show encode (.fdiv d a b la) = FmtR.pack 0x0B ⟨d, a, b, la, 3#7⟩ from rfl, decode, FmtR.major_pack, FmtR.unpack_pack]
  rfl

theorem fsqrt (d : RegNo) (a : RegNo) (la : BitVec 4) : Statement (.fsqrt d a la) := by
  intro _ hw
  rw [show encode (.fsqrt d a la) = FmtR.pack 0x0B ⟨d, a, 0#5, la, 4#7⟩ from rfl, decode, FmtR.major_pack, FmtR.unpack_pack]
  rfl

theorem fmin (d : RegNo) (a : RegNo) (b : RegNo) : Statement (.fmin d a b) := by
  intro _ hw
  rw [show encode (.fmin d a b) = FmtR.pack 0x0B ⟨d, a, b, 0#4, 5#7⟩ from rfl, decode, FmtR.major_pack, FmtR.unpack_pack]
  rfl

theorem fmax (d : RegNo) (a : RegNo) (b : RegNo) : Statement (.fmax d a b) := by
  intro _ hw
  rw [show encode (.fmax d a b) = FmtR.pack 0x0B ⟨d, a, b, 0#4, 6#7⟩ from rfl, decode, FmtR.major_pack, FmtR.unpack_pack]
  rfl

theorem fcmp (d : RegNo) (a : RegNo) (b : RegNo) (cc : FCond) : Statement (.fcmp d a b cc) := by
  intro _ hw
  rw [show encode (.fcmp d a b cc) = FmtR.pack 0x0B ⟨d, a, b, 0#4, 1#4 ++ cc.code⟩ from rfl, decode, FmtR.major_pack, FmtR.unpack_pack]
  cases cc <;> simp (disch := omega) [decodeFpu, check, wf?, wOnly?, Cond.code, Cond.of?, FCond.code, FCond.of?, Size.code, Size.of, ASize.code, ASize.of?, ASize.bit, ASize.ofBit, RedOp.code, RedOp.of?, Scope.code, Scope.of?, MTy.code, MTy.of?, extract_lo_1_15, extract_hi_1_15, extract_lo_1_3, extract_hi_1_3, extract_lo_10_6, extract_hi_10_6, extract_lo_15_8, extract_hi_15_8, extract_lo_18_5, extract_hi_18_5, extract_lo_3_2, extract_hi_3_2, extract_lo_4_1, extract_hi_4_1, pred?_low, vlds_fn, extract_all, hw]

theorem fcvtF2i (d : RegNo) (a : RegNo) : Statement (.fcvtF2i d a) := by
  intro _ hw
  rw [show encode (.fcvtF2i d a) = FmtR.pack 0x0B ⟨d, a, 0#5, 0#4, 16#7⟩ from rfl, decode, FmtR.major_pack, FmtR.unpack_pack]
  rfl

theorem fcvtF2n (d : RegNo) (a : RegNo) : Statement (.fcvtF2n d a) := by
  intro _ hw
  rw [show encode (.fcvtF2n d a) = FmtR.pack 0x0B ⟨d, a, 0#5, 0#4, 17#7⟩ from rfl, decode, FmtR.major_pack, FmtR.unpack_pack]
  rfl

theorem fcvtI2f (d : RegNo) (a : RegNo) : Statement (.fcvtI2f d a) := by
  intro _ hw
  rw [show encode (.fcvtI2f d a) = FmtR.pack 0x0B ⟨d, a, 0#5, 0#4, 18#7⟩ from rfl, decode, FmtR.major_pack, FmtR.unpack_pack]
  rfl

theorem fcvtN2f (d : RegNo) (a : RegNo) : Statement (.fcvtN2f d a) := by
  intro _ hw
  rw [show encode (.fcvtN2f d a) = FmtR.pack 0x0B ⟨d, a, 0#5, 0#4, 19#7⟩ from rfl, decode, FmtR.major_pack, FmtR.unpack_pack]
  rfl

theorem fclass (d : RegNo) (a : RegNo) : Statement (.fclass d a) := by
  intro _ hw
  rw [show encode (.fclass d a) = FmtR.pack 0x0B ⟨d, a, 0#5, 0#4, 20#7⟩ from rfl, decode, FmtR.major_pack, FmtR.unpack_pack]
  rfl

theorem fma (d : RegNo) (a : RegNo) (b : RegNo) (c : RegNo) : Statement (.fma d a b c) := by
  intro _ hw
  rw [show encode (.fma d a b c) = FmtRC.pack 0x0C ⟨d, a, b, c, 0#6⟩ from rfl, decode, FmtRC.major_pack, FmtRC.unpack_pack]
  rfl

theorem fms (d : RegNo) (a : RegNo) (b : RegNo) (c : RegNo) : Statement (.fms d a b c) := by
  intro _ hw
  rw [show encode (.fms d a b c) = FmtRC.pack 0x0C ⟨d, a, b, c, 1#6⟩ from rfl, decode, FmtRC.major_pack, FmtRC.unpack_pack]
  rfl

theorem fnma (d : RegNo) (a : RegNo) (b : RegNo) (c : RegNo) : Statement (.fnma d a b c) := by
  intro _ hw
  rw [show encode (.fnma d a b c) = FmtRC.pack 0x0C ⟨d, a, b, c, 2#6⟩ from rfl, decode, FmtRC.major_pack, FmtRC.unpack_pack]
  rfl

theorem brAny (p : PredNo) (disp : BitVec 22) : Statement (.brAny p disp) := by
  intro _ hw
  rw [show encode (.brAny p disp) = FmtB.pack 0x0D ⟨p, 1#1, disp⟩ from rfl, decode, FmtB.major_pack, FmtB.unpack_pack]
  rfl

theorem brNone (p : PredNo) (disp : BitVec 22) : Statement (.brNone p disp) := by
  intro _ hw
  rw [show encode (.brNone p disp) = FmtB.pack 0x0D ⟨p, 0#1, disp⟩ from rfl, decode, FmtB.major_pack, FmtB.unpack_pack]
  rfl

theorem bcc (a : RegNo) (b : RegNo) (cc : Cond) (disp : BitVec 13) : Statement (.bcc a b cc disp) := by
  intro _ hw
  rw [show encode (.bcc a b cc disp) = FmtBC.pack 0x0E ⟨a, b, cc.code, disp⟩ from rfl, decode, FmtBC.major_pack, FmtBC.unpack_pack]
  cases cc <;> rfl

theorem bra (disp : BitVec 26) : Statement (.bra disp) := by
  intro _ hw
  rw [show encode (.bra disp) = FmtJ.pack 0x0F ⟨disp⟩ from rfl, decode, FmtJ.major_pack, FmtJ.unpack_pack]
  rfl

theorem call (disp : BitVec 26) : Statement (.call disp) := by
  intro _ hw
  rw [show encode (.call disp) = FmtJ.pack 0x10 ⟨disp⟩ from rfl, decode, FmtJ.major_pack, FmtJ.unpack_pack]
  rfl

theorem jr (a : RegNo) : Statement (.jr a) := by
  intro _ hw
  rw [show encode (.jr a) = FmtR.pack 0x11 ⟨0#5, a, 0#5, 0#4, 0#7⟩ from rfl, decode, FmtR.major_pack, FmtR.unpack_pack]
  rfl

theorem callr (a : RegNo) : Statement (.callr a) := by
  intro _ hw
  rw [show encode (.callr a) = FmtR.pack 0x11 ⟨0#5, a, 0#5, 0#4, 1#7⟩ from rfl, decode, FmtR.major_pack, FmtR.unpack_pack]
  rfl

theorem ret : Statement .ret := by
  intro _ hw
  rw [show encode (.ret) = FmtR.pack 0x11 ⟨0#5, 0#5, 0#5, 0#4, 2#7⟩ from rfl, decode, FmtR.major_pack, FmtR.unpack_pack]
  rfl

theorem loop (a : RegNo) (disp : BitVec 21) : Statement (.loop a disp) := by
  intro _ hw
  rw [show encode (.loop a disp) = FmtL.pack 0x12 ⟨a, disp⟩ from rfl, decode, FmtL.major_pack, FmtL.unpack_pack]
  simp (disch := omega) [decodeLoop, check, wf?, wOnly?, Cond.code, Cond.of?, FCond.code, FCond.of?, Size.code, Size.of, ASize.code, ASize.of?, ASize.bit, ASize.ofBit, RedOp.code, RedOp.of?, Scope.code, Scope.of?, MTy.code, MTy.of?, extract_lo_1_15, extract_hi_1_15, extract_lo_1_3, extract_hi_1_3, extract_lo_10_6, extract_hi_10_6, extract_lo_15_8, extract_hi_15_8, extract_lo_18_5, extract_hi_18_5, extract_lo_3_2, extract_hi_3_2, extract_lo_4_1, extract_hi_4_1, pred?_low, vlds_fn, extract_all, hw]

theorem repf (len : BitVec 4) (cnt : BitVec 8) (fm : BitVec 3) (step : BitVec 2) : Statement (.repf len cnt fm step) := by
  intro _ hw
  rw [show encode (.repf len cnt fm step) = FmtF.pack 0x13 ⟨len, cnt, fm, step, 0#9⟩ from rfl, decode, FmtF.major_pack, FmtF.unpack_pack]
  rfl

theorem ld (d : RegNo) (a : RegNo) (la : BitVec 4) (x : Bool) (sz : Size) (off : BitVec 9) : Statement (.ld d a la x sz off) := by
  intro _ hw
  rw [show encode (.ld d a la x sz off) = FmtM.pack 0x14 ⟨d, a, la, BitVec.ofBool x, sz.code, off⟩ from rfl, decode, FmtM.major_pack, FmtM.unpack_pack]
  cases x <;> cases sz <;> rfl

theorem ldn (d : RegNo) (a : RegNo) (la : BitVec 4) (x : Bool) (sz : Size) (off : BitVec 9) : Statement (.ldn d a la x sz off) := by
  intro _ hw
  rw [show encode (.ldn d a la x sz off) = FmtM.pack 0x15 ⟨d, a, la, BitVec.ofBool x, sz.code, off⟩ from rfl, decode, FmtM.major_pack, FmtM.unpack_pack]
  cases x <;> cases sz <;> simp (disch := omega) [decodeLdn, check, wf?, wOnly?, Cond.code, Cond.of?, FCond.code, FCond.of?, Size.code, Size.of, ASize.code, ASize.of?, ASize.bit, ASize.ofBit, RedOp.code, RedOp.of?, Scope.code, Scope.of?, MTy.code, MTy.of?, extract_lo_1_15, extract_hi_1_15, extract_lo_1_3, extract_hi_1_3, extract_lo_10_6, extract_hi_10_6, extract_lo_15_8, extract_hi_15_8, extract_lo_18_5, extract_hi_18_5, extract_lo_3_2, extract_hi_3_2, extract_lo_4_1, extract_hi_4_1, pred?_low, vlds_fn, extract_all, hw]

theorem st (d : RegNo) (a : RegNo) (la : BitVec 4) (x : Bool) (sz : Size) (off : BitVec 9) : Statement (.st d a la x sz off) := by
  intro _ hw
  rw [show encode (.st d a la x sz off) = FmtM.pack 0x16 ⟨d, a, la, BitVec.ofBool x, sz.code, off⟩ from rfl, decode, FmtM.major_pack, FmtM.unpack_pack]
  cases x <;> cases sz <;> rfl

theorem ldx (d : RegNo) (a : RegNo) (b : RegNo) (la : BitVec 4) (x : Bool) (sz : Size) (z : Bool) : Statement (.ldx d a b la x sz z) := by
  intro _ hw
  rw [show encode (.ldx d a b la x sz z) = FmtMX.pack 0x17 ⟨d, a, b, la, BitVec.ofBool x, sz.code, 0#3, BitVec.ofBool z⟩ from rfl, decode, FmtMX.major_pack, FmtMX.unpack_pack]
  cases x <;> cases sz <;> cases z <;> rfl

theorem stx (d : RegNo) (a : RegNo) (b : RegNo) (la : BitVec 4) (x : Bool) (sz : Size) : Statement (.stx d a b la x sz) := by
  intro _ hw
  rw [show encode (.stx d a b la x sz) = FmtMX.pack 0x18 ⟨d, a, b, la, BitVec.ofBool x, sz.code, 0#3, 0#1⟩ from rfl, decode, FmtMX.major_pack, FmtMX.unpack_pack]
  cases x <;> cases sz <;> rfl

theorem ldf (d : RegNo) (a : RegNo) (la : BitVec 4) : Statement (.ldf d a la) := by
  intro _ hw
  rw [show encode (.ldf d a la) = FmtR.pack 0x19 ⟨d, a, 0#5, la, 0#7⟩ from rfl, decode, FmtR.major_pack, FmtR.unpack_pack]
  rfl

theorem ldff (d : RegNo) (a : RegNo) (la : BitVec 4) : Statement (.ldff d a la) := by
  intro _ hw
  rw [show encode (.ldff d a la) = FmtR.pack 0x19 ⟨d, a, 0#5, la, 1#7⟩ from rfl, decode, FmtR.major_pack, FmtR.unpack_pack]
  rfl

theorem ste (d : RegNo) (a : RegNo) (la : BitVec 4) : Statement (.ste d a la) := by
  intro _ hw
  rw [show encode (.ste d a la) = FmtR.pack 0x19 ⟨d, a, 0#5, la, 2#7⟩ from rfl, decode, FmtR.major_pack, FmtR.unpack_pack]
  rfl

theorem stef (d : RegNo) (a : RegNo) (la : BitVec 4) : Statement (.stef d a la) := by
  intro _ hw
  rw [show encode (.stef d a la) = FmtR.pack 0x19 ⟨d, a, 0#5, la, 3#7⟩ from rfl, decode, FmtR.major_pack, FmtR.unpack_pack]
  rfl

theorem feclr (a : RegNo) (la : BitVec 4) : Statement (.feclr a la) := by
  intro _ hw
  rw [show encode (.feclr a la) = FmtR.pack 0x19 ⟨0#5, a, 0#5, la, 4#7⟩ from rfl, decode, FmtR.major_pack, FmtR.unpack_pack]
  rfl

theorem feget (d : RegNo) (a : RegNo) (la : BitVec 4) : Statement (.feget d a la) := by
  intro _ hw
  rw [show encode (.feget d a la) = FmtR.pack 0x19 ⟨d, a, 0#5, la, 5#7⟩ from rfl, decode, FmtR.major_pack, FmtR.unpack_pack]
  rfl

theorem amoAdd (d : RegNo) (a : RegNo) (b : RegNo) (la : BitVec 4) (sz : ASize) : Statement (.amoAdd d a b la sz) := by
  intro _ hw
  rw [show encode (.amoAdd d a b la sz) = FmtR.pack 0x1A ⟨d, a, b, la, sz.code ++ 0#5⟩ from rfl, decode, FmtR.major_pack, FmtR.unpack_pack]
  cases sz <;> simp (disch := omega) [decodeAmo, check, wf?, wOnly?, Cond.code, Cond.of?, FCond.code, FCond.of?, Size.code, Size.of, ASize.code, ASize.of?, ASize.bit, ASize.ofBit, RedOp.code, RedOp.of?, Scope.code, Scope.of?, MTy.code, MTy.of?, extract_lo_1_15, extract_hi_1_15, extract_lo_1_3, extract_hi_1_3, extract_lo_10_6, extract_hi_10_6, extract_lo_15_8, extract_hi_15_8, extract_lo_18_5, extract_hi_18_5, extract_lo_3_2, extract_hi_3_2, extract_lo_4_1, extract_hi_4_1, pred?_low, vlds_fn, extract_all, hw]

theorem amoAnd (d : RegNo) (a : RegNo) (b : RegNo) (la : BitVec 4) (sz : ASize) : Statement (.amoAnd d a b la sz) := by
  intro _ hw
  rw [show encode (.amoAnd d a b la sz) = FmtR.pack 0x1A ⟨d, a, b, la, sz.code ++ 1#5⟩ from rfl, decode, FmtR.major_pack, FmtR.unpack_pack]
  cases sz <;> simp (disch := omega) [decodeAmo, check, wf?, wOnly?, Cond.code, Cond.of?, FCond.code, FCond.of?, Size.code, Size.of, ASize.code, ASize.of?, ASize.bit, ASize.ofBit, RedOp.code, RedOp.of?, Scope.code, Scope.of?, MTy.code, MTy.of?, extract_lo_1_15, extract_hi_1_15, extract_lo_1_3, extract_hi_1_3, extract_lo_10_6, extract_hi_10_6, extract_lo_15_8, extract_hi_15_8, extract_lo_18_5, extract_hi_18_5, extract_lo_3_2, extract_hi_3_2, extract_lo_4_1, extract_hi_4_1, pred?_low, vlds_fn, extract_all, hw]

theorem amoOr (d : RegNo) (a : RegNo) (b : RegNo) (la : BitVec 4) (sz : ASize) : Statement (.amoOr d a b la sz) := by
  intro _ hw
  rw [show encode (.amoOr d a b la sz) = FmtR.pack 0x1A ⟨d, a, b, la, sz.code ++ 2#5⟩ from rfl, decode, FmtR.major_pack, FmtR.unpack_pack]
  cases sz <;> simp (disch := omega) [decodeAmo, check, wf?, wOnly?, Cond.code, Cond.of?, FCond.code, FCond.of?, Size.code, Size.of, ASize.code, ASize.of?, ASize.bit, ASize.ofBit, RedOp.code, RedOp.of?, Scope.code, Scope.of?, MTy.code, MTy.of?, extract_lo_1_15, extract_hi_1_15, extract_lo_1_3, extract_hi_1_3, extract_lo_10_6, extract_hi_10_6, extract_lo_15_8, extract_hi_15_8, extract_lo_18_5, extract_hi_18_5, extract_lo_3_2, extract_hi_3_2, extract_lo_4_1, extract_hi_4_1, pred?_low, vlds_fn, extract_all, hw]

theorem amoXor (d : RegNo) (a : RegNo) (b : RegNo) (la : BitVec 4) (sz : ASize) : Statement (.amoXor d a b la sz) := by
  intro _ hw
  rw [show encode (.amoXor d a b la sz) = FmtR.pack 0x1A ⟨d, a, b, la, sz.code ++ 3#5⟩ from rfl, decode, FmtR.major_pack, FmtR.unpack_pack]
  cases sz <;> simp (disch := omega) [decodeAmo, check, wf?, wOnly?, Cond.code, Cond.of?, FCond.code, FCond.of?, Size.code, Size.of, ASize.code, ASize.of?, ASize.bit, ASize.ofBit, RedOp.code, RedOp.of?, Scope.code, Scope.of?, MTy.code, MTy.of?, extract_lo_1_15, extract_hi_1_15, extract_lo_1_3, extract_hi_1_3, extract_lo_10_6, extract_hi_10_6, extract_lo_15_8, extract_hi_15_8, extract_lo_18_5, extract_hi_18_5, extract_lo_3_2, extract_hi_3_2, extract_lo_4_1, extract_hi_4_1, pred?_low, vlds_fn, extract_all, hw]

theorem amoMin (d : RegNo) (a : RegNo) (b : RegNo) (la : BitVec 4) (sz : ASize) : Statement (.amoMin d a b la sz) := by
  intro _ hw
  rw [show encode (.amoMin d a b la sz) = FmtR.pack 0x1A ⟨d, a, b, la, sz.code ++ 4#5⟩ from rfl, decode, FmtR.major_pack, FmtR.unpack_pack]
  cases sz <;> simp (disch := omega) [decodeAmo, check, wf?, wOnly?, Cond.code, Cond.of?, FCond.code, FCond.of?, Size.code, Size.of, ASize.code, ASize.of?, ASize.bit, ASize.ofBit, RedOp.code, RedOp.of?, Scope.code, Scope.of?, MTy.code, MTy.of?, extract_lo_1_15, extract_hi_1_15, extract_lo_1_3, extract_hi_1_3, extract_lo_10_6, extract_hi_10_6, extract_lo_15_8, extract_hi_15_8, extract_lo_18_5, extract_hi_18_5, extract_lo_3_2, extract_hi_3_2, extract_lo_4_1, extract_hi_4_1, pred?_low, vlds_fn, extract_all, hw]

theorem amoMax (d : RegNo) (a : RegNo) (b : RegNo) (la : BitVec 4) (sz : ASize) : Statement (.amoMax d a b la sz) := by
  intro _ hw
  rw [show encode (.amoMax d a b la sz) = FmtR.pack 0x1A ⟨d, a, b, la, sz.code ++ 5#5⟩ from rfl, decode, FmtR.major_pack, FmtR.unpack_pack]
  cases sz <;> simp (disch := omega) [decodeAmo, check, wf?, wOnly?, Cond.code, Cond.of?, FCond.code, FCond.of?, Size.code, Size.of, ASize.code, ASize.of?, ASize.bit, ASize.ofBit, RedOp.code, RedOp.of?, Scope.code, Scope.of?, MTy.code, MTy.of?, extract_lo_1_15, extract_hi_1_15, extract_lo_1_3, extract_hi_1_3, extract_lo_10_6, extract_hi_10_6, extract_lo_15_8, extract_hi_15_8, extract_lo_18_5, extract_hi_18_5, extract_lo_3_2, extract_hi_3_2, extract_lo_4_1, extract_hi_4_1, pred?_low, vlds_fn, extract_all, hw]

theorem amoMinn (d : RegNo) (a : RegNo) (b : RegNo) (la : BitVec 4) (sz : ASize) : Statement (.amoMinn d a b la sz) := by
  intro _ hw
  rw [show encode (.amoMinn d a b la sz) = FmtR.pack 0x1A ⟨d, a, b, la, sz.code ++ 6#5⟩ from rfl, decode, FmtR.major_pack, FmtR.unpack_pack]
  cases sz <;> simp (disch := omega) [decodeAmo, check, wf?, wOnly?, Cond.code, Cond.of?, FCond.code, FCond.of?, Size.code, Size.of, ASize.code, ASize.of?, ASize.bit, ASize.ofBit, RedOp.code, RedOp.of?, Scope.code, Scope.of?, MTy.code, MTy.of?, extract_lo_1_15, extract_hi_1_15, extract_lo_1_3, extract_hi_1_3, extract_lo_10_6, extract_hi_10_6, extract_lo_15_8, extract_hi_15_8, extract_lo_18_5, extract_hi_18_5, extract_lo_3_2, extract_hi_3_2, extract_lo_4_1, extract_hi_4_1, pred?_low, vlds_fn, extract_all, hw]

theorem amoMaxn (d : RegNo) (a : RegNo) (b : RegNo) (la : BitVec 4) (sz : ASize) : Statement (.amoMaxn d a b la sz) := by
  intro _ hw
  rw [show encode (.amoMaxn d a b la sz) = FmtR.pack 0x1A ⟨d, a, b, la, sz.code ++ 7#5⟩ from rfl, decode, FmtR.major_pack, FmtR.unpack_pack]
  cases sz <;> simp (disch := omega) [decodeAmo, check, wf?, wOnly?, Cond.code, Cond.of?, FCond.code, FCond.of?, Size.code, Size.of, ASize.code, ASize.of?, ASize.bit, ASize.ofBit, RedOp.code, RedOp.of?, Scope.code, Scope.of?, MTy.code, MTy.of?, extract_lo_1_15, extract_hi_1_15, extract_lo_1_3, extract_hi_1_3, extract_lo_10_6, extract_hi_10_6, extract_lo_15_8, extract_hi_15_8, extract_lo_18_5, extract_hi_18_5, extract_lo_3_2, extract_hi_3_2, extract_lo_4_1, extract_hi_4_1, pred?_low, vlds_fn, extract_all, hw]

theorem amoSwap (d : RegNo) (a : RegNo) (b : RegNo) (la : BitVec 4) (sz : ASize) : Statement (.amoSwap d a b la sz) := by
  intro _ hw
  rw [show encode (.amoSwap d a b la sz) = FmtR.pack 0x1A ⟨d, a, b, la, sz.code ++ 8#5⟩ from rfl, decode, FmtR.major_pack, FmtR.unpack_pack]
  cases sz <;> simp (disch := omega) [decodeAmo, check, wf?, wOnly?, Cond.code, Cond.of?, FCond.code, FCond.of?, Size.code, Size.of, ASize.code, ASize.of?, ASize.bit, ASize.ofBit, RedOp.code, RedOp.of?, Scope.code, Scope.of?, MTy.code, MTy.of?, extract_lo_1_15, extract_hi_1_15, extract_lo_1_3, extract_hi_1_3, extract_lo_10_6, extract_hi_10_6, extract_lo_15_8, extract_hi_15_8, extract_lo_18_5, extract_hi_18_5, extract_lo_3_2, extract_hi_3_2, extract_lo_4_1, extract_hi_4_1, pred?_low, vlds_fn, extract_all, hw]

theorem amoFadd (d : RegNo) (a : RegNo) (b : RegNo) (la : BitVec 4) : Statement (.amoFadd d a b la) := by
  intro _ hw
  rw [show encode (.amoFadd d a b la) = FmtR.pack 0x1A ⟨d, a, b, la, 73#7⟩ from rfl, decode, FmtR.major_pack, FmtR.unpack_pack]
  simp (disch := omega) [decodeAmo, check, wf?, wOnly?, Cond.code, Cond.of?, FCond.code, FCond.of?, Size.code, Size.of, ASize.code, ASize.of?, ASize.bit, ASize.ofBit, RedOp.code, RedOp.of?, Scope.code, Scope.of?, MTy.code, MTy.of?, extract_lo_1_15, extract_hi_1_15, extract_lo_1_3, extract_hi_1_3, extract_lo_10_6, extract_hi_10_6, extract_lo_15_8, extract_hi_15_8, extract_lo_18_5, extract_hi_18_5, extract_lo_3_2, extract_hi_3_2, extract_lo_4_1, extract_hi_4_1, pred?_low, vlds_fn, extract_all, hw]

theorem cas (d : RegNo) (a : RegNo) (b : RegNo) (c : RegNo) (sz : ASize) : Statement (.cas d a b c sz) := by
  intro _ hw
  rw [show encode (.cas d a b c sz) = FmtRC.pack 0x1B ⟨d, a, b, c, 0#5 ++ sz.bit⟩ from rfl, decode, FmtRC.major_pack, FmtRC.unpack_pack]
  cases sz <;> rfl

theorem ldr (d : RegNo) (a : RegNo) (la : BitVec 4) (sz : ASize) : Statement (.ldr d a la sz) := by
  intro _ hw
  rw [show encode (.ldr d a la sz) = FmtR.pack 0x1C ⟨d, a, 0#5, la, sz.code ++ 0#5⟩ from rfl, decode, FmtR.major_pack, FmtR.unpack_pack]
  cases sz <;> simp (disch := omega) [decodeRsv, check, wf?, wOnly?, Cond.code, Cond.of?, FCond.code, FCond.of?, Size.code, Size.of, ASize.code, ASize.of?, ASize.bit, ASize.ofBit, RedOp.code, RedOp.of?, Scope.code, Scope.of?, MTy.code, MTy.of?, extract_lo_1_15, extract_hi_1_15, extract_lo_1_3, extract_hi_1_3, extract_lo_10_6, extract_hi_10_6, extract_lo_15_8, extract_hi_15_8, extract_lo_18_5, extract_hi_18_5, extract_lo_3_2, extract_hi_3_2, extract_lo_4_1, extract_hi_4_1, pred?_low, vlds_fn, extract_all, hw]

theorem stc (d : RegNo) (a : RegNo) (b : RegNo) (la : BitVec 4) (sz : ASize) : Statement (.stc d a b la sz) := by
  intro _ hw
  rw [show encode (.stc d a b la sz) = FmtR.pack 0x1C ⟨d, a, b, la, sz.code ++ 1#5⟩ from rfl, decode, FmtR.major_pack, FmtR.unpack_pack]
  cases sz <;> simp (disch := omega) [decodeRsv, check, wf?, wOnly?, Cond.code, Cond.of?, FCond.code, FCond.of?, Size.code, Size.of, ASize.code, ASize.of?, ASize.bit, ASize.ofBit, RedOp.code, RedOp.of?, Scope.code, Scope.of?, MTy.code, MTy.of?, extract_lo_1_15, extract_hi_1_15, extract_lo_1_3, extract_hi_1_3, extract_lo_10_6, extract_hi_10_6, extract_lo_15_8, extract_hi_15_8, extract_lo_18_5, extract_hi_18_5, extract_lo_3_2, extract_hi_3_2, extract_lo_4_1, extract_hi_4_1, pred?_low, vlds_fn, extract_all, hw]

theorem wrs (d : RegNo) (a : RegNo) (la : BitVec 4) (sz : ASize) : Statement (.wrs d a la sz) := by
  intro _ hw
  rw [show encode (.wrs d a la sz) = FmtR.pack 0x1C ⟨d, a, 0#5, la, sz.code ++ 2#5⟩ from rfl, decode, FmtR.major_pack, FmtR.unpack_pack]
  cases sz <;> simp (disch := omega) [decodeRsv, check, wf?, wOnly?, Cond.code, Cond.of?, FCond.code, FCond.of?, Size.code, Size.of, ASize.code, ASize.of?, ASize.bit, ASize.ofBit, RedOp.code, RedOp.of?, Scope.code, Scope.of?, MTy.code, MTy.of?, extract_lo_1_15, extract_hi_1_15, extract_lo_1_3, extract_hi_1_3, extract_lo_10_6, extract_hi_10_6, extract_lo_15_8, extract_hi_15_8, extract_lo_18_5, extract_hi_18_5, extract_lo_3_2, extract_hi_3_2, extract_lo_4_1, extract_hi_4_1, pred?_low, vlds_fn, extract_all, hw]

theorem rupdAdd (a : RegNo) (b : RegNo) (sz : ASize) : Statement (.rupdAdd a b sz) := by
  intro _ hw
  rw [show encode (.rupdAdd a b sz) = FmtR.pack 0x1D ⟨0#5, a, b, 0#4, sz.code ++ 0#5⟩ from rfl, decode, FmtR.major_pack, FmtR.unpack_pack]
  cases sz <;> simp (disch := omega) [decodeRupd, check, wf?, wOnly?, Cond.code, Cond.of?, FCond.code, FCond.of?, Size.code, Size.of, ASize.code, ASize.of?, ASize.bit, ASize.ofBit, RedOp.code, RedOp.of?, Scope.code, Scope.of?, MTy.code, MTy.of?, extract_lo_1_15, extract_hi_1_15, extract_lo_1_3, extract_hi_1_3, extract_lo_10_6, extract_hi_10_6, extract_lo_15_8, extract_hi_15_8, extract_lo_18_5, extract_hi_18_5, extract_lo_3_2, extract_hi_3_2, extract_lo_4_1, extract_hi_4_1, pred?_low, vlds_fn, extract_all, hw]

theorem rupdAnd (a : RegNo) (b : RegNo) (sz : ASize) : Statement (.rupdAnd a b sz) := by
  intro _ hw
  rw [show encode (.rupdAnd a b sz) = FmtR.pack 0x1D ⟨0#5, a, b, 0#4, sz.code ++ 1#5⟩ from rfl, decode, FmtR.major_pack, FmtR.unpack_pack]
  cases sz <;> simp (disch := omega) [decodeRupd, check, wf?, wOnly?, Cond.code, Cond.of?, FCond.code, FCond.of?, Size.code, Size.of, ASize.code, ASize.of?, ASize.bit, ASize.ofBit, RedOp.code, RedOp.of?, Scope.code, Scope.of?, MTy.code, MTy.of?, extract_lo_1_15, extract_hi_1_15, extract_lo_1_3, extract_hi_1_3, extract_lo_10_6, extract_hi_10_6, extract_lo_15_8, extract_hi_15_8, extract_lo_18_5, extract_hi_18_5, extract_lo_3_2, extract_hi_3_2, extract_lo_4_1, extract_hi_4_1, pred?_low, vlds_fn, extract_all, hw]

theorem rupdOr (a : RegNo) (b : RegNo) (sz : ASize) : Statement (.rupdOr a b sz) := by
  intro _ hw
  rw [show encode (.rupdOr a b sz) = FmtR.pack 0x1D ⟨0#5, a, b, 0#4, sz.code ++ 2#5⟩ from rfl, decode, FmtR.major_pack, FmtR.unpack_pack]
  cases sz <;> simp (disch := omega) [decodeRupd, check, wf?, wOnly?, Cond.code, Cond.of?, FCond.code, FCond.of?, Size.code, Size.of, ASize.code, ASize.of?, ASize.bit, ASize.ofBit, RedOp.code, RedOp.of?, Scope.code, Scope.of?, MTy.code, MTy.of?, extract_lo_1_15, extract_hi_1_15, extract_lo_1_3, extract_hi_1_3, extract_lo_10_6, extract_hi_10_6, extract_lo_15_8, extract_hi_15_8, extract_lo_18_5, extract_hi_18_5, extract_lo_3_2, extract_hi_3_2, extract_lo_4_1, extract_hi_4_1, pred?_low, vlds_fn, extract_all, hw]

theorem rupdXor (a : RegNo) (b : RegNo) (sz : ASize) : Statement (.rupdXor a b sz) := by
  intro _ hw
  rw [show encode (.rupdXor a b sz) = FmtR.pack 0x1D ⟨0#5, a, b, 0#4, sz.code ++ 3#5⟩ from rfl, decode, FmtR.major_pack, FmtR.unpack_pack]
  cases sz <;> simp (disch := omega) [decodeRupd, check, wf?, wOnly?, Cond.code, Cond.of?, FCond.code, FCond.of?, Size.code, Size.of, ASize.code, ASize.of?, ASize.bit, ASize.ofBit, RedOp.code, RedOp.of?, Scope.code, Scope.of?, MTy.code, MTy.of?, extract_lo_1_15, extract_hi_1_15, extract_lo_1_3, extract_hi_1_3, extract_lo_10_6, extract_hi_10_6, extract_lo_15_8, extract_hi_15_8, extract_lo_18_5, extract_hi_18_5, extract_lo_3_2, extract_hi_3_2, extract_lo_4_1, extract_hi_4_1, pred?_low, vlds_fn, extract_all, hw]

theorem rupdMin (a : RegNo) (b : RegNo) (sz : ASize) : Statement (.rupdMin a b sz) := by
  intro _ hw
  rw [show encode (.rupdMin a b sz) = FmtR.pack 0x1D ⟨0#5, a, b, 0#4, sz.code ++ 4#5⟩ from rfl, decode, FmtR.major_pack, FmtR.unpack_pack]
  cases sz <;> simp (disch := omega) [decodeRupd, check, wf?, wOnly?, Cond.code, Cond.of?, FCond.code, FCond.of?, Size.code, Size.of, ASize.code, ASize.of?, ASize.bit, ASize.ofBit, RedOp.code, RedOp.of?, Scope.code, Scope.of?, MTy.code, MTy.of?, extract_lo_1_15, extract_hi_1_15, extract_lo_1_3, extract_hi_1_3, extract_lo_10_6, extract_hi_10_6, extract_lo_15_8, extract_hi_15_8, extract_lo_18_5, extract_hi_18_5, extract_lo_3_2, extract_hi_3_2, extract_lo_4_1, extract_hi_4_1, pred?_low, vlds_fn, extract_all, hw]

theorem rupdMax (a : RegNo) (b : RegNo) (sz : ASize) : Statement (.rupdMax a b sz) := by
  intro _ hw
  rw [show encode (.rupdMax a b sz) = FmtR.pack 0x1D ⟨0#5, a, b, 0#4, sz.code ++ 5#5⟩ from rfl, decode, FmtR.major_pack, FmtR.unpack_pack]
  cases sz <;> simp (disch := omega) [decodeRupd, check, wf?, wOnly?, Cond.code, Cond.of?, FCond.code, FCond.of?, Size.code, Size.of, ASize.code, ASize.of?, ASize.bit, ASize.ofBit, RedOp.code, RedOp.of?, Scope.code, Scope.of?, MTy.code, MTy.of?, extract_lo_1_15, extract_hi_1_15, extract_lo_1_3, extract_hi_1_3, extract_lo_10_6, extract_hi_10_6, extract_lo_15_8, extract_hi_15_8, extract_lo_18_5, extract_hi_18_5, extract_lo_3_2, extract_hi_3_2, extract_lo_4_1, extract_hi_4_1, pred?_low, vlds_fn, extract_all, hw]

theorem rupdMinn (a : RegNo) (b : RegNo) (sz : ASize) : Statement (.rupdMinn a b sz) := by
  intro _ hw
  rw [show encode (.rupdMinn a b sz) = FmtR.pack 0x1D ⟨0#5, a, b, 0#4, sz.code ++ 6#5⟩ from rfl, decode, FmtR.major_pack, FmtR.unpack_pack]
  cases sz <;> simp (disch := omega) [decodeRupd, check, wf?, wOnly?, Cond.code, Cond.of?, FCond.code, FCond.of?, Size.code, Size.of, ASize.code, ASize.of?, ASize.bit, ASize.ofBit, RedOp.code, RedOp.of?, Scope.code, Scope.of?, MTy.code, MTy.of?, extract_lo_1_15, extract_hi_1_15, extract_lo_1_3, extract_hi_1_3, extract_lo_10_6, extract_hi_10_6, extract_lo_15_8, extract_hi_15_8, extract_lo_18_5, extract_hi_18_5, extract_lo_3_2, extract_hi_3_2, extract_lo_4_1, extract_hi_4_1, pred?_low, vlds_fn, extract_all, hw]

theorem rupdMaxn (a : RegNo) (b : RegNo) (sz : ASize) : Statement (.rupdMaxn a b sz) := by
  intro _ hw
  rw [show encode (.rupdMaxn a b sz) = FmtR.pack 0x1D ⟨0#5, a, b, 0#4, sz.code ++ 7#5⟩ from rfl, decode, FmtR.major_pack, FmtR.unpack_pack]
  cases sz <;> simp (disch := omega) [decodeRupd, check, wf?, wOnly?, Cond.code, Cond.of?, FCond.code, FCond.of?, Size.code, Size.of, ASize.code, ASize.of?, ASize.bit, ASize.ofBit, RedOp.code, RedOp.of?, Scope.code, Scope.of?, MTy.code, MTy.of?, extract_lo_1_15, extract_hi_1_15, extract_lo_1_3, extract_hi_1_3, extract_lo_10_6, extract_hi_10_6, extract_lo_15_8, extract_hi_15_8, extract_lo_18_5, extract_hi_18_5, extract_lo_3_2, extract_hi_3_2, extract_lo_4_1, extract_hi_4_1, pred?_low, vlds_fn, extract_all, hw]

theorem rupdFadd (a : RegNo) (b : RegNo) : Statement (.rupdFadd a b) := by
  intro _ hw
  rw [show encode (.rupdFadd a b) = FmtR.pack 0x1D ⟨0#5, a, b, 0#4, 73#7⟩ from rfl, decode, FmtR.major_pack, FmtR.unpack_pack]
  simp (disch := omega) [decodeRupd, check, wf?, wOnly?, Cond.code, Cond.of?, FCond.code, FCond.of?, Size.code, Size.of, ASize.code, ASize.of?, ASize.bit, ASize.ofBit, RedOp.code, RedOp.of?, Scope.code, Scope.of?, MTy.code, MTy.of?, extract_lo_1_15, extract_hi_1_15, extract_lo_1_3, extract_hi_1_3, extract_lo_10_6, extract_hi_10_6, extract_lo_15_8, extract_hi_15_8, extract_lo_18_5, extract_hi_18_5, extract_lo_3_2, extract_hi_3_2, extract_lo_4_1, extract_hi_4_1, pred?_low, vlds_fn, extract_all, hw]

theorem fence (s : Scope) : Statement (.fence s) := by
  intro _ hw
  rw [show encode (.fence s) = FmtFC.pack 0x1E ⟨s.code, 0#3, 0#20⟩ from rfl, decode, FmtFC.major_pack, FmtFC.unpack_pack]
  cases s <;> rfl

theorem fenceAcq (s : Scope) : Statement (.fenceAcq s) := by
  intro _ hw
  rw [show encode (.fenceAcq s) = FmtFC.pack 0x1E ⟨s.code, 1#3, 0#20⟩ from rfl, decode, FmtFC.major_pack, FmtFC.unpack_pack]
  cases s <;> rfl

theorem fenceRel (s : Scope) : Statement (.fenceRel s) := by
  intro _ hw
  rw [show encode (.fenceRel s) = FmtFC.pack 0x1E ⟨s.code, 2#3, 0#20⟩ from rfl, decode, FmtFC.major_pack, FmtFC.unpack_pack]
  cases s <;> rfl

theorem fenceEng (s : Scope) : Statement (.fenceEng s) := by
  intro _ hw
  rw [show encode (.fenceEng s) = FmtFC.pack 0x1E ⟨s.code, 3#3, 0#20⟩ from rfl, decode, FmtFC.major_pack, FmtFC.unpack_pack]
  cases s <;> rfl

theorem bara (id : BitVec 5) : Statement (.bara id) := by
  intro _ hw
  rw [show encode (.bara id) = FmtR.pack 0x1F ⟨0#5, id, 0#5, 0#4, 0#7⟩ from rfl, decode, FmtR.major_pack, FmtR.unpack_pack]
  rfl

theorem barw (id : BitVec 5) : Statement (.barw id) := by
  intro _ hw
  rw [show encode (.barw id) = FmtR.pack 0x1F ⟨0#5, id, 0#5, 0#4, 1#7⟩ from rfl, decode, FmtR.major_pack, FmtR.unpack_pack]
  rfl

theorem barg (id : BitVec 5) : Statement (.barg id) := by
  intro _ hw
  rw [show encode (.barg id) = FmtR.pack 0x1F ⟨0#5, id, 0#5, 0#4, 2#7⟩ from rfl, decode, FmtR.major_pack, FmtR.unpack_pack]
  rfl

theorem barq (d : RegNo) (id : BitVec 5) : Statement (.barq d id) := by
  intro _ hw
  rw [show encode (.barq d id) = FmtR.pack 0x1F ⟨d, id, 0#5, 0#4, 3#7⟩ from rfl, decode, FmtR.major_pack, FmtR.unpack_pack]
  rfl

theorem barset (id : BitVec 5) (b : RegNo) : Statement (.barset id b) := by
  intro _ hw
  rw [show encode (.barset id b) = FmtR.pack 0x1F ⟨0#5, id, b, 0#4, 4#7⟩ from rfl, decode, FmtR.major_pack, FmtR.unpack_pack]
  rfl

theorem txb (disp : BitVec 23) : Statement (.txb disp) := by
  intro _ hw
  rw [show encode (.txb disp) = FmtT.pack 0x20 ⟨0#3, disp⟩ from rfl, decode, FmtT.major_pack, FmtT.unpack_pack]
  rfl

theorem txelse (disp : BitVec 23) : Statement (.txelse disp) := by
  intro _ hw
  rw [show encode (.txelse disp) = FmtT.pack 0x20 ⟨1#3, disp⟩ from rfl, decode, FmtT.major_pack, FmtT.unpack_pack]
  rfl

theorem txe : Statement .txe := by
  intro _ hw
  rw [show encode (.txe) = FmtT.pack 0x20 ⟨2#3, 0#23⟩ from rfl, decode, FmtT.major_pack, FmtT.unpack_pack]
  rfl

theorem txr : Statement .txr := by
  intro _ hw
  rw [show encode (.txr) = FmtT.pack 0x20 ⟨3#3, 0#23⟩ from rfl, decode, FmtT.major_pack, FmtT.unpack_pack]
  rfl

theorem txabort (c : BitVec 8) : Statement (.txabort c) := by
  intro _ hw
  rw [show encode (.txabort c) = FmtT.pack 0x20 ⟨4#3, 0#15 ++ c⟩ from rfl, decode, FmtT.major_pack, FmtT.unpack_pack]
  simp (disch := omega) [decodeTx, check, wf?, wOnly?, Cond.code, Cond.of?, FCond.code, FCond.of?, Size.code, Size.of, ASize.code, ASize.of?, ASize.bit, ASize.ofBit, RedOp.code, RedOp.of?, Scope.code, Scope.of?, MTy.code, MTy.of?, extract_lo_1_15, extract_hi_1_15, extract_lo_1_3, extract_hi_1_3, extract_lo_10_6, extract_hi_10_6, extract_lo_15_8, extract_hi_15_8, extract_lo_18_5, extract_hi_18_5, extract_lo_3_2, extract_hi_3_2, extract_lo_4_1, extract_hi_4_1, pred?_low, vlds_fn, extract_all, hw]

theorem txst (d : RegNo) : Statement (.txst d) := by
  intro _ hw
  rw [show encode (.txst d) = FmtT.pack 0x20 ⟨5#3, 0#18 ++ d⟩ from rfl, decode, FmtT.major_pack, FmtT.unpack_pack]
  simp (disch := omega) [decodeTx, check, wf?, wOnly?, Cond.code, Cond.of?, FCond.code, FCond.of?, Size.code, Size.of, ASize.code, ASize.of?, ASize.bit, ASize.ofBit, RedOp.code, RedOp.of?, Scope.code, Scope.of?, MTy.code, MTy.of?, extract_lo_1_15, extract_hi_1_15, extract_lo_1_3, extract_hi_1_3, extract_lo_10_6, extract_hi_10_6, extract_lo_15_8, extract_hi_15_8, extract_lo_18_5, extract_hi_18_5, extract_lo_3_2, extract_hi_3_2, extract_lo_4_1, extract_hi_4_1, pred?_low, vlds_fn, extract_all, hw]

theorem vld (d : RegNo) (a : RegNo) (la : BitVec 4) (x : Bool) (m : PredNo) (off : BitVec 7) : Statement (.vld d a la x m off) := by
  intro _ hw
  rw [show encode (.vld d a la x m off) = FmtMV.pack 0x21 ⟨d, a, la, BitVec.ofBool x, m, 0#1, off⟩ from rfl, decode, FmtMV.major_pack, FmtMV.unpack_pack]
  cases x <;> rfl

theorem vldC (d : RegNo) (a : RegNo) (la : BitVec 4) (x : Bool) (m : PredNo) (off : BitVec 7) : Statement (.vldC d a la x m off) := by
  intro _ hw
  rw [show encode (.vldC d a la x m off) = FmtMV.pack 0x21 ⟨d, a, la, BitVec.ofBool x, m, 1#1, off⟩ from rfl, decode, FmtMV.major_pack, FmtMV.unpack_pack]
  cases x <;> rfl

theorem vst (d : RegNo) (a : RegNo) (la : BitVec 4) (x : Bool) (m : PredNo) (off : BitVec 7) : Statement (.vst d a la x m off) := by
  intro _ hw
  rw [show encode (.vst d a la x m off) = FmtMV.pack 0x22 ⟨d, a, la, BitVec.ofBool x, m, 0#1, off⟩ from rfl, decode, FmtMV.major_pack, FmtMV.unpack_pack]
  cases x <;> rfl

theorem vldx (d : RegNo) (a : RegNo) (b : RegNo) (la : BitVec 4) (x : Bool) (sz : Size) (m : PredNo) (z : Bool) : Statement (.vldx d a b la x sz m z) := by
  intro _ hw
  rw [show encode (.vldx d a b la x sz m z) = FmtMX.pack 0x23 ⟨d, a, b, la, BitVec.ofBool x, sz.code, m, BitVec.ofBool z⟩ from rfl, decode, FmtMX.major_pack, FmtMX.unpack_pack]
  cases x <;> cases sz <;> cases z <;> simp (disch := omega) [decodeVldx, check, wf?, wOnly?, Cond.code, Cond.of?, FCond.code, FCond.of?, Size.code, Size.of, ASize.code, ASize.of?, ASize.bit, ASize.ofBit, RedOp.code, RedOp.of?, Scope.code, Scope.of?, MTy.code, MTy.of?, extract_lo_1_15, extract_hi_1_15, extract_lo_1_3, extract_hi_1_3, extract_lo_10_6, extract_hi_10_6, extract_lo_15_8, extract_hi_15_8, extract_lo_18_5, extract_hi_18_5, extract_lo_3_2, extract_hi_3_2, extract_lo_4_1, extract_hi_4_1, pred?_low, vlds_fn, extract_all, hw]

theorem vstx (d : RegNo) (a : RegNo) (b : RegNo) (la : BitVec 4) (x : Bool) (sz : Size) (m : PredNo) : Statement (.vstx d a b la x sz m) := by
  intro _ hw
  rw [show encode (.vstx d a b la x sz m) = FmtMX.pack 0x24 ⟨d, a, b, la, BitVec.ofBool x, sz.code, m, 0#1⟩ from rfl, decode, FmtMX.major_pack, FmtMX.unpack_pack]
  cases x <;> cases sz <;> simp (disch := omega) [decodeVstx, check, wf?, wOnly?, Cond.code, Cond.of?, FCond.code, FCond.of?, Size.code, Size.of, ASize.code, ASize.of?, ASize.bit, ASize.ofBit, RedOp.code, RedOp.of?, Scope.code, Scope.of?, MTy.code, MTy.of?, extract_lo_1_15, extract_hi_1_15, extract_lo_1_3, extract_hi_1_3, extract_lo_10_6, extract_hi_10_6, extract_lo_15_8, extract_hi_15_8, extract_lo_18_5, extract_hi_18_5, extract_lo_3_2, extract_hi_3_2, extract_lo_4_1, extract_hi_4_1, pred?_low, vlds_fn, extract_all, hw]

theorem vlds (d : RegNo) (a : RegNo) (b : RegNo) (la : BitVec 4) (m : PredNo) (x : Bool) : Statement (.vlds d a b la m x) := by
  intro _ hw
  rw [show encode (.vlds d a b la m x) = FmtR.pack 0x25 ⟨d, a, b, la, 0#1 ++ m ++ BitVec.ofBool x ++ 0#2⟩ from rfl, decode, FmtR.major_pack, FmtR.unpack_pack]
  cases x <;> simp (disch := omega) [decodeVlds, check, wf?, wOnly?, Cond.code, Cond.of?, FCond.code, FCond.of?, Size.code, Size.of, ASize.code, ASize.of?, ASize.bit, ASize.ofBit, RedOp.code, RedOp.of?, Scope.code, Scope.of?, MTy.code, MTy.of?, extract_lo_1_15, extract_hi_1_15, extract_lo_1_3, extract_hi_1_3, extract_lo_10_6, extract_hi_10_6, extract_lo_15_8, extract_hi_15_8, extract_lo_18_5, extract_hi_18_5, extract_lo_3_2, extract_hi_3_2, extract_lo_4_1, extract_hi_4_1, pred?_low, vlds_fn, extract_all, hw]

theorem vsts (d : RegNo) (a : RegNo) (b : RegNo) (la : BitVec 4) (m : PredNo) (x : Bool) : Statement (.vsts d a b la m x) := by
  intro _ hw
  rw [show encode (.vsts d a b la m x) = FmtR.pack 0x25 ⟨d, a, b, la, 0#1 ++ m ++ BitVec.ofBool x ++ 1#2⟩ from rfl, decode, FmtR.major_pack, FmtR.unpack_pack]
  cases x <;> simp (disch := omega) [decodeVlds, check, wf?, wOnly?, Cond.code, Cond.of?, FCond.code, FCond.of?, Size.code, Size.of, ASize.code, ASize.of?, ASize.bit, ASize.ofBit, RedOp.code, RedOp.of?, Scope.code, Scope.of?, MTy.code, MTy.of?, extract_lo_1_15, extract_hi_1_15, extract_lo_1_3, extract_hi_1_3, extract_lo_10_6, extract_hi_10_6, extract_lo_15_8, extract_hi_15_8, extract_lo_18_5, extract_hi_18_5, extract_lo_3_2, extract_hi_3_2, extract_lo_4_1, extract_hi_4_1, pred?_low, vlds_fn, extract_all, hw]

theorem vadd (d : RegNo) (a : RegNo) (b : RegNo) (m : PredNo) : Statement (.vadd d a b m) := by
  intro _ hw
  rw [show encode (.vadd d a b m) = FmtV.pack 0x26 ⟨d, a, b, 0#4, m, 0#4⟩ from rfl, decode, FmtV.major_pack, FmtV.unpack_pack]
  rfl

theorem vsub (d : RegNo) (a : RegNo) (b : RegNo) (m : PredNo) : Statement (.vsub d a b m) := by
  intro _ hw
  rw [show encode (.vsub d a b m) = FmtV.pack 0x26 ⟨d, a, b, 0#4, m, 1#4⟩ from rfl, decode, FmtV.major_pack, FmtV.unpack_pack]
  rfl

theorem vmul (d : RegNo) (a : RegNo) (b : RegNo) (m : PredNo) : Statement (.vmul d a b m) := by
  intro _ hw
  rw [show encode (.vmul d a b m) = FmtV.pack 0x26 ⟨d, a, b, 0#4, m, 2#4⟩ from rfl, decode, FmtV.major_pack, FmtV.unpack_pack]
  rfl

theorem vmulh (d : RegNo) (a : RegNo) (b : RegNo) (m : PredNo) : Statement (.vmulh d a b m) := by
  intro _ hw
  rw [show encode (.vmulh d a b m) = FmtV.pack 0x26 ⟨d, a, b, 0#4, m, 3#4⟩ from rfl, decode, FmtV.major_pack, FmtV.unpack_pack]
  rfl

theorem vand (d : RegNo) (a : RegNo) (b : RegNo) (m : PredNo) : Statement (.vand d a b m) := by
  intro _ hw
  rw [show encode (.vand d a b m) = FmtV.pack 0x26 ⟨d, a, b, 0#4, m, 4#4⟩ from rfl, decode, FmtV.major_pack, FmtV.unpack_pack]
  rfl

theorem vor (d : RegNo) (a : RegNo) (b : RegNo) (m : PredNo) : Statement (.vor d a b m) := by
  intro _ hw
  rw [show encode (.vor d a b m) = FmtV.pack 0x26 ⟨d, a, b, 0#4, m, 5#4⟩ from rfl, decode, FmtV.major_pack, FmtV.unpack_pack]
  rfl

theorem vxor (d : RegNo) (a : RegNo) (b : RegNo) (m : PredNo) : Statement (.vxor d a b m) := by
  intro _ hw
  rw [show encode (.vxor d a b m) = FmtV.pack 0x26 ⟨d, a, b, 0#4, m, 6#4⟩ from rfl, decode, FmtV.major_pack, FmtV.unpack_pack]
  rfl

theorem vshl (d : RegNo) (a : RegNo) (b : RegNo) (m : PredNo) : Statement (.vshl d a b m) := by
  intro _ hw
  rw [show encode (.vshl d a b m) = FmtV.pack 0x26 ⟨d, a, b, 0#4, m, 7#4⟩ from rfl, decode, FmtV.major_pack, FmtV.unpack_pack]
  rfl

theorem vshr (d : RegNo) (a : RegNo) (b : RegNo) (m : PredNo) : Statement (.vshr d a b m) := by
  intro _ hw
  rw [show encode (.vshr d a b m) = FmtV.pack 0x26 ⟨d, a, b, 0#4, m, 8#4⟩ from rfl, decode, FmtV.major_pack, FmtV.unpack_pack]
  rfl

theorem vsra (d : RegNo) (a : RegNo) (b : RegNo) (m : PredNo) : Statement (.vsra d a b m) := by
  intro _ hw
  rw [show encode (.vsra d a b m) = FmtV.pack 0x26 ⟨d, a, b, 0#4, m, 9#4⟩ from rfl, decode, FmtV.major_pack, FmtV.unpack_pack]
  rfl

theorem vmin (d : RegNo) (a : RegNo) (b : RegNo) (m : PredNo) : Statement (.vmin d a b m) := by
  intro _ hw
  rw [show encode (.vmin d a b m) = FmtV.pack 0x26 ⟨d, a, b, 0#4, m, 10#4⟩ from rfl, decode, FmtV.major_pack, FmtV.unpack_pack]
  rfl

theorem vmax (d : RegNo) (a : RegNo) (b : RegNo) (m : PredNo) : Statement (.vmax d a b m) := by
  intro _ hw
  rw [show encode (.vmax d a b m) = FmtV.pack 0x26 ⟨d, a, b, 0#4, m, 11#4⟩ from rfl, decode, FmtV.major_pack, FmtV.unpack_pack]
  rfl

theorem vminn (d : RegNo) (a : RegNo) (b : RegNo) (m : PredNo) : Statement (.vminn d a b m) := by
  intro _ hw
  rw [show encode (.vminn d a b m) = FmtV.pack 0x26 ⟨d, a, b, 0#4, m, 12#4⟩ from rfl, decode, FmtV.major_pack, FmtV.unpack_pack]
  rfl

theorem vmaxn (d : RegNo) (a : RegNo) (b : RegNo) (m : PredNo) : Statement (.vmaxn d a b m) := by
  intro _ hw
  rw [show encode (.vmaxn d a b m) = FmtV.pack 0x26 ⟨d, a, b, 0#4, m, 13#4⟩ from rfl, decode, FmtV.major_pack, FmtV.unpack_pack]
  rfl

theorem vabs (d : RegNo) (a : RegNo) (m : PredNo) : Statement (.vabs d a m) := by
  intro _ hw
  rw [show encode (.vabs d a m) = FmtV.pack 0x26 ⟨d, a, 0#5, 0#4, m, 14#4⟩ from rfl, decode, FmtV.major_pack, FmtV.unpack_pack]
  rfl

theorem vneg (d : RegNo) (a : RegNo) (m : PredNo) : Statement (.vneg d a m) := by
  intro _ hw
  rw [show encode (.vneg d a m) = FmtV.pack 0x26 ⟨d, a, 0#5, 0#4, m, 15#4⟩ from rfl, decode, FmtV.major_pack, FmtV.unpack_pack]
  rfl

theorem vcmp (d : PredNo) (a : RegNo) (b : RegNo) (m : PredNo) (cc : Cond) : Statement (.vcmp d a b m cc) := by
  intro _ hw
  rw [show encode (.vcmp d a b m cc) = FmtV.pack 0x27 ⟨(0#2 ++ d), a, b, 0#4, m, 0#1 ++ cc.code⟩ from rfl, decode, FmtV.major_pack, FmtV.unpack_pack]
  cases cc <;> simp (disch := omega) [decodeVint2, check, wf?, wOnly?, Cond.code, Cond.of?, FCond.code, FCond.of?, Size.code, Size.of, ASize.code, ASize.of?, ASize.bit, ASize.ofBit, RedOp.code, RedOp.of?, Scope.code, Scope.of?, MTy.code, MTy.of?, extract_lo_1_15, extract_hi_1_15, extract_lo_1_3, extract_hi_1_3, extract_lo_10_6, extract_hi_10_6, extract_lo_15_8, extract_hi_15_8, extract_lo_18_5, extract_hi_18_5, extract_lo_3_2, extract_hi_3_2, extract_lo_4_1, extract_hi_4_1, pred?_low, vlds_fn, extract_all, hw]

theorem vsel (d : RegNo) (a : RegNo) (b : RegNo) (m : PredNo) : Statement (.vsel d a b m) := by
  intro _ hw
  rw [show encode (.vsel d a b m) = FmtV.pack 0x27 ⟨d, a, b, 0#4, m, 8#4⟩ from rfl, decode, FmtV.major_pack, FmtV.unpack_pack]
  rfl

theorem vclz (d : RegNo) (a : RegNo) (m : PredNo) : Statement (.vclz d a m) := by
  intro _ hw
  rw [show encode (.vclz d a m) = FmtV.pack 0x27 ⟨d, a, 0#5, 0#4, m, 9#4⟩ from rfl, decode, FmtV.major_pack, FmtV.unpack_pack]
  rfl

theorem vpopc (d : RegNo) (a : RegNo) (m : PredNo) : Statement (.vpopc d a m) := by
  intro _ hw
  rw [show encode (.vpopc d a m) = FmtV.pack 0x27 ⟨d, a, 0#5, 0#4, m, 10#4⟩ from rfl, decode, FmtV.major_pack, FmtV.unpack_pack]
  rfl

theorem vfadd (d : RegNo) (a : RegNo) (b : RegNo) (m : PredNo) : Statement (.vfadd d a b m) := by
  intro _ hw
  rw [show encode (.vfadd d a b m) = FmtV.pack 0x28 ⟨d, a, b, 0#4, m, 0#4⟩ from rfl, decode, FmtV.major_pack, FmtV.unpack_pack]
  rfl

theorem vfsub (d : RegNo) (a : RegNo) (b : RegNo) (m : PredNo) : Statement (.vfsub d a b m) := by
  intro _ hw
  rw [show encode (.vfsub d a b m) = FmtV.pack 0x28 ⟨d, a, b, 0#4, m, 1#4⟩ from rfl, decode, FmtV.major_pack, FmtV.unpack_pack]
  rfl

theorem vfmul (d : RegNo) (a : RegNo) (b : RegNo) (m : PredNo) : Statement (.vfmul d a b m) := by
  intro _ hw
  rw [show encode (.vfmul d a b m) = FmtV.pack 0x28 ⟨d, a, b, 0#4, m, 2#4⟩ from rfl, decode, FmtV.major_pack, FmtV.unpack_pack]
  rfl

theorem vfmin (d : RegNo) (a : RegNo) (b : RegNo) (m : PredNo) : Statement (.vfmin d a b m) := by
  intro _ hw
  rw [show encode (.vfmin d a b m) = FmtV.pack 0x28 ⟨d, a, b, 0#4, m, 3#4⟩ from rfl, decode, FmtV.major_pack, FmtV.unpack_pack]
  rfl

theorem vfmax (d : RegNo) (a : RegNo) (b : RegNo) (m : PredNo) : Statement (.vfmax d a b m) := by
  intro _ hw
  rw [show encode (.vfmax d a b m) = FmtV.pack 0x28 ⟨d, a, b, 0#4, m, 4#4⟩ from rfl, decode, FmtV.major_pack, FmtV.unpack_pack]
  rfl

theorem vfabs (d : RegNo) (a : RegNo) (m : PredNo) : Statement (.vfabs d a m) := by
  intro _ hw
  rw [show encode (.vfabs d a m) = FmtV.pack 0x28 ⟨d, a, 0#5, 0#4, m, 5#4⟩ from rfl, decode, FmtV.major_pack, FmtV.unpack_pack]
  rfl

theorem vfneg (d : RegNo) (a : RegNo) (m : PredNo) : Statement (.vfneg d a m) := by
  intro _ hw
  rw [show encode (.vfneg d a m) = FmtV.pack 0x28 ⟨d, a, 0#5, 0#4, m, 6#4⟩ from rfl, decode, FmtV.major_pack, FmtV.unpack_pack]
  rfl

theorem vfcmp (d : PredNo) (a : RegNo) (b : RegNo) (m : PredNo) (cc : FCond) : Statement (.vfcmp d a b m cc) := by
  intro _ hw
  rw [show encode (.vfcmp d a b m cc) = FmtV.pack 0x28 ⟨(0#2 ++ d), a, b, 0#4, m, 1#1 ++ cc.code⟩ from rfl, decode, FmtV.major_pack, FmtV.unpack_pack]
  cases cc <;> simp (disch := omega) [decodeVfp, check, wf?, wOnly?, Cond.code, Cond.of?, FCond.code, FCond.of?, Size.code, Size.of, ASize.code, ASize.of?, ASize.bit, ASize.ofBit, RedOp.code, RedOp.of?, Scope.code, Scope.of?, MTy.code, MTy.of?, extract_lo_1_15, extract_hi_1_15, extract_lo_1_3, extract_hi_1_3, extract_lo_10_6, extract_hi_10_6, extract_lo_15_8, extract_hi_15_8, extract_lo_18_5, extract_hi_18_5, extract_lo_3_2, extract_hi_3_2, extract_lo_4_1, extract_hi_4_1, pred?_low, vlds_fn, extract_all, hw]

theorem vfma (d : RegNo) (a : RegNo) (b : RegNo) (c : RegNo) (m : PredNo) : Statement (.vfma d a b c m) := by
  intro _ hw
  rw [show encode (.vfma d a b c m) = FmtVC.pack 0x29 ⟨d, a, b, c, m, 0#3⟩ from rfl, decode, FmtVC.major_pack, FmtVC.unpack_pack]
  rfl

theorem vfms (d : RegNo) (a : RegNo) (b : RegNo) (c : RegNo) (m : PredNo) : Statement (.vfms d a b c m) := by
  intro _ hw
  rw [show encode (.vfms d a b c m) = FmtVC.pack 0x29 ⟨d, a, b, c, m, 1#3⟩ from rfl, decode, FmtVC.major_pack, FmtVC.unpack_pack]
  rfl

theorem vfnma (d : RegNo) (a : RegNo) (b : RegNo) (c : RegNo) (m : PredNo) : Statement (.vfnma d a b c m) := by
  intro _ hw
  rw [show encode (.vfnma d a b c m) = FmtVC.pack 0x29 ⟨d, a, b, c, m, 2#3⟩ from rfl, decode, FmtVC.major_pack, FmtVC.unpack_pack]
  rfl

theorem vma (d : RegNo) (a : RegNo) (b : RegNo) (c : RegNo) (m : PredNo) : Statement (.vma d a b c m) := by
  intro _ hw
  rw [show encode (.vma d a b c m) = FmtVC.pack 0x29 ⟨d, a, b, c, m, 4#3⟩ from rfl, decode, FmtVC.major_pack, FmtVC.unpack_pack]
  rfl

theorem vfdiv (d : RegNo) (a : RegNo) (b : RegNo) (la : BitVec 4) (m : PredNo) : Statement (.vfdiv d a b la m) := by
  intro _ hw
  rw [show encode (.vfdiv d a b la m) = FmtV.pack 0x2A ⟨d, a, b, la, m, 0#4⟩ from rfl, decode, FmtV.major_pack, FmtV.unpack_pack]
  rfl

theorem vfsqrt (d : RegNo) (a : RegNo) (la : BitVec 4) (m : PredNo) : Statement (.vfsqrt d a la m) := by
  intro _ hw
  rw [show encode (.vfsqrt d a la m) = FmtV.pack 0x2A ⟨d, a, 0#5, la, m, 1#4⟩ from rfl, decode, FmtV.major_pack, FmtV.unpack_pack]
  rfl

theorem vfrcp (d : RegNo) (a : RegNo) (la : BitVec 4) (m : PredNo) : Statement (.vfrcp d a la m) := by
  intro _ hw
  rw [show encode (.vfrcp d a la m) = FmtV.pack 0x2A ⟨d, a, 0#5, la, m, 2#4⟩ from rfl, decode, FmtV.major_pack, FmtV.unpack_pack]
  rfl

theorem vfrsq (d : RegNo) (a : RegNo) (la : BitVec 4) (m : PredNo) : Statement (.vfrsq d a la m) := by
  intro _ hw
  rw [show encode (.vfrsq d a la m) = FmtV.pack 0x2A ⟨d, a, 0#5, la, m, 3#4⟩ from rfl, decode, FmtV.major_pack, FmtV.unpack_pack]
  rfl

theorem vfexp2 (d : RegNo) (a : RegNo) (la : BitVec 4) (m : PredNo) : Statement (.vfexp2 d a la m) := by
  intro _ hw
  rw [show encode (.vfexp2 d a la m) = FmtV.pack 0x2A ⟨d, a, 0#5, la, m, 4#4⟩ from rfl, decode, FmtV.major_pack, FmtV.unpack_pack]
  rfl

theorem vflog2 (d : RegNo) (a : RegNo) (la : BitVec 4) (m : PredNo) : Statement (.vflog2 d a la m) := by
  intro _ hw
  rw [show encode (.vflog2 d a la m) = FmtV.pack 0x2A ⟨d, a, 0#5, la, m, 5#4⟩ from rfl, decode, FmtV.major_pack, FmtV.unpack_pack]
  rfl

theorem vcvtF2bf (d : RegNo) (a : RegNo) (b : RegNo) (m : PredNo) : Statement (.vcvtF2bf d a b m) := by
  intro _ hw
  rw [show encode (.vcvtF2bf d a b m) = FmtV.pack 0x2B ⟨d, a, b, 0#4, m, 0#4⟩ from rfl, decode, FmtV.major_pack, FmtV.unpack_pack]
  rfl

theorem vcvtBf2f (d : RegNo) (a : RegNo) (h : Bool) (m : PredNo) : Statement (.vcvtBf2f d a h m) := by
  intro _ hw
  rw [show encode (.vcvtBf2f d a h m) = FmtV.pack 0x2B ⟨d, a, 0#4 ++ BitVec.ofBool h, 0#4, m, 1#4⟩ from rfl, decode, FmtV.major_pack, FmtV.unpack_pack]
  cases h <;> simp (disch := omega) [decodeVcvt, check, wf?, wOnly?, Cond.code, Cond.of?, FCond.code, FCond.of?, Size.code, Size.of, ASize.code, ASize.of?, ASize.bit, ASize.ofBit, RedOp.code, RedOp.of?, Scope.code, Scope.of?, MTy.code, MTy.of?, extract_lo_1_15, extract_hi_1_15, extract_lo_1_3, extract_hi_1_3, extract_lo_10_6, extract_hi_10_6, extract_lo_15_8, extract_hi_15_8, extract_lo_18_5, extract_hi_18_5, extract_lo_3_2, extract_hi_3_2, extract_lo_4_1, extract_hi_4_1, pred?_low, vlds_fn, extract_all, hw]

theorem vcvtF2h (d : RegNo) (a : RegNo) (b : RegNo) (m : PredNo) : Statement (.vcvtF2h d a b m) := by
  intro _ hw
  rw [show encode (.vcvtF2h d a b m) = FmtV.pack 0x2B ⟨d, a, b, 0#4, m, 2#4⟩ from rfl, decode, FmtV.major_pack, FmtV.unpack_pack]
  rfl

theorem vcvtH2f (d : RegNo) (a : RegNo) (h : Bool) (m : PredNo) : Statement (.vcvtH2f d a h m) := by
  intro _ hw
  rw [show encode (.vcvtH2f d a h m) = FmtV.pack 0x2B ⟨d, a, 0#4 ++ BitVec.ofBool h, 0#4, m, 3#4⟩ from rfl, decode, FmtV.major_pack, FmtV.unpack_pack]
  cases h <;> simp (disch := omega) [decodeVcvt, check, wf?, wOnly?, Cond.code, Cond.of?, FCond.code, FCond.of?, Size.code, Size.of, ASize.code, ASize.of?, ASize.bit, ASize.ofBit, RedOp.code, RedOp.of?, Scope.code, Scope.of?, MTy.code, MTy.of?, extract_lo_1_15, extract_hi_1_15, extract_lo_1_3, extract_hi_1_3, extract_lo_10_6, extract_hi_10_6, extract_lo_15_8, extract_hi_15_8, extract_lo_18_5, extract_hi_18_5, extract_lo_3_2, extract_hi_3_2, extract_lo_4_1, extract_hi_4_1, pred?_low, vlds_fn, extract_all, hw]

theorem vcvtF2e4 (d : RegNo) (a : RegNo) (k : BitVec 2) (m : PredNo) : Statement (.vcvtF2e4 d a k m) := by
  intro _ hw
  rw [show encode (.vcvtF2e4 d a k m) = FmtV.pack 0x2B ⟨d, a, 0#3 ++ k, 0#4, m, 4#4⟩ from rfl, decode, FmtV.major_pack, FmtV.unpack_pack]
  simp (disch := omega) [decodeVcvt, check, wf?, wOnly?, Cond.code, Cond.of?, FCond.code, FCond.of?, Size.code, Size.of, ASize.code, ASize.of?, ASize.bit, ASize.ofBit, RedOp.code, RedOp.of?, Scope.code, Scope.of?, MTy.code, MTy.of?, extract_lo_1_15, extract_hi_1_15, extract_lo_1_3, extract_hi_1_3, extract_lo_10_6, extract_hi_10_6, extract_lo_15_8, extract_hi_15_8, extract_lo_18_5, extract_hi_18_5, extract_lo_3_2, extract_hi_3_2, extract_lo_4_1, extract_hi_4_1, pred?_low, vlds_fn, extract_all, hw]

theorem vcvtE42f (d : RegNo) (a : RegNo) (k : BitVec 2) (m : PredNo) : Statement (.vcvtE42f d a k m) := by
  intro _ hw
  rw [show encode (.vcvtE42f d a k m) = FmtV.pack 0x2B ⟨d, a, 0#3 ++ k, 0#4, m, 5#4⟩ from rfl, decode, FmtV.major_pack, FmtV.unpack_pack]
  simp (disch := omega) [decodeVcvt, check, wf?, wOnly?, Cond.code, Cond.of?, FCond.code, FCond.of?, Size.code, Size.of, ASize.code, ASize.of?, ASize.bit, ASize.ofBit, RedOp.code, RedOp.of?, Scope.code, Scope.of?, MTy.code, MTy.of?, extract_lo_1_15, extract_hi_1_15, extract_lo_1_3, extract_hi_1_3, extract_lo_10_6, extract_hi_10_6, extract_lo_15_8, extract_hi_15_8, extract_lo_18_5, extract_hi_18_5, extract_lo_3_2, extract_hi_3_2, extract_lo_4_1, extract_hi_4_1, pred?_low, vlds_fn, extract_all, hw]

theorem vcvtF2e5 (d : RegNo) (a : RegNo) (k : BitVec 2) (m : PredNo) : Statement (.vcvtF2e5 d a k m) := by
  intro _ hw
  rw [show encode (.vcvtF2e5 d a k m) = FmtV.pack 0x2B ⟨d, a, 0#3 ++ k, 0#4, m, 6#4⟩ from rfl, decode, FmtV.major_pack, FmtV.unpack_pack]
  simp (disch := omega) [decodeVcvt, check, wf?, wOnly?, Cond.code, Cond.of?, FCond.code, FCond.of?, Size.code, Size.of, ASize.code, ASize.of?, ASize.bit, ASize.ofBit, RedOp.code, RedOp.of?, Scope.code, Scope.of?, MTy.code, MTy.of?, extract_lo_1_15, extract_hi_1_15, extract_lo_1_3, extract_hi_1_3, extract_lo_10_6, extract_hi_10_6, extract_lo_15_8, extract_hi_15_8, extract_lo_18_5, extract_hi_18_5, extract_lo_3_2, extract_hi_3_2, extract_lo_4_1, extract_hi_4_1, pred?_low, vlds_fn, extract_all, hw]

theorem vcvtE52f (d : RegNo) (a : RegNo) (k : BitVec 2) (m : PredNo) : Statement (.vcvtE52f d a k m) := by
  intro _ hw
  rw [show encode (.vcvtE52f d a k m) = FmtV.pack 0x2B ⟨d, a, 0#3 ++ k, 0#4, m, 7#4⟩ from rfl, decode, FmtV.major_pack, FmtV.unpack_pack]
  simp (disch := omega) [decodeVcvt, check, wf?, wOnly?, Cond.code, Cond.of?, FCond.code, FCond.of?, Size.code, Size.of, ASize.code, ASize.of?, ASize.bit, ASize.ofBit, RedOp.code, RedOp.of?, Scope.code, Scope.of?, MTy.code, MTy.of?, extract_lo_1_15, extract_hi_1_15, extract_lo_1_3, extract_hi_1_3, extract_lo_10_6, extract_hi_10_6, extract_lo_15_8, extract_hi_15_8, extract_lo_18_5, extract_hi_18_5, extract_lo_3_2, extract_hi_3_2, extract_lo_4_1, extract_hi_4_1, pred?_low, vlds_fn, extract_all, hw]

theorem vcvtF2i (d : RegNo) (a : RegNo) (m : PredNo) : Statement (.vcvtF2i d a m) := by
  intro _ hw
  rw [show encode (.vcvtF2i d a m) = FmtV.pack 0x2B ⟨d, a, 0#5, 0#4, m, 8#4⟩ from rfl, decode, FmtV.major_pack, FmtV.unpack_pack]
  rfl

theorem vcvtI2f (d : RegNo) (a : RegNo) (m : PredNo) : Statement (.vcvtI2f d a m) := by
  intro _ hw
  rw [show encode (.vcvtI2f d a m) = FmtV.pack 0x2B ⟨d, a, 0#5, 0#4, m, 9#4⟩ from rfl, decode, FmtV.major_pack, FmtV.unpack_pack]
  rfl

theorem vcvtN2f (d : RegNo) (a : RegNo) (m : PredNo) : Statement (.vcvtN2f d a m) := by
  intro _ hw
  rw [show encode (.vcvtN2f d a m) = FmtV.pack 0x2B ⟨d, a, 0#5, 0#4, m, 10#4⟩ from rfl, decode, FmtV.major_pack, FmtV.unpack_pack]
  rfl

theorem vcvtF2n (d : RegNo) (a : RegNo) (m : PredNo) : Statement (.vcvtF2n d a m) := by
  intro _ hw
  rw [show encode (.vcvtF2n d a m) = FmtV.pack 0x2B ⟨d, a, 0#5, 0#4, m, 11#4⟩ from rfl, decode, FmtV.major_pack, FmtV.unpack_pack]
  rfl

theorem vcvtI2b (d : RegNo) (a : RegNo) (k : BitVec 2) (m : PredNo) : Statement (.vcvtI2b d a k m) := by
  intro _ hw
  rw [show encode (.vcvtI2b d a k m) = FmtV.pack 0x2B ⟨d, a, 0#3 ++ k, 0#4, m, 12#4⟩ from rfl, decode, FmtV.major_pack, FmtV.unpack_pack]
  simp (disch := omega) [decodeVcvt, check, wf?, wOnly?, Cond.code, Cond.of?, FCond.code, FCond.of?, Size.code, Size.of, ASize.code, ASize.of?, ASize.bit, ASize.ofBit, RedOp.code, RedOp.of?, Scope.code, Scope.of?, MTy.code, MTy.of?, extract_lo_1_15, extract_hi_1_15, extract_lo_1_3, extract_hi_1_3, extract_lo_10_6, extract_hi_10_6, extract_lo_15_8, extract_hi_15_8, extract_lo_18_5, extract_hi_18_5, extract_lo_3_2, extract_hi_3_2, extract_lo_4_1, extract_hi_4_1, pred?_low, vlds_fn, extract_all, hw]

theorem vcvtB2i (d : RegNo) (a : RegNo) (k : BitVec 2) (m : PredNo) : Statement (.vcvtB2i d a k m) := by
  intro _ hw
  rw [show encode (.vcvtB2i d a k m) = FmtV.pack 0x2B ⟨d, a, 0#3 ++ k, 0#4, m, 13#4⟩ from rfl, decode, FmtV.major_pack, FmtV.unpack_pack]
  simp (disch := omega) [decodeVcvt, check, wf?, wOnly?, Cond.code, Cond.of?, FCond.code, FCond.of?, Size.code, Size.of, ASize.code, ASize.of?, ASize.bit, ASize.ofBit, RedOp.code, RedOp.of?, Scope.code, Scope.of?, MTy.code, MTy.of?, extract_lo_1_15, extract_hi_1_15, extract_lo_1_3, extract_hi_1_3, extract_lo_10_6, extract_hi_10_6, extract_lo_15_8, extract_hi_15_8, extract_lo_18_5, extract_hi_18_5, extract_lo_3_2, extract_hi_3_2, extract_lo_4_1, extract_hi_4_1, pred?_low, vlds_fn, extract_all, hw]

theorem vbcast (d : RegNo) (a : RegNo) (m : PredNo) : Statement (.vbcast d a m) := by
  intro _ hw
  rw [show encode (.vbcast d a m) = FmtV.pack 0x2C ⟨d, a, 0#5, 0#4, m, 0#4⟩ from rfl, decode, FmtV.major_pack, FmtV.unpack_pack]
  rfl

theorem vext (d : RegNo) (a : RegNo) (b : RegNo) : Statement (.vext d a b) := by
  intro _ hw
  rw [show encode (.vext d a b) = FmtV.pack 0x2C ⟨d, a, b, 0#4, 0#3, 1#4⟩ from rfl, decode, FmtV.major_pack, FmtV.unpack_pack]
  rfl

theorem vins (d : RegNo) (a : RegNo) (b : RegNo) : Statement (.vins d a b) := by
  intro _ hw
  rw [show encode (.vins d a b) = FmtV.pack 0x2C ⟨d, a, b, 0#4, 0#3, 2#4⟩ from rfl, decode, FmtV.major_pack, FmtV.unpack_pack]
  rfl

theorem vperm (d : RegNo) (a : RegNo) (b : RegNo) (m : PredNo) : Statement (.vperm d a b m) := by
  intro _ hw
  rw [show encode (.vperm d a b m) = FmtV.pack 0x2C ⟨d, a, b, 0#4, m, 3#4⟩ from rfl, decode, FmtV.major_pack, FmtV.unpack_pack]
  rfl

theorem viota (d : RegNo) (m : PredNo) : Statement (.viota d m) := by
  intro _ hw
  rw [show encode (.viota d m) = FmtV.pack 0x2C ⟨d, 0#5, 0#5, 0#4, m, 4#4⟩ from rfl, decode, FmtV.major_pack, FmtV.unpack_pack]
  rfl

theorem vred (d : RegNo) (a : RegNo) (op : RedOp) (m : PredNo) : Statement (.vred d a op m) := by
  intro _ hw
  rw [show encode (.vred d a op m) = FmtV.pack 0x2C ⟨d, a, op.code, 0#4, m, 5#4⟩ from rfl, decode, FmtV.major_pack, FmtV.unpack_pack]
  cases op <;> rfl

theorem vscan (d : RegNo) (a : RegNo) (op : RedOp) (m : PredNo) : Statement (.vscan d a op m) := by
  intro _ hw
  rw [show encode (.vscan d a op m) = FmtV.pack 0x2C ⟨d, a, op.code, 0#4, m, 6#4⟩ from rfl, decode, FmtV.major_pack, FmtV.unpack_pack]
  cases op <;> rfl

theorem vcomp (d : RegNo) (a : RegNo) (m : PredNo) : Statement (.vcomp d a m) := by
  intro _ hw
  rw [show encode (.vcomp d a m) = FmtV.pack 0x2C ⟨d, a, 0#5, 0#4, m, 7#4⟩ from rfl, decode, FmtV.major_pack, FmtV.unpack_pack]
  rfl

theorem vslide (d : RegNo) (a : RegNo) (b : RegNo) (m : PredNo) : Statement (.vslide d a b m) := by
  intro _ hw
  rw [show encode (.vslide d a b m) = FmtV.pack 0x2C ⟨d, a, b, 0#4, m, 8#4⟩ from rfl, decode, FmtV.major_pack, FmtV.unpack_pack]
  rfl

theorem pand (d : PredNo) (a : PredNo) (b : PredNo) : Statement (.pand d a b) := by
  intro _ hw
  rw [show encode (.pand d a b) = FmtV.pack 0x2D ⟨(0#2 ++ d), (0#2 ++ a), (0#2 ++ b), 0#4, 0#3, 0#4⟩ from rfl, decode, FmtV.major_pack, FmtV.unpack_pack]
  simp (disch := omega) [decodePred, check, wf?, wOnly?, Cond.code, Cond.of?, FCond.code, FCond.of?, Size.code, Size.of, ASize.code, ASize.of?, ASize.bit, ASize.ofBit, RedOp.code, RedOp.of?, Scope.code, Scope.of?, MTy.code, MTy.of?, extract_lo_1_15, extract_hi_1_15, extract_lo_1_3, extract_hi_1_3, extract_lo_10_6, extract_hi_10_6, extract_lo_15_8, extract_hi_15_8, extract_lo_18_5, extract_hi_18_5, extract_lo_3_2, extract_hi_3_2, extract_lo_4_1, extract_hi_4_1, pred?_low, vlds_fn, extract_all, hw]

theorem por (d : PredNo) (a : PredNo) (b : PredNo) : Statement (.por d a b) := by
  intro _ hw
  rw [show encode (.por d a b) = FmtV.pack 0x2D ⟨(0#2 ++ d), (0#2 ++ a), (0#2 ++ b), 0#4, 0#3, 1#4⟩ from rfl, decode, FmtV.major_pack, FmtV.unpack_pack]
  simp (disch := omega) [decodePred, check, wf?, wOnly?, Cond.code, Cond.of?, FCond.code, FCond.of?, Size.code, Size.of, ASize.code, ASize.of?, ASize.bit, ASize.ofBit, RedOp.code, RedOp.of?, Scope.code, Scope.of?, MTy.code, MTy.of?, extract_lo_1_15, extract_hi_1_15, extract_lo_1_3, extract_hi_1_3, extract_lo_10_6, extract_hi_10_6, extract_lo_15_8, extract_hi_15_8, extract_lo_18_5, extract_hi_18_5, extract_lo_3_2, extract_hi_3_2, extract_lo_4_1, extract_hi_4_1, pred?_low, vlds_fn, extract_all, hw]

theorem pxor (d : PredNo) (a : PredNo) (b : PredNo) : Statement (.pxor d a b) := by
  intro _ hw
  rw [show encode (.pxor d a b) = FmtV.pack 0x2D ⟨(0#2 ++ d), (0#2 ++ a), (0#2 ++ b), 0#4, 0#3, 2#4⟩ from rfl, decode, FmtV.major_pack, FmtV.unpack_pack]
  simp (disch := omega) [decodePred, check, wf?, wOnly?, Cond.code, Cond.of?, FCond.code, FCond.of?, Size.code, Size.of, ASize.code, ASize.of?, ASize.bit, ASize.ofBit, RedOp.code, RedOp.of?, Scope.code, Scope.of?, MTy.code, MTy.of?, extract_lo_1_15, extract_hi_1_15, extract_lo_1_3, extract_hi_1_3, extract_lo_10_6, extract_hi_10_6, extract_lo_15_8, extract_hi_15_8, extract_lo_18_5, extract_hi_18_5, extract_lo_3_2, extract_hi_3_2, extract_lo_4_1, extract_hi_4_1, pred?_low, vlds_fn, extract_all, hw]

theorem pandn (d : PredNo) (a : PredNo) (b : PredNo) : Statement (.pandn d a b) := by
  intro _ hw
  rw [show encode (.pandn d a b) = FmtV.pack 0x2D ⟨(0#2 ++ d), (0#2 ++ a), (0#2 ++ b), 0#4, 0#3, 3#4⟩ from rfl, decode, FmtV.major_pack, FmtV.unpack_pack]
  simp (disch := omega) [decodePred, check, wf?, wOnly?, Cond.code, Cond.of?, FCond.code, FCond.of?, Size.code, Size.of, ASize.code, ASize.of?, ASize.bit, ASize.ofBit, RedOp.code, RedOp.of?, Scope.code, Scope.of?, MTy.code, MTy.of?, extract_lo_1_15, extract_hi_1_15, extract_lo_1_3, extract_hi_1_3, extract_lo_10_6, extract_hi_10_6, extract_lo_15_8, extract_hi_15_8, extract_lo_18_5, extract_hi_18_5, extract_lo_3_2, extract_hi_3_2, extract_lo_4_1, extract_hi_4_1, pred?_low, vlds_fn, extract_all, hw]

theorem pnot (d : PredNo) (a : PredNo) : Statement (.pnot d a) := by
  intro _ hw
  rw [show encode (.pnot d a) = FmtV.pack 0x2D ⟨(0#2 ++ d), (0#2 ++ a), 0#5, 0#4, 0#3, 4#4⟩ from rfl, decode, FmtV.major_pack, FmtV.unpack_pack]
  simp (disch := omega) [decodePred, check, wf?, wOnly?, Cond.code, Cond.of?, FCond.code, FCond.of?, Size.code, Size.of, ASize.code, ASize.of?, ASize.bit, ASize.ofBit, RedOp.code, RedOp.of?, Scope.code, Scope.of?, MTy.code, MTy.of?, extract_lo_1_15, extract_hi_1_15, extract_lo_1_3, extract_hi_1_3, extract_lo_10_6, extract_hi_10_6, extract_lo_15_8, extract_hi_15_8, extract_lo_18_5, extract_hi_18_5, extract_lo_3_2, extract_hi_3_2, extract_lo_4_1, extract_hi_4_1, pred?_low, vlds_fn, extract_all, hw]

theorem pcnt (d : RegNo) (a : PredNo) : Statement (.pcnt d a) := by
  intro _ hw
  rw [show encode (.pcnt d a) = FmtV.pack 0x2D ⟨d, (0#2 ++ a), 0#5, 0#4, 0#3, 5#4⟩ from rfl, decode, FmtV.major_pack, FmtV.unpack_pack]
  simp (disch := omega) [decodePred, check, wf?, wOnly?, Cond.code, Cond.of?, FCond.code, FCond.of?, Size.code, Size.of, ASize.code, ASize.of?, ASize.bit, ASize.ofBit, RedOp.code, RedOp.of?, Scope.code, Scope.of?, MTy.code, MTy.of?, extract_lo_1_15, extract_hi_1_15, extract_lo_1_3, extract_hi_1_3, extract_lo_10_6, extract_hi_10_6, extract_lo_15_8, extract_hi_15_8, extract_lo_18_5, extract_hi_18_5, extract_lo_3_2, extract_hi_3_2, extract_lo_4_1, extract_hi_4_1, pred?_low, vlds_fn, extract_all, hw]

theorem pfirst (d : RegNo) (a : PredNo) : Statement (.pfirst d a) := by
  intro _ hw
  rw [show encode (.pfirst d a) = FmtV.pack 0x2D ⟨d, (0#2 ++ a), 0#5, 0#4, 0#3, 6#4⟩ from rfl, decode, FmtV.major_pack, FmtV.unpack_pack]
  simp (disch := omega) [decodePred, check, wf?, wOnly?, Cond.code, Cond.of?, FCond.code, FCond.of?, Size.code, Size.of, ASize.code, ASize.of?, ASize.bit, ASize.ofBit, RedOp.code, RedOp.of?, Scope.code, Scope.of?, MTy.code, MTy.of?, extract_lo_1_15, extract_hi_1_15, extract_lo_1_3, extract_hi_1_3, extract_lo_10_6, extract_hi_10_6, extract_lo_15_8, extract_hi_15_8, extract_lo_18_5, extract_hi_18_5, extract_lo_3_2, extract_hi_3_2, extract_lo_4_1, extract_hi_4_1, pred?_low, vlds_fn, extract_all, hw]

theorem pset (d : PredNo) (a : RegNo) : Statement (.pset d a) := by
  intro _ hw
  rw [show encode (.pset d a) = FmtV.pack 0x2D ⟨(0#2 ++ d), a, 0#5, 0#4, 0#3, 7#4⟩ from rfl, decode, FmtV.major_pack, FmtV.unpack_pack]
  simp (disch := omega) [decodePred, check, wf?, wOnly?, Cond.code, Cond.of?, FCond.code, FCond.of?, Size.code, Size.of, ASize.code, ASize.of?, ASize.bit, ASize.ofBit, RedOp.code, RedOp.of?, Scope.code, Scope.of?, MTy.code, MTy.of?, extract_lo_1_15, extract_hi_1_15, extract_lo_1_3, extract_hi_1_3, extract_lo_10_6, extract_hi_10_6, extract_lo_15_8, extract_hi_15_8, extract_lo_18_5, extract_hi_18_5, extract_lo_3_2, extract_hi_3_2, extract_lo_4_1, extract_hi_4_1, pred?_low, vlds_fn, extract_all, hw]

theorem pgets (d : RegNo) (a : PredNo) : Statement (.pgets d a) := by
  intro _ hw
  rw [show encode (.pgets d a) = FmtV.pack 0x2D ⟨d, (0#2 ++ a), 0#5, 0#4, 0#3, 8#4⟩ from rfl, decode, FmtV.major_pack, FmtV.unpack_pack]
  simp (disch := omega) [decodePred, check, wf?, wOnly?, Cond.code, Cond.of?, FCond.code, FCond.of?, Size.code, Size.of, ASize.code, ASize.of?, ASize.bit, ASize.ofBit, RedOp.code, RedOp.of?, Scope.code, Scope.of?, MTy.code, MTy.of?, extract_lo_1_15, extract_hi_1_15, extract_lo_1_3, extract_hi_1_3, extract_lo_10_6, extract_hi_10_6, extract_lo_15_8, extract_hi_15_8, extract_lo_18_5, extract_hi_18_5, extract_lo_3_2, extract_hi_3_2, extract_lo_4_1, extract_hi_4_1, pred?_low, vlds_fn, extract_all, hw]

theorem mma (md : PredNo) (a : RegNo) (b : RegNo) (ty : MTy) (t : Bool) (z : Bool) : Statement (.mma md a b ty t z) := by
  intro _ hw
  rw [show encode (.mma md a b ty t z) = FmtX.pack 0x2E ⟨md, a, b, 0#5, ty.code, 0#1 ++ BitVec.ofBool t ++ BitVec.ofBool z ++ 0#1⟩ from rfl, decode, FmtX.major_pack, FmtX.unpack_pack]
  cases ty <;> cases t <;> cases z <;> simp (disch := omega) [decodeMma, check, wf?, wOnly?, Cond.code, Cond.of?, FCond.code, FCond.of?, Size.code, Size.of, ASize.code, ASize.of?, ASize.bit, ASize.ofBit, RedOp.code, RedOp.of?, Scope.code, Scope.of?, MTy.code, MTy.of?, extract_lo_1_15, extract_hi_1_15, extract_lo_1_3, extract_hi_1_3, extract_lo_10_6, extract_hi_10_6, extract_lo_15_8, extract_hi_15_8, extract_lo_18_5, extract_hi_18_5, extract_lo_3_2, extract_hi_3_2, extract_lo_4_1, extract_hi_4_1, pred?_low, vlds_fn, extract_all, hw]

theorem mmaIx (md : PredNo) (a : RegNo) (b : RegNo) (v : RegNo) (ty : MTy) (t : Bool) (z : Bool) : Statement (.mmaIx md a b v ty t z) := by
  intro _ hw
  rw [show encode (.mmaIx md a b v ty t z) = FmtX.pack 0x2E ⟨md, a, b, v, ty.code, 0#1 ++ BitVec.ofBool t ++ BitVec.ofBool z ++ 1#1⟩ from rfl, decode, FmtX.major_pack, FmtX.unpack_pack]
  cases ty <;> cases t <;> cases z <;> simp (disch := omega) [decodeMma, check, wf?, wOnly?, Cond.code, Cond.of?, FCond.code, FCond.of?, Size.code, Size.of, ASize.code, ASize.of?, ASize.bit, ASize.ofBit, RedOp.code, RedOp.of?, Scope.code, Scope.of?, MTy.code, MTy.of?, extract_lo_1_15, extract_hi_1_15, extract_lo_1_3, extract_hi_1_3, extract_lo_10_6, extract_hi_10_6, extract_lo_15_8, extract_hi_15_8, extract_lo_18_5, extract_hi_18_5, extract_lo_3_2, extract_hi_3_2, extract_lo_4_1, extract_hi_4_1, pred?_low, vlds_fn, extract_all, hw]

theorem msp (md : PredNo) (a : RegNo) (b : RegNo) (v : RegNo) (ty : MTy) (t : Bool) (z : Bool) : Statement (.msp md a b v ty t z) := by
  intro _ hw
  rw [show encode (.msp md a b v ty t z) = FmtX.pack 0x2F ⟨md, a, b, v, ty.code, 0#1 ++ BitVec.ofBool t ++ BitVec.ofBool z ++ 0#1⟩ from rfl, decode, FmtX.major_pack, FmtX.unpack_pack]
  cases ty <;> cases t <;> cases z <;> simp (disch := omega) [decodeMsp, check, wf?, wOnly?, Cond.code, Cond.of?, FCond.code, FCond.of?, Size.code, Size.of, ASize.code, ASize.of?, ASize.bit, ASize.ofBit, RedOp.code, RedOp.of?, Scope.code, Scope.of?, MTy.code, MTy.of?, extract_lo_1_15, extract_hi_1_15, extract_lo_1_3, extract_hi_1_3, extract_lo_10_6, extract_hi_10_6, extract_lo_15_8, extract_hi_15_8, extract_lo_18_5, extract_hi_18_5, extract_lo_3_2, extract_hi_3_2, extract_lo_4_1, extract_hi_4_1, pred?_low, vlds_fn, extract_all, hw]

theorem mzero (d : PredNo) : Statement (.mzero d) := by
  intro _ hw
  rw [show encode (.mzero d) = FmtR.pack 0x30 ⟨(0#2 ++ d), 0#5, 0#5, 0#4, 0#7⟩ from rfl, decode, FmtR.major_pack, FmtR.unpack_pack]
  simp (disch := omega) [decodeMacc, check, wf?, wOnly?, Cond.code, Cond.of?, FCond.code, FCond.of?, Size.code, Size.of, ASize.code, ASize.of?, ASize.bit, ASize.ofBit, RedOp.code, RedOp.of?, Scope.code, Scope.of?, MTy.code, MTy.of?, extract_lo_1_15, extract_hi_1_15, extract_lo_1_3, extract_hi_1_3, extract_lo_10_6, extract_hi_10_6, extract_lo_15_8, extract_hi_15_8, extract_lo_18_5, extract_hi_18_5, extract_lo_3_2, extract_hi_3_2, extract_lo_4_1, extract_hi_4_1, pred?_low, vlds_fn, extract_all, hw]

theorem mlda (d : PredNo) (a : RegNo) : Statement (.mlda d a) := by
  intro _ hw
  rw [show encode (.mlda d a) = FmtR.pack 0x30 ⟨(0#2 ++ d), a, 0#5, 0#4, 1#7⟩ from rfl, decode, FmtR.major_pack, FmtR.unpack_pack]
  simp (disch := omega) [decodeMacc, check, wf?, wOnly?, Cond.code, Cond.of?, FCond.code, FCond.of?, Size.code, Size.of, ASize.code, ASize.of?, ASize.bit, ASize.ofBit, RedOp.code, RedOp.of?, Scope.code, Scope.of?, MTy.code, MTy.of?, extract_lo_1_15, extract_hi_1_15, extract_lo_1_3, extract_hi_1_3, extract_lo_10_6, extract_hi_10_6, extract_lo_15_8, extract_hi_15_8, extract_lo_18_5, extract_hi_18_5, extract_lo_3_2, extract_hi_3_2, extract_lo_4_1, extract_hi_4_1, pred?_low, vlds_fn, extract_all, hw]

theorem msta (d : PredNo) (a : RegNo) : Statement (.msta d a) := by
  intro _ hw
  rw [show encode (.msta d a) = FmtR.pack 0x30 ⟨(0#2 ++ d), a, 0#5, 0#4, 2#7⟩ from rfl, decode, FmtR.major_pack, FmtR.unpack_pack]
  simp (disch := omega) [decodeMacc, check, wf?, wOnly?, Cond.code, Cond.of?, FCond.code, FCond.of?, Size.code, Size.of, ASize.code, ASize.of?, ASize.bit, ASize.ofBit, RedOp.code, RedOp.of?, Scope.code, Scope.of?, MTy.code, MTy.of?, extract_lo_1_15, extract_hi_1_15, extract_lo_1_3, extract_hi_1_3, extract_lo_10_6, extract_hi_10_6, extract_lo_15_8, extract_hi_15_8, extract_lo_18_5, extract_hi_18_5, extract_lo_3_2, extract_hi_3_2, extract_lo_4_1, extract_hi_4_1, pred?_low, vlds_fn, extract_all, hw]

theorem mmov (d : PredNo) (a : PredNo) : Statement (.mmov d a) := by
  intro _ hw
  rw [show encode (.mmov d a) = FmtR.pack 0x30 ⟨(0#2 ++ d), (0#2 ++ a), 0#5, 0#4, 3#7⟩ from rfl, decode, FmtR.major_pack, FmtR.unpack_pack]
  simp (disch := omega) [decodeMacc, check, wf?, wOnly?, Cond.code, Cond.of?, FCond.code, FCond.of?, Size.code, Size.of, ASize.code, ASize.of?, ASize.bit, ASize.ofBit, RedOp.code, RedOp.of?, Scope.code, Scope.of?, MTy.code, MTy.of?, extract_lo_1_15, extract_hi_1_15, extract_lo_1_3, extract_hi_1_3, extract_lo_10_6, extract_hi_10_6, extract_lo_15_8, extract_hi_15_8, extract_lo_18_5, extract_hi_18_5, extract_lo_3_2, extract_hi_3_2, extract_lo_4_1, extract_hi_4_1, pred?_low, vlds_fn, extract_all, hw]

theorem mstat (d : RegNo) (la : BitVec 4) : Statement (.mstat d la) := by
  intro _ hw
  rw [show encode (.mstat d la) = FmtR.pack 0x30 ⟨d, 0#5, 0#5, la, 4#7⟩ from rfl, decode, FmtR.major_pack, FmtR.unpack_pack]
  rfl

theorem mwait (d : RegNo) (la : BitVec 4) : Statement (.mwait d la) := by
  intro _ hw
  rw [show encode (.mwait d la) = FmtR.pack 0x30 ⟨d, 0#5, 0#5, la, 5#7⟩ from rfl, decode, FmtR.major_pack, FmtR.unpack_pack]
  rfl

theorem cpy (a : RegNo) : Statement (.cpy a) := by
  intro _ hw
  rw [show encode (.cpy a) = FmtR.pack 0x31 ⟨0#5, a, 0#5, 0#4, 0#7⟩ from rfl, decode, FmtR.major_pack, FmtR.unpack_pack]
  rfl

theorem cpyx (a : RegNo) (b : RegNo) : Statement (.cpyx a b) := by
  intro _ hw
  rw [show encode (.cpyx a b) = FmtR.pack 0x31 ⟨0#5, a, b, 0#4, 1#7⟩ from rfl, decode, FmtR.major_pack, FmtR.unpack_pack]
  rfl

theorem coll (a : RegNo) : Statement (.coll a) := by
  intro _ hw
  rw [show encode (.coll a) = FmtR.pack 0x32 ⟨0#5, a, 0#5, 0#4, 0#7⟩ from rfl, decode, FmtR.major_pack, FmtR.unpack_pack]
  rfl

theorem qpush (g : RegNo) (q : BitVec 4) : Statement (.qpush g q) := by
  intro _ hw
  rw [show encode (.qpush g q) = FmtQ.pack 0x33 ⟨g, q, 0#4, 0#3, 0#10⟩ from rfl, decode, FmtQ.major_pack, FmtQ.unpack_pack]
  rfl

theorem qpushv (g : RegNo) (q : BitVec 4) : Statement (.qpushv g q) := by
  intro _ hw
  rw [show encode (.qpushv g q) = FmtQ.pack 0x33 ⟨g, q, 0#4, 1#3, 0#10⟩ from rfl, decode, FmtQ.major_pack, FmtQ.unpack_pack]
  rfl

theorem qpop (g : RegNo) (q : BitVec 4) (la : BitVec 4) : Statement (.qpop g q la) := by
  intro _ hw
  rw [show encode (.qpop g q la) = FmtQ.pack 0x33 ⟨g, q, la, 2#3, 0#10⟩ from rfl, decode, FmtQ.major_pack, FmtQ.unpack_pack]
  rfl

theorem qpopv (g : RegNo) (q : BitVec 4) (la : BitVec 4) : Statement (.qpopv g q la) := by
  intro _ hw
  rw [show encode (.qpopv g q la) = FmtQ.pack 0x33 ⟨g, q, la, 3#3, 0#10⟩ from rfl, decode, FmtQ.major_pack, FmtQ.unpack_pack]
  rfl

theorem qbind (g : RegNo) (q : BitVec 4) : Statement (.qbind g q) := by
  intro _ hw
  rw [show encode (.qbind g q) = FmtQ.pack 0x33 ⟨g, q, 0#4, 4#3, 0#10⟩ from rfl, decode, FmtQ.major_pack, FmtQ.unpack_pack]
  simp (disch := omega) [decodeQop, check, wf?, wOnly?, Cond.code, Cond.of?, FCond.code, FCond.of?, Size.code, Size.of, ASize.code, ASize.of?, ASize.bit, ASize.ofBit, RedOp.code, RedOp.of?, Scope.code, Scope.of?, MTy.code, MTy.of?, extract_lo_1_15, extract_hi_1_15, extract_lo_1_3, extract_hi_1_3, extract_lo_10_6, extract_hi_10_6, extract_lo_15_8, extract_hi_15_8, extract_lo_18_5, extract_hi_18_5, extract_lo_3_2, extract_hi_3_2, extract_lo_4_1, extract_hi_4_1, pred?_low, vlds_fn, extract_all, hw]

theorem qstat (g : RegNo) (q : BitVec 4) : Statement (.qstat g q) := by
  intro _ hw
  rw [show encode (.qstat g q) = FmtQ.pack 0x33 ⟨g, q, 0#4, 5#3, 0#10⟩ from rfl, decode, FmtQ.major_pack, FmtQ.unpack_pack]
  rfl

theorem wlpsh (d : RegNo) (a : RegNo) (b : RegNo) : Statement (.wlpsh d a b) := by
  intro _ hw
  rw [show encode (.wlpsh d a b) = FmtR.pack 0x34 ⟨d, a, b, 0#4, 0#7⟩ from rfl, decode, FmtR.major_pack, FmtR.unpack_pack]
  simp (disch := omega) [decodeWl, check, wf?, wOnly?, Cond.code, Cond.of?, FCond.code, FCond.of?, Size.code, Size.of, ASize.code, ASize.of?, ASize.bit, ASize.ofBit, RedOp.code, RedOp.of?, Scope.code, Scope.of?, MTy.code, MTy.of?, extract_lo_1_15, extract_hi_1_15, extract_lo_1_3, extract_hi_1_3, extract_lo_10_6, extract_hi_10_6, extract_lo_15_8, extract_hi_15_8, extract_lo_18_5, extract_hi_18_5, extract_lo_3_2, extract_hi_3_2, extract_lo_4_1, extract_hi_4_1, pred?_low, vlds_fn, extract_all, hw]

theorem wlpop (d : RegNo) (a : RegNo) (la : BitVec 4) : Statement (.wlpop d a la) := by
  intro _ hw
  rw [show encode (.wlpop d a la) = FmtR.pack 0x34 ⟨d, a, 0#5, la, 1#7⟩ from rfl, decode, FmtR.major_pack, FmtR.unpack_pack]
  simp (disch := omega) [decodeWl, check, wf?, wOnly?, Cond.code, Cond.of?, FCond.code, FCond.of?, Size.code, Size.of, ASize.code, ASize.of?, ASize.bit, ASize.ofBit, RedOp.code, RedOp.of?, Scope.code, Scope.of?, MTy.code, MTy.of?, extract_lo_1_15, extract_hi_1_15, extract_lo_1_3, extract_hi_1_3, extract_lo_10_6, extract_hi_10_6, extract_lo_15_8, extract_hi_15_8, extract_lo_18_5, extract_hi_18_5, extract_lo_3_2, extract_hi_3_2, extract_lo_4_1, extract_hi_4_1, pred?_low, vlds_fn, extract_all, hw]

theorem wlack (a : RegNo) : Statement (.wlack a) := by
  intro _ hw
  rw [show encode (.wlack a) = FmtR.pack 0x34 ⟨0#5, a, 0#5, 0#4, 2#7⟩ from rfl, decode, FmtR.major_pack, FmtR.unpack_pack]
  rfl

theorem wlret (a : RegNo) : Statement (.wlret a) := by
  intro _ hw
  rw [show encode (.wlret a) = FmtR.pack 0x34 ⟨0#5, a, 0#5, 0#4, 3#7⟩ from rfl, decode, FmtR.major_pack, FmtR.unpack_pack]
  rfl

theorem wlsta (d : RegNo) (a : RegNo) (b : RegNo) : Statement (.wlsta d a b) := by
  intro _ hw
  rw [show encode (.wlsta d a b) = FmtR.pack 0x34 ⟨d, a, b, 0#4, 4#7⟩ from rfl, decode, FmtR.major_pack, FmtR.unpack_pack]
  rfl

theorem wlcfg (d : RegNo) (a : RegNo) : Statement (.wlcfg d a) := by
  intro _ hw
  rw [show encode (.wlcfg d a) = FmtR.pack 0x34 ⟨d, a, 0#5, 0#4, 5#7⟩ from rfl, decode, FmtR.major_pack, FmtR.unpack_pack]
  rfl

theorem endTask : Statement .endTask := by
  intro _ hw
  rw [show encode (.endTask) = FmtR.pack 0x35 ⟨0#5, 0#5, 0#5, 0#4, 0#7⟩ from rfl, decode, FmtR.major_pack, FmtR.unpack_pack]
  rfl

theorem yield : Statement .yield := by
  intro _ hw
  rw [show encode (.yield) = FmtR.pack 0x35 ⟨0#5, 0#5, 0#5, 0#4, 1#7⟩ from rfl, decode, FmtR.major_pack, FmtR.unpack_pack]
  rfl

theorem align : Statement .align := by
  intro _ hw
  rw [show encode (.align) = FmtR.pack 0x35 ⟨0#5, 0#5, 0#5, 0#4, 2#7⟩ from rfl, decode, FmtR.major_pack, FmtR.unpack_pack]
  rfl

theorem trig : Statement .trig := by
  intro _ hw
  rw [show encode (.trig) = FmtR.pack 0x35 ⟨0#5, 0#5, 0#5, 0#4, 3#7⟩ from rfl, decode, FmtR.major_pack, FmtR.unpack_pack]
  rfl

theorem migr (a : RegNo) : Statement (.migr a) := by
  intro _ hw
  rw [show encode (.migr a) = FmtR.pack 0x35 ⟨0#5, a, 0#5, 0#4, 4#7⟩ from rfl, decode, FmtR.major_pack, FmtR.unpack_pack]
  rfl

theorem widx (d : RegNo) (k : RegNo) : Statement (.widx d k) := by
  intro _ hw
  rw [show encode (.widx d k) = FmtR.pack 0x35 ⟨d, k, 0#5, 0#4, 5#7⟩ from rfl, decode, FmtR.major_pack, FmtR.unpack_pack]
  simp (disch := omega) [decodeTask, check, wf?, wOnly?, Cond.code, Cond.of?, FCond.code, FCond.of?, Size.code, Size.of, ASize.code, ASize.of?, ASize.bit, ASize.ofBit, RedOp.code, RedOp.of?, Scope.code, Scope.of?, MTy.code, MTy.of?, extract_lo_1_15, extract_hi_1_15, extract_lo_1_3, extract_hi_1_3, extract_lo_10_6, extract_hi_10_6, extract_lo_15_8, extract_hi_15_8, extract_lo_18_5, extract_hi_18_5, extract_lo_3_2, extract_hi_3_2, extract_lo_4_1, extract_hi_4_1, pred?_low, vlds_fn, extract_all, hw]

theorem ueret : Statement .ueret := by
  intro _ hw
  rw [show encode (.ueret) = FmtR.pack 0x35 ⟨0#5, 0#5, 0#5, 0#4, 6#7⟩ from rfl, decode, FmtR.major_pack, FmtR.unpack_pack]
  rfl

theorem csrr (d : RegNo) (csr : BitVec 12) : Statement (.csrr d csr) := by
  intro _ hw
  rw [show encode (.csrr d csr) = FmtS.pack 0x36 ⟨d, 0#5, csr, 0#4⟩ from rfl, decode, FmtS.major_pack, FmtS.unpack_pack]
  rfl

theorem csrw (d : RegNo) (a : RegNo) (csr : BitVec 12) : Statement (.csrw d a csr) := by
  intro _ hw
  rw [show encode (.csrw d a csr) = FmtS.pack 0x36 ⟨d, a, csr, 1#4⟩ from rfl, decode, FmtS.major_pack, FmtS.unpack_pack]
  rfl

theorem csrs (d : RegNo) (a : RegNo) (csr : BitVec 12) : Statement (.csrs d a csr) := by
  intro _ hw
  rw [show encode (.csrs d a csr) = FmtS.pack 0x36 ⟨d, a, csr, 2#4⟩ from rfl, decode, FmtS.major_pack, FmtS.unpack_pack]
  rfl

theorem csrc (d : RegNo) (a : RegNo) (csr : BitVec 12) : Statement (.csrc d a csr) := by
  intro _ hw
  rw [show encode (.csrc d a csr) = FmtS.pack 0x36 ⟨d, a, csr, 3#4⟩ from rfl, decode, FmtS.major_pack, FmtS.unpack_pack]
  rfl

theorem eret : Statement .eret := by
  intro _ hw
  rw [show encode (.eret) = FmtR.pack 0x37 ⟨0#5, 0#5, 0#5, 0#4, 0#7⟩ from rfl, decode, FmtR.major_pack, FmtR.unpack_pack]
  rfl

theorem spill (a : RegNo) : Statement (.spill a) := by
  intro _ hw
  rw [show encode (.spill a) = FmtR.pack 0x37 ⟨0#5, a, 0#5, 0#4, 1#7⟩ from rfl, decode, FmtR.major_pack, FmtR.unpack_pack]
  rfl

theorem fill (a : RegNo) : Statement (.fill a) := by
  intro _ hw
  rw [show encode (.fill a) = FmtR.pack 0x37 ⟨0#5, a, 0#5, 0#4, 2#7⟩ from rfl, decode, FmtR.major_pack, FmtR.unpack_pack]
  rfl

theorem wake (a : RegNo) : Statement (.wake a) := by
  intro _ hw
  rw [show encode (.wake a) = FmtR.pack 0x37 ⟨0#5, a, 0#5, 0#4, 3#7⟩ from rfl, decode, FmtR.major_pack, FmtR.unpack_pack]
  rfl

theorem tlbiRange (a : RegNo) (b : RegNo) : Statement (.tlbiRange a b) := by
  intro _ hw
  rw [show encode (.tlbiRange a b) = FmtR.pack 0x37 ⟨0#5, a, b, 0#4, 4#7⟩ from rfl, decode, FmtR.major_pack, FmtR.unpack_pack]
  simp (disch := omega) [decodePriv, check, wf?, wOnly?, Cond.code, Cond.of?, FCond.code, FCond.of?, Size.code, Size.of, ASize.code, ASize.of?, ASize.bit, ASize.ofBit, RedOp.code, RedOp.of?, Scope.code, Scope.of?, MTy.code, MTy.of?, extract_lo_1_15, extract_hi_1_15, extract_lo_1_3, extract_hi_1_3, extract_lo_10_6, extract_hi_10_6, extract_lo_15_8, extract_hi_15_8, extract_lo_18_5, extract_hi_18_5, extract_lo_3_2, extract_hi_3_2, extract_lo_4_1, extract_hi_4_1, pred?_low, vlds_fn, extract_all, hw]

theorem tlbiAsid (a : RegNo) : Statement (.tlbiAsid a) := by
  intro _ hw
  rw [show encode (.tlbiAsid a) = FmtR.pack 0x37 ⟨1#5, a, 0#5, 0#4, 4#7⟩ from rfl, decode, FmtR.major_pack, FmtR.unpack_pack]
  rfl

theorem tlbiAll : Statement .tlbiAll := by
  intro _ hw
  rw [show encode (.tlbiAll) = FmtR.pack 0x37 ⟨2#5, 0#5, 0#5, 0#4, 4#7⟩ from rfl, decode, FmtR.major_pack, FmtR.unpack_pack]
  rfl

theorem iflush : Statement .iflush := by
  intro _ hw
  rw [show encode (.iflush) = FmtR.pack 0x37 ⟨0#5, 0#5, 0#5, 0#4, 5#7⟩ from rfl, decode, FmtR.major_pack, FmtR.unpack_pack]
  rfl

theorem halt : Statement .halt := by
  intro _ hw
  rw [show encode (.halt) = FmtR.pack 0x37 ⟨0#5, 0#5, 0#5, 0#4, 6#7⟩ from rfl, decode, FmtR.major_pack, FmtR.unpack_pack]
  rfl

theorem mspill (d : PredNo) (a : RegNo) : Statement (.mspill d a) := by
  intro _ hw
  rw [show encode (.mspill d a) = FmtR.pack 0x37 ⟨(0#2 ++ d), a, 0#5, 0#4, 7#7⟩ from rfl, decode, FmtR.major_pack, FmtR.unpack_pack]
  simp (disch := omega) [decodePriv, check, wf?, wOnly?, Cond.code, Cond.of?, FCond.code, FCond.of?, Size.code, Size.of, ASize.code, ASize.of?, ASize.bit, ASize.ofBit, RedOp.code, RedOp.of?, Scope.code, Scope.of?, MTy.code, MTy.of?, extract_lo_1_15, extract_hi_1_15, extract_lo_1_3, extract_hi_1_3, extract_lo_10_6, extract_hi_10_6, extract_lo_15_8, extract_hi_15_8, extract_lo_18_5, extract_hi_18_5, extract_lo_3_2, extract_hi_3_2, extract_lo_4_1, extract_hi_4_1, pred?_low, vlds_fn, extract_all, hw]

theorem mfill (d : PredNo) (a : RegNo) : Statement (.mfill d a) := by
  intro _ hw
  rw [show encode (.mfill d a) = FmtR.pack 0x37 ⟨(0#2 ++ d), a, 0#5, 0#4, 8#7⟩ from rfl, decode, FmtR.major_pack, FmtR.unpack_pack]
  simp (disch := omega) [decodePriv, check, wf?, wOnly?, Cond.code, Cond.of?, FCond.code, FCond.of?, Size.code, Size.of, ASize.code, ASize.of?, ASize.bit, ASize.ofBit, RedOp.code, RedOp.of?, Scope.code, Scope.of?, MTy.code, MTy.of?, extract_lo_1_15, extract_hi_1_15, extract_lo_1_3, extract_hi_1_3, extract_lo_10_6, extract_hi_10_6, extract_lo_15_8, extract_hi_15_8, extract_lo_18_5, extract_hi_18_5, extract_lo_3_2, extract_hi_3_2, extract_lo_4_1, extract_hi_4_1, pred?_low, vlds_fn, extract_all, hw]

theorem trap (c : BitVec 15) : Statement (.trap c) := by
  intro _ hw
  rw [show encode (.trap c) = FmtI.pack 0x38 ⟨0#5, 0#5, 0#1 ++ c⟩ from rfl, decode, FmtI.major_pack, FmtI.unpack_pack]
  simp (disch := omega) [decodeTrapi, check, wf?, wOnly?, Cond.code, Cond.of?, FCond.code, FCond.of?, Size.code, Size.of, ASize.code, ASize.of?, ASize.bit, ASize.ofBit, RedOp.code, RedOp.of?, Scope.code, Scope.of?, MTy.code, MTy.of?, extract_lo_1_15, extract_hi_1_15, extract_lo_1_3, extract_hi_1_3, extract_lo_10_6, extract_hi_10_6, extract_lo_15_8, extract_hi_15_8, extract_lo_18_5, extract_hi_18_5, extract_lo_3_2, extract_hi_3_2, extract_lo_4_1, extract_hi_4_1, pred?_low, vlds_fn, extract_all, hw]

theorem brk (c : BitVec 15) : Statement (.brk c) := by
  intro _ hw
  rw [show encode (.brk c) = FmtI.pack 0x38 ⟨0#5, 0#5, 1#1 ++ c⟩ from rfl, decode, FmtI.major_pack, FmtI.unpack_pack]
  simp (disch := omega) [decodeTrapi, check, wf?, wOnly?, Cond.code, Cond.of?, FCond.code, FCond.of?, Size.code, Size.of, ASize.code, ASize.of?, ASize.bit, ASize.ofBit, RedOp.code, RedOp.of?, Scope.code, Scope.of?, MTy.code, MTy.of?, extract_lo_1_15, extract_hi_1_15, extract_lo_1_3, extract_hi_1_3, extract_lo_10_6, extract_hi_10_6, extract_lo_15_8, extract_hi_15_8, extract_lo_18_5, extract_hi_18_5, extract_lo_3_2, extract_hi_3_2, extract_lo_4_1, extract_hi_4_1, pred?_low, vlds_fn, extract_all, hw]

theorem dispatch (slot : Nat) : Statement (.dispatch slot) := fun h => nomatch h

theorem prefetch (tile : Nat) (wl : Nat) : Statement (.prefetch tile wl) := fun h => nomatch h

theorem eviction (slot : Nat) : Statement (.eviction slot) := fun h => nomatch h

theorem saveComplete (slot : Nat) : Statement (.saveComplete slot) := fun h => nomatch h

theorem refill (slot : Nat) : Statement (.refill slot) := fun h => nomatch h

theorem migrationArrival (tid : W64) (tile : Nat) : Statement (.migrationArrival tid tile) := fun h => nomatch h

theorem userEventDelivery (slot : Nat) : Statement (.userEventDelivery slot) := fun h => nomatch h

theorem icacheFill (tile : Nat) (asid : BitVec 14) (line : Nat) : Statement (.icacheFill tile asid line) := fun h => nomatch h

theorem alignTimeout (core : Nat) (stamp : Nat) : Statement (.alignTimeout core stamp) := fun h => nomatch h

theorem homeAccess (req : Nat) : Statement (.homeAccess req) := fun h => nomatch h

theorem accessReply (req : Nat) (remote : Option PodAnswer) : Statement (.accessReply req remote) := fun h => nomatch h

theorem updateApply (req : Nat) : Statement (.updateApply req) := fun h => nomatch h

theorem walkComplete (home : Nat) (asid : BitVec 14) (vpn : Nat) : Statement (.walkComplete home asid vpn) := fun h => nomatch h

theorem pageWake (home : Nat) (asid : BitVec 14) (vpn : Nat) (maps : Bool) : Statement (.pageWake home asid vpn maps) := fun h => nomatch h

theorem feRetryAttempt (req : Nat) : Statement (.feRetryAttempt req) := fun h => nomatch h

theorem buoyNotice (n : Notice) : Statement (.buoyNotice n) := fun h => nomatch h

theorem lossNotice (n : Notice) : Statement (.lossNotice n) := fun h => nomatch h

theorem releaseMessage (m : ReleaseMsg) : Statement (.releaseMessage m) := fun h => nomatch h

theorem commitHold (slot : Nat) (home : Nat) (line : Nat) : Statement (.commitHold slot home line) := fun h => nomatch h

theorem commitApply (slot : Nat) (home : Nat) (line : Nat) : Statement (.commitApply slot home line) := fun h => nomatch h

theorem chunkTurn (launch : W32) : Statement (.chunkTurn launch) := fun h => nomatch h

theorem fpush (lamp : Nat) (m : PushMsg) : Statement (.fpush lamp m) := fun h => nomatch h

theorem rpush (m : PushMsg) : Statement (.rpush m) := fun h => nomatch h

theorem fwd (lamp : Nat) (m : PushMsg) : Statement (.fwd lamp m) := fun h => nomatch h

theorem head (wl : Nat) (tile : Nat) (pos : Option Nat) : Statement (.head wl tile pos) := fun h => nomatch h

theorem low (wl : Nat) (lamp : Nat) : Statement (.low wl lamp) := fun h => nomatch h

theorem pull (wl : Nat) (tile : Nat) (kn : Option Nat) (m : Nat) (v : Nat) : Statement (.pull wl tile kn m v) := fun h => nomatch h

theorem ritem (wl : Nat) (lamp : Nat) (q : Pulled) : Statement (.ritem wl lamp q) := fun h => nomatch h

theorem pack (wl : Nat) (tile : Nat) (cap : PullAnswer) : Statement (.pack wl tile cap) := fun h => nomatch h

theorem demote (wl : Nat) (lamp : Nat) (k : Demotion) : Statement (.demote wl lamp k) := fun h => nomatch h

theorem cut (wl : Nat) (toLamp : Bool) (dest : Nat) (k : Option Nat) (v : CutVersion) : Statement (.cut wl toLamp dest k v) := fun h => nomatch h

theorem pop (lamp : Nat) (m : PopMsg) : Statement (.pop lamp m) := fun h => nomatch h

theorem popReply (m : PopMsg) (ans : PopAnswer) : Statement (.popReply m ans) := fun h => nomatch h

theorem pushAnswer (m : PushMsg) (status : Nat) : Statement (.pushAnswer m status) := fun h => nomatch h

theorem launchStart (launch : W32) : Statement (.launchStart launch) := fun h => nomatch h

theorem coschedAdmission (launch : W32) : Statement (.coschedAdmission launch) := fun h => nomatch h

theorem launchRecordWrite (asid : BitVec 14) : Statement (.launchRecordWrite asid) := fun h => nomatch h

theorem wlwdogExpiry (wl : Nat) : Statement (.wlwdogExpiry wl) := fun h => nomatch h

theorem packageBarrierArrival (slot : Nat) (ctx : W32) (key : BarKey) : Statement (.packageBarrierArrival slot ctx key) := fun h => nomatch h

theorem barrierArrivalReply (slot : Nat) (ctx : W32) (id : Nat) (phase : Option Bool) : Statement (.barrierArrivalReply slot ctx id phase) := fun h => nomatch h

theorem barrierCompletion (tile : Nat) (name : BarName) (phase : Bool) : Statement (.barrierCompletion tile name phase) := fun h => nomatch h

theorem channelWord (tid : W64) (q : Nat) (sender : W64) (word : W64) : Statement (.channelWord tid q sender word) := fun h => nomatch h

theorem creditReturn (tid : W64) (q : Nat) (receiver : W64) (n : Nat) : Statement (.creditReturn tid q receiver n) := fun h => nomatch h

theorem dryTimeout (tid : W64) (q : Nat) (stamp : Nat) : Statement (.dryTimeout tid q stamp) := fun h => nomatch h

theorem matrixCommandStart (tile : Nat) : Statement (.matrixCommandStart tile) := fun h => nomatch h

theorem matrixCommandComplete (tile : Nat) (core : Nat) : Statement (.matrixCommandComplete tile core) := fun h => nomatch h

theorem copyCommandStart (tile : Nat) (core : Nat) : Statement (.copyCommandStart tile core) := fun h => nomatch h

theorem copyCommandComplete (tile : Nat) (core : Nat) : Statement (.copyCommandComplete tile core) := fun h => nomatch h

theorem collectiveJoin (tile : Nat) (core : Nat) : Statement (.collectiveJoin tile core) := fun h => nomatch h

theorem collectiveComplete (key : CollKey) : Statement (.collectiveComplete key) := fun h => nomatch h

theorem colltmoExpiry (key : CollKey) : Statement (.colltmoExpiry key) := fun h => nomatch h

theorem tlbiAtHome (home : Nat) (id : Nat) : Statement (.tlbiAtHome home id) := fun h => nomatch h

theorem tlbiAck (id : Nat) : Statement (.tlbiAck id) := fun h => nomatch h

theorem sweeperStep (home : Nat) : Statement (.sweeperStep home) := fun h => nomatch h

theorem zeroingStep (home : Nat) : Statement (.zeroingStep home) := fun h => nomatch h

theorem freepush (home : Nat) (frame : Nat) : Statement (.freepush home frame) := fun h => nomatch h

theorem coldpop (home : Nat) : Statement (.coldpop home) := fun h => nomatch h

theorem controlRegisterWrite (offset : Nat) (value : W64) : Statement (.controlRegisterWrite offset value) := fun h => nomatch h

theorem throttleStep (watts : Nat) (celsius : Nat) : Statement (.throttleStep watts celsius) := fun h => nomatch h

theorem thermalTrip : Statement .thermalTrip := fun h => nomatch h

theorem errorEvent (src : ErrSrc) (poisons : Bool) : Statement (.errorEvent src poisons) := fun h => nomatch h

theorem scrubComplete (asid : BitVec 14) : Statement (.scrubComplete asid) := fun h => nomatch h

theorem podRequest (port : Nat) (r : PodReq) : Statement (.podRequest port r) := fun h => nomatch h

theorem busyResend (req : Nat) : Statement (.busyResend req) := fun h => nomatch h

theorem podRequestTimeout (req : Nat) : Statement (.podRequestTimeout req) := fun h => nomatch h

theorem rmaWrite (port : Nat) (pa : Nat) (bytes : List Byte) : Statement (.rmaWrite port pa bytes) := fun h => nomatch h

theorem kick (port : Nat) (src : W64) (msg : BitVec 128) : Statement (.kick port src msg) := fun h => nomatch h

theorem kickReread (ring : Nat) : Statement (.kickReread ring) := fun h => nomatch h

theorem ringOpen (c : Cmd) : Statement (.ringOpen c) := fun h => nomatch h

theorem ringClose (c : Cmd) : Statement (.ringClose c) := fun h => nomatch h

theorem ctxCreate (c : Cmd) : Statement (.ctxCreate c) := fun h => nomatch h

theorem ctxDestroy (c : Cmd) : Statement (.ctxDestroy c) := fun h => nomatch h

theorem keySet (c : Cmd) : Statement (.keySet c) := fun h => nomatch h

theorem map (c : Cmd) : Statement (.map c) := fun h => nomatch h

theorem unmap (c : Cmd) : Statement (.unmap c) := fun h => nomatch h

theorem launch (c : Cmd) : Statement (.launch c) := fun h => nomatch h

theorem abort (c : Cmd) : Statement (.abort c) := fun h => nomatch h

theorem copyIn (c : Cmd) : Statement (.copyIn c) := fun h => nomatch h

theorem copyOut (c : Cmd) : Statement (.copyOut c) := fun h => nomatch h

theorem query (c : Cmd) : Statement (.query c) := fun h => nomatch h

theorem reset (c : Cmd) : Statement (.reset c) := fun h => nomatch h

theorem attest (c : Cmd) : Statement (.attest c) := fun h => nomatch h

theorem debugHalt (c : Cmd) : Statement (.debugHalt c) := fun h => nomatch h

theorem debugResume (c : Cmd) : Statement (.debugResume c) := fun h => nomatch h

theorem debugStop (c : Cmd) : Statement (.debugStop c) := fun h => nomatch h

theorem debugGroup (c : Cmd) : Statement (.debugGroup c) := fun h => nomatch h

theorem debugRun (c : Cmd) : Statement (.debugRun c) := fun h => nomatch h

theorem debugStep (c : Cmd) : Statement (.debugStep c) := fun h => nomatch h

theorem bpset (c : Cmd) : Statement (.bpset c) := fun h => nomatch h

theorem bpclr (c : Cmd) : Statement (.bpclr c) := fun h => nomatch h

theorem debugRead (c : Cmd) : Statement (.debugRead c) := fun h => nomatch h

theorem debugWrite (c : Cmd) : Statement (.debugWrite c) := fun h => nomatch h

theorem sample (c : Cmd) : Statement (.sample c) := fun h => nomatch h

theorem samplePeriod (id : Nat) : Statement (.samplePeriod id) := fun h => nomatch h

theorem ctxSstate (c : Cmd) : Statement (.ctxSstate c) := fun h => nomatch h

theorem lrecFree (c : Cmd) : Statement (.lrecFree c) := fun h => nomatch h

theorem commandProcessorFailover : Statement .commandProcessorFailover := fun h => nomatch h

theorem powerOn (img : Image) : Statement (.powerOn img) := fun h => nomatch h

theorem functionReady (bit : Nat) : Statement (.functionReady bit) := fun h => nomatch h

theorem bootReport : Statement .bootReport := fun h => nomatch h

theorem bootTimeout : Statement .bootTimeout := fun h => nomatch h

theorem cycle : Statement .cycle := fun h => nomatch h

theorem illegalWord (w : W32) : Statement (.illegalWord w) := fun h => nomatch h

theorem fetchOutsideCodeRegion : Statement .fetchOutsideCodeRegion := fun h => nomatch h

theorem powerOff : Statement .powerOff := fun h => nomatch h

theorem functionFailed (bit : Nat) (reason : Nat) : Statement (.functionFailed bit reason) := fun h => nomatch h

theorem hostAcknowledgement (id : Nat) : Statement (.hostAcknowledgement id) := fun h => nomatch h

theorem packageLeavesPod (pkg : Nat) : Statement (.packageLeavesPod pkg) := fun h => nomatch h

theorem controlReply (slot : Nat) (ctx : W32) (value : W64) : Statement (.controlReply slot ctx value) := fun h => nomatch h

end Sys2Proof.Laws.RoundTrip
end

