-- ==== Sys2Proof/Tests/Slice0.lean ====
section
/-! SUPPORT. Tests of the model: words of the spec against the decoder, ill-formed terms, single steps on small states, and witnesses that the
hypotheses of the statements can be met. -/

namespace Sys2Proof.Tests

open Sys2Proof Sys2Proof.Machine

/-! ### Ill-formed terms are refused by WellFormed, one for each check -/

theorem test_wf_ldn : (Instr.ldn 5 4 0 true .d 0).wf = false := by decide
theorem test_wf_vldx : (Instr.vldx 3 4 5 0 false .d 0 false).wf = false := by decide
theorem test_wf_vstx : (Instr.vstx 3 4 5 0 false .d 0).wf = false := by decide
theorem test_wf_loop : (Instr.loop 0 4).wf = false := by decide
theorem test_wf_qbind : (Instr.qbind 31 9).wf = false ∧ (Instr.qbind 30 9).wf = true := by decide
theorem test_wf_wlpsh : (Instr.wlpsh 1 2 31).wf = false ∧ (Instr.wlpsh 1 2 30).wf = true := by decide
theorem test_wf_wlpop : (Instr.wlpop 30 2 0).wf = false ∧ (Instr.wlpop 29 2 0).wf = true := by decide
theorem test_wf_tlbi : (Instr.tlbiRange 1 31).wf = false ∧ (Instr.tlbiRange 1 30).wf = true := by decide
theorem test_wf_widx : (Instr.widx 1 0).wf = false ∧ (Instr.widx 1 7).wf = false ∧ (Instr.widx 1 6).wf = true := by decide
theorem test_wf_msp : (Instr.msp 0 1 2 9 .e4m3 false false).wf = false ∧ (Instr.msp 0 1 2 31 .e4m3 false false).wf = false ∧
    (Instr.msp 0 1 2 8 .bf16 false false).wf = false := by decide

/-! ### Words of the spec's own examples (spec/12 to spec/18) -/

theorem test_decodeImm : decode 0x08000000 = .ok (.addi 0 0 0) := by decide
theorem test_decodeAddi : decode 0x08A50001 = .ok (.addi 5 5 1) := by decide
theorem test_decodeCmp : decode 0x05053044 = .ok (.cmp 2 5 6 .ltn) := by decide
theorem test_decodeCmpi : decode 0x20A28010 = .ok (.cmpi 1 .lt 5 16) := by decide
theorem test_decodeBfx : decode 0x04A63830 = .ok (.bfx 5 6 7) := by decide
theorem test_decodeSel : decode 0x046428B8 = .ok (.sel 3 4 5 1) := by decide
theorem test_decodeShli : decode 0x18810009 = .ok (.shli 4 1 9) := by decide
theorem test_decodeLim : decode 0x1C818000 = .ok (.lim 4 1 0x8000) := by decide
theorem test_decodePaddi : decode 0x24840040 = .ok (.paddi 4 4 0x40) := by decide
theorem test_decodeRepfDA : decode 0x4C00F000 = .ok (.repf 0 3 6 0) := by decide
theorem test_decodeLoop : decode 0x48BFFFFA = .ok (.loop 5 0x1FFFFA) := by decide
theorem test_decodeBcc : decode 0x38A65FFC = .ok (.bcc 5 6 .lt 0x1FFC) := by decide
theorem test_decodeSt : decode 0x58A40402 = .ok (.st 5 4 0 false .w 2) := by decide
theorem test_decodeLdn : decode 0x54A401FF = .ok (.ldn 5 4 0 false .b 0x1FF) := by decide
theorem test_decodeLdX : decode 0x50A43E00 = .ok (.ld 5 4 3 true .d 0) := by decide
theorem test_decodeVst : decode 0x88260101 = .ok (.vst 1 6 0 false 1 1) := by decide
theorem test_decodeVldx : decode 0x8C642824 = .ok (.vldx 3 4 5 0 false .w 2 false) := by decide
theorem test_decodeLdf : decode 0x64C40000 = .ok (.ldf 6 4 0) := by decide
theorem test_decodeSte : decode 0x64A40002 = .ok (.ste 5 4 0) := by decide
theorem test_decodeFeclr : decode 0x64040004 = .ok (.feclr 4 0) := by decide
theorem test_decodeAmo : decode 0x68E42860 = .ok (.amoAdd 7 4 5 0 .d) := by decide
theorem test_decodeRupd : decode 0x74042860 = .ok (.rupdAdd 4 5 .d) := by decide
theorem test_decodeRupdF : decode 0x74042849 = .ok (.rupdFadd 4 5) := by decide
theorem test_decodeLdr : decode 0x70A40060 = .ok (.ldr 5 4 0 .d) := by decide
theorem test_decodeWrs : decode 0x70A40062 = .ok (.wrs 5 4 0 .d) := by decide
theorem test_decodeVld : decode 0x84640202 = .ok (.vld 3 4 0 false 2 2) := by decide
theorem test_decodeVlds : decode 0x94269800 = .ok (.vlds 1 6 19 0 0 false) := by decide
theorem test_decodeVfadd : decode 0xA0611020 = .ok (.vfadd 3 1 2 2) := by decide
theorem test_decodeVfcmp : decode 0xA022180A = .ok (.vfcmp 1 2 3 0 .lt) := by decide
theorem test_decodeVsel : decode 0x9C811038 = .ok (.vsel 4 1 2 3) := by decide
theorem test_decodeVma : decode 0xA5011204 = .ok (.vma 8 1 2 8 0) := by decide
theorem test_decodeVfrcp : decode 0xA8C70102 = .ok (.vfrcp 6 7 2 0) := by decide
theorem test_decodePand : decode 0xB4611000 = .ok (.pand 3 1 2) := by decide
theorem test_decodeVred : decode 0xB0E40825 = .ok (.vred 7 4 .fadd 2) := by decide
theorem test_decodeVfma : decode 0xA5002208 = .ok (.vfma 8 0 4 8 1) := by decide
theorem test_decodeVcvtBf : decode 0xAC611000 = .ok (.vcvtF2bf 3 1 2 0) := by decide
theorem test_decodeVcvtFb : decode 0xACA30801 = .ok (.vcvtBf2f 5 3 true 0) := by decide
theorem test_decodeVmul : decode 0x98811002 = .ok (.vmul 4 1 2 0) := by decide
theorem test_decodeMsp : decode 0xBD10A842 = .ok (.msp 2 4 5 8 .e4e5 false true) := by decide
theorem test_decodeMmaIx : decode 0xB890A621 = .ok (.mmaIx 1 4 5 6 .e4m3 false false) := by decide
theorem test_decodeMwait : decode 0xC1200005 = .ok (.mwait 9 0) := by decide
theorem test_decodeCpy : decode 0xC4040000 = .ok (.cpy 4) := by decide
theorem test_decodeCpyx : decode 0xC4042801 = .ok (.cpyx 4 5) := by decide
theorem test_decodeColl : decode 0xC8040000 = .ok (.coll 4) := by decide
theorem test_decodeQpushv : decode 0xCC520400 = .ok (.qpushv 2 9) := by decide
theorem test_decodeQpop : decode 0xCCE62800 = .ok (.qpop 7 3 1) := by decide
theorem test_decodeQpopv : decode 0xCC940C00 = .ok (.qpopv 4 10 0) := by decide
theorem test_decodeQstat : decode 0xCC721400 = .ok (.qstat 3 9) := by decide
theorem test_decodeWlpsh : decode 0xD12A6000 = .ok (.wlpsh 9 10 12) := by decide
theorem test_decodeCsrr : decode 0xD8A00300 = .ok (.csrr 5 0x030) := by decide
theorem test_decodeCsrw : decode 0xD80A0101 = .ok (.csrw 0 10 0x010) := by decide
theorem test_decodeCsrwOld : decode 0xD8C70021 = .ok (.csrw 6 7 0x002) := by decide
theorem test_decodeCsrc : decode 0xD8080013 = .ok (.csrc 0 8 0x001) := by decide
theorem test_decodeYield : decode 0xD4000001 = .ok (.yield) := by decide
theorem test_decodeEnd : decode 0xD4000000 = .ok (.endTask) := by decide

theorem test_illegalA0611080 : decode 0xA0611080 = .illegal 4 := by decide
theorem test_illegal9C221806 : decode 0x9C221806 = .illegal 5 := by decide
theorem test_illegal9D221800 : decode 0x9D221800 = .illegal 5 := by decide
theorem test_illegalAC221001 : decode 0xAC221001 = .illegal 3 := by decide
theorem test_illegalA0000007 : decode 0xA0000007 = .illegal 2 := by decide
theorem test_illegal54A40600 : decode 0x54A40600 = .illegal 5 := by decide
theorem test_illegal60A43021 : decode 0x60A43021 = .illegal 3 := by decide
theorem test_illegal94242840 : decode 0x94242840 = .illegal 3 := by decide
theorem test_illegal68E42820 : decode 0x68E42820 = .illegal 5 := by decide
theorem test_illegal68E42869 : decode 0x68E42869 = .illegal 5 := by decide
theorem test_illegal74042868 : decode 0x74042868 = .illegal 2 := by decide
theorem test_illegal7C340000 : decode 0x7C340000 = .illegal 3 := by decide
theorem test_illegal7C140005 : decode 0x7C140005 = .illegal 2 := by decide
theorem test_illegal83000000 : decode 0x83000000 = .illegal 2 := by decide
theorem test_illegal81000001 : decode 0x81000001 = .illegal 3 := by decide
theorem test_illegalB810A008 : decode 0xB810A008 = .illegal 3 := by decide
theorem test_illegalB810A100 : decode 0xB810A100 = .illegal 3 := by decide
theorem test_illegalB810A080 : decode 0xB810A080 = .illegal 5 := by decide
theorem test_illegalBC10A800 : decode 0xBC10A800 = .illegal 5 := by decide
theorem test_illegalBC10A940 : decode 0xBC10A940 = .illegal 5 := by decide
theorem test_illegalC1000000 : decode 0xC1000000 = .illegal 5 := by decide
theorem test_illegalCC001800 : decode 0xCC001800 = .illegal 2 := by decide
theorem test_illegalD4670005 : decode 0xD4670005 = .illegal 5 := by decide
theorem test_illegalD4000007 : decode 0xD4000007 = .illegal 2 := by decide
theorem test_illegalD8000004 : decode 0xD8000004 = .illegal 2 := by decide
theorem test_illegalDC600004 : decode 0xDC600004 = .illegal 5 := by decide
theorem test_illegalE0200005 : decode 0xE0200005 = .illegal 3 := by decide
theorem test_illegal00000000 : decode 0x00000000 = .illegal 1 := by decide
theorem test_illegalE4000000 : decode 0xE4000000 = .illegal 1 := by decide

/-! ### One word of every row, with every field set (spec/12_encoding.md R246 to R264; the fields of spec/opcode_table.json) -/

theorem test_major01a :
    decode 0x04B25800 = .ok (.add 5 18 11) ∧
    decode 0x04B25801 = .ok (.sub 5 18 11) ∧
    decode 0x04B25802 = .ok (.mul 5 18 11) ∧
    decode 0x04B25803 = .ok (.mulh 5 18 11) ∧
    decode 0x04B25804 = .ok (.mulhn 5 18 11) ∧
    decode 0x04B25C85 = .ok (.div 5 18 11 9) ∧
    decode 0x04B25C86 = .ok (.divn 5 18 11 9) ∧
    decode 0x04B25C87 = .ok (.rem 5 18 11 9) ∧
    decode 0x04B25C88 = .ok (.remn 5 18 11 9) ∧
    decode 0x04B25810 = .ok (.and 5 18 11) ∧
    decode 0x04B25811 = .ok (.or 5 18 11) ∧
    decode 0x04B25812 = .ok (.xor 5 18 11) := by decide

theorem test_major01b :
    decode 0x04B25813 = .ok (.andn 5 18 11) ∧
    decode 0x04B25818 = .ok (.shl 5 18 11) ∧
    decode 0x04B25819 = .ok (.shr 5 18 11) ∧
    decode 0x04B2581A = .ok (.sra 5 18 11) ∧
    decode 0x04B25820 = .ok (.min 5 18 11) ∧
    decode 0x04B25821 = .ok (.max 5 18 11) ∧
    decode 0x04B25822 = .ok (.minn 5 18 11) ∧
    decode 0x04B25823 = .ok (.maxn 5 18 11) ∧
    decode 0x04B20028 = .ok (.clz 5 18) ∧
    decode 0x04B20029 = .ok (.popc 5 18) ∧
    decode 0x04B25830 = .ok (.bfx 5 18 11) ∧
    decode 0x04B25831 = .ok (.bfxn 5 18 11) := by decide

theorem test_major01c :
    decode 0x04B25832 = .ok (.bfi 5 18 11) ∧
    decode 0x04B259B8 = .ok (.sel 5 18 11 3) ∧
    decode 0x05859044 = .ok (.cmp 3 5 18 .ltn) := by decide

theorem test_major02 :
    decode 0x08B2B6DB = .ok (.addi 5 18 0xb6db) := by decide

theorem test_major03 :
    decode 0x0CB2B6DB = .ok (.andi 5 18 0xb6db) := by decide

theorem test_major04 :
    decode 0x10B2B6DB = .ok (.ori 5 18 0xb6db) := by decide

theorem test_major05 :
    decode 0x14B2B6DB = .ok (.xori 5 18 0xb6db) := by decide

theorem test_major06 :
    decode 0x18B2002D = .ok (.shli 5 18 45) ∧
    decode 0x18B2006D = .ok (.shri 5 18 45) ∧
    decode 0x18B200AD = .ok (.srai 5 18 45) := by decide

theorem test_major07 :
    decode 0x1CA2B6DB = .ok (.lim 5 2 0xb6db) := by decide

theorem test_major08 :
    decode 0x21C2DB6D = .ok (.cmpi 3 .ltn 5 0x5b6d) := by decide

theorem test_major09 :
    decode 0x24B2B6DB = .ok (.paddi 5 18 0xb6db) := by decide

theorem test_major0A :
    decode 0x28B25800 = .ok (.padd 5 18 11) ∧
    decode 0x28B25801 = .ok (.psub 5 18 11) ∧
    decode 0x28B25802 = .ok (.ptag 5 18 11) ∧
    decode 0x28B20003 = .ok (.pget 5 18) := by decide

theorem test_major0Ba :
    decode 0x2CB25800 = .ok (.fadd 5 18 11) ∧
    decode 0x2CB25801 = .ok (.fsub 5 18 11) ∧
    decode 0x2CB25802 = .ok (.fmul 5 18 11) ∧
    decode 0x2CB25C83 = .ok (.fdiv 5 18 11 9) ∧
    decode 0x2CB20484 = .ok (.fsqrt 5 18 9) ∧
    decode 0x2CB25805 = .ok (.fmin 5 18 11) ∧
    decode 0x2CB25806 = .ok (.fmax 5 18 11) ∧
    decode 0x2CB2580B = .ok (.fcmp 5 18 11 .le) ∧
    decode 0x2CB20010 = .ok (.fcvtF2i 5 18) ∧
    decode 0x2CB20011 = .ok (.fcvtF2n 5 18) ∧
    decode 0x2CB20012 = .ok (.fcvtI2f 5 18) ∧
    decode 0x2CB20013 = .ok (.fcvtN2f 5 18) := by decide

theorem test_major0Bb :
    decode 0x2CB20014 = .ok (.fclass 5 18) := by decide

theorem test_major0C :
    decode 0x30B25E00 = .ok (.fma 5 18 11 24) ∧
    decode 0x30B25E01 = .ok (.fms 5 18 11 24) ∧
    decode 0x30B25E02 = .ok (.fnma 5 18 11 24) := by decide

theorem test_major0D :
    decode 0x35EDB6DB = .ok (.brAny 3 0x2db6db) ∧
    decode 0x35ADB6DB = .ok (.brNone 3 0x2db6db) := by decide

theorem test_major0E :
    decode 0x38B296DB = .ok (.bcc 5 18 .ltn 0x16db) := by decide

theorem test_major0F :
    decode 0x3EDB6DB7 = .ok (.bra 0x2db6db7) := by decide

theorem test_major10 :
    decode 0x42DB6DB7 = .ok (.call 0x2db6db7) := by decide

theorem test_major11 :
    decode 0x44050000 = .ok (.jr 5) ∧
    decode 0x44050001 = .ok (.callr 5) ∧
    decode 0x44000002 = .ok .ret := by decide

theorem test_major12 :
    decode 0x48B6DB6D = .ok (.loop 5 0x16db6d) := by decide

theorem test_major13 :
    decode 0x4E6DEC00 = .ok (.repf 9 0xb7 5 2) := by decide

theorem test_major14 :
    decode 0x50B29B6D = .ok (.ld 5 18 9 true .h 0x16d) := by decide

theorem test_major15 :
    decode 0x54B29B6D = .ok (.ldn 5 18 9 true .h 0x16d) := by decide

theorem test_major16 :
    decode 0x58B29B6D = .ok (.st 5 18 9 true .h 0x16d) := by decide

theorem test_major17 :
    decode 0x5CB25CD1 = .ok (.ldx 5 18 11 9 true .h true) := by decide

theorem test_major18 :
    decode 0x60B25CD0 = .ok (.stx 5 18 11 9 true .h) := by decide

theorem test_major19 :
    decode 0x64B20480 = .ok (.ldf 5 18 9) ∧
    decode 0x64B20481 = .ok (.ldff 5 18 9) ∧
    decode 0x64B20482 = .ok (.ste 5 18 9) ∧
    decode 0x64B20483 = .ok (.stef 5 18 9) ∧
    decode 0x64050484 = .ok (.feclr 5 9) ∧
    decode 0x64B20485 = .ok (.feget 5 18 9) := by decide

theorem test_major1A :
    decode 0x68B25CE0 = .ok (.amoAdd 5 18 11 9 .d) ∧
    decode 0x68B25CE1 = .ok (.amoAnd 5 18 11 9 .d) ∧
    decode 0x68B25CE2 = .ok (.amoOr 5 18 11 9 .d) ∧
    decode 0x68B25CE3 = .ok (.amoXor 5 18 11 9 .d) ∧
    decode 0x68B25CE4 = .ok (.amoMin 5 18 11 9 .d) ∧
    decode 0x68B25CE5 = .ok (.amoMax 5 18 11 9 .d) ∧
    decode 0x68B25CE6 = .ok (.amoMinn 5 18 11 9 .d) ∧
    decode 0x68B25CE7 = .ok (.amoMaxn 5 18 11 9 .d) ∧
    decode 0x68B25CE8 = .ok (.amoSwap 5 18 11 9 .d) ∧
    decode 0x68B25CC9 = .ok (.amoFadd 5 18 11 9) := by decide

theorem test_major1B :
    decode 0x6CB25E01 = .ok (.cas 5 18 11 24 .d) := by decide

theorem test_major1C :
    decode 0x70B204E0 = .ok (.ldr 5 18 9 .d) ∧
    decode 0x70B25CE1 = .ok (.stc 5 18 11 9 .d) ∧
    decode 0x70B204E2 = .ok (.wrs 5 18 9 .d) := by decide

theorem test_major1D :
    decode 0x74059060 = .ok (.rupdAdd 5 18 .d) ∧
    decode 0x74059061 = .ok (.rupdAnd 5 18 .d) ∧
    decode 0x74059062 = .ok (.rupdOr 5 18 .d) ∧
    decode 0x74059063 = .ok (.rupdXor 5 18 .d) ∧
    decode 0x74059064 = .ok (.rupdMin 5 18 .d) ∧
    decode 0x74059065 = .ok (.rupdMax 5 18 .d) ∧
    decode 0x74059066 = .ok (.rupdMinn 5 18 .d) ∧
    decode 0x74059067 = .ok (.rupdMaxn 5 18 .d) ∧
    decode 0x74059049 = .ok (.rupdFadd 5 18) := by decide

theorem test_major1E :
    decode 0x79000000 = .ok (.fence .tile) ∧
    decode 0x79100000 = .ok (.fenceAcq .tile) ∧
    decode 0x79200000 = .ok (.fenceRel .tile) ∧
    decode 0x79300000 = .ok (.fenceEng .tile) := by decide

theorem test_major1F :
    decode 0x7C160000 = .ok (.bara 22) ∧
    decode 0x7C160001 = .ok (.barw 22) ∧
    decode 0x7C160002 = .ok (.barg 22) ∧
    decode 0x7CB60003 = .ok (.barq 5 22) ∧
    decode 0x7C162804 = .ok (.barset 22 5) := by decide

theorem test_major20 :
    decode 0x805B6DB7 = .ok (.txb 0x5b6db7) ∧
    decode 0x80DB6DB7 = .ok (.txelse 0x5b6db7) ∧
    decode 0x81000000 = .ok .txe ∧
    decode 0x81800000 = .ok .txr ∧
    decode 0x820000B7 = .ok (.txabort 0xb7) ∧
    decode 0x82800005 = .ok (.txst 5) := by decide

theorem test_major21 :
    decode 0x84B29B5B = .ok (.vld 5 18 9 true 3 0x5b) ∧
    decode 0x84B29BDB = .ok (.vldC 5 18 9 true 3 0x5b) := by decide

theorem test_major22 :
    decode 0x88B29B5B = .ok (.vst 5 18 9 true 3 0x5b) := by decide

theorem test_major23 :
    decode 0x8CB25CD7 = .ok (.vldx 5 18 11 9 true .h 3 true) := by decide

theorem test_major24 :
    decode 0x90B25CD6 = .ok (.vstx 5 18 11 9 true .h 3) := by decide

theorem test_major25 :
    decode 0x94B25C9C = .ok (.vlds 5 18 11 9 3 true) ∧
    decode 0x94B25C9D = .ok (.vsts 5 18 11 9 3 true) := by decide

theorem test_major26a :
    decode 0x98B25830 = .ok (.vadd 5 18 11 3) ∧
    decode 0x98B25831 = .ok (.vsub 5 18 11 3) ∧
    decode 0x98B25832 = .ok (.vmul 5 18 11 3) ∧
    decode 0x98B25833 = .ok (.vmulh 5 18 11 3) ∧
    decode 0x98B25834 = .ok (.vand 5 18 11 3) ∧
    decode 0x98B25835 = .ok (.vor 5 18 11 3) ∧
    decode 0x98B25836 = .ok (.vxor 5 18 11 3) ∧
    decode 0x98B25837 = .ok (.vshl 5 18 11 3) ∧
    decode 0x98B25838 = .ok (.vshr 5 18 11 3) ∧
    decode 0x98B25839 = .ok (.vsra 5 18 11 3) ∧
    decode 0x98B2583A = .ok (.vmin 5 18 11 3) ∧
    decode 0x98B2583B = .ok (.vmax 5 18 11 3) := by decide

theorem test_major26b :
    decode 0x98B2583C = .ok (.vminn 5 18 11 3) ∧
    decode 0x98B2583D = .ok (.vmaxn 5 18 11 3) ∧
    decode 0x98B2003E = .ok (.vabs 5 18 3) ∧
    decode 0x98B2003F = .ok (.vneg 5 18 3) := by decide

theorem test_major27 :
    decode 0x9C659064 = .ok (.vcmp 3 5 18 6 .ltn) ∧
    decode 0x9CB25838 = .ok (.vsel 5 18 11 3) ∧
    decode 0x9CB20039 = .ok (.vclz 5 18 3) ∧
    decode 0x9CB2003A = .ok (.vpopc 5 18 3) := by decide

theorem test_major28 :
    decode 0xA0B25830 = .ok (.vfadd 5 18 11 3) ∧
    decode 0xA0B25831 = .ok (.vfsub 5 18 11 3) ∧
    decode 0xA0B25832 = .ok (.vfmul 5 18 11 3) ∧
    decode 0xA0B25833 = .ok (.vfmin 5 18 11 3) ∧
    decode 0xA0B25834 = .ok (.vfmax 5 18 11 3) ∧
    decode 0xA0B20035 = .ok (.vfabs 5 18 3) ∧
    decode 0xA0B20036 = .ok (.vfneg 5 18 3) ∧
    decode 0xA065906B = .ok (.vfcmp 3 5 18 6 .le) := by decide

theorem test_major29 :
    decode 0xA4B25E18 = .ok (.vfma 5 18 11 24 3) ∧
    decode 0xA4B25E19 = .ok (.vfms 5 18 11 24 3) ∧
    decode 0xA4B25E1A = .ok (.vfnma 5 18 11 24 3) ∧
    decode 0xA4B25E1C = .ok (.vma 5 18 11 24 3) := by decide

theorem test_major2A :
    decode 0xA8B25CB0 = .ok (.vfdiv 5 18 11 9 3) ∧
    decode 0xA8B204B1 = .ok (.vfsqrt 5 18 9 3) ∧
    decode 0xA8B204B2 = .ok (.vfrcp 5 18 9 3) ∧
    decode 0xA8B204B3 = .ok (.vfrsq 5 18 9 3) ∧
    decode 0xA8B204B4 = .ok (.vfexp2 5 18 9 3) ∧
    decode 0xA8B204B5 = .ok (.vflog2 5 18 9 3) := by decide

theorem test_major2Ba :
    decode 0xACB25830 = .ok (.vcvtF2bf 5 18 11 3) ∧
    decode 0xACB20831 = .ok (.vcvtBf2f 5 18 true 3) ∧
    decode 0xACB25832 = .ok (.vcvtF2h 5 18 11 3) ∧
    decode 0xACB20833 = .ok (.vcvtH2f 5 18 true 3) ∧
    decode 0xACB21034 = .ok (.vcvtF2e4 5 18 2 3) ∧
    decode 0xACB21035 = .ok (.vcvtE42f 5 18 2 3) ∧
    decode 0xACB21036 = .ok (.vcvtF2e5 5 18 2 3) ∧
    decode 0xACB21037 = .ok (.vcvtE52f 5 18 2 3) ∧
    decode 0xACB20038 = .ok (.vcvtF2i 5 18 3) ∧
    decode 0xACB20039 = .ok (.vcvtI2f 5 18 3) ∧
    decode 0xACB2003A = .ok (.vcvtN2f 5 18 3) ∧
    decode 0xACB2003B = .ok (.vcvtF2n 5 18 3) := by decide

theorem test_major2Bb :
    decode 0xACB2103C = .ok (.vcvtI2b 5 18 2 3) ∧
    decode 0xACB2103D = .ok (.vcvtB2i 5 18 2 3) := by decide

theorem test_major2C :
    decode 0xB0B20030 = .ok (.vbcast 5 18 3) ∧
    decode 0xB0B25801 = .ok (.vext 5 18 11) ∧
    decode 0xB0B25802 = .ok (.vins 5 18 11) ∧
    decode 0xB0B25833 = .ok (.vperm 5 18 11 3) ∧
    decode 0xB0A00034 = .ok (.viota 5 3) ∧
    decode 0xB0B25035 = .ok (.vred 5 18 .xor 3) ∧
    decode 0xB0B25036 = .ok (.vscan 5 18 .xor 3) ∧
    decode 0xB0B20037 = .ok (.vcomp 5 18 3) ∧
    decode 0xB0B25838 = .ok (.vslide 5 18 11 3) := by decide

theorem test_major2D :
    decode 0xB4660800 = .ok (.pand 3 6 1) ∧
    decode 0xB4660801 = .ok (.por 3 6 1) ∧
    decode 0xB4660802 = .ok (.pxor 3 6 1) ∧
    decode 0xB4660803 = .ok (.pandn 3 6 1) ∧
    decode 0xB4660004 = .ok (.pnot 3 6) ∧
    decode 0xB4A30005 = .ok (.pcnt 5 3) ∧
    decode 0xB4A30006 = .ok (.pfirst 5 3) ∧
    decode 0xB4650007 = .ok (.pset 3 5) ∧
    decode 0xB4A30008 = .ok (.pgets 5 3) := by decide

theorem test_major2E :
    decode 0xB9964026 = .ok (.mma 3 5 18 .e4m3 true true) ∧
    decode 0xB9964B27 = .ok (.mmaIx 3 5 18 11 .e4m3 true true) := by decide

theorem test_major2F :
    decode 0xBD964826 = .ok (.msp 3 5 18 8 .e4m3 true true) := by decide

theorem test_major30 :
    decode 0xC0600000 = .ok (.mzero 3) ∧
    decode 0xC0650001 = .ok (.mlda 3 5) ∧
    decode 0xC0650002 = .ok (.msta 3 5) ∧
    decode 0xC0660003 = .ok (.mmov 3 6) ∧
    decode 0xC0A00484 = .ok (.mstat 5 9) ∧
    decode 0xC0A00485 = .ok (.mwait 5 9) := by decide

theorem test_major31 :
    decode 0xC4050000 = .ok (.cpy 5) ∧
    decode 0xC4059001 = .ok (.cpyx 5 18) := by decide

theorem test_major32 :
    decode 0xC8050000 = .ok (.coll 5) := by decide

theorem test_major33 :
    decode 0xCCB20000 = .ok (.qpush 5 9) ∧
    decode 0xCCB20400 = .ok (.qpushv 5 9) ∧
    decode 0xCCB2C800 = .ok (.qpop 5 9 6) ∧
    decode 0xCCB2CC00 = .ok (.qpopv 5 9 6) ∧
    decode 0xCCB21000 = .ok (.qbind 5 9) ∧
    decode 0xCCB21400 = .ok (.qstat 5 9) := by decide

theorem test_major34 :
    decode 0xD0B25800 = .ok (.wlpsh 5 18 11) ∧
    decode 0xD0B20481 = .ok (.wlpop 5 18 9) ∧
    decode 0xD0050002 = .ok (.wlack 5) ∧
    decode 0xD0050003 = .ok (.wlret 5) ∧
    decode 0xD0B25804 = .ok (.wlsta 5 18 11) ∧
    decode 0xD0B20005 = .ok (.wlcfg 5 18) := by decide

theorem test_major35 :
    decode 0xD4000000 = .ok .endTask ∧
    decode 0xD4000001 = .ok .yield ∧
    decode 0xD4000002 = .ok .align ∧
    decode 0xD4000003 = .ok .trig ∧
    decode 0xD4050004 = .ok (.migr 5) ∧
    decode 0xD4A30005 = .ok (.widx 5 3) ∧
    decode 0xD4000006 = .ok .ueret := by decide

theorem test_major36 :
    decode 0xD8A0B6D0 = .ok (.csrr 5 0xb6d) ∧
    decode 0xD8B2B6D1 = .ok (.csrw 5 18 0xb6d) ∧
    decode 0xD8B2B6D2 = .ok (.csrs 5 18 0xb6d) ∧
    decode 0xD8B2B6D3 = .ok (.csrc 5 18 0xb6d) := by decide

theorem test_major37 :
    decode 0xDC000000 = .ok .eret ∧
    decode 0xDC050001 = .ok (.spill 5) ∧
    decode 0xDC050002 = .ok (.fill 5) ∧
    decode 0xDC050003 = .ok (.wake 5) ∧
    decode 0xDC059004 = .ok (.tlbiRange 5 18) ∧
    decode 0xDC250004 = .ok (.tlbiAsid 5) ∧
    decode 0xDC400004 = .ok .tlbiAll ∧
    decode 0xDC000005 = .ok .iflush ∧
    decode 0xDC000006 = .ok .halt ∧
    decode 0xDC650007 = .ok (.mspill 3 5) ∧
    decode 0xDC650008 = .ok (.mfill 3 5) := by decide

theorem test_major38 :
    decode 0xE0005B6D = .ok (.trap 0x5b6d) ∧
    decode 0xE000DB6D = .ok (.brk 0x5b6d) := by decide


set_option maxRecDepth 8000

/-! ### Small states -/

/-- A slot Ready at address 0, in the state after reset, with one instruction in its instruction cache. -/
def base : State := State.reset.withFetchWord 32 0x08000000
def at_ (l : Level) (s : State) : State := s.updCur fun x => { x with level := l }
def setG (r : RegNo) (v : W64) (s : State) : State := s.updCur fun x => x.writeG r v
def setV (r : RegNo) (v : W32) (s : State) : State := s.updCur fun x => { x with regs := { x.regs with v := x.regs.v.set r.toNat (.replicate 16 v) r.isLt } }
def setP (r : PredNo) (v : Pred) (s : State) : State := s.updCur fun x => { x with regs := { x.regs with p := x.regs.p.set r.toNat v r.isLt } }
/-- One slice of the tile is open to ASID 0 of tenant 7, package 1 is a member, and S has a trap vector. -/
def sliced (s : State) : State :=
  (((s.updTile 0 fun t => { t with windows := [⟨0, 1, 0, 3, true, false⟩] }).updPkg fun p => { p with asids := p.asids.set 0 ⟨7, 5, 0, true, 1⟩, members := [1] }).updCur
    fun x => { x with sc := { x.sc with tenant := 7, stvec := 0x4000 } })
/-- Registers: g4 a pointer into the slice, g5 a count, g6 an FP32 subnormal, g7 a NaN, g8 a pointer with a bit of [51:48], g9 a misaligned pointer. -/
def regs (s : State) : State :=
  setG 4 0x80000040 (setG 5 3 (setG 6 1 (setG 7 0x7FC00001 (setG 8 0x0001000080000000 (setG 9 0x80000041 (setG 10 0xFFFFFFFFFFFFFFFF s))))))
def user : State := regs (sliced (at_ .u base))

/-- Whether a step answers a next state. -/
def runs (i : Instr) (s : State) : Bool := match exec i s with | .next _ => true | _ => false
/-- What the state after an instruction shows. -/
def shows {α : Type} (i : Instr) (s : State) (f : State → α) : Option α := match exec i s with | .next t => some (f t) | _ => none

/-! ### Scalar instructions -/

theorem witness_IntegerResults : ∀ i ∈ [Instr.add 11 4 5, .sub 11 4 5, .mul 11 10 10, .mulh 11 10 10, .mulhn 11 10 10, .and 11 4 5, .or 11 4 5, .xor 11 4 5,
    .andn 11 4 5, .shl 11 4 10, .shr 11 4 10, .sra 11 10 5, .min 11 10 5, .max 11 10 5, .minn 11 10 5, .maxn 11 10 5, .clz 11 0, .popc 11 10, .addi 11 10 0x8000,
    .andi 11 10 0xFFFF, .ori 11 0 0xFFFF, .xori 11 0 0x8000, .shli 11 10 63, .shri 11 10 63, .srai 11 10 63, .lim 11 3 0xFFFF, .add 0 4 5],
    CanIssue i user ∧ runs i user = true := by
  simp only [CanIssue]; decide

theorem witness_FieldCompareResults : (∀ i ∈ [Instr.bfx 11 10 5, .bfxn 11 10 5, .bfi 11 10 5, .sel 11 4 5 0, .sel 11 4 5 1, .cmp 2 4 4 .eq, .cmp 2 4 4 .lt, .cmpi 2 .lt 10 0,
      .cmpi 2 .ltn 10 0, .psub 11 4 5, .ptag 11 4 10, .pget 11 8], CanIssue i user ∧ runs i user = true) ∧
    user.cur.readP 0 ≠ 0 ∧ user.cur.readP 1 = 0 ∧ Meets .eq (user.cur.readG 4) (user.cur.readG 4) ∧ ¬Meets .lt (user.cur.readG 4) (user.cur.readG 4) ∧
    Meets .lt (user.cur.readG 10) ((0 : BitVec 15).signExtend 64) ∧ ¬Meets .ltn (user.cur.readG 10) ((0 : BitVec 15).signExtend 64) := by
  simp only [CanIssue, Meets]; decide

theorem witness_DivisionResults : (∀ i ∈ [Instr.div 11 4 0 0, .divn 11 4 5 15, .rem 11 10 5 1, .remn 11 10 5 2, .fdiv 11 0 0 0, .fdiv 11 6 6 3, .fsqrt 11 0 0, .fsqrt 11 6 4],
      CanIssue i user ∧ runs i user = true) ∧
    (¬Subnormal ((user.cur.readG 0).setWidth 32) ∧ ¬Subnormal (f32div user.cur.mode ((user.cur.readG 0).setWidth 32) ((user.cur.readG 0).setWidth 32)).bits) ∧
    ¬Subnormal (f32sqrt user.cur.mode ((user.cur.readG 0).setWidth 32)).bits ∧ Subnormal ((user.cur.readG 6).setWidth 32) := by
  simp only [CanIssue, Subnormal]; decide

/-- The clauses of PADD and PADDI at the ends of their ranges: the sum 0, the sum 2⁴⁸ − 1, one less and one more, and a set tag bit. -/
theorem witness_PointerAddition : (∀ i ∈ [Instr.padd 11 4 0, .paddi 11 4 0x7FFF, .padd 11 8 5, .paddi 11 8 0, .padd 11 0 10, .paddi 11 0 0xFFFF], CanIssue i user ∧ runs i user = true) ∧
    (user.cur.readG 4).extractLsb' 48 4 = 0 ∧ (user.cur.readG 8).extractLsb' 48 4 ≠ 0 ∧
    0 ≤ ((user.cur.readG 0).toNat % 2 ^ 48 : Nat) + (user.cur.readG 0).toInt ∧ ((user.cur.readG 0).toNat % 2 ^ 48 : Nat) + (user.cur.readG 10).toInt < 0 ∧
    ((user.cur.readG 0).toNat % 2 ^ 48 : Nat) + (0xFFFF : BitVec 16).toInt < 0 := by
  simp only [CanIssue]; decide

theorem witness_ScalarFpResults : (∀ i ∈ [Instr.fadd 11 4 5, .fsub 11 4 5, .fmul 11 4 5, .fmin 11 0 7, .fmax 11 0 7, .fcmp 11 0 0 .eq, .fcmp 11 7 0 .lt, .fcvtF2i 11 7, .fcvtF2n 11 7,
      .fcvtI2f 11 10, .fcvtN2f 11 10, .fclass 11 7, .fma 11 4 5 6, .fms 11 4 5 6, .fnma 11 4 5 6], CanIssue i user ∧ runs i user = true) ∧
    (FMeets .eq ((user.cur.readG 0).setWidth 32) ((user.cur.readG 0).setWidth 32) ∧ ¬FSignals .eq ((user.cur.readG 0).setWidth 32) ((user.cur.readG 0).setWidth 32)) ∧
    (¬FMeets .lt ((user.cur.readG 7).setWidth 32) ((user.cur.readG 0).setWidth 32) ∧ FSignals .lt ((user.cur.readG 7).setWidth 32) ((user.cur.readG 0).setWidth 32)) := by
  simp only [CanIssue, FMeets, FSignals, IsNaN]; decide

theorem witness_ControlTransfers : (∀ i ∈ [Instr.brAny 0 1, .brNone 0 1, .brAny 1 1, .brNone 1 0x3FFFFF, .bcc 4 4 .eq 1, .bcc 4 4 .ne 1, .bra 0x2000000, .call 0x3FFFFFF, .jr 4, .callr 4,
      .jr 9, .callr 9, .ret, .loop 5 0x1FFFFF, .loop 6 1, .loop 0 1], CanIssue i user ∧ runs i user = true) ∧
    user.cur.readP 0 ≠ 0 ∧ user.cur.readP 1 = 0 ∧ Meets .eq (user.cur.readG 4) (user.cur.readG 4) ∧ ¬Meets .ne (user.cur.readG 4) (user.cur.readG 4) ∧
    (user.cur.readG 4).toNat % 4 = 0 ∧ (user.cur.readG 9).toNat % 4 ≠ 0 ∧ (user.cur.readG 31).toNat % 4 = 0 ∧ user.cur.readG 5 ≠ 1 ∧ user.cur.readG 6 = 1 ∧
    (let s := setG 31 2 user; CanIssue .ret s ∧ (s.cur.readG 31).toNat % 4 ≠ 0) := by
  simp only [CanIssue, Meets]; decide

/-! ### REPF -/

def code (ws : List Nat) (s : State) : State :=
  s.updTile 0 fun t => { t with icache := [⟨0, 0, (ws ++ List.replicate (16 - ws.length) 0).flatMap fun w => [BitVec.ofNat 8 w, BitVec.ofNat 8 (w / 256), BitVec.ofNat 8 (w / 65536), BitVec.ofNat 8 (w / 16777216)]⟩] }
/-- REPF and a body of one word. -/
def framed (body : Nat) : State := code [0x4C00F000, body] (base.updCur fun x => { x with mc := { x.mc with mscodel := 0x100 } })

theorem witness_FrameCapture :
    (CanIssue (.repf 0 3 6 0) (framed 0x08A50001) ∧ runs (.repf 0 3 6 0) (framed 0x08A50001) = true) ∧
    (∀ j w, [0x08A50001#32][j]? = some w → Fetched (framed 0x08A50001) j w ∧ Framable 6 3 w) := by
  refine ⟨by simp only [CanIssue]; decide, fun j w h => ?_⟩
  match j, h with
  | 0, h => cases h; exact ⟨by simp only [Fetched]; decide, .addi 5 5 1, .addi 8 8 1, by decide, by decide⟩

/-- The same with a code region of one word. -/
def cut (body : Nat) : State := code [0x4C00F000, body] (base.updCur fun x => { x with level := .u, u := { x.u with codel := 4 } })

theorem witness_FrameCapture_stops :
    (CanIssue (.repf 0 3 6 0) (cut 0) ∧ (cut 0).cur.inRegion (bodyAt (cut 0) 0) = false) ∧
    (Fetched (framed 0xFFFFFFFF) 0 0xFFFFFFFF ∧ decode 0xFFFFFFFF = .illegal 1) ∧
    (Fetched (framed 0x4C00F000) 0 0x4C00F000 ∧ advanced 6 3 (.repf 0 3 6 0) = none) ∧
    (Fetched (framed 0x0BE50001) 0 0x0BE50001 ∧ decode 0x0BE50001 = .ok (.addi 31 5 1) ∧ advanced 6 3 (.addi 31 5 1) = some none) := by
  simp only [CanIssue, Fetched]; decide


/-! ### Memory instructions -/

/-- An element in range, aligned, and in a slice. -/
def inSlice (s : State) (p : W64) (n : Nat) (e : Elem) : Bool :=
  (p.extractLsb' 48 4 == 0) && decide (0 ≤ elemVa p e.off) && decide (elemVa p e.off < 2 ^ 48) && ((elemVa p e.off).toNat % n == 0) &&
    (match elemCls s p e.off with | .sram _ _ => true | _ => false)

theorem reaches_of_inSlice {s : State} {p : W64} {n : Nat} {e : Elem} (k : ReqKind) (ctl : Bool) (h : inSlice s p n e = true) : Reaches s p n k ctl e := by
  simp only [inSlice, Bool.and_eq_true, decide_eq_true_eq, beq_iff_eq] at h
  obtain ⟨⟨⟨⟨h1, h2⟩, h3⟩, h4⟩, h5⟩ := h
  refine ⟨h1, h2, h3, h4, ?_⟩
  cases hc : elemCls s p e.off <;> simp only [hc] at h5 ⊢ <;> cases h5

theorem roomy_of_quiet {s : State} (p : W64) (w : Bool) (l : List Elem) (hs : s.cur.speculates = false) : Roomy s p w l := by
  intro h
  rw [speculative, hs] at h
  cases h

/-- An access that may issue, whose elements all lie in a slice, with some byte named. -/
def goodAccess (s : State) (x : Instr × W64 × Nat × List Elem) : Prop :=
  (CanIssue x.1 s ∧ runs x.1 s = true) ∧ x.2.2.2.all (inSlice s x.2.1 x.2.2.1) = true ∧ liveElems x.2.2.2 ≠ [] ∧ s.cur.speculates = false

/-- The hypotheses of `Accesses` all hold of such an access. -/
theorem access_hypotheses {s : State} {i : Instr} {p : W64} {n : Nat} {l : List Elem} (k : ReqKind) (write ctl : Bool) (h : goodAccess s (i, p, n, l)) :
    CanIssue i s ∧ (∀ e ∈ l, Reaches s p n k ctl e) ∧ liveElems l ≠ [] ∧ Roomy s p write (liveElems l) := by
  obtain ⟨⟨h1, -⟩, h2, h3, h4⟩ := h
  exact ⟨h1, fun e he => reaches_of_inSlice k ctl (List.all_eq_true.mp h2 e he), h3, roomy_of_quiet _ _ _ h4⟩

/-- Pointers with formats: g12 to BF16 elements, g13 to blocks of 32. -/
def mem : State := setG 12 0x1100000080000040 (setG 13 0x1550000080000040 (setG 14 0x80000400 user))
def mp (r : RegNo) : W64 := mem.cur.readG r

theorem witness_LoadsIssue : ∀ x ∈ [
    (Instr.ld 11 4 0 false .d 0xFF, mp 4, 8, oneElem (255 * 8) 8 []), (.ld 11 14 15 true .b 0x100, mp 14, 1, oneElem (-256) 1 []), (.ldn 11 4 3 false .w 1, mp 4, 4, oneElem 4 4 []),
    (.ldx 11 4 5 0 true .h true, mp 4, 2, oneElem 6 2 []), (.ldx 11 12 5 0 true .h false, mp 12, 2, oneElem 6 2 []),
    (.vld 3 4 0 false 0 1, mp 4, 64, [⟨0, 64, 64, 2 ^ 64 - 1, []⟩]), (.vldC 3 12 0 false 0 0, mp 12, 32, [⟨0, 0, 32, 2 ^ 32 - 1, []⟩]),
    (.vldC 3 13 0 false 0 0, mp 13, 32, [⟨0, 0, 32, 2 ^ 32 - 1, []⟩]),
    (.vldx 3 4 5 0 false .w 0 false, mp 4, 4, actLanes 0xFFFF 4 (fun _ => 0) fun _ => []), (.vlds 3 4 5 0 0 false, mp 4, 4, actLanes 0xFFFF 4 (fun _ => 0) fun _ => [])],
    goodAccess mem x := by
  simp only [goodAccess, CanIssue]; decide

theorem witness_StoresIssue : ∀ x ∈ [
    (Instr.st 5 4 0 false .d 0xFF, mp 4, 8, oneElem (255 * 8) 8 (lowBytes 8 (mp 5))), (.stx 5 12 5 0 true .h, mp 12, 2, oneElem 6 2 (lowBytes 2 (mp 5))),
    (.vst 3 4 0 false 0 1, mp 4, 64, [⟨0, 64, 64, 2 ^ 64 - 1, List.replicate 64 0⟩]),
    (.vstx 3 4 5 0 false .w 0, mp 4, 4, actLanes 0xFFFF 4 (fun _ => 0) fun _ => List.replicate 4 0),
    (.vsts 3 4 5 0 0 false, mp 4, 4, actLanes 0xFFFF 4 (fun _ => 0) fun _ => List.replicate 4 0)],
    goodAccess mem x := by
  simp only [goodAccess, CanIssue]; decide

theorem witness_FullEmptyIssue : ∀ i ∈ [Instr.ldf 11 4 0, .ldff 11 4 15, .ste 5 4 0, .stef 5 4 0, .feclr 4 0, .feget 11 4 0], goodAccess mem (i, mp 4, 8, oneElem 0 8 []) := by
  simp only [goodAccess, CanIssue]; decide

theorem witness_AtomicsIssue : ∀ i ∈ [Instr.amoAdd 11 4 5 0 .d, .amoAnd 11 4 5 0 .d, .amoOr 11 4 5 0 .w, .amoXor 11 4 5 0 .d, .amoMin 11 4 5 0 .w, .amoMax 11 4 5 0 .d, .amoMinn 11 4 5 0 .w,
    .amoMaxn 11 4 5 0 .d, .amoSwap 11 4 5 15 .w, .amoFadd 11 4 5 0, .cas 11 4 5 6 .d], goodAccess mem (i, mp 4, 8, oneElem 0 8 []) := by
  simp only [goodAccess, CanIssue]; decide

theorem witness_ReservationsIssue : ∀ i ∈ [Instr.ldr 11 4 0 .d, .stc 11 4 5 0 .d, .wrs 11 4 0 .d], goodAccess mem (i, mp 4, 8, oneElem 0 8 []) ∧
    (let s := mem.updCur fun x => { x with rsv := some (mp 4, 8, 64, 1) }
     goodAccess s (i, mp 4, 8, oneElem 0 8 []) ∧ s.cur.rsv = some (mp 4, 8, 64, 1)) ∧ mem.cur.rsv = none := by
  simp only [goodAccess, CanIssue]; decide

/-- A Piste chunk in which an update is kept. -/
def chunk : State := mem.updCur fun x => { x with spec := { Spec.none with mode := .chunk, restart := 0x40, ckpt := some ⟨x.regs, 0, 0, none⟩ }, sc := { x.sc with piste := true } }

theorem witness_UpdatesIssue : ∀ i ∈ [Instr.rupdAdd 4 5 .d, .rupdAnd 4 5 .d, .rupdOr 4 5 .w, .rupdXor 4 5 .d, .rupdMin 4 5 .w, .rupdMax 4 5 .d, .rupdMinn 4 5 .w, .rupdMaxn 4 5 .d,
    .rupdFadd 4 5], goodAccess mem (i, mp 4, 8, oneElem 0 8 []) := by
  simp only [goodAccess, CanIssue]; decide

theorem witness_UpdatesIssue_kept : CanIssue (.rupdAdd 4 5 .d) chunk ∧ chunk.cur.speculates = true ∧ inSlice chunk (mp 4) 8 ⟨0, 0, 8, 255, []⟩ = true ∧
    (elemCls chunk (mp 4) 0).away = false ∧ runs (.rupdAdd 4 5 .d) chunk = true := by
  simp only [CanIssue]; decide

/-- The first three traps of an access, at the first address out of each range. -/
theorem witness_AccessTraps : (∀ i ∈ [Instr.ld 11 8 0 false .d 0, .ldn 11 8 0 false .w 0, .st 11 8 0 false .d 0, .ld 11 0 0 false .b 0x1FF, .ld 11 9 0 false .h 0, .ldf 11 8 0, .ldf 11 9 0, .stef 11 9 0,
      .amoAdd 11 9 5 0 .d, .cas 11 9 5 6 .w, .ldr 11 9 0 .d, .rupdAdd 9 5 .d], CanIssue i mem ∧ runs i mem = true) ∧
    (mp 8).extractLsb' 48 4 ≠ 0 ∧ elemVa 0 ((0x1FF : BitVec 9).toInt * 1) < 0 ∧ 2 ^ 48 ≤ elemVa 0xFFFFFFFFFFF8 (1 * 8) ∧ (mp 9).extractLsb' 48 4 = 0 ∧ (elemVa (mp 9) 0).toNat % 2 ≠ 0 := by
  simp only [CanIssue]; decide

/-! ### Fences -/

def waits (f : Task → Task) : State := mem.updTask mem.cur.u.tid f

theorem witness_Fences : (∀ i ∈ [Instr.fence .pod, .fenceAcq .slot, .fenceRel .tile, .fenceEng .pod], CanIssue i mem ∧ runs i mem = true) ∧
    (mem.cur.spec.commit ≠ .applying ∧ mem.updatesOut mem.cur.u.tid .pod = false ∧ mem.enginesOut mem.cur.u.tid .pod = false ∧ mem.refusal .pod = none) ∧
    (let s := mem.updCore 0 fun c => { c with q2 := [⟨0x80000100, none, mem.cur.u.tid, 0, 3, 1, false, 0, []⟩] }
     CanIssue (.fenceEng .pod) s ∧ s.enginesOut s.cur.u.tid .pod = true) ∧
    (let s := waits fun t => { t with refused := [⟨0, 4, 1, 0x80000040⟩] }
     CanIssue (.fence .pod) s ∧ s.updatesOut s.cur.u.tid .pod = false ∧ s.refusal .pod = some ⟨0, 4, 1, 0x80000040⟩) := by
  simp only [CanIssue]; decide


/-! ### Vector and predicate instructions -/

/-- v1 NaNs, v2 FP32 ones, v3 subnormals, v0 zeros; p1 no lane, p2 the lanes 0 and 15. -/
def vecs : State := setP 2 0x8001 (setV 1 0x7FC00001 (setV 2 0x3F800000 (setV 3 1 user)))
def vx (r : RegNo) (k : Nat) : W32 := lane (vecs.cur.readV r) k

theorem witness_VectorIntegerResults : ∀ i ∈ [Instr.vadd 4 1 2 0, .vsub 4 1 2 0, .vmul 4 1 2 0, .vmulh 4 1 2 0, .vand 4 1 2 0, .vor 4 1 2 0, .vxor 4 1 2 0, .vshl 4 1 2 0, .vshr 4 1 2 0,
    .vsra 4 1 2 0, .vmin 4 1 2 2, .vmax 4 1 2 0, .vminn 4 1 2 0, .vmaxn 4 1 2 1, .vabs 4 1 0, .vneg 4 1 0, .vclz 4 0 0, .vpopc 4 1 0, .vma 4 1 2 3 2], CanIssue i vecs ∧ runs i vecs = true := by
  simp only [CanIssue]; decide

theorem witness_VectorCompares : (∀ i ∈ [Instr.vcmp 3 1 2 2 .ltn, .vfcmp 3 2 2 2 .le, .vfcmp 3 1 2 2 .lt], CanIssue i vecs ∧ runs i vecs = true) ∧
    Marks 0x8001 (fun k => Meets .ltn (vx 2 k) (vx 1 k)) 0x8001 ∧ Marks 0x8001 (fun k => FMeets .le (vx 2 k) (vx 2 k)) 0x8001 ∧
    (¬∃ k, k < 16 ∧ (0x8001 : Pred).getLsbD k = true ∧ FSignals .le (vx 2 k) (vx 2 k)) ∧
    Marks 0x8001 (fun k => FMeets .lt (vx 1 k) (vx 2 k)) 0 ∧ (∃ k, k < 16 ∧ (0x8001 : Pred).getLsbD k = true ∧ FSignals .lt (vx 1 k) (vx 2 k)) := by
  simp only [CanIssue, Marks, Meets, FMeets, FSignals, IsNaN]; decide

theorem witness_LaneMovement : ∀ i ∈ [Instr.vsel 4 1 2 2, .vbcast 4 10 2, .vext 11 1 10, .vins 4 10 10, .vperm 4 1 2 0, .viota 4 2, .vcomp 4 1 2, .vslide 4 1 10 0],
    CanIssue i vecs ∧ runs i vecs = true := by
  simp only [CanIssue]; decide

/-- The flags of a sum, a product and a fused sum of ones: none. The absolute value and the negation of a NaN are the canonical NaN. -/
theorem witness_VectorFpResults : (∀ i ∈ [Instr.vfadd 4 2 2 2, .vfsub 4 2 2 2, .vfmul 4 2 2 2, .vfmin 4 1 2 2, .vfmax 4 1 2 2, .vfabs 4 1 2, .vfneg 4 1 2, .vfma 4 2 2 2 2, .vfms 4 2 2 2 2,
      .vfnma 4 2 2 2 2], CanIssue i vecs ∧ runs i vecs = true) ∧
    Gathers 0x8001 (fun k => (f32add .rne (vx 2 k) (vx 2 k)).flags) 0 ∧ Gathers 0x8001 (fun k => (f32mul .rne (vx 3 k) (vx 3 k)).flags) 3 ∧
    Gathers 0x8001 (fun k => (f32mul .rne (vx 2 k) (vx 2 k)).flags) 0 ∧ Gathers 0x8001 (fun k => (f32fused .rne false false (vx 2 k) (vx 2 k) (vx 2 k)).flags) 0 ∧
    (∀ k, k < 16 → IsNaN (vx 1 k)) ∧ (∀ k, k < 16 → ¬IsNaN (vx 2 k)) ∧ vecs.cur.mode = .rne := by
  simp only [CanIssue, Gathers, IsNaN]; decide

theorem witness_VectorFunctionResults : (∀ i ∈ [Instr.vfdiv 4 2 2 0 2, .vfsqrt 4 2 1 2, .vfrcp 4 2 2 2, .vfrsq 4 2 3 2, .vfexp2 4 0 4 2, .vflog2 4 2 15 2, .vfsqrt 4 3 0 2], CanIssue i vecs ∧ runs i vecs = true) ∧
    Gathers 0x8001 (fun k => (f32div .rne (vx 2 k) (vx 2 k)).flags) 0 ∧ Gathers 0x8001 (fun k => (f32sqrt .rne (vx 2 k)).flags) 0 ∧ Gathers 0x8001 (fun k => (f32log2 (vx 2 k)).flags) 0 ∧
    (¬∃ k, k < 16 ∧ (0x8001 : Pred).getLsbD k = true ∧ (Subnormal (vx 2 k) ∨ Subnormal (f32sqrt .rne (vx 2 k)).bits)) ∧
    (∃ k, k < 16 ∧ (0x8001 : Pred).getLsbD k = true ∧ Subnormal (vx 3 k)) := by
  simp only [CanIssue, Gathers, Subnormal]; decide

theorem witness_ConversionResults : (∀ i ∈ [Instr.vcvtF2bf 4 2 2 2, .vcvtF2h 4 2 2 2, .vcvtBf2f 4 2 true 2, .vcvtH2f 4 2 false 2, .vcvtF2e4 4 2 3 2, .vcvtF2e5 4 2 0 2, .vcvtE42f 4 2 3 2, .vcvtE52f 4 2 3 2,
      .vcvtF2i 4 1 2, .vcvtF2n 4 1 2, .vcvtI2f 4 1 2, .vcvtN2f 4 1 2, .vcvtI2b 4 1 3 2, .vcvtB2i 4 2 3 2], CanIssue i vecs ∧ runs i vecs = true) ∧
    Gathers 0x8001 (fun k => (narrow32 fbf16 .rne (vx 2 k)).flags ||| (narrow32 fbf16 .rne (vx 2 k)).flags) 0 ∧ Gathers 0x8001 (fun k => (narrow32 fe4m3 .rne (vx 2 k)).flags) 0 ∧
    Gathers 0x8001 (fun k => (f32toI32 .rne (vx 1 k)).2) 16 ∧ Gathers 0x8001 (fun _ => 0) 0 := by
  simp only [CanIssue, Gathers]; decide

theorem witness_ReductionResults : (∀ i ∈ [Instr.vred 11 1 .add 2, .vred 11 1 .min 1, .vred 11 1 .max 2, .vred 11 1 .minn 1, .vred 11 1 .maxn 2, .vred 11 1 .and 1, .vred 11 1 .or 2, .vred 11 1 .xor 2,
      .vred 11 2 .fadd 2, .vred 11 1 .fmin 1, .vred 11 1 .fmax 2, .vscan 4 2 .fadd 2, .vscan 4 2 .xor 1], CanIssue i vecs ∧ runs i vecs = true) ∧
    Gathers 0x8001 (runFlags (redComb .fadd .rne) (vx 2) 0x8001) 0 := by
  simp only [CanIssue, Gathers]; decide

/-- PFIRST finds the lane 0, the lane 15 and none. -/
theorem witness_PredicateResults : (∀ i ∈ [Instr.pand 3 2 0, .por 3 2 1, .pxor 3 2 0, .pandn 3 0 2, .pnot 3 2, .pset 3 10, .pset 0 10, .pcnt 11 2, .pfirst 11 2, .pfirst 11 1, .pgets 11 2],
      CanIssue i vecs ∧ runs i vecs = true) ∧
    (vecs.cur.readP 2).getLsbD 0 = true ∧ ((0x8000 : Pred).getLsbD 15 = true ∧ ∀ k, k < 15 → (0x8000 : Pred).getLsbD k = false) ∧ (∀ k, k < 16 → (vecs.cur.readP 1).getLsbD k = false) := by
  simp only [CanIssue]; decide

/-! ### Barriers, transactions, traps -/

def wires (w : Wire) (s : State) : State := s.updTile 0 fun t => { t with wires := .replicate 16 w }
def arrive (p : Option Bool) (s : State) : State := s.updTask s.cur.u.tid fun t => { t with arrivals := .replicate 32 p }
def piste (s : State) : State := s.updCur fun x => { x with sc := { x.sc with piste := true } }

/-- The last member's arrival, an arrival that is not the last, and one that is no member's; a completed phase, and one that is not. -/
theorem witness_WireBarriers :
    (let s := wires ⟨1, 0, false⟩ user
     CanIssue (.bara 15) s ∧ Released s .tile ∧ runs (.bara 15) s = true ∧ (s.curId % 64 = 0)) ∧
    (let s := wires ⟨3, 0, true⟩ user
     CanIssue (.bara 0) s ∧ Released s .tile ∧ runs (.bara 0) s = true) ∧
    (let s := wires ⟨2, 0, true⟩ user
     CanIssue (.bara 0) s ∧ Released s .tile ∧ runs (.bara 0) s = true) ∧
    (∀ i ∈ [Instr.barw 15, .barg 15, .barq 11 15], CanIssue i user ∧ runs i user = true) ∧ (user.task user.cur.u.tid).arrival 15 = none ∧
    (let s := arrive (some false) (wires ⟨3, 2, true⟩ user)
     CanIssue (.barw 0) s ∧ CanIssue (.barg 0) s ∧ (s.task s.cur.u.tid).arrival 0 = some false ∧ runs (.barw 0) s = true ∧ runs (.barg 0) s = true) ∧
    (let s := arrive (some true) (wires ⟨3, 2, true⟩ user)
     CanIssue (.barw 0) s ∧ CanIssue (.barg 0) s ∧ (s.task s.cur.u.tid).arrival 0 = some true ∧ runs (.barw 0) s = true ∧ runs (.barg 0) s = true ∧ s.cur.spec.commit = .none) ∧
    (let s := piste (arrive (some true) (wires ⟨3, 2, true⟩ user))
     CanIssue (.barg 0) s ∧ runs (.barg 0) s = true) ∧
    (let s := wires ⟨3, 2, true⟩ (at_ .s user)
     CanIssue (.barset 0 5) s ∧ runs (.barset 0 5) s = true) := by
  simp only [CanIssue, Released]; decide

def inTx (n : Nat) (f : Spec → Spec) (s : State) : State :=
  s.updCur fun x => { x with spec := f { Spec.none with mode := .tx, depth := n, restart := 0x40, abortTo := 0x80, ckpt := some ⟨Regs.zero, x.u.fflags, x.u.frm, none⟩ } }
def bufferLine (s : State) : State := s.updCore 0 fun c => { c with buf := [⟨64, 5, s.curId, 1, List.replicate 64 7, 3⟩] }

theorem witness_TransactionInstructions :
    (∀ i ∈ [Instr.txb 4, .txelse 4, .txe, .txr, .txabort 255, .txst 11], CanIssue i user ∧ runs i user = true) ∧ user.cur.spec.commit = .none ∧ user.cur.sc.piste = false ∧ user.cur.spec.mode = .none ∧
    (let s := inTx 1 id user
     (∀ i ∈ [Instr.txb 4, .txelse 4, .txe, .txr, .txabort 255, .txst 11], CanIssue i s ∧ runs i s = true) ∧ s.bufKeys s.curId = [] ∧ s.noticeComing = false ∧ (∀ k, k ≤ 1 → s.cur.spec.alt k = none) ∧
       s.cur.spec.ckpt.isSome = true) ∧
    (let s := inTx 4 id user
     CanIssue (.txb 4) s ∧ CanIssue .txe s ∧ runs (.txb 4) s = true ∧ runs .txe s = true) ∧
    (let s := inTx 3 id user
     CanIssue (.txb 4) s ∧ runs (.txb 4) s = true) ∧
    (let s := bufferLine (inTx 1 id user)
     CanIssue .txe s ∧ s.writeSet ≠ [] ∧ runs .txe s = true) ∧
    (let s := inTx 2 (fun p => { p with alts := p.alts.setIfInBounds 1 (some 0x104) }) user
     CanIssue .txr s ∧ s.cur.spec.alt 2 = some 0x104 ∧ runs .txr s = true) := by
  simp only [CanIssue]; decide

def undelegated (s : State) : State := s.updCur fun x => { x with mc := { x.mc with mdeleg := 0 } }

/-- TRAP at U to S, at M to M; a fatal fault at S for want of a vector, and at M inside a trap. -/
theorem witness_TrapsTaken :
    (let s := undelegated user
     CanIssue (.trap 0x7FFF) s ∧ CanIssue (.brk 1) s ∧ ¬ToM s.cur 0x0F ∧ ¬ToM s.cur 0x10 ∧ s.cur.sc.stvec ≠ 0 ∧ s.cur.spec.mode = .none ∧ s.cur.spec.commit = .none ∧ runs (.trap 0x7FFF) s = true ∧ runs (.brk 1) s = true) ∧
    (let s := base
     CanIssue (.trap 0x7FFF) s ∧ ToM s.cur 0x0F ∧ ToM s.cur 0x10 ∧ ¬(s.cur.level = .m ∧ s.cur.mc.intrap = true) ∧ runs (.trap 0x7FFF) s = true ∧ runs (.brk 1) s = true) ∧
    (let s := undelegated (at_ .u base)
     CanIssue (.trap 0) s ∧ ¬ToM s.cur 0x0F ∧ s.cur.sc.stvec = 0 ∧ runs (.trap 0) s = true ∧ runs (.brk 0) s = true) ∧
    (let s := base.updCur fun x => { x with mc := { x.mc with intrap := true } }
     CanIssue (.trap 0) s ∧ (s.cur.level = .m ∧ s.cur.mc.intrap = true) ∧ runs (.trap 0) s = true ∧ runs (.brk 0) s = true) := by
  simp only [CanIssue, ToM]; decide


/-! ### Engines, queues and channels -/

/-- Every register but g0 a pointer of a format to rows of its own in the slice, and strides of 64 bytes. -/
def rowsOf (fmt : Nat) (s : State) : State :=
  ((List.range 31).foldl (fun s r => setG (BitVec.ofNat 5 (r + 1)) (BitVec.ofNat 64 (fmt * 2 ^ 56 + 0x80000000 + 1024 * (r % 16))) s) s).updCur
    fun x => { x with u := { x.u with msa := 64, msb := 64, msc := 64 } }
def ownedBy (o : Nat × W32 × W64) (s : State) : State := s.updCore 0 fun c => { c with accs := .replicate 8 { Acc.free with owner := some o } }
/-- The command a matrix instruction of that state pushes. -/
def command (s : State) (op : MOp) (n : PredNo) (ga gb : W64) (sa sb : W32) (v0 v1 : Vec) : MCmd :=
  ⟨op, n, ga, gb, sa, sb, v0, v1, s.cur.u.tid, s.curId, s.cur.mc.ctxser, s.cur.sc.asid, (s.task s.cur.u.tid).mser + 1⟩
def zeros : Vec := .replicate 16 0

theorem witness_MatrixCommands :
    (let s := rowsOf 0x13 user
     CanIssue (.mma 7 4 5 .e4m3 false true) s ∧ runs (.mma 7 4 5 .e4m3 false true) s = true ∧ (((s.core 0).accs.getD 7 Acc.free).owner = none ∧ s.cur.rmask.getLsbD 7 = false) ∧
       s.matrixTrap (command s (.mma .e4m3 false true false) 7 (s.cur.readG 4) (s.cur.readG 5) 64 64 zeros zeros) = none ∧
     CanIssue (.mmaIx 7 4 5 3 .e4m3 false true) s ∧ runs (.mmaIx 7 4 5 3 .e4m3 false true) s = true ∧
       s.matrixTrap (command s (.mma .e4m3 true true false) 7 (s.cur.readG 4) (s.cur.readG 5) 64 64 (s.cur.readV 3) zeros) = none) ∧
    (let s := setV 8 0x44444444 (setV 9 0x44444444 (rowsOf 0x13 user))
     CanIssue (.msp 7 4 5 8 .e4m3 false true) s ∧ runs (.msp 7 4 5 8 .e4m3 false true) s = true ∧
       s.matrixTrap (command s (.msp .e4m3 true false) 7 (s.cur.readG 4) (s.cur.readG 5) 64 64 (s.cur.readV 8) (s.cur.readV 9)) = none) ∧
    (let s := rowsOf 0x10 user
     (∀ i ∈ [Instr.mlda 7 4, .msta 7 4, .mzero 0, .mmov 0 7], CanIssue i s ∧ runs i s = true) ∧
       s.matrixTrap (command s .mlda 7 (s.cur.readG 4) 0 64 0 zeros zeros) = none ∧ s.matrixTrap (command s .msta 7 (s.cur.readG 4) 0 64 0 zeros zeros) = none) ∧
    (let s := ownedBy (1, 0, 5) user
     CanIssue (.mzero 0) s ∧ ((s.core 0).accs.getD 0 Acc.free).owner = some (1, 0, 5) ∧ s.cur.u.tid ≠ 5 ∧ (slotIx s.curId, s.cur.mc.ctxser, s.cur.u.tid) ≠ (1, 0, 5) ∧
       runs (.mzero 0) s = true ∧ runs (.mmov 0 1) s = true) ∧
    (let s := user.updCur fun x => { x with rmask := 0xFF }
     CanIssue (.mzero 7) s ∧ ((s.core 0).accs.getD 7 Acc.free).owner = none ∧ s.cur.rmask.getLsbD 7 = true ∧ runs (.mzero 7) s = true) := by
  simp only [CanIssue]; decide

def queued (f : Task → Task) : State := user.updTask user.cur.u.tid f

theorem witness_EngineQueues :
    (let s := queued fun t => { t with q1 := [0x07000000, 0x011F0000], q3 := [5, 6], q5 := [9] }
     (∀ i ∈ [Instr.cpy 4, .cpyx 4 5, .coll 4, .mstat 11 0, .mwait 11 15, .qpop 11 1 0, .qpop 11 3 0, .qpop 11 5 0, .qpop 11 0 0, .qpop 11 4 0, .qpop 11 7 0], CanIssue i s ∧ runs i s = true) ∧
       (s.task s.cur.u.tid).out1 = 0 ∧ (s.task s.cur.u.tid).q1 = [0x07000000, 0x011F0000] ∧ (s.task s.cur.u.tid).q3 = [5, 6] ∧ (s.task s.cur.u.tid).q5 = [9]) ∧
    (let s := queued fun t => { t with out1 := 1 }
     (∀ i ∈ [Instr.mstat 11 0, .mwait 11 15, .qpop 11 1 0, .qpop 11 3 0, .qpop 11 5 0], CanIssue i s ∧ runs i s = true) ∧ (s.task s.cur.u.tid).out1 ≠ 0 ∧ (s.task s.cur.u.tid).q1 = []) := by
  simp only [CanIssue]; decide

def aChan : Chan := ⟨false, 0x400000000005, 9, 15, false, 100, [], 0, 0, false, false⟩
/-- All eight channels of the task bound in one way. -/
def bound (c : Chan) (s : State) : State := s.updTask s.cur.u.tid fun t => { t with chans := .replicate 8 (some c) }
def ofTask (tid : W64) (s : State) : State := s.updCur fun x => { x with u := { x.u with tid := tid } }
/-- The other end, a task of the same ASID. -/
def peer (s : State) : State := s.updTask 0x400000000005 fun t => { t with place := .slot 64, asid := s.cur.sc.asid }

theorem witness_Channels :
    (let s := bound { aChan with send := true, credits := 16 } user
     (∀ i ∈ [Instr.qpush 5 8, .qpushv 3 15, .qstat 11 8], CanIssue i s ∧ runs i s = true) ∧ (s.task s.cur.u.tid).chans.getD 0 none = some { aChan with send := true, credits := 16 } ∧
       (∀ k, s.peerDepth s.cur.u.tid { aChan with send := true, credits := 16 } = some k → 16 ≤ k)) ∧
    (let s := bound { aChan with words := (List.range 16).map (BitVec.ofNat 64) } user
     (∀ i ∈ [Instr.qpop 11 8 0, .qpopv 3 15 0], CanIssue i s ∧ runs i s = true)) ∧
    (let s := bound { aChan with words := (List.range 15).map (BitVec.ofNat 64) } user
     CanIssue (.qpopv 3 8 0) s ∧ CanIssue (.qpush 5 8) s ∧ runs (.qpopv 3 8 0) s = true ∧ runs (.qpush 5 8) s = true) ∧
    (let s := bound { aChan with depth := 14 } user
     (∀ i ∈ [Instr.qpop 11 8 0, .qpopv 3 8 0], CanIssue i s ∧ runs i s = true)) ∧
    (∀ i ∈ [Instr.qpush 5 8, .qpop 11 8 0, .qstat 11 8], CanIssue i user ∧ runs i user = true) ∧ (user.task user.cur.u.tid).chans.getD 0 none = none ∧
    (let s := bound { aChan with send := true, gone := true } user
     CanIssue (.qpush 5 8) s ∧ runs (.qpush 5 8) s = true) ∧
    (let s := peer (setG 15 0x208 (setG 14 0x400000000005 user))
     CanIssue (.qbind 14 8) s ∧ (s.cur.readG 15).getLsbD 9 = true ∧ runs (.qbind 14 8) s = true) ∧
    (let s := peer (setG 15 0x6405FF (setG 14 0x400000000005 user))
     CanIssue (.qbind 14 8) s ∧ (s.cur.readG 15).toNat = 15 + 15 * 2 ^ 4 + 2 ^ 8 + 2 ^ 10 + 100 * 2 ^ 16 ∧ (s.task (s.cur.readG 14)).place ≠ .ended ∧
       (s.task (s.cur.readG 14)).asid = s.cur.sc.asid ∧ runs (.qbind 14 8) s = true) ∧
    (let s := ofTask 0x400000000000 user
     CanIssue (.qstat 11 8) s ∧ s.cur.u.tid.toNat / 2 ^ 46 % 2 ^ 9 ≠ s.myTile ∧ runs (.qstat 11 8) s = true) := by
  simp only [CanIssue]; decide


/-! ### Worklists, tasks, CSRs, privileged instructions -/

def bytesAt (l : List (Nat × Nat)) : List Byte := l.flatMap fun x => bytesOfNat x.1 x.2
/-- The bytes of a header: no entry point beyond the first, one field of 16 bits, a worklist, ρ 4, depth 2, ASID 0, one page of code. -/
def hdrBytes (wlid entryp : Nat) : List Byte :=
  bytesAt [(8, entryp), (8, 1 * 2 ^ 12 + 16 * 2 ^ 16), (8, wlid + 4 * 2 ^ 13 + 2 * 2 ^ 23), (8, 77), (8, 88), (8, 3), (8, 5), (8, 0x8000 + 2 ^ 48), (8, 0x10000 + 2 ^ 48), (8, 2 ^ 57), (8, 9), (8, 0)] ++ List.replicate 32 0
def hdr : Header := Header.of (hdrBytes 3 0x80000200)
def aLaunch : Launch := ⟨1, none, hdr, 0x80000100, [0x8000], .running, 0, 0, 0, true, false, 0, 0, 1, [], false, 0, [], 0, none, false, 0⟩
def aList : WorkList := hdr.worklist 1 0 0 [0] 0
def anItem (k : Nat) : QItem := ⟨⟨BitVec.ofNat 32 k, 0, 0, 0, 7⟩, BitVec.ofNat 80 (k * 65536)⟩
/-- Worklist 3 and its launch. -/
def opened (w : WorkList) (s : State) : State :=
  s.updPkg fun p => { p with wls := p.wls.set 3 w, launches := p.launches.set 1 aLaunch, wlOwner := p.wlOwner.set 3 w.asid, nextLaunch := 2 }
def aCtx (s : State) : State :=
  s.updPkg fun p => { p with ctxs := p.ctxs.set 0 ⟨0, 3, true, 1, 0x100000, 4096, 0x5000, 1, 4, 0x6000, 0, 0, [], none, false, [], ⟨0x4000, 0, 8, 0, 0, 64, 512⟩, false, none⟩ }
def holding (n : Nat) (s : State) : State := s.updTask s.cur.u.tid fun t => { t with held := Vector.ofFn fun k => if k.val < n then some ⟨3, anItem k.val⟩ else none }
/-- g5 the worklist, g12 and g13 an item, g14 and g15 one that names too many words. -/
def listed : State := setG 5 3 (setG 12 9 (setG 13 0x500000000 (opened aList user)))
def store (va : Nat) (b : List Byte) (s : State) : State := { s with mem := (List.range b.length).foldl (fun m k => m.write (sramByte 0 va + k) (b.getD k 0)) s.mem }
/-- A header and its entry table at S. -/
def configured : State := setG 4 0x80000100 (aCtx (store 0x200 (bytesOfNat 8 0x9000) (store 0x100 (hdrBytes 3 0x80000200) (at_ .s user))))

theorem witness_WorklistInstructions :
    ((∀ i ∈ [Instr.wlpsh 11 5 12, .wlpop 16 5 0, .wlsta 11 5 0, .wlack 5, .wlret 5, .wlcfg 11 4], CanIssue i listed ∧ runs i listed = true) ∧
      (listed.wl? 3 = some aList ∧ aList.asid = listed.cur.sc.asid ∧ aList.closed = false) ∧ (listed.cur.ops = [] ∧ Released listed (listed.wlScope 3)) ∧
      listed.launch? aList.launch = some aLaunch ∧ (listed.task listed.cur.u.tid).held.getD 1 none = none ∧
      (listed.task listed.cur.u.tid).held.getD 3 none = none ∧ listed.pkg.wlOwner.get? 3 = some listed.cur.sc.asid) ∧
    (let s := holding 5 listed
     (∀ i ∈ [Instr.wlack 5, .wlret 5, .wlpop 16 5 0], CanIssue i s ∧ runs i s = true) ∧ (s.task s.cur.u.tid).held.getD 3 none = some ⟨3, anItem 3⟩ ∧ Released s (s.wlScope 3)) ∧
    (∀ i ∈ [Instr.wlpsh 11 5 12, .wlpop 16 5 0, .wlsta 11 5 0], CanIssue i user ∧ runs i user = true) ∧ user.wl? 3 = none ∧ user.pkg.wlOwner.get? 3 = none ∧
    (let s := setG 5 3 (opened { aList with asid := 4 } user)
     CanIssue (.wlsta 11 5 0) s ∧ s.pkg.wlOwner.get? 3 = some 4 ∧ s.cur.sc.asid ≠ 4 ∧ runs (.wlsta 11 5 0) s = true) := by
  simp only [CanIssue, Released]; decide

theorem witness_WorklistInstructions_items : itemFault (itemOf (listed.cur.readG 12) (listed.cur.readG 13)) hdr = none ∧
    itemFault (itemOf 0xFFFFFFFFFFFFFFFF 0xFFFFFFFFFFFFFFFF) hdr ≠ none := by decide

/-- The bytes of a read that has them. -/
def got : CfgRead × State → Option (List Byte) | (.ok b, _) => some b | _ => none
def afterHdr : State := (configured.charge.cfgSpan 0x80000100 128 64).2
def afterTable : State := (afterHdr.cfgSpan 0x80000200 8 8).2
theorem witness_WorklistInstructions_launch : CanIssue (.wlcfg 11 4) configured ∧ runs (.wlcfg 11 4) configured = true ∧ configured.cur.level ≠ .u ∧ Released configured .pkg ∧
    got (configured.charge.cfgSpan (configured.cur.readG 4) 128 64) = some (hdrBytes 3 0x80000200) ∧ hdr.pmaskp = 0 ∧ hdr.entryp = 0x80000200 ∧ hdr.nent = 0 ∧
    got (afterHdr.cfgSpan 0x80000200 8 8) = some (bytesOfNat 8 0x9000) ∧
    afterTable.refuseLaunch (hdrBytes 3 0x80000200) (wordsOf (bytesOfNat 8 0x9000)) (afterTable.launchPkgs 0 []) (hdr.asid == configured.cur.sc.asid) 0 0 = none ∧ afterTable.pkg.openings = [] := by
  simp only [CanIssue, Released]; decide

def withTask (f : Task → Task) (s : State) : State := s.updTask s.cur.u.tid f
/-- A task of launch 1 in the slot in focus. -/
def running : State := setG 4 0 (setG 5 1 (withTask (fun t => { t with place := .slot 0, launch := 1 }) (opened aList (aCtx (user.updCur fun x =>
  { x with lkey := 1, u := { x.u with launch := 1, uepc := 0x44, widf := BitVec.ofNat 39 (2 ^ 36 * 6 + 63), wid := 0x123456789ABCDEF } })))))

theorem witness_TaskInstructions :
    ((∀ i ∈ [Instr.endTask, .yield, .align, .trig, .migr 4, .migr 5, .migr 10, .widx 11 1, .widx 11 6, .ueret], CanIssue i running ∧ runs i running = true) ∧
      running.enginesOut running.cur.u.tid (running.trigScope 1) = false ∧ Released running .pod ∧ Released running (running.trigScope 1) ∧ running.cur.lkey = 1 ∧
      running.window? running.myTile running.cur.sc.asid = some ⟨0, 1, 0, 3, true, false⟩ ∧ (running.cur.readG 5).toNat % 512 ≠ running.myTile ∧
      running.launch? 1 = some aLaunch ∧ running.cur.spec.commit = .none ∧ (running.task running.cur.u.tid).out1 = 0 ∧ running.cur.u.active = false ∧
      (running.task running.cur.u.tid).trig = false) ∧
    (let s := withTask (fun t => { t with trig := true }) (running.updCore 0 fun c => { c with q2 := [⟨0x80000100, none, running.cur.u.tid, 0, 3, 1, false, 0, []⟩] })
     CanIssue .endTask s ∧ s.enginesOut s.cur.u.tid (s.trigScope s.cur.lkey) = true ∧ (s.task s.cur.u.tid).trig = true ∧ runs .endTask s = true) ∧
    (let s := running.updCur fun x => { x with u := { x.u with active := true } }
     CanIssue .ueret s ∧ s.cur.u.active = true ∧ runs .ueret s = true) ∧
    (let s := at_ .s running
     CanIssue (.migr 5) s ∧ s.cur.level ≠ .u ∧ runs (.migr 5) s = true) := by
  simp only [CanIssue, Released]; decide

theorem witness_CsrInstructions : (∀ i ∈ [Instr.csrr 11 0x032, .csrr 11 0x030, .csrw 11 5 0x001, .csrs 11 5 0x002, .csrc 11 0 0x003, .csrs 11 0 0x042, .csrw 0 5 0x0CF], CanIssue i user ∧ runs i user = true) ∧
    (let s := at_ .m user
     (∀ i ∈ [Instr.csrw 11 0 0x106, .csrw 11 5 0x106, .csrw 11 10 0x200, .csrc 11 10 0x232], CanIssue i s ∧ runs i s = true) ∧ AsidOk s 0x106 0 ∧ ¬AsidOk s 0x106 3) := by
  simp only [CanIssue, AsidOk]; decide

def another (x : Slot) (s : State) : State := { s with slots := [(9, x)] }
def other : Slot := { Slot.reset with status := .ready, level := .u, mc := { MCsr.reset with ctxser := 5 }, u := { UCsr.reset with launch := 1, tid := 77 }, lkey := 1 }
def saved : SaveRec := ⟨77, 9, 5, 0, 0, true, true, 0, { other with status := .saving, pc := 0x5000 }⟩
/-- At M, with g4 naming slot 9 of this package and g5 one of another. -/
def machine : State := setG 4 9 (setG 5 0x00010009 (setG 6 0x80000000 (setG 13 2 (opened aList (aCtx (at_ .m user))))))

theorem witness_PrivilegedInstructions :
    ((∀ i ∈ [Instr.eret, .spill 5, .fill 5, .wake 5, .spill 4, .fill 4, .tlbiRange 0 12, .tlbiRange 0 14, .tlbiAsid 0, .tlbiAll, .iflush, .halt, .mspill 0 6, .mfill 7 6], CanIssue i machine ∧ runs i machine = true) ∧
      machine.cur.level = .m ∧ (machine.cur.readG 5).toNat % 2 ^ 24 / 2 ^ 15 ≠ machine.pkg.podIndex.toNat ∧ (machine.cur.readG 4).toNat % 2 ^ 24 / 2 ^ 15 = machine.pkg.podIndex.toNat ∧
      9 ≠ machine.curId ∧ (machine.slot 9).status = .free ∧ machine.cur.spec.commit = .none ∧ machine.accInUse 0 = false ∧ machine.cur.readG 13 ≠ 0 ∧ machine.cur.readG 15 = 0) ∧
    (let s := another other machine
     (∀ i ∈ [Instr.spill 4, .fill 4, .wake 4], CanIssue i s ∧ runs i s = true) ∧ (s.slot 9).status = .ready) ∧
    (let s := another { other with status := .blocked .retrySleep, spec := { Spec.none with wake := true } } machine
     CanIssue (.wake 4) s ∧ (s.slot 9).status = .blocked .retrySleep ∧ runs (.wake 4) s = true) ∧
    (let s := (another { Slot.reset with mc := { MCsr.reset with ctxser := 5 } } machine).updTile 0 fun t => { t with recs := [(0, saved)] }
     CanIssue (.fill 4) s ∧ (s.tile (tileOf 9)).recs = [(0, saved)] ∧ (s.tile (tileOf 9)).prefetched = [] ∧ s.net.moving = [] ∧ s.launch? 1 = some aLaunch ∧ s.slotFits 9 aLaunch = true ∧
       saved.slot.fails = [] ∧ runs (.fill 4) s = true) ∧
    (let s := setG 4 0 (setG 14 1 (at_ .s user))
     (∀ i ∈ [Instr.eret, .halt, .tlbiRange 4 12, .tlbiAsid 4, .tlbiRange 14 12, .tlbiAsid 14], CanIssue i s ∧ runs i s = true) ∧ s.tenantOf? 0 = some s.cur.sc.tenant ∧ s.tenantOf? 1 ≠ some s.cur.sc.tenant) := by
  simp only [CanIssue]; decide

theorem witness_PrivilegedInstructions_accumulators :
    (∀ e ∈ (List.range 16).map fun r => (⟨r, 64 * r, 64, 2 ^ 64 - 1, List.replicate 64 0⟩ : Elem), inSlice machine (machine.cur.readG 6) 64 e = true) ∧ machine.cur.speculates = false ∧
    ((machine.core (coreOf machine.curId)).accs.getD 7 Acc.free).owner = none := by decide


/-! ### Events at homes and replies -/

/-- Four tiles with a slice open to ASID 0, and bytes in line 1 of the slice of tile 1. -/
def tiled : State :=
  let s := (List.range 4).foldl (fun s k => s.updTile k fun t => { t with windows := [⟨0, 1, 0, 3, true, false⟩] }) user
  { s with mem := (List.range 64).foldl (fun m k => m.write (sramByte 1 64 + k) (BitVec.ofNat 8 (0x11 * (k + 1)))) s.mem }
/-- A request of the slot in focus to offset 64 of tile 1. -/
def aReq (kind : ReqKind) (n : Nat) (lim : Nat := 3) : Req :=
  ⟨90, 0, 0, 0, 5, 0, 0, kind, 0x80400040, .sram 1 64, n, 2 ^ n - 1, (List.range n).map fun k => BitVec.ofNat 8 (0x81 + 7 * k), 0, 7, none, 0, 0, true, .travel, .pending, 0, 0, 0, 0, lim, 0, 0, false, false, 0, 0, none⟩
def withReq (r : Req) (s : State) : State := { s with net := { s.net with reqs := s.net.reqs.set r.id r } }
def withBuoys (l : List Buoy) (s : State) : State := s.updTile 1 fun t => { t with buoys := l }
def full (s : State) : State := { s with attrs := { s.attrs with full := s.attrs.full.insert (sramByte 1 64 / 8) } }

def sliceHyps (s : State) (id : Nat) (r : Req) (tile off : Nat) : Prop :=
  (s.req? id = some r ∧ r.id = id ∧ r.cls = .sram tile off ∧ r.stage = .travel ∧ r.source = none ∧ s.windowFault tile off r.asid r.kind.writes = none ∧ s.mustWait r = false) ∧
  (∀ h ∈ s.net.holds, ¬(h.home = 64 + tile ∧ h.line = off / 64)) ∧
  s.poisoned (64 + tile) (off / 64) = false ∧ s.lineUnsettled r (64 + tile) (off / 64) = false ∧ off % 64 + r.n ≤ 64 ∧ r.mask < 2 ^ r.n ∧ r.data.length = r.n ∧ s.mem.wf = true

theorem atSlice_of {s : State} {id : Nat} {r : Req} {tile off : Nat} (h : sliceHyps s id r tile off) : AtSlice s id r tile off := by
  obtain ⟨⟨h1, h2, h3, h4, h5, h6, h7⟩, h8, h9, h10, h11, h12, h13, h14⟩ := h
  exact ⟨h1, h2, h3, h4, h5, h6, h7, h8, h9, h10, h11, h12, h13, h14⟩

theorem witness_HomeAccesses : (∀ r ∈ [aReq .load 64, aReq .load 1, aReq .store 8, aReq (.amo .add) 8, aReq (.amo .fadd) 4, aReq (.cas 0x8877665544332211) 8, aReq (.cas 5) 4, aReq .ldr 8, aReq .stc 8, aReq .wrs 4,
      aReq .ldf 8, aReq .ldf 8 1, aReq .ldff 8, aReq .ste 8, aReq .stef 8, aReq .feclr 8, aReq .feget 8],
      sliceHyps (withReq r tiled) 90 r 1 64 ∧ r.mask = 2 ^ r.n - 1 ∧ runs (.homeAccess 90) (withReq r tiled) = true) ∧
    (tiled.slot 0).speculates = false ∧ seenBytes tiled 1 64 8 = bytesOfNat 8 0x8877665544332211 ∧ seenBytes tiled 1 64 4 ≠ bytesOfNat 4 5 ∧ tiled.parked 65 8 = [] ∧ tiled.buoysOf 65 = [] := by
  simp only [sliceHyps]; decide

/-- A word that is full, one that is empty, a reservation that stands, and a watcher of the package and of another. -/
theorem witness_HomeAccesses_states :
    (full tiled).isFull 1 64 = true ∧ tiled.isFull 1 64 = false ∧ sliceHyps (withReq (aReq .ldf 8) (full tiled)) 90 (aReq .ldf 8) 1 64 ∧ sliceHyps (withReq (aReq .ldff 8) (full tiled)) 90 (aReq .ldff 8) 1 64 ∧
    sliceHyps (withReq (aReq .ste 8) (full tiled)) 90 (aReq .ste 8) 1 64 := by
  simp only [sliceHyps]; decide

theorem witness_HomeAccesses_watchers :
    (let s := withReq (aReq .stc 8) (withBuoys [⟨1, 0, 0, 4, 0, 0⟩] tiled)
     sliceHyps s 90 (aReq .stc 8) 1 64 ∧ ((watchersOf s 65 1).any fun b => b.slot == 0 && b.ctx == 0 && b.mode == 4) = true ∧ runs (.homeAccess 90) s = true) ∧
    (let s := withReq (aReq .store 8) (withBuoys [⟨1, 9, 2, 4, 0, 0⟩] tiled)
     sliceHyps s 90 (aReq .store 8) 1 64 ∧ watchersOf s 65 1 ≠ [] ∧ (∀ b ∈ watchersOf s 65 1, b.slot < 32768) ∧ runs (.homeAccess 90) s = true) ∧
    (let s := withReq (aReq .store 8) (withBuoys [⟨1, 32768, 2, 4, 0, 0⟩] tiled)
     sliceHyps s 90 (aReq .store 8) 1 64 ∧ watchersOf s 65 1 ≠ [] ∧ (∀ b ∈ watchersOf s 65 1, 32768 ≤ b.slot) ∧ runs (.homeAccess 90) s = true) := by
  simp only [sliceHyps]; decide

def anUpdate (op : AmoOp) (n : Nat) : Req := { aReq (.rupd op) n with op := 0 }
theorem witness_UpdatesApplied : (∀ r ∈ [anUpdate .add 8, anUpdate .min 4, anUpdate .fadd 4], sliceHyps (withReq r tiled) 90 r 1 64 ∧ runs (.updateApply 90) (withReq r tiled) = true) ∧
    (let r := anUpdate .add 8
     let s := withReq r (withBuoys [⟨1, 9, 2, 4, 0, 0⟩] tiled)
     sliceHyps s 90 r 1 64 ∧ watchersOf s 65 1 ≠ [] ∧ runs (.updateApply 90) s = true) ∧
    (let r := anUpdate .add 8
     let s := withReq r (tiled.updTile 1 fun t => { t with windows := [] })
     s.req? 90 = some r ∧ s.mustWait r = false ∧ (s.windowFault 1 64 r.asid true).isSome = true ∧ runs (.updateApply 90) s = true) := by
  simp only [sliceHyps]; decide

def anOp (wb : WriteBack) (dests : List RegRef) : LongOp := ⟨5, 0x10, 15, dests, .ordinary, none, 1, [], none, wb, 0⟩
def withOp (o : LongOp) (s : State) : State := s.updCur fun x => { x with ops := x.ops ++ [o] }
def replied (res : ReqRes) (s : State) : State := withReq { aReq .load 8 with stage := .reply, res := res } s
def someBytes : List Byte := (List.range 64).map fun k => BitVec.ofNat 8 (0x91 + 5 * k)
def awaiting (i : Instr) (s : State) : State := s.updCur fun x => { x with hold := .answer 0, word := encode i }

def replyHyps (s : State) (id : Nat) (r : Req) (o : LongOp) : Prop :=
  (s.req? id = some r ∧ r.id = id ∧ r.stage = .reply ∧ r.slot = s.curId ∧ r.ctx = s.cur.mc.ctxser) ∧ s.cur.ops.find? (fun p => p.id == r.op) = some o ∧
  o.left = 1 ∧ o.fail = none ∧ s.cur.fails = [] ∧ s.cur.inTx = false ∧ s.cur.status = .ready ∧ s.net.reqs = [(id, r)]

theorem lastReply_of {s : State} {id : Nat} {r : Req} {o : LongOp} (h : replyHyps s id r o) : LastReply s id r o := by
  obtain ⟨⟨h1, h2, h3, h4, h5⟩, h6, h7, h8, h9, h10, h11, h12⟩ := h
  refine ⟨h1, h2, h3, h4, h5, h6, h7, h8, h9, h10, h11, fun e he hn => ?_⟩
  rw [h12, List.mem_singleton] at he
  exact absurd (he ▸ h2.symm) hn

theorem witness_RepliesTaken : (∀ x ∈ [(WriteBack.g 6 1 true, [RegRef.g 6], ReqRes.ok (someBytes.take 1)), (.g 0 8 false, [.g 0], .ok (someBytes.take 8)), (.none, [], .ok []), (.vec 3 0xF0F0 64 false, [.v 3], .ok someBytes)],
      let s := withOp (anOp x.1 x.2.1) (replied x.2.2 tiled)
      replyHyps s 90 { aReq .load 8 with stage := .reply, res := x.2.2 } (anOp x.1 x.2.1) ∧ runs (.accessReply 90 none) s = true) ∧
    (let s := undelegated (withOp (anOp (.g 6 8 false) [.g 6]) (replied (.fail 5 2) tiled))
     replyHyps s 90 { aReq .load 8 with stage := .reply, res := .fail 5 2 } (anOp (.g 6 8 false) [.g 6]) ∧ s.cur.ops = [anOp (.g 6 8 false) [.g 6]] ∧ s.cur.spec.mode = .none ∧ s.cur.rsv = none ∧
       ¬ToM s.cur 5 ∧ s.cur.sc.stvec ≠ 0 ∧ runs (.accessReply 90 none) s = true) := by
  simp only [replyHyps, ToM]; decide

theorem witness_RepliesTaken_answers : (∀ i ∈ [Instr.barq 4 17, .barset 18 5, .wlsta 3 4 5, .wlcfg 6 7, .qstat 8 9, .wlack 3, .wlret 4, .qbind 2 9, .bara 31, .wlpsh 9 2 4],
      let s := awaiting i tiled
      s.cur.hold = .answer 0 ∧ decode s.cur.word = .ok i ∧ s.cur.frame = none ∧ s.cur.mc.ctxser = 0 ∧ s.curId = 0) ∧
    (∀ i ∈ [Instr.barq 4 17, .barset 18 5, .wlsta 3 4 5, .wlcfg 6 7, .qstat 8 9, .wlack 3, .wlret 4, .qbind 2 9], runs (.controlReply 0 0 7) (awaiting i tiled) = true) ∧
    runs (.barrierArrivalReply 0 0 31 (some true)) (awaiting (.bara 31) tiled) = true ∧ runs (.barrierArrivalReply 0 0 31 none) (awaiting (.bara 31) tiled) = true ∧
    runs (.pushAnswer ⟨3, anItem 4, 0, 0, .wlpsh 0 0, .new, none, 0, 0⟩ 0) (awaiting (.wlpsh 9 2 4) tiled) = true ∧ tiled.cur.sc.piste = false ∧ runs (.pushAnswer ⟨3, anItem 4, 0, 0, .wlpsh 0 0, .new, none, 0, 0⟩ 2) (piste (awaiting (.wlpsh 9 2 4) tiled)) = true := by
  decide

/-- A task Blocked in WLPOP, with three items held already. -/
def popping : State := holding 3 ((withOp { anOp .none [.g 5, .g 6, .g 7] with word := encode (.wlpop 5 4 0), kind := .acquiring } tiled).updCur fun x => { x with status := .blocked (.worklist 3) })
theorem witness_RepliesTaken_pops : popping.cur.status = .blocked (.worklist 3) ∧ (popping.cur.ops.find? (fun p => p.id == 5)).isSome = true ∧ decode (encode (.wlpop 5 4 0)) = .ok (.wlpop 5 4 0) ∧
    popping.cur.fails = [] ∧ (popping.task popping.cur.u.tid).held.getD 3 none = none ∧ (∀ j, j < 2 → (popping.task popping.cur.u.tid).held.getD (j + 1) none ≠ none) ∧ popping.cur.u.tid = 0 ∧
    runs (.popReply ⟨3, 0, 0, .task 0 0 0 5, 0, 0⟩ (.item (anItem 4))) popping = true ∧ runs (.popReply ⟨3, 0, 0, .task 0 0 0 5, 0, 0⟩ .closed) popping = true := by
  decide


/-! ### Pages, notices, commits -/

def ready (s : State) : State := s.updPkg fun p => { p with ready := 0xFFFFFFFFFFFFFF }
def leaf (pa flags key : Nat) : Nat := flags + key * 256 + pa / 4096 * 2 ^ 24
/-- Two levels of a page table and an entry for page 5. -/
def table (e : Nat) (s : State) : State :=
  let s := s.updPkg fun p => { p with keys := p.keys.set 1 ⟨7, 3, 5⟩ }
  let s := s.writePte 0xA000 (leaf 0x20000 1 0)
  let s := s.writePte 0x20000 (leaf 0x24000 1 0)
  if e = 0 then s else s.writePte 0x24028 e
def page5 : Nat := 5 * 2 ^ 33 + 0x30000
def pageReq (stage : ReqStage) : Req := { aReq .load 8 with cls := .hbm 0x50000, stage := stage, ptr := 0x50000, home := 5, line := 0x1400 }
/-- A walk for page 5 that one load waits for. -/
def walking (marked : Bool) (s : State) : State := (withReq (pageReq .walk) (withOp (anOp (.g 6 8 false) [.g 6]) s)).updHome 5 fun h => { h with walks := [⟨0, 5, 0, marked, true⟩] }
/-- A load that waits for a page. -/
def paged (s : State) : State := (withReq (pageReq .page) (withOp (anOp (.g 6 8 false) [.g 6]) s)).updCur fun x => { x with status := .blocked .page }
def rtiled : State := ready tiled

theorem witness_PagesAndFrames_walks :
    (let s := walking true rtiled
     ((s.home 5).walks.find? fun v => v.asid == 0 && v.vpn == 5 && v.running) = some ⟨0, 5, 0, true, true⟩ ∧ runs (.walkComplete 5 0 5) s = true) ∧
    (let s := walking false (table (leaf page5 75 1) rtiled)
     s.waitingFor 5 0 5 .walk = [pageReq .walk] ∧ (match s.walk 0 (5 * 65536) with | .leaf _ e _ => pteA e | _ => false) = true ∧ runs (.walkComplete 5 0 5) s = true) ∧
    (let s := walking false (table 0 rtiled)
     s.waitingFor 5 0 5 .walk = [pageReq .walk] ∧ (match s.walk 0 (5 * 65536) with | .pending => true | .fail _ => true | _ => false) = true ∧ runs (.walkComplete 5 0 5) s = true) ∧
    (let s := walking false rtiled
     (match s.walk 0 (5 * 65536) with | .fail _ => true | .pending => true | _ => false) = true ∧ runs (.walkComplete 5 0 5) s = true) ∧
    (let s := undelegated (paged rtiled)
     s.net.reqs = [(90, pageReq .page)] ∧ (pageReq .page).page = some 5 ∧ s.net.parks = [] ∧ s.cur.status = .blocked .page ∧ s.pkg.wls = [] ∧ s.pkg.ctxs = [] ∧ s.host.rings = [] ∧ s.cur.ops = [anOp (.g 6 8 false) [.g 6]] ∧ s.cur.fails = [] ∧
       ¬ToM s.cur 0x05 ∧ s.cur.sc.stvec ≠ 0 ∧ runs (.pageWake 5 0 5 true) s = true ∧ runs (.pageWake 5 0 5 false) s = true) := by
  simp only [ToM]; decide

/-- A load whose page's wake is on its way to the slot. -/
def woken (res : ReqRes) (s : State) : State := (withReq { pageReq .wake with res := res } (withOp (anOp (.g 6 8 false) [.g 6]) s)).updCur fun x => { x with status := .blocked .page }
/-- The message of a WAKE to slot `k`. -/
def wakeOf (k : Nat) : Req := { aReq .load 0 with op := 0, lane := wakeLane, slot := wakeMark + k, stage := .wake, res := .ok [] }

theorem witness_PagesAndFrames_wakes : (∀ res ∈ [ReqRes.ok [], .fail 0x05 4],
      let s := undelegated (woken res rtiled)
      let r := { pageReq .wake with res := res }
      s.net.reqs = [(90, r)] ∧ r.page = some 5 ∧ r.id = 90 ∧ s.net.parks = [] ∧ s.pkg.wls = [] ∧ s.pkg.ctxs = [] ∧ s.host.rings = [] ∧ r.slot = s.curId ∧ r.ctx = s.cur.mc.ctxser ∧ s.cur.status = .blocked .page ∧
        s.cur.ops = [anOp (.g 6 8 false) [.g 6]] ∧ (s.cur.ops.find? fun p => p.id == r.op) = some (anOp (.g 6 8 false) [.g 6]) ∧ s.cur.fails = [] ∧ s.cur.spec.mode = .none ∧ s.cur.rsv = none ∧ ¬ToM s.cur 0x05 ∧
        s.cur.sc.stvec ≠ 0 ∧ runs (.accessReply 90 none) s = true) ∧
    (let s := (withReq (wakeOf 9) rtiled).updSlot 9 fun x => { x with status := .blocked .retrySleep }
     s.req? 90 = some (wakeOf 9) ∧ (wakeOf 9).id = 90 ∧ 9 ≠ s.curId ∧ (s.slot 9).status = .blocked .retrySleep ∧ runs (.accessReply 90 none) s = true) ∧
    (let s := (withReq (wakeOf 9) rtiled).updSlot 9 fun x => { x with status := .ready }
     (s.slot 9).status = .ready ∧ runs (.accessReply 90 none) s = true) := by
  simp only [ToM]; decide

def aTlbi (k acks : Nat) : TlbiOp := ⟨33, 0, 0, k, 0, 4, 2, [5, 6], acks, none, [], none⟩
def tlbs : List Tlb := [⟨0, 5, false, true, false, 7, 1, 0x24028, false, 0⟩, ⟨0, 9, false, true, false, 7, 1, 0x24048, false, 0⟩, ⟨2, 5, false, true, false, 7, 1, 0x99, false, 0⟩]
def tlbing (k acks : Nat) : State := let s := rtiled.updHome 5 fun h => { h with tlb := tlbs }; { s with net := { s.net with tlbis := [aTlbi k acks] } }
def sweep (f : Home → Home) : State := rtiled.updHome 5 fun h => f { h with sweepEn := true, hand := 7 }

theorem witness_PagesAndFrames_frames :
    ((tlbing 0 3).net.tlbis.find? (fun t => t.id == 33) = some (aTlbi 0 3) ∧ (aTlbi 0 3).left.contains 5 = true ∧ (tlbing 0 3).tlbiWaits (aTlbi 0 3) 5 = false ∧ runs (.tlbiAtHome 5 33) (tlbing 0 3) = true ∧
      runs (.tlbiAck 33) (tlbing 0 3) = true) ∧
    (let s := awaiting .tlbiAll (tlbing 2 1)
     s.cur.hold = .answer 0 ∧ s.cur.frame = none ∧ runs (.tlbiAck 33) s = true) ∧
    (let o : TlbiOp := { aTlbi 0 1 with asker := some (2, 7) }
     let s := { rtiled with net := { rtiled.net with tlbis := [o] } }
     (s.net.tlbis.find? fun t => t.id == 33) = some o ∧ o.acks ≤ 1 ∧ o.cmd = none ∧ runs (.tlbiAck 33) s = true) ∧
    (let s := rtiled.updHome 5 fun h => { h with cold := [4, 6] }
     (s.home 5).cold = [4, 6] ∧ runs (.coldpop 5) s = true) ∧
    (let s := sweep id
     (s.home 5).rate ≠ 0 ∧ (s.home 5).cold.length < (s.home 5).coldWm.toNat ∧ (s.frameEnt (5 * 131072 + 7)).st ≠ 3 ∧ runs (.sweeperStep 5) s = true) ∧
    (let s := (sweep fun h => { h with tlb := tlbs, frames := [(7, ⟨3, 0, 0x24028⟩)] }).writePte 0x24028 (leaf page5 75 1)
     (s.frameEnt (5 * 131072 + 7)).st = 3 ∧ pteA (s.readPte 0x24028) = true ∧ s.mem.wf = true ∧ runs (.sweeperStep 5) s = true) ∧
    (let s := (sweep fun h => { h with tlb := tlbs, frames := [(7, ⟨3, 0, 0x24028⟩)] }).writePte 0x24028 (leaf page5 67 1)
     (s.frameEnt (5 * 131072 + 7)).st = 3 ∧ pteA (s.readPte 0x24028) = false ∧ runs (.sweeperStep 5) s = true) ∧
    (let s := rtiled.updHome 5 fun h => { h with free := [7, 8], cold := [4, 6] }
     (s.home 5).free = [7, 8] ∧ (s.home 5).pool.length < (s.home 5).poolTgt.toNat ∧ s.mem.wf = true ∧ runs (.coldpop 5) s = true ∧ (s.frameEnt (5 * 131072 + 131071)).st ≠ 6 ∧
       (s.home 5).free.contains 131071 = false ∧ (s.home 5).lasting.contains 131071 = false ∧ runs (.freepush 5 131071) s = true) ∧
    (rtiled.classify 0 0 .s (0x2010001 * 64) = .sram 1 64 ∧ rtiled.windowFault 1 64 0 false = none ∧ rtiled.poisoned 65 1 = false ∧ runs (.icacheFill 0 0 0x2010001) rtiled = true) := by
  decide

def aNotice (mode ack : Nat) : Notice := ⟨65, 1, 0, 0, mode, 1, ack⟩
def aWatch (m : Nat) : Watch := ⟨65, 1, 0x2010001, m, 1⟩
def speculating (f : Spec → Spec) : State := inTx 1 f rtiled
def aHold (slot : Nat) (point drain : Bool) : LineHold := ⟨65, 1, 1, slot, none, drain, point⟩
def withHolds (l : List LineHold) (s : State) : State := { s with net := { s.net with holds := l } }
def buffered (s : State) : State := s.updCore 0 fun c => { c with buf := [⟨65, 1, 0, 1, List.replicate 64 7, 3⟩] }

def withAway (l : List AwayNotice) (s : State) : State := { s with net := { s.net with away := l } }

theorem witness_NoticesAndCommits_retries :
    (let r := { aReq .ldf 8 with stage := .park, tries := 1 }
     (withReq r rtiled).req? 90 = some r ∧ r.tries + 1 < r.limit ∧ runs (.feRetryAttempt 90) (withReq r rtiled) = true) ∧
    (let r := { aReq .ldf 8 with stage := .park, tries := 2 }
     let s := (withReq r rtiled).updCur fun x => { x with status := .blocked .fullEmpty }
     s.req? 90 = some r ∧ r.limit ≤ r.tries + 1 ∧ s.cur.status = .blocked .fullEmpty ∧ runs (.feRetryAttempt 90) s = true) ∧
    (let r := { aReq .store 8 with stage := .notices, notices := 2, res := .ok [] }
     let s := withReq r rtiled
     (s.slot 0).mc.ctxser ≠ 8 ∧ s.req? 90 = some r ∧ runs (.buoyNotice { aNotice 1 90 with ctx := 8 }) s = true) ∧
    (let s := withReq { aReq .store 8 with stage := .notices, notices := 1, res := .ok [] } (withAway [⟨7, 90, 2, 65, 1, false⟩, ⟨8, 90, 2, 65, 1, true⟩] rtiled)
     s.req? 7 = none ∧ s.req? 8 = none ∧ (s.net.away.find? fun o => o.id == 7) = some ⟨7, 90, 2, 65, 1, false⟩ ∧ (s.net.away.find? fun o => o.id == 8) = some ⟨8, 90, 2, 65, 1, true⟩ ∧
       runs (.accessReply 7 (some ⟨0, 0, [], 0, false⟩)) s = true ∧ runs (.accessReply 8 (some ⟨0, 0, [], 0, false⟩)) s = true) ∧
    (let s := withReq { aReq .store 8 with stage := .notices, notices := 2, res := .ok [] } (withAway [⟨7, 90, 2, 65, 1, false⟩] rtiled)
     s.req? 7 = none ∧ runs (.accessReply 7 (some ⟨0, 0, [], 0, false⟩)) s = true) ∧
    runs (.buoyNotice { aNotice 1 90 with home := foreignHome + 3 }) rtiled = true ∧ runs (.lossNotice { aNotice 1 90 with home := foreignHome + 3 }) rtiled = true ∧
    runs (.releaseMessage ⟨65, 1, 0, 0, 2, 0⟩) rtiled = true ∧ rtiled.foreignLine 0 0x2010001 = some (65, 1) ∧ runs (.releaseMessage ⟨foreignHome, 0x2010001, 0, 0, 2, 0⟩) rtiled = true := by
  decide

theorem witness_NoticesAndCommits_notices :
    (let s := speculating fun p => { p with watch := [aWatch 1] }
     (s.cur.spec.watch.find? fun w => w.home == 65 && w.line == 1) = some (aWatch 1) ∧ s.cur.spec.mode = .tx ∧ s.cur.spec.commit ≠ .applying ∧ s.cur.frame = none ∧ s.cur.status ≠ .free ∧ s.cur.status ≠ .saving ∧
       s.req? 0 = none ∧ runs (.buoyNotice (aNotice 1 0)) s = true ∧ runs (.lossNotice (aNotice 1 0)) s = true) ∧
    (let s := rtiled.updCur fun x => { x with rsv := some (0x80400040, 8, 65, 1) }
     s.cur.rsv = some (0x80400040, 8, 65, 1) ∧ runs (.buoyNotice (aNotice 4 0)) s = true ∧ runs (.lossNotice (aNotice 4 0)) s = true) ∧
    (let s := rtiled.updCur fun x => { x with status := .blocked .retrySleep, spec := { Spec.none with watch := [aWatch 2] } }
     s.cur.spec.mode = .none ∧ s.cur.status = .blocked .retrySleep ∧ runs (.buoyNotice (aNotice 2 0)) s = true) ∧
    (let s := rtiled.updCur fun x => { x with spec := { Spec.none with mode := .glide, restart := 0x44, ckpt := some ⟨Regs.zero, 0, 0, none⟩, watch := [aWatch 3], barrier := some (2, .wire 2, true) } }
     s.cur.spec.mode = .glide ∧ s.cur.spec.commit = .none ∧ s.cur.spec.ckpt.isSome = true ∧ runs (.buoyNotice (aNotice 3 0)) s = true) := by
  decide

theorem witness_NoticesAndCommits_commits :
    (let s := speculating fun p => { p with commit := .holding, toHold := [(65, 1)] }
     s.cur.spec.commit = .holding ∧ s.cur.ops = [] ∧ s.windowFault 1 64 s.cur.sc.asid true = none ∧ s.poisoned 65 1 = false ∧ s.net.holds = [] ∧ runs (.commitHold 0 65 1) s = true) ∧
    (let s := withHolds [aHold 3 false false] (speculating fun p => { p with commit := .holding, toHold := [(65, 1)] })
     (s.net.holds.find? fun o => o.home == 65 && o.line == 1 && o.slot != s.curId) = some (aHold 3 false false) ∧ runs (.commitHold 0 65 1) s = true) ∧
    (let s := withHolds [aHold 9 true false] (speculating fun p => { p with commit := .holding, toHold := [(65, 1)] })
     (aHold 9 true false).point = true ∧ runs (.commitHold 0 65 1) s = true) ∧
    (let s := buffered (speculating fun p => { p with commit := .holding })
     s.cur.spec.toHold = [] ∧ s.cur.spec.undo = none ∧ s.noticeComing = false ∧ s.writeSet = [(65, 1)] ∧ runs (.commitHold 0 0 0) s = true) ∧
    (let s := buffered (speculating fun p => { p with commit := .holding, undo := some (1, 0) })
     s.cur.spec.undo = some (1, 0) ∧ s.cur.frame = none ∧ s.cur.spec.mode = .tx ∧ runs (.commitHold 0 0 0) s = true) ∧
    (let s := (buffered (speculating fun p => { p with commit := .holding, undo := some (1, 0) })).updCur fun x => { x with frame := some ⟨[0, 0], 2, 0, 1, 0, 0, 0x50⟩ }
     s.cur.spec.undo = some (1, 0) ∧ s.cur.frame ≠ none ∧ runs (.commitHold 0 0 0) s = true) ∧
    (let s := withHolds [aHold 0 true false] (buffered (speculating fun p => { p with commit := .applying, toApply := [(65, 1)] }))
     let s := { s with net := { s.net with pend := s.net.pend ++ [⟨9, .lossNotice ⟨65, 1, 9, 2, 1, 1, 0⟩⟩] } }
     aHold 0 true false ∈ s.net.holds ∧ s.lossComing 65 1 = true ∧ runs (.commitApply 0 65 1) s = true) ∧
    (let s := withHolds [aHold 0 true false] (buffered (speculating fun p => { p with commit := .applying, toApply := [(65, 1)] }))
     s.cur.spec.toApply = [(65, 1)] ∧ s.mem.wf = true ∧ (s.net.holds.find? fun o => o.slot == s.curId && o.home == 65 && o.vline == 1) = some (aHold 0 true false) ∧
       (∀ o ∈ s.net.holds, s.lossComing o.home o.line = false) ∧ ((s.core (coreOf s.curId)).buf.filter fun l => l.slot == s.curId && l.home == 65 && l.vline == 1) = [⟨65, 1, 0, 1, List.replicate 64 7, 3⟩] ∧ runs (.commitApply 0 65 1) s = true) ∧
    (let s := awaiting .txe (speculating fun p => { p with commit := .applying })
     s.cur.spec.toApply = [] ∧ s.cur.spec.mode = .tx ∧ s.cur.frame = none ∧ s.net.pend = [] ∧ s.net.away = [] ∧ runs (.commitApply 0 0 0) s = true) := by
  decide

/-- A Piste launch of one slot, and its chunk. -/
def pisteLaunch : Launch := { aLaunch with h := { hdr with piste := true, ntask := 1 } }
def chunked (f : Spec → Spec) : State :=
  ((aCtx rtiled).updPkg fun p => { p with launches := p.launches.set 1 pisteLaunch, wls := p.wls.set 3 aList }).updCur fun x => { x with
    lkey := 1, u := { x.u with launch := 1 }, sc := { x.sc with piste := true }, spec := f { Spec.none with mode := .chunk, restart := 0x40, ckpt := some ⟨Regs.zero, 0, 0, none⟩, ended := true } }

theorem witness_NoticesAndCommits_turns :
    (let s := chunked fun p => { p with dirty := true }
     s.launch? 1 = some pisteLaunch ∧ (s.turnWindow pisteLaunch).isSome = true ∧ s.cur.status = .ready ∧ s.cur.lkey = 1 ∧ pisteLaunch.away = none ∧ s.noticeComing = false ∧ s.writesHeld = false ∧ pisteLaunch.turnSt = 0 ∧ runs (.chunkTurn 1) s = true) ∧
    (let s := chunked id
     s.cur.spec.dirty = false ∧ s.cur.spec.lost = false ∧ s.writeSet = [] ∧ s.cur.spec.updates = [] ∧ runs (.chunkTurn 1) s = true) ∧
    (let s := ((chunked fun p => { p with mode := .none, updates := [(.add, 8, 0x80400040, 5), (.min, 4, 0x80400048, 6)] })).updPkg fun p => { p with
       launches := p.launches.set 1 { pisteLaunch with turnSt := 3 } }
     s.launch? 1 = some { pisteLaunch with turnSt := 3 } ∧ s.cur.status = .ready ∧ s.cur.lkey = 1 ∧ s.cur.spec.mode = .none ∧ s.turnWrites = false ∧ s.cur.spec.updates ≠ [] ∧ runs (.chunkTurn 1) s = true) ∧
    (let s := (chunked id).updCur fun x => { x with status := .free }
     (s.slot 0).status = .free ∧ s.wl? 9 = none ∧ runs (.chunkTurn 1) s = true) := by
  decide


/-! ### Worklists, tasks, launches -/

def msg (k v tile : Nat) : PushMsg := ⟨3, anItem k, v, tile, .wlpsh 0 0, .new, none, 0, 0⟩
def posOf (k : Nat) : Nat := (anItem k).pos
def front (k : Nat) (p : Option Nat := none) : FrontItem := ⟨anItem k, p⟩
def lists (w : WorkList) : State := opened w rtiled
/-- A range of `n` identifiers. -/
def aRange (k n : Nat) : QItem := ⟨{ (anItem k).item with flags := 1, count := BitVec.ofNat 16 (n - 1) }, (anItem k).ident⟩
def atStage (g : PushStage) (m : PushMsg) : PushMsg := { m with stage := g }
abbrev wlReady (w : WorkList) : Prop := (lists w).wl? 3 = some w ∧ w.closed = false ∧ w.home = (lists w).pkg.podIndex.toNat

theorem witness_WorklistMessages_pushes :
    (let w := aList
     wlReady w ∧ (msg 4 0 0).stage = .new ∧ (msg 4 0 0).q.size = 1 ∧ w.lampK.getD (none, 0) 0 = (none, 0) ∧ w.v = 0 ∧ w.places = 5 ∧ (lists w).hasEntry w 0 = true ∧ w.op = none ∧ w.pull = none ∧
       runs (.fpush 0 (msg 4 0 0)) (lists w) = true ∧ runs (.fwd 0 (msg 4 0 0)) (lists w) = true ∧ runs (.fpush 0 (atStage .placed (msg 4 0 0))) (lists w) = true ∧
       (aRange 4 3).size = 3 ∧ (aRange 4 3).rest = some ⟨{ (aRange 4 3).item with count := 1, work := 8 }, (anItem 4).ident + 1⟩ ∧ runs (.fwd 0 { msg 4 0 0 with q := aRange 4 3 }) (lists w) = true) ∧
    (let w := { aList with op := some ⟨[], [], 1, some (.low 3 0)⟩, inbox := [.low 3 0] }
     wlReady w ∧ w.op ≠ none ∧ w.pull = none ∧ (lists w).hasEntry w 0 = true ∧ runs (.fpush 0 (atStage .placed (msg 4 0 0))) (lists w) = true ∧ runs (.fwd 0 (msg 4 0 0)) (lists w) = true ∧
       runs (.low 3 0) (lists w) = true) ∧
    (let w := { aList with places := 0, parts := [(0, (List.range 5).map fun k => front (k + 10))] }
     wlReady w ∧ w.lends = false ∧ (w.lastFront.map (·.pos)) = some (posOf 14) ∧ runs (.fpush 0 (msg 4 0 0)) (lists w) = true ∧ runs (.fwd 0 (msg 4 0 0)) (lists w) = true ∧
       posOf 14 < posOf 20 ∧ runs (.fwd 0 (msg 20 0 0)) (lists w) = true) ∧
    (let w := { aList with parts := [(0, [front 4, front 6])] }
     wlReady w ∧ ((lists w).tile 0).asking.contains 3 = false ∧ (((lists w).tile 0).prefetched.filter fun p => p.1 == 3).length < 4 ∧ ((lists w).wlTiles w).contains 0 = true ∧ (lists w).present 3 ≠ 0 ∧
       (lists w).serves w = true ∧ ((lists w).launch? w.launch).all (fun l => !l.h.piste && !l.h.cosched && !l.h.persist) = true ∧ runs (.prefetch 0 3) (lists w) = true ∧
       (∀ i ∈ w.live, i.pos < (aRange 9 3).pos) ∧ w.lends = false ∧ runs (.fwd 0 (atStage .rest { msg 9 0 0 with q := aRange 9 3 })) (lists w) = true ∧
       (∃ i ∈ w.live, (aRange 5 3).pos ≤ i.pos) ∧ runs (.fwd 0 (atStage .rest { msg 5 0 0 with q := aRange 5 3 })) (lists w) = true ∧
       runs (.fwd 0 (atStage .kept { msg 5 0 0 with q := aRange 5 3 })) (lists w) = true) := by
  decide

theorem witness_WorklistMessages_reserves :
    (let w := { aList with tileK := [(0, (some (posOf 3), 2))], k := some (posOf 4) }
     wlReady w ∧ (w.tileK.getD (none, 0) 0) = (some (posOf 3), 2) ∧ ¬posOf 5 < posOf 3 ∧ ((lists w).stirWatch 3).heapRoom w 0 = true ∧ runs (.rpush (msg 5 2 0)) (lists w) = true ∧
       runs (.rpush (atStage .reserve (msg 5 2 0))) (lists w) = true ∧ posOf 2 < posOf 3 ∧ runs (.rpush (msg 2 0 0)) (lists w) = true ∧ runs (.rpush (msg 5 1 0)) (lists w) = true ∧
       (lists w).heapRoom w 0 = true ∧ runs (.rpush (atStage .demoted (msg 5 2 0))) (lists w) = true ∧
       w.op = none ∧ ¬posOf 5 < posOf 4 ∧ runs (.fwd 0 (msg 5 0 0)) (lists w) = true ∧ runs (.fwd 0 (atStage .rest { msg 5 0 0 with q := aRange 5 3 })) (lists w) = true) ∧
    (let w := { aList with depth := 1, tileK := [(0, (some (posOf 3), 2))], heap := [(0, [anItem 6, anItem 7])], ovruns := 2, ovbase := 0x80001000 }
     let s := lists w
     wlReady w ∧ (s.stirWatch 3).heapRoom w 0 = false ∧ (s.stirWatch 3).freeRun w 0 false = some 0 ∧
       (match (s.stirWatch 3).vwrite 0 w.asid (w.runVa 0 0) (runBytes ((insertItem (w.heap.getD [] 0) (anItem 5)).take 64)) 0 with | (.ok _, t) => t.pkg.wls == (s.stirWatch 3).pkg.wls | _ => false) = true ∧
       runs (.rpush (msg 5 2 0)) s = true) ∧
    (let w := { aList with depth := 1, tileK := [(0, (some (posOf 3), 2))], heap := [(0, [anItem 6, anItem 7])] }
     wlReady w ∧ ((lists w).stirWatch 3).heapRoom w 0 = false ∧ ((lists w).stirWatch 3).freeRun w 0 false = none ∧ w.ktile = 0 * 512 + 0 ∧ runs (.rpush (msg 5 2 0)) (lists w) = true ∧
       runs (.rpush (msg 5 2 0)) (lists { w with ktile := 1 }) = true) := by
  decide

theorem witness_WorklistMessages_pulls :
    (let w := { aList with heap := [(0, [anItem 5])], heads := [(0, some (posOf 5))] }
     wlReady w ∧ w.pull = none ∧ w.op = none ∧ w.lends = false ∧ w.heads.filterMap (·.2) ≠ [] ∧ runs (.low 3 0) (lists w) = true ∧ (w.reserve 0).map QItem.pos = [posOf 5] ∧ ¬posOf 5 < posOf 5 ∧
       runs (.pull 3 0 (some (posOf 5)) 3 7) (lists w) = true ∧ w.heap.getD [] 0 = [anItem 5] ∧ w.runs.getD [] 0 = [] ∧ (anItem 5).size = 1 ∧ posOf 5 < posOf 6 ∧
       runs (.pull 3 0 (some (posOf 6)) 1 7) (lists w) = true ∧ runs (.head 3 0 none) (lists w) = true ∧ runs (.ritem 3 0 ⟨anItem 8, 7⟩) (lists w) = true) ∧
    (let w := { aList with runs := [(0, [⟨0, [anItem 5], 1, some (9, false)⟩])] }
     wlReady w ∧ w.headOf 0 = some (anItem 5) ∧ ((w.runWith 0 (posOf 5)).map (·.wait)) = some (some (9, false)) ∧ runs (.pull 3 0 none 2 7) (lists w) = true) ∧
    (let w := { aList with pull := some ⟨none, 3, 6, [0, 1], none, none, 0⟩ }
     wlReady w ∧ (∃ a ∈ [0, 1], a ≠ 0) ∧ runs (.pack 3 0 ⟨some 9, 1⟩) (lists w) = true ∧ [0, 1] ≠ ([] : List Nat) ∧ runs (.ritem 3 0 ⟨anItem 8, 6⟩) (lists w) = true) ∧
    (let w := { aList with pull := some ⟨none, 3, 6, [0], none, none, 0⟩, parts := [(0, [front 4 (some 6), front 5])], v := 6 }
     wlReady w ∧ w.op = none ∧ (w.known.filter (·.waits)).length = 0 + 1 ∧ w.known.length ≤ w.rho + 1 ∧ runs (.pack 3 0 ⟨none, 1⟩) (lists w) = true) := by
  decide

theorem witness_WorklistMessages_pops :
    (let w := { aList with parts := [(0, [front 4, front 6, front 8, front 9 (some 6)])], k := some (posOf 7) }
     wlReady w ∧ (w.part 0).filter (fun f => !ahead f.q.pos (some (posOf 7)) && (f.pull.isNone || false)) = [front 8] ∧ (w.part 0).filter (fun f => !ahead f.q.pos (some (posOf 7)) && (f.pull.isNone || true)) = [front 8, front 9 (some 6)] ∧
       runs (.demote 3 0 ⟨some (posOf 7), false, none⟩) (lists w) = true ∧ runs (.demote 3 0 ⟨some (posOf 7), true, none⟩) (lists w) = true ∧ (lists w).serves w = true ∧ front 4 ∈ w.part 0 ∧
       (∀ f ∈ w.part 0, f.pull = none → f.q ≠ anItem 4 → posOf 4 < f.q.pos) ∧ runs (.pop 0 ⟨3, 0, 0, .task 0 0 0 5, 0, 0⟩) (lists w) = true ∧ runs (.cut 3 true 0 none ⟨9, none⟩) (lists w) = true ∧
       runs (.cut 3 true 0 none ⟨9, some 6⟩) (lists w) = true ∧ runs (.cut 3 false 0 none ⟨9, some 6⟩) (lists w) = true) ∧
    (let w := { aList with op := some ⟨[0], [], 0, some (.low 3 0)⟩ }
     wlReady w ∧ w.pull = none ∧ (([0] : List Nat).erase 0) = [] ∧ runs (.demote 3 0 ⟨none, true, some 0⟩) (lists w) = true ∧ runs (.demote 3 0 ⟨none, true, some 2⟩) (lists w) = true) ∧
    (let w := { aList with lamps := [0, 1], parts := [(0, [front 4 (some 6)])] }
     wlReady w ∧ (∀ f ∈ w.part 0, f.pull ≠ none) ∧ 0 + 1 < w.lamps.length ∧ runs (.pop 0 ⟨3, 0, 0, .tile, 0, 0⟩) (lists w) = true) ∧
    (wlReady aList ∧ aList.lamps.length ≤ 0 + 1 ∧ aList.part 0 = [] ∧ (lists aList).cur.status = .ready ∧ (lists aList).cur.mc.ctxser = 0 ∧ (lists aList).cur.u.tid = 0 ∧ (lists aList).curId = 0 ∧ (lists aList).poppable aList = 0 ∧
       runs (.pop 0 ⟨3, 0, 0, .tile, 0, 0⟩) (lists aList) = true ∧ runs (.popReply ⟨3, 0, 0, .task 0 0 0 5, 0, 0⟩ .empty) (lists aList) = true) := by
  decide

/-- A free slot 0 that launch 1 may use. -/
def vacant : State := (opened aList (aCtx rtiled)).updCur fun x => { x with status := .free, serial := 6, mc := { x.mc with ctxser := 4 } }
/-- A task of launch 1 in slot 0. -/
def tasked : State := withTask (fun t => { t with place := .slot 0, launch := 1 }) ((opened aList (aCtx rtiled)).updCur fun x => { x with u := { x.u with launch := 1 } })

theorem witness_TaskEvents :
    (let s := vacant.updTile 0 fun t => { t with prefetched := [(3, anItem 4)] }
     s.launch? 1 = some aLaunch ∧ s.slotFits 0 aLaunch = true ∧ (s.tile 0).prefetched = [(3, anItem 4)] ∧ (s.tile 0).recs = [] ∧ s.net.moving = [] ∧ s.wl? 3 = some aList ∧ aList.launch = 1 ∧ aLaunch.st.final = false ∧
       aLaunch.h.consumer = false ∧ runs (.dispatch 0) s = true) ∧
    (let s := vacant.updTile 0 fun t => { t with recs := [(0, saved)] }
     aLaunch.binds = false ∧ s.slotFits 0 aLaunch = true ∧ saved.ready = true ∧ saved.done = true ∧ saved.slot.lkey = 1 ∧ saved.slot.fails = [] ∧ runs (.refill 0) s = true) ∧
    (let s := { vacant with net := { vacant.net with moving := [⟨77, 0, saved⟩] } }
     s.slotFits 0 aLaunch = true ∧ s.net.moving = [⟨77, 0, saved⟩] ∧ saved.slot.lkey = 1 ∧ runs (.migrationArrival 77 0) s = true) ∧
    (let s := tasked.updCur fun x => { x with leaving := true, spec := Spec.none }
     s.cur.leaving = true ∧ s.cur.status = .ready ∧ s.cur.level = .u ∧ s.cur.frame = none ∧ s.cur.hold = .none ∧ s.cur.spec = Spec.none ∧ s.cur.ops = [] ∧ s.cur.rsv = none ∧
       (∀ k, k < 64 → (s.slot (s.myTile * 64 + k)).status ≠ .saving) ∧ (s.tile 0).recs = [] ∧ runs (.eviction 0) s = true) ∧
    (tasked.cur.leaving = false ∧ runs (.eviction 0) tasked = true) ∧
    (let s := (tasked.updCur fun x => { x with leaving := true }).updSlot 7 fun x => { x with status := .saving }
     (∃ k, k < 64 ∧ (s.slot (s.myTile * 64 + k)).status = .saving) ∧ runs (.eviction 0) s = true) ∧
    (let s := (tasked.updCur fun x => { x with status := .saving }).updTile 0 fun t => { t with recs := [(0, { saved with from_ := 0, ctx := 0, done := false })] }
     let s := { s with tiles := [(0, s.tile 0)] }
     s.cur.status = .saving ∧ s.mem.wf = true ∧ (s.tile 0).recs = [(0, { saved with from_ := 0, ctx := s.cur.mc.ctxser, done := false })] ∧ s.cur.mc.ctxser = 0 ∧ s.tiles = [(0, s.tile 0)] ∧
       runs (.saveComplete 0) s = true) := by
  decide

theorem witness_TaskEvents_events :
    (let s := tasked.updCur fun x => { x with u := { x.u with uemask := 0x9, uepend := 0x7, uevec := 0x700 } }
     s.cur.atUserEvent = true ∧ s.pkg.halted = false ∧ s.cur.u.uemask.getLsbD 0 = true ∧ s.cur.u.uepend.getLsbD 2 = true ∧ s.cur.u.uemask.getLsbD 3 = true ∧
       (∀ j, j < 2 → (s.cur.u.uepend.getLsbD j && s.cur.u.uemask.getLsbD (j + 1)) = false) ∧ runs (.userEventDelivery 0) s = true) ∧
    (let s := at_ .s tasked
     s.cur.level ≠ .u ∧ runs (.userEventDelivery 0) s = true) ∧
    (let s := tasked.updCore 0 fun c => { c with align := some ⟨0x40, 1, 5, 0⟩ }
     (s.core 0).align = some ⟨0x40, 1, 5, 0⟩ ∧ runs (.alignTimeout 0 5) s = true) := by
  decide

def launched (l : Launch) : State := (aCtx rtiled).updPkg fun p => { p with wls := p.wls.set 3 aList, launches := p.launches.set 1 l, wlOwner := p.wlOwner.set 3 0 }
def waitingLaunch (f : Header → Header) : Launch := { aLaunch with h := f hdr, st := .waiting, pushed := false, alive := 0, admitted := false }
def finished : Launch := { aLaunch with st := .completed, fin := 9, alive := 0, triggers := 1 }
def recording (waiting : List W32) (rseq tail : Nat) : State := (launched finished).updPkg fun p => { p with ctxs := [(0, ⟨0, 3, true, 1, 0x100000, 4096, 0x5000, 1, 4, 0x6000, rseq, tail, waiting, none, false, [], ⟨0x4000, 0, 8, 0, 0, 64, 512⟩, false, none⟩)] }

theorem witness_LaunchEvents :
    (let l := waitingLaunch id
     let s := launched l
     s.launch? 1 = some l ∧ l.h.preds = [] ∧ l.h.cosched = false ∧ l.h.persist = false ∧ l.h.piste = false ∧ s.recordsFull l.h.asid = false ∧ l.creator = none ∧ l.h.ntask ≠ 0 ∧ s.wl? l.h.wlid = some aList ∧
       (aList.tileK.getD (none, 0) (l.pushTile % 512)).1 = none ∧ l.ranging = false ∧ runs (.launchStart 1) s = true) ∧
    (let l := { waitingLaunch (fun h => { h with ntask := 70000 }) with st := .running, lseq := 1 }
     let s := launched l
     s.launch? 1 = some l ∧ s.wl? l.h.wlid = some aList ∧ l.st = .running ∧ l.pushed = false ∧ l.ranging = false ∧ l.creator = none ∧ 65536 * l.lseq < l.h.ntask.toNat ∧ runs (.launchStart 1) s = true) ∧
    (let l := { waitingLaunch id with st := .running, lseq := 1 }
     l.st = .running ∧ l.pushed = false ∧ l.ranging = false ∧ l.h.ntask.toNat ≤ 65536 * l.lseq ∧ runs (.launchStart 1) (launched l) = true) ∧
    (let l := { aLaunch with pushed := true }
     l.st ≠ .waiting ∧ l.pushed = true ∧ runs (.launchStart 1) (launched l) = true) ∧
    (let l := waitingLaunch fun h => { h with ntask := 0 }
     (launched l).recordsFull l.h.asid = false ∧ runs (.launchStart 1) (launched l) = true) ∧
    (let l := waitingLaunch fun h => { h with preds := [9] }
     (launched l).predsReady l.h = false ∧ runs (.launchStart 1) (launched l) = true) ∧
    (let l := waitingLaunch fun h => { h with cosched := true, ntask := 256 }
     (launched l).predsReady l.h = true ∧ ((launched l).freeSlots l.h.asid).length < l.h.ntask.toNat ∧ runs (.coschedAdmission 1) (launched l) = true) ∧
    (let l := waitingLaunch fun h => { h with cosched := true, ntask := 255 }
     (launched l).predsReady l.h = true ∧ l.h.ntask.toNat ≤ ((launched l).freeSlots l.h.asid).length ∧ (launched l).barsFree (l.h.instances l.id) = true) := by
  decide

theorem witness_LaunchEvents_records :
    (let s := recording [1] 16 1
     (s.ctx? 0).isSome = true ∧ s.host.sent = [] ∧ finished.regions = [] ∧ (16 : Nat) < 1 + 2 ^ 4 ∧ runs (.launchRecordWrite 0) s = true) ∧
    (let s := recording [1] 16 0
     (0 : Nat) + 2 ^ 4 ≤ 16 ∧ runs (.launchRecordWrite 0) s = true) ∧
    (let w := { aList with parts := [(0, [front 4])] }
     let s := (opened w rtiled).updPkg fun p => { p with wlwdog := 5, cycle := 11999 }
     s.wl? 3 = some w ∧ s.present 3 ≠ 0 ∧ w.home = s.pkg.podIndex.toNat ∧ w.launch = 1 ∧ s.now < w.lastPop + s.pkg.wlwdog.toNat * 2400 ∧ runs (.wlwdogExpiry 3) s = true) ∧
    (let w := { aList with parts := [(0, [front 4])] }
     let s := (opened w (aCtx rtiled)).updPkg fun p => { p with wlwdog := 5, cycle := 12000 }
     w.lastPop + s.pkg.wlwdog.toNat * 2400 ≤ s.now ∧ aLaunch.st.final = false ∧ runs (.wlwdogExpiry 3) s = true) ∧
    (let w := { aList with pkgs := [0, 2] }
     let s := opened w (aCtx rtiled)
     s.pkg.wls = [(3, w)] ∧ 1 < w.pkgs.length ∧ runs (.packageLeavesPod 2) s = true ∧ s.pkg.openings = [] ∧ 5 ∉ w.pkgs ∧ s.net.away = [] ∧ runs (.packageLeavesPod 5) s = true) ∧
    (let l := { aLaunch with away := some 2 }
     let w := { aList with pkgs := [0, 2], home := 2, launch := l.key }
     let s := (aCtx rtiled).updPkg fun p => { p with wls := [(3, w)], launches := [(l.key, l)] }
     s.pkg.wls = [(3, w)] ∧ s.launch? l.key = some l ∧ w.home = 2 ∧ 2 ≠ s.pkg.podIndex.toNat ∧ 2 ∈ w.pkgs ∧ l.st.final = false ∧ runs (.packageLeavesPod 2) s = true) := by
  decide


/-! ### Package barriers and channels -/

def barKey16 : BarKey := ⟨0, 16, 0⟩
/-- One barrier record for every id from 16, on every die, in a state with a task. -/
def barred (count expect : Nat) (phase : Bool) (s : State) : State :=
  (List.range 4).foldl (fun s d => s.updDie d fun x => { x with bars := (List.range 16).map fun k => ⟨⟨0, BitVec.ofNat 5 (16 + k), 0⟩, expect, count, phase⟩ }) s

theorem witness_BarriersAndChannelEvents_bars :
    ((∀ i ∈ [Instr.bara 16, .barw 31, .barg 31, .barq 11 31], CanIssue i tasked ∧ runs i tasked = true) ∧ Released tasked .pkg ∧ tasked.barInst (tasked.barKey tasked.cur 31) = none) ∧
    (let s := arrive (some true) (barred 2 5 true tasked)
     CanIssue (.barw 16) s ∧ (s.task s.cur.u.tid).arrival 16 = some true ∧ s.barInst (s.barKey s.cur 16) = some ⟨barKey16, 5, 2, true⟩ ∧ runs (.barw 16) s = true ∧ runs (.barq 11 16) s = true ∧ CanIssue (.barq 11 16) s) ∧
    (let s := setG 5 0x1000001 (at_ .s tasked)
     CanIssue (.barset 16 5) s ∧ 2 ^ 24 < (s.cur.readG 5).toNat ∧ runs (.barset 16 5) s = true) ∧
    (let s := setG 5 0x1000000 (at_ .s tasked)
     CanIssue (.barset 16 5) s ∧ s.barInst barKey16 = none ∧ (s.die (s.barDie barKey16)).bars.length < 1024 ∧ runs (.barset 16 5) s = true) ∧
    (let s := setG 5 2 (barred 2 5 true (at_ .s tasked))
     CanIssue (.barset 16 5) s ∧ s.barInst barKey16 = some ⟨barKey16, 5, 2, true⟩ ∧ runs (.barset 16 5) s = true ∧ runs (.barset 16 0) s = true ∧ CanIssue (.barset 16 0) s) := by
  simp only [CanIssue, Released]; decide

theorem witness_BarriersAndChannelEvents_arrivals :
    (runs (.packageBarrierArrival 0 0 barKey16) tasked = true ∧ tasked.barInst barKey16 = none) ∧
    (let s := barred 4 5 true tasked
     s.barInst barKey16 = some ⟨barKey16, 5, 4, true⟩ ∧ 5 ≤ 4 + 1 ∧ runs (.packageBarrierArrival 0 0 barKey16) s = true) ∧
    (let s := (arrive (some true) tasked).updCur fun x => { x with status := .blocked (.barrier 16) }
     (∀ k, k < 64 → s.myTile * 64 + k ≠ s.curId → (s.slot (s.myTile * 64 + k)).status = .free) ∧ (s.tile s.myTile).recs = [] ∧ s.barName s.cur 16 = .pkg (s.barKey s.cur 16) ∧
       (s.task s.cur.u.tid).arrival 16 = some true ∧ s.cur.status = .blocked (.barrier 16) ∧ runs (.barrierCompletion 0 (.pkg (s.barKey s.cur 16)) true) s = true) ∧
    (let s := (arrive (some true) tasked).updCur fun x => { x with spec := { Spec.none with mode := .glide, restart := 4, ckpt := some ⟨Regs.zero, 0, 0, none⟩, barrier := some (16, .pkg barKey16, true) } }
     s.cur.status = .ready ∧ s.cur.spec.mode = .glide ∧ s.cur.spec.commit = .none ∧ s.barName s.cur 16 = .pkg barKey16 ∧ runs (.barrierCompletion 0 (.pkg barKey16) true) s = true) ∧
    (let s := arrive (some true) tasked
     s.cur.spec.barrier = none ∧ runs (.barrierCompletion 0 (.pkg barKey16) true) s = true) := by
  decide

theorem witness_BarriersAndChannelEvents_channels :
    (let s := (bound { aChan with dryev := true } tasked)
     (s.task 0).chan 15 = some { aChan with dryev := true } ∧ (s.task 0).place = .slot s.curId ∧ s.cur.u.tid = 0 ∧ runs (.channelWord 0 15 aChan.peer 9) s = true ∧ runs (.channelWord 0 15 8 9) s = true ∧
       runs (.dryTimeout 0 15 aChan.since) s = true ∧ aChan.words = [] ∧ aChan.dryf = false ∧ runs (.dryTimeout 0 15 (aChan.since + 1)) s = true) ∧
    (let s := (bound aChan tasked).updCur fun x => { x with status := .blocked (.queue 8) }
     s.cur.status = .blocked (.queue 8) ∧ runs (.channelWord 0 8 aChan.peer 9) s = true) ∧
    (let s := bound { aChan with send := true } tasked
     (s.task 0).chan 8 = some { aChan with send := true } ∧ runs (.creditReturn 0 8 aChan.peer 16) s = true) := by
  decide

/-! ### Engines -/

def aCmd (op : MOp) (fmt : Nat) : MCmd :=
  ⟨op, 2, BitVec.ofNat 64 (fmt * 2 ^ 56 + 0x80000100), BitVec.ofNat 64 (fmt * 2 ^ 56 + 0x80000800), 64, 64, .replicate 16 0x01020304, .replicate 16 0x01020304, 0, 0, 0, 0, 3⟩
def engine : State := withTask (fun t => { t with place := .slot 0, out1 := 1, out3 := 1, out5 := 1 }) rtiled
def core0 (f : Machine.Core → Machine.Core) : State := engine.updCore 0 f
def rowBytes (k m : Nat) : List (List Byte) := (List.range 32).map fun i => (List.range 64).map fun j => BitVec.ofNat 8 (i * k + j * m)
def latched (op : MOp) (poison : Bool) : State := engine.updTile 0 fun t => { t with latches := [⟨0, aCmd op 1, rowBytes 7 3, rowBytes 5 11, poison, 0, false⟩] }
def aRun (left : Nat) : MRun := ⟨aCmd .msta 5, List.replicate 16 (512, someBytes), false, 0, left, 0x30005⟩

theorem witness_EngineEvents_matrix :
    (let s := core0 fun c => { c with q0 := [aCmd .mzero 5] }
     (s.tile 0).mbusy ≤ s.now ∧ (s.tile 0).mrr.1 < 8 ∧ (∀ c, c < 8 → c ≠ 0 → (s.core (0 * 8 + c)).q0 = []) ∧ (s.tile 0).latches = [] ∧ (s.core 0).q0 = [aCmd .mzero 5] ∧ runs (.matrixCommandStart 0) s = true) ∧
    (let s := core0 fun c => { c with q0 := [aCmd .mlda 1] }
     (s.core 0).run0 = [] ∧ (aCmd .mlda 1).readLines ≠ [] ∧ (∀ n ∈ (aCmd .mlda 1).readLines, s.rowWaits 0 (aCmd .mlda 1).asid n false = false) ∧ runs (.matrixCommandStart 0) s = true) ∧
    (let s := latched (.mmov 3) false
     (s.core 0).q0 = [] ∧ (s.tile 0).latches.length = 1 ∧ runs (.matrixCommandStart 0) s = true) ∧
    runs (.matrixCommandStart 0) (latched .mlda true) = true ∧ (fmtOf (aCmd (.mma .i8 false false true) 1).ga = 1 ∧ fmtOf (aCmd (.mma .i8 false false true) 1).gb = 1) ∧
    (let s := core0 fun c => { c with run0 := [aRun 0] }
     (s.core 0).run0 = [aRun 0] ∧ (aRun 0).done ≤ s.now ∧ s.net.reqs = [] ∧ (s.task 0).place = .slot s.curId ∧ s.cur.u.tid = 0 ∧ s.cur.ops = [] ∧ runs (.matrixCommandComplete 0 0) s = true) ∧
    (let s := core0 fun c => { c with run0 := [aRun 16] }
     (aRun 16).lines[16 - (aRun 16).left]? = some (512, someBytes) ∧ s.rowWaits 0 (aRun 16).cmd.asid (512 / 64) true = false ∧ someBytes.length = 64 ∧ s.mem.wf = true ∧ runs (.matrixCommandComplete 0 0) s = true) := by
  decide

def anECmd (d : Nat) : ECmd := ⟨BitVec.ofNat 64 d, none, 0, 0, 0, 7, false, 0, []⟩
def copyDesc (flags : Nat) : List Byte := bytesAt [(8, 5 * 2 ^ 56 + 0x80000100), (8, 5 * 2 ^ 56 + 0x80000100), (8, flags), (8, 0), (4, 4), (4, 1), (4, 1)] ++ List.replicate 84 0
/-- An access of a unit of tile 0 to its own slice: the clauses of `InSlice`, and nothing of the tile ahead of it. -/
abbrev sliceOf (s : State) (asid : BitVec 14) (va off : Nat) (write : Bool) : Prop :=
  (s.classify 0 asid .s va = .sram 0 off ∧ s.windowFault 0 off asid write = none ∧ s.poisoned 64 (off / 64) = false ∧ va % 64 = off % 64 ∧ s.lineWaits 64 (off / 64) write = false) ∧
    s.portAhead 0 asid (64, off / 64) = false
/-- A copy of four elements, at its first. -/
def aCopy : CopyRun := ⟨anECmd 0x80000000, copyDesc 0, 0, none, none, 0, 0, 0, .none, false⟩
theorem witness_EngineEvents_copies :
    (∀ d ∈ [0x0001000080000000, 0x80000010], runs (.copyCommandStart 0 0) (core0 fun c => { c with q2 := [anECmd d, anECmd 0] }) = true) ∧
    (let s := store 0 (copyDesc 0) (core0 fun c => { c with q2 := [anECmd 0x80000000] })
     (s.core 0).run2 = none ∧ s.copyTurn 0 = some 0 ∧ sliceOf s 0 0x80000000 0 false ∧ sliceOf s 0 0x80000040 64 false ∧ (CopyPlan.of (copyDesc 0)).refusal true = none ∧ sliceOf s 0 0x80000100 256 true ∧
       seenBytes s 0 0 64 ++ seenBytes s 0 64 64 = copyDesc 0 ∧ (CopyPlan.of (copyDesc 0)).acq = false ∧ runs (.copyCommandStart 0 0) s = true) ∧
    (let s := store 0 (copyDesc (2 ^ 15)) (core0 fun c => { c with q2 := [anECmd 0x80000000] })
     (CopyPlan.of (copyDesc (2 ^ 15))).refusal true = some 1 ∧ seenBytes s 0 0 64 ++ seenBytes s 0 64 64 = copyDesc (2 ^ 15) ∧ runs (.copyCommandStart 0 0) s = true) ∧
    (let r : CopyRun := ⟨anECmd 0x80000000, copyDesc 0, 4, none, none, 0, 0, 3, .none, true⟩
     let s := core0 fun c => { c with run2 := some r }
     (s.core 0).run2 = some r ∧ r.wait ≠ .page ∧ (CopyPlan.of r.desc).rel = false ∧ runs (.copyCommandComplete 0 0) s = true) := by
  decide

theorem witness_EngineEvents_transfers :
    (let s := (core0 fun c => { c with q2 := [anECmd 0x80000000] }).updCore 1 fun c => { c with q2 := [anECmd 0] }
     let s := s.updTile 0 fun t => { t with crr := 1 }
     s.copyTurn 0 ≠ some 0 ∧ runs (.copyCommandStart 0 0) s = true ∧ runs (.copyCommandComplete 0 0) (s.updCore 0 fun c => { c with run2 := some aCopy }) = true) ∧
    runs (.copyCommandComplete 0 0) (core0 fun c => { c with run2 := some { aCopy with wait := .page } }) = true ∧
    (let r := aCopy
     let p := CopyPlan.of r.desc
     let s := core0 fun c => { c with run2 := some r }
     let m := p.runLen 0 none false false
     s.copyTurn 0 = some 0 ∧ r.desc ≠ [] ∧ 0 < p.total ∧ p.mode = 0 ∧ p.same = true ∧ p.single = false ∧ s.mem.wf = true ∧
       (match s.classify 0 0 .s ((p.reads 0 none).headD (0, 0)).1.toNat with | .pod .. => false | _ => true) = true ∧ (match s.classify 0 0 .s ((p.writes 0 none).headD (0, 0)).1.toNat with | .pod .. => false | _ => true) = true ∧
       p.readRun 0 m none = [(0x80000100, 16)] ∧ p.writeRun 0 m none = [(0x80000100, 16)] ∧ 0x80000100 % p.srcAlign = 0 ∧ 0x80000100 % p.dstAlign = 0 ∧ sliceOf s 0 0x80000100 256 false ∧ sliceOf s 0 0x80000100 256 true ∧
       runs (.copyCommandComplete 0 0) s = true) := by
  decide

def collDesc (flags count : Nat) : List Byte := bytesAt [(8, 5 * 2 ^ 56 + 0x80000100), (8, 5 * 2 ^ 56 + 0x80000200), (8, flags), (4, 1), (4, 0), (8, (count - 1) * 2 ^ 10 + 9 * 2 ^ 32), (8, 0), (8, 0), (8, 0)]
def collKey : CollKey := ⟨0, 9, 0⟩
def aMember (pos : Nat) (d : List Byte) (src : List Byte) : CollMember := ⟨0, pos, anECmd 0x80000000, d, [], src, 0⟩
def aColl (flags count : Nat) : Coll := ⟨collKey, 0, [aMember 0 (collDesc flags count) [1, 2, 3, 4]], false, 1, 0, some (0, [1, 2, 3, 4], 0), [], [], []⟩
def collected (c : Coll) : State := { engine with net := { engine.net with colls := [c] } }
/-- A command of core 0 that has read its descriptor, and the bytes at SRC. -/
def joining (d src : List Byte) : State := core0 fun c => { c with q4 := [anECmd 0x80000000], join4 := some ⟨some d, some [], src⟩ }
/-- What `joining` needs to join: `k` members, at tile 0. -/
abbrev joins (d src : List Byte) : Prop :=
  let p := CollPlan.of d
  p.span = false ∧ p.clear 0 = true ∧ p.suits p.tcnt = true ∧ p.pointerFault 0 p.tcnt = none ∧ src.length = p.srcLen 0 ∧ 0 - p.tfirst = 0 ∧ runs (.collectiveJoin 0 0) (joining d src) = true
theorem witness_EngineEvents_joins :
    (∀ d ∈ [0x0001000080000000, 0x80000010], runs (.collectiveJoin 0 0) (core0 fun c => { c with q4 := [anECmd d, anECmd 0] }) = true) ∧
    (let s := store 0 (collDesc 3 1) (core0 fun c => { c with q4 := [anECmd 0x80000000] })
     s.net.parks = [] ∧ s.podReqs 0 300 = [] ∧ (s.core 0).join4 = none ∧ sliceOf s 0 0x80000000 0 false ∧ seenBytes s 0 0 64 = collDesc 3 1 ∧ (CollPlan.of (collDesc 3 1)).acq = false ∧
       runs (.collectiveJoin 0 0) s = true) ∧
    ((CollPlan.of (collDesc 7 1)).span = false ∧ (CollPlan.of (collDesc 7 1)).clear 0 = false ∧ (engine.task 0).place = .slot engine.curId ∧ engine.cur.u.tid = 0 ∧
      runs (.collectiveJoin 0 0) (joining (collDesc 7 1) []) = true) ∧
    -- alone: a barrier, a broadcast and a sum that its one member decides; a sum of two that waits for the other
    (joins (collDesc 3 1) [] ∧ joins (collDesc 2 1) [1, 2, 3, 4] ∧ joins (collDesc 0 1) [1, 2, 3, 4] ∧ joins (collDesc 0 2) [1, 2, 3, 4] ∧ (joining (collDesc 3 1) []).coll? ⟨0, 9, 0⟩ = none) ∧
    ((CollPlan.of (collDesc 3 1)).kind = 3 ∧ (CollPlan.of (collDesc 2 1)).kind = 2 ∧ (CollPlan.of (collDesc 2 1)).root = 0 ∧ (CollPlan.of (collDesc 0 1)).kind = 0 ∧ (CollPlan.of (collDesc 0 1)).op = 0 ∧
      (CollPlan.of (collDesc 0 1)).count = 1 ∧ fmtOf (CollPlan.of (collDesc 0 1)).src = 5 ∧ (CollPlan.of (collDesc 0 1)).tcnt = 1 ∧ (CollPlan.of (collDesc 0 2)).tcnt = 2) ∧
    (joining (collDesc 3 1) []).coll? ⟨0, 9, 0⟩ = none := by
  decide

/-- A second member that agrees, and one that does not. -/
theorem witness_EngineEvents_members :
    (let o : Coll := { aColl 0 2 with members := [aMember 1 (collDesc 0 2) [5, 6, 7, 8]], need := 0, verdict := none }
     let s := { joining (collDesc 0 2) [1, 2, 3, 4] with net := { engine.net with colls := [o] } }
     s.coll? collKey = some o ∧ o.key = collKey ∧ (aMember 1 (collDesc 0 2) [5, 6, 7, 8]).differs (aMember 0 (collDesc 0 2) [1, 2, 3, 4]) = false ∧ runs (.collectiveJoin 0 0) s = true) ∧
    (let o : Coll := { aColl 2 2 with members := [aMember 1 (collDesc 2 2) []], need := 0, verdict := none }
     let s := { joining (collDesc 0 2) [1, 2, 3, 4] with net := { engine.net with colls := [o] } }
     s.coll? collKey = some o ∧ (aMember 1 (collDesc 2 2) []).differs (aMember 0 (collDesc 0 2) [1, 2, 3, 4]) = true ∧ runs (.collectiveJoin 0 0) s = true) := by
  decide

theorem witness_EngineEvents_collectives :
    (let o := { aColl 3 1 with verdict := some (11, [], 0) }
     (collected o).coll? collKey = some o ∧ tileOf 0 = 0 ∧ coreOf 0 % 8 = 0 ∧ (collected o).net.parks = [] ∧ (collected o).podReqs 0 300 = [] ∧ runs (.collectiveComplete collKey) (collected o) = true) ∧
    runs (.collectiveComplete collKey) (collected { aColl 2 1 with refused := [0] }) = true ∧
    (let o := { aColl 3 1 with wrote := [0] }
     (CollPlan.of (collDesc 3 1)).rel = false ∧ runs (.collectiveComplete collKey) (collected o) = true) ∧
    (let o := aColl 2 1
     let p := CollPlan.of (collDesc 2 1)
     ((aMember 0 (collDesc 2 1) [1, 2, 3, 4]).share [1, 2, 3, 4]).length = 4 ∧ vaOf p.dst = 0x80000200 ∧ sliceOf (collected o) 0 0x80000200 512 true ∧ runs (.collectiveComplete collKey) (collected o) = true ∧
       runs (.collectiveComplete collKey) (collected { o with members := [{ aMember 0 (collDesc 2 1) [1, 2, 3, 4] with put := 4 }] }) = true) ∧
    (let o := { aColl 3 2 with need := 2, verdict := none }
     (collected o).coll? collKey = some o ∧ o.served = [] ∧ (∀ z ∈ o.members, z.pkg = (collected o).pkg.podIndex.toNat) ∧ runs (.colltmoExpiry collKey) (collected o) = true ∧
       runs (.colltmoExpiry collKey) (collected (aColl 3 2)) = true) := by
  decide

/-! ### The package -/

def aWin (count thresh : Nat) (lasting : Bool) (start window : Nat) : FaultWin := ⟨.sramLine 0 1, count, thresh, window, start, lasting⟩
def erred (w : FaultWin) : State := rtiled.updPkg fun p => { p with wins := [w], cycle := 2400 * 50 }

theorem witness_PackageEvents :
    (∀ off ∈ [0x100008, 0x103F10, 0x103F00, 0x200000, 0x20FFC8, 0x3001F8, 0x400000, 0x400008], runs (.controlRegisterWrite off 0xFFFFFFFFFFFFFFFF) rtiled = true) ∧
    (let s := rtiled.updPkg fun p => { p with plim := 300, tlim := 80, duty := 3 }
     runs (.throttleStep 301 80) s = true ∧ runs (.throttleStep 199 74) s = true ∧ runs (.throttleStep 200 75) s = true) ∧
    (runs (.errorEvent (.sramLine 0 1) true) rtiled = true ∧ rtiled.pkg.wins = []) ∧
    (let s := erred (aWin 1 3 false 40 1000)
     s.now / 2400 = 50 ∧ (50 : Nat) < 40 + 1000 ∧ runs (.errorEvent (.sramLine 0 1) true) s = true) ∧
    (runs (.errorEvent (.sramLine 0 1) true) (erred (aWin 2 3 false 40 1000)) = true ∧ runs (.errorEvent (.sramLine 0 1) false) (erred (aWin 5 3 false 40 10)) = true) ∧
    runs .powerOff rtiled = true ∧ runs .thermalTrip rtiled = true ∧
    (let s := rtiled.updPkg fun p => { p with tenants := [(7, ⟨0, 9⟩)] }
     s.pkg.tenants.get? 7 = some ⟨0, 9⟩ ∧ runs (.controlRegisterWrite 0x480038 (3 * 2 ^ 32 + 5 * 2 ^ 17 + 1)) s = true ∧ runs (.controlRegisterWrite 0x480038 0) s = true) ∧
    (∀ k ∈ [0, 1, 2, 3], runs (.controlRegisterWrite (0x500000 + 32 * 17 + 8 * k) 5) rtiled = true) ∧ runs (.errorEvent (.uePort 15) false) rtiled = true ∧ runs (.errorEvent (.ualPort 0) true) rtiled = true ∧
    (let s := { rtiled with net := { rtiled.net with chosen := true } }
     s.pkg.boot.powered = true ∧ s.net.csrs = [] ∧ s.pkg.wls = [] ∧ runs .cycle s = true) ∧
    (let s := { rtiled with net := { rtiled.net with chosen := true, csrs := [(0, 0x220, 9)] } }
     s.net.csrs = [(0, 0x220, 9)] ∧ runs .cycle s = true) ∧
    (let s := { base with tiles := [], net := { base.net with chosen := false, issueQ := [], plan := [] } }.updCur fun x => { x with level := .u, pc := 0x1000, u := { x.u with codel := 64 } }
     s.slots = [] ∧ s.net.moving = [] ∧ s.cur.status = .ready ∧ s.cur.ops = [] ∧ s.cur.leaving = false ∧ s.cur.ending = false ∧ s.cur.stopReq = .none ∧ s.cur.dueEvent = none ∧ s.canIssue = .go ∧ s.cur.forfeit = 0 ∧ runs .cycle s = true) := by
  decide

theorem witness_PackageEvents_words :
    (let s := undelegated rtiled
     s.mayIssue = true ∧ s.cur.ops = [] ∧ s.cur.frame = none ∧ s.cur.spec.mode = .none ∧ s.cur.spec.commit = .none ∧ s.atBreakpoint = false ∧ ¬ToM s.cur 1 ∧ s.cur.sc.stvec ≠ 0 ∧ runs (.illegalWord 0xFFFFFFFF) s = true) ∧
    (let s := rtiled
     ToM s.cur 1 ∧ ¬(s.cur.level = .m ∧ s.cur.mc.intrap = true) ∧ runs (.illegalWord 0) s = true) ∧
    (let s := (undelegated rtiled).updCur fun x => { x with pc := 0x1000, u := { x.u with codel := 64 } }
     s.cur.inRegion s.cur.pc = false ∧ ¬ToM s.cur 2 ∧ runs .fetchOutsideCodeRegion s = true) := by
  simp only [ToM]; decide

theorem test_slotEmpty : State.reset.cur.status = .free ∧ exec (.illegalWord 0) State.reset = .fault .slotEmpty ∧ exec (.add 1 2 3) State.reset = .fault .slotEmpty := ⟨by decide, rfl, rfl⟩

/-- The scrub of the one window of tile 0. -/
def scrubbing : State := aCtx { rtiled with tiles := [(0, { Tile.reset with windows := [⟨0, 1, 0, 3, true, true⟩] })] }
theorem witness_PackageEvents_scrub : scrubbing.tiles = [(0, { Tile.reset with windows := [⟨0, 1, 0, 3, true, true⟩] })] ∧ (scrubbing.ctx? 0).isSome = true ∧ ((scrubbing.ctx? 0).bind (·.ender)) = none := by decide

def slotted (pol : Bool) (f : Nat → Slot) : State := (({ State.reset with slots := [(1, f 1), (2, f 2)] } : State).updCore 0 fun c => { c with pol := pol, cur := 1, last := 1 })
def readySlot (age : Nat) (yld : Bool) (forfeit : Nat) : Slot := { Slot.reset with status := .ready, age := age, yld := yld, forfeit := forfeit }
theorem witness_SlotSelection :
    (let s := slotted false fun _ => readySlot 1 false 0
     (∀ k ∈ [1, 2], k / 8 = 0) ∧ [1, 2].Nodup ∧ (s.slot 1).yld = false ∧ s.choose 0 [1, 2] = some 1 ∧ s.choose 0 [2] = some 2 ∧ s.choose 0 [] = none) ∧
    (let s := slotted false fun _ => readySlot 1 true 0
     (s.slot 1).yld = true ∧ s.choose 0 [1, 2] = some 2 ∧ s.choose 0 [1] = some 1) ∧
    (let s := slotted true fun _ => readySlot 1 false 0
     (s.core 0).pol = true ∧ 0 * 8 + ((s.core 0).last + 1 + 0) % 8 ∈ [1, 2] ∧ s.choose 0 [1, 2] = some 2) ∧
    (let s := slotted false fun _ => readySlot 1 false 2
     0 < (s.slot 1).forfeit ∧ s.choose 0 [1] = some 1 ∧ (State.select 2 s 0 [1]).1 = none) := by
  decide


/-! ### Ports, rings and host commands -/

def aRing : Ring := ⟨0x1000, 4, 7, true, 5, 5, 9, 0x7000, 3, 4, 6, 0, false, 0, 0, 0, 0, none, false, false, 0⟩
/-- A command record: ring, opcode, ASID and arguments. -/
def aCommand (ring opc asid : Nat) (args : List Nat) : Cmd :=
  ⟨ring, Vector.ofFn fun k => BitVec.ofNat 64 (if k.val = 0 then 5 + opc * 2 ^ 32 else if k.val = 1 then asid * 2 ^ 32 else if k.val = 2 then 77 else args.getD (k.val - 3) 0)⟩
def ringed (n : Nat) (r : Ring) (s : State) : State := { s with host := { s.host with rings := [(n, r)] } }
def tenanted : State := rtiled.updPkg fun p => { p with tenants := (p.tenants.set 7 ⟨0, 4⟩).set 3 ⟨0, 4⟩ }
def aPodReq (kind tag seq acked : Nat) : PodReq := ⟨0x80000040, 2, 3, 0, BitVec.ofNat 16 tag, BitVec.ofNat 4 kind, 0, 0, false, BitVec.ofNat 32 seq, BitVec.ofNat 32 acked, 8, someBytes, 255, 3, 4, 3, none⟩
def sent (l : List Rma) (s : State) : State := { s with host := { s.host with sent := l } }
def anRma (id : Nat) (w : RmaWhy) : Rma := ⟨id, 0x7000, 3, [1], w, false⟩
def aQuery : Cmd := aCommand 2 0x0C 0 [0]

theorem witness_PortEvents_requests :
    (let s := { tenanted with pkg := { tenanted.pkg with ready := 0 } }
     s.isReady (32 + 0) = false ∧ runs (.podRequest 0 (aPodReq 0 7 5 2)) s = true ∧ runs (.rmaWrite 0 0x1080 someBytes) s = true) ∧
    (tenanted.isReady 32 = true ∧ tenanted.tenantOf? 0 = some 7 ∧ (aPodReq 0 3 5 2).tag ≠ 7 ∧ (tenanted.pkg.tenants.get? 3).isSome = true ∧ runs (.podRequest 0 (aPodReq 0 3 5 2)) tenanted = true) ∧
    (tenanted.net.reqs = [] ∧ (tenanted.home 64).rc.get? (podSource (aPodReq 1 7 5 2)) = none ∧ seqBefore 5 2 = false ∧ runs (.podRequest 0 (aPodReq 0 7 5 2)) tenanted = true ∧ runs (.podRequest 0 (aPodReq 1 7 5 2)) tenanted = true) ∧
    (let r := { aPodReq 1 7 5 2 with addr := 0x80000030, size := 96, data := someBytes ++ someBytes, mask := 2 ^ 96 - 1 }
     64 < r.addr.toNat % 64 + r.size ∧ r.addr.toNat + r.size ≤ 2 ^ 48 ∧ runs (.podRequest 0 r) tenanted = true) ∧
    runs (.podRequest 0 { aPodReq 0 7 5 2 with msg := some (.tlbiAck 33) }) tenanted = true ∧
    (let s := tenanted.updHome 64 fun h => { h with rc := h.rc.set (podSource (aPodReq 0 7 5 2)) ⟨9, []⟩ }
     seqBefore 5 9 = true ∧ (s.home 64).rc.get? (podSource (aPodReq 0 7 5 2)) = some ⟨9, []⟩ ∧ runs (.podRequest 0 (aPodReq 0 7 5 2)) s = true) ∧
    (let s := tenanted.updHome 64 fun h => { h with rc := h.rc.set (podSource (aPodReq 0 7 5 2)) ⟨2, [(5, ⟨5, 0, 44⟩)]⟩ }
     ((s.home 64).rc.get? (podSource (aPodReq 0 7 5 2))).isSome = true ∧ runs (.podRequest 0 (aPodReq 0 7 5 2)) s = true) := by
  decide

def podOut (since lane : Nat) : Req := { aReq .load 8 with cls := .pod 1 0x40, sent := since, lane := lane, seqNo := 4, ptr := 0x8080000040 }
theorem witness_PortEvents_timeouts :
    (let s := withReq (podOut 1 3) tenanted
     s.req? 90 = some (podOut 1 3) ∧ s.now + 1 < 1 + 24000000 ∧ runs (.busyResend 90) s = true ∧ runs (.podRequestTimeout 90) s = true) ∧
    (let s := withReq (podOut 0 3) tenanted
     s.req? 90 = some (podOut 0 3) ∧ runs (.busyResend 90) s = true) ∧
    (let s := (withReq (podOut 1 100) tenanted).updPkg fun p => { p with cycle := 24000000 }
     1 + 24000000 ≤ s.now + 1 ∧ s.pkg.wls = [] ∧ s.pkg.openings = [] ∧ runs (.podRequestTimeout 90) s = true) ∧
    (let s := undelegated ((withOp (anOp (.g 6 8 false) [.g 6]) (withReq (podOut 1 3) tenanted)).updPkg fun p => { p with cycle := 24000000 })
     s.cur.ops = [anOp (.g 6 8 false) [.g 6]] ∧ s.cur.fails = [] ∧ ¬ToM s.cur 3 ∧ s.cur.sc.stvec ≠ 0 ∧ runs (.podRequestTimeout 90) s = true) := by
  simp only [ToM]; decide

def record (bad : Nat) (c : Cmd) : List Byte :=
  let bytes (f k : Nat) := bytesOfNat 8 ((c.words.getD k 0).toNat + if k = 1 then f else 0)
  (List.range 16).flatMap (bytes ((crc32c ((List.range 16).flatMap (bytes 0))).toNat + bad))
/-- Ring 2 with a record not yet read, which has landed. -/
def kicked (bad : Nat) (tries : Nat) : State :=
  let s := (ringed 2 { aRing with done := 4, tries := tries } tenanted).physWrite (0x1000 + 128 * 5) (record bad aQuery)
  { s with host := { s.host with landed := [(2, 5)] } }

theorem witness_PortEvents_rings :
    (let s := ringed 2 aRing tenanted
     s.ring? 2 = some aRing ∧ s.isReady 48 = true ∧ runs (.kick 0 9 3) s = true ∧ runs (.kick 0 8 (2 + 8 * 2 ^ 32)) s = true ∧ runs (.kick 0 9 (2 + 8 * 2 ^ 32)) s = true ∧
       runs (.kick 0 9 (2 + 500 * 2 ^ 32)) s = true ∧ runs (.kick 0 9 (2 + 5 * 2 ^ 32)) s = true ∧ runs (.kickReread 2) s = true ∧ s.registered 0x1000 = true ∧ s.registered 0x10000 = false ∧
       runs (.rmaWrite 0 0x10000 [1]) s = true ∧ runs (.rmaWrite 0 0x1080 (someBytes ++ someBytes)) s = true) ∧
    (let s := ringed 2 { aRing with parked := some (aQuery, 0, 0, 3) } tenanted
     (cmdEvent aQuery).isSome = true ∧ s.host.exec = none ∧ runs (.kickReread 2) s = true) ∧
    (let s := ringed 2 { aRing with parked := some (aQuery, 0, 0, 3), refused := true } tenanted
     runs (.kickReread 2) s = true) ∧
    (let s := ringed 2 { aRing with done := 4 } tenanted
     s.host.exec = none ∧ s.firstServed 2 = true ∧ runs (.kickReread 2) s = true ∧ runs (.kickReread 2) { s with host := { s.host with exec := some 1 } } = true) := by
  decide

theorem witness_PortEvents_records : (record 0 aQuery).length = 128 ∧ numberOf ((record 0 aQuery).take 4) = 5 ∧
    numberOf (((record 0 aQuery).drop 8).take 4) = (crc32c ((record 0 aQuery).take 8 ++ [0, 0, 0, 0] ++ (record 0 aQuery).drop 12)).toNat ∧ runs (.kickReread 2) (kicked 1 64) = true := by
  decide +kernel

theorem witness_PortEvents_acknowledgements :
    runs (.hostAcknowledgement 8) (aCtx (sent [anRma 8 (.record 0), anRma 9 .report] tenanted)) = true ∧ runs (.hostAcknowledgement 9) (sent [anRma 8 (.record 0), anRma 9 .report] tenanted) = true ∧
    runs (.hostAcknowledgement 8) (ringed 2 aRing (sent [anRma 8 (.copyOut aQuery)] tenanted)) = true ∧
    runs (.hostAcknowledgement 8) (ringed 2 aRing (sent [anRma 8 (.copyOut aQuery), anRma 9 (.copyOut aQuery)] tenanted)) = true ∧ runs (.hostAcknowledgement 8) tenanted = true := by
  decide

theorem witness_CommandRefusals :
    ((ringed 0 aRing tenanted).ring? 0 = some aRing ∧ cmdClean (aCommand 0 1 0 []) (cmdBits 0x0C) false = true ∧ cmdClean (aCommand 0 1 5 []) (cmdBits 0x04) true = true ∧
      cmdClean (aCommand 0 1 0 (List.replicate 12 0 ++ [1])) (cmdBits 0x0C) false = false ∧ tenanted.tenantOf? 5 = none ∧ tenanted.tenantOf? 0 = some 7 ∧ (7 : BitVec 16) ≠ { aRing with owner := 9 }.owner) ∧
    (let c := aCommand 2 1 5 []
     ∀ e ∈ [Instr.ringClose c, .ctxDestroy c, .ctxSstate c, .keySet c, .unmap c, .launch c, .copyIn c, .copyOut c, .lrecFree c, .abort c, .query c], runs e (ringed 2 aRing tenanted) = true) := by
  decide

/-- A supervisor-state block, as CTX_CREATE reads it; with 1, one that is not legal. -/
def stateBlock (bad : Nat) : List Byte := bytesAt [(8, 0x400), (8, 0x1000), (8, 0x2000 + bad), (8, 5), (8, 6), (8, 64 + 256 * 65536), (8, 0), (8, 0)]
def creating (asid first last : Nat) : Cmd := aCommand 0 3 asid [7 + 3 * 65536, 0, first + last * 512 + 2 ^ 18 + 2 * 2 ^ 31, 0x100, 64, 0x5000, 1 + 4 * 2 ^ 32, 0x6000, 0x3000]
def hosted (bad : Nat) : State := (ringed 0 aRing tenanted).physWrite 0x3000 (stateBlock bad)
def read64 (s : State) : List Byte := match s.physRead 0x3000 64 with | .ok b => b | _ => []

theorem witness_RingAndContextCommands_rings :
    (let c := aCommand 0 1 0 [4, 0x2000 + 5 * 2 ^ 40, 7, 8, 9, 3 + 6 * 2 ^ 32]
     cmdClean c (cmdBits 0x01) false = true ∧ c.field 0 0 4 = 4 ∧ c.field 1 40 4 = 5 ∧ c.field 5 32 4 = 6 ∧ c.field 1 0 39 % 4096 = 0 ∧ runs (.ringOpen c) (hosted 0) = true) ∧
    (∀ n ∈ [3, 0], cmdClean (aCommand 0 2 0 [n]) (cmdBits 0x02) false = true ∧ runs (.ringClose (aCommand 0 2 0 [n])) (hosted 0) = true) ∧
    (let c := aCommand 0 5 0 [6 + 2 ^ 32]
     cmdClean c (cmdBits 0x05) false = true ∧ (c.arg 0).getLsbD 32 = true ∧ runs (.keySet c) (hosted 0) = true) ∧
    (let c := aCommand 0 5 0 [6, 7, 1, 2, 3, 4, 5, 6, 7, 8]
     cmdClean c (cmdBits 0x05) false = true ∧ (c.arg 0).getLsbD 32 = false ∧ runs (.keySet c) (hosted 0) = true) ∧
    (let c := aCommand 0 17 0 [9]
     cmdClean c (cmdBits 0x11) true = true ∧ ((aCtx (hosted 0)).ctx? 0).isSome = true ∧ runs (.lrecFree c) (aCtx (hosted 0)) = true) := by
  decide

theorem witness_RingAndContextCommands_contexts :
    (cmdClean (creating 0 0 1) (cmdBits 0x03) true = true ∧ (hosted 0).tenantOf? 0 = some 7 ∧ runs (.ctxCreate (creating 0 0 1)) (hosted 0) = true) ∧
    ((creating 3 4 4).field 2 0 9 = 4 ∧ (creating 3 4 4).field 2 9 9 = 4 ∧ (creating 3 4 4).field 6 32 5 = 4 ∧ (hosted 0).tenantOf? 3 = none ∧ (hosted 0).isReady (4 + quadOf 4) = true ∧ ((hosted 0).tile 4).retired = false ∧
      ((hosted 0).tile 4).windows = [] ∧ (hosted 0).pkg.tenants.length < 4096 ∧ read64 (hosted 0) = stateBlock 0 ∧ runs (.ctxCreate (creating 3 4 4)) (hosted 0) = true) ∧
    (read64 (hosted 1) = stateBlock 1 ∧ runs (.ctxCreate (creating 3 4 4)) (hosted 1) = true) ∧
    (let s := (hosted 0).updTile 4 fun t => { t with retired := true }
     (s.tile 4).retired = true ∧ runs (.ctxCreate (creating 3 4 4)) s = true) ∧
    (let c := aCommand 0 16 0 [0x3000]
     cmdClean c (cmdBits 0x10) true = true ∧ runs (.ctxSstate c) (aCtx (hosted 0)) = true ∧ runs (.ctxSstate c) (aCtx (hosted 1)) = true) ∧
    (let c := aCommand 0 4 0 []
     let s := aCtx (hosted 0)
     cmdClean c (cmdBits 0x04) true = true ∧ s.pkg.launches = [] ∧ runs (.ctxDestroy c) s = true) := by
  decide

/-- A ring that is closed while a command of it is parked; a context that still runs a task; and the last answer to the TLBI of a command. -/
theorem witness_RingAndContextCommands_ends :
    (let s := { hosted 0 with host := { (hosted 0).host with rings := [(0, aRing), (3, { aRing with parked := some (aQuery, 0, 0, 3) })] } }
     (s.ring? 3).any (fun q => q.parked.isSome) = true ∧ runs (.ringClose (aCommand 0 2 0 [3])) s = true) ∧
    (let s := ringed 0 aRing (tenanted.updPkg fun p => { p with ctxs := (aCtx tenanted).pkg.ctxs })
     let s := withTask (fun t => { t with place := .slot 0 }) (s.updCur fun x => { x with status := .ready })
     s.ctxRuns 0 = true ∧ s.pkg.launches = [] ∧ s.net.reqs = [] ∧ (s.ctx? 0).any (fun c => c.waiting.isEmpty) = true ∧ runs (.ctxDestroy (aCommand 0 4 0 [])) s = true) ∧
    (∀ c ∈ [aCommand 0 4 0 [], aCommand 0 7 0 [0x50000, 1]],
      let o : TlbiOp := { aTlbi 0 1 with cmd := some c }
      let s := { aCtx (hosted 0) with net := { (hosted 0).net with tlbis := [o] } }
      (s.net.tlbis.find? fun v => v.id == 33) = some o ∧ o.acks ≤ 1 ∧ (s.ctx? c.asid).isSome = true ∧ runs (.tlbiAck 33) s = true) := by
  decide

theorem witness_RingAndContextCommands_pages :
    (let s := table (leaf page5 75 1) (ringed 0 aRing tenanted)
     let p1 := s.rootEntry 0 0x50000
     s.mem.wf = true ∧ p1 = 0xA000 ∧ pteV (s.readPte p1) = true ∧ pteLeaf (s.readPte p1) = false ∧ pteReserved (s.readPte p1) = false ∧ pteAddr (s.readPte p1) = 0x20000 ∧
       pteV (s.readPte 0x20000) = true ∧ pteLeaf (s.readPte 0x20000) = false ∧ pteAddr (s.readPte 0x20000) = 0x24000 ∧ pteV (s.readPte 0x24028) = true ∧ pteLeaf (s.readPte 0x24028) = true ∧
       s.isReady 24 = true ∧ runs (.map (aCommand 0 6 0 [0x60000, 1, 0x40000, 5 + 9 * 256])) s = true ∧ runs (.unmap (aCommand 0 7 0 [0x50000, 1])) s = true ∧ runs (.unmap (aCommand 0 7 0 [0x50000, 0])) s = true) ∧
    (cmdClean (aCommand 0 6 0 [0x60000, 1, 0x40000, 5 + 9 * 256]) (cmdBits 0x06) true = true ∧ cmdClean (aCommand 0 7 0 [0x50000, 1]) (cmdBits 0x07) true = true) ∧
    (let s := ringed 0 aRing tenanted
     pteV (s.readPte (s.rootEntry 0 0x60000)) = false ∧ (s.home 6).pool = [] ∧ runs (.map (aCommand 0 6 0 [0x60000, 1, 0x40000, 5])) s = true) := by
  decide


/-- Ring 0 and a context of ASID 0 whose slices are seen from 0x80000000, with a header and its entry table in slice 0. -/
def staged : State :=
  let s := aCtx (ringed 0 aRing tenanted)
  let s := s.updPkg fun p => { p with asids := p.asids.set 0 ⟨7, 5, 0, true, 1⟩ }
  store 0x200 (bytesOfNat 8 0x9000) (store 0x100 (hdrBytes 3 0x80000200) s)

/-- Offset `off` of slice 0, seen at 0x80000000 + off. -/
def sliceAt (s : State) (off : Nat) (write : Bool) : Prop :=
  s.classify (s.podTile 0) 0 .s (0x80000000 + off) = .sram 0 off ∧ s.windowFault 0 off 0 write = none ∧ s.poisoned 64 (off / 64) = false ∧ s.lineWaits 64 (off / 64) write = false
theorem inSlice_of {s : State} {off : Nat} {w : Bool} (h : sliceAt s off w) : InSlice s (s.podTile 0) 0 (0x80000000 + off) 0 off w := ⟨h.1, h.2.1, h.2.2.1, by omega, h.2.2.2⟩

theorem witness_LaunchAndDataCommands_launch :
    (let c := aCommand 0 8 0 [0x80000100, 0, 0]
     let h := Header.of (hdrBytes 3 0x80000200)
     cmdClean c (cmdBits 0x08) true = true ∧ (staged.tenantOf? c.asid).isSome = true ∧ c.field 0 0 48 = 0x80000100 ∧ sliceAt staged 0x100 false ∧ sliceAt staged 0x140 false ∧ sliceAt staged 0x200 false ∧
       seenBytes staged 0 0x100 64 ++ seenBytes staged 0 0x140 64 = hdrBytes 3 0x80000200 ∧ seenBytes staged 0 0x200 8 = bytesOfNat 8 0x9000 ∧ h.pmaskp = 0 ∧ vaOf h.entryp = 0x80000200 ∧ h.nent = 0 ∧ h.preds = [] ∧
       h.ntask ≠ 0 ∧ staged.pkg.openings = [] ∧ c.field 2 0 16 = 0 ∧
       staged.refuseLaunch (hdrBytes 3 0x80000200) (wordsOf (bytesOfNat 8 0x9000)) [staged.own] (staged.ringOwns c.ring h.asid) (32768 + c.ring) 0 = none ∧ runs (.launch c) staged = true) ∧
    (let c := aCommand 0 8 0 [0x80000100, 0, 0]
     let s := opened aList staged
     s.refuseLaunch (hdrBytes 3 0x80000200) (wordsOf (bytesOfNat 8 0x9000)) [s.own] (s.ringOwns c.ring hdr.asid) (32768 + c.ring) 0 ≠ none ∧ runs (.launch c) s = true) := by
  simp only [sliceAt]; decide

theorem witness_LaunchAndDataCommands_data :
    (let c := aCommand 0 9 0 [1]
     cmdClean c (cmdBits 0x09) false = true ∧ staged.launch? 1 = none ∧ runs (.abort c) staged = true ∧ (opened aList staged).launch? 1 = some aLaunch ∧ aLaunch.st.final = false ∧ runs (.abort c) (opened aList staged) = true ∧
       runs (.abort c) (ringed 0 aRing (launched finished)) = true ∧ finished.st.final = true) ∧
    (cmdClean (aCommand 0 10 0 [8, 0x80000100, 5]) (cmdBits 0x0A) true = true ∧ runs (.copyIn (aCommand 0 10 0 [0, 0x80000100, 4097])) staged = true ∧ runs (.copyIn (aCommand 0 10 0 [8, 0x80000100, 0])) staged = true ∧
      sliceAt staged 0x100 true ∧ (match staged.physRead (0x100000 + 8) 5 with | .ok b => b.length == 5 | _ => true) = true ∧ runs (.copyIn (aCommand 0 10 0 [8, 0x80000100, 5])) staged = true) ∧
    (cmdClean (aCommand 0 11 0 [0x80000100, 9, 9, 3]) (cmdBits 0x0B) true = true ∧ runs (.copyOut (aCommand 0 11 0 [0xFFFFFFFFFFFF, 2, 9, 3])) staged = true ∧ runs (.copyOut (aCommand 0 11 0 [0x80000100, 0, 9, 3])) staged = true ∧
      runs (.copyOut (aCommand 0 11 0 [0x80000100, 9, 9, 3])) staged = true) := by
  simp only [sliceAt]; decide

theorem witness_LaunchAndDataCommands_rest :
    (∀ x ∈ [0, 1, 2 + 512 * 65536, 4, 6, 7 + 1024 * 65536, 8, 255], cmdClean (aCommand 0 12 0 [x, 0x900, 4]) (cmdBits 0x0C) false = true ∧ runs (.query (aCommand 0 12 0 [x, 0x900, 4])) staged = true) ∧
    (staged.pkg.tenants.get? 7).isSome = true ∧ (staged.updPkg fun p => { p with boot := { p.boot with report := [5] } }).pkg.boot.report ≠ [] ∧
    (cmdClean (aCommand 0 14 0 [1, 2, 3, 4, 5, 6, 7, 8, 9, 10]) (cmdBits 0x0E) false = true ∧ runs (.attest (aCommand 0 14 0 [1, 2, 3, 4, 5, 6, 7, 8, 9, 10])) staged = true) ∧
    (∀ m ∈ [0, 2 ^ 24, 2 ^ 51, 2 ^ 52], cmdClean (aCommand 0 13 0 [m]) (cmdBits 0x0D) false = true ∧ runs (.reset (aCommand 0 13 0 [m])) staged = true) ∧ staged.host.active = false ∧
    cmdClean (aCommand 0 13 0 [2 ^ 54 - 1]) (cmdBits 0x0D) false = true ∧ cmdClean (aCommand 0 13 0 [2 ^ 23]) (cmdBits 0x0D) false = true := by
  decide

def debug (sub : Nat) (args : List Nat) : Cmd := aCommand 0 15 0 (sub :: args)
/-- A task in slot 0, in the task table, and ring 0. -/
def debugged (st : Status) : State := (ringed 0 aRing (withTask (fun t => { t with asid := 0 }) tasked)).updCur fun x => { x with status := st }

theorem witness_DebugCommands :
    (∀ c ∈ [(0, debug 0 []), (1, debug 1 []), (2, debug 2 [0]), (3, debug 3 [1]), (4, debug 4 [0, 0]), (5, debug 5 [0]), (6, debug 6 [63, 0, 0x40, 5]), (7, debug 7 [63]), (8, debug 8 [0, 0x9000, 4]), (9, debug 9 [0, 8 * 31, 99]),
      (9, debug 9 [0, 0, 99]), (9, debug 9 [0, 0x958, 99]), (9, debug 9 [0, 2560, 99]), (9, debug 9 [0, 4, 99])], cmdClean c.2 (debugBits c.1) (c.1 == 10) = true) ∧
    (∀ s ∈ [debugged .ready, debugged .stopped, debugged .halted], (s.tasks.get? 0).isSome = true ∧ (s.task 0).place = .slot 0 ∧ s.cur.ending = false) ∧
    (∀ s ∈ [debugged .ready, debugged .stopped], ∀ e ∈ [Instr.debugHalt (debug 0 []), .debugResume (debug 1 []), .debugStop (debug 2 [0]), .debugGroup (debug 3 [1]), .debugRun (debug 4 [0, 0]), .debugRun (debug 4 [1, 1]),
      .debugStep (debug 5 [0]), .bpset (debug 6 [63, 0, 0x40, 5]), .bpset (debug 6 [63, 5, 0x40, 5]), .bpclr (debug 7 [63]), .debugRead (debug 8 [0, 0x9000, 4]), .debugWrite (debug 9 [0, 8 * 31, 99]), .debugWrite (debug 9 [0, 0, 99]),
      .debugWrite (debug 9 [0, 0x958, 99]), .debugWrite (debug 9 [0, 2560, 99]), .debugWrite (debug 9 [0, 4, 99]), .debugStop (debug 2 [9]), .sample (debug 10 [5, 3, 0x9000, 4]), .sample (debug 10 [5, 0, 0x9000, 4])], runs e s = true) ∧
    (debugged .ready).launch? 1 = some aLaunch ∧ (debugged .ready).tasks.get? 9 = none ∧ (debugged .ready).tenantOf? 0 = some 7 ∧ (debugged .ready).tenantOf? 5 = none := by
  decide

theorem witness_DebugCommands_samples :
    (∀ left ∈ [1, 3], let s := (debugged .ready).updPkg fun p => { p with samples := [⟨33, 5, left, [1, 2], debug 10 [5, left, 0x9000, 4]⟩] }
      s.pkg.samples.length = 1 ∧ s.slots = [] ∧ runs (.samplePeriod 33) s = true) ∧ runs (.samplePeriod 33) (debugged .ready) = true := by
  decide

def anImage : Image := ⟨true, 3, 0x8000, true, [(1, [1, 2, 3])], 0x9000, 4, 0x1000 + 4 * 2 ^ 40, 9, 0x7000, 3 + 4 * 2 ^ 32, [1], 2, [1], []⟩
def booting (f : Boot → Boot) (ready : Nat) : State :=
  tiled.updPkg fun p => { p with ready := BitVec.ofNat 64 ready, boot := f { p.boot with powered := true, deadline := 100, img := anImage, released := 2 ^ 54 - 1 } }

theorem witness_BootEvents :
    (runs (.powerOn anImage) (booting id 0) = true ∧ (booting id 0).pkg.boot.powered = true ∧ (booting id 0).pkg.boot.deadline ≠ 0) ∧
    (let s := booting (fun b => { b with minSvn := 4 }) 0
     anImage.svn.toNat < s.pkg.boot.minSvn.toNat) ∧ runs (.powerOn { anImage with sigOk := false }) (booting (fun b => { b with powered := false }) 0) = true ∧
    (∀ bit ∈ [0, 52, 53], let s := booting id (2 ^ 54 - 1 - 2 ^ bit)
      s.pkg.boot.released.getLsbD bit = true ∧ s.isReady bit = false ∧ s.pkg.boot.reasons.getD bit 0 = 0 ∧ (∀ k, k < 54 → k ≠ bit → s.isReady k = true) ∧ s.pkg.boot.reported = false ∧
        runs (.functionReady bit) s = true ∧ runs (.functionFailed bit 255) s = true) ∧
    runs (.functionReady 52) (booting id (2 ^ 52)) = true ∧ (booting id (2 ^ 52)).isReady 52 = true ∧ runs .bootReport (booting id (2 ^ 52 + 2 ^ 48)) = true ∧ runs .bootReport (booting id 0) = true ∧
    (let w : FaultWin := ⟨.uePort 3, 0, 8, 3600000000, 0, true⟩
     let s := (booting id (2 ^ 52)).updPkg fun p => { p with wins := [w] }
     w ∈ s.pkg.wins ∧ w.lasting = true ∧ s.pkg.boot.reasons.getD 51 0 = 0 ∧ runs .bootReport s = true) ∧
    runs .bootTimeout (booting id 0) = true ∧
    (let s := (booting id 0).updPkg fun p => { p with cycle := 100 }
     s.pkg.boot.deadline ≤ s.now ∧ runs .bootTimeout s = true) := by
  decide

theorem witness_BootEvents_failover :
    (runs .commandProcessorFailover (booting id 0) = true ∧ (booting id 0).isReady 53 = false) ∧
    (∀ r ∈ [aRing, { aRing with done := 4 }, { aRing with done := 4, ran := true }], let s := ringed 2 r (booting id (2 ^ 53))
      s.host.active = false ∧ s.isReady 53 = true ∧ s.host.rings = [(2, r)] ∧ r.open_ = true ∧ runs .commandProcessorFailover s = true) ∧
    (let s := ringed 2 { aRing with parked := some (aCommand 2 8 0 [], 0, 0, 3) } (booting id (2 ^ 53))
     (s.running 2).isSome = true ∧ s.host.sent = [] ∧ runs .commandProcessorFailover s = true) := by
  decide

/-! ### Rules that hold of the whole machine -/

/-- g6 is the destination of an incomplete load. -/
def windowed : State := (withOp (anOp (.g 6 8 false) [.g 6]) rtiled).updCur fun x => { x with pc := 0x14 }
theorem witness_WindowRule : (∀ i ∈ [Instr.add 6 1 2, .add 1 6 2, .ld 6 4 0 false .d 0, .st 6 4 0 false .d 0],
      RegRef.g 6 ∈ (infoOf i).names ∧ (infoOf i).serial = false ∧ (infoOf i).level.num ≤ windowed.cur.level.num ∧ runs i windowed = true) ∧ (RegRef.g 6).constant = false ∧
    (∃ o ∈ windowed.cur.ops, RegRef.g 6 ∈ o.dests) ∧ windowed.cur.status ≠ .free ∧ windowed.cur.hold = .none ∧ windowed.mayIssue = true ∧ windowed.cur.inWindows = true ∧ windowed.atBreakpoint = false := by
  refine ⟨by decide, by decide, ⟨anOp (.g 6 8 false) [.g 6], by decide, by decide⟩, by decide⟩

theorem witness_AsidWrites : (∀ x ∈ [(0x0E, at_ .m user), (0x0E, undelegated (at_ .s user))], (∀ i ∈ [Instr.csrw 11 5 0x106, .csrs 11 5 0x106], x.2.cur.level = .m → CanIssue i x.2 ∧ runs i x.2 = true)) ∧
    (at_ .m user).tenantOf? (((at_ .m user).cur.readG 5).extractLsb' 0 14) ≠ some (at_ .m user).cur.sc.tenant ∧
    (at_ .m user).tenantOf? (((at_ .m user).csrRead 0x106 ||| (at_ .m user).cur.readG 5).extractLsb' 0 14) ≠ some (at_ .m user).cur.sc.tenant ∧
    (let s := (at_ .m user).updCur fun x => { x with sc := { x.sc with asid := 3, tenant := 8 } }
     CanIssue (.csrc 11 6 0x106) s ∧ s.tenantOf? ((s.csrRead 0x106 &&& ~~~(s.cur.readG 6)).extractLsb' 0 14) ≠ some s.cur.sc.tenant ∧ runs (.csrc 11 6 0x106) s = true) ∧
    (ToM (at_ .m user).cur 0x0E ∧ ¬((at_ .m user).cur.level = .m ∧ (at_ .m user).cur.mc.intrap = true)) := by
  simp only [CanIssue, ToM]; decide

theorem witness_ResetMemoryCanonical : State.reset.mem.wf = true ∧ base.mem.wf = true ∧ tiled.mem.wf = true := by decide

theorem witness_DecodeEncode : Instr.isEvent (.add 1 2 3) = false ∧ Instr.wf (.add 1 2 3) = true ∧ Instr.wf (.msp 1 2 3 8 .e4m3 true true) = true := by decide

theorem witness_StepRunsDecoded :
    (let s := State.reset.withFetchWord 32 0x08A50001
     s.net.issueQ = [0] ∧ s.net.plan.head? = some .core ∧ s.cur.status ≠ .free ∧ s.cur.hold = .none ∧ s.cur.frame = none ∧ s.cur.inRegion s.cur.pc = true ∧ s.icWord s.cur.pc = some 0x08A50001) ∧
    decode (BitVec.ofNat 32 0x08A50001) = .ok (.addi 5 5 1) := by decide

theorem witness_EveryInstructionAnswers : user.cur.status ≠ .free ∧ State.reset.cur.status = .free ∧ Instr.isEvent (.add 1 2 3) = false := by decide


end Sys2Proof.Tests
end

section
/-! PROOFS. R69: where an instruction names the destination of an incomplete one, CanIssue answers before the instruction's own act. -/

namespace Sys2Proof.Machine

/-! ### Every instruction goes through `issue` -/

/-- The outcome is that of `issue` for the instruction, whatever its act. -/
def Issues (i : Instr) (s : State) (o : Host.Outcome State Fault Refusal) : Prop := ∃ body, o = issue i s body

theorem issues_issue (i : Instr) (s : State) (body : State → Act) : Issues i s (issue i s body) := ⟨body, rfl⟩
theorem issues_fixed (i : Instr) (s : State) (sub : Slot → Bool) (f : Slot → Slot) : Issues i s (fixed i s sub f) := issues_issue ..
theorem issues_alu2 (i : Instr) (s : State) (d a b : RegNo) (f : W64 → W64 → W64) : Issues i s (alu2 i s d a b f) := issues_fixed ..
theorem issues_alu1 (i : Instr) (s : State) (d a : RegNo) (f : W64 → W64) : Issues i s (alu1 i s d a f) := issues_fixed ..
theorem issues_setP (i : Instr) (s : State) (p : PredNo) (f : Slot → Bool) : Issues i s (setP i s p f) := issues_fixed ..
theorem issues_predP (i : Instr) (s : State) (d : PredNo) (f : Slot → Pred) : Issues i s (predP i s d f) := issues_fixed ..
theorem issues_fpResult (i : Instr) (s : State) (d : RegNo) (srcs : Slot → List W32) (f : Slot → F32) :
    Issues i s (fpResult i s d srcs f) := issues_fixed ..
theorem issues_fpOther (i : Instr) (s : State) (d : RegNo) (srcs : Slot → List W32) (f : Slot → W64 × Flags) :
    Issues i s (fpOther i s d srcs f) := issues_fixed ..
theorem issues_fusedG (i : Instr) (s : State) (d a b c : RegNo) (negP negC : Bool) : Issues i s (fusedG i s d a b c negP negC) := issues_fpResult ..
theorem issues_vInt (i : Instr) (s : State) (d : RegNo) (m : PredNo) (f : Slot → Nat → W32) : Issues i s (vInt i s d m f) := issues_fixed ..
theorem issues_vInt2 (i : Instr) (s : State) (d a b : RegNo) (m : PredNo) (f : W32 → W32 → W32) : Issues i s (vInt2 i s d a b m f) := issues_vInt ..
theorem issues_vFp (i : Instr) (s : State) (d : RegNo) (m : PredNo) (subs : Slot → Nat → List W32) (f : Slot → Nat → F32) :
    Issues i s (vFp i s d m subs f) := issues_fixed ..
theorem issues_vFp2 (i : Instr) (s : State) (d a b : RegNo) (m : PredNo) (f : Mode → W32 → W32 → F32) :
    Issues i s (vFp2 i s d a b m f) := issues_vFp ..
theorem issues_vFp1 (i : Instr) (s : State) (d a : RegNo) (m : PredNo) (f : Mode → W32 → F32) : Issues i s (vFp1 i s d a m f) := issues_vFp ..
theorem issues_vFused (i : Instr) (s : State) (d a b c : RegNo) (m : PredNo) (negP negC : Bool) :
    Issues i s (vFused i s d a b c m negP negC) := issues_vFp ..
theorem issues_vToP (i : Instr) (s : State) (d m : PredNo) (sub : Slot → Nat → Bool) (f : Slot → Nat → Bool × Flags) :
    Issues i s (vToP i s d m sub f) := issues_fixed ..
theorem issues_vCvt (i : Instr) (s : State) (d : RegNo) (m : PredNo) (sub : Slot → Nat → Bool) (f : Slot → Nat → W32 × Flags) :
    Issues i s (vCvt i s d m sub f) := issues_fixed ..
theorem issues_cvtPair (i : Instr) (s : State) (d a b : RegNo) (m : PredNo) (fm : Fmt) : Issues i s (cvtPair i s d a b m fm) := issues_vCvt ..
theorem issues_cvtHalf (i : Instr) (s : State) (d a : RegNo) (h : Bool) (m : PredNo) (fm : Fmt) :
    Issues i s (cvtHalf i s d a h m fm) := issues_vCvt ..
theorem issues_cvtToByte (i : Instr) (s : State) (d a : RegNo) (k : BitVec 2) (m : PredNo) (fm : Fmt) :
    Issues i s (cvtToByte i s d a k m fm) := issues_vCvt ..
theorem issues_cvtOfByte (i : Instr) (s : State) (d a : RegNo) (k : BitVec 2) (m : PredNo) (fm : Fmt) :
    Issues i s (cvtOfByte i s d a k m fm) := issues_vCvt ..
theorem issues_divFam (i : Instr) (s : State) (d a b : RegNo) (sgn quo : Bool) : Issues i s (divFam i s d a b sgn quo) := issues_issue ..
theorem issues_ptrAdd (i : Instr) (s : State) (d a : RegNo) (off : Slot → Int) : Issues i s (ptrAdd i s d a off) := issues_issue ..
theorem issues_fpLong (i : Instr) (s : State) (d : RegNo) (srcs : Slot → List W32) (f : Slot → F32) :
    Issues i s (fpLong i s d srcs f) := issues_issue ..
theorem issues_vFn (i : Instr) (s : State) (d : RegNo) (m : PredNo) (lat : Nat) (subs : Slot → Nat → List W32) (f : Slot → Nat → F32) :
    Issues i s (vFn i s d m lat subs f) := issues_issue ..
theorem issues_vFn1 (i : Instr) (s : State) (d a : RegNo) (m : PredNo) (lat : Nat) (f : Mode → W32 → F32) :
    Issues i s (vFn1 i s d a m lat f) := issues_vFn ..
theorem issues_branchIf (i : Instr) (s : State) (taken : Slot → Bool) (t : Slot → Addr) : Issues i s (branchIf i s taken t) := issues_issue ..
theorem issues_jumpReg (i : Instr) (s : State) (r : RegNo) (link : Bool) : Issues i s (jumpReg i s r link) := issues_issue ..
theorem issues_scalarLoad (i : Instr) (s : State) (d a : RegNo) (n : Nat) (off : Int) (fmt : Option Nat) (sgn ctl : Bool) :
    Issues i s (scalarLoad i s d a n off fmt sgn ctl) := issues_issue ..
theorem issues_scalarStore (i : Instr) (s : State) (d a : RegNo) (n : Nat) (off : Int) (fmt : Option Nat) (ctl : Bool) :
    Issues i s (scalarStore i s d a n off fmt ctl) := issues_issue ..
theorem issues_feAccess (i : Instr) (s : State) (a : RegNo) (k : ReqKind) (write : Bool) (data : Slot → List Byte) (wb : WriteBack) :
    Issues i s (feAccess i s a k write data wb) := issues_issue ..
theorem issues_amo (i : Instr) (s : State) (a b : RegNo) (n : Nat) (op : AmoOp) (wb : WriteBack) : Issues i s (amo i s a b n op wb) := issues_issue ..
theorem issues_rupd (i : Instr) (s : State) (a b : RegNo) (n : Nat) (op : AmoOp) : Issues i s (rupd i s a b n op) := issues_issue ..
theorem issues_pushMatrix (i : Instr) (s : State) (op : MOp) (md : PredNo) (more : List PredNo) (ga gb : W64) (sa sb : W32) (v0 v1 : Vec) :
    Issues i s (pushMatrix i s op md more ga gb sa sb v0 v1) := issues_issue ..
theorem issues_pushCopy (i : Instr) (s : State) (a : RegNo) (tag : Option W32) : Issues i s (pushCopy i s a tag) := issues_issue ..
theorem issues_csrOp (i : Instr) (s : State) (d : RegNo) (csr : BitVec 12) (v : State → W64 → Option (W64 × W64)) :
    Issues i s (csrOp i s d csr v) := issues_issue ..

/-- An instruction that has a word does nothing before its issue. The cases are grouped by the shared operation that the instruction is. -/
theorem exec_issues {i : Instr} (h : i.isEvent = false) (s : State) : Issues i s (exec i s) := by
  unfold exec
  cases i with
  | bfi | sel | vsel | vext | vins | vred | vscan | vcomp | pcnt | pfirst | pgets | widx => exact issues_fixed ..
  | add | sub | mul | mulh | mulhn | and | or | xor | andn | shl | shr | sra | min | max | minn | maxn | bfx | bfxn | psub | ptag => exact issues_alu2 ..
  | div | divn | rem | remn => exact issues_divFam ..
  | clz | popc | addi | andi | ori | xori | shli | shri | srai | lim | pget => exact issues_alu1 ..
  | cmp | cmpi => exact issues_setP ..
  | paddi | padd => exact issues_ptrAdd ..
  | fadd | fsub | fmul | fmin | fmax | fcvtI2f | fcvtN2f => exact issues_fpResult ..
  | fdiv | fsqrt => exact issues_fpLong ..
  | fcmp | fcvtF2i | fcvtF2n | fclass => exact issues_fpOther ..
  | fma | fms | fnma => exact issues_fusedG ..
  | brAny | brNone | bcc | bra => exact issues_branchIf ..
  | jr | callr | ret => exact issues_jumpReg ..
  | ld | ldn | ldx => exact issues_scalarLoad ..
  | st | stx => exact issues_scalarStore ..
  | ldf | ldff | ste | stef | feclr | feget => exact issues_feAccess ..
  | amoAdd | amoAnd | amoOr | amoXor | amoMin | amoMax | amoMinn | amoMaxn | amoSwap | amoFadd => exact issues_amo ..
  | rupdAdd | rupdAnd | rupdOr | rupdXor | rupdMin | rupdMax | rupdMinn | rupdMaxn | rupdFadd => exact issues_rupd ..
  | vadd | vsub | vmul | vmulh | vand | vor | vxor | vshl | vshr | vsra | vmin | vmax | vminn | vmaxn => exact issues_vInt2 ..
  | vabs | vneg | vclz | vpopc | vma | vbcast | vperm | viota | vslide => exact issues_vInt ..
  | vcmp | vfcmp => exact issues_vToP ..
  | vfadd | vfsub | vfmul | vfmin | vfmax => exact issues_vFp2 ..
  | vfabs | vfneg => exact issues_vFp1 ..
  | vfma | vfms | vfnma => exact issues_vFused ..
  | vfdiv => exact issues_vFn ..
  | vfsqrt | vfrcp | vfrsq | vfexp2 | vflog2 => exact issues_vFn1 ..
  | vcvtF2bf | vcvtF2h => exact issues_cvtPair ..
  | vcvtBf2f | vcvtH2f => exact issues_cvtHalf ..
  | vcvtF2e4 | vcvtF2e5 => exact issues_cvtToByte ..
  | vcvtE42f | vcvtE52f => exact issues_cvtOfByte ..
  | vcvtF2i | vcvtI2f | vcvtN2f | vcvtF2n | vcvtI2b | vcvtB2i => exact issues_vCvt ..
  | pand | por | pxor | pandn | pnot | pset => exact issues_predP ..
  | mma | mmaIx | msp | mzero | mlda | msta | mmov => exact issues_pushMatrix ..
  | cpy | cpyx => exact issues_pushCopy ..
  | csrr | csrw | csrs | csrc => exact issues_csrOp ..
  | call | loop | repf | cas | ldr | stc | wrs | fence | fenceAcq | fenceRel | fenceEng | bara | barw | barg | barq | barset | txb
  | txelse | txe | txr | txabort | txst | vld | vldC | vst | vldx | vstx | vlds | vsts | mstat | mwait | coll | qpush | qpushv
  | qpop | qpopv | qbind | qstat | wlpsh | wlpop | wlack | wlret | wlsta | wlcfg | endTask | yield | align | trig | migr | ueret
  | eret | spill | fill | wake | tlbiRange | tlbiAsid | tlbiAll | iflush | halt | mspill | mfill | trap | brk => exact issues_issue ..
  | _ => exact Bool.noConfusion h

/-- An event names no register. -/
theorem names_of_isEvent {i : Instr} (h : i.isEvent = true) : (infoOf i).names = [] := by
  cases i <;> first | rfl | exact Bool.noConfusion h

/-- The state after each verdict of CanIssue, where the slot holds no issue. -/
def State.answer (s : State) (i : Instr) (body : State → Act) : Verdict → State
  | .stall => s
  | .stop => s.takeStop
  | .trap cause code xaddr => s.charge.issueTrap (encode i) cause code xaddr
  | .abort cause code => s.charge.txAbort cause code
  | .hold => s.specStop
  | .endChunk => s.specStop
  | .go => s.conclude s.charge (encode i) (body s.charge)

/-- An instruction that is not held answers as its verdict says, and its own act counts for `go` alone (R65). -/
theorem issue_eq_answer {i : Instr} {s : State} (body : State → Act) (hf : s.cur.status ≠ .free) (hh : s.cur.hold = .none) :
    issue i s body = .next (s.answer i body (s.permits i)) := by
  unfold issue
  rw [if_neg hf, hh]
  dsimp only
  cases s.permits i <;> rfl

/-! ### CanIssue where a register is pending -/

/-- The instruction names the register, which an incomplete instruction of the slot will write (R69). -/
def Slot.Pending (x : Slot) (i : Instr) (r : RegRef) : Prop :=
  r ∈ (infoOf i).names ∧ r.constant = false ∧ ∃ o ∈ x.ops, r ∈ o.dests

/-- Only instructions name registers: an event has none. -/
theorem Slot.Pending.isEvent {x : Slot} {i : Instr} {r : RegRef} (h : x.Pending i r) : i.isEvent = false := by
  by_contra he
  have hn := h.1
  rw [names_of_isEvent (by simpa using he)] at hn
  cases hn

/-- What `conflict` finds is a pending register. -/
theorem Slot.pending_of_conflict {x : Slot} {i : Instr} {r : RegRef} (h : x.conflict (infoOf i).names = some r) : x.Pending i r := by
  have hp := List.find?_some h
  simp only [Bool.and_eq_true, Bool.not_eq_true', List.any_eq_true, List.contains_iff_mem] at hp
  exact ⟨List.mem_of_find?_eq_some h, hp⟩

/-- Where a register is pending, `conflict` finds one. -/
theorem Slot.conflict_of_pending {x : Slot} {i : Instr} {r : RegRef} (h : x.Pending i r) : ∃ r', x.conflict (infoOf i).names = some r' := by
  obtain ⟨hn, hc, o, ho, hd⟩ := h
  rw [← Option.isSome_iff_exists, Slot.conflict, List.find?_isSome]
  refine ⟨r, hn, ?_⟩
  simp only [hc, Bool.not_false, Bool.true_and, List.any_eq_true, List.contains_iff_mem]
  exact ⟨o, ho, hd⟩

/-- With a conflict the instruction stalls, stops or traps: it never issues. -/
theorem State.permits_of_conflict {s : State} {i : Instr} {r : RegRef} (h : s.cur.conflict (infoOf i).names = some r) :
    s.permits i = .stall ∨ s.permits i = .stop ∨ ∃ c k, s.permits i = .trap c k ((encode i).setWidth 64) := by
  unfold State.permits
  simp only [h]
  split
  · exact .inl rfl
  split
  · exact .inl rfl
  split
  · exact .inr (.inl rfl)
  split
  · exact .inr (.inr ⟨_, _, rfl⟩)
  split <;> split <;> exact .inr (.inr ⟨_, _, rfl⟩)

/-- Where nothing that is examined earlier keeps the instruction, a conflict traps WINDOW and names the register. -/
theorem State.permits_window {s : State} {i : Instr} {r : RegRef} (h : s.cur.conflict (infoOf i).names = some r) (hm : s.mayIssue = true)
    (hw : s.cur.inWindows = true) (hs : (infoOf i).serial = false) (hb : s.atBreakpoint = false) (hl : (infoOf i).level.num ≤ s.cur.level.num)
    (hcsr : ∀ n, (infoOf i).csr = some n → csrAssigned n = true) :
    s.permits i = .trap causeWindow r.code ((encode i).setWidth 64) := by
  unfold State.permits
  simp only [h, hm, hw, hs, hb, Bool.not_true, Bool.or_self, Bool.false_and, Bool.false_eq_true, if_false, Nat.not_lt.mpr hl]
  cases hn : (infoOf i).csr with
  | none => rfl
  | some n => simp only [hcsr n hn, Bool.not_true, Bool.false_eq_true, if_false]

/-- Settles O52: every instruction that names a register goes through `issue`, which meets the conflict before the instruction's act. -/
theorem windowRule : Obligations.WindowRule := by
  intro s i hf hh x f pending hp
  obtain ⟨r₀, hr⟩ : ∃ r, x.Pending i r := hp
  obtain ⟨r, hc⟩ := Slot.conflict_of_pending hr
  obtain ⟨body, hb⟩ := exec_issues hr.isEvent s
  rw [hb, issue_eq_answer body hf hh]
  constructor
  · intro hm hw hs hbrk hl hcsr
    refine ⟨r, Slot.pending_of_conflict hc, ?_⟩
    rw [State.permits_window hc hm hw hs hbrk hl hcsr]
    rfl
  · obtain h | h | ⟨c, k, h⟩ := State.permits_of_conflict hc <;> rw [h]
    · exact .inl rfl
    · exact .inr (.inl rfl)
    · exact .inr (.inr ⟨c, k, rfl⟩)

end Sys2Proof.Machine
end

section
/-! PROOFS. R62: SASID takes no ASID of another tenant. -/

namespace Sys2Proof.Machine

/-! ### What a trap at the pc leaves in SASID (R73, R74) -/

theorem State.clearRsv_cur (s : State) : s.clearRsv.cur = { s.cur with rsv := none } := by
  unfold State.clearRsv State.sendRelease
  split
  · rename_i h
    rw [← h]
  · dsimp only
    split <;> rfl

/-- SASID is as before. -/
def KeepsSasid (x y : Slot) : Prop := y.sc.asid = x.sc.asid ∧ y.sc.tenant = x.sc.tenant

/-- A trap with this cause is taken at M or S, and is no fatal fault (R75). -/
def Takeable (x : Slot) (cause : Nat) : Prop :=
  (ToM x cause ∧ ¬(x.level = .m ∧ x.mc.intrap = true)) ∨ (¬ToM x cause ∧ x.sc.stvec ≠ 0)

/-- A trap that is taken changes other fields of the CSRs alone. -/
theorem State.takeTrap_keepsSasid {s : State} {cause : Nat} (code : Nat) (xaddr : W64) (at_ : Addr) (h : Takeable s.cur cause) :
    KeepsSasid s.cur (s.takeTrap cause code xaddr at_).cur := by
  have hM : (s.cur.level == .m || s.cur.mc.mdeleg.getLsbD cause || (s.cur.level == .s && s.cur.sc.intrap)) = true ↔ ToM s.cur cause := by
    simp [ToM, or_assoc]
  unfold State.takeTrap
  dsimp only
  rw [State.clearRsv_cur]
  obtain ⟨hm, hn⟩ | ⟨hm, hv⟩ := h
  · rw [if_pos (hM.mpr hm), if_neg (by simpa using hn)]
    exact ⟨rfl, rfl⟩
  · rw [if_neg (hM.not.mpr hm), if_neg hv]
    exact ⟨rfl, rfl⟩

/-- The only failure of a slot outside speculation traps as soon as nothing is incomplete. -/
theorem State.trapIfSettled_one {s : State} {f : Addr × W32 × Failure} (hspec : s.cur.specMode = .none) (hfails : s.cur.fails = [f]) :
    s.trapIfSettled = if s.cur.ops.isEmpty then s.takeTrap f.2.2.cause f.2.2.code f.2.2.xaddr f.1 else s := by
  unfold State.trapIfSettled
  dsimp only
  rw [hfails, hspec]
  cases s.cur.ops.isEmpty <;> rfl

theorem Slot.inTx_of_specMode_none {x : Slot} (h : x.specMode = .none) : ¬x.inTx = true := by
  simp [Slot.inTx, h]

/-- The slot after the instruction at its pc has failed and nothing else has. -/
def Slot.failedAlone (x : Slot) (word : W32) (f : Failure) : Slot :=
  { x with hold := .none, inwin := !x.ops.isEmpty, fails := [(x.pc, word, f)] }

/-- Outside speculation, with no failure waiting, an instruction that traps at issue is the slot's only failure. -/
theorem State.issueTrap_eq {s : State} (word : W32) (cause code : Nat) (xaddr : W64) (hspec : s.cur.specMode = .none) (hfails : s.cur.fails = []) :
    s.issueTrap word cause code xaddr = (s.updCur fun x => x.failedAlone word ⟨0, cause, code, xaddr⟩).trapIfSettled := by
  have htx := Slot.inTx_of_specMode_none hspec
  unfold State.issueTrap
  rw [if_neg htx, hspec]
  refine (if_neg htx).trans (congrArg State.trapIfSettled ?_)
  simp only [State.updCur, hfails]
  rfl

/-- Outside speculation a trap at issue leaves SASID, be it taken at once or once what is incomplete has ended. -/
theorem State.issueTrap_keepsSasid {s : State} {cause : Nat} (word : W32) (code : Nat) (xaddr : W64) (hspec : s.cur.specMode = .none)
    (hfails : s.cur.fails = []) (h : Takeable s.cur cause) : KeepsSasid s.cur (s.issueTrap word cause code xaddr).cur := by
  rw [State.issueTrap_eq word cause code xaddr hspec hfails,
    State.trapIfSettled_one (s := s.updCur fun x => x.failedAlone word ⟨0, cause, code, xaddr⟩) hspec rfl]
  split
  · exact State.takeTrap_keepsSasid code xaddr _ h
  · exact ⟨rfl, rfl⟩

/-! ### The CSR instructions on SASID (R369) -/

@[simp] theorem State.charge_tenantOf? (s : State) (asid : BitVec 14) : s.charge.tenantOf? asid = s.tenantOf? asid := by
  simp [State.tenantOf?]

@[simp] theorem State.charge_csrRead_sasid (s : State) : s.charge.csrRead 0x106 = s.csrRead 0x106 := by
  simp [State.csrRead]

/-- The tenant table does not give the ASID of the value to the tenant of the slot (R62). -/
def Foreign (s : State) (w : W64) : Prop := s.tenantOf? (w.extractLsb' 0 14) ≠ some s.cur.sc.tenant

theorem Foreign.asidFault {s : State} {w : W64} (h : Foreign s w) : s.charge.asidFault 0x106 w = true := by
  simpa [State.asidFault, Foreign] using h

/-- A CSR instruction whose value for SASID is foreign traps PRIV. -/
theorem csrOp_traps {i : Instr} {s : State} {d : RegNo} {v : State → W64 → Option (W64 × W64)} {new clear : W64} (hi : CanIssue i s)
    (hv : v s.charge (s.csrRead 0x106) = some (new, clear)) (h : Foreign s new) :
    csrOp i s d 0x106 v = .next (s.charge.issueTrap (encode i) causePriv 0 ((encode i).setWidth 64)) := by
  refine trap_traps hi ?_
  dsimp only [BitVec.reduceToNat]
  rw [State.charge_csrRead_sasid, hv]
  exact if_pos h.asidFault

/-- An instruction that traps at issue outside speculation leaves SASID, where its trap is no fatal fault. -/
theorem Traps.keepsSasid {i : Instr} {s : State} {cause code : Nat} {xaddr : W64} (h : Traps i s cause code xaddr) (hmode : s.cur.spec.mode = .none)
    (ht : Takeable s.cur cause) : Completes i s fun t => KeepsSasid s.cur t.cur := by
  intro hi
  refine ⟨_, h hi, ?_⟩
  have hspec : s.charge.cur.specMode = .none := by
    simp [State.charge_cur, Slot.specMode, hmode]
  have hk := State.issueTrap_keepsSasid (cause := cause) (encode i) code xaddr hspec (by simpa using hi.fails) (by simpa [Takeable, ToM] using ht)
  simpa [KeepsSasid] using hk

/-- Settles O53: each of the three instructions has its value checked by `csrOp` before it writes. -/
theorem asidWrites : Obligations.AsidWrites := by
  intro s d a x v old foreign traps
  have settles {i : Instr} (h : Traps i s 0x0E 0 ((encode i).setWidth 64)) : traps i :=
    ⟨h, fun hmode _ ht => h.keepsSasid hmode ht⟩
  refine ⟨fun h => settles fun hi => ?_, fun ha h => settles fun hi => ?_, fun ha h => settles fun hi => ?_⟩
  · rw [exec_csrw]
    exact csrOp_traps hi (by rw [State.charge_readG]) h
  · rw [exec_csrs]
    exact csrOp_traps hi (by rw [if_neg ha, State.charge_readG]) h
  · rw [exec_csrc]
    exact csrOp_traps hi (by rw [if_neg ha, State.charge_readG]) h

end Sys2Proof.Machine
end


section
/-! PROOFS. R243, R246: the words of every instruction read back; the reset state; the words the cores run. -/

namespace Sys2Proof.Machine

open Sys2Proof.Laws

/-- Settles O57: the round trip of each instruction, format by format. -/
theorem decodeEncode : Obligations.DecodeEncode := by
  intro i
  change RoundTrip.Statement i
  cases i with
  | add => apply RoundTrip.add
  | sub => apply RoundTrip.sub
  | mul => apply RoundTrip.mul
  | mulh => apply RoundTrip.mulh
  | mulhn => apply RoundTrip.mulhn
  | div => apply RoundTrip.div
  | divn => apply RoundTrip.divn
  | rem => apply RoundTrip.rem
  | remn => apply RoundTrip.remn
  | and => apply RoundTrip.and
  | or => apply RoundTrip.or
  | xor => apply RoundTrip.xor
  | andn => apply RoundTrip.andn
  | shl => apply RoundTrip.shl
  | shr => apply RoundTrip.shr
  | sra => apply RoundTrip.sra
  | min => apply RoundTrip.min
  | max => apply RoundTrip.max
  | minn => apply RoundTrip.minn
  | maxn => apply RoundTrip.maxn
  | clz => apply RoundTrip.clz
  | popc => apply RoundTrip.popc
  | bfx => apply RoundTrip.bfx
  | bfxn => apply RoundTrip.bfxn
  | bfi => apply RoundTrip.bfi
  | sel => apply RoundTrip.sel
  | cmp => apply RoundTrip.cmp
  | addi => apply RoundTrip.addi
  | andi => apply RoundTrip.andi
  | ori => apply RoundTrip.ori
  | xori => apply RoundTrip.xori
  | shli => apply RoundTrip.shli
  | shri => apply RoundTrip.shri
  | srai => apply RoundTrip.srai
  | lim => apply RoundTrip.lim
  | cmpi => apply RoundTrip.cmpi
  | paddi => apply RoundTrip.paddi
  | padd => apply RoundTrip.padd
  | psub => apply RoundTrip.psub
  | ptag => apply RoundTrip.ptag
  | pget => apply RoundTrip.pget
  | fadd => apply RoundTrip.fadd
  | fsub => apply RoundTrip.fsub
  | fmul => apply RoundTrip.fmul
  | fdiv => apply RoundTrip.fdiv
  | fsqrt => apply RoundTrip.fsqrt
  | fmin => apply RoundTrip.fmin
  | fmax => apply RoundTrip.fmax
  | fcmp => apply RoundTrip.fcmp
  | fcvtF2i => apply RoundTrip.fcvtF2i
  | fcvtF2n => apply RoundTrip.fcvtF2n
  | fcvtI2f => apply RoundTrip.fcvtI2f
  | fcvtN2f => apply RoundTrip.fcvtN2f
  | fclass => apply RoundTrip.fclass
  | fma => apply RoundTrip.fma
  | fms => apply RoundTrip.fms
  | fnma => apply RoundTrip.fnma
  | brAny => apply RoundTrip.brAny
  | brNone => apply RoundTrip.brNone
  | bcc => apply RoundTrip.bcc
  | bra => apply RoundTrip.bra
  | call => apply RoundTrip.call
  | jr => apply RoundTrip.jr
  | callr => apply RoundTrip.callr
  | ret => apply RoundTrip.ret
  | loop => apply RoundTrip.loop
  | repf => apply RoundTrip.repf
  | ld => apply RoundTrip.ld
  | ldn => apply RoundTrip.ldn
  | st => apply RoundTrip.st
  | ldx => apply RoundTrip.ldx
  | stx => apply RoundTrip.stx
  | ldf => apply RoundTrip.ldf
  | ldff => apply RoundTrip.ldff
  | ste => apply RoundTrip.ste
  | stef => apply RoundTrip.stef
  | feclr => apply RoundTrip.feclr
  | feget => apply RoundTrip.feget
  | amoAdd => apply RoundTrip.amoAdd
  | amoAnd => apply RoundTrip.amoAnd
  | amoOr => apply RoundTrip.amoOr
  | amoXor => apply RoundTrip.amoXor
  | amoMin => apply RoundTrip.amoMin
  | amoMax => apply RoundTrip.amoMax
  | amoMinn => apply RoundTrip.amoMinn
  | amoMaxn => apply RoundTrip.amoMaxn
  | amoSwap => apply RoundTrip.amoSwap
  | amoFadd => apply RoundTrip.amoFadd
  | cas => apply RoundTrip.cas
  | ldr => apply RoundTrip.ldr
  | stc => apply RoundTrip.stc
  | wrs => apply RoundTrip.wrs
  | rupdAdd => apply RoundTrip.rupdAdd
  | rupdAnd => apply RoundTrip.rupdAnd
  | rupdOr => apply RoundTrip.rupdOr
  | rupdXor => apply RoundTrip.rupdXor
  | rupdMin => apply RoundTrip.rupdMin
  | rupdMax => apply RoundTrip.rupdMax
  | rupdMinn => apply RoundTrip.rupdMinn
  | rupdMaxn => apply RoundTrip.rupdMaxn
  | rupdFadd => apply RoundTrip.rupdFadd
  | fence => apply RoundTrip.fence
  | fenceAcq => apply RoundTrip.fenceAcq
  | fenceRel => apply RoundTrip.fenceRel
  | fenceEng => apply RoundTrip.fenceEng
  | bara => apply RoundTrip.bara
  | barw => apply RoundTrip.barw
  | barg => apply RoundTrip.barg
  | barq => apply RoundTrip.barq
  | barset => apply RoundTrip.barset
  | txb => apply RoundTrip.txb
  | txelse => apply RoundTrip.txelse
  | txe => apply RoundTrip.txe
  | txr => apply RoundTrip.txr
  | txabort => apply RoundTrip.txabort
  | txst => apply RoundTrip.txst
  | vld => apply RoundTrip.vld
  | vldC => apply RoundTrip.vldC
  | vst => apply RoundTrip.vst
  | vldx => apply RoundTrip.vldx
  | vstx => apply RoundTrip.vstx
  | vlds => apply RoundTrip.vlds
  | vsts => apply RoundTrip.vsts
  | vadd => apply RoundTrip.vadd
  | vsub => apply RoundTrip.vsub
  | vmul => apply RoundTrip.vmul
  | vmulh => apply RoundTrip.vmulh
  | vand => apply RoundTrip.vand
  | vor => apply RoundTrip.vor
  | vxor => apply RoundTrip.vxor
  | vshl => apply RoundTrip.vshl
  | vshr => apply RoundTrip.vshr
  | vsra => apply RoundTrip.vsra
  | vmin => apply RoundTrip.vmin
  | vmax => apply RoundTrip.vmax
  | vminn => apply RoundTrip.vminn
  | vmaxn => apply RoundTrip.vmaxn
  | vabs => apply RoundTrip.vabs
  | vneg => apply RoundTrip.vneg
  | vcmp => apply RoundTrip.vcmp
  | vsel => apply RoundTrip.vsel
  | vclz => apply RoundTrip.vclz
  | vpopc => apply RoundTrip.vpopc
  | vfadd => apply RoundTrip.vfadd
  | vfsub => apply RoundTrip.vfsub
  | vfmul => apply RoundTrip.vfmul
  | vfmin => apply RoundTrip.vfmin
  | vfmax => apply RoundTrip.vfmax
  | vfabs => apply RoundTrip.vfabs
  | vfneg => apply RoundTrip.vfneg
  | vfcmp => apply RoundTrip.vfcmp
  | vfma => apply RoundTrip.vfma
  | vfms => apply RoundTrip.vfms
  | vfnma => apply RoundTrip.vfnma
  | vma => apply RoundTrip.vma
  | vfdiv => apply RoundTrip.vfdiv
  | vfsqrt => apply RoundTrip.vfsqrt
  | vfrcp => apply RoundTrip.vfrcp
  | vfrsq => apply RoundTrip.vfrsq
  | vfexp2 => apply RoundTrip.vfexp2
  | vflog2 => apply RoundTrip.vflog2
  | vcvtF2bf => apply RoundTrip.vcvtF2bf
  | vcvtBf2f => apply RoundTrip.vcvtBf2f
  | vcvtF2h => apply RoundTrip.vcvtF2h
  | vcvtH2f => apply RoundTrip.vcvtH2f
  | vcvtF2e4 => apply RoundTrip.vcvtF2e4
  | vcvtE42f => apply RoundTrip.vcvtE42f
  | vcvtF2e5 => apply RoundTrip.vcvtF2e5
  | vcvtE52f => apply RoundTrip.vcvtE52f
  | vcvtF2i => apply RoundTrip.vcvtF2i
  | vcvtI2f => apply RoundTrip.vcvtI2f
  | vcvtN2f => apply RoundTrip.vcvtN2f
  | vcvtF2n => apply RoundTrip.vcvtF2n
  | vcvtI2b => apply RoundTrip.vcvtI2b
  | vcvtB2i => apply RoundTrip.vcvtB2i
  | vbcast => apply RoundTrip.vbcast
  | vext => apply RoundTrip.vext
  | vins => apply RoundTrip.vins
  | vperm => apply RoundTrip.vperm
  | viota => apply RoundTrip.viota
  | vred => apply RoundTrip.vred
  | vscan => apply RoundTrip.vscan
  | vcomp => apply RoundTrip.vcomp
  | vslide => apply RoundTrip.vslide
  | pand => apply RoundTrip.pand
  | por => apply RoundTrip.por
  | pxor => apply RoundTrip.pxor
  | pandn => apply RoundTrip.pandn
  | pnot => apply RoundTrip.pnot
  | pcnt => apply RoundTrip.pcnt
  | pfirst => apply RoundTrip.pfirst
  | pset => apply RoundTrip.pset
  | pgets => apply RoundTrip.pgets
  | mma => apply RoundTrip.mma
  | mmaIx => apply RoundTrip.mmaIx
  | msp => apply RoundTrip.msp
  | mzero => apply RoundTrip.mzero
  | mlda => apply RoundTrip.mlda
  | msta => apply RoundTrip.msta
  | mmov => apply RoundTrip.mmov
  | mstat => apply RoundTrip.mstat
  | mwait => apply RoundTrip.mwait
  | cpy => apply RoundTrip.cpy
  | cpyx => apply RoundTrip.cpyx
  | coll => apply RoundTrip.coll
  | qpush => apply RoundTrip.qpush
  | qpushv => apply RoundTrip.qpushv
  | qpop => apply RoundTrip.qpop
  | qpopv => apply RoundTrip.qpopv
  | qbind => apply RoundTrip.qbind
  | qstat => apply RoundTrip.qstat
  | wlpsh => apply RoundTrip.wlpsh
  | wlpop => apply RoundTrip.wlpop
  | wlack => apply RoundTrip.wlack
  | wlret => apply RoundTrip.wlret
  | wlsta => apply RoundTrip.wlsta
  | wlcfg => apply RoundTrip.wlcfg
  | endTask => apply RoundTrip.endTask
  | yield => apply RoundTrip.yield
  | align => apply RoundTrip.align
  | trig => apply RoundTrip.trig
  | migr => apply RoundTrip.migr
  | widx => apply RoundTrip.widx
  | ueret => apply RoundTrip.ueret
  | csrr => apply RoundTrip.csrr
  | csrw => apply RoundTrip.csrw
  | csrs => apply RoundTrip.csrs
  | csrc => apply RoundTrip.csrc
  | eret => apply RoundTrip.eret
  | spill => apply RoundTrip.spill
  | fill => apply RoundTrip.fill
  | wake => apply RoundTrip.wake
  | tlbiRange => apply RoundTrip.tlbiRange
  | tlbiAsid => apply RoundTrip.tlbiAsid
  | tlbiAll => apply RoundTrip.tlbiAll
  | iflush => apply RoundTrip.iflush
  | halt => apply RoundTrip.halt
  | mspill => apply RoundTrip.mspill
  | mfill => apply RoundTrip.mfill
  | trap => apply RoundTrip.trap
  | brk => apply RoundTrip.brk
  | _ => exact fun h => Bool.noConfusion h

/-! ### The reset state (Tables 1.3, 3.2 to 3.4) -/

/-- The numbers that Tables 3.2 to 3.4 assign. -/
def assignedCsrs : List Nat :=
  List.range' 0x001 4 ++ List.range' 0x010 3 ++ List.range' 0x020 11 ++ List.range' 0x030 3 ++ List.range' 0x040 4 ++ [0x0B0] ++
    List.range' 0x0C0 16 ++ List.range' 0x100 7 ++ [0x120, 0x121] ++ List.range' 0x200 10 ++ [0x210, 0x220, 0x221] ++ List.range' 0x230 3

theorem mem_assignedCsrs {n : BitVec 12} (h : csrAssigned n = true) : n.toNat ∈ assignedCsrs := by
  simp only [csrAssigned, Bool.or_eq_true, decide_eq_true_eq, beq_iff_eq] at h
  simp only [assignedCsrs, List.mem_append, List.mem_range'_1, List.mem_cons, List.not_mem_nil, or_false]
  omega

/-- What Tables 3.2 to 3.4 give for each assigned number at reset. -/
theorem reset_csrRead : ∀ n ∈ assignedCsrs, State.reset.csrRead n =
    let n := BitVec.ofNat 12 n
    if n = 0x0B0 then 0xFEDCBA9876543210 else if n = 0x120 then 64 else if n = 0x121 then 256 else if n = 0x200 then 2 else if n = 0x206 then 0x003FFFFE
    else if n = 0x221 then 4096 else if n = 0x230 then 2048 else 0 := by
  decide

theorem State.reset_slot (k : Nat) : (State.reset.slot k).status = .free := by
  unfold State.slot
  split <;> rfl

/-- Settles O54. -/
theorem resetState : Obligations.ResetState := by
  refine ⟨?_, State.reset_slot, fun tile off => ⟨rfl, rfl⟩, fun home line => rfl, fun bit => ?_⟩
  · intro n hn
    have := reset_csrRead n.toNat (mem_assignedCsrs hn)
    rwa [BitVec.ofNat_toNat, BitVec.setWidth_eq] at this
  · show (0#54).getLsbD bit = false
    simp

/-- Settles O55: nothing is listed. -/
theorem resetMemoryCanonical : Obligations.ResetMemoryCanonical := rfl

/-- Settles O58: each word is decoded. -/
theorem decodingSamples : Obligations.DecodingSamples := by
  unfold Obligations.DecodingSamples
  decide

end Sys2Proof.Machine
end


section
/-! PROOFS. R65, R79, R244: what a step of the cores runs. -/

namespace Sys2Proof.Machine

/-! ### What is next at a slot -/

theorem State.next_of_hold {s : State} {i : Instr} (hh : s.cur.hold ≠ .none) (hd : decode s.cur.word = .ok i) : s.next = .instr i := by
  simp only [State.next, bne_iff_ne, ne_eq, hh, not_false_eq_true, if_true, hd]

theorem State.next_of_frame {s : State} {f : Frame} {i : Instr} (hh : s.cur.hold = .none) (hf : s.cur.frame = some f) (hi : f.current = some i) :
    s.next = .instr i := by
  simp only [State.next, hh, bne_self_eq_false, Bool.false_eq_true, if_false, hf, hi]

theorem State.next_outside {s : State} (hh : s.cur.hold = .none) (hf : s.cur.frame = none) (hr : s.cur.inRegion s.cur.pc = false) :
    s.next = .outside := by
  simp only [State.next, hh, bne_self_eq_false, Bool.false_eq_true, if_false, hf, hr, Bool.not_false, if_true]

theorem State.next_missing {s : State} (hh : s.cur.hold = .none) (hf : s.cur.frame = none) (hr : s.cur.inRegion s.cur.pc = true)
    (hw : s.icWord s.cur.pc = none) : s.next = .missing := by
  simp only [State.next, hh, bne_self_eq_false, Bool.false_eq_true, if_false, hf, hr, Bool.not_true, hw]

theorem State.next_instr {s : State} {w : W32} {i : Instr} (hh : s.cur.hold = .none) (hf : s.cur.frame = none) (hr : s.cur.inRegion s.cur.pc = true)
    (hw : s.icWord s.cur.pc = some w) (hd : decode w = .ok i) : s.next = .instr i := by
  simp only [State.next, hh, bne_self_eq_false, Bool.false_eq_true, if_false, hf, hr, Bool.not_true, hw, hd]

theorem State.next_illegal {s : State} {w : W32} {c : Nat} (hh : s.cur.hold = .none) (hf : s.cur.frame = none)
    (hr : s.cur.inRegion s.cur.pc = true) (hw : s.icWord s.cur.pc = some w) (hd : decode w = .illegal c) : s.next = .illegal w := by
  simp only [State.next, hh, bne_self_eq_false, Bool.false_eq_true, if_false, hf, hr, Bool.not_true, hw, hd]

/-! ### What a slot that is selected issues -/

theorem State.issueNext_instr {s : State} {i : Instr} (hs : s.cur.status ≠ .free) (h : s.next = .instr i) : s.issueNext = exec i s := by
  rw [State.issueNext, if_neg hs, h]

theorem State.issueNext_illegal {s : State} {w : W32} (hs : s.cur.status ≠ .free) (h : s.next = .illegal w) :
    s.issueNext = exec (.illegalWord w) s := by
  rw [State.issueNext, if_neg hs, h, exec_illegalWord]

theorem State.issueNext_outside {s : State} (hs : s.cur.status ≠ .free) (h : s.next = .outside) :
    s.issueNext = exec .fetchOutsideCodeRegion s := by
  rw [State.issueNext, if_neg hs, h, exec_fetchOutsideCodeRegion]

theorem State.issueNext_missing {s : State} (hs : s.cur.status ≠ .free) (h : s.next = .missing) : s.issueNext = .next s := by
  rw [State.issueNext, if_neg hs, h]

/-- A step whose plan names the cores brings the first selected slot into focus and lets it issue. -/
theorem step_core {s : State} {k : Nat} {rest : List Nat} {choices : List Pick} (hq : s.net.issueQ = k :: rest) (hp : s.net.plan = .core :: choices) :
    step s = (({ s with net := { s.net with plan := choices, issueQ := rest } } : State).focus k).issueNext := by
  unfold step
  rw [hp]
  simp only [State.planStep, State.coreStep, State.unplan, State.updNet, hq, hp, List.drop_one, List.tail_cons]

/-! ### One word loaded where the next step fetches (log 1) -/

theorem leNat_wordBytes (w : Nat) : BitVec.ofNat 32 (leNat (wordBytes w)) = BitVec.ofNat 32 w := by
  apply BitVec.eq_of_toNat_eq
  simp only [wordBytes, List.range, List.range.loop, List.map_cons, List.map_nil, leNat, BitVec.toNat_ofNat]
  omega

/-- The loaded state with its choice made. -/
def State.loadedWord (s : State) (w : Nat) : State :=
  { s.loadWord w with net := { (s.loadWord w).net with plan := [], issueQ := [] } }

theorem State.loadedWord_icache (s : State) (w : Nat) : ((s.loadedWord w).tile s.myTile).icache =
    ⟨s.cur.sc.asid, 0, wordBytes w ++ List.replicate 60 0⟩ :: (s.tile s.myTile).icache :=
  congrArg Tile.icache <| (State.tile_updTile s s.myTile s.myTile fun t =>
    { t with icache := ⟨s.cur.sc.asid, 0, wordBytes w ++ List.replicate 60 0⟩ :: t.icache }).trans (if_pos rfl)

theorem State.loadedWord_icWord (s : State) (w : Nat) : (s.loadedWord w).icWord 0 = some (BitVec.ofNat 32 w) := by
  have hc : ((s.loadedWord w).tile (s.loadedWord w).myTile).icache = _ := State.loadedWord_icache s w
  unfold State.icWord
  rw [hc, List.find?_cons_of_pos (by simp [State.loadedWord, State.loadWord])]
  exact congrArg some (leNat_wordBytes w)

theorem step_withFetchWord {s : State} {w : Nat} {i : Instr} (nbits : Nat) (hd : decode (BitVec.ofNat 32 w) = .ok i) :
    step (s.withFetchWord nbits w) = exec i (s.loadedWord w) := by
  rw [State.withFetchWord, step_core (k := s.curId) (rest := []) (choices := []) rfl rfl]
  have hfocus : ({ s.loadWord w with net := { (s.loadWord w).net with plan := [], issueQ := [] } } : State).focus s.curId = s.loadedWord w := if_pos rfl
  rw [hfocus]
  refine State.issueNext_instr (by exact Status.noConfusion) (State.next_instr rfl rfl rfl (State.loadedWord_icWord s w) hd)

/-- Settles O59: the slot selected is brought into focus, and `issueNext` runs what is next there. -/
theorem stepRunsDecoded : Obligations.StepRunsDecoded := by
  intro s
  constructor
  · intro k rest choices hq hp u x hs
    rw [step_core hq hp]
    refine ⟨fun hh hf hr w hw => ⟨fun i hd => ?_, fun c hd => ?_⟩, fun hh hf hr => ?_, fun hh hf hr hw => ?_, fun i hh hd => ?_, fun f i hh hf hi => ?_⟩
    · exact State.issueNext_instr hs (State.next_instr hh hf hr hw hd)
    · exact State.issueNext_illegal hs (State.next_illegal hh hf hr hw hd)
    · exact State.issueNext_outside hs (State.next_outside hh hf hr)
    · exact State.issueNext_missing hs (State.next_missing hh hf hr hw)
    · exact State.issueNext_instr hs (State.next_of_hold hh hd)
    · exact State.issueNext_instr hs (State.next_of_frame hh hf hi)
  · intro nbits w i hd
    exact ⟨s.loadedWord w, step_withFetchWord nbits hd, rfl, rfl, rfl, rfl, rfl⟩

end Sys2Proof.Machine
end


section
/-! SUPPORT. Integer, field and pointer instructions: the arithmetic of R270 to R279 in the spec's readings, and their results. -/

namespace Sys2Proof.Machine

/-! ### Arithmetic -/

theorem shAmt64_eq (y : W64) : shAmt64 y = y.toNat % 64 := by
  simp [shAmt64, BitVec.extractLsb'_toNat]

theorem if_slt_eq (x y : W64) : (if y.slt x then y else x) = if x.toInt ≤ y.toInt then x else y := by
  by_cases h : x.toInt ≤ y.toInt
  · rw [if_pos h, if_neg (by simpa [BitVec.slt] using h)]
  · rw [if_neg h, if_pos (by simpa [BitVec.slt] using h)]

theorem if_slt_max (x y : W64) : (if x.slt y then y else x) = if y.toInt ≤ x.toInt then x else y := by
  by_cases h : y.toInt ≤ x.toInt
  · rw [if_pos h, if_neg (by simpa [BitVec.slt] using h)]
  · rw [if_neg h, if_pos (by simpa [BitVec.slt] using h)]

theorem if_ult_eq (x y : W64) : (if y.ult x then y else x) = if x.toNat ≤ y.toNat then x else y := by
  by_cases h : x.toNat ≤ y.toNat
  · rw [if_pos h, if_neg (by simpa [BitVec.ult] using h)]
  · rw [if_neg h, if_pos (by simpa [BitVec.ult] using h)]

theorem if_ult_max (x y : W64) : (if x.ult y then y else x) = if y.toNat ≤ x.toNat then x else y := by
  by_cases h : y.toNat ≤ x.toNat
  · rw [if_pos h, if_neg (by simpa [BitVec.ult] using h)]
  · rw [if_neg h, if_pos (by simpa [BitVec.ult] using h)]

theorem setWidth64_eq (k : BitVec 16) : k.setWidth 64 = BitVec.ofNat 64 k.toNat := by
  apply BitVec.eq_of_toNat_eq
  simp

theorem fieldDesc_eq (b : W64) : fieldDesc b = (fieldPlace b, fieldLen b) := by
  simp [fieldDesc, fieldPlace, fieldLen, BitVec.extractLsb'_toNat, Nat.shiftRight_eq_div_pow]

theorem fieldLen_le (b : W64) : fieldLen b ≤ 64 := (Nat.min_le_right ..).trans (Nat.sub_le ..)

theorem fieldMask_toNat {n : Nat} (h : n ≤ 64) : (fieldMask n).toNat = 2 ^ n - 1 := by
  have : 2 ^ n ≤ 2 ^ 64 := Nat.pow_le_pow_right (by omega) h
  rw [fieldMask, BitVec.toNat_ofNat, Nat.mod_eq_of_lt (by have := Nat.two_pow_pos n; omega)]

/-- The bits of a field, masked out of the register that holds it. -/
theorem field_and_mask (a b : W64) : (a >>> fieldPlace b) &&& fieldMask (fieldLen b) = BitVec.ofNat 64 (fieldVal a b) := by
  apply BitVec.eq_of_toNat_eq
  have hv : fieldVal a b ≤ a.toNat := (Nat.mod_le ..).trans (Nat.div_le_self ..)
  rw [BitVec.toNat_and, fieldMask_toNat (fieldLen_le b), BitVec.toNat_ushiftRight, Nat.and_two_pow_sub_one_eq_mod,
    Nat.shiftRight_eq_div_pow, BitVec.toNat_ofNat, Nat.mod_eq_of_lt (b := 2 ^ 64) (by have := a.isLt; omega), fieldVal]

theorem fieldVal_lt (a b : W64) : fieldVal a b < 2 ^ fieldLen b := Nat.mod_lt _ (Nat.two_pow_pos _)

/-- The top bit of a number below `2 ^ n`. -/
theorem testBit_top {v n : Nat} (hn : 0 < n) (hv : v < 2 ^ n) : v.testBit (n - 1) = true ↔ 2 ^ (n - 1) ≤ v := by
  obtain ⟨n, rfl⟩ : ∃ m, n = m + 1 := ⟨n - 1, by omega⟩
  rw [Nat.pow_succ] at hv
  rw [Nat.add_sub_cancel, Nat.testBit_eq_decide_div_mod_eq, decide_eq_true_eq]
  have hp := Nat.two_pow_pos n
  constructor
  · intro h
    by_contra hlt
    rw [Nat.div_eq_of_lt (by omega)] at h
    exact absurd h (by decide)
  · intro h
    rw [Nat.div_eq_of_lt_le (k := 1) (by omega) (by omega)]

/-- Setting every bit above a field subtracts the field's span. -/
theorem signFill {n v : Nat} (hn : n ≤ 64) (hv : v < 2 ^ n) :
    BitVec.ofNat 64 v ||| ~~~fieldMask n = BitVec.ofInt 64 ((v : Int) - 2 ^ n) := by
  have hand : BitVec.ofNat 64 v &&& ~~~fieldMask n = 0#64 := by
    have hm : BitVec.ofNat 64 v &&& fieldMask n = BitVec.ofNat 64 v := by
      apply BitVec.eq_of_toNat_eq
      have : 2 ^ n ≤ 2 ^ 64 := Nat.pow_le_pow_right (by omega) hn
      rw [BitVec.toNat_and, fieldMask_toNat hn, Nat.and_two_pow_sub_one_eq_mod, BitVec.toNat_ofNat,
        Nat.mod_eq_of_lt (a := v) (by omega), Nat.mod_eq_of_lt hv]
    rw [← hm, BitVec.and_assoc]
    simp
  rw [← BitVec.add_eq_or_of_and_eq_zero _ _ hand]
  have hneg : ~~~fieldMask n = BitVec.ofInt 64 (-(2 ^ n : Int)) := by
    apply BitVec.eq_of_toNat_eq
    have h1 := Nat.two_pow_pos n
    have h2 : 2 ^ n ≤ 2 ^ 64 := Nat.pow_le_pow_right (by omega) hn
    rw [BitVec.toNat_not, fieldMask_toNat hn, BitVec.toNat_ofInt, show (2 : Int) ^ n = ((2 ^ n : Nat) : Int) by push_cast; rfl]
    generalize 2 ^ n = k at h1 h2
    omega
  rw [hneg, ← BitVec.ofInt_natCast, ← BitVec.ofInt_add, sub_eq_add_neg]

theorem bitFieldGet_unsigned (a b : W64) : bitFieldGet false a b = BitVec.ofNat 64 (fieldVal a b) := by
  simp only [bitFieldGet, fieldDesc_eq, Bool.false_and, Bool.false_eq_true, if_false, field_and_mask]

theorem bitFieldGet_signed (a b : W64) : bitFieldGet true a b =
    BitVec.ofInt 64 (if 0 < fieldLen b ∧ 2 ^ (fieldLen b - 1) ≤ fieldVal a b then (fieldVal a b : Int) - 2 ^ fieldLen b else fieldVal a b) := by
  have hlen := fieldLen_le b
  have hv := fieldVal_lt a b
  have hbit : (BitVec.ofNat 64 (fieldVal a b)).getLsbD (fieldLen b - 1) = (fieldVal a b).testBit (fieldLen b - 1) := by
    rw [BitVec.getLsbD_ofNat, decide_eq_true (by omega), Bool.true_and]
  simp only [bitFieldGet, fieldDesc_eq, field_and_mask, hbit, Bool.true_and, Bool.and_eq_true, decide_eq_true_eq]
  by_cases h : 0 < fieldLen b
  · simp only [h, true_and, testBit_top h hv]
    split
    · exact signFill hlen hv
    · exact (BitVec.ofInt_natCast ..).symm
  · simp only [h, false_and, if_false, BitVec.ofInt_natCast]

theorem bitFieldPut_eq (d a b : W64) : bitFieldPut d a b =
    (let m : W64 := BitVec.ofNat 64 (2 ^ fieldLen b - 1) <<< fieldPlace b
     (d &&& ~~~m) ||| ((a <<< fieldPlace b) &&& m)) := by
  simp only [bitFieldPut, fieldDesc_eq, fieldMask]

theorem vaOf_eq (p : W64) : vaOf p = p.toNat % 2 ^ 48 := by
  simp [vaOf, BitVec.extractLsb'_toNat]

/-- The effective pointer of an address in range is the base with the offset added: no carry reaches the tag. -/
theorem effPtr_add {p : W64} {off : Int} (h0 : 0 ≤ (p.toNat % 2 ^ 48 : Nat) + off) (h1 : (p.toNat % 2 ^ 48 : Nat) + off < 2 ^ 48) :
    effPtr p ((p.toNat % 2 ^ 48 : Nat) + off) = BitVec.ofInt 64 (p.toNat + off) := by
  apply BitVec.eq_of_toNat_eq
  have hp := p.isLt
  simp only [effPtr, BitVec.toNat_append, BitVec.extractLsb'_toNat, Nat.shiftRight_eq_div_pow, BitVec.toNat_ofInt]
  rw [Nat.shiftLeft_eq, Nat.mul_comm, ← Nat.two_pow_add_eq_or_of_lt (by omega)]
  omega

theorem pointerSub_eq (x y : W64) : pointerSub x y = BitVec.ofInt 64 ((x.toNat % 2 ^ 48 : Nat) - (y.toNat % 2 ^ 48 : Nat)) := by
  rw [pointerSub, vaOf_eq, vaOf_eq]

theorem pointerGet_eq (a : W64) : pointerGet a = BitVec.ofNat 64 (a.toNat / 2 ^ 56 + a.toNat / 2 ^ 52 % 16 * 256) := by
  apply BitVec.eq_of_toNat_eq
  have h1 := a.isLt
  simp only [pointerGet, BitVec.toNat_setWidth, BitVec.toNat_append, BitVec.extractLsb'_toNat, Nat.shiftRight_eq_div_pow, BitVec.toNat_ofNat]
  rw [Nat.shiftLeft_eq, Nat.mul_comm, ← Nat.two_pow_add_eq_or_of_lt (Nat.mod_lt _ (by omega))]
  have h2 : a.toNat / 2 ^ 56 % 2 ^ 8 = a.toNat / 2 ^ 56 := Nat.mod_eq_of_lt (by omega)
  rw [h2]
  congr 1
  omega

/-! ### Results -/

theorem gives_of_alu2 {i : Instr} {s : State} {d a b : RegNo} {f : W64 → W64 → W64} {v : W64} (he : exec i s = alu2 i s d a b f)
    (hv : f (s.cur.readG a) (s.cur.readG b) = v) : Gives i s d v := by
  intro h
  rw [he, ← hv]
  simpa only [State.charge_readG, alu2, alu1] using fixed_gives (fun _ => false) d (fun x => f (x.readG a) (x.readG b)) h

theorem gives_of_alu1 {i : Instr} {s : State} {d a : RegNo} {f : W64 → W64} {v : W64} (he : exec i s = alu1 i s d a f)
    (hv : f (s.cur.readG a) = v) : Gives i s d v := by
  intro h
  rw [he, ← hv]
  simpa only [State.charge_readG, alu2, alu1] using fixed_gives (fun _ => false) d (fun x => f (x.readG a)) h

theorem givesP_of_setP {i : Instr} {s : State} {p : PredNo} {f : Slot → Bool} {v : Pred} (he : exec i s = setP i s p f)
    (hv : allOrNone (f s.charge.cur) = v) : GivesP i s p v 0 := by
  intro h
  rw [he, ← hv]
  exact fixed_givesP (fun _ => false) p (fun x => allOrNone (f x)) h

/-- Settles O1: each instruction is `alu1` or `alu2` of the operation that the statement writes. -/
theorem integerResults : Obligations.IntegerResults := by
  intro s d a b imm n q x y
  have add : x + y = BitVec.ofInt 64 (x.toInt + y.toInt) := by rw [BitVec.ofInt_add, BitVec.ofInt_toInt, BitVec.ofInt_toInt]
  have sub : x - y = BitVec.ofInt 64 (x.toInt - y.toInt) := by
    rw [sub_eq_add_neg x.toInt, BitVec.ofInt_add, BitVec.ofInt_neg, BitVec.ofInt_toInt, BitVec.ofInt_toInt, BitVec.sub_eq_add_neg]
  have mul : x * y = BitVec.ofInt 64 (x.toInt * y.toInt) := by rw [BitVec.ofInt_mul, BitVec.ofInt_toInt, BitVec.ofInt_toInt]
  have amt := shAmt64_eq y
  have imm64 := setWidth64_eq imm
  exact ⟨gives_of_alu2 (exec_add ..) add, gives_of_alu2 (exec_sub ..) sub, gives_of_alu2 (exec_mul ..) mul,
    gives_of_alu2 (exec_mulh ..) (mulh_eq x y), gives_of_alu2 (exec_mulhn ..) (mulhn_eq x y), gives_of_alu2 (exec_and ..) rfl,
    gives_of_alu2 (exec_or ..) rfl, gives_of_alu2 (exec_xor ..) rfl, gives_of_alu2 (exec_andn ..) rfl,
    gives_of_alu2 (exec_shl ..) (congrArg (x <<< ·) amt), gives_of_alu2 (exec_shr ..) (congrArg (x >>> ·) amt),
    gives_of_alu2 (exec_sra ..) (congrArg x.sshiftRight amt), gives_of_alu2 (exec_min ..) (if_slt_eq x y),
    gives_of_alu2 (exec_max ..) (if_slt_max x y), gives_of_alu2 (exec_minn ..) (if_ult_eq x y), gives_of_alu2 (exec_maxn ..) (if_ult_max x y),
    gives_of_alu1 (exec_clz ..) (congrArg _ (clz_eq x)), gives_of_alu1 (exec_popc ..) (congrArg _ (popc_eq x)),
    gives_of_alu1 (exec_addi ..) (addi_eq x imm), gives_of_alu1 (exec_andi ..) (congrArg (x &&& ·) imm64),
    gives_of_alu1 (exec_ori ..) (congrArg (x ||| ·) imm64), gives_of_alu1 (exec_xori ..) (congrArg (x ^^^ ·) imm64),
    gives_of_alu1 (exec_shli ..) rfl, gives_of_alu1 (exec_shri ..) rfl, gives_of_alu1 (exec_srai ..) rfl,
    gives_of_alu1 (exec_lim ..) (congrArg (fun v : W64 => _ ||| v <<< (16 * q.toNat)) imm64)⟩

/-- Settles O2: the field forms by the arithmetic of fields above, the compares by `condHolds_iff`. -/
theorem fieldCompareResults : Obligations.FieldCompareResults := by
  intro s d a b p cc k x y
  have sel (v : W64) (hv : (if s.cur.readP p ≠ 0 then x else y) = v) : Gives (.sel d a b p) s d v := by
    intro h
    rw [← hv]
    have := fixed_gives (i := .sel d a b p) (fun _ => false) d (fun x => if x.readP p ≠ 0 then x.readG a else x.readG b) h
    rw [State.charge_readP, State.charge_readG, State.charge_readG] at this
    exact this
  have bfi : Gives (.bfi d a b) s d (bitFieldPut (s.cur.readG d) x y) := by
    intro h
    have := fixed_gives (i := .bfi d a b) (fun _ => false) d (fun x => bitFieldPut (x.readG d) (x.readG a) (x.readG b)) h
    rw [State.charge_readG, State.charge_readG, State.charge_readG] at this
    exact this
  have cmpT {z : W64} (h : Meets cc x z) : allOrNone (condHolds cc x z) = 0xFFFF := by rw [(condHolds_iff ..).2 h]; rfl
  have cmpF {z : W64} (h : ¬Meets cc x z) : allOrNone (condHolds cc x z) = 0 := by
    rw [Bool.eq_false_iff.2 (mt (condHolds_iff ..).1 h)]; rfl
  refine ⟨gives_of_alu2 (exec_bfx ..) (bitFieldGet_signed x y), gives_of_alu2 (exec_bfxn ..) (bitFieldGet_unsigned x y),
    bitFieldPut_eq _ x y ▸ bfi, fun h => sel _ (if_pos h), fun h => sel _ (if_neg (not_not.2 h)),
    fun h => givesP_of_setP (exec_cmp ..) ?_, fun h => givesP_of_setP (exec_cmp ..) ?_,
    fun h => givesP_of_setP (exec_cmpi ..) ?_, fun h => givesP_of_setP (exec_cmpi ..) ?_,
    gives_of_alu2 (exec_psub ..) (pointerSub_eq x y), gives_of_alu2 (exec_ptag ..) rfl, gives_of_alu1 (exec_pget ..) (pointerGet_eq x)⟩
  all_goals simp only [State.charge_readG]
  · exact cmpT h
  · exact cmpF h
  · exact cmpT h
  · exact cmpF h

/-- Where the sum of a base and an offset stays in the address space (R278). -/
theorem pointerAdd_inl {p : W64} {off : Int} (h : p.extractLsb' 48 4 = 0) (h0 : 0 ≤ (p.toNat % 2 ^ 48 : Nat) + off)
    (h1 : (p.toNat % 2 ^ 48 : Nat) + off < 2 ^ 48) : pointerAdd p off = .inl (BitVec.ofInt 64 (p.toNat + off)) := by
  unfold pointerAdd
  rw [if_neg (not_not.2 h), vaOf_eq]
  dsimp only
  rw [if_neg (by omega), effPtr_add h0 h1]

/-- Where it does not. -/
theorem pointerAdd_inr {p : W64} {off : Int} (h : p.extractLsb' 48 4 = 0)
    (h1 : ¬(0 ≤ (p.toNat % 2 ^ 48 : Nat) + off ∧ (p.toNat % 2 ^ 48 : Nat) + off < 2 ^ 48)) : pointerAdd p off = .inr 3 := by
  unfold pointerAdd
  rw [if_neg (not_not.2 h), vaOf_eq]
  dsimp only
  rw [if_pos (by omega)]

section
variable {i : Instr} {s : State} {d a : RegNo} {off : Slot → Int}

theorem ptrAdd_gives {v : W64} (he : exec i s = ptrAdd i s d a off) (ho : off s.charge.cur = off s.cur)
    (hv : pointerAdd (s.cur.readG a) (off s.cur) = .inl v) : Gives i s d v := by
  intro h
  have hf : Plain fun x => (x.writeG d v).mark (infoOf i).dests s.now 1 := by
    intro x
    dsimp only [Slot.mark]
    rw [Slot.writeG_rest]
  obtain ⟨t, ht, hr, hregs, hfl⟩ := issue_plain (i := i) (s := s)
    (body := fun s => match pointerAdd (s.cur.readG a) (off s.cur) with
      | .inl p => .next { s with cur := (s.cur.writeG d p).mark (infoOf i).dests s.now 1 }
      | .inr c => .trap causeAddr c (s.cur.readG a)) _ hf h (by
    simp only [State.charge_readG, ho, hv, State.now, State.charge_pkg])
  refine ⟨t, he.trans ht, hr, ?_, ?_⟩
  · refine ((Slot.writeG_sets s.charge.cur d v).of_regs hregs ?_).from_regs (by simp) (by simp)
    rw [hr.active, Slot.writeG_u]
    simp
  · rw [hfl]
    simp [Slot.mark]

theorem ptrAdd_traps {c : Nat} (he : exec i s = ptrAdd i s d a off) (ho : off s.charge.cur = off s.cur)
    (hc : pointerAdd (s.cur.readG a) (off s.cur) = .inr c) : Traps i s 0x03 c (s.cur.readG a) := by
  intro h
  rw [he]
  refine trap_traps h ?_
  simp only [State.charge_readG, ho, hc, causeAddr]

end

/-- Settles O4: `pointerAdd` keeps the tag where the sum stays in range, and otherwise names the sub-code. -/
theorem pointerAddition : Obligations.PointerAddition := by
  intro s d a b imm p near sum
  have hb : s.charge.cur.readG b = s.cur.readG b := State.charge_readG ..
  have tag (off : Int) (h : p.extractLsb' 48 4 ≠ 0) : pointerAdd p off = .inr 1 := if_pos h
  exact ⟨fun ⟨h0, h1, h2⟩ => ptrAdd_gives (exec_padd ..) (congrArg _ hb) (pointerAdd_inl h0 h1 h2),
    fun ⟨h0, h1, h2⟩ => ptrAdd_gives (exec_paddi ..) rfl (pointerAdd_inl h0 h1 h2),
    fun h => ⟨ptrAdd_traps (exec_padd ..) (congrArg _ hb) (tag _ h), ptrAdd_traps (exec_paddi ..) rfl (tag _ h)⟩,
    fun h0 h => ptrAdd_traps (exec_padd ..) (congrArg _ hb) (pointerAdd_inr h0 fun h1 => h ⟨h0, h1⟩),
    fun h0 h => ptrAdd_traps (exec_paddi ..) rfl (pointerAdd_inr h0 fun h1 => h ⟨h0, h1⟩)⟩

end Sys2Proof.Machine
end


section
/-! SUPPORT. Scalar floating point and division (R271, R280 to R286): the tests and orders of FP32 values in the spec's readings, and the results. -/

namespace Sys2Proof.Machine

/-! ### FP32 values -/

theorem lo32_eq (x : W64) : lo32 x = x.setWidth 32 := by
  apply BitVec.eq_of_toNat_eq
  simp [lo32, BitVec.extractLsb'_toNat]

theorem isNan32_iff (a : W32) : isNan32 a = true ↔ IsNaN a := by
  simp [isNan32, IsNaN]

theorem isSub32_iff (a : W32) : isSub32 a = true ↔ Subnormal a := by
  simp [isSub32, Subnormal]

theorem ord32_eq (a : W32) : ord32 a = fpOrder a := rfl

theorem lt32_iff (a b : W32) : lt32 a b = true ↔ fpOrder a < fpOrder b := by
  rw [lt32, decide_eq_true_eq, ord32_eq, ord32_eq]

theorem f32min_isMin (a b : W32) : IsMin (f32min a b) a b := by
  unfold f32min IsMin
  have yes {x : W32} : IsNaN x → isNan32 x = true := (isNan32_iff x).2
  have no {x : W32} : ¬IsNaN x → ¬isNan32 x = true := mt (isNan32_iff x).1
  simp only [lt32_iff, ord32_eq, nan32]
  by_cases ha : IsNaN a <;> by_cases hb : IsNaN b
  · exact .inl ⟨ha, hb, by rw [if_pos (yes ha), if_pos (yes hb)]⟩
  · exact .inr (.inl ⟨ha, hb, by rw [if_pos (yes ha), if_neg (no hb)]⟩)
  · exact .inr (.inr (.inl ⟨ha, hb, by rw [if_neg (no ha), if_pos (yes hb)]⟩))
  · refine .inr (.inr (.inr ⟨ha, hb, ?_⟩))
    rw [if_neg (no ha), if_neg (no hb)]
    by_cases he : fpOrder a = fpOrder b
    · rw [if_pos he]
      split
      · exact ⟨.inl rfl, le_rfl, he.le, fun _ _ => ‹_›⟩
      · exact ⟨.inr rfl, he.ge, le_rfl, fun _ h => h.resolve_left ‹_›⟩
    · rw [if_neg he]
      split
      · exact ⟨.inl rfl, le_rfl, by omega, fun h => absurd h he⟩
      · exact ⟨.inr rfl, by omega, le_rfl, fun h => absurd h he⟩

theorem f32max_isMax (a b : W32) : IsMax (f32max a b) a b := by
  unfold f32max IsMax
  have yes {x : W32} : IsNaN x → isNan32 x = true := (isNan32_iff x).2
  have no {x : W32} : ¬IsNaN x → ¬isNan32 x = true := mt (isNan32_iff x).1
  simp only [lt32_iff, ord32_eq, nan32]
  by_cases ha : IsNaN a <;> by_cases hb : IsNaN b
  · exact .inl ⟨ha, hb, by rw [if_pos (yes ha), if_pos (yes hb)]⟩
  · exact .inr (.inl ⟨ha, hb, by rw [if_pos (yes ha), if_neg (no hb)]⟩)
  · exact .inr (.inr (.inl ⟨ha, hb, by rw [if_neg (no ha), if_pos (yes hb)]⟩))
  · refine .inr (.inr (.inr ⟨ha, hb, ?_⟩))
    rw [if_neg (no ha), if_neg (no hb)]
    by_cases he : fpOrder a = fpOrder b
    · rw [if_pos he]
      split
      · exact ⟨.inr rfl, he.le, le_rfl, fun _ h => h.resolve_left (not_not.2 ‹_›)⟩
      · exact ⟨.inl rfl, le_rfl, he.ge, fun _ _ => ‹_›⟩
    · rw [if_neg he]
      split
      · exact ⟨.inr rfl, by omega, le_rfl, fun h => absurd h he⟩
      · exact ⟨.inl rfl, le_rfl, by omega, fun h => absurd h he⟩

/-- The relation of a compare. -/
theorem f32cmp_iff (c : FCond) (a b : W32) : (f32cmp c a b).1 = true ↔ FMeets c a b := by
  have hn (x : W32) : isNan32 x = false ↔ ¬IsNaN x := by rw [← isNan32_iff, Bool.not_eq_true]
  have hl : lt32 b a = false ↔ ¬fpOrder b < fpOrder a := by rw [← lt32_iff, Bool.not_eq_true]
  cases c <;>
    simp only [f32cmp, FMeets, ← ord32_eq, Bool.and_eq_true, Bool.or_eq_true, Bool.not_eq_true', Bool.or_eq_false_iff, decide_eq_true_eq,
      isNan32_iff, hn, lt32_iff, hl, not_lt, and_assoc, or_assoc]

/-- The flag of a compare: NV where a signalling relation meets a NaN, and nothing otherwise. -/
theorem f32cmp_flag (c : FCond) (a b : W32) : (FSignals c a b → (f32cmp c a b).2 = 16) ∧ (¬FSignals c a b → (f32cmp c a b).2 = 0) := by
  have hu : (isNan32 a || isNan32 b) = true ↔ IsNaN a ∨ IsNaN b := by rw [Bool.or_eq_true, isNan32_iff, isNan32_iff]
  cases c <;> simp only [f32cmp, FSignals, fNV, reduceCtorEq, or_false, or_self, or_true, true_and, false_and, false_implies,
    implies_true, and_self, not_false_eq_true]
  all_goals exact ⟨fun h => if_pos (hu.2 h), fun h => if_neg (mt hu.1 h)⟩

/-- The exponent and fraction tests of an FP32 encoding, by its magnitude: NaN, infinity, zero, subnormal or normal. -/
theorem fp32_ranges (n : Bool) {m : Nat} (hm : m < 2 ^ 31) :
    (if (m / 2 ^ 23 == 255) = true then (if m % 2 ^ 23 = 0 then FVal.inf n else .nan)
      else if m = 0 then .zero n else if m / 2 ^ 23 = 0 then .fin n (m % 2 ^ 23) (1 - 127 - 23)
      else .fin n (2 ^ 23 + m % 2 ^ 23) ((m / 2 ^ 23 : Nat) - 127 - 23)) =
    if 0x7F800000 < m then .nan else if m = 0x7F800000 then .inf n else if m = 0 then .zero n
    else if m < 0x00800000 then .fin n (m % 2 ^ 23) (1 - 127 - 23) else .fin n (2 ^ 23 + m % 2 ^ 23) ((m / 2 ^ 23 : Nat) - 127 - 23) := by
  have hspecial : (m / 2 ^ 23 == 255) = true ↔ 0x7F800000 ≤ m := by rw [beq_iff_eq]; omega
  have hfraction : 0x7F800000 ≤ m → (m % 2 ^ 23 = 0 ↔ m = 0x7F800000) := by omega
  have hsub : m / 2 ^ 23 = 0 ↔ m < 0x00800000 := by omega
  simp only [hspecial, hsub]
  by_cases h : 0x7F800000 ≤ m
  · rw [if_pos h]
    by_cases he : m = 0x7F800000
    · rw [if_pos ((hfraction h).2 he), if_neg (by omega), if_pos he]
    · rw [if_neg (mt (hfraction h).1 he), if_pos (by omega)]
  · rw [if_neg h, if_neg (by omega : ¬0x7F800000 < m), if_neg (by omega : ¬m = 0x7F800000)]

/-- The value of an FP32 encoding. -/
theorem val32_eq (a : W32) : val32 a = (let m := a.toNat % 2 ^ 31
    if 0x7F800000 < m then .nan else if m = 0x7F800000 then .inf a.msb else if m = 0 then .zero a.msb
    else if m < 0x00800000 then .fin a.msb (m % 2 ^ 23) (1 - 127 - 23) else .fin a.msb (2 ^ 23 + m % 2 ^ 23) ((m / 2 ^ 23 : Nat) - 127 - 23)) := by
  have hmsb : a.msb = decide (a.toNat / 2 ^ 31 % 2 = 1) := by
    have ha := a.isLt
    rw [BitVec.msb_eq_decide]
    exact decide_eq_decide.2 (by omega)
  rw [← fp32_ranges a.msb (Nat.mod_lt _ (by norm_num)), hmsb]
  rfl

/-- A class as one bit. -/
theorem f32class_eq (a : W32) : f32class a = BitVec.ofNat 64 (2 ^ classBit a) := by
  unfold f32class isSub32 classBit
  rw [val32_eq]
  dsimp only
  generalize a.toNat % 2 ^ 31 = m
  by_cases hnan : 0x7F800000 < m
  · rw [if_pos hnan, if_pos hnan]
    rfl
  rw [if_neg hnan, if_neg hnan]
  by_cases hinf : m = 0x7F800000
  · rw [if_pos hinf, if_pos hinf]
    cases a.msb <;> rfl
  rw [if_neg hinf, if_neg hinf]
  by_cases hzero : m = 0
  · subst hzero
    cases a.msb <;> rfl
  rw [if_neg hzero]
  by_cases hsub : m < 0x00800000
  · have hs : (decide (0 < m) && decide (m < 0x00800000)) = true := by simp only [Bool.and_eq_true, decide_eq_true_eq]; omega
    rw [if_pos hsub, if_neg (by omega : ¬0x00800000 ≤ m), if_pos (by omega : 0 < m)]
    dsimp only
    rw [if_pos hs]
    cases a.msb <;> rfl
  · have hs : ¬(decide (0 < m) && decide (m < 0x00800000)) = true := by simp only [Bool.and_eq_true, decide_eq_true_eq]; omega
    rw [if_neg hsub, if_pos (by omega : 0x00800000 ≤ m)]
    dsimp only
    rw [if_neg hs]
    cases a.msb <;> rfl

/-! ### Division -/

theorem divide_quotient (sgn : Bool) (x y : W64) : (divide sgn x y).1 = BitVec.ofInt 64 (quotient sgn x y) := by
  unfold divide quotient
  by_cases h : y = 0
  · rw [if_pos h, if_pos h]
    rfl
  · rw [if_neg h, if_neg h]
    cases sgn
    · exact (BitVec.ofInt_natCast ..).symm
    · rfl

theorem divide_remainder (sgn : Bool) (x y : W64) : (divide sgn x y).2 = BitVec.ofInt 64 (remainder sgn x y) := by
  unfold divide remainder
  by_cases h : y = 0
  · rw [if_pos h, if_pos h]
    exact (BitVec.ofInt_toInt).symm
  · rw [if_neg h, if_neg h]
    cases sgn
    · exact (BitVec.ofInt_natCast ..).symm
    · exact congrArg (BitVec.ofInt 64) (by rw [Int.tmod_def, Int.mul_comm]; rfl)

/-- The significant bits of the quotient's magnitude. -/
theorem quotientBits_eq (sgn : Bool) (x y : W64) : quotientBits sgn x y =
    if y = 0 then 0 else if quotient sgn x y = 0 then 0 else Nat.log2 (quotient sgn x y).natAbs + 1 := by
  unfold quotientBits quotient
  by_cases h : y = 0
  · rw [if_pos h, if_pos h]
    rfl
  · rw [if_neg h, if_neg h, if_neg h]
    cases sgn
    · simp only [Bool.false_eq_true, if_false, Int.natAbs_natCast, Int.natCast_eq_zero]
    · simp only [if_true, Int.natAbs_eq_zero]

/-! ### Results -/

theorem fp_givesFp {i : Instr} {s : State} {d : RegNo} {srcs : Slot → List W32} {f : Slot → F32} {r : F32} (he : exec i s = fpResult i s d srcs f)
    (hr : f s.charge.cur = r) : GivesFp i s d (r.bits.setWidth 64) r.flags := by
  intro h
  rw [he, ← hr]
  exact fixed_givesFp _ d (fun x => hi0 (f x).bits) (fun x => (f x).flags) h

theorem fpOther_givesFp {i : Instr} {s : State} {d : RegNo} {srcs : Slot → List W32} {f : Slot → W64 × Flags} {v : W64} {fl : Flags}
    (he : exec i s = fpOther i s d srcs f) (hv : f s.charge.cur = (v, fl)) : GivesFp i s d v fl := by
  intro h
  obtain ⟨t, ht, hr, hs, hf⟩ := fixed_givesFp (fun x => anySub (srcs x)) d (fun x => (f x).1) (fun x => (f x).2) h
  rw [hv] at hs hf
  exact ⟨t, he.trans ht, hr, hs, hf⟩

/-- An instruction that raises no flag. -/
theorem GivesFp.gives {i : Instr} {s : State} {d : RegNo} {v : W64} (h : GivesFp i s d v 0) : Gives i s d v := by
  intro hc
  obtain ⟨t, ht, hr, hs, hf⟩ := h hc
  exact ⟨t, ht, hr, hs, hf.trans (BitVec.or_zero ..)⟩

theorem charge_lo32 (s : State) (r : RegNo) : lo32 (s.charge.cur.readG r) = (s.cur.readG r).setWidth 32 := by rw [State.charge_readG, lo32_eq]

theorem fused_givesFp {i : Instr} {s : State} {d a b c : RegNo} {negP negC : Bool} (he : exec i s = fusedG i s d a b c negP negC) :
    let r := f32fused s.cur.mode negP negC ((s.cur.readG a).setWidth 32) ((s.cur.readG b).setWidth 32) ((s.cur.readG c).setWidth 32)
    GivesFp i s d (r.bits.setWidth 64) r.flags := by
  refine fp_givesFp he ?_
  simp only [charge_lo32, State.charge_mode]

/-- Settles O5: each instruction is `fpResult` or `fpOther` of the operation that the statement writes. -/
theorem scalarFpResults : Obligations.ScalarFpResults := by
  intro s d a b c cc x y z m result
  refine ⟨fp_givesFp (exec_fadd ..) ?_, fp_givesFp (exec_fsub ..) ?_, fp_givesFp (exec_fmul ..) ?_,
    ⟨f32min x y, f32min_isMin x y, (fp_givesFp (exec_fmin ..) (r := ⟨f32min x y, 0⟩) ?_).gives⟩,
    ⟨f32max x y, f32max_isMax x y, (fp_givesFp (exec_fmax ..) (r := ⟨f32max x y, 0⟩) ?_).gives⟩,
    fun v fl h1 h0 hf1 hf0 => fpOther_givesFp (exec_fcmp ..) ?_,
    fpOther_givesFp (exec_fcvtF2i ..) ?_, fpOther_givesFp (exec_fcvtF2n ..) ?_, fp_givesFp (exec_fcvtI2f ..) ?_,
    fp_givesFp (exec_fcvtN2f ..) ?_, (fpOther_givesFp (exec_fclass ..) ?_).gives,
    fused_givesFp (exec_fma ..), fused_givesFp (exec_fms ..), fused_givesFp (exec_fnma ..)⟩
  case refine_6 =>
    rw [charge_lo32, charge_lo32]
    refine Prod.ext ?_ ?_
    · by_cases h : FMeets cc x y
      · rw [h1.2 h]
        exact if_pos ((f32cmp_iff ..).2 h)
      · rw [h0.2 h]
        exact if_neg (mt (f32cmp_iff ..).1 h)
    · by_cases h : FSignals cc x y
      · exact ((f32cmp_flag ..).1 h).trans (hf1.2 h).symm
      · exact ((f32cmp_flag ..).2 h).trans (hf0.2 h).symm
  all_goals simp only [charge_lo32, State.charge_mode, f32class_eq]
  all_goals rfl

/-- A long-latency instruction that writes one scalar register. -/
theorem long_givesLater {i : Instr} {s : State} {d : RegNo} {la : BitVec 4} {body : State → Act} {lat : Nat} {sub : Bool} {v : W64} {fl : Flags}
    (he : exec i s = issue i s body) (hb : body s.charge = longResult i s.charge lat sub fun x => (x.writeG d v).raise fl)
    (hla : (infoOf i).la = la.toNat) (hd : (infoOf i).dests = [.g d]) :
    GivesLater i s d v fl la.toNat (lat + if sub then 6 else 0) := by
  intro h
  obtain ⟨t, o, ht, ho, hop, hregs, hfl, h1, h2, h3, h4⟩ :=
    long_sets (fun _ => lat) (fun _ => sub) (fun x => (x.writeG d v).raise fl) (fun x => Slot.writeGraise_fl ..) h
  rw [issue_go _ h] at ht
  refine ⟨t, o, ?_, ho, hop, ?_, hfl.trans ?_, h1.trans hla, h2.trans hd, h3, h4⟩
  · rw [he, issue_go _ h, hb]
    exact ht
  · refine ((Slot.writeG_sets s.charge.cur d _).of_regs (hregs.trans rfl) ?_).from_regs (by simp) (by simp)
    rw [hop.rest, Slot.writeG_u]
    simp
  · simp [Slot.raise]

theorem Slot.raise_zero (x : Slot) : x.raise 0 = x := by
  unfold Slot.raise
  rw [show x.u.fflags ||| 0 = x.u.fflags from BitVec.or_zero ..]

theorem divFam_givesLater {i : Instr} {s : State} {d a b : RegNo} {la : BitVec 4} {sgn quo : Bool} {v : W64}
    (he : exec i s = divFam i s d a b sgn quo) (hla : (infoOf i).la = la.toNat) (hd : (infoOf i).dests = [.g d])
    (hv : (if quo then (divide sgn (s.cur.readG a) (s.cur.readG b)).1 else (divide sgn (s.cur.readG a) (s.cur.readG b)).2) = v) :
    GivesLater i s d v 0 la.toNat (divLatency sgn (s.cur.readG a) (s.cur.readG b)) := by
  refine long_givesLater (lat := divLatency ..) (sub := false) he ?_ hla hd
  simp only [State.charge_readG, Slot.raise_zero, hv]

/-- The latency of a division (Table 13.1). -/
theorem divLatency_eq (sgn : Bool) (x y : W64) : divLatency sgn x y =
    12 + (7 * (if y = 0 then 0 else if quotient sgn x y = 0 then 0 else Nat.log2 (quotient sgn x y).natAbs + 1) + 15) / 16 := by
  rw [divLatency, quotientBits_eq]

theorem fpLong_givesLater {i : Instr} {s : State} {d : RegNo} {la : BitVec 4} {srcs : Slot → List W32} {f : Slot → F32} {r : F32} {l : List W32}
    (he : exec i s = fpLong i s d srcs f) (hr : f s.charge.cur = r) (hl : srcs s.charge.cur = l)
    (hla : (infoOf i).la = la.toNat) (hd : (infoOf i).dests = [.g d]) :
    GivesLater i s d (r.bits.setWidth 64) r.flags la.toNat (18 + if anySub (r.bits :: l) then 6 else 0) := by
  refine long_givesLater he ?_ hla hd
  simp only [longResult, State.updCur, hr, hl, hi0]

/-- Settles O3: the latency of a division is that of its quotient, and a subnormal operand or result adds 6 cycles. -/
theorem divisionResults : Obligations.DivisionResults := by
  intro s d a b la x y bits lat e r
  have fdiv : GivesLater (.fdiv d a b la) s d (e.bits.setWidth 64) e.flags la.toNat
      (18 + if anySub [e.bits, x.setWidth 32, y.setWidth 32] then 6 else 0) :=
    fpLong_givesLater (exec_fdiv ..) (by simp only [charge_lo32, State.charge_mode]; rfl) (by simp only [charge_lo32]; rfl) rfl rfl
  have fsqrt : GivesLater (.fsqrt d a la) s d (r.bits.setWidth 64) r.flags la.toNat
      (18 + if anySub [r.bits, x.setWidth 32] then 6 else 0) :=
    fpLong_givesLater (exec_fsqrt ..) (by simp only [charge_lo32, State.charge_mode]; rfl) (by simp only [charge_lo32]; rfl) rfl rfl
  have div2 : anySub [e.bits, x.setWidth 32, y.setWidth 32] = true ↔ Subnormal (x.setWidth 32) ∨ Subnormal (y.setWidth 32) ∨ Subnormal e.bits := by
    simp only [anySub, List.any_cons, List.any_nil, Bool.or_false, Bool.or_eq_true, isSub32_iff]
    tauto
  have sqrt2 : anySub [r.bits, x.setWidth 32] = true ↔ Subnormal (x.setWidth 32) ∨ Subnormal r.bits := by
    simp only [anySub, List.any_cons, List.any_nil, Bool.or_false, Bool.or_eq_true, isSub32_iff]
    tauto
  refine ⟨?_, ?_, ?_, ?_, fun h => ?_, fun h => ?_, fun h => ?_, fun h => ?_⟩
  · have := divFam_givesLater (exec_div d a b la s) rfl rfl (divide_quotient ..)
    rwa [divLatency_eq] at this
  · have := divFam_givesLater (exec_divn d a b la s) rfl rfl (divide_quotient ..)
    rwa [divLatency_eq] at this
  · have := divFam_givesLater (exec_rem d a b la s) rfl rfl (divide_remainder ..)
    rwa [divLatency_eq] at this
  · have := divFam_givesLater (exec_remn d a b la s) rfl rfl (divide_remainder ..)
    rwa [divLatency_eq] at this
  · rwa [if_neg (by rw [div2]; tauto)] at fdiv
  · rwa [if_pos (div2.2 h)] at fdiv
  · rwa [if_neg (by rw [sqrt2]; tauto)] at fsqrt
  · rwa [if_pos (sqrt2.2 h)] at fsqrt

end Sys2Proof.Machine
end


section
/-! SUPPORT. Transfers of control and frames (R287 to R296). -/

namespace Sys2Proof.Machine

/-! ### Targets -/

theorem ofInt_toNat_eq {w : Nat} (x : BitVec w) : x = BitVec.ofInt w x.toNat := by
  rw [BitVec.ofInt_natCast, BitVec.ofNat_toNat, BitVec.setWidth_eq]

/-- A branch target, as an address modulo 2^48 (R287). -/
theorem target_toNat {w : Nat} (pc : Addr) (disp : BitVec w) :
    (target pc disp).toNat = ((pc.toNat + 4 * disp.toInt : Int) % 2 ^ 48).toNat := by
  have h4 : disp.signExtend 48 <<< 2 = BitVec.ofInt 48 (4 * disp.toInt) := by
    rw [BitVec.shiftLeft_eq_mul_twoPow, BitVec.signExtend, BitVec.mul_comm, BitVec.ofInt_mul]
    rfl
  have hp : target pc disp = BitVec.ofInt 48 (pc.toNat + 4 * disp.toInt) := by
    rw [target, h4, BitVec.ofInt_add, ← ofInt_toNat_eq]
  rw [hp, BitVec.toNat_ofInt]
  rfl

/-- The address after an instruction, as CALL writes it (R290). -/
theorem link_value (pc : Addr) : (pc + 4).setWidth 64 = BitVec.ofNat 64 ((pc.toNat + 4 * 1 : Int) % 2 ^ 48).toNat := by
  apply BitVec.eq_of_toNat_eq
  have := pc.isLt
  simp only [BitVec.toNat_setWidth, BitVec.toNat_add, BitVec.toNat_ofNat, show (4 : Addr).toNat = 4 from rfl]
  omega

theorem low2_eq_zero (x : W64) : x.extractLsb' 0 2 = 0 ↔ x.toNat % 4 = 0 := by
  rw [← BitVec.toNat_inj]
  simp [BitVec.extractLsb'_toNat]

theorem low48_toNat (x : W64) : (x.extractLsb' 0 48).toNat = x.toNat % 2 ^ 48 := by
  simp [BitVec.extractLsb'_toNat]

/-! ### Transfers -/

section
variable {i : Instr} {s : State} {body : State → Act}

/-- A transfer that changes no register. -/
theorem goes_of_jump {t : Addr} {n : Nat} (he : exec i s = issue i s body) (hb : body s.charge = .jump s.charge t) (ht : t.toNat = n) :
    Goes i s n := by
  intro h
  obtain ⟨u, hu, ho, hj, hr⟩ := jump_goes (fun x => x) (fun _ => rfl) t h hb
  exact ⟨u, he.trans hu, ho, ht ▸ hj, by simpa using hr⟩

/-- A transfer that writes one scalar register. -/
theorem goesSetting_of_jump {t : Addr} {n : Nat} {d : RegNo} {v : W64} (he : exec i s = issue i s body)
    (hb : body s.charge = .jump (s.charge.updCur fun x => x.writeG d v) t) (ht : t.toNat = n) : GoesSetting i s n d v := by
  intro h
  obtain ⟨u, hu, ho, hj, hr⟩ := jump_goes (fun x => x.writeG d v) (fun x => Slot.writeG_rest ..) t h hb
  refine ⟨u, he.trans hu, ho, ht ▸ hj, ((Slot.writeG_sets s.charge.cur d v).of_regs hr ?_).from_regs (by simp) (by simp)⟩
  rw [hj.rest, Slot.writeG_u]
  simp

theorem goesOn_of_next (he : exec i s = issue i s body) (hb : body s.charge = .next s.charge) : GoesOn i s := by
  intro h
  obtain ⟨t, ht⟩ := next_goesOn h hb
  exact ⟨t, he.trans ht.1, ht.2⟩

/-- An instruction that writes one scalar register and retires in sequence. -/
theorem gives_of_next {d : RegNo} {v : W64} (he : exec i s = issue i s body) (hb : body s.charge = .next (s.charge.updCur fun x => x.writeG d v)) :
    Gives i s d v := by
  intro h
  obtain ⟨t, ht, hr, hregs, hfl⟩ := issue_plain _ (Plain.writeG d fun _ => v) h hb
  refine ⟨t, he.trans ht, hr, ((Slot.writeG_sets s.charge.cur d v).of_regs hregs ?_).from_regs (by simp) (by simp), ?_⟩
  · rw [hr.active, Slot.writeG_u]
    simp
  · rw [hfl]
    simp

theorem traps_of_trap {c k : Nat} {x : W64} (he : exec i s = issue i s body) (hb : body s.charge = .trap c k x) : Traps i s c k x := by
  intro h
  rw [he]
  exact trap_traps h hb

theorem branchIf_goes {taken : Slot → Bool} {t : Slot → Addr} {n : Nat} (he : exec i s = branchIf i s taken t)
    (hk : taken s.charge.cur = true) (ht : (t s.charge.cur).toNat = n) : Goes i s n :=
  goes_of_jump he (if_pos hk) ht

theorem branchIf_goesOn {taken : Slot → Bool} {t : Slot → Addr} (he : exec i s = branchIf i s taken t) (hk : taken s.charge.cur = false) :
    GoesOn i s :=
  goesOn_of_next he (if_neg (Bool.eq_false_iff.1 hk))

end

theorem charge_pc (s : State) : s.charge.cur.pc = s.cur.pc := by rw [State.charge_cur]

/-- The link that CALL and CALLR write. -/
theorem charge_link (s : State) : s.charge.cur.link = s.charge.cur.writeG 31 (BitVec.ofNat 64 ((s.cur.pc.toNat + 4 * 1 : Int) % 2 ^ 48).toNat) := by
  rw [Slot.link, charge_pc, link_value]

section
variable {i : Instr} {s : State} {r : RegNo} {link : Bool}

theorem jumpReg_traps (he : exec i s = jumpReg i s r link) (h : (s.cur.readG r).toNat % 4 ≠ 0) : Traps i s 0x06 4 (s.cur.readG r) := by
  refine traps_of_trap he ?_
  simp only [State.charge_readG]
  exact if_pos (mt (low2_eq_zero _).1 h)

theorem jumpReg_goes (he : exec i s = jumpReg i s r false) (h : (s.cur.readG r).toNat % 4 = 0) : Goes i s ((s.cur.readG r).toNat % 2 ^ 48) := by
  refine goes_of_jump he ?_ (low48_toNat _)
  simp only [State.charge_readG]
  exact if_neg (not_not.2 ((low2_eq_zero _).2 h))

theorem jumpReg_links (he : exec i s = jumpReg i s r true) (h : (s.cur.readG r).toNat % 4 = 0) :
    GoesSetting i s ((s.cur.readG r).toNat % 2 ^ 48) 31 (BitVec.ofNat 64 ((s.cur.pc.toNat + 4 * 1 : Int) % 2 ^ 48).toNat) := by
  refine goesSetting_of_jump he ?_ (low48_toNat _)
  simp only [State.charge_readG, charge_link, if_true]
  exact if_neg (not_not.2 ((low2_eq_zero _).2 h))

end

/-- Settles O6: the branches by `branchIf`, the register forms by `jumpReg`, LOOP by its new count. -/
theorem controlTransfers : Obligations.ControlTransfers := by
  intro s a b p cc d22 d13 d26 d21 x y place next
  have dest {w : Nat} (disp : BitVec w) : (target s.charge.cur.pc disp).toNat = place disp.toInt := by rw [charge_pc, target_toNat]
  have any (v : Bool) (h : (s.cur.readP p != 0) = v) : (s.charge.cur.readP p != 0) = v := by rw [State.charge_readP, h]
  have cond (v : Bool) (h : condHolds cc x y = v) : condHolds cc (s.charge.cur.readG a) (s.charge.cur.readG b) = v := by
    rw [State.charge_readG, State.charge_readG, h]
  have none (v : Bool) (h : (s.cur.readP p == 0) = v) : (s.charge.cur.readP p == 0) = v := by rw [State.charge_readP, h]
  refine ⟨fun h => ⟨branchIf_goes (exec_brAny ..) (any _ (bne_iff_ne.2 h)) (dest _), branchIf_goesOn (exec_brNone ..) (none _ (beq_false_of_ne h))⟩,
    fun h => ⟨branchIf_goesOn (exec_brAny ..) (any _ (bne_eq_false_iff_eq.2 h)), branchIf_goes (exec_brNone ..) (none _ (beq_iff_eq.2 h)) (dest _)⟩,
    fun h => branchIf_goes (exec_bcc ..) (cond _ ((condHolds_iff ..).2 h)) (dest _),
    fun h => branchIf_goesOn (exec_bcc ..) (cond _ (Bool.eq_false_iff.2 (mt (condHolds_iff ..).1 h))),
    branchIf_goes (exec_bra ..) rfl (dest _),
    goesSetting_of_jump (exec_call ..) (congrArg (fun c => Act.jump { s.charge with cur := c } _) (charge_link s)) (dest _),
    fun h => ⟨jumpReg_goes (exec_jr ..) h, jumpReg_links (exec_callr ..) h⟩,
    fun h => ⟨jumpReg_traps (exec_jr ..) h, jumpReg_traps (exec_callr ..) h⟩,
    fun h => jumpReg_goes (exec_ret ..) h, fun h => jumpReg_traps (exec_ret ..) h,
    fun h => goesSetting_of_jump (exec_loop ..) ?_ (dest _), fun h => gives_of_next (exec_loop ..) ?_⟩
  · simp only [State.charge_readG]
    exact if_pos (mt sub_eq_zero.1 h)
  · simp only [State.charge_readG, show s.cur.readG a = 1 from h]
    exact if_neg (by decide)

/-! ### Frames -/

theorem charge_inRegion (s : State) (a : Addr) : s.charge.cur.inRegion a = s.cur.inRegion a := by
  unfold Slot.inRegion
  rw [State.charge_cur]

theorem charge_icWord (s : State) (a : Addr) : s.charge.icWord a = s.icWord a := by
  unfold State.icWord
  rw [State.tile_charge, State.charge_sc, State.myTile, State.charge_curId, ← State.myTile]

theorem charge_capture (s : State) (fm : BitVec 3) (last n j : Nat) : s.charge.capture fm last n j = s.capture fm last n j := by
  induction n generalizing j with
  | zero => rfl
  | succ n ih =>
    unfold State.capture
    simp only [charge_inRegion, charge_icWord, charge_pc, ih]

/-- What capture finds with one more word before it. -/
def Captured.cons (w : W32) : Captured → Captured
  | .ok l => .ok (w :: l)
  | r => r

/-- A body position that may stand in the frame leaves what capture finds to those after it. -/
theorem capture_step {s : State} {fm : BitVec 3} {last j : Nat} {w : W32} (h : Fetched s j w ∧ Framable fm last w) (n : Nat) :
    s.capture fm last (n + 1) j = (s.capture fm last n (j + 1)).cons w := by
  obtain ⟨⟨hr, hw⟩, i, k, hd, ha⟩ := h
  unfold bodyAt at hr hw
  rw [State.capture]
  simp only [hr, hw, hd, ha, Bool.not_true, Bool.false_eq_true, if_false]
  cases s.capture fm last n (j + 1) <;> rfl

/-- A body all of whose words may stand in the frame is captured. -/
theorem capture_ok {s : State} {fm : BitVec 3} {last : Nat} (body : List W32) (j : Nat)
    (h : ∀ k w, body[k]? = some w → Fetched s (j + k) w ∧ Framable fm last w) : s.capture fm last body.length j = .ok body := by
  induction body generalizing j with
  | nil => rfl
  | cons w body ih =>
    rw [List.length_cons, capture_step (j := j) (h 0 w rfl),
      ih (j + 1) fun k v hv => by simpa only [Nat.add_right_comm, Nat.add_assoc, Nat.add_comm 1] using h (k + 1) v hv]
    rfl

/-- The first body position that may not stand in the frame decides what capture finds. -/
theorem capture_trap {s : State} {fm : BitVec 3} {last c code : Nat} {x : W64} (body : List W32) (j k : Nat) (hk : k < body.length)
    (h : ∀ m v, m < k → body[m]? = some v → Fetched s (j + m) v ∧ Framable fm last v)
    (hend : ∀ n, s.capture fm last (n + 1) (j + k) = .trap c code x) : s.capture fm last body.length j = .trap c code x := by
  induction body generalizing j k with
  | nil => exact absurd hk (Nat.not_lt_zero k)
  | cons w body ih =>
    cases k with
    | zero => exact hend body.length
    | succ k =>
      rw [List.length_cons, capture_step (j := j) (h 0 w (by omega) rfl), ih (j + 1) k (by simpa using hk)
        (fun m v hm hv => by simpa only [Nat.add_right_comm, Nat.add_assoc, Nat.add_comm 1] using h (m + 1) v (by omega) hv)
        (fun n => by rw [← hend n, Nat.add_right_comm, Nat.add_assoc])]
      rfl

section
variable {s : State} {fm : BitVec 3} {last j : Nat}

theorem capture_outside (h : s.cur.inRegion (bodyAt s j) = false) (n : Nat) :
    s.capture fm last (n + 1) j = .trap 0x02 0 ((bodyAt s j).setWidth 64) := by
  unfold bodyAt at h ⊢
  rw [State.capture]
  simp only [h, Bool.not_false, if_true, causeFetchBounds]

theorem capture_illegal {w : W32} {c : Nat} (h : Fetched s j w) (hd : decode w = .illegal c) (n : Nat) :
    s.capture fm last (n + 1) j = .trap 0x01 c (w.setWidth 64) := by
  obtain ⟨hr, hw⟩ := h
  unfold bodyAt at hr hw
  rw [State.capture]
  simp only [hr, hw, hd, Bool.not_true, Bool.false_eq_true, if_false, causeIllegal]

theorem capture_class {w : W32} {k : Instr} (h : Fetched s j w) (hd : decode w = .ok k) (ha : advanced fm last k = none) (n : Nat) :
    s.capture fm last (n + 1) j = .trap 0x09 1 (w.setWidth 64) := by
  obtain ⟨hr, hw⟩ := h
  unfold bodyAt at hr hw
  rw [State.capture]
  simp only [hr, hw, hd, ha, Bool.not_true, Bool.false_eq_true, if_false, causeFrame]

theorem capture_leaves {w : W32} {k : Instr} (h : Fetched s j w) (hd : decode w = .ok k) (ha : advanced fm last k = some none) (n : Nat) :
    s.capture fm last (n + 1) j = .trap 0x09 2 (w.setWidth 64) := by
  obtain ⟨hr, hw⟩ := h
  unfold bodyAt at hr hw
  rw [State.capture]
  simp only [hr, hw, hd, ha, Bool.not_true, Bool.false_eq_true, if_false, causeFrame]

end

section
variable {s : State} {len : BitVec 4} {cnt : BitVec 8} {fm : BitVec 3} {step : BitVec 2}

theorem repf_traps {c k : Nat} {x : W64} (h : s.capture fm ((step.toNat + 1) * cnt.toNat) (len.toNat + 1) 0 = .trap c k x) :
    Traps (.repf len cnt fm step) s c k x := by
  refine traps_of_trap (exec_repf ..) ?_
  simp only [charge_capture, h]

/-- A captured frame: REPF retires, and its passes follow from the next cycle on. -/
theorem repf_frames {body : List W32} (hc : CanIssue (.repf len cnt fm step) s)
    (h : s.capture fm ((step.toNat + 1) * cnt.toNat) (len.toNat + 1) 0 = .ok body) :
    ∃ t, exec (.repf len cnt fm step) s = .next t ∧ OnlySlot s t ∧ t.cur.regs = s.cur.regs ∧ t.cur.u.retired = s.cur.u.retired + 1 ∧
      t.cur.u.turns = s.cur.u.turns + 1 ∧ t.cur.wait = s.now + 1 ∧
      t.cur.frame = some ⟨body, cnt.toNat + 1, fm, step.toNat + 1, 0, 0, s.cur.pc + BitVec.ofNat 48 (4 * (len.toNat + 2))⟩ := by
  rw [exec_repf, execRepf, issue_go _ hc]
  simp only [charge_capture, h, State.conclude]
  refine ⟨_, rfl, (OnlySlot.charge s).trans ((OnlySlot.retire _).trans (OnlySlot.updCur _ _)), ?_⟩
  rw [State.updCur_cur, Slot.countChunk_rest]
  simp only [State.retire_cur, State.charge_cur, State.now, State.charge_pkg, and_self]

end

/-- Settles O7: capture finds the whole body, or stops at the first position that may not stand in it. -/
theorem frameCapture : Obligations.FrameCapture := by
  intro s len cnt fm step body i last hc hlen
  refine ⟨fun h => repf_frames hc ?_, fun j w hj h => ?_⟩
  · rw [← hlen]
    exact capture_ok body 0 fun k v hv => by simpa only [Nat.zero_add] using h k v hv
  · have hlt : j < body.length := (List.getElem?_eq_some_iff.1 hj).1
    have traps {c k : Nat} {x : W64} (hend : ∀ n, s.capture fm last (n + 1) j = .trap c k x) : Traps i s c k x := by
      refine repf_traps ?_
      rw [← hlen]
      exact capture_trap body 0 j hlt (fun m v hm hv => by simpa only [Nat.zero_add] using h m v hm hv) (by simpa only [Nat.zero_add] using hend)
    exact ⟨fun hr => traps (capture_outside hr), fun hf c hd => traps (capture_illegal hf hd),
      fun hf k hd ha => traps (capture_class hf hd ha), fun hf k hd ha => traps (capture_leaves hf hd ha)⟩

end Sys2Proof.Machine
end


section
/-! SUPPORT. Vector and predicate instructions (R298 to R311, R314, R315): the flags of lanes together, lane arithmetic, and the results. -/

namespace Sys2Proof.Machine

/-! ### Flags and predicates over lanes -/

theorem laneFlags_foldl (act : Pred) (f : Nat → Flags) (l : List Nat) (a : Flags) (j : Nat) :
    (l.foldl (fun a i => if act.getLsbD i then a ||| f i else a) a).getLsbD j = true ↔
      a.getLsbD j = true ∨ ∃ k ∈ l, act.getLsbD k = true ∧ (f k).getLsbD j = true := by
  induction l generalizing a with
  | nil => simp
  | cons k l ih =>
    rw [List.foldl_cons, ih]
    by_cases h : act.getLsbD k = true
    · simp [h, or_assoc]
    · simp [h]

/-- A flag of the lanes together is raised where some active lane raises it (R315). -/
theorem laneFlags_iff (act : Pred) (f : Nat → Flags) (j : Nat) :
    (laneFlags act f).getLsbD j = true ↔ ∃ k, k < 16 ∧ act.getLsbD k = true ∧ (f k).getLsbD j = true := by
  rw [laneFlags, laneFlags_foldl]
  simp

theorem Gathers.eq {act : Pred} {f : Nat → Flags} {fl fl' : Flags} (h : Gathers act f fl) (h' : Gathers act f fl') : fl = fl' := by
  refine BitVec.eq_of_getLsbD_eq fun j hj => ?_
  rw [Bool.eq_iff_iff, h j hj, h' j hj]

theorem laneFlags_gathers (act : Pred) (f : Nat → Flags) : Gathers act f (laneFlags act f) := fun j _ => laneFlags_iff act f j

theorem laneFlags_zero (act : Pred) : laneFlags act (fun _ => 0) = 0 :=
  (laneFlags_gathers act _).eq fun j _ => by simp

theorem anyLane_iff (act : Pred) (f : Nat → Bool) : anyLane act f = true ↔ ∃ k, k < 16 ∧ act.getLsbD k = true ∧ f k = true := by
  simp [anyLane]

theorem maskOf_lt (n : Nat) (f : Nat → Bool) : maskOf n f < 2 ^ n := by
  induction n with
  | zero => simp [maskOf]
  | succ n ih =>
    have e : maskOf (n + 1) f = if f n then maskOf n f + 2 ^ n else maskOf n f := by simp [maskOf, List.range_succ]
    rw [e, Nat.pow_succ]
    split <;> omega

/-- The bits of a number made from a test of each. -/
theorem testBit_maskOf (n : Nat) (f : Nat → Bool) (k : Nat) : (maskOf n f).testBit k = (decide (k < n) && f k) := by
  induction n with
  | zero => simp [maskOf]
  | succ n ih =>
    have e : maskOf (n + 1) f = if f n then maskOf n f + 2 ^ n else maskOf n f := by simp [maskOf, List.range_succ]
    have hlt := maskOf_lt n f
    rw [e]
    rcases Nat.lt_trichotomy k n with h | h | h
    · have hd : decide (k < n + 1) = decide (k < n) := by simp only [h, decide_true, decide_eq_true_eq]; omega
      split
      · rw [Nat.add_comm, Nat.testBit_two_pow_add_gt h, ih, hd]
      · rw [ih, hd]
    · subst h
      rw [decide_eq_true (Nat.lt_succ_self k), Bool.true_and]
      split
      · rw [Nat.add_comm, Nat.testBit_two_pow_add_eq, Nat.testBit_lt_two_pow hlt, ‹f k = true›]
        rfl
      · rw [Nat.testBit_lt_two_pow hlt, Bool.eq_false_iff.2 ‹¬f k = true›]
    · rw [decide_eq_false (by omega), Bool.false_and]
      have hp : 2 ^ (n + 1) ≤ 2 ^ k := Nat.pow_le_pow_right (by omega) h
      rw [Nat.pow_succ] at hp
      refine Nat.testBit_lt_two_pow ?_
      split <;> omega

/-- A predicate built by a test of each lane marks the lanes of any relation that the test decides. -/
theorem Marks.eq {act v : Pred} {rel : Nat → Prop} {f : Nat → Bool} (h : Marks act rel v) (hf : ∀ k, f k = true ↔ rel k) :
    BitVec.ofNat 16 (maskOf 16 fun k => act.getLsbD k && f k) = v := by
  refine BitVec.eq_of_getLsbD_eq fun k hk => ?_
  rw [BitVec.getLsbD_ofNat, testBit_maskOf, decide_eq_true hk, Bool.true_and, Bool.true_and, Bool.eq_iff_iff, Bool.and_eq_true, h k hk, hf]

/-! ### What a vector instruction leaves -/

theorem SetsLanes.congr {x y : Slot} {d : RegNo} {act : Pred} {f g : Nat → W32} (h : SetsLanes x y d act f)
    (he : ∀ k, k < 16 → act.getLsbD k = true → f k = g k) : SetsLanes x y d act g := by
  refine ⟨fun r k hk => ?_, h.g, h.p, h.shadow⟩
  rw [h.v r k hk]
  by_cases hr : r = d ∧ act.getLsbD k = true
  · rw [if_pos hr, if_pos hr, he k hk hr.2]
  · rw [if_neg hr, if_neg hr]

section
variable {i : Instr} {s : State} {d : RegNo} {m : PredNo}

/-- A fixed-latency instruction that writes the active lanes of a register and raises flags. -/
theorem givesLanes_of_fixed {act : Pred} {f : Nat → W32} {fl : Flags} (sub : Slot → Bool) (mask : Slot → Pred) (v : Slot → Nat → W32)
    (flags : Slot → Flags) (he : exec i s = fixed i s sub fun x => (x.writeLanes d (mask x) (v x)).raise (flags x))
    (ha : mask s.charge.cur = act) (hv : ∀ k, k < 16 → act.getLsbD k = true → v s.charge.cur k = f k) (hf : flags s.charge.cur = fl) :
    GivesLanes i s d act f fl := by
  intro h
  obtain ⟨t, ht, hr, hs, hfl⟩ := fixed_givesLanes sub d mask v flags h
  rw [ha] at hs
  rw [hf] at hfl
  exact ⟨t, he.trans ht, hr, hs.congr hv, hfl⟩

theorem vInt_gives {f : Slot → Nat → W32} {g : Nat → W32} (he : exec i s = vInt i s d m f) (hg : ∀ k, f s.charge.cur k = g k) :
    GivesLanes i s d (s.cur.readP m) g 0 := by
  refine givesLanes_of_fixed (fun _ => false) (fun x => x.readP m) f (fun _ => 0) ?_ (State.charge_readP ..) (fun k _ _ => hg k) rfl
  simp only [Slot.raise_zero]
  exact he

theorem vInt2_gives {a b : RegNo} {f : W32 → W32 → W32} {g : Nat → W32} (he : exec i s = vInt2 i s d a b m f)
    (hg : ∀ k, f (lane (s.cur.readV a) k) (lane (s.cur.readV b) k) = g k) : GivesLanes i s d (s.cur.readP m) g 0 := by
  refine vInt_gives he fun k => ?_
  rw [State.charge_readV, State.charge_readV, hg]

theorem vFp_gives {subs : Slot → Nat → List W32} {f : Slot → Nat → F32} {g : Nat → F32} {fl : Flags} (he : exec i s = vFp i s d m subs f)
    (hg : ∀ k, f s.charge.cur k = g k) (hfl : Gathers (s.cur.readP m) (fun k => (g k).flags) fl) :
    GivesLanes i s d (s.cur.readP m) (fun k => (g k).bits) fl := by
  refine givesLanes_of_fixed _ (fun x => x.readP m) (fun x k => (f x k).bits) (fun x => laneFlags (x.readP m) fun k => (f x k).flags) he
    (State.charge_readP ..) (fun k _ _ => by rw [hg]) ?_
  simp only [State.charge_readP, hg]
  exact Gathers.eq (laneFlags_gathers _ _) hfl

theorem vFp2_gives {a b : RegNo} {f : Mode → W32 → W32 → F32} {fl : Flags} (he : exec i s = vFp2 i s d a b m f)
    (hfl : Gathers (s.cur.readP m) (fun k => (f s.cur.mode (lane (s.cur.readV a) k) (lane (s.cur.readV b) k)).flags) fl) :
    GivesLanes i s d (s.cur.readP m) (fun k => (f s.cur.mode (lane (s.cur.readV a) k) (lane (s.cur.readV b) k)).bits) fl :=
  vFp_gives he (fun k => by simp only [State.charge_readV, State.charge_mode]) hfl

theorem vFused_gives {a b c : RegNo} {negP negC : Bool} {fl : Flags} (he : exec i s = vFused i s d a b c m negP negC)
    (hfl : Gathers (s.cur.readP m)
      (fun k => (f32fused s.cur.mode negP negC (lane (s.cur.readV a) k) (lane (s.cur.readV b) k) (lane (s.cur.readV c) k)).flags) fl) :
    GivesLanes i s d (s.cur.readP m)
      (fun k => (f32fused s.cur.mode negP negC (lane (s.cur.readV a) k) (lane (s.cur.readV b) k) (lane (s.cur.readV c) k)).bits) fl :=
  vFp_gives he (fun k => by simp only [State.charge_readV, State.charge_mode]) hfl

/-- Floating-point lanes that raise no flag. -/
theorem vFp_givesQuietly {subs : Slot → Nat → List W32} {f : Slot → Nat → F32} {g : Nat → W32} (he : exec i s = vFp i s d m subs f)
    (hg : ∀ k, f s.charge.cur k = ⟨g k, 0⟩) : GivesLanes i s d (s.cur.readP m) g 0 :=
  vFp_gives (g := fun k => ⟨g k, 0⟩) he hg fun j _ => by simp

theorem vFp2_givesQuietly {a b : RegNo} {f : Mode → W32 → W32 → F32} {g : Nat → W32} (he : exec i s = vFp2 i s d a b m f)
    (hg : ∀ k, f s.cur.mode (lane (s.cur.readV a) k) (lane (s.cur.readV b) k) = ⟨g k, 0⟩) : GivesLanes i s d (s.cur.readP m) g 0 :=
  vFp_givesQuietly he fun k => by simp only [State.charge_readV, State.charge_mode, hg]

theorem vFp1_givesQuietly {a : RegNo} {f : Mode → W32 → F32} {g : Nat → W32} (he : exec i s = vFp1 i s d a m f)
    (hg : ∀ k, f s.cur.mode (lane (s.cur.readV a) k) = ⟨g k, 0⟩) : GivesLanes i s d (s.cur.readP m) g 0 :=
  vFp_givesQuietly he fun k => by simp only [State.charge_readV, State.charge_mode, hg]

theorem vCvt_gives {sub : Slot → Nat → Bool} {f : Slot → Nat → W32 × Flags} {g : Nat → W32} {gs : Nat → Flags} {fl : Flags}
    (he : exec i s = vCvt i s d m sub f) (hg : ∀ k, f s.charge.cur k = (g k, gs k)) (hfl : Gathers (s.cur.readP m) gs fl) :
    GivesLanes i s d (s.cur.readP m) g fl := by
  refine givesLanes_of_fixed _ (fun x => x.readP m) (fun x k => (f x k).1) (fun x => laneFlags (x.readP m) fun k => (f x k).2) he
    (State.charge_readP ..) (fun k _ _ => by rw [hg]) ?_
  simp only [State.charge_readP, hg]
  exact Gathers.eq (laneFlags_gathers _ _) hfl

theorem vToP_gives {d m : PredNo} {sub : Slot → Nat → Bool} {f : Slot → Nat → Bool × Flags} {rel : Nat → Prop} {v : Pred} {fl : Flags}
    (he : exec i s = vToP i s d m sub f) (hv : Marks (s.cur.readP m) rel v) (hr : ∀ k, (f s.charge.cur k).1 = true ↔ rel k)
    (hfl : laneFlags (s.cur.readP m) (fun k => (f s.charge.cur k).2) = fl) : GivesP i s d v fl := by
  intro h
  obtain ⟨t, ht, hret, hs, hf⟩ := fixed_givesPraise (i := i) (s := s) (fun x => anyLane (x.readP m) (sub x)) d
    (fun x => BitVec.ofNat 16 (maskOf 16 fun k => (x.readP m).getLsbD k && (f x k).1)) (fun x => laneFlags (x.readP m) fun k => (f x k).2) h
  rw [State.charge_readP] at hs hf
  rw [hv.eq hr] at hs
  rw [hfl] at hf
  exact ⟨t, he.trans ht, hret, hs, hf⟩

end

/-! ### Lane arithmetic -/

theorem shAmt32_eq (y : W32) : shAmt32 y = y.toNat % 32 := by
  simp [shAmt32, BitVec.extractLsb'_toNat]

theorem slt_min32 (x y : W32) : (if y.slt x then y else x) = if x.toInt ≤ y.toInt then x else y := by
  by_cases h : x.toInt ≤ y.toInt
  · rw [if_pos h, if_neg (by simpa [BitVec.slt] using h)]
  · rw [if_neg h, if_pos (by simpa [BitVec.slt] using h)]

theorem slt_max32 (x y : W32) : (if x.slt y then y else x) = if y.toInt ≤ x.toInt then x else y := by
  by_cases h : y.toInt ≤ x.toInt
  · rw [if_pos h, if_neg (by simpa [BitVec.slt] using h)]
  · rw [if_neg h, if_pos (by simpa [BitVec.slt] using h)]

theorem ult_min32 (x y : W32) : (if y.ult x then y else x) = if x.toNat ≤ y.toNat then x else y := by
  by_cases h : x.toNat ≤ y.toNat
  · rw [if_pos h, if_neg (by simpa [BitVec.ult] using h)]
  · rw [if_neg h, if_pos (by simpa [BitVec.ult] using h)]

theorem ult_max32 (x y : W32) : (if x.ult y then y else x) = if y.toNat ≤ x.toNat then x else y := by
  by_cases h : y.toNat ≤ x.toNat
  · rw [if_pos h, if_neg (by simpa [BitVec.ult] using h)]
  · rw [if_neg h, if_pos (by simpa [BitVec.ult] using h)]

theorem add32_eq (x y : W32) : x + y = BitVec.ofInt 32 (x.toInt + y.toInt) := by
  rw [BitVec.ofInt_add, BitVec.ofInt_toInt, BitVec.ofInt_toInt]

theorem neg32_eq (x : W32) : -x = BitVec.ofInt 32 (-x.toInt) := by
  rw [BitVec.ofInt_neg, BitVec.ofInt_toInt]

theorem sub32_eq (x y : W32) : x - y = BitVec.ofInt 32 (x.toInt - y.toInt) := by
  rw [sub_eq_add_neg x.toInt, BitVec.ofInt_add, BitVec.ofInt_neg, BitVec.ofInt_toInt, BitVec.ofInt_toInt, BitVec.sub_eq_add_neg]

theorem mul32_eq (x y : W32) : x * y = BitVec.ofInt 32 (x.toInt * y.toInt) := by
  rw [BitVec.ofInt_mul, BitVec.ofInt_toInt, BitVec.ofInt_toInt]

theorem mulh32_eq (x y : W32) : (x.signExtend 64 * y.signExtend 64).extractLsb' 32 32 = BitVec.ofInt 32 (x.toInt * y.toInt / 2 ^ 32) := by
  have hi (v : Int) : (BitVec.ofInt 64 v).extractLsb' 32 32 = BitVec.ofInt 32 (v / 2 ^ 32) := by
    apply BitVec.eq_of_toNat_eq
    simp only [BitVec.extractLsb'_toNat, BitVec.toNat_ofInt, Nat.shiftRight_eq_div_pow]
    omega
  rw [← hi, BitVec.ofInt_mul]
  rfl

theorem abs32_eq (x : W32) : (if x.msb then -x else x) = BitVec.ofInt 32 (x.toInt.natAbs : Int) := by
  rw [BitVec.msb_eq_toInt]
  by_cases h : x.toInt < 0
  · rw [decide_eq_true h, if_pos rfl, neg32_eq]
    congr 1
    omega
  · rw [decide_eq_false h, if_neg Bool.false_ne_true, show (x.toInt.natAbs : Int) = x.toInt by omega, BitVec.ofInt_toInt]

/-- Settles O16: each instruction is `vInt` of the operation that the statement writes on a lane. -/
theorem vectorIntegerResults : Obligations.VectorIntegerResults := by
  intro s d a b c m act x y z gives wrap
  refine ⟨vInt2_gives (exec_vadd ..) fun k => add32_eq .., vInt2_gives (exec_vsub ..) fun k => sub32_eq ..,
    vInt2_gives (exec_vmul ..) fun k => mul32_eq .., vInt2_gives (exec_vmulh ..) fun k => mulh32_eq ..,
    vInt2_gives (exec_vand ..) fun k => rfl, vInt2_gives (exec_vor ..) fun k => rfl, vInt2_gives (exec_vxor ..) fun k => rfl,
    vInt2_gives (exec_vshl ..) fun k => ?_, vInt2_gives (exec_vshr ..) fun k => ?_, vInt2_gives (exec_vsra ..) fun k => ?_,
    vInt2_gives (exec_vmin ..) fun k => slt_min32 .., vInt2_gives (exec_vmax ..) fun k => slt_max32 ..,
    vInt2_gives (exec_vminn ..) fun k => ult_min32 .., vInt2_gives (exec_vmaxn ..) fun k => ult_max32 ..,
    vInt_gives (exec_vabs ..) fun k => ?_, vInt_gives (exec_vneg ..) fun k => ?_, vInt_gives (exec_vclz ..) fun k => ?_,
    vInt_gives (exec_vpopc ..) fun k => ?_, vInt_gives (exec_vma ..) fun k => ?_⟩
  · rw [shAmt32_eq]
  · rw [shAmt32_eq]
  · rw [shAmt32_eq]
  all_goals simp only [State.charge_readV]
  · exact abs32_eq _
  · exact neg32_eq _
  · rw [clz_eq]
    exact (BitVec.ofInt_natCast ..).symm
  · rw [popc_eq]
    exact (BitVec.ofInt_natCast ..).symm
  · rw [mul32_eq]
    exact (congrArg _ (BitVec.ofInt_toInt).symm).trans (BitVec.ofInt_add ..).symm

/-- Settles O17: the predicate by its marks, the flag by the flags of the lanes together. -/
theorem vectorCompares : Obligations.VectorCompares := by
  intro s d m a b cc fc v w fl act x y
  refine ⟨fun hv => vToP_gives (exec_vcmp ..) hv (fun k => ?_) (laneFlags_zero _), fun hw h16 h0 => vToP_gives (exec_vfcmp ..) hw (fun k => ?_) ?_⟩
  · simp only [State.charge_readV]
    exact condHolds_iff ..
  · simp only [State.charge_readV]
    exact f32cmp_iff ..
  · simp only [State.charge_readV]
    by_cases h : ∃ k, k < 16 ∧ act.getLsbD k = true ∧ FSignals fc (x k) (y k)
    · rw [h16.2 h]
      obtain ⟨k, hk, hact, hsig⟩ := h
      refine Gathers.eq (laneFlags_gathers _ _) fun j hj => ⟨fun h => ⟨k, hk, hact, ?_⟩, fun ⟨n, _, _, hn⟩ => ?_⟩
      · rwa [(f32cmp_flag ..).1 hsig]
      · by_cases hs : FSignals fc (x n) (y n)
        · rwa [(f32cmp_flag ..).1 hs] at hn
        · rw [(f32cmp_flag ..).2 hs] at hn
          simp at hn
    · rw [h0.2 h]
      refine Gathers.eq (laneFlags_gathers _ _) fun j hj => ⟨fun h => by simp at h, fun ⟨n, hn, hact, hf⟩ => ?_⟩
      rw [(f32cmp_flag ..).2 fun hs => h ⟨n, hn, hact, hs⟩] at hf
      simp at hf

/-! ### Movement of lanes -/

theorem laneIx_eq (b : W64) : laneIx b = b.toNat % 16 := by
  simp [laneIx, BitVec.extractLsb'_toNat]

theorem all_lanes (k : Nat) (h : k < 16) : (0xFFFF : Pred).getLsbD k = true := by
  have : ∀ k < 16, (0xFFFF : Pred).getLsbD k = true := by decide
  exact this k h

/-- A write of a whole vector register is one of lanes: of all of them, or of those that do not keep their value. -/
theorem writeV_eq_writeLanes (x : Slot) (d : RegNo) (f g : Nat → W32) (act : Pred)
    (h : ∀ k, k < 16 → f k = if act.getLsbD k = true then g k else lane (x.readV d) k) : x.writeV d (vecOf f) = x.writeLanes d act g := by
  unfold Slot.writeLanes vecOf
  congr 2
  funext k
  exact h k.val k.isLt

section
variable {i : Instr} {s : State} {d : RegNo}

/-- A fixed-latency instruction that writes a whole vector register, of which the lanes outside `act` keep their values. -/
theorem givesLanes_of_writeV {f : Slot → Nat → W32} {act : Pred} {g : Nat → W32} (he : exec i s = fixed i s (fun _ => false) fun x => x.writeV d (vecOf (f x)))
    (h : ∀ k, k < 16 → f s.charge.cur k = if act.getLsbD k = true then g k else lane (s.cur.readV d) k) : GivesLanes i s d act g 0 := by
  intro hc
  obtain ⟨t, ht, hr, hregs, hfl⟩ := fixed_plain (i := i) (s := s) (fun _ => false) (fun x => x.writeV d (vecOf (f x))) (fun _ => rfl) hc
  refine ⟨t, he.trans ht, hr, ?_, ?_⟩
  · refine ((Slot.writeLanes_sets s.charge.cur d act g).of_regs (hregs.trans ?_)).from_regs (by simp)
    rw [writeV_eq_writeLanes _ _ _ g act fun k hk => by rw [h k hk, State.charge_readV]]
  · rw [hfl]
    simp [Slot.writeV]

theorem gives_of_fixed {f : Slot → W64} {v : W64} (he : exec i s = fixed i s (fun _ => false) fun x => x.writeG d (f x)) (hv : f s.charge.cur = v) :
    Gives i s d v := by
  intro h
  rw [he, ← hv]
  exact fixed_gives (fun _ => false) d f h

end

/-- The number of the lane VINS writes. -/
theorem oneBit_getLsbD {n k : Nat} (hk : k < 16) : (BitVec.ofNat 16 (2 ^ n)).getLsbD k = decide (n = k) := by
  rw [BitVec.getLsbD_ofNat, decide_eq_true hk, Bool.true_and, Nat.testBit_two_pow]

/-- Settles O18: the masked forms are `vInt`; the others write a whole register. -/
theorem laneMovement : Obligations.LaneMovement := by
  intro s d a b m act x y low ix
  refine ⟨givesLanes_of_writeV (exec_vsel ..) fun k hk => ?_, vInt_gives (exec_vbcast ..) fun k => charge_lo32 .., gives_of_fixed (exec_vext ..) ?_,
    givesLanes_of_writeV (exec_vins ..) fun k hk => ?_, vInt_gives (exec_vperm ..) fun k => ?_, vInt_gives (exec_viota ..) fun k => ?_,
    givesLanes_of_writeV (exec_vcomp ..) fun k hk => ?_, vInt_gives (exec_vslide ..) fun k => ?_⟩
  · rw [if_pos (all_lanes k hk)]
    simp only [State.charge_readP, State.charge_readV]
    rfl
  · simp only [State.charge_readV, State.charge_readG, laneIx_eq]
    rfl
  · rw [oneBit_getLsbD hk]
    simp only [State.charge_readV, State.charge_readG, laneIx_eq, decide_eq_true_eq, eq_comm (a := k)]
    rfl
  · simp only [State.charge_readV, BitVec.extractLsb'_toNat, Nat.shiftRight_zero]
    rfl
  · simp only [State.charge_readP, List.countP_eq_length_filter]
    rfl
  · rw [if_pos (all_lanes k hk)]
    simp only [State.charge_readP, State.charge_readV]
    rfl
  · simp only [State.charge_readG, State.charge_readV]
    rfl

/-- Settles O19: each instruction is `vFp` of the operation that the statement writes on a lane. -/
theorem vectorFpResults : Obligations.VectorFpResults := by
  intro s d a b c m act md x y z gives
  refine ⟨fun fl h => vFp2_gives (exec_vfadd ..) h, fun fl h => vFp2_gives (exec_vfsub ..) h, fun fl h => vFp2_gives (exec_vfmul ..) h,
    ⟨fun k => f32min (x k) (y k), fun k => f32min_isMin .., vFp2_givesQuietly (exec_vfmin ..) fun k => rfl⟩,
    ⟨fun k => f32max (x k) (y k), fun k => f32max_isMax .., vFp2_givesQuietly (exec_vfmax ..) fun k => rfl⟩,
    fun f hn hf => vFp1_givesQuietly (exec_vfabs ..) fun k => ?_, fun f hn hf => vFp1_givesQuietly (exec_vfneg ..) fun k => ?_,
    fun fl h => vFused_gives (exec_vfma ..) h, fun fl h => vFused_gives (exec_vfms ..) h, fun fl h => vFused_gives (exec_vfnma ..) h⟩
  · have hnan := isNan32_iff (x k)
    by_cases h : IsNaN (x k)
    · rw [if_pos (hnan.2 h), hn k h]
      rfl
    · rw [if_neg (mt hnan.1 h), hf k h]
  · have hnan := isNan32_iff (x k)
    by_cases h : IsNaN (x k)
    · rw [if_pos (hnan.2 h), hn k h]
      rfl
    · rw [if_neg (mt hnan.1 h), hf k h]

end Sys2Proof.Machine
end


section
/-! SUPPORT. The VFN group, conversions and predicates (R307, R308, R314). -/

namespace Sys2Proof.Machine

/-! ### The VFN group -/

section
variable {i : Instr} {s : State} {d : RegNo} {la : BitVec 4} {m : PredNo}

/-- A long-latency instruction that writes the active lanes of a vector register. -/
theorem long_givesLanesLater {body : State → Act} {lat : Nat} {sub : Bool} {act : Pred} {f : Nat → W32} {fl : Flags}
    (he : exec i s = issue i s body) (hb : body s.charge = longResult i s.charge lat sub fun x => (x.writeLanes d act f).raise fl)
    (hla : (infoOf i).la = la.toNat) (hd : (infoOf i).dests = [.v d]) :
    GivesLanesLater i s d act f fl la.toNat (lat + if sub then 6 else 0) := by
  intro h
  obtain ⟨t, o, ht, ho, hop, hregs, hfl, h1, h2, h3, h4⟩ :=
    long_sets (fun _ => lat) (fun _ => sub) (fun x => (x.writeLanes d act f).raise fl) (fun x => rfl) h
  rw [issue_go _ h] at ht
  refine ⟨t, o, ?_, ho, hop, ?_, hfl.trans ?_, h1.trans hla, h2.trans hd, h3, h4⟩
  · rw [he, issue_go _ h, hb]
    exact ht
  · exact ((Slot.writeLanes_sets s.charge.cur d act f).of_regs (hregs.trans rfl)).from_regs (by simp)
  · simp [Slot.raise, Slot.writeLanes, Slot.writeV]

/-- A lane has service charged where one of its operands or its result is subnormal (R300). -/
theorem vFn_later {lat : Nat} {subs : Slot → Nat → List W32} {f : Slot → Nat → F32} {g : Nat → F32} {fl : Flags} {slow : Prop}
    (he : exec i s = vFn i s d m lat subs f) (hla : (infoOf i).la = la.toNat) (hd : (infoOf i).dests = [.v d]) (hg : ∀ k, f s.charge.cur k = g k)
    (hslow : slow ↔ ∃ k, k < 16 ∧ (s.cur.readP m).getLsbD k = true ∧ anySub ((g k).bits :: subs s.charge.cur k) = true)
    (hfl : Gathers (s.cur.readP m) (fun k => (g k).flags) fl) :
    (¬slow → GivesLanesLater i s d (s.cur.readP m) (fun k => (g k).bits) fl la.toNat lat) ∧
    (slow → GivesLanesLater i s d (s.cur.readP m) (fun k => (g k).bits) fl la.toNat (lat + 6)) := by
  have hsub := anyLane_iff (s.cur.readP m) fun k => anySub ((g k).bits :: subs s.charge.cur k)
  rw [← hslow] at hsub
  have later := long_givesLanesLater (la := la) (lat := lat) (sub := anyLane (s.cur.readP m) fun k => anySub ((g k).bits :: subs s.charge.cur k))
    (act := s.cur.readP m) (f := fun k => (g k).bits) (fl := fl) he ?_ hla hd
  · exact ⟨fun h => by rwa [if_neg (mt hsub.1 h)] at later, fun h => by rwa [if_pos (hsub.2 h)] at later⟩
  · simp only [longResult, State.updCur, State.charge_readP, hg, ← Gathers.eq (laneFlags_gathers _ _) hfl]

end

theorem vFn1_later {i : Instr} {s : State} {d a : RegNo} {la : BitVec 4} {m : PredNo} {lat : Nat} {f : Mode → W32 → F32} {g : W32 → F32} {fl : Flags}
    {other : Nat → Prop}
    (he : exec i s = vFn1 i s d a m lat f) (hla : (infoOf i).la = la.toNat) (hd : (infoOf i).dests = [.v d]) (hg : f s.cur.mode = g) :
    let x := fun k => lane (s.cur.readV a) k
    let slow : Prop := ∃ k, k < 16 ∧ (s.cur.readP m).getLsbD k = true ∧ (Subnormal (x k) ∨ (false = true ∧ other k) ∨ Subnormal (g (x k)).bits)
    Gathers (s.cur.readP m) (fun k => (g (x k)).flags) fl →
      (¬slow → GivesLanesLater i s d (s.cur.readP m) (fun k => (g (x k)).bits) fl la.toNat lat) ∧
      (slow → GivesLanesLater i s d (s.cur.readP m) (fun k => (g (x k)).bits) fl la.toNat (lat + 6)) := by
  intro x slow hfl
  refine vFn_later he hla hd (fun k => by simp only [State.charge_readV, State.charge_mode, hg]; rfl) ?_ hfl
  simp only [slow, State.charge_readV, anySub, List.any_cons, List.any_nil, Bool.or_false, Bool.or_eq_true, isSub32_iff, Bool.false_eq_true,
    false_and, false_or, or_comm]
  rfl

/-- Settles O20: each instruction is `vFn` of the operation that the statement writes, with the latency of Table 14.1. -/
theorem vectorFunctionResults : Obligations.VectorFunctionResults := by
  intro s d a b la m fl act md x y gives
  refine ⟨fun hfl => vFn_later (exec_vfdiv ..) rfl rfl (fun k => ?_) ?_ hfl, vFn1_later (exec_vfsqrt ..) rfl rfl rfl,
    vFn1_later (exec_vfrcp ..) rfl rfl rfl, vFn1_later (exec_vfrsq ..) rfl rfl rfl, vFn1_later (exec_vfexp2 ..) rfl rfl rfl,
    vFn1_later (exec_vflog2 ..) rfl rfl rfl⟩
  · simp only [State.charge_readV, State.charge_mode]
    rfl
  · simp only [State.charge_readV, anySub, List.any_cons, List.any_nil, Bool.or_false, Bool.or_eq_true, isSub32_iff, true_and]
    refine exists_congr fun k => and_congr_right fun _ => and_congr_right fun _ => ?_
    rw [or_comm (a := Subnormal (f32div _ _ _).bits), or_assoc]

/-! ### Conversions -/

theorem halfOf_eq (v : W32) (h : Bool) : halfOf v h = v.toNat / 2 ^ (if h then 16 else 0) % 2 ^ 16 := by
  rw [halfOf, BitVec.extractLsb'_toNat, Nat.shiftRight_eq_div_pow]

theorem byteOf_eq (v : W32) (q : BitVec 2) : byteOf v q = v.toNat / 2 ^ (8 * q.toNat) % 2 ^ 8 := by
  rw [byteOf, BitVec.extractLsb'_toNat, Nat.shiftRight_eq_div_pow]

theorem halves_eq (p q : Nat) : (BitVec.ofNat 16 q ++ BitVec.ofNat 16 p : W32) = BitVec.ofNat 32 (q % 2 ^ 16 * 2 ^ 16 + p % 2 ^ 16) := by
  apply BitVec.eq_of_toNat_eq
  rw [BitVec.toNat_append, BitVec.toNat_ofNat, BitVec.toNat_ofNat, BitVec.toNat_ofNat, Nat.shiftLeft_eq, Nat.mul_comm,
    ← Nat.two_pow_add_eq_or_of_lt (Nat.mod_lt _ (by omega))]
  omega

/-- A byte clamped to its signed range, modulo 2^8. -/
theorem clampByte_eq (v : W32) :
    (BitVec.ofInt 8 (if v.toInt < -128 then -128 else if 127 < v.toInt then 127 else v.toInt)).toNat % 256 =
      (if v.toInt < -128 then 0x80 else if 127 < v.toInt then 0x7F else v.toNat % 256) % 256 := by
  by_cases h1 : v.toInt < -128
  · rw [if_pos h1, if_pos h1]
    rfl
  by_cases h2 : 127 < v.toInt
  · rw [if_neg h1, if_neg h1, if_pos h2, if_pos h2]
    rfl
  · rw [if_neg h1, if_neg h1, if_neg h2, if_neg h2, BitVec.toNat_ofInt, BitVec.toInt_eq_toNat_cond]
    split <;> omega

/-- A byte sign-extended to a lane. -/
theorem signByte_eq {b : Nat} (hb : b < 256) : (BitVec.ofNat 8 b).signExtend 32 = BitVec.ofInt 32 (if b < 128 then (b : Int) else (b : Int) - 256) := by
  have h : (BitVec.ofNat 8 b).toNat = b := by
    rw [BitVec.toNat_ofNat]
    omega
  rw [BitVec.signExtend, BitVec.toInt_eq_toNat_cond, h]
  congr 1
  split <;> split <;> omega

section
variable {i : Instr} {s : State} {d a b : RegNo} {m : PredNo} {fm : Fmt} {fl : Flags}

theorem cvtPair_gives (he : exec i s = cvtPair i s d a b m fm) :
    let p k := narrow32 fm s.cur.mode (lane (s.cur.readV a) k)
    let q k := narrow32 fm s.cur.mode (lane (s.cur.readV b) k)
    Gathers (s.cur.readP m) (fun k => (p k).flags ||| (q k).flags) fl →
      GivesLanes i s d (s.cur.readP m) (fun k => BitVec.ofNat 32 ((q k).bits % 2 ^ 16 * 2 ^ 16 + (p k).bits % 2 ^ 16)) fl := by
  intro p q hfl
  refine vCvt_gives he (fun k => ?_) hfl
  simp only [State.charge_readV, State.charge_mode, halves_eq]
  rfl

theorem cvtHalf_gives {h : Bool} (he : exec i s = cvtHalf i s d a h m fm) (hfl : Gathers (s.cur.readP m) (fun _ => 0) fl) :
    GivesLanes i s d (s.cur.readP m) (fun k => widen32 fm ((lane (s.cur.readV a) k).toNat / 2 ^ (if h then 16 else 0) % 2 ^ 16)) fl :=
  vCvt_gives he (fun k => by simp only [State.charge_readV, halfOf_eq]) hfl

theorem cvtOfByte_gives {q : BitVec 2} (he : exec i s = cvtOfByte i s d a q m fm) (hfl : Gathers (s.cur.readP m) (fun _ => 0) fl) :
    GivesLanes i s d (s.cur.readP m) (fun k => widen32 fm ((lane (s.cur.readV a) k).toNat / 2 ^ (8 * q.toNat) % 2 ^ 8)) fl :=
  vCvt_gives he (fun k => by simp only [State.charge_readV, byteOf_eq]) hfl

theorem cvtToByte_gives {q : BitVec 2} (he : exec i s = cvtToByte i s d a q m fm)
    (hfl : Gathers (s.cur.readP m) (fun k => (narrow32 fm s.cur.mode (lane (s.cur.readV a) k)).flags) fl) :
    GivesLanes i s d (s.cur.readP m)
      (fun k => putByte (lane (s.cur.readV d) k) q (narrow32 fm s.cur.mode (lane (s.cur.readV a) k)).bits) fl :=
  vCvt_gives he (fun k => by simp only [State.charge_readV, State.charge_mode]) hfl

end

/-- Settles O21: each instruction is `vCvt` of the conversion that the statement writes on a lane. -/
theorem conversionResults : Obligations.ConversionResults := by
  intro s d a b h q m act md x y half byte put gives pair
  refine ⟨fun fl => cvtPair_gives (exec_vcvtF2bf ..), fun fl => cvtPair_gives (exec_vcvtF2h ..),
    fun fl => cvtHalf_gives (exec_vcvtBf2f ..), fun fl => cvtHalf_gives (exec_vcvtH2f ..),
    fun fl => cvtToByte_gives (exec_vcvtF2e4 ..), fun fl => cvtToByte_gives (exec_vcvtF2e5 ..),
    fun fl => cvtOfByte_gives (exec_vcvtE42f ..), fun fl => cvtOfByte_gives (exec_vcvtE52f ..),
    fun fl => vCvt_gives (exec_vcvtF2i ..) fun k => ?_, fun fl => vCvt_gives (exec_vcvtF2n ..) fun k => ?_,
    fun fl => vCvt_gives (exec_vcvtI2f ..) fun k => ?_, fun fl => vCvt_gives (exec_vcvtN2f ..) fun k => ?_,
    fun fl => vCvt_gives (exec_vcvtI2b ..) fun k => ?_, fun fl => vCvt_gives (exec_vcvtB2i ..) fun k => ?_⟩
  all_goals simp only [State.charge_readV, State.charge_mode]
  · rfl
  · rfl
  · rfl
  · rfl
  · rw [putByte, clampByte_eq]
    rfl
  · rw [byteOf_eq, signByte_eq (Nat.mod_lt _ (by norm_num) : _ < 2 ^ 8)]

/-! ### Predicates -/

section
variable {i : Instr} {s : State} {d : PredNo}

theorem predP_gives {f : Slot → Pred} {v : Pred} (he : exec i s = predP i s d f) (hv : f s.charge.cur = v) : GivesP i s d v 0 := by
  intro h
  rw [he, ← hv]
  exact fixed_givesP (fun _ => false) d f h

end

/-- The first lane that satisfies a test, or the number of lanes where none does. -/
theorem find_first {n : Nat} {p : Nat → Bool} {N : Nat} (hn : n < N ∧ p n = true ∨ n = N) (h : ∀ k, k < n → p k = false) :
    ((List.range N).find? p).getD N = n := by
  rcases hn with ⟨hlt, hp⟩ | rfl
  · rw [List.find?_range_eq_some.2 ⟨hp, List.mem_range.2 hlt, fun k hk => by simp [h k hk]⟩]
    rfl
  · rw [List.find?_eq_none.2 fun k hk => by simp [h k (List.mem_range.1 hk)]]
    rfl

/-- Settles O23. -/
theorem predicateResults : Obligations.PredicateResults := by
  intro s d a b g n x y
  refine ⟨predP_gives (exec_pand ..) ?_, predP_gives (exec_por ..) ?_, predP_gives (exec_pxor ..) ?_, predP_gives (exec_pandn ..) ?_,
    predP_gives (exec_pnot ..) ?_, predP_gives (exec_pset ..) ?_, gives_of_fixed (exec_pcnt ..) ?_,
    fun hn h => gives_of_fixed (exec_pfirst ..) ?_, gives_of_fixed (exec_pgets ..) ?_⟩
  all_goals simp only [State.charge_readP, State.charge_readG]
  · rfl
  · rfl
  · rfl
  · rfl
  · rfl
  · apply BitVec.eq_of_toNat_eq
    simp [BitVec.extractLsb'_toNat]
  · rw [popc_eq]
  · rw [find_first hn h]
  · rfl

end Sys2Proof.Machine
end


section
/-! SUPPORT. Reductions and scans (R55, R312, R313): the tree over lanes, what it gives for an associative operation, and running results. -/

namespace Sys2Proof.Machine

/-! ### The tree of R55 -/

theorem redLevel_append (op : RedOp) (mode : Mode) : ∀ (l l' : List W32), l.length % 2 = 0 →
    (redLevel op mode (l ++ l')).1 = (redLevel op mode l).1 ++ (redLevel op mode l').1 ∧
    (redLevel op mode (l ++ l')).2.1 = (redLevel op mode l).2.1 ||| (redLevel op mode l').2.1
  | [], l', _ => by simp [redLevel]
  | [_], _, h => absurd h (by simp)
  | x :: y :: l, l', h => by
    obtain ⟨h1, h2⟩ := redLevel_append op mode l l' (by simp only [List.length_cons] at h; omega)
    simp only [List.cons_append, redLevel, h1, h2, BitVec.or_assoc, and_self]

theorem redLevel_length (op : RedOp) (mode : Mode) : ∀ (n : Nat) (l : List W32), l.length = 2 * n → (redLevel op mode l).1.length = n
  | 0, l, h => by rw [List.length_eq_zero_iff.1 h]; rfl
  | n + 1, x :: y :: l, h => by
    simp only [redLevel, List.length_cons]
    rw [redLevel_length op mode n l (by simpa [Nat.mul_add] using h)]
  | n + 1, [], h => absurd h (by simp)
  | n + 1, [_], h => absurd h (by simp; omega)

theorem or_regroup (a b c d e : Flags) : a ||| b ||| (c ||| d ||| e) = a ||| c ||| (b ||| d) ||| e := by
  ac_rfl

/-- The tree over two halves combines their results, the lower half on the left. -/
theorem redTree_halves (op : RedOp) (mode : Mode) (n : Nat) (l l' : List W32) (h : l.length = 2 ^ n) (h' : l'.length = 2 ^ n) :
    let r := redTree op mode n l
    let r' := redTree op mode n l'
    let t := redTree op mode (n + 1) (l ++ l')
    t.1 = (redComb op mode r.1 r'.1).bits ∧ t.2.1 = r.2.1 ||| r'.2.1 ||| (redComb op mode r.1 r'.1).flags := by
  induction n generalizing l l' with
  | zero =>
    obtain ⟨x, rfl⟩ := List.length_eq_one_iff.1 h
    obtain ⟨y, rfl⟩ := List.length_eq_one_iff.1 h'
    simp [redTree, redLevel]
  | succ n ih =>
    obtain ⟨hv, hf⟩ := redLevel_append op mode l l' (by rw [h, Nat.pow_succ]; omega)
    have hl := redLevel_length op mode (2 ^ n) l (by rw [h, Nat.pow_succ]; omega)
    have hl' := redLevel_length op mode (2 ^ n) l' (by rw [h', Nat.pow_succ]; omega)
    obtain ⟨iv, if_⟩ := ih _ _ hl hl'
    rw [← hv] at iv if_
    intro r r' t
    have ht : t = redTree op mode (n + 2) (l ++ l') := rfl
    rw [redTree] at ht
    refine ⟨ht ▸ iv, ?_⟩
    rw [ht]
    dsimp only
    rw [if_, hf, or_regroup]
    rfl

/-- The levels of VRED make the tree of R55 over its entering lanes. -/
theorem redTree_eq (op : RedOp) (mode : Mode) (leaf : Nat → W32) (n k : Nat) :
    let r := redTree op mode n ((List.range' k (2 ^ n)).map leaf)
    (r.1, r.2.1) = treeOf (redComb op mode) leaf n k := by
  induction n generalizing k with
  | zero => rfl
  | succ n ih =>
    have hsplit : (List.range' k (2 ^ (n + 1))).map leaf = (List.range' k (2 ^ n)).map leaf ++ (List.range' (k + 2 ^ n) (2 ^ n)).map leaf := by
      rw [← List.map_append, Nat.pow_succ, Nat.mul_two]
      congr 1
      simp
    obtain ⟨hv, hf⟩ := redTree_halves op mode n ((List.range' k (2 ^ n)).map leaf) ((List.range' (k + 2 ^ n) (2 ^ n)).map leaf) (by simp) (by simp)
    intro r
    rw [treeOf, ← ih k, ← ih (k + 2 ^ n)]
    dsimp only
    rw [← hv, ← hf, ← hsplit]

theorem treeOf_flags_zero {f : W32 → W32 → F32} (hf : ∀ x y, (f x y).flags = 0) (leaf : Nat → W32) (n k : Nat) : (treeOf f leaf n k).2 = 0 := by
  induction n generalizing k with
  | zero => rfl
  | succ n ih =>
    rw [treeOf]
    simp [ih, hf]

/-! ### Associative operations -/

/-- An associative operation with an identity. -/
structure Merges (g : W32 → W32 → W32) (e : W32) : Prop where
  assoc : ∀ a b c, g (g a b) c = g a (g b c)
  left : ∀ a, g e a = a
  right : ∀ a, g a e = a

theorem Merges.foldl {g : W32 → W32 → W32} {e : W32} (hg : Merges g e) (l : List W32) (a : W32) : l.foldl g a = g a (l.foldl g e) := by
  induction l generalizing a with
  | nil => exact (hg.right a).symm
  | cons x l ih => rw [List.foldl_cons, List.foldl_cons, ih, ih (g e x), hg.left, hg.assoc]

/-- The tree of an associative operation is its fold over the lanes. -/
theorem Merges.tree {g : W32 → W32 → W32} {e : W32} (hg : Merges g e) {f : W32 → W32 → F32} (hf : ∀ x y, (f x y).bits = g x y)
    (leaf : Nat → W32) (n k : Nat) : (treeOf f leaf n k).1 = ((List.range' k (2 ^ n)).map leaf).foldl g e := by
  induction n generalizing k with
  | zero => exact (hg.left _).symm
  | succ n ih =>
    have hsplit : List.range' k (2 ^ (n + 1)) = List.range' k (2 ^ n) ++ List.range' (k + 2 ^ n) (2 ^ n) := by
      rw [Nat.pow_succ, Nat.mul_two]
      simp
    rw [treeOf]
    dsimp only
    rw [hf, ih, ih, hsplit, List.map_append, List.foldl_append, ← hg.foldl]

/-- Lanes that enter as the identity leave the fold as it is. -/
theorem Merges.active {g : W32 → W32 → W32} {e : W32} (hg : Merges g e) (act : Pred) (x : Nat → W32) (l : List Nat) (a : W32) :
    (l.map fun k => if act.getLsbD k = true then x k else e).foldl g a = ((l.filter fun k => act.getLsbD k).map x).foldl g a := by
  induction l generalizing a with
  | nil => rfl
  | cons k l ih =>
    rw [List.map_cons, List.foldl_cons, List.filter_cons]
    by_cases h : act.getLsbD k = true
    · rw [if_pos h, if_pos h, ih, List.map_cons, List.foldl_cons]
    · rw [if_neg h, if_neg h, hg.right, ih]

/-- The result of VRED for an associative operation: its fold over the active lanes. -/
theorem Merges.treeOf_active {g : W32 → W32 → W32} {e : W32} (hg : Merges g e) {f : W32 → W32 → F32} (hf : ∀ x y, (f x y).bits = g x y)
    (act : Pred) (x : Nat → W32) :
    (treeOf f (fun k => if act.getLsbD k = true then x k else e) 4 0).1 = ((activeOf act).map x).foldl g e := by
  rw [hg.tree hf, hg.active act x, activeOf, List.range_eq_range']
  rfl

theorem merges_add : Merges (· + ·) 0 := ⟨BitVec.add_assoc, BitVec.zero_add, BitVec.add_zero⟩
theorem merges_and : Merges (· &&& ·) 0xFFFFFFFF := ⟨BitVec.and_assoc, fun a => by rw [BitVec.and_comm]; exact BitVec.and_allOnes, fun a => BitVec.and_allOnes⟩
theorem merges_or : Merges (· ||| ·) 0 := ⟨BitVec.or_assoc, fun _ => BitVec.zero_or, fun _ => BitVec.or_zero⟩
theorem merges_xor : Merges (· ^^^ ·) 0 := ⟨BitVec.xor_assoc, fun _ => BitVec.zero_xor, fun _ => BitVec.xor_zero⟩

theorem foldl_add_eq (l : List W32) (a : W32) : l.foldl (· + ·) a = a + BitVec.ofInt 32 (l.map BitVec.toInt).sum := by
  induction l generalizing a with
  | nil => exact (BitVec.add_zero a).symm
  | cons x l ih =>
    rw [List.foldl_cons, ih, List.map_cons, List.sum_cons, BitVec.ofInt_add, BitVec.ofInt_toInt, BitVec.add_assoc]

/-- The one of two values with the smaller key, the first where they are equal. -/
def pick (key : W32 → Int) (a b : W32) : W32 := if key a ≤ key b then a else b

theorem merges_pick {key : W32 → Int} {e : W32} (hinj : ∀ a b, key a = key b → a = b) (htop : ∀ a, key a ≤ key e) : Merges (pick key) e := by
  refine ⟨fun a b c => ?_, fun a => ?_, fun a => if_pos (htop a)⟩
  · unfold pick
    by_cases hab : key a ≤ key b
    · by_cases hbc : key b ≤ key c
      · rw [if_pos hab, if_pos hbc, if_pos hab, if_pos (hab.trans hbc)]
      · rw [if_pos hab, if_neg hbc]
    · by_cases hbc : key b ≤ key c
      · rw [if_neg hab, if_pos hbc, if_neg hab]
      · rw [if_neg hab, if_neg hbc, if_neg (by omega)]
  · unfold pick
    split
    · exact hinj _ _ (le_antisymm ‹_› (htop a))
    · rfl

theorem foldl_pick (key : W32 → Int) (l : List W32) (a : W32) :
    l.foldl (pick key) a ∈ a :: l ∧ ∀ v ∈ a :: l, key (l.foldl (pick key) a) ≤ key v := by
  induction l generalizing a with
  | nil => simp
  | cons x l ih =>
    obtain ⟨hm, hle⟩ := ih (pick key a x)
    rw [List.foldl_cons]
    generalize l.foldl (pick key) (pick key a x) = r at hm hle
    have hp : pick key a x = a ∧ key a ≤ key x ∨ pick key a x = x ∧ key x ≤ key a := by
      unfold pick
      split
      · exact .inl ⟨rfl, ‹_›⟩
      · exact .inr ⟨rfl, by omega⟩
    have hr : key r ≤ key (pick key a x) := hle _ (List.mem_cons_self ..)
    have hl : ∀ v ∈ l, key r ≤ key v := fun v hv => hle v (List.mem_cons_of_mem _ hv)
    rcases hp with ⟨hp, hax⟩ | ⟨hp, hxa⟩ <;> rw [hp] at hm hr
    · refine ⟨?_, ?_⟩
      · rcases List.mem_cons.1 hm with h | h <;> simp [h]
      · simp only [List.mem_cons, forall_eq_or_imp]
        exact ⟨hr, hr.trans hax, hl⟩
    · refine ⟨?_, ?_⟩
      · rcases List.mem_cons.1 hm with h | h <;> simp [h]
      · simp only [List.mem_cons, forall_eq_or_imp]
        exact ⟨hr.trans hxa, hr, hl⟩

/-- The fold of `pick` from the greatest key: the value of the smallest key, or the identity where there is none. -/
theorem foldl_pick_best {key : W32 → Int} {e : W32} (hg : Merges (pick key) e) (l : List W32) :
    (l = [] ∧ l.foldl (pick key) e = e) ∨ (l.foldl (pick key) e ∈ l ∧ ∀ v ∈ l, key (l.foldl (pick key) e) ≤ key v) := by
  cases l with
  | nil => exact .inl ⟨rfl, rfl⟩
  | cons x l =>
    rw [List.foldl_cons, hg.left]
    exact .inr (foldl_pick key l x)

/-! ### VRED -/

section
variable (s : State) (d a : RegNo) (m : PredNo)

theorem vred_givesFp (op : RedOp) :
    let tree := treeOf (redComb op s.cur.mode) (fun k => if (s.cur.readP m).getLsbD k = true then lane (s.cur.readV a) k else redIdent op) 4 0
    GivesFp (.vred d a op m) s d (redResult op tree.1) tree.2 := by
  intro tree h
  have htree := redTree_eq op s.cur.mode (fun k => if (s.cur.readP m).getLsbD k = true then lane (s.cur.readV a) k else redIdent op) 4 0
  rw [show List.range' 0 (2 ^ 4) = List.range 16 from List.range_eq_range'.symm] at htree
  obtain ⟨t, ht, hr, hs, hf⟩ := fixed_givesFp (i := .vred d a op m) (s := s)
    (fun x => redFp op && (anySub (picked (x.readP m) (x.readV a)) || (redTree op x.mode 4 (redLanes op (x.readP m) (x.readV a))).2.2)) d
    (fun x => redResult op (redTree op x.mode 4 (redLanes op (x.readP m) (x.readV a))).1)
    (fun x => (redTree op x.mode 4 (redLanes op (x.readP m) (x.readV a))).2.1) h
  simp only [State.charge_readP, State.charge_readV, State.charge_mode, redLanes] at hs hf
  refine ⟨t, (exec_vred ..).trans ht, hr, ?_, hf.trans ?_⟩
  · rw [show tree.1 = _ from congrArg Prod.fst htree.symm]
    exact hs
  · rw [show tree.2 = _ from congrArg Prod.snd htree.symm]

/-- VRED of an operation that raises no flag. -/
theorem vred_gives (op : RedOp) (hz : ∀ x y, (redComb op s.cur.mode x y).flags = 0) :
    Gives (.vred d a op m) s d (redResult op
      (treeOf (redComb op s.cur.mode) (fun k => if (s.cur.readP m).getLsbD k = true then lane (s.cur.readV a) k else redIdent op) 4 0).1) := by
  have := vred_givesFp s d a m op
  dsimp only at this
  rw [treeOf_flags_zero hz] at this
  exact this.gives

/-- VRED of an associative operation. -/
theorem vred_merges (op : RedOp) {g : W32 → W32 → W32} (hz : ∀ x y, redComb op s.cur.mode x y = ⟨g x y, 0⟩) (hg : Merges g (redIdent op)) :
    Gives (.vred d a op m) s d (redResult op (((activeOf (s.cur.readP m)).map fun k => lane (s.cur.readV a) k).foldl g (redIdent op))) := by
  have := vred_gives s d a m op fun x y => by rw [hz]
  rwa [hg.treeOf_active fun x y => by rw [hz]] at this

/-- VRED of the value with the smallest key. -/
theorem vred_best (op : RedOp) (key : W32 → Int) (hz : ∀ x y, redComb op s.cur.mode x y = ⟨pick key x y, 0⟩)
    (hinj : ∀ a b, key a = key b → a = b) (htop : ∀ a, key a ≤ key (redIdent op)) :
    let xs := (activeOf (s.cur.readP m)).map fun k => lane (s.cur.readV a) k
    ∃ r, (xs = [] ∧ r = redIdent op ∨ r ∈ xs ∧ ∀ v ∈ xs, key r ≤ key v) ∧ Gives (.vred d a op m) s d (redResult op r) :=
  ⟨_, foldl_pick_best (merges_pick hinj htop) _, vred_merges s d a m op hz (merges_pick hinj htop)⟩

end

theorem toInt_range32 (a : W32) : -2147483648 ≤ a.toInt ∧ a.toInt ≤ 2147483647 := by
  have := BitVec.toInt_lt (x := a)
  have := BitVec.le_toInt a
  omega

/-! ### VSCAN -/

theorem ite_bits {c : Prop} [Decidable c] {x y : FRes} {P : Nat → Prop} (h : c → P x.bits) (h' : ¬c → P y.bits) :
    P (if c then x else y).bits := by
  by_cases hc : c
  · rw [if_pos hc]
    exact h hc
  · rw [if_neg hc]
    exact h' hc

/-- A rounded value is no NaN. -/
theorem round_magnitude (mode : Mode) (neg : Bool) (m : Nat) (e : Int) : (fp32.round mode neg m e).bits % 2 ^ 31 ≤ 0x7F800000 := by
  have hover : fp32.overflow mode neg % 2 ^ 31 ≤ 0x7F800000 := by
    cases mode <;> cases neg <;> simp [Fmt.overflow, fp32, Fmt.infBits, Fmt.sign, Fmt.signBit]
  have hsign : fp32.sign neg % 2 ^ 31 = 0 := by
    cases neg <;> simp [fp32, Fmt.sign, Fmt.signBit]
  have htop : fp32.top = 0x7F7FFFFF := rfl
  refine ite_bits (P := fun b => b % 2 ^ 31 ≤ 0x7F800000) (fun _ => hover) fun h => ?_
  rw [htop] at h
  dsimp only at h ⊢
  omega

/-- A result of FADD is the canonical NaN where it is a NaN (R34). -/
theorem to32_canonical (mode : Mode) (x : FVal × Flags) (h : IsNaN (to32 mode x).bits) : (to32 mode x).bits = 0x7FC00000 := by
  obtain ⟨v, fl⟩ := x
  have hn (b : Nat) (hb : b % 2 ^ 31 ≤ 0x7F800000) : ¬IsNaN (BitVec.ofNat 32 b) := by
    unfold IsNaN
    rw [BitVec.toNat_ofNat]
    omega
  cases v with
  | nan => rfl
  | inf neg => exact absurd h (hn _ (by cases neg <;> simp [Fmt.ofVal, fp32, Fmt.infBits, Fmt.sign, Fmt.signBit]))
  | zero neg => exact absurd h (hn _ (by cases neg <;> simp [Fmt.ofVal, fp32, Fmt.sign, Fmt.signBit]))
  | fin neg m e => exact absurd h (hn _ (round_magnitude mode neg m e))

theorem f32min_canonical {a b : W32} (h : IsNaN (f32min a b)) : f32min a b = 0x7FC00000 := by
  rcases f32min_isMin a b with ⟨_, _, hr⟩ | ⟨_, hb, hr⟩ | ⟨ha, _, hr⟩ | ⟨ha, hb, hr | hr, _⟩
  · exact hr
  · exact absurd (hr ▸ h) hb
  · exact absurd (hr ▸ h) ha
  · exact absurd (hr ▸ h) ha
  · exact absurd (hr ▸ h) hb

theorem f32max_canonical {a b : W32} (h : IsNaN (f32max a b)) : f32max a b = 0x7FC00000 := by
  rcases f32max_isMax a b with ⟨_, _, hr⟩ | ⟨_, hb, hr⟩ | ⟨ha, _, hr⟩ | ⟨ha, hb, hr | hr, _⟩
  · exact hr
  · exact absurd (hr ▸ h) hb
  · exact absurd (hr ▸ h) ha
  · exact absurd (hr ▸ h) ha
  · exact absurd (hr ▸ h) hb

theorem redFp_iff (op : RedOp) : redFp op = true ↔ op = .fadd ∨ op = .fmin ∨ op = .fmax := by
  cases op <;> decide

/-- A value as a scan writes it: a NaN of an FP operation as the canonical one (R34). -/
def canonOf (op : RedOp) (v : W32) : W32 := if redFp op && isNan32 v then 0x7FC00000 else v

/-- A combined value is canonical already. -/
theorem canonOf_redComb (op : RedOp) (mode : Mode) (x y : W32) : canonOf op (redComb op mode x y).bits = (redComb op mode x y).bits := by
  unfold canonOf
  split
  · rename_i h
    rw [Bool.and_eq_true, redFp_iff, isNan32_iff] at h
    obtain ⟨rfl | rfl | rfl, hn⟩ := h
    · exact (to32_canonical _ _ hn).symm
    · exact (f32min_canonical hn).symm
    · exact (f32max_canonical hn).symm
  · rfl

/-- What combining a running result with the next value raises. -/
def runStep (f : W32 → W32 → F32) (x : W32) : Option W32 → Flags
  | none => 0
  | some a => (f a x).flags

theorem runOf_concat (f : W32 → W32 → F32) (x : Nat → W32) (p : List Nat) (k : Nat) :
    runOf f x (p ++ [k]) = some (match runOf f x p with | none => x k | some a => (f a (x k)).bits) := by
  cases p with
  | nil => rfl
  | cons j p => simp [runOf]

section
variable (op : RedOp) (mode : Mode) (x : Nat → W32)

/-- One lane of a scan after the lanes `p`: its value, and what the lanes after it go on from. -/
theorem scanFrom_cons (p l : List Nat) (k : Nat) :
    let r := scanFrom op mode (runOf (redComb op mode) x p) ((k :: l).map fun k => (k, x k))
    let r' := scanFrom op mode (runOf (redComb op mode) x (p ++ [k])) (l.map fun k => (k, x k))
    r.1 = (k, canonOf op ((runOf (redComb op mode) x (p ++ [k])).getD 0)) :: r'.1 ∧
      r.2.1 = runStep (redComb op mode) (x k) (runOf (redComb op mode) x p) ||| r'.2.1 := by
  rw [runOf_concat]
  cases runOf (redComb op mode) x p with
  | none => simp [scanFrom, canonOf, runStep]
  | some a =>
    have hc : (redComb op mode a (x k)).bits = canonOf op (redComb op mode a (x k)).bits := (canonOf_redComb ..).symm
    refine ⟨?_, rfl⟩
    show (k, (redComb op mode a (x k)).bits) :: _ = (k, canonOf op (redComb op mode a (x k)).bits) :: _
    rw [← hc]

/-- The numbers of a sorted list up to one of them. -/
theorem filter_le_of_sorted {p l : List Nat} {k : Nat} (h : (p ++ k :: l).Pairwise (· < ·)) :
    ((p ++ k :: l).filter fun j => decide (j ≤ k)) = p ++ [k] ∧ ((p ++ k :: l).filter fun j => decide (j < k)) = p := by
  obtain ⟨_, hl, hp⟩ := List.pairwise_append.1 h
  have hlow (j) (hj : j ∈ p) : j < k := hp j hj k (List.mem_cons_self ..)
  have hhigh (j) (hj : j ∈ l) : k < j := (List.pairwise_cons.1 hl).1 j hj
  have hp1 : (p.filter fun j => decide (j ≤ k)) = p := List.filter_eq_self.2 fun j hj => by simp [(hlow j hj).le]
  have hp2 : (p.filter fun j => decide (j < k)) = p := List.filter_eq_self.2 fun j hj => by simp [hlow j hj]
  have hl1 : (l.filter fun j => decide (j ≤ k)) = [] := List.filter_eq_nil_iff.2 fun j hj => by simp [hhigh j hj]
  have hl2 : (l.filter fun j => decide (j < k)) = [] := List.filter_eq_nil_iff.2 fun j hj => by simp [(hhigh j hj).le]
  simp [List.filter_append, hp1, hp2, hl1, hl2]

/-- What a scan writes in a lane: the running result up to it. -/
theorem scanFrom_find {w : List Nat} (hw : w.Pairwise (· < ·)) (p l : List Nat) (he : w = p ++ l) (k : Nat) (hk : k ∈ l) :
    ((scanFrom op mode (runOf (redComb op mode) x p) (l.map fun k => (k, x k))).1.find? fun e => e.1 == k).map (·.2) =
      some (canonOf op ((runOf (redComb op mode) x (w.filter fun j => decide (j ≤ k))).getD 0)) := by
  induction l generalizing p with
  | nil => exact absurd hk (List.not_mem_nil)
  | cons c l ih =>
    rw [(scanFrom_cons op mode x p l c).1]
    subst he
    by_cases h : c = k
    · subst h
      rw [(filter_le_of_sorted hw).1]
      simp
    · rw [List.find?_cons_of_neg (by simpa using h)]
      exact ih (p ++ [c]) (by simp) ((List.mem_cons.1 hk).resolve_left (Ne.symm h))

/-- The flags of a scan: those of combining each lane with the running result before it. -/
theorem scanFrom_flags {w : List Nat} (hw : w.Pairwise (· < ·)) (p l : List Nat) (he : w = p ++ l) (j : Nat) :
    (scanFrom op mode (runOf (redComb op mode) x p) (l.map fun k => (k, x k))).2.1.getLsbD j = true ↔
      ∃ k ∈ l, (runStep (redComb op mode) (x k) (runOf (redComb op mode) x (w.filter fun j => decide (j < k)))).getLsbD j = true := by
  induction l generalizing p with
  | nil => simp [scanFrom]
  | cons c l ih =>
    rw [(scanFrom_cons op mode x p l c).2, BitVec.getLsbD_or, Bool.or_eq_true, ih (p ++ [c]) (by simp [he])]
    have : (w.filter fun j => decide (j < c)) = p := by
      subst he
      exact (filter_le_of_sorted hw).2
    simp only [List.mem_cons, exists_eq_or_imp, this]

end

theorem activeOf_sorted (act : Pred) : (activeOf act).Pairwise (· < ·) := List.pairwise_lt_range.filter _

theorem mem_activeOf (act : Pred) (k : Nat) : k ∈ activeOf act ↔ k < 16 ∧ act.getLsbD k = true := by
  simp [activeOf]

section
variable (s : State) (d a : RegNo) (m : PredNo)

theorem vred_add : Gives (.vred d a .add m) s d
    ((BitVec.ofInt 32 (((activeOf (s.cur.readP m)).map fun k => lane (s.cur.readV a) k).map BitVec.toInt).sum).signExtend 64) := by
  have add := vred_merges s d a m .add (fun _ _ => rfl) merges_add
  rwa [foldl_add_eq, redIdent, show ∀ v : W32, 0 + v = v from BitVec.zero_add] at add

theorem vred_min :
    let xs := (activeOf (s.cur.readP m)).map fun k => lane (s.cur.readV a) k
    ∃ r, (xs = [] ∧ r = 0x7FFFFFFF ∨ r ∈ xs ∧ ∀ v ∈ xs, r.toInt ≤ v.toInt) ∧ Gives (.vred d a .min m) s d (r.signExtend 64) :=
  vred_best s d a m .min BitVec.toInt (fun p q => by simp only [redComb, slt_min32, pick]) (fun _ _ => BitVec.eq_of_toInt_eq)
    fun v => (toInt_range32 v).2

theorem vred_max :
    let xs := (activeOf (s.cur.readP m)).map fun k => lane (s.cur.readV a) k
    ∃ r, (xs = [] ∧ r = 0x80000000 ∨ r ∈ xs ∧ ∀ v ∈ xs, -r.toInt ≤ -v.toInt) ∧ Gives (.vred d a .max m) s d (r.signExtend 64) :=
  vred_best s d a m .max (fun v => -v.toInt) (fun p q => by simp only [redComb, slt_max32, pick, Int.neg_le_neg_iff])
    (fun _ _ h => BitVec.eq_of_toInt_eq (by omega)) fun v => Int.neg_le_neg (toInt_range32 v).1

theorem vred_minn :
    let xs := (activeOf (s.cur.readP m)).map fun k => lane (s.cur.readV a) k
    ∃ r, (xs = [] ∧ r = 0xFFFFFFFF ∨ r ∈ xs ∧ ∀ v ∈ xs, (r.toNat : Int) ≤ v.toNat) ∧ Gives (.vred d a .minn m) s d (r.setWidth 64) := by
  have htop : (redIdent .minn).toNat = 2 ^ 32 - 1 := rfl
  exact vred_best s d a m .minn (fun v => v.toNat) (fun p q => by simp only [redComb, ult_min32, pick, Nat.cast_le])
    (fun _ _ h => BitVec.eq_of_toNat_eq (by omega)) fun v => by have := v.isLt; rw [htop]; omega

theorem vred_maxn :
    let xs := (activeOf (s.cur.readP m)).map fun k => lane (s.cur.readV a) k
    ∃ r, (xs = [] ∧ r = 0 ∨ r ∈ xs ∧ ∀ v ∈ xs, -(r.toNat : Int) ≤ -(v.toNat : Int)) ∧ Gives (.vred d a .maxn m) s d (r.setWidth 64) := by
  have htop : (redIdent .maxn).toNat = 0 := rfl
  exact vred_best s d a m .maxn (fun v => -(v.toNat : Int)) (fun p q => by simp only [redComb, ult_max32, pick, Int.neg_le_neg_iff, Nat.cast_le])
    (fun _ _ h => BitVec.eq_of_toNat_eq (by omega)) fun v => by rw [htop]; omega

/-- VSCAN writes the running results and raises their flags. -/
theorem vscan_gives {op : RedOp} {fl : Flags} (hfl : Gathers (s.cur.readP m)
      (runFlags (redComb op s.cur.mode) (fun k => lane (s.cur.readV a) k) (s.cur.readP m)) fl) :
    GivesLanes (.vscan d a op m) s d (s.cur.readP m) (fun k => canonOf op ((runOf (redComb op s.cur.mode) (fun k => lane (s.cur.readV a) k)
      ((activeOf (s.cur.readP m)).filter fun j => decide (j ≤ k))).getD 0)) fl := by
  have hs := activeOf_sorted (s.cur.readP m)
  have hscan : scanOf op s.charge.cur.mode (s.charge.cur.readP m) (s.charge.cur.readV a) = scanFrom op s.cur.mode
      (runOf (redComb op s.cur.mode) (fun k => lane (s.cur.readV a) k) []) ((activeOf (s.cur.readP m)).map fun k => (k, lane (s.cur.readV a) k)) := by
    simp only [State.charge_mode, State.charge_readP, State.charge_readV]
    rfl
  have he : exec (.vscan d a op m) s = fixed (.vscan d a op m) s
      (fun x => redFp op && (anySub (picked (x.readP m) (x.readV a)) || (scanOf op x.mode (x.readP m) (x.readV a)).2.2))
      fun x => (x.writeLanes d (x.readP m) fun k => (((scanOf op x.mode (x.readP m) (x.readV a)).1.find? fun e => e.1 == k).map (·.2)).getD 0).raise
        (scanOf op x.mode (x.readP m) (x.readV a)).2.1 := exec_vscan ..
  refine givesLanes_of_fixed _ _ _ _ he (State.charge_readP ..) (fun k hk hact => ?_) ?_
  · rw [hscan, scanFrom_find op s.cur.mode (fun k => lane (s.cur.readV a) k) hs [] (activeOf (s.cur.readP m)) (List.nil_append _).symm k ((mem_activeOf _ k).2 ⟨hk, hact⟩)]
    rfl
  · rw [hscan]
    refine Gathers.eq (fun j hj => ?_) hfl
    rw [scanFrom_flags op s.cur.mode (fun k => lane (s.cur.readV a) k) hs [] (activeOf (s.cur.readP m)) (List.nil_append _).symm j]
    simp only [mem_activeOf, and_assoc]
    refine exists_congr fun k => and_congr_right fun _ => and_congr_right fun _ => ?_
    unfold runFlags runStep
    cases runOf (redComb op s.cur.mode) (fun k => lane (s.cur.readV a) k) ((activeOf (s.cur.readP m)).filter fun j => decide (j < k)) <;> rfl

end

/-- Settles O22: VRED by its tree, which for an associative operation is the fold over the active lanes; VSCAN by its running results. -/
theorem reductionResults : Obligations.ReductionResults := by
  intro s d a m op act md x xs best tree run scan
  refine ⟨vred_add s d a m, vred_min s d a m, vred_max s d a m, vred_minn s d a m, vred_maxn s d a m,
    vred_merges s d a m .and (fun _ _ => rfl) merges_and, vred_merges s d a m .or (fun _ _ => rfl) merges_or,
    vred_merges s d a m .xor (fun _ _ => rfl) merges_xor, vred_givesFp s d a m .fadd,
    vred_gives s d a m .fmin fun _ _ => rfl, vred_gives s d a m .fmax fun _ _ => rfl, fun fl hfl => ?_⟩
  have hcanon : (fun k => canonOf op (run k)) = scan := by
    funext k
    simp only [canonOf, scan, Bool.and_eq_true, redFp_iff]
  exact hcanon ▸ vscan_gives s d a m hfl

end Sys2Proof.Machine
end


section
/-! SUPPORT. Accesses as they issue (R317): a slot whose number lies beyond the tiles of the device, at which the statements about
what an access leaves unchanged fail. -/

namespace Sys2Proof.Machine

/-- A base pointer in another package: bit 47 is set and the package number is 1. -/
def farPointer : W64 := 0x0000808000000000

/-- The reset state with a Ready slot of number 32768 in focus: its tile would be tile 512, one more than the device has, which is also the number under which
a pod request counts as one of the collective unit of die 0. g1 points into package 1, a member of the pod. -/
def farState : State := { State.reset with
  curId := 32768
  cur := ({ Slot.reset with status := .ready, level := .u } : Slot).writeG 1 farPointer
  pkg := { Pkg.reset with members := [1] } }

/-- The dies that hold sequence counters after an outcome. -/
def diesAfter : Host.Outcome State Fault Refusal → Nat
  | .next t => t.dies.length
  | _ => 0

theorem farState_canIssue {i : Instr} (h : farState.permits i = .go) : CanIssue i farState := ⟨h, .inl rfl⟩

theorem farState_reaches (n : Nat) (h : farPointer.toNat % 2 ^ 48 % n = 0) (k : ReqKind) (ctl : Bool) (data : List Byte) :
    Reaches farState (farState.cur.readG 1) n k ctl ⟨0, 0, n, 2 ^ n - 1, data⟩ := by
  have hcls : elemCls farState (farState.cur.readG 1) 0 = .pod 1 0 := rfl
  have hva : elemVa (farState.cur.readG 1) 0 = 0x808000000000 := rfl
  refine ⟨rfl, ?_, ?_, h, ?_⟩
  · rw [hva]
    decide
  · rw [hva]
    decide
  · dsimp only
    rw [hcls]
    exact ⟨rfl, by decide⟩

/-- A pod request of that slot is numbered in a die, which no access should change. -/
theorem farState_notOnlySent {i : Instr} (h : diesAfter (exec i farState) = 1) {t : State} (ht : exec i farState = .next t) : ¬OnlySent farState t := by
  intro hs
  have hd : t.dies = [] := by rw [hs.rest]; rfl
  rw [ht] at h
  simp [diesAfter, hd] at h

/-- An access of one element of that slot is no access of the statements' form. -/
theorem farState_notAccesses {i : Instr} {n : Nat} {k : ReqKind} {write ctl : Bool} {data : List Byte} {kind : OpKind} {dests : List RegRef} {la : Nat}
    {wb : WriteBack} (hm : 2 ^ n - 1 ≠ 0) (ha : farPointer.toNat % 2 ^ 48 % n = 0) (hp : farState.permits i = .go)
    (hd : diesAfter (exec i farState) = 1) :
    ¬Accesses i farState (farState.cur.readG 1) n k write ctl (oneElem 0 n data) kind dests la wb := by
  intro h
  have hlive : liveElems (oneElem 0 n data) ≠ [] := by
    simp [liveElems, oneElem, hm]
  obtain ⟨t, o, ht, hs, _⟩ := h (farState_canIssue hp) (fun e he => List.mem_singleton.1 he ▸ farState_reaches n ha k ctl data) hlive
    (fun hspec => absurd hspec (by rw [speculative]; exact Bool.false_ne_true))
  exact farState_notOnlySent hd ht hs

/-- Refutes O8: a pod request of a slot beyond the tiles of the device takes its number from a die. -/
theorem not_loadsIssue : ¬Obligations.LoadsIssue := by
  intro h
  obtain ⟨hld, _⟩ := h farState 2 1 0 0 false false .d 0 0 0
  exact farState_notAccesses (by decide) (by decide) rfl rfl hld

/-- Refutes O9: a store of that slot changes a die too. -/
theorem not_storesIssue : ¬Obligations.StoresIssue := by
  intro h
  obtain ⟨hst, _⟩ := h farState 2 1 0 0 false .d 0 0 0
  exact farState_notAccesses (by decide) (by decide) rfl rfl hst

/-- Refutes O10: a full/empty instruction of that slot changes a die too. -/
theorem not_fullEmptyIssue : ¬Obligations.FullEmptyIssue := by
  intro h
  obtain ⟨hldf, _⟩ := h farState 2 1 0
  exact farState_notAccesses (by decide) (by decide) rfl rfl hldf

/-- Refutes O11: an atomic of that slot changes a die too. -/
theorem not_atomicsIssue : ¬Obligations.AtomicsIssue := by
  intro h
  obtain ⟨hadd, _⟩ := h farState 2 1 0 0 0 .d
  exact farState_notAccesses (by decide) (by decide) rfl rfl hadd

/-- Refutes O13: a remote update of that slot changes a die too. -/
theorem not_updatesIssue : ¬Obligations.UpdatesIssue := by
  intro h
  obtain ⟨hadd, _⟩ := h farState 1 0 .d
  obtain ⟨_, hsend, _⟩ := hadd (farState_canIssue rfl) (farState_reaches 8 (by decide) _ _ _)
  obtain ⟨t, r, ht, hs, _⟩ := hsend rfl rfl
  exact farState_notOnlySent (i := .rupdAdd 1 0 .d) rfl ht hs

end Sys2Proof.Machine
end


section
/-! SUPPORT. States in which a table lists one key twice, which refute statements about what is removed: `Map.del` and `Map.set` act on the first entry
alone, and the second is read then. -/

namespace Sys2Proof.Machine

/-! ### The end of a task -/

/-- The reset state with a Ready slot in focus whose task number is listed twice, the second time as a task that moves. -/
def twiceListedTask : State := { State.reset with
  cur := { Slot.reset with status := .ready, level := .u }
  tasks := [(0, Task.fresh), (0, { Task.fresh with place := .moving })] }

/-- Whether a task is listed as ended after an outcome. -/
def endedAfter (tid : W64) : Host.Outcome State Fault Refusal → Bool
  | .next t => (t.task tid).place == .ended
  | _ => true

/-- Refutes O31: END forgets the first entry of its task, and the second is read then. -/
theorem not_taskInstructions : ¬Obligations.TaskInstructions := by
  intro h
  obtain ⟨hend, _⟩ := h twiceListedTask 0 0 0
  obtain ⟨t, ht, _, _, hplace, _⟩ := hend rfl ⟨by decide, rfl, rfl⟩ ⟨rfl, .inl rfl⟩
  have hended : (t.task 0).place = .ended := hplace
  have hev : endedAfter 0 (exec .endTask twiceListedTask) = false := rfl
  rw [ht] at hev
  exact of_decide_eq_false hev hended

/-! ### Replies and retries -/

/-- A request of the slot in focus for a byte of slice 0. -/
def plainReq (id op : Nat) (stage : ReqStage) : Req where
  id := id
  slot := 0
  ctx := 0
  tid := 0
  op := op
  lane := 0
  tile := 0
  kind := .store
  ptr := 0
  cls := .sram 0 0
  n := 1
  mask := 1
  data := [0]
  asid := 0
  tenant := 0
  watch := none
  path := 0
  since := 0
  flies := false
  stage := stage
  res := .ok []
  home := 64
  line := 0
  notices := 0
  tries := 0
  limit := 1
  parked := 0
  order := 0
  scopeOk := false
  firstTouch := false
  seqNo := 0
  sent := 0
  source := none

/-- A store with one element to be performed. -/
def plainOp (id : Nat) : LongOp := ⟨id, 0, 0, [], .ordinary, none, 1, [], none, .none, 0⟩

/-- The status of the slot in focus after an outcome. -/
def statusAfter : Host.Outcome State Fault Refusal → Option Status
  | .next t => some t.cur.status
  | _ => none

/-- Request 1 of the slot in focus has been answered; the same number is listed again, for a request on a pending page. -/
def twiceListedReply : State := { State.reset with
  cur := { Slot.reset with status := .ready, level := .u, ops := [plainOp 1] }
  net := { State.reset.net with reqs := [(1, plainReq 1 1 .reply), (1, plainReq 1 2 .page)] } }

theorem twiceListedReply_lastReply : LastReply twiceListedReply 1 (plainReq 1 1 .reply) (plainOp 1) where
  listed := rfl
  id := rfl
  stage := rfl
  slot := rfl
  ctx := rfl
  op := rfl
  left := rfl
  ok := rfl
  clean := rfl
  tx := rfl
  runs := rfl
  others := by
    intro e he hne
    have hreqs : e = (1, plainReq 1 1 .reply) ∨ e = (1, plainReq 1 2 .page) := by simpa [twiceListedReply] using he
    rcases hreqs with rfl | rfl <;> exact absurd rfl hne

/-- Refutes O36: the second entry of the request's number keeps the slot Blocked. -/
theorem not_repliesTaken : ¬Obligations.RepliesTaken := by
  intro h
  obtain ⟨_, hplain, _⟩ := h twiceListedReply
  obtain ⟨t, ht, _, hclosed, _⟩ := hplain 1 _ _ [] twiceListedReply_lastReply rfl rfl
  have hready : t.cur.status = .ready := by rw [hclosed.rest]; rfl
  have hev : statusAfter (exec (.accessReply 1 none) twiceListedReply) = some (.blocked .page) := rfl
  rw [ht] at hev
  simp [statusAfter, hready] at hev

/-- Request 1 of the slot in focus is parked with its last attempt to come, and is listed again, parked. -/
def twiceListedPark : State := { State.reset with
  cur := { Slot.reset with status := .blocked .fullEmpty, level := .u }
  net := { State.reset.net with reqs := [(1, plainReq 1 1 .park), (1, plainReq 1 2 .park)] } }

/-- Refutes O38: the second entry of the request's number keeps the slot Blocked after the last attempt. -/
theorem not_noticesAndCommits : ¬Obligations.NoticesAndCommits := by
  intro h
  obtain ⟨hretry, _⟩ := h twiceListedPark
  obtain ⟨_, hlast⟩ := hretry 1 (plainReq 1 1 .park) rfl rfl rfl rfl rfl
  obtain ⟨t, ht, _, _, hcur⟩ := hlast (by decide)
  have hready : t.cur = { twiceListedPark.cur with status := .ready } := by
    refine hcur rfl rfl rfl fun e he hne => ?_
    have hreqs : e = (1, plainReq 1 1 .park) ∨ e = (1, plainReq 1 2 .park) := by simpa [twiceListedPark] using he
    rcases hreqs with rfl | rfl <;> exact absurd rfl hne
  have hev : statusAfter (exec (.feRetryAttempt 1) twiceListedPark) = some (.blocked .fullEmpty) := rfl
  rw [ht] at hev
  simp [statusAfter, hready] at hev

/-! ### A spill from a slot beyond the tiles -/

/-- `farState` at level S. -/
def farSupervisor : State := { farState with cur := { farState.cur with level := .s } }

/-- Every row of an accumulator image at the far pointer passes its checks. -/
theorem farSupervisor_reaches_row {r : Nat} (hr : r < 16) (data : List Byte) :
    Reaches farSupervisor (farSupervisor.cur.readG 1) 64 .store false ⟨r, 64 * r, 64, 2 ^ 64 - 1, data⟩ := by
  have hva : elemVa (farSupervisor.cur.readG 1) (64 * r) = (0x808000000000 : Nat) + 64 * r := rfl
  have hcls : elemCls farSupervisor (farSupervisor.cur.readG 1) (64 * r) = .pod 1 (64 * r) := by
    revert r
    decide
  refine ⟨rfl, ?_, ?_, ?_, ?_⟩
  · rw [hva]
    omega
  · rw [hva]
    omega
  · rw [hva]
    omega
  · dsimp only
    rw [hcls]
    exact ⟨rfl, by decide⟩

/-- Refutes O33: MSPILL to another package, from a slot beyond the tiles of the device, takes its number from a die. -/
theorem not_privilegedInstructions : ¬Obligations.PrivilegedInstructions := by
  intro h
  obtain ⟨_, _, _, _, _, _, _, _, _, _, _, _, _, _, hspill, _⟩ := h farSupervisor 1 0 0
  have hlive : liveElems ((List.range 16).map fun r => ⟨r, 64 * r, 64, 2 ^ 64 - 1, (List.range 16).flatMap fun j =>
      lowBytes 4 ((((farSupervisor.core (coreOf farSupervisor.curId)).accs.getD 0 Acc.free).elems).getD (16 * r + j) 0)⟩) ≠ [] := by
    simp [liveElems, List.range_succ]
  obtain ⟨t, o, ht, hs, _⟩ := hspill rfl ⟨rfl, .inl rfl⟩
    (fun e he => by
      obtain ⟨r, hr, rfl⟩ := List.mem_map.1 he
      exact farSupervisor_reaches_row (List.mem_range.1 hr) _)
    hlive (fun hspec => absurd hspec (by rw [speculative]; exact Bool.false_ne_true))
  have hd : t.dies = [] := by rw [hs.rest]; rfl
  have hev : diesAfter (exec (.mspill 0 1) farSupervisor) = 1 := rfl
  rw [ht] at hev
  simp [diesAfter, hd] at hev

end Sys2Proof.Machine
end


section
/-! SUPPORT. States outside the canonical form, which refute statements about what is read after a write: a memory whose addresses do not rise, a table of
keys that lists one line twice, a ring whose number is beyond the sixteen. -/

namespace Sys2Proof.Machine

/-! ### Memory whose addresses do not rise -/

/-- A memory in which byte 5 stands behind a greater address: it reads as unlisted until the byte before it is removed. -/
def fallingMemory (first : Nat) : Memory := [(first, 1), (5, 2)]

/-- Whether byte 5 of memory reads 0 after an outcome. -/
def byteFiveIsZero : Host.Outcome State Fault Refusal → Bool
  | .next t => t.mem.read 5 == 0
  | _ => true

/-- Context 0, with nothing in it. -/
def bareCtx : Ctx where
  first := 0
  last := 0
  wok := true
  base := 0
  staging := 0
  stagingSz := 0
  ringAddr := 0
  ringKey := 0
  ringLogn := 4
  headAddr := 0
  rseq := 0
  tail := 0
  waiting := []
  recWait := none
  recFail := false
  records := []
  sstate := ⟨0, 0, 0, 0, 0, 0, 0⟩
  dying := true
  ender := none

/-- Tile 1 with a window of ASID 0 that is to be scrubbed, and `fallingMemory` with its first byte in that tile's slice. -/
def scrubState : State := { State.reset with
  mem := fallingMemory 4194304
  tiles := [(1, { Tile.reset with windows := [⟨0, 0, 1, 1, true, true⟩] })]
  pkg := { State.reset.pkg with ctxs := [(0, bareCtx)] } }

/-- Refutes O44: the scrub of a slice shows a byte of another slice that stood behind a greater address. -/
theorem not_packageEvents : ¬Obligations.PackageEvents := by
  intro h
  obtain ⟨_, _, _, _, _, _, _, _, _, _, hscrub, _⟩ := h scrubState
  obtain ⟨hplain, _⟩ := hscrub 1 _ _ 0 rfl rfl rfl rfl rfl rfl
  obtain ⟨t, ht, ⟨hmem, _⟩, _⟩ := hplain bareCtx rfl rfl
  have hfive : t.mem.read 5 = 0 := hmem 5
  have hev : byteFiveIsZero (exec (.scrubComplete 0) scrubState) = false := by decide +kernel
  rw [ht, byteFiveIsZero, hfive] at hev
  exact absurd hev (by decide)

/-- A command record of ring 0 with these words. -/
def recordOfWords (l : List W64) : Cmd := ⟨0, Vector.ofFn fun k => l.getD k.val 0⟩

/-- RESET of die 1. -/
def resetDieOne : Cmd := recordOfWords [0, 0, 0, 2 ^ 21]

/-- The reset state with `fallingMemory`, its first byte in the first slice of die 1. -/
def fallingState : State := { State.reset with mem := fallingMemory (sramByte 128 0) }

/-- Refutes O49: the reset of a die shows a byte of another die that stood behind a greater address. -/
theorem not_launchAndDataCommands : ¬Obligations.LaunchAndDataCommands := by
  intro h
  obtain ⟨_, _, _, _, _, _, hreset⟩ := h fallingState resetDieOne Ring.reset rfl
  obtain ⟨_, _, _, hdie, _⟩ := hreset (by decide +kernel) rfl
  obtain ⟨t, ht, _, _, hmem⟩ := hdie 1 (by decide) (by decide +kernel)
  have hfive : t.mem.read 5 = 0 := hmem 5
  have hev : byteFiveIsZero (exec (.reset resetDieOne) fallingState) = false := by decide +kernel
  rw [ht, byteFiveIsZero, hfive] at hev
  exact absurd hev (by decide)

/-! ### A line listed twice under a key -/

/-- Line `line` of home 0, listed twice under the key of zeros: a plaintext write unlists it once. -/
def twiceKeyed (line : Nat) : Attrs := { State.reset.attrs with keyOf := [(lineNo 0 line, 0), (lineNo 0 line, 0)] }

/-- Home 0 with its sweeper at frame 0, which is in use and whose entry stands at address 0. -/
def sweepState : State := { State.reset with
  mem := [(hbmByte 0, 1)]
  attrs := twiceKeyed 0
  homes := [(0, { Home.reset with sweepEn := true, coldWm := 1, rate := 1, frames := [(0, ⟨3, 0, 0⟩)] })] }

/-- Whether the entry at address 0 has its A bit after an outcome. -/
def entryHasA : Host.Outcome State Fault Refusal → Bool
  | .next t => pteA (t.readPte 0)
  | _ => false

/-- Refutes O37: the sweeper clears A in the entry, whose line is then read under its other key, where the bit is set. -/
theorem not_pagesAndFrames : ¬Obligations.PagesAndFrames := by
  intro h
  obtain ⟨_, _, _, _, _, _, hsweep, _⟩ := h sweepState 0 0 0 0 (plainReq 0 0 .travel)
  obtain ⟨_, hused, _⟩ := hsweep rfl (by decide) (by decide) (by decide) (by decide)
  obtain ⟨t, ht, hA, _⟩ := hused rfl (by decide +kernel) rfl (by decide) rfl
  have hclear : pteA (t.readPte 0) = false := hA
  have hev : entryHasA (exec (.sweeperStep 0) sweepState) = true := by decide +kernel
  rw [ht, entryHasA, hclear] at hev
  exact absurd hev (by decide)

/-- MAP of page 8 of ASID 0 as a first-touch page. -/
def mapPageEight : Cmd := recordOfWords [0, 0, 0, 8 * 65536, 1, 0, 2]

/-- ASID 0 with its tables at address 0, where one entry leads back to the same table; the entry of page 8 stands in the next line, which is listed twice
under a key. -/
def mapState : State := { State.reset with
  mem := [(hbmByte 0, 1)]
  attrs := twiceKeyed 1
  pkg := { State.reset.pkg with ready := 2 ^ 24, asids := [(0, ⟨0, 0, 0, false, 0⟩)] } }

/-- The entry at address 64 after an outcome. -/
def entryAt64 : Host.Outcome State Fault Refusal → Nat
  | .next t => t.readPte 64
  | _ => 68

/-- Refutes O48: MAP writes the entry, whose line is then read under its other key. -/
theorem not_ringAndContextCommands : ¬Obligations.RingAndContextCommands := by
  intro h
  obtain ⟨_, _, _, _, _, _, _, _, hpages, _⟩ := h mapState mapPageEight Ring.reset rfl
  obtain ⟨hmap, _⟩ := hpages ⟨0, rfl, .inl rfl⟩ rfl (by decide +kernel) (by decide +kernel) (by decide +kernel)
  obtain ⟨hplaced, _⟩ := hmap (by decide +kernel) (fun _ => by decide +kernel) (by decide +kernel) (by decide +kernel) (.inl (by decide +kernel))
  obtain ⟨t, ht, _, hread⟩ := hplaced (by decide +kernel) (by decide +kernel) (by decide +kernel) (by decide +kernel)
  have hentry : t.readPte 64 = 68 := by
    refine ((congrArg t.readPte ?_).trans hread).trans ?_ <;> decide +kernel
  have hev : entryAt64 (exec (.map mapPageEight) mapState) ≠ 68 := by decide +kernel
  rw [ht, entryAt64] at hev
  exact hev hentry

/-! ### A ring beyond the sixteen -/

/-- The only ring is listed under number 16, and the standby command processor is ready. -/
def ringSixteen : State := { State.reset with
  host := { State.reset.host with rings := [(16, { Ring.reset with open_ := true })] }
  pkg := { State.reset.pkg with ready := 2 ^ 53 } }

/-- Refutes O51: a ring of number 16 is none of the sixteen that can be asked for. -/
theorem not_bootEvents : ¬Obligations.BootEvents := by
  intro h
  obtain ⟨_, _, _, _, _, _, _, _, hfailover⟩ := h ringSixteen
  obtain ⟨t, _, _, _, _, _, _, _, hnotRun⟩ := hfailover 16 _ rfl rfl rfl rfl
  obtain ⟨hring, _⟩ := hnotRun (by decide) rfl
  simp [State.ring?] at hring

end Sys2Proof.Machine
end


section
/-! PROOF. The selection of a slot (R65). -/

namespace Sys2Proof.Machine

/-! ### The oldest of a list of slots -/

/-- Slot `a` comes before slot `b` in the order of (age, index). -/
def State.older (s : State) (a b : Nat) : Prop := (s.slot a).age < (s.slot b).age ∨ ((s.slot a).age = (s.slot b).age ∧ a < b)

/-- One step of the search for the oldest slot. -/
def State.olderOf (s : State) (acc : Option (Nat × Nat)) (k : Nat) : Option (Nat × Nat) :=
  match acc with
  | none => some ((s.slot k).age, k)
  | some b => if (s.slot k).age < b.1 ∨ ((s.slot k).age = b.1 ∧ k < b.2) then some ((s.slot k).age, k) else some b

theorem State.oldest_eq_foldl (s : State) (l : List Nat) : s.oldest l = (l.foldl s.olderOf none).map (·.2) := rfl

theorem State.older_trans {s : State} {a b c : Nat} (h : s.older a b) (h' : s.older b c) : s.older a c := by
  unfold State.older at *
  omega

theorem State.older_total (s : State) {a b : Nat} (h : a ≠ b) : s.older a b ∨ s.older b a := by
  unfold State.older
  omega

theorem State.older_asymm {s : State} {a b : Nat} (h : s.older a b) : ¬s.older b a := by
  unfold State.older at *
  omega

/-- The search keeps the older of what it has and what it meets. -/
theorem State.olderOf_some (s : State) (b k : Nat) :
    ∃ m, s.olderOf (some ((s.slot b).age, b)) k = some ((s.slot m).age, m) ∧ (m = b ∨ m = k) ∧ (b = m ∨ s.older m b) ∧ (k = m ∨ s.older m k) := by
  unfold State.olderOf
  dsimp only
  by_cases h : (s.slot k).age < (s.slot b).age ∨ ((s.slot k).age = (s.slot b).age ∧ k < b)
  · exact ⟨k, if_pos h, .inr rfl, .inr h, .inl rfl⟩
  · refine ⟨b, if_neg h, .inl rfl, .inl rfl, ?_⟩
    by_cases hk : k = b
    · exact .inl hk
    · exact .inr ((s.older_total hk).resolve_left h)

theorem State.foldl_olderOf (s : State) (l : List Nat) (b : Nat) :
    ∃ m, l.foldl s.olderOf (some ((s.slot b).age, b)) = some ((s.slot m).age, m) ∧ m ∈ b :: l ∧ ∀ j ∈ b :: l, j ≠ m → s.older m j := by
  induction l generalizing b with
  | nil => exact ⟨b, rfl, by simp, by simp⟩
  | cons k l ih =>
    obtain ⟨m, hm, hmem, hb, hk⟩ := s.olderOf_some b k
    obtain ⟨n, hn, hnmem, hold⟩ := ih m
    have beats : ∀ j, j = m ∨ s.older m j → j ≠ n → s.older n j := by
      intro j hj hjn
      rcases hj with rfl | hj
      · exact hold j (by simp) hjn
      · by_cases hmn : m = n
        · exact hmn ▸ hj
        · exact State.older_trans (hold m (by simp) hmn) hj
    refine ⟨n, by rw [List.foldl_cons, hm, hn], ?_, fun j hj hjn => ?_⟩
    · rcases List.mem_cons.mp hnmem with rfl | hin
      · rcases hmem with rfl | rfl <;> simp
      · simp [hin]
    · rcases List.mem_cons.mp hj with rfl | hj
      · exact beats j hb hjn
      rcases List.mem_cons.mp hj with rfl | hj
      · exact beats j hk hjn
      · exact hold j (by simp [hj]) hjn

/-- The oldest of a list is the member of it that comes before every other. -/
theorem State.oldest_eq_some (s : State) (l : List Nat) (k : Nat) :
    s.oldest l = some k ↔ k ∈ l ∧ ∀ j ∈ l, j ≠ k → s.older k j := by
  cases l with
  | nil => simp [State.oldest_eq_foldl]
  | cons b l =>
    obtain ⟨m, hm, hmem, hold⟩ := s.foldl_olderOf l b
    have ho : s.oldest (b :: l) = some m := by
      rw [State.oldest_eq_foldl, List.foldl_cons, show s.olderOf none b = some ((s.slot b).age, b) from rfl, hm]
      rfl
    rw [ho]
    constructor
    · rintro h
      cases h
      exact ⟨hmem, hold⟩
    · rintro ⟨hk, h⟩
      by_contra hne
      have hmk : m ≠ k := fun h => hne (by rw [h])
      exact State.older_asymm (h m hmem hmk) (hold k hk (Ne.symm hmk))

/-! ### The slot looked at first -/

theorem State.choose_stays {s : State} {core : Nat} {e : List Nat} (hp : (s.core core).pol = false)
    (hc : core * 8 + (s.core core).cur ∈ e) (hy : (s.slot (core * 8 + (s.core core).cur)).yld = false) :
    s.choose core e = some (core * 8 + (s.core core).cur) := by
  simp [State.choose, hp, hc, hy]

theorem State.choose_absent {s : State} {core : Nat} {e : List Nat} (hp : (s.core core).pol = false)
    (hc : core * 8 + (s.core core).cur ∉ e) : s.choose core e = s.oldest e := by
  have hf : e.filter (· != core * 8 + (s.core core).cur) = e :=
    List.filter_eq_self.mpr fun a ha => by simpa using ne_of_mem_of_not_mem ha hc
  simp only [State.choose, hp, Bool.not_false, if_true, List.contains_eq_mem, decide_eq_false hc, Bool.false_and, Bool.false_eq_true, if_false, hf, ite_self]

theorem State.choose_yielded {s : State} {core : Nat} {e : List Nat} (hp : (s.core core).pol = false)
    (hy : (s.slot (core * 8 + (s.core core).cur)).yld = true) :
    s.choose core e = s.oldest (if e = [core * 8 + (s.core core).cur] then e else e.filter (· != core * 8 + (s.core core).cur)) := by
  unfold State.choose
  simp only [hp, hy, Bool.not_false, if_true, Bool.not_true, Bool.and_false, Bool.false_eq_true, if_false, Bool.true_and]
  by_cases he : e = [core * 8 + (s.core core).cur]
  · rw [if_pos he, if_neg (by simp [he])]
  · rw [if_neg he, if_pos (by simpa using he)]

/-- The search of a rising range finds the first number that qualifies. -/
theorem find?_map_range {f : Nat → Nat} {p : Nat → Bool} {n d : Nat} (hd : d < n) (hp : p (f d) = true)
    (hlt : ∀ j, j < d → p (f j) = false) : ((List.range n).map f).find? p = some (f d) := by
  rw [List.find?_map, show (List.range n).find? (p ∘ f) = some d from ?_]
  · rfl
  · exact List.find?_range_eq_some.mpr ⟨hp, List.mem_range.mpr hd, fun j hj => by simp [hlt j hj]⟩

theorem State.choose_turn {s : State} {core d : Nat} {e : List Nat} (hp : (s.core core).pol = true) (hd : d < 8)
    (hin : core * 8 + ((s.core core).last + 1 + d) % 8 ∈ e) (hout : ∀ j, j < d → core * 8 + ((s.core core).last + 1 + j) % 8 ∉ e) :
    s.choose core e = some (core * 8 + ((s.core core).last + 1 + d) % 8) := by
  unfold State.choose
  simp only [hp, Bool.not_true, Bool.false_eq_true, if_false]
  exact find?_map_range (f := fun k => core * 8 + ((s.core core).last + 1 + k) % 8) hd (by simpa using hin)
    fun j hj => by simpa using hout j hj

/-! ### What the selection changes -/

theorem State.slot_setSlot (s : State) (k j : Nat) (x : Slot) : (s.setSlot k x).slot j = if j = k then x else s.slot j := by
  unfold State.setSlot State.slot State.freshSlot
  by_cases hk : k = s.curId <;> by_cases hj : j = s.curId <;> by_cases hjk : j = k <;>
    simp_all [Map.getD_set]

@[simp] theorem State.slot_updSlot_same (s : State) (k : Nat) (f : Slot → Slot) : (s.updSlot k f).slot k = f (s.slot k) := by
  simp [State.updSlot, State.slot_setSlot]

theorem State.slot_updSlot_ne (s : State) {k j : Nat} (f : Slot → Slot) (h : j ≠ k) : (s.updSlot k f).slot j = s.slot j := by
  simp [State.updSlot, State.slot_setSlot, h]

@[simp] theorem State.slot_updCore (s : State) (c k : Nat) (f : Core → Core) : (s.updCore c f).slot k = s.slot k := rfl

@[simp] theorem State.slot_tally (s : State) (t c n k : Nat) : (s.tally t c n).slot k = s.slot k := by
  simp [State.slot, State.freshSlot]

theorem State.select_ready {s : State} {core k : Nat} {e : List Nat} (n : Nat) (hk : s.choose core e = some k) (hf : (s.slot k).forfeit = 0) :
    (State.select (n + 1) s core e).1 = some k ∧ ((State.select (n + 1) s core e).2.core core).cur = k % 8 ∧
      ((State.select (n + 1) s core e).2.slot k).yld = false := by
  rw [State.select.eq_2, hk]
  simp only [hf, Nat.lt_irrefl, if_false, State.core_updCore, if_true, State.slot_updCore, State.slot_updSlot_same, and_self]

theorem State.choose_nil (s : State) (core : Nat) : s.choose core [] = none := by
  unfold State.choose
  cases (s.core core).pol <;> simp [State.oldest_eq_foldl]

theorem State.select_forfeits {s : State} {core k : Nat} (n : Nat) (hk : s.choose core [k] = some k) (hf : 0 < (s.slot k).forfeit) :
    (State.select (n + 2) s core [k]).1 = none ∧ ((State.select (n + 2) s core [k]).2.slot k).forfeit = (s.slot k).forfeit - 1 ∧
      ((State.select (n + 2) s core [k]).2.slot k).u.turns = (s.slot k).u.turns + 1 := by
  rw [State.select.eq_2, hk]
  simp only [hf, if_true, show [k].filter (· != k) = [] by simp, State.select.eq_2, State.choose_nil, State.slot_tally, State.slot_updSlot_same, and_self]

/-- Settles O45, from what `choose` takes in each case and what `select` does with it. -/
theorem slotSelection : Obligations.SlotSelection := by
  unfold Obligations.SlotSelection
  intro s core e _ hnd
  refine ⟨?_, State.choose_stays, ?_, ?_, ?_, fun k n hk hf => State.select_ready n hk hf, ?_⟩
  · rintro rfl
    exact s.choose_nil core
  · intro hp hc k
    rw [State.choose_absent hp hc]
    exact s.oldest_eq_some e k
  · intro hp hc hy
    rw [State.choose_yielded hp hy]
    refine ⟨fun he => ?_, fun he k => ?_⟩
    · rw [if_pos he, State.oldest_eq_some, he]
      simp
    · rw [if_neg he, State.oldest_eq_some]
      simp only [List.mem_filter, bne_iff_ne, ne_eq, and_imp, and_assoc]
      rfl
  · exact fun hp d hd hin hout => State.choose_turn hp hd hin hout
  · rintro k n hk hf rfl
    exact State.select_forfeits n hk hf

end Sys2Proof.Machine
end


section
/-! PROOF. What every host command has in common (R415, R416, R418), and a debug command at a task that runs its user event. -/

namespace Sys2Proof.Machine

/-! ### Debug and the shadow registers -/

/-- DEBUG WRITE of 5 at the offset of g24 in the image of task 0. -/
def writeG24 : Cmd := recordOfWords [0, 0, 0, 0, 0, 192, 5]

/-- Task 0 stopped by debug in slot 0 while it runs its user event. -/
def stoppedInEvent : State := { State.reset with
  cur := { State.reset.cur with status := .stopped, u := { State.reset.cur.u with active := true } }
  tasks := [(0, { Task.fresh with place := .slot 0 })] }

/-- What g24 of slot 0 reads as after an outcome. -/
def g24Read : Host.Outcome State Fault Refusal → W64
  | .next t => (t.slot 0).readG 24
  | _ => 5

/-- Refutes O50: while the user event runs, g24 reads as its shadow (R27), and the image's word holds the register behind it. -/
theorem not_debugCommands : ¬Obligations.DebugCommands := by
  intro h
  obtain ⟨_, _, _, _, hplaced, _⟩ := h stoppedInEvent writeG24 Ring.reset rfl
  obtain ⟨_, _, _, _, hwrite⟩ := hplaced _ 0 rfl (.inl rfl) rfl
  obtain ⟨hreg, _⟩ := hwrite (by decide +kernel) ⟨rfl, .inl rfl⟩
  obtain ⟨t, ht, _, _, _, hread⟩ := hreg 24 (by decide) (by decide) (by decide +kernel)
  have hfive : (t.slot 0).readG 24 = 5 := hread 24
  have hev : g24Read (exec (.debugWrite writeG24) stoppedInEvent) ≠ 5 := by decide +kernel
  rw [ht, g24Read] at hev
  exact hev hfive

/-! ### Bytes of numbers -/

theorem leBytes_eq_bytesOfNat (n v : Nat) : leBytes n v = bytesOfNat n v := by
  induction n generalizing v with
  | zero => rfl
  | succ n ih =>
    rw [leBytes, ih]
    simp only [bytesOfNat, List.range_succ_eq_map, List.map_cons, List.map_map, Nat.mul_zero, pow_zero, Nat.div_one, Nat.div_div_eq_div_mul]
    congr 2
    funext k
    rw [Function.comp_apply, Nat.succ_eq_add_one, Nat.mul_add, Nat.pow_add, Nat.mul_comm (2 ^ (8 * k))]

/-! ### The completion of a command -/

/-- Only messages in flight and the host side differ. -/
def OnlyHost (s t : State) : Prop := t = { s with net := t.net, host := t.host }

theorem OnlyHost.refl (s : State) : OnlyHost s s := rfl

theorem OnlyHost.trans {s t u : State} (h : OnlyHost s t) (h' : OnlyHost t u) : OnlyHost s u := by
  unfold OnlyHost at *
  rw [h', h]

theorem OnlyHost.updHost (s : State) (f : HostSt → HostSt) : OnlyHost s (s.updHost f) := rfl
theorem OnlyHost.setRing (s : State) (n : Nat) (r : Ring) : OnlyHost s (s.setRing n r) := rfl
theorem OnlyHost.sendCqe (s : State) (n : Nat) (r : Ring) (seq : W32) (code sub : Nat) (htag value : W64) :
    OnlyHost s (s.sendCqe n r seq code sub htag value) := rfl

@[simp] theorem State.afterOnce_host (s : State) (delay : Nat) (e : Event) : (s.afterOnce delay e).host = s.host := by
  unfold State.afterOnce
  split <;> rfl

theorem OnlyHost.afterOnce (s : State) (delay : Nat) (e : Event) : OnlyHost s (s.afterOnce delay e) := by
  unfold State.afterOnce
  split <;> rfl

theorem OnlyHost.serveRing (s : State) (n delay : Nat) : OnlyHost s (s.serveRing n delay) := by
  unfold State.serveRing
  split
  · split
    · exact .afterOnce ..
    · exact .refl s
  · exact .refl s

@[simp] theorem State.serveRing_host (s : State) (n delay : Nat) : (s.serveRing n delay).host = s.host := by
  unfold State.serveRing
  split
  · split
    · exact State.afterOnce_host ..
    · rfl
  · rfl

theorem OnlyHost.finishCmd (s : State) (c : Cmd) (code sub : Nat) (v : W64) : OnlyHost s (s.finishCmd c code sub v) := by
  unfold State.finishCmd
  split
  · exact .refl s
  · exact (((OnlyHost.sendCqe ..).trans (.setRing ..)).trans (.updHost ..)).trans (.serveRing ..)

theorem State.ring?_eq_some {s : State} {n : Nat} {r : Ring} (h : s.ring? n = some r) : n < 16 ∧ s.host.rings.getD Ring.reset n = r := by
  unfold State.ring? at h
  split at h
  · exact ⟨‹_›, Option.some.inj h⟩
  · cases h

theorem State.ring?_setRing {s : State} {n : Nat} (r : Ring) (h : n < 16) : (s.setRing n r).ring? n = some r := by
  simp [State.ring?, State.setRing, State.updHost, h]

theorem State.ring?_congr {s t : State} (n : Nat) (h : t.host.rings = s.host.rings) : t.ring? n = s.ring? n := by
  unfold State.ring?
  rw [h]

/-- What a completion leaves of the host side. -/
theorem State.finishCmd_host {s : State} {c : Cmd} {r : Ring} (hr : s.ring? c.ring = some r) (code sub : Nat) (v : W64) :
    (s.finishCmd c code sub v).host = { (s.sendCqe c.ring r c.seq code sub c.htag v).host with
      rings := s.host.rings.set c.ring { r with next := c.seq + 1, ran := true, code := code, sub := sub, value := v, htag := c.htag, parked := none,
                                                refused := false, open_ := r.open_ && !r.closing, closing := false, put := 0 }
      exec := if s.host.exec = some c.ring then none else s.host.exec } := by
  unfold State.finishCmd
  rw [hr]
  dsimp only
  rw [State.serveRing_host]
  rfl

/-- A command that completes does so as R415 says. -/
theorem finished_finishCmd {s u : State} {c : Cmd} {r : Ring} (hr : u.ring? c.ring = some r) (hexec : u.host.exec = s.host.exec)
    (hid : u.curId = s.curId) (code : Nat) {sub : Nat} (hsub : sub < 256) (v : W64) : Finished s (u.finishCmd c code sub v) c r code sub v := by
  have hhost := State.finishCmd_host hr code sub v
  refine ⟨?_, ?_, fun hf => ?_, ?_⟩
  · unfold State.ring?
    rw [if_pos (State.ring?_eq_some hr).1, hhost]
    simp
  · refine ⟨⟨_, _, _, _, .completion, false⟩, by rw [hhost]; exact List.getLast?_concat .., rfl, rfl, rfl, ?_⟩
    simp only [leBytes_eq_bytesOfNat, Nat.mod_eq_of_lt hsub]
  · rw [hhost, hexec, hf]
    simp
  · rw [OnlyHost.finishCmd u c code sub v]
    exact hid

/-! ### The refusals -/

/-- A command that is refused before it begins. -/
def EndsEarly (s : State) (c : Cmd) (r : Ring) (o : Host.Outcome State Fault Refusal) (code sub : Nat) : Prop :=
  ∃ t, o = .next t ∧ t.mem = s.mem ∧ t.attrs = s.attrs ∧ t.cur = s.cur ∧ t.tasks = s.tasks ∧ t.pkg = s.pkg ∧ Finished s t c r code sub 0

theorem endsEarly_finishCmd {s : State} {c : Cmd} {r : Ring} (hr : s.ring? c.ring = some r) (code : Nat) {sub : Nat} (hsub : sub < 256) :
    EndsEarly s c r (.next (s.finishCmd c code sub 0)) code sub := by
  have hf := OnlyHost.finishCmd s c code sub 0
  refine ⟨_, rfl, ?_, ?_, ?_, ?_, ?_, finished_finishCmd hr rfl rfl code hsub 0⟩ <;> rw [hf]

section HostCmd
variable {s : State} {c : Cmd} {r : Ring} (hr : s.ring? c.ring = some r) (e : Event) (body : State → CmdRes)
include hr

/-- A record with a bit that the command does not name is a bad record. -/
theorem hostCmd_unclean (ring0 asid : Bool) : EndsEarly s c r (hostCmd c e s false ring0 asid body) 3 0 := by
  rw [hostCmd, if_neg (by simp [hr]), if_pos (by decide)]
  exact endsEarly_finishCmd hr 3 (by decide)

/-- An ASID of no context is refused. -/
theorem hostCmd_noContext (ring0 : Bool) (ht : s.tenantOf? c.asid = none) : EndsEarly s c r (hostCmd c e s true ring0 true body) 5 3 := by
  rw [hostCmd, if_neg (by simp [hr]), if_neg (by decide), if_pos (by simp [ht])]
  exact endsEarly_finishCmd hr 5 (by decide)

/-- A command for ring 0 is denied on another. -/
theorem hostCmd_otherRing (asid : Bool) (ht : asid = false ∨ s.tenantOf? c.asid ≠ none) (hring : c.ring ≠ 0) :
    EndsEarly s c r (hostCmd c e s true true asid body) 4 0 := by
  rw [hostCmd, if_neg (by simp [hr]), if_neg (by decide), if_neg ?_, if_pos (by simpa using hring)]
  · exact endsEarly_finishCmd hr 4 (by decide)
  · rcases ht with rfl | ht
    · simp
    · simp [ht]

/-- A command that names an ASID of another owner is denied. -/
theorem hostCmd_otherOwner {owner : BitVec 16} (ht : s.tenantOf? c.asid = some owner) (hring : c.ring ≠ 0) (ho : owner ≠ r.owner) :
    EndsEarly s c r (hostCmd c e s true false true body) 4 0 := by
  have hown : s.ringOwns c.ring c.asid = false := by
    unfold State.ringOwns
    rw [hr, ht]
    simp [hring, ho]
  rw [hostCmd, if_neg (by simp [hr]), if_neg (by decide), if_neg (by simp [ht]), if_neg (by simp), if_pos (by simp [hown])]
  exact endsEarly_finishCmd hr 4 (by decide)

/-- The refusals of a command for ring 0. -/
theorem hostCmd_ring0 {o : Host.Outcome State Fault Refusal} {ok asid : Bool} (ho : o = hostCmd c e s ok true asid body) :
    (ok = false → EndsEarly s c r o 3 0) ∧ (ok = true → asid = true → s.tenantOf? c.asid = none → EndsEarly s c r o 5 3) ∧
      (ok = true → asid = false ∨ s.tenantOf? c.asid ≠ none → c.ring ≠ 0 → EndsEarly s c r o 4 0) := by
  refine ⟨?_, ?_, ?_⟩
  · rintro rfl
    exact ho ▸ hostCmd_unclean hr e body true asid
  · rintro rfl rfl ht
    exact ho ▸ hostCmd_noContext hr e body true ht
  · rintro rfl ht hring
    exact ho ▸ hostCmd_otherRing hr e body asid ht hring

/-- The refusals of a command on an ASID of the ring's owner. -/
theorem hostCmd_owned {o : Host.Outcome State Fault Refusal} {ok : Bool} (ho : o = hostCmd c e s ok false true body) :
    (ok = false → EndsEarly s c r o 3 0) ∧ (ok = true → s.tenantOf? c.asid = none → EndsEarly s c r o 5 3) ∧
      (∀ owner, ok = true → s.tenantOf? c.asid = some owner → c.ring ≠ 0 → owner ≠ r.owner → EndsEarly s c r o 4 0) := by
  refine ⟨?_, ?_, ?_⟩
  · rintro rfl
    exact ho ▸ hostCmd_unclean hr e body false true
  · rintro rfl ht
    exact ho ▸ hostCmd_noContext hr e body false ht
  · rintro owner rfl ht hring hne
    exact ho ▸ hostCmd_otherOwner hr e body ht hring hne

/-- A command whose record has more to be right than its unnamed bits. -/
theorem hostCmd_bad {o : Host.Outcome State Fault Refusal} {clean ok ring0 asid : Bool} (ho : o = hostCmd c e s ok ring0 asid body)
    (hok : clean = false → ok = false) (hc : clean = false) : EndsEarly s c r o 3 0 := by
  rw [ho, hok hc]
  exact hostCmd_unclean hr e body ring0 asid

end HostCmd

/-- Settles O47, command by command from the refusals of `hostCmd`. -/
theorem commandRefusals : Obligations.CommandRefusals := by
  unfold Obligations.CommandRefusals
  intro s c r hr
  refine ⟨?_, ?_, ?_, ?_, ?_, ?_⟩
  · repeat rw [List.forall_mem_cons]
    exact ⟨hostCmd_ring0 hr _ _ (exec_ringClose c s), hostCmd_ring0 hr _ _ (exec_ctxDestroy c s), hostCmd_ring0 hr _ _ (exec_ctxSstate c s),
      hostCmd_ring0 hr _ _ (exec_keySet c s), hostCmd_ring0 hr _ _ (exec_reset c s), hostCmd_ring0 hr _ _ (exec_debugHalt c s),
      hostCmd_ring0 hr _ _ (exec_debugResume c s), List.forall_mem_nil _⟩
  · repeat rw [List.forall_mem_cons]
    exact ⟨hostCmd_owned hr _ _ ((exec_unmap c s).trans (by unfold execUnmap; rfl)), hostCmd_owned hr _ _ (exec_launch c s), hostCmd_owned hr _ _ (exec_copyIn c s),
      hostCmd_owned hr _ _ (exec_copyOut c s), hostCmd_owned hr _ _ (exec_lrecFree c s), List.forall_mem_nil _⟩
  · repeat rw [List.forall_mem_cons]
    exact ⟨hostCmd_bad hr _ _ (exec_abort c s) id, hostCmd_bad hr _ _ (exec_query c s) id, hostCmd_bad hr _ _ (exec_attest c s) id,
      hostCmd_bad hr _ _ (exec_debugStop c s) id, hostCmd_bad hr _ _ (exec_debugGroup c s) id,
      hostCmd_bad hr _ _ ((exec_debugRun c s).trans (by unfold execDebugRun; rfl)) fun h => by rw [h, Bool.false_and], hostCmd_bad hr _ _ (exec_debugStep c s) id,
      hostCmd_bad hr _ _ (exec_bpset c s) id, hostCmd_bad hr _ _ (exec_bpclr c s) id, hostCmd_bad hr _ _ (exec_debugRead c s) id,
      hostCmd_bad hr _ _ ((exec_debugWrite c s).trans (by unfold execDebugWrite; rfl)) fun h => by rw [h, Bool.false_and], hostCmd_bad hr _ _ (exec_sample c s) id, List.forall_mem_nil _⟩
  · intro h
    rw [exec_ringOpen]
    exact hostCmd_bad (o := execRingOpen c s) hr _ _ (by unfold execRingOpen; rfl) (fun h => by simp only [h, Bool.false_and]) h
  · intro h
    rw [exec_ctxCreate]
    exact hostCmd_bad (o := execCtxCreate c s) hr _ _ (by unfold execCtxCreate; rfl) (fun h => by simp only [h, Bool.false_and]) h
  · intro h
    rw [exec_map]
    exact hostCmd_bad (o := execMap c s) hr _ _ (by unfold execMap; rfl) (fun h => by simp only [h, Bool.false_and]) h

end Sys2Proof.Machine
end


section
/-! SUPPORT. What an instruction leaves that retires, holds issue or sets everything itself (R64, R71, R343), and the waits of a release (R118, R120). -/

namespace Sys2Proof.Machine

/-! ### The acts of an instruction that may issue -/

section
variable {i : Instr} {s u : State} {body : State → Act}

theorem issue_next (h : CanIssue i s) (hb : body s.charge = .next u) : issue i s body = .next u.retire.advance := by
  rw [issue_go body h, hb]
  rfl

theorem issue_done (h : CanIssue i s) (hb : body s.charge = .done u) : issue i s body = .next u := by
  rw [issue_go body h, hb]
  rfl

theorem issue_again (h : CanIssue i s) {n : Nat} (hb : body s.charge = .hold u (.again n)) :
    issue i s body = .next (u.updCur fun x => { x with hold := .again n, word := encode i }) := by
  rw [issue_go body h, hb]
  rfl

theorem issue_trapIn (h : CanIssue i s) {c k : Nat} {x : W64} (hb : body s.charge = .trapIn u c k x) :
    issue i s body = .next (u.issueTrap (encode i) c k x) := by
  rw [issue_go body h, hb]
  rfl

end

theorem OnlySlot.refl (s : State) : OnlySlot s s := ⟨rfl, fun _ => rfl⟩

/-- Retirement in sequence is of the slot alone, where no notice waits for the end of a frame. -/
theorem State.retire_advance_only {s : State} (h : s.cur.frame = none ∨ s.cur.spec.undo = none) : OnlySlot s s.retire.advance := by
  rw [State.advance_eq (by simpa [State.retire_cur] using h)]
  exact (OnlySlot.retire s).trans (OnlySlot.updCur _ _)

/-- The slot after retirement in sequence. -/
theorem State.retire_advance_cur {s : State} (h : s.cur.frame = none ∨ s.cur.spec.undo = none) :
    s.retire.advance.cur = ({ s.cur with u := { s.cur.u with retired := s.cur.u.retired + 1 } } : Slot).step.countChunk s.pkg.chunkLimit := by
  rw [State.advance_eq (by simpa [State.retire_cur] using h), State.updCur_cur, State.retire_cur, State.retire_pkg]

section
variable {i : Instr} {s u : State} (h : CanIssue i s)
include h

/-- An instruction that changes its slot plainly, whatever it does beside, retires in sequence. -/
theorem CanIssue.retires {f : Slot → Slot} (hf : Plain f) (hu : u.cur = f s.charge.cur) :
    OnlySlot u u.retire.advance ∧ Sequel s.cur u.retire.advance.cur ∧ u.retire.advance.cur.regs = (f s.charge.cur).regs ∧
      u.retire.advance.cur.u.fflags = (f s.charge.cur).u.fflags := by
  have hx := hf s.charge.cur
  have hundo : u.cur.frame = none ∨ u.cur.spec.undo = none := by
    rw [hu, hx]
    simpa [State.charge_cur] using h.2
  have hhold := h.hold
  rw [State.retire_advance_cur hundo, Slot.countChunk_rest, Slot.step_rest]
  refine ⟨State.retire_advance_only hundo, ⟨?_, ?_, ?_⟩, ?_, ?_⟩
  · dsimp only
    rw [hu, hx]
    simp only [State.charge_cur]
    rw [← hhold]
  · exact (Slot.pc_step_congr _ _ (by rw [hu, hx]; simp [State.charge_cur]) (by rw [hu, hx]; simp [State.charge_cur])
      (by rw [hu, hx]; simp [State.charge_cur])).1
  · exact (Slot.pc_step_congr _ _ (by rw [hu, hx]; simp [State.charge_cur]) (by rw [hu, hx]; simp [State.charge_cur])
      (by rw [hu, hx]; simp [State.charge_cur])).2
  · dsimp only
    rw [hu]
  · dsimp only
    rw [hu]

/-- An instruction that leaves its slot as it was passes. -/
theorem CanIssue.passes (hu : u.cur = s.charge.cur) : OnlySlot u u.retire.advance ∧ Passed s.cur u.retire.advance.cur := by
  obtain ⟨ho, hs, hr, hf⟩ := h.retires (f := fun x => x) (fun _ => rfl) hu
  exact ⟨ho, hs, by simpa [State.charge_cur] using hr, by simpa [State.charge_cur] using hf⟩

/-- An instruction that writes one scalar register and goes on. -/
theorem CanIssue.setsG {d : RegNo} {v : W64} (hu : u.cur = s.charge.cur.writeG d v) :
    OnlySlot u u.retire.advance ∧ Sequel s.cur u.retire.advance.cur ∧ SetsG s.cur u.retire.advance.cur d v ∧
      u.retire.advance.cur.u.fflags = s.cur.u.fflags := by
  obtain ⟨ho, hs, hr, hf⟩ := h.retires (Plain.writeG d fun _ => v) hu
  refine ⟨ho, hs, ((Slot.writeG_sets s.charge.cur d v).of_regs hr ?_).from_regs (by simp [State.charge_cur]) (by simp [State.charge_cur]), ?_⟩
  · rw [hs.rest, Slot.writeG_u]
    simp [State.charge_cur]
  · rw [hf, Slot.writeG_u]
    simp [State.charge_cur]

/-- An instruction that changes the speculative state of its slot, outside a chunk, and goes on. -/
theorem CanIssue.setsSpec {sp : Spec} {c : W64} (hu : u.cur = { s.charge.cur with spec := sp, commits := c }) (hm : sp.mode ≠ .chunk)
    (hundo : s.cur.frame = none ∨ sp.undo = none) :
    OnlySlot u u.retire.advance ∧ u.retire.advance.cur = { s.cur with
      spec := sp, commits := c
      u := { s.cur.u with retired := s.cur.u.retired + 1, turns := s.cur.u.turns + 1 }
      stopReq := s.charge.cur.stopReq, pc := s.cur.step.pc, frame := s.cur.step.frame } := by
  have hundo' : u.cur.frame = none ∨ u.cur.spec.undo = none := by
    rw [hu]
    simpa [State.charge_cur] using hundo
  have hhold := h.hold
  refine ⟨State.retire_advance_only hundo', ?_⟩
  have hmode : u.cur.spec.mode ≠ .chunk := by rw [hu]; exact hm
  rw [State.retire_advance_cur hundo', Slot.countChunk, if_neg (by rw [Slot.step_spec]; simpa using hmode), Slot.step_rest]
  have hs := Slot.pc_step_congr s.cur ({ u.cur with u := { u.cur.u with retired := u.cur.u.retired + 1 } } : Slot)
    (by rw [hu]; simp [State.charge_cur]) (by rw [hu]; simp [State.charge_cur]) (by rw [hu]; simp [State.charge_cur])
  rw [hs.1, hs.2, hu]
  simp only [State.charge_cur]
  rw [← hhold]

end

/-! ### The wait of a release (R118, R120, R330) -/

/-- Whether some entry has a property does not change where an entry is replaced by one that has it as the old one had. -/
theorem Map.any_set {α : Type} (d a : α) (p : α → Bool) (m : Map α) (k : Nat) (ha : p a = p (m.getD d k)) (hd : p d = false) :
    (Map.set m k a).any (fun e => p e.2) = m.any fun e => p e.2 := by
  induction m with
  | nil => simpa [Map.set, hd] using ha.trans hd
  | cons e m ih =>
    obtain ⟨j, b⟩ := e
    have hmem : ∀ m : Map α, p (m.getD d k) = true → m.any (fun e => p e.2) = true := by
      intro m
      induction m with
      | nil => simp [Map.getD, hd]
      | cons e m ih =>
        obtain ⟨j, b⟩ := e
        simp only [Map.getD, List.any_cons, Bool.or_eq_true]
        split
        · exact .inl
        · exact fun h => .inr (ih h)
    simp only [Map.set]
    split
    · rw [List.any_cons, ha]
      cases hp : p (Map.getD d ((j, b) :: m) k)
      · rfl
      · rw [hmem _ hp, Bool.true_or]
    · split
      · rename_i hj
        rw [List.any_cons, List.any_cons, ha, Map.getD, if_pos hj]
      · rename_i hj
        rw [List.any_cons, List.any_cons, ih (by rw [ha, Map.getD, if_neg hj])]

/-- Counting leaves what is asked of every tile but its counters. -/
theorem State.any_tally {s : State} (tile code k : Nat) (p : Tile → Bool) (hd : p Tile.reset = false)
    (hp : ∀ (t : Tile) pcs, p { t with pcs := pcs } = p t) : ((s.tally tile code k).tiles.any fun e => p e.2) = s.tiles.any fun e => p e.2 := by
  unfold State.tally
  dsimp only
  split
  · exact Map.any_set Tile.reset _ p _ _ (hp ..) hd
  · rfl

section
variable (s : State) (sc : Scope)

@[simp] theorem State.charge_updatesOut (tid : W64) : s.charge.updatesOut tid sc = s.updatesOut tid sc := by
  simp [State.updatesOut]

@[simp] theorem State.charge_myTid : s.charge.myTid = s.cur.u.tid := by
  simp [State.myTid, State.charge_cur]

@[simp] theorem State.charge_task (tid : W64) : s.charge.task tid = s.task tid := by
  simp [State.task]

@[simp] theorem State.charge_refusal : s.charge.refusal sc = s.refusal sc := by
  simp [State.refusal, State.covers, State.myTid]

@[simp] theorem State.charge_enginesOut (tid : W64) : s.charge.enginesOut tid sc = s.enginesOut tid sc := by
  have htiles : (s.charge.tiles.any fun e => e.2.latches.any fun l => l.cmd.tid == tid && !l.on) =
      s.tiles.any fun e => e.2.latches.any fun l => l.cmd.tid == tid && !l.on :=
    State.any_tally (s := s.updCur _) _ _ _ (fun t => t.latches.any fun l => l.cmd.tid == tid && !l.on) rfl fun _ _ => rfl
  simp only [State.enginesOut, State.enginesBusy, State.engineWrites, State.podEngineWrites, State.charge_net, State.charge_pkg, State.charge_cores, htiles]

@[simp] theorem State.charge_commit : s.charge.cur.spec.commit = s.cur.spec.commit := by
  simp [State.charge_cur]

end

section
variable {s : State} {sc : Scope} {eng : Bool} (act : State → Act)

theorem awaitRelease_waits (h : ¬(s.cur.spec.commit ≠ .applying ∧ s.updatesOut s.cur.u.tid sc = false ∧ (eng = true → s.enginesOut s.cur.u.tid sc = false))) :
    awaitRelease s.charge sc eng act = .hold s.charge (.again 0) := by
  refine if_pos ?_
  rw [State.charge_commit, State.charge_myTid, State.charge_updatesOut, State.charge_enginesOut]
  cases he : s.updatesOut s.cur.u.tid sc <;> cases eng <;> cases hn : s.enginesOut s.cur.u.tid sc <;> simp_all

theorem awaitRelease_over (h : s.cur.spec.commit ≠ .applying ∧ s.updatesOut s.cur.u.tid sc = false)
    (he : eng = true → s.enginesOut s.cur.u.tid sc = false) :
    awaitRelease s.charge sc eng act = match s.refusal sc with
      | some f => .trapIn (s.charge.dropRefusal f) f.cause f.code f.xaddr
      | none => act s.charge := by
  unfold awaitRelease
  obtain ⟨hc, hu⟩ := h
  rw [State.charge_commit, State.charge_myTid, State.charge_updatesOut, State.charge_enginesOut, State.charge_refusal, hu]
  refine (if_neg ?_).trans rfl
  cases eng
  · simpa using hc
  · rw [he rfl]
    simpa using hc

theorem awaitRelease_released (h : Released s sc) : awaitRelease s.charge sc false act = act s.charge := by
  obtain ⟨hc, hu, hr⟩ := h
  rw [awaitRelease_over act ⟨hc, hu⟩ (fun h => absurd h (by decide)), hr]

end

/-! ### Fences (R120) -/

/-- An instruction whose act is to be examined again holds issue. -/
theorem holds_of_again {i : Instr} {s : State} {body : State → Act} (he : exec i s = issue i s body) (hb : body s.charge = .hold s.charge (.again 0)) :
    Holds i s := by
  intro h
  exact ⟨_, he.trans (issue_again h hb), (OnlySlot.charge s).trans (OnlySlot.updCur _ _), rfl, rfl, by simp [State.charge_cur], by simp [State.charge_cur],
    by simp [State.charge_cur], by simp [State.charge_cur]⟩

/-- What a fence does that waits for a condition. -/
theorem fence_kind {i : Instr} {s : State} {sc : Scope} (eng : Bool) (he : exec i s = issue i s fun s => awaitRelease s sc eng .next) {done : Prop}
    (hd : done ↔ (s.cur.spec.commit ≠ .applying ∧ s.updatesOut s.cur.u.tid sc = false) ∧ (eng = true → s.enginesOut s.cur.u.tid sc = false)) :
    (done → s.refusal sc = none → GoesOn i s) ∧ (¬done → Holds i s) ∧
      (done → ∀ f, s.refusal sc = some f → CanIssue i s →
        ∃ t, exec i s = .next t ∧ t = ((s.charge.dropRefusal f).issueTrap (encode i) f.cause f.code f.xaddr)) := by
  refine ⟨fun h hr => ?_, fun h => ?_, fun h f hr hc => ?_⟩
  · obtain ⟨hq, hs⟩ := hd.mp h
    exact goesOn_of_next he (by rw [awaitRelease_over _ hq hs, hr])
  · exact holds_of_again he (awaitRelease_waits _ (by rwa [hd, and_assoc] at h))
  · obtain ⟨hq, hs⟩ := hd.mp h
    exact ⟨_, he.trans (issue_trapIn hc (by rw [awaitRelease_over _ hq hs, hr])), rfl⟩

/-- Settles O15: each fence is the wait of a release, and kind 1 waits for nothing of its own. -/
theorem fences : Obligations.Fences := by
  intro s sc quiet settled kind
  exact ⟨goesOn_of_next (exec_fenceAcq ..) rfl, fence_kind false (exec_fence ..) (by simp [quiet]), fence_kind false (exec_fenceRel ..) (by simp [quiet]),
    fence_kind true (exec_fenceEng ..) (by simp [quiet, settled])⟩

end Sys2Proof.Machine
end


section
/-! PROOF. The barrier instructions at wire barriers (R222, R333 to R336). -/

namespace Sys2Proof.Machine

/-! ### What changes beside the slot -/

section
variable {s t : State} (h : OnlySlot s t)
include h

theorem OnlySlot.net : t.net = s.net := by rw [h.rest]
theorem OnlySlot.tasks : t.tasks = s.tasks := by rw [h.rest]
theorem OnlySlot.cores : t.cores = s.cores := by rw [h.rest]
theorem OnlySlot.pkg : t.pkg = s.pkg := by rw [h.rest]
theorem OnlySlot.curId : t.curId = s.curId := by rw [h.rest]
theorem OnlySlot.wires (tile : Nat) : (t.tile tile).wires = (s.tile tile).wires := by rw [h.counters]

end

/-- Beside the slot in focus, tiles and tasks changed, and what is in flight grew. -/
def OnlyTileTask (s t : State) : Prop :=
  t = { s with cur := t.cur, tiles := t.tiles, tasks := t.tasks, net := { s.net with pend := t.net.pend } }

theorem OnlySlot.tileTask {s t : State} (h : OnlySlot s t) : OnlyTileTask s t := by
  unfold OnlyTileTask
  rw [h.rest]

theorem OnlyTileTask.trans {s t u : State} (h : OnlyTileTask s t) (h' : OnlyTileTask t u) : OnlyTileTask s u := by
  unfold OnlyTileTask at *
  rw [h', h]

/-! ### Wire barriers -/

/-- A wire barrier of a tile. -/
def State.wire (s : State) (tile id : Nat) : Wire := (s.tile tile).wires.getD id ⟨0, 0, false⟩

/-- Replace a wire barrier of a tile. -/
def State.setWire (s : State) (tile id : Nat) (w : Wire) : State := s.updTile tile fun t => { t with wires := t.wires.setIfInBounds id w }

theorem OnlySlot.wire {s t : State} (h : OnlySlot s t) (tile id : Nat) : t.wire tile id = s.wire tile id := by
  unfold State.wire
  rw [h.wires]

theorem State.wire_setWire (s : State) (tile : Nat) {id : Nat} (k : Nat) (w : Wire) (hid : id < 16) :
    (s.setWire tile id w).wire tile k = if k = id then w else s.wire tile k := by
  unfold State.setWire State.wire
  rw [State.tile_updTile, if_pos rfl, vget_set _ _ _ _ _ hid]

theorem OnlyTileTask.setWire (s : State) (tile id : Nat) (w : Wire) : OnlyTileTask s (s.setWire tile id w) := rfl

/-- Every member of a barrier with this mask has arrived. -/
def AllArrived (mask arr : W64) : Prop := mask ≠ 0 ∧ arr &&& mask = mask

/-- A wire barrier that is settled as it has been set. -/
structure Settled (s t : State) (tile id : Nat) (w : Wire) : Prop where
  only : OnlyTileTask s t
  others : ∀ k, k ≠ id → t.wire tile k = s.wire tile k
  done : AllArrived w.mask w.arr → t.wire tile id = ⟨w.mask, 0, !w.phase⟩ ∧ Posts s t 1 (.barrierCompletion tile (.wire id) w.phase)
  not : ¬AllArrived w.mask w.arr → t.wire tile id = w ∧ t.net = s.net

theorem State.settleWire_eq (s : State) (tile id : Nat) : s.settleWire tile id =
    if (s.wire tile id).mask ≠ 0 ∧ (s.wire tile id).arr &&& (s.wire tile id).mask = (s.wire tile id).mask then
      (s.setWire tile id { s.wire tile id with arr := 0, phase := !(s.wire tile id).phase }).after 1
        (.barrierCompletion tile (.wire id) (s.wire tile id).phase)
    else s := rfl

theorem settled_settleWire (s : State) (tile : Nat) {id : Nat} (w : Wire) (hid : id < 16) : Settled s ((s.setWire tile id w).settleWire tile id) tile id w := by
  have hw : (s.setWire tile id w).wire tile id = w := by rw [State.wire_setWire _ _ _ _ hid, if_pos rfl]
  by_cases h : AllArrived w.mask w.arr
  · have he : (s.setWire tile id w).settleWire tile id =
        ((s.setWire tile id w).setWire tile id ⟨w.mask, 0, !w.phase⟩).after 1 (.barrierCompletion tile (.wire id) w.phase) := by
      rw [State.settleWire_eq, hw]
      exact if_pos h
    have hwire : ∀ k, ((s.setWire tile id w).settleWire tile id).wire tile k = if k = id then ⟨w.mask, 0, !w.phase⟩ else s.wire tile k := by
      intro k
      rw [he]
      refine (State.wire_setWire _ tile k _ hid).trans ?_
      split
      · rfl
      · rw [State.wire_setWire _ _ _ _ hid, if_neg ‹_›]
    refine ⟨?_, fun k hk => by rw [hwire, if_neg hk], fun _ => ⟨by rw [hwire, if_pos rfl], ?_⟩, fun hn => absurd h hn⟩ <;> rw [he] <;> rfl
  · have he : (s.setWire tile id w).settleWire tile id = s.setWire tile id w := by
      rw [State.settleWire_eq, hw]
      exact if_neg h
    rw [he]
    exact ⟨rfl, fun k hk => by rw [State.wire_setWire _ _ _ _ hid, if_neg hk], fun ha => absurd ha h, fun _ => ⟨hw, rfl⟩⟩

theorem State.settleWire_cur (s : State) (tile id : Nat) : (s.settleWire tile id).cur = s.cur := by
  rw [State.settleWire_eq]
  split <;> rfl

theorem State.settleWire_tasks (s : State) (tile id : Nat) : (s.settleWire tile id).tasks = s.tasks := by
  rw [State.settleWire_eq]
  split <;> rfl

/-- What comes before and after the barrier settles leaves the wires and what is in flight. -/
theorem Settled.frame {s v u t : State} {tile id : Nat} {w : Wire} (h : Settled v u tile id w) (hv : OnlyTileTask s v)
    (hwire : ∀ k, v.wire tile k = s.wire tile k) (hnet : v.net = s.net) (ht : OnlySlot u t) : Settled s t tile id w where
  only := (hv.trans h.only).trans ht.tileTask
  others k hk := by rw [ht.wire, h.others k hk, hwire]
  done ha := by
    obtain ⟨hw, hp⟩ := h.done ha
    have hnow : v.now = s.now := by rw [hv]; rfl
    refine ⟨by rw [ht.wire, hw], ?_⟩
    rw [Posts, ht.net, hp, hnet, hnow]
  not ha := by
    obtain ⟨hw, hn⟩ := h.not ha
    exact ⟨by rw [ht.wire, hw], by rw [ht.net, hn, hnet]⟩

/-! ### The barrier instructions -/

/-- What BARA does at a wire barrier once its wait is over (R222, R334). -/
def baraAct (id : BitVec 5) (s : State) : Act :=
  let w := s.wire s.myTile id.toNat
  if !w.mask.getLsbD (s.curId % 64) then .trap causeIllegal 7 ((encode (.bara id)).setWidth 64)
  else if w.arr.getLsbD (s.curId % 64) then .hold s (.again 0)
  else .next (((s.updTask s.myTid fun t => t.arrive id (some w.phase)).setWire s.myTile id.toNat
    ⟨w.mask, w.arr ||| BitVec.ofNat 64 (2 ^ (s.curId % 64)), w.phase⟩).settleWire s.myTile id.toNat)

@[simp] theorem State.charge_myTile (s : State) : s.charge.myTile = s.myTile := by simp [State.myTile]

section
variable {s : State} {id : BitVec 5} (hid : id.toNat < 16)

theorem charge_wire : s.charge.wire s.charge.myTile id.toNat = s.wire s.myTile id.toNat := by
  rw [State.charge_myTile]
  exact (OnlySlot.charge s).wire ..

include hid

theorem exec_bara_wire (s : State) : exec (.bara id) s = issue (.bara id) s fun s => awaitRelease s .tile false (baraAct id) := by
  rw [exec_bara]
  unfold execBara
  congr 1
  funext s
  exact if_pos hid

/-- A member arrives (R222, R334). -/
theorem bara_arrives (hr : Released s .tile) (hm : (s.wire s.myTile id.toNat).mask.getLsbD (s.curId % 64) = true)
    (ha : (s.wire s.myTile id.toNat).arr.getLsbD (s.curId % 64) = false) :
    let w := s.wire s.myTile id.toNat
    Completes (.bara id) s fun t => Passed s.cur t.cur ∧ (t.task s.cur.u.tid).arrival id = some w.phase ∧
      Settled s t s.myTile id.toNat ⟨w.mask, w.arr ||| BitVec.ofNat 64 (2 ^ (s.curId % 64)), w.phase⟩ := by
  intro w hc
  let w' : Wire := ⟨w.mask, w.arr ||| BitVec.ofNat 64 (2 ^ (s.curId % 64)), w.phase⟩
  let v := s.charge.updTask s.cur.u.tid fun t => t.arrive id (some w.phase)
  let u := (v.setWire s.myTile id.toNat w').settleWire s.myTile id.toNat
  obtain ⟨ho, hp⟩ := hc.passes (u := u) (State.settleWire_cur ..)
  refine ⟨_, (exec_bara_wire hid s).trans (issue_next (u := u) hc ?_), hp, ?_, ?_⟩
  · rw [awaitRelease_released _ hr, baraAct, charge_wire, State.charge_curId, hm, ha, State.charge_myTile, State.charge_myTid]
    rfl
  · have hrec : (v.task s.cur.u.tid).arrival id = some w.phase := by
      rw [State.task_updTask, if_pos rfl]
      exact (vget_set _ _ _ _ _ (by omega)).trans (if_pos rfl)
    rw [State.task, ho.tasks, State.settleWire_tasks]
    exact hrec
  · exact (settled_settleWire v s.myTile w' hid).frame ((OnlySlot.charge s).tileTask.trans rfl) (fun k => (OnlySlot.charge s).wire ..)
      (OnlySlot.charge s).net ho

/-- A slot that is no member traps (R334). -/
theorem bara_traps (hr : Released s .tile) (hm : (s.wire s.myTile id.toNat).mask.getLsbD (s.curId % 64) = false) :
    Traps (.bara id) s 0x01 7 ((encode (.bara id)).setWidth 64) := by
  refine traps_of_trap (exec_bara_wire hid s) ?_
  rw [awaitRelease_released _ hr, baraAct, charge_wire, State.charge_curId, hm]
  rfl

/-- The mask of a barrier is set (R222, R336). -/
theorem barset_sets (b : RegNo) :
    let w := s.wire s.myTile id.toNat
    Completes (.barset id b) s fun t => Sequel s.cur t.cur ∧ SetsG s.cur t.cur b 0 ∧
      Settled s t s.myTile id.toNat ⟨s.cur.readG b, w.arr, w.phase⟩ := by
  intro w hc
  let w' : Wire := ⟨s.cur.readG b, w.arr, w.phase⟩
  let u := (s.charge.setWire s.myTile id.toNat w').settleWire s.myTile id.toNat
  obtain ⟨ho, hq, hg, _⟩ := hc.setsG (u := u.updCur fun x => x.writeG b 0) (d := b) (v := 0) (congrArg (Slot.writeG · b 0) (State.settleWire_cur ..))
  refine ⟨_, (exec_barset id b s).trans (issue_next (u := u.updCur fun x => x.writeG b 0) hc ?_), hq, hg, ?_⟩
  · rw [if_pos hid, State.charge_readG]
    change Act.next (((s.charge.setWire s.charge.myTile id.toNat ⟨s.cur.readG b, (s.charge.wire s.charge.myTile id.toNat).arr,
      (s.charge.wire s.charge.myTile id.toNat).phase⟩).settleWire s.charge.myTile id.toNat).updCur _) = _
    rw [charge_wire, State.charge_myTile]
  · exact (settled_settleWire s.charge s.myTile w' hid).frame (OnlySlot.charge s).tileTask (fun k => (OnlySlot.charge s).wire ..)
      (OnlySlot.charge s).net ((OnlySlot.updCur u _).trans ho)

/-! ### Waiting at a barrier (R144, R334) -/

theorem charge_barName : s.charge.barName s.charge.cur id = .wire id.toNat := if_pos hid

end

section
variable {s : State} {id : BitVec 5}

theorem charge_barDone (ph : Bool) : s.charge.barDone (.wire id.toNat) ph = ((s.wire s.myTile id.toNat).phase != ph) := by
  rw [← charge_wire]
  rfl

theorem charge_arrival : (s.charge.task s.charge.myTid).arrival id = (s.task s.cur.u.tid).arrival id := by
  rw [State.charge_task, State.charge_myTid]

theorem barw_goesOn (ha : (s.task s.cur.u.tid).arrival id = none) : GoesOn (.barw id) s :=
  goesOn_of_next (exec_barw ..) (by rw [charge_arrival, ha])

theorem barg_goesOn (ha : (s.task s.cur.u.tid).arrival id = none) : GoesOn (.barg id) s :=
  goesOn_of_next (exec_barg ..) (by rw [charge_arrival, ha])

/-- A change of the task in focus and a retirement are confined. -/
theorem confined_updTask {s t : State} (f : Task → Task) (h : OnlySlot (s.charge.updTask s.charge.myTid f) t) : Confined s t where
  rest := by
    rw [h.rest, (OnlySlot.charge s).rest]
    rfl
  counters k := by
    have htile : (s.charge.updTask s.charge.myTid f).tile k = s.charge.tile k := rfl
    rw [h.counters k, htile, (OnlySlot.charge s).counters k]
  cores c _ := by
    rw [State.core, h.cores]
    exact congrArg (Map.getD Core.reset · c) (OnlySlot.charge s).cores
  tasks n hn := by
    rw [State.task, h.tasks]
    refine (State.task_updTask s.charge s.charge.myTid n f).trans ?_
    rw [State.charge_myTid, if_neg hn, State.charge_task]
  pend := by
    rw [h.net]
    simp

/-- The arrival record is cleared where the phase has completed. -/
theorem barrier_done {i : Instr} {body : State → Act} (he : exec i s = issue i s body)
    (hb : body s.charge = .next (s.charge.updTask s.charge.myTid fun t => t.arrive id none)) :
    Completes i s fun t => Passed s.cur t.cur ∧ Confined s t ∧ (t.task s.cur.u.tid).arrival id = none ∧ t.net = s.net := by
  intro hc
  obtain ⟨ho, hp⟩ := hc.passes (u := s.charge.updTask s.charge.myTid fun t => t.arrive id none) rfl
  refine ⟨_, he.trans (issue_next hc hb), hp, confined_updTask _ ho, ?_, ?_⟩
  · rw [State.task, ho.tasks]
    refine (congrArg (Task.arrival · id) ((State.task_updTask s.charge s.charge.myTid s.cur.u.tid _).trans (if_pos (by simp)))).trans ?_
    exact (vget_set _ _ _ _ _ (by omega)).trans (if_pos rfl)
  · rw [ho.net]
    simp

/-- A slot blocks at the barrier. -/
theorem barrier_blocks {i : Instr} {body : State → Act} (he : exec i s = issue i s body) (hb : body s.charge = .done (s.charge.retire.waitBarrier id)) :
    Completes i s fun t => OnlySlot s t ∧ t.cur.status = .blocked (.barrier id.toNat) ∧ t.cur.hold = .none ∧ t.cur.pc = s.cur.pc ∧
      t.cur.regs = s.cur.regs ∧ t.cur.u = { s.cur.u with retired := s.cur.u.retired + 1, turns := s.cur.u.turns + 1 } := by
  intro hc
  refine ⟨_, he.trans (issue_done hc hb), (OnlySlot.charge s).trans ((OnlySlot.retire _).trans (OnlySlot.updCur _ _)), rfl, rfl, ?_⟩
  simp [State.waitBarrier, State.retire_cur, State.charge_cur]

section
variable {ph : Bool} (hid : id.toNat < 16) (ha : (s.task s.cur.u.tid).arrival id = some ph)
include hid ha

theorem barw_done (hph : ph ≠ (s.wire s.myTile id.toNat).phase) :
    Completes (.barw id) s fun t => Passed s.cur t.cur ∧ Confined s t ∧ (t.task s.cur.u.tid).arrival id = none ∧ t.net = s.net := by
  refine barrier_done (exec_barw ..) ?_
  rw [charge_arrival, ha, charge_barName hid]
  exact if_pos (by simpa [charge_barDone] using hph.symm)

theorem barg_done (hph : ph ≠ (s.wire s.myTile id.toNat).phase) :
    Completes (.barg id) s fun t => Passed s.cur t.cur ∧ Confined s t ∧ (t.task s.cur.u.tid).arrival id = none ∧ t.net = s.net := by
  refine barrier_done (exec_barg ..) ?_
  rw [charge_arrival, ha]
  dsimp only
  rw [charge_barName hid]
  exact if_pos (by simpa [charge_barDone] using hph.symm)

theorem barw_blocks (hph : ph = (s.wire s.myTile id.toNat).phase) :
    Completes (.barw id) s fun t => OnlySlot s t ∧ t.cur.status = .blocked (.barrier id.toNat) ∧ t.cur.hold = .none ∧ t.cur.pc = s.cur.pc ∧
      t.cur.regs = s.cur.regs ∧ t.cur.u = { s.cur.u with retired := s.cur.u.retired + 1, turns := s.cur.u.turns + 1 } := by
  refine barrier_blocks (exec_barw ..) ?_
  rw [charge_arrival, ha, charge_barName hid]
  exact if_neg (by simpa [charge_barDone] using hph.symm)

theorem barg_blocks (hph : ph = (s.wire s.myTile id.toNat).phase) (hpiste : s.cur.sc.piste = true) :
    Completes (.barg id) s fun t => OnlySlot s t ∧ t.cur.status = .blocked (.barrier id.toNat) ∧ t.cur.hold = .none ∧ t.cur.pc = s.cur.pc ∧
      t.cur.regs = s.cur.regs ∧ t.cur.u = { s.cur.u with retired := s.cur.u.retired + 1, turns := s.cur.u.turns + 1 } := by
  refine barrier_blocks (exec_barg ..) ?_
  rw [charge_arrival, ha]
  dsimp only
  rw [charge_barName hid, if_neg (by simpa [charge_barDone] using hph.symm)]
  exact if_pos (by simpa [State.charge_cur] using hpiste)

/-- A glide begins (R144). -/
theorem barg_glides (hph : ph = (s.wire s.myTile id.toNat).phase) (hpiste : s.cur.sc.piste = false) (hcommit : s.cur.spec.commit = .none) :
    Completes (.barg id) s fun t => OnlySlot s t ∧ t.cur.regs = s.cur.regs ∧
      t.cur.u = { s.cur.u with retired := s.cur.u.retired + 1, turns := s.cur.u.turns + 1 } ∧ t.cur.pc = s.cur.step.pc ∧
      t.cur.spec = { Spec.none with
        mode := .glide, restart := s.cur.pc, ckpt := some ⟨s.cur.regs, s.cur.u.fflags, s.cur.u.frm, s.cur.frame⟩, watch := s.cur.spec.watch
        barrier := some (id.toNat, .wire id.toNat, ph) } := by
  intro hc
  let sp : Spec := { Spec.none with
    mode := .glide, restart := s.cur.pc, ckpt := some ⟨s.cur.regs, s.cur.u.fflags, s.cur.u.frm, s.cur.frame⟩, watch := s.cur.spec.watch
    barrier := some (id.toNat, .wire id.toNat, ph) }
  let u := s.charge.updCur fun x => { x with spec := sp }
  obtain ⟨ho, hcur⟩ := hc.setsSpec (u := u) rfl (SpecMode.noConfusion ·) (.inr rfl)
  refine ⟨_, (exec_barg id s).trans (issue_next (u := u) hc ?_), ((OnlySlot.charge s).trans (OnlySlot.updCur _ _)).trans ho, ?_, ?_, ?_, ?_⟩
  · rw [charge_arrival, ha]
    dsimp only
    rw [charge_barName hid, if_neg (by simpa [charge_barDone] using hph.symm), if_neg (by simpa [State.charge_cur] using hpiste),
      if_neg (by simpa using hcommit)]
    simp only [u, sp, State.updCur, State.charge_cur, Slot.checkpoint]
  all_goals rw [hcur]

end

theorem barq_reads (d : RegNo) (hid : id.toNat < 16) :
    let w := s.wire s.myTile id.toNat
    Gives (.barq d id) s d (BitVec.ofNat 64 (setBits (w.arr &&& w.mask) + setBits w.mask * 2 ^ 25 + (if w.phase then 2 ^ 50 else 0) +
      (if ((s.task s.cur.u.tid).arrival id).isSome then 2 ^ 51 else 0) + 2 ^ 52)) := by
  intro w
  refine gives_of_next (exec_barq ..) ?_
  rw [if_pos hid, State.barStatus, charge_barName hid, charge_arrival]
  change Act.next (s.charge.updCur fun x => s.charge.cur.writeG d (BitVec.ofNat 64
    (popc ((s.charge.wire s.charge.myTile id.toNat).arr &&& (s.charge.wire s.charge.myTile id.toNat).mask) +
      popc (s.charge.wire s.charge.myTile id.toNat).mask * 2 ^ 25 + (if (s.charge.wire s.charge.myTile id.toNat).phase then 2 ^ 50 else 0) +
      (if ((s.task s.cur.u.tid).arrival id).isSome then 2 ^ 51 else 0) + 2 ^ 52))) = _
  rw [charge_wire, popc_eq, popc_eq]
  rfl

end

/-- Settles O24, clause by clause from the lemmas above. -/
theorem wireBarriers : Obligations.WireBarriers := by
  intro s id d b hid wire w bit all others rest completed arr v
  refine ⟨fun hr hm ha hc => ?_, fun hr hm => bara_traps hid hr hm, fun ha => ⟨barw_goesOn ha, barg_goesOn ha⟩,
    fun ph ha hph => ⟨barw_done hid ha hph, barg_done hid ha hph⟩,
    fun ph ha hph => ⟨barw_blocks hid ha hph, barg_blocks hid ha hph, barg_glides hid ha hph⟩, barq_reads d hid, fun hc => ?_⟩
  · obtain ⟨t, ht, hp, hrec, hs⟩ := bara_arrives hid hr hm ha hc
    have hwt : ∀ k, wire t k = t.wire s.myTile k := fun _ => rfl
    exact ⟨t, ht, hp, hs.only, hs.others, hrec, hs.done, hs.not⟩
  · obtain ⟨t, ht, hq, hg, hs⟩ := barset_sets hid b hc
    exact ⟨t, ht, hq, hg, hs.only, hs.others, hs.done, hs.not⟩

end Sys2Proof.Machine
end


section
/-! PROOF. Transactions outside Piste mode (R136, R138, R139, R141, R337 to R340). -/

namespace Sys2Proof.Machine

/-! ### Relations that a fold of steps keeps -/

/-- A relation that every step of a fold keeps holds from its start to its end. -/
theorem foldl_keeps {α β : Type} {R : β → β → Prop} (hrefl : ∀ b, R b b) (htrans : ∀ {a b c}, R a b → R b c → R a c) {f : β → α → β}
    (hf : ∀ b a, R b (f b a)) (l : List α) (b : β) : R b (l.foldl f b) := by
  induction l generalizing b with
  | nil => exact hrefl b
  | cons a l ih => exact htrans (hf b a) (ih (f b a))

/-! ### What the end of a transaction changes -/

/-- Beside the slot in focus, tiles, cores and what is in flight, nothing changed. -/
def OnlyAbort (s t : State) : Prop :=
  t = { s with
    cur := t.cur, tiles := t.tiles, cores := t.cores
    net := { s.net with pend := t.net.pend, reqs := t.net.reqs, holds := t.net.holds, outbox := t.net.outbox } }

/-- Messages were put in flight, and nothing else changed. -/
def OnlyMessages (s t : State) : Prop :=
  t = { s with net := { s.net with pend := t.net.pend, reqs := t.net.reqs, outbox := t.net.outbox } }

theorem OnlyAbort.trans {s t u : State} (h : OnlyAbort s t) (h' : OnlyAbort t u) : OnlyAbort s u := by
  unfold OnlyAbort at *
  rw [h', h]

theorem OnlyMessages.refl (s : State) : OnlyMessages s s := rfl

theorem OnlyMessages.trans {s t u : State} (h : OnlyMessages s t) (h' : OnlyMessages t u) : OnlyMessages s u := by
  unfold OnlyMessages at *
  rw [h', h]

theorem OnlyMessages.onlyAbort {s t : State} (h : OnlyMessages s t) : OnlyAbort s t := by
  unfold OnlyAbort
  unfold OnlyMessages at h
  rw [h]

theorem OnlyMessages.cur {s t : State} (h : OnlyMessages s t) : t.cur = s.cur := by rw [h]
theorem OnlyMessages.cores {s t : State} (h : OnlyMessages s t) : t.cores = s.cores := by rw [h]
theorem OnlyMessages.curId {s t : State} (h : OnlyMessages s t) : t.curId = s.curId := by rw [h]

theorem OnlySlot.onlyAbort {s t : State} (h : OnlySlot s t) : OnlyAbort s t := by
  unfold OnlyAbort
  rw [h.rest]

theorem State.sendRelease_only (s : State) (slot : Nat) (ctx : W32) (home line mode : Nat) : OnlyMessages s (s.sendRelease slot ctx home line mode) := by
  unfold State.sendRelease
  dsimp only
  split <;> rfl

theorem State.retryLine_only (s : State) (home line : Nat) : OnlyMessages s (s.retryLine home line) :=
  foldl_keeps OnlyMessages.refl OnlyMessages.trans (fun _ _ => by rfl) ..

/-- Releasing buoys sends messages and forgets them in the slot. -/
theorem State.releaseWatch_eq (s : State) (p : Watch → Bool) :
    ∃ t, OnlyMessages s t ∧ s.releaseWatch p = t.updCur fun x => { x with spec := { x.spec with watch := x.spec.watch.filter fun w => !p w } } :=
  ⟨_, foldl_keeps OnlyMessages.refl OnlyMessages.trans (fun s w => by exact s.sendRelease_only ..) .., rfl⟩

theorem State.releaseWatch_only (s : State) (p : Watch → Bool) : OnlyAbort s (s.releaseWatch p) := by
  obtain ⟨t, ht, he⟩ := s.releaseWatch_eq p
  rw [he]
  exact ht.onlyAbort.trans rfl

@[simp] theorem State.releaseWatch_cur (s : State) (p : Watch → Bool) :
    (s.releaseWatch p).cur = { s.cur with spec := { s.cur.spec with watch := s.cur.spec.watch.filter fun w => !p w } } := by
  obtain ⟨t, ht, he⟩ := s.releaseWatch_eq p
  rw [he, State.updCur_cur, ht.cur]

@[simp] theorem State.releaseWatch_cores (s : State) (p : Watch → Bool) : (s.releaseWatch p).cores = s.cores := by
  obtain ⟨t, ht, he⟩ := s.releaseWatch_eq p
  rw [he, State.updCur_cores, ht.cores]

@[simp] theorem State.releaseWatch_curId (s : State) (p : Watch → Bool) : (s.releaseWatch p).curId = s.curId := by
  obtain ⟨t, ht, he⟩ := s.releaseWatch_eq p
  rw [he, State.updCur_curId, ht.curId]

theorem State.dropHolds_eq (s : State) (slot : Nat) :
    OnlyMessages { s with net := { s.net with holds := s.net.holds.filter fun h => !(h.slot == slot) } } (s.dropHolds slot) :=
  foldl_keeps OnlyMessages.refl OnlyMessages.trans (fun s h => by exact s.retryLine_only ..) ..

theorem State.dropHolds_only (s : State) (slot : Nat) : OnlyAbort s (s.dropHolds slot) := by
  unfold OnlyAbort
  rw [s.dropHolds_eq slot]

@[simp] theorem State.dropHolds_cur (s : State) (slot : Nat) : (s.dropHolds slot).cur = s.cur := (s.dropHolds_eq slot).cur
@[simp] theorem State.dropHolds_cores (s : State) (slot : Nat) : (s.dropHolds slot).cores = s.cores := (s.dropHolds_eq slot).cores
@[simp] theorem State.dropHolds_curId (s : State) (slot : Nat) : (s.dropHolds slot).curId = s.curId := (s.dropHolds_eq slot).curId

/-- No line of the buffer of a slot remains from a level on. -/
theorem State.dropBuf_levels (s : State) (slot lvl : Nat) :
    ∀ b ∈ ((s.dropBuf slot lvl).core (coreOf slot)).buf, b.slot = slot → b.level < lvl := by
  intro b hb hs
  rw [State.dropBuf, State.core_updCore, if_pos rfl] at hb
  have := (List.mem_filter.mp hb).2
  simpa [hs] using this

theorem State.dropBuf_only (s : State) (slot lvl : Nat) : OnlyAbort s (s.dropBuf slot lvl) := rfl

theorem State.dropOps_only (s : State) : OnlyAbort s s.dropOps := rfl

/-! ### Aborts (R138) -/

section
variable (v : State) (cause code : Nat)

/-- The state of a transaction that aborts, before its slot is restored. -/
def State.txUndone (s : State) : State :=
  let t := (((s.dropBuf s.curId 0).dropOps).dropHolds s.curId).releaseWatch Watch.isTx
  t.tally t.myTile 10 1

/-- The slot of a transaction that has aborted. -/
def Slot.aborted (x : Slot) (now cause code lvl : Nat) : Slot :=
  { x.restore with
    pc := x.spec.abortTo
    status := .ready
    frame := none
    wait := now + 1
    u := { x.restore.u with txcause := BitVec.ofNat 15 (cause + code % 256 * 16 + lvl % 8 * 4096) }
    spec := x.spec.ended_ false }

theorem State.txAbort_eq (hm : v.cur.spec.mode = .tx) :
    v.txAbort cause code = v.txUndone.updCur fun x => x.aborted v.txUndone.now cause code v.cur.spec.depth := by
  have hmode : ((((v.dropBuf v.curId 0).dropOps).dropHolds v.curId).cur.spec.mode == .chunk) = false := by
    rw [State.dropHolds_cur]
    exact beq_eq_false_iff_ne.mpr (fun h => SpecMode.noConfusion (hm.symm.trans h))
  have hid : ((v.dropBuf v.curId 0).dropOps).curId = v.curId := rfl
  unfold State.txAbort
  dsimp only
  rw [hid, hmode]
  rfl

theorem State.txUndone_only : OnlyAbort v v.txUndone :=
  ((((State.dropBuf_only v v.curId 0).trans (State.dropOps_only _)).trans (State.dropHolds_only ..)).trans (State.releaseWatch_only ..)).trans
    (OnlySlot.tally ..).onlyAbort

theorem State.txUndone_cur : v.txUndone.cur = { v.cur with
    ops := [], fails := [], busy := [], inwin := false, hold := .none, skip := (0, 0)
    spec := { v.cur.spec with watch := v.cur.spec.watch.filter fun w => !w.isTx } } := by
  rw [State.txUndone, State.tally_cur, State.releaseWatch_cur, State.dropHolds_cur]
  rfl

theorem State.txUndone_buf : ∀ b ∈ (v.txUndone.core (coreOf v.curId)).buf, b.slot ≠ v.curId := by
  intro b hb hs
  rw [State.core, State.txUndone, State.tally_cores, State.releaseWatch_cores, State.dropHolds_cores] at hb
  exact Nat.not_lt_zero _ (v.dropBuf_levels v.curId 0 b hb hs)

/-- A transaction aborts, at an instruction that has spent its turn and perhaps retired. -/
theorem aborted_txAbort {s v : State} (hv : OnlySlot s v) (hspec : v.cur.spec = s.cur.spec) (hlevel : v.cur.level = s.cur.level)
    (hm : s.cur.spec.mode = .tx) (cause code : Nat) : Aborted s (v.txAbort cause code) cause code := by
  rw [State.txAbort_eq v cause code (by rw [hspec, hm])]
  have hcur := v.txUndone_cur
  rw [hspec] at hcur
  have hck : v.txUndone.cur.spec.ckpt = s.cur.spec.ckpt := by rw [hcur]
  have hr : v.txUndone.cur.restore = { v.txUndone.cur with regs := v.txUndone.cur.restore.regs, u := v.txUndone.cur.restore.u } := by
    unfold Slot.restore
    split <;> rfl
  refine ⟨?_, ?_, rfl, ?_, fun c hc => ?_, ?_, ?_, ?_, ?_⟩
  · change v.txUndone.cur.spec.abortTo = _
    rw [hcur]
  · change v.txUndone.cur.restore.level = _
    rw [hr, hcur]
    exact hlevel
  · change v.txUndone.cur.spec.ended_ false = _
    rw [hcur]
    rfl
  · change v.txUndone.cur.restore.regs = _ ∧ v.txUndone.cur.restore.u.fflags = _ ∧ v.txUndone.cur.restore.u.frm = _
    rw [Slot.restore, hck, hc]
    exact ⟨rfl, rfl, rfl⟩
  · change BitVec.ofNat 15 (cause + code % 256 * 16 + v.cur.spec.depth % 8 * 4096) = _
    rw [hspec]
  · rw [← hv.curId]
    exact v.txUndone_buf
  · change v.txUndone.cur.restore.ops = _
    rw [hr, hcur]
  · exact (hv.onlyAbort.trans v.txUndone_only).trans rfl

end

theorem issue_abort {i : Instr} {s : State} {body : State → Act} (h : CanIssue i s) {c k : Nat} (hb : body s.charge = .abort c k) :
    issue i s body = .next (s.charge.txAbort c k) := by
  rw [issue_go body h, hb]
  rfl

/-! ### What may open, and what a level holds -/

/-- In a transaction outside Piste mode the turn an instruction spends leaves the speculative state. -/
theorem State.charge_spec {s : State} (hp : s.cur.sc.piste = false) : s.charge.cur.spec = s.cur.spec := by
  rw [State.charge_cur, hp]
  simp

theorem charge_inTx {s : State} (hc : s.cur.spec.commit = .none) (hp : s.cur.sc.piste = false) (hm : s.cur.spec.mode = .tx) : s.charge.cur.inTx = true := by
  have h := State.charge_spec hp
  simp [Slot.inTx, Slot.specMode, h, hc, hm]

theorem charge_notInTx {s : State} (hm : s.cur.spec.mode = .none) : s.charge.cur.inTx = false := by
  have h : s.charge.cur.spec.mode = .none := by rw [State.charge_cur]; exact hm
  simp [Slot.inTx, Slot.specMode, h]

theorem target_eq_ofNat (pc : Addr) (disp : BitVec 23) :
    target pc disp = BitVec.ofNat 48 ((pc.toNat + 4 * disp.toInt : Int) % 2 ^ 48).toNat := by
  rw [← target_toNat, BitVec.ofNat_toNat, BitVec.setWidth_eq]

/-- What a transaction instruction leaves that goes on in sequence. -/
structure KeptOn (s t : State) : Prop where
  regs : t.cur.regs = s.cur.regs
  u : t.cur.u = { s.cur.u with retired := s.cur.u.retired + 1, turns := s.cur.u.turns + 1 }
  pc : t.cur.pc = s.cur.step.pc
  mem : t.mem = s.mem
  attrs : t.attrs = s.attrs

/-- The same with the data of memory and the speculative state that the instruction leaves. -/
theorem CanIssue.keptOn {i : Instr} {s u : State} (h : CanIssue i s) {sp : Spec} (hu : u.cur = { s.charge.cur with spec := sp }) (hm : sp.mode ≠ .chunk)
    (hundo : s.cur.frame = none ∨ sp.undo = none) (hmem : u.mem = s.mem) (hattrs : u.attrs = s.attrs) :
    KeptOn s u.retire.advance ∧ u.retire.advance.cur.spec = sp := by
  obtain ⟨ho, hcur⟩ := h.setsSpec hu hm hundo
  refine ⟨⟨?_, ?_, ?_, ?_, ?_⟩, ?_⟩
  · rw [hcur]
  · rw [hcur]
  · rw [hcur]
  · rw [ho.rest]
    exact hmem
  · rw [ho.rest]
    exact hattrs
  · rw [hcur]

section
variable {s : State} (disp : BitVec 23) (hc : s.cur.spec.commit = .none) (hp : s.cur.sc.piste = false)
include hc hp

theorem txb_opens (hm : s.cur.spec.mode = .none) : Completes (.txb disp) s fun t => OnlySlot s t ∧ KeptOn s t ∧
    t.cur.spec = { Spec.none with
      mode := .tx, depth := 1, restart := s.cur.pc, abortTo := target s.cur.pc disp
      ckpt := some ⟨s.cur.regs, s.cur.u.fflags, s.cur.u.frm, s.cur.frame⟩, watch := s.cur.spec.watch } := by
  intro hi
  let sp : Spec := { Spec.none with
    mode := .tx, depth := 1, restart := s.cur.pc, abortTo := target s.cur.pc disp
    ckpt := some ⟨s.cur.regs, s.cur.u.fflags, s.cur.u.frm, s.cur.frame⟩, watch := s.cur.spec.watch }
  let u := s.charge.updCur fun x => { x with spec := sp }
  have hkeep := hi.keptOn (u := u) (sp := sp) rfl (SpecMode.noConfusion ·) (.inr rfl) (State.charge_mem s) (State.charge_attrs s)
  refine ⟨_, (exec_txb disp s).trans (issue_next (u := u) hi ?_),
    ((OnlySlot.charge s).trans (OnlySlot.updCur _ _)).trans (State.retire_advance_only (.inr rfl)), hkeep⟩
  dsimp only
  rw [State.charge_commit, hc, charge_notInTx hm]
  simp only [u, sp, State.updCur, State.charge_cur, hm, hp, Slot.checkpoint]
  rfl

theorem txb_nests (hm : s.cur.spec.mode = .tx) (hn : s.cur.spec.depth < 4) : Completes (.txb disp) s fun t => OnlySlot s t ∧ KeptOn s t ∧
    t.cur.spec = { s.cur.spec with depth := s.cur.spec.depth + 1, alts := s.cur.spec.alts.setIfInBounds s.cur.spec.depth none } := by
  intro hi
  let sp : Spec := { s.cur.spec with depth := s.cur.spec.depth + 1, alts := s.cur.spec.alts.setIfInBounds s.cur.spec.depth none }
  let u := s.charge.updCur fun x => { x with spec := sp }
  have hmode : sp.mode ≠ .chunk := fun h => SpecMode.noConfusion (hm.symm.trans h)
  have hkeep := hi.keptOn (u := u) (sp := sp) rfl hmode hi.2 (State.charge_mem s) (State.charge_attrs s)
  refine ⟨_, (exec_txb disp s).trans (issue_next (u := u) hi ?_),
    ((OnlySlot.charge s).trans (OnlySlot.updCur _ _)).trans (State.retire_advance_only ?_), hkeep⟩
  · dsimp only
    rw [State.charge_commit, hc, charge_inTx hc hp hm, State.charge_spec hp, if_neg (by decide), if_pos rfl, if_neg (by omega)]
    simp only [u, sp, State.updCur, State.charge_spec hp]
    rfl
  · simpa [u, State.charge_cur] using hi.2

theorem txb_tooDeep (hm : s.cur.spec.mode = .tx) (hn : 4 ≤ s.cur.spec.depth) : Completes (.txb disp) s fun t => Aborted s t 7 0x0D := by
  intro hi
  refine ⟨_, (exec_txb disp s).trans (issue_abort hi ?_), aborted_txAbort (OnlySlot.charge s) (State.charge_spec hp) (by rw [State.charge_cur]) hm 7 0x0D⟩
  dsimp only
  rw [State.charge_commit, hc, charge_inTx hc hp hm, State.charge_spec hp, if_neg (by decide), if_pos rfl, if_pos hn]

theorem txelse_arms (hm : s.cur.spec.mode = .tx) : Completes (.txelse disp) s fun t => OnlySlot s t ∧ KeptOn s t ∧
    t.cur.spec = { s.cur.spec with alts := s.cur.spec.alts.setIfInBounds (s.cur.spec.depth - 1) (some (target s.cur.pc disp)) } := by
  intro hi
  let sp : Spec := { s.cur.spec with alts := s.cur.spec.alts.setIfInBounds (s.cur.spec.depth - 1) (some (target s.cur.pc disp)) }
  let u := s.charge.updCur fun x => { x with spec := sp }
  have hmode : sp.mode ≠ .chunk := fun h => SpecMode.noConfusion (hm.symm.trans h)
  have hkeep := hi.keptOn (u := u) (sp := sp) rfl hmode hi.2 (State.charge_mem s) (State.charge_attrs s)
  refine ⟨_, (exec_txelse disp s).trans (issue_next (u := u) hi ?_),
    ((OnlySlot.charge s).trans (OnlySlot.updCur _ _)).trans (State.retire_advance_only ?_), hkeep⟩
  · rw [charge_inTx hc hp hm, if_neg (by decide)]
    simp only [u, sp, State.updCur, State.charge_spec hp, charge_pc]
    rfl
  · simpa [u, State.charge_cur] using hi.2

end

/-! ### The end of a level (R141) -/

/-- Only tables of homes and tiles changed. -/
def OnlyTables (s t : State) : Prop := t = { s with homes := t.homes, tiles := t.tiles }

theorem OnlyTables.refl (s : State) : OnlyTables s s := rfl

theorem OnlyTables.trans {s t u : State} (h : OnlyTables s t) (h' : OnlyTables t u) : OnlyTables s u := by
  unfold OnlyTables at *
  rw [h', h]

theorem State.setBuoys_only (s : State) (home : Nat) (b : List Buoy) (age : Nat) : OnlyTables s (s.setBuoys home b age) := by
  unfold State.setBuoys
  split <;> rfl

/-- A change of the buoys' modes changes tables of homes, and what the slot knows of its buoys. -/
theorem State.remode_eq (s : State) (f : Watch → Watch) :
    ∃ t, OnlyTables s t ∧ s.remode f = t.updCur fun x => { x with spec := { x.spec with watch := x.spec.watch.map f } } :=
  ⟨_, foldl_keeps OnlyTables.refl OnlyTables.trans (fun s w => by exact s.setBuoys_only ..) .., rfl⟩

section
variable (s : State) (f : Watch → Watch)

@[simp] theorem State.remode_cur : (s.remode f).cur = { s.cur with spec := { s.cur.spec with watch := s.cur.spec.watch.map f } } := by
  obtain ⟨t, ht, he⟩ := s.remode_eq f
  rw [he, State.updCur_cur, ht]

@[simp] theorem State.remode_cores : (s.remode f).cores = s.cores := by
  obtain ⟨t, ht, he⟩ := s.remode_eq f
  rw [he, State.updCur_cores, ht]

@[simp] theorem State.remode_mem : (s.remode f).mem = s.mem := by
  obtain ⟨t, ht, he⟩ := s.remode_eq f
  rw [he, State.updCur_mem, ht]

@[simp] theorem State.remode_attrs : (s.remode f).attrs = s.attrs := by
  obtain ⟨t, ht, he⟩ := s.remode_eq f
  rw [he, State.updCur_attrs, ht]

@[simp] theorem State.remode_curId : (s.remode f).curId = s.curId := by
  obtain ⟨t, ht, he⟩ := s.remode_eq f
  rw [he, State.updCur_curId, ht]

@[simp] theorem State.remode_pkg : (s.remode f).pkg = s.pkg := by
  obtain ⟨t, ht, he⟩ := s.remode_eq f
  rw [he, State.updCur_pkg, ht]

end

/-- Only the buffers of cores changed. -/
def OnlyCores (s t : State) : Prop := t = { s with cores := t.cores }

theorem OnlyCores.refl (s : State) : OnlyCores s s := rfl

theorem OnlyCores.trans {s t u : State} (h : OnlyCores s t) (h' : OnlyCores t u) : OnlyCores s u := by
  unfold OnlyCores at *
  rw [h', h]

theorem State.foldLevel_only (s : State) (slot lvl : Nat) : OnlyCores s (s.foldLevel slot lvl) :=
  OnlyCores.trans (t := s.dropBuf slot lvl) rfl (foldl_keeps OnlyCores.refl OnlyCores.trans (fun _ _ => by rfl) ..)

/-- The lines that a slot's buffer holds are below a level. -/
def LevelsBelow (s : State) (slot lvl : Nat) : Prop := ∀ b ∈ (s.core (coreOf slot)).buf, b.slot = slot → b.level < lvl

theorem LevelsBelow.bufferWrite {s : State} {slot lvl level : Nat} (h : LevelsBelow s slot lvl) (hl : level < lvl) (key : Nat × Nat) (mask : Nat)
    (data : List Byte) : LevelsBelow (s.bufferWrite slot level key mask data) slot lvl := by
  intro b hb hs
  rw [State.bufferWrite, State.core_updCore, if_pos rfl] at hb
  rcases List.mem_append.mp hb with hb | hb
  · exact h b (List.mem_filter.mp hb).1 hs
  · rw [List.mem_singleton.mp hb]
    dsimp only
    cases hf : (s.core (coreOf slot)).buf.find? fun b => b.slot == slot && b.home == key.1 && b.vline == key.2 && b.level == level with
    | none => exact hl
    | some o =>
      have := List.find?_some hf
      simp only [Bool.and_eq_true, beq_iff_eq] at this
      exact this.2 ▸ hl

/-- Folding a level leaves no line at it. -/
theorem State.foldLevel_levels (s : State) (slot : Nat) {lvl : Nat} (hl : 0 < lvl) : LevelsBelow (s.foldLevel slot lvl) slot lvl := by
  unfold State.foldLevel
  exact List.foldlRecOn (motive := fun v => LevelsBelow v slot lvl) _ _ (s.dropBuf_levels slot lvl) fun _ hb _ _ => hb.bufferWrite (by omega) _ _ _

/-- What the buoys of a level become as the level is folded. -/
def Watch.fold (n : Nat) (w : Watch) : Watch := if w.isTx && w.level == n then { w with level := n - 1 } else w

/-- The slot after an inner level has closed. -/
theorem State.closeLevel_cur (s : State) : s.closeLevel.cur = { s.cur with
    spec := { s.cur.spec with
      depth := s.cur.spec.depth - 1, alts := s.cur.spec.alts.setIfInBounds (s.cur.spec.depth - 1) none
      watch := s.cur.spec.watch.map (Watch.fold s.cur.spec.depth) } } := by
  unfold State.closeLevel
  rw [State.updCur_cur, State.remode_cur, (s.foldLevel_only _ _)]
  rfl

theorem State.closeLevel_buf (s : State) (hn : 0 < s.cur.spec.depth) : LevelsBelow s.closeLevel s.curId s.cur.spec.depth := by
  intro b hb hs
  refine s.foldLevel_levels s.curId hn b ?_ hs
  rwa [State.core, State.closeLevel, State.updCur_cores, State.remode_cores] at hb

theorem State.closeLevel_mem (s : State) : s.closeLevel.mem = s.mem := by
  rw [State.closeLevel, State.updCur_mem, State.remode_mem, (s.foldLevel_only _ _)]

theorem State.closeLevel_attrs (s : State) : s.closeLevel.attrs = s.attrs := by
  rw [State.closeLevel, State.updCur_attrs, State.remode_attrs, (s.foldLevel_only _ _)]

section
variable {s : State} (hc : s.cur.spec.commit = .none) (hp : s.cur.sc.piste = false) (hm : s.cur.spec.mode = .tx)
include hc hp hm

theorem txe_closesLevel (hn : 1 < s.cur.spec.depth) : Completes .txe s fun t => (KeptOn s t ∧
    t.cur.spec = { s.cur.spec with
      depth := s.cur.spec.depth - 1, alts := s.cur.spec.alts.setIfInBounds (s.cur.spec.depth - 1) none
      watch := s.cur.spec.watch.map (Watch.fold s.cur.spec.depth) }) ∧
    ∀ l ∈ (t.core (coreOf s.curId)).buf, l.slot = s.curId → l.level ≠ s.cur.spec.depth := by
  intro hi
  let u := s.charge.closeLevel
  have hcur := s.charge.closeLevel_cur
  rw [State.charge_spec hp] at hcur
  have hkeep := hi.keptOn (u := u) hcur (fun h => SpecMode.noConfusion (hm.symm.trans h)) hi.2 (by rw [State.closeLevel_mem, State.charge_mem])
    (by rw [State.closeLevel_attrs, State.charge_attrs])
  refine ⟨_, (exec_txe s).trans (issue_next (u := u) hi ?_), hkeep, fun l hl hs => ?_⟩
  · rw [charge_inTx hc hp hm, State.charge_spec hp, if_neg (by decide), if_pos hn]
  · have hundo : u.cur.frame = none ∨ u.cur.spec.undo = none := by
      rw [hcur]
      simpa [State.charge_cur] using hi.2
    rw [State.core, (State.retire_advance_only hundo).cores] at hl
    have hbelow := s.charge.closeLevel_buf (by rw [State.charge_spec hp]; omega)
    rw [State.charge_spec hp, State.charge_curId] at hbelow
    exact Nat.ne_of_lt (hbelow l hl hs)

end

/-! ### Commits (R141) -/

section
variable (s : State)

@[simp] theorem State.charge_bufKeys (slot : Nat) : s.charge.bufKeys slot = s.bufKeys slot := by
  simp [State.bufKeys, State.core]

@[simp] theorem State.charge_tlb? (home : Nat) (asid : BitVec 14) (va : Nat) : s.charge.tlb? home asid va = s.tlb? home asid va := by
  rw [(OnlySlot.charge s).rest]
  rfl

@[simp] theorem State.charge_walk (asid : BitVec 14) (va : Nat) : s.charge.walk asid va = s.walk asid va := by
  rw [(OnlySlot.charge s).rest]
  rfl

@[simp] theorem State.charge_writeSet : s.charge.writeSet = s.writeSet := by
  have hasid : s.charge.cur.sc.asid = s.cur.sc.asid := by rw [State.charge_cur]
  have hline : ∀ k, s.charge.homeLine k = s.homeLine k := fun k => by
    simp only [State.homeLine, State.charge_tlb?, State.charge_walk, hasid]
  simp only [State.writeSet, State.charge_bufKeys, State.charge_curId, hline]

theorem State.charge_noticeComing (hp : s.cur.sc.piste = false) : s.charge.noticeComing = s.noticeComing := by
  have hctx : s.charge.cur.mc.ctxser = s.cur.mc.ctxser := by rw [State.charge_cur]
  simp only [State.noticeComing, State.charge_net, State.charge_curId, hctx, State.charge_spec hp]

/-- The state in which the commit of a transaction with these lines is applied. -/
def State.atPoint (keys : List (Nat × Nat)) : State :=
  let t := s.releaseWatch fun w => w.isTx || w.mode == 3
  let t := { t with net := { t.net with holds := t.net.holds.map fun (h : LineHold) => if h.slot = t.curId then { h with point := true } else h } }
  t.updCur fun x => { x with spec := { x.spec with
    wake := false, commit := .applying, toHold := [], toApply := keys, stalled := false, undo := none } }

theorem State.atPoint_only (keys : List (Nat × Nat)) : OnlyAbort s (s.atPoint keys) := (s.releaseWatch_only _).trans rfl

theorem State.atPoint_cur (keys : List (Nat × Nat)) : (s.atPoint keys).cur = { s.cur with spec := { s.cur.spec with
    wake := false, commit := .applying, toHold := [], toApply := keys, stalled := false, undo := none
    watch := s.cur.spec.watch.filter fun w => !(w.isTx || w.mode == 3) } } := by
  unfold State.atPoint
  simp only [State.updCur_cur, State.releaseWatch_cur]

theorem State.finishCommit_tx (hm : s.cur.spec.mode = .tx) : s.finishCommit =
    ((s.dropHolds s.curId).updCur fun x => { x with commits := x.commits + 1, spec := { Spec.none with watch := x.spec.watch } }).retire.advance := by
  unfold State.finishCommit
  dsimp only
  rw [hm]
  rfl

/-- Without a write set a transaction commits at once. -/
theorem State.commitPoint_nil (hm : s.cur.spec.mode = .tx) (hw : s.writeSet = []) :
    ∃ u, OnlyAbort s u ∧ s.commitPoint = u.retire.advance ∧ u.cur = { s.cur with
      commits := s.cur.commits + 1, spec := { Spec.none with watch := s.cur.spec.watch.filter fun w => !(w.isTx || w.mode == 3) } } := by
  have hpoint : s.commitPoint = (s.atPoint []).finishCommit := by
    unfold State.commitPoint
    rw [hw]
    rfl
  refine ⟨_, ?_, hpoint.trans (State.finishCommit_tx _ (by rw [State.atPoint_cur]; exact hm)), ?_⟩
  · exact ((s.atPoint_only []).trans (State.dropHolds_only ..)).trans rfl
  · rw [State.updCur_cur, State.dropHolds_cur, State.atPoint_cur]

end

section
variable {s : State} (hc : s.cur.spec.commit = .none) (hp : s.cur.sc.piste = false) (hm : s.cur.spec.mode = .tx) (hn : s.cur.spec.depth = 1)
include hc hp hm hn

theorem txe_commits (hb : s.bufKeys s.curId = []) (hnotice : s.noticeComing = false) : Completes .txe s fun t => KeptOn s t ∧
    t.cur.commits = s.cur.commits + 1 ∧ t.cur.spec = { Spec.none with watch := s.cur.spec.watch.filter fun w => !w.isTx && w.mode != 3 } := by
  intro hi
  have hw : s.charge.writeSet = [] := by
    rw [State.charge_writeSet, State.writeSet, hb]
    rfl
  obtain ⟨u, hu, he, hcur⟩ := s.charge.commitPoint_nil (by rw [State.charge_spec hp, hm]) hw
  obtain ⟨ho, ht⟩ := hi.setsSpec hcur (SpecMode.noConfusion ·) (.inr rfl)
  have hspec := State.charge_spec hp
  refine ⟨_, (exec_txe s).trans (issue_done (u := s.charge.commitPoint) hi ?_), ?_, ?_, ?_⟩
  · rw [charge_inTx hc hp hm, hspec, hn, hm, hw, State.charge_noticeComing s hp, hnotice]
    rfl
  · rw [he]
    refine ⟨?_, ?_, ?_, ?_, ?_⟩
    · rw [ht]
    · rw [ht]
    · rw [ht]
    · rw [ho.rest]
      change u.mem = _
      rw [hu]
      exact State.charge_mem s
    · rw [ho.rest]
      change u.attrs = _
      rw [hu]
      exact State.charge_attrs s
  · rw [he, ht]
    simp [State.charge_cur]
  · rw [he, ht]
    dsimp only
    rw [hspec]
    simp only [Bool.not_or, bne]

theorem txe_holds {k : Nat × Nat} {ks : List (Nat × Nat)} (hw : s.writeSet = k :: ks) : Completes .txe s fun t =>
    t.cur.hold = .answer 0 ∧ t.cur.word = encode .txe ∧ t.cur.pc = s.cur.pc ∧
      t.cur.regs = s.cur.regs ∧ t.cur.u = { s.cur.u with turns := s.cur.u.turns + 1 } ∧ t.mem = s.mem ∧ t.attrs = s.attrs ∧
      t.cur.spec = { s.cur.spec with commit := .holding, toHold := k :: ks } ∧
      Posts s t (hopHome s.myTile (Nat.min k.1 575)) (.commitHold s.curId k.1 k.2) := by
  intro hi
  have hw' : s.charge.writeSet = k :: ks := by rw [State.charge_writeSet, hw]
  have hstart : s.charge.startCommit = (s.charge.updCur fun x => { x with spec := { x.spec with commit := .holding, toHold := k :: ks } }).after
      (hopHome s.charge.myTile (Nat.min k.1 575)) (.commitHold s.charge.curId k.1 k.2) := by
    unfold State.startCommit
    rw [hw']
    rfl
  refine ⟨_, (exec_txe s).trans (issue_done (u := s.charge.startCommit.updCur fun x => { x with hold := .answer 0, word := encode .txe }) hi ?_),
    rfl, rfl, ?_⟩
  · rw [charge_inTx hc hp hm, State.charge_spec hp, hn, hm, hw']
    rfl
  · rw [hstart, State.charge_myTile, State.charge_curId]
    simp [State.charge_cur, hp, Posts, State.now, State.after, State.updCur]

end

/-! ### Retries (R139, R140) -/

/-- What the buoys become as a retry leaves level `n`. -/
def Watch.retry (n : Nat) (w : Watch) : Watch :=
  if (w.mode == 1 && w.level == n) || (w.mode == 2 && decide (n < w.level)) then { w with mode := 2, level := n } else w

/-- A retry has left a level: its lines are dropped and its buoys are a sleeper's. -/
def State.leaveLevel (s : State) (n : Nat) : State := (s.dropBuf s.curId n).remode (Watch.retry n)

section
variable (s : State) (n : Nat)

theorem State.txRetry_succ : State.txRetry (n + 1) s = match (s.leaveLevel (n + 1)).cur.spec.alt (n + 1) with
    | some a => ((s.leaveLevel (n + 1)).updCur fun x => { x with spec := { x.spec.arm (n + 1) none with depth := n + 1 } }).jump a
    | none => State.txRetry n (s.leaveLevel (n + 1)) := rfl

@[simp] theorem State.leaveLevel_cur : (s.leaveLevel n).cur = { s.cur with spec := { s.cur.spec with watch := s.cur.spec.watch.map (Watch.retry n) } } :=
  State.remode_cur ..

@[simp] theorem State.leaveLevel_mem : (s.leaveLevel n).mem = s.mem := State.remode_mem ..
@[simp] theorem State.leaveLevel_attrs : (s.leaveLevel n).attrs = s.attrs := State.remode_attrs ..
@[simp] theorem State.leaveLevel_curId : (s.leaveLevel n).curId = s.curId := State.remode_curId ..

theorem State.leaveLevel_buf : LevelsBelow (s.leaveLevel n) s.curId n := by
  intro b hb
  rw [State.leaveLevel, State.core, State.remode_cores] at hb
  exact s.dropBuf_levels s.curId n b hb

end

/-- A slot as a retry has left it so far: only buoys differ, and buffer lines are gone. -/
structure Retrying (s t : State) : Prop where
  cur : ∃ ws, t.cur = { s.cur with spec := { s.cur.spec with watch := ws } }
  mem : t.mem = s.mem
  attrs : t.attrs = s.attrs
  curId : t.curId = s.curId

theorem Retrying.leaveLevel {s t : State} (h : Retrying s t) (n : Nat) : Retrying s (t.leaveLevel n) := by
  obtain ⟨⟨ws, hcur⟩, hmem, hattrs, hid⟩ := h
  exact ⟨⟨ws.map (Watch.retry n), by rw [State.leaveLevel_cur, hcur]⟩, by rw [State.leaveLevel_mem, hmem], by rw [State.leaveLevel_attrs, hattrs],
    by rw [State.leaveLevel_curId, hid]⟩

/-- With no alternative armed a retry passes out of every level. -/
theorem State.txRetry_none {s : State} (n : Nat) {v : State} (hv : Retrying s v) (h : ∀ k, k ≤ n → s.cur.spec.alt k = none) :
    ∃ w, Retrying s w ∧ State.txRetry n v = w.txSleep := by
  induction n generalizing v with
  | zero => exact ⟨v, hv, rfl⟩
  | succ n ih =>
    have hleft := hv.leaveLevel (n + 1)
    obtain ⟨ws, hcur⟩ := hleft.cur
    have halt : (v.leaveLevel (n + 1)).cur.spec.alt (n + 1) = none := by
      rw [hcur]
      exact h (n + 1) (Nat.le_refl _)
    rw [State.txRetry_succ, halt]
    exact ih hleft fun k hk => h k (by omega)

/-- The slot that sleeps at its restart point. -/
def Slot.sleeping (x : Slot) (now : Nat) : Slot :=
  { x.restore with pc := x.spec.restart, wait := now + 1, status := .blocked .retrySleep, spec := x.spec.ended_ true }

theorem State.txSleep_tx (s : State) (hm : s.cur.spec.mode = .tx) :
    s.txSleep = if s.cur.spec.wake then ((s.dropBuf s.curId 0).updCur fun x => x.sleeping s.now).wakeSleeper
      else (s.dropBuf s.curId 0).updCur fun x => x.sleeping s.now := by
  have hmode : ((s.dropBuf s.curId 0).cur.spec.mode == .chunk) = false :=
    beq_eq_false_iff_ne.mpr (fun h => SpecMode.noConfusion (hm.symm.trans h))
  unfold State.txSleep
  dsimp only
  rw [hmode]
  cases hw : s.cur.spec.wake
  · exact if_neg (by simpa [State.updCur, State.dropBuf, State.updCore, Spec.ended_] using hw)
  · exact if_pos (by simpa [State.updCur, State.dropBuf, State.updCore, Spec.ended_] using hw)

/-- What is left of a transaction whose retry found no alternative. -/
structure Slept (s t : State) (cp : Ckpt) : Prop where
  pc : t.cur.pc = s.cur.spec.restart
  regs : t.cur.regs = cp.regs
  fflags : t.cur.u.fflags = cp.fflags
  frm : t.cur.u.frm = cp.frm
  depth : t.cur.spec.depth = 0
  mode : t.cur.spec.mode = .none
  txcause : t.cur.u.txcause = s.cur.u.txcause
  mem : t.mem = s.mem
  attrs : t.attrs = s.attrs
  buf : ∀ l ∈ (t.core (coreOf s.curId)).buf, l.slot ≠ s.curId
  status : t.cur.status = if s.cur.spec.wake then .ready else .blocked .retrySleep

theorem Slot.restore_ckpt {x : Slot} {cp : Ckpt} (h : x.spec.ckpt = some cp) :
    x.restore = { x with regs := cp.regs, u := { x.u with fflags := cp.fflags, frm := cp.frm } } := by
  unfold Slot.restore
  rw [h]

theorem State.dropBuf_none (s : State) (slot : Nat) : ∀ l ∈ ((s.dropBuf slot 0).core (coreOf slot)).buf, l.slot ≠ slot :=
  fun l hl hs => Nat.not_lt_zero _ (s.dropBuf_levels slot 0 l hl hs)

theorem State.wakeSleeper_cur (s : State) : s.wakeSleeper.cur = { s.cur with
    status := .ready, occurred := true, spec := { s.cur.spec with wake := false, watch := s.cur.spec.watch.filter fun w => !(w.mode == 2) } } := by
  rw [State.wakeSleeper, State.updCur_cur, State.releaseWatch_cur]

theorem slept_txSleep (s : State) (hm : s.cur.spec.mode = .tx) {cp : Ckpt} (hcp : s.cur.spec.ckpt = some cp) : Slept s s.txSleep cp := by
  let v := (s.dropBuf s.curId 0).updCur fun x => x.sleeping s.now
  have hcur : v.cur = { s.cur with
      regs := cp.regs, u := { s.cur.u with fflags := cp.fflags, frm := cp.frm }, pc := s.cur.spec.restart, wait := s.now + 1
      status := .blocked .retrySleep, spec := s.cur.spec.ended_ true } := by
    change s.cur.sleeping s.now = _
    rw [Slot.sleeping, Slot.restore_ckpt hcp]
  have hbuf : ∀ l ∈ (v.core (coreOf s.curId)).buf, l.slot ≠ s.curId := s.dropBuf_none s.curId
  rw [State.txSleep_tx s hm]
  cases hw : s.cur.spec.wake
  · change Slept s v cp
    refine ⟨?_, ?_, ?_, ?_, ?_, ?_, ?_, rfl, rfl, hbuf, ?_⟩ <;> rw [hcur]
    · rfl
    · rfl
    · rw [hw]; rfl
  · change Slept s v.wakeSleeper cp
    have hwake := v.wakeSleeper_cur
    have honly : OnlyAbort v v.wakeSleeper := (v.releaseWatch_only _).trans rfl
    have hcores : v.wakeSleeper.cores = v.cores := v.releaseWatch_cores _
    refine ⟨?_, ?_, ?_, ?_, ?_, ?_, ?_, ?_, ?_, ?_, ?_⟩
    · rw [hwake, hcur]
    · rw [hwake, hcur]
    · rw [hwake, hcur]
    · rw [hwake, hcur]
    · rw [hwake, hcur]; rfl
    · rw [hwake, hcur]; rfl
    · rw [hwake, hcur]
    · rw [honly]; rfl
    · rw [honly]; rfl
    · rw [State.core, hcores]; exact hbuf
    · rw [hwake, hw]; rfl

section
variable {s : State} (hc : s.cur.spec.commit = .none) (hp : s.cur.sc.piste = false) (hm : s.cur.spec.mode = .tx)
include hc hp hm

theorem txr_sleeps (h : ∀ k, k ≤ s.cur.spec.depth → s.cur.spec.alt k = none) {cp : Ckpt} (hcp : s.cur.spec.ckpt = some cp) :
    Completes .txr s fun t => Slept s t cp := by
  intro hi
  have hspec := State.charge_spec hp
  have hcur : s.charge.retire.cur.spec = s.cur.spec := by rw [State.retire_cur]; exact hspec
  obtain ⟨w, hw, he⟩ := State.txRetry_none (s := s.charge.retire) s.cur.spec.depth ⟨⟨_, rfl⟩, rfl, rfl, rfl⟩ (by rw [hcur]; exact h)
  obtain ⟨⟨ws, hwcur⟩, hmem, hattrs, hid⟩ := hw
  have hs := slept_txSleep w (cp := cp) (by rw [hwcur, hcur]; exact hm) (by rw [hwcur, hcur]; exact hcp)
  refine ⟨_, (exec_txr s).trans (issue_done (u := State.txRetry s.cur.spec.depth s.charge.retire) hi ?_), ?_⟩
  · rw [charge_inTx hc hp hm, hspec]
    rfl
  · rw [he]
    refine ⟨?_, hs.regs, hs.fflags, hs.frm, hs.depth, hs.mode, ?_, ?_, ?_, ?_, ?_⟩
    · rw [hs.pc, hwcur, hcur]
    · rw [hs.txcause, hwcur]
      simp [State.retire_cur, State.charge_cur]
    · rw [hs.mem, hmem]
      simp
    · rw [hs.attrs, hattrs]
      simp
    · have hbuf := hs.buf
      rw [hid] at hbuf
      simpa using hbuf
    · rw [hs.status, hwcur, hcur]

theorem txr_alternative (hn : 1 ≤ s.cur.spec.depth) {a : Addr} (ha : s.cur.spec.alt s.cur.spec.depth = some a) : Completes .txr s fun t =>
    t.cur.pc = a ∧ t.cur.regs = s.cur.regs ∧ t.cur.spec.depth = s.cur.spec.depth ∧
      t.cur.spec.alt s.cur.spec.depth = none ∧ t.cur.spec.mode = .tx ∧ t.cur.u.txcause = s.cur.u.txcause ∧ t.mem = s.mem ∧ t.attrs = s.attrs ∧
      (∀ l ∈ (t.core (coreOf s.curId)).buf, l.slot = s.curId → l.level < s.cur.spec.depth) ∧
      t.cur.spec.watch = s.cur.spec.watch.map (Watch.retry s.cur.spec.depth) := by
  intro hi
  have hspec := State.charge_spec hp
  have hcur : s.charge.retire.cur.spec = s.cur.spec := by rw [State.retire_cur]; exact hspec
  obtain ⟨n, hd⟩ : ∃ n, s.cur.spec.depth = n + 1 := ⟨s.cur.spec.depth - 1, by omega⟩
  rw [hd] at ha ⊢
  have hregs : s.charge.retire.cur.regs = s.cur.regs := by rw [State.retire_cur, State.charge_cur]
  have htxcause : s.charge.retire.cur.u.txcause = s.cur.u.txcause := by rw [State.retire_cur, State.charge_cur]
  have hmem : (s.charge.retire.leaveLevel (n + 1)).mem = s.mem := by rw [State.leaveLevel_mem, State.retire_mem, State.charge_mem]
  have hattrs : (s.charge.retire.leaveLevel (n + 1)).attrs = s.attrs := by rw [State.leaveLevel_attrs, State.retire_attrs, State.charge_attrs]
  let v := s.charge.retire.leaveLevel (n + 1)
  have hv : v.cur = { s.charge.retire.cur with spec := { s.cur.spec with watch := s.cur.spec.watch.map (Watch.retry (n + 1)) } } := by
    rw [State.leaveLevel_cur, hcur]
  have halt : v.cur.spec.alt (n + 1) = some a := by
    rw [hv]
    exact ha
  let u := v.updCur fun x => { x with spec := { x.spec.arm (n + 1) none with depth := n + 1 } }
  have hu : u.cur.spec = { s.cur.spec with watch := s.cur.spec.watch.map (Watch.retry (n + 1)), alts := s.cur.spec.alts.setIfInBounds n none, depth := n + 1 } := by
    change ({ v.cur.spec.arm (n + 1) none with depth := n + 1 } : Spec) = _
    rw [hv]
    rfl
  have hv : v.cur.regs = s.charge.retire.cur.regs ∧ v.cur.u.txcause = s.charge.retire.cur.u.txcause := by
    rw [hv]
    exact ⟨rfl, rfl⟩
  have hjump : (u.jump a).cur = { u.cur with pc := a, hold := .none, skip := (0, 0), wait := u.now + 2 } := by
    rw [State.jump, State.updCur_cur, Slot.countChunk, if_neg]
    change ¬(u.cur.spec.mode == .chunk) = true
    rw [hu]
    exact fun h => SpecMode.noConfusion (hm.symm.trans (eq_of_beq h))
  have hretry : State.txRetry (n + 1) s.charge.retire = u.jump a := by
    rw [State.txRetry_succ, halt]
  refine ⟨_, (exec_txr s).trans (issue_done (u := State.txRetry (n + 1) s.charge.retire) hi ?_), ?_⟩
  · rw [charge_inTx hc hp hm, hspec, hd]
    rfl
  · rw [hretry]
    dsimp only
    rw [hjump]
    dsimp only
    rw [hu]
    refine ⟨rfl, hv.1.trans hregs, rfl, ?_, hm, hv.2.trans htxcause, ?_, ?_, ?_, rfl⟩
    · rw [Spec.alt, if_neg (by omega), Nat.add_sub_cancel]
      by_cases h : n < 4
      · exact (vget_set _ _ _ _ _ h).trans (if_pos rfl)
      · rw [vget, dif_neg h]
    · rw [State.jump, State.updCur_mem, State.updCur_mem, hmem]
    · rw [State.jump, State.updCur_attrs, State.updCur_attrs, hattrs]
    · have hbuf := s.charge.retire.leaveLevel_buf (n + 1)
      rw [State.retire_curId, State.charge_curId] at hbuf
      rw [State.core, State.jump, State.updCur_cores, State.updCur_cores]
      exact hbuf

theorem txabort_aborts (c : BitVec 8) : Completes (.txabort c) s fun t => Aborted s t 4 c.toNat := by
  intro hi
  refine ⟨_, (exec_txabort c s).trans (issue_done hi (if_pos (charge_inTx hc hp hm))),
    aborted_txAbort ((OnlySlot.charge s).trans (OnlySlot.retire _)) ?_ ?_ hm 4 c.toNat⟩
  · rw [State.retire_cur]
    exact State.charge_spec hp
  · simp [State.retire_cur, State.charge_cur]

end

/-! ### Status (R340) -/

theorem State.charge_txStatus {s : State} (hp : s.cur.sc.piste = false) : s.charge.txStatus = s.txStatus := by
  have hrsv : s.charge.cur.rsv = s.cur.rsv := by rw [State.charge_cur]
  simp only [State.txStatus, State.charge_spec hp, State.charge_bufKeys, State.charge_curId, hrsv]

/-- Settles O25, instruction by instruction from the lemmas above. -/
theorem transactionInstructions : Obligations.TransactionInstructions := by
  intro s disp c d hc hp x n dest kept open_
  have hdest : target x.pc disp = dest := target_eq_ofNat ..
  have hkept {t : State} (h : KeptOn s t) : kept t := ⟨h.regs, h.u, h.pc, h.mem, h.attrs⟩
  refine ⟨fun hm hi => ?_, fun hm hn hi => ?_, fun hm hn => txb_tooDeep disp hc hp hm hn, fun hm hi => ?_, fun hm => ⟨?_, ?_, ?_, ?_⟩, fun hm hn hi => ?_,
    fun hm hn hb hnotice hi => ?_, fun hm hn k ks hw => txe_holds hc hp hm hn hw, fun hm hn a ha => txr_alternative hc hp hm hn ha, fun hm h cp hcp hi => ?_,
    fun hm => txabort_aborts hc hp hm c, ?_⟩
  · obtain ⟨t, ht, ho, hk, hs⟩ := txb_opens disp hc hp hm hi
    exact ⟨t, ht, ho, hkept hk, hdest ▸ hs⟩
  · obtain ⟨t, ht, ho, hk, hs⟩ := txb_nests disp hc hp hm hn hi
    exact ⟨t, ht, ho, hkept hk, hs⟩
  · obtain ⟨t, ht, ho, hk, hs⟩ := txelse_arms disp hc hp hm hi
    exact ⟨t, ht, ho, hkept hk, hdest ▸ hs⟩
  · exact traps_of_trap (exec_txelse ..) (by rw [charge_notInTx hm]; rfl)
  · exact traps_of_trap (exec_txe ..) (by rw [charge_notInTx hm]; rfl)
  · exact traps_of_trap (exec_txr ..) (by rw [charge_notInTx hm]; rfl)
  · exact goesOn_of_next (exec_txabort ..) (by rw [charge_notInTx hm]; rfl)
  · obtain ⟨t, ht, ⟨hk, hs⟩, hb⟩ := txe_closesLevel hc hp hm hn hi
    exact ⟨t, ht, hkept hk, hs, hb⟩
  · obtain ⟨t, ht, hk, hs⟩ := txe_commits hc hp hm hn hb hnotice hi
    exact ⟨t, ht, hkept hk, hs⟩
  · obtain ⟨t, ht, hs⟩ := txr_sleeps hc hp hm h hcp hi
    exact ⟨t, ht, hs.pc, hs.regs, hs.fflags, hs.frm, hs.depth, hs.mode, hs.txcause, hs.mem, hs.attrs, hs.buf, hs.status⟩
  · refine gives_of_next (exec_txst ..) ?_
    rw [State.charge_txStatus hp]
    rfl

end Sys2Proof.Machine
end


section
/-! PROOF. The checks of an access that fail before anything is sent (R317, Table 4.7). -/

namespace Sys2Proof.Machine

section
variable {s : State} {a : Access} {e : Elem}

/-- Step 1 of Table 4.7. -/
theorem slotChecks_tag (ht : a.base.extractLsb' 48 4 ≠ 0) : s.slotChecks a e = .inl ⟨e.lane, causeAddr, 1, a.base⟩ := by
  simp only [State.slotChecks, if_pos ht]

/-- Step 3 of Table 4.7, after a step 2 that finds nothing. -/
theorem slotChecks_range (ht : a.base.extractLsb' 48 4 = 0) (hf : a.fmt = none) (hr : elemVa a.base e.off < 0 ∨ 2 ^ 48 ≤ elemVa a.base e.off) :
    s.slotChecks a e = .inl ⟨e.lane, causeAddr, 2, effPtr a.base (elemVa a.base e.off)⟩ := by
  rw [elemVa, ← vaOf_eq] at hr ⊢
  simp only [State.slotChecks, ht, hf, ne_eq, not_true_eq_false, if_false, if_pos hr]

/-- Step 4 of Table 4.7. -/
theorem slotChecks_align (ht : a.base.extractLsb' 48 4 = 0) (hf : a.fmt = none) (h0 : 0 ≤ elemVa a.base e.off) (h1 : elemVa a.base e.off < 2 ^ 48)
    (hn : (elemVa a.base e.off).toNat % a.align ≠ 0) :
    s.slotChecks a e = .inl ⟨e.lane, causeAlign, a.align, effPtr a.base (elemVa a.base e.off)⟩ := by
  have hr : ¬(elemVa a.base e.off < 0 ∨ (2 : Int) ^ 48 ≤ elemVa a.base e.off) := by omega
  rw [elemVa, ← vaOf_eq] at hr hn ⊢
  simp only [State.slotChecks, ht, hf, ne_eq, not_true_eq_false, if_false, if_neg hr, if_pos hn]

/-- An access of one element fails as that element does. -/
theorem checkAll_single {f : Failure} (h : s.slotChecks a e = .inl f) : s.checkAll a [e] = .inl f := by
  simp only [State.checkAll, h]

theorem accessAct_trap {i : Instr} {wb : WriteBack} {f : Failure} (h : s.checkAll a a.elems = .inl f) :
    accessAct i s a wb = .trap f.cause f.code f.xaddr := by
  simp only [accessAct, h]

end

/-- The traps of a form with an offset. -/
def ChecksTrap (i : Instr) (s : State) (p : W64) (o : Int) (n : Nat) : Prop :=
  (p.extractLsb' 48 4 ≠ 0 → Traps i s 0x03 1 p) ∧
  (p.extractLsb' 48 4 = 0 → (elemVa p o < 0 ∨ 2 ^ 48 ≤ elemVa p o) → Traps i s 0x03 2 (effPtr p (elemVa p o))) ∧
  (p.extractLsb' 48 4 = 0 → 0 ≤ elemVa p o → elemVa p o < 2 ^ 48 → (elemVa p o).toNat % n ≠ 0 → Traps i s 0x06 n (effPtr p (elemVa p o)))

/-- An instruction that makes an access of one element without a format check traps as the steps of Table 4.7 say. -/
theorem checksTrap_of_access {i : Instr} {s : State} {body : State → Act} {a : Access} {e : Elem} (hfmt : a.fmt = none)
    (he : exec i s = issue i s body) (hb : ∀ f, s.charge.slotChecks a e = .inl f → body s.charge = .trap f.cause f.code f.xaddr) :
    ChecksTrap i s a.base e.off a.align :=
  ⟨fun ht => traps_of_trap he (hb _ (slotChecks_tag ht)), fun ht hr => traps_of_trap he (hb _ (slotChecks_range ht hfmt hr)),
    fun ht h0 h1 hn => traps_of_trap he (hb _ (slotChecks_align ht hfmt h0 h1 hn))⟩

/-- A form without an offset is never out of range, and its effective pointer is the base. -/
theorem ChecksTrap.plain {i : Instr} {s : State} {p : W64} {n : Nat} (h : ChecksTrap i s p 0 n) :
    (p.extractLsb' 48 4 ≠ 0 → Traps i s 0x03 1 p) ∧ (p.extractLsb' 48 4 = 0 → (elemVa p 0).toNat % n ≠ 0 → Traps i s 0x06 n p) := by
  obtain ⟨htag, _, halign⟩ := h
  refine ⟨htag, fun ht hn => ?_⟩
  have hlt : p.toNat % 2 ^ 48 < 2 ^ 48 := Nat.mod_lt _ (by decide)
  have hp : effPtr p (elemVa p 0) = p := by
    rw [elemVa, Int.add_zero, effPtr]
    apply BitVec.eq_of_toNat_eq
    rw [BitVec.toNat_append, BitVec.toNat_ofInt, BitVec.extractLsb'_toNat]
    have := p.isLt
    rw [← Nat.shiftLeft_add_eq_or_of_lt (by omega)]
    omega
  have := halign ht (by rw [elemVa]; omega) (by rw [elemVa]; omega) hn
  rwa [hp] at this

/-- The body of an instruction that checks its access of one element and makes it. -/
theorem checksTrap_of_accessAct {i : Instr} {s : State} {a : Slot → Access} {e : Elem} {p : W64} {n : Nat} {wb : WriteBack}
    (he : exec i s = issue i s fun s => accessAct i s (a s.cur) wb) (hfmt : (a s.charge.cur).fmt = none)
    (hbase : (a s.charge.cur).base = p) (halign : (a s.charge.cur).align = n) (helems : (a s.charge.cur).elems = [e]) :
    ChecksTrap i s p e.off n := by
  subst hbase halign
  exact checksTrap_of_access hfmt he fun f hf => accessAct_trap (by rw [helems]; exact checkAll_single hf)

section
variable (s : State) (d a b c : RegNo) (la : BitVec 4) (x : Bool) (sz : Size) (asz : ASize) (off : BitVec 9)

theorem ld_traps : ChecksTrap (.ld d a la x sz off) s (s.cur.readG a) (off.toInt * bytesOf sz) (bytesOf sz) :=
  checksTrap_of_accessAct (a := fun y => ⟨y.readG a, szBytes sz, .load, false, none, sz == .d && !x,
    [⟨0, off.toInt * szBytes sz, szBytes sz, lowMask (szBytes sz), []⟩]⟩) (by rfl) rfl (s.charge_readG a) (by rfl) rfl

theorem ldn_traps : ChecksTrap (.ldn d a la x sz off) s (s.cur.readG a) (off.toInt * bytesOf sz) (bytesOf sz) :=
  checksTrap_of_accessAct (a := fun y => ⟨y.readG a, szBytes sz, .load, false, none, false,
    [⟨0, off.toInt * szBytes sz, szBytes sz, lowMask (szBytes sz), []⟩]⟩) (by rfl) rfl (s.charge_readG a) (by rfl) rfl

theorem st_traps : ChecksTrap (.st d a la x sz off) s (s.cur.readG a) (off.toInt * bytesOf sz) (bytesOf sz) :=
  checksTrap_of_accessAct (a := fun y => ⟨y.readG a, szBytes sz, .store, true, none, sz == .d && !x,
    [⟨0, off.toInt * szBytes sz, szBytes sz, lowMask (szBytes sz), regBytes (szBytes sz) (y.readG d)⟩]⟩)
    (by rfl) rfl (s.charge_readG a) (by rfl) rfl

theorem ldf_traps : ChecksTrap (.ldf d a la) s (s.cur.readG a) 0 8 :=
  checksTrap_of_accessAct (a := fun y => ⟨y.readG a, 8, .ldf, true, none, false, [⟨0, 0, 8, lowMask 8, []⟩]⟩)
    (by rfl) rfl (s.charge_readG a) rfl rfl

theorem stef_traps : ChecksTrap (.stef d a la) s (s.cur.readG a) 0 8 :=
  checksTrap_of_accessAct (a := fun y => ⟨y.readG a, 8, .stef, true, none, false, [⟨0, 0, 8, lowMask 8, regBytes 8 (y.readG d)⟩]⟩)
    (by rfl) rfl (s.charge_readG a) rfl rfl

theorem amoAdd_traps : ChecksTrap (.amoAdd d a b la asz) s (s.cur.readG a) 0 (aBytesOf asz) :=
  checksTrap_of_accessAct (a := fun y => ⟨y.readG a, aszBytes asz, .amo .add, true, none, false,
    [⟨0, 0, aszBytes asz, lowMask (aszBytes asz), regBytes (aszBytes asz) (y.readG b)⟩]⟩) (by rfl) rfl (s.charge_readG a) (by rfl) rfl

theorem cas_traps : ChecksTrap (.cas d a b c asz) s (s.cur.readG a) 0 (aBytesOf asz) :=
  checksTrap_of_accessAct (a := fun y => ⟨y.readG a, aszBytes asz, .cas (y.readG b), true, none, false,
    [⟨0, 0, aszBytes asz, lowMask (aszBytes asz), regBytes (aszBytes asz) (y.readG c)⟩]⟩) (by rfl) rfl (s.charge_readG a) (by rfl) rfl

/-- LDR checks its access before it releases an earlier reservation (R331). -/
theorem ldr_traps : ChecksTrap (.ldr d a la asz) s (s.cur.readG a) 0 (aBytesOf asz) := by
  refine checksTrap_of_access (a := ⟨s.cur.readG a, aszBytes asz, .ldr, false, none, false, [⟨0, 0, aszBytes asz, lowMask (aszBytes asz), []⟩]⟩)
    (e := ⟨0, 0, aszBytes asz, lowMask (aszBytes asz), []⟩) rfl (exec_ldr ..) fun f hf => ?_
  simp only [State.charge_readG, checkAll_single hf]

/-- A remote update checks its element before it looks at the speculation of the slot. -/
theorem rupd_traps {i : Instr} {n : Nat} {op : AmoOp} (he : exec i s = rupd i s a b n op) : ChecksTrap i s (s.cur.readG a) 0 n := by
  refine checksTrap_of_access (a := ⟨s.cur.readG a, n, .rupd op, true, none, false, [⟨0, 0, n, lowMask n, regBytes n (s.cur.readG b)⟩]⟩)
    (e := ⟨0, 0, n, lowMask n, regBytes n (s.cur.readG b)⟩) rfl (he.trans (by rfl)) fun f hf => ?_
  simp only [State.charge_readG, hf]

end

/-- Settles O14: each form makes an access of one element, whose checks fail in the order of Table 4.7. -/
theorem accessTraps : Obligations.AccessTraps := fun s d a b c la x sz asz off =>
  ⟨ld_traps s d a la x sz off, ldn_traps s d a la x sz off, st_traps s d a la x sz off, (ldf_traps s d a la).plain, (stef_traps s d a la).plain,
    (amoAdd_traps s d a b la asz).plain, (cas_traps s d a b c asz).plain, (ldr_traps s d a la asz).plain, (rupd_traps s a b (exec_rupdAdd a b asz s)).plain⟩

end Sys2Proof.Machine
end


section
/-! PROOF. Reservations as they issue (R331, R332): LDR, STC and WRS. -/

namespace Sys2Proof.Machine

/-! ### A request that leaves -/

/-- Beside what travels and the numbering of pod requests nothing changed. -/
def OnlyTraffic (s t : State) : Prop := t = { s with tiles := t.tiles, dies := t.dies, net := t.net }

theorem OnlyTraffic.trans {s t u : State} (h : OnlyTraffic s t) (h' : OnlyTraffic t u) : OnlyTraffic s u := by
  unfold OnlyTraffic at *
  rw [h', h]

theorem OnlyTraffic.setReq (s : State) (r : Req) : OnlyTraffic s (s.setReq r) := rfl
theorem OnlyTraffic.after (s : State) (delay : Nat) (e : Event) : OnlyTraffic s (s.after delay e) := rfl

/-- Two forms of a request that differ at most in its way and its number under its key. -/
def SameRequest (r q : Req) : Prop := q.id = r.id ∧ q.op = r.op ∧ q.kind = r.kind ∧ q.slot = r.slot ∧ q.n = r.n ∧ q.ptr = r.ptr

theorem State.setPodSeq_only (s : State) (unit key : Nat) (v : Nat × Nat) : OnlyTraffic s (s.setPodSeq unit key v) := by
  unfold State.setPodSeq
  split <;> rfl

theorem State.podLeave_only (s : State) (r : Req) : OnlyTraffic s (s.podLeave r) := by
  unfold State.podLeave
  split
  · split <;> rfl
  · rfl

theorem State.podLeave_req? (s : State) (r : Req) (id : Nat) : (s.podLeave r).req? id = s.req? id := by
  unfold State.podLeave
  split
  · split <;> rfl
  · rfl

/-- A request that is sent is listed under its number. -/
theorem State.sendReq_listed (s : State) (r : Req) (lag : Nat) :
    OnlyTraffic s (s.sendReq r lag) ∧ ∃ q, (s.sendReq r lag).req? r.id = some q ∧ SameRequest r q := by
  have listed (u : State) (q : Req) : (u.setReq q).req? q.id = some q := Map.get?_set_same ..
  unfold State.sendReq
  dsimp only
  split
  · split
    · exact ⟨rfl, _, listed .., ⟨rfl, rfl, rfl, rfl, rfl, rfl⟩⟩
    · exact ⟨(State.setPodSeq_only ..).trans ((OnlyTraffic.setReq ..).trans ((State.podLeave_only ..).trans (.after ..))), _,
        (State.podLeave_req? ..).trans (listed ..), ⟨rfl, rfl, rfl, rfl, rfl, rfl⟩⟩
  · exact ⟨rfl, _, listed .., ⟨rfl, rfl, rfl, rfl, rfl, rfl⟩⟩

/-! ### The slot after the issue of an operation that uses up the reservation -/

/-- A long-latency instruction that ends with no reservation goes on in sequence. -/
theorem CanIssue.opens {i : Instr} {s u : State} (h : CanIssue i s) {f : Slot → Slot} (hf : Plain f) {o : LongOp}
    (hu : u.cur = { f s.charge.cur with ops := s.cur.ops ++ [o], rsv := none }) :
    OnlySlot u u.advance ∧ u.advance.cur.regs = (f s.charge.cur).regs ∧ u.advance.cur.u.active = s.cur.u.active ∧
      u.advance.cur.u.fflags = (f s.charge.cur).u.fflags ∧ u.advance.cur.ops = s.cur.ops ++ [o] ∧ u.advance.cur.rsv = none ∧
      u.advance.cur.pc = s.cur.step.pc := by
  have hx := hf s.charge.cur
  have hundo : u.cur.frame = none ∨ u.cur.spec.undo = none := by
    rw [hu, hx]
    simpa [State.charge_cur] using h.2
  have hpc := (Slot.pc_step_congr s.cur u.cur (by rw [hu, hx]; simp) (by rw [hu, hx]; simp) (by rw [hu, hx]; simp)).1
  rw [State.advance_eq hundo]
  refine ⟨OnlySlot.updCur .., ?_⟩
  rw [State.updCur_cur, Slot.countChunk_rest]
  refine ⟨?_, ?_, ?_, ?_, ?_, hpc⟩ <;> dsimp only <;> rw [Slot.step_rest] <;> dsimp only <;> rw [hu]
  rw [hx]
  simp

/-! ### Giving up a reservation -/

/-- The slot in focus has spent its turn and perhaps given up its reservation; messages may have been sent, but no request. -/
structure Charged (s v : State) : Prop where
  rest : v = { s.charge with cur := { s.charge.cur with rsv := v.cur.rsv }, net := v.net }
  reqs : v.net.reqs = s.net.reqs
  nextId : v.net.nextId = s.net.nextId

theorem Charged.charge (s : State) : Charged s s.charge := ⟨rfl, by simp, by simp⟩

theorem Charged.clearRsv (s : State) : Charged s s.charge.clearRsv := by
  unfold State.clearRsv State.sendRelease
  split
  · exact .charge s
  · dsimp only
    split <;> exact ⟨rfl, by simp [State.post, State.after], by simp [State.post, State.after]⟩

theorem Charged.updCur (s : State) : Charged s (s.charge.updCur fun x => { x with rsv := none }) := ⟨rfl, by simp, by simp⟩

section
variable {s v : State} (h : Charged s v)
include h

theorem Charged.cur : v.cur = { s.charge.cur with rsv := v.cur.rsv } := congrArg State.cur h.rest
theorem Charged.tile (k : Nat) : v.tile k = s.charge.tile k := by rw [h.rest]; rfl
theorem Charged.pkg : v.pkg = s.pkg := by rw [h.rest]; simp
theorem Charged.curId : v.curId = s.curId := by rw [h.rest]; simp

theorem Charged.window? (tile : Nat) (asid : BitVec 14) : v.window? tile asid = s.window? tile asid := by
  unfold State.window?
  rw [h.tile, State.tile_charge]

theorem Charged.level : v.cur.level = s.cur.level := by rw [h.cur]; exact s.charge_level
theorem Charged.sc : v.cur.sc = s.cur.sc := by rw [h.cur]; exact s.charge_sc

theorem Charged.elemCls (p : W64) (off : Int) : elemCls v p off = elemCls s p off := by
  simp only [Machine.elemCls, State.classify, State.myTile, h.window?, h.level, h.sc, h.pkg, h.curId]

/-- An element that passes its checks passes them still. -/
theorem Charged.reaches {p : W64} {n : Nat} {k : ReqKind} {ctl : Bool} {e : Elem} (hr : Reaches s p n k ctl e) : Reaches v p n k ctl e := by
  refine ⟨hr.tag, hr.low, hr.high, hr.aligned, ?_⟩
  rw [h.elemCls, h.pkg, h.sc]
  exact hr.cls

end

/-- Steps 1 to 6 of Table 4.7 pass. -/
theorem slotChecks_reaches {s : State} {a : Access} {e : Elem} (hf : a.fmt = none) (hr : Reaches s a.base a.align a.kind a.ctl e) :
    s.slotChecks a e = .inr (effPtr a.base (elemVa a.base e.off), elemCls s a.base e.off) := by
  obtain ⟨ht, h0, h1, hn, hc⟩ := hr
  have hr : ¬(elemVa a.base e.off < 0 ∨ (2 : Int) ^ 48 ≤ elemVa a.base e.off) := by omega
  unfold elemCls at hc ⊢
  rw [elemVa, ← vaOf_eq] at hr hn hc ⊢
  simp only [State.slotChecks, ht, hf, ne_eq, not_true_eq_false, if_false, if_neg hr, hn]
  split <;> rename_i hcls <;> rw [hcls] at hc <;> simp [hc]

/-! ### An access of one element outside speculation -/

/-- The state as the operation of an access is listed. -/
def State.listed (s : State) (i : Instr) (wb : WriteBack) : State := (s.openOp i (infoOf i).kind.op none 1 wb).2

/-- The request of an access of one element, and the state in which it is sent. -/
def State.request (s : State) (i : Instr) (a : Access) (wb : WriteBack) (e : Elem) : Req × State :=
  (s.listed i wb).mkReq s.net.nextId a.kind (if a.write || (elemCls s a.base e.off).isControl then none else s.cur.readBuoy) e
    (effPtr a.base (elemVa a.base e.off)) (elemCls s a.base e.off)

theorem accessAct_one {s : State} {i : Instr} {a : Access} {wb : WriteBack} {e : Elem} (hf : a.fmt = none) (hl : a.elems = [e])
    (hr : Reaches s a.base a.align a.kind a.ctl e) (hm : e.mask ≠ 0) (hs : s.cur.speculates = false) :
    accessAct i s a wb = .long ((s.request i a wb e).2.sendReq (s.request i a wb e).1 (if wb.rows then e.lane else 0)) := by
  have hchk : s.checkAll a a.elems = .inr [(e, effPtr a.base (elemVa a.base e.off), elemCls s a.base e.off)] := by
    rw [hl]
    simp only [State.checkAll, slotChecks_reaches hf hr]
  have hlive : (e.mask != 0) = true := by simpa using hm
  simp only [accessAct, hchk, hs, List.filter_cons, hlive, if_true, List.filter_nil, Bool.false_and, Bool.false_eq_true, if_false, List.isEmpty_cons]
  simp only [List.any_cons, List.any_nil, Bool.or_false]
  rfl

/-- What the statement says of a reservation instruction that opens an access. -/
def OpensAccess (s : State) (i : Instr) (d : RegNo) (la : BitVec 4) (p : W64) (n : Nat) (k : ReqKind) (wb : WriteBack) (kind : OpKind) : Prop :=
  ∃ t o r, exec i s = .next t ∧ t.cur.ops = s.cur.ops ++ [o] ∧ o.wb = wb ∧ o.kind = kind ∧ o.dests = [.g d] ∧ o.la = la.toNat ∧
    t.cur.rsv = none ∧ t.cur.regs = s.cur.regs ∧ t.cur.u.fflags = s.cur.u.fflags ∧ t.cur.pc = s.cur.step.pc ∧ t.mem = s.mem ∧
    t.attrs = s.attrs ∧ t.req? r.id = some r ∧ s.net.nextId ≤ r.id ∧ r.op = o.id ∧ r.kind = k ∧ r.slot = s.curId ∧ r.n = n ∧
    r.ptr = p.extractLsb' 48 16 ++ BitVec.ofInt 48 (elemVa p 0)

/-- An instruction whose act is an access of one element, made after the reservation has been given up, opens it. -/
theorem opensAccess_of_access {i : Instr} {s v : State} {body : State → Act} {a : Access} {wb : WriteBack} {d : RegNo} {la : BitVec 4} {n : Nat}
    {data : List Byte} (h : CanIssue i s) (he : exec i s = issue i s body) (hb : body s.charge = accessAct i v a wb) (hv : Charged s v) (hrsv : v.cur.rsv = none)
    (hf : a.fmt = none) (hl : a.elems = [⟨0, 0, n, 2 ^ n - 1, data⟩]) (hr : Reaches s a.base a.align a.kind a.ctl ⟨0, 0, n, 2 ^ n - 1, data⟩)
    (hn : n ≠ 0) (hs : s.cur.speculates = false) (hd : (infoOf i).dests = [.g d]) (hla : (infoOf i).la = la.toNat) :
    OpensAccess s i d la a.base n a.kind wb (infoOf i).kind.op := by
  have hm : 2 ^ n - 1 ≠ 0 := by
    have := Nat.one_lt_two_pow hn
    omega
  have hspec : v.cur.speculates = false := by
    rw [hv.cur, State.charge_cur]
    exact hs
  have hbody := hb.trans (accessAct_one hf hl (hv.reaches hr) hm hspec)
  obtain ⟨htraffic, q, hq, hid, hop, hkind, hslot, hqn, hptr⟩ := State.sendReq_listed (v.request i a wb ⟨0, 0, n, 2 ^ n - 1, data⟩).2
    (v.request i a wb ⟨0, 0, n, 2 ^ n - 1, data⟩).1 (if wb.rows then 0 else 0)
  generalize (v.request i a wb ⟨0, 0, n, 2 ^ n - 1, data⟩).2.sendReq _ _ = w at hbody htraffic hq
  have hcur : w.cur = { s.charge.cur with ops := s.cur.ops ++ [v.opOf i (infoOf i).kind.op none 1 wb], rsv := none } := by
    rw [htraffic]
    have hops : v.cur.ops = s.cur.ops := by
      rw [hv.cur]
      exact State.charge_ops s
    show ({ v.cur with ops := v.cur.ops ++ [v.opOf i (infoOf i).kind.op none 1 wb] } : Slot) = _
    rw [hops, hv.cur, hrsv]
  have hmem : w.mem = s.mem ∧ w.attrs = s.attrs := by
    rw [htraffic]
    show v.mem = _ ∧ v.attrs = _
    rw [hv.rest]
    simp
  obtain ⟨honly, hregs, _, hfl, hops, hrsv', hpc⟩ := h.opens (f := fun x => x) (fun _ => rfl) hcur
  refine ⟨_, _, q, he.trans ((issue_go body h).trans (by rw [hbody]; rfl)), hops, rfl, rfl, hd, hla, hrsv', by simpa using hregs, by simpa using hfl, hpc,
    ?_, ?_, ?_, ?_, hop, hkind, hslot.trans hv.curId, hqn, hptr.trans ?_⟩
  · rw [honly.rest]
    exact hmem.1
  · rw [honly.rest]
    exact hmem.2
  · rw [hid, honly.rest]
    exact hq
  · rw [hid]
    show _ ≤ v.net.nextId + 1
    rw [hv.nextId]
    omega
  · rfl

theorem aszBytes_ne_zero (sz : ASize) : aszBytes sz ≠ 0 := by cases sz <;> decide

/-- Whether the slot holds a reservation, and where its buoy stands. -/
theorem Slot.reserved_iff {x : Slot} {p : W64} {n : Nat} :
    x.reserved p n = true ↔ ∃ q home line, x.rsv = some (q, n, home, line) ∧ q.extractLsb' 0 48 = p.extractLsb' 0 48 := by
  unfold Slot.reserved vaOf
  split
  · rename_i q m home line hx
    simp only [hx, Bool.and_eq_true, beq_iff_eq, ← BitVec.toNat_eq, Option.some.injEq, Prod.mk.injEq]
    exact ⟨fun ⟨hq, hm⟩ => ⟨q, home, line, ⟨rfl, hm, rfl, rfl⟩, hq⟩, fun ⟨_, _, _, ⟨hq, hm, _⟩, he⟩ => ⟨hq ▸ he, hm⟩⟩
  · rename_i hx
    simp [hx]

/-- The access of a reservation instruction: no offset, aligned to its size (R331). -/
def rsvAccess (p : W64) (n : Nat) (k : ReqKind) (write : Bool) (data : List Byte) : Access := ⟨p, n, k, write, none, false, [⟨0, 0, n, lowMask n, data⟩]⟩

theorem rsvAccess_passes {s : State} {p : W64} {n : Nat} {k : ReqKind} (write : Bool) {data data' : List Byte}
    (hr : Reaches s p n k false ⟨0, 0, n, 2 ^ n - 1, data⟩) :
    s.charge.checkAll (rsvAccess p n k write data') (rsvAccess p n k write data').elems =
      .inr [(⟨0, 0, n, lowMask n, data'⟩, effPtr p (elemVa p 0), elemCls s.charge p 0)] := by
  have hr' : Reaches s p n k false ⟨0, 0, n, lowMask n, data'⟩ := ⟨hr.tag, hr.low, hr.high, hr.aligned, hr.cls⟩
  simp only [rsvAccess, State.checkAll]
  rw [slotChecks_reaches rfl ((Charged.charge s).reaches hr')]

/-- A reservation instruction that makes its access with its own bytes. -/
theorem opensAccess_of_rsv {i : Instr} {s v : State} {body : State → Act} {p : W64} {k : ReqKind} {write : Bool} {wb : WriteBack} {d : RegNo}
    {la : BitVec 4} {n : Nat} {data data' : List Byte} (h : CanIssue i s) (he : exec i s = issue i s body)
    (hb : body s.charge = accessAct i v (rsvAccess p n k write data') wb) (hv : Charged s v) (hrsv : v.cur.rsv = none)
    (hr : Reaches s p n k false ⟨0, 0, n, 2 ^ n - 1, data⟩) (hn : n ≠ 0) (hs : s.cur.speculates = false) (hd : (infoOf i).dests = [.g d])
    (hla : (infoOf i).la = la.toNat) : OpensAccess s i d la p n k wb (infoOf i).kind.op :=
  opensAccess_of_access (a := rsvAccess p n k write data') (data := data') h he hb hv hrsv rfl rfl
    ⟨hr.tag, hr.low, hr.high, hr.aligned, hr.cls⟩ hn hs hd hla

/-- What LDR, STC and WRS have in common: the checks of their access come first (R331, R332). -/
def rsvBody (a : RegNo) (n : Nat) (k : ReqKind) (write : Bool) (data : Slot → List Byte) (act : State → Access → Act) (s : State) : Act :=
  let acc := rsvAccess (s.cur.readG a) n k write (data s.cur)
  match s.checkAll acc acc.elems with
  | .inl f => .trap f.cause f.code f.xaddr
  | .inr _ => act s acc

theorem rsvBody_passes {s : State} {a : RegNo} {n : Nat} {k : ReqKind} {write : Bool} {data : Slot → List Byte} {act : State → Access → Act}
    {bytes : List Byte} (hr : Reaches s (s.cur.readG a) n k false ⟨0, 0, n, 2 ^ n - 1, bytes⟩) :
    rsvBody a n k write data act s.charge = act s.charge (rsvAccess (s.cur.readG a) n k write (data s.charge.cur)) := by
  unfold rsvBody
  dsimp only
  rw [State.charge_readG, rsvAccess_passes write hr]

theorem exec_stc_eq (d a b : RegNo) (la : BitVec 4) (sz : ASize) (s : State) : exec (.stc d a b la sz) s =
    issue (.stc d a b la sz) s (rsvBody a (aBytesOf sz) .stc true (fun x => regBytes (aBytesOf sz) (x.readG b)) fun s acc =>
      if s.cur.reserved (s.cur.readG a) (aBytesOf sz) then
        accessAct (.stc d a b la sz) (s.updCur fun x => { x with rsv := none }) acc (.stc d s.cur.rsvAt.1 s.cur.rsvAt.2)
      else longResult (.stc d a b la sz) s.clearRsv 1 false fun x => x.writeG d 0) := rfl

theorem exec_wrs_eq (d a : RegNo) (la : BitVec 4) (sz : ASize) (s : State) : exec (.wrs d a la sz) s =
    issue (.wrs d a la sz) s (rsvBody a (aBytesOf sz) .wrs false (fun _ => []) fun s acc =>
      if s.cur.reserved (s.cur.readG a) (aBytesOf sz) then
        accessAct (.wrs d a la sz) (s.updCur fun x => { x with rsv := none }) acc (.wrs d (aBytesOf sz) s.cur.rsvAt.1 s.cur.rsvAt.2)
      else accessAct (.wrs d a la sz) s.clearRsv { acc with kind := .load } (.g d (aBytesOf sz) true)) := rfl

theorem exec_ldr_eq (d a : RegNo) (la : BitVec 4) (sz : ASize) (s : State) : exec (.ldr d a la sz) s =
    issue (.ldr d a la sz) s (rsvBody a (aBytesOf sz) .ldr false (fun _ => []) fun s acc =>
      accessAct (.ldr d a la sz) s.clearRsv acc (.ldr d (aBytesOf sz))) := rfl

/-- Where the slot holds the reservation of a pointer and a size, its buoy stands there. -/
theorem reserved_of_held {s : State} {a : RegNo} {n home line : Nat}
    (hh : ∃ q, s.cur.rsv = some (q, n, home, line) ∧ q.extractLsb' 0 48 = (s.cur.readG a).extractLsb' 0 48) :
    s.charge.cur.reserved (s.charge.cur.readG a) n = true ∧ home = s.charge.cur.rsvAt.1 ∧ line = s.charge.cur.rsvAt.2 := by
  obtain ⟨q, hq, he⟩ := hh
  have hrsv : s.charge.cur.rsv = some (q, n, home, line) := s.charge_rsv.trans hq
  refine ⟨Slot.reserved_iff.2 ⟨q, home, line, hrsv, by rw [State.charge_readG]; exact he⟩, ?_⟩
  rw [Slot.rsvAt, hrsv]
  exact ⟨rfl, rfl⟩

theorem not_reserved {s : State} {a : RegNo} {n : Nat}
    (hh : ¬∃ home line, ∃ q, s.cur.rsv = some (q, n, home, line) ∧ q.extractLsb' 0 48 = (s.cur.readG a).extractLsb' 0 48) :
    ¬s.charge.cur.reserved (s.charge.cur.readG a) n = true := by
  refine fun h => hh ?_
  obtain ⟨q, home, line, hq, he⟩ := Slot.reserved_iff.1 h
  rw [State.charge_rsv] at hq
  rw [State.charge_readG] at he
  exact ⟨home, line, q, hq, he⟩

theorem Slot.writeG_noRsv (x : Slot) (d : RegNo) (v : W64) : ({ x with rsv := none } : Slot).writeG d v = { x.writeG d v with rsv := none } := by
  unfold Slot.writeG
  split
  · rfl
  · dsimp only
    split <;> rfl

section
variable {s : State} {d a b : RegNo} {la : BitVec 4} {sz : ASize} {data : List Byte}

/-- LDR gives up an earlier reservation and reads (R331). -/
theorem ldr_opens (h : CanIssue (.ldr d a la sz) s)
    (hr : Reaches s (s.cur.readG a) (aBytesOf sz) .ldr false ⟨0, 0, aBytesOf sz, 2 ^ aBytesOf sz - 1, data⟩) (hs : s.cur.speculates = false) :
    OpensAccess s (.ldr d a la sz) d la (s.cur.readG a) (aBytesOf sz) .ldr (.ldr d (aBytesOf sz)) .acquiring :=
  opensAccess_of_rsv h (exec_ldr_eq ..) (rsvBody_passes hr) (.clearRsv s) (by rw [State.clearRsv_cur]) hr (aszBytes_ne_zero sz) hs rfl rfl

/-- STC uses up the reservation it acts on (R331). -/
theorem stc_opens {home line : Nat}
    (hh : ∃ q, s.cur.rsv = some (q, aBytesOf sz, home, line) ∧ q.extractLsb' 0 48 = (s.cur.readG a).extractLsb' 0 48)
    (h : CanIssue (.stc d a b la sz) s)
    (hr : Reaches s (s.cur.readG a) (aBytesOf sz) .stc false ⟨0, 0, aBytesOf sz, 2 ^ aBytesOf sz - 1, data⟩) (hs : s.cur.speculates = false) :
    OpensAccess s (.stc d a b la sz) d la (s.cur.readG a) (aBytesOf sz) .stc (.stc d home line) .ordinary := by
  obtain ⟨hres, rfl, rfl⟩ := reserved_of_held hh
  exact opensAccess_of_rsv h (exec_stc_eq ..) ((rsvBody_passes hr).trans (if_pos hres)) (.updCur s) rfl hr (aszBytes_ne_zero sz) hs rfl rfl

/-- WRS on a reservation uses it up (R332). -/
theorem wrs_opens {home line : Nat}
    (hh : ∃ q, s.cur.rsv = some (q, aBytesOf sz, home, line) ∧ q.extractLsb' 0 48 = (s.cur.readG a).extractLsb' 0 48)
    (h : CanIssue (.wrs d a la sz) s)
    (hr : Reaches s (s.cur.readG a) (aBytesOf sz) .wrs false ⟨0, 0, aBytesOf sz, 2 ^ aBytesOf sz - 1, data⟩) (hs : s.cur.speculates = false) :
    OpensAccess s (.wrs d a la sz) d la (s.cur.readG a) (aBytesOf sz) .wrs (.wrs d (aBytesOf sz) home line) .acquiring := by
  obtain ⟨hres, rfl, rfl⟩ := reserved_of_held hh
  exact opensAccess_of_rsv h (exec_wrs_eq ..) ((rsvBody_passes hr).trans (if_pos hres)) (.updCur s) rfl hr (aszBytes_ne_zero sz) hs rfl rfl

variable (hh : ¬∃ home line, ∃ q, s.cur.rsv = some (q, aBytesOf sz, home, line) ∧ q.extractLsb' 0 48 = (s.cur.readG a).extractLsb' 0 48)
include hh

/-- WRS without a reservation is a plain read (R332). -/
theorem wrs_reads (h : CanIssue (.wrs d a la sz) s)
    (hr : Reaches s (s.cur.readG a) (aBytesOf sz) .load false ⟨0, 0, aBytesOf sz, 2 ^ aBytesOf sz - 1, data⟩) (hs : s.cur.speculates = false) :
    OpensAccess s (.wrs d a la sz) d la (s.cur.readG a) (aBytesOf sz) .load (.g d (aBytesOf sz) true) .acquiring := by
  have hr' : Reaches s (s.cur.readG a) (aBytesOf sz) .wrs false ⟨0, 0, aBytesOf sz, 2 ^ aBytesOf sz - 1, data⟩ :=
    ⟨hr.tag, hr.low, hr.high, hr.aligned, hr.cls⟩
  exact opensAccess_of_rsv (k := .load) h (exec_wrs_eq ..)
    ((rsvBody_passes hr').trans (if_neg (not_reserved hh))) (.clearRsv s) (by rw [State.clearRsv_cur]) hr
    (aszBytes_ne_zero sz) hs rfl rfl

/-- STC without a reservation writes 0 and sends nothing (R331). -/
theorem stc_fails (h : CanIssue (.stc d a b la sz) s)
    (hr : Reaches s (s.cur.readG a) (aBytesOf sz) .stc false ⟨0, 0, aBytesOf sz, 2 ^ aBytesOf sz - 1, data⟩) :
    ∃ t o, exec (.stc d a b la sz) s = .next t ∧ SetsG s.cur t.cur d 0 ∧ t.cur.ops = s.cur.ops ++ [o] ∧ o.dests = [.g d] ∧
      o.due = some (s.now + 1) ∧ t.cur.rsv = none ∧ t.mem = s.mem ∧ t.attrs = s.attrs ∧ t.net.reqs = s.net.reqs := by
  have hv := Charged.clearRsv s
  have hcur : s.charge.clearRsv.cur = { s.charge.cur with rsv := none } := State.clearRsv_cur _
  obtain ⟨honly, hregs, hact, _, hops, hrsv, _⟩ := h.opens
    (u := ((s.charge.clearRsv.updCur fun x => x.writeG d 0).openOp (.stc d a b la sz) .result (some (s.charge.clearRsv.now + 1)) 0 .none).2)
    (Plain.writeG d fun _ => 0)
    (o := (s.charge.clearRsv.updCur fun x => x.writeG d 0).opOf (.stc d a b la sz) .result (some (s.charge.clearRsv.now + 1)) 0 .none)
    (by
      show ({ s.charge.clearRsv.cur.writeG d 0 with ops := (s.charge.clearRsv.cur.writeG d 0).ops ++ [_] } : Slot) = _
      have hops : (s.charge.cur.writeG d 0).ops = s.cur.ops := by
        rw [Slot.writeG_rest]
        exact State.charge_ops s
      rw [hcur, Slot.writeG_noRsv, hops]
      rfl)
  refine ⟨_, _, (exec_stc_eq ..).trans ((issue_go _ h).trans (by rw [rsvBody_passes hr, if_neg (not_reserved hh)]; rfl)), ?_, hops, rfl, ?_, hrsv, ?_⟩
  · refine ((Slot.writeG_sets s.charge.cur d 0).of_regs hregs ?_).from_regs (by simp) (by simp)
    rw [hact, Slot.writeG_u]
    simp
  · show some (s.charge.clearRsv.pkg.cycle.toNat + 1) = _
    rw [hv.pkg]
    rfl
  · rw [honly.rest]
    show s.charge.clearRsv.mem = _ ∧ s.charge.clearRsv.attrs = _ ∧ s.charge.clearRsv.net.reqs = _
    refine ⟨?_, ?_, hv.reqs⟩ <;> rw [hv.rest] <;> simp

end

/-- Settles O12: the checks come first, the reservation is given up, and then the access is made or, for STC without a reservation, 0 is written. -/
theorem reservationsIssue : Obligations.ReservationsIssue := fun _ _ _ _ _ _ =>
  ⟨ldr_opens, fun _ _ hh => stc_opens hh, stc_fails, fun _ _ hh => wrs_opens hh, wrs_reads⟩

end Sys2Proof.Machine
end


section
/-! PROOF. Matrix commands as they issue (R190, R199, R344, R346). -/

namespace Sys2Proof.Machine

/-! ### Accumulators and their owners (R199) -/

/-- How accumulators name the slot in focus. -/
def State.me (s : State) : Nat × W32 × W64 := (slotIx s.curId, s.cur.mc.ctxser, s.cur.u.tid)

/-- An accumulator of the core in focus. -/
def State.acc (s : State) (m : PredNo) : Acc := (s.core (coreOf s.curId)).accs.getD m.toNat Acc.free

/-- An accumulator passes the owner check: it is the slot's, or free and none the slot gave up for it. -/
def State.Mine (s : State) (m : PredNo) : Prop := (s.acc m).owner = some s.me ∨ ((s.acc m).owner = none ∧ s.cur.rmask.getLsbD m.toNat = false)

/-- The slot in focus has become the owner of accumulators. -/
structure Took (s t : State) (ms : List PredNo) : Prop where
  rest : t = { s with cur := { s.cur with rmask := t.cur.rmask }, cores := t.cores }
  core : ∀ c, t.core c = if c = coreOf s.curId then { s.core c with accs := (t.core c).accs } else s.core c
  owner : ∀ m, (t.acc m).owner = if m ∈ ms then some s.me else (s.acc m).owner
  elems : ∀ m, (t.acc m).elems = (s.acc m).elems
  rmask : ∀ m : PredNo, t.cur.rmask.getLsbD m.toNat = (s.cur.rmask.getLsbD m.toNat && !decide (m ∈ ms))

theorem Took.nil (s : State) : Took s s [] where
  rest := rfl
  core c := by split <;> rfl
  owner m := by simp
  elems _ := rfl
  rmask m := by simp

theorem Took.curId {s t : State} {ms : List PredNo} (h : Took s t ms) : t.curId = s.curId := by rw [h.rest]

theorem Took.me {s t : State} {ms : List PredNo} (h : Took s t ms) : t.me = s.me := by
  unfold State.me
  rw [h.rest]

theorem Took.cons {s t u : State} {m : PredNo} {ms : List PredNo} (h : Took s t [m]) (h' : Took t u ms) : Took s u (m :: ms) where
  rest := by rw [h'.rest, h.rest]
  core c := by
    rw [h'.core, h.curId, h.core]
    split <;> rfl
  owner k := by
    rw [h'.owner, h.owner, h.me]
    by_cases hk : k ∈ ms <;> simp [hk]
  elems k := by rw [h'.elems, h.elems]
  rmask k := by
    rw [h'.rmask, h.rmask]
    by_cases hk : k ∈ ms <;> simp [hk]

/-- The state with an accumulator taken. -/
def State.takeAcc (s : State) (m : PredNo) : State :=
  (s.updCore (coreOf s.curId) fun c => { c with accs := c.accs.setIfInBounds m.toNat { s.acc m with owner := some s.me } }).updCur fun x =>
    { x with rmask := x.rmask &&& ~~~(BitVec.ofNat 8 (2 ^ m.toNat)) }

theorem State.core_takeAcc (s : State) (m : PredNo) (c : Nat) : (s.takeAcc m).core c = if c = coreOf s.curId then
    { s.core c with accs := (s.core c).accs.setIfInBounds m.toNat { s.acc m with owner := some s.me } } else s.core c := by
  have hc : (s.takeAcc m).core c =
      (s.updCore (coreOf s.curId) fun c => { c with accs := c.accs.setIfInBounds m.toNat { s.acc m with owner := some s.me } }).core c := rfl
  rw [hc, State.core_updCore]
  split
  · rename_i h
    rw [h]
  · rfl

theorem State.acc_takeAcc (s : State) (m k : PredNo) : (s.takeAcc m).acc k = if k = m then { s.acc m with owner := some s.me } else s.acc k := by
  have hc : (s.takeAcc m).acc k = ((s.takeAcc m).core (coreOf s.curId)).accs.getD k.toNat Acc.free := rfl
  rw [hc, State.core_takeAcc, if_pos rfl]
  dsimp only
  rw [vget_set _ _ _ _ _ m.isLt]
  simp only [BitVec.toNat_inj]
  rfl

theorem took_takeAcc (s : State) (m : PredNo) : Took s (s.takeAcc m) [m] where
  rest := rfl
  core c := by
    rw [State.core_takeAcc]
    split <;> rfl
  owner k := by
    rw [State.acc_takeAcc]
    by_cases hk : k = m <;> simp [hk]
  elems k := by
    rw [State.acc_takeAcc]
    split
    · rename_i h
      rw [h]
    · rfl
  rmask k := by
    show (s.cur.rmask &&& ~~~(BitVec.ofNat 8 (2 ^ m.toNat))).getLsbD k.toNat = _
    have hk : k.toNat < 8 := k.isLt
    rw [BitVec.getLsbD_and, BitVec.getLsbD_not, BitVec.getLsbD_ofNat, Nat.testBit_two_pow]
    simp [hk, BitVec.toNat_inj, eq_comm]

/-- The owner check of R199 passes, and the accumulator is taken. -/
theorem State.ownAcc_mine {s : State} {m : PredNo} (h : s.Mine m) : s.ownAcc m.toNat = .inr (s.takeAcc m) := by
  unfold State.ownAcc
  obtain h | ⟨h, hr⟩ := h
  · dsimp only
    rw [show (s.core (coreOf s.curId)).accs.getD m.toNat Acc.free = s.acc m from rfl, h]
    exact if_pos rfl
  · dsimp only
    rw [show (s.core (coreOf s.curId)).accs.getD m.toNat Acc.free = s.acc m from rfl, h]
    exact if_neg (by rw [hr]; exact Bool.false_ne_true)

/-- Taking an accumulator keeps the others within reach. -/
theorem Took.mine {s t : State} {ms : List PredNo} (h : Took s t ms) {m : PredNo} (hm : s.Mine m) : t.Mine m := by
  unfold State.Mine
  rw [h.owner, h.me, h.rmask]
  split
  · exact .inl rfl
  · exact hm.imp_right fun ⟨ho, hr⟩ => ⟨ho, by rw [hr]; rfl⟩

/-- The owner checks of an instruction, one accumulator after another. -/
def State.ownAll (r : (Nat × W64) ⊕ State) (ms : List PredNo) : (Nat × W64) ⊕ State :=
  ms.foldl (fun r n => match r with | .inr s => s.ownAcc n.toNat | e => e) r

theorem State.ownAll_inl (e : Nat × W64) (ms : List PredNo) : State.ownAll (.inl e) ms = .inl e := by
  induction ms with
  | nil => rfl
  | cons m ms ih => exact ih

theorem State.ownAll_mine {s : State} (ms : List PredNo) (h : ∀ m ∈ ms, s.Mine m) : ∃ t, State.ownAll (.inr s) ms = .inr t ∧ Took s t ms := by
  induction ms generalizing s with
  | nil => exact ⟨s, rfl, .nil s⟩
  | cons m ms ih =>
    obtain ⟨hm, hms⟩ := List.forall_mem_cons.1 h
    have ht := took_takeAcc s m
    obtain ⟨u, hu, hk⟩ := ih fun k hk => ht.mine (hms k hk)
    refine ⟨u, ?_, ht.cons hk⟩
    show State.ownAll (s.ownAcc m.toNat) ms = _
    rw [State.ownAcc_mine hm, hu]

/-! ### The push (R344, R346) -/

/-- The command of the slot in focus with these operands. -/
def State.mcmd (s : State) (op : MOp) (md : PredNo) (ga gb : W64) (sa sb : W32) (v0 v1 : Vec) : MCmd :=
  ⟨op, md, ga, gb, sa, sb, v0, v1, s.cur.u.tid, s.curId, s.cur.mc.ctxser, s.cur.sc.asid, (s.task s.cur.u.tid).mser + 1⟩

/-- The command is appended to q0 and counted. -/
def State.enqueue (s : State) (c : MCmd) : State :=
  (s.updCore (coreOf s.curId) fun k => { k with q0 := k.q0 ++ [c] }).updTask s.myTid fun t => { t with mser := c.ser, out1 := t.out1 + 1 }

/-- The command is in q0, and the engine looks for one in the next cycle. -/
def State.pushQ0 (s : State) (c : MCmd) : State := (s.enqueue c).afterOnce 1 (.matrixCommandStart s.myTile)

/-- What a matrix instruction does once it may issue. -/
def matrixAct (c : MCmd) (ms : List PredNo) (s : State) : Act :=
  match s.matrixTrap c with
  | some (cause, code, x) => .trap cause code x
  | none =>
    match State.ownAll (.inr s) ms with
    | .inl (code, x) => .trap causeAccOwner code x
    | .inr t => if !s.queueRoom 0 then .stall else .next (t.pushQ0 c)

theorem charge_mcmd (s : State) (op : MOp) (md : PredNo) (ga gb : W64) (sa sb : W32) (v0 v1 : Vec) :
    s.charge.mcmd op md ga gb sa sb v0 v1 = s.mcmd op md ga gb sa sb v0 v1 := by
  simp [State.mcmd, State.charge_cur]

theorem pushMatrix_eq (i : Instr) (s : State) (op : MOp) (md : PredNo) (more : List PredNo) (ga gb : W64) (sa sb : W32) (v0 v1 : Vec) :
    pushMatrix i s op md more ga gb sa sb v0 v1 = issue i s fun s => matrixAct (s.mcmd op md ga gb sa sb v0 v1) (md :: more) s := by
  rfl

/-! ### The checks are those of the slot before its turn is spent -/

theorem charge_window? (s : State) (tile : Nat) (asid : BitVec 14) : s.charge.window? tile asid = s.window? tile asid :=
  (Charged.charge s).window? tile asid

theorem charge_windowFault (s : State) (tile off : Nat) (asid : BitVec 14) (write : Bool) :
    s.charge.windowFault tile off asid write = s.windowFault tile off asid write := by
  unfold State.windowFault
  rw [charge_window?, State.tile_charge]

theorem charge_classify (s : State) (tile : Nat) (asid : BitVec 14) (level : Level) (va : Nat) :
    s.charge.classify tile asid level va = s.classify tile asid level va := by
  unfold State.classify
  rw [charge_window?, State.charge_pkg]

theorem charge_matrixTrap (s : State) (c : MCmd) : s.charge.matrixTrap c = s.matrixTrap c := by
  have hrow (write : Bool) (p : W64) (ea : Int) (n : Nat) : s.charge.rowProt write p ea n = s.rowProt write p ea n := by
    unfold State.rowProt
    simp only [charge_classify, charge_windowFault, State.charge_myTile, State.charge_cur]
  unfold State.matrixTrap
  simp only [hrow]

theorem charge_queueRoom (s : State) (q : Nat) : s.charge.queueRoom q = s.queueRoom q := by
  simp only [State.queueRoom, State.completionRoom, State.charge_task, State.charge_myTid, State.core, State.charge_cores, State.charge_curId]
  rfl

theorem charge_me (s : State) : s.charge.me = s.me := by
  simp [State.me]

theorem charge_acc (s : State) (m : PredNo) : s.charge.acc m = s.acc m := by
  simp [State.acc, State.core]

theorem charge_mine {s : State} {m : PredNo} : s.charge.Mine m ↔ s.Mine m := by
  simp [State.Mine, State.acc, State.me, State.core, State.charge_cur]

/-- Room for a matrix command and its word (R189, R190). -/
theorem queueRoom_zero (s : State) : s.queueRoom 0 = true ↔
    (s.core (coreOf s.curId)).q0.length < 8 ∧ (s.task s.cur.u.tid).out1 + (s.task s.cur.u.tid).q1.length < 16 := by
  unfold State.queueRoom State.completionRoom State.myTid
  dsimp only
  rw [Bool.and_eq_true]
  exact and_congr decide_eq_true_iff decide_eq_true_iff

theorem State.afterOnce_pend (s : State) (delay : Nat) (e : Event) : s.net.pend <+: (s.afterOnce delay e).net.pend ∧
    ∃ p ∈ (s.afterOnce delay e).net.pend, p.ev = e := by
  unfold State.afterOnce
  split
  · rename_i h
    obtain ⟨p, hp, he⟩ := List.any_eq_true.1 h
    exact ⟨List.prefix_rfl, p, hp, beq_iff_eq.1 he⟩
  · exact ⟨List.prefix_append .., _, List.mem_append_right _ (List.mem_singleton_self _), rfl⟩

theorem State.afterOnce_only (s : State) (delay : Nat) (e : Event) :
    s.afterOnce delay e = { s with net := { s.net with pend := (s.afterOnce delay e).net.pend } } := by
  unfold State.afterOnce
  split <;> rfl

/-- What a pushed command leaves. -/
def Pushed (s : State) (ms : List PredNo) (c : MCmd) (t : State) : Prop :=
  Confined s t ∧ Passed s.cur { t.cur with rmask := s.cur.rmask } ∧ (t.core (coreOf s.curId)).q0 = (s.core (coreOf s.curId)).q0 ++ [c] ∧
    (∀ m : PredNo, m ∈ ms → ((t.core (coreOf s.curId)).accs.getD m.toNat Acc.free).owner = some s.me ∧
      ((t.core (coreOf s.curId)).accs.getD m.toNat Acc.free).elems = (s.acc m).elems ∧ t.cur.rmask.getLsbD m.toNat = false) ∧
    (t.task s.cur.u.tid).out1 = (s.task s.cur.u.tid).out1 + 1 ∧ (t.task s.cur.u.tid).mser = (s.task s.cur.u.tid).mser + 1 ∧
    ∃ p ∈ t.net.pend, p.ev = .matrixCommandStart s.myTile

theorem Slot.step_rmask (x : Slot) (r : BitVec 8) : ({ x with rmask := r } : Slot).step = { x.step with rmask := r } := by
  unfold Slot.step
  dsimp only
  split
  · rfl
  · split
    · rfl
    · split <;> rfl

theorem Slot.countChunk_rmask (x : Slot) (r : BitVec 8) (n : Nat) : ({ x with rmask := r } : Slot).countChunk n = { x.countChunk n with rmask := r } := by
  unfold Slot.countChunk
  dsimp only
  split <;> rfl

/-- A change of the accumulators a slot has given up, and a retirement. -/
theorem CanIssue.passesMask {i : Instr} {s u : State} (h : CanIssue i s) (hu : u.cur = { s.charge.cur with rmask := u.cur.rmask }) (hpkg : u.pkg = s.pkg) :
    OnlySlot u u.retire.advance ∧ Passed s.cur { u.retire.advance.cur with rmask := s.cur.rmask } ∧ u.retire.advance.cur.rmask = u.cur.rmask := by
  have hundo' : s.charge.cur.frame = none ∨ s.charge.cur.spec.undo = none := by
    simpa [State.charge_cur] using h.2
  have hundo : u.cur.frame = none ∨ u.cur.spec.undo = none := by
    rw [hu]
    exact hundo'
  obtain ⟨_, hp⟩ := h.passes (u := s.charge) rfl
  have hmask : s.charge.retire.advance.cur.rmask = s.cur.rmask := by
    rw [hp.seq.rest]
  have hcur : u.retire.advance.cur = { s.charge.retire.advance.cur with rmask := u.cur.rmask } := by
    rw [State.retire_advance_cur hundo, State.retire_advance_cur hundo', hpkg, State.charge_pkg, ← Slot.countChunk_rmask, ← Slot.step_rmask]
    exact congrArg (fun x : Slot => ({ x with u := { x.u with retired := x.u.retired + 1 } } : Slot).step.countChunk s.pkg.chunkLimit) hu
  refine ⟨State.retire_advance_only hundo, ?_, by rw [hcur]⟩
  rw [hcur]
  show Passed s.cur { s.charge.retire.advance.cur with rmask := s.cur.rmask }
  rw [← hmask]
  exact hp

section
variable (t : State) (c : MCmd)

theorem State.pushQ0_rest : t.pushQ0 c = { t with
    cores := (t.pushQ0 c).cores, tasks := (t.pushQ0 c).tasks, net := { t.net with pend := (t.pushQ0 c).net.pend } } := by
  rw [State.pushQ0, State.afterOnce_only]
  rfl

theorem State.pushQ0_core (k : Nat) : (t.pushQ0 c).core k =
    if k = coreOf t.curId then { t.core (coreOf t.curId) with q0 := (t.core (coreOf t.curId)).q0 ++ [c] } else t.core k := by
  rw [State.pushQ0, State.afterOnce_only]
  exact State.core_updCore t (coreOf t.curId) k fun k => { k with q0 := k.q0 ++ [c] }

theorem State.pushQ0_task (n : W64) : (t.pushQ0 c).task n =
    if n = t.myTid then { t.task t.myTid with mser := c.ser, out1 := (t.task t.myTid).out1 + 1 } else t.task n := by
  rw [State.pushQ0, State.afterOnce_only]
  exact State.task_updTask t t.myTid n fun t => { t with mser := c.ser, out1 := t.out1 + 1 }

theorem State.pushQ0_pend : t.net.pend <+: (t.pushQ0 c).net.pend ∧ ∃ p ∈ (t.pushQ0 c).net.pend, p.ev = .matrixCommandStart t.myTile :=
  (t.enqueue c).afterOnce_pend 1 (.matrixCommandStart t.myTile)

end

/-- A command on accumulators the slot may take is pushed where there is room for it. -/
theorem matrix_pushes {i : Instr} {s : State} {op : MOp} {md : PredNo} {ga gb : W64} {sa sb : W32} {v0 v1 : Vec} {ms : List PredNo}
    (he : exec i s = issue i s fun s => matrixAct (s.mcmd op md ga gb sa sb v0 v1) ms s) (hms : ∀ m ∈ ms, s.Mine m)
    (htrap : s.matrixTrap (s.mcmd op md ga gb sa sb v0 v1) = none)
    (hroom : (s.core (coreOf s.curId)).q0.length < 8 ∧ (s.task s.cur.u.tid).out1 + (s.task s.cur.u.tid).q1.length < 16) :
    Completes i s (Pushed s ms (s.mcmd op md ga gb sa sb v0 v1)) := by
  intro hc
  obtain ⟨t, ht, htook⟩ := State.ownAll_mine (s := s.charge) ms fun m hm => charge_mine.2 (hms m hm)
  generalize hcmd : s.mcmd op md ga gb sa sb v0 v1 = c at htrap
  have hbody : matrixAct (s.charge.mcmd op md ga gb sa sb v0 v1) ms s.charge = .next (t.pushQ0 c) := by
    unfold matrixAct
    rw [charge_mcmd, charge_matrixTrap, hcmd, htrap, ht, charge_queueRoom, (queueRoom_zero s).2 hroom]
    rfl
  have hcurId : t.curId = s.curId := htook.curId.trans s.charge_curId
  have htid : t.myTid = s.cur.u.tid := by
    rw [State.myTid, htook.rest]
    exact s.charge_u_tid
  have htask (n : W64) : t.task n = s.task n := by
    rw [htook.rest]
    exact s.charge_task n
  have hcore (k : Nat) : t.core k = if k = coreOf s.curId then { s.core k with accs := (t.core k).accs } else s.core k := by
    have hk : s.charge.core k = s.core k := by simp [State.core]
    rw [htook.core, s.charge_curId, hk]
    split <;> rfl
  have hcur : (t.pushQ0 c).cur = t.cur := by rw [State.pushQ0_rest]
  have hnet : t.net = s.net := by
    rw [htook.rest]
    exact s.charge_net
  obtain ⟨ho, hp, hr⟩ := hc.passesMask (u := t.pushQ0 c) (by rw [hcur]; exact congrArg State.cur htook.rest)
    (by rw [State.pushQ0_rest, htook.rest]; exact s.charge_pkg)
  have hcore' : (t.pushQ0 c).retire.advance.core (coreOf s.curId) =
      { t.core (coreOf s.curId) with q0 := (s.core (coreOf s.curId)).q0 ++ [c] } := by
    rw [State.core, ho.cores]
    refine (State.pushQ0_core t c _).trans ?_
    rw [hcurId, if_pos rfl, hcore, if_pos rfl]
  have htask' (n : W64) : (t.pushQ0 c).retire.advance.task n =
      if n = s.cur.u.tid then { s.task n with mser := c.ser, out1 := (s.task n).out1 + 1 } else s.task n := by
    rw [State.task, ho.tasks]
    refine (State.pushQ0_task t c n).trans ?_
    rw [htid, htask, htask]
    split
    · rename_i h
      rw [h]
    · rfl
  obtain ⟨hpre, hpend⟩ := t.pushQ0_pend c
  refine ⟨_, he.trans (issue_next hc hbody), ⟨?_, ?_, ?_, ?_, ?_⟩, hp, ?_, ?_, ?_, ?_, ?_⟩
  · rw [ho.rest, State.pushQ0_rest, htook.rest, (OnlySlot.charge s).rest]
  · intro k
    have htile : (t.pushQ0 c).tile k = s.charge.tile k := by
      rw [State.pushQ0_rest, htook.rest]
      rfl
    rw [ho.counters, htile, s.tile_charge]
  · intro k hk
    rw [State.core, ho.cores]
    refine (State.pushQ0_core t c k).trans ?_
    rw [hcurId, if_neg hk, hcore, if_neg hk]
  · intro n hn
    rw [htask', if_neg hn]
  · rw [ho.net, ← hnet]
    exact hpre
  · rw [hcore']
  · intro m hm
    rw [hcore', hr, hcur]
    have hacc : (t.core (coreOf s.curId)).accs.getD m.toNat Acc.free = t.acc m := by rw [State.acc, hcurId]
    dsimp only
    rw [hacc, htook.owner, if_pos hm, htook.elems, htook.rmask, decide_eq_true hm]
    exact ⟨congrArg some (charge_me s), congrArg Acc.elems (charge_acc s m), Bool.and_false _⟩
  · rw [htask', if_pos rfl]
  · rw [htask', if_pos rfl]
    exact congrArg MCmd.ser hcmd.symm
  · rw [ho.net]
    rw [State.myTile, hcurId] at hpend
    exact hpend

/-- Without room the instruction does not issue. -/
theorem matrix_waits {i : Instr} {s : State} {op : MOp} {md : PredNo} {ga gb : W64} {sa sb : W32} {v0 v1 : Vec} {ms : List PredNo}
    (he : exec i s = issue i s fun s => matrixAct (s.mcmd op md ga gb sa sb v0 v1) ms s) (hms : ∀ m ∈ ms, s.Mine m)
    (htrap : s.matrixTrap (s.mcmd op md ga gb sa sb v0 v1) = none)
    (hroom : ¬((s.core (coreOf s.curId)).q0.length < 8 ∧ (s.task s.cur.u.tid).out1 + (s.task s.cur.u.tid).q1.length < 16)) (hc : CanIssue i s) :
    exec i s = .next s := by
  obtain ⟨t, ht, _⟩ := State.ownAll_mine (s := s.charge) ms fun m hm => charge_mine.2 (hms m hm)
  have hfull : s.queueRoom 0 = false := Bool.eq_false_iff.2 fun h => hroom ((queueRoom_zero s).1 h)
  refine he.trans ((issue_go _ hc).trans ?_)
  rw [charge_mcmd, matrixAct, charge_matrixTrap, htrap, ht, charge_queueRoom, hfull]
  rfl

/-- An accumulator that does not pass the owner check traps ACC_OWNER (R199). -/
theorem matrix_traps {i : Instr} {s : State} {op : MOp} {md : PredNo} {ga gb : W64} {sa sb : W32} {v0 v1 : Vec} {m : PredNo} {ms : List PredNo}
    {code : Nat} {x : W64} (he : exec i s = issue i s fun s => matrixAct (s.mcmd op md ga gb sa sb v0 v1) (m :: ms) s)
    (htrap : s.matrixTrap (s.mcmd op md ga gb sa sb v0 v1) = none) (hown : s.charge.ownAcc m.toNat = .inl (code, x)) :
    Traps i s 0x0B code x := by
  refine traps_of_trap he ?_
  have hall : State.ownAll (.inr s.charge) (m :: ms) = .inl (code, x) := by
    show State.ownAll (s.charge.ownAcc m.toNat) ms = _
    rw [hown, State.ownAll_inl]
  rw [charge_mcmd, matrixAct, charge_matrixTrap, htrap, hall]

/-- Another task's accumulator. -/
theorem ownAcc_other {s : State} {m : PredNo} {o : Nat × W32 × W64} (ho : (s.acc m).owner = some o) (hme : o ≠ s.me) (htid : o.2.2 ≠ s.cur.u.tid) :
    s.ownAcc m.toNat = .inl (m.toNat, o.2.2) := by
  unfold State.acc at ho
  unfold State.ownAcc
  dsimp only
  rw [ho]
  exact (if_neg hme).trans (if_neg fun h => htid h.1)

/-- A free accumulator that the slot has given up. -/
theorem ownAcc_givenUp {s : State} {m : PredNo} (ho : (s.acc m).owner = none) (hr : s.cur.rmask.getLsbD m.toNat = true) :
    s.ownAcc m.toNat = .inl (m.toNat + 8, 0) := by
  unfold State.acc at ho
  unfold State.ownAcc
  dsimp only
  rw [ho]
  exact if_pos hr

/-- MZERO and MMOV name no rows, so that no check precedes the owner check. -/
theorem matrixTrap_noRows (s : State) {c : MCmd} (hop : c.op = .mzero ∨ ∃ k, c.op = .mmov k) : s.matrixTrap c = none := by
  obtain hop | ⟨k, hop⟩ := hop <;>
    simp [State.matrixTrap, MCmd.rows, MCmd.aRows, MCmd.bRows, MCmd.fmtTrap, MCmd.spTrap, MOp.shape, hop, firstRow]

section
variable {s : State} {i : Instr} {op : MOp} {n : PredNo} {ms : List PredNo} {v0 v1 : Vec}
  (he : exec i s = issue i s fun s => matrixAct (s.mcmd op n 0 0 0 0 v0 v1) (n :: ms) s) (hop : op = .mzero ∨ ∃ k, op = .mmov k)
include he hop

theorem matrix_trapsOther {o : Nat × W32 × W64} (ho : (s.acc n).owner = some o) (hme : o ≠ s.me) (htid : o.2.2 ≠ s.cur.u.tid) :
    Traps i s 0x0B n.toNat o.2.2 :=
  matrix_traps he (matrixTrap_noRows s hop)
    (ownAcc_other (s := s.charge) (by rwa [charge_acc]) (by rwa [charge_me]) (by rwa [State.charge_u_tid]))

theorem matrix_trapsGivenUp (ho : (s.acc n).owner = none) (hr : s.cur.rmask.getLsbD n.toNat = true) : Traps i s 0x0B (n.toNat + 8) 0 :=
  matrix_traps he (matrixTrap_noRows s hop) (ownAcc_givenUp (s := s.charge) (by rwa [charge_acc]) (by rwa [State.charge_rmask]))

end

/-- Settles O27: the checks, the owner checks and the room for a command, in the order of `matrixAct`. -/
theorem matrixCommands : Obligations.MatrixCommands := by
  intro s n k a b v ty tr z
  have pushes {i : Instr} {op : MOp} {ga gb : W64} {sa sb : W32} {v0 v1 : Vec} {ms : List PredNo}
      (he : exec i s = issue i s fun s => matrixAct (s.mcmd op n ga gb sa sb v0 v1) ms s) := fun hms htrap =>
    And.intro (matrix_pushes he hms htrap) (matrix_waits he hms htrap)
  have hzero : exec (.mzero n) s = issue (.mzero n) s fun s => matrixAct (s.mcmd .mzero n 0 0 0 0 noVec noVec) [n] s := by rfl
  have hmov : exec (.mmov n k) s = issue (.mmov n k) s fun s => matrixAct (s.mcmd (.mmov k) n 0 0 0 0 noVec noVec) [n, k] s := by rfl
  refine ⟨pushes (pushMatrix_eq ..), pushes (pushMatrix_eq ..), pushes (pushMatrix_eq ..), pushes (pushMatrix_eq ..), pushes (pushMatrix_eq ..),
    fun hn hroom => ?_, fun hn hk hroom => ?_, fun o ho hme htid => ?_, fun ho hr => ?_⟩
  · exact matrix_pushes hzero (List.forall_mem_singleton.2 hn) (matrixTrap_noRows s (.inl rfl)) hroom
  · exact matrix_pushes hmov (List.forall_mem_cons.2 ⟨hn, List.forall_mem_singleton.2 hk⟩) (matrixTrap_noRows s (.inr ⟨k, rfl⟩)) hroom
  · exact ⟨matrix_trapsOther hzero (.inl rfl) ho hme htid, matrix_trapsOther hmov (.inr ⟨k, rfl⟩) ho hme htid⟩
  · exact matrix_trapsGivenUp hzero (.inl rfl) ho hr

end Sys2Proof.Machine
end


section
/-! PROOF. Instructions that act beyond their slot, step by step: what is confined to the slot, its core, its task and what is in flight. The statements on
engine queues rest on it. -/

namespace Sys2Proof.Machine

/-! ### Confined changes one after another -/

section
variable {s u : State}

theorem Confined.charge (s : State) : Confined s s.charge where
  rest := by
    rw [(OnlySlot.charge s).rest]
  counters := s.tile_charge
  cores c _ := congrArg (Map.getD Core.reset · c) s.charge_cores
  tasks n _ := s.charge_task n
  pend := by rw [s.charge_net]

variable (h : Confined s u)
include h

theorem Confined.curId : u.curId = s.curId := by rw [h.rest]
theorem Confined.pkg : u.pkg = s.pkg := by rw [h.rest]
theorem Confined.myTile : u.myTile = s.myTile := by rw [State.myTile, h.curId, State.myTile]

theorem Confined.updCur (f : Slot → Slot) : Confined s (u.updCur f) where
  rest := by
    rw [State.updCur, h.rest]
  counters := h.counters
  cores := h.cores
  tasks := h.tasks
  pend := h.pend

theorem Confined.updTask {tid : W64} (htid : tid = s.cur.u.tid) (f : Task → Task) : Confined s (u.updTask tid f) where
  rest := by
    rw [State.updTask, h.rest]
  counters := h.counters
  cores := h.cores
  tasks n hn := by
    rw [State.task_updTask, if_neg (htid ▸ hn)]
    exact h.tasks n hn
  pend := h.pend

theorem Confined.updCore {core : Nat} (hcore : core = coreOf s.curId) (f : Core → Core) : Confined s (u.updCore core f) where
  rest := by
    rw [State.updCore, h.rest]
  counters := h.counters
  cores c hc := by
    rw [State.core_updCore, if_neg (hcore ▸ hc)]
    exact h.cores c hc
  tasks := h.tasks
  pend := h.pend

theorem Confined.after (delay : Nat) (e : Event) : Confined s (u.after delay e) where
  rest := by
    rw [State.after, h.rest]
  counters := h.counters
  cores := h.cores
  tasks := h.tasks
  pend := h.pend.trans (List.prefix_append ..)

theorem Confined.afterOnce (delay : Nat) (e : Event) : Confined s (u.afterOnce delay e) := by
  unfold State.afterOnce
  split
  · exact h
  · exact h.after delay e

theorem Confined.openOp (i : Instr) (kind : OpKind) (due : Option Nat) (left : Nat) (wb : WriteBack) : Confined s (u.openOp i kind due left wb).2 where
  rest := by
    rw [State.openOp_eq]
    dsimp only
    rw [h.rest]
  counters := h.counters
  cores := h.cores
  tasks := h.tasks
  pend := h.pend

/-- What then changes the slot alone is confined as well. -/
theorem Confined.onlySlot {t : State} (ht : OnlySlot u t) : Confined s t where
  rest := by rw [ht.rest, h.rest]
  counters k := by rw [ht.counters, h.counters]
  cores c hc := by
    rw [State.core, ht.cores]
    exact h.cores c hc
  tasks n hn := by
    rw [State.task, ht.tasks]
    exact h.tasks n hn
  pend := by
    rw [ht.net]
    exact h.pend

end

theorem OnlySlot.task {s t : State} (h : OnlySlot s t) (n : W64) : t.task n = s.task n := by
  rw [State.task, h.tasks]
  rfl

theorem OnlySlot.core {s t : State} (h : OnlySlot s t) (c : Nat) : t.core c = s.core c := by
  rw [State.core, h.cores]
  rfl

theorem State.task_updTask_same (s : State) (tid : W64) (f : Task → Task) : (s.updTask tid f).task tid = f (s.task tid) :=
  (State.task_updTask ..).trans (if_pos rfl)

theorem State.core_updCore_same (s : State) (c : Nat) (f : Core → Core) : (s.updCore c f).core c = f (s.core c) :=
  (State.core_updCore ..).trans (if_pos rfl)

/-! ### Slots that wait -/

section
variable {i : Instr} {s u : State} {body : State → Act}

/-- The slot is Blocked in an instruction that will be examined again. -/
theorem blocks_of_hold {b : Block} (he : exec i s = issue i s body)
    (hb : body s.charge = .hold (s.charge.updCur fun x => { x with status := .blocked b }) (.again 1)) :
    Completes i s fun t => OnlySlot s t ∧ BlockedIn i s.cur t.cur b := by
  intro hc
  refine ⟨_, he.trans (issue_go _ hc), ?_⟩
  rw [hb]
  dsimp only [State.conclude]
  refine ⟨((OnlySlot.charge s).trans (.updCur ..)).trans (.updCur ..), ?_⟩
  unfold BlockedIn
  rw [State.updCur_cur, State.updCur_cur, State.charge_cur]

/-- The slot holds issue for an answer. -/
theorem waiting_of_hold {k : Nat} (he : exec i s = issue i s body) (hc : CanIssue i s) (hb : body s.charge = .hold u (.answer k))
    (hu : u.cur = s.charge.cur) : ∃ t, exec i s = .next t ∧ OnlySlot u t ∧ Waiting i s.cur t.cur (.answer k) := by
  refine ⟨_, he.trans (issue_go _ hc), ?_⟩
  rw [hb]
  dsimp only [State.conclude]
  refine ⟨.updCur .., ?_⟩
  unfold Waiting
  rw [State.updCur_cur, hu, State.charge_cur]

/-- An instruction that lists an operation goes on in sequence. -/
theorem CanIssue.opened (h : CanIssue i s) {f : Slot → Slot} (hf : Plain f) (hbusy : (f s.charge.cur).busy = s.charge.cur.busy) {o : LongOp}
    (hu : u.cur = { f s.charge.cur with ops := s.cur.ops ++ [o] }) (hpc : o.pc = s.cur.pc) :
    OnlySlot u u.advance ∧ Opened s.cur u.advance.cur o ∧ u.advance.cur.regs = (f s.charge.cur).regs ∧
      u.advance.cur.u.fflags = (f s.charge.cur).u.fflags := by
  have hx := hf s.charge.cur
  have hhold := h.hold
  have hundo : u.cur.frame = none ∨ u.cur.spec.undo = none := by
    rw [hu, hx]
    simpa [State.charge_cur] using h.2
  have hs := Slot.pc_step_congr s.cur u.cur (by rw [hu, hx]; simp) (by rw [hu, hx]; simp) (by rw [hu, hx]; simp)
  rw [State.advance_eq hundo]
  refine ⟨OnlySlot.updCur .., ?_⟩
  rw [State.updCur_cur, Slot.countChunk_rest]
  refine ⟨⟨?_, hs.1, hs.2, hpc⟩, ?_, ?_⟩ <;> dsimp only <;> rw [Slot.step_rest] <;> dsimp only <;> rw [hu]
  rw [hx, hbusy]
  simp only [State.charge_cur]
  rw [hhold]

end

/-! ### Pushes of commands (R189, R344, R353) -/

/-- The command of an engine instruction of the slot in focus. -/
def State.ecmd (s : State) (a : RegNo) (tag : Option W32) : ECmd :=
  ⟨s.cur.readG a, tag, s.cur.u.tid, s.curId, s.cur.sc.asid, s.cur.sc.tenant, s.cur.sc.piste, s.now, s.cur.ops.map (·.id)⟩

theorem charge_ecmd (s : State) (a : RegNo) (tag : Option W32) : s.charge.ecmd a tag = s.ecmd a tag := by
  have hnow : s.charge.now = s.now := congrArg (fun p : Pkg => p.cycle.toNat) s.charge_pkg
  simp [State.ecmd, hnow]

/-- A command is pushed, counted for its task, and its engine looks for one. -/
def State.pushCmd (s : State) (f : Core → Core) (g : Task → Task) (e : Event) : State :=
  ((s.updCore (coreOf s.curId) f).updTask s.myTid g).afterOnce 1 e

theorem pushCmd_passes {i : Instr} {s : State} {body : State → Act} {f : Core → Core} {g : Task → Task} {e : Event} (he : exec i s = issue i s body)
    (hb : body s.charge = .next (s.charge.pushCmd f g e)) : Completes i s fun t => Confined s t ∧ Passed s.cur t.cur ∧
      t.core (coreOf s.curId) = f (s.core (coreOf s.curId)) ∧ t.task s.cur.u.tid = g (s.task s.cur.u.tid) ∧ ∃ p ∈ t.net.pend, p.ev = e := by
  intro hc
  have hcur : (s.charge.pushCmd f g e).cur = s.charge.cur := by rw [State.pushCmd, State.afterOnce_only]; rfl
  obtain ⟨ho, hp⟩ := hc.passes hcur
  have hconf : Confined s (s.charge.pushCmd f g e) :=
    (((Confined.charge s).updCore (by rw [s.charge_curId]) f).updTask s.charge_myTid g).afterOnce 1 e
  refine ⟨_, he.trans (issue_next hc hb), hconf.onlySlot ho, hp, ?_, ?_, ?_⟩
  · rw [ho.core, State.pushCmd, State.afterOnce_only, ← s.charge_curId]
    refine (State.core_updCore_same s.charge _ f).trans ?_
    rw [State.core, s.charge_cores]
    rfl
  · rw [ho.task, State.pushCmd, State.afterOnce_only, ← s.charge_myTid]
    refine (State.task_updTask_same (s.charge.updCore _ f) _ g).trans ?_
    rw [s.charge_myTid]
    exact congrArg g (s.charge_task _)
  · rw [ho.net]
    exact (State.afterOnce_pend ..).2

theorem copy_pushes {i : Instr} {s : State} {a : RegNo} {tag : Option W32} (he : exec i s = pushCopy i s a tag) :
    Completes i s fun t => Confined s t ∧ Passed s.cur t.cur ∧
      t.core (coreOf s.curId) = { s.core (coreOf s.curId) with q2 := (s.core (coreOf s.curId)).q2 ++ [s.ecmd a tag] } ∧
      t.task s.cur.u.tid = { s.task s.cur.u.tid with out3 := (s.task s.cur.u.tid).out3 + 1 } ∧
      ∃ p ∈ t.net.pend, p.ev = .copyCommandStart s.myTile (coreOf s.curId % 8) := by
  refine pushCmd_passes (f := fun k => { k with q2 := k.q2 ++ [s.ecmd a tag] }) (g := fun t => { t with out3 := t.out3 + 1 }) (he.trans (by rfl)) ?_
  rw [← charge_ecmd, ← s.charge_myTile, ← s.charge_curId]
  rfl

theorem coll_pushes (s : State) (a : RegNo) : Completes (.coll a) s fun t => Confined s t ∧ Passed s.cur t.cur ∧
    t.core (coreOf s.curId) = { s.core (coreOf s.curId) with q4 := (s.core (coreOf s.curId)).q4 ++ [s.ecmd a none] } ∧
    t.task s.cur.u.tid = { s.task s.cur.u.tid with out5 := (s.task s.cur.u.tid).out5 + 1 } ∧
    ∃ p ∈ t.net.pend, p.ev = .collectiveJoin s.myTile (coreOf s.curId % 8) := by
  refine pushCmd_passes (f := fun k => { k with q4 := k.q4 ++ [s.ecmd a none] }) (g := fun t => { t with out5 := t.out5 + 1 })
    (by unfold exec execColl; rfl) ?_
  rw [← charge_ecmd, ← s.charge_myTile, ← s.charge_curId]
  rfl

/-! ### Pops (R191, R352, R354) -/

/-- How long a pop takes: the way to the creating tile and back. -/
def popWay (s : State) : Nat :=
  if (s.cur.u.tid.toNat / 2 ^ 46) % 2 ^ 9 = s.myTile then 10 else 2 * hopTile s.myTile ((s.cur.u.tid.toNat / 2 ^ 46) % 2 ^ 9)

theorem creator_eq (tid : W64) : creator tid = tid.toNat / 2 ^ 46 % 2 ^ 9 := by
  rw [creator, BitVec.extractLsb'_toNat, Nat.shiftRight_eq_div_pow]

theorem popTime_eq (s : State) : s.charge.popTime = popWay s := by
  rw [State.popTime, s.charge_myTid, s.charge_myTile, creator_eq]
  rfl

/-- A change of registers and flags alone. -/
def OnlyRegs (f : Slot → Slot) : Prop := ∀ x, f x = { x with regs := (f x).regs, u := { x.u with fflags := (f x).u.fflags } }

/-- An instruction that changes what is confined, and whose result comes after `lat` cycles. -/
theorem long_of_result {i : Instr} {s v : State} {body : State → Act} {f : Slot → Slot} {lat : Nat} (hf : OnlyRegs f) (he : exec i s = issue i s body)
    (hb : body s.charge = longResult i v lat false f) (hv : Confined s v) (hcur : v.cur = s.charge.cur) :
    Completes i s fun t => ∃ o, Confined s t ∧ Opened s.cur t.cur o ∧ t.cur.regs = (f s.charge.cur).regs ∧
      t.cur.u.fflags = (f s.charge.cur).u.fflags ∧ o.la = (infoOf i).la ∧ o.dests = (infoOf i).dests ∧ o.due = some (s.now + lat) ∧
      t.task s.cur.u.tid = v.task s.cur.u.tid ∧ t.net.pend = v.net.pend := by
  intro hc
  have hnow : v.now = s.now := congrArg (fun p : Pkg => p.cycle.toNat) hv.pkg
  have hops : (f s.charge.cur).ops = s.cur.ops := by
    rw [hf]
    exact s.charge_ops
  have hpc : (f s.charge.cur).pc = s.cur.pc := by
    rw [hf]
    exact State.charge_pc s
  have hplain : Plain f := fun x => by
    have h := hf x
    have hb : (f x).busy = x.busy := by rw [h]
    have hg : (f x).forfeit = x.forfeit := by rw [h]
    rw [hb, hg]
    exact h
  obtain ⟨ho, hop, hregs, hfl⟩ := hc.opened (u := ((v.updCur f).openOp i .result (some (v.now + lat)) 0 .none).2) hplain (by rw [hf])
    (o := (v.updCur f).opOf i .result (some (v.now + lat)) 0 .none)
    (by
      show ({ f v.cur with ops := (f v.cur).ops ++ [_] } : Slot) = _
      rw [hcur, hops]
      rfl)
    (by
      show (f v.cur).pc = _
      rw [hcur, hpc])
  refine ⟨_, he.trans ((issue_go _ hc).trans (by rw [hb]; rfl)), _, ((hv.updCur _).openOp ..).onlySlot ho, hop, hregs, hfl, rfl, rfl, ?_, ho.task _, ?_⟩
  · show some (v.now + lat) = _
    rw [hnow]
  · rw [ho.net]
    rfl

/-- What a pop leaves: its result in g[D], barred until it is due, and the task as the pop left it. -/
def Pops (s : State) (d : RegNo) (la lat : Nat) (v : W64) (fl : Flags) (left : Task) (t : State) : Prop :=
  ∃ o, Confined s t ∧ Opened s.cur t.cur o ∧ SetsG s.cur t.cur d v ∧ t.cur.u.fflags = s.cur.u.fflags ||| fl ∧
    o.la = la ∧ o.dests = [.g d] ∧ o.due = some (s.now + lat) ∧ t.task s.cur.u.tid = left

/-- What `Opened` leaves of the registers is what the result wrote. -/
theorem setsG_of_regs {s t : State} {o : LongOp} {d : RegNo} {w : W64} (hop : Opened s.cur t.cur o) (hregs : t.cur.regs = (s.charge.cur.writeG d w).regs) :
    SetsG s.cur t.cur d w := by
  refine ((Slot.writeG_sets s.charge.cur d w).of_regs hregs ?_).from_regs (by simp) (by simp)
  rw [hop.rest, Slot.writeG_u]
  simp

/-- A pop that raises flags. -/
theorem pops_of_raise {i : Instr} {s v : State} {body : State → Act} {d : RegNo} {la : BitVec 4} {lat : Nat} {w : W64} {fl : Flags}
    (he : exec i s = issue i s body) (hb : body s.charge = longResult i v lat false fun x => (x.writeG d w).raise fl) (hv : Confined s v)
    (hcur : v.cur = s.charge.cur) (hla : (infoOf i).la = la.toNat) (hd : (infoOf i).dests = [.g d]) :
    Completes i s (Pops s d la.toNat lat w fl (v.task s.cur.u.tid)) := by
  intro hc
  obtain ⟨t, ht, o, hconf, hop, hregs, hfl, hola, hod, hdue, htask, _⟩ := long_of_result (Slot.writeGraise_fl d w fl) he hb hv hcur hc
  exact ⟨t, ht, o, hconf, hop, setsG_of_regs hop hregs, hfl.trans (by simp [Slot.raise]), hola.trans hla, hod.trans hd, hdue, htask⟩

/-- A pop that raises none. -/
theorem pops_of_write {i : Instr} {s v : State} {body : State → Act} {d : RegNo} {la : BitVec 4} {lat : Nat} {w : W64}
    (he : exec i s = issue i s body) (hb : body s.charge = longResult i v lat false fun x => x.writeG d w) (hv : Confined s v)
    (hcur : v.cur = s.charge.cur) (hla : (infoOf i).la = la.toNat) (hd : (infoOf i).dests = [.g d]) :
    Completes i s (Pops s d la.toNat lat w 0 (v.task s.cur.u.tid)) :=
  pops_of_raise he (hb.trans (congrArg (longResult i v lat false) (funext fun _ => (Slot.raise_zero _).symm))) hv hcur hla hd

/-- The task in focus with its queues changed by a pop. -/
theorem confined_pop (s : State) (f : Task → Task) : Confined s (s.charge.updTask s.charge.myTid f) :=
  (Confined.charge s).updTask s.charge_myTid f

theorem task_pop (s : State) (f : Task → Task) : (s.charge.updTask s.charge.myTid f).task s.cur.u.tid = f (s.task s.cur.u.tid) := by
  rw [s.charge_myTid, State.task_updTask_same, s.charge_task]

section
variable {s : State} {d : RegNo} {la : BitVec 4}

theorem mstat_pops {w : W64} {ws : List W64} (hw : (s.task s.cur.u.tid).q1 = w :: ws) :
    Completes (.mstat d la) s (Pops s d la.toNat (popWay s) w (wordFlags w) { s.task s.cur.u.tid with q1 := ws }) := by
  have h := pops_of_raise (la := la) (lat := popWay s) (w := w) (fl := wordFlags w) (exec_mstat d la s)
    (by rw [s.charge_task, s.charge_myTid, hw, ← popTime_eq]; rfl) (confined_pop s fun t => { t with q1 := ws }) rfl rfl rfl
  rwa [task_pop] at h

theorem mstat_blocks (hw : (s.task s.cur.u.tid).q1 = []) :
    Completes (.mstat d la) s fun t => OnlySlot s t ∧ BlockedIn (.mstat d la) s.cur t.cur (.queue 1) :=
  blocks_of_hold (exec_mstat d la s) (by rw [s.charge_task, s.charge_myTid, hw]; rfl)

theorem mwait_pops (ho : (s.task s.cur.u.tid).out1 = 0) :
    Completes (.mwait d la) s (Pops s d la.toNat (popWay s) ((s.task s.cur.u.tid).q1.foldl (fun p w => p ||| w) 0)
      ((s.task s.cur.u.tid).q1.foldl (fun f w => f ||| wordFlags w) 0) { s.task s.cur.u.tid with q1 := [] }) := by
  have h := pops_of_raise (la := la) (lat := popWay s) (w := (s.task s.cur.u.tid).q1.foldl (fun p w => p ||| w) 0)
    (fl := (s.task s.cur.u.tid).q1.foldl (fun f w => f ||| wordFlags w) 0) (exec_mwait d la s)
    (by
      rw [if_pos (by rw [s.charge_task, s.charge_myTid, ho]), ← popTime_eq, State.popAll, s.charge_task, s.charge_myTid]
      rfl) (confined_pop s fun t => { t with q1 := [] }) rfl rfl rfl
  rwa [task_pop] at h

/-- With matrix commands incomplete the operation is listed and waits for them. -/
theorem mwait_waits (ho : (s.task s.cur.u.tid).out1 ≠ 0) : Completes (.mwait d la) s fun t => ∃ o, Confined s t ∧ Opened s.cur t.cur o ∧
    t.cur.regs = s.cur.regs ∧ t.cur.u.fflags = s.cur.u.fflags ∧ o.dests = [.g d] ∧ o.due = none ∧ o.left = 1 ∧
    t.task s.cur.u.tid = s.task s.cur.u.tid := by
  intro hc
  obtain ⟨hs, hop, hregs, hfl⟩ := hc.opened (u := (s.charge.openOp (.mwait d la) .result none 1 .none).2) (f := fun x => x) (fun _ => rfl) rfl
    (o := s.charge.opOf (.mwait d la) .result none 1 .none)
    (by
      show ({ s.charge.cur with ops := s.charge.cur.ops ++ [_] } : Slot) = _
      rw [s.charge_ops]
      rfl) (State.charge_pc s)
  refine ⟨_, (exec_mwait d la s).trans ((issue_go _ hc).trans (by rw [if_neg (by rw [s.charge_task, s.charge_myTid]; exact ho)]; rfl)), _,
    ((Confined.charge s).openOp ..).onlySlot hs, hop, by simpa using hregs, by simpa using hfl, rfl, rfl, rfl, ?_⟩
  rw [hs.task]
  exact s.charge_task _

/-- What QPOP does at a completion queue. -/
theorem exec_qpop_completion {q : BitVec 4} (hq : q = 1 ∨ q = 3 ∨ q = 5) : ∃ body, exec (.qpop d q la) s = issue (.qpop d q la) s body ∧
    body s.charge = match (s.task s.cur.u.tid).words q.toNat with
      | [] => s.charge.blockPop q.toNat
      | w :: rest => longResult (.qpop d q la) (s.charge.updTask s.charge.myTid fun t => t.setWords q.toNat rest) s.charge.popTime false fun x => x.writeG d w := by
  have h : ¬(q.toNat = 0 ∨ q.toNat = 2 ∨ q.toNat = 4) ∧ ¬(q.toNat = 6 ∨ q.toNat = 7) ∧ q.toNat < 8 := by
    obtain rfl | rfl | rfl := hq <;> decide
  obtain ⟨h0, h6, h8⟩ := h
  refine ⟨_, exec_qpop d q la s, ?_⟩
  rw [if_neg h0, if_neg h6, if_pos h8, s.charge_task, s.charge_myTid]
  rfl

theorem qpop_pops {q : BitVec 4} (hq : q = 1 ∨ q = 3 ∨ q = 5) {w : W64} {ws : List W64} (hw : (s.task s.cur.u.tid).words q.toNat = w :: ws) :
    Completes (.qpop d q la) s (Pops s d la.toNat (popWay s) w 0 ((s.task s.cur.u.tid).setWords q.toNat ws)) := by
  obtain ⟨body, he, hb⟩ := exec_qpop_completion (s := s) (d := d) (la := la) hq
  rw [hw] at hb
  have h := pops_of_write (la := la) (lat := popWay s) (w := w) he (by rw [hb, ← popTime_eq]) (confined_pop s fun t => t.setWords q.toNat ws) rfl rfl rfl
  rwa [task_pop] at h

theorem qpop_blocks {q : BitVec 4} (hq : q = 1 ∨ q = 3 ∨ q = 5) (hw : (s.task s.cur.u.tid).words q.toNat = []) :
    Completes (.qpop d q la) s fun t => OnlySlot s t ∧ BlockedIn (.qpop d q la) s.cur t.cur (.queue q.toNat) := by
  obtain ⟨body, he, hb⟩ := exec_qpop_completion (s := s) (d := d) (la := la) hq
  rw [hw] at hb
  exact blocks_of_hold he hb

theorem qpop_traps {q : BitVec 4} {code : Nat} (hq : ((q = 0 ∨ q = 2 ∨ q = 4) ∧ code = 1) ∨ ((q = 6 ∨ q = 7) ∧ code = 2)) :
    Traps (.qpop d q la) s 0x14 code ((encode (.qpop d q la)).setWidth 64) := by
  refine traps_of_trap (exec_qpop d q la s) ?_
  obtain ⟨hq, rfl⟩ | ⟨hq, rfl⟩ := hq
  · rw [if_pos (by obtain rfl | rfl | rfl := hq <;> decide)]
    rfl
  · rw [if_neg (by obtain rfl | rfl := hq <;> decide), if_pos (by obtain rfl | rfl := hq <;> decide)]
    rfl

end

/-- Settles O28: commands are pushed and counted; a pop takes the first word, or every word, of the queue of the task, or the slot is Blocked. -/
theorem engineQueues : Obligations.EngineQueues := by
  intro s d a b la q
  refine ⟨copy_pushes (exec_cpy a s), copy_pushes (tag := some _) ((exec_cpyx a b s).trans (by rw [execCpyx, lo32_eq])), coll_pushes s a,
    fun w ws => mstat_pops, mstat_blocks, mwait_pops, mwait_waits, fun w ws hq hw => ?_, fun w ws hq hw => ?_, fun w ws hq hw => ?_, ?_,
    fun hq => qpop_traps (.inl ⟨hq, rfl⟩), fun hq => qpop_traps (.inr ⟨hq, rfl⟩)⟩
  · subst hq
    exact qpop_pops (.inl rfl) hw
  · subst hq
    exact qpop_pops (.inr (.inl rfl)) hw
  · subst hq
    exact qpop_pops (.inr (.inr rfl)) hw
  · rintro (⟨rfl, hw⟩ | ⟨rfl, hw⟩ | ⟨rfl, hw⟩)
    · exact qpop_blocks (.inl rfl) hw
    · exact qpop_blocks (.inr (.inl rfl)) hw
    · exact qpop_blocks (.inr (.inr rfl)) hw

end Sys2Proof.Machine
end


section
/-! PROOF. Channels (R192 to R195, R354, R355). -/

namespace Sys2Proof.Machine

section
variable {s : State} {g v : RegNo} {q la : BitVec 4}

/-- The channel end of a queue register of the task in focus. -/
def State.chan (s : State) (q : BitVec 4) : Option Chan := (s.task s.cur.u.tid).chans.getD (q.toNat - 8) none

/-- The task in focus with that end replaced. -/
def State.withChan (s : State) (q : BitVec 4) (c : Option Chan) : Task :=
  { s.task s.cur.u.tid with chans := (s.task s.cur.u.tid).chans.setIfInBounds (q.toNat - 8) c }

theorem charge_chan (s : State) (q : BitVec 4) : (s.charge.task s.charge.myTid).chan q.toNat = s.chan q := by
  rw [s.charge_task, s.charge_myTid]
  rfl

theorem charge_peerDepth (s : State) (tid : W64) (c : Chan) : s.charge.peerDepth tid c = s.peerDepth tid c := by
  simp only [State.peerDepth, s.charge_task]

/-! ### Pushes -/

/-- Words that leave one after another. -/
def State.sendWords (s : State) (peer : W64) (f : W64 → Event) (ws : List W64) : State :=
  ws.foldl (fun s w => s.after (hopTile s.myTile (creator peer)) (f w)) s

theorem State.sendWords_eq (s : State) (peer : W64) (f : W64 → Event) (ws : List W64) : s.sendWords peer f ws =
    { s with net := { s.net with pend := s.net.pend ++ ws.map fun w => ⟨s.now + hopTile s.myTile (creator peer), f w⟩ } } := by
  unfold State.sendWords
  induction ws generalizing s with
  | nil => simp
  | cons w ws ih =>
    rw [List.foldl_cons, ih]
    simp [State.after, State.now, State.myTile]

theorem Confined.sendWords {u : State} (h : Confined s u) (peer : W64) (f : W64 → Event) (ws : List W64) : Confined s (u.sendWords peer f ws) := by
  unfold State.sendWords
  induction ws generalizing u with
  | nil => exact h
  | cons w ws ih => exact ih (h.after ..)

/-- What a push finds at a bound end. -/
theorem pushChan_bound {i : Instr} {c : Chan} (ws : List W64) (hq : 8 ≤ q.toNat) (hc : s.chan q = some c) : pushChan i s.charge q.toNat ws =
    if !c.send then queueTrap i 3
    else if c.gone then queueTrap i 6
    else if decide (1 < ws.length) && (match s.peerDepth s.cur.u.tid c with | some d => decide (d < 16) | none => false) then queueTrap i 7
    else if c.credits < ws.length then .stall
    else .next ((s.charge.updTask s.charge.myTid fun t => t.setChan q.toNat (some { c with credits := c.credits - ws.length })).sendWords c.peer
      (.channelWord c.peer c.peerq s.cur.u.tid) ws) := by
  unfold pushChan
  rw [if_neg (by omega), if_neg (by omega), charge_chan, hc]
  dsimp only
  rw [charge_peerDepth, s.charge_myTid]
  rfl

/-- A push on a send end takes its credits and sends its words. -/
theorem pushChan_passes {i : Instr} {body : State → Act} {c : Chan} {ws : List W64} (hq : 8 ≤ q.toNat) (he : exec i s = issue i s body)
    (hb : body s.charge = pushChan i s.charge q.toNat ws) (hc : s.chan q = some c) (hsend : c.send = true) (hgone : c.gone = false)
    (hcr : ws.length ≤ c.credits) (hdepth : 1 < ws.length → ∀ k, s.peerDepth s.cur.u.tid c = some k → 16 ≤ k) :
    Completes i s fun t => Confined s t ∧ Passed s.cur t.cur ∧ t.task s.cur.u.tid = s.withChan q (some { c with credits := c.credits - ws.length }) ∧
      t.net.pend = s.net.pend ++ ws.map fun w => ⟨s.now + hopTile s.myTile (c.peer.toNat / 2 ^ 46 % 2 ^ 9), .channelWord c.peer c.peerq s.cur.u.tid w⟩ := by
  intro h
  have hdeep : ¬(decide (1 < ws.length) && (match s.peerDepth s.cur.u.tid c with | some d => decide (d < 16) | none => false)) = true := by
    intro hd
    obtain ⟨h1, hd⟩ := (Bool.and_eq_true _ _).mp hd
    have := hdepth (of_decide_eq_true h1)
    split at hd
    · rename_i k hk
      have := this k hk
      have := of_decide_eq_true hd
      omega
    · exact Bool.false_ne_true hd
  rw [pushChan_bound ws hq hc, if_neg (by rw [hsend]; decide), if_neg (by rw [hgone]; decide), if_neg hdeep, if_neg (by omega)] at hb
  have hv := confined_pop s fun t => t.setChan q.toNat (some { c with credits := c.credits - ws.length })
  have htask := task_pop s fun t => t.setChan q.toNat (some { c with credits := c.credits - ws.length })
  have hcur : (s.charge.updTask s.charge.myTid fun t => t.setChan q.toNat (some { c with credits := c.credits - ws.length })).cur = s.charge.cur := rfl
  have hnet : (s.charge.updTask s.charge.myTid fun t => t.setChan q.toNat (some { c with credits := c.credits - ws.length })).net = s.net := s.charge_net
  generalize (s.charge.updTask s.charge.myTid fun t => t.setChan q.toNat (some { c with credits := c.credits - ws.length })) = v at hb hv htask hcur hnet
  have hnow : v.now = s.now := congrArg (fun p : Pkg => p.cycle.toNat) hv.pkg
  obtain ⟨ho, hp⟩ := h.passes (u := v.sendWords c.peer (.channelWord c.peer c.peerq s.cur.u.tid) ws) (by rw [State.sendWords_eq]; exact hcur)
  refine ⟨_, he.trans (issue_next h hb), (hv.sendWords ..).onlySlot ho, hp, ?_, ?_⟩
  · rw [ho.task, State.sendWords_eq]
    exact htask
  · rw [ho.net, State.sendWords_eq, ← creator_eq, hnow, hv.myTile, hnet]

theorem pushChan_traps {i : Instr} {body : State → Act} {ws : List W64} {code : Nat} (hq : 8 ≤ q.toNat) (he : exec i s = issue i s body)
    (hb : body s.charge = pushChan i s.charge q.toNat ws)
    (h : code = 3 ∧ (s.chan q = none ∨ ∃ c, s.chan q = some c ∧ c.send = false) ∨
      code = 6 ∧ ∃ c, s.chan q = some c ∧ c.send = true ∧ c.gone = true) : Traps i s 0x14 code ((encode i).setWidth 64) := by
  refine traps_of_trap he (hb.trans ?_)
  obtain ⟨rfl, hc | ⟨c, hc, hsend⟩⟩ | ⟨rfl, c, hc, hsend, hgone⟩ := h
  · unfold pushChan
    rw [if_neg (by omega), if_neg (by omega), charge_chan, hc]
    rfl
  · rw [pushChan_bound ws hq hc, if_pos (by rw [hsend]; decide)]
    rfl
  · rw [pushChan_bound ws hq hc, if_neg (by rw [hsend]; decide), if_pos hgone]
    rfl

/-! ### Pops -/

/-- A pop takes words from a receive end and returns their credits. -/
def State.took (s : State) (q : BitVec 4) (c : Chan) (k : Nat) : State := s.charge.takeWords q.toNat k c

/-- The task in focus with words taken from one of its ends. -/
def State.tookWords (s : State) (q : BitVec 4) (c : Chan) (k : Nat) : State :=
  s.charge.updTask s.charge.myTid fun t => t.setChan q.toNat (some { c with words := c.words.drop k, since := s.now })

/-- The credits on their way back. -/
def creditsBack (s : State) (c : Chan) (k : Nat) : Pending :=
  ⟨s.now + hopTile (s.cur.u.tid.toNat / 2 ^ 46 % 2 ^ 9) (c.peer.toNat / 2 ^ 46 % 2 ^ 9), .creditReturn c.peer c.peerq s.cur.u.tid k⟩

theorem took_eq (c : Chan) (k : Nat) : ∃ l, s.took q c k = { s.tookWords q c k with
    net := { (s.tookWords q c k).net with pend := s.net.pend ++ creditsBack s c k :: l } } := by
  have hnow : s.charge.now = s.now := congrArg (fun p : Pkg => p.cycle.toNat) s.charge_pkg
  have hpend : (s.tookWords q c k).net.pend = s.net.pend := congrArg Net.pend s.charge_net
  have hsent : (s.tookWords q c k).after (hopTile (creator s.charge.myTid) (creator c.peer)) (.creditReturn c.peer c.peerq s.charge.myTid k) =
      { s.tookWords q c k with net := { (s.tookWords q c k).net with pend := s.net.pend ++ [creditsBack s c k] } } := by
    unfold State.after creditsBack
    rw [hpend, s.charge_myTid, creator_eq, creator_eq]
    rw [show (s.tookWords q c k).now = s.now from hnow]
  have htaken : s.took q c k = if (c.words.drop k).isEmpty then
      ((s.tookWords q c k).after (hopTile (creator s.charge.myTid) (creator c.peer)) (.creditReturn c.peer c.peerq s.charge.myTid k)).startDry
        s.charge.myTid q.toNat { c with words := c.words.drop k, since := s.now }
      else (s.tookWords q c k).after (hopTile (creator s.charge.myTid) (creator c.peer)) (.creditReturn c.peer c.peerq s.charge.myTid k) := by
    unfold State.took State.takeWords State.tookWords
    dsimp only
    rw [hnow]
    rfl
  rw [htaken, hsent]
  split
  · unfold State.startDry
    split
    · exact ⟨[], rfl⟩
    · exact ⟨_, by simp only [State.after, List.append_assoc, List.singleton_append]; rfl⟩
  · exact ⟨[], rfl⟩

theorem took_cur (c : Chan) (k : Nat) : (s.took q c k).cur = s.charge.cur := by
  obtain ⟨l, h⟩ := took_eq (s := s) (q := q) c k
  rw [h]
  rfl

theorem took_task (c : Chan) (k : Nat) : (s.took q c k).task s.cur.u.tid = s.withChan q (some { c with words := c.words.drop k, since := s.now }) := by
  obtain ⟨l, h⟩ := took_eq (s := s) (q := q) c k
  rw [h]
  exact task_pop s fun t => t.setChan q.toNat (some { c with words := c.words.drop k, since := s.now })

theorem took_pend (c : Chan) (k : Nat) : creditsBack s c k ∈ (s.took q c k).net.pend := by
  obtain ⟨l, h⟩ := took_eq (s := s) (q := q) c k
  rw [h]
  exact List.mem_append_right _ (List.mem_cons_self ..)

theorem took_confined (c : Chan) (k : Nat) : Confined s (s.took q c k) := by
  obtain ⟨l, h⟩ := took_eq (s := s) (q := q) c k
  have hw : Confined s (s.tookWords q c k) := confined_pop s _
  rw [h]
  exact ⟨by rw [hw.rest], hw.counters, hw.cores, hw.tasks, List.prefix_append ..⟩

/-- What the statement says a pop takes. -/
def Takes (s : State) (q : BitVec 4) (c : Chan) (k : Nat) (t : State) : Prop :=
  t.task s.cur.u.tid = s.withChan q (some { c with words := c.words.drop k, since := s.now }) ∧ creditsBack s c k ∈ t.net.pend

/-- A pop at a channel end. -/
theorem exec_qpop_chan (hq : 8 ≤ q.toNat) : ∃ body, exec (.qpop g q la) s = issue (.qpop g q la) s body ∧
    body s.charge = match s.chan q with
      | none => queueTrap (.qpop g q la) 3
      | some c => if c.send then queueTrap (.qpop g q la) 3
        else match c.words with
          | [] => s.charge.blockPop q.toNat
          | w :: _ => longResult (.qpop g q la) (s.took q c 1) s.charge.popTime false fun x => x.writeG g w := by
  refine ⟨_, exec_qpop g q la s, ?_⟩
  rw [if_neg (by omega), if_neg (by omega), if_neg (by omega), charge_chan]
  rfl

theorem exec_qpopv_chan (hq : 8 ≤ q.toNat) : ∃ body, exec (.qpopv v q la) s = issue (.qpopv v q la) s body ∧
    body s.charge = match s.chan q with
      | none => queueTrap (.qpopv v q la) 3
      | some c => if c.send then queueTrap (.qpopv v q la) 3
        else if c.depth + 1 < 16 then queueTrap (.qpopv v q la) 7
        else if c.words.length < 16 then s.charge.blockPop q.toNat
        else longResult (.qpopv v q la) (s.took q c 16) s.charge.popTime false fun x => x.writeV v (vecOf fun k => lo32 (c.words.getD k 0)) := by
  refine ⟨_, exec_qpopv v q la s, ?_⟩
  rw [if_neg (by omega), if_neg (by omega), charge_chan]
  rfl

/-- A pop of one word. -/
theorem qpop_takes (hq : 8 ≤ q.toNat) {c : Chan} {w : W64} {ws : List W64} (hc : s.chan q = some c) (hsend : c.send = false) (hw : c.words = w :: ws) :
    Completes (.qpop g q la) s fun t => ∃ o, Confined s t ∧ Opened s.cur t.cur o ∧ SetsG s.cur t.cur g w ∧ o.dests = [.g g] ∧
      o.due = some (s.now + popWay s) ∧ Takes s q c 1 t := by
  intro h
  obtain ⟨body, he, hb⟩ := exec_qpop_chan (s := s) (g := g) (la := la) hq
  rw [hc] at hb
  dsimp only at hb
  rw [if_neg (Bool.eq_false_iff.1 hsend), hw, popTime_eq] at hb
  obtain ⟨t, ht, o, hconf, hop, hregs, _, _, hd, hdue, htask, hpend⟩ := long_of_result (Slot.writeG_fl g w) he hb (took_confined c 1) (took_cur c 1) h
  exact ⟨t, ht, o, hconf, hop, setsG_of_regs hop hregs, hd, hdue, htask.trans (took_task c 1), hpend ▸ took_pend c 1⟩

/-- Every lane of a vector register is written. -/
theorem setsLanes_writeV (x : Slot) (d : RegNo) (f : Nat → W32) : SetsLanes x (x.writeV d (vecOf f)) d 0xFFFF f := by
  refine ⟨fun r k hk => ?_, rfl, rfl, rfl⟩
  have hact : (0xFFFF : Pred).getLsbD k = true := by
    revert k
    decide
  rw [Slot.readV_writeV]
  by_cases hr : r = d
  · rw [if_pos hr, if_pos ⟨hr, hact⟩, lane_vecOf f k hk]
  · rw [if_neg hr, if_neg fun h => hr h.1]

/-- A pop of a vector. -/
theorem qpopv_takes (hq : 8 ≤ q.toNat) {c : Chan} (hc : s.chan q = some c) (hsend : c.send = false) (hdepth : 15 ≤ c.depth) (hw : 16 ≤ c.words.length) :
    Completes (.qpopv v q la) s fun t => ∃ o, Confined s t ∧ Opened s.cur t.cur o ∧
      SetsLanes s.cur t.cur v 0xFFFF (fun k => (c.words.getD k 0).setWidth 32) ∧ o.dests = [.v v] ∧ o.due = some (s.now + popWay s) ∧ Takes s q c 16 t := by
  intro h
  obtain ⟨body, he, hb⟩ := exec_qpopv_chan (s := s) (v := v) (la := la) hq
  rw [hc] at hb
  dsimp only at hb
  rw [if_neg (Bool.eq_false_iff.1 hsend), if_neg (by omega), if_neg (by omega), popTime_eq] at hb
  simp only [lo32_eq] at hb
  obtain ⟨t, ht, o, hconf, hop, hregs, _, _, hd, hdue, htask, hpend⟩ := long_of_result (fun _ => by rfl) he hb (took_confined c 16) (took_cur c 16) h
  refine ⟨t, ht, o, hconf, hop, ?_, hd, hdue, htask.trans (took_task c 16), hpend ▸ took_pend c 16⟩
  exact ((setsLanes_writeV s.charge.cur v _).of_regs hregs).from_regs (by simp)

/-- A receive end without a word: the pop is Blocked; a pop of a vector wants a depth of 16; and a push is misuse. -/
theorem receive_waits (hq : 8 ≤ q.toNat) {c : Chan} (hc : s.chan q = some c) (hsend : c.send = false) :
    (c.words = [] → Completes (.qpop g q la) s fun t => OnlySlot s t ∧ BlockedIn (.qpop g q la) s.cur t.cur (.queue q.toNat)) ∧
    (15 ≤ c.depth → c.words.length < 16 → Completes (.qpopv v q la) s fun t => OnlySlot s t ∧ BlockedIn (.qpopv v q la) s.cur t.cur (.queue q.toNat)) ∧
    (c.depth < 15 → Traps (.qpopv v q la) s 0x14 7 ((encode (.qpopv v q la)).setWidth 64)) := by
  obtain ⟨body, he, hb⟩ := exec_qpop_chan (s := s) (g := g) (la := la) hq
  obtain ⟨bodyv, hev, hbv⟩ := exec_qpopv_chan (s := s) (v := v) (la := la) hq
  rw [hc] at hb hbv
  dsimp only at hb hbv
  rw [if_neg (Bool.eq_false_iff.1 hsend)] at hb hbv
  refine ⟨fun hw => ?_, fun hd hw => ?_, fun hd => ?_⟩
  · rw [hw] at hb
    exact blocks_of_hold he hb
  · rw [if_neg (by omega), if_pos hw] at hbv
    exact blocks_of_hold hev hbv
  · rw [if_pos (by omega)] at hbv
    exact traps_of_trap hev hbv

theorem qpop_unbound (hq : 8 ≤ q.toNat) (hc : s.chan q = none) : Traps (.qpop g q la) s 0x14 3 ((encode (.qpop g q la)).setWidth 64) := by
  obtain ⟨body, he, hb⟩ := exec_qpop_chan (s := s) (g := g) (la := la) hq
  rw [hc] at hb
  exact traps_of_trap he hb

/-! ### QBIND and QSTAT -/

theorem niTime_eq (s : State) : s.charge.niTime = 2 * hopTile s.myTile (s.cur.u.tid.toNat / 2 ^ 46 % 2 ^ 9) := by
  rw [State.niTime, s.charge_myTile, s.charge_myTid, creator_eq]

/-- The answer that will let the instruction go on is what is put in flight. -/
theorem answerIn_pend {u : State} (hu : Confined s u) (hcur : u.cur = s.charge.cur) (delay : Nat) (w : W64) :
    (u.answerIn delay w).net.pend = u.net.pend ++ [⟨s.now + delay, .controlReply s.curId s.cur.mc.ctxser w⟩] := by
  unfold State.answerIn State.after
  rw [hu.curId, hcur, State.charge_mc, show u.now = s.now from congrArg (fun p : Pkg => p.cycle.toNat) hu.pkg]

/-- QBIND takes an end away. -/
theorem qbind_releases (hq : 8 ≤ q.toNat) (h9 : (s.cur.readG (g + 1)).getLsbD 9 = true) : Completes (.qbind g q) s fun t => Confined s t ∧
    Waiting (.qbind g q) s.cur t.cur (.answer 0) ∧ t.task s.cur.u.tid = s.withChan q none ∧
    Posts s t (2 * hopTile s.myTile (s.cur.u.tid.toNat / 2 ^ 46 % 2 ^ 9)) (.controlReply s.curId s.cur.mc.ctxser 0) := by
  intro h
  obtain ⟨t, ht, ho, hw⟩ := waiting_of_hold (i := .qbind g q) (u := (s.charge.updTask s.charge.myTid fun t => t.setChan q.toNat none).answerIn s.charge.niTime 0)
    (k := 0) (exec_qbind g q s) h
    (by rw [if_neg (by omega), if_neg (by omega), if_pos (by rw [s.charge_readG]; exact h9)]) rfl
  refine ⟨t, ht, ((confined_pop s _).after ..).onlySlot ho, hw, ?_, ?_⟩
  · rw [ho.task]
    exact task_pop s fun t => t.setChan q.toNat none
  · rw [Posts, ho.net, ← niTime_eq]
    rw [answerIn_pend (confined_pop s _) rfl]
    exact congrArg (fun n : Net => n.pend ++ _) s.charge_net

/-- A bit of a word as a digit of its number. -/
theorem getLsbD_eq_digit (w : W64) (k : Nat) : w.getLsbD k = decide (w.toNat / 2 ^ k % 2 = 1) := Nat.testBit_eq_decide_div_mod_eq

theorem extract_toNat (w : W64) (k n : Nat) : (w.extractLsb' k n).toNat = w.toNat / 2 ^ k % 2 ^ n := by
  rw [BitVec.extractLsb'_toNat, Nat.shiftRight_eq_div_pow]

/-- The word that QBIND takes from g[G+1] (R355). -/
structure BindWord (w : W64) (pq depth : Nat) (send dryev : Bool) (dry : Nat) : Prop where
  release : w.getLsbD 9 = false
  pq : (w.extractLsb' 0 4).toNat = pq
  gap : w.extractLsb' 11 5 = 0
  high : w.extractLsb' 32 32 = 0
  send : w.getLsbD 8 = send
  depth : (w.extractLsb' 4 4).toNat = depth
  dryev : w.getLsbD 10 = dryev
  dry : (w.extractLsb' 16 16).toNat = dry

/-- A bit that is added where a condition holds. -/
theorem ite_bit (b : Bool) (n : Nat) : (if b then n else 0) = b.toNat * n := by cases b <;> simp

theorem bindWord_of_toNat {w : W64} {pq depth dry : Nat} {send dryev : Bool} (hpq : pq < 16) (hd : depth < 16) (hdry : dry < 2 ^ 16)
    (h : w.toNat = pq + depth * 2 ^ 4 + (if send then 2 ^ 8 else 0) + (if dryev then 2 ^ 10 else 0) + dry * 2 ^ 16) :
    BindWord w pq depth send dryev dry := by
  have hs : send.toNat ≤ 1 := Bool.toNat_le send
  have he : dryev.toNat ≤ 1 := Bool.toNat_le dryev
  have hbit (b : Bool) (n : Nat) (hn : n = b.toNat) : decide (n = 1) = b := by cases b <;> simp [hn]
  rw [ite_bit, ite_bit] at h
  constructor
  case release => rw [getLsbD_eq_digit]; exact decide_eq_false (by omega)
  case send => rw [getLsbD_eq_digit]; exact hbit _ _ (by omega)
  case dryev => rw [getLsbD_eq_digit]; exact hbit _ _ (by omega)
  case gap => exact BitVec.eq_of_toNat_eq (by rw [extract_toNat]; show _ = 0; omega)
  case high => exact BitVec.eq_of_toNat_eq (by rw [extract_toNat]; show _ = 0; omega)
  all_goals
    rw [extract_toNat]
    omega

/-- The clock of a dry end is put in flight, and nothing else. -/
theorem startDry_confined {u : State} (h : Confined s u) (tid : W64) (n : Nat) (c : Chan) :
    Confined s (u.startDry tid n c) ∧ (u.startDry tid n c).cur = u.cur ∧ (u.startDry tid n c).tasks = u.tasks := by
  unfold State.startDry
  split
  · exact ⟨h, rfl, rfl⟩
  · exact ⟨h.after .., rfl, rfl⟩

/-- The end that QBIND binds, with the credits that were kept for it. -/
def boundEnd (w peer : W64) (kept now : Nat) : Chan where
  send := w.getLsbD 8
  peer := peer
  peerq := (w.extractLsb' 0 4).toNat
  depth := (w.extractLsb' 4 4).toNat
  dryev := w.getLsbD 10
  dry := (w.extractLsb' 16 16).toNat
  words := []
  credits := if w.getLsbD 8 then kept else 0
  since := now
  dryf := false
  gone := false

/-- The credits that were kept for an end until it is bound. -/
def Task.kept (t : Task) (n : Nat) (peer : W64) : Nat := ((t.stash.filter fun e => e.1 == n && e.2.1 == peer).map (·.2.2)).sum

/-- The task in focus with an end bound. -/
def State.bindEnd (s : State) (n : Nat) (ch : Chan) : State := s.updTask s.myTid fun t =>
  { t.setChan n (some ch) with stash := if ch.send then t.stash.filter fun e => !(e.1 == n && e.2.1 == ch.peer) else t.stash }

/-- A receive end gives its sender credits, and its clock runs. -/
def State.openEnd (s : State) (n : Nat) (ch : Chan) : State :=
  if ch.send then s
  else (s.after (hopTile (creator s.myTid) (creator ch.peer)) (.creditReturn ch.peer ch.peerq s.myTid (ch.depth + 1))).startDry s.myTid n ch

theorem openEnd_confined {u : State} (h : Confined s u) (n : Nat) (ch : Chan) :
    Confined s (u.openEnd n ch) ∧ (u.openEnd n ch).cur = u.cur ∧ (u.openEnd n ch).tasks = u.tasks := by
  unfold State.openEnd
  split
  · exact ⟨h, rfl, rfl⟩
  · exact startDry_confined (h.after ..) ..

/-- What QBIND does once its operands are good. -/
theorem exec_qbind_good (hq : 8 ≤ q.toNat) {w peer : W64} (hw : s.cur.readG (g + 1) = w) (hpeer : s.cur.readG g = peer) (h9 : w.getLsbD 9 = false)
    (hpq : ¬((w.extractLsb' 0 4).toNat < 8 ∨ w.extractLsb' 11 5 ≠ 0 ∨ w.extractLsb' 32 32 ≠ 0))
    (hend : ¬((s.task peer).place = .ended ∨ (s.task peer).asid ≠ s.cur.sc.asid)) :
    ∃ body v kept now, exec (.qbind g q) s = issue (.qbind g q) s body ∧ body s.charge = .hold (v.answerIn s.charge.niTime 0) (.answer 0) ∧
      Confined s v ∧ v.cur = s.charge.cur ∧ (v.task s.cur.u.tid).chans.getD (q.toNat - 8) none = some (boundEnd w peer kept now) := by
  obtain ⟨body, he, hb⟩ : ∃ body, exec (.qbind g q) s = issue (.qbind g q) s body ∧ body s.charge = _ := ⟨_, exec_qbind g q s, rfl⟩
  rw [if_neg (by omega), if_neg (by omega), s.charge_readG, hw, if_neg (Bool.eq_false_iff.1 h9), if_neg hpq,
    if_neg (by rw [s.charge_readG, hpeer, s.charge_task, s.charge_sc]; exact hend), s.charge_readG, hpeer] at hb
  generalize hch : boundEnd w peer ((s.charge.task s.charge.myTid).kept q.toNat peer) s.charge.now = ch
  have hb' : body s.charge = .hold (((s.charge.bindEnd q.toNat ch).openEnd q.toNat ch).answerIn ((s.charge.bindEnd q.toNat ch).openEnd q.toNat ch).niTime 0)
      (.answer 0) := by
    rw [← hch]
    exact hb
  have hbind : Confined s (s.charge.bindEnd q.toNat ch) := confined_pop s _
  obtain ⟨hv, hcur, htasks⟩ := openEnd_confined hbind q.toNat ch
  have hni : ((s.charge.bindEnd q.toNat ch).openEnd q.toNat ch).niTime = s.charge.niTime := by
    rw [State.niTime, hv.myTile, State.myTid, hcur, State.niTime, s.charge_myTile]
    rfl
  refine ⟨body, _, (s.charge.task s.charge.myTid).kept q.toNat peer, s.charge.now, he, hb'.trans (by rw [hni]), hv, hcur, ?_⟩
  rw [hch, State.task, htasks]
  refine (congrArg (fun t : Task => t.chans.getD (q.toNat - 8) none) (task_pop s _)).trans ?_
  exact (vget_set _ _ _ _ _ (by omega)).trans (if_pos rfl)

/-- QBIND binds an end. -/
theorem qbind_binds (hq : 8 ≤ q.toNat) {pq depth dry : Nat} {send dryev : Bool} (hpq : 8 ≤ pq) (hw : BindWord (s.cur.readG (g + 1)) pq depth send dryev dry)
    (hplace : (s.task (s.cur.readG g)).place ≠ .ended) (hasid : (s.task (s.cur.readG g)).asid = s.cur.sc.asid) :
    Completes (.qbind g q) s fun t => Confined s t ∧ Waiting (.qbind g q) s.cur t.cur (.answer 0) ∧
      (∃ p ∈ t.net.pend, p = ⟨s.now + 2 * hopTile s.myTile (s.cur.u.tid.toNat / 2 ^ 46 % 2 ^ 9), .controlReply s.curId s.cur.mc.ctxser 0⟩) ∧
      ∃ c, (t.task s.cur.u.tid).chans.getD (q.toNat - 8) none = some c ∧ c.send = send ∧ c.peer = s.cur.readG g ∧ c.peerq = pq ∧ c.depth = depth ∧
        c.dryev = dryev ∧ c.dry = dry ∧ c.words = [] ∧ c.dryf = false ∧ c.gone = false ∧ (send = false → c.credits = 0) := by
  intro h
  obtain ⟨hrel, hpqw, hgap, hhigh, hsend, hdepth, hdryev, hdry⟩ := hw
  obtain ⟨body, v, kept, now, he, hb, hv, hcur, hchan⟩ := exec_qbind_good hq rfl rfl hrel
    (by rw [hpqw, hgap, hhigh]; simp; omega) (not_or.2 ⟨hplace, not_not.2 hasid⟩)
  obtain ⟨t, ht, ho, hwait⟩ := waiting_of_hold he h hb hcur
  refine ⟨t, ht, (hv.after ..).onlySlot ho, hwait, ⟨_, ?_, rfl⟩, _, (congrArg (fun t : Task => t.chans.getD (q.toNat - 8) none) (ho.task _)).trans hchan,
    hsend, rfl, hpqw, hdepth, hdryev, hdry, rfl, rfl, rfl, fun hs => ?_⟩
  · rw [ho.net, answerIn_pend hv hcur, niTime_eq]
    exact List.mem_append_right _ (List.mem_singleton_self _)
  · exact if_neg (by rw [hsend, hs]; decide)

/-- What QSTAT reads of an end (Table 8.4). -/
def endStatus : Option Chan → W64
  | none => 0
  | some c => BitVec.ofNat 64 ((if c.send then Nat.min c.credits 31 else c.words.length) + 2 ^ 10 +
      (if c.send then 2 ^ 11 else 0) + (if c.dryf then 2 ^ 12 else 0) + (if c.gone then 2 ^ 13 else 0))

theorem queueStatus_chan (hq : 8 ≤ q.toNat) : s.charge.queueStatus q.toNat = endStatus (s.chan q) := by
  unfold State.queueStatus
  dsimp only
  rw [if_neg (by omega), if_neg (by omega), if_neg (by omega), if_neg (by omega), charge_chan]
  rfl

theorem qstat_here (hq : 8 ≤ q.toNat) (hh : s.cur.u.tid.toNat / 2 ^ 46 % 2 ^ 9 = s.myTile) : Gives (.qstat g q) s g (endStatus (s.chan q)) := by
  refine gives_of_next (exec_qstat g q s) ?_
  rw [if_neg (by omega), if_pos (by rw [s.charge_myTid, s.charge_myTile, creator_eq]; exact hh), queueStatus_chan hq]
  rfl

theorem qstat_away (hq : 8 ≤ q.toNat) (hh : s.cur.u.tid.toNat / 2 ^ 46 % 2 ^ 9 ≠ s.myTile) : Completes (.qstat g q) s fun t => Confined s t ∧
    Waiting (.qstat g q) s.cur t.cur (.answer 0) ∧
    ∃ r, Posts s t (2 * hopTile s.myTile (s.cur.u.tid.toNat / 2 ^ 46 % 2 ^ 9)) (.controlReply s.curId s.cur.mc.ctxser r) := by
  intro h
  obtain ⟨t, ht, ho, hw⟩ := waiting_of_hold (i := .qstat g q) (u := s.charge.answerIn s.charge.niTime (s.charge.queueStatus q.toNat)) (k := 0)
    (exec_qstat g q s) h
    (by rw [if_neg (by omega), if_neg (by rw [s.charge_myTid, s.charge_myTile, creator_eq]; exact hh)]) rfl
  refine ⟨t, ht, ((Confined.charge s).after ..).onlySlot ho, hw, s.charge.queueStatus q.toNat, ?_⟩
  rw [Posts, ho.net, answerIn_pend (Confined.charge s) rfl, s.charge_net, niTime_eq]

end

/-- Settles O29: an end is found by its register, and each instruction acts on it as its direction and state let it. -/
theorem channels : Obligations.Channels := by
  intro s g v q la hq
  refine ⟨fun c hc hs hg hcr => ?_, fun c hc hs hg hcr hk => ?_, fun c w ws hc hs hw => qpop_takes hq hc hs hw,
    fun c hc hs hd hw => qpopv_takes hq hc hs hd hw, fun c hc hs => ?_, fun hc => ?_, fun c hc hs hg => ?_, qbind_releases hq,
    fun pq depth send dryev dry h8 h16 hd hdry hw => qbind_binds hq h8 (bindWord_of_toNat h16 hd hdry hw),
    fun hh => ⟨fun hc => ?_, fun c hc => ?_⟩, qstat_away hq⟩
  · exact pushChan_passes (ws := [s.cur.readG g]) hq (exec_qpush g q s) (by rw [s.charge_readG]) hc hs hg hcr fun h => absurd h (by simp)
  · exact pushChan_passes (ws := (List.range 16).map fun k => (lane (s.cur.readV v) k).setWidth 64) hq (exec_qpushv v q s) (by rw [s.charge_readV]) hc hs hg
      (by simpa using hcr) fun _ => hk
  · obtain ⟨h1, h2, h3⟩ := receive_waits hq hc hs
    exact ⟨h1, h2, h3, pushChan_traps hq (exec_qpush g q s) rfl (.inl ⟨rfl, .inr ⟨c, hc, hs⟩⟩)⟩
  · exact ⟨pushChan_traps hq (exec_qpush g q s) rfl (.inl ⟨rfl, .inl hc⟩), qpop_unbound hq hc⟩
  · exact pushChan_traps hq (exec_qpush g q s) rfl (.inr ⟨rfl, c, hc, hs, hg⟩)
  · have h := qstat_here (g := g) hq hh
    rwa [show s.chan q = none from hc] at h
  · have h := qstat_here (g := g) hq hh
    rwa [show s.chan q = some c from hc] at h

end Sys2Proof.Machine
end


section
/-! PROOF. The CSR instructions (R369, Tables 3.2 to 3.5): what a CSR reads by the group of registers it stands in, and what a write leaves. -/

namespace Sys2Proof.Machine

/-! ### Reading by group -/

/-- What a user CSR reads; `none` for the other numbers. -/
def UCsr.read (u : UCsr) (n : Nat) : Option W64 :=
  match n with
  | 0x001 => some (u.fflags.setWidth 64)
  | 0x002 => some (u.frm.setWidth 64)
  | 0x003 => some (u.txcause.setWidth 64)
  | 0x010 => some (u.msa.setWidth 64)
  | 0x011 => some (u.msb.setWidth 64)
  | 0x012 => some (u.msc.setWidth 64)
  | 0x020 => some u.wid
  | 0x021 => some (u.widf.setWidth 64)
  | 0x022 => some u.tid
  | 0x023 => some (u.ikey.setWidth 64)
  | 0x024 => some (u.iarg.setWidth 64)
  | 0x026 => some (u.launch.setWidth 64)
  | 0x027 => some u.seed
  | 0x028 => some u.ctrb
  | 0x029 => some (u.codeb.setWidth 64)
  | 0x02A => some (u.codel.setWidth 64)
  | 0x031 => some u.retired
  | 0x032 => some u.turns
  | 0x040 => some (u.uevec.setWidth 64)
  | 0x041 => some (u.uepc.setWidth 64)
  | 0x042 => some u.uecause
  | 0x043 => some (BitVec.ofNat 64 (u.uemask.toNat + if u.active then 256 else 0))
  | 0x0B0 => some u.dmap
  | _ => if 0xC0 ≤ n ∧ n ≤ 0xCF then some ((u.dacc.getD (n - 0xC0) 0).setWidth 64) else none

/-- What a supervisor CSR reads. -/
def SCsr.read (c : SCsr) (n : Nat) : Option W64 :=
  match n with
  | 0x100 => some (BitVec.ofNat 64 (c.spp.toNat + (if c.intrap then 2 else 0) + (if c.piste then 4 else 0)))
  | 0x101 => some (c.stvec.setWidth 64)
  | 0x102 => some (c.sepc.setWidth 64)
  | 0x103 => some (c.scause.setWidth 64)
  | 0x104 => some c.sxaddr
  | 0x105 => some c.sscratch
  | 0x106 => some (BitVec.ofNat 64 (c.asid.toNat + c.tenant.toNat * 2 ^ 16))
  | 0x120 => some (c.wsmax.setWidth 64)
  | 0x121 => some (c.rsmax.setWidth 64)
  | _ => none

/-- What a machine CSR of the slot reads. -/
def MCsr.read (c : MCsr) (n : Nat) : Option W64 :=
  match n with
  | 0x200 => some (BitVec.ofNat 64 (c.mpp.toNat + if c.intrap then 4 else 0))
  | 0x201 => some (c.mtvec.setWidth 64)
  | 0x202 => some (c.mepc.setWidth 64)
  | 0x203 => some (c.mcause.setWidth 64)
  | 0x204 => some c.mxaddr
  | 0x205 => some c.mscratch
  | 0x206 => some (c.mdeleg.setWidth 64)
  | 0x207 => some (c.ctxser.setWidth 64)
  | 0x208 => some (c.mscodeb.setWidth 64)
  | 0x209 => some (c.mscodel.setWidth 64)
  | _ => none

/-- What the other CSRs read: those of the state of the slot, of its core, its tile and its package. -/
def State.outerRead (s : State) (depth n : Nat) : W64 :=
  match n with
  | 0x004 => BitVec.ofNat 64 depth
  | 0x025 => (s.slotIdent s.curId).setWidth 64
  | 0x030 => s.pkg.cycle
  | 0x210 => if (s.core (coreOf s.curId)).pol then 1 else 0
  | 0x220 => s.ownWrite n ((s.tile s.myTile).mweight.setWidth 64)
  | 0x221 => s.ownWrite n ((s.tile s.myTile).feretry.setWidth 64)
  | 0x230 => s.ownWrite n (s.pkg.chunklen.setWidth 64)
  | 0x231 => s.ownWrite n (s.pkg.colltmo.setWidth 64)
  | 0x232 => s.ownWrite n (s.pkg.wlwdog.setWidth 64)
  | _ => 0

/-- A CSR reads what its group says. -/
theorem csrRead_groups (s : State) (n : Nat) : s.csrRead n =
    (((s.cur.u.read n).or (s.cur.sc.read n)).or (s.cur.mc.read n)).getD (s.outerRead s.cur.spec.depth n) := by
  unfold State.csrRead
  dsimp only
  split
  case h_52 =>
    simp only [UCsr.read, SCsr.read, MCsr.read, State.outerRead]
    split <;> rfl
  all_goals rfl

/-! ### Writing by group -/

/-- What a write leaves of the user CSRs; `clear` are the bits that clear pending events. -/
def UCsr.write (u : UCsr) (now n : Nat) (v clear : W64) : UCsr :=
  match n with
  | 0x001 => { u with fflags := v.extractLsb' 0 5 }
  | 0x002 => { u with frm := v.extractLsb' 0 2 }
  | 0x003 => { u with txcause := v.extractLsb' 0 15 }
  | 0x010 => { u with msa := v.extractLsb' 0 32 }
  | 0x011 => { u with msb := v.extractLsb' 0 32 }
  | 0x012 => { u with msc := v.extractLsb' 0 32 }
  | 0x040 => { u with uevec := csrAddr v }
  | 0x041 => { u with uepc := csrAddr v }
  | 0x042 => { u with uepend := u.uepend &&& ~~~(clear.extractLsb' 1 3) }
  | 0x043 => { u with uemask := v.extractLsb' 0 4 }
  | 0x0B0 => { u with dmap := v }
  | _ =>
    if 0xC0 ≤ n ∧ n ≤ 0xCF then
      { u with
        dacc := u.dacc.setIfInBounds (n - 0xC0) (v.extractLsb' 0 32)
        daccAt := (now, if u.daccAt.1 = now then u.daccAt.2 ||| BitVec.ofNat 16 (2 ^ (n - 0xC0)) else BitVec.ofNat 16 (2 ^ (n - 0xC0))) }
    else u

/-- What a write leaves of the supervisor CSRs. -/
def SCsr.write (c : SCsr) (n : Nat) (v : W64) : SCsr :=
  match n with
  | 0x100 => { c with spp := v.extractLsb' 0 1, intrap := v.getLsbD 1 }
  | 0x101 => { c with stvec := csrAddr v }
  | 0x102 => { c with sepc := csrAddr v }
  | 0x103 => { c with scause := v.extractLsb' 0 39 }
  | 0x104 => { c with sxaddr := v }
  | 0x105 => { c with sscratch := v }
  | 0x106 => { c with asid := v.extractLsb' 0 14 }
  | 0x120 => { c with wsmax := v.extractLsb' 0 9 }
  | 0x121 => { c with rsmax := v.extractLsb' 0 13 }
  | _ => c

/-- What a write leaves of the machine CSRs of the slot. -/
def MCsr.write (c : MCsr) (n : Nat) (v : W64) : MCsr :=
  match n with
  | 0x200 => { c with mpp := if v.extractLsb' 0 2 = 3 then c.mpp else v.extractLsb' 0 2, intrap := v.getLsbD 2 }
  | 0x201 => { c with mtvec := csrAddr v }
  | 0x202 => { c with mepc := csrAddr v }
  | 0x203 => { c with mcause := v.extractLsb' 0 39 }
  | 0x204 => { c with mxaddr := v }
  | 0x205 => { c with mscratch := v }
  | 0x206 => { c with mdeleg := v.extractLsb' 0 32 }
  | 0x208 => { c with mscodeb := csrAddr v }
  | 0x209 => { c with mscodel := csrAddr v }
  | _ => c

/-- A write of a CSR outside the slot: the policy of the core is set; one of tile or package scope is noted until the cycle ends. -/
def State.outerWrite (s : State) (n : Nat) (v : W64) : State :=
  match n with
  | 0x210 => s.updCore (coreOf s.curId) fun c => { c with pol := v.getLsbD 0 }
  | 0x220 | 0x221 | 0x230 | 0x231 | 0x232 => s.updNet fun net => { net with csrs := net.csrs ++ [(s.curId, n, v)] }
  | _ => s

/-- The state after a write, with the bits that it clears. -/
def State.csrWritten (s : State) (n : Nat) (v clear : W64) : State := csrOp.clearIf (s.csrWrite n v) n clear

/-- A write goes to the group of its CSR. -/
theorem csrWritten_groups (s : State) (n : Nat) (v clear : W64) : s.csrWritten n v clear = { s.outerWrite n v with
    cur := { s.cur with u := s.cur.u.write s.now n v clear, sc := s.cur.sc.write n v, mc := s.cur.mc.write n v } } := by
  unfold State.csrWritten csrOp.clearIf
  by_cases h : n = 0x042
  · subst h
    rfl
  · rw [if_neg h]
    unfold State.csrWrite
    split
    case h_35 =>
      simp only [UCsr.write, SCsr.write, MCsr.write, State.outerWrite]
      split <;> rfl
    all_goals rfl

/-! ### What a write leaves of the other CSRs -/

theorem dacc_other (d : Vector W32 16) (a : W32) {n m : Nat} (h : m ≠ n) (hn : 0xC0 ≤ n ∧ n ≤ 0xCF) (hm : 0xC0 ≤ m ∧ m ≤ 0xCF) :
    (d.setIfInBounds (n - 0xC0) a).getD (m - 0xC0) 0 = d.getD (m - 0xC0) 0 := by
  rw [vget_set _ _ _ _ _ (by omega), if_neg (by omega)]

theorem dacc_same (d : Vector W32 16) (a : W32) {n : Nat} (hn : 0xC0 ≤ n ∧ n ≤ 0xCF) : (d.setIfInBounds (n - 0xC0) a).getD (n - 0xC0) 0 = a := by
  rw [vget_set _ _ _ _ _ (by omega), if_pos rfl]

theorem UCsr.read_write_other (u : UCsr) (now n m : Nat) (v clear : W64) (h : m ≠ n) : (u.write now n v clear).read m = u.read m := by
  unfold UCsr.write
  split
  case h_12 =>
    split
    · rename_i hn
      unfold UCsr.read
      split
      case h_24 =>
        by_cases hm : 0xC0 ≤ m ∧ m ≤ 0xCF
        · rw [if_pos hm, if_pos hm]
          dsimp only
          rw [dacc_other _ _ h hn hm]
        · rw [if_neg hm, if_neg hm]
      all_goals rfl
    · rfl
  all_goals
    unfold UCsr.read
    split <;> first | rfl | exact absurd rfl h

theorem SCsr.read_write_other (c : SCsr) (n m : Nat) (v : W64) (h : m ≠ n) : (c.write n v).read m = c.read m := by
  unfold SCsr.write
  split
  case h_10 => rfl
  all_goals
    unfold SCsr.read
    split <;> first | rfl | exact absurd rfl h

theorem MCsr.read_write_other (c : MCsr) (n m : Nat) (v : W64) (h : m ≠ n) : (c.write n v).read m = c.read m := by
  unfold MCsr.write
  split
  case h_10 => rfl
  all_goals
    unfold MCsr.read
    split <;> first | rfl | exact absurd rfl h

/-! ### What a written CSR reads -/

section
variable {n : Nat} {old v clear m k : W64}

/-- A CSR whose fields are all of one mask. -/
theorem csrAfter_field (h : csrMasks n = (m, 0)) (h42 : n ≠ 0x042) (h200 : n ≠ 0x200) : csrAfter n old v clear = v &&& m := by
  rw [csrAfter, if_neg h42, if_neg h200, h]
  simp

/-- A CSR with fields that only read. -/
theorem csrAfter_mixed (h : csrMasks n = (m, k)) (h42 : n ≠ 0x042) (h200 : n ≠ 0x200) : csrAfter n old v clear = v &&& m ||| old &&& k := by
  rw [csrAfter, if_neg h42, if_neg h200, h]

/-- A CSR that only reads. -/
theorem csrAfter_readOnly (h : csrMasks n = (0, 0xFFFFFFFFFFFFFFFF)) (h42 : n ≠ 0x042) (h200 : n ≠ 0x200) : csrAfter n old v clear = old := by
  rw [csrAfter, if_neg h42, if_neg h200, h]
  have hones : old &&& 0xFFFFFFFFFFFFFFFF = old := BitVec.and_allOnes
  rw [hones]
  simp

/-- A CSR that is one field of 64 bits. -/
theorem csrAfter_whole (h : csrMasks n = (0xFFFFFFFFFFFFFFFF, 0)) (h42 : n ≠ 0x042) (h200 : n ≠ 0x200) : csrAfter n old v clear = v := by
  rw [csrAfter_field h h42 h200]
  exact BitVec.and_allOnes

/-- The delay accumulators. -/
theorem dacc_masks (h : 0xC0 ≤ n ∧ n ≤ 0xCF) : csrMasks n = (0xFFFFFFFF, 0) ∧ n ≠ 0x042 ∧ n ≠ 0x200 := by
  obtain ⟨h0, h1⟩ := h
  refine ⟨?_, by omega, by omega⟩
  interval_cases n <;> rfl

/-- The low bits of a word. -/
theorem low_eq_mask (v : W64) {k : Nat} (hm : m.toNat = 2 ^ k - 1) : ((v.extractLsb' 0 k).setWidth 64 : W64) = v &&& m := by
  refine BitVec.eq_of_toNat_eq ?_
  have hk : v.toNat % 2 ^ k < 2 ^ 64 := (Nat.mod_le ..).trans_lt v.isLt
  rw [BitVec.toNat_and, hm, Nat.and_two_pow_sub_one_eq_mod, BitVec.toNat_setWidth, BitVec.extractLsb'_toNat, Nat.shiftRight_zero, Nat.mod_eq_of_lt hk]

/-- An instruction address in a word. -/
theorem csrAddr_eq_mask (v : W64) : ((csrAddr v).setWidth 64 : W64) = v &&& 0xFFFFFFFFFFFC := by
  refine BitVec.eq_of_getLsbD_eq fun i hi => ?_
  have hm : (0xFFFFFFFFFFFC : W64).getLsbD i = decide (2 ≤ i ∧ i < 48) := by
    revert i
    decide
  rw [BitVec.getLsbD_and, hm, csrAddr, BitVec.getLsbD_setWidth, BitVec.getLsbD_append]
  by_cases h2 : i < 2
  · simp [h2, hi]
  · have hi2 : 2 + (i - 2) = i := by omega
    have h46 : decide (i - 2 < 46) = decide (i < 48) := decide_eq_decide.2 (by omega)
    have hle : 2 ≤ i := by omega
    simp [h2, hi, hi2, h46, hle, Bool.and_comm]

/-- SSTATUS. -/
theorem sstatus_after (v : W64) (spp : BitVec 1) (i p : Bool) :
    BitVec.ofNat 64 ((v.extractLsb' 0 1).toNat + (if v.getLsbD 1 then 2 else 0) + (if p then 4 else 0)) =
      v &&& 0x3 ||| BitVec.ofNat 64 (spp.toNat + (if i then 2 else 0) + (if p then 4 else 0)) &&& 0x4 := by
  have hv : v &&& 0x3 = BitVec.ofNat 64 ((v.extractLsb' 0 1).toNat + if v.getLsbD 1 then 2 else 0) := by
    refine BitVec.eq_of_toNat_eq ?_
    rw [← low_eq_mask v (k := 2) rfl, BitVec.toNat_setWidth, extract_toNat, BitVec.toNat_ofNat, extract_toNat, getLsbD_eq_digit]
    simp only [decide_eq_true_eq]
    split <;> omega
  rw [hv]
  generalize v.extractLsb' 0 1 = x
  generalize v.getLsbD 1 = j
  revert x j spp i p
  decide

/-- MSTATUS: MPP never takes 3. -/
theorem mstatus_after (v : W64) (mpp : BitVec 2) (i : Bool) :
    BitVec.ofNat 64 ((if v.extractLsb' 0 2 = 3 then mpp else v.extractLsb' 0 2).toNat + if v.getLsbD 2 then 4 else 0) =
      (v &&& 0x4) ||| (if v &&& 0x3 = 0x3 then BitVec.ofNat 64 (mpp.toNat + if i then 4 else 0) &&& 0x3 else v &&& 0x3) := by
  have hlow : v &&& 0x3 = (v.extractLsb' 0 2).setWidth 64 := (low_eq_mask v rfl).symm
  have hbit : v &&& 0x4 = BitVec.ofNat 64 (if v.getLsbD 2 then 4 else 0) := by
    refine BitVec.eq_of_getLsbD_eq fun k hk => ?_
    have hm : (0x4 : W64).getLsbD k = decide (k = 2) := by
      revert k
      decide
    rw [BitVec.getLsbD_and, hm]
    by_cases h2 : k = 2
    · subst h2
      cases v.getLsbD 2 <;> rfl
    · cases v.getLsbD 2
      · simp [h2]
      · simp only [h2, decide_false, Bool.and_false, if_true]
        exact (hm.trans (decide_eq_false h2)).symm
  rw [hlow, hbit]
  generalize v.extractLsb' 0 2 = x
  generalize v.getLsbD 2 = j
  revert x j mpp i
  decide

/-- UEMASK. -/
theorem uemask_after (v : W64) (em : BitVec 4) (a : Bool) :
    BitVec.ofNat 64 ((v.extractLsb' 0 4).toNat + if a then 256 else 0) =
      v &&& 0xF ||| BitVec.ofNat 64 (em.toNat + if a then 256 else 0) &&& 0x100 := by
  rw [← low_eq_mask v (k := 4) rfl]
  generalize v.extractLsb' 0 4 = x
  revert x em a
  decide

end

/-- Two fields side by side. -/
theorem ofNat_fields {w h : Nat} (x : BitVec w) (y : BitVec h) {k : Nat} (hw : w ≤ k) (hk : k + h ≤ 64) :
    BitVec.ofNat 64 (x.toNat + y.toNat * 2 ^ k) = x.setWidth 64 ||| y.setWidth 64 <<< k := by
  have hx : x.toNat < 2 ^ k := x.isLt.trans_le (Nat.pow_le_pow_right (by decide) hw)
  have hx64 : x.toNat < 2 ^ 64 := hx.trans_le (Nat.pow_le_pow_right (by decide) (by omega))
  have hy64 : y.toNat < 2 ^ 64 := y.isLt.trans_le (Nat.pow_le_pow_right (by decide) (by omega))
  refine BitVec.eq_of_toNat_eq ?_
  rw [BitVec.toNat_or, BitVec.toNat_shiftLeft, BitVec.toNat_setWidth, BitVec.toNat_setWidth, BitVec.toNat_ofNat, Nat.mod_eq_of_lt hx64,
    Nat.mod_eq_of_lt hy64, Nat.shiftLeft_eq]
  have hsum : y.toNat * 2 ^ k + x.toNat < 2 ^ 64 := by
    have hy : y.toNat + 1 ≤ 2 ^ h := y.isLt
    calc y.toNat * 2 ^ k + x.toNat < (y.toNat + 1) * 2 ^ k := by rw [Nat.add_mul]; omega
      _ ≤ 2 ^ h * 2 ^ k := Nat.mul_le_mul_right _ hy
      _ = 2 ^ (h + k) := (Nat.pow_add ..).symm
      _ ≤ 2 ^ 64 := Nat.pow_le_pow_right (by decide) (by omega)
  rw [Nat.mod_eq_of_lt (by omega), Nat.mod_eq_of_lt (by omega), Nat.or_comm, Nat.add_comm, Nat.mul_comm, Nat.two_pow_add_eq_or_of_lt hx]

/-- SASID: the tenant only reads. -/
theorem sasid_after (v : W64) (asid : BitVec 14) (tenant : BitVec 16) :
    BitVec.ofNat 64 ((v.extractLsb' 0 14).toNat + tenant.toNat * 2 ^ 16) =
      v &&& 0x3FFF ||| BitVec.ofNat 64 (asid.toNat + tenant.toNat * 2 ^ 16) &&& 0xFFFF0000 := by
  rw [ofNat_fields _ _ (by decide) (by decide), ofNat_fields _ _ (by decide) (by decide), low_eq_mask v (m := 0x3FFF) rfl]
  refine congrArg (v &&& 0x3FFF ||| ·) (BitVec.eq_of_getLsbD_eq fun i hi => ?_)
  have hm : (0xFFFF0000 : W64).getLsbD i = decide (16 ≤ i ∧ i < 32) := by
    revert i
    decide
  rw [BitVec.getLsbD_and, BitVec.getLsbD_or, hm, BitVec.getLsbD_shiftLeft, BitVec.getLsbD_setWidth, BitVec.getLsbD_setWidth]
  by_cases h16 : i < 16
  · simp [h16]
  · have h14 : asid.getLsbD i = false := BitVec.getLsbD_of_ge _ _ (by omega)
    by_cases h32 : i < 32
    · simp [h14, h16, h32]
      omega
    · have ht : tenant.getLsbD (i - 16) = false := BitVec.getLsbD_of_ge _ _ (by omega)
      simp [h32, ht]

/-- UECAUSE: bits that are set clear the pending events. -/
theorem uecause_after (pend : BitVec 3) (kind : BitVec 4) (tag : W32) (clear : W64) :
    BitVec.ofNat 64 ((pend &&& ~~~(clear.extractLsb' 1 3)).toNat * 2 + kind.toNat * 16 + tag.toNat * 2 ^ 32) =
      BitVec.ofNat 64 (pend.toNat * 2 + kind.toNat * 16 + tag.toNat * 2 ^ 32) &&& ~~~(clear &&& 0xE) := by
  have fields (p : BitVec 3) : BitVec.ofNat 64 (p.toNat * 2 + kind.toNat * 16 + tag.toNat * 2 ^ 32) =
      (kind ++ p ++ (0 : BitVec 1)).setWidth 64 ||| tag.setWidth 64 <<< 32 := by
    rw [← ofNat_fields (kind ++ p ++ (0 : BitVec 1)) tag (by decide) (by decide)]
    refine congrArg (fun n => BitVec.ofNat 64 (n + _)) ?_
    rw [BitVec.toNat_append, BitVec.toNat_append]
    revert p kind
    decide
  rw [fields, fields]
  refine BitVec.eq_of_getLsbD_eq fun i hi => ?_
  have hm : (0xE : W64).getLsbD i = decide (1 ≤ i ∧ i < 4) := by
    revert i
    decide
  have low (p : BitVec 3) : ((kind ++ p ++ (0 : BitVec 1)).setWidth 64).getLsbD i =
      if i = 0 then false else if i < 4 then p.getLsbD (i - 1) else kind.getLsbD (i - 4) := by
    rw [BitVec.getLsbD_setWidth, BitVec.getLsbD_append, BitVec.getLsbD_append, decide_eq_true hi]
    by_cases h0 : i = 0
    · subst h0
      rfl
    · have h1 : ¬i < 1 := by omega
      have h3 : (i - 1 < 3) = (i < 4) := propext (by omega)
      have h4 : i - 1 - 3 = i - 4 := by omega
      simp [h0, h1, h3, h4]
  rw [BitVec.getLsbD_and, BitVec.getLsbD_or, BitVec.getLsbD_or, BitVec.getLsbD_not, BitVec.getLsbD_and, hm, low, low, decide_eq_true hi]
  by_cases h0 : i = 0
  · simp [h0]
  · by_cases h4 : i < 4
    · have h1 : 1 ≤ i := by omega
      have h3 : i - 1 < 3 := by omega
      have h32 : i < 32 := by omega
      have hc : 1 + (i - 1) = i := by omega
      simp [h0, h4, h1, h3, h32, hc]
    · simp [h0, h4]

/-! ### What a written CSR reads, by group -/

section
variable {n : Nat} {old v clear : W64} (h42 : n ≠ 0x042) (h200 : n ≠ 0x200)
include h42 h200

theorem some_field {m : W64} {k : Nat} (h : csrMasks n = (m, 0)) (hm : m.toNat = 2 ^ k - 1) :
    some ((v.extractLsb' 0 k).setWidth 64) = some (csrAfter n old v clear) := by
  rw [csrAfter_field h h42 h200, low_eq_mask v hm]

theorem some_addr (h : csrMasks n = (0xFFFFFFFFFFFC, 0)) : some ((csrAddr v).setWidth 64) = some (csrAfter n old v clear) := by
  rw [csrAfter_field h h42 h200, csrAddr_eq_mask]

theorem some_only (h : csrMasks n = (0, 0xFFFFFFFFFFFFFFFF)) : some old = some (csrAfter n old v clear) := by
  rw [csrAfter_readOnly h h42 h200]

end

theorem UCsr.read_write (u : UCsr) (now n : Nat) (v clear : W64) :
    (u.write now n v clear).read n = (u.read n).map fun old => csrAfter n old v clear := by
  unfold UCsr.read
  split
  case h_1 => exact some_field (by decide) (by decide) (k := 5) rfl rfl
  case h_2 => exact some_field (by decide) (by decide) (k := 2) rfl rfl
  case h_3 => exact some_field (by decide) (by decide) (k := 15) rfl rfl
  case h_4 => exact some_field (by decide) (by decide) (k := 32) rfl rfl
  case h_5 => exact some_field (by decide) (by decide) (k := 32) rfl rfl
  case h_6 => exact some_field (by decide) (by decide) (k := 32) rfl rfl
  case h_19 => exact some_addr (by decide) (by decide) rfl
  case h_20 => exact some_addr (by decide) (by decide) rfl
  case h_21 => exact congrArg some (uecause_after u.uepend u.uekind u.uetag clear)
  case h_22 => exact congrArg some ((uemask_after v u.uemask u.active).trans
    (csrAfter_mixed (n := 0x043) (m := 0xF) (k := 0x100) rfl (by decide) (by decide)).symm)
  case h_23 => exact congrArg some (csrAfter_whole (n := 0x0B0) rfl (by decide) (by decide)).symm
  case h_24 =>
    simp only [UCsr.write]
    by_cases hn : 0xC0 ≤ n ∧ n ≤ 0xCF
    · rw [if_pos hn, if_pos hn, if_pos hn]
      exact (congrArg some (congrArg (BitVec.setWidth 64) (dacc_same u.dacc _ hn))).trans
        (some_field (dacc_masks hn).2.1 (dacc_masks hn).2.2 (k := 32) (dacc_masks hn).1 rfl)
    · rw [if_neg hn, if_neg hn]
      rfl
  all_goals exact some_only (by decide) (by decide) rfl

theorem SCsr.read_write (c : SCsr) (n : Nat) (v clear : W64) :
    (c.write n v).read n = (c.read n).map fun old => csrAfter n old v clear := by
  unfold SCsr.read
  split
  case h_1 => exact congrArg some ((sstatus_after v c.spp c.intrap c.piste).trans
    (csrAfter_mixed (n := 0x100) (m := 0x3) (k := 0x4) rfl (by decide) (by decide)).symm)
  case h_2 => exact some_addr (by decide) (by decide) rfl
  case h_3 => exact some_addr (by decide) (by decide) rfl
  case h_4 => exact some_field (by decide) (by decide) (k := 39) rfl rfl
  case h_5 => exact congrArg some (csrAfter_whole (n := 0x104) rfl (by decide) (by decide)).symm
  case h_6 => exact congrArg some (csrAfter_whole (n := 0x105) rfl (by decide) (by decide)).symm
  case h_7 => exact congrArg some ((sasid_after v c.asid c.tenant).trans
    (csrAfter_mixed (n := 0x106) (m := 0x3FFF) (k := 0xFFFF0000) rfl (by decide) (by decide)).symm)
  case h_8 => exact some_field (by decide) (by decide) (k := 9) rfl rfl
  case h_9 => exact some_field (by decide) (by decide) (k := 13) rfl rfl
  case h_10 => rfl

theorem MCsr.read_write (c : MCsr) (n : Nat) (v clear : W64) :
    (c.write n v).read n = (c.read n).map fun old => csrAfter n old v clear := by
  unfold MCsr.read
  split
  case h_1 => exact congrArg some (mstatus_after v c.mpp c.intrap)
  case h_2 => exact some_addr (by decide) (by decide) rfl
  case h_3 => exact some_addr (by decide) (by decide) rfl
  case h_4 => exact some_field (by decide) (by decide) (k := 39) rfl rfl
  case h_5 => exact congrArg some (csrAfter_whole (n := 0x204) rfl (by decide) (by decide)).symm
  case h_6 => exact congrArg some (csrAfter_whole (n := 0x205) rfl (by decide) (by decide)).symm
  case h_7 => exact some_field (by decide) (by decide) (k := 32) rfl rfl
  case h_8 => exact congrArg some (csrAfter_readOnly (n := 0x207) rfl (by decide) (by decide)).symm
  case h_9 => exact some_addr (by decide) (by decide) rfl
  case h_10 => exact some_addr (by decide) (by decide) rfl
  case h_11 => rfl

/-! ### CSRs outside the slot -/

section
variable (s : State) (n m depth : Nat) (v clear : W64)

theorem ownWrite_other (h : m ≠ n) (w : W64) :
    (s.updNet fun net => { net with csrs := net.csrs ++ [(s.curId, n, v)] }).ownWrite m w = s.ownWrite m w := by
  unfold State.ownWrite
  simp [State.updNet, h.symm]

theorem ownWrite_same (w : W64) :
    (s.updNet fun net => { net with csrs := net.csrs ++ [(s.curId, n, v)] }).ownWrite n w = (v.extractLsb' 0 (sharedBits n)).setWidth 64 := by
  unfold State.ownWrite
  simp [State.updNet]

theorem outerRead_write_other (h : m ≠ n) : (s.outerWrite n v).outerRead depth m = s.outerRead depth m := by
  have own {k : Nat} (hk : m ≠ k) : (s.updNet fun net => { net with csrs := net.csrs ++ [(s.curId, k, v)] }).outerRead depth m = s.outerRead depth m := by
    unfold State.outerRead
    split <;> first | rfl | exact ownWrite_other s _ _ v hk _
  unfold State.outerWrite
  split
  case h_1 =>
    unfold State.outerRead
    split <;> first | rfl | exact absurd rfl h
  case h_7 => rfl
  all_goals exact own h

/-- A number that stands in no group of the slot and is not written outside it only reads. -/
theorem csrMasks_readOnly {u : UCsr} {c : SCsr} {k : MCsr} (hu : u.read n = none) (hs : c.read n = none) (hm : k.read n = none)
    (ho : n ≠ 0x210 ∧ n ≠ 0x220 ∧ n ≠ 0x221 ∧ n ≠ 0x230 ∧ n ≠ 0x231 ∧ n ≠ 0x232) : csrMasks n = (0, 0xFFFFFFFFFFFFFFFF) ∧ n ≠ 0x042 ∧ n ≠ 0x200 := by
  have hu' (j : Nat) (hj : (u.read j).isSome) : n ≠ j := fun h => by
    rw [← h, hu] at hj
    exact Bool.false_ne_true hj
  have hs' (j : Nat) (hj : (c.read j).isSome) : n ≠ j := fun h => by
    rw [← h, hs] at hj
    exact Bool.false_ne_true hj
  have hm' (j : Nat) (hj : (k.read j).isSome) : n ≠ j := fun h => by
    rw [← h, hm] at hj
    exact Bool.false_ne_true hj
  refine ⟨?_, hu' 0x042 rfl, hm' 0x200 rfl⟩
  have hdacc : ¬(0xC0 ≤ n ∧ n ≤ 0xCF) := fun h => by
    obtain ⟨h0, h1⟩ := h
    interval_cases n <;> exact Option.some_ne_none _ hu
  have hrange : ¬(0x010 ≤ n ∧ n ≤ 0x012) := fun h => by
    obtain ⟨h0, h1⟩ := h
    interval_cases n <;> exact Option.some_ne_none _ hu
  obtain ⟨h210, h220, h221, h230, h231, h232⟩ := ho
  unfold csrMasks
  rw [if_neg (hu' 0x001 rfl), if_neg (hu' 0x002 rfl), if_neg (hu' 0x003 rfl), if_neg hrange,
    if_neg (by simp only [hu' 0x040 rfl, hu' 0x041 rfl, hs' 0x101 rfl, hs' 0x102 rfl, hm' 0x201 rfl, hm' 0x202 rfl, hm' 0x208 rfl, hm' 0x209 rfl,
      or_self, not_false_eq_true]),
    if_neg (hu' 0x043 rfl),
    if_neg (by simp only [hu' 0x0B0 rfl, hs' 0x104 rfl, hs' 0x105 rfl, hm' 0x204 rfl, hm' 0x205 rfl, or_self, not_false_eq_true]),
    if_neg hdacc, if_neg (hs' 0x100 rfl),
    if_neg (by simp only [hs' 0x103 rfl, hm' 0x203 rfl, or_self, not_false_eq_true]),
    if_neg (hs' 0x106 rfl), if_neg (hs' 0x120 rfl), if_neg (hs' 0x121 rfl),
    if_neg (by simp only [hm' 0x206 rfl, h220, h231, h232, or_self, not_false_eq_true]),
    if_neg h210, if_neg h221, if_neg h230]

theorem outerRead_write (hu : s.cur.u.read n = none) (hs : s.cur.sc.read n = none) (hm : s.cur.mc.read n = none) :
    (s.outerWrite n v).outerRead depth n = csrAfter n (s.outerRead depth n) v clear := by
  unfold State.outerWrite
  split
  case h_1 =>
    rw [csrAfter_field (m := 1) rfl (by decide) (by decide)]
    show (if ((s.updCore (coreOf s.curId) _).core (coreOf s.curId)).pol then 1 else 0) = _
    rw [State.core_updCore_same, ← low_eq_mask v (k := 1) rfl]
    refine BitVec.eq_of_toNat_eq ?_
    rw [BitVec.toNat_setWidth, extract_toNat]
    dsimp only
    rw [getLsbD_eq_digit]
    simp only [decide_eq_true_eq]
    split <;> simp <;> omega
  case h_2 => exact (ownWrite_same ..).trans ((low_eq_mask v (k := 32) rfl).trans (csrAfter_field (n := 0x220) rfl (by decide) (by decide)).symm)
  case h_3 => exact (ownWrite_same ..).trans ((low_eq_mask v (k := 20) rfl).trans (csrAfter_field (n := 0x221) rfl (by decide) (by decide)).symm)
  case h_4 => exact (ownWrite_same ..).trans ((low_eq_mask v (k := 16) rfl).trans (csrAfter_field (n := 0x230) rfl (by decide) (by decide)).symm)
  case h_5 => exact (ownWrite_same ..).trans ((low_eq_mask v (k := 32) rfl).trans (csrAfter_field (n := 0x231) rfl (by decide) (by decide)).symm)
  case h_6 => exact (ownWrite_same ..).trans ((low_eq_mask v (k := 32) rfl).trans (csrAfter_field (n := 0x232) rfl (by decide) (by decide)).symm)
  case h_7 h210 h220 h221 h230 h231 h232 =>
    obtain ⟨hmasks, h42, h200⟩ := csrMasks_readOnly n hu hs hm ⟨h210, h220, h221, h230, h231, h232⟩
    exact (csrAfter_readOnly hmasks h42 h200).symm

end


/-! ### What a CSR reads after a write, a turn and a retirement -/

/-- A CSR reads by its group, whatever else of the slot and of the counters of tiles changes. -/
theorem OnlySlot.csrRead {s t : State} (h : OnlySlot s t) {n : Nat} {f : W64 → W64} (hu : t.cur.u.read n = (s.cur.u.read n).map f)
    (hs : t.cur.sc = s.cur.sc) (hm : t.cur.mc = s.cur.mc) (hd : t.cur.spec.depth = s.cur.spec.depth)
    (hf : s.cur.u.read n = none → ∀ w, f w = w) : t.csrRead n = f (s.csrRead n) := by
  have houter : t.outerRead s.cur.spec.depth n = s.outerRead s.cur.spec.depth n := by
    unfold State.outerRead State.ownWrite State.myTile State.slotIdent
    rw [h.curId, h.pkg, h.net, h.core, h.counters]
  rw [csrRead_groups, csrRead_groups, hu, hs, hm, hd, houter]
  cases hr : s.cur.u.read n with
  | some w => simp
  | none => simp [hf hr]

/-- One more where the CSR is the one that counts. -/
def countsAt (k n : Nat) (w : W64) : W64 := if n = k then w + 1 else w

theorem countsAt_other {k n : Nat} (h : n ≠ k) (w : W64) : countsAt k n w = w := if_neg h

theorem UCsr.read_retired (u : UCsr) (n : Nat) : ({ u with retired := u.retired + 1 } : UCsr).read n = (u.read n).map (countsAt 0x031 n) := by
  unfold UCsr.read
  split
  case h_24 =>
    rw [show countsAt 0x031 n = id from funext (countsAt_other ‹n = 0x031 → False›), Option.map_id]
    rfl
  all_goals rfl

theorem UCsr.read_turns (u : UCsr) (n : Nat) : ({ u with turns := u.turns + 1 } : UCsr).read n = (u.read n).map (countsAt 0x032 n) := by
  unfold UCsr.read
  split
  case h_24 =>
    rw [show countsAt 0x032 n = id from funext (countsAt_other ‹n = 0x032 → False›), Option.map_id]
    rfl
  all_goals rfl

/-- A CSR that its group does not list is not one that counts. -/
theorem countsAt_none {u : UCsr} {k n : Nat} (hk : (u.read k).isSome) (h : u.read n = none) (w : W64) : countsAt k n w = w :=
  countsAt_other (fun hn => by
    rw [← hn, h] at hk
    exact Bool.false_ne_true hk) w

/-- A turn counts in TURNS alone (R64). -/
theorem State.charge_csrRead (s : State) (n : Nat) : s.charge.csrRead n = countsAt 0x032 n (s.csrRead n) :=
  (OnlySlot.charge s).csrRead (by rw [State.charge_cur]; exact UCsr.read_turns ..) (by simp) (by simp) (by rw [State.charge_cur])
    (countsAt_none rfl)

/-- A register is no CSR. -/
theorem State.writeG_csrRead (s : State) (d : RegNo) (w : W64) (n : Nat) : (s.updCur fun x => x.writeG d w).csrRead n = s.csrRead n :=
  (OnlySlot.updCur s _).csrRead (f := id) (by rw [State.updCur_cur, Slot.writeG_u, Option.map_id]; rfl) (by rw [State.updCur_cur, Slot.writeG_rest])
    (by rw [State.updCur_cur, Slot.writeG_rest]) (by rw [State.updCur_cur, Slot.writeG_rest]) (fun _ _ => rfl)

/-- Retirement counts in RETIRED alone (R64). -/
theorem State.retire_advance_csrRead {s : State} (h : s.cur.frame = none ∨ s.cur.spec.undo = none) (n : Nat) :
    s.retire.advance.csrRead n = countsAt 0x031 n (s.csrRead n) := by
  have hcur := State.retire_advance_cur h
  rw [Slot.countChunk_rest, Slot.step_rest] at hcur
  exact (State.retire_advance_only h).csrRead (by rw [hcur]; exact UCsr.read_retired ..) (by rw [hcur]) (by rw [hcur]) (by rw [hcur]) (countsAt_none rfl)

/-- What CSRs read after a write. -/
theorem csrWritten_csrRead (s : State) (n m : Nat) (v clear : W64) :
    (s.csrWritten n v clear).csrRead m = if m = n then csrAfter n (s.csrRead n) v clear else s.csrRead m := by
  rw [csrWritten_groups, csrRead_groups]
  show ((((s.cur.u.write s.now n v clear).read m).or ((s.cur.sc.write n v).read m)).or ((s.cur.mc.write n v).read m)).getD
    ((s.outerWrite n v).outerRead s.cur.spec.depth m) = _
  by_cases h : m = n
  · subst h
    rw [if_pos rfl, csrRead_groups s, UCsr.read_write (v := v) (clear := clear), SCsr.read_write (clear := clear), MCsr.read_write (clear := clear)]
    cases hu : s.cur.u.read m with
    | some w => rfl
    | none =>
      cases hs : s.cur.sc.read m with
      | some w => rfl
      | none =>
        cases hm : s.cur.mc.read m with
        | some w => rfl
        | none => exact outerRead_write s m _ v clear hu hs hm
  · rw [if_neg h, UCsr.read_write_other _ _ _ _ _ _ h, SCsr.read_write_other _ _ _ _ h, MCsr.read_write_other _ _ _ _ h, outerRead_write_other _ _ _ _ _ h,
      csrRead_groups]

/-- What a write leaves beside the CSRs. -/
theorem csrWritten_rest (s : State) (n : Nat) (v clear : W64) : (s.csrWritten n v clear).cur.regs = s.cur.regs ∧
    (s.csrWritten n v clear).cur.pc = s.cur.pc ∧ (s.csrWritten n v clear).cur.frame = s.cur.frame ∧ (s.csrWritten n v clear).cur.skip = s.cur.skip ∧
    (s.csrWritten n v clear).cur.spec = s.cur.spec ∧ (s.csrWritten n v clear).cur.u.active = s.cur.u.active := by
  rw [csrWritten_groups]
  refine ⟨rfl, rfl, rfl, rfl, rfl, ?_⟩
  show (s.cur.u.write s.now n v clear).active = _
  unfold UCsr.write
  split
  case h_12 => split <;> rfl
  all_goals rfl

theorem outerWrite_rest (s : State) (n : Nat) (v : W64) : (s.outerWrite n v).mem = s.mem ∧ (s.outerWrite n v).attrs = s.attrs ∧
    (s.outerWrite n v).tasks = s.tasks := by
  unfold State.outerWrite
  split <;> exact ⟨rfl, rfl, rfl⟩

theorem csrWritten_frame (s : State) (n : Nat) (v clear : W64) : (s.csrWritten n v clear).mem = s.mem ∧ (s.csrWritten n v clear).attrs = s.attrs ∧
    (s.csrWritten n v clear).tasks = s.tasks := by
  rw [csrWritten_groups]
  exact outerWrite_rest s n v

/-- A CSR that counts only reads. -/
theorem csrAfter_counts {n : Nat} (h : n = 0x031 ∨ n = 0x032) (old v clear : W64) : csrAfter n old v clear = old := by
  rcases h with rfl | rfl <;> exact csrAfter_readOnly rfl (by decide) (by decide)

/-! ### The instructions -/

/-- What a CSR instruction does as it issues. -/
def csrAct (i : Instr) (d : RegNo) (n : Nat) (f : State → W64 → Option (W64 × W64)) (s : State) : Act :=
  match f s (s.csrRead n) with
  | none => .next (s.updCur fun x => x.writeG d (s.csrRead n))
  | some (new, clear) =>
    if s.asidFault n new then .trap causePriv 0 ((encode i).setWidth 64)
    else .next ((s.csrWritten n new clear).updCur fun x => x.writeG d (s.csrRead n))

theorem csrOp_eq (i : Instr) (s : State) (d : RegNo) (csr : BitVec 12) (f : State → W64 → Option (W64 × W64)) :
    csrOp i s d csr f = issue i s (csrAct i d csr.toNat f) := by
  unfold csrOp csrAct State.csrWritten
  rfl

theorem asidFault_iff (s : State) (n : Nat) (w : W64) : s.charge.asidFault n w = true ↔ ¬AsidOk s n w := by
  simp [State.asidFault, AsidOk]

section
variable {i : Instr} {s : State} {d : RegNo} {n : Nat} {f : State → W64 → Option (W64 × W64)} (he : exec i s = issue i s (csrAct i d n f))
  {old new clear : W64} (hold : old = countsAt 0x032 n (s.csrRead n))
include he hold

/-- A CSR instruction that only reads. -/
theorem csrAct_gives (hf : f s.charge old = none) : Gives i s d old := by
  refine gives_of_next he ?_
  rw [csrAct, State.charge_csrRead, ← hold, hf]

/-- A CSR instruction that would give the slot a foreign ASID traps. -/
theorem csrAct_traps (hf : f s.charge old = some (new, clear)) (h : ¬AsidOk s n new) : Traps i s 0x0E 0 ((encode i).setWidth 64) := by
  refine traps_of_trap he ?_
  rw [csrAct, State.charge_csrRead, ← hold, hf]
  exact if_pos ((asidFault_iff s _ _).2 h)

/-- A CSR instruction that writes. -/
theorem csrAct_writes (hf : f s.charge old = some (new, clear)) (h : AsidOk s n new) :
    Completes i s fun t => SetsG s.cur t.cur d old ∧ WroteCsr s t n new clear := by
  intro hi
  have hb := issue_next (u := (s.charge.csrWritten n new clear).updCur fun x => x.writeG d old) hi (body := csrAct i d n f) (by
    rw [csrAct, State.charge_csrRead, ← hold, hf]
    exact if_neg fun hfault => (asidFault_iff s _ _).1 hfault h)
  refine ⟨_, he.trans hb, ?_⟩
  obtain ⟨hregs, hpc, hframe, hskip, hspec, hactive⟩ := csrWritten_rest s.charge n new clear
  obtain ⟨hmem, hattrs, htasks⟩ := csrWritten_frame s.charge n new clear
  have hreads := csrWritten_csrRead s.charge n (v := new) (clear := clear)
  generalize s.charge.csrWritten n new clear = w at *
  have hwcur : (w.updCur fun x => x.writeG d old).cur = { w.cur with regs := (w.cur.writeG d old).regs } := Slot.writeG_rest ..
  have hundo : (w.updCur fun x => x.writeG d old).cur.frame = none ∨ (w.updCur fun x => x.writeG d old).cur.spec.undo = none := by
    rw [hwcur]
    simp only [hframe, hspec, State.charge_cur]
    exact hi.2
  have hcur := State.retire_advance_cur hundo
  have hend := State.retire_advance_only hundo
  have hread := State.retire_advance_csrRead hundo
  rw [Slot.countChunk_rest, Slot.step_rest, hwcur] at hcur
  generalize (w.updCur fun x => x.writeG d old).retire.advance = t at *
  have hread (m : Nat) : t.csrRead m = countsAt 0x031 m (if m = n then csrAfter n (countsAt 0x032 n (s.csrRead n)) new clear else countsAt 0x032 m (s.csrRead m)) := by
    rw [hread, State.writeG_csrRead, hreads, State.charge_csrRead, State.charge_csrRead]
  have hcount (m : Nat) (hm : m = 0x031 ∨ m = 0x032) : t.csrRead m = s.csrRead m + 1 := by
    rw [hread]
    by_cases hmn : m = n
    · subst hmn
      rw [if_pos rfl, csrAfter_counts hm]
      rcases hm with rfl | rfl <;> rfl
    · rw [if_neg hmn]
      rcases hm with rfl | rfl <;> rfl
  refine ⟨?_, ⟨fun h1 h2 => ?_, fun m hm h1 h2 => ?_, hcount _ (.inl rfl), hcount _ (.inr rfl), ?_, ?_, ?_, ?_⟩⟩
  · refine (((Slot.writeG_sets w.cur d old).from_regs (y := s.cur) ?_ ?_).of_regs ?_ ?_)
    · rw [hregs, State.charge_cur]
    · rw [hactive, State.charge_cur]
    · rw [hcur]
    · rw [hcur, Slot.writeG_u]
  · rw [hread, countsAt_other h1, if_pos rfl, countsAt_other h2]
  · rw [hread, countsAt_other h1, if_neg hm, countsAt_other h2]
  · rw [hcur]
    refine (Slot.pc_step_congr _ _ ?_ ?_ ?_).1
    · simp only [hpc, State.charge_cur]
    · simp only [hskip, State.charge_cur]
    · simp only [hframe, State.charge_cur]
  · rw [hend.rest]
    exact hmem.trans s.charge_mem
  · rw [hend.rest]
    exact hattrs.trans s.charge_attrs
  · rw [hend.rest]
    exact htasks.trans s.charge_tasks

end

/-- Settles O32: each group of CSRs reads after a write what its masks say, and no other number reads differently but the counters of turns and
retired instructions. -/
theorem csrInstructions : Obligations.CsrInstructions := by
  intro s d a csr x n v old writes
  have hold : old = countsAt 0x032 n (s.csrRead n) := rfl
  have hv : s.charge.cur.readG a = v := s.charge_readG a
  have settles {i : Instr} {f : State → W64 → Option (W64 × W64)} {w clear : W64} (he : exec i s = csrOp i s d csr f)
      (hf : f s.charge old = some (w, clear)) : writes i w clear :=
    have he := he.trans (csrOp_eq ..)
    ⟨csrAct_writes he hold hf, csrAct_traps he hold hf⟩
  have reads {i : Instr} {f : State → W64 → Option (W64 × W64)} (he : exec i s = csrOp i s d csr f) (hf : f s.charge old = none) : Gives i s d old :=
    csrAct_gives (he.trans (csrOp_eq ..)) hold hf
  refine ⟨reads (exec_csrr ..) rfl, settles (exec_csrw ..) ?_, fun ha => ⟨settles (exec_csrs ..) ?_, settles (exec_csrc ..) ?_⟩,
    fun ha => ⟨reads (exec_csrs ..) (if_pos ha), reads (exec_csrc ..) (if_pos ha)⟩⟩
  · rw [hv]
  · rw [if_neg ha, hv]
  · rw [if_neg ha, hv]

end Sys2Proof.Machine
end


section
/-! SUPPORT. What the operations of the model leave in memory: the same bytes, or the canonical form. Slots, pages, tasks, launches and traps. -/

namespace Sys2Proof.Machine

/-! ### Folds -/

/-- A fold whose steps leave memory leaves it. -/
theorem foldl_mem {α : Type} {f : State → α → State} (h : ∀ s a, (f s a).mem = s.mem) (l : List α) (s : State) : (l.foldl f s).mem = s.mem := by
  induction l generalizing s with
  | nil => rfl
  | cons a l ih => exact (ih _).trans (h s a)

/-- A fold whose steps keep the canonical form keeps it. -/
theorem foldl_wf {α : Type} {f : State → α → State} (h : ∀ s a, s.mem.wf = true → (f s a).mem.wf = true) (l : List α) (s : State)
    (hwf : s.mem.wf = true) : (l.foldl f s).mem.wf = true := by
  induction l generalizing s with
  | nil => exact hwf
  | cons a l ih => exact ih _ (h s a hwf)

/-- The state of a result, by the call that gave it. -/
theorem mem_of_eq {α : Type} {p : α × State} {a : α} {t : State} (h : p = (a, t)) : t.mem = p.2.mem := by rw [h]

theorem wf_of_eq {α : Type} {p : α × State} {a : α} {t : State} (h : p = (a, t)) (hwf : p.2.mem.wf = true) : t.mem.wf = true := by
  rwa [mem_of_eq h]

/-! ### Operations of the state -/

@[simp] theorem State.setSlot_mem (s : State) (id : Nat) (x : Slot) : (s.setSlot id x).mem = s.mem := by
  unfold State.setSlot
  split <;> rfl

@[simp] theorem State.updSlot_mem (s : State) (id : Nat) (f : Slot → Slot) : (s.updSlot id f).mem = s.mem := by simp [State.updSlot]

@[simp] theorem State.focus_mem (s : State) (id : Nat) : (s.focus id).mem = s.mem := by
  unfold State.focus
  split <;> rfl

theorem State.within_mem {f : State → State} (h : ∀ s, (f s).mem = s.mem) (s : State) (id : Nat) : (s.within id f).mem = s.mem := by
  simp [State.within, h]

theorem State.wf_within {f : State → State} (h : ∀ s, s.mem.wf = true → (f s).mem.wf = true) (s : State) (id : Nat) (hwf : s.mem.wf = true) :
    (s.within id f).mem.wf = true := by
  unfold State.within
  rw [State.focus_mem]
  exact h _ (by rwa [State.focus_mem])

@[simp] theorem State.updLaunch_mem (s : State) (key : Nat) (f : Launch → Launch) : (s.updLaunch key f).mem = s.mem := by
  unfold State.updLaunch
  split <;> rfl

@[simp] theorem State.updWl_mem (s : State) (w : Nat) (f : WorkList → WorkList) : (s.updWl w f).mem = s.mem := by
  unfold State.updWl
  split <;> rfl

@[simp] theorem State.updCtx_mem (s : State) (asid : BitVec 14) (f : Ctx → Ctx) : (s.updCtx asid f).mem = s.mem := by
  unfold State.updCtx
  split <;> rfl

@[simp] theorem State.wf_storeRec (s : State) (tile ix : Nat) (r : SaveRec) (hwf : s.mem.wf = true) :
    (s.storeRec tile ix r).mem.wf = true := by simp [State.storeRec, hwf]

@[simp] theorem State.wf_storeRecs (s : State) (p : SaveRec → Bool) (hwf : s.mem.wf = true) : (s.storeRecs p).mem.wf = true :=
  foldl_wf (fun _ _ hwf => foldl_wf (fun _ _ hwf => by split <;> simp [hwf]) _ _ hwf) _ _ hwf

@[simp] theorem State.updRecs_mem (s : State) (p : SaveRec → Bool) (f : SaveRec → SaveRec) : (s.updRecs p f).mem = s.mem := rfl

@[simp] theorem State.afterOnce_mem (s : State) (delay : Nat) (ev : Event) : (s.afterOnce delay ev).mem = s.mem := by
  unfold State.afterOnce
  split <;> rfl

@[simp] theorem State.post_mem (s : State) (pkg : Nat) (ev : Event) : (s.post pkg ev).mem = s.mem := rfl

@[simp] theorem State.fresh_mem (s : State) : s.fresh.2.mem = s.mem := rfl

/-! ### Writes of lines, watches and buffers -/

@[simp] theorem State.sendRelease_mem (s : State) (slot : Nat) (ctx : W32) (home line mode : Nat) :
    (s.sendRelease slot ctx home line mode).mem = s.mem := by
  unfold State.sendRelease
  split <;> rfl

@[simp] theorem State.releaseWatch_mem (s : State) (p : Watch → Bool) : (s.releaseWatch p).mem = s.mem := by
  unfold State.releaseWatch
  exact foldl_mem (fun _ _ => by simp) ..

@[simp] theorem State.setBuoys_mem (s : State) (home : Nat) (b : List Buoy) (age : Nat) : (s.setBuoys home b age).mem = s.mem := by
  unfold State.setBuoys
  split <;> rfl

@[simp] theorem State.clearRsv_mem (s : State) : s.clearRsv.mem = s.mem := by
  unfold State.clearRsv
  split <;> simp

@[simp] theorem State.dropBuf_mem (s : State) (slot lvl : Nat) : (s.dropBuf slot lvl).mem = s.mem := rfl

@[simp] theorem State.bufferWrite_mem (s : State) (slot level : Nat) (key : Nat × Nat) (mask : Nat) (data : List Byte) :
    (s.bufferWrite slot level key mask data).mem = s.mem := rfl

@[simp] theorem State.dropOps_mem (s : State) : s.dropOps.mem = s.mem := rfl

@[simp] theorem State.retryLine_mem (s : State) (home line : Nat) : (s.retryLine home line).mem = s.mem := by
  unfold State.retryLine
  exact foldl_mem (fun _ _ => by simp) ..

@[simp] theorem State.dropHolds_mem (s : State) (slot : Nat) : (s.dropHolds slot).mem = s.mem := by
  unfold State.dropHolds
  exact foldl_mem (fun _ _ => by simp) ..

@[simp] theorem State.txAbort_mem (s : State) (cause code : Nat) : (s.txAbort cause code).mem = s.mem := by
  unfold State.txAbort
  dsimp only
  split <;> simp

@[simp] theorem State.glideBack_mem (s : State) : s.glideBack.mem = s.mem := by simp [State.glideBack]

@[simp] theorem State.chunkSquash_mem (s : State) : s.chunkSquash.mem = s.mem := by simp [State.chunkSquash]

@[simp] theorem State.wakeSleeper_mem (s : State) : s.wakeSleeper.mem = s.mem := by simp [State.wakeSleeper]

@[simp] theorem State.takeNotice_mem (s : State) (n : Notice) (lost : Bool) : (s.takeNotice n lost).mem = s.mem := by
  unfold State.takeNotice
  dsimp only
  repeat' split
  all_goals simp

@[simp] theorem State.settleUndo_mem (s : State) : s.settleUndo.mem = s.mem := by
  unfold State.settleUndo
  repeat' split
  all_goals simp

@[simp] theorem State.settleSpec_mem (s : State) : s.settleSpec.mem = s.mem := by
  unfold State.settleSpec
  split <;> simp

/-! ### Page tables, translation and accesses of engines and units -/

@[simp] theorem State.wf_writeHome (s : State) (home off : Nat) (key : Option (BitVec 512)) (data : List Byte) (hwf : s.mem.wf = true) :
    (s.writeHome home off key data).mem.wf = true := by simp [State.writeHome, hwf]

@[simp] theorem State.wf_writePte (s : State) (pa v : Nat) (hwf : s.mem.wf = true) : (s.writePte pa v).mem.wf = true := by simp [State.writePte, hwf]

@[simp] theorem State.updFrame_mem (s : State) (frame : Nat) (f : FrameEnt → FrameEnt) : (s.updFrame frame f).mem = s.mem := rfl

@[simp] theorem State.warmFrame_mem (s : State) (frame : Nat) : (s.warmFrame frame).mem = s.mem := by
  unfold State.warmFrame
  split <;> rfl

@[simp] theorem State.fillTlb_mem (s : State) (home : Nat) (asid : BitVec 14) (va pte e : Nat) (large : Bool) :
    (s.fillTlb home asid va pte e large).mem = s.mem := by simp [State.fillTlb]

@[simp] theorem State.touchTlb_mem (s : State) (home : Nat) (t : Tlb) : (s.touchTlb home t).mem = s.mem := rfl

@[simp] theorem State.wf_runWalk (s : State) (home : Nat) (asid : BitVec 14) (va : Nat) (hwf : s.mem.wf = true) :
    (s.runWalk home asid va).2.mem.wf = true := by
  unfold State.runWalk
  dsimp only
  repeat' split
  all_goals simp [hwf]

@[simp] theorem State.wf_xlate (s : State) (asid : BitVec 14) (va : Nat) (hwf : s.mem.wf = true) : (s.xlate asid va).2.mem.wf = true := by
  unfold State.xlate
  dsimp only
  repeat' split
  all_goals simp [hwf]

@[simp] theorem State.wf_setDirty (s : State) (home : Nat) (t : Tlb) (hwf : s.mem.wf = true) : (s.setDirty home t).mem.wf = true := by
  unfold State.setDirty
  split <;> simp [hwf]

@[simp] theorem State.dropRsv_mem (s : State) (home line slot : Nat) (ctx : W32) : (s.dropRsv home line slot ctx).mem = s.mem := by
  unfold State.dropRsv
  split <;> simp

@[simp] theorem State.sendNotice_mem (s : State) (home ack : Nat) (b : Buoy) (loss : Bool) : (s.sendNotice home ack b loss).mem = s.mem := by
  unfold State.sendNotice
  dsimp only
  split <;> simp

@[simp] theorem State.placeBuoy_mem (s : State) (home line slot : Nat) (ctx : W32) (mode level : Nat) :
    (s.placeBuoy home line slot ctx mode level).mem = s.mem := by
  unfold State.placeBuoy
  dsimp only
  repeat' split
  all_goals simp

@[simp] theorem State.removeBuoy_mem (s : State) (home line slot : Nat) (ctx : W32) (modes : Nat) :
    (s.removeBuoy home line slot ctx modes).mem = s.mem := by simp [State.removeBuoy]

@[simp] theorem State.notify_mem (s : State) (home line ack : Nat) (but : Option Nat) : (s.notify home line ack but).2.mem = s.mem := by
  have hsent : (((s.buoysOf home).filter fun e => e.line == line && !(but == some e.slot)).foldl
      (fun s e => s.sendNotice home ack e false) s).mem = s.mem := foldl_mem (fun _ _ => by simp) ..
  unfold State.notify
  dsimp only
  split <;> simp [hsent]

@[simp] theorem State.wf_performWrite (s : State) (home line : Nat) (key : Option (BitVec 512)) (mask : Nat) (data : List Byte) (ack : Nat)
    (but : Option Nat) (hwf : s.mem.wf = true) : (s.performWrite home line key mask data ack but).2.mem.wf = true := by
  unfold State.performWrite
  split <;> simp [hwf]

@[simp] theorem State.wf_spotRaw (s : State) (tile : Nat) (asid : BitVec 14) (va : Nat) (write whole : Bool) (hwf : s.mem.wf = true) :
    (s.spotRaw tile asid va write whole).2.mem.wf = true := by
  unfold State.spotRaw
  split
  · exact hwf
  · exact hwf
  · split
    · exact hwf
    · split <;> exact hwf
  · split
    case h_4 heq =>
      dsimp only
      repeat' split
      all_goals simp [hwf, mem_of_eq heq]
    all_goals simp [hwf, mem_of_eq ‹_ = (_, _)›]

@[simp] theorem State.wf_spot (s : State) (tile : Nat) (asid : BitVec 14) (va : Nat) (write whole : Bool) (hwf : s.mem.wf = true) :
    (s.spot tile asid va write whole).2.mem.wf = true := by
  unfold State.spot
  split
  · split
    · exact hwf
    · simp [hwf, mem_of_eq ‹_ = (_, _)›]
  · simp [hwf]

@[simp] theorem State.wf_vread1 (s : State) (tile : Nat) (asid : BitVec 14) (va n : Nat) (hwf : s.mem.wf = true) :
    (s.vread1 tile asid va n).2.mem.wf = true := by
  unfold State.vread1
  split <;> simp [hwf, mem_of_eq ‹_ = (_, _)›]

@[simp] theorem State.wf_vwrite1 (s : State) (tile : Nat) (asid : BitVec 14) (va : Nat) (data : List Byte) (ack : Nat) (hwf : s.mem.wf = true) :
    (s.vwrite1 tile asid va data ack).2.mem.wf = true := by
  unfold State.vwrite1
  dsimp only
  split <;> simp [hwf, mem_of_eq ‹_ = (_, _)›]

@[simp] theorem State.wf_vreadL (s : State) (tile : Nat) (asid : BitVec 14) (l : List (Nat × Nat)) (acc : List Byte) (hwf : s.mem.wf = true) :
    (s.vreadL tile asid l acc).2.mem.wf = true := by
  induction l generalizing s acc with
  | nil => exact hwf
  | cons p l ih =>
    unfold State.vreadL
    split
    case h_1 => exact ih _ _ (by simp [hwf, mem_of_eq ‹_ = (_, _)›])
    all_goals simp [hwf, mem_of_eq ‹_ = (_, _)›]

@[simp] theorem State.wf_vread (s : State) (tile : Nat) (asid : BitVec 14) (va n : Nat) (hwf : s.mem.wf = true) :
    (s.vread tile asid va n).2.mem.wf = true := by simp [State.vread, hwf]

@[simp] theorem State.wf_vwriteL (s : State) (tile : Nat) (asid : BitVec 14) (ack : Nat) (l : List (Nat × Nat)) (data : List Byte) (k : Nat)
    (hwf : s.mem.wf = true) : (s.vwriteL tile asid ack l data k).2.mem.wf = true := by
  induction l generalizing s data k with
  | nil => exact hwf
  | cons p l ih =>
    unfold State.vwriteL
    split
    case h_1 => exact ih _ _ _ (by simp [hwf, mem_of_eq ‹_ = (_, _)›])
    all_goals simp [hwf, mem_of_eq ‹_ = (_, _)›]

@[simp] theorem State.wf_vwrite (s : State) (tile : Nat) (asid : BitVec 14) (va : Nat) (data : List Byte) (ack : Nat) (hwf : s.mem.wf = true) :
    (s.vwrite tile asid va data ack).2.mem.wf = true := by
  unfold State.vwrite
  dsimp only
  repeat' split
  all_goals simp [hwf]

@[simp] theorem State.faultRecord_mem (s : State) (home : Nat) (asid : BitVec 14) (va kind slot : Nat) (ctx : W32) :
    (s.faultRecord home asid va kind slot ctx).mem = s.mem := rfl

@[simp] theorem State.postMsg_mem (s : State) (pkg : Nat) (kind : Nat) (asid : BitVec 14) (tag : BitVec 16) (unit : Nat) (m : PodMsg) :
    (s.postMsg pkg kind asid tag unit m).mem = s.mem := by
  unfold State.postMsg
  split <;> rfl

/-! ### Items, tasks and launches -/

@[simp] theorem State.postWl_mem (s : State) (pkg wl : Nat) (asid : BitVec 14) (lid : W32) (m : WlMsg) :
    (s.postWl pkg wl asid lid m).mem = s.mem := by simp [State.postWl]

@[simp] theorem State.dropAsk_mem (s : State) (by_ : Nat) (asid : BitVec 14) : (s.dropAsk by_ asid).mem = s.mem := by
  simp [State.dropAsk, foldl_mem]

@[simp] theorem State.lantern_mem (s : State) (pkg delay wl : Nat) (m : WlMsg) : (s.lantern pkg delay wl m).mem = s.mem := by
  unfold State.lantern
  repeat' split
  all_goals simp

@[simp] theorem State.sendPush_mem (s : State) (m : PushMsg) : (s.sendPush m).mem = s.mem := by
  unfold State.sendPush
  dsimp only
  repeat' split
  all_goals simp

@[simp] theorem State.repushHeld_mem (s : State) (tid : W64) (tile : Nat) : (s.repushHeld tid tile).mem = s.mem := by
  unfold State.repushHeld
  dsimp only
  refine (foldl_mem (fun _ _ => ?_) ..).trans (by simp)
  split
  · rfl
  · split
    · split <;> simp
    · rfl

@[simp] theorem State.releaseAccs_mem (s : State) (tid : W64) : (s.releaseAccs tid).mem = s.mem := rfl

@[simp] theorem State.dropQueues_mem (s : State) (tid : W64) : (s.dropQueues tid).mem = s.mem := rfl

@[simp] theorem State.endChannels_mem (s : State) (tid : W64) : (s.endChannels tid).mem = s.mem := rfl

@[simp] theorem State.forgetTask_mem (s : State) (tid : W64) : (s.forgetTask tid).mem = s.mem := rfl

@[simp] theorem State.recallParked_mem (s : State) : s.recallParked.mem = s.mem := by
  unfold State.recallParked
  exact foldl_mem (fun _ _ => by split <;> simp) ..

@[simp] theorem State.withdraw_mem (s : State) : s.withdraw.mem = s.mem := by
  unfold State.withdraw
  dsimp only
  exact (foldl_mem (fun _ _ => by simp) ..).trans (by simp)

@[simp] theorem State.closeWl_mem (s : State) (wl : Nat) : (s.closeWl wl).mem = s.mem := by
  unfold State.closeWl
  split
  · rfl
  · dsimp only
    rw [State.updRecs_mem, foldl_mem (fun _ _ => by simp), foldl_mem (fun _ _ => by simp)]
    simp

@[simp] theorem State.finishLaunch_mem (s : State) (l : Launch) (st : LState) (reason : Nat) (frozen : Bool) :
    (s.finishLaunch l st reason frozen).mem = s.mem := by
  unfold State.finishLaunch
  dsimp only
  rw [State.after_mem, State.updCtx_mem]
  dsimp only
  split
  · split
    · rw [State.closeWl_mem, foldl_mem (fun _ _ => by simp)]
      simp
    · simp
  · simp

@[simp] theorem State.endSaved_mem (s : State) (tid : W64) (tile : Nat) : (s.endSaved tid tile).mem = s.mem := by
  simp [State.endSaved, foldl_mem]

@[simp] theorem State.stopTasks_mem (s : State) (key : Nat) : (s.stopTasks key).mem = s.mem := by
  unfold State.stopTasks
  refine foldl_mem (fun _ _ => ?_) ..
  dsimp only
  split
  · split <;> simp
  all_goals simp

@[simp] theorem State.discardItems_mem (s : State) (w : Nat) : (s.discardItems w).mem = s.mem := by simp [State.discardItems]

@[simp] theorem State.stopLaunch_mem (s : State) (id : W32) (st : LState) (reason : Nat) : (s.stopLaunch id st reason).mem = s.mem := by
  unfold State.stopLaunch
  repeat' split
  all_goals simp

@[simp] theorem State.token_mem (n : Nat) (ids : List W32) (s : State) : (State.token n ids s).mem = s.mem := by
  induction n generalizing ids s with
  | zero => rfl
  | succ n ih =>
    unfold State.token
    dsimp only
    split
    · rfl
    · rw [ih, foldl_mem (fun _ _ => by simp)]

@[simp] theorem State.freeze_mem (s : State) (key : Nat) (st : LState) (reason : Nat) : (s.freeze key st reason).mem = s.mem := by
  unfold State.freeze
  repeat' split
  all_goals simp

@[simp] theorem State.closeHere_mem (s : State) (wl : Nat) (frozen : Bool) : (s.closeHere wl frozen).mem = s.mem := by
  unfold State.closeHere
  repeat' split
  all_goals simp

@[simp] theorem State.wakeWaiting_mem (s : State) : s.wakeWaiting.mem = s.mem := by
  unfold State.wakeWaiting
  dsimp only
  exact (foldl_mem (fun _ _ => by split <;> simp) ..).trans (by simp)

@[simp] theorem State.checkLaunch_mem (s : State) (key : Nat) : (s.checkLaunch key).mem = s.mem := by
  unfold State.checkLaunch
  dsimp only
  repeat' split
  all_goals simp

@[simp] theorem State.checkWl_mem (s : State) (wl : Nat) : (s.checkWl wl).mem = s.mem := by
  unfold State.checkWl
  split <;> simp

@[simp] theorem State.countEnd_mem (s : State) (key : Nat) (trig : Bool) (accepted : List Nat) : (s.countEnd key trig accepted).mem = s.mem := by
  unfold State.countEnd
  dsimp only
  exact (foldl_mem (fun _ _ => by simp) ..).trans (by simp)

@[simp] theorem State.endNow_mem (s : State) (accept : Bool) : (s.endNow accept).mem = s.mem := by
  unfold State.endNow
  split <;> simp

@[simp] theorem State.endSoon_mem (s : State) : s.endSoon.mem = s.mem := by
  unfold State.endSoon
  split <;> simp

@[simp] theorem State.fatalFault_mem (s : State) : s.fatalFault.mem = s.mem := by simp [State.fatalFault]

/-! ### Traps, retirement and the act of an instruction -/

@[simp] theorem State.takeTrap_mem (s : State) (cause code : Nat) (xaddr : W64) (at_ : Addr) : (s.takeTrap cause code xaddr at_).mem = s.mem := by
  unfold State.takeTrap
  dsimp only
  repeat' split
  all_goals simp

@[simp] theorem State.trapIfSettled_mem (s : State) : s.trapIfSettled.mem = s.mem := by
  unfold State.trapIfSettled
  dsimp only
  repeat' split
  all_goals simp

@[simp] theorem State.failAt_mem (s : State) (at_ : Addr) (word : W32) (f : Failure) : (s.failAt at_ word f).mem = s.mem := by
  unfold State.failAt
  split <;> simp

@[simp] theorem State.issueTrap_mem (s : State) (word : W32) (cause code : Nat) (xaddr : W64) : (s.issueTrap word cause code xaddr).mem = s.mem := by
  unfold State.issueTrap
  repeat' split
  all_goals simp

@[simp] theorem State.takeStop_mem (s : State) : s.takeStop.mem = s.mem := by
  unfold State.takeStop
  split <;> simp

@[simp] theorem State.advance_mem (s : State) : s.advance.mem = s.mem := by
  unfold State.advance
  dsimp only
  split <;> simp

@[simp] theorem State.jump_mem (s : State) (t : Addr) : (s.jump t).mem = s.mem := rfl

@[simp] theorem State.specStop_mem (s : State) : s.specStop.mem = s.mem := by
  unfold State.specStop
  split <;> rfl

/-- Every state that an act goes on with has its memory in canonical form. -/
def Act.Canonical : Act → Prop
  | .next s | .jump s _ | .long s | .hold s _ | .done s | .trapIn s _ _ _ => s.mem.wf = true
  | _ => True

section
variable (s : State)

@[simp] theorem Act.canonical_next : (Act.next s).Canonical ↔ s.mem.wf = true := .rfl
@[simp] theorem Act.canonical_jump (t : Addr) : (Act.jump s t).Canonical ↔ s.mem.wf = true := .rfl
@[simp] theorem Act.canonical_long : (Act.long s).Canonical ↔ s.mem.wf = true := .rfl
@[simp] theorem Act.canonical_hold (h : Hold) : (Act.hold s h).Canonical ↔ s.mem.wf = true := .rfl
@[simp] theorem Act.canonical_done : (Act.done s).Canonical ↔ s.mem.wf = true := .rfl
@[simp] theorem Act.canonical_trapIn (c k : Nat) (x : W64) : (Act.trapIn s c k x).Canonical ↔ s.mem.wf = true := .rfl
@[simp] theorem Act.canonical_trap (c k : Nat) (x : W64) : (Act.trap c k x).Canonical := trivial
@[simp] theorem Act.canonical_abort (c k : Nat) : (Act.abort c k).Canonical := trivial
@[simp] theorem Act.canonical_spec : Act.spec.Canonical := trivial
@[simp] theorem Act.canonical_stall : Act.stall.Canonical := trivial

end

theorem State.wf_conclude {s0 s1 : State} {word : W32} {a : Act} (h0 : s0.mem.wf = true) (h1 : s1.mem.wf = true) (ha : a.Canonical) :
    (State.conclude s0 s1 word a).mem.wf = true := by
  cases a <;> simp_all [State.conclude]

/-- A step of this outcome leaves the memory in canonical form. -/
def Canonical : Host.Outcome State Fault Refusal → Prop
  | .next s => s.mem.wf = true
  | _ => True

@[simp] theorem canonical_next (s : State) : Canonical (.next s) ↔ s.mem.wf = true := .rfl
@[simp] theorem canonical_fault (f : Fault) : Canonical (.fault f) := trivial
@[simp] theorem canonical_refused (r : Refusal) : Canonical (.refused r) := trivial

/-- An instruction whose act keeps the canonical form keeps it. -/
theorem canonical_issue {i : Instr} {s : State} {body : State → Act} (hwf : s.mem.wf = true)
    (hbody : ∀ s : State, s.mem.wf = true → (body s).Canonical) : Canonical (issue i s body) := by
  unfold issue
  split
  · trivial
  split
  · exact hwf
  · split
    · exact State.wf_conclude hwf hwf (hbody s hwf)
    · exact hwf
  · split
    case h_7 => exact State.wf_conclude hwf (by simp [hwf]) (hbody _ (by simp [hwf]))
    all_goals simp [hwf]

@[simp] theorem canonical_fixed (i : Instr) (s : State) (sub : Slot → Bool) (f : Slot → Slot) (hwf : s.mem.wf = true) :
    Canonical (fixed i s sub f) := canonical_issue hwf fun _ hwf => hwf

@[simp] theorem State.openOp_mem (s : State) (i : Instr) (kind : OpKind) (due : Option Nat) (left : Nat) (wb : WriteBack) :
    (s.openOp i kind due left wb).2.mem = s.mem := rfl

@[simp] theorem canonical_longResult (i : Instr) (s : State) (lat : Nat) (sub : Bool) (f : Slot → Slot) (hwf : s.mem.wf = true) :
    (longResult i s lat sub f).Canonical := by
  simp [longResult, hwf]

@[simp] theorem State.closeOp_mem (s : State) (id : Nat) : (s.closeOp id).mem = s.mem := by simp [State.closeOp]

@[simp] theorem State.failOp_mem (s : State) (o : LongOp) (f : Failure) : (s.failOp o f).mem = s.mem := by
  unfold State.failOp
  split <;> simp

@[simp] theorem State.ripen_mem (s : State) : s.ripen.mem = s.mem := by
  unfold State.ripen
  exact foldl_mem (fun _ _ => by simp) ..

end Sys2Proof.Machine
end


section
/-! SUPPORT. What the operations of the model leave in memory: the same bytes, or the canonical form. Requests, homes, transactions, barriers, queues
and engines. -/

namespace Sys2Proof.Machine

/-! ### Requests and accesses -/

@[simp] theorem State.setPodSeq_mem (s : State) (unit key : Nat) (v : Nat × Nat) : (s.setPodSeq unit key v).mem = s.mem := by
  unfold State.setPodSeq
  split <;> rfl

@[simp] theorem State.podLeave_mem (s : State) (r : Req) : (s.podLeave r).mem = s.mem := by
  unfold State.podLeave
  repeat' split
  all_goals simp

@[simp] theorem State.sendReq_mem (s : State) (r : Req) (lag : Nat := 0) : (s.sendReq r lag).mem = s.mem := by
  unfold State.sendReq
  dsimp only
  repeat' split
  all_goals simp

@[simp] theorem State.mkReq_mem (s : State) (op : Nat) (kind : ReqKind) (watch : Option (Nat × Nat)) (e : Elem) (p : W64) (c : Cls) :
    (s.mkReq op kind watch e p c).2.mem = s.mem := rfl

@[simp] theorem State.sendAll_mem (s : State) (op : Nat) (kind : ReqKind) (watch : Option (Nat × Nat)) (rows : Bool) (l : List (Elem × W64 × Cls)) :
    (s.sendAll op kind watch rows l).mem = s.mem := by
  induction l generalizing s with
  | nil => rfl
  | cons p l ih => exact (ih _).trans (by simp)

@[simp] theorem canonical_accessAct (i : Instr) (s : State) (a : Access) (wb : WriteBack) (hwf : s.mem.wf = true) :
    (accessAct i s a wb).Canonical := by
  unfold accessAct
  dsimp only
  repeat' split
  all_goals simp [hwf]

@[simp] theorem State.settleBlock_mem (s : State) (slot : Nat) (ctx : W32) : (s.settleBlock slot ctx).mem = s.mem := by simp [State.settleBlock]

@[simp] theorem State.waitPage_mem (s : State) (r : Req) : (s.waitPage r).mem = s.mem := by
  unfold State.waitPage
  split <;> simp

@[simp] theorem State.dropRefusal_mem (s : State) (f : Failure) : (s.dropRefusal f).mem = s.mem := rfl

theorem canonical_awaitRelease {s : State} (sc : Scope) (eng : Bool) {act : State → Act} (hwf : s.mem.wf = true) (hact : (act s).Canonical) :
    (awaitRelease s sc eng act).Canonical := by
  unfold awaitRelease
  split
  · exact hwf
  split
  · simp [hwf]
  · exact hact

/-! ### Frames and control registers -/

@[simp] theorem State.retireFrame_mem (s : State) (home f : Nat) : (s.retireFrame home f).mem = s.mem := rfl

@[simp] theorem State.freePush_mem (s : State) (home frame : Nat) : (s.freePush home frame).mem = s.mem := by
  unfold State.freePush
  dsimp only
  repeat' split
  all_goals simp

@[simp] theorem State.coldPop_mem (s : State) (home : Nat) : (s.coldPop home).2.mem = s.mem := by
  unfold State.coldPop
  split <;> rfl

@[simp] theorem State.setFaultWin_mem (s : State) (w : FaultWin) : (s.setFaultWin w).mem = s.mem := rfl

@[simp] theorem State.tenantWrite_mem (s : State) (tag : Nat) (v : W64) : (s.tenantWrite tag v).mem = s.mem := by
  unfold State.tenantWrite
  repeat' split
  all_goals simp

@[simp] theorem State.ctlRead_mem (s : State) (off : Nat) : (s.ctlRead off).2.mem = s.mem := by
  unfold State.ctlRead
  dsimp only
  repeat' split
  all_goals simp

@[simp] theorem State.ctlWrite_mem (s : State) (off : Nat) (v : W64) : (s.ctlWrite off v).mem = s.mem := by
  unfold State.ctlWrite
  dsimp only
  repeat' split
  all_goals simp

@[simp] theorem canonical_execControlRegisterWrite (offset : Nat) (value : W64) (s : State) (hwf : s.mem.wf = true) :
    Canonical (execControlRegisterWrite offset value s) := by simp [execControlRegisterWrite, hwf]

@[simp] theorem canonical_execFreepush (home frame : Nat) (s : State) (hwf : s.mem.wf = true) :
    Canonical (execFreepush home frame s) := by simp [execFreepush, hwf]

@[simp] theorem canonical_execColdpop (home : Nat) (s : State) (hwf : s.mem.wf = true) : Canonical (execColdpop home s) := by simp [execColdpop, hwf]

/-! ### Fetches -/

@[simp] theorem State.wantLine_mem (s : State) (a : Addr) : (s.wantLine a).mem = s.mem := by
  unfold State.wantLine
  dsimp only
  repeat' split
  all_goals simp

@[simp] theorem State.deliverLine_mem (s : State) (tile : Nat) (asid : BitVec 14) (line : Nat) (bytes : List Byte) :
    (s.deliverLine tile asid line bytes).mem = s.mem := rfl

@[simp] theorem State.failFetch_mem (s : State) (r : Req) (cause code : Nat) : (s.failFetch r cause code).mem = s.mem := by
  unfold State.failFetch
  dsimp only
  split <;> simp

@[simp] theorem State.pendFetch_mem (s : State) (r : Req) : (s.pendFetch r).mem = s.mem := by
  unfold State.pendFetch
  repeat' split
  all_goals simp

@[simp] theorem canonical_execIcacheFill (tile : Nat) (asid : BitVec 14) (line : Nat) (s : State) (hwf : s.mem.wf = true) :
    Canonical (execIcacheFill tile asid line s) := by
  unfold execIcacheFill
  dsimp only
  split
  case h_2 =>
    rw [canonical_next, foldl_mem (fun _ _ => State.within_mem (fun _ => by simp) ..)]
    simp [hwf, mem_of_eq ‹_ = (_, _)›]
  case h_3 =>
    rw [canonical_next, foldl_mem (fun _ _ => State.within_mem (fun _ => by simp) ..)]
    simp [hwf, mem_of_eq ‹_ = (_, _)›]
  all_goals simp [hwf, mem_of_eq ‹_ = (_, _)›]

@[simp] theorem State.trapNext_mem (s : State) (word : W32) (cause code : Nat) (xaddr : W64) : (s.trapNext word cause code xaddr).mem = s.mem := by
  unfold State.trapNext
  repeat' split
  all_goals simp

@[simp] theorem canonical_execIllegalWord (w : W32) (s : State) (hwf : s.mem.wf = true) : Canonical (execIllegalWord w s) := by
  unfold execIllegalWord
  repeat' split
  all_goals simp [hwf]

@[simp] theorem canonical_execFetchOutsideCodeRegion (s : State) (hwf : s.mem.wf = true) : Canonical (execFetchOutsideCodeRegion s) := by
  unfold execFetchOutsideCodeRegion
  repeat' split
  all_goals simp [hwf]

/-! ### Instructions with flags -/

@[simp] theorem canonical_fpResult (i : Instr) (s : State) (d : RegNo) (srcs : Slot → List W32) (f : Slot → F32) (hwf : s.mem.wf = true) :
    Canonical (fpResult i s d srcs f) := by simp [fpResult, hwf]

@[simp] theorem canonical_fpOther (i : Instr) (s : State) (d : RegNo) (srcs : Slot → List W32) (f : Slot → W64 × Flags) (hwf : s.mem.wf = true) :
    Canonical (fpOther i s d srcs f) := by simp [fpOther, hwf]

@[simp] theorem canonical_fpLong (i : Instr) (s : State) (d : RegNo) (srcs : Slot → List W32) (f : Slot → F32) (hwf : s.mem.wf = true) :
    Canonical (fpLong i s d srcs f) := canonical_issue hwf fun _ hwf => canonical_longResult _ _ _ _ _ hwf

/-! ### Homes, replies and notices -/

@[simp] theorem State.sendAnswer_mem (s : State) (p : PodReq) (a : PodAnswer) : (s.sendAnswer p a).mem = s.mem := rfl

@[simp] theorem State.answerPod_mem (s : State) (r : Req) (p : PodReq) (res : ReqRes) : (s.answerPod r p res).mem = s.mem := by
  have hdrop (s : State) (l : List Req) : (l.foldl (fun s o => s.delReq o.id) s).mem = s.mem := foldl_mem (fun _ _ => by simp) ..
  unfold State.answerPod
  dsimp only
  repeat' split
  all_goals simp [hdrop]

@[simp] theorem State.reply_mem (s : State) (r : Req) (res : ReqRes) (extra : Nat) : (s.reply r res extra).mem = s.mem := by
  unfold State.reply
  split <;> simp

@[simp] theorem State.refuseUpdate_mem (s : State) (r : Req) (cause code : Nat) : (s.refuseUpdate r cause code).mem = s.mem := by
  unfold State.refuseUpdate
  split <;> simp

@[simp] theorem State.refuseReq_mem (s : State) (r : Req) (cause code : Nat) : (s.refuseReq r cause code).mem = s.mem := by
  unfold State.refuseReq
  split <;> simp

@[simp] theorem State.acknowledge_mem (s : State) (r : Req) (k : Nat) (data : List Byte) (extra : Nat) :
    (s.acknowledge r k data extra).mem = s.mem := by
  unfold State.acknowledge
  repeat' split
  all_goals simp

@[simp] theorem State.noticeTaken_mem (s : State) (ack : Nat) : (s.noticeTaken ack).mem = s.mem := by
  unfold State.noticeTaken
  repeat' split
  all_goals simp

@[simp] theorem State.dropAway_mem (s : State) (a : AwayNotice) : (s.dropAway a).mem = s.mem := by
  unfold State.dropAway
  split <;> simp

@[simp] theorem State.awayTaken_mem (s : State) (id : Nat) : (s.awayTaken id).mem = s.mem := by
  unfold State.awayTaken
  split <;> simp

@[simp] theorem State.wf_feAct (s : State) (r : Req) (tile off : Nat) (hwf : s.mem.wf = true) : (s.feAct r tile off).mem.wf = true := by
  unfold State.feAct
  split <;> simp [hwf]

@[simp] theorem State.unpark_mem (s : State) (r : Req) : (s.unpark r).mem = s.mem := by
  unfold State.unpark
  split <;> simp

@[simp] theorem State.wf_feScan (s : State) (tile off n : Nat) (hwf : s.mem.wf = true) : (s.feScan tile off n).mem.wf = true := by
  induction n generalizing s with
  | zero => exact hwf
  | succ n ih =>
    unfold State.feScan
    split
    · exact hwf
    · exact ih _ (by simp [hwf])

@[simp] theorem State.wf_feRequest (s : State) (r : Req) (tile off : Nat) (hwf : s.mem.wf = true) : (s.feRequest r tile off).mem.wf = true := by
  unfold State.feRequest
  dsimp only
  repeat' split
  all_goals simp [hwf]

@[simp] theorem canonical_execFeRetryAttempt (req : Nat) (s : State) (hwf : s.mem.wf = true) : Canonical (execFeRetryAttempt req s) := by
  unfold execFeRetryAttempt
  repeat' split
  all_goals simp [hwf]

@[simp] theorem State.countWatch_mem (s : State) (r : Req) (home line mode level : Nat) :
    (s.countWatch r home line mode level).mem = s.mem := by simp [State.countWatch]

@[simp] theorem State.wf_writeAt (s : State) (p : HomeSpot) (r : Req) (mask : Nat) (data : List Byte) (hwf : s.mem.wf = true) :
    (s.writeAt p r mask data).2.mem.wf = true := by
  unfold State.writeAt
  split <;> simp [hwf]

@[simp] theorem State.wf_perform (s : State) (r : Req) (p : HomeSpot) (hwf : s.mem.wf = true) : (s.perform r p).mem.wf = true := by
  unfold State.perform
  dsimp only
  split
  · simp [hwf]
  split
  · simp [hwf]
  split
  · simp [hwf]
  cases r.kind
  all_goals
    dsimp only
    repeat' split
    all_goals simp [hwf]

@[simp] theorem State.waitWalk_mem (s : State) (r : Req) (home va : Nat) : (s.waitWalk r home va).mem = s.mem := by
  unfold State.waitWalk
  dsimp only
  repeat' split
  all_goals simp

@[simp] theorem State.answerPending_mem (s : State) (r : Req) : (s.answerPending r).mem = s.mem := by
  unfold State.answerPending
  dsimp only
  split <;> simp

@[simp] theorem State.startWalks_mem (s : State) (home : Nat) : (s.startWalks home).mem = s.mem := by
  unfold State.startWalks
  exact foldl_mem (fun _ _ => by simp) ..

@[simp] theorem canonical_execWalkComplete (home : Nat) (asid : BitVec 14) (vpn : Nat) (s : State) (hwf : s.mem.wf = true) :
    Canonical (execWalkComplete home asid vpn s) := by
  unfold execWalkComplete
  split
  · exact hwf
  split
  · simp [hwf]
  dsimp only
  split
  all_goals
    rw [canonical_next, State.startWalks_mem, foldl_mem (fun _ _ => by simp)]
    simp [hwf, mem_of_eq ‹_ = (_, _)›]

@[simp] theorem State.wf_atHome (s : State) (r : Req) (hwf : s.mem.wf = true) : (s.atHome r).mem.wf = true := by
  unfold State.atHome
  dsimp only
  repeat' split
  all_goals simp [hwf]

@[simp] theorem canonical_execHomeAccess (req : Nat) (s : State) (hwf : s.mem.wf = true) : Canonical (execHomeAccess req s) := by
  unfold execHomeAccess
  repeat' split
  all_goals simp [hwf]

@[simp] theorem canonical_execUpdateApply (req : Nat) (s : State) (hwf : s.mem.wf = true) : Canonical (execUpdateApply req s) := by
  unfold execUpdateApply
  repeat' split
  all_goals simp [hwf]

@[simp] theorem State.accBack_mem (s : State) (o : LongOp) : (s.accBack o).mem = s.mem := by
  unfold State.accBack
  split <;> rfl

@[simp] theorem State.dropWatch_mem (s : State) (o : LongOp) : (s.dropWatch o).mem = s.mem := by
  unfold State.dropWatch
  split <;> simp

@[simp] theorem State.elementDone_mem (s : State) (r : Req) (res : ReqRes) : (s.elementDone r res).mem = s.mem := by
  unfold State.elementDone
  dsimp only
  repeat' split
  all_goals simp

@[simp] theorem State.pendAccess_mem (s : State) (r : Req) : (s.pendAccess r).mem = s.mem := by
  unfold State.pendAccess
  repeat' split
  all_goals simp

@[simp] theorem State.takeReply_mem (s : State) (r : Req) (res : ReqRes) (cls delay : Nat) : (s.takeReply r res cls delay).mem = s.mem := by
  unfold State.takeReply
  split <;> simp

@[simp] theorem State.ackPod_mem (s : State) (r : Req) : (s.ackPod r).mem = s.mem := by
  unfold State.ackPod
  split <;> simp

@[simp] theorem State.podReply_mem (s : State) (r : Req) (a : PodAnswer) : (s.podReply r a).mem = s.mem := by
  unfold State.podReply
  dsimp only
  repeat' split
  all_goals simp [State.within_mem, apply_ite State.mem]

@[simp] theorem State.sendWake_mem (s : State) (r : Req) (maps : Bool) (code : Nat) : (s.sendWake r maps code).mem = s.mem := by
  unfold State.sendWake
  repeat' split
  all_goals simp

@[simp] theorem State.wakeReq_mem (s : State) (r : Req) (maps : Bool) (code : Nat) : (s.wakeReq r maps code).mem = s.mem := by
  unfold State.wakeReq
  dsimp only
  repeat' split
  all_goals simp [State.within_mem, apply_ite State.mem]

@[simp] theorem State.wakeWrs_mem (s : State) (home line : Nat) : (s.wakeWrs home line).mem = s.mem := by
  unfold State.wakeWrs
  split <;> simp

@[simp] theorem State.wakeSlot_mem (s : State) (k : Nat) (refuse : Bool) : (s.wakeSlot k refuse).mem = s.mem := by
  unfold State.wakeSlot
  dsimp only
  split
  · exact foldl_mem (fun _ _ => by simp) ..
  · exact State.within_mem (by simp) ..
  · exact State.within_mem (fun _ => by split <;> simp) ..
  · rfl

@[simp] theorem State.sendWakeTo_mem (s : State) (k : Nat) (refuse : Bool) : (s.sendWakeTo k refuse).mem = s.mem := rfl

@[simp] theorem canonical_execAccessReply (req : Nat) (remote : Option PodAnswer) (s : State) (hwf : s.mem.wf = true) :
    Canonical (execAccessReply req remote s) := by
  unfold execAccessReply
  split
  · split <;> simp [hwf]
  split
  · split <;> simp [hwf]
  split
  · simp [hwf]
  split
  · simp [hwf]
  split
  · exact hwf
  · rw [canonical_next, State.within_mem (fun _ => by split <;> simp)]
    exact hwf

@[simp] theorem canonical_execReleaseMessage (m : ReleaseMsg) (s : State) (hwf : s.mem.wf = true) : Canonical (execReleaseMessage m s) := by
  unfold execReleaseMessage
  repeat' split
  all_goals simp [hwf]

@[simp] theorem State.deliverNotice_mem (s : State) (n : Notice) (lost : Bool) : (s.deliverNotice n lost).mem = s.mem := by
  unfold State.deliverNotice
  dsimp only
  split
  · exact State.within_mem (fun _ => by split <;> simp) ..
  · rw [State.updRecs_mem]
    exact foldl_mem (fun _ _ => foldl_mem (fun _ _ => by simp) ..) ..

@[simp] theorem State.tellTaken_mem (s : State) (n : Notice) : (s.tellTaken n).mem = s.mem := rfl

@[simp] theorem canonical_execBuoyNotice (n : Notice) (s : State) (hwf : s.mem.wf = true) : Canonical (execBuoyNotice n s) := by
  unfold execBuoyNotice
  dsimp only
  split <;> simp [hwf]

@[simp] theorem canonical_execLossNotice (n : Notice) (s : State) (hwf : s.mem.wf = true) : Canonical (execLossNotice n s) := by
  unfold execLossNotice
  dsimp only
  split <;> simp [hwf]

/-! ### Transactions -/

@[simp] theorem State.foldLevel_mem (s : State) (slot level : Nat) : (s.foldLevel slot level).mem = s.mem := by
  unfold State.foldLevel
  exact foldl_mem (fun _ _ => by simp) ..

@[simp] theorem State.wf_commitSpot (s : State) (slot : Nat) (key : Nat × Nat) (whole : Bool) (hwf : s.mem.wf = true) :
    (s.commitSpot slot key whole).2.mem.wf = true := by
  unfold State.commitSpot
  dsimp only
  repeat' split
  all_goals simp [hwf]

@[simp] theorem State.finishCommit_mem (s : State) : s.finishCommit.mem = s.mem := by
  unfold State.finishCommit
  dsimp only
  split <;> simp

@[simp] theorem State.commitPoint_mem (s : State) : s.commitPoint.mem = s.mem := by
  unfold State.commitPoint
  dsimp only
  split <;> simp

@[simp] theorem State.reachPoint_mem (s : State) : s.reachPoint.mem = s.mem := by
  unfold State.reachPoint
  repeat' split
  all_goals simp

@[simp] theorem State.startCommit_mem (s : State) : s.startCommit.mem = s.mem := by
  unfold State.startCommit
  dsimp only
  repeat' split
  all_goals simp

@[simp] theorem State.placeHold_mem (s : State) (p : Spot) (vline : Nat) : (s.placeHold p vline).mem = s.mem := by
  unfold State.placeHold
  dsimp only
  split <;> simp

@[simp] theorem State.commitFails_mem (s : State) (code : Nat) : (s.commitFails code).mem = s.mem := by
  unfold State.commitFails
  split <;> simp

@[simp] theorem State.commitPends_mem (s : State) (home vline : Nat) : (s.commitPends home vline).mem = s.mem := by
  unfold State.commitPends
  dsimp only
  split <;> simp

@[simp] theorem State.wf_holdStep (s : State) (home vline : Nat) (hwf : s.mem.wf = true) : (s.holdStep home vline).mem.wf = true := by
  unfold State.holdStep
  dsimp only
  split
  · exact hwf
  split
  · simp [hwf]
  split
  · simp [hwf]
  split
  · exact hwf
  split
  case h_5 heq =>
    have hread := (congrArg Memory.wf (mem_of_eq heq)).trans (State.wf_commitSpot _ _ _ _ hwf)
    repeat' split
    all_goals simp [State.within_mem, hread]
  all_goals simp [hwf, mem_of_eq ‹_ = (_, _)›]

@[simp] theorem canonical_execCommitHold (slot home line : Nat) (s : State) (hwf : s.mem.wf = true) :
    Canonical (execCommitHold slot home line s) := State.wf_within (fun _ => State.wf_holdStep _ _ _) _ _ hwf

@[simp] theorem State.wf_applyStep (s : State) (home vline : Nat) (hwf : s.mem.wf = true) : (s.applyStep home vline).mem.wf = true := by
  unfold State.applyStep
  repeat' split
  all_goals simp [hwf]

@[simp] theorem canonical_execCommitApply (slot home line : Nat) (s : State) (hwf : s.mem.wf = true) :
    Canonical (execCommitApply slot home line s) := State.wf_within (fun _ => State.wf_applyStep _ _ _) _ _ hwf

@[simp] theorem canonical_execTxb (disp : BitVec 23) (s : State) (hwf : s.mem.wf = true) : Canonical (execTxb disp s) := by
  refine canonical_issue hwf fun s hwf => ?_
  dsimp only
  repeat' split
  all_goals simp [hwf]

@[simp] theorem canonical_execTxelse (disp : BitVec 23) (s : State) (hwf : s.mem.wf = true) : Canonical (execTxelse disp s) := by
  refine canonical_issue hwf fun s hwf => ?_
  split <;> simp [hwf]

@[simp] theorem canonical_execTxe (s : State) (hwf : s.mem.wf = true) : Canonical (execTxe s) := by
  refine canonical_issue hwf fun s hwf => ?_
  dsimp only
  repeat' split
  all_goals simp [hwf, State.closeLevel_mem]

@[simp] theorem State.txSleep_mem (s : State) : s.txSleep.mem = s.mem := by
  unfold State.txSleep
  dsimp only
  repeat' split
  all_goals simp

@[simp] theorem State.txRetry_mem (n : Nat) (s : State) : (State.txRetry n s).mem = s.mem := by
  induction n generalizing s with
  | zero => simp [State.txRetry]
  | succ n ih =>
    unfold State.txRetry
    dsimp only
    split
    · simp
    · simp [ih]

@[simp] theorem canonical_execTxr (s : State) (hwf : s.mem.wf = true) : Canonical (execTxr s) := by
  refine canonical_issue hwf fun s hwf => ?_
  split <;> simp [hwf]

@[simp] theorem canonical_execTxabort (c : BitVec 8) (s : State) (hwf : s.mem.wf = true) : Canonical (execTxabort c s) := by
  refine canonical_issue hwf fun s hwf => ?_
  split <;> simp [hwf]

@[simp] theorem canonical_execTxst (d : RegNo) (s : State) (hwf : s.mem.wf = true) :
    Canonical (execTxst d s) := canonical_issue hwf fun _ hwf => by simp [hwf]

/-! ### Barriers -/

@[simp] theorem State.setBar_mem (s : State) (k : BarKey) (b : Option BarInst) : (s.setBar k b).mem = s.mem := rfl

@[simp] theorem State.sendCompletion_mem (s : State) (k : BarKey) (phase : Bool) : (s.sendCompletion k phase).mem = s.mem := by
  unfold State.sendCompletion
  exact foldl_mem (fun _ _ => by simp) ..

@[simp] theorem State.settleBar_mem (s : State) (b : BarInst) : (s.settleBar b).mem = s.mem := by
  unfold State.settleBar
  split <;> simp

@[simp] theorem State.settleWire_mem (s : State) (tile id : Nat) : (s.settleWire tile id).mem = s.mem := by
  unfold State.settleWire
  dsimp only
  split <;> simp

@[simp] theorem canonical_execBara (id : BitVec 5) (s : State) (hwf : s.mem.wf = true) : Canonical (execBara id s) := by
  refine canonical_issue hwf fun s hwf => ?_
  dsimp only
  split
  · refine canonical_awaitRelease _ _ hwf ?_
    repeat' split
    all_goals simp [hwf]
  · exact canonical_awaitRelease _ _ hwf (by simp [hwf])

@[simp] theorem State.waitBarrier_mem (s : State) (id : BitVec 5) : (s.waitBarrier id).mem = s.mem := rfl

@[simp] theorem canonical_execBarw (id : BitVec 5) (s : State) (hwf : s.mem.wf = true) : Canonical (execBarw id s) := by
  refine canonical_issue hwf fun s hwf => ?_
  repeat' split
  all_goals simp [hwf]

@[simp] theorem canonical_execBarg (id : BitVec 5) (s : State) (hwf : s.mem.wf = true) : Canonical (execBarg id s) := by
  refine canonical_issue hwf fun s hwf => ?_
  dsimp only
  repeat' split
  all_goals simp [hwf]

@[simp] theorem State.answerIn_mem (s : State) (delay : Nat) (v : W64) : (s.answerIn delay v).mem = s.mem := rfl

@[simp] theorem canonical_execBarq (d : RegNo) (id : BitVec 5) (s : State) (hwf : s.mem.wf = true) : Canonical (execBarq d id s) := by
  refine canonical_issue hwf fun s hwf => ?_
  split <;> simp [hwf]

@[simp] theorem State.configureBar_mem (s : State) (k : BarKey) (expect : Nat) : (s.configureBar k expect).2.mem = s.mem := by
  unfold State.configureBar
  repeat' split
  all_goals simp

@[simp] theorem canonical_execBarset (id : BitVec 5) (b : RegNo) (s : State) (hwf : s.mem.wf = true) : Canonical (execBarset id b s) := by
  refine canonical_issue hwf fun s hwf => ?_
  split <;> simp [hwf]

@[simp] theorem State.answered_mem (s : State) (v : W64) : (s.answered v).mem = s.mem := by
  unfold State.answered
  repeat' split
  all_goals simp

@[simp] theorem canonical_execControlReply (slot : Nat) (ctx : W32) (value : W64) (s : State) (hwf : s.mem.wf = true) :
    Canonical (execControlReply slot ctx value s) := by
  refine State.wf_within (fun s hwf => ?_) _ _ hwf
  dsimp only
  repeat' split
  all_goals simp [hwf]

@[simp] theorem canonical_execPackageBarrierArrival (slot : Nat) (ctx : W32) (key : BarKey) (s : State) (hwf : s.mem.wf = true) :
    Canonical (execPackageBarrierArrival slot ctx key s) := by
  unfold execPackageBarrierArrival
  dsimp only
  split <;> simp [hwf]

@[simp] theorem canonical_execBarrierArrivalReply (slot : Nat) (ctx : W32) (id : Nat) (phase : Option Bool) (s : State) (hwf : s.mem.wf = true) :
    Canonical (execBarrierArrivalReply slot ctx id phase s) := by
  unfold execBarrierArrivalReply
  dsimp only
  repeat' split
  all_goals simp [hwf, State.within_mem, apply_ite State.mem]

@[simp] theorem State.completeHere_mem (s : State) (n : BarName) (phase : Bool) : (s.completeHere n phase).mem = s.mem := by
  unfold State.completeHere
  repeat' split
  all_goals simp

@[simp] theorem canonical_execBarrierCompletion (tile : Nat) (name : BarName) (phase : Bool) (s : State) (hwf : s.mem.wf = true) :
    Canonical (execBarrierCompletion tile name phase s) := by
  have hslots (s : State) (l : List Nat) :
      (l.foldl (fun s k => if (s.slot k).status == .free then s else s.within k fun s => s.completeHere name phase) s).mem = s.mem :=
    foldl_mem (fun _ _ => by
      split
      · rfl
      · exact State.within_mem (fun _ => by simp) ..) ..
  unfold execBarrierCompletion
  dsimp only
  rw [canonical_next, apply_ite State.mem, State.afterOnce_mem, ite_self, hslots, foldl_mem fun _ _ => ?_]
  · simp [hwf]
  · split <;> simp

/-! ### Queues and channels -/

@[simp] theorem State.updHolder_mem (s : State) (tid : W64) (f : Slot → Slot) : (s.updHolder tid f).mem = s.mem := by
  unfold State.updHolder
  split <;> simp

@[simp] theorem State.wakeTask_mem (s : State) (tid : W64) (b : Block) : (s.wakeTask tid b).mem = s.mem := by
  unfold State.wakeTask
  split <;> simp

@[simp] theorem State.pushWord_mem (s : State) (tid : W64) (q : Nat) (w : W64) : (s.pushWord tid q w).mem = s.mem := by
  unfold State.pushWord
  split <;> simp

@[simp] theorem State.canonical_blockPop (s : State) (q : Nat) (hwf : s.mem.wf = true) : (s.blockPop q).Canonical := by simp [State.blockPop, hwf]

@[simp] theorem canonical_execMstat (d : RegNo) (la : BitVec 4) (s : State) (hwf : s.mem.wf = true) : Canonical (execMstat d la s) := by
  refine canonical_issue hwf fun s hwf => ?_
  split <;> simp [hwf]

@[simp] theorem State.popAll_mem (s : State) (d : RegNo) : (s.popAll d).mem = s.mem := rfl

@[simp] theorem canonical_execMwait (d : RegNo) (la : BitVec 4) (s : State) (hwf : s.mem.wf = true) : Canonical (execMwait d la s) := by
  refine canonical_issue hwf fun s hwf => ?_
  split <;> simp [hwf]

@[simp] theorem State.mwaitDone_mem (s : State) : s.mwaitDone.mem = s.mem := by
  unfold State.mwaitDone
  split
  · rfl
  · refine foldl_mem (fun _ _ => ?_) ..
    split
    · split <;> simp
    · rfl

@[simp] theorem State.startDry_mem (s : State) (tid : W64) (q : Nat) (c : Chan) : (s.startDry tid q c).mem = s.mem := by
  unfold State.startDry
  split <;> rfl

@[simp] theorem State.takeWords_mem (s : State) (q n : Nat) (c : Chan) : (s.takeWords q n c).mem = s.mem := by
  unfold State.takeWords
  dsimp only
  split <;> simp

@[simp] theorem canonical_pushChan (i : Instr) (s : State) (q : Nat) (ws : List W64) (hwf : s.mem.wf = true) : (pushChan i s q ws).Canonical := by
  unfold pushChan queueTrap
  dsimp only
  repeat' split
  all_goals try exact trivial
  all_goals rw [Act.canonical_next, foldl_mem (fun _ _ => by simp)]
  all_goals simp [hwf]

@[simp] theorem canonical_execQpush (g : RegNo) (q : BitVec 4) (s : State) (hwf : s.mem.wf = true) :
    Canonical (execQpush g q s) := canonical_issue hwf fun _ hwf => by simp [hwf]

@[simp] theorem canonical_execQpushv (v : RegNo) (q : BitVec 4) (s : State) (hwf : s.mem.wf = true) :
    Canonical (execQpushv v q s) := canonical_issue hwf fun _ hwf => by simp [hwf]

@[simp] theorem canonical_execQpop (g : RegNo) (q la : BitVec 4) (s : State) (hwf : s.mem.wf = true) : Canonical (execQpop g q la s) := by
  refine canonical_issue hwf fun s hwf => ?_
  dsimp only
  repeat' split
  all_goals simp [hwf, queueTrap]

@[simp] theorem canonical_execQpopv (v : RegNo) (q la : BitVec 4) (s : State) (hwf : s.mem.wf = true) : Canonical (execQpopv v q la s) := by
  refine canonical_issue hwf fun s hwf => ?_
  dsimp only
  repeat' split
  all_goals simp [hwf, queueTrap]

@[simp] theorem canonical_execQbind (g : RegNo) (q : BitVec 4) (s : State) (hwf : s.mem.wf = true) : Canonical (execQbind g q s) := by
  refine canonical_issue hwf fun s hwf => ?_
  dsimp only
  repeat' split
  all_goals simp [hwf, queueTrap]

@[simp] theorem canonical_execQstat (g : RegNo) (q : BitVec 4) (s : State) (hwf : s.mem.wf = true) : Canonical (execQstat g q s) := by
  refine canonical_issue hwf fun s hwf => ?_
  dsimp only
  repeat' split
  all_goals simp [hwf, queueTrap]

@[simp] theorem canonical_execChannelWord (tid : W64) (q : Nat) (sender word : W64) (s : State) (hwf : s.mem.wf = true) :
    Canonical (execChannelWord tid q sender word s) := by
  unfold execChannelWord
  repeat' split
  all_goals simp [hwf]

@[simp] theorem canonical_execCreditReturn (tid : W64) (q : Nat) (receiver : W64) (n : Nat) (s : State) (hwf : s.mem.wf = true) :
    Canonical (execCreditReturn tid q receiver n s) := by
  unfold execCreditReturn
  repeat' split
  all_goals simp [hwf]

@[simp] theorem canonical_execDryTimeout (tid : W64) (q stamp : Nat) (s : State) (hwf : s.mem.wf = true) :
    Canonical (execDryTimeout tid q stamp s) := by
  unfold execDryTimeout
  repeat' split
  all_goals simp [hwf]

/-! ### The matrix engine -/

theorem State.mem_of_ownAcc {s t : State} {n : Nat} (h : s.ownAcc n = .inr t) : t.mem = s.mem := by
  have htake (u : State) (hu : Sum.inr u = Sum.inr (α := Nat × W64) t) : t.mem = u.mem := by rw [Sum.inr.inj hu]
  unfold State.ownAcc at h
  dsimp only at h
  split at h
  · split at h
    · simp at h
    · exact (htake _ h).trans (by simp)
  split at h
  · exact (htake _ h).trans (by simp)
  split at h
  · exact (htake _ h).trans (by simp)
  · simp at h

theorem mem_of_ownAccs {s t : State} {l : List PredNo}
    (h : l.foldl (fun (r : (Nat × W64) ⊕ State) n => match r with | .inr s => s.ownAcc n.toNat | e => e) (.inr s) = .inr t) : t.mem = s.mem := by
  obtain ⟨u, hu, htu⟩ := foldl_keeps (R := fun (a b : (Nat × W64) ⊕ State) => ∀ t, b = .inr t → ∃ u, a = .inr u ∧ t.mem = u.mem)
    (fun _ t ht => ⟨t, ht, rfl⟩)
    (fun hab hbc t ht => by
      obtain ⟨u, hu, htu⟩ := hbc t ht
      obtain ⟨v, hv, huv⟩ := hab u hu
      exact ⟨v, hv, htu.trans huv⟩)
    (fun acc e t ht => by
      split at ht
      · exact ⟨_, rfl, State.mem_of_ownAcc ht⟩
      · exact ⟨t, ht, rfl⟩) l (.inr s) t h
  rw [htu, Sum.inr.inj hu]

@[simp] theorem canonical_pushMatrix (i : Instr) (s : State) (op : MOp) (md : PredNo) (more : List PredNo) (ga gb : W64) (sa sb : W32) (v0 v1 : Vec)
    (hwf : s.mem.wf = true) : Canonical (pushMatrix i s op md more ga gb sa sb v0 v1) := by
  refine canonical_issue hwf fun s hwf => ?_
  dsimp only
  split
  · trivial
  split
  · trivial
  · split
    · trivial
    · simp [mem_of_ownAccs ‹_ = _›, hwf]

@[simp] theorem State.settleRound_mem (s : State) (tile : Nat) : (s.settleRound tile).mem = s.mem := by
  unfold State.settleRound
  dsimp only
  split <;> simp

@[simp] theorem State.setAcc_mem (s : State) (core n : Nat) (e : Vector W32 256) : (s.setAcc core n e).mem = s.mem := rfl

@[simp] theorem State.startMatrix_mem (s : State) (l : MLatch) : (s.startMatrix l).mem = s.mem := by
  unfold State.startMatrix
  dsimp only
  repeat' split
  all_goals simp

@[simp] theorem State.grantMatrix_mem (s : State) (tile : Nat) : (s.grantMatrix tile).mem = s.mem := by
  unfold State.grantMatrix
  dsimp only
  repeat' split
  all_goals simp

@[simp] theorem State.feedMatrix_mem (s : State) (tile : Nat) : (s.feedMatrix tile).mem = s.mem := by
  unfold State.feedMatrix
  dsimp only
  repeat' split
  all_goals simp

@[simp] theorem canonical_execMatrixCommandStart (tile : Nat) (s : State) (hwf : s.mem.wf = true) : Canonical (execMatrixCommandStart tile s) := by
  unfold execMatrixCommandStart
  dsimp only
  split <;> simp [hwf]

@[simp] theorem State.wf_storeRow (s : State) (tile core : Nat) (c : MCmd) (off : Nat) (data : List Byte) (hwf : s.mem.wf = true) :
    (s.storeRow tile core c off data).mem.wf = true := by
  unfold State.storeRow
  dsimp only
  repeat' split
  all_goals simp [hwf]

@[simp] theorem State.finishMatrix_mem (s : State) (core : Nat) (r : MRun) : (s.finishMatrix core r).mem = s.mem := by
  unfold State.finishMatrix
  dsimp only
  split
  · simp
  · split
    · exact (State.within_mem (fun _ => by split <;> simp) ..).trans (by simp)
    · simp

@[simp] theorem canonical_execMatrixCommandComplete (tile core : Nat) (s : State) (hwf : s.mem.wf = true) :
    Canonical (execMatrixCommandComplete tile core s) := by
  unfold execMatrixCommandComplete
  dsimp only
  repeat' split
  all_goals simp [hwf]

/-! ### The copy engine -/

@[simp] theorem State.wf_engRead (s : State) (tile : Nat) (asid : BitVec 14) (va : Int) (n : Nat) (hwf : s.mem.wf = true) :
    (s.engRead tile asid va n).2.mem.wf = true := by
  unfold State.engRead
  dsimp only
  split
  · exact hwf
  split
  · exact hwf
  split <;> simp [hwf, mem_of_eq ‹_ = (_, _)›]

@[simp] theorem State.wf_engWrite (s : State) (tile lane : Nat) (c : ECmd) (va : Int) (data : List Byte) (hwf : s.mem.wf = true) :
    (s.engWrite tile lane c va data).2.mem.wf = true := by
  unfold State.engWrite
  dsimp only
  split
  · exact hwf
  split
  · exact hwf
  split
  case h_1 =>
    split <;> simp [hwf, mem_of_eq ‹_ = (_, _)›]
  all_goals simp [hwf, mem_of_eq ‹_ = (_, _)›]

@[simp] theorem State.park_mem (s : State) (who : Parker) (c : ECmd) (page : Nat) (write : Bool) : (s.park who c page write).mem = s.mem := rfl

@[simp] theorem canonical_pushCopy (i : Instr) (s : State) (a : RegNo) (tag : Option W32) (hwf : s.mem.wf = true) :
    Canonical (pushCopy i s a tag) := canonical_issue hwf fun _ hwf => by simp [hwf]

@[simp] theorem State.completeCmd_mem (s : State) (c : ECmd) (q kind cls : Nat) (tag : W32) (status : Nat) (fl : Flags) (event : Bool) :
    (s.completeCmd c q kind cls tag status fl event).mem = s.mem := by
  unfold State.completeCmd
  repeat' split
  all_goals simp

@[simp] theorem State.setCopy_mem (s : State) (core : Nat) (r : CopyRun) : (s.setCopy core r).mem = s.mem := rfl

@[simp] theorem State.copyOn_mem (s : State) (core n : Nat) : (s.copyOn core n).mem = s.mem := by simp [State.copyOn]

@[simp] theorem State.endCopy_mem (s : State) (core : Nat) (r : CopyRun) (status : Nat) :
    (s.endCopy core r status).mem = s.mem := by simp [State.endCopy]

@[simp] theorem State.wf_readSpans (s : State) (tile : Nat) (asid : BitVec 14) (l : List (Int × Nat)) (acc : List Byte) (hwf : s.mem.wf = true) :
    (s.readSpans tile asid l acc).2.mem.wf = true := by
  induction l generalizing s acc with
  | nil => exact hwf
  | cons p l ih =>
    unfold State.readSpans
    split
    · exact ih _ _ (by simp [hwf, mem_of_eq ‹_ = (_, _)›])
    · simp [hwf]

@[simp] theorem State.wf_writeSpans (s : State) (tile lane : Nat) (c : ECmd) (l : List (Int × Nat)) (data : List Byte) (hwf : s.mem.wf = true) :
    (s.writeSpans tile lane c l data).2.mem.wf = true := by
  induction l generalizing s data with
  | nil => exact hwf
  | cons p l ih =>
    unfold State.writeSpans
    split
    · exact ih _ _ (by simp [hwf, mem_of_eq ‹_ = (_, _)›])
    · simp [hwf]

theorem State.mem_of_podSpans {s t : State} {tile lane : Nat} {c : ECmd} {k : ReqKind} {l : List (Int × Nat)} {d : List Byte}
    (h : s.podSpans tile lane c k l d = .inr t) : t.mem = s.mem := by
  have hkeeps := foldl_keeps (R := fun (a b : (Nat ⊕ State) × List Byte) => ∀ t, b.1 = .inr t → ∃ u, a.1 = .inr u ∧ t.mem = u.mem)
    (fun _ t ht => ⟨t, ht, rfl⟩)
    (fun hab hbc t ht => by
      obtain ⟨u, hu, htu⟩ := hbc t ht
      obtain ⟨v, hv, huv⟩ := hab u hu
      exact ⟨v, hv, htu.trans huv⟩)
    (fun acc e t ht => ?_) _ (.inr s, d) t h
  · obtain ⟨u, hu, htu⟩ := hkeeps
    exact htu.trans (congrArg State.mem (Sum.inr.inj hu).symm)
  · dsimp only at ht
    split at ht
    · split at ht
      · exact absurd ht (by simp)
      split at ht
      · exact absurd ht (by simp)
      · exact ⟨_, ‹_›, by simp [← Sum.inr.inj ht]⟩
    · exact absurd ht (by simp)
    · exact ⟨t, ht, rfl⟩

@[simp] theorem State.parkPod_mem (s : State) (who : Parker) (c : ECmd) (page : Nat) : (s.parkPod who c page).mem = s.mem := rfl

@[simp] theorem State.passCopy_mem (s : State) (core : Nat) : (s.passCopy core).mem = s.mem := rfl

@[simp] theorem State.nextUnit_mem (s : State) (core : Nat) (r : CopyRun) (p : CopyPlan) (bytes : Nat) (fl : Flags) :
    (s.nextUnit core r p bytes fl).mem = s.mem := by simp [State.nextUnit]

@[simp] theorem State.wf_copyData (s : State) (core : Nat) (r : CopyRun) (p : CopyPlan) (raw : List Byte) (w : List (Int × Nat))
    (hwf : s.mem.wf = true) : (s.copyData core r p raw w).2.mem.wf = true := by
  unfold State.copyData
  dsimp only
  split
  · exact hwf
  split
  · exact hwf
  split <;> simp [hwf, mem_of_eq ‹_ = (_, _)›]

@[simp] theorem State.askSpans_mem (s : State) (core : Nat) (r : CopyRun) (l : List (Int × Nat)) : (s.askSpans core r l).mem = s.mem := by
  unfold State.askSpans
  split
  · simp
  · simp [State.mem_of_podSpans ‹_ = _›]

@[simp] theorem State.wf_putUnit (s : State) (core : Nat) (r : CopyRun) (p : CopyPlan) (raw : List Byte) (hwf : s.mem.wf = true) :
    (s.putUnit core r p raw).mem.wf = true := by
  unfold State.putUnit
  dsimp only
  split
  · simp [hwf]
  split
  case h_5 heq =>
    have hdata := (congrArg Memory.wf (mem_of_eq heq)).trans (State.wf_copyData _ _ _ _ _ _ hwf)
    split
    case h_5 heq =>
      have hwrite := (congrArg Memory.wf (mem_of_eq heq)).trans (State.wf_writeSpans _ _ _ _ _ _ hdata)
      split
      · simp [hwrite]
      · simp [hwrite, State.mem_of_podSpans ‹_ = _›]
    all_goals simp [hdata, mem_of_eq ‹_ = (_, _)›]
  all_goals simp [hwf, mem_of_eq ‹_ = (_, _)›]

@[simp] theorem State.wf_copyUnit (s : State) (core : Nat) (r : CopyRun) (p : CopyPlan) (hwf : s.mem.wf = true) :
    (s.copyUnit core r p).mem.wf = true := by
  unfold State.copyUnit
  dsimp only
  split
  · split <;> simp [hwf, mem_of_eq ‹_ = (_, _)›]
  split
  · simp [hwf]
  split
  · simp [hwf]
  split <;> simp [hwf, mem_of_eq ‹_ = (_, _)›]

@[simp] theorem State.startCopy_mem (s : State) (core : Nat) (c : ECmd) (d : List Byte) :
    (s.startCopy core c d).mem = s.mem := by simp [State.startCopy]

@[simp] theorem State.podCopy_mem (s : State) (core : Nat) (r : CopyRun) (p : CopyPlan) : (s.podCopy core r p).mem = s.mem := by
  have hdrop (s : State) (l : List Req) : (l.foldl (fun s q => s.delReq q.id) s).mem = s.mem := foldl_mem (fun _ _ => by simp) ..
  unfold State.podCopy
  dsimp only
  repeat' split
  all_goals simp [hdrop]

@[simp] theorem State.askDesc_mem (s : State) (core : Nat) (c : ECmd) (acquired : Bool) : (s.askDesc core c acquired).mem = s.mem := by
  unfold State.askDesc
  dsimp only
  split
  · simp
  · simp [State.mem_of_podSpans ‹_ = _›]

@[simp] theorem canonical_execCopyCommandStart (tile core : Nat) (s : State) (hwf : s.mem.wf = true) :
    Canonical (execCopyCommandStart tile core s) := by
  unfold execCopyCommandStart
  extract_lets k s'
  split
  · split
    · simp [hwf]
    extract_lets take fail
    have hs' : s'.mem.wf = true := by simp [s', hwf]
    have hfail (u : State) (st : Nat) : (fail u st).mem = u.mem := by simp [fail, take]
    have htake (u : State) : (take u).mem = u.mem := by simp [take]
    split
    · simp [hfail, hs']
    split
    · simp [hfail, hs']
    split
    · simp [hfail, hs']
    split
    case h_1 => split <;> simp [hs', htake, mem_of_eq ‹_ = (_, _)›]
    all_goals simp [hs', hfail, htake, mem_of_eq ‹_ = (_, _)›]
  · exact hwf

@[simp] theorem canonical_execCopyCommandComplete (tile core : Nat) (s : State) (hwf : s.mem.wf = true) :
    Canonical (execCopyCommandComplete tile core s) := by
  unfold execCopyCommandComplete
  dsimp only
  repeat' split
  all_goals simp [hwf]

@[simp] theorem State.wakeCopy_mem (s : State) (core : Nat) (maps : Bool) : (s.wakeCopy core maps).mem = s.mem := by
  unfold State.wakeCopy
  repeat' split
  all_goals simp

/-! ### Collectives -/

@[simp] theorem canonical_execColl (a : RegNo) (s : State) (hwf : s.mem.wf = true) :
    Canonical (execColl a s) := canonical_issue hwf fun _ hwf => by simp [hwf]

@[simp] theorem State.setColl_mem (s : State) (k : CollKey) (c : Option Coll) : (s.setColl k c).mem = s.mem := rfl

@[simp] theorem State.spreadColl_mem (s : State) (c : Coll) (v : Nat × List Byte × BitVec 5) : (s.spreadColl c v).mem = s.mem := by
  simp [State.spreadColl, foldl_mem]

@[simp] theorem State.joinColl_mem (s : State) (key : CollKey) (m : CollMember) : (s.joinColl key m).mem = s.mem := by
  unfold State.joinColl
  dsimp only
  repeat' split
  all_goals simp

@[simp] theorem State.joinAway_mem (s : State) (key : CollKey) (m : CollMember) (root : Nat) : (s.joinAway key m root).mem = s.mem := by
  unfold State.joinAway
  dsimp only
  split <;> simp

@[simp] theorem State.joinForeign_mem (s : State) (pkg : Nat) (tag : BitVec 16) (key : CollKey) (pos : Nat) (desc mask src : List Byte) :
    (s.joinForeign pkg tag key pos desc mask src).mem = s.mem := by simp [State.joinForeign]

@[simp] theorem State.takeResult_mem (s : State) (key : CollKey) (v : Nat × List Byte × BitVec 5) : (s.takeResult key v).mem = s.mem := by
  unfold State.takeResult
  split <;> simp

@[simp] theorem State.dropColl_mem (s : State) (core : Nat) (c : ECmd) (tag : W32) (event : Bool) (status : Nat) :
    (s.dropColl core c tag event status).mem = s.mem := by simp [State.dropColl]

@[simp] theorem State.joinData_mem (s : State) (core : Nat) (j : JoinRun) (b : List Byte) : (s.joinData core j b).mem = s.mem := by
  unfold State.joinData
  dsimp only
  repeat' split
  all_goals simp

@[simp] theorem State.bumpColl_mem (s : State) (c : ECmd) (id : W32) : (s.bumpColl c id).mem = s.mem := rfl

@[simp] theorem State.failJoin_mem (s : State) (core : Nat) (c : ECmd) (j : JoinRun) (st : Nat) : (s.failJoin core c j st).mem = s.mem := by
  unfold State.failJoin
  split <;> simp

@[simp] theorem canonical_execCollectiveJoin (tile core : Nat) (s : State) (hwf : s.mem.wf = true) : Canonical (execCollectiveJoin tile core s) := by
  have hdrop (s : State) (l : List Req) : (l.foldl (fun s q => s.delReq q.id) s).mem = s.mem := foldl_mem (fun _ _ => by simp) ..
  unfold execCollectiveJoin
  dsimp only
  split
  · exact hwf
  split
  · exact hwf
  split
  · split
    · simp [hwf]
    · split <;> simp [hwf, hdrop]
  split
  · simp [hwf]
  · simp [hwf]
  · split
    case h_5 =>
      split
      · simp [hwf, mem_of_eq ‹_ = (_, _)›]
      · simp [State.mem_of_podSpans ‹_ = Sum.inr _›, hwf, mem_of_eq ‹_ = (_, _)›]
    all_goals simp [hwf, mem_of_eq ‹_ = (_, _)›]
  · split <;> simp [hwf]

@[simp] theorem State.serveMember_mem (s : State) (c : Coll) (m : CollMember) (status : Nat) (fl : Flags) :
    (s.serveMember c m status fl).mem = s.mem := by
  unfold State.serveMember
  dsimp only
  split <;> simp

@[simp] theorem canonical_execCollectiveComplete (key : CollKey) (s : State) (hwf : s.mem.wf = true) : Canonical (execCollectiveComplete key s) := by
  have hdrop (s : State) (l : List Req) : (l.foldl (fun s q => s.delReq q.id) s).mem = s.mem := foldl_mem (fun _ _ => by simp) ..
  unfold execCollectiveComplete
  dsimp only
  split
  · exact hwf
  split
  · split
    · simp [hwf]
    split
    · simp [hwf]
    split
    · repeat' split
      all_goals simp [hwf]
    split
    · simp [hwf]
    split
    · split
      · simp [hwf]
      · split <;> simp [hwf, hdrop]
    split
    case h_5 =>
      split
      · simp [hwf, mem_of_eq ‹_ = (_, _)›]
      · simp [State.mem_of_podSpans ‹_ = Sum.inr _›, hwf, mem_of_eq ‹_ = (_, _)›]
    all_goals simp [hwf, mem_of_eq ‹_ = (_, _)›]
  · exact hwf

@[simp] theorem canonical_execColltmoExpiry (key : CollKey) (s : State) (hwf : s.mem.wf = true) : Canonical (execColltmoExpiry key s) := by
  unfold execColltmoExpiry
  repeat' split
  all_goals simp [hwf]

@[simp] theorem State.unpark1_mem (s : State) (p : Park) (maps : Bool) : (s.unpark1 p maps).mem = s.mem := by
  unfold State.unpark1
  repeat' split
  all_goals simp

end Sys2Proof.Machine
end


section
/-! SUPPORT. What the operations of the model leave in memory: the same bytes, or the canonical form. Worklists, tasks, CSRs, dispatch and Piste
turns. -/

namespace Sys2Proof.Machine

/-! ### Lamps, keepers and reserves -/

@[simp] theorem State.watchWl_mem (s : State) (wl : Nat) : (s.watchWl wl).mem = s.mem := by
  unfold State.watchWl
  repeat' split
  all_goals simp

@[simp] theorem State.stirWatch_mem (s : State) (wl : Nat) : (s.stirWatch wl).mem = s.mem := by
  unfold State.stirWatch
  split <;> simp

@[simp] theorem State.sendPop_mem (s : State) (w : WorkList) (m : PopMsg) : (s.sendPop w m).mem = s.mem := by simp [State.sendPop]

@[simp] theorem State.stirWl_mem (s : State) (wl : Nat) : (s.stirWl wl).mem = s.mem := by
  unfold State.stirWl
  split
  · rfl
  split
  · rfl
  dsimp only
  rw [foldl_mem (fun _ _ => by split <;> simp), State.updRecs_mem]
  split <;> simp

@[simp] theorem State.stirAll_mem (s : State) (wl : Nat) : (s.stirAll wl).mem = s.mem := by
  unfold State.stirAll
  exact foldl_mem (fun _ _ => by simp) ..

@[simp] theorem State.sendHead_mem (s : State) (wl tile : Nat) : (s.sendHead wl tile).mem = s.mem := by
  unfold State.sendHead
  dsimp only
  repeat' split
  all_goals simp

/-- The states of an insertion have their memory in canonical form. -/
def Inserted.Canonical : Inserted → Prop
  | .done s | .again s => s.mem.wf = true
  | .full => True

theorem State.canonical_insertReserve {s : State} (wl tile : Nat) (q : QItem) (demotion : Bool) (hwf : s.mem.wf = true) :
    (s.insertReserve wl tile q demotion).Canonical := by
  have done {s : State} (h : s.mem.wf = true) : (Inserted.done s).Canonical := h
  unfold State.insertReserve
  split
  · trivial
  split
  · exact done (by simp [hwf])
  split
  · trivial
  dsimp only
  split
  case h_3 => exact (congrArg Memory.wf (mem_of_eq ‹_ = (_, _)›)).trans (by simp [hwf])
  all_goals exact done (by simp [hwf, mem_of_eq ‹_ = (_, _)›])

@[simp] theorem State.answerPush_mem (s : State) (m : PushMsg) (status hop : Nat) : (s.answerPush m status hop).mem = s.mem := by
  unfold State.answerPush
  dsimp only
  repeat' split
  all_goals simp

@[simp] theorem State.sendLow_mem (s : State) (wl lamp : Nat) : (s.sendLow wl lamp).mem = s.mem := by
  unfold State.sendLow
  split <;> simp

@[simp] theorem State.lowIf_mem (s : State) (wl lamp : Nat) : (s.lowIf wl lamp).mem = s.mem := by
  unfold State.lowIf
  repeat' split
  all_goals simp

@[simp] theorem State.demoteAll_mem (s : State) (wl : Nat) (ends : Bool) (loose : Nat) (next : Option Event) :
    (s.demoteAll wl ends loose next).mem = s.mem := by
  unfold State.demoteAll
  repeat' split
  all_goals simp [foldl_mem]

@[simp] theorem State.sendCut_mem (s : State) (wl : Nat) (ends : Option Nat) : (s.sendCut wl ends).mem = s.mem := by
  unfold State.sendCut
  split
  · rfl
  dsimp only
  rw [foldl_mem (fun _ _ => by simp), foldl_mem (fun _ _ => by simp), foldl_mem (fun _ _ => by simp), State.updWl_mem]

@[simp] theorem State.lowerK_mem (s : State) (wl k : Nat) (loose : Nat) (next : Option Event) :
    (s.lowerK wl k loose next).mem = s.mem := by simp [State.lowerK]

@[simp] theorem State.sendDown_mem (s : State) (w : WorkList) (wl : Nat) (q : QItem) (hop : Nat) :
    (s.sendDown w wl q hop).mem = s.mem := by simp [State.sendDown]

@[simp] theorem State.callIn_mem (s : State) (wl : Nat) (next : Event) : (s.callIn wl next).mem = s.mem := by
  unfold State.callIn
  repeat' split
  all_goals simp [foldl_mem]

@[simp] theorem State.insertAt_mem (s : State) (wl lamp : Nat) (m : PushMsg) (next : Option Event) : (s.insertAt wl lamp m next).mem = s.mem := by
  unfold State.insertAt
  split <;> simp

@[simp] theorem State.placeFront_mem (s : State) (wl lamp : Nat) (m : PushMsg) (retry : Nat → Event) (kept : Event) (next : Option Event) :
    (s.placeFront wl lamp m retry kept next).mem = s.mem := by
  unfold State.placeFront
  repeat' split
  all_goals simp

@[simp] theorem State.startPull_mem (s : State) (wl : Nat) : (s.startPull wl).mem = s.mem := by
  unfold State.startPull
  split
  · rfl
  dsimp only
  split
  · rfl
  split
  · simp
  rw [foldl_mem (fun _ _ => by simp), foldl_mem (fun _ _ => by simp), State.updWl_mem]

@[simp] theorem State.endPull_mem (s : State) (wl : Nat) (w : WorkList) (p : Pull) : (s.endPull wl w p).mem = s.mem := by
  unfold State.endPull
  dsimp only
  repeat' split
  all_goals simp

@[simp] theorem State.tryEndPull_mem (s : State) (wl : Nat) : (s.tryEndPull wl).mem = s.mem := by
  unfold State.tryEndPull
  repeat' split
  all_goals simp

@[simp] theorem State.opStep_mem (s : State) (wl : Nat) (f : KeeperOp → KeeperOp) : (s.opStep wl f).mem = s.mem := by
  unfold State.opStep
  split
  · rfl
  split
  · rfl
  split
  · rw [State.tryEndPull_mem, foldl_mem (fun _ _ => by simp), State.updWl_mem]
  · simp

@[simp] theorem State.queue_mem (s : State) (wl : Nat) (e : Event) : (s.queue wl e).mem = s.mem := by simp [State.queue]

@[simp] theorem canonical_execFwd (lamp : Nat) (m : PushMsg) (s : State) (hwf : s.mem.wf = true) : Canonical (execFwd lamp m s) := by
  unfold execFwd
  dsimp only
  repeat' split
  all_goals simp [hwf]

@[simp] theorem canonical_execFpush (lamp : Nat) (m : PushMsg) (s : State) (hwf : s.mem.wf = true) : Canonical (execFpush lamp m s) := by
  unfold execFpush
  dsimp only
  repeat' split
  all_goals simp [hwf]

@[simp] theorem canonical_execRpush (m0 : PushMsg) (s : State) (hwf : s.mem.wf = true) : Canonical (execRpush m0 s) := by
  have hins {s t : State} {wl tile : Nat} {q : QItem} {b : Bool} (hwf : s.mem.wf = true)
      (h : s.insertReserve wl tile q b = .done t ∨ s.insertReserve wl tile q b = .again t) : t.mem.wf = true := by
    have hcan := s.canonical_insertReserve wl tile q b hwf
    rcases h with h | h
    all_goals
      rw [h] at hcan
      exact hcan
  unfold execRpush
  extract_lets m
  split
  · simp [hwf]
  extract_lets at_ c back keeper
  split
  · simp [hwf]
  split
  · split
    case h_1 heq => simp [hins hwf (.inl heq)]
    case h_2 heq => simp [hins hwf (.inr heq)]
    case h_3 => simp [hwf]
  split
  · split <;> simp [hwf]
  split
  case h_1 heq => simp [hins (by simp [hwf]) (.inl heq)]
  case h_2 heq => simp [hins (by simp [hwf]) (.inr heq)]
  case h_3 => split <;> simp [hwf]

@[simp] theorem canonical_execLow (wl : Nat) (lamp : Nat) (s : State) (hwf : s.mem.wf = true) : Canonical (execLow wl lamp s) := by
  unfold execLow
  repeat' split
  all_goals simp [hwf]

@[simp] theorem canonical_execHead (wl tile : Nat) (pos : Option Nat) (s : State) (hwf : s.mem.wf = true) :
    Canonical (execHead wl tile pos s) := by simp [execHead, hwf]

@[simp] theorem State.sendRitem_mem (s : State) (wl tile : Nat) (q : QItem) (v : Nat) : (s.sendRitem wl tile q v).mem = s.mem := by
  unfold State.sendRitem
  dsimp only
  repeat' split
  all_goals simp

@[simp] theorem State.sendItems_mem (s : State) (wl tile : Nat) (kn : Option Nat) (v n : Nat) : (s.sendItems wl tile kn v n).mem = s.mem := by
  induction n generalizing s with
  | zero => rfl
  | succ n ih =>
    unfold State.sendItems
    split
    · rfl
    split
    · rfl
    split
    · rfl
    · simp [ih]

@[simp] theorem State.wf_readRuns (s : State) (wl tile : Nat) (w : WorkList) (l : List OvRun) (hwf : s.mem.wf = true) :
    (s.readRuns wl tile w l).2.mem.wf = true := by
  induction l generalizing s with
  | nil => exact hwf
  | cons r l ih =>
    unfold State.readRuns
    split
    · exact hwf
    dsimp only
    split
    case h_1 => exact ih _ (by simp [hwf, mem_of_eq ‹_ = (_, _)›])
    all_goals simp [hwf, mem_of_eq ‹_ = (_, _)›]

@[simp] theorem canonical_execPull (wl tile : Nat) (kn : Option Nat) (m v : Nat) (s : State) (hwf : s.mem.wf = true) :
    Canonical (execPull wl tile kn m v s) := by
  unfold execPull
  split
  · exact hwf
  dsimp only
  split
  · exact hwf
  split <;> simp [hwf, mem_of_eq ‹_ = (_, _)›]

@[simp] theorem canonical_execRitem (wl lamp : Nat) (q : Pulled) (s : State) (hwf : s.mem.wf = true) : Canonical (execRitem wl lamp q s) := by
  unfold execRitem
  repeat' split
  all_goals simp [hwf]

@[simp] theorem canonical_execPack (wl tile : Nat) (cap : PullAnswer) (s : State) (hwf : s.mem.wf = true) : Canonical (execPack wl tile cap s) := by
  unfold execPack
  dsimp only
  repeat' split
  all_goals simp [hwf]

@[simp] theorem canonical_execDemote (wl lamp : Nat) (k : Demotion) (s : State) (hwf : s.mem.wf = true) : Canonical (execDemote wl lamp k s) := by
  unfold execDemote
  dsimp only
  repeat' split
  all_goals simp [hwf, foldl_mem]

@[simp] theorem canonical_execCut (wl : Nat) (toLamp : Bool) (dest : Nat) (k : Option Nat) (v : CutVersion) (s : State) (hwf : s.mem.wf = true) :
    Canonical (execCut wl toLamp dest k v s) := by
  unfold execCut
  repeat' split
  all_goals simp [hwf]

@[simp] theorem canonical_execPop (lamp : Nat) (m : PopMsg) (s : State) (hwf : s.mem.wf = true) : Canonical (execPop lamp m s) := by
  unfold execPop
  dsimp only
  repeat' split
  all_goals simp [hwf]

@[simp] theorem State.repush_mem (s : State) (m : PopMsg) (q : QItem) : (s.repush m q).mem = s.mem := by
  unfold State.repush
  split <;> simp

@[simp] theorem State.popAnswered_mem (s : State) (m : PopMsg) (op : Nat) (ans : PopAnswer) : (s.popAnswered m op ans).mem = s.mem := by
  unfold State.popAnswered
  dsimp only
  repeat' split
  all_goals simp

@[simp] theorem State.popWaits_mem (s : State) (m : PopMsg) (slot : Nat) : (s.popWaits m slot).mem = s.mem := by
  unfold State.popWaits
  split
  · exact State.within_mem (fun _ => by split <;> simp) ..
  split
  · exact State.within_mem (fun _ => by split <;> simp) ..
  split <;> simp

@[simp] theorem canonical_execPopReply (m : PopMsg) (ans : PopAnswer) (s : State) (hwf : s.mem.wf = true) : Canonical (execPopReply m ans s) := by
  unfold execPopReply
  dsimp only
  repeat' split
  all_goals simp [hwf, State.within_mem]

@[simp] theorem canonical_execPrefetch (tile wl : Nat) (s : State) (hwf : s.mem.wf = true) : Canonical (execPrefetch tile wl s) := by
  unfold execPrefetch
  repeat' split
  all_goals simp [hwf]

@[simp] theorem State.tellWls_mem (s : State) : s.tellWls.mem = s.mem := by
  unfold State.tellWls
  refine foldl_mem (fun _ _ => ?_) ..
  dsimp only
  split
  · rfl
  split
  · split
    · rfl
    · rw [foldl_mem (fun _ _ => by simp), State.updWl_mem]
  · split <;> simp

@[simp] theorem State.takeNews_mem (s : State) (pkg wl : Nat) (n : WlNews) : (s.takeNews pkg wl n).mem = s.mem := by
  unfold State.takeNews
  dsimp only
  repeat' split
  all_goals simp

@[simp] theorem State.fanPull_mem (s : State) (wl : Nat) (kn : Option Nat) (m v : Nat) : (s.fanPull wl kn m v).mem = s.mem := by
  unfold State.fanPull
  split
  · rfl
  dsimp only
  split
  · simp
  · rw [foldl_mem (fun _ _ => by simp), State.updWl_mem]

@[simp] theorem State.heard_mem (s : State) (wl : Nat) (serves : Bool) (front present : Nat) : (s.heard wl serves front present).mem = s.mem := by
  unfold State.heard
  repeat' split
  all_goals simp

/-! ### The creation of launches -/

@[simp] theorem State.mayCreate_mem (s : State) (by_ : Nat) (b : List Byte) (entries : List W64) (pkgs : List Nat) (owned : Bool) :
    (s.mayCreate by_ b entries pkgs owned).2.mem = s.mem := by
  have hposted (s : State) (l : List Nat) (wl : Nat) (asid : BitVec 14) (lid : W32) (m : WlMsg) :
      (l.foldl (fun s p => s.postWl p wl asid lid m) s).mem = s.mem :=
    foldl_mem (fun _ _ => by simp) ..
  unfold State.mayCreate
  dsimp only
  repeat' split
  all_goals simp [hposted]

@[simp] theorem State.createLaunch_mem (s : State) (b : List Byte) (hdrVa : Addr) (entries : List W64) (pkgs : List Nat) (creator : Option Nat)
    (regions : List (Nat × Nat)) : (s.createLaunch b hdrVa entries pkgs creator regions).2.mem = s.mem := by
  unfold State.createLaunch
  dsimp only
  split
  · rw [State.stopLaunch_mem, foldl_mem (fun _ _ => by simp), State.updPkg_mem]
  split
  · rw [State.wakeWaiting_mem, State.finishLaunch_mem, foldl_mem (fun _ _ => by simp), State.updPkg_mem]
  split
  · rw [State.after_mem, foldl_mem (fun _ _ => by simp), State.updPkg_mem]
  · rw [foldl_mem (fun _ _ => by simp), State.updPkg_mem]

@[simp] theorem State.asked_mem (s : State) (pkg wl : Nat) (asid : BitVec 14) (hdr : List Byte) (pkgs : List Nat) :
    (s.asked pkg wl asid hdr pkgs).mem = s.mem := by
  unfold State.asked
  dsimp only
  repeat' split
  all_goals simp

@[simp] theorem State.createdBy_mem (s : State) (pkg wl code : Nat) : (s.createdBy pkg wl code).mem = s.mem := rfl

@[simp] theorem State.begun_mem (s : State) (pkg wl : Nat) (id : W32) (hdrVa : Addr) (hdr : List Byte) (entries : List W64) (pkgs : List Nat) :
    (s.begun pkg wl id hdrVa hdr entries pkgs).mem = s.mem := rfl

@[simp] theorem State.countRange_mem (s : State) (l : Launch) (accepted : Bool) : (s.countRange l accepted).mem = s.mem := by
  unfold State.countRange
  repeat' split
  all_goals simp

@[simp] theorem State.pushRange_mem (s : State) (id : W32) : (s.pushRange id).mem = s.mem := by
  unfold State.pushRange
  dsimp only
  repeat' split
  all_goals simp

@[simp] theorem canonical_execLaunchStart (launch : W32) (s : State) (hwf : s.mem.wf = true) : Canonical (execLaunchStart launch s) := by
  unfold execLaunchStart
  repeat' split
  all_goals simp [hwf]

@[simp] theorem canonical_execCoschedAdmission (launch : W32) (s : State) (hwf : s.mem.wf = true) : Canonical (execCoschedAdmission launch s) := by
  unfold execCoschedAdmission
  split
  · exact hwf
  split
  · exact hwf
  dsimp only
  split
  · simp [hwf]
  · rw [canonical_next, State.after_mem, State.updLaunch_mem, foldl_mem (fun _ _ => by simp), foldl_mem (fun _ _ => by simp)]
    exact hwf

@[simp] theorem canonical_execWlwdogExpiry (wl : Nat) (s : State) (hwf : s.mem.wf = true) : Canonical (execWlwdogExpiry wl s) := by
  unfold execWlwdogExpiry
  dsimp only
  repeat' split
  all_goals simp [hwf]

/-! ### Worklist instructions -/

theorem canonical_awaitAll {s : State} (sc : Scope) {act : State → Act} (hwf : s.mem.wf = true) (hact : (act s).Canonical) :
    (awaitAll s sc act).Canonical := by
  unfold awaitAll
  split
  · exact hwf
  · exact canonical_awaitRelease _ _ hwf hact

@[simp] theorem State.countPush_mem (s : State) : s.countPush.mem = s.mem := by
  unfold State.countPush
  split <;> simp

@[simp] theorem canonical_execWlpsh (d a b : RegNo) (s : State) (hwf : s.mem.wf = true) : Canonical (execWlpsh d a b s) := by
  refine canonical_issue hwf fun s hwf => ?_
  dsimp only
  refine canonical_awaitAll _ hwf ?_
  repeat' split
  all_goals simp [hwf]

@[simp] theorem canonical_execPushAnswer (m : PushMsg) (status : Nat) (s : State) (hwf : s.mem.wf = true) :
    Canonical (execPushAnswer m status s) := by
  unfold execPushAnswer
  dsimp only
  repeat' split
  all_goals simp [hwf, State.within_mem, apply_ite State.mem]

@[simp] theorem canonical_execWlpop (d a : RegNo) (la : BitVec 4) (s : State) (hwf : s.mem.wf = true) : Canonical (execWlpop d a la s) := by
  refine canonical_issue hwf fun s hwf => ?_
  dsimp only
  repeat' split
  all_goals simp [hwf]

@[simp] theorem State.dropHeld_mem (s : State) (a : RegNo) : (s.dropHeld a).mem = s.mem := rfl

@[simp] theorem canonical_execWlack (a : RegNo) (s : State) (hwf : s.mem.wf = true) : Canonical (execWlack a s) := by
  refine canonical_issue hwf fun s hwf => ?_
  split <;> simp [hwf]

@[simp] theorem canonical_execWlret (a : RegNo) (s : State) (hwf : s.mem.wf = true) : Canonical (execWlret a s) := by
  refine canonical_issue hwf fun s hwf => ?_
  dsimp only
  split
  · split <;> simp [hwf]
  · refine canonical_awaitAll _ hwf ?_
    split <;> simp [hwf]

@[simp] theorem canonical_execWlsta (d a b : RegNo) (s : State) (hwf : s.mem.wf = true) : Canonical (execWlsta d a b s) := by
  refine canonical_issue hwf fun s hwf => ?_
  dsimp only
  repeat' split
  all_goals simp [hwf]

@[simp] theorem State.cfgPends_mem (s : State) (r : Req) : (s.cfgPends r).2.mem = s.mem := by
  unfold State.cfgPends
  split <;> simp

@[simp] theorem State.wf_cfgRead (s : State) (base : W64) (l : List (Nat × Nat)) (acc : List Byte) (hwf : s.mem.wf = true) :
    (s.cfgRead base l acc).2.mem.wf = true := by
  induction l generalizing s acc with
  | nil => exact hwf
  | cons p l ih =>
    unfold State.cfgRead
    dsimp only
    split
    · exact hwf
    · repeat' split
      all_goals simp [hwf, ih]
    · split
      case h_1 => exact ih _ _ (by simp [hwf, mem_of_eq ‹_ = (_, _)›])
      all_goals simp [hwf, mem_of_eq ‹_ = (_, _)›]

@[simp] theorem State.wf_cfgSpan (s : State) (p : W64) (n al : Nat) (hwf : s.mem.wf = true) : (s.cfgSpan p n al).2.mem.wf = true := by
  unfold State.cfgSpan
  repeat' split
  all_goals simp [hwf]

@[simp] theorem State.cfgEnd_mem (s : State) : s.cfgEnd.mem = s.mem := by
  unfold State.cfgEnd
  exact foldl_mem (fun _ _ => by simp) ..

/-- The mask of packages is read where the header names one. -/
theorem State.wf_maskSpan {s : State} (p : Nat) (hwf : s.mem.wf = true) :
    (if p = 0 then ((.ok [], s) : CfgRead × State) else s.cfgSpan (BitVec.ofNat 64 p) 32 8).2.mem.wf = true := by
  split <;> simp [hwf]

@[simp] theorem canonical_execWlcfg (d a : RegNo) (s : State) (hwf : s.mem.wf = true) : Canonical (execWlcfg d a s) := by
  refine canonical_issue hwf fun s hwf => ?_
  dsimp only
  split
  · trivial
  refine canonical_awaitAll _ hwf ?_
  split
  case h_1 => simp [hwf, mem_of_eq ‹_ = (_, _)›]
  case h_2 => simp [hwf, mem_of_eq ‹_ = (_, _)›]
  case h_3 hb _ heq =>
    have hheader := wf_of_eq heq (State.wf_cfgSpan _ _ _ _ hwf)
    split
    case h_1 heq => exact wf_of_eq heq (State.wf_maskSpan _ hheader)
    case h_2 heq => simpa using wf_of_eq heq (State.wf_maskSpan _ hheader)
    case h_3 heq =>
      have hmask := wf_of_eq heq (State.wf_maskSpan _ hheader)
      split
      case h_1 => simp [hmask, mem_of_eq ‹_ = (_, _)›]
      case h_2 => simp [hmask, mem_of_eq ‹_ = (_, _)›]
      case h_3 heq =>
        have hentries := wf_of_eq heq (State.wf_cfgSpan _ _ _ _ hmask)
        split <;> simp [hentries, mem_of_eq ‹_ = (_, _)›]

@[simp] theorem State.lanternStray_mem (s : State) (pkg wl : Nat) (asid : BitVec 14) (lid : W32) (m : WlMsg) :
    (s.lanternStray pkg wl asid lid m).mem = s.mem := by
  unfold State.lanternStray
  dsimp only
  repeat' split
  all_goals simp

@[simp] theorem State.lanternTaken_mem (s : State) (pkg wl : Nat) (w : WorkList) (m : WlMsg) : (s.lanternTaken pkg wl w m).mem = s.mem := by
  have hcut (s : State) (l : List Nat) (k : Option Nat) (c : CutVersion) :
      (l.foldl (fun s t => s.after 22 (.cut wl false (s.overPod t) k c)) s).mem = s.mem :=
    foldl_mem (fun _ _ => by simp) ..
  unfold State.lanternTaken
  dsimp only
  repeat' split
  all_goals simp [hcut]

@[simp] theorem State.lanternArrives_mem (s : State) (pkg wl : Nat) (asid : BitVec 14) (lid : W32) (m : WlMsg) :
    (s.lanternArrives pkg wl asid lid m).mem = s.mem := by
  unfold State.lanternArrives
  repeat' split
  all_goals simp

/-! ### Task instructions -/

@[simp] theorem canonical_execEndTask (s : State) (hwf : s.mem.wf = true) : Canonical (execEndTask s) := by
  refine canonical_issue hwf fun s hwf => ?_
  repeat' split
  all_goals simp [hwf]

@[simp] theorem State.countTrig_mem (s : State) : s.countTrig.mem = s.mem := by
  unfold State.countTrig
  split <;> simp

@[simp] theorem canonical_execTrig (s : State) (hwf : s.mem.wf = true) :
    Canonical (execTrig s) := canonical_issue hwf fun _ hwf => canonical_awaitRelease _ _ hwf (by simp [hwf])

@[simp] theorem canonical_execYield (s : State) (hwf : s.mem.wf = true) : Canonical (execYield s) := canonical_issue hwf fun _ hwf => by simp [hwf]

@[simp] theorem canonical_execUeret (s : State) (hwf : s.mem.wf = true) : Canonical (execUeret s) := by
  refine canonical_issue hwf fun s hwf => ?_
  split <;> simp [hwf]

@[simp] theorem State.userEvent_mem (s : State) : s.userEvent.mem = s.mem := by
  unfold State.userEvent
  repeat' split
  all_goals simp

@[simp] theorem canonical_execUserEventDelivery (slot : Nat) (s : State) (hwf : s.mem.wf = true) :
    Canonical (execUserEventDelivery slot s) := State.wf_within (fun _ hwf => by simp [hwf]) _ _ hwf

@[simp] theorem State.releaseAlign_mem (s : State) (tile : Nat) (pc : Addr) : (s.releaseAlign tile pc).mem = s.mem := by
  unfold State.releaseAlign
  exact foldl_mem (fun _ _ => by split <;> simp) ..

@[simp] theorem State.settleAlign_mem (s : State) (tile : Nat) : (s.settleAlign tile).mem = s.mem := by
  unfold State.settleAlign
  refine foldl_mem (fun _ _ => ?_) ..
  split
  · split <;> simp
  · rfl

@[simp] theorem canonical_execAlign (s : State) (hwf : s.mem.wf = true) : Canonical (execAlign s) := canonical_issue hwf fun _ hwf => by simp [hwf]

@[simp] theorem canonical_execAlignTimeout (core stamp : Nat) (s : State) (hwf : s.mem.wf = true) : Canonical (execAlignTimeout core stamp s) := by
  unfold execAlignTimeout
  repeat' split
  all_goals simp [hwf]

@[simp] theorem State.migrate_mem (s : State) (tile : Nat) : (s.migrate tile).mem = s.mem := by simp [State.migrate]

@[simp] theorem canonical_execMigr (a : RegNo) (s : State) (hwf : s.mem.wf = true) : Canonical (execMigr a s) := by
  refine canonical_issue hwf fun s hwf => ?_
  dsimp only
  repeat' split
  all_goals simp [hwf]

/-! ### CSRs -/

@[simp] theorem State.updU_mem (s : State) (f : UCsr → UCsr) : (s.updU f).mem = s.mem := rfl

@[simp] theorem State.updSc_mem (s : State) (f : SCsr → SCsr) : (s.updSc f).mem = s.mem := rfl

@[simp] theorem State.updMc_mem (s : State) (f : MCsr → MCsr) : (s.updMc f).mem = s.mem := rfl

@[simp] theorem State.timeColls_mem (s : State) : s.timeColls.mem = s.mem := by
  unfold State.timeColls
  repeat' split
  all_goals simp [foldl_mem]

@[simp] theorem State.csrWrite_mem (s : State) (n : Nat) (v : W64) : (s.csrWrite n v).mem = s.mem := by
  unfold State.csrWrite
  repeat' split
  all_goals simp

@[simp] theorem State.csrLand_mem (s : State) (slot n : Nat) (v : W64) : (s.csrLand slot n v).mem = s.mem := by
  unfold State.csrLand
  repeat' split
  all_goals simp [foldl_mem]

@[simp] theorem State.csrsLand_mem (s : State) : s.csrsLand.mem = s.mem := by
  unfold State.csrsLand
  exact foldl_mem (fun _ _ => by simp) ..

@[simp] theorem State.clearPend_mem (s : State) (v : W64) : (s.clearPend v).mem = s.mem := rfl

@[simp] theorem canonical_csrOp (i : Instr) (s : State) (d : RegNo) (csr : BitVec 12) (f : State → W64 → Option (W64 × W64)) (hwf : s.mem.wf = true) :
    Canonical (csrOp i s d csr f) := by
  rw [csrOp_eq]
  refine canonical_issue hwf fun s hwf => ?_
  unfold csrAct
  split
  · simp [hwf]
  split
  · trivial
  · simp [(csrWritten_frame _ _ _ _).1, hwf]

/-! ### Dispatch, refill and save -/

@[simp] theorem State.dispatchItem_mem (s : State) (slot wl : Nat) (q : QItem) (l : Launch) :
    (s.dispatchItem slot wl q l).mem = s.mem := by simp [State.dispatchItem]

@[simp] theorem State.releaseSleep_mem (s : State) (r : SaveRec) : (s.releaseSleep r).mem = s.mem := by
  unfold State.releaseSleep
  repeat' split
  all_goals simp [foldl_mem]

@[simp] theorem State.refillInto_mem (s : State) (slot : Nat) (r : SaveRec) (l : Launch) : (s.refillInto slot r l).mem = s.mem := by
  unfold State.refillInto
  dsimp only
  rw [State.within_mem (fun _ => by simp)]
  simp

theorem State.mem_of_fillSlot {s t : State} {tile : Nat} {slotFor : Launch → Option Nat} {saved items : Bool}
    (h : s.fillSlot tile slotFor saved items = some t) : t.mem = s.mem := by
  have hfetch (s : State) (l : List Nat) (w : Nat) :
      (l.foldl (fun s t => s.afterOnce 1 (.prefetch t w)) s).mem = s.mem := foldl_mem (fun _ _ => by simp) ..
  unfold State.fillSlot at h
  dsimp only at h
  repeat' split at h
  all_goals simp_all
  all_goals simp [← h, hfetch]

@[simp] theorem State.preempt_mem (s : State) (tile : Nat) : (s.preempt tile).mem = s.mem := by
  unfold State.preempt
  split <;> simp

@[simp] theorem canonical_execDispatch (slot : Nat) (s : State) (hwf : s.mem.wf = true) : Canonical (execDispatch slot s) := by
  unfold execDispatch
  dsimp only
  split
  · simp [hwf, State.mem_of_fillSlot ‹_›]
  · simp [hwf]

theorem State.fillSlot_getD_mem (s : State) (tile : Nat) (f : Launch → Option Nat) (saved items : Bool) :
    ((s.fillSlot tile f saved items).getD s).mem = s.mem := by
  cases h : s.fillSlot tile f saved items with
  | none => rfl
  | some t => exact State.mem_of_fillSlot h

@[simp] theorem canonical_execRefill (slot : Nat) (s : State) (hwf : s.mem.wf = true) : Canonical (execRefill slot s) := by
  simp [execRefill, State.fillSlot_getD_mem, hwf]

@[simp] theorem canonical_execMigrationArrival (tid : W64) (tile : Nat) (s : State) (hwf : s.mem.wf = true) :
    Canonical (execMigrationArrival tid tile s) := by
  simp [execMigrationArrival, State.fillSlot_getD_mem, hwf]

@[simp] theorem State.withdrawWaits_mem (s : State) : s.withdrawWaits.mem = s.mem := by
  unfold State.withdrawWaits
  dsimp only
  split <;> simp

@[simp] theorem State.startSave_mem (s : State) : s.startSave.mem = s.mem := by
  unfold State.startSave
  split <;> simp

@[simp] theorem canonical_execEviction (slot : Nat) (s : State) (hwf : s.mem.wf = true) : Canonical (execEviction slot s) := by
  unfold execEviction
  dsimp only
  simp [hwf, State.within_mem, apply_ite State.mem]

@[simp] theorem canonical_execSaveComplete (slot : Nat) (s : State) (hwf : s.mem.wf = true) : Canonical (execSaveComplete slot s) := by
  unfold execSaveComplete
  dsimp only
  split <;> simp [hwf]

/-! ### Privileged instructions -/

@[simp] theorem canonical_execEret (s : State) (hwf : s.mem.wf = true) : Canonical (execEret s) := canonical_issue hwf fun _ hwf => by simp [hwf]

@[simp] theorem canonical_execSpill (a : RegNo) (s : State) (hwf : s.mem.wf = true) : Canonical (execSpill a s) := by
  refine canonical_issue hwf fun s hwf => ?_
  dsimp only
  repeat' split
  all_goals simp [hwf]

@[simp] theorem canonical_execFill (a : RegNo) (s : State) (hwf : s.mem.wf = true) : Canonical (execFill a s) := by
  refine canonical_issue hwf fun s hwf => ?_
  split <;> simp [State.fillSlot_getD_mem, hwf]

@[simp] theorem canonical_execWake (a : RegNo) (s : State) (hwf : s.mem.wf = true) : Canonical (execWake a s) := by
  refine canonical_issue hwf fun s hwf => ?_
  dsimp only
  split <;> simp [hwf]

@[simp] theorem State.startTlbi_mem (s : State) (tile : Nat) (op : TlbiOp) : (s.startTlbi tile op).mem = s.mem := by
  unfold State.startTlbi
  exact foldl_mem (fun _ _ => by simp) ..

@[simp] theorem State.sendTlbi_mem (s : State) (tile slot : Nat) (ctx : W32) (kind : Nat) (asid : BitVec 14) (first count : Nat) (cmd : Option Cmd)
    (ptes : List Nat) : (s.sendTlbi tile slot ctx kind asid first count cmd ptes).mem = s.mem := by
  unfold State.sendTlbi
  dsimp only
  exact (foldl_mem (fun _ _ => by simp) ..).trans (by simp)

@[simp] theorem canonical_tlbiAct (i : Instr) (kind : Nat) (asid : BitVec 14) (first count : Nat) (s : State) (hwf : s.mem.wf = true) :
    (tlbiAct i kind asid first count s).Canonical := by
  unfold tlbiAct
  repeat' split
  all_goals simp [hwf]

@[simp] theorem canonical_execTlbiRange (a b : RegNo) (s : State) (hwf : s.mem.wf = true) :
    Canonical (execTlbiRange a b s) := canonical_issue hwf fun _ hwf => by simp [hwf]

@[simp] theorem canonical_execTlbiAsid (a : RegNo) (s : State) (hwf : s.mem.wf = true) :
    Canonical (execTlbiAsid a s) := canonical_issue hwf fun _ hwf => by simp [hwf]

@[simp] theorem canonical_execTlbiAll (s : State) (hwf : s.mem.wf = true) :
    Canonical (execTlbiAll s) := canonical_issue hwf fun _ hwf => by simp [hwf]

@[simp] theorem canonical_execIflush (s : State) (hwf : s.mem.wf = true) : Canonical (execIflush s) := by
  refine canonical_issue hwf fun s hwf => ?_
  split <;> simp [hwf]

@[simp] theorem canonical_execHalt (s : State) (hwf : s.mem.wf = true) : Canonical (execHalt s) := by
  refine canonical_issue hwf fun s hwf => ?_
  split <;> simp [hwf]

@[simp] theorem canonical_execMspill (d : PredNo) (a : RegNo) (s : State) (hwf : s.mem.wf = true) : Canonical (execMspill d a s) := by
  refine canonical_issue hwf fun s hwf => ?_
  split <;> simp [hwf]

@[simp] theorem canonical_execMfill (d : PredNo) (a : RegNo) (s : State) (hwf : s.mem.wf = true) : Canonical (execMfill d a s) := by
  refine canonical_issue hwf fun s hwf => ?_
  dsimp only
  repeat' split
  all_goals simp [hwf]

@[simp] theorem canonical_execTrap (c : BitVec 15) (s : State) (hwf : s.mem.wf = true) :
    Canonical (execTrap c s) := canonical_issue hwf fun _ hwf => by simp

@[simp] theorem canonical_execBrk (c : BitVec 15) (s : State) (hwf : s.mem.wf = true) :
    Canonical (execBrk c s) := canonical_issue hwf fun _ hwf => by simp

/-! ### Piste turns -/

@[simp] theorem State.setTurn_mem (s : State) (id : W32) (st : Nat) : (s.setTurn id st).mem = s.mem := by simp [State.setTurn]

@[simp] theorem State.passTurn_mem (s : State) (l : Launch) (n : Nat) : (s.passTurn l n).mem = s.mem := by simp [State.passTurn]

@[simp] theorem State.wf_chunkSpots (l : List (Nat × Nat)) (s : State) (hwf : s.mem.wf = true) : (State.chunkSpots l s).2.mem.wf = true := by
  induction l generalizing s with
  | nil => exact hwf
  | cons k l ih =>
    unfold State.chunkSpots
    split
    · have hspot := (congrArg Memory.wf (mem_of_eq ‹_ = (_, _)›)).trans (State.wf_commitSpot _ _ _ _ hwf)
      have hrest := ih _ hspot
      split <;> simp_all
    · simp [hwf, mem_of_eq ‹_ = (_, _)›]

@[simp] theorem State.sendUpdate_mem (s : State) (u : AmoOp × Nat × W64 × W64) : (s.sendUpdate u).mem = s.mem := by
  simp [State.sendUpdate]

@[simp] theorem State.wf_chunkCommit (s : State) (id : W32) (hwf : s.mem.wf = true) : (s.chunkCommit id).mem.wf = true := by
  unfold State.chunkCommit
  split
  · simp [hwf, mem_of_eq ‹_ = (_, _)›]
  · have hspots := (congrArg Memory.wf (mem_of_eq ‹_ = (_, _)›)).trans (State.wf_chunkSpots _ _ hwf)
    dsimp only
    rw [State.setTurn_mem, State.updCur_mem, State.releaseWatch_mem, State.dropBuf_mem]
    exact foldl_wf (fun _ _ hwf => by simp [hwf]) _ _ hspots

@[simp] theorem State.wf_endTurn (s : State) (l : Launch) (n : Nat) (hwf : s.mem.wf = true) :
    (s.endTurn l n).mem.wf = true := by simp [State.endTurn, hwf]

@[simp] theorem State.wf_sleepTurn (s : State) (l : Launch) (n : Nat) (hwf : s.mem.wf = true) : (s.sleepTurn l n).mem.wf = true := by
  unfold State.sleepTurn
  dsimp only
  repeat' split
  all_goals simp [hwf]

@[simp] theorem State.wf_readyTurn (s : State) (l : Launch) (n : Nat) (hwf : s.mem.wf = true) : (s.readyTurn l n).mem.wf = true := by
  unfold State.readyTurn
  dsimp only
  repeat' split
  all_goals simp [hwf]

@[simp] theorem State.wf_dealTurn (s : State) (slot : Nat) (l : Launch) (n : Nat) (hwf : s.mem.wf = true) : (s.dealTurn slot l n).mem.wf = true := by
  unfold State.dealTurn
  dsimp only
  repeat' split
  all_goals simp [hwf]

@[simp] theorem State.wf_turn (s : State) (l : Launch) (slot n : Nat) (hwf : s.mem.wf = true) : (s.turn l slot n).mem.wf = true := by
  unfold State.turn
  dsimp only
  split
  · simp [hwf]
  split
  · simp [hwf]
  split
  · split
    · exact State.wf_within (fun _ h => by simp [h]) _ _ hwf
    · simp [hwf]
  · exact State.wf_within (fun _ h => by simp [h]) _ _ hwf
  · simp [hwf]

@[simp] theorem canonical_execChunkTurn (launch : W32) (s : State) (hwf : s.mem.wf = true) : Canonical (execChunkTurn launch s) := by
  unfold execChunkTurn
  repeat' split
  all_goals simp [hwf]

end Sys2Proof.Machine
end


section
/-! SUPPORT. What the operations of the model leave in memory: the same bytes, or the canonical form. Ports, host commands, boot and memory
instructions. -/

namespace Sys2Proof.Machine

/-! ### Events of memory -/

@[simp] theorem State.wf_wakeRuns (s : State) (wl : Nat) (hit : Nat → Bool) (maps : Bool) (hwf : s.mem.wf = true) :
    (s.wakeRuns wl hit maps).mem.wf = true := by
  unfold State.wakeRuns
  split
  · exact hwf
  · refine foldl_wf (fun _ _ hwf => ?_) _ _ hwf
    dsimp only
    split
    · simp [hwf]
    split
    · split <;> simp [hwf, mem_of_eq ‹_ = (_, _)›]
    · simp [hwf]

@[simp] theorem State.answerFaults_mem (s : State) (hit : BitVec 14 → Nat → Bool) (maps : Bool) : (s.answerFaults hit maps).mem = s.mem := by
  unfold State.answerFaults
  exact foldl_mem (fun _ _ => by simp) ..

@[simp] theorem State.wakeUnits_mem (s : State) (hit : BitVec 14 → Nat → Bool) (maps : Bool) : (s.wakeUnits hit maps).mem = s.mem := by
  unfold State.wakeUnits
  dsimp only
  refine (foldl_mem (fun _ _ => ?_) ..).trans ((foldl_mem (fun _ _ => ?_) ..).trans ((foldl_mem (fun _ _ => ?_) ..).trans (State.updNet_mem ..)))
  · split
    · split <;> simp
    · rfl
  · split
    · split <;> simp
    · rfl
  · simp

@[simp] theorem State.wf_wakePages (s : State) (hit : BitVec 14 → Nat → Bool) (maps : Bool) (code : Nat) (hwf : s.mem.wf = true) :
    (s.wakePages hit maps code).mem.wf = true := by
  unfold State.wakePages
  dsimp only
  rw [State.wakeUnits_mem]
  refine foldl_wf (fun _ _ hwf => by simp [hwf]) _ _ ?_
  rw [foldl_mem (fun _ _ => by simp), foldl_mem (fun _ _ => by simp)]
  simp [hwf]

@[simp] theorem canonical_execPageWake (home : Nat) (asid : BitVec 14) (vpn : Nat) (maps : Bool) (s : State) (hwf : s.mem.wf = true) :
    Canonical (execPageWake home asid vpn maps s) := by
  unfold execPageWake
  dsimp only
  repeat' split
  all_goals simp [hwf, foldl_mem]

@[simp] theorem canonical_execTlbiAtHome (home id : Nat) (s : State) (hwf : s.mem.wf = true) : Canonical (execTlbiAtHome home id s) := by
  unfold execTlbiAtHome
  dsimp only
  repeat' split
  all_goals simp [hwf]

@[simp] theorem State.wf_zeroFrame (s : State) (home f : Nat) (hwf : s.mem.wf = true) :
    (s.zeroFrame home f).mem.wf = true := by simp [State.zeroFrame, hwf]

@[simp] theorem canonical_execZeroingStep (home : Nat) (s : State) (hwf : s.mem.wf = true) : Canonical (execZeroingStep home s) := by
  unfold execZeroingStep
  dsimp only
  repeat' split
  all_goals simp [hwf]

@[simp] theorem canonical_execSweeperStep (home : Nat) (s : State) (hwf : s.mem.wf = true) : Canonical (execSweeperStep home s) := by
  unfold execSweeperStep
  dsimp only
  repeat' split
  all_goals simp [hwf]

@[simp] theorem canonical_execThrottleStep (watts celsius : Nat) (s : State) (hwf : s.mem.wf = true) :
    Canonical (execThrottleStep watts celsius s) := by
  unfold execThrottleStep
  dsimp only
  repeat' split
  all_goals simp [hwf]

@[simp] theorem State.retireFunction_mem (s : State) (bit : Nat) : (s.retireFunction bit).mem = s.mem := rfl

@[simp] theorem State.resendAll_mem (s : State) (port : Nat) : (s.resendAll port).mem = s.mem := by
  unfold State.resendAll
  exact foldl_mem (fun _ _ => by simp) ..

@[simp] theorem State.retireSrc_mem (s : State) (e : ErrSrc) : (s.retireSrc e).mem = s.mem := by
  have hfreeze (s : State) (l : List Nat) : (l.foldl (fun s key => s.freeze key .faulted 1) s).mem = s.mem := foldl_mem (fun _ _ => by simp) ..
  cases e
  case hbmLine =>
    simp only [State.retireSrc]
    repeat' split
    all_goals simp
  all_goals simp [State.retireSrc, hfreeze]

@[simp] theorem canonical_execErrorEvent (src : ErrSrc) (poisons : Bool) (s : State) (hwf : s.mem.wf = true) :
    Canonical (execErrorEvent src poisons s) := by
  unfold execErrorEvent
  dsimp only
  repeat' split
  all_goals simp [hwf]

/-! ### Ports and other packages -/

@[simp] theorem State.podLines_mem (s : State) (p : PodReq) (k : ReqKind) (op : Nat) (l : List (Nat × Nat)) (lane : Nat) :
    (s.podLines p k op l lane).mem = s.mem := by
  induction l generalizing s lane with
  | nil => rfl
  | cons e l ih => exact (ih _ _).trans (by simp)

@[simp] theorem State.podAdmit_mem (s : State) (p : PodReq) (k : ReqKind) : (s.podAdmit p k).mem = s.mem := by
  unfold State.podAdmit
  dsimp only
  repeat' split
  all_goals simp

@[simp] theorem State.takeMsg_mem (s : State) (p : PodReq) (x0 : PodMsg) : (s.takeMsg p x0).mem = s.mem := by
  unfold State.takeMsg
  split <;> simp

@[simp] theorem canonical_execPodRequest (port : Nat) (r : PodReq) (s : State) (hwf : s.mem.wf = true) : Canonical (execPodRequest port r s) := by
  unfold execPodRequest
  repeat' split
  all_goals simp [hwf]

@[simp] theorem canonical_execBusyResend (req : Nat) (s : State) (hwf : s.mem.wf = true) : Canonical (execBusyResend req s) := by
  unfold execBusyResend
  repeat' split
  all_goals simp [hwf]

@[simp] theorem State.loseWatchers_mem (s : State) (pkg : Nat) : (s.loseWatchers pkg).mem = s.mem := by
  unfold State.loseWatchers
  exact foldl_mem (fun _ _ => by simp) ..

@[simp] theorem State.losePackage_mem (s : State) (pkg : Nat) : (s.losePackage pkg).mem = s.mem := by
  unfold State.losePackage
  dsimp only
  rw [foldl_mem (fun _ _ => by (repeat' split) <;> simp)]
  simp

@[simp] theorem canonical_execPodRequestTimeout (req : Nat) (s : State) (hwf : s.mem.wf = true) : Canonical (execPodRequestTimeout req s) := by
  unfold execPodRequestTimeout
  dsimp only
  repeat' split
  all_goals simp [hwf, State.within_mem, apply_ite State.mem]

@[simp] theorem canonical_execPackageLeavesPod (pkg : Nat) (s : State) (hwf : s.mem.wf = true) :
    Canonical (execPackageLeavesPod pkg s) := by simp [execPackageLeavesPod, hwf]

/-! ### Rings and records -/

@[simp] theorem State.wf_physWrite (s : State) (pa : Nat) (b : List Byte) (hwf : s.mem.wf = true) : (s.physWrite pa b).mem.wf = true := by
  unfold State.physWrite
  exact foldl_wf (fun _ _ hwf => by simp [hwf]) _ _ hwf

@[simp] theorem State.countPort_mem (s : State) (port : Nat) (f : PortStat → PortStat) : (s.countPort port f).mem = s.mem := rfl

@[simp] theorem State.sendRma_mem (s : State) (addr : W64) (key : W32) (b : List Byte) (why : RmaWhy) : (s.sendRma addr key b why).mem = s.mem := rfl

@[simp] theorem canonical_execRmaWrite (port pa : Nat) (bytes : List Byte) (s : State) (hwf : s.mem.wf = true) :
    Canonical (execRmaWrite port pa bytes s) := by
  unfold execRmaWrite
  repeat' split
  all_goals simp [hwf]

@[simp] theorem State.setRing_mem (s : State) (n : Nat) (r : Ring) : (s.setRing n r).mem = s.mem := rfl

@[simp] theorem State.sendCqe_mem (s : State) (n : Nat) (r : Ring) (seq : W32) (code sub : Nat) (htag value : W64) :
    (s.sendCqe n r seq code sub htag value).mem = s.mem := rfl

@[simp] theorem State.serveRing_mem (s : State) (n : Nat) (delay : Nat) : (s.serveRing n delay).mem = s.mem := by
  unfold State.serveRing
  repeat' split
  all_goals simp

@[simp] theorem State.finishCmd_mem (s : State) (c : Cmd) (code sub : Nat) (value : W64) : (s.finishCmd c code sub value).mem = s.mem := by
  unfold State.finishCmd
  split <;> simp

@[simp] theorem State.wf_runRecord (s : State) (n : Nat) (r : Ring) (c : Cmd) (hwf : s.mem.wf = true) : (s.runRecord n r c).mem.wf = true := by
  unfold State.runRecord
  split <;> simp [hwf]

@[simp] theorem State.readRecord_again_mem (n : Nat) (r : Ring) (s : State) : (State.readRecord.again n r s).mem = s.mem := by
  unfold State.readRecord.again
  split <;> simp

@[simp] theorem State.wf_readRecord (s : State) (n : Nat) (r : Ring) (hwf : s.mem.wf = true) : (s.readRecord n r).mem.wf = true := by
  unfold State.readRecord
  dsimp only
  split
  · split <;> simp [hwf]
  · simp [hwf]

@[simp] theorem canonical_execKickReread (ring : Nat) (s : State) (hwf : s.mem.wf = true) : Canonical (execKickReread ring s) := by
  unfold execKickReread
  repeat' split
  all_goals simp [hwf]

@[simp] theorem canonical_execKick (port : Nat) (src : W64) (msg : BitVec 128) (s : State) (hwf : s.mem.wf = true) :
    Canonical (execKick port src msg s) := by
  unfold execKick
  dsimp only
  repeat' split
  all_goals simp [hwf]

@[simp] theorem State.unitEnd_mem (s : State) (lane : Nat) (asid : BitVec 14) : (s.unitEnd lane asid).mem = s.mem := by
  unfold State.unitEnd
  exact foldl_mem (fun _ _ => by simp) ..

@[simp] theorem State.unitAsk_mem (s : State) (lane : Nat) (asid : BitVec 14) (kind : ReqKind) (va n pkg a : Nat) (data : List Byte) :
    (s.unitAsk lane asid kind va n pkg a data).2.mem = s.mem := by
  unfold State.unitAsk
  dsimp only
  repeat' split
  all_goals simp

@[simp] theorem State.wf_unitRead (s : State) (lane : Nat) (asid : BitVec 14) (l : List (Nat × Nat)) (acc : List Byte) (hwf : s.mem.wf = true) :
    (s.unitRead lane asid l acc).2.mem.wf = true := by
  induction l generalizing s acc with
  | nil => exact hwf
  | cons p l ih =>
    have hone : (match s.classify (s.podTile asid) asid .s p.1 with
        | .pod pkg a => s.unitAsk lane asid .load p.1 p.2 pkg a []
        | _ => s.vread1 (s.podTile asid) asid p.1 p.2).2.mem.wf = true := by
      split <;> simp [hwf]
    unfold State.unitRead
    split
    · exact ih _ _ ((congrArg Memory.wf (mem_of_eq ‹_ = (_, _)›)).trans hone)
    · exact hone

@[simp] theorem State.wf_unitWrite (s : State) (lane : Nat) (asid : BitVec 14) (l : List (Nat × Nat)) (data : List Byte) (k : Nat)
    (hwf : s.mem.wf = true) : (s.unitWrite lane asid l data k).2.mem.wf = true := by
  induction l generalizing s data k with
  | nil => exact hwf
  | cons p l ih =>
    unfold State.unitWrite
    split
    · split
      case h_1 => exact ih _ _ _ (by simp [hwf, mem_of_eq ‹_ = (_, _)›])
      all_goals simp [hwf, mem_of_eq ‹_ = (_, _)›]
    · split
      case h_1 => exact ih _ _ _ (by simp [hwf, mem_of_eq ‹_ = (_, _)›])
      all_goals simp [hwf, mem_of_eq ‹_ = (_, _)›]

@[simp] theorem State.unitFault_mem (s : State) (home : Nat) (asid : BitVec 14) (page : Nat) (write : Bool) :
    (s.unitFault home asid page write).mem = s.mem := by
  unfold State.unitFault
  split <;> rfl

/-- Every state that a command's result goes on with has its memory in canonical form. -/
def CmdRes.Canonical : CmdRes → Prop
  | .done s _ _ _ | .park s _ _ _ | .wait s _ | .later s => s.mem.wf = true

section
variable (s : State)

@[simp] theorem CmdRes.canonical_done (c k : Nat) (v : W64) : (CmdRes.done s c k v).Canonical ↔ s.mem.wf = true := .rfl
@[simp] theorem CmdRes.canonical_park (h a p : Nat) : (CmdRes.park s h a p).Canonical ↔ s.mem.wf = true := .rfl
@[simp] theorem CmdRes.canonical_wait (d : Nat) : (CmdRes.wait s d).Canonical ↔ s.mem.wf = true := .rfl
@[simp] theorem CmdRes.canonical_later : (CmdRes.later s).Canonical ↔ s.mem.wf = true := .rfl

end

theorem State.wf_conclude_ {s : State} (c : Cmd) (e : Event) {r : CmdRes} (hwf : s.mem.wf = true) (hr : r.Canonical) :
    (s.conclude_ c e r).mem.wf = true := by
  cases r
  case park =>
    simp only [State.conclude_]
    split <;> simp_all
  all_goals simp_all [State.conclude_]

theorem canonical_hostCmd {c : Cmd} {e : Event} {s : State} {ok ring0 asid : Bool} {body : State → CmdRes} (hwf : s.mem.wf = true)
    (hbody : (body s).Canonical) : Canonical (hostCmd c e s ok ring0 asid body) := by
  unfold hostCmd
  repeat' split
  all_goals simp [hwf, State.wf_conclude_, hbody]

@[simp] theorem canonical_cmdFault (s : State) (cause : Nat) (hwf : s.mem.wf = true) : (cmdFault s cause).Canonical := hwf

/-! ### Host commands -/

@[simp] theorem canonical_execRingOpen (c : Cmd) (s : State) (hwf : s.mem.wf = true) : Canonical (execRingOpen c s) := by
  unfold execRingOpen
  exact canonical_hostCmd hwf (by simp [hwf])

@[simp] theorem canonical_execRingClose (c : Cmd) (s : State) (hwf : s.mem.wf = true) : Canonical (execRingClose c s) := by
  refine canonical_hostCmd hwf ?_
  dsimp only
  repeat' split
  all_goals simp [hwf]

theorem State.canonical_withSstate {s : State} {pa : Nat} {f : SState → CmdRes} (hwf : s.mem.wf = true) (hf : ∀ x, (f x).Canonical) :
    (s.withSstate pa f).Canonical := by
  unfold State.withSstate
  split
  · split
    · exact hf _
    · exact hwf
  all_goals simp [hwf]

@[simp] theorem canonical_execCtxCreate (c : Cmd) (s : State) (hwf : s.mem.wf = true) : Canonical (execCtxCreate c s) := by
  unfold execCtxCreate
  refine canonical_hostCmd hwf ?_
  dsimp only
  split
  · exact hwf
  split
  · exact hwf
  split
  · exact hwf
  split
  · exact hwf
  refine State.canonical_withSstate hwf fun x => ?_
  rw [CmdRes.canonical_done, State.updPkg_mem, foldl_mem (fun _ _ => by simp)]
  exact hwf

@[simp] theorem canonical_execCtxSstate (c : Cmd) (s : State) (hwf : s.mem.wf = true) :
    Canonical (execCtxSstate c s) := canonical_hostCmd hwf (State.canonical_withSstate hwf fun _ => by simp [hwf])

@[simp] theorem canonical_execCtxDestroy (c : Cmd) (s : State) (hwf : s.mem.wf = true) : Canonical (execCtxDestroy c s) := by
  have hfreeze (s : State) (l : List Nat) : (l.foldl (fun s key => s.freeze key .cancelled 7) s).mem = s.mem := foldl_mem (fun _ _ => by simp) ..
  refine canonical_hostCmd hwf ?_
  dsimp only
  repeat' split
  all_goals simp [hwf, hfreeze]

@[simp] theorem State.destroyed_mem (s : State) (c : Cmd) : (s.destroyed c).mem = s.mem := by
  unfold State.destroyed
  dsimp only
  split <;> simp

@[simp] theorem State.wf_scrubTile (s : State) (t : Nat) (hwf : s.mem.wf = true) : (s.scrubTile t).mem.wf = true := by
  unfold State.scrubTile
  dsimp only
  refine foldl_wf (fun _ _ hwf => by simp [hwf]) _ _ ?_
  rw [foldl_mem (fun _ _ => by simp)]
  simp [hwf]

@[simp] theorem canonical_execScrubComplete (asid : BitVec 14) (s : State) (hwf : s.mem.wf = true) : Canonical (execScrubComplete asid s) := by
  have hscrub (l : List Nat) (p : Window → Bool) : (l.foldl (fun s t => (s.scrubTile t).updTile t fun x =>
      { x with windows := x.windows.filter p }) s).mem.wf = true := foldl_wf (fun _ _ hwf => by simp [hwf]) _ _ hwf
  unfold execScrubComplete
  dsimp only
  rw [canonical_next]
  split
  · rw [State.finishCmd_mem, State.updCtx_mem]
    exact hscrub ..
  · exact hscrub ..

@[simp] theorem canonical_execKeySet (c : Cmd) (s : State) (hwf : s.mem.wf = true) : Canonical (execKeySet c s) := by
  refine canonical_hostCmd hwf ?_
  repeat' split
  all_goals simp [hwf]

theorem State.wf_of_placeTable {s t : State} {asid : BitVec 14} {va entry : Nat} (hwf : s.mem.wf = true) (h : s.placeTable asid va entry = some t) :
    t.mem.wf = true := by
  unfold State.placeTable at h
  dsimp only at h
  split at h
  · simp at h
  · split at h <;> simp [← Option.some.inj h, hwf]

theorem State.canonical_tableAt {s : State} {asid : BitVec 14} {va entry : Nat} {full : State → CmdRes} {k : State → Nat → CmdRes}
    (hwf : s.mem.wf = true) (hfull : (full s).Canonical) (hk : ∀ (s : State) n, s.mem.wf = true → (k s n).Canonical) :
    (s.tableAt asid va entry full k).Canonical := by
  unfold State.tableAt
  split
  case h_5 =>
    split
    · split
      · simp [hwf]
      · exact hk _ _ hwf
    · split
      · exact hfull
      · exact hk _ _ (State.wf_of_placeTable hwf ‹_›)
  all_goals simp [hwf]

@[simp] theorem State.pinLarge_mem (s : State) (asid : BitVec 14) (a pte : Nat) : (s.pinLarge asid a pte).mem = s.mem := by
  refine foldl_mem (fun _ _ => ?_) ..
  dsimp only
  rw [foldl_mem (fun _ _ => by simp), State.updHome_mem]

@[simp] theorem State.canonical_mapPages (c : Cmd) (large : Bool) (va n i : Nat) (s : State) (hwf : s.mem.wf = true) :
    (State.mapPages c large va n i s).Canonical := by
  induction n generalizing i s with
  | zero => exact hwf
  | succ n ih =>
    unfold State.mapPages
    refine State.canonical_tableAt hwf hwf fun s t2 hwf => ?_
    dsimp only
    split
    · split
      · exact ih _ _ (by simp [*])
      all_goals simp [hwf]
    · refine State.canonical_tableAt hwf hwf fun s t3 hwf => ?_
      split
      · exact ih _ _ (by simp [*])
      all_goals simp [hwf]

@[simp] theorem canonical_execMap (c : Cmd) (s : State) (hwf : s.mem.wf = true) : Canonical (execMap c s) := by
  unfold execMap
  refine canonical_hostCmd hwf ?_
  dsimp only
  repeat' split
  all_goals simp [hwf]

@[simp] theorem canonical_execUnmap (c : Cmd) (s : State) (hwf : s.mem.wf = true) : Canonical (execUnmap c s) := by
  unfold execUnmap
  refine canonical_hostCmd hwf ?_
  dsimp only
  split
  · exact hwf
  split
  case h_5 =>
    rw [CmdRes.canonical_later, State.sendTlbi_mem]
    exact foldl_wf (fun _ _ hwf => by simp [hwf]) _ _ hwf
  all_goals simp [hwf]

@[simp] theorem canonical_execTlbiAck (id : Nat) (s : State) (hwf : s.mem.wf = true) : Canonical (execTlbiAck id s) := by
  unfold execTlbiAck
  dsimp only
  repeat' split
  all_goals simp [hwf, State.within_mem, apply_ite State.mem]

theorem State.canonical_cpRead {s : State} {ring : Nat} {asid : BitVec 14} {va n al : Nat} {k : List Byte → State → CmdRes} (hwf : s.mem.wf = true)
    (hk : ∀ b (s : State), s.mem.wf = true → (k b s).Canonical) : (s.cpRead ring asid va n al k).Canonical := by
  unfold State.cpRead
  split
  · exact hwf
  split
  · exact hwf
  split
  case h_1 => exact hk _ _ (by simp [hwf, mem_of_eq ‹_ = (_, _)›])
  all_goals simp [hwf, mem_of_eq ‹_ = (_, _)›]

@[simp] theorem canonical_execCopyIn (c : Cmd) (s : State) (hwf : s.mem.wf = true) : Canonical (execCopyIn c s) := by
  refine canonical_hostCmd hwf ?_
  dsimp only
  repeat' split
  all_goals simp [hwf]

@[simp] theorem canonical_execCopyOut (c : Cmd) (s : State) (hwf : s.mem.wf = true) : Canonical (execCopyOut c s) := by
  refine canonical_hostCmd hwf (State.canonical_cpRead hwf fun b s hwf => ?_)
  split
  · exact hwf
  · refine (congrArg Memory.wf (foldl_keeps (R := fun (a b : Nat × State) => b.2.mem = a.2.mem) (fun _ => rfl) (fun hab hbc => hbc.trans hab) ?_
      (messages ((c.arg 1).toNat / 4194304 + 1) b) (0, s))).trans hwf
    exact fun _ _ => by simp

theorem CmdRes.canonical_badList {r : CmdRes} (hr : r.Canonical) : r.badList.Canonical := by
  unfold CmdRes.badList
  split <;> exact hr

@[simp] theorem canonical_execLaunch (c : Cmd) (s : State) (hwf : s.mem.wf = true) : Canonical (execLaunch c s) := by
  refine canonical_hostCmd hwf (State.canonical_cpRead hwf fun hb s hwf => ?_)
  extract_lets h mask
  have hmask {k : List Byte → State → CmdRes} (hk : ∀ b (s : State), s.mem.wf = true → (k b s).Canonical) : (mask k).Canonical := by
    unfold mask
    split
    · exact hk _ _ hwf
    · exact State.canonical_cpRead hwf hk
  refine hmask fun mb s hwf => ?_
  split
  · simp [hwf]
  refine State.canonical_cpRead hwf fun eb s hwf => ?_
  extract_lets made
  have hmade (rb : List Byte) (s : State) (hwf : s.mem.wf = true) : (made rb s).Canonical := by
    unfold made
    split
    · exact hwf
    extract_lets pkgs
    split <;> simp [hwf, mem_of_eq ‹_ = (_, _)›]
  split
  · exact hmade [] s hwf
  · exact CmdRes.canonical_badList (State.canonical_cpRead hwf hmade)

@[simp] theorem canonical_execAbort (c : Cmd) (s : State) (hwf : s.mem.wf = true) : Canonical (execAbort c s) := by
  refine canonical_hostCmd hwf ?_
  repeat' split
  all_goals simp [hwf]

@[simp] theorem canonical_execLrecFree (c : Cmd) (s : State) (hwf : s.mem.wf = true) :
    Canonical (execLrecFree c s) := canonical_hostCmd hwf (by simp [hwf])

@[simp] theorem State.wf_readRegions (s : State) (asid : BitVec 14) (l : List (Nat × Nat)) (hwf : s.mem.wf = true) :
    (s.readRegions asid l).2.mem.wf = true := by
  unfold State.readRegions
  split <;> simp [hwf]

@[simp] theorem State.writeRecord_mem (s : State) (asid : BitVec 14) (x : Ctx) (l : Launch) (digest : List Byte) (err : Bool) :
    (s.writeRecord asid x l digest err).mem = s.mem := by
  unfold State.writeRecord
  split <;> simp

@[simp] theorem canonical_execLaunchRecordWrite (asid : BitVec 14) (s : State) (hwf : s.mem.wf = true) :
    Canonical (execLaunchRecordWrite asid s) := by
  unfold execLaunchRecordWrite
  split
  · exact hwf
  split
  · exact hwf
  split
  · exact hwf
  split
  · simp [hwf]
  dsimp only
  split
  · simp [hwf]
  split
  · simp [hwf]
  split <;> simp [hwf, mem_of_eq ‹_ = (_, _)›]

@[simp] theorem canonical_execHostAcknowledgement (id : Nat) (s : State) (hwf : s.mem.wf = true) : Canonical (execHostAcknowledgement id s) := by
  unfold execHostAcknowledgement
  dsimp only
  repeat' split
  all_goals simp [hwf]

/-! ### Boot and resets -/

@[simp] theorem State.settleBoot_mem (s : State) : s.settleBoot.mem = s.mem := by
  unfold State.settleBoot
  split <;> simp

@[simp] theorem State.writeReport_mem (s : State) : s.writeReport.mem = s.mem := by
  unfold State.writeReport
  dsimp only
  repeat' split
  all_goals simp

@[simp] theorem canonical_execBootReport (s : State) (hwf : s.mem.wf = true) : Canonical (execBootReport s) := by
  unfold execBootReport
  repeat' split
  all_goals simp [hwf]

@[simp] theorem State.wf_afresh (s : State) (b : Boot) : (s.afresh b).mem.wf = true := rfl

@[simp] theorem canonical_execPowerOn (img : Image) (s : State) (hwf : s.mem.wf = true) : Canonical (execPowerOn img s) := by
  unfold execPowerOn
  dsimp only
  repeat' split
  all_goals simp [hwf]

@[simp] theorem State.openRing0_mem (s : State) : s.openRing0.mem = s.mem := rfl

@[simp] theorem State.wf_wakeStack (s : State) (bit : Nat) (maps : Bool) (hwf : s.mem.wf = true) : (s.wakeStack bit maps).mem.wf = true := by
  unfold State.wakeStack
  split <;> simp [hwf]

@[simp] theorem canonical_execFunctionReady (bit : Nat) (s : State) (hwf : s.mem.wf = true) : Canonical (execFunctionReady bit s) := by
  unfold execFunctionReady
  dsimp only
  repeat' split
  all_goals simp [hwf]

@[simp] theorem canonical_execFunctionFailed (bit reason : Nat) (s : State) (hwf : s.mem.wf = true) :
    Canonical (execFunctionFailed bit reason s) := by
  unfold execFunctionFailed
  dsimp only
  split <;> simp [hwf]

@[simp] theorem canonical_execBootTimeout (s : State) (hwf : s.mem.wf = true) : Canonical (execBootTimeout s) := by
  have hwake (s : State) (l : List Nat) (hwf : s.mem.wf = true) : (l.foldl (fun s k => s.wakeStack k false) s).mem.wf = true :=
    foldl_wf (fun _ _ hwf => by simp [hwf]) _ _ hwf
  unfold execBootTimeout
  dsimp only
  repeat' split
  all_goals simp [hwf, hwake]

@[simp] theorem State.wf_unpowered (s : State) (stop : Nat) : (s.unpowered stop).mem.wf = true := by
  simp [State.unpowered]

@[simp] theorem canonical_execPowerOff (s : State) : Canonical (execPowerOff s) := by simp [execPowerOff]

@[simp] theorem canonical_execThermalTrip (s : State) : Canonical (execThermalTrip s) := by simp [execThermalTrip]

@[simp] theorem State.wf_zeroSlice (s : State) (t : Nat) (hwf : s.mem.wf = true) : (s.zeroSlice t).mem.wf = true := by simp [State.zeroSlice, hwf]

@[simp] theorem State.wf_resetQuad (s : State) (q : Nat) (hwf : s.mem.wf = true) : (s.resetQuad q).mem.wf = true := by
  unfold State.resetQuad
  dsimp only
  refine foldl_wf (fun _ _ hwf => by simp [hwf]) _ _ ?_
  dsimp only
  rw [foldl_mem (fun _ _ => by simp), foldl_mem (fun _ _ => by simp)]
  exact hwf

@[simp] theorem State.wf_resetBit (s : State) (bit : Nat) (hwf : s.mem.wf = true) : (s.resetBit bit).mem.wf = true := by
  have hfreeze (s : State) (l : List Nat) : (l.foldl (fun s key => s.freeze key .faulted 1) s).mem = s.mem := foldl_mem (fun _ _ => by simp) ..
  unfold State.resetBit
  dsimp only
  split
  · simp [hwf, hfreeze]
  split
  · simp [hwf]
  split
  · exact foldl_wf (fun _ _ hwf => by simp [hwf]) _ _ (by simp [hwf])
  repeat' split
  all_goals simp [hwf]

@[simp] theorem canonical_execReset (c : Cmd) (s : State) (hwf : s.mem.wf = true) : Canonical (execReset c s) := by
  refine canonical_hostCmd hwf ?_
  dsimp only
  split
  · simp
  · exact foldl_wf (fun _ _ hwf => by simp [hwf]) _ _ (by simp [hwf])

@[simp] theorem canonical_execAttest (c : Cmd) (s : State) (hwf : s.mem.wf = true) :
    Canonical (execAttest c s) := canonical_hostCmd hwf (by simp [hwf])

@[simp] theorem canonical_execQuery (c : Cmd) (s : State) (hwf : s.mem.wf = true) : Canonical (execQuery c s) := by
  refine canonical_hostCmd hwf ?_
  dsimp only
  repeat' split
  all_goals simp [hwf]

@[simp] theorem State.interruptRing_mem (s : State) (n : Nat) (r : Ring) : (s.interruptRing n r).mem = s.mem := by
  unfold State.interruptRing
  dsimp only
  split <;> simp

@[simp] theorem canonical_execCommandProcessorFailover (s : State) (hwf : s.mem.wf = true) : Canonical (execCommandProcessorFailover s) := by
  unfold execCommandProcessorFailover
  split
  · exact hwf
  · dsimp only
    rw [canonical_next, foldl_mem (fun _ _ => ?_)]
    · simp [hwf]
    · repeat' split
      all_goals simp

/-! ### Transfers of control -/

@[simp] theorem canonical_branchIf (i : Instr) (s : State) (taken : Slot → Bool) (t : Slot → Addr) (hwf : s.mem.wf = true) :
    Canonical (branchIf i s taken t) := by
  refine canonical_issue hwf fun s hwf => ?_
  split <;> simp [hwf]

@[simp] theorem canonical_execCall (disp : BitVec 26) (s : State) (hwf : s.mem.wf = true) :
    Canonical (execCall disp s) := canonical_issue hwf fun _ hwf => by simp [hwf]

@[simp] theorem canonical_jumpReg (i : Instr) (s : State) (r : RegNo) (link : Bool) (hwf : s.mem.wf = true) : Canonical (jumpReg i s r link) := by
  refine canonical_issue hwf fun s hwf => ?_
  dsimp only
  repeat' split
  all_goals simp [hwf]

@[simp] theorem canonical_execLoop (a : RegNo) (disp : BitVec 21) (s : State) (hwf : s.mem.wf = true) : Canonical (execLoop a disp s) := by
  refine canonical_issue hwf fun s hwf => ?_
  dsimp only
  split <;> simp [hwf]

@[simp] theorem canonical_execRepf (len : BitVec 4) (cnt : BitVec 8) (fm : BitVec 3) (step : BitVec 2) (s : State) (hwf : s.mem.wf = true) :
    Canonical (execRepf len cnt fm step s) := by
  refine canonical_issue hwf fun s hwf => ?_
  split <;> simp [hwf]

/-! ### Debug commands -/

@[simp] theorem canonical_execDebugHalt (c : Cmd) (s : State) (hwf : s.mem.wf = true) :
    Canonical (execDebugHalt c s) := canonical_hostCmd hwf (by simp [hwf])

@[simp] theorem canonical_execDebugResume (c : Cmd) (s : State) (hwf : s.mem.wf = true) :
    Canonical (execDebugResume c s) := canonical_hostCmd hwf (by simp [hwf])

theorem State.canonical_debugTask {s : State} {c : Cmd} {f : Task → CmdRes} (hwf : s.mem.wf = true) (hf : ∀ t, (f t).Canonical) :
    (s.debugTask c f).Canonical := by
  unfold State.debugTask
  split
  · exact hwf
  split
  · exact hf _
  · exact hwf

theorem State.canonical_debugLaunch {s : State} {c : Cmd} {f : Launch → CmdRes} (hwf : s.mem.wf = true) (hf : ∀ l, (f l).Canonical) :
    (s.debugLaunch c f).Canonical := by
  unfold State.debugLaunch
  split
  · exact hwf
  split
  · exact hf _
  · exact hwf

@[simp] theorem State.askStop_mem (s : State) (tid : W64) (t : Task) : (s.askStop tid t).mem = s.mem := by
  unfold State.askStop
  split <;> simp

@[simp] theorem State.runTask_mem (s : State) (tid : W64) (t : Task) (req : StopReq) : (s.runTask tid t req).mem = s.mem := by
  unfold State.runTask
  split <;> simp

@[simp] theorem canonical_execDebugStop (c : Cmd) (s : State) (hwf : s.mem.wf = true) :
    Canonical (execDebugStop c s) := canonical_hostCmd hwf (State.canonical_debugTask hwf fun _ => by simp [hwf])

@[simp] theorem canonical_execDebugGroup (c : Cmd) (s : State) (hwf : s.mem.wf = true) : Canonical (execDebugGroup c s) := by
  refine canonical_hostCmd hwf (State.canonical_debugLaunch hwf fun l => ?_)
  rw [CmdRes.canonical_done, foldl_mem (fun _ _ => by simp)]
  exact hwf

@[simp] theorem canonical_execDebugRun (c : Cmd) (s : State) (hwf : s.mem.wf = true) : Canonical (execDebugRun c s) := by
  unfold execDebugRun
  refine canonical_hostCmd hwf ?_
  split
  · refine State.canonical_debugLaunch hwf fun l => ?_
    rw [CmdRes.canonical_done, foldl_mem (fun _ _ => by simp)]
    exact hwf
  · exact State.canonical_debugTask hwf fun _ => by simp [hwf]

theorem State.canonical_debugSlot {s : State} {c : Cmd} {f : Nat → Slot → CmdRes} (hwf : s.mem.wf = true) (hf : ∀ k x, (f k x).Canonical) :
    (s.debugSlot c f).Canonical := by
  refine State.canonical_debugTask hwf fun t => ?_
  split
  · split
    · exact hf _ _
    · exact hwf
  · exact hwf

@[simp] theorem canonical_execDebugStep (c : Cmd) (s : State) (hwf : s.mem.wf = true) :
    Canonical (execDebugStep c s) := canonical_hostCmd hwf (State.canonical_debugSlot hwf fun _ _ => by simp [hwf])

@[simp] theorem canonical_execBpset (c : Cmd) (s : State) (hwf : s.mem.wf = true) : Canonical (execBpset c s) := by
  refine canonical_hostCmd hwf ?_
  dsimp only
  repeat' split
  all_goals simp [hwf]

@[simp] theorem canonical_execBpclr (c : Cmd) (s : State) (hwf : s.mem.wf = true) : Canonical (execBpclr c s) := by
  refine canonical_hostCmd hwf ?_
  dsimp only
  repeat' split
  all_goals simp [hwf]

@[simp] theorem canonical_execDebugRead (c : Cmd) (s : State) (hwf : s.mem.wf = true) :
    Canonical (execDebugRead c s) := canonical_hostCmd hwf (State.canonical_debugSlot hwf fun _ _ => by simp [hwf])

@[simp] theorem canonical_execDebugWrite (c : Cmd) (s : State) (hwf : s.mem.wf = true) : Canonical (execDebugWrite c s) := by
  unfold execDebugWrite
  exact canonical_hostCmd hwf (State.canonical_debugSlot hwf fun _ _ => by simp [hwf])

@[simp] theorem canonical_execSample (c : Cmd) (s : State) (hwf : s.mem.wf = true) : Canonical (execSample c s) := by
  refine canonical_hostCmd hwf ?_
  dsimp only
  repeat' split
  all_goals simp [hwf]

@[simp] theorem canonical_execSamplePeriod (id : Nat) (s : State) (hwf : s.mem.wf = true) : Canonical (execSamplePeriod id s) := by
  unfold execSamplePeriod
  repeat' split
  all_goals simp [hwf]

/-! ### Memory instructions -/

@[simp] theorem canonical_scalarLoad (i : Instr) (s : State) (d a : RegNo) (n : Nat) (off : Int) (fmt : Option Nat) (sgn ctl : Bool)
    (hwf : s.mem.wf = true) : Canonical (scalarLoad i s d a n off fmt sgn ctl) := canonical_issue hwf fun _ hwf => by simp [hwf]

@[simp] theorem canonical_scalarStore (i : Instr) (s : State) (d a : RegNo) (n : Nat) (off : Int) (fmt : Option Nat) (ctl : Bool)
    (hwf : s.mem.wf = true) : Canonical (scalarStore i s d a n off fmt ctl) := canonical_issue hwf fun _ hwf => by simp [hwf]

@[simp] theorem canonical_feAccess (i : Instr) (s : State) (a : RegNo) (k : ReqKind) (write : Bool) (data : Slot → List Byte) (wb : WriteBack)
    (hwf : s.mem.wf = true) : Canonical (feAccess i s a k write data wb) := canonical_issue hwf fun _ hwf => by simp [hwf]

@[simp] theorem canonical_amo (i : Instr) (s : State) (a b : RegNo) (n : Nat) (op : AmoOp) (wb : WriteBack) (hwf : s.mem.wf = true) :
    Canonical (amo i s a b n op wb) := canonical_issue hwf fun _ hwf => by simp [hwf]

@[simp] theorem canonical_execCas (d a b c : RegNo) (sz : ASize) (s : State) (hwf : s.mem.wf = true) :
    Canonical (execCas d a b c sz s) := canonical_issue hwf fun _ hwf => by simp [hwf]

@[simp] theorem canonical_execLdr (d a : RegNo) (la : BitVec 4) (sz : ASize) (s : State) (hwf : s.mem.wf = true) :
    Canonical (execLdr d a la sz s) := by
  refine canonical_issue hwf fun s hwf => ?_
  dsimp only
  split <;> simp [hwf]

@[simp] theorem canonical_execStc (d a b : RegNo) (la : BitVec 4) (sz : ASize) (s : State) (hwf : s.mem.wf = true) :
    Canonical (execStc d a b la sz s) := by
  refine canonical_issue hwf fun s hwf => ?_
  dsimp only
  repeat' split
  all_goals simp [hwf]

@[simp] theorem canonical_execWrs (d a : RegNo) (la : BitVec 4) (sz : ASize) (s : State) (hwf : s.mem.wf = true) :
    Canonical (execWrs d a la sz s) := by
  refine canonical_issue hwf fun s hwf => ?_
  dsimp only
  repeat' split
  all_goals simp [hwf]

@[simp] theorem canonical_rupd (i : Instr) (s : State) (a b : RegNo) (n : Nat) (op : AmoOp) (hwf : s.mem.wf = true) :
    Canonical (rupd i s a b n op) := by
  refine canonical_issue hwf fun s hwf => ?_
  dsimp only
  repeat' split
  all_goals simp [hwf]

@[simp] theorem canonical_execFence (sc : Scope) (s : State) (hwf : s.mem.wf = true) :
    Canonical (execFence sc s) := canonical_issue hwf fun _ hwf => canonical_awaitRelease _ _ hwf hwf

@[simp] theorem canonical_execFenceAcq (sc : Scope) (s : State) (hwf : s.mem.wf = true) :
    Canonical (execFenceAcq sc s) := canonical_issue hwf fun _ hwf => by simp [hwf]

@[simp] theorem canonical_execFenceRel (sc : Scope) (s : State) (hwf : s.mem.wf = true) :
    Canonical (execFenceRel sc s) := canonical_issue hwf fun _ hwf => canonical_awaitRelease _ _ hwf hwf

@[simp] theorem canonical_execFenceEng (sc : Scope) (s : State) (hwf : s.mem.wf = true) :
    Canonical (execFenceEng sc s) := canonical_issue hwf fun _ hwf => canonical_awaitRelease _ _ hwf hwf

@[simp] theorem canonical_execVld (d a : RegNo) (la : BitVec 4) (x : Bool) (m : PredNo) (off : BitVec 7) (s : State) (hwf : s.mem.wf = true) :
    Canonical (execVld d a la x m off s) := canonical_issue hwf fun _ hwf => by simp [hwf]

@[simp] theorem canonical_execVldC (d a : RegNo) (la : BitVec 4) (x : Bool) (m : PredNo) (off : BitVec 7) (s : State) (hwf : s.mem.wf = true) :
    Canonical (execVldC d a la x m off s) := canonical_issue hwf fun _ hwf => by simp [hwf]

@[simp] theorem canonical_execVst (d a : RegNo) (la : BitVec 4) (x : Bool) (m : PredNo) (off : BitVec 7) (s : State) (hwf : s.mem.wf = true) :
    Canonical (execVst d a la x m off s) := canonical_issue hwf fun _ hwf => by simp [hwf]

@[simp] theorem canonical_execVldx (d a b : RegNo) (la : BitVec 4) (x : Bool) (sz : Size) (m : PredNo) (z : Bool) (s : State)
    (hwf : s.mem.wf = true) : Canonical (execVldx d a b la x sz m z s) := canonical_issue hwf fun _ hwf => by simp [hwf]

@[simp] theorem canonical_execVstx (d a b : RegNo) (la : BitVec 4) (x : Bool) (sz : Size) (m : PredNo) (s : State) (hwf : s.mem.wf = true) :
    Canonical (execVstx d a b la x sz m s) := canonical_issue hwf fun _ hwf => by simp [hwf]

@[simp] theorem canonical_execVlds (d a b : RegNo) (la : BitVec 4) (m : PredNo) (x : Bool) (s : State) (hwf : s.mem.wf = true) :
    Canonical (execVlds d a b la m x s) := canonical_issue hwf fun _ hwf => by simp [hwf]

@[simp] theorem canonical_execVsts (d a b : RegNo) (la : BitVec 4) (m : PredNo) (x : Bool) (s : State) (hwf : s.mem.wf = true) :
    Canonical (execVsts d a b la m x s) := canonical_issue hwf fun _ hwf => by simp [hwf]

end Sys2Proof.Machine
end


section
/-! PROOF. Every step keeps the canonical form of memory. -/

namespace Sys2Proof.Machine

/-! ### The cycle -/

theorem canonical_triedMeaning {i : Instr} {f : State → Host.Outcome State Fault Refusal} {s : State} (h : triedMeaning i = some f)
    (hwf : s.mem.wf = true) : Canonical (f s) := by
  unfold triedMeaning at h
  split at h
  case h_29 => exact absurd h (by simp)
  all_goals
    obtain rfl := Option.some.inj h
    simp [hwf, execMma, execMmaIx, execMsp, execMzero, execMlda, execMsta, execMmov, execRupdAdd, execRupdAnd, execRupdOr, execRupdXor, execRupdMin,
      execRupdMax, execRupdMinn, execRupdMaxn, execRupdFadd, execLd, execLdn, execSt, execLdx, execStx]

@[simp] theorem State.wf_meet (s : State) (hwf : s.mem.wf = true) : s.meet.mem.wf = true := by
  unfold State.meet
  split
  · exact hwf
  split
  · split
    · simp [hwf]
    · simp [hwf]
    · simp [hwf]
    · split
      · split
        · split
          · exact (congrArg Canonical ‹_ = Host.Outcome.next _›).mp (canonical_triedMeaning ‹_› hwf)
          · exact hwf
        · exact hwf
      · exact hwf
    · exact hwf
  · exact hwf

@[simp] theorem State.select_mem (n : Nat) (s : State) (core : Nat) (e : List Nat) : (State.select n s core e).2.mem = s.mem := by
  induction n generalizing s e with
  | zero => rfl
  | succ n ih =>
    unfold State.select
    split
    · rfl
    dsimp only
    split
    · simp [ih]
    · split <;> simp

@[simp] theorem State.wf_settleSlot (s : State) (hwf : s.mem.wf = true) : s.settleSlot.mem.wf = true := by
  unfold State.settleSlot
  dsimp only
  repeat' split
  all_goals simp [hwf]

@[simp] theorem State.cycleCore_mem (s : State) (core : Nat) (mine : List Nat) : (s.cycleCore core mine).mem = s.mem := by
  have hlines (s : State) (l : List (Nat × Ready)) : (l.foldl (fun s e => s.within e.1 fun s => s.wantLine s.cur.pc) s).mem = s.mem :=
    foldl_mem (fun _ _ => State.within_mem (fun _ => by simp) ..) ..
  unfold State.cycleCore
  dsimp only
  split <;> simp [hlines]

@[simp] theorem State.wakeDispatcher_mem (s : State) (tile : Nat) : (s.wakeDispatcher tile).mem = s.mem := by
  unfold State.wakeDispatcher
  dsimp only
  split <;> simp

@[simp] theorem State.beginCycle_mem (s : State) : s.beginCycle.mem = s.mem := by
  unfold State.beginCycle
  dsimp only
  rw [foldl_mem (fun _ _ => by simp)]
  simp

@[simp] theorem State.wf_selectAll (s : State) (hwf : s.mem.wf = true) : s.selectAll.mem.wf = true := by
  unfold State.selectAll
  dsimp only
  rw [State.updNet_mem, foldl_mem (fun _ _ => by simp), foldl_mem (fun _ _ => by simp), foldl_mem (fun _ _ => by simp)]
  exact foldl_wf (fun _ _ hwf => State.wf_within (fun _ hwf => by simp [hwf]) _ _ hwf) _ _ hwf

@[simp] theorem canonical_execCycle (s : State) (hwf : s.mem.wf = true) : Canonical (execCycle s) := by
  unfold execCycle
  repeat' split
  all_goals simp [hwf]

/-! ### Scalar instructions -/

@[simp] theorem canonical_alu2 (i : Instr) (s : State) (d a b : RegNo) (f : W64 → W64 → W64) (hwf : s.mem.wf = true) :
    Canonical (alu2 i s d a b f) := by simp [alu2, hwf]

@[simp] theorem canonical_alu1 (i : Instr) (s : State) (d a : RegNo) (f : W64 → W64) (hwf : s.mem.wf = true) :
    Canonical (alu1 i s d a f) := by simp [alu1, hwf]

@[simp] theorem canonical_setP (i : Instr) (s : State) (p : PredNo) (f : Slot → Bool) (hwf : s.mem.wf = true) :
    Canonical (setP i s p f) := by simp [setP, hwf]

@[simp] theorem canonical_divFam (i : Instr) (s : State) (d a b : RegNo) (sgn quo : Bool) (hwf : s.mem.wf = true) :
    Canonical (divFam i s d a b sgn quo) := canonical_issue hwf fun _ hwf => by simp [hwf]

@[simp] theorem canonical_ptrAdd (i : Instr) (s : State) (d a : RegNo) (off : Slot → Int) (hwf : s.mem.wf = true) :
    Canonical (ptrAdd i s d a off) := by
  refine canonical_issue hwf fun s hwf => ?_
  split <;> simp [hwf]

@[simp] theorem canonical_fusedG (i : Instr) (s : State) (d a b c : RegNo) (negP negC : Bool) (hwf : s.mem.wf = true) :
    Canonical (fusedG i s d a b c negP negC) := by simp [fusedG, hwf]

/-! ### Vector instructions -/

@[simp] theorem canonical_vInt (i : Instr) (s : State) (d : RegNo) (m : PredNo) (f : Slot → Nat → W32) (hwf : s.mem.wf = true) :
    Canonical (vInt i s d m f) := by simp [vInt, hwf]

@[simp] theorem canonical_vInt2 (i : Instr) (s : State) (d a b : RegNo) (m : PredNo) (f : W32 → W32 → W32) (hwf : s.mem.wf = true) :
    Canonical (vInt2 i s d a b m f) := by simp [vInt2, hwf]

@[simp] theorem canonical_vFp (i : Instr) (s : State) (d : RegNo) (m : PredNo) (subs : Slot → Nat → List W32) (f : Slot → Nat → F32)
    (hwf : s.mem.wf = true) : Canonical (vFp i s d m subs f) := by simp [vFp, hwf]

@[simp] theorem canonical_vFp2 (i : Instr) (s : State) (d a b : RegNo) (m : PredNo) (f : Mode → W32 → W32 → F32) (hwf : s.mem.wf = true) :
    Canonical (vFp2 i s d a b m f) := by simp [vFp2, hwf]

@[simp] theorem canonical_vFp1 (i : Instr) (s : State) (d a : RegNo) (m : PredNo) (f : Mode → W32 → F32) (hwf : s.mem.wf = true) :
    Canonical (vFp1 i s d a m f) := by simp [vFp1, hwf]

@[simp] theorem canonical_vFused (i : Instr) (s : State) (d a b c : RegNo) (m : PredNo) (negP negC : Bool) (hwf : s.mem.wf = true) :
    Canonical (vFused i s d a b c m negP negC) := by simp [vFused, hwf]

@[simp] theorem canonical_vFn (i : Instr) (s : State) (d : RegNo) (m : PredNo) (lat : Nat) (subs : Slot → Nat → List W32) (f : Slot → Nat → F32)
    (hwf : s.mem.wf = true) : Canonical (vFn i s d m lat subs f) := canonical_issue hwf fun _ hwf => by simp [hwf]

@[simp] theorem canonical_vFn1 (i : Instr) (s : State) (d a : RegNo) (m : PredNo) (lat : Nat) (f : Mode → W32 → F32) (hwf : s.mem.wf = true) :
    Canonical (vFn1 i s d a m lat f) := by simp [vFn1, hwf]

@[simp] theorem canonical_vToP (i : Instr) (s : State) (d m : PredNo) (sub : Slot → Nat → Bool) (f : Slot → Nat → Bool × Flags)
    (hwf : s.mem.wf = true) : Canonical (vToP i s d m sub f) := by simp [vToP, hwf]

@[simp] theorem canonical_vCvt (i : Instr) (s : State) (d : RegNo) (m : PredNo) (sub : Slot → Nat → Bool) (f : Slot → Nat → W32 × Flags)
    (hwf : s.mem.wf = true) : Canonical (vCvt i s d m sub f) := by simp [vCvt, hwf]

@[simp] theorem canonical_cvtPair (i : Instr) (s : State) (d a b : RegNo) (m : PredNo) (fm : Fmt) (hwf : s.mem.wf = true) :
    Canonical (cvtPair i s d a b m fm) := by simp [cvtPair, hwf]

@[simp] theorem canonical_cvtHalf (i : Instr) (s : State) (d a : RegNo) (h : Bool) (m : PredNo) (fm : Fmt) (hwf : s.mem.wf = true) :
    Canonical (cvtHalf i s d a h m fm) := by simp [cvtHalf, hwf]

@[simp] theorem canonical_cvtToByte (i : Instr) (s : State) (d a : RegNo) (k : BitVec 2) (m : PredNo) (fm : Fmt) (hwf : s.mem.wf = true) :
    Canonical (cvtToByte i s d a k m fm) := by simp [cvtToByte, hwf]

@[simp] theorem canonical_cvtOfByte (i : Instr) (s : State) (d a : RegNo) (k : BitVec 2) (m : PredNo) (fm : Fmt) (hwf : s.mem.wf = true) :
    Canonical (cvtOfByte i s d a k m fm) := by simp [cvtOfByte, hwf]

@[simp] theorem canonical_predP (i : Instr) (s : State) (d : PredNo) (f : Slot → Pred) (hwf : s.mem.wf = true) :
    Canonical (predP i s d f) := by simp [predP, hwf]

/-! ### The meaning of instructions -/

/-- Every instruction and every event keeps the canonical form. -/
@[simp] theorem canonical_exec (i : Instr) (s : State) (hwf : s.mem.wf = true) : Canonical (exec i s) := by
  unfold exec
  split <;> simp [hwf, execMma, execMmaIx, execMsp, execMzero, execMlda, execMsta, execMmov, execCpy, execCpyx, execWidx, execCsrr, execCsrw,
      execCsrs, execCsrc,
    execBrAny, execBrNone, execBcc, execBra, execJr, execCallr, execRet, execLd, execLdn, execSt, execLdx, execStx, execLdf, execLdff, execSte,
    execStef, execFeclr, execFeget, execAmoAdd, execAmoAnd, execAmoOr, execAmoXor, execAmoMin, execAmoMax, execAmoMinn, execAmoMaxn,
    execAmoSwap, execAmoFadd, execRupdAdd, execRupdAnd, execRupdOr, execRupdXor, execRupdMin, execRupdMax, execRupdMinn, execRupdMaxn,
    execRupdFadd, execAdd, execSub, execMul, execMulh, execMulhn, execDiv, execDivn, execRem, execRemn, execAnd, execOr, execXor, execAndn,
    execShl, execShr, execSra, execMin, execMax, execMinn, execMaxn, execClz, execPopc, execBfx, execBfxn, execBfi, execSel, execCmp, execAddi,
    execAndi, execOri, execXori, execShli, execShri, execSrai, execLim, execCmpi, execPaddi, execPadd, execPsub, execPtag, execPget, execFadd,
    execFsub, execFmul, execFdiv, execFsqrt, execFmin, execFmax, execFcmp, execFcvtF2i, execFcvtF2n, execFcvtI2f, execFcvtN2f, execFclass,
    execFma, execFms, execFnma, execVadd, execVsub, execVmul, execVmulh, execVand, execVor, execVxor, execVshl, execVshr, execVsra, execVmin,
    execVmax, execVminn, execVmaxn, execVabs, execVneg, execVcmp, execVsel, execVclz, execVpopc, execVfadd, execVfsub, execVfmul, execVfmin,
    execVfmax, execVfabs, execVfneg, execVfcmp, execVfma, execVfms, execVfnma, execVma, execVfdiv, execVfsqrt, execVfrcp, execVfrsq,
    execVfexp2, execVflog2, execVcvtF2bf, execVcvtBf2f, execVcvtF2h, execVcvtH2f, execVcvtF2e4, execVcvtE42f, execVcvtF2e5, execVcvtE52f,
    execVcvtF2i, execVcvtI2f, execVcvtN2f, execVcvtF2n, execVcvtI2b, execVcvtB2i, execVbcast, execVext, execVins, execVperm, execViota,
    execVred, execVscan, execVcomp, execVslide, execPand, execPor, execPxor, execPandn, execPnot, execPcnt, execPfirst, execPset, execPgets]

/-! ### Events -/

@[simp] theorem canonical_fire (e : Event) (s : State) (hwf : s.mem.wf = true) : Canonical (fire e s) := by
  unfold fire
  split <;> simp [hwf]

@[simp] theorem State.unpend_mem (s : State) (k : Nat) : (s.unpend k).mem = s.mem := rfl

@[simp] theorem State.unplan_mem (s : State) : s.unplan.mem = s.mem := rfl

/-! ### The cores -/

@[simp] theorem State.canonical_issueNext (s : State) (hwf : s.mem.wf = true) : Canonical s.issueNext := by
  unfold State.issueNext
  repeat' split
  all_goals simp [hwf]

@[simp] theorem State.canonical_coreStep (s : State) (hwf : s.mem.wf = true) : Canonical s.coreStep := by
  unfold State.coreStep
  dsimp only
  split <;> simp [hwf]

@[simp] theorem State.canonical_ownStep (s : State) (hwf : s.mem.wf = true) : Canonical s.ownStep := by
  unfold State.ownStep
  repeat' split
  all_goals simp [hwf]

@[simp] theorem State.canonical_planStep (s : State) (p : Pick) (hwf : s.mem.wf = true) : Canonical (s.planStep p) := by
  unfold State.planStep
  repeat' split
  all_goals simp [hwf]

@[simp] theorem State.loadWord_mem (s : State) (w : Nat) : (s.loadWord w).mem = s.mem := rfl

/-! ### The step -/

@[simp] theorem canonical_step (s : State) (hwf : s.mem.wf = true) : Canonical (step s) := by
  unfold step
  repeat' split
  all_goals simp [hwf]

@[simp] theorem State.withFetchWord_mem (s : State) (_nbits w : Nat) : (s.withFetchWord _nbits w).mem = s.mem := rfl

/-- Settles O56: memory is written by masked writes of lines and by the erasure of ranges alone, and both keep the canonical form; every function of the
model keeps it because the functions it calls do. -/
theorem stepKeepsMemoryCanonical : Obligations.StepKeepsMemoryCanonical := by
  intro s t hwf hstep
  have hcan := canonical_step s hwf
  rwa [hstep] at hcan

end Sys2Proof.Machine
end


section
/-! PROOF. Traps that are taken and fatal faults (R74, R75, R375). -/

namespace Sys2Proof.Machine

/-! ### Operations that leave the slot in focus -/

theorem foldl_cur {α : Type} {f : State → α → State} (h : ∀ s a, (f s a).cur = s.cur) (l : List α) (s : State) :
    (l.foldl f s).cur = s.cur := by
  induction l generalizing s with
  | nil => rfl
  | cons a l ih => exact (ih _).trans (h s a)

@[simp] theorem State.updLaunch_cur (s : State) (key : Nat) (f : Launch → Launch) : (s.updLaunch key f).cur = s.cur := by
  unfold State.updLaunch
  split <;> rfl

@[simp] theorem State.updWl_cur (s : State) (w : Nat) (f : WorkList → WorkList) : (s.updWl w f).cur = s.cur := by
  unfold State.updWl
  split <;> rfl

@[simp] theorem State.updCtx_cur (s : State) (asid : BitVec 14) (f : Ctx → Ctx) : (s.updCtx asid f).cur = s.cur := by
  unfold State.updCtx
  split <;> rfl

@[simp] theorem State.updRecs_cur (s : State) (p : SaveRec → Bool) (f : SaveRec → SaveRec) : (s.updRecs p f).cur = s.cur := rfl

@[simp] theorem State.afterOnce_cur (s : State) (delay : Nat) (ev : Event) : (s.afterOnce delay ev).cur = s.cur := by
  unfold State.afterOnce
  split <;> rfl

@[simp] theorem State.post_cur (s : State) (pkg : Nat) (ev : Event) : (s.post pkg ev).cur = s.cur := rfl

@[simp] theorem State.postMsg_cur (s : State) (pkg : Nat) (kind : Nat) (asid : BitVec 14) (tag : BitVec 16) (unit : Nat) (m : PodMsg) :
    (s.postMsg pkg kind asid tag unit m).cur = s.cur := by
  unfold State.postMsg
  split <;> rfl

@[simp] theorem State.postWl_cur (s : State) (pkg wl : Nat) (asid : BitVec 14) (lid : W32) (m : WlMsg) :
    (s.postWl pkg wl asid lid m).cur = s.cur := by simp [State.postWl]

@[simp] theorem State.lantern_cur (s : State) (pkg delay wl : Nat) (m : WlMsg) : (s.lantern pkg delay wl m).cur = s.cur := by
  unfold State.lantern
  repeat' split
  all_goals simp

@[simp] theorem State.closeWl_cur (s : State) (wl : Nat) : (s.closeWl wl).cur = s.cur := by
  unfold State.closeWl
  split
  · rfl
  · dsimp only
    rw [State.updRecs_cur, foldl_cur (fun _ _ => by simp), foldl_cur (fun _ _ => by simp)]
    simp

@[simp] theorem State.finishLaunch_cur (s : State) (l : Launch) (st : LState) (reason : Nat) (frozen : Bool) :
    (s.finishLaunch l st reason frozen).cur = s.cur := by
  unfold State.finishLaunch
  dsimp only
  rw [State.after_cur, State.updCtx_cur]
  dsimp only
  split
  · split
    · rw [State.closeWl_cur, foldl_cur (fun _ _ => by simp)]
      simp
    · simp
  · simp

@[simp] theorem State.wakeWaiting_cur (s : State) : s.wakeWaiting.cur = s.cur := by
  unfold State.wakeWaiting
  dsimp only
  exact (foldl_cur (fun _ _ => by split <;> simp) ..).trans (by simp)

@[simp] theorem State.checkLaunch_cur (s : State) (key : Nat) : (s.checkLaunch key).cur = s.cur := by
  unfold State.checkLaunch
  dsimp only
  repeat' split
  all_goals simp

@[simp] theorem State.checkWl_cur (s : State) (wl : Nat) : (s.checkWl wl).cur = s.cur := by
  unfold State.checkWl
  split <;> simp

@[simp] theorem State.countEnd_cur (s : State) (key : Nat) (trig : Bool) (accepted : List Nat) : (s.countEnd key trig accepted).cur = s.cur := by
  unfold State.countEnd
  dsimp only
  exact (foldl_cur (fun _ _ => by simp) ..).trans (by simp)

/-! ### Fatal faults -/

theorem State.endNow_status (s : State) (accept : Bool) : (s.endNow accept).cur.status = .free := by
  simp [State.endNow, Slot.freed]

/-- After a fatal fault the slot issues nothing: it has stopped, or its task has ended. -/
theorem State.fatalFault_status (s : State) : s.fatalFault.cur.status = .stopped ∨ s.fatalFault.cur.status = .free := by
  unfold State.fatalFault
  dsimp only
  unfold State.endSoon
  split
  · exact .inl rfl
  · exact .inr (State.endNow_status ..)

/-! ### A trap outside speculation -/

/-- A serial instruction issues where nothing of the slot is incomplete. -/
theorem CanIssue.ops_of_serial {i : Instr} {s : State} (h : CanIssue i s) (hserial : (infoOf i).serial = true) : s.cur.ops = [] := by
  have hgo := h.1
  unfold State.permits at hgo
  dsimp only at hgo
  split at hgo
  · exact absurd hgo (by simp)
  split at hgo
  · exact absurd hgo (by simp)
  · rename_i hops
    simpa [hserial] using hops

/-- A release message travels, and changes nothing else. -/
theorem State.clearRsv_rest (s : State) :
    s.clearRsv = { s with
      cur := { s.cur with rsv := none }
      net := { s.net with pend := s.clearRsv.net.pend, outbox := s.clearRsv.net.outbox } } := by
  unfold State.clearRsv
  split
  · rename_i hrsv
    rw [← hrsv]
  · unfold State.sendRelease
    dsimp only
    split <;> rfl

/-- The fields of a cause register side by side. -/
theorem causeWord_eq (cause code : Nat) (inwin : Bool) (done : BitVec 15) : causeWord cause code inwin done = causeBits cause code inwin done := by
  have hdone := done.isLt
  have hcause : cause % 2 ^ 8 < 2 ^ 8 := Nat.mod_lt _ (by decide)
  have hcode : code % 2 ^ 15 < 2 ^ 15 := Nat.mod_lt _ (by decide)
  have hbit : inwin.toNat < 2 ^ 1 := inwin.toNat_lt
  have hin : (if inwin then 2 ^ 23 else 0) = inwin.toNat * 2 ^ 23 := by cases inwin <;> rfl
  refine BitVec.eq_of_toNat_eq ?_
  unfold causeWord causeBits
  rw [BitVec.toNat_append, BitVec.toNat_append, BitVec.toNat_append, BitVec.toNat_ofNat, BitVec.toNat_ofNat, BitVec.toNat_ofNat, BitVec.toNat_ofBool,
    ← Nat.shiftLeft_add_eq_or_of_lt hbit, ← Nat.shiftLeft_add_eq_or_of_lt hcode, ← Nat.shiftLeft_add_eq_or_of_lt hcause, hin, Nat.shiftLeft_eq,
    Nat.shiftLeft_eq, Nat.shiftLeft_eq]
  omega

/-- What the trap at the pc counts as done depends on the pc and on what the replay skips. -/
theorem doneMask_pc {x y : Slot} (hpc : y.pc = x.pc) (hskip : y.skip = x.skip) : doneMask y x.pc = doneMask x x.pc := by
  have hnot (a : Addr) : ¬(a.toNat < x.pc.toNat ∧ x.pc.toNat < a.toNat) := fun h => Nat.lt_asymm h.1 h.2
  unfold doneMask
  simp only [hpc, hskip, decide_eq_false (hnot _), Bool.false_and, Bool.false_or]

/-- The state in which a serial instruction takes its trap. -/
def State.trapping (s : State) (i : Instr) (cause code : Nat) : State :=
  s.charge.updCur fun x => x.failedAlone (encode i) ⟨0, cause, code, 0⟩

theorem State.takeTrap_toM {s : State} {cause code : Nat} {x : W64} {at_ : Addr} (h : ToM s.cur cause)
    (hn : ¬(s.cur.level = .m ∧ s.cur.mc.intrap = true)) :
    s.takeTrap cause code x at_ = { s.clearRsv with cur := { s.cur with
      rsv := none, fails := [], inwin := false, skip := (0, 0), hold := .none, status := .ready, wait := s.clearRsv.now + 1
      spec := { s.cur.spec with ended := s.cur.sc.piste }
      mc := { s.cur.mc with
        mepc := at_, mxaddr := x, mpp := BitVec.ofNat 2 s.cur.level.num
        mcause := causeWord cause code s.cur.inwin (doneMask s.cur at_), intrap := true }
      level := .m, pc := s.cur.mc.mtvec } } := by
  unfold State.takeTrap
  dsimp only
  rw [if_pos (by simpa [ToM, or_assoc] using h), if_neg (by simpa using hn), State.clearRsv_cur]

theorem State.takeTrap_toS {s : State} {cause code : Nat} {x : W64} {at_ : Addr} (h : ¬ToM s.cur cause) (hv : s.cur.sc.stvec ≠ 0) :
    s.takeTrap cause code x at_ = { s.clearRsv with cur := { s.cur with
      rsv := none, fails := [], inwin := false, skip := (0, 0), hold := .none, status := .ready, wait := s.clearRsv.now + 1
      spec := { s.cur.spec with ended := s.cur.sc.piste }
      sc := { s.cur.sc with
        sepc := at_, sxaddr := x, spp := BitVec.ofNat 1 s.cur.level.num
        scause := causeWord cause code s.cur.inwin (doneMask s.cur at_), intrap := true }
      level := .s, pc := s.cur.sc.stvec } } := by
  unfold State.takeTrap
  dsimp only
  rw [if_neg (by simpa [ToM, or_assoc] using h), if_neg hv, State.clearRsv_cur]

theorem State.takeTrap_fatal {s : State} {cause code : Nat} {x : W64} {at_ : Addr}
    (h : (s.cur.level = .m ∧ s.cur.mc.intrap = true) ∨ (¬ToM s.cur cause ∧ s.cur.sc.stvec = 0)) :
    s.takeTrap cause code x at_ = s.clearRsv.fatalFault := by
  unfold State.takeTrap
  dsimp only
  obtain h | ⟨hm, hv⟩ := h
  · rw [if_pos (by simp [h.1]), if_pos (by simpa using h)]
  · rw [if_neg (by simpa [ToM, or_assoc] using hm), if_pos hv]

section
variable {i : Instr} {s : State} {cause code : Nat} (hi : CanIssue i s) (hserial : (infoOf i).serial = true)
  (hb : exec i s = issue i s fun _ => .trap cause code 0) (hmode : s.cur.spec.mode = .none)
include hi hserial hb hmode

/-- A serial instruction that traps outside speculation takes its trap at once. -/
theorem exec_takesTrap : exec i s = .next ((s.trapping i cause code).takeTrap cause code 0 s.cur.pc) := by
  have hspec : s.charge.cur.specMode = .none := by
    simp [State.charge_cur, Slot.specMode, hmode]
  have hops : s.charge.cur.ops = [] := by
    rw [State.charge_ops, hi.ops_of_serial hserial]
  rw [hb, issue_go _ hi]
  refine congrArg Host.Outcome.next ?_
  show s.charge.issueTrap (encode i) cause code 0 = _
  rw [State.issueTrap_eq _ _ _ _ hspec (by rw [State.charge_fails, hi.fails]),
    State.trapIfSettled_one (s := s.charge.updCur fun x => x.failedAlone (encode i) ⟨0, cause, code, 0⟩) hspec rfl]
  refine (if_pos ?_).trans ?_
  · show s.charge.cur.ops.isEmpty = true
    rw [hops]
    rfl
  · show State.takeTrap _ cause code 0 s.charge.cur.pc = _
    rw [State.charge_pc]
    rfl

omit hi hserial hb hmode in
theorem State.trapping_cur : (s.trapping i cause code).cur = { s.charge.cur with
    hold := .none, inwin := !s.cur.ops.isEmpty, fails := [(s.charge.cur.pc, encode i, ⟨0, cause, code, 0⟩)] } := by
  simp [State.trapping, Slot.failedAlone]

omit hi hserial hb hmode in
/-- What is left as the trap is taken, beside the slot. -/
theorem State.trapping_rest (y : Slot) : { (s.trapping i cause code).clearRsv with cur := y } =
    { s with
      cur := y
      tiles := s.charge.tiles
      net := { s.net with pend := (s.trapping i cause code).clearRsv.net.pend, outbox := (s.trapping i cause code).clearRsv.net.outbox } } := by
  rw [State.clearRsv_rest]
  simp only [State.trapping, State.updCur]
  rw [(OnlySlot.charge s).rest]

omit hi hserial hb hmode in
theorem State.trapping_clearRsv_now : (s.trapping i cause code).clearRsv.now = s.now := by
  rw [State.clearRsv_rest]
  exact congrArg (fun p : Pkg => p.cycle.toNat) (State.charge_pkg s)

omit hb hmode in
/-- Nothing of a serial instruction's slot is incomplete, so its trap stands at the pc and outside a window. -/
theorem trapping_window : (s.trapping i cause code).cur.inwin = false ∧
    doneMask (s.trapping i cause code).cur s.cur.pc = doneMask s.cur s.cur.pc := by
  rw [State.trapping_cur]
  refine ⟨?_, doneMask_pc (State.charge_pc s) ?_⟩
  · dsimp only
    rw [hi.ops_of_serial hserial]
    rfl
  · simp [State.charge_cur]

theorem takes_toM (hm : ToM s.cur cause) (hn : ¬(s.cur.level = .m ∧ s.cur.mc.intrap = true)) :
    ∃ t, exec i s = .next t ∧ TakenAtM s.cur t.cur s.now cause code 0 ∧
      t = { s with cur := t.cur, tiles := t.tiles, net := { s.net with pend := t.net.pend, outbox := t.net.outbox } } := by
  have hstep := exec_takesTrap hi hserial hb hmode
  refine ⟨_, hstep, ?_⟩
  obtain ⟨hwin, hdone⟩ := trapping_window (cause := cause) (code := code) hi hserial
  have hcur := State.trapping_cur (i := i) (s := s) (cause := cause) (code := code)
  rw [State.takeTrap_toM (by rw [hcur]; simpa [ToM, State.charge_cur] using hm) (by rw [hcur]; simpa [State.charge_cur] using hn),
    State.trapping_rest, hwin, hdone, causeWord_eq, State.trapping_clearRsv_now, hcur]
  refine ⟨?_, rfl⟩
  constructor <;> simp [State.charge_cur]

theorem takes_toS (hm : ¬ToM s.cur cause) (hv : s.cur.sc.stvec ≠ 0) :
    ∃ t, exec i s = .next t ∧ TakenAtS s.cur t.cur s.now cause code 0 ∧
      t = { s with cur := t.cur, tiles := t.tiles, net := { s.net with pend := t.net.pend, outbox := t.net.outbox } } := by
  have hstep := exec_takesTrap hi hserial hb hmode
  refine ⟨_, hstep, ?_⟩
  obtain ⟨hwin, hdone⟩ := trapping_window (cause := cause) (code := code) hi hserial
  have hcur := State.trapping_cur (i := i) (s := s) (cause := cause) (code := code)
  rw [State.takeTrap_toS (by rw [hcur]; simpa [ToM, State.charge_cur] using hm) (by rw [hcur]; simpa [State.charge_cur] using hv),
    State.trapping_rest, hwin, hdone, causeWord_eq, State.trapping_clearRsv_now, hcur]
  refine ⟨?_, rfl⟩
  constructor <;> simp [State.charge_cur]

theorem takes_fatal (h : (s.cur.level = .m ∧ s.cur.mc.intrap = true) ∨ (¬ToM s.cur cause ∧ s.cur.sc.stvec = 0)) :
    ∃ t, exec i s = .next t ∧ (t.cur.status = .stopped ∨ t.cur.status = .free) ∧ t.mem = s.mem := by
  have hstep := exec_takesTrap hi hserial hb hmode
  refine ⟨_, hstep, ?_⟩
  have hcur := State.trapping_cur (i := i) (s := s) (cause := cause) (code := code)
  rw [State.takeTrap_fatal (by rw [hcur]; simpa [ToM, State.charge_cur] using h)]
  exact ⟨State.fatalFault_status _, by simp [State.trapping]⟩

end

/-- Settles O26: both instructions wait until nothing of the slot is incomplete, so that their trap is the only failure and is taken as they issue. -/
theorem trapsTaken : Obligations.TrapsTaken := by
  intro s c hmode _
  have takes {i : Instr} {cause : Nat} (hserial : (infoOf i).serial = true) (hb : exec i s = issue i s fun _ => .trap cause c.toNat 0) :=
    And.intro (fun hm hn hi => takes_toM hi hserial hb hmode hm hn)
      (And.intro (fun hm hv hi => takes_toS hi hserial hb hmode hm hv)
        fun h hi => takes_fatal hi hserial hb hmode h)
  exact ⟨takes rfl (exec_trap ..), takes rfl (exec_brk ..)⟩

end Sys2Proof.Machine
end


section
/-! PROOF. What a home does with a request to a slice (R93, R95, R96, R112, R118, R328 to R332). -/

namespace Sys2Proof.Machine

/-! ### What a home changes -/

theorem AtHomeOnly.refl (s : State) : AtHomeOnly s s := ⟨rfl, ⟨[], by simp, rfl⟩, fun _ => rfl⟩

theorem AtHomeOnly.trans {s t u : State} (h : AtHomeOnly s t) (h' : AtHomeOnly t u) : AtHomeOnly s u := by
  obtain ⟨l, ha, hn⟩ := h.away
  obtain ⟨l', ha', hn'⟩ := h'.away
  refine ⟨?_, ⟨l ++ l', by rw [ha', ha, List.append_assoc], by rw [hn', hn, List.length_append, Nat.add_assoc]⟩, fun k => ?_⟩
  · rw [h'.rest, h.rest]
  · rw [h'.buoys k, h.buoys k]

theorem AtHomeOnly.now_eq {s t : State} (h : AtHomeOnly s t) : t.now = s.now := by
  rw [h.rest]
  rfl

/-- A state that differs in bytes, full/empty bits and poison, and in what is asked and in flight. -/
theorem AtHomeOnly.of_rest {s t : State} (h : t = { s with
    mem := t.mem, attrs := { s.attrs with full := t.attrs.full, poison := t.attrs.poison }
    net := { s.net with reqs := t.net.reqs, pend := t.net.pend, outbox := t.net.outbox } }) : AtHomeOnly s t := by
  rw [h]
  exact ⟨rfl, ⟨[], (List.append_nil _).symm, rfl⟩, fun _ => rfl⟩

theorem AtHomeOnly.setReq (s : State) (r : Req) : AtHomeOnly s (s.setReq r) := .of_rest rfl
theorem AtHomeOnly.delReq (s : State) (id : Nat) : AtHomeOnly s (s.delReq id) := .of_rest rfl
theorem AtHomeOnly.after (s : State) (n : Nat) (e : Event) : AtHomeOnly s (s.after n e) := .of_rest rfl
theorem AtHomeOnly.setFull (s : State) (tile off : Nat) (b : Bool) : AtHomeOnly s (s.setFull tile off b) := .of_rest rfl
theorem AtHomeOnly.setPoison (s : State) (home line : Nat) (b : Bool) : AtHomeOnly s (s.setPoison home line b) := .of_rest rfl

theorem AtHomeOnly.setBuoys (s : State) (tile : Nat) (b : List Buoy) (age : Nat) : AtHomeOnly s (s.setBuoys (64 + tile) b age) := by
  unfold State.setBuoys
  rw [if_neg (by omega)]
  refine ⟨rfl, ⟨[], (List.append_nil _).symm, rfl⟩, fun k => ?_⟩
  rw [State.tile_updTile]
  split
  · rename_i hk
    rw [hk]
  · rfl

/-! ### Notices -/

/-- The notices of a write, before the write is answered: each watcher's is on its way, and nothing else travels that did not before. -/
structure Noticed (s t : State) (home line ack : Nat) (ws : List Buoy) : Prop where
  only : AtHomeOnly s t
  mem : t.mem = s.mem
  attrs : t.attrs = s.attrs
  reqs : t.net.reqs = s.net.reqs
  none : ws = [] → t = s
  here : ∀ b ∈ ws, b.slot < 32768 → ⟨s.now + hopNotice home b.slot, .buoyNotice ⟨home, b.line, b.slot, b.ctx, b.mode, b.level, ack⟩⟩ ∈ t.net.pend
  away : ∀ b ∈ ws, 32768 ≤ b.slot → ∃ n, ⟨n, ack, b.slot / 32768 - 1, home, b.line, false⟩ ∈ t.net.away ∧
    (b.slot / 32768 - 1, .buoyNotice ⟨foreignHome + 1 + s.pkg.podIndex.toNat, b.line, b.slot % 32768, b.ctx, b.mode, b.level, n⟩) ∈ t.net.outbox
  pend : s.net.pend ⊆ t.net.pend
  out : s.net.outbox ⊆ t.net.outbox
  gone : s.net.away ⊆ t.net.away

theorem noticed_sendNotice (s : State) (home line ack : Nat) (b : Buoy) : Noticed s (s.sendNotice home ack b false) home line ack [b] := by
  unfold State.sendNotice
  dsimp only
  split
  · rename_i hb
    refine ⟨.after .., rfl, rfl, rfl, by simp, ?_, ?_, by simp [State.after], fun _ h => h, fun _ h => h⟩
    · simp only [List.mem_singleton, forall_eq]
      exact fun _ => List.mem_append_right _ (List.mem_singleton.2 rfl)
    · simp only [List.mem_singleton, forall_eq]
      exact fun h => absurd hb (by omega)
  · rename_i hb
    refine ⟨⟨rfl, ⟨[_], rfl, rfl⟩, fun _ => rfl⟩, rfl, rfl, rfl, by simp, ?_, ?_, fun _ h => h, by simp [State.post, State.updNet, State.fresh],
      by simp [State.post, State.updNet, State.fresh]⟩
    · simp only [List.mem_singleton, forall_eq]
      exact fun h => absurd h hb
    · simp only [List.mem_singleton, forall_eq]
      exact fun _ => ⟨s.net.nextId, List.mem_append_right _ (List.mem_singleton.2 rfl), List.mem_append_right _ (List.mem_singleton.2 rfl)⟩

theorem Noticed.refl (s : State) (home line ack : Nat) : Noticed s s home line ack [] :=
  ⟨.refl s, rfl, rfl, rfl, fun _ => rfl, by simp, by simp, fun _ h => h, fun _ h => h, fun _ h => h⟩

theorem Noticed.trans {s t u : State} {home line ack : Nat} {ws ws' : List Buoy} (h : Noticed s t home line ack ws) (h' : Noticed t u home line ack ws') :
    Noticed s u home line ack (ws ++ ws') := by
  have hnow := h.only.now_eq
  have hpkg : t.pkg = s.pkg := by rw [h.only.rest]
  refine ⟨h.only.trans h'.only, h'.mem.trans h.mem, h'.attrs.trans h.attrs, h'.reqs.trans h.reqs, fun hn => ?_, fun b hb hlt => ?_, fun b hb hge => ?_,
    List.Subset.trans h.pend h'.pend, List.Subset.trans h.out h'.out, List.Subset.trans h.gone h'.gone⟩
  · obtain ⟨hw, hw'⟩ := List.append_eq_nil_iff.1 hn
    rw [h'.none hw', h.none hw]
  · obtain hb | hb := List.mem_append.1 hb
    · exact h'.pend (h.here b hb hlt)
    · rw [← hnow]
      exact h'.here b hb hlt
  · obtain hb | hb := List.mem_append.1 hb
    · obtain ⟨n, hn, ho⟩ := h.away b hb hge
      exact ⟨n, h'.gone hn, h'.out ho⟩
    · rw [← hpkg]
      exact h'.away b hb hge

theorem noticed_foldl (home line ack : Nat) (ws : List Buoy) (s : State) :
    Noticed s (ws.foldl (fun s b => s.sendNotice home ack b false) s) home line ack ws := by
  induction ws generalizing s with
  | nil => exact .refl ..
  | cons b ws ih => exact (noticed_sendNotice s home line ack b).trans (ih _)

/-- A change of the buoys of a slice, after its notices. -/
theorem Noticed.setBuoys {s t : State} {tile line ack : Nat} {ws : List Buoy} (h : Noticed s t (64 + tile) line ack ws) (hws : ws ≠ [])
    (b : List Buoy) (age : Nat) : Noticed s (t.setBuoys (64 + tile) b age) (64 + tile) line ack ws := by
  have hrest : t.setBuoys (64 + tile) b age = { t with tiles := (t.setBuoys (64 + tile) b age).tiles } := by
    unfold State.setBuoys
    rw [if_neg (by omega)]
    rfl
  have honly := h.only.trans (.setBuoys t tile b age)
  rw [hrest] at honly ⊢
  exact ⟨honly, h.mem, h.attrs, h.reqs, fun hn => absurd hn hws, h.here, h.away, h.pend, h.out, h.gone⟩

/-- A write's notices go to the watchers of its line. -/
theorem noticed_notify (s : State) (tile line ack : Nat) : Noticed s (s.notify (64 + tile) line ack none).2 (64 + tile) line ack
    (watchersOf s (64 + tile) line) ∧ (s.notify (64 + tile) line ack none).1 = (watchersOf s (64 + tile) line).length := by
  have hhit : (s.buoysOf (64 + tile)).filter (fun e => e.line == line && !((none : Option Nat) == some e.slot)) = watchersOf s (64 + tile) line := by
    simp [watchersOf]
  unfold State.notify
  dsimp only
  rw [hhit]
  refine ⟨?_, rfl⟩
  split
  · exact noticed_foldl ..
  · rename_i hne
    exact (noticed_foldl ..).setBuoys (by simpa using hne) ..

/-! ### Answers -/

/-- The notices of a write are on their way, seen from the state in which the request was performed. -/
structure NoticesOut (s v : State) (q : Req) (ws : List Buoy) : Prop where
  now_ : v.now = s.now
  none : ws = [] → v.net.pend = s.net.pend
  here : ∀ b ∈ ws, b.slot < 32768 →
    ⟨s.now + hopNotice q.home b.slot, .buoyNotice ⟨q.home, q.line, b.slot, b.ctx, b.mode, b.level, q.id⟩⟩ ∈ v.net.pend
  away : ∀ b ∈ ws, 32768 ≤ b.slot → ∃ n, ⟨n, q.id, b.slot / 32768 - 1, q.home, q.line, false⟩ ∈ v.net.away ∧
    (b.slot / 32768 - 1, .buoyNotice ⟨foreignHome + 1 + s.pkg.podIndex.toNat, q.line, b.slot % 32768, b.ctx, b.mode, b.level, n⟩) ∈ v.net.outbox

/-- The notices of a write, from a state that has the messages and the package of another, to one with the same messages. -/
theorem NoticesOut.of_noticed {s w u v : State} {q : Req} {ws : List Buoy} (h : Noticed w u q.home q.line q.id ws) (hline : ∀ b ∈ ws, b.line = q.line)
    (hnet : w.net = s.net) (hpkg : w.pkg = s.pkg) (hv : v.net = u.net) (hvp : v.pkg = u.pkg) : NoticesOut s v q ws := by
  have hwnow : w.now = s.now := congrArg (fun p : Pkg => p.cycle.toNat) hpkg
  have hnow : v.now = s.now := (congrArg (fun p : Pkg => p.cycle.toNat) hvp).trans (h.only.now_eq.trans hwnow)
  refine ⟨hnow, fun hn => by rw [hv, h.none hn, hnet], fun b hb hlt => ?_, fun b hb hge => ?_⟩
  · rw [hv, ← hwnow, ← hline b hb]
    exact h.here b hb hlt
  · rw [hv, ← hpkg, ← hline b hb]
    exact h.away b hb hge

/-- Only what is asked and what is in flight differ. -/
def OnlyAsked (v t : State) : Prop := t = { v with net := { v.net with reqs := t.net.reqs, pend := t.net.pend } }

theorem OnlyAsked.home {v t : State} (h : OnlyAsked v t) : AtHomeOnly v t := .of_rest (by rw [h])
theorem OnlyAsked.mem {v t : State} (h : OnlyAsked v t) : t.mem = v.mem := by rw [h]
theorem OnlyAsked.attrs {v t : State} (h : OnlyAsked v t) : t.attrs = v.attrs := by rw [h]
theorem OnlyAsked.tiles {v t : State} (h : OnlyAsked v t) : t.tiles = v.tiles := by rw [h]

theorem State.reply_here {r : Req} (hr : r.source = none) (s : State) (res : ReqRes) (extra : Nat) : s.reply r res extra =
    (s.setReq { r with stage := .reply, res := res, since := s.now + extra }).after (hopHome r.tile r.home + extra) (.accessReply r.id none) := by
  unfold State.reply
  rw [hr]

theorem onlyAsked_reply {r : Req} (hr : r.source = none) (s : State) (res : ReqRes) (extra : Nat) : OnlyAsked s (s.reply r res extra) := by
  rw [State.reply_here hr]
  rfl

theorem State.req?_setReq_same (s : State) (r : Req) : (s.setReq r).req? r.id = some r := Map.get?_set_same ..

/-- A reply is on its way at once where no notice goes out. -/
theorem answered_reply {s v : State} {q : Req} (hq : q.source = none) (hnow : v.now = s.now) (hpend : v.net.pend = s.net.pend) (data : List Byte)
    (extra : Nat) : Answered s (v.reply q (.ok data) extra) q [] data extra := by
  rw [State.reply_here hq, hnow]
  refine ⟨fun _ => ⟨State.req?_setReq_same v { q with stage := .reply, res := .ok data, since := s.now + extra }, ?_⟩, fun h => absurd rfl h, by simp, by simp⟩
  show v.net.pend ++ [⟨v.now + _, _⟩] = _
  rw [hpend, hnow]

theorem onlyAsked_acknowledge {q : Req} (hq : q.source = none) (v : State) (n : Nat) (data : List Byte) (extra : Nat) :
    OnlyAsked v (v.acknowledge q n data extra) := by
  unfold State.acknowledge
  split
  · rfl
  · split
    · rfl
    · exact onlyAsked_reply hq ..

/-- A request that somebody waits for is answered once its notices have been taken. -/
theorem answered_acknowledge {s v : State} {q : Req} {ws : List Buoy} (h : NoticesOut s v q ws) (hq : q.source = none) (hk : q.kind.isUpdate = false)
    (data : List Byte) (extra : Nat) : Answered s (v.acknowledge q ws.length data extra) q ws data extra := by
  unfold State.acknowledge
  obtain rfl | hws := eq_or_ne ws []
  · rw [if_neg (by simp), if_neg (by simp [hk])]
    exact answered_reply hq h.now_ (h.none rfl) data extra
  · rw [if_pos (by simpa using hws)]
    exact ⟨fun hn => absurd hn hws, fun _ => State.req?_setReq_same v { q with stage := .notices, notices := ws.length, res := .ok data }, h.here, h.away⟩

/-! ### Bytes of a line -/

theorem Wrote.of_mem {s t t' : State} {base n mask : Nat} {data : List Byte} (h : Wrote s t base n mask data) (hm : t'.mem = t.mem) :
    Wrote s t' base n mask data := by
  unfold Wrote at *
  rwa [hm]

theorem sramByte_line (tile off : Nat) : sramByte tile off = sramByte tile (off / 64 * 64) + off % 64 := by
  unfold sramByte
  omega

theorem lineBase_slice (tile line : Nat) : lineBase (64 + tile) line = sramByte tile (line * 64) := by
  unfold lineBase
  rw [if_neg (by omega), Nat.add_sub_cancel_left]

/-- A masked write within a line, at a place in it. -/
theorem Memory.read_writeMasked_at {m : Memory} (hm : m.wf = true) (base o mask : Nat) (data : List Byte) (a : Nat) :
    (m.writeMasked base (mask * 2 ^ o) (List.replicate o 0 ++ data)).read a =
      if base + o ≤ a ∧ a < base + o + data.length ∧ mask.testBit (a - (base + o)) = true then data.getD (a - (base + o)) 0 else m.read a := by
  have hlen : (List.replicate o (0 : Byte) ++ data).length = o + data.length := by simp
  by_cases ha : base ≤ a ∧ a < base + (o + data.length)
  · obtain ⟨i, rfl⟩ := Nat.exists_eq_add_of_le ha.1
    have hi : i < (List.replicate o (0 : Byte) ++ data).length := by omega
    rw [Memory.read_writeMasked hm _ _ _ i hi, Nat.testBit_mul_two_pow, Nat.add_sub_add_left]
    obtain hio | hio := Nat.lt_or_ge i o
    · rw [if_neg (by simp [show ¬o ≤ i by omega]), if_neg (by omega)]
    · have hget : (List.replicate o (0 : Byte) ++ data)[i] = data.getD (i - o) 0 := by
        rw [List.getElem_append_right (by simpa using hio), List.getD_eq_getElem?_getD, List.getElem?_eq_getElem (by omega)]
        simp
      rw [hget]
      refine if_congr ?_ rfl rfl
      simp only [hio, decide_true, Bool.true_and]
      exact ⟨fun h => ⟨by omega, by omega, h⟩, fun h => h.2.2⟩
  · rw [Memory.read_writeMasked_other hm _ _ _ _ (by omega), if_neg (by omega)]

/-- A line of a slice after a masked write; one that is written whole loses its poison. -/
def State.wroteLine (s : State) (tile line mask : Nat) (data : List Byte) : State :=
  let t := { s with mem := s.mem.writeMasked (sramByte tile (line * 64)) mask data }
  if mask % 2 ^ 64 = fullMask then t.setPoison (64 + tile) line false else t

theorem State.performWrite_slice (s : State) (tile line mask ack : Nat) (data : List Byte) :
    s.performWrite (64 + tile) line none mask data ack none = (s.wroteLine tile line mask data).notify (64 + tile) line ack none := by
  have hline : s.writeLine (64 + tile) line none mask data = { s with mem := s.mem.writeMasked (sramByte tile (line * 64)) mask data } := by
    unfold State.writeLine
    dsimp only
    rw [if_pos (by simp), lineBase_slice]
  unfold State.performWrite State.wroteLine
  dsimp only
  rw [hline]

theorem State.wroteLine_rest (s : State) (tile line mask : Nat) (data : List Byte) : s.wroteLine tile line mask data =
    { s with mem := s.mem.writeMasked (sramByte tile (line * 64)) mask data
             attrs := { s.attrs with poison := (s.wroteLine tile line mask data).attrs.poison } } := by
  unfold State.wroteLine
  dsimp only
  split <;> rfl

theorem wrote_wroteLine {s : State} (hm : s.mem.wf = true) (tile off mask n : Nat) (data : List Byte) (hd : data.length = n) :
    Wrote s (s.wroteLine tile (off / 64) (mask * 2 ^ (off % 64)) (List.replicate (off % 64) 0 ++ data)) (sramByte tile off) n mask data := by
  intro a
  rw [State.wroteLine_rest, sramByte_line tile off, ← hd]
  exact Memory.read_writeMasked_at hm ..

/-! ### A write at a slice -/

/-- A write of a request at a slice, its bytes and its notices, before it is answered. -/
structure Written (s t : State) (q : Req) (ws : List Buoy) (base n mask : Nat) (data : List Byte) : Prop where
  only : AtHomeOnly s t
  full : t.attrs.full = s.attrs.full
  wrote : Wrote s t base n mask data
  reqs : t.net.reqs = s.net.reqs
  out : NoticesOut s t q ws

/-- A write from a state that differs from `s` in the buoys of the slice at most. -/
theorem written_performWrite {s w : State} {tile off mask n : Nat} {data : List Byte} {q : Req} (honly : AtHomeOnly s w) (hmem : w.mem = s.mem)
    (hattrs : w.attrs = s.attrs) (hnet : w.net = s.net) (hm : s.mem.wf = true) (hd : data.length = n) (hh : q.home = 64 + tile) (hl : q.line = off / 64) :
    let p := w.performWrite (64 + tile) (off / 64) none (mask * 2 ^ (off % 64)) (List.replicate (off % 64) 0 ++ data) q.id none
    Written s p.2 q (watchersOf w (64 + tile) (off / 64)) (sramByte tile off) n mask data ∧ p.1 = (watchersOf w (64 + tile) (off / 64)).length := by
  dsimp only
  rw [State.performWrite_slice]
  have hw := wrote_wroteLine (s := w) (by rw [hmem, hm]) tile off mask n data hd
  have hrest := State.wroteLine_rest w tile (off / 64) (mask * 2 ^ (off % 64)) (List.replicate (off % 64) 0 ++ data)
  generalize w.wroteLine tile (off / 64) (mask * 2 ^ (off % 64)) (List.replicate (off % 64) 0 ++ data) = w' at hw hrest
  obtain ⟨hn, hlen⟩ := noticed_notify w' tile (off / 64) q.id
  have hws : watchersOf w' (64 + tile) (off / 64) = watchersOf w (64 + tile) (off / 64) := by
    rw [hrest]
    rfl
  rw [hws] at hn hlen
  have hpkg : w'.pkg = s.pkg := by rw [hrest, honly.rest]
  refine ⟨⟨(honly.trans (.of_rest (by rw [hrest]))).trans hn.only, ?_, ?_, by rw [hn.reqs, hrest, hnet], ?_⟩, hlen⟩
  · rw [hn.attrs, hrest, hattrs]
  · intro a
    rw [hn.mem, ← hmem]
    exact hw a
  · have hn' : Noticed w' (w'.notify (64 + tile) (off / 64) q.id none).2 q.home q.line q.id (watchersOf w (64 + tile) (off / 64)) := by
      rw [hh, hl]
      exact hn
    refine .of_noticed hn' (fun b hb => ?_) (by rw [hrest, hnet]) hpkg rfl rfl
    rw [hl]
    exact eq_of_beq (List.mem_filter.1 hb).2

end Sys2Proof.Machine
end


section
/-! PROOF. The requests that a slice performs, one form after another (R95, R96, R112, R118, R328 to R332). -/

namespace Sys2Proof.Machine

/-! ### What a slice holds -/

theorem Memory.readN_eq_map (m : Memory) (k n : Nat) : m.readN k n = (List.range n).map fun i => m.read (k + i) := by
  induction n generalizing k with
  | zero => rfl
  | succ n ih => simp [Memory.readN, ih, List.range_succ_eq_map, Nat.add_right_comm, Nat.add_assoc]

theorem drop_take_map_range {α : Type} (f : Nat → α) {o n m : Nat} (h : o + n ≤ m) :
    (((List.range m).map f).drop o).take n = (List.range n).map fun i => f (o + i) := by
  refine List.ext_getElem (by simp; omega) fun i hi hi' => ?_
  simp

/-- What a request reads at a slice. -/
theorem State.readHome_slice (s : State) {tile off n : Nat} (h : off % 64 + n ≤ 64) : s.readHome (64 + tile) off n none = seenBytes s tile off n := by
  unfold State.readHome State.readLine seenBytes
  dsimp only
  split
  · rw [List.drop_replicate, List.take_replicate]
    congr 1
    omega
  · rw [if_neg (by omega), Memory.readN_eq_map, drop_take_map_range _ h, lineBase_slice]
    simp only [← Nat.add_assoc, ← sramByte_line]

theorem seenBytes_length (s : State) (tile off n : Nat) : (seenBytes s tile off n).length = n := by
  unfold seenBytes
  split <;> simp

/-! ### Combining -/

theorem numberOf_lt (l : List Byte) : numberOf l < 2 ^ (8 * l.length) := by
  induction l with
  | nil => exact Nat.one_pos
  | cons b l ih =>
    have hb := b.isLt
    show b.toNat + 256 * numberOf l < _
    rw [List.length_cons, Nat.mul_succ, Nat.pow_add]
    omega

/-- Two's complement, as a number of `w` bits is read. -/
theorem toInt_ofNat_lt {w a : Nat} (h : a < 2 ^ w) : (BitVec.ofNat w a).toInt = if 2 * a < 2 ^ w then (a : Int) else (a : Int) - (2 ^ w : Nat) := by
  rw [BitVec.toInt, BitVec.toNat_ofNat, Nat.mod_eq_of_lt h]

/-- The model's combining of bytes is the combining of the numbers they make (Table 15.4). -/
theorem combine_eq_combined {op : AmoOp} {n : Nat} {old data : List Byte} (ho : old.length = n) (hd : data.length = n) (hf : op = .fadd → n = 4) :
    combine op n old data = (bytesOfNat n (combined op n (numberOf old) (numberOf data)).1, (combined op n (numberOf old) (numberOf data)).2) := by
  have ha : numberOf old < 2 ^ (8 * n) := ho ▸ numberOf_lt old
  have hb : numberOf data < 2 ^ (8 * n) := hd ▸ numberOf_lt data
  unfold combine combined
  simp only [show bytesVal old = numberOf old from rfl, show bytesVal data = numberOf data from rfl]
  generalize numberOf old = a at ha
  generalize numberOf data = b at hb
  have hA : (BitVec.ofNat (8 * n) a).toNat = a := by rw [BitVec.toNat_ofNat, Nat.mod_eq_of_lt ha]
  have hB : (BitVec.ofNat (8 * n) b).toNat = b := by rw [BitVec.toNat_ofNat, Nat.mod_eq_of_lt hb]
  cases op with
  | add => simp only [leBytes_eq_bytesOfNat, BitVec.toNat_add, hA, hB]
  | and => simp only [leBytes_eq_bytesOfNat, BitVec.toNat_and, hA, hB]
  | or => simp only [leBytes_eq_bytesOfNat, BitVec.toNat_or, hA, hB]
  | xor => simp only [leBytes_eq_bytesOfNat, BitVec.toNat_xor, hA, hB]
  | min =>
    simp only [leBytes_eq_bytesOfNat, BitVec.slt, toInt_ofNat_lt ha, toInt_ofNat_lt hb, decide_eq_true_eq, apply_ite BitVec.toNat, hA, hB]
  | max =>
    simp only [leBytes_eq_bytesOfNat, BitVec.slt, toInt_ofNat_lt ha, toInt_ofNat_lt hb, decide_eq_true_eq, apply_ite BitVec.toNat, hA, hB]
  | minn =>
    simp only [leBytes_eq_bytesOfNat, BitVec.ult, hA, hB, decide_eq_true_eq, apply_ite BitVec.toNat]
    rw [show (if b < a then b else a) = Nat.min a b by show _ = min a b; split <;> omega]
  | maxn =>
    simp only [leBytes_eq_bytesOfNat, BitVec.ult, hA, hB, decide_eq_true_eq, apply_ite BitVec.toNat]
    rw [show (if a < b then b else a) = Nat.max a b by show _ = max a b; split <;> omega]
  | swap => simp only [leBytes_eq_bytesOfNat, hB]
  | fadd =>
    obtain rfl := hf rfl
    simp only [leBytes_eq_bytesOfNat]

/-! ### A request at its slice -/

/-- The place of a request that has passed the checks of a slice. -/
def sliceSpot (tile off : Nat) : HomeSpot := ⟨64 + tile, off, none, false, none⟩

/-- A request as it comes to its home. -/
def State.arrived (s : State) (r : Req) : Req := { r with path := if r.flies then r.path + (s.now - r.since) else r.path, flies := false }

theorem arrived_eq {s : State} {r : Req} (hr : r.cls.away = false) :
    (if r.flies && !r.cls.away then { r with path := r.path + (s.now - r.since), flies := false } else r) = s.arrived r := by
  unfold State.arrived
  cases hf : r.flies with
  | false => cases r; simp_all
  | true => simp [hr]

/-- What a request writes at its slice, from a state on, and its notices. -/
def State.putAt (w : State) (r : Req) (tile off mask : Nat) (data : List Byte) : Nat × State :=
  w.performWrite (64 + tile) (off / 64) none (mask * 2 ^ (off % 64)) (List.replicate (off % 64) 0 ++ data) r.id none

/-- What a request that writes, reserves or uses a word's bit does at its slice, once nothing keeps it from being performed. -/
def State.sliceAct (s : State) (q : Req) (tile off : Nat) : State :=
  let old := seenBytes s tile off q.n
  match q.kind with
  | .store =>
    let p := s.putAt q tile off q.mask q.data
    p.2.acknowledge q p.1 [] 0
  | .amo op =>
    let c := combine op q.n old q.data
    let p := s.putAt q tile off q.mask c.1
    p.2.acknowledge q p.1 (old ++ [c.2.setWidth 8]) 4
  | .rupd op =>
    let p := s.putAt q tile off q.mask (combine op q.n old q.data).1
    p.2.acknowledge q p.1 [] 0
  | .cas v =>
    if bytesVal old = bytesVal (regBytes q.n v) then
      let p := s.putAt q tile off q.mask q.data
      p.2.acknowledge q p.1 old 4
    else s.reply q (.ok old) 4
  | .ldr => (s.placeBuoy (64 + tile) (off / 64) q.slot q.ctx 4 0).reply q (.ok old) 4
  | .stc =>
    if s.hasBuoy (64 + tile) (off / 64) q.slot q.ctx 4 then
      let p := (s.removeBuoy (64 + tile) (off / 64) q.slot q.ctx (2 ^ 4)).putAt q tile off q.mask q.data
      p.2.acknowledge q p.1 [1] 4
    else s.reply q (.ok [0]) 4
  | _ => s.feRequest q tile off

section
variable {s : State} {id tile off : Nat} {r : Req} (h : AtSlice s id r tile off)
include h

/-- A request that reaches its slice, and passes its checks there, is performed. -/
theorem atHome_slice : s.atHome r = s.perform (s.arrived r) (sliceSpot tile off) := by
  unfold State.atHome
  dsimp only
  rw [arrived_eq (by rw [h.cls]; rfl)]
  have hstage : ((s.arrived r).stage != .travel) = false := by
    show (r.stage != .travel) = false
    rw [h.stage]
    rfl
  have hwait : s.mustWait (s.arrived r) = false := h.turn
  have hcls : (s.arrived r).cls = .sram tile off := h.cls
  have hfault : s.windowFault tile off (s.arrived r).asid (s.arrived r).kind.writes = none := h.window
  rw [hstage, hwait, hcls]
  dsimp only [Bool.false_and, Bool.false_eq_true]
  rw [if_neg Bool.false_ne_true, hfault]
  rfl

theorem exec_homeAccess_slice : exec (.homeAccess id) s = .next (s.perform (s.arrived r) (sliceSpot tile off)) := by
  rw [exec_homeAccess, execHomeAccess, h.listed, ← atHome_slice h]

theorem exec_updateApply_slice (hk : r.kind.isUpdate = true) : exec (.updateApply id) s = .next (s.perform (s.arrived r) (sliceSpot tile off)) := by
  rw [exec_updateApply, execUpdateApply, h.listed, ← atHome_slice h]
  exact if_pos hk

/-- Nothing keeps the request from being performed: no hold, no poison, no message of the watcher. -/
theorem clear_slice : (s.net.holds.any fun o => o.home == 64 + tile && o.line == off / 64) = false ∧ s.poisoned (64 + tile) (off / 64) = false ∧
    s.lineUnsettled (s.arrived r) (64 + tile) (off / 64) = false := by
  refine ⟨?_, h.clean, h.settled⟩
  rw [List.any_eq_false]
  intro o ho
  simpa using h.free o ho

theorem perform_load (hk : r.kind = .load) (hw : r.watch = none) (hs : (s.slot r.slot).speculates = false) :
    s.perform (s.arrived r) (sliceSpot tile off) = s.reply (atItsHome s r (64 + tile) (off / 64)) (.ok (seenBytes s tile off r.n)) 0 := by
  obtain ⟨hfree, hclean, hset⟩ := clear_slice h
  have hk' : (s.arrived r).kind = .load := hk
  have hw' : (s.arrived r).watch = none := hw
  have hs' : (s.slot (s.arrived r).slot).speculates = false := hs
  unfold State.perform sliceSpot
  dsimp only
  rw [hfree, hclean, hset, ← State.readHome_slice s h.fits]
  simp only [hk', hw', hs', Bool.and_false, Bool.false_and, Bool.or_false, Bool.false_eq_true, if_false]
  simp only [atItsHome, hk, hw]
  rfl

/-- A request is performed as its kind says; a plain read and the read of a waiting reservation are apart. -/
theorem perform_slice (hk : r.kind ≠ .load ∧ r.kind ≠ .fetch ∧ r.kind ≠ .probe ∧ r.kind ≠ .wrs) :
    s.perform (s.arrived r) (sliceSpot tile off) = s.sliceAct (atItsHome s r (64 + tile) (off / 64)) tile off := by
  obtain ⟨hfree, hclean, hset⟩ := clear_slice h
  have hcls : (s.arrived r).cls = .sram tile off := h.cls
  have hread : s.readHome (64 + tile) off (s.arrived r).n none = seenBytes s tile off (s.arrived r).n := State.readHome_slice s h.fits
  obtain ⟨hload, hfetch, hprobe, hwrs⟩ := hk
  unfold State.perform sliceSpot
  dsimp only
  rw [hfree, hclean, hset, hread]
  cases hk : r.kind with
  | load => exact absurd hk hload
  | fetch => exact absurd hk hfetch
  | probe => exact absurd hk hprobe
  | wrs => exact absurd hk hwrs
  | _ =>
    have hk' : (s.arrived r).kind = r.kind := rfl
    have hq : (atItsHome s r (64 + tile) (off / 64)).kind = r.kind := rfl
    simp only [hk', hk, hcls, Bool.and_false, Bool.false_and, Bool.or_false, Bool.false_eq_true, if_false]
    unfold State.sliceAct
    rw [hq, hk]
    simp only [atItsHome, hk, ← h.cls]
    rfl

theorem perform_wrs (hk : r.kind = .wrs) (hb : s.hasBuoy (64 + tile) (off / 64) r.slot r.ctx 4 = false) :
    s.perform (s.arrived r) (sliceSpot tile off) = 
      s.reply (atItsHome s r (64 + tile) (off / 64)) (.ok (seenBytes s tile off r.n)) 4 := by
  obtain ⟨hfree, hclean, hset⟩ := clear_slice h
  have hk' : (s.arrived r).kind = .wrs := hk
  have hb' : s.hasBuoy (64 + tile) (off / 64) (s.arrived r).slot (s.arrived r).ctx 4 = false := hb
  unfold State.perform sliceSpot
  dsimp only
  rw [hfree, hclean, hset, ← State.readHome_slice s h.fits]
  simp only [hk', hb', Bool.and_false, Bool.false_and, Bool.or_false, Bool.false_eq_true, if_false]
  simp only [atItsHome, hk]
  rfl

end

end Sys2Proof.Machine
end


section
/-! PROOF. Requests and updates at a slice, clause by clause (R93, R95, R96, R112, R118, R328 to R332). -/

namespace Sys2Proof.Machine

/-! ### Buoys of a slice -/

theorem State.setBuoys_slice (s : State) (tile : Nat) (b : List Buoy) (age : Nat) :
    s.setBuoys (64 + tile) b age = s.updTile tile fun t => { t with buoys := b, buoyAge := age } := by
  unfold State.setBuoys
  rw [if_neg (by omega), Nat.add_sub_cancel_left]

theorem State.buoysOf_slice (s : State) (tile : Nat) : s.buoysOf (64 + tile) = (s.tile tile).buoys := by
  unfold State.buoysOf
  rw [if_neg (by omega), Nat.add_sub_cancel_left]

theorem State.buoysOf_setBuoys_slice (s : State) (tile : Nat) (b : List Buoy) (age : Nat) : (s.setBuoys (64 + tile) b age).buoysOf (64 + tile) = b := by
  rw [State.setBuoys_slice, State.buoysOf_slice, State.tile_updTile, if_pos rfl]

/-- The watcher of a reservation (R331). -/
def Buoy.holds (b : Buoy) (slot : Nat) (ctx : W32) : Bool := b.slot == slot && b.ctx == ctx && b.mode == 4

theorem hasBuoy_iff {s : State} {tile line slot : Nat} {ctx : W32} :
    s.hasBuoy (64 + tile) line slot ctx 4 = true ↔ ∃ b ∈ watchersOf s (64 + tile) line, b.holds slot ctx = true := by
  simp only [State.hasBuoy, watchersOf, List.any_eq_true, List.mem_filter, Buoy.holds, Bool.and_eq_true]
  constructor
  · rintro ⟨b, hb, ⟨⟨hs, hc⟩, hl⟩, hm⟩
    exact ⟨b, ⟨hb, hl⟩, ⟨hs, hc⟩, hm⟩
  · rintro ⟨b, ⟨hb, hl⟩, ⟨hs, hc⟩, hm⟩
    exact ⟨b, hb, ⟨⟨hs, hc⟩, hl⟩, hm⟩

/-- A conditional store's own watcher is gone before the write's notices go out. -/
theorem watchersOf_removeBuoy (s : State) (tile line slot : Nat) (ctx : W32) :
    watchersOf (s.removeBuoy (64 + tile) line slot ctx (2 ^ 4)) (64 + tile) line = (watchersOf s (64 + tile) line).filter fun b => !b.holds slot ctx := by
  unfold watchersOf State.removeBuoy
  rw [State.buoysOf_setBuoys_slice, List.filter_filter, List.filter_filter]
  refine List.filter_congr fun b _ => ?_
  have hmode : (2 ^ 4).testBit b.mode = (b.mode == 4) := by
    rw [Nat.testBit_two_pow, Bool.eq_iff_iff, decide_eq_true_iff, beq_iff_eq]
    exact eq_comm
  rw [hmode, Buoy.holds]
  cases b.line == line <;> simp

/-! ### Bytes and numbers -/

theorem regBytes_eq_bytesOfNat (n : Nat) (v : W64) : regBytes n v = bytesOfNat n v.toNat := by
  unfold regBytes bytesOfNat
  refine List.map_congr_left fun k _ => BitVec.eq_of_toNat_eq ?_
  rw [BitVec.extractLsb'_toNat, BitVec.toNat_ofNat, Nat.shiftRight_eq_div_pow]

theorem bytesVal_inj {a b : List Byte} (hl : a.length = b.length) (h : bytesVal a = bytesVal b) : a = b := by
  induction a generalizing b with
  | nil => exact (List.length_eq_zero_iff.1 hl.symm).symm
  | cons x a ih =>
    cases b with
    | nil => simp at hl
    | cons y b =>
      have hx := x.isLt
      have hy := y.isLt
      have h' : x.toNat + 256 * bytesVal a = y.toNat + 256 * bytesVal b := h
      rw [BitVec.eq_of_toNat_eq (show x.toNat = y.toNat by omega), ih (by simpa using hl) (by omega)]

theorem bytesVal_regBytes_iff (s : State) (tile off n : Nat) (v : W64) :
    bytesVal (seenBytes s tile off n) = bytesVal (regBytes n v) ↔ seenBytes s tile off n = bytesOfNat n v.toNat := by
  rw [regBytes_eq_bytesOfNat]
  exact ⟨bytesVal_inj (by simp [seenBytes_length, bytesOfNat]), congrArg _⟩

/-! ### The bit of a word -/

theorem NatSet.has_iff {l : NatSet} {k : Nat} : l.has k = true ↔ k ∈ l := by
  simp [NatSet.has]

theorem NatSet.mem_add {l : NatSet} {k j : Nat} : j ∈ l.add k ↔ j = k ∨ j ∈ l := by
  induction l with
  | nil => simp [NatSet.add]
  | cons a l ih =>
    unfold NatSet.add
    split
    · simp
    · split
      · rename_i hk
        simp [hk]
      · rw [List.mem_cons, ih, List.mem_cons, or_left_comm]

theorem NatSet.has_put (l : NatSet) (k j : Nat) (b : Bool) : (l.put k b).has j = if j = k then b else l.has j := by
  rw [Bool.eq_iff_iff]
  unfold NatSet.put
  cases b with
  | true =>
    rw [if_pos rfl, NatSet.has_iff, NatSet.mem_add]
    split <;> simp_all [NatSet.has_iff]
  | false =>
    rw [if_neg (by simp), NatSet.has_iff, NatSet.del, List.mem_filter]
    split <;> simp_all [NatSet.has_iff]

theorem fullAfter_setFull {s v : State} (h : v.attrs.full = s.attrs.full) (tile off : Nat) (b : Bool) : FullAfter s (v.setFull tile off b) tile off b := by
  intro u o
  unfold State.isFull
  rw [← h]
  exact NatSet.has_put ..

theorem FullAfter.of_attrs {s t t' : State} {tile off : Nat} {b : Bool} (h : FullAfter s t tile off b) (ha : t'.attrs = t.attrs) :
    FullAfter s t' tile off b := by
  unfold FullAfter State.isFull at *
  rwa [ha]

/-! ### Parked requests -/

theorem Map.mem_set {α : Type} {m : Map α} {k : Nat} {a : α} {e : Nat × α} (h : e ∈ m.set k a) : e = (k, a) ∨ e ∈ m := by
  induction m with
  | nil => exact .inl (List.mem_singleton.1 h)
  | cons x m ih =>
    obtain ⟨j, b⟩ := x
    unfold Map.set at h
    repeat' split at h
    all_goals simp only [List.mem_cons] at h ⊢
    all_goals grind

theorem parked_eq_nil_iff {s : State} {home word : Nat} :
    s.parked home word = [] ↔ ∀ e ∈ s.net.reqs, ¬(e.2.stage = .park ∧ e.2.home = home ∧ e.2.word = word) := by
  have hne (l acc : List Req) (hacc : acc ≠ []) : l.foldl (fun (acc : List Req) r =>
      (acc.takeWhile fun o => o.order < r.order) ++ [r] ++ (acc.dropWhile fun o => o.order < r.order)) acc ≠ [] := by
    induction l generalizing acc with
    | nil => exact hacc
    | cons r l ih => exact ih _ (by simp)
  have hnil : s.parked home word = [] ↔
      (s.net.reqs.filter fun e => e.2.stage == .park && e.2.home == home && e.2.word == word).map (·.2) = [] := by
    unfold State.parked
    dsimp only
    generalize List.map _ _ = l
    cases l with
    | nil => exact ⟨fun _ => rfl, fun _ => rfl⟩
    | cons r l => exact ⟨fun h => absurd h (hne l _ (by simp)), fun h => absurd h (by simp)⟩
  rw [hnil, List.map_eq_nil_iff, List.filter_eq_nil_iff]
  simp [and_assoc]

theorem feScan_of_parked {s : State} {tile off : Nat} (h : s.parked (64 + tile) (off / 8) = []) (n : Nat) : s.feScan tile off n = s := by
  cases n with
  | zero => rfl
  | succ n =>
    unfold State.feScan
    rw [h]
    rfl

/-! ### What a request at a slice comes to -/

section
variable {s : State} {id tile off : Nat} {r : Req} (h : AtSlice s id r tile off)
include h

theorem AtSlice.source_ : (atItsHome s r (64 + tile) (off / 64)).source = none := h.source

/-- A write of a request at its slice. -/
theorem written_putAt {data : List Byte} (hd : data.length = r.n) :
    Written s (s.putAt (atItsHome s r (64 + tile) (off / 64)) tile off r.mask data).2 (atItsHome s r (64 + tile) (off / 64))
      (watchersOf s (64 + tile) (off / 64)) (sramByte tile off) r.n r.mask data ∧
    (s.putAt (atItsHome s r (64 + tile) (off / 64)) tile off r.mask data).1 = (watchersOf s (64 + tile) (off / 64)).length :=
  written_performWrite (q := atItsHome s r (64 + tile) (off / 64)) (.refl s) rfl rfl rfl h.canon hd rfl rfl

omit h in
/-- The acknowledgement of a write. -/
theorem Written.acknowledged {q : Req} {ws : List Buoy} {base n mask k : Nat} {data : List Byte} {v : State} (hw : Written s v q ws base n mask data)
    (hlen : k = ws.length) (hq : q.source = none) (hk : q.kind.isUpdate = false) (bytes : List Byte) (extra : Nat) :
    let t := v.acknowledge q k bytes extra
    AtHomeOnly s t ∧ t.attrs.full = s.attrs.full ∧ Wrote s t base n mask data ∧ Answered s t q ws bytes extra := by
  rw [hlen]
  have hasked := onlyAsked_acknowledge hq v ws.length bytes extra
  exact ⟨hw.only.trans hasked.home, by rw [hasked.attrs, hw.full], hw.wrote.of_mem hasked.mem, answered_acknowledge hw.out hq hk bytes extra⟩

/-- A reply without a write. -/
theorem replied (data : List Byte) (extra : Nat) :
    let t := s.reply (atItsHome s r (64 + tile) (off / 64)) (.ok data) extra
    AtHomeOnly s t ∧ (t.mem = s.mem ∧ t.attrs = s.attrs) ∧ t.tiles = s.tiles ∧ Answered s t (atItsHome s r (64 + tile) (off / 64)) [] data extra := by
  have hasked := onlyAsked_reply h.source_ s (.ok data) extra
  exact ⟨hasked.home, ⟨hasked.mem, hasked.attrs⟩, hasked.tiles, answered_reply h.source_ rfl rfl data extra⟩

omit h in
/-- A full/empty request whose need is met, at a word where nobody waits. -/
theorem feRequest_met (hp : s.parked (64 + tile) (off / 8) = []) (hmet : r.kind.met (s.isFull tile off) = true)
    {t : State} (ht : s.feAct (atItsHome s r (64 + tile) (off / 64)) tile off = t) (hreqs : ∃ q : Req, t.net.reqs = s.net.reqs.set q.id q ∧ q.stage ≠ .park) :
    s.feRequest (atItsHome s r (64 + tile) (off / 64)) tile off = t := by
  have hpark : t.parked (64 + tile) (off / 8) = [] := by
    obtain ⟨q, hreqs, hq⟩ := hreqs
    rw [parked_eq_nil_iff] at hp ⊢
    rw [hreqs]
    intro e he
    obtain rfl | he := Map.mem_set he
    · exact fun hh => hq hh.1
    · exact hp e he
  unfold State.feRequest
  dsimp only
  refine (if_pos hmet).trans ?_
  rw [ht, feScan_of_parked hpark, ite_self]

end

end Sys2Proof.Machine
end


section
/-! PROOF. Home accesses and applied updates: the statements, from what each form of request comes to at its slice. -/

namespace Sys2Proof.Machine

/-! ### A request as it stands at its home -/

section
variable (s : State) (r : Req) (home line : Nat)
@[simp] theorem atItsHome_id : (atItsHome s r home line).id = r.id := rfl
@[simp] theorem atItsHome_slot : (atItsHome s r home line).slot = r.slot := rfl
@[simp] theorem atItsHome_ctx : (atItsHome s r home line).ctx = r.ctx := rfl
@[simp] theorem atItsHome_kind : (atItsHome s r home line).kind = r.kind := rfl
@[simp] theorem atItsHome_n : (atItsHome s r home line).n = r.n := rfl
@[simp] theorem atItsHome_mask : (atItsHome s r home line).mask = r.mask := rfl
@[simp] theorem atItsHome_data : (atItsHome s r home line).data = r.data := rfl
@[simp] theorem atItsHome_limit : (atItsHome s r home line).limit = r.limit := rfl
@[simp] theorem atItsHome_source : (atItsHome s r home line).source = r.source := rfl
end

section
variable {s : State} {id tile off : Nat} {r : Req} (h : AtSlice s id r tile off)
include h

/-- A write of a request at its slice, and its acknowledgement. -/
theorem put_acknowledged {data : List Byte} (hd : data.length = r.n) (hk : r.kind.isUpdate = false) (bytes : List Byte) (extra : Nat) :
    let q := atItsHome s r (64 + tile) (off / 64)
    let p := s.putAt q tile off r.mask data
    let t := p.2.acknowledge q p.1 bytes extra
    AtHomeOnly s t ∧ t.attrs.full = s.attrs.full ∧ Wrote s t (sramByte tile off) r.n r.mask data ∧
      Answered s t q (watchersOf s (64 + tile) (off / 64)) bytes extra := by
  obtain ⟨hw, hlen⟩ := written_putAt h hd
  exact hw.acknowledged hlen h.source_ hk bytes extra

theorem exec_homeAccess_act (hk : r.kind ≠ .load ∧ r.kind ≠ .fetch ∧ r.kind ≠ .probe ∧ r.kind ≠ .wrs) :
    exec (.homeAccess id) s = .next (s.sliceAct (atItsHome s r (64 + tile) (off / 64)) tile off) := by
  rw [exec_homeAccess_slice h, perform_slice h hk]

/-! ### Loads, stores and atomics -/

theorem home_load (hk : r.kind = .load) (hw : r.watch = none) (hs : (s.slot r.slot).speculates = false) :
    ∃ t, exec (.homeAccess id) s = .next t ∧ AtHomeOnly s t ∧ (t.mem = s.mem ∧ t.attrs = s.attrs) ∧ t.tiles = s.tiles ∧
      Answered s t (atItsHome s r (64 + tile) (off / 64)) [] (seenBytes s tile off r.n) 0 :=
  ⟨_, by rw [exec_homeAccess_slice h, perform_load h hk hw hs], replied h ..⟩

theorem home_store (hk : r.kind = .store) : ∃ t, exec (.homeAccess id) s = .next t ∧ AtHomeOnly s t ∧ t.attrs.full = s.attrs.full ∧
    Wrote s t (sramByte tile off) r.n r.mask r.data ∧
    Answered s t (atItsHome s r (64 + tile) (off / 64)) (watchersOf s (64 + tile) (off / 64)) [] 0 := by
  refine ⟨_, ?_, put_acknowledged h h.data (by rw [hk]; rfl) [] 0⟩
  rw [exec_homeAccess_act h (by simp [hk]), State.sliceAct, atItsHome_kind, hk]
  rfl

theorem home_amo {op : AmoOp} (hk : r.kind = .amo op) (hf : op = .fadd → r.n = 4) :
    let c := combined op r.n (numberOf (seenBytes s tile off r.n)) (numberOf r.data)
    ∃ t, exec (.homeAccess id) s = .next t ∧ AtHomeOnly s t ∧ t.attrs.full = s.attrs.full ∧
      Wrote s t (sramByte tile off) r.n r.mask (bytesOfNat r.n c.1) ∧
      Answered s t (atItsHome s r (64 + tile) (off / 64)) (watchersOf s (64 + tile) (off / 64)) (seenBytes s tile off r.n ++ [c.2.setWidth 8]) 4 := by
  refine ⟨_, ?_, put_acknowledged h (by simp [bytesOfNat]) (by rw [hk]; rfl) _ 4⟩
  rw [exec_homeAccess_act h (by simp [hk]), State.sliceAct, atItsHome_kind, hk]
  have hc := combine_eq_combined (op := op) (seenBytes_length s tile off r.n) h.data hf
  simp only [atItsHome_n, atItsHome_data, hc]
  rfl

theorem home_cas {v : W64} (hk : r.kind = .cas v) :
    (seenBytes s tile off r.n = bytesOfNat r.n v.toNat → ∃ t, exec (.homeAccess id) s = .next t ∧ AtHomeOnly s t ∧ t.attrs.full = s.attrs.full ∧
      Wrote s t (sramByte tile off) r.n r.mask r.data ∧
      Answered s t (atItsHome s r (64 + tile) (off / 64)) (watchersOf s (64 + tile) (off / 64)) (seenBytes s tile off r.n) 4) ∧
    (seenBytes s tile off r.n ≠ bytesOfNat r.n v.toNat → ∃ t, exec (.homeAccess id) s = .next t ∧ AtHomeOnly s t ∧ (t.mem = s.mem ∧ t.attrs = s.attrs) ∧
      t.tiles = s.tiles ∧ Answered s t (atItsHome s r (64 + tile) (off / 64)) [] (seenBytes s tile off r.n) 4) := by
  have hexec := exec_homeAccess_act h (by simp [hk])
  rw [State.sliceAct, atItsHome_kind, hk] at hexec
  constructor
  · intro heq
    exact ⟨_, hexec.trans (congrArg _ (if_pos ((bytesVal_regBytes_iff ..).2 heq))), put_acknowledged h h.data (by rw [hk]; rfl) _ 4⟩
  · intro hne
    exact ⟨_, hexec.trans (congrArg _ (if_neg (mt (bytesVal_regBytes_iff ..).1 hne))), replied h ..⟩

/-! ### Reservations -/

theorem home_ldr (hk : r.kind = .ldr) (hfree : ∀ b ∈ s.buoysOf (64 + tile), ¬(b.slot = r.slot ∧ b.ctx = r.ctx ∧ b.line = off / 64))
    (hroom : (s.buoysOf (64 + tile)).length < 4096) : ∃ t, exec (.homeAccess id) s = .next t ∧ AtHomeOnly s t ∧ (t.mem = s.mem ∧ t.attrs = s.attrs) ∧
      t.buoysOf (64 + tile) = s.buoysOf (64 + tile) ++ [⟨off / 64, r.slot, r.ctx, 4, 0, s.buoyAgeOf (64 + tile)⟩] ∧
      Answered s t (atItsHome s r (64 + tile) (off / 64)) [] (seenBytes s tile off r.n) 4 := by
  have hexec := exec_homeAccess_act h (by simp [hk])
  rw [State.sliceAct, atItsHome_kind, hk] at hexec
  have hplace : s.placeBuoy (64 + tile) (off / 64) r.slot r.ctx 4 0 =
      s.setBuoys (64 + tile) (s.buoysOf (64 + tile) ++ [⟨off / 64, r.slot, r.ctx, 4, 0, s.buoyAgeOf (64 + tile)⟩]) (s.buoyAgeOf (64 + tile) + 1) := by
    unfold State.placeBuoy
    dsimp only
    rw [List.find?_eq_none.2 fun b hb => by simpa [and_assoc] using hfree b hb]
    exact if_pos (by rw [buoyRoom, if_neg (by omega)]; exact hroom)
  have hq := h.source_
  generalize hb : s.setBuoys (64 + tile) _ _ = w at hplace
  have hasked := onlyAsked_reply hq w (.ok (seenBytes s tile off r.n)) 4
  have hw : w = { s with tiles := w.tiles } := by rw [← hb, State.setBuoys_slice]; rfl
  refine ⟨_, hexec.trans (congrArg (fun v => Host.Outcome.next (State.reply v _ (.ok (seenBytes s tile off r.n)) 4)) hplace), ?_, ⟨?_, ?_⟩, ?_, ?_⟩
  · exact AtHomeOnly.trans (hb ▸ .setBuoys ..) hasked.home
  · rw [hasked.mem, hw]
  · rw [hasked.attrs, hw]
  · rw [hasked]
    show w.buoysOf _ = _
    rw [← hb, State.buoysOf_setBuoys_slice]
  · exact answered_reply hq (by rw [hw]; rfl) (by rw [hw]) _ 4

theorem home_stc (hk : r.kind = .stc) :
    ((∃ b ∈ watchersOf s (64 + tile) (off / 64), b.holds r.slot r.ctx = true) → ∃ t, exec (.homeAccess id) s = .next t ∧ AtHomeOnly s t ∧
      t.attrs.full = s.attrs.full ∧ Wrote s t (sramByte tile off) r.n r.mask r.data ∧
      Answered s t (atItsHome s r (64 + tile) (off / 64)) ((watchersOf s (64 + tile) (off / 64)).filter fun b => !b.holds r.slot r.ctx) [1] 4) ∧
    ((∀ b ∈ watchersOf s (64 + tile) (off / 64), b.holds r.slot r.ctx = false) → ∃ t, exec (.homeAccess id) s = .next t ∧ AtHomeOnly s t ∧
      (t.mem = s.mem ∧ t.attrs = s.attrs) ∧ t.tiles = s.tiles ∧ Answered s t (atItsHome s r (64 + tile) (off / 64)) [] [0] 4) := by
  have hexec := exec_homeAccess_act h (by simp [hk])
  rw [State.sliceAct, atItsHome_kind, hk] at hexec
  constructor
  · intro hmine
    refine ⟨_, hexec.trans (congrArg _ (if_pos (hasBuoy_iff.2 hmine))), ?_⟩
    have hw : s.removeBuoy (64 + tile) (off / 64) r.slot r.ctx (2 ^ 4) =
        { s with tiles := (s.removeBuoy (64 + tile) (off / 64) r.slot r.ctx (2 ^ 4)).tiles } := by
      unfold State.removeBuoy
      rw [State.setBuoys_slice]
      rfl
    have hwritten := written_performWrite (s := s) (w := s.removeBuoy (64 + tile) (off / 64) r.slot r.ctx (2 ^ 4)) (tile := tile) (off := off)
      (mask := r.mask) (q := atItsHome s r (64 + tile) (off / 64)) (.setBuoys ..) (by rw [hw]) (by rw [hw]) (by rw [hw]) h.canon h.data rfl rfl
    rw [watchersOf_removeBuoy] at hwritten
    obtain ⟨hput, hlen⟩ := hwritten
    exact hput.acknowledged hlen h.source_ (by rw [atItsHome_kind, hk]; rfl) [1] 4
  · intro hnone
    exact ⟨_, hexec.trans (congrArg _ (if_neg (mt hasBuoy_iff.1 (by simpa using hnone)))), replied h ..⟩

theorem home_wrs (hk : r.kind = .wrs) (hnone : ∀ b ∈ watchersOf s (64 + tile) (off / 64), b.holds r.slot r.ctx = false) :
    ∃ t, exec (.homeAccess id) s = .next t ∧ AtHomeOnly s t ∧ (t.mem = s.mem ∧ t.attrs = s.attrs) ∧ t.tiles = s.tiles ∧
      Answered s t (atItsHome s r (64 + tile) (off / 64)) [] (seenBytes s tile off r.n) 4 := by
  have hb : s.hasBuoy (64 + tile) (off / 64) r.slot r.ctx 4 = false := Bool.eq_false_iff.2 (mt hasBuoy_iff.1 (by simpa using hnone))
  exact ⟨_, by rw [exec_homeAccess_slice h, perform_wrs h hk hb], replied h ..⟩

/-! ### Full/empty words -/

omit h in
theorem State.reply_reqs {q : Req} (hq : q.source = none) (v : State) (res : ReqRes) (extra : Nat) :
    ∃ p : Req, (v.reply q res extra).net.reqs = v.net.reqs.set p.id p ∧ p.stage ≠ .park := by
  rw [State.reply_here hq]
  exact ⟨_, rfl, by simp⟩

omit h in
theorem State.acknowledge_reqs {q : Req} (hq : q.source = none) (hk : q.kind.isUpdate = false) (v : State) (n : Nat) (data : List Byte) (extra : Nat) :
    ∃ p : Req, (v.acknowledge q n data extra).net.reqs = v.net.reqs.set p.id p ∧ p.stage ≠ .park := by
  unfold State.acknowledge
  split
  · exact ⟨_, rfl, by simp⟩
  · rw [if_neg (by simp [hk])]
    exact State.reply_reqs hq ..

theorem exec_homeAccess_fe (hk : r.kind.isFe = true) :
    exec (.homeAccess id) s = .next (s.feRequest (atItsHome s r (64 + tile) (off / 64)) tile off) := by
  have hact : s.sliceAct (atItsHome s r (64 + tile) (off / 64)) tile off = s.feRequest (atItsHome s r (64 + tile) (off / 64)) tile off := by
    unfold State.sliceAct
    rw [atItsHome_kind]
    cases hr : r.kind with
    | ldf | ldff | ste | stef | feclr | feget => rfl
    | _ => simp [hr, ReqKind.isFe] at hk
  rw [exec_homeAccess_act h ⟨?_, ?_, ?_, ?_⟩, hact]
  all_goals
    intro hr
    simp [hr, ReqKind.isFe] at hk

/-- A change of a word's bit without a write, its notices and its answer. -/
theorem fe_noticed (hk : r.kind.isUpdate = false) (b : Bool) (bytes : List Byte) :
    let q := atItsHome s r (64 + tile) (off / 64)
    let n := s.notify (64 + tile) (off / 64) q.id none
    let t := (n.2.setFull tile off b).acknowledge q n.1 bytes 0
    (AtHomeOnly s t ∧ t.mem = s.mem ∧ FullAfter s t tile off b ∧ Answered s t q (watchersOf s (64 + tile) (off / 64)) bytes 0) ∧
      ∃ p : Req, t.net.reqs = s.net.reqs.set p.id p ∧ p.stage ≠ .park := by
  obtain ⟨hn, hlen⟩ := noticed_notify s tile (off / 64) (atItsHome s r (64 + tile) (off / 64)).id
  dsimp only
  rw [hlen]
  generalize (s.notify (64 + tile) (off / 64) (atItsHome s r (64 + tile) (off / 64)).id none).2 = v at hn
  have hasked := onlyAsked_acknowledge h.source_ (v.setFull tile off b) (watchersOf s (64 + tile) (off / 64)).length bytes 0
  have hout : NoticesOut s (v.setFull tile off b) (atItsHome s r (64 + tile) (off / 64)) (watchersOf s (64 + tile) (off / 64)) :=
    .of_noticed (w := s) (u := v) hn (fun b hb => eq_of_beq (List.mem_filter.1 hb).2) rfl rfl rfl rfl
  refine ⟨⟨(hn.only.trans (.setFull ..)).trans hasked.home, ?_, ?_, answered_acknowledge hout h.source_ hk bytes 0⟩, ?_⟩
  · rw [hasked.mem]
    exact hn.mem
  · exact (fullAfter_setFull (by rw [hn.attrs]) tile off b).of_attrs hasked.attrs
  · have hreqs := State.acknowledge_reqs h.source_ hk (v.setFull tile off b) (watchersOf s (64 + tile) (off / 64)).length bytes 0
    rwa [show (v.setFull tile off b).net.reqs = s.net.reqs from hn.reqs] at hreqs

/-- A write of a whole word, with its bit. -/
theorem fe_written (hn : r.n = 8) (hk : r.kind.isUpdate = false) :
    let q := atItsHome s r (64 + tile) (off / 64)
    let p := s.performWrite (64 + tile) (off / 64) none (lowMask 8 * 2 ^ (off % 64)) (List.replicate (off % 64) 0 ++ r.data) q.id none
    let t := (p.2.setFull tile off true).acknowledge q p.1 [] 0
    (AtHomeOnly s t ∧ Wrote s t (sramByte tile off) 8 0xFF r.data ∧ FullAfter s t tile off true ∧
      Answered s t q (watchersOf s (64 + tile) (off / 64)) [] 0) ∧ ∃ p : Req, t.net.reqs = s.net.reqs.set p.id p ∧ p.stage ≠ .park := by
  obtain ⟨hw, hlen⟩ := written_performWrite (mask := lowMask 8) (n := 8) (q := atItsHome s r (64 + tile) (off / 64)) (.refl s) rfl rfl rfl h.canon
    (h.data.trans hn) rfl rfl
  dsimp only
  rw [hlen]
  generalize (s.performWrite (64 + tile) (off / 64) none (lowMask 8 * 2 ^ (off % 64)) (List.replicate (off % 64) 0 ++ r.data)
    (atItsHome s r (64 + tile) (off / 64)).id none).2 = v at hw
  have hasked := onlyAsked_acknowledge h.source_ (v.setFull tile off true) (watchersOf s (64 + tile) (off / 64)).length [] 0
  have hout : NoticesOut s (v.setFull tile off true) (atItsHome s r (64 + tile) (off / 64)) (watchersOf s (64 + tile) (off / 64)) :=
    ⟨hw.out.now_, hw.out.none, hw.out.here, hw.out.away⟩
  refine ⟨⟨(hw.only.trans (.setFull ..)).trans hasked.home, ?_, ?_, answered_acknowledge hout h.source_ hk [] 0⟩, ?_⟩
  · exact Wrote.of_mem (t := v) hw.wrote hasked.mem
  · exact (fullAfter_setFull hw.full tile off true).of_attrs hasked.attrs
  · have hreqs := State.acknowledge_reqs h.source_ hk (v.setFull tile off true) (watchersOf s (64 + tile) (off / 64)).length [] 0
    rwa [show (v.setFull tile off true).net.reqs = s.net.reqs from hw.reqs] at hreqs

/-- A full/empty request that meets its need is performed. -/
theorem home_fe {P : State → Prop} (hp : s.parked (64 + tile) (off / 8) = []) (hfe : r.kind.isFe = true) (hmet : r.kind.met (s.isFull tile off) = true)
    (hP : P (s.feAct (atItsHome s r (64 + tile) (off / 64)) tile off) ∧
      ∃ q : Req, (s.feAct (atItsHome s r (64 + tile) (off / 64)) tile off).net.reqs = s.net.reqs.set q.id q ∧ q.stage ≠ .park) :
    ∃ t, exec (.homeAccess id) s = .next t ∧ P t :=
  ⟨_, by rw [exec_homeAccess_fe h hfe, feRequest_met hp hmet rfl hP.2], hP.1⟩

theorem home_ldf (hk : r.kind = .ldf) (hn : r.n = 8) (hp : s.parked (64 + tile) (off / 8) = []) (hf : s.isFull tile off = true) :
    ∃ t, exec (.homeAccess id) s = .next t ∧ AtHomeOnly s t ∧ t.mem = s.mem ∧ FullAfter s t tile off false ∧
      Answered s t (atItsHome s r (64 + tile) (off / 64)) (watchersOf s (64 + tile) (off / 64)) (seenBytes s tile off r.n) 0 := by
  refine home_fe h hp (by rw [hk]; rfl) (by rw [hk, hf]; rfl) ?_
  unfold State.feAct
  rw [atItsHome_kind, hk, hn, ← State.readHome_slice s (hn ▸ h.fits)]
  exact fe_noticed h (by rw [hk]; rfl) false _

theorem home_ldff (hk : r.kind = .ldff) (hn : r.n = 8) (hp : s.parked (64 + tile) (off / 8) = []) (hf : s.isFull tile off = true) :
    ∃ t, exec (.homeAccess id) s = .next t ∧ AtHomeOnly s t ∧ (t.mem = s.mem ∧ t.attrs = s.attrs) ∧
      Answered s t (atItsHome s r (64 + tile) (off / 64)) [] (seenBytes s tile off r.n) 0 := by
  refine home_fe h hp (by rw [hk]; rfl) (by rw [hk, hf]; rfl) ?_
  unfold State.feAct
  rw [atItsHome_kind, hk, hn, ← State.readHome_slice s (hn ▸ h.fits)]
  obtain ⟨honly, hsame, -, hans⟩ := replied h (s.readHome (64 + tile) off 8 none) 0
  exact ⟨⟨honly, hsame, hans⟩, State.reply_reqs h.source_ ..⟩

/-- A store to a word that is to be full: it needs an empty word, or it takes any. -/
theorem home_ste {k : ReqKind} (hk : r.kind = k) (hs : k = .ste ∧ s.isFull tile off = false ∨ k = .stef) (hn : r.n = 8)
    (hp : s.parked (64 + tile) (off / 8) = []) : ∃ t, exec (.homeAccess id) s = .next t ∧ AtHomeOnly s t ∧
      Wrote s t (sramByte tile off) 8 0xFF r.data ∧ FullAfter s t tile off true ∧
      Answered s t (atItsHome s r (64 + tile) (off / 64)) (watchersOf s (64 + tile) (off / 64)) [] 0 := by
  have hput := fe_written h hn
  obtain ⟨rfl, hf⟩ | rfl := hs
  · refine home_fe h hp (by rw [hk]; rfl) (by rw [hk, hf]; rfl) ?_
    unfold State.feAct
    rw [atItsHome_kind, hk]
    exact hput (by rw [hk]; rfl)
  · refine home_fe h hp (by rw [hk]; rfl) (by rw [hk]; rfl) ?_
    unfold State.feAct
    rw [atItsHome_kind, hk]
    exact hput (by rw [hk]; rfl)

theorem home_feclr (hk : r.kind = .feclr) (hp : s.parked (64 + tile) (off / 8) = []) :
    ∃ t, exec (.homeAccess id) s = .next t ∧ AtHomeOnly s t ∧ t.mem = s.mem ∧ FullAfter s t tile off false ∧
      Answered s t (atItsHome s r (64 + tile) (off / 64)) (watchersOf s (64 + tile) (off / 64)) [] 0 := by
  refine home_fe h hp (by rw [hk]; rfl) (by rw [hk]; rfl) ?_
  unfold State.feAct
  rw [atItsHome_kind, hk]
  exact fe_noticed h (by rw [hk]; rfl) false []

theorem home_feget (hk : r.kind = .feget) (hp : s.parked (64 + tile) (off / 8) = []) :
    ∃ t, exec (.homeAccess id) s = .next t ∧ AtHomeOnly s t ∧ (t.mem = s.mem ∧ t.attrs = s.attrs) ∧
      Answered s t (atItsHome s r (64 + tile) (off / 64)) [] (bytesOfNat 8 (if s.isFull tile off = true then 1 else 0)) 0 := by
  refine home_fe h hp (by rw [hk]; rfl) (by rw [hk]; rfl) ?_
  unfold State.feAct
  rw [atItsHome_kind, hk, ← leBytes_eq_bytesOfNat]
  obtain ⟨honly, hsame, -, hans⟩ := replied h (leBytes 8 (if s.isFull tile off = true then 1 else 0)) 0
  exact ⟨⟨honly, hsame, hans⟩, State.reply_reqs h.source_ ..⟩

end

end Sys2Proof.Machine
end


section
/-! PROOF. Requests that fail or wait at a slice, and the two statements about homes (R96, R118, R330). -/

namespace Sys2Proof.Machine

/-! ### Requests that wait -/

theorem State.updSlot_rest (s : State) (k : Nat) (f : Slot → Slot) :
    s.updSlot k f = { s with cur := (s.updSlot k f).cur, slots := (s.updSlot k f).slots } := by
  unfold State.updSlot State.setSlot
  split <;> rfl

theorem State.settleBlock_rest (s : State) (slot : Nat) (ctx : W32) :
    s.settleBlock slot ctx = { s with cur := (s.settleBlock slot ctx).cur, slots := (s.settleBlock slot ctx).slots } :=
  State.updSlot_rest ..

theorem State.updSlot_cur (s : State) (f : Slot → Slot) : (s.updSlot s.curId f).cur = f s.cur := by
  simp [State.updSlot, State.setSlot, State.slot]

/-- A slot in focus that runs is Blocked by a request that has come to be parked, where no other keeps it. -/
theorem settleBlock_parked {s : State} {q : Req} (hq : (q.id, q) ∈ s.net.reqs) (hslot : q.slot = s.curId) (hctx : q.ctx = s.cur.mc.ctxser)
    (hsrc : q.source = none) (hk : q.kind.isUpdate = false) (hst : q.stage = .park) (hrun : s.cur.status = .ready)
    (hothers : ∀ e ∈ s.net.reqs, e.2.slot = s.curId → e.2.ctx = s.cur.mc.ctxser → e.2.stage ≠ .page ∧ e.2.stage ≠ .wake) :
    (s.settleBlock q.slot q.ctx).cur = { s.cur with status := .blocked .fullEmpty } := by
  have hnone (st : ReqStage) (hst : st = .page ∨ st = .wake) : (s.net.reqs.any fun e =>
      (e.2.slot == s.curId && e.2.ctx == s.cur.mc.ctxser && e.2.source.isNone && !e.2.kind.isUpdate) && e.2.stage == st) = false := by
    rw [List.any_eq_false]
    intro e he hh
    simp only [Bool.and_eq_true, beq_iff_eq] at hh
    obtain ⟨⟨⟨⟨h1, h2⟩, -⟩, -⟩, h3⟩ := hh
    obtain ⟨hp, hw⟩ := hothers e he h1 h2
    obtain rfl | rfl := hst
    · exact hp h3
    · exact hw h3
  have hpark : (s.net.reqs.any fun e =>
      (e.2.slot == s.curId && e.2.ctx == s.cur.mc.ctxser && e.2.source.isNone && !e.2.kind.isUpdate) && e.2.stage == .park) = true :=
    List.any_eq_true.2 ⟨_, hq, by simp [hslot, hctx, hsrc, hk, hst]⟩
  unfold State.settleBlock
  rw [hslot, hctx]
  extract_lets own has b
  have hb : b = some .fullEmpty := by
    refine (if_neg ?_).trans (if_pos hpark)
    rw [show has .page = false from hnone .page (.inl rfl), show has .wake = false from hnone .wake (.inr rfl)]
    simp
  rw [State.updSlot_cur, hb]
  exact if_pos (by simp [hrun])

theorem Map.mem_set_self {α : Type} (m : Map α) (k : Nat) (a : α) : (k, a) ∈ m.set k a := by
  induction m with
  | nil => exact List.mem_singleton.2 rfl
  | cons x m ih =>
    obtain ⟨j, b⟩ := x
    unfold Map.set
    repeat' split
    all_goals simp [ih]

section
variable {s : State} {id tile off : Nat} {r : Req} (h : AtSlice s id r tile off)
include h

/-- A full/empty request whose need is not met. -/
theorem feRequest_unmet (hk : r.kind.isUpdate = false) (hmet : r.kind.met (s.isFull tile off) = false) :
    let q := atItsHome s r (64 + tile) (off / 64)
    let p : Req := { q with stage := .park, tries := 1, parked := s.now, order := s.net.nextId }
    s.feRequest q tile off = if r.limit ≤ 1 then s.reply q (.fail 0x0A 0) 0
      else ((s.fresh.2.setReq p).settleBlock r.slot r.ctx).after 1024 (.feRetryAttempt id) := by
  have hsrc : (atItsHome s r (64 + tile) (off / 64)).source = none := h.source_
  unfold State.feRequest
  dsimp only
  rw [atItsHome_kind, hmet]
  refine (if_neg (by simp)).trans (if_congr Iff.rfl ?_ ?_)
  · unfold State.refuseReq
    exact if_neg (by rw [atItsHome_kind, hk]; simp)
  · rw [hsrc]
    show ((s.fresh.2.setReq _).settleBlock r.slot r.ctx).after 1024 (.feRetryAttempt r.id) = _
    rw [h.id]
    rfl

theorem home_unmet (hfe : r.kind.isFe = true) (hk : r.kind.isUpdate = false) (hmet : r.kind.met (s.isFull tile off) = false) :
    (1 < r.limit → ∃ t, exec (.homeAccess id) s = .next t ∧ (t.mem = s.mem ∧ t.attrs = s.attrs) ∧ Posts s t 1024 (.feRetryAttempt id) ∧
      (∃ k, t.req? id = some { atItsHome s r (64 + tile) (off / 64) with stage := .park, tries := 1, parked := s.now, order := k }) ∧
      (r.slot = s.curId → r.ctx = s.cur.mc.ctxser → s.cur.status = .ready → (∀ e ∈ s.net.reqs, ¬Waits s e.2) →
        t.cur = { s.cur with status := .blocked .fullEmpty })) ∧
    (r.limit ≤ 1 → ∃ t, exec (.homeAccess id) s = .next t ∧ AtHomeOnly s t ∧ (t.mem = s.mem ∧ t.attrs = s.attrs) ∧
      t.req? id = some { atItsHome s r (64 + tile) (off / 64) with stage := .reply, res := .fail 0x0A 0, since := s.now } ∧
      Posts s t (hopHome r.tile (64 + tile)) (.accessReply id none)) := by
  have hexec := (exec_homeAccess_fe h hfe).trans (congrArg Host.Outcome.next (feRequest_unmet h hk hmet))
  constructor
  · intro hlim
    refine ⟨_, hexec.trans (congrArg _ (if_neg (by omega))), ?_⟩
    generalize hw : s.fresh.2.setReq { atItsHome s r (64 + tile) (off / 64) with stage := .park, tries := 1, parked := s.now, order := s.net.nextId } = w
    have hrest := State.settleBlock_rest w r.slot r.ctx
    have hreq : w.req? id = some { atItsHome s r (64 + tile) (off / 64) with stage := .park, tries := 1, parked := s.now, order := s.net.nextId } := by
      rw [← hw, ← h.id]
      exact State.req?_setReq_same s.fresh.2 { atItsHome s r (64 + tile) (off / 64) with stage := .park, tries := 1, parked := s.now, order := s.net.nextId }
    refine ⟨?_, ?_, ⟨s.net.nextId, ?_⟩, fun hslot hctx hrun hothers => ?_⟩
    · rw [hrest, ← hw]
      exact ⟨rfl, rfl⟩
    · rw [hrest, ← hw]
      rfl
    · rw [hrest]
      exact hreq
    · have hcur : w.cur = s.cur := by rw [← hw]; rfl
      have hid : w.curId = s.curId := by rw [← hw]; rfl
      show (w.settleBlock r.slot r.ctx).cur = _
      rw [← hcur]
      refine settleBlock_parked (s := w) (q := { atItsHome s r (64 + tile) (off / 64) with stage := .park, tries := 1, parked := s.now, order := s.net.nextId })
        ?_ (hslot.trans hid.symm) (by rw [hcur]; exact hctx) h.source_ hk rfl (by rw [hcur]; exact hrun) ?_
      · rw [← hw]
        exact Map.mem_set_self ..
      · rw [hcur, hid, ← hw]
        intro e he h1 h2
        obtain rfl | he := Map.mem_set he
        · exact ⟨by simp, by simp⟩
        · exact ⟨fun hs => hothers e he ⟨h1, h2, .inl hs⟩, fun hs => hothers e he ⟨h1, h2, .inr (.inl hs)⟩⟩
  · intro hlim
    have hasked := onlyAsked_reply h.source_ s (.fail 0x0A 0) 0
    refine ⟨_, hexec.trans (congrArg _ (if_pos hlim)), hasked.home, ⟨hasked.mem, hasked.attrs⟩, ?_, ?_⟩
    · rw [State.reply_here h.source_]
      have hreq := State.req?_setReq_same s { atItsHome s r (64 + tile) (off / 64) with stage := .reply, res := .fail 0x0A 0, since := s.now }
      rwa [show Req.id { atItsHome s r (64 + tile) (off / 64) with stage := .reply, res := .fail 0x0A 0, since := s.now } = id from h.id] at hreq
    · rw [State.reply_here h.source_, ← h.id]
      rfl

end

/-- A clause about a full/empty word that needs its bit: elsewhere it says only that the home answers. -/
theorem home_when {s : State} {id tile off : Nat} {r : Req} (h : AtSlice s id r tile off) {c : Prop} {P : State → Prop}
    (hP : c → ∃ t, exec (.homeAccess id) s = .next t ∧ P t) : ∃ t, exec (.homeAccess id) s = .next t ∧ (c → P t) := by
  by_cases hc : c
  · obtain ⟨t, ht, hp⟩ := hP hc
    exact ⟨t, ht, fun _ => hp⟩
  · exact ⟨_, exec_homeAccess_slice h, fun hc' => absurd hc' hc⟩

/-- Settles O34: each form of request, once the slice's checks are passed, by the lemma of its name. -/
theorem homeAccesses : Obligations.HomeAccesses := by
  intro s id r tile off h
  dsimp only
  refine ⟨home_load h, home_store h, fun op hk _ _ hf => home_amo h hk hf, fun v hk _ _ => home_cas h hk, home_ldr h, home_stc h, home_wrs h, ?_, ?_, ?_, ?_,
    fun hk _ _ => home_feclr h hk, fun hk _ _ => home_feget h hk, ?_⟩
  · exact fun hk hn _ hp => home_when h (home_ldf h hk hn hp)
  · exact fun hk hn _ hp => home_when h (home_ldff h hk hn hp)
  · exact fun hk hn _ hp => home_when h fun hf => home_ste h hk (.inl ⟨rfl, hf⟩) hn hp
  · exact fun hk hn _ hp => home_ste h hk (.inr rfl) hn hp
  · rintro (⟨hk | hk, hf⟩ | ⟨hk, hf⟩)
    all_goals exact home_unmet h (by rw [hk]; rfl) (by rw [hk]; rfl) (by rw [hk, hf]; rfl)

/-! ### Updates -/

theorem update_combined {s : State} {id tile off : Nat} {r : Req} {op : AmoOp} (h : AtSlice s id r tile off) (hk : r.kind = .rupd op)
    (hf : op = .fadd → r.n = 4) :
    ∃ t, exec (.updateApply id) s = .next t ∧ AtHomeOnly s t ∧ t.attrs.full = s.attrs.full ∧
      Wrote s t (sramByte tile off) r.n r.mask (bytesOfNat r.n (combined op r.n (numberOf (seenBytes s tile off r.n)) (numberOf r.data)).1) ∧
      (watchersOf s (64 + tile) (off / 64) = [] → t.net.reqs = s.net.reqs.del id ∧ t.net.pend = s.net.pend) ∧
      (watchersOf s (64 + tile) (off / 64) ≠ [] → t.req? id = some { atItsHome s r (64 + tile) (off / 64) with
        stage := .notices, notices := (watchersOf s (64 + tile) (off / 64)).length, res := .ok [] }) := by
  have hc := combine_eq_combined (op := op) (seenBytes_length s tile off r.n) h.data hf
  obtain ⟨hw, hlen⟩ := written_putAt h (data := (combine op r.n (seenBytes s tile off r.n) r.data).1) (by rw [hc]; simp [bytesOfNat])
  have hexec : exec (.updateApply id) s = .next
      ((s.putAt (atItsHome s r (64 + tile) (off / 64)) tile off r.mask (combine op r.n (seenBytes s tile off r.n) r.data).1).2.acknowledge
        (atItsHome s r (64 + tile) (off / 64)) (watchersOf s (64 + tile) (off / 64)).length [] 0) := by
    rw [exec_updateApply_slice h (by rw [hk]; rfl), perform_slice h (by simp [hk]), State.sliceAct, atItsHome_kind, hk, ← hlen]
    rfl
  refine ⟨_, hexec, ?_⟩
  generalize (s.putAt _ _ _ _ _).2 = v at hw
  have hasked := onlyAsked_acknowledge h.source_ v (watchersOf s (64 + tile) (off / 64)).length [] 0
  refine ⟨hw.only.trans hasked.home, by rw [hasked.attrs, hw.full], ?_, fun hnone => ?_, fun hsome => ?_⟩
  · rw [hc] at hw
    exact hw.wrote.of_mem hasked.mem
  · have hdel : v.acknowledge (atItsHome s r (64 + tile) (off / 64)) (watchersOf s (64 + tile) (off / 64)).length [] 0 = v.delReq r.id := by
      unfold State.acknowledge
      rw [hnone]
      refine (if_neg (by simp)).trans (if_pos ?_)
      rw [atItsHome_kind, hk, h.source_]
      rfl
    rw [hdel, h.id]
    exact ⟨congrArg (Map.del · id) hw.reqs, hw.out.none hnone⟩
  · unfold State.acknowledge
    rw [if_pos (by simpa using hsome)]
    have hreq := State.req?_setReq_same v { atItsHome s r (64 + tile) (off / 64) with
      stage := .notices, notices := (watchersOf s (64 + tile) (off / 64)).length, res := .ok [] }
    rwa [show Req.id { atItsHome s r (64 + tile) (off / 64) with
      stage := .notices, notices := (watchersOf s (64 + tile) (off / 64)).length, res := .ok [] } = id from h.id] at hreq

theorem update_refused {s : State} {id tile off c : Nat} {r : Req} {op : AmoOp} (hk : r.kind = .rupd op) (hlisted : s.req? id = some r) (hid : r.id = id)
    (hcls : r.cls = .sram tile off) (hstage : r.stage = .travel) (hsrc : r.source = none) (hwait : s.mustWait r = false)
    (hfault : s.windowFault tile off r.asid true = some c) :
    ∃ t, exec (.updateApply id) s = .next t ∧ t.mem = s.mem ∧ t.attrs = s.attrs ∧ t.net = { s.net with reqs := s.net.reqs.del id } ∧ t.cur = s.cur ∧
      t.task r.tid = { s.task r.tid with refused := (s.task r.tid).refused ++ [⟨0, 0x04, c, r.ptr⟩] } := by
  have hat : s.atHome r = s.refuseReq (s.arrived r) causeProt c := by
    have hstage' : ((s.arrived r).stage != .travel) = false := by
      show (r.stage != .travel) = false
      rw [hstage]
      rfl
    have hfault' : s.windowFault tile off (s.arrived r).asid (s.arrived r).kind.writes = some c := by
      rw [show (s.arrived r).kind = .rupd op from hk]
      exact hfault
    unfold State.atHome
    dsimp only
    rw [arrived_eq (by rw [hcls]; rfl), hstage', show s.mustWait (s.arrived r) = false from hwait, show (s.arrived r).cls = .sram tile off from hcls]
    rw [if_neg Bool.false_ne_true, if_neg (by simp)]
    dsimp only
    rw [hfault']
  have hrefuse : s.refuseReq (s.arrived r) causeProt c =
      (s.delReq id).updTask r.tid fun t => { t with refused := t.refused ++ [⟨0, 0x04, c, r.ptr⟩] } := by
    unfold State.refuseReq State.refuseUpdate
    rw [show (s.arrived r).source = none from hsrc, show (s.arrived r).kind = .rupd op from hk, ← hid]
    rfl
  refine ⟨(s.delReq id).updTask r.tid fun t => { t with refused := t.refused ++ [⟨0, 0x04, c, r.ptr⟩] }, ?_, rfl, rfl, rfl, rfl,
    State.task_updTask_same ..⟩
  rw [exec_updateApply, execUpdateApply, hlisted, ← hrefuse, ← hat]
  exact if_pos (by rw [hk]; rfl)

/-- Settles O35: the update is a write of its slice that is accepted with its last notice, or is refused by the window. -/
theorem updatesApplied : Obligations.UpdatesApplied := by
  intro s id r tile off op hk
  exact ⟨fun h _ _ hf => update_combined h hk hf, fun c hlisted hid hcls hstage hsrc hwait hfault =>
    update_refused hk hlisted hid hcls hstage hsrc hwait hfault⟩

end Sys2Proof.Machine
end


section
/-! PROOF. Kicks, records, acknowledgements and RMA writes of the host (R408 to R416). -/

namespace Sys2Proof.Machine

/-! ### Ports -/

/-- The counts of a port. -/
def State.portStat (s : State) (p : Nat) : PortStat := s.host.ports.getD ⟨0, 0, 0, 0, 0, 0⟩ p

theorem State.portStat_countPort (s : State) (p : Nat) (f : PortStat → PortStat) : (s.countPort p f).portStat p = f (s.portStat p) := by
  unfold State.portStat State.countPort Map.upd
  exact Map.getD_set_same ..

theorem OnlyHost.countPort (s : State) (p : Nat) (f : PortStat → PortStat) : OnlyHost s (s.countPort p f) := rfl

theorem OnlyHost.after (s : State) (delay : Nat) (e : Event) : OnlyHost s (s.after delay e) := rfl

/-- What the host side and what is in flight may change leaves the rest alone. -/
theorem OnlyHost.same {s t : State} (h : OnlyHost s t) : (t.mem = s.mem ∧ t.attrs = s.attrs) ∧ t.cur = s.cur := by
  rw [h]
  exact ⟨⟨rfl, rfl⟩, rfl⟩

theorem State.afterOnce_listed (s : State) (n : Nat) (e : Event) : ∃ p ∈ (s.afterOnce n e).net.pend, p.ev = e := by
  unfold State.afterOnce
  split
  · rename_i h
    obtain ⟨p, hp, he⟩ := List.any_eq_true.1 h
    exact ⟨p, hp, eq_of_beq he⟩
  · exact ⟨_, List.mem_append_right _ (List.mem_singleton.2 rfl), rfl⟩

theorem State.afterOnce_rest (s : State) (n : Nat) (e : Event) : s.afterOnce n e = { s with net := (s.afterOnce n e).net } := by
  unfold State.afterOnce
  split <;> rfl

/-! ### Kicks (R412, R413) -/

section
variable {s : State} {port : Nat} {src : W64} {msg : BitVec 128} {r : Ring} (hr : s.ring? (msg.extractLsb' 0 4).toNat = some r)
include hr

theorem kick_dropped (h : r.open_ = false ∨ r.src ≠ src ∨ msg.extractLsb' 4 28 ≠ 0 ∨ msg.extractLsb' 64 64 ≠ 0 ∨ s.isReady (48 + port) = false) :
    exec (.kick port src msg) s = .next (s.countPort port fun p => { p with kickdrop := p.kickdrop + 1 }) := by
  rw [exec_kick, execKick]
  simp only [hr]
  refine if_pos ?_
  simp only [Bool.or_eq_true, Bool.not_eq_true', bne_iff_ne]
  tauto

theorem kick_counted (ho : r.open_ = true) (hsrc : r.src = src) (h4 : msg.extractLsb' 4 28 = 0) (h64 : msg.extractLsb' 64 64 = 0)
    (hready : s.isReady (48 + port) = true) :
    let n := (msg.extractLsb' 0 4).toNat
    let t := msg.extractLsb' 32 32
    let c := s.countPort port fun p => { p with kickok := p.kickok + 1 }
    let d := fun (x : W32) => (x - r.next).toNat
    exec (.kick port src msg) s = .next (if 2 ^ r.logn < d t then c.sendCqe n r r.next 2 0 0 0 else
      let u := if d r.tail < d t then c.setRing n { r with tail := t } else c
      if r.parked.isSome then u else u.serveRing n 1) := by
  rw [exec_kick, execKick]
  simp only [hr]
  refine (if_neg (by simp [ho, hsrc, h4, h64, hready])).trans ?_
  split <;> rfl

end

theorem State.serveRing_listed {s : State} {n delay : Nat} {r : Ring} (hr : s.ring? n = some r) (ho : r.open_ = true) (hne : r.next ≠ r.tail) :
    ∃ p ∈ (s.serveRing n delay).net.pend, p.ev = .kickReread n := by
  unfold State.serveRing
  rw [hr]
  dsimp only
  rw [if_pos (by simp [ho, hne])]
  exact State.afterOnce_listed ..

/-- The bytes of a completion. -/
theorem sendCqe_bytes (s : State) (n : Nat) (r : Ring) (seq : W32) (code : Nat) :
    ∃ m : Rma, (s.sendCqe n r seq code 0 0 0).host.sent = s.host.sent ++ [m] ∧ m.why = .completion ∧
      m.bytes = bytesOfNat 8 (seq.toNat + n * 2 ^ 32 + code * 2 ^ 40) ++ bytesOfNat 8 0 ++ bytesOfNat 8 0 ++ bytesOfNat 8 0 :=
  ⟨_, rfl, rfl, by simp [leBytes_eq_bytesOfNat]⟩

/-- A kick at a ring. -/
theorem kicks {s : State} {port : Nat} {src : W64} {msg : BitVec 128} {r : Ring} (hr : s.ring? (msg.extractLsb' 0 4).toNat = some r)
    (ho : r.open_ = true) (hsrc : r.src = src) (h4 : msg.extractLsb' 4 28 = 0) (h64 : msg.extractLsb' 64 64 = 0) (hready : s.isReady (48 + port) = true) :
    let n := (msg.extractLsb' 0 4).toNat
    let tail := msg.extractLsb' 32 32
    let go := exec (.kick port src msg) s
    let counted (t : State) : Prop := (t.mem = s.mem ∧ t.attrs = s.attrs) ∧ t.cur = s.cur ∧
      t.portStat port = { s.portStat port with kickok := (s.portStat port).kickok + 1 }
    let d (v : W32) : Nat := (v - r.next).toNat
    (2 ^ r.logn < d tail → ∃ t, go = .next t ∧ counted t ∧ t.host.rings = s.host.rings ∧ ∃ m : Rma, t.host.sent = s.host.sent ++ [m] ∧ m.why = .completion ∧
      m.bytes = bytesOfNat 8 (r.next.toNat + n * 2 ^ 32 + 2 * 2 ^ 40) ++ bytesOfNat 8 0 ++ bytesOfNat 8 0 ++ bytesOfNat 8 0) ∧
    (d tail ≤ 2 ^ r.logn → d r.tail < d tail → r.parked = none → ∃ t, go = .next t ∧ counted t ∧ t.ring? n = some { r with tail := tail } ∧
      ∃ p ∈ t.net.pend, p.ev = .kickReread n) ∧
    (d tail ≤ 2 ^ r.logn → d tail ≤ d r.tail → ∃ t, go = .next t ∧ counted t ∧ t.host.rings = s.host.rings) := by
  have hgo := kick_counted hr ho hsrc h4 h64 hready
  dsimp only at hgo ⊢
  have hc := OnlyHost.countPort s port fun p => { p with kickok := p.kickok + 1 }
  have hstat := State.portStat_countPort s port fun p => { p with kickok := p.kickok + 1 }
  have hrings : (s.countPort port fun p => { p with kickok := p.kickok + 1 }).host.rings = s.host.rings := rfl
  have hsent : (s.countPort port fun p => { p with kickok := p.kickok + 1 }).host.sent = s.host.sent := rfl
  generalize (s.countPort port fun p => { p with kickok := p.kickok + 1 }) = c at hgo hc hstat hrings hsent
  have hcounted {t : State} (ht : OnlyHost c t) (hports : t.host.ports = c.host.ports) : (t.mem = s.mem ∧ t.attrs = s.attrs) ∧ t.cur = s.cur ∧
      t.portStat port = { s.portStat port with kickok := (s.portStat port).kickok + 1 } := by
    obtain ⟨hsame, hcur⟩ := (hc.trans ht).same
    exact ⟨hsame, hcur, by rw [← hstat]; unfold State.portStat; rw [hports]⟩
  refine ⟨fun hfar => ?_, fun hnear hnew hp => ?_, fun hnear hold => ?_⟩
  · rw [if_pos hfar] at hgo
    exact ⟨_, hgo, hcounted (.sendCqe ..) rfl, hrings, hsent ▸ sendCqe_bytes ..⟩
  · rw [if_neg (by omega), if_pos hnew] at hgo
    replace hgo := hgo.trans (congrArg Host.Outcome.next (if_neg (by simp [hp])))
    have hring : (c.setRing (msg.extractLsb' 0 4).toNat { r with tail := msg.extractLsb' 32 32 }).ring? (msg.extractLsb' 0 4).toNat =
        some { r with tail := msg.extractLsb' 32 32 } := State.ring?_setRing _ (State.ring?_eq_some hr).1
    have hserve := State.serveRing_host (c.setRing (msg.extractLsb' 0 4).toNat { r with tail := msg.extractLsb' 32 32 }) (msg.extractLsb' 0 4).toNat 1
    refine ⟨_, hgo, hcounted ((OnlyHost.setRing ..).trans (.serveRing ..)) (by rw [hserve]; rfl), ?_, ?_⟩
    · rw [State.ring?_congr _ (congrArg HostSt.rings hserve)]
      exact hring
    · refine State.serveRing_listed hring ho ?_
      rintro heq
      have heq' : r.next = msg.extractLsb' 32 32 := heq
      rw [← heq'] at hnew
      simp at hnew
  · rw [if_neg (Nat.not_lt.2 hnear), if_neg (Nat.not_lt.2 hold)] at hgo
    refine ⟨_, hgo, ?_⟩
    split
    · exact ⟨hcounted (.refl c) rfl, hrings⟩
    · exact ⟨hcounted (.serveRing ..) (by rw [State.serveRing_host]), by rw [State.serveRing_host, hrings]⟩

/-! ### The reading of records (R413) -/

theorem leNat_eq_numberOf (b : List Byte) : leNat b = numberOf b := by
  induction b with
  | nil => rfl
  | cons x b ih => rw [leNat, ih]; rfl

/-- The command of a record's bytes. -/
def recordCmd (n : Nat) (b : List Byte) : Cmd := ⟨n, Vector.ofFn fun j => BitVec.ofNat 64 (numberOf ((b.drop (8 * j.val)).take 8))⟩

theorem cmdOf_eq (n : Nat) (b : List Byte) : cmdOf n b = recordCmd n b := by
  simp [cmdOf, recordCmd, leNat_eq_numberOf]

/-- The bytes of a record that has landed and is valid. -/
def WholeRecord (s : State) (n : Nat) (r : Ring) (b : List Byte) : Prop :=
  let k := r.next.toNat % 2 ^ r.logn
  s.physRead (r.base.toNat + 128 * k) 128 = .ok b ∧ s.host.landed.contains (n, k) = true ∧ numberOf (b.take 4) = r.next.toNat ∧
    numberOf ((b.drop 8).take 4) = (crc32c (b.take 8 ++ [0, 0, 0, 0] ++ b.drop 12)).toNat

theorem recordOk_iff (q : W32) (b : List Byte) : recordOk q b = true ↔ numberOf (b.take 4) = q.toNat ∧
    numberOf ((b.drop 8).take 4) = (crc32c (b.take 8 ++ [0, 0, 0, 0] ++ b.drop 12)).toNat := by
  simp [recordOk, leNat_eq_numberOf]

/-- The host side with the record in focus no longer noted as landed. -/
def State.unland (s : State) (n : Nat) (r : Ring) : State :=
  s.updHost fun h => { h with landed := h.landed.filter (· != (n, r.next.toNat % 2 ^ r.logn)) }

theorem State.unland_landed (s : State) (n : Nat) (r : Ring) : (s.unland n r).host.landed.contains (n, r.next.toNat % 2 ^ r.logn) = false := by
  simp [State.unland, State.updHost]

theorem State.physRead_unland (s : State) (n : Nat) (r : Ring) (pa k : Nat) : (s.unland n r).physRead pa k = s.physRead pa k := rfl

theorem State.readRecord_whole {s : State} {n : Nat} {r : Ring} {b : List Byte} (h : WholeRecord s n r b) :
    s.readRecord n r = (s.unland n r).runRecord n r (recordCmd n b) := by
  obtain ⟨hread, hland, hseq, hcrc⟩ := h
  unfold State.readRecord
  dsimp only
  rw [show (s.updHost fun h => { h with landed := h.landed.filter (· != (n, r.next.toNat % 2 ^ r.logn)) }).physRead
    (r.base.toNat + 128 * (r.next.toNat % 2 ^ r.logn)) 128 = .ok b from hread]
  dsimp only
  rw [← cmdOf_eq]
  exact if_pos (by rw [hland, (recordOk_iff ..).2 ⟨hseq, hcrc⟩]; rfl)

theorem State.readRecord_partial {s : State} {n : Nat} {r : Ring} (h : ∀ b, ¬WholeRecord s n r b) :
    s.readRecord n r = State.readRecord.again n r (s.unland n r) := by
  unfold State.readRecord
  dsimp only
  split
  next b hb =>
    refine if_neg fun hok => h b ?_
    obtain ⟨hland, hrec⟩ := Bool.and_eq_true_iff.1 hok
    exact ⟨hb, hland, (recordOk_iff ..).1 hrec⟩
  next => rfl

/-- The command processor turned to a ring whose record it has read. -/
def State.turnTo (s : State) (n : Nat) (r : Ring) : State := (s.setRing n { r with done := r.next, tries := 0 }).updHost fun h => { h with turn := n }

theorem OnlyHost.turnTo (s : State) (n : Nat) (r : Ring) : OnlyHost s (s.turnTo n r) := rfl

theorem State.ring?_turnTo {s : State} {n : Nat} (r : Ring) (hn : n < 16) : (s.turnTo n r).ring? n = some { r with done := r.next, tries := 0 } :=
  State.ring?_setRing _ hn

theorem State.runRecord_some {c : Cmd} {e : Event} (he : cmdEvent c = some e) (s : State) (n : Nat) (r : Ring) :
    s.runRecord n r c = ((s.turnTo n r).updHost fun h => { h with exec := some n }).after 1 e := by
  unfold State.runRecord
  simp only [he]
  rfl

theorem State.runRecord_none {c : Cmd} (he : cmdEvent c = none) (s : State) (n : Nat) (r : Ring) :
    s.runRecord n r c = (s.turnTo n r).finishCmd c 3 0 0 := by
  unfold State.runRecord
  simp only [he]
  rfl

/-! ### KICK_REREAD (R413, R414) -/

section
variable {s : State} {n : Nat} {r : Ring} (hr : s.ring? n = some r)
include hr

theorem exec_kickReread_parked {c : Cmd} {w : Nat × Nat × Nat} {e : Event} (hp : r.parked = some (c, w)) (he : cmdEvent c = some e) : exec (.kickReread n) s =
    if r.refused then .next (s.finishCmd c 6 6 0)
    else if s.host.exec.isSome || !s.firstServed n then .next (s.afterOnce 1 (.kickReread n))
    else .next (((s.setRing n { r with parked := none }).updHost fun h => { h with exec := some n, turn := n }).after 1 e) := by
  rw [exec_kickReread, execKickReread]
  simp only [hr, hp, he]

theorem exec_kickReread_next (hp : r.parked = none) : exec (.kickReread n) s =
    if !r.open_ || r.next == r.tail || r.done == r.next then .next s
    else if s.host.exec.isSome || !s.firstServed n then .next (s.afterOnce 1 (.kickReread n))
    else .next (s.readRecord n r) := by
  rw [exec_kickReread, execKickReread]
  simp only [hr, hp]

end

/-- What a ring that is not served yet does: it is read again. -/
theorem reread_later (s : State) (n : Nat) : ∃ t, Host.Outcome.next (s.afterOnce 1 (.kickReread n)) = (.next t : Host.Outcome State Fault Refusal) ∧
    t = { s with net := t.net } ∧ ∃ p ∈ t.net.pend, p.ev = .kickReread n :=
  ⟨_, rfl, s.afterOnce_rest _ _, s.afterOnce_listed _ _⟩

theorem isBusy_iff (s : State) (n : Nat) : (s.host.exec.isSome || !s.firstServed n) = true ↔ s.host.exec ≠ none ∨ s.firstServed n = false := by
  simp [Option.isSome_iff_ne_none]

theorem isFree {s : State} {n : Nat} (he : s.host.exec = none) (hf : s.firstServed n = true) : ¬(s.host.exec.isSome || !s.firstServed n) = true := by
  simp [he, hf]

/-- A command that waits behind another of its ring. -/
theorem rereads_parked {s : State} {n : Nat} {r : Ring} (hr : s.ring? n = some r) {c : Cmd} {w : Nat × Nat × Nat} {e : Event} (hp : r.parked = some (c, w))
    (he : cmdEvent c = some e) (hc : c.ring = n) :
    let go := exec (.kickReread n) s
    let quiet (t : State) : Prop := t.mem = s.mem ∧ t.attrs = s.attrs
    (r.refused = true → ∃ t, go = .next t ∧ quiet t ∧ Finished s t c r 6 6 0) ∧
    (r.refused = false → s.host.exec = none → s.firstServed n = true →
      ∃ t, go = .next t ∧ quiet t ∧ t.ring? n = some { r with parked := none } ∧ t.host.exec = some n ∧ t.host.turn = n ∧ Posts s t 1 e) ∧
    (r.refused = false → s.host.exec ≠ none ∨ s.firstServed n = false →
      ∃ t, go = .next t ∧ t = { s with net := t.net } ∧ ∃ p ∈ t.net.pend, p.ev = .kickReread n) := by
  have hgo := exec_kickReread_parked hr hp he
  dsimp only
  refine ⟨fun href => ?_, fun href hexec hfirst => ?_, fun href hbusy => ?_⟩
  · exact ⟨_, hgo.trans (if_pos href), (OnlyHost.finishCmd ..).same.1, finished_finishCmd (hc ▸ hr) rfl rfl 6 (by omega) 0⟩
  · rw [if_neg (by simp [href]), if_neg (isFree hexec hfirst)] at hgo
    exact ⟨_, hgo, ⟨rfl, rfl⟩, State.ring?_setRing _ (State.ring?_eq_some hr).1, rfl, rfl, rfl⟩
  · rw [hgo, if_neg (by simp [href]), if_pos ((isBusy_iff ..).2 hbusy)]
    exact reread_later ..

/-- A ring with nothing to read, and one that is not served yet. -/
theorem rereads_nothing {s : State} {n : Nat} {r : Ring} (hr : s.ring? n = some r) (hp : r.parked = none)
    (h : r.open_ = false ∨ r.next = r.tail ∨ r.done = r.next) : exec (.kickReread n) s = .next s :=
  (exec_kickReread_next hr hp).trans (if_pos (by simp only [Bool.or_eq_true, Bool.not_eq_true', beq_iff_eq]; tauto))

section
variable {s : State} {n : Nat} {r : Ring} (hr : s.ring? n = some r) (hp : r.parked = none) (ho : r.open_ = true) (htail : r.next ≠ r.tail)
  (hdone : r.done ≠ r.next)
include hr hp ho htail hdone

theorem rereads_later (hbusy : s.host.exec ≠ none ∨ s.firstServed n = false) : ∃ t, exec (.kickReread n) s = .next t ∧
    t = { s with net := t.net } ∧ ∃ p ∈ t.net.pend, p.ev = .kickReread n := by
  rw [exec_kickReread_next hr hp, if_neg (by simp [ho, htail, hdone]), if_pos ((isBusy_iff ..).2 hbusy)]
  exact reread_later ..

theorem exec_kickReread_reads (hexec : s.host.exec = none) (hfirst : s.firstServed n = true) :
    exec (.kickReread n) s = .next (s.readRecord n r) :=
  (exec_kickReread_next hr hp).trans ((if_neg (by simp [ho, htail, hdone])).trans (if_neg (isFree hexec hfirst)))

/-- The record at NEXT. -/
theorem rereads_record (hexec : s.host.exec = none) (hfirst : s.firstServed n = true) :
    let go := exec (.kickReread n) s
    let k := r.next.toNat % 2 ^ r.logn
    let quiet (t : State) : Prop := t.mem = s.mem ∧ t.attrs = s.attrs
    (∀ b e, WholeRecord s n r b → cmdEvent (recordCmd n b) = some e → ∃ t, go = .next t ∧ quiet t ∧ t.cur = s.cur ∧
      t.ring? n = some { r with done := r.next, tries := 0 } ∧
      t.host.exec = some n ∧ t.host.turn = n ∧ Posts s t 1 e ∧ t.host.landed.contains (n, k) = false) ∧
    (∀ b, WholeRecord s n r b → cmdEvent (recordCmd n b) = none →
      ∃ t, go = .next t ∧ quiet t ∧ Finished s t (recordCmd n b) { r with done := r.next, tries := 0 } 3 0 0) ∧
    ((∀ b, ¬WholeRecord s n r b) →
      (r.tries ≠ 64 → ∃ t, go = .next t ∧ quiet t ∧ t.ring? n = some { r with tries := r.tries + 1 } ∧ Posts s t 2400 (.kickReread n)) ∧
      (r.tries = 64 → ∃ t, go = .next t ∧ quiet t ∧ t.ring? n = some { r with tail := r.next, tries := 0 } ∧
        ∃ m : Rma, t.host.sent = s.host.sent ++ [m] ∧ m.why = .completion ∧
          m.bytes = bytesOfNat 8 (r.next.toNat + n * 2 ^ 32 + 2 ^ 40) ++ bytesOfNat 8 0 ++ bytesOfNat 8 0 ++ bytesOfNat 8 0)) := by
  have hgo := exec_kickReread_reads hr hp ho htail hdone hexec hfirst
  have hn := (State.ring?_eq_some hr).1
  have hland := s.unland_landed n r
  have hunland : OnlyHost s (s.unland n r) := rfl
  have hsent : (s.unland n r).host.sent = s.host.sent := rfl
  dsimp only
  refine ⟨fun b e hw he => ?_, fun b hw he => ?_, fun hw => ?_⟩
  · rw [State.readRecord_whole hw, State.runRecord_some he] at hgo
    have hring := State.ring?_turnTo (s := s.unland n r) r hn
    have hturn := hunland.trans (OnlyHost.turnTo (s.unland n r) n r)
    have hland' : ((s.unland n r).turnTo n r).host.landed = (s.unland n r).host.landed := rfl
    have hat : ((s.unland n r).turnTo n r).host.turn = n := rfl
    have hnet : ((s.unland n r).turnTo n r).net = s.net := rfl
    rw [← hland'] at hland
    generalize (s.unland n r).turnTo n r = u at hgo hring hturn hat hland hnet
    have hpkg : u.pkg = s.pkg := by rw [hturn]
    obtain ⟨hsame, hcur⟩ := (hturn.trans ((OnlyHost.updHost u fun h => { h with exec := some n }).trans (.after _ 1 e))).same
    exact ⟨_, hgo, hsame, hcur, hring, rfl, hat, by simp [Posts, State.after, State.updHost, State.now, hnet, hpkg], hland⟩
  · rw [State.readRecord_whole hw, State.runRecord_none he] at hgo
    have hring := State.ring?_turnTo (s := s.unland n r) r hn
    have hturn := hunland.trans (OnlyHost.turnTo (s.unland n r) n r)
    have hidle' : ((s.unland n r).turnTo n r).host.exec = s.host.exec := rfl
    have hid : ((s.unland n r).turnTo n r).curId = s.curId := rfl
    generalize (s.unland n r).turnTo n r = u at hgo hring hturn hidle' hid
    exact ⟨_, hgo, (hturn.trans (.finishCmd ..)).same.1, finished_finishCmd hring hidle' hid 3 (by omega) 0⟩
  · rw [State.readRecord_partial hw, State.readRecord.again] at hgo
    refine ⟨fun htries => ?_, fun htries => ?_⟩
    · rw [if_neg htries] at hgo
      exact ⟨_, hgo, ⟨rfl, rfl⟩, State.ring?_setRing _ hn, rfl⟩
    · rw [if_pos htries] at hgo
      obtain ⟨m, hm, hwhy, hbytes⟩ := sendCqe_bytes (s.unland n r) n r r.next 1
      have hcqe := OnlyHost.sendCqe (s.unland n r) n r r.next 1 0 0 0
      generalize (s.unland n r).sendCqe n r r.next 1 0 0 0 = c at hgo hm hcqe
      exact ⟨_, hgo, (hunland.trans (hcqe.trans (.setRing ..))).same.1, State.ring?_setRing _ hn, m, hm.trans (by rw [hsent]), hwhy,
        by rw [hbytes, Nat.one_mul]⟩

end

/-! ### HOST_ACKNOWLEDGEMENT (R410) -/

/-- The host side once a message has been acknowledged. -/
def State.unsend (s : State) (id : Nat) : State := s.updHost fun h => { h with sent := h.sent.filter fun o => o.id != id }

section
variable {s : State} {id : Nat} {m : Rma} (hm : (s.host.sent.find? fun r => r.id == id) = some m)
include hm

theorem acknowledges_record {asid : BitVec 14} {c : Ctx} (hw : m.why = .record asid) (hc : s.ctx? asid = some c) :
    ∃ t, exec (.hostAcknowledgement id) s = .next t ∧ (t.mem = s.mem ∧ t.attrs = s.attrs) ∧ t.cur = s.cur ∧
      (∃ p ∈ t.net.pend, p.ev = .launchRecordWrite asid) ∧
      ∃ w : Rma, t.host.sent = (s.host.sent.filter fun r => r.id != id) ++ [w] ∧ w.why = .headWord asid ∧ w.addr = c.headAddr ∧ w.key = c.ringKey ∧
        w.bytes = bytesOfNat 8 c.rseq := by
  rw [exec_hostAcknowledgement, execHostAcknowledgement]
  simp only [hm, hw]
  rw [show (s.updHost fun h => { h with sent := h.sent.filter fun o => o.id != id }).ctx? asid = some c from hc]
  have hafter := State.afterOnce_host ((s.unsend id).sendRma c.headAddr c.ringKey (leBytes 8 c.rseq) (.headWord asid)) 1 (.launchRecordWrite asid)
  have hsame := (OnlyHost.afterOnce ((s.unsend id).sendRma c.headAddr c.ringKey (leBytes 8 c.rseq) (.headWord asid)) 1 (.launchRecordWrite asid)).same
  exact ⟨_, rfl, hsame.1, hsame.2, State.afterOnce_listed .., _, congrArg HostSt.sent hafter, rfl, rfl, rfl, leBytes_eq_bytesOfNat ..⟩

theorem acknowledges_copyOut {c : Cmd} (hw : m.why = .copyOut c) : exec (.hostAcknowledgement id) s =
    if (s.unsend id).host.sent.any fun o => o.why == .copyOut c then .next (s.unsend id) else .next ((s.unsend id).finishCmd c 0 0 0) := by
  rw [exec_hostAcknowledgement, execHostAcknowledgement]
  simp only [hm, hw]
  rfl

theorem acknowledges_lastCopy {c : Cmd} {r : Ring} (hw : m.why = .copyOut c) (hr : s.ring? c.ring = some r)
    (hlast : ∀ o ∈ s.host.sent.filter fun r => r.id != id, o.why ≠ .copyOut c) :
    ∃ t, exec (.hostAcknowledgement id) s = .next t ∧ (t.mem = s.mem ∧ t.attrs = s.attrs) ∧ Finished s t c r 0 0 0 := by
  have hnone : ¬((s.unsend id).host.sent.any fun o => o.why == .copyOut c) = true := by
    simp only [List.any_eq_true, beq_iff_eq, not_exists, not_and]
    exact hlast
  exact ⟨_, (acknowledges_copyOut hm hw).trans (if_neg hnone), (OnlyHost.finishCmd (s.unsend id) c 0 0 0).same.1,
    finished_finishCmd (s := s) (u := s.unsend id) hr rfl rfl 0 (sub := 0) (by omega) 0⟩

theorem acknowledges_copy {c : Cmd} (hw : m.why = .copyOut c) (hmore : ∃ o ∈ s.host.sent.filter fun r => r.id != id, o.why = .copyOut c) :
    exec (.hostAcknowledgement id) s = .next (s.unsend id) := by
  obtain ⟨o, ho, hwhy⟩ := hmore
  have hany : ((s.unsend id).host.sent.any fun o => o.why == .copyOut c) = true := List.any_eq_true.2 ⟨o, ho, by simp [hwhy]⟩
  exact (acknowledges_copyOut hm hw).trans (if_pos hany)

theorem acknowledges_other (hw : m.why = .completion ∨ m.why = .report) : exec (.hostAcknowledgement id) s = .next (s.unsend id) := by
  rw [exec_hostAcknowledgement, execHostAcknowledgement]
  obtain hw | hw := hw <;> simp only [hm, hw] <;> rfl

end

theorem acknowledges_nothing {s : State} {id : Nat} (hm : (s.host.sent.find? fun r => r.id == id) = none) :
    exec (.hostAcknowledgement id) s = .next s := by
  rw [exec_hostAcknowledgement, execHostAcknowledgement]
  simp only [hm]

/-! ### RMA_WRITE (R409, R411) -/

theorem State.notify_rest (s : State) (home line ack : Nat) (but : Option Nat) :
    (s.notify home line ack but).2.attrs = s.attrs ∧ (s.notify home line ack but).2.host = s.host := by
  unfold State.notify
  dsimp only
  have hn := noticed_foldl home line ack ((s.buoysOf home).filter fun e => e.line == line && !(but == some e.slot)) s
  have hhost := congrArg State.host hn.only.rest
  split
  · exact ⟨hn.attrs, hhost⟩
  · rw [State.setBuoys_only]
    exact ⟨hn.attrs, hhost⟩

/-- What the writing of a whole line of plaintext in HBM leaves of the state, apart from tables and messages. -/
structure WroteLine (s t : State) (base : Nat) (data : List Byte) : Prop where
  mem : t.mem = s.mem.writeMasked base ((2 ^ 64 - 1) * 2 ^ 0) (List.replicate 0 0 ++ data)
  zero : t.attrs.zero = s.attrs.zero
  keyOf : t.attrs.keyOf = s.attrs.keyOf
  host : t.host = s.host

theorem wroteLine_performWrite {s : State} {home line : Nat} (hz : s.attrs.zero.has (lineNo home line) = false)
    (hk : s.attrs.keyOf.get? (lineNo home line) = none) (data : List Byte) (ack : Nat) (but : Option Nat) :
    WroteLine s (s.performWrite home line none ((2 ^ 64 - 1) * 2 ^ 0) (List.replicate 0 0 ++ data) ack but).2 (lineBase home line) data := by
  unfold State.performWrite State.writeLine
  dsimp only
  rw [if_pos (show (2 ^ 64 - 1) * 2 ^ 0 % 2 ^ 64 = fullMask by decide), if_pos (by simp [hz, hk])]
  obtain ⟨hattrs, hhost⟩ := State.notify_rest
    (State.setPoison { s with mem := s.mem.writeMasked (lineBase home line) ((2 ^ 64 - 1) * 2 ^ 0) (List.replicate 0 0 ++ data) } home line false)
    home line ack but
  refine ⟨by rw [State.notify_mem]; rfl, ?_, ?_, hhost⟩ <;> rw [hattrs] <;> rfl

/-- An aligned span of two lines. -/
theorem physPieces_two {pa : Nat} (ha : pa % 64 = 0) : physPieces 4 pa 128 = [(pa, 64), (pa + 64, 64)] := by
  simp [physPieces, ha, show (pa + 64) % 64 = 0 by omega]

theorem lineBase_phys {pa : Nat} (ha : pa % 64 = 0) (hpa : pa < 2 ^ 39) : lineBase (pa / 2 ^ 33) (pa % 2 ^ 33 / 64) = hbmByte pa := by
  unfold lineBase hbmByte
  rw [if_pos (by omega)]
  omega

theorem lineNo_phys {pa : Nat} (ha : pa % 64 = 0) (hpa : pa < 2 ^ 39) : lineNo (pa / 2 ^ 33) (pa % 2 ^ 33 / 64) = hbmByte pa / 64 := by
  rw [lineNo, lineBase_phys ha hpa]

theorem physWrite_two {s : State} {pa : Nat} {b : List Byte} (hm : s.mem.wf = true) (ha : pa % 64 = 0) (hpa : pa + 128 ≤ 2 ^ 39) (hb : b.length = 128)
    (hfree : ∀ l, l < 2 → s.attrs.zero.has (hbmByte pa / 64 + l) = false ∧ s.attrs.keyOf.get? (hbmByte pa / 64 + l) = none) :
    Wrote s (s.physWrite pa b) (hbmByte pa) 128 (2 ^ 128 - 1) b ∧ (s.physWrite pa b).host = s.host := by
  have hpieces := physPieces_two ha
  have h2 : (pa + 64) % 64 = 0 := by omega
  have hno : hbmByte (pa + 64) / 64 = hbmByte pa / 64 + 1 := by unfold hbmByte; omega
  obtain ⟨hz0, hk0⟩ := hfree 0 (by omega)
  obtain ⟨hz1, hk1⟩ := hfree 1 (by omega)
  unfold State.physWrite
  rw [hb, hpieces]
  simp only [List.foldl_cons, List.foldl_nil, ha, h2, Nat.sub_self, Nat.add_sub_cancel_left, List.drop_zero]
  have h1 := wroteLine_performWrite (s := s) (home := pa / 2 ^ 33) (line := pa % 2 ^ 33 / 64) (by rw [lineNo_phys ha (by omega)]; exact hz0)
    (by rw [lineNo_phys ha (by omega)]; exact hk0) (b.take 64) 0 none
  generalize (s.performWrite (pa / 2 ^ 33) _ none _ _ 0 none).2 = t at h1 ⊢
  have h2 := wroteLine_performWrite (s := t) (home := (pa + 64) / 2 ^ 33) (line := (pa + 64) % 2 ^ 33 / 64)
    (by rw [lineNo_phys h2 (by omega), hno, h1.zero]; exact hz1) (by rw [lineNo_phys h2 (by omega), hno, h1.keyOf]; exact hk1) ((b.drop 64).take 64) 0 none
  generalize (t.performWrite ((pa + 64) / 2 ^ 33) _ none _ _ 0 none).2 = u at h2 ⊢
  rw [lineBase_phys ‹_› (by omega)] at h1 h2
  refine ⟨?_, h2.host.trans h1.host⟩
  intro a
  have hm1 : t.mem.wf = true := by rw [h1.mem]; exact Memory.wf_writeMasked _ _ _ hm
  rw [h2.mem, Memory.read_writeMasked_at hm1, h1.mem, Memory.read_writeMasked_at hm]
  have hbase : hbmByte (pa + 64) = hbmByte pa + 64 := by unfold hbmByte; omega
  have hlo : (b.take 64).length = 64 := by rw [List.length_take]; omega
  have hhi : ((b.drop 64).take 64).length = 64 := by rw [List.length_take, List.length_drop]; omega
  simp only [hbase, hlo, hhi, Nat.add_zero, Nat.testBit_two_pow_sub_one, decide_eq_true_eq]
  generalize hbmByte pa = base
  by_cases hfirst : base ≤ a ∧ a < base + 64
  · rw [if_neg (by omega), if_pos (by omega), if_pos (by omega)]
    simp [List.getD_eq_getElem?_getD, show a - base < 64 by omega]
  · by_cases hsecond : base + 64 ≤ a ∧ a < base + 128
    · rw [if_pos (by omega), if_pos (by omega)]
      simp [List.getD_eq_getElem?_getD, List.getElem?_drop, show a - (base + 64) < 64 by omega,
        show 64 + (a - (base + 64)) = a - base by omega]
    · rw [if_neg (by omega), if_neg (by omega), if_neg (by omega)]

theorem Map.mem_of_get? {α : Type} {m : Map α} {k : Nat} {a : α} (h : m.get? k = some a) : (k, a) ∈ m := by
  induction m with
  | nil => cases h
  | cons e m ih =>
    obtain ⟨j, b⟩ := e
    unfold Map.get? at h
    split at h
    next hj => rw [hj, Option.some.inj h]; exact List.mem_cons_self
    next => exact List.mem_cons_of_mem _ (ih h)

/-- The slots whose landed bits a message of the size of a record sets. -/
theorem mem_coveredSlots {s : State} {pa n k : Nat} {r : Ring} (hr : s.host.rings.get? n = some r) (huniq : ∀ e ∈ s.host.rings, e.1 = n → e.2 = r) :
    (n, k) ∈ s.coveredSlots pa 128 ↔ r.open_ = true ∧ k < 2 ^ r.logn ∧ pa = r.base.toNat + 128 * k := by
  have hmem : (n, r) ∈ s.host.rings := Map.mem_of_get? hr
  unfold State.coveredSlots
  rw [List.mem_flatMap]
  constructor
  · rintro ⟨e, he, hk⟩
    split at hk
    next ho =>
      obtain ⟨j, hj, hjk⟩ := List.mem_map.1 hk
      obtain ⟨hn, rfl⟩ := Prod.mk.inj hjk
      obtain ⟨hlt, hspan⟩ := List.mem_filter.1 hj
      rw [huniq e he hn] at ho hlt hspan
      have := of_decide_eq_true hspan
      exact ⟨ho, List.mem_range.1 hlt, by omega⟩
    next => cases hk
  · rintro ⟨ho, hk, hpa⟩
    refine ⟨_, hmem, ?_⟩
    rw [if_pos ho]
    exact List.mem_map.2 ⟨k, List.mem_filter.2 ⟨List.mem_range.2 hk, decide_eq_true (by dsimp only; omega)⟩, rfl⟩

section
variable {s : State} {port pa : Nat} {b : List Byte}

theorem rma_unready (h : s.isReady (48 + port) = false) : exec (.rmaWrite port pa b) s = .next s := by
  rw [exec_rmaWrite, execRmaWrite, h]
  rfl

theorem rma_dropped (hready : s.isReady (48 + port) = true) (h : 4194304 < b.length ∨ ∃ k, k < b.length ∧ s.registered (pa + k) = false) :
    exec (.rmaWrite port pa b) s = .next (s.countPort port fun p => { p with rmadrop := p.rmadrop + 1 }) := by
  rw [exec_rmaWrite, execRmaWrite, if_neg (by simp [hready]), if_pos]
  simpa using h

theorem rma_performed (hready : s.isReady (48 + port) = true) (hreg : ∀ k, k < b.length → s.registered (pa + k) = true) (ha : pa % 64 = 0)
    (hpa : pa + 128 ≤ 2 ^ 39) (hb : b.length = 128) (hm : s.mem.wf = true)
    (hfree : ∀ l, l < 2 → s.attrs.zero.has (hbmByte pa / 64 + l) = false ∧ s.attrs.keyOf.get? (hbmByte pa / 64 + l) = none) :
    ∃ t, exec (.rmaWrite port pa b) s = .next t ∧ Wrote s t (hbmByte pa) 128 (2 ^ 128 - 1) b ∧
      t.portStat port = { s.portStat port with rmaok := (s.portStat port).rmaok + 1 } ∧ t.host.rings = s.host.rings ∧
      ∀ n r k, s.host.rings.get? n = some r → (∀ e ∈ s.host.rings, e.1 = n → e.2 = r) → (t.host.landed.contains (n, k) = true ↔
        s.host.landed.contains (n, k) = true ∨ (r.open_ = true ∧ k < 2 ^ r.logn ∧ pa = r.base.toNat + 128 * k)) := by
  rw [exec_rmaWrite, execRmaWrite, if_neg (by simp [hready]), if_neg]
  · obtain ⟨hwrote, hhost⟩ := physWrite_two hm ha hpa hb hfree
    rw [hb]
    generalize s.physWrite pa b = w at hwrote hhost ⊢
    have hrings : w.host.rings = s.host.rings := by rw [hhost]
    have hland : w.host.landed = s.host.landed := by rw [hhost]
    refine ⟨_, rfl, hwrote, ?_, hrings, fun n r k hr huniq => ?_⟩
    · have hstat := State.portStat_countPort w port fun p => { p with rmaok := p.rmaok + 1 }
      have hsame : w.portStat port = s.portStat port := by unfold State.portStat; rw [hhost]
      rw [hsame] at hstat
      exact hstat
    · replace hland : (w.countPort port fun p => { p with rmaok := p.rmaok + 1 }).host.landed = s.host.landed := hland
      rw [← mem_coveredSlots hr huniq, List.contains_iff_mem, List.contains_iff_mem, ← hland]
      generalize (w.countPort port fun p => { p with rmaok := p.rmaok + 1 }) = c
      simp only [State.updHost, List.mem_append, List.mem_filter, Bool.not_eq_true', List.contains_eq_mem, decide_eq_false_iff_not]
      tauto
  · simp only [Bool.or_eq_true, decide_eq_true_eq, Bool.not_eq_true', not_or, not_lt, Bool.not_eq_false, List.all_eq_true, List.mem_range]
    exact ⟨by omega, hreg⟩

end

end Sys2Proof.Machine
end


section
/-! PROOF. What a port does with a request of another package (R227, R230, R423). -/

namespace Sys2Proof.Machine

/-! ### The parts of a transfer -/

/-- The lines of a span are its pieces. -/
theorem mem_pieces {fuel va n k : Nat} (hfuel : n + va % 64 ≤ 64 * fuel) (hk : va ≤ k) (hkn : k < va + n) (hline : k = va ∨ k % 64 = 0) :
    (k, Nat.min (64 - k % 64) (va + n - k)) ∈ pieces fuel va n := by
  induction fuel generalizing va n with
  | zero => omega
  | succ fuel ih =>
    unfold pieces
    rw [if_neg (by omega)]
    dsimp only
    obtain rfl | hline := hline
    · rw [show Nat.min (64 - k % 64) (k + n - k) = Nat.min n (64 - k % 64) by rw [Nat.add_sub_cancel_left]; exact Nat.min_comm ..]
      exact List.mem_cons_self
    · by_cases hva : k = va
      · subst hva
        rw [show Nat.min (64 - k % 64) (k + n - k) = Nat.min n (64 - k % 64) by rw [Nat.add_sub_cancel_left]; exact Nat.min_comm ..]
        exact List.mem_cons_self
      · have hmin : Nat.min n (64 - va % 64) = 64 - va % 64 := Nat.min_eq_right (by omega)
        rw [hmin]
        refine List.mem_cons_of_mem _ ?_
        have := ih (va := va + (64 - va % 64)) (n := n - (64 - va % 64)) (by omega) (by omega) (by omega) (Or.inr hline)
        rwa [show va + (64 - va % 64) + (n - (64 - va % 64)) - k = va + n - k by omega] at this

/-- A part of a transfer, listed as a request and on its way to its home. -/
def PartAsked (t : State) (p : PodReq) (k : ReqKind) (op off n now : Nat) : Prop :=
  ∃ id lane c, t.req? id = some (podPart p id op lane k c off n now) ∧ ⟨now + 1, .homeAccess id⟩ ∈ t.net.pend

/-- What the listing of more requests keeps. -/
structure AsksMore (s t : State) : Prop where
  only : OnlyHost s t
  old : ∀ id, id < s.net.nextId → t.req? id = s.req? id
  next : s.net.nextId ≤ t.net.nextId
  pend : s.net.pend ⊆ t.net.pend

theorem AsksMore.refl (s : State) : AsksMore s s := ⟨rfl, fun _ _ => rfl, Nat.le_refl _, List.Subset.refl _⟩

theorem AsksMore.trans {s t u : State} (h : AsksMore s t) (h' : AsksMore t u) : AsksMore s u :=
  ⟨h.only.trans h'.only, fun id hid => (h'.old id (Nat.lt_of_lt_of_le hid h.next)).trans (h.old id hid), Nat.le_trans h.next h'.next,
    List.Subset.trans h.pend h'.pend⟩

/-- A request with the next number, listed and sent to its home. -/
def State.askPart (s : State) (p : PodReq) (k : ReqKind) (op lane : Nat) (c : Cls) (off n : Nat) : State :=
  let r := podPart p s.net.nextId op lane k c off n s.now
  (s.fresh.2.setReq r).after 1 (.homeAccess r.id)

theorem askPart_asksMore (s : State) (p : PodReq) (k : ReqKind) (op lane : Nat) (c : Cls) (off n : Nat) : AsksMore s (s.askPart p k op lane c off n) :=
  ⟨rfl, fun id hid => (Map.get?_set ..).trans (if_neg (by dsimp only [podPart]; omega)), Nat.le_succ _, List.subset_append_left ..⟩

theorem podLines_cons {k : ReqKind} (hk : k = .load ∨ k = .store) (s : State) (p : PodReq) (op va n lane : Nat) (l : List (Nat × Nat)) :
    s.podLines p k op ((va, n) :: l) lane =
      (s.askPart p k op lane (s.podCls p.asid va) (va - p.addr.toNat) n).podLines p k op l (lane + 1) := by
  obtain rfl | rfl := hk <;> rfl

theorem podLines_asks {k : ReqKind} (hk : k = .load ∨ k = .store) (p : PodReq) (op : Nat) (l : List (Nat × Nat)) (s : State) (lane : Nat) :
    AsksMore s (s.podLines p k op l lane) ∧ ∀ e ∈ l, PartAsked (s.podLines p k op l lane) p k op (e.1 - p.addr.toNat) e.2 s.now := by
  induction l generalizing s lane with
  | nil => exact ⟨.refl s, by simp⟩
  | cons e l ih =>
    obtain ⟨va, n⟩ := e
    rw [podLines_cons hk]
    have hmore := askPart_asksMore s p k op lane (s.podCls p.asid va) (va - p.addr.toNat) n
    obtain ⟨hrest, hparts⟩ := ih (s.askPart p k op lane (s.podCls p.asid va) (va - p.addr.toNat) n) (lane + 1)
    refine ⟨hmore.trans hrest, fun e he => ?_⟩
    obtain rfl | he := List.mem_cons.1 he
    · refine ⟨s.net.nextId, lane, s.podCls p.asid va, ?_, hrest.pend (List.mem_append_right _ (List.mem_singleton.2 rfl))⟩
      rw [hrest.old _ (Nat.lt_succ_self _)]
      exact State.req?_setReq_same ..
    · exact hparts e he

/-! ### The reply cache (R230) -/

theorem Map.getD_eq_get? {α : Type} (d : α) (m : Map α) (k : Nat) : m.getD d k = (m.get? k).getD d := by
  induction m with
  | nil => rfl
  | cons e m ih =>
    unfold Map.getD Map.get?
    split
    · rfl
    · exact ih


section
variable {h : Home} {p : PodReq}

theorem Home.consult_discard {o : RcSource} (ho : h.rc.get? (podSource p) = some o) (hb : seqBefore p.seq o.acked = true) :
    h.consult p = (.discard, h) := by
  unfold Home.consult
  dsimp only
  rw [Map.getD_eq_get?, ho, Option.getD_some, if_pos hb]

theorem Home.consult_saved {o : RcSource} {v : RcEntry} (ho : h.rc.get? (podSource p) = some o) (hb : seqBefore p.seq o.acked = false)
    (hv : o.entries.get? (p.seq.toNat % 64) = some v) (hseq : v.seq = p.seq) (ha : seqBefore o.acked p.acked = false)
    (hlive : ∀ e ∈ o.entries, seqBefore e.2.seq o.acked = false) : ∃ h', h.consult p = (.saved v, h') := by
  have hack : o.ack p.acked = o := by
    unfold RcSource.ack
    rw [ha]
    simp only [Bool.false_eq_true, if_false]
    rw [List.filter_eq_self.2 fun e he => by rw [hlive e he]; rfl]
  unfold Home.consult
  dsimp only
  rw [Map.getD_eq_get?, ho, Option.getD_some, if_neg (by simp [hb]), hack, if_neg (by simp), hv]
  dsimp only
  rw [if_pos hseq]
  exact ⟨_, rfl⟩

theorem seqBefore_self (a : W32) : seqBefore a a = false := by simp [seqBefore]

theorem Home.consult_perform (ho : h.rc.get? (podSource p) = none) (hlen : h.rc.length < 4096) (hb : seqBefore p.seq p.acked = false) :
    ∃ h', h.consult p = (.perform, h') ∧ h'.rc.get? (podSource p) = some ⟨p.acked, []⟩ := by
  have hlive : (h.rc.filter fun v => !v.2.entries.isEmpty || v.1 == podSource p).length < 4096 := Nat.lt_of_le_of_lt (List.length_filter_le ..) hlen
  unfold Home.consult
  dsimp only
  rw [Map.getD_eq_get?, ho, Option.getD_none, if_neg (by simp [hb]), if_neg (by simp; omega)]
  have hack : (RcSource.mk p.acked []).ack p.acked = ⟨p.acked, []⟩ := by simp [RcSource.ack, seqBefore_self]
  simp only [hack]
  exact ⟨_, rfl, Map.get?_set_same ..⟩

end

/-! ### Admission (R227, R230) -/

/-- The home of a request's address in this package. -/
def State.askedHome (s : State) (p : PodReq) : Nat := homeOf (s.podCls p.asid p.addr.toNat)

section
variable {s : State} {p : PodReq} (k : ReqKind) (hreqs : s.net.reqs = [])
include hreqs

theorem podAdmit_discard {h : Home} (hc : (s.home (s.askedHome p)).consult p = (.discard, h)) : s.podAdmit p k = s.updHome (s.askedHome p) fun _ => h := by
  unfold State.askedHome at hc
  unfold State.podAdmit
  dsimp only
  rw [hreqs, hc]
  rfl

theorem podAdmit_saved {h : Home} {v : RcEntry} (hc : (s.home (s.askedHome p)).consult p = (.saved v, h)) : ∃ sram, s.podAdmit p k =
    (s.updHome (s.askedHome p) fun _ => h).sendAnswer p ⟨v.status, v.data, leBytes 8 v.data.toNat, BitVec.ofNat 16 (2 * hopPkg), sram⟩ := by
  unfold State.askedHome at hc
  unfold State.podAdmit
  dsimp only
  rw [hreqs, hc]
  exact ⟨_, rfl⟩

theorem podAdmit_line {h : Home} (hc : (s.home (s.askedHome p)).consult p = (.perform, h)) (hk : k = .load ∨ k = .store)
    (hline : p.addr.toNat % 64 + p.size ≤ 64) : s.podAdmit p k =
      (s.updHome (s.askedHome p) fun _ => h).askPart p k 0 0 (s.podCls p.asid p.addr.toNat) 0 p.size := by
  unfold State.askedHome at hc
  unfold State.podAdmit
  dsimp only
  rw [hreqs, hc]
  refine (if_neg (by simp)).trans ((if_neg (by omega)).trans ?_)
  obtain rfl | rfl := hk <;> rfl

theorem podAdmit_lines {h : Home} (hc : (s.home (s.askedHome p)).consult p = (.perform, h)) (hline : 64 < p.addr.toNat % 64 + p.size) :
    s.podAdmit p k = (s.updHome (s.askedHome p) fun _ => h).fresh.2.podLines p k s.net.nextId (pieces (p.size / 64 + 2) p.addr.toNat p.size) 0 := by
  unfold State.askedHome at hc
  unfold State.podAdmit
  dsimp only
  rw [hreqs, hc]
  exact (if_neg (by simp)).trans (if_pos hline)

end

/-- What a read or a write of another package asks. -/
def plainKind (p : PodReq) : ReqKind := if p.kind.toNat = 0 then .load else .store

theorem plainKind_cases (p : PodReq) : plainKind p = .load ∨ plainKind p = .store := by
  unfold plainKind
  split
  · exact Or.inl rfl
  · exact Or.inr rfl

theorem podKind_plain {p : PodReq} (h : p.kind.toNat ≤ 1) : podKind p = some (plainKind p) := by
  unfold podKind plainKind
  obtain h | h : p.kind.toNat = 0 ∨ p.kind.toNat = 1 := by omega
  all_goals simp [h]

section
variable {s : State} {port : Nat} {r : PodReq} (hready : s.isReady (32 + port) = true) (ht : s.tenantOf? r.asid = some r.tag)
include hready ht

theorem podRequest_message {id : Nat} (hm : r.msg = some (.tlbiAck id)) : exec (.podRequest port r) s = .next (s.after 1 (.tlbiAck id)) := by
  rw [exec_podRequest, execPodRequest, if_neg (by simp [hready]), if_neg (by simp [ht]), hm]
  rfl

variable (hm : r.msg = none) (hkind : r.kind.toNat ≤ 1)
include hm hkind

theorem podRequest_plain : exec (.podRequest port r) s = .next (s.podAdmit r (plainKind r)) := by
  rw [exec_podRequest, execPodRequest, if_neg (by simp [hready]), if_neg (by simp [ht])]
  simp only [hm, podKind_plain hkind]

variable (hreqs : s.net.reqs = [])
include hreqs

theorem podRequest_discarded {o : RcSource} (ho : (s.home (s.askedHome r)).rc.get? (podSource r) = some o) (hb : seqBefore r.seq o.acked = true) :
    ∃ t, exec (.podRequest port r) s = .next t ∧ (t.mem = s.mem ∧ t.attrs = s.attrs) ∧ t.cur = s.cur ∧ t.net = s.net := by
  rw [podRequest_plain hready ht hm hkind, podAdmit_discard _ hreqs (Home.consult_discard ho hb)]
  exact ⟨_, rfl, ⟨rfl, rfl⟩, rfl, rfl⟩

theorem podRequest_answered {o : RcSource} {v : RcEntry} (ho : (s.home (s.askedHome r)).rc.get? (podSource r) = some o)
    (hb : seqBefore r.seq o.acked = false) (hv : o.entries.get? (r.seq.toNat % 64) = some v) (hseq : v.seq = r.seq)
    (ha : seqBefore o.acked r.acked = false) (hlive : ∀ e ∈ o.entries, seqBefore e.2.seq o.acked = false) :
    ∃ t, exec (.podRequest port r) s = .next t ∧ (t.mem = s.mem ∧ t.attrs = s.attrs) ∧ t.net.reqs = [] ∧
      ∃ a, t.net.out = s.net.out ++ [(r, a)] ∧ a.status = v.status ∧ a.data = v.data := by
  obtain ⟨h, hc⟩ := Home.consult_saved ho hb hv hseq ha hlive
  obtain ⟨sram, hadmit⟩ := podAdmit_saved (plainKind r) hreqs hc
  rw [podRequest_plain hready ht hm hkind, hadmit]
  exact ⟨_, rfl, ⟨rfl, rfl⟩, hreqs, _, rfl, rfl, rfl⟩

variable (ho : (s.home (s.askedHome r)).rc.get? (podSource r) = none) (hlen : (s.home (s.askedHome r)).rc.length < 4096)
  (hb : seqBefore r.seq r.acked = false)
include ho hlen hb

theorem podRequest_line (hline : r.addr.toNat % 64 + r.size ≤ 64) :
    ∃ t, exec (.podRequest port r) s = .next t ∧ (t.mem = s.mem ∧ t.attrs = s.attrs) ∧ t.cur = s.cur ∧
      (t.home (s.askedHome r)).rc.get? (podSource r) = some ⟨r.acked, []⟩ ∧ Posts s t 1 (.homeAccess s.net.nextId) ∧
      t.req? s.net.nextId = some (podPart r s.net.nextId 0 0 (plainKind r) (s.podCls r.asid r.addr.toNat) 0 r.size s.now) := by
  obtain ⟨h, hc, hrc⟩ := Home.consult_perform ho hlen hb
  rw [podRequest_plain hready ht hm hkind, podAdmit_line _ hreqs hc (plainKind_cases r) hline]
  refine ⟨_, rfl, ⟨rfl, rfl⟩, rfl, ?_, rfl, State.req?_setReq_same ..⟩
  have hhome : (s.updHome (s.askedHome r) fun _ => h).home (s.askedHome r) = h := by rw [State.home_updHome, if_pos rfl]
  exact (congrArg (fun h : Home => h.rc.get? (podSource r)) hhome).trans hrc

theorem podRequest_lines (hline : 64 < r.addr.toNat % 64 + r.size) :
    ∃ t, exec (.podRequest port r) s = .next t ∧ (t.mem = s.mem ∧ t.attrs = s.attrs) ∧ t.cur = s.cur ∧
      ∀ n, r.addr.toNat ≤ n → n < r.addr.toNat + r.size → n = r.addr.toNat ∨ n % 64 = 0 →
        PartAsked t r (plainKind r) s.net.nextId (n - r.addr.toNat) (Nat.min (64 - n % 64) (r.addr.toNat + r.size - n)) s.now := by
  obtain ⟨h, hc, hrc⟩ := Home.consult_perform ho hlen hb
  rw [podRequest_plain hready ht hm hkind, podAdmit_lines _ hreqs hc hline]
  have hasks := podLines_asks (plainKind_cases r) r s.net.nextId (pieces (r.size / 64 + 2) r.addr.toNat r.size)
    (s.updHome (s.askedHome r) fun _ => h).fresh.2 0
  generalize State.podLines _ r (plainKind r) s.net.nextId _ 0 = t at hasks ⊢
  obtain ⟨hmore, hparts⟩ := hasks
  obtain ⟨⟨hmem, hattrs⟩, hcur⟩ := hmore.only.same
  exact ⟨t, rfl, ⟨hmem, hattrs⟩, hcur, fun n hlo hhi hn => hparts _ (mem_pieces (by omega) hlo hhi hn)⟩

end

theorem podRequest_unready {s : State} {port : Nat} {r : PodReq} (h : s.isReady (32 + port) = false) : exec (.podRequest port r) s = .next s := by
  rw [exec_podRequest, execPodRequest, h]
  rfl

theorem podRequest_rejected {s : State} {port : Nat} {r : PodReq} {n : TenantEnt} (hready : s.isReady (32 + port) = true)
    (ht : s.tenantOf? r.asid ≠ some r.tag) (hm : r.msg = none) (hn : s.pkg.tenants.get? r.tag.toNat = some n) :
    ∃ t, exec (.podRequest port r) s = .next t ∧ (t.mem = s.mem ∧ t.attrs = s.attrs) ∧ t.cur = s.cur ∧
      t.homes = s.homes ∧ t.net.reqs = s.net.reqs ∧ t.net.out = s.net.out ++ [(r, ⟨0x11, 0, [], 1500, false⟩)] ∧
      t.pkg.tenants.get? r.tag.toNat = some { n with rej := n.rej + 1 } ∧
      t.portStat (16 + port) = { s.portStat (16 + port) with tenrej := (s.portStat (16 + port)).tenrej + 1 } := by
  rw [exec_podRequest, execPodRequest, if_neg (by simp [hready]), if_pos (by simpa using ht)]
  simp only [hm, hn]
  exact ⟨_, rfl, ⟨rfl, rfl⟩, rfl, rfl, rfl, rfl, Map.get?_set_same .., Map.getD_set_same ..⟩

/-- What a port does with a request of another package. -/
theorem podRequests (s : State) (port : Nat) (r : PodReq) :
    let x := s.cur
    let quiet (t : State) : Prop := t.mem = s.mem ∧ t.attrs = s.attrs
    let noPort : PortStat := ⟨0, 0, 0, 0, 0, 0⟩
    let stat (t : State) (p : Nat) : PortStat := t.host.ports.getD noPort p
    let go := exec (.podRequest port r) s
    let e := s.asidEnt r.asid
    let c := localClass (if e.wv then some e.wbase else none) r.addr.toNat
    let h := s.home (homeOf c)
    let src := podSource r
    (s.isReady (32 + port) = false → go = .next s) ∧
    (s.isReady (32 + port) = true → s.tenantOf? r.asid ≠ some r.tag → r.msg = none → ∀ n, s.pkg.tenants.get? r.tag.toNat = some n →
      ∃ t, go = .next t ∧ quiet t ∧ t.cur = x ∧
        t.homes = s.homes ∧ t.net.reqs = s.net.reqs ∧ t.net.out = s.net.out ++ [(r, ⟨0x11, 0, [], 1500, false⟩)] ∧
        t.pkg.tenants.get? r.tag.toNat = some { n with rej := n.rej + 1 } ∧
        stat t (16 + port) = { stat s (16 + port) with tenrej := (stat s (16 + port)).tenrej + 1 }) ∧
    (s.isReady (32 + port) = true → s.tenantOf? r.asid = some r.tag → r.msg = none → r.kind.toNat ≤ 1 → s.net.reqs = [] →
      (∀ o, h.rc.get? src = some o → seqBefore r.seq o.acked = true → ∃ t, go = .next t ∧ quiet t ∧ t.cur = x ∧ t.net = s.net) ∧
      (∀ o v, h.rc.get? src = some o → seqBefore r.seq o.acked = false → o.entries.get? (r.seq.toNat % 64) = some v → v.seq = r.seq →
        seqBefore o.acked r.acked = false →
        (∀ k ∈ o.entries, seqBefore k.2.seq o.acked = false) → ∃ t, go = .next t ∧ quiet t ∧ t.net.reqs = [] ∧
          ∃ a, t.net.out = s.net.out ++ [(r, a)] ∧ a.status = v.status ∧ a.data = v.data) ∧
      (h.rc.get? src = none → h.rc.length < 4096 → seqBefore r.seq r.acked = false → r.addr.toNat % 64 + r.size ≤ 64 →
        ∃ t, go = .next t ∧ quiet t ∧ t.cur = x ∧ (t.home (homeOf c)).rc.get? src = some ⟨r.acked, []⟩ ∧ Posts s t 1 (.homeAccess s.net.nextId) ∧
          ∃ q, t.req? s.net.nextId = some q ∧ q.source = some r ∧ q.stage = .travel ∧ q.kind = (if r.kind.toNat = 0 then .load else .store) ∧
            q.cls = c ∧ q.n = r.size ∧
            q.asid = r.asid ∧ q.data = r.data.take r.size ∧ (r.kind.toNat = 1 → q.mask = r.mask % 2 ^ r.size)) ∧
      (h.rc.get? src = none → h.rc.length < 4096 → seqBefore r.seq r.acked = false → 64 < r.addr.toNat % 64 + r.size → r.addr.toNat + r.size ≤ 2 ^ 48 →
        ∃ t, go = .next t ∧ quiet t ∧ t.cur = x ∧ ∀ n, (r.addr.toNat ≤ n ∧ n < r.addr.toNat + r.size ∧ (n = r.addr.toNat ∨ n % 64 = 0)) →
          ∃ q, t.req? q.id = some q ∧ q.source = some r ∧ q.op = s.net.nextId ∧ q.ptr.toNat = n ∧
            q.n = Nat.min (64 - n % 64) (r.addr.toNat + r.size - n) ∧
            q.data = (r.data.drop (n - r.addr.toNat)).take q.n ∧ q.stage = .travel ∧ ⟨s.now + 1, .homeAccess q.id⟩ ∈ t.net.pend)) ∧
    (∀ id, s.isReady (32 + port) = true → s.tenantOf? r.asid = some r.tag → r.msg = some (.tlbiAck id) →
      ∃ t, go = .next t ∧ quiet t ∧ Posts s t 1 (.tlbiAck id)) := by
  dsimp only
  refine ⟨podRequest_unready, fun hready ht hm n hn => podRequest_rejected hready ht hm hn, fun hready ht hm hkind hreqs => ⟨?_, ?_, ?_, ?_⟩,
    fun id hready ht hm => ⟨_, podRequest_message hready ht hm, ⟨rfl, rfl⟩, rfl⟩⟩
  · exact fun o ho hb => podRequest_discarded hready ht hm hkind hreqs ho hb
  · exact fun o v ho hb hv hseq ha hlive => podRequest_answered hready ht hm hkind hreqs ho hb hv hseq ha hlive
  · intro ho hlen hb hline
    obtain ⟨t, hgo, hquiet, hcur, hrc, hpost, hreq⟩ := podRequest_line hready ht hm hkind hreqs ho hlen hb hline
    refine ⟨t, hgo, hquiet, hcur, hrc, hpost, _, hreq, rfl, rfl, rfl, rfl, rfl, rfl, ?_, fun h1 => ?_⟩
    · simp [podPart]
    · simp [podPart, plainKind, h1]
  · intro ho hlen hb hline hend
    obtain ⟨t, hgo, hquiet, hcur, hparts⟩ := podRequest_lines hready ht hm hkind hreqs ho hlen hb hline
    refine ⟨t, hgo, hquiet, hcur, ?_⟩
    rintro n ⟨hlo, hhi, hn⟩
    obtain ⟨id, lane, c, hreq, hpend⟩ := hparts n hlo hhi hn
    refine ⟨podPart r id s.net.nextId lane (plainKind r) c (n - r.addr.toNat) (Nat.min (64 - n % 64) (r.addr.toNat + r.size - n)) s.now,
      hreq, rfl, rfl, ?_, rfl, rfl, rfl, hpend⟩
    show (r.addr.setWidth 64 + BitVec.ofNat 64 (n - r.addr.toNat)).toNat = n
    simp only [BitVec.toNat_add, BitVec.toNat_setWidth, BitVec.toNat_ofNat]
    omega

end Sys2Proof.Machine
end


section
/-! PROOF. The resending and the loss of requests of other packages (R169, R424, R425), and the statement on ports. -/

namespace Sys2Proof.Machine

/-! ### A package that has left -/

/-- What the loss of a package with no worklist in common may change: tables of watchers, reply caches, what is asked and in flight. -/
def OnlyLost (s t : State) : Prop := t = { s with net := t.net, homes := t.homes, tiles := t.tiles }

theorem OnlyLost.refl (s : State) : OnlyLost s s := rfl

theorem OnlyLost.trans {s t u : State} (h : OnlyLost s t) (h' : OnlyLost t u) : OnlyLost s u := by
  unfold OnlyLost at *
  rw [h', h]

theorem onlyLost_answerPod (s : State) (r : Req) (p : PodReq) (res : ReqRes) : OnlyLost s (s.answerPod r p res) := by
  have hdone (u : State) (a : PodAnswer) (c : Prop) [Decidable c] :
      OnlyLost u (if c then u.sendAnswer p a else (u.sendAnswer p a).updHome r.home fun h => h.saveReply p a) := by
    split <;> rfl
  have hdel (l : List Req) (u : State) : OnlyLost u (l.foldl (fun s o => s.delReq o.id) u) :=
    foldl_keeps OnlyLost.refl OnlyLost.trans (fun _ _ => by rfl) ..
  unfold State.answerPod
  dsimp only
  split
  · exact OnlyLost.trans (t := s.delReq r.id) rfl (hdone ..)
  · split
    · rfl
    · exact OnlyLost.trans (t := s.setReq _) rfl ((hdel ..).trans (hdone ..))

theorem onlyLost_reply (s : State) (r : Req) (res : ReqRes) (extra : Nat) : OnlyLost s (s.reply r res extra) := by
  unfold State.reply
  split
  · exact onlyLost_answerPod ..
  · rfl

theorem onlyLost_noticeTaken (s : State) (ack : Nat) : OnlyLost s (s.noticeTaken ack) := by
  unfold State.noticeTaken
  split
  · exact .refl s
  · split
    · exact .refl s
    · split
      · rfl
      · split
        · rfl
        · split <;> exact onlyLost_reply ..

theorem onlyLost_dropAway (s : State) (a : AwayNotice) : OnlyLost s (s.dropAway a) := by
  unfold State.dropAway
  dsimp only
  split
  · rfl
  · exact OnlyLost.trans (t := s.updNet _) rfl (onlyLost_noticeTaken ..)

theorem onlyLost_loseWatchers (s : State) (pkg : Nat) : OnlyLost s (s.loseWatchers pkg) := by
  unfold State.loseWatchers
  exact OnlyLost.trans (t := { s with homes := _, tiles := _ }) rfl (foldl_keeps OnlyLost.refl OnlyLost.trans onlyLost_dropAway ..)

/-- A package that holds no part of a worklist here, while none is being opened. -/
theorem onlyLost_losePackage {s : State} {pkg : Nat} (hwls : ∀ e ∈ s.pkg.wls, pkg ∉ e.2.pkgs) (hopen : s.pkg.openings = []) :
    OnlyLost s (s.losePackage pkg) := by
  have hspans : (s.pkg.wls.filter fun e => !e.2.closed && e.2.pkgs.contains pkg && decide (1 < e.2.pkgs.length)) = [] := by
    refine List.filter_eq_nil_iff.2 fun e he => ?_
    simp [hwls e he]
  have hkept : ((s.pkg.openings.filter fun o => o.by_ != 65536 + pkg).map fun o =>
      { o with left := o.left.filter (· != pkg), taken := o.taken.filter (· != pkg) }) = s.pkg.openings := by
    rw [hopen]
    rfl
  have hpkg : (s.updPkg fun p => { p with openings := (p.openings.filter fun o => o.by_ != 65536 + pkg).map fun o =>
      { o with left := o.left.filter (· != pkg), taken := o.taken.filter (· != pkg) } }) = s := by
    unfold State.updPkg
    dsimp only
    rw [hkept]
  unfold State.losePackage
  dsimp only
  rw [hspans, hpkg]
  exact onlyLost_loseWatchers ..

/-! ### BUSY_RESEND (R424) -/

theorem State.podLeave_out (s : State) (r : Req) : s.podLeave r = { s with net := { s.net with outbox := (s.podLeave r).net.outbox } } := by
  unfold State.podLeave
  split
  · split <;> rfl
  · rfl

section
variable {s : State} {id : Nat} {r : Req} (hr : s.req? id = some r)
include hr

theorem busyResend_resends (hid : r.id = id) (hsent : r.sent ≠ 0) (hstage : r.stage = .travel) :
    ∃ t, exec (.busyResend id) s = .next t ∧ t = { s with net := t.net } ∧ t.req? id = some { r with sent := s.now + 1 } ∧
      Posts s t 24000000 (.podRequestTimeout id) := by
  rw [exec_busyResend, execBusyResend]
  simp only [hr]
  rw [if_neg (by simp [hsent, hstage])]
  have hreq : (s.setReq { r with sent := s.now + 1 }).req? id = some { r with sent := s.now + 1 } := by
    rw [← hid]
    exact State.req?_setReq_same ..
  have hout := State.podLeave_out (s.setReq { r with sent := s.now + 1 }) r
  rw [← State.podLeave_req? _ r] at hreq
  generalize (s.setReq { r with sent := s.now + 1 }).podLeave r = t at hreq hout ⊢
  refine ⟨_, rfl, ?_, hreq, ?_⟩
  · rw [hout]
    rfl
  · rw [hout]
    rfl

theorem busyResend_idle (h : r.sent = 0 ∨ r.stage ≠ .travel) : exec (.busyResend id) s = .next s := by
  rw [exec_busyResend, execBusyResend]
  simp only [hr]
  exact if_pos (by simpa using h)

/-! ### POD_REQUEST_TIMEOUT (R425) -/

theorem podRequestTimeout_idle (h : r.sent = 0 ∨ r.stage ≠ .travel) : exec (.podRequestTimeout id) s = .next s := by
  rw [exec_podRequestTimeout, execPodRequestTimeout]
  simp only [hr]
  split
  · exact if_pos (by simp only [Bool.or_eq_true, bne_iff_ne, decide_eq_true_eq]; tauto)
  · rfl

theorem podRequestTimeout_early (h : s.now + 1 < r.sent + 24000000) : exec (.podRequestTimeout id) s = .next s := by
  rw [exec_podRequestTimeout, execPodRequestTimeout]
  simp only [hr]
  split
  · exact if_pos (by rw [show podTimeout = 24000000 from rfl, decide_eq_true h, Bool.or_true])
  · rfl

section
variable {pkg va : Nat} (hc : r.cls = .pod pkg va) (hsent : r.sent ≠ 0) (hstage : r.stage = .travel) (hdue : r.sent + 24000000 ≤ s.now + 1)
include hc hsent hstage hdue

theorem podRequestTimeout_engine (hwls : ∀ e ∈ s.pkg.wls, pkg ∉ e.2.pkgs) (hopen : s.pkg.openings = []) (hid : r.id = id) (hlane : 100 ≤ r.lane) :
    ∃ t, exec (.podRequestTimeout id) s = .next t ∧ t = { s with net := t.net, homes := t.homes, tiles := t.tiles } ∧
      t.req? id = some { r with sent := 0, stage := .done, res := .fail 3 4 } := by
  rw [exec_podRequestTimeout, execPodRequestTimeout]
  simp only [hr, hc]
  rw [if_neg (by simp [hsent, hstage, show podTimeout = 24000000 from rfl]; omega), if_pos hlane]
  have hlost := onlyLost_losePackage hwls hopen
  generalize s.losePackage pkg = t at hlost ⊢
  refine ⟨_, rfl, hlost.trans (u := t.setReq _) rfl, ?_⟩
  rw [← hid]
  exact State.req?_setReq_same ..

theorem podRequestTimeout_load (hlane : r.lane < 100) (hkind : r.kind = .load) :
    exec (.podRequestTimeout id) s = .next ((s.losePackage pkg).within r.slot fun s =>
      if s.mine { r with sent := 0 } then s.elementDone { r with sent := 0 } (.fail 3 4) else s.delReq id) := by
  rw [exec_podRequestTimeout, execPodRequestTimeout]
  simp only [hr, hc]
  rw [if_neg (by simp [hsent, hstage, show podTimeout = 24000000 from rfl]; omega), if_neg (by omega), if_neg (by simp [hkind, ReqKind.isUpdate]),
    if_neg (by simp [hkind])]

end
end

/-! ### The last element of an operation fails (R74) -/

theorem State.within_self {s : State} {id : Nat} {f : State → State} (hid : id = s.curId) (hf : (f s).curId = s.curId) : s.within id f = f s := by
  unfold State.within State.focus
  rw [if_pos hid, if_pos hf.symm]

theorem State.dropWatch_only (s : State) (o : LongOp) : OnlyMessages s (s.dropWatch o) := by
  unfold State.dropWatch
  split
  · exact State.sendRelease_only ..
  · exact State.sendRelease_only ..
  · exact .refl s

theorem Slot.specMode_none {x : Slot} (h : x.spec.mode = .none) : x.specMode = .none := by
  unfold Slot.specMode
  rw [h, ite_self]

theorem Slot.inTx_none {x : Slot} (h : x.spec.mode = .none) : x.inTx = false := by
  unfold Slot.inTx
  rw [Slot.specMode_none h]
  rfl

section
variable {s : State} {r : Req} {o : LongOp} {c k : Nat} (hop : s.cur.ops.find? (fun p => p.id == r.op) = some o) (hleft : o.left = 1)
  (hok : o.fail = none) (hclean : s.cur.fails = []) (ht : TrapsToS s.cur o c k)
include hop hleft hok hclean ht

/-- The slot as its trap is taken. -/
theorem elementDone_fails : ∃ u, OnlyMessages s u ∧ s.elementDone r (.fail c k) =
    State.takeTrap (u.updCur fun x => { x with inwin := true, ops := [], fails := [(o.pc, o.word, ⟨r.lane, c, k, r.ptr⟩)] }) c k r.ptr o.pc := by
  obtain ⟨honly, hmode⟩ := ht
  have hu : OnlyMessages s ((s.delReq r.id).dropWatch { o with left := 0, fail := some ⟨r.lane, c, k, r.ptr⟩ }) :=
    OnlyMessages.trans (t := s.delReq r.id) rfl (State.dropWatch_only ..)
  refine ⟨_, hu, ?_⟩
  have hop' : (s.delReq r.id).cur.ops.find? (fun p => p.id == r.op) = some o := hop
  unfold State.elementDone
  simp only [hop', hok, hleft, Nat.sub_self, ne_eq, not_true_eq_false, if_false]
  generalize (s.delReq r.id).dropWatch _ = u at hu ⊢
  have hcur : u.cur = s.cur := by rw [hu]
  unfold State.failOp
  rw [if_neg (by rw [hcur, Slot.inTx_none hmode]; simp)]
  have hx : (u.updCur fun x => { x with
      inwin := if x.fails.isEmpty then true else x.inwin
      ops := x.ops.filter fun p => p.id != o.id
      fails := x.fails ++ [(o.pc, o.word, ⟨r.lane, c, k, r.ptr⟩)] }) =
      u.updCur fun x => { x with inwin := true, ops := [], fails := [(o.pc, o.word, ⟨r.lane, c, k, r.ptr⟩)] } := by
    unfold State.updCur
    dsimp only
    rw [hcur, hclean, honly]
    simp
  rw [hx]
  refine (State.trapIfSettled_one (Slot.specMode_none ?_) rfl).trans (if_pos rfl)
  show u.cur.spec.mode = .none
  rw [hcur, hmode]

theorem trappedLate_elementDone :
    let t := s.elementDone r (.fail c k)
    TrappedLate s.cur t.cur o.pc c k r.ptr ∧ (t.mem = s.mem ∧ t.attrs = s.attrs) ∧ t.curId = s.curId := by
  obtain ⟨u, hu, hdone⟩ := elementDone_fails hop hleft hok hclean ht
  dsimp only
  have hcur : u.cur = s.cur := by rw [hu]
  have hm : u.mem = s.mem := by rw [hu]
  have ha : u.attrs = s.attrs := by rw [hu]
  have hi : u.curId = s.curId := by rw [hu]
  rw [hdone, State.takeTrap_toS (by simpa [ToM, State.updCur, hcur] using ht.goes) (by simpa [State.updCur, hcur] using ht.vec), State.clearRsv_rest]
  refine ⟨?_, ⟨hm, ha⟩, hi⟩
  constructor <;> dsimp only [State.updCur] <;> rw [hcur]
  rw [causeWord_eq, causeBits]
  have hcause := ht.causeFits
  have hcode := ht.codeFits
  simp only [BitVec.toNat_ofNat, if_true]
  omega

end

/-- A load whose last line was asked of a package that has left traps in its slot. -/
theorem podRequestTimeout_trap {s : State} {id : Nat} {r : Req} {o : LongOp} {pkg va : Nat} (hr : s.req? id = some r) (hc : r.cls = .pod pkg va)
    (hsent : r.sent ≠ 0) (hstage : r.stage = .travel) (hdue : r.sent + 24000000 ≤ s.now + 1) (hwls : ∀ e ∈ s.pkg.wls, pkg ∉ e.2.pkgs)
    (hopen : s.pkg.openings = []) (hlane : r.lane < 100) (hkind : r.kind = .load) (hslot : r.slot = s.curId) (hctx : r.ctx = s.cur.mc.ctxser)
    (hop : s.cur.ops.find? (fun p => p.id == r.op) = some o) (hleft : o.left = 1) (hok : o.fail = none) (hclean : s.cur.fails = [])
    (ht : TrapsToS s.cur o 3 4) :
    ∃ t, exec (.podRequestTimeout id) s = .next t ∧ (t.mem = s.mem ∧ t.attrs = s.attrs) ∧ TrappedLate s.cur t.cur o.pc 3 4 r.ptr := by
  rw [podRequestTimeout_load hr hc hsent hstage hdue hlane hkind]
  have hlost := onlyLost_losePackage hwls hopen
  generalize s.losePackage pkg = u at hlost ⊢
  have hcur : u.cur = s.cur := by rw [hlost]
  have hid : u.curId = s.curId := by rw [hlost]
  have hmem : u.mem = s.mem := by rw [hlost]
  have hattrs : u.attrs = s.attrs := by rw [hlost]
  obtain ⟨htrap, hsame, hdone⟩ := trappedLate_elementDone (s := u) (r := { r with sent := 0 }) (hcur ▸ hop) hleft hok (hcur ▸ hclean) (hcur ▸ ht)
  have hmine : u.mine { r with sent := 0 } = true := by
    unfold State.mine
    rw [hcur, hid]
    simp [hslot, hctx]
  refine ⟨_, congrArg _ ((State.within_self (hslot.trans hid.symm) ?_).trans (if_pos hmine)), ⟨hsame.1.trans hmem, hsame.2.trans hattrs⟩, hcur ▸ htrap⟩
  rw [hmine]
  exact hdone

/-- Settles O46, by the reply cache's verdicts for requests, by the frame of a lost package for time-outs, and by the host side's for the rest. -/
theorem portEvents : Obligations.PortEvents := by
  intro s
  dsimp only
  refine ⟨podRequests s, fun id r hr hid => ?_, fun port pa b _ => ?_, fun port src msg r hr => ?_, fun n r hr _ => ?_, fun id m hm => ?_,
    fun id hm => acknowledges_nothing hm⟩
  · refine ⟨busyResend_resends hr hid, fun h => ⟨busyResend_idle hr h, podRequestTimeout_idle hr h⟩, podRequestTimeout_early hr, ?_⟩
    intro pkg va hc hsent hstage hdue hwls hopen
    refine ⟨fun hlane => podRequestTimeout_engine hr hc hsent hstage hdue hwls hopen hid hlane, ?_⟩
    intro o hlane hkind hslot hctx hop hleft hok hclean ht
    exact podRequestTimeout_trap hr hc hsent hstage hdue hwls hopen hlane hkind hslot hctx hop hleft hok hclean ht
  · refine ⟨rma_unready, fun hready h => ?_, fun hready hreg ha hpa hb hm hfree => rma_performed hready hreg ha hpa hb hm hfree⟩
    exact ⟨_, rma_dropped hready h, rfl, rfl, State.portStat_countPort ..⟩
  · refine ⟨fun h => ?_, fun ho hsrc h4 h64 hready => kicks hr ho hsrc h4 h64 hready⟩
    exact ⟨_, kick_dropped hr h, ⟨⟨rfl, rfl⟩, rfl, State.portStat_countPort ..⟩, rfl, rfl⟩
  · refine ⟨fun c w e hp he hc => rereads_parked hr hp he hc, fun hp h => rereads_nothing hr hp h,
      fun hp ho htail hdone hbusy => rereads_later hr hp ho htail hdone hbusy, ?_⟩
    exact fun hp ho htail hdone hexec hfirst => rereads_record hr hp ho htail hdone hexec hfirst
  · refine ⟨fun asid c hw hc => acknowledges_record hm hw hc, fun c r hw hr hlast => acknowledges_lastCopy hm hw hr hlast,
      fun c hw hmore => acknowledges_copy hm hw hmore, fun hw => acknowledges_other hm hw⟩

end Sys2Proof.Machine
end


section
/-! PROOF. Package barriers, their arrivals and their completions (R222 to R224, R334 to R336). -/

namespace Sys2Proof.Machine

/-! ### Instances of package barriers (R224) -/

/-- A completion is on its way to every tile of the barrier's address space. -/
def Told (s t : State) (k : BarKey) (ph : Bool) : Prop := ∀ e ∈ s.tiles, (∃ w ∈ e.2.windows, w.asid = k.asid) →
  ⟨s.now + hopDie e.1 (s.barDie k), .barrierCompletion e.1 (.pkg k) ph⟩ ∈ t.net.pend

/-- What the change of a record of arrivals may change. -/
def OnlyDies (s t : State) : Prop := t = { s with dies := t.dies, net := { s.net with pend := t.net.pend } }

theorem OnlyDies.refl (s : State) : OnlyDies s s := rfl

theorem OnlyDies.trans {s t u : State} (h : OnlyDies s t) (h' : OnlyDies t u) : OnlyDies s u := by
  unfold OnlyDies at *
  rw [h', h]

theorem OnlyDies.after (s : State) (n : Nat) (e : Event) : OnlyDies s (s.after n e) := rfl
theorem OnlyDies.setBar (s : State) (k : BarKey) (b : Option BarInst) : OnlyDies s (s.setBar k b) := rfl

theorem OnlyDies.now {s t : State} (h : OnlyDies s t) : t.now = s.now := by
  rw [h]
  rfl

theorem OnlyDies.barDie {s t : State} (h : OnlyDies s t) (k : BarKey) : t.barDie k = s.barDie k := by
  rw [h]
  rfl

theorem barInst_setBar (s : State) (k : BarKey) (b : Option BarInst) (hk : ∀ c ∈ b, c.key = k) : (s.setBar k b).barInst k = b := by
  have hdie : (s.setBar k b).die (s.barDie k) = { s.die (s.barDie k) with bars := (s.die (s.barDie k)).bars.filter (fun o => o.key != k) ++ b.toList } :=
    Map.getD_set_same ..
  have hgone : ((s.die (s.barDie k)).bars.filter fun o => o.key != k).find? (fun o => o.key == k) = none := by
    simp only [List.find?_eq_none, List.mem_filter]
    rintro o ⟨-, ho⟩
    simpa using ho
  unfold State.barInst
  rw [(OnlyDies.setBar s k b).barDie, hdie, List.find?_append, hgone, Option.none_or]
  cases b with
  | none => rfl
  | some c => simp [hk c rfl]

/-- Completions sent to several tiles. -/
structure ToldAll (s t : State) (l : List (Nat × Tile)) (k : BarKey) (ph : Bool) : Prop where
  only : OnlyDies s t
  dies : t.dies = s.dies
  pend : s.net.pend ⊆ t.net.pend
  told : ∀ e ∈ l, ⟨s.now + hopDie e.1 (s.barDie k), .barrierCompletion e.1 (.pkg k) ph⟩ ∈ t.net.pend

theorem toldAll_foldl (l : List (Nat × Tile)) (k : BarKey) (ph : Bool) (s : State) :
    ToldAll s (l.foldl (fun s e => s.after (hopDie e.1 (s.barDie k)) (.barrierCompletion e.1 (.pkg k) ph)) s) l k ph := by
  induction l generalizing s with
  | nil => exact ⟨.refl s, rfl, List.Subset.refl _, by simp⟩
  | cons a l ih =>
    have hafter := OnlyDies.after s (hopDie a.1 (s.barDie k)) (.barrierCompletion a.1 (.pkg k) ph)
    obtain ⟨honly, hdies, hpend, htold⟩ := ih (s.after (hopDie a.1 (s.barDie k)) (.barrierCompletion a.1 (.pkg k) ph))
    rw [hafter.now, hafter.barDie] at htold
    refine ⟨hafter.trans honly, hdies, List.Subset.trans (List.subset_append_left ..) hpend, fun b hb => ?_⟩
    obtain rfl | hb := List.mem_cons.1 hb
    · exact hpend (List.mem_append_right _ (List.mem_singleton.2 rfl))
    · exact htold b hb

theorem toldAll_sendCompletion (s : State) (k : BarKey) (ph : Bool) :
    ToldAll s (s.sendCompletion k ph) (s.tiles.filter fun e => e.2.windows.any fun w => w.asid == k.asid) k ph := toldAll_foldl ..

theorem sendCompletion_barInst (s : State) (k j : BarKey) (ph : Bool) : (s.sendCompletion k ph).barInst j = s.barInst j := by
  have h := toldAll_sendCompletion s k ph
  unfold State.barInst State.die
  rw [h.only.barDie, h.dies]

theorem told_sendCompletion (s : State) (k : BarKey) (ph : Bool) : Told s (s.sendCompletion k ph) k ph := by
  rintro e he ⟨w, hw, hasid⟩
  exact (toldAll_sendCompletion s k ph).told e (List.mem_filter.2 ⟨he, List.any_eq_true.2 ⟨w, hw, beq_iff_eq.2 hasid⟩⟩)

/-- What becomes of a record of arrivals whose count or expectation changed (R224). -/
structure SettledBar (s t : State) (k : BarKey) (i : BarInst) : Prop where
  only : OnlyDies s t
  pend : s.net.pend ⊆ t.net.pend
  counts : i.count < i.expect → t.barInst k = some i
  completes : i.expect ≤ i.count → t.barInst k = some { i with count := 0, phase := !i.phase } ∧ Told s t k i.phase

theorem settledBar_settleBar (s : State) (i : BarInst) : SettledBar s (s.settleBar i) i.key i := by
  unfold State.settleBar
  by_cases h : i.expect ≤ i.count
  · rw [if_pos h]
    have hset := OnlyDies.setBar s i.key (some { i with count := 0, phase := !i.phase })
    have hinst := barInst_setBar s i.key (some { i with count := 0, phase := !i.phase }) (by simp)
    have htold := told_sendCompletion (s.setBar i.key (some { i with count := 0, phase := !i.phase })) i.key i.phase
    have hall := toldAll_sendCompletion (s.setBar i.key (some { i with count := 0, phase := !i.phase })) i.key i.phase
    exact ⟨hset.trans hall.only, hall.pend, fun hlt => absurd hlt (by omega), fun _ => ⟨(sendCompletion_barInst ..).trans hinst, htold⟩⟩
  · rw [if_neg h]
    exact ⟨.setBar .., List.Subset.refl _, fun _ => barInst_setBar _ _ _ (by simp), fun hle => absurd hle h⟩

theorem key_of_barInst {s : State} {k : BarKey} {i : BarInst} (h : s.barInst k = some i) : i.key = k := by
  simpa using List.find?_some h

/-! ### Arrivals (R224) -/

theorem packageBarrierArrival_unknown {s : State} {slot : Nat} {ctx : W32} {k : BarKey} (h : s.barInst k = none) :
    exec (.packageBarrierArrival slot ctx k) s = .next (s.after (hopDie (tileOf slot) (s.barDie k)) (.barrierArrivalReply slot ctx k.id.toNat none)) := by
  rw [exec_packageBarrierArrival, execPackageBarrierArrival, h]

theorem packageBarrierArrival_counts {s : State} {slot : Nat} {ctx : W32} {k : BarKey} {i : BarInst} (h : s.barInst k = some i) :
    ∃ t, exec (.packageBarrierArrival slot ctx k) s = .next t ∧ (t.mem = s.mem ∧ t.attrs = s.attrs) ∧ t.cur = s.cur ∧
      ⟨s.now + hopDie (tileOf slot) (s.barDie k), .barrierArrivalReply slot ctx k.id.toNat (some i.phase)⟩ ∈ t.net.pend ∧
      (i.count + 1 < i.expect → t.barInst k = some { i with count := i.count + 1 }) ∧
      (i.expect ≤ i.count + 1 → t.barInst k = some { i with count := 0, phase := !i.phase } ∧ Told s t k i.phase) := by
  obtain rfl := key_of_barInst h
  rw [exec_packageBarrierArrival, execPackageBarrierArrival, h]
  have hs := settledBar_settleBar s { i with count := i.count + 1 }
  dsimp only at hs ⊢
  generalize s.settleBar { i with count := i.count + 1 } = u at hs ⊢
  have hafter := OnlyDies.after u (hopDie (tileOf slot) (s.barDie i.key)) (.barrierArrivalReply slot ctx i.key.id.toNat (some i.phase))
  have honly := hs.only.trans hafter
  have hnow := hs.only.now
  refine ⟨_, rfl, ?_, ?_, ?_, hs.counts, fun hle => ⟨(hs.completes hle).1, fun e he hw => List.mem_append_left _ ((hs.completes hle).2 e he hw)⟩⟩
  · rw [honly]
    exact ⟨rfl, rfl⟩
  · rw [honly]
  · rw [← hnow]
    exact List.mem_append_right _ (List.mem_singleton.2 rfl)

end Sys2Proof.Machine
end


section
/-! PROOF. The barrier instructions at package barriers (R224, R334 to R336). -/

namespace Sys2Proof.Machine

theorem charge_barKey (s : State) (id : BitVec 5) : s.charge.barKey s.charge.cur id = s.barKey s.cur id := by
  unfold State.barKey State.launch?
  rw [State.charge_pkg, State.charge_cur]

theorem charge_barDie (s : State) (k : BarKey) : s.charge.barDie k = s.barDie k := by
  unfold State.barDie State.readyDie State.isReady
  rw [State.charge_pkg]

theorem charge_barInst (s : State) (k : BarKey) : s.charge.barInst k = s.barInst k := by
  unfold State.barInst State.die
  rw [charge_barDie, State.charge_dies]

theorem charge_now_eq (s : State) : s.charge.now = s.now := by
  unfold State.now
  rw [State.charge_pkg]

/-- An entry of a map stands in the map after an entry is set, or what is set stands at its key. -/
theorem Map.mem_before_set {α : Type} (d a : α) {m : Map α} {k : Nat} {e : Nat × α} (he : e ∈ m) :
    ∃ e' ∈ m.set k a, e'.1 = e.1 ∧ (e'.2 = e.2 ∨ (e'.2 = a ∧ e.2 = m.getD d k)) := by
  induction m with
  | nil => cases he
  | cons c m ih =>
    obtain ⟨j, b⟩ := c
    unfold Map.set Map.getD
    split
    next => exact ⟨e, List.mem_cons_of_mem _ he, rfl, Or.inl rfl⟩
    next =>
      split
      next hj =>
        obtain rfl | he := List.mem_cons.1 he
        · exact ⟨_, List.mem_cons_self, hj.symm, Or.inr ⟨rfl, rfl⟩⟩
        · exact ⟨e, List.mem_cons_of_mem _ he, rfl, Or.inl rfl⟩
      next =>
        obtain rfl | he := List.mem_cons.1 he
        · exact ⟨_, List.mem_cons_self, rfl, Or.inl rfl⟩
        · obtain ⟨e', he', h⟩ := ih he
          exact ⟨e', List.mem_cons_of_mem _ he', h⟩

/-- The charge of an instruction leaves the windows of every tile. -/
theorem charge_windows {s : State} {e : Nat × Tile} (he : e ∈ s.tiles) : ∃ e' ∈ s.charge.tiles, e'.1 = e.1 ∧ e'.2.windows = e.2.windows := by
  unfold State.charge State.tally
  dsimp only
  split
  · obtain ⟨e', he', hkey, h⟩ := Map.mem_before_set Tile.reset _ he
    refine ⟨e', he', hkey, ?_⟩
    obtain h | ⟨h, h'⟩ := h
    · rw [h]
    · rw [h, h']
      rfl
  · exact ⟨e, he, rfl, rfl⟩

theorem Told.of_charge {s t : State} {k : BarKey} {ph : Bool} (h : Told s.charge t k ph) : Told s t k ph := by
  rintro e he ⟨w, hw, hasid⟩
  obtain ⟨e', he', hkey, hwin⟩ := charge_windows he
  have := h e' he' ⟨w, hwin ▸ hw, hasid⟩
  rw [charge_barDie, hkey] at this
  rw [← charge_now_eq]
  exact this

section
variable {s : State} {id : BitVec 5} (hid : 16 ≤ id.toNat)
include hid

/-! ### BARA, BARW, BARG -/

theorem bara_sends (hr : Released s .pkg) : Completes (.bara id) s fun t => Confined s t ∧ Waiting (.bara id) s.cur t.cur (.answer 0) ∧ t.tasks = s.tasks ∧
    Posts s t (hopDie s.myTile (s.barDie (s.barKey s.cur id))) (.packageBarrierArrival s.curId s.cur.mc.ctxser (s.barKey s.cur id)) := by
  intro hc
  obtain ⟨t, ht, ho, hw⟩ := waiting_of_hold (i := .bara id) (u := s.charge.after (hopDie s.myTile (s.barDie (s.barKey s.cur id)))
    (.packageBarrierArrival s.curId s.cur.mc.ctxser (s.barKey s.cur id))) (k := 0) (exec_bara id s) hc
    (by
      refine (if_neg (by omega)).trans ((awaitRelease_released _ hr).trans ?_)
      dsimp only
      rw [charge_barKey, charge_barDie, State.charge_myTile, State.charge_curId, State.charge_mc]) rfl
  refine ⟨t, ht, ((Confined.charge s).after ..).onlySlot ho, hw, ?_, ?_⟩
  · rw [ho.tasks]
    exact State.charge_tasks s
  · rw [Posts, ho.net]
    show s.charge.net.pend ++ [⟨s.charge.now + _, _⟩] = _
    rw [State.charge_net, charge_now_eq]

theorem charge_barName_pkg : s.charge.barName s.charge.cur id = .pkg (s.barKey s.cur id) := by
  unfold State.barName
  rw [if_neg (by omega), charge_barKey]

theorem charge_barDone_over {ph : Bool}
    (h : s.barInst (s.barKey s.cur id) = none ∨ ∃ k, s.barInst (s.barKey s.cur id) = some k ∧ k.phase ≠ ph) :
    s.charge.barDone (s.charge.barName s.charge.cur id) ph = true := by
  rw [charge_barName_pkg hid, State.barDone]
  rw [charge_barInst]
  obtain h | ⟨k, h, hph⟩ := h
  · rw [h]
  · rw [h]
    simpa using hph

theorem charge_barDone_open {ph : Bool} {k : BarInst} (h : s.barInst (s.barKey s.cur id) = some k) (hph : k.phase = ph) :
    s.charge.barDone (s.charge.barName s.charge.cur id) ph = false := by
  rw [charge_barName_pkg hid, State.barDone]
  rw [charge_barInst, h]
  simp [hph]

section
variable {ph : Bool} (ha : (s.task s.cur.u.tid).arrival id = some ph)
include ha

theorem barw_passes (h : s.barInst (s.barKey s.cur id) = none ∨ ∃ k, s.barInst (s.barKey s.cur id) = some k ∧ k.phase ≠ ph) :
    Completes (.barw id) s fun t => Passed s.cur t.cur ∧ Confined s t ∧ (t.task s.cur.u.tid).arrival id = none ∧ t.net = s.net := by
  refine barrier_done (exec_barw ..) ?_
  rw [charge_arrival, ha]
  exact if_pos (charge_barDone_over hid h)

theorem barg_passes (h : s.barInst (s.barKey s.cur id) = none ∨ ∃ k, s.barInst (s.barKey s.cur id) = some k ∧ k.phase ≠ ph) :
    Completes (.barg id) s fun t => Passed s.cur t.cur ∧ Confined s t ∧ (t.task s.cur.u.tid).arrival id = none ∧ t.net = s.net := by
  refine barrier_done (exec_barg ..) ?_
  rw [charge_arrival, ha]
  exact if_pos (charge_barDone_over hid h)

theorem barw_waits {k : BarInst} (h : s.barInst (s.barKey s.cur id) = some k) (hph : k.phase = ph) :
    Completes (.barw id) s fun t => OnlySlot s t ∧ t.cur.status = .blocked (.barrier id.toNat) ∧ t.cur.pc = s.cur.pc ∧
      t.cur.regs = s.cur.regs ∧ t.cur.u = { s.cur.u with retired := s.cur.u.retired + 1, turns := s.cur.u.turns + 1 } := by
  intro hc
  obtain ⟨t, ht, ho, hst, -, hpc, hregs, hu⟩ := barrier_blocks (exec_barw id s)
    (by
      rw [charge_arrival, ha]
      exact if_neg (by rw [charge_barDone_open hid h hph]; decide)) hc
  exact ⟨t, ht, ho, hst, hpc, hregs, hu⟩

end

/-! ### BARQ (R335) -/

/-- An instruction that asks a barrier home holds issue for the answer. -/
theorem barq_asks {d : RegNo} {v : W64} (hv : s.charge.barStatus id = v) : Completes (.barq d id) s fun t => Confined s t ∧
    Waiting (.barq d id) s.cur t.cur (.answer 0) ∧
    Posts s t (2 * hopDie s.myTile (s.barDie (s.barKey s.cur id))) (.controlReply s.curId s.cur.mc.ctxser v) := by
  intro hc
  obtain ⟨t, ht, ho, hw⟩ := waiting_of_hold (i := .barq d id) (u := s.charge.answerIn (2 * hopDie s.myTile (s.barDie (s.barKey s.cur id))) v) (k := 0)
    (exec_barq d id s) hc
    (by
      refine (if_neg (by omega)).trans ?_
      rw [charge_barKey, charge_barDie, State.charge_myTile, hv]) rfl
  refine ⟨t, ht, ((Confined.charge s).after ..).onlySlot ho, hw, ?_⟩
  rw [Posts, ho.net, answerIn_pend (Confined.charge s) rfl, s.charge_net]

theorem charge_barStatus_none (h : s.barInst (s.barKey s.cur id) = none) : s.charge.barStatus id = BitVec.ofNat 64 0 := by
  unfold State.barStatus
  rw [charge_barName_pkg hid]
  dsimp only
  rw [charge_barInst, h]
  rfl

theorem charge_barStatus_some {k : BarInst} (h : s.barInst (s.barKey s.cur id) = some k) : s.charge.barStatus id =
    BitVec.ofNat 64 (k.count + k.expect * 2 ^ 25 + (if k.phase then 2 ^ 50 else 0) + if ((s.task s.cur.u.tid).arrival id).isSome then 2 ^ 51 else 0) := by
  unfold State.barStatus
  rw [charge_barName_pkg hid, charge_arrival]
  dsimp only
  rw [charge_barInst, h]

/-! ### BARSET (R224, R336) -/

/-- BARSET's change of the instances is done as it issues, and its status is on its way back. -/
theorem barset_answers {b : RegNo} {code : Nat} {u : State} (hu : OnlyDies s.charge u)
    (hcfg : s.charge.configureBar ⟨s.cur.sc.asid, id, 0⟩ (s.cur.readG b).toNat = (code, u)) :
    Completes (.barset id b) s fun t => Waiting (.barset id b) s.cur t.cur (.answer 0) ∧ t.dies = u.dies ∧ (∀ k, t.barInst k = u.barInst k) ∧
      u.net.pend ⊆ t.net.pend ∧
      ⟨s.now + 2 * hopDie s.myTile (s.barDie ⟨s.cur.sc.asid, id, 0⟩), .controlReply s.curId s.cur.mc.ctxser (BitVec.ofNat 64 code)⟩ ∈ t.net.pend := by
  intro hc
  obtain ⟨t, ht, ho, hw⟩ := waiting_of_hold (i := .barset id b) (k := 0)
    (u := u.answerIn (2 * hopDie s.myTile (s.barDie ⟨s.cur.sc.asid, id, 0⟩)) (BitVec.ofNat 64 code))
    (exec_barset id b s) hc
    (by
      refine (if_neg (by omega)).trans ?_
      have hb : s.charge.cur.readG b = s.cur.readG b := State.charge_readG ..
      dsimp only
      rw [State.charge_sc, hb, hcfg, State.charge_myTile]
      dsimp only
      rw [charge_barDie]) (by show u.cur = _; rw [hu])
  have hdies : t.dies = u.dies := by rw [ho.rest]; rfl
  have hpend : t.net.pend = u.net.pend ++ [⟨s.now + 2 * hopDie s.myTile (s.barDie ⟨s.cur.sc.asid, id, 0⟩),
      .controlReply s.curId s.cur.mc.ctxser (BitVec.ofNat 64 code)⟩] := by
    rw [ho.net]
    show u.net.pend ++ [⟨u.now + _, .controlReply u.curId u.cur.mc.ctxser _⟩] = _
    have hid' : u.curId = s.charge.curId := by rw [hu]
    have hcur : u.cur = s.charge.cur := by rw [hu]
    rw [hu.now, charge_now_eq, hid', hcur, State.charge_curId, State.charge_mc]
  refine ⟨t, ht, hw, hdies, fun k => ?_, ?_, ?_⟩
  · have hpkg : t.pkg = u.pkg := by rw [ho.rest]; rfl
    unfold State.barInst State.barDie State.readyDie State.isReady State.die
    rw [hdies, hpkg]
  · rw [hpend]
    exact List.subset_append_left ..
  · rw [hpend]
    exact List.mem_append_right _ (List.mem_singleton.2 rfl)

/-- What is on its way back to a BARSET. -/
def BarsetBack (s t : State) (id : BitVec 5) (v : Nat) : Prop :=
  ⟨s.now + 2 * hopDie s.myTile (s.barDie ⟨s.cur.sc.asid, id, 0⟩), .controlReply s.curId s.cur.mc.ctxser (BitVec.ofNat 64 v)⟩ ∈ t.net.pend

section
variable {b : RegNo}

theorem barset_tooMany (hv : 2 ^ 24 < (s.cur.readG b).toNat) : Completes (.barset id b) s fun t =>
    Waiting (.barset id b) s.cur t.cur (.answer 0) ∧ t.dies = s.dies ∧ BarsetBack s t id 2 := by
  intro hc
  obtain ⟨t, ht, hw, hdies, -, -, hback⟩ := barset_answers hid (b := b) (OnlyDies.refl _) (if_pos hv) hc
  exact ⟨t, ht, hw, hdies.trans s.charge_dies, hback⟩

variable (hv : (s.cur.readG b).toNat ≤ 2 ^ 24)
include hv

theorem barset_creates (hv0 : (s.cur.readG b).toNat ≠ 0) (hi : s.barInst ⟨s.cur.sc.asid, id, 0⟩ = none)
    (hroom : (s.die (s.barDie ⟨s.cur.sc.asid, id, 0⟩)).bars.length < 1024) : Completes (.barset id b) s fun t =>
    Waiting (.barset id b) s.cur t.cur (.answer 0) ∧
    t.barInst ⟨s.cur.sc.asid, id, 0⟩ = some ⟨⟨s.cur.sc.asid, id, 0⟩, (s.cur.readG b).toNat, 0, false⟩ ∧ BarsetBack s t id 0 := by
  intro hc
  obtain ⟨t, ht, hw, -, hinst, -, hback⟩ := barset_answers hid (b := b) (code := 0)
    (OnlyDies.setBar s.charge ⟨s.cur.sc.asid, id, 0⟩ (some ⟨⟨s.cur.sc.asid, id, 0⟩, (s.cur.readG b).toNat, 0, false⟩))
    (by
      unfold State.configureBar State.die
      rw [if_neg (by omega), charge_barInst, hi, charge_barDie, State.charge_dies]
      exact (if_neg hv0).trans (if_neg (by exact Nat.not_le.2 hroom))) hc
  exact ⟨t, ht, hw, (hinst _).trans (barInst_setBar _ _ _ (by simp)), hback⟩

theorem barset_changes (hv0 : (s.cur.readG b).toNat ≠ 0) {k : BarInst} (hi : s.barInst ⟨s.cur.sc.asid, id, 0⟩ = some k) :
    Completes (.barset id b) s fun t => Waiting (.barset id b) s.cur t.cur (.answer 0) ∧ BarsetBack s t id 0 ∧
      (k.count < (s.cur.readG b).toNat → t.barInst ⟨s.cur.sc.asid, id, 0⟩ = some { k with expect := (s.cur.readG b).toNat }) ∧
      ((s.cur.readG b).toNat ≤ k.count →
        t.barInst ⟨s.cur.sc.asid, id, 0⟩ = some { k with expect := (s.cur.readG b).toNat, count := 0, phase := !k.phase } ∧
        Told s t ⟨s.cur.sc.asid, id, 0⟩ k.phase) := by
  intro hc
  obtain ⟨key, e, n, ph⟩ := k
  obtain rfl : key = ⟨s.cur.sc.asid, id, 0⟩ := key_of_barInst hi
  have hs := settledBar_settleBar s.charge ⟨⟨s.cur.sc.asid, id, 0⟩, (s.cur.readG b).toNat, n, ph⟩
  obtain ⟨t, ht, hw, -, hinst, hpend, hback⟩ := barset_answers hid (b := b) (code := 0) hs.only
    (by
      unfold State.configureBar
      rw [if_neg (by omega), charge_barInst, hi]
      exact if_neg hv0) hc
  refine ⟨t, ht, hw, hback, fun hlt => (hinst _).trans (hs.counts hlt), fun hle => ⟨(hinst _).trans (hs.completes hle).1, ?_⟩⟩
  exact Told.of_charge fun e he hw => hpend ((hs.completes hle).2 e he hw)

omit hv in
theorem barset_removes (hv0 : (s.cur.readG b).toNat = 0) {k : BarInst} (hi : s.barInst ⟨s.cur.sc.asid, id, 0⟩ = some k) :
    Completes (.barset id b) s fun t => Waiting (.barset id b) s.cur t.cur (.answer 0) ∧ BarsetBack s t id 0 ∧
      t.barInst ⟨s.cur.sc.asid, id, 0⟩ = none ∧ Told s t ⟨s.cur.sc.asid, id, 0⟩ k.phase := by
  intro hc
  have htold := told_sendCompletion (s.charge.setBar ⟨s.cur.sc.asid, id, 0⟩ none) ⟨s.cur.sc.asid, id, 0⟩ k.phase
  obtain ⟨t, ht, hw, -, hinst, hpend, hback⟩ := barset_answers hid (b := b) (code := 0)
    ((OnlyDies.setBar s.charge ⟨s.cur.sc.asid, id, 0⟩ none).trans (toldAll_sendCompletion _ ⟨s.cur.sc.asid, id, 0⟩ k.phase).only)
    (by
      unfold State.configureBar
      rw [if_neg (by omega), charge_barInst, hi]
      exact if_pos hv0) hc
  refine ⟨t, ht, hw, hback, ?_, ?_⟩
  · rw [hinst, sendCompletion_barInst]
    exact barInst_setBar _ _ _ (by simp)
  · exact Told.of_charge fun e he hw => hpend (htold e he hw)

end

end

end Sys2Proof.Machine
end


section
/-! PROOF. Completions of barriers at a tile (R146, R222, R224, R297). -/

namespace Sys2Proof.Machine

theorem foldl_idle {α β : Type} {f : β → α → β} {b : β} {l : List α} (h : ∀ a ∈ l, f b a = b) : l.foldl f b = b := by
  induction l with
  | nil => rfl
  | cons a l ih =>
    rw [List.foldl_cons, h a List.mem_cons_self]
    exact ih fun c hc => h c (List.mem_cons_of_mem _ hc)

/-- What every step of a fold keeps. -/
theorem foldl_holds {α β : Type} {P : β → Prop} {f : β → α → β} {l : List α} {b : β} (hb : P b) (h : ∀ c, ∀ a ∈ l, P c → P (f c a)) : P (l.foldl f b) := by
  induction l generalizing b with
  | nil => exact hb
  | cons a l ih => exact ih (h b a List.mem_cons_self hb) fun c x hx => h c x (List.mem_cons_of_mem _ hx)

/-- A fold in which one element alone acts. -/
theorem foldl_single {α β : Type} {f : β → α → β} {b c : β} {l : List α} {a : α} (hnd : l.Nodup) (ha : a ∈ l)
    (hb : ∀ x ∈ l, x ≠ a → f b x = b) (hact : f b a = c) (hc : ∀ x ∈ l, x ≠ a → f c x = c) : l.foldl f b = c := by
  obtain ⟨l1, l2, rfl⟩ := List.append_of_mem ha
  have hne (x : α) (hx : x ∈ l1 ∨ x ∈ l2) : x ≠ a := by
    rintro rfl
    rw [List.nodup_append] at hnd
    obtain ⟨-, hnd2, hdisj⟩ := hnd
    obtain hx | hx := hx
    · exact hdisj x hx x List.mem_cons_self rfl
    · exact (List.nodup_cons.1 hnd2).1 hx
  rw [List.foldl_append, foldl_idle fun x hx => hb x (List.mem_append_left _ hx) (hne x (Or.inl hx)), List.foldl_cons, hact]
  exact foldl_idle fun x hx => hc x (List.mem_append_right _ (List.mem_cons_of_mem _ hx)) (hne x (Or.inr hx))

/-- The state once the Saved tasks that wait at the barrier are ready. -/
structure Prepared (s u : State) : Prop where
  rest : u = { s with tiles := u.tiles, tasks := u.tasks, net := { s.net with moving := u.net.moving } }
  task : u.task s.cur.u.tid = s.task s.cur.u.tid

/-- The slots that are not in focus stay. -/
structure KeepsSlots (u v : State) : Prop where
  curId : v.curId = u.curId
  slots : v.slots = u.slots
  pkg : v.pkg = u.pkg

theorem KeepsSlots.slot {u v : State} (h : KeepsSlots u v) {k : Nat} (hk : k ≠ u.curId) : v.slot k = u.slot k := by
  unfold State.slot State.freshSlot
  rw [h.curId, h.slots, h.pkg, if_neg hk, if_neg hk]

theorem Prepared.keeps {s u : State} (h : Prepared s u) : KeepsSlots s u := by
  rw [h.rest]
  exact ⟨rfl, rfl, rfl⟩

/-- The slots of the tile in focus. -/
def State.tileSlots (s : State) : List Nat := (List.range 64).map fun k => s.myTile * 64 + k

theorem curId_mem_tileSlots (s : State) : s.curId ∈ s.tileSlots :=
  List.mem_map.2 ⟨s.curId % 64, List.mem_range.2 (Nat.mod_lt _ (by decide)), by unfold State.myTile tileOf; omega⟩

theorem tileSlots_nodup (s : State) : s.tileSlots.Nodup :=
  List.Nodup.map (fun a b (h : s.myTile * 64 + a = s.myTile * 64 + b) => by omega) List.nodup_range

/-- Whether a frame in a slot of the tile holds its glide up. -/
def heldUp (s v : State) (name : BarName) (ph : Bool) : Bool := s.tileSlots.any fun k => (v.slot k).frame.isSome && (v.slot k).glidesAt name ph

theorem Prepared.cur {s u : State} (hu : Prepared s u) : u.cur = s.cur := by rw [hu.rest]

theorem Prepared.barName {s u : State} (hu : Prepared s u) (id : BitVec 5) : u.barName u.cur id = s.barName s.cur id := by
  rw [hu.rest]
  rfl

theorem Prepared.writeSet {s u : State} (hu : Prepared s u) : u.writeSet = s.writeSet := by
  rw [hu.rest]
  rfl

theorem Prepared.quiet {s u : State} (hu : Prepared s u) : u.mem = s.mem ∧ u.attrs = s.attrs := by
  rw [hu.rest]
  exact ⟨rfl, rfl⟩

theorem Prepared.curId {s u : State} (hu : Prepared s u) : u.curId = s.curId := hu.keeps.curId

/-- The state at the tile after what the completion did there, with the completion put off where a frame holds a glide up. -/
theorem reached {u : State} {e : Event} (b : Bool) : ∃ t, (Host.Outcome.next (if b then u.afterOnce 1 e else u) : Host.Outcome State Fault Refusal) = .next t ∧
    t = { u with net := t.net } ∧ (b = true → ∃ p ∈ t.net.pend, p.ev = e) := by
  cases b
  · exact ⟨u, rfl, rfl, fun h => by cases h⟩
  · exact ⟨_, rfl, u.afterOnce_rest .., fun _ => u.afterOnce_listed ..⟩

/-! ### What a completion does in the slot in focus (R146, R297) -/

section
variable {s u : State} (hu : Prepared s u) {name : BarName} {ph : Bool}
include hu

theorem waitsAt_blocked {id : BitVec 5} (hname : s.barName s.cur id = name) (ha : (s.task s.cur.u.tid).arrival id = some ph)
    (hb : s.cur.status = .blocked (.barrier id.toNat)) : u.waitsAt u.cur name ph = true := by
  have hn : u.barName s.cur id = name := by rw [← hname, ← hu.barName, hu.cur]
  unfold State.waitsAt
  rw [show u.cur.status = .blocked (.barrier id.toNat) by rw [hu.cur, hb]]
  simp only [BitVec.ofNat_toNat, BitVec.setWidth_eq, hn, BEq.rfl, Bool.true_and, hu.cur, hu.task, ha]

theorem waitsAt_ready (hr : s.cur.status = .ready) : u.waitsAt u.cur name ph = false := by
  unfold State.waitsAt
  rw [show u.cur.status = .ready by rw [hu.cur, hr]]

theorem completeHere_blocked {id : BitVec 5} (hname : s.barName s.cur id = name) (ha : (s.task s.cur.u.tid).arrival id = some ph)
    (hb : s.cur.status = .blocked (.barrier id.toNat)) :
    u.completeHere name ph = (u.updTask s.cur.u.tid fun t => t.arrive id none).updCur Slot.passBarrier := by
  unfold State.completeHere
  rw [if_pos (waitsAt_blocked hu hname ha hb), show u.cur.status = .blocked (.barrier id.toNat) by rw [hu.cur, hb], State.myTid, hu.cur]
  simp only [BitVec.ofNat_toNat, BitVec.setWidth_eq]

theorem completeHere_noGlide (hr : s.cur.status = .ready) (hb : s.cur.spec.barrier = none) : u.completeHere name ph = u := by
  unfold State.completeHere
  rw [if_neg (by rw [waitsAt_ready hu hr]; decide), show u.cur.spec.barrier = none by rw [hu.cur, hb]]

section
variable {id : BitVec 5} (hr : s.cur.status = .ready) (hmode : s.cur.spec.mode = .glide) (hcommit : s.cur.spec.commit = .none)
  (hb : s.cur.spec.barrier = some (id.toNat, name, ph))
include hmode hcommit hb

omit hu in
theorem glidesAt_barrier : s.cur.glidesAt name ph = true := by
  unfold Slot.glidesAt
  simp [hmode, hcommit, hb]

include hr

omit hmode hcommit in
theorem completeHere_framed (hf : s.cur.frame ≠ none) : u.completeHere name ph = u := by
  unfold State.completeHere
  rw [if_neg (by rw [waitsAt_ready hu hr]; decide), show u.cur.spec.barrier = some (id.toNat, name, ph) by rw [hu.cur, hb]]
  exact if_neg (by rw [hu.cur]; simp [hf])

theorem completeHere_commits (hf : s.cur.frame = none) :
    u.completeHere name ph = (u.updTask s.cur.u.tid fun t => t.arrive id none).startCommit := by
  unfold State.completeHere
  rw [if_neg (by rw [waitsAt_ready hu hr]; decide), show u.cur.spec.barrier = some (id.toNat, name, ph) by rw [hu.cur, hb]]
  refine (if_pos (by rw [hu.cur, glidesAt_barrier hmode hcommit hb, hf]; rfl)).trans ?_
  rw [State.myTid, hu.cur]
  simp only [BitVec.ofNat_toNat, BitVec.setWidth_eq]

end
end

/-- A commit with lines to hold holds the first. -/
theorem State.startCommit_holds {s : State} (h : s.writeSet ≠ []) : ∃ delay e, s.startCommit =
    (s.updCur fun x => { x with spec := { x.spec with commit := .holding, toHold := s.writeSet } }).after delay e := by
  unfold State.startCommit
  obtain ⟨k, ks, hw⟩ := List.exists_cons_of_ne_nil h
  rw [hw]
  exact ⟨_, _, rfl⟩

theorem Task.arrival_arrive (t : Task) (id : BitVec 5) (a : Option Bool) : (t.arrive id a).arrival id = a :=
  (vget_set _ _ _ _ _ (by omega)).trans (if_pos rfl)

theorem arrival_updTask (s : State) (tid : W64) (id : BitVec 5) (a : Option Bool) : ((s.updTask tid fun t => t.arrive id a).task tid).arrival id = a := by
  rw [State.task_updTask, if_pos rfl]
  exact Task.arrival_arrive ..

/-! ### BARRIER_COMPLETION -/

section
variable {s : State} {name : BarName} {ph : Bool}
  (hfree : ∀ k, k < 64 → s.myTile * 64 + k ≠ s.curId → (s.slot (s.myTile * 64 + k)).status = .free)
  (hrecs : ∀ e ∈ (s.tile s.myTile).recs, e.2.tid ≠ s.cur.u.tid) (hst : s.cur.status ≠ .free)
include hfree hrecs hst

/-- The completion reaches the slot in focus alone. -/
theorem barrierCompletion_reaches (hkeep : ∀ u, Prepared s u → KeepsSlots u (u.completeHere name ph)) : ∃ u, Prepared s u ∧
    exec (.barrierCompletion s.myTile name ph) s =
      .next (if heldUp s (u.completeHere name ph) name ph then (u.completeHere name ph).afterOnce 1 (.barrierCompletion s.myTile name ph)
        else u.completeHere name ph) := by
  rw [exec_barrierCompletion]
  unfold execBarrierCompletion
  extract_lets waits done s1 s2 slots s3 framed
  have hu : Prepared s s2 := by
    refine foldl_holds (P := Prepared s) ⟨rfl, rfl⟩ fun u r hr hu => ?_
    have hne : r.tid ≠ s.cur.u.tid := by
      obtain ⟨e, he, rfl⟩ := List.mem_map.1 (List.mem_filter.1 hr).1
      exact hrecs e he
    split
    · refine ⟨?_, ?_⟩
      · unfold State.updTask
        rw [hu.rest]
      · rw [State.task_updTask, if_neg hne.symm, hu.task]
    · exact hu
  have hk := hkeep s2 hu
  have hid : s2.curId = s.curId := hu.keeps.curId
  have hcur : s2.cur = s.cur := by rw [hu.rest]
  have hfree' (k : Nat) (hk : k ∈ s.tileSlots) (hne : k ≠ s.curId) : (s.slot k).status = .free := by
    obtain ⟨j, hj, rfl⟩ := List.mem_map.1 hk
    exact hfree j (List.mem_range.1 hj) hne
  have hs3 : s3 = s2.completeHere name ph := by
    refine foldl_single (tileSlots_nodup s) (curId_mem_tileSlots s) (fun k hmem hne => ?_) ?_ fun k hmem hne => ?_
    · rw [hu.keeps.slot hne, hfree' k hmem hne]
      rfl
    · have hself : s2.slot s.curId = s.cur := by rw [State.slot, if_pos hid.symm, hcur]
      rw [hself, if_neg (by simpa using hst)]
      exact State.within_self hid.symm hk.curId
    · rw [hk.slot (by rwa [hid]), hu.keeps.slot hne, hfree' k hmem hne]
      rfl
  exact ⟨s2, hu, by rw [← hs3]; rfl⟩

end

section
variable {s : State} {name : BarName} {ph : Bool} {id : BitVec 5}
  (hfree : ∀ k, k < 64 → s.myTile * 64 + k ≠ s.curId → (s.slot (s.myTile * 64 + k)).status = .free)
  (hrecs : ∀ e ∈ (s.tile s.myTile).recs, e.2.tid ≠ s.cur.u.tid)
include hfree hrecs

theorem completion_wakes (hname : s.barName s.cur id = name) (ha : (s.task s.cur.u.tid).arrival id = some ph)
    (hb : s.cur.status = .blocked (.barrier id.toNat)) :
    ∃ t, exec (.barrierCompletion s.myTile name ph) s = .next t ∧ (t.mem = s.mem ∧ t.attrs = s.attrs) ∧ (t.task s.cur.u.tid).arrival id = none ∧
      t.cur = { s.cur with status := .ready, pc := skipTo s.cur.skip 16 (s.cur.pc + 4) } := by
  obtain ⟨u, hu, hgo⟩ := barrierCompletion_reaches hfree hrecs (by rw [hb]; simp) (name := name) (ph := ph) fun u hu => by
    rw [completeHere_blocked hu hname ha hb]
    exact ⟨rfl, rfl, rfl⟩
  obtain ⟨t, ht, hrest, -⟩ := reached (u := u.completeHere name ph) (e := .barrierCompletion s.myTile name ph) (heldUp s (u.completeHere name ph) name ph)
  refine ⟨t, hgo.trans ht, ?_⟩
  have hnone := arrival_updTask u s.cur.u.tid id none
  rw [hrest, completeHere_blocked hu hname ha hb]
  refine ⟨hu.quiet, hnone, ?_⟩
  show Slot.passBarrier u.cur = _
  rw [hu.cur]
  rfl

theorem completion_idle (hr : s.cur.status = .ready) (hsame : ∀ u, Prepared s u → u.completeHere name ph = u) :
    ∃ t, exec (.barrierCompletion s.myTile name ph) s = .next t ∧ (t.mem = s.mem ∧ t.attrs = s.attrs) ∧ t.cur = s.cur ∧
      (s.cur.frame ≠ none → s.cur.glidesAt name ph = true → ∃ e ∈ t.net.pend, e.ev = .barrierCompletion s.myTile name ph) := by
  obtain ⟨u, hu, hgo⟩ := barrierCompletion_reaches hfree hrecs (by rw [hr]; simp) (name := name) (ph := ph) fun u hu => by
    rw [hsame u hu]
    exact ⟨rfl, rfl, rfl⟩
  rw [hsame u hu] at hgo
  obtain ⟨t, ht, hrest, hlater⟩ := reached (u := u) (e := .barrierCompletion s.myTile name ph) (heldUp s u name ph)
  refine ⟨t, hgo.trans ht, ?_, ?_, fun hf hg => hlater (List.any_eq_true.2 ⟨_, curId_mem_tileSlots s, ?_⟩)⟩
  · rw [hrest]
    exact hu.quiet
  · rw [hrest]
    exact hu.cur
  · rw [State.slot, if_pos hu.curId.symm, hu.cur, hg, Bool.and_true]
    exact Option.isSome_iff_ne_none.2 hf

theorem completion_commits (hr : s.cur.status = .ready) (hmode : s.cur.spec.mode = .glide) (hcommit : s.cur.spec.commit = .none)
    (hb : s.cur.spec.barrier = some (id.toNat, name, ph)) (hf : s.cur.frame = none) (hw : s.writeSet ≠ []) :
    ∃ t, exec (.barrierCompletion s.myTile name ph) s = .next t ∧ (t.mem = s.mem ∧ t.attrs = s.attrs) ∧ (t.task s.cur.u.tid).arrival id = none ∧
      t.cur = { s.cur with spec := { s.cur.spec with commit := .holding, toHold := s.writeSet } } := by
  have hstarts (u : State) (hu : Prepared s u) : ∃ delay e, u.completeHere name ph =
      ((u.updTask s.cur.u.tid fun t => t.arrive id none).updCur fun x => { x with
        spec := { x.spec with commit := .holding, toHold := s.writeSet } }).after delay e := by
    have hset : (u.updTask s.cur.u.tid fun t => t.arrive id none).writeSet = s.writeSet := hu.writeSet
    obtain ⟨delay, e, h⟩ := State.startCommit_holds (hset.symm ▸ hw)
    exact ⟨delay, e, (completeHere_commits hu hr hmode hcommit hb hf).trans (by rw [h, hset])⟩
  obtain ⟨u, hu, hgo⟩ := barrierCompletion_reaches hfree hrecs (by rw [hr]; simp) (name := name) (ph := ph) fun u hu => by
    obtain ⟨delay, e, h⟩ := hstarts u hu
    rw [h]
    exact ⟨rfl, rfl, rfl⟩
  obtain ⟨t, ht, hrest, -⟩ := reached (u := u.completeHere name ph) (e := .barrierCompletion s.myTile name ph) (heldUp s (u.completeHere name ph) name ph)
  refine ⟨t, hgo.trans ht, ?_⟩
  have hnone := arrival_updTask u s.cur.u.tid id none
  obtain ⟨delay, e, h⟩ := hstarts u hu
  rw [hrest, h]
  refine ⟨hu.quiet, hnone, ?_⟩
  show { u.cur with spec := { u.cur.spec with commit := .holding, toHold := s.writeSet } } = _
  rw [hu.cur]

end

end Sys2Proof.Machine
end


section
/-! PROOF. What reaches the ends of a channel (R194, R195), and the statement on barriers and channel events. -/

namespace Sys2Proof.Machine

theorem State.updSlot_focus (s : State) (f : Slot → Slot) : s.updSlot s.curId f = s.updCur f := by
  unfold State.updSlot State.setSlot State.slot
  rw [if_pos rfl, if_pos rfl]
  rfl

theorem State.wakeTask_focus {s : State} {tid : W64} (hp : (s.task tid).place = .slot s.curId) (b : Block) : s.wakeTask tid b =
    s.updCur fun x => if x.u.tid == tid && x.status == .blocked b then { x with status := .ready } else x := by
  unfold State.wakeTask
  rw [hp]
  exact State.updSlot_focus ..

theorem State.updHolder_focus {s : State} {tid : W64} (hp : (s.task tid).place = .slot s.curId) (f : Slot → Slot) : s.updHolder tid f =
    s.updCur fun x => if x.u.tid == tid then f x else x := by
  unfold State.updHolder
  rw [hp]
  exact State.updSlot_focus ..

/-- The task with one end of a channel replaced. -/
def State.withEnd (s : State) (tid : W64) (q : Nat) (c : Chan) : Task :=
  { s.task tid with chans := (s.task tid).chans.setIfInBounds (q - 8) (some c) }

section
variable {s : State} {q : Nat} {c : Chan} (hc : (s.task s.cur.u.tid).chan q = some c) (hp : (s.task s.cur.u.tid).place = .slot s.curId)
include hc

theorem channelWord_discarded {other word : W64} (h : other ≠ c.peer ∨ c.send = true) : exec (.channelWord s.cur.u.tid q other word) s = .next s := by
  rw [exec_channelWord, execChannelWord]
  simp only [hc]
  exact if_pos (by simp only [Bool.or_eq_true, bne_iff_ne]; tauto)

theorem dryTimeout_stale {stamp : Nat} (h : stamp ≠ c.since ∨ c.words ≠ []) : exec (.dryTimeout s.cur.u.tid q stamp) s = .next s := by
  rw [exec_dryTimeout, execDryTimeout]
  simp only [hc]
  refine if_pos ?_
  obtain h | h := h
  · simp [Ne.symm h]
  · simp [h]

include hp

/-- A word reaches the receive end in focus. -/
theorem channelWord_taken {word : W64} (hs : c.send = false) :
    ∃ t, exec (.channelWord s.cur.u.tid q c.peer word) s = .next t ∧ (t.mem = s.mem ∧ t.attrs = s.attrs) ∧ t.net = s.net ∧
      t.task s.cur.u.tid = s.withEnd s.cur.u.tid q { c with words := c.words ++ [word], dryf := false } ∧
      (s.cur.status = .blocked (.queue q) → t.cur = { s.cur with status := .ready }) ∧ (s.cur.status = .ready → t.cur = s.cur) := by
  rw [exec_channelWord, execChannelWord]
  simp only [hc]
  rw [if_neg (by simp [hs])]
  have htask : (s.updTask s.cur.u.tid fun t => t.setChan q (some { c with words := c.words ++ [word], dryf := false })).task s.cur.u.tid =
      s.withEnd s.cur.u.tid q { c with words := c.words ++ [word], dryf := false } := by
    rw [State.task_updTask, if_pos rfl]
    rfl
  rw [State.wakeTask_focus (s := s.updTask s.cur.u.tid fun t => t.setChan q (some { c with words := c.words ++ [word], dryf := false }))
    (by rw [htask]; exact hp)]
  refine ⟨_, rfl, ?_⟩
  refine ⟨⟨rfl, rfl⟩, rfl, htask, fun hb => ?_, fun hr => ?_⟩
  · exact if_pos (show (s.cur.u.tid == s.cur.u.tid && s.cur.status == .blocked (.queue q)) = true by rw [hb]; simp)
  · exact if_neg (show ¬(s.cur.u.tid == s.cur.u.tid && s.cur.status == .blocked (.queue q)) = true by rw [hr]; simp)

theorem creditReturn_taken {n : Nat} (hs : c.send = true) : ∃ t, exec (.creditReturn s.cur.u.tid q c.peer n) s = .next t ∧ t = { s with tasks := t.tasks } ∧
    t.task s.cur.u.tid = s.withEnd s.cur.u.tid q { c with credits := c.credits + n } := by
  rw [exec_creditReturn, execCreditReturn, if_neg (by rw [hp]; simp)]
  refine ⟨_, rfl, rfl, ?_⟩
  rw [State.task_updTask, if_pos rfl, hc]
  exact if_pos (by simp [hs])

/-- An end that has held no word for its time is dry. -/
theorem dryTimeout_dry (hs : c.send = false) (hw : c.words = []) (hd : c.dryf = false) :
    ∃ t, exec (.dryTimeout s.cur.u.tid q c.since) s = .next t ∧ (t.mem = s.mem ∧ t.attrs = s.attrs) ∧ t.net = s.net ∧
      t.task s.cur.u.tid = s.withEnd s.cur.u.tid q { c with dryf := true } ∧
      (c.dryev = true → t.cur.u.uepend.getLsbD 2 = true ∧
        (s.cur.u.uepend.getLsbD 2 = false → t.cur.u.uetags.getD 2 0 = BitVec.ofNat 32 q)) ∧ (c.dryev = false → t.cur = s.cur) := by
  rw [exec_dryTimeout, execDryTimeout]
  simp only [hc]
  rw [if_neg (by simp [hs, hw, hd])]
  have htask : (s.updTask s.cur.u.tid fun t => t.setChan q (some { c with dryf := true })).task s.cur.u.tid =
      s.withEnd s.cur.u.tid q { c with dryf := true } := by
    rw [State.task_updTask, if_pos rfl]
    rfl
  by_cases he : c.dryev = true
  · rw [if_pos he]
    rw [State.updHolder_focus (s := s.updTask s.cur.u.tid fun t => t.setChan q (some { c with dryf := true })) (by rw [htask]; exact hp)]
    refine ⟨_, rfl, ?_⟩
    have hcur : ((s.updTask s.cur.u.tid fun t => t.setChan q (some { c with dryf := true })).updCur fun x =>
        if x.u.tid == s.cur.u.tid then x.latch 2 (BitVec.ofNat 32 q) else x).cur = s.cur.latch 2 (BitVec.ofNat 32 q) :=
      if_pos (beq_self_eq_true _)
    refine ⟨⟨rfl, rfl⟩, rfl, htask, fun _ => ?_, fun h => absurd (he.symm.trans h) (by decide)⟩
    rw [hcur]
    unfold Slot.latch
    split
    next h => exact ⟨h, fun h' => by rw [h] at h'; cases h'⟩
    next => exact ⟨by simp, fun _ => (vget_set _ _ _ _ _ (by omega)).trans (if_pos rfl)⟩
  · rw [if_neg he]
    exact ⟨_, rfl, ⟨rfl, rfl⟩, rfl, htask, fun h => absurd h he, fun _ => rfl⟩

end

/-- Settles O42: a barrier settles as a count or an expectation reaches the other, and a completion acts in the slot in focus alone. -/
theorem barriersAndChannelEvents : Obligations.BarriersAndChannelEvents := by
  intro s id d b hid
  dsimp only
  refine ⟨bara_sends hid, fun ph ha => ⟨fun h => ⟨barw_passes hid ha h, barg_passes hid ha h⟩, fun k h hph => barw_waits hid ha h hph⟩,
    fun h => barq_asks hid (charge_barStatus_none hid h), fun k h => barq_asks hid (charge_barStatus_some hid h), barset_tooMany hid,
    fun hv hv0 hi hroom => barset_creates hid hv hv0 hi hroom, fun hv hv0 k hi => barset_changes hid hv hv0 hi,
    fun hv k hi => barset_removes hid hv hi, fun slot ctx k => ⟨fun h => ?_, fun i h => packageBarrierArrival_counts h⟩,
    fun name ph hfree hrecs hname ha => ⟨completion_wakes hfree hrecs hname ha, fun hr hmode hcommit hb => ⟨fun hf hw => ?_, fun hf => ?_⟩, fun hr hb => ?_⟩,
    fun me q c _ _ hc hp hme => ?_⟩
  · exact ⟨_, packageBarrierArrival_unknown h, rfl, rfl⟩
  · exact completion_commits hfree hrecs hr hmode hcommit hb hf hw
  · obtain ⟨t, ht, hq, hcur, hlater⟩ := completion_idle hfree hrecs hr fun u hu => completeHere_framed hu hr hb hf
    exact ⟨t, ht, hq, hcur, hlater hf (glidesAt_barrier hmode hcommit hb)⟩
  · obtain ⟨t, ht, hq, hcur, -⟩ := completion_idle hfree hrecs hr (name := name) (ph := ph) fun u hu => completeHere_noGlide hu hr hb
    exact ⟨t, ht, hq, hcur⟩
  · subst hme
    exact ⟨fun word hs => channelWord_taken hc hp hs, fun other word h => channelWord_discarded hc h, fun n hs => creditReturn_taken hc hp hs,
      fun hs hw hd => dryTimeout_dry hc hp hs hw hd, fun stamp h => dryTimeout_stale hc h⟩

end Sys2Proof.Machine
end


section
/-! PROOF. The dispatcher places an item, a saved task or a task that migrated here (R20, R80, R83, R180). -/

namespace Sys2Proof.Machine

/-! ### Where a task fits -/

/-- A slot takes a task of a launch: the launch is listed, and the slot is free and reserved as the launch needs. -/
structure Fits (s : State) (slot : Nat) (l : Launch) : Prop where
  listed : s.launch? l.key = some l
  fits : s.slotFits slot l = true
  kept : l.binds = true → s.reservedTo slot = some l.key

theorem Fits.slotFor {s : State} {slot : Nat} {l : Launch} (h : Fits s slot l) : s.slotFor slot l = some slot := by
  unfold State.slotFor
  dsimp only
  rw [List.find?_cons_of_pos (p := fun k => s.slotFits k l) h.fits]
  by_cases hb : l.binds = true
  · rw [if_pos hb, List.find?_cons_of_pos (by rw [h.fits, h.kept hb]; simp)]
    rfl
  · rw [if_neg hb]
    rfl

/-! ### What is offered (R180) -/

theorem filter_range_single {n w : Nat} (h : w < n) : (List.range n).filter (fun k => [w].contains k) = [w] := by
  have hp : (fun k => [w].contains k) = fun k => k == w := by
    funext k
    rw [List.contains_cons, List.contains_nil, Bool.or_false]
  rw [hp, List.filter_beq, List.count_eq_one_of_mem List.nodup_range (List.mem_range.2 h)]
  rfl

/-- One prefetched item of a launch that fits is what is offered. -/
theorem offers_single {s : State} {tile wl : Nat} {q : QItem} {w : WorkList} {l : Launch} {fits : Launch → Bool} (hp : (s.tile tile).prefetched = [(wl, q)])
    (hw : s.wl? wl = some w) (hl : s.launch? w.launch = some l) (hwl : wl < 1024) (hfinal : l.st.final = false) (hc : l.h.consumer = false)
    (hf : fits l = true) : s.offers tile fits = [(wl, l)] := by
  have hlaunch : s.wlLaunch wl = some l := by
    unfold State.wlLaunch
    rw [hw]
    exact hl
  unfold State.offers
  dsimp only
  rw [hp]
  show List.filterMap _ ((List.range 1024).filter fun w => [wl].contains w) = _
  rw [filter_range_single hwl]
  simp [hlaunch, hfinal, hf, hc]

theorem nextServed_single (t : Tile) (prio wl : Nat) (l : Launch) : ∃ n, nextServed t prio [(wl, l)] = some (wl, l, n) := by
  unfold nextServed
  dsimp only
  split
  next e he =>
    obtain rfl := List.mem_singleton.1 (List.mem_of_find?_eq_some he)
    exact ⟨_, rfl⟩
  next =>
    refine ⟨1, ?_⟩
    by_cases h : (t.wrr.getD (0, 0) prio).1 < wl <;> simp [h]

/-! ### DISPATCH of an item -/

/-- The state with an item taken from those prefetched, and its task in its slot. -/
def State.itemPlaced (s : State) (slot wl : Nat) (q : QItem) (l : Launch) (prio n : Nat) : State :=
  (s.updTile (tileOf slot) fun t => { t with prefetched := t.prefetched.erase (wl, q), wrr := t.wrr.set prio (wl, n) }).dispatchItem slot wl q l

/-- A fold of events that are listed once keeps all but what is in flight. -/
theorem afterOnces_rest {α : Type} (l : List α) (e : α → Event) (s : State) :
    l.foldl (fun s a => s.afterOnce 1 (e a)) s = { s with net := (l.foldl (fun s a => s.afterOnce 1 (e a)) s).net } := by
  refine foldl_holds (P := fun t : State => t = { s with net := t.net }) rfl fun t a _ h => ?_
  rw [State.afterOnce_rest, h]

theorem dispatch_item {s : State} {slot wl : Nat} {q : QItem} {w : WorkList} {l : Launch} (hfits : Fits s slot l)
    (hp : (s.tile (tileOf slot)).prefetched = [(wl, q)]) (hrecs : (s.tile (tileOf slot)).recs = []) (hmov : s.net.moving = [])
    (hw : s.wl? wl = some w) (hwl : w.launch = l.key) (hlt : wl < 1024) (hfinal : l.st.final = false) (hc : l.h.consumer = false) :
    ∃ t prio n, exec (.dispatch slot) s = .next t ∧ t = { s.itemPlaced slot wl q l prio n with net := t.net } := by
  have hfit : (s.slotFor slot l).isSome = true := by rw [hfits.slotFor]; rfl
  have hoffers := offers_single (fits := fun l => (s.slotFor slot l).isSome) hp hw (by rw [hwl]; exact hfits.listed) hlt hfinal hc hfit
  obtain ⟨n, hn⟩ := nextServed_single (s.tile (tileOf slot)) l.h.prio wl l
  have hsaved : s.bestSaved (tileOf slot) (fun l => (s.slotFor slot l).isSome) = none := by
    unfold State.bestSaved
    rw [hrecs]
    rfl
  have hfill : ∃ tiles : List Nat, s.fillSlot (tileOf slot) (fun l => s.slotFor slot l) true true =
      some (tiles.foldl (fun s t => s.afterOnce 1 (.prefetch t wl)) (s.itemPlaced slot wl q l l.h.prio n)) := by
    unfold State.fillSlot
    simp only [hmov, hsaved, hoffers, hp, List.find?_nil, if_true, List.foldl_cons, List.foldl_nil, Nat.zero_max, List.filter_cons, beq_self_eq_true,
      List.filter_nil, hn, hfits.slotFor, List.find?_cons]
    exact ⟨_, rfl⟩
  obtain ⟨tiles, hfill⟩ := hfill
  rw [exec_dispatch, execDispatch, hfill]
  refine ⟨_, l.h.prio, n, rfl, ?_⟩
  have hrest := afterOnces_rest tiles (fun t => .prefetch t wl) (s.itemPlaced slot wl q l l.h.prio n)
  rw [State.afterOnce_rest, hrest]

/-! ### The slot of a dispatched item (R20) -/

theorem State.slot_updLaunch (s : State) (key : Nat) (f : Launch → Launch) (k : Nat) : (s.updLaunch key f).slot k = s.slot k := by
  unfold State.updLaunch
  split <;> rfl

theorem State.updLaunch_rest (s : State) (key : Nat) (f : Launch → Launch) : s.updLaunch key f = { s with pkg := (s.updLaunch key f).pkg } := by
  unfold State.updLaunch
  split <;> rfl

theorem State.setSlot_rest (s : State) (k : Nat) (x : Slot) : s.setSlot k x = { s with cur := (s.setSlot k x).cur, slots := (s.setSlot k x).slots } := by
  unfold State.setSlot
  split <;> rfl

theorem State.launch?_updLaunch {s : State} {key : Nat} {l : Launch} (h : s.launch? key = some l) (f : Launch → Launch) :
    (s.updLaunch key f).launch? key = some (f l) := by
  unfold State.updLaunch
  rw [h]
  exact Map.get?_set_same ..

theorem State.slot_setSlot_same (s : State) (k : Nat) (x : Slot) : (s.setSlot k x).slot k = x := by rw [State.slot_setSlot, if_pos rfl]

/-- The slot into which an item has been dispatched. -/
def State.itemSlot (s : State) (slot : Nat) (i : Item) (l : Launch) : Slot :=
  let x := s.slot slot
  s.placed { x.freed with
    status := .ready, pc := (l.entries.getD i.entry.toNat 0).extractLsb' 0 48, regs := taskRegs i, u := taskCsrs l i (s.slotIdent slot ++ x.serial)
    rmask := 0, serial := x.serial + 1 } l

/-- The state in which the task of an item stands in its slot. -/
def State.itemTask (s : State) (slot wl : Nat) (q : QItem) (l : Launch) : State :=
  let tid : W64 := s.slotIdent slot ++ (s.slot slot).serial
  { s.setSlot slot (s.itemSlot slot q.item l) with tasks := s.tasks.set tid.toNat { Task.fresh with
      launch := l.key, asid := l.h.asid, place := .slot slot, held := Task.fresh.held.setIfInBounds 0 (some ⟨wl, q⟩) } }

theorem QItem.first_single {q : QItem} (hf : q.item.flags = 0) (hc : q.item.count = 0) : q.first = q := by
  obtain ⟨⟨k, e, f, c, w⟩, id⟩ := q
  obtain rfl : f = 0 := hf
  obtain rfl : c = 0 := hc
  rfl

theorem dispatchItem_single (s : State) (slot wl : Nat) {q : QItem} (l : Launch) (hf : q.item.flags = 0) (hc : q.item.count = 0) :
    s.dispatchItem slot wl q l = (s.itemTask slot wl q l).updLaunch l.key fun l => { l with dispatched := l.dispatched + 1, alive := l.alive + 1 } := by
  unfold State.dispatchItem
  rw [QItem.first_single hf hc]
  have hset : (s.setSlot slot (s.itemSlot slot q.item l)).tasks = s.tasks := by
    unfold State.setSlot
    split <;> rfl
  unfold State.itemTask
  rw [← hset]
  rfl

theorem vget_replicate {α : Type} (n j : Nat) (a : α) : (Vector.replicate n a).getD j a = a := by
  rw [vget]
  split
  · exact Vector.getElem_replicate ..
  · rfl

section
variable (x : Slot) (i : Item) (hx : x.regs = taskRegs i)
include hx

theorem taskRegs_readG (ha : x.u.active = false) (r : RegNo) :
    x.readG r = if r = 1 then i.work else if r = 2 then i.key.setWidth 64 else 0 := by
  have h1 : r.toNat = 1 ↔ r = 1 := BitVec.toNat_inj (y := 1)
  have h2 : r.toNat = 2 ↔ r = 2 := BitVec.toNat_inj (y := 2)
  have hg : (taskRegs i).g.getD r.toNat 0 = if r = 1 then i.work else if r = 2 then i.key.setWidth 64 else 0 := by
    unfold taskRegs Regs.zero
    rw [vget_set _ _ _ _ _ (by decide), vget_set _ _ _ _ _ (by decide), vget_replicate]
    by_cases hr : r = 1
    · subst hr
      rfl
    · simp only [h1, h2, hr, if_false]
  unfold Slot.readG
  rw [hx, ha, Bool.false_and, hg]
  split
  next h => subst h; rfl
  next => rfl

theorem taskRegs_readV (r : RegNo) : x.readV r = .replicate 16 0 := by
  unfold Slot.readV
  rw [hx]
  exact vget_replicate ..

theorem taskRegs_readP (r : PredNo) : x.readP r = if r = 0 then 0xFFFF else 0 := by
  unfold Slot.readP
  rw [hx]
  exact if_congr Iff.rfl rfl (vget_replicate ..)

end

/-- A slot holds the task of an item just dispatched. -/
structure ItemIn (s : State) (z y : Slot) (slot : Nat) (q : QItem) (l : Launch) : Prop where
  status : z.status = .ready
  level : z.level = .u
  pc : z.pc = (l.entries.getD q.item.entry.toNat 0).extractLsb' 0 48
  g : ∀ r, z.readG r = if r = 1 then q.item.work else if r = 2 then q.item.key.setWidth 64 else 0
  v : ∀ r, z.readV r = .replicate 16 0
  p : ∀ r, z.readP r = if r = 0 then 0xFFFF else 0
  u : z.u = { UCsr.reset with
    wid := q.item.work, widf := l.h.widf, ikey := q.item.key, iarg := q.item.entry ++ q.item.flags ++ q.item.count, tid := s.slotIdent slot ++ y.serial
    launch := l.id, seed := l.h.seed, ctrb := l.h.ctrb, codeb := l.h.codeb, codel := l.h.codel }
  lkey : z.lkey = l.key
  serial : z.serial = y.serial + 1
  ctxser : z.mc.ctxser = y.mc.ctxser + 1
  asid : z.sc.asid = l.h.asid
  piste : z.sc.piste = l.h.piste

theorem itemIn_itemSlot (s : State) (slot : Nat) (q : QItem) (l : Launch) : ItemIn s (s.itemSlot slot q.item l) (s.slot slot) slot q l where
  status := rfl
  level := rfl
  pc := rfl
  g := taskRegs_readG _ q.item rfl rfl
  v := taskRegs_readV _ q.item rfl
  p := taskRegs_readP _ q.item rfl
  u := rfl
  lkey := rfl
  serial := rfl
  ctxser := rfl
  asid := rfl
  piste := rfl

theorem dispatch_places {s : State} {slot wl : Nat} {q : QItem} {w : WorkList} {l : Launch} (hfits : Fits s slot l)
    (hp : (s.tile (tileOf slot)).prefetched = [(wl, q)]) (hrecs : (s.tile (tileOf slot)).recs = []) (hmov : s.net.moving = [])
    (hw : s.wl? wl = some w) (hwl : w.launch = l.key) (hlt : wl < 1024) (hfinal : l.st.final = false) (hc : l.h.consumer = false)
    (hflags : q.item.flags = 0) (hcount : q.item.count = 0) :
    ∃ t, exec (.dispatch slot) s = .next t ∧ (t.mem = s.mem ∧ t.attrs = s.attrs) ∧ ItemIn s (t.slot slot) (s.slot slot) slot q l ∧
      (let task := t.task (s.slotIdent slot ++ (s.slot slot).serial)
       task.place = .slot slot ∧ task.launch = l.key ∧ task.held.getD 0 none = some ⟨wl, q⟩) ∧ (t.tile (tileOf slot)).prefetched = [] ∧
      ∃ m, t.launch? l.key = some m ∧ m.dispatched = l.dispatched + 1 ∧ m.alive = l.alive + 1 := by
  obtain ⟨t, prio, n, hgo, hrest⟩ := dispatch_item hfits hp hrecs hmov hw hwl hlt hfinal hc
  let w' := s.updTile (tileOf slot) fun t => { t with prefetched := t.prefetched.erase (wl, q), wrr := t.wrr.set prio (wl, n) }
  have hitem : s.itemPlaced slot wl q l prio n = (w'.itemTask slot wl q l).updLaunch l.key
      fun l => { l with dispatched := l.dispatched + 1, alive := l.alive + 1 } := dispatchItem_single _ _ _ _ hflags hcount
  have hpkg := State.updLaunch_rest (w'.itemTask slot wl q l) l.key fun l => { l with dispatched := l.dispatched + 1, alive := l.alive + 1 }
  have hset := State.setSlot_rest w' slot (w'.itemSlot slot q.item l)
  have hslot : t.slot slot = w'.itemSlot slot q.item l := by
    rw [hrest, hitem]
    exact (State.slot_updLaunch ..).trans (State.slot_setSlot_same ..)
  have htask : t.task (s.slotIdent slot ++ (s.slot slot).serial) = { Task.fresh with
      launch := l.key, asid := l.h.asid, place := .slot slot, held := Task.fresh.held.setIfInBounds 0 (some ⟨wl, q⟩) } := by
    rw [hrest, hitem, hpkg]
    exact Map.getD_set_same ..
  have htile : t.tiles = w'.tiles := by
    rw [hrest, hitem, hpkg]
    exact (congrArg State.tiles hset :)
  refine ⟨t, hgo, ⟨?_, ?_⟩, ?_, ?_, ?_, ?_⟩
  · rw [hrest, hitem, hpkg]
    exact (congrArg State.mem hset :)
  · rw [hrest, hitem, hpkg]
    exact (congrArg State.attrs hset :)
  · rw [hslot]
    exact itemIn_itemSlot s slot q l
  · rw [htask]
    exact ⟨rfl, rfl, rfl⟩
  · unfold State.tile
    rw [htile]
    show (w'.tile (tileOf slot)).prefetched = []
    rw [State.tile_updTile, if_pos rfl]
    dsimp only
    rw [hp]
    simp
  · have hl : (w'.itemTask slot wl q l).launch? l.key = some l := by
      unfold State.launch?
      have hlaunches := hfits.listed
      have hsame : (w'.setSlot slot (w'.itemSlot slot q.item l)).pkg = s.pkg := by rw [hset]; rfl
      unfold State.launch? at hlaunches
      rw [← hsame] at hlaunches
      exact hlaunches
    refine ⟨{ l with dispatched := l.dispatched + 1, alive := l.alive + 1 }, ?_, rfl, rfl⟩
    rw [hrest, hitem]
    exact State.launch?_updLaunch hl _

end Sys2Proof.Machine
end


section
/-! PROOF. Saved and migrating tasks are placed again (R80, R83). -/

namespace Sys2Proof.Machine

/-! ### A change of focus -/

theorem Map.getD_del_ne {α : Type} (d : α) (m : Map α) {k j : Nat} (h : j ≠ k) : (m.del k).getD d j = m.getD d j := by
  induction m with
  | nil => rfl
  | cons e m ih =>
    obtain ⟨i, a⟩ := e
    unfold Map.del
    split
    next hi =>
      subst hi
      rw [Map.getD, if_neg h.symm]
    next => simp only [Map.getD, ih]

theorem State.slot_focus (s : State) (id k : Nat) : (s.focus id).slot k = s.slot k := by
  unfold State.focus
  split
  · rfl
  · by_cases hk : k = id
    · subst hk
      exact if_pos rfl
    · refine (if_neg hk).trans ?_
      rw [Map.getD_del_ne _ _ hk, Map.getD_set]
      rfl

theorem State.focus_rest (s : State) (id : Nat) : s.focus id = { s with
    curId := (s.focus id).curId, cur := (s.focus id).cur, slots := (s.focus id).slots } := by
  unfold State.focus
  split <;> rfl

theorem State.focus_cur (s : State) (id : Nat) : (s.focus id).cur = s.slot id := by
  unfold State.focus State.slot
  split
  next h => rfl
  next h => rfl

/-- An operation that does nothing on a slot in focus does nothing. -/
theorem within_idle {s : State} {id : Nat} {f : State → State} (h : f (s.focus id) = s.focus id) :
    (∀ k, (s.within id f).slot k = s.slot k) ∧
      s.within id f = { s with curId := (s.within id f).curId, cur := (s.within id f).cur, slots := (s.within id f).slots } := by
  unfold State.within
  rw [h]
  refine ⟨fun k => by rw [State.slot_focus, State.slot_focus], ?_⟩
  rw [State.focus_rest (s.focus id), State.focus_rest s]

theorem State.trapIfSettled_idle {s : State} (h : s.cur.fails = []) : s.trapIfSettled = s := by
  unfold State.trapIfSettled
  dsimp only
  rw [h]
  split <;> rfl

/-! ### A record is placed into a slot (R80) -/

/-- The slot into which a record has been placed. -/
def State.refilled (s : State) (slot : Nat) (r : SaveRec) (l : Launch) : Slot :=
  s.placed { (s.slot slot).freed with
    status := .ready, pc := r.slot.pc, regs := r.slot.regs, u := r.slot.u, skip := r.slot.skip, fails := r.slot.fails, word := r.slot.word, rmask := 0xFF
    stopReq := r.slot.stopReq } l

/-- The state once a record has been placed. -/
structure Refilled (s t : State) (slot : Nat) (r : SaveRec) (l : Launch) : Prop where
  mem : t.mem = s.mem
  attrs : t.attrs = s.attrs
  holds : t.slot slot = s.refilled slot r l
  task : (t.task r.tid).place = .slot slot
  tiles : t.tiles = s.tiles
  moving : t.net.moving = s.net.moving

theorem State.releaseSleep_only (s : State) (r : SaveRec) : OnlyMessages s (s.releaseSleep r) := by
  unfold State.releaseSleep
  split
  · exact foldl_keeps OnlyMessages.refl OnlyMessages.trans (fun s w => by exact s.sendRelease_only ..) ..
  · exact .refl s

theorem Refilled.settles {s v : State} {slot : Nat} {r : SaveRec} {l : Launch} (h : Refilled s v slot r l) (hf : r.slot.fails = []) :
    Refilled s (v.within slot fun s => s.trapIfSettled) slot r l := by
  obtain ⟨hslot, hrest⟩ := within_idle (s := v) (id := slot) (f := fun s => s.trapIfSettled)
    (State.trapIfSettled_idle (by rw [State.focus_cur, h.holds]; exact hf))
  refine ⟨?_, ?_, (hslot slot).trans h.holds, ?_, ?_, ?_⟩
  · rw [hrest]
    exact h.mem
  · rw [hrest]
    exact h.attrs
  · rw [hrest]
    exact h.task
  · rw [hrest]
    exact h.tiles
  · rw [hrest]
    exact h.moving

theorem refilled_refillInto {s : State} {slot : Nat} {r : SaveRec} {l : Launch} (hf : r.slot.fails = []) :
    Refilled s (s.refillInto slot r l) slot r l := by
  have hu := s.releaseSleep_only r
  have hplaced (y : Slot) : (s.releaseSleep r).placed y l = s.placed y l := by
    rw [hu]
    rfl
  unfold State.refillInto
  dsimp only
  rw [hplaced]
  refine Refilled.settles ?_ hf
  have hset := (s.releaseSleep r).setSlot_rest slot (s.refilled slot r l)
  have hthere := (s.releaseSleep r).slot_setSlot_same slot (s.refilled slot r l)
  have htask := State.task_updTask ((s.releaseSleep r).setSlot slot (s.refilled slot r l)) r.tid r.tid fun t => { t with place := .slot slot }
  rw [if_pos rfl] at htask
  have hmem : ((s.releaseSleep r).setSlot slot (s.refilled slot r l)).mem = s.mem := by rw [hset, hu]
  have hattrs : ((s.releaseSleep r).setSlot slot (s.refilled slot r l)).attrs = s.attrs := by rw [hset, hu]
  have htiles : ((s.releaseSleep r).setSlot slot (s.refilled slot r l)).tiles = s.tiles := by rw [hset, hu]
  have hmoving : ((s.releaseSleep r).setSlot slot (s.refilled slot r l)).net.moving = s.net.moving := by rw [hset, hu]
  exact ⟨hmem, hattrs, hthere, (congrArg Task.place htask :), htiles, hmoving⟩

/-- A slot holds the task of a record again. -/
structure Again (z y x : Slot) (l : Launch) : Prop where
  status : z.status = .ready
  level : z.level = .u
  pc : z.pc = x.pc
  regs : z.regs = x.regs
  u : z.u = { x.u with codeb := l.h.codeb, codel := l.h.codel, launch := l.id }
  skip : z.skip = x.skip
  ctxser : z.mc.ctxser = y.mc.ctxser + 1
  ops : z.ops = []
  lkey : z.lkey = l.key
  asid : z.sc.asid = l.h.asid
  piste : z.sc.piste = l.h.piste
  rmask : z.rmask = 0xFF

theorem again_refilled (s : State) (slot : Nat) (r : SaveRec) (l : Launch) : Again (s.refilled slot r l) (s.slot slot) r.slot l :=
  ⟨rfl, rfl, rfl, rfl, rfl, rfl, rfl, rfl, rfl, rfl, rfl, rfl⟩

/-! ### REFILL and MIGRATION_ARRIVAL -/

theorem bestSaved_single {s : State} {tile ix : Nat} {r : SaveRec} {l : Launch} {fits : Launch → Bool} (hrecs : (s.tile tile).recs = [(ix, r)])
    (hr : r.ready = true) (hd : r.done = true) (hl : s.launch? r.slot.lkey = some l) (hf : fits l = true) :
    s.bestSaved tile fits = some (ix, r, l) := by
  unfold State.bestSaved
  rw [hrecs]
  simp [hr, hd, hl, hf]

theorem refill_places {s : State} {slot ix : Nat} {r : SaveRec} {l : Launch} (hfits : Fits s slot l) (hrecs : (s.tile (tileOf slot)).recs = [(ix, r)])
    (hmov : s.net.moving = []) (hr : r.ready = true) (hd : r.done = true) (hl : r.slot.lkey = l.key) (hf : r.slot.fails = []) :
    ∃ t, exec (.refill slot) s = .next t ∧ (t.mem = s.mem ∧ t.attrs = s.attrs) ∧ Again (t.slot slot) (s.slot slot) r.slot l ∧
      (t.task r.tid).place = .slot slot ∧ (t.tile (tileOf slot)).recs = [] := by
  have hlaunch : s.launch? r.slot.lkey = some l := hl ▸ hfits.listed
  have hsaved := bestSaved_single (fits := fun l => (if s.slotFits slot l then some slot else none).isSome) hrecs hr hd hlaunch
    (by rw [if_pos hfits.fits]; rfl)
  have hfill : s.fillSlot (tileOf slot) (fun l => if s.slotFits slot l then some slot else none) true false =
      some ((s.updTile (tileOf slot) fun t => { t with recs := t.recs.del ix }).refillInto slot r l) := by
    unfold State.fillSlot
    simp only [hmov, hsaved, hfits.fits, List.find?_nil, if_true]
    rfl
  have hdone := refilled_refillInto (s := s.updTile (tileOf slot) fun t => { t with recs := t.recs.del ix }) (slot := slot) (l := l) hf
  rw [exec_refill, execRefill, hfill, Option.getD_some]
  generalize State.refillInto _ slot r l = t at hdone
  refine ⟨t, rfl, ⟨hdone.mem, hdone.attrs⟩, ?_, hdone.task, ?_⟩
  · rw [hdone.holds]
    exact again_refilled s slot r l
  · unfold State.tile
    rw [hdone.tiles]
    show (State.tile (s.updTile (tileOf slot) _) (tileOf slot)).recs = []
    rw [State.tile_updTile, if_pos rfl]
    dsimp only
    rw [hrecs]
    exact if_pos rfl

theorem migration_places {s : State} {slot tile : Nat} {m : Moving} {l : Launch} (hfits : Fits s slot l) (hslot : slot = tile * 64)
    (hmov : s.net.moving = [m]) (htile : m.tile = tile) (hl : m.task.slot.lkey = l.key) (hf : m.task.slot.fails = []) :
    ∃ t, exec (.migrationArrival m.tid tile) s = .next t ∧ (t.mem = s.mem ∧ t.attrs = s.attrs) ∧ Again (t.slot slot) (s.slot slot) m.task.slot l ∧
      (t.task m.task.tid).place = .slot slot ∧ t.net.moving = [] := by
  subst hslot
  let r : SaveRec := { m.task with ready := true }
  let s' := s.updNet fun n => { n with moving := [{ m with task := r }] }
  have hfits' : Fits s' (tile * 64) l := ⟨hfits.listed, hfits.fits, hfits.kept⟩
  have hlaunch : s'.launch? r.slot.lkey = some l := hl ▸ hfits.listed
  have harrive : (s.updNet fun n => { n with moving := n.moving.map fun o =>
      if o.tid == m.tid && o.tile == tile then { o with task := { o.task with ready := true } } else o }) = s' := by
    unfold State.updNet
    dsimp only
    rw [hmov]
    simp [s', r, htile, State.updNet]
  have hfill : s'.fillSlot tile (fun l => s'.slotFor (tile * 64) l) true false =
      some (({ s' with net := { s'.net with moving := [] } } : State).refillInto (tile * 64) r l) := by
    have hmoving : s'.net.moving = [{ m with task := r }] := rfl
    unfold State.fillSlot
    simp only [hmoving, htile, hlaunch, hfits'.slotFor, List.find?_cons, r, if_true, beq_self_eq_true, Bool.true_and, Option.isSome_some]
    simp
  have hdone := refilled_refillInto (s := { s' with net := { s'.net with moving := [] } }) (slot := tile * 64) (r := r) (l := l) hf
  rw [exec_migrationArrival, execMigrationArrival]
  dsimp only
  rw [harrive, hfill, Option.getD_some]
  generalize State.refillInto _ (tile * 64) r l = t at hdone
  refine ⟨t, rfl, ⟨hdone.mem, hdone.attrs⟩, ?_, hdone.task, hdone.moving⟩
  rw [hdone.holds]
  exact again_refilled s (tile * 64) r l

end Sys2Proof.Machine
end


section
/-! PROOF. Eviction and the end of a save (R22, R23, R81). -/

namespace Sys2Proof.Machine

/-! ### What the withdrawal of waits may change -/

/-- Beside what is in flight, the worklists and what is held for tasks, nothing changed. -/
def OnlyWithdrawn (s t : State) : Prop := t = { s with pkg := { s.pkg with wls := t.pkg.wls }, net := t.net, tasks := t.tasks }

theorem OnlyWithdrawn.refl (s : State) : OnlyWithdrawn s s := rfl

theorem OnlyWithdrawn.trans {s t u : State} (h : OnlyWithdrawn s t) (h' : OnlyWithdrawn t u) : OnlyWithdrawn s u := by
  unfold OnlyWithdrawn at *
  rw [h', h]

theorem OnlyWithdrawn.of_messages {s t : State} (h : OnlyMessages s t) : OnlyWithdrawn s t := by
  rw [h]
  rfl

theorem onlyWithdrawn_postMsg (s : State) (pkg kind : Nat) (asid : BitVec 14) (tag : BitVec 16) (unit : Nat) (m : PodMsg) :
    OnlyWithdrawn s (s.postMsg pkg kind asid tag unit m) := by
  unfold State.postMsg
  split <;> rfl

theorem onlyWithdrawn_recallParked (s : State) : OnlyWithdrawn s s.recallParked := by
  refine foldl_keeps OnlyWithdrawn.refl OnlyWithdrawn.trans (fun s e => ?_) ..
  split
  · exact onlyWithdrawn_postMsg ..
  · exact .refl s

theorem onlyWithdrawn_updWl (s : State) (wl : Nat) (f : WorkList → WorkList) : OnlyWithdrawn s (s.updWl wl f) := by
  unfold State.updWl
  split <;> rfl

theorem onlyWithdrawn_lantern (s : State) (pkg delay wl : Nat) (m : WlMsg) : OnlyWithdrawn s (s.lantern pkg delay wl m) := by
  unfold State.lantern
  split
  · split <;> rfl
  · split
    · exact .refl s
    · dsimp only
      split
      · exact (onlyWithdrawn_updWl ..).trans (onlyWithdrawn_postMsg ..)
      · exact onlyWithdrawn_postMsg ..

theorem onlyWithdrawn_sendPush (s : State) (m : PushMsg) : OnlyWithdrawn s (s.sendPush m) := by
  unfold State.sendPush
  split
  · exact .refl s
  · dsimp only
    split
    · exact onlyWithdrawn_lantern ..
    · rfl

theorem onlyWithdrawn_repushHeld (s : State) (tid : W64) (tile : Nat) : OnlyWithdrawn s (s.repushHeld tid tile) := by
  unfold State.repushHeld
  refine OnlyWithdrawn.trans (t := s.updTask tid fun t => { t with held := .replicate 5 none }) rfl ?_
  refine foldl_keeps OnlyWithdrawn.refl OnlyWithdrawn.trans (fun s h => ?_) ..
  split
  · exact .refl s
  · split
    · split
      · exact .refl s
      · exact onlyWithdrawn_sendPush ..
    · exact .refl s

theorem withdrawWaits_idle {s : State} (hops : s.cur.ops = []) :
    OnlyWithdrawn (s.updCur fun x => { x with hold := .none, busy := [] }) s.withdrawWaits := by
  have h := onlyWithdrawn_recallParked s
  unfold State.withdrawWaits
  dsimp only
  rw [hops]
  generalize s.recallParked = u at h ⊢
  dsimp only
  rw [h]
  rfl

/-! ### EVICTION (R22, R81) -/

/-- The state as the task in focus leaves its slot. -/
theorem startSave_saves {s : State} (hspec : s.cur.spec = Spec.none) (hops : s.cur.ops = []) (hrsv : s.cur.rsv = none) (hst : s.cur.status = .ready)
    (hrecs : (s.tile s.myTile).recs = []) :
    let t := s.startSave
    (t.mem = s.mem ∧ t.attrs = s.attrs) ∧ t.curId = s.curId ∧ t.cur.status = .saving ∧ (t.task s.cur.u.tid).place = .saved s.myTile 0 ∧
      (∃ r, (t.tile s.myTile).recs = [(0, r)] ∧ r.tid = s.cur.u.tid ∧ r.from_ = s.curId ∧ r.ctx = s.cur.mc.ctxser ∧ r.done = false ∧ r.ready = true ∧
        r.slot.regs = s.cur.regs ∧ r.slot.pc = s.cur.pc ∧ r.slot.u = s.cur.u) ∧ ⟨s.now + 40, .saveComplete s.curId⟩ ∈ t.net.pend := by
  have hfree : s.freeRec s.myTile = some 0 := by
    unfold State.freeRec
    rw [hrecs]
    rfl
  have hmode : s.cur.specMode = .none := Slot.specMode_none (by rw [hspec]; rfl)
  have hsettle : s.settleSpec = s := by
    unfold State.settleSpec State.clearRsv
    rw [hmode]
    dsimp only
    rw [hrsv]
  have hw := withdrawWaits_idle (s := s) hops
  have hp := onlyWithdrawn_repushHeld s.withdrawWaits s.withdrawWaits.myTid s.withdrawWaits.myTile
  dsimp only
  unfold State.startSave
  rw [hfree]
  dsimp only
  rw [hsettle]
  have hu := hw.trans hp
  generalize s.withdrawWaits.repushHeld _ _ = u at hu ⊢
  have hcur : u.cur = { s.cur with hold := .none, busy := [] } := by rw [hu]; rfl
  have hid : u.curId = s.curId := by rw [hu]; rfl
  have hmem : u.mem = s.mem := by rw [hu]; rfl
  have hattrs : u.attrs = s.attrs := by rw [hu]; rfl
  have htiles : u.tiles = s.tiles := by rw [hu]; rfl
  have hnow : u.now = s.now := by rw [hu]; rfl
  have htid : u.myTid = s.cur.u.tid := by rw [State.myTid, hcur]
  have htile : u.myTile = s.myTile := by rw [State.myTile, hid]; rfl
  let r : SaveRec := { u.record false with ready := u.cur.resumes, line := (s.record false).line }
  let v := (u.updTile u.myTile fun t => { t with recs := t.recs.set 0 r }).updTask u.myTid fun t => { t with place := .saved u.myTile 0 }
  have hv := OnlySlot.tally v u.myTile 12 1
  have hvtile : (v.tally u.myTile 12 1).tile s.myTile = _ := hv.counters s.myTile
  have hrec : (v.tile s.myTile).recs = [(0, r)] := by
    have h := State.tile_updTile u u.myTile s.myTile fun t => { t with recs := t.recs.set 0 r }
    rw [if_pos htile.symm] at h
    have hnone : (u.tile u.myTile).recs = [] := by
      rw [htile, State.tile, htiles]
      exact hrecs
    rw [show v.tile s.myTile = _ from h]
    dsimp only
    rw [hnone]
    rfl
  have htask : (v.task s.cur.u.tid).place = .saved s.myTile 0 := by
    have h := State.task_updTask (u.updTile u.myTile fun t => { t with recs := t.recs.set 0 r }) u.myTid s.cur.u.tid
      fun t => { t with place := .saved u.myTile 0 }
    rw [if_pos htid.symm] at h
    rw [show v.task s.cur.u.tid = _ from h]
    exact congrArg (Place.saved · 0) htile
  refine ⟨⟨?_, ?_⟩, ?_, rfl, ?_, ⟨r, ?_, htid, hid, ?_, rfl, ?_, ?_, ?_, ?_⟩, ?_⟩
  · show (v.tally u.myTile 12 1).mem = s.mem
    rw [hv.rest]
    exact hmem
  · show (v.tally u.myTile 12 1).attrs = s.attrs
    rw [hv.rest]
    exact hattrs
  · show (v.tally u.myTile 12 1).curId = s.curId
    rw [hv.rest]
    exact hid
  · show (State.task (v.tally u.myTile 12 1) s.cur.u.tid).place = _
    rw [State.task, hv.rest]
    exact htask
  · show ((v.tally u.myTile 12 1).tile s.myTile).recs = _
    rw [hvtile]
    exact hrec
  · show u.cur.mc.ctxser = _
    rw [hcur]
  · show u.cur.resumes = true
    unfold Slot.resumes
    rw [hcur]
    dsimp only
    rw [hst]
  · show u.cur.regs = _
    rw [hcur]
  · show u.cur.pc = _
    rw [hcur]
  · show u.cur.u = _
    rw [hcur]
  · have hnow' : (v.tally u.myTile 12 1).now = s.now := by
      unfold State.now
      rw [hv.pkg]
      exact hnow
    have hid' : (v.tally u.myTile 12 1).curId = s.curId := by rw [hv.curId]; exact hid
    rw [← hnow', ← hid']
    exact List.mem_append_right _ (List.mem_singleton.2 rfl)

/-- Whether the task of the slot in focus leaves it now. -/
def State.leavesNow (s : State) : Bool :=
  s.cur.leaving && (match s.cur.status with | .ready | .blocked _ => true | _ => false) && s.cur.level == .u && s.atBoundary &&
    !((List.range 64).any fun k => (s.slot (s.myTile * 64 + k)).status == .saving)

theorem exec_eviction_within (slot : Nat) (s : State) :
    exec (.eviction slot) s = .next (s.within slot fun s => if s.leavesNow then s.startSave else s) := rfl

section
variable {s : State}

theorem evicts (hleave : s.cur.leaving = true) (hst : s.cur.status = .ready) (hlevel : s.cur.level = .u) (hframe : s.cur.frame = none)
    (hhold : s.cur.hold = .none) (hspec : s.cur.spec = Spec.none) (hops : s.cur.ops = [])
    (hbusy : ∀ k, k < 64 → (s.slot (s.myTile * 64 + k)).status ≠ .saving) (hid : s.startSave.curId = s.curId) :
    exec (.eviction s.curId) s = .next s.startSave := by
  have hbound : s.atBoundary = true := by
    unfold State.atBoundary
    simp [hframe, hhold, hspec, hops, Spec.none]
  have hquiet : ((List.range 64).any fun k => (s.slot (s.myTile * 64 + k)).status == .saving) = false := by
    simpa [List.any_eq_false] using hbusy
  have hnow : s.leavesNow = true := by
    unfold State.leavesNow
    rw [hquiet, hbound, hleave, hlevel, hst]
    rfl
  rw [exec_eviction_within, State.within_self rfl (by rw [if_pos hnow]; exact hid), if_pos hnow]

theorem evicts_not (h : s.cur.leaving = false ∨ s.cur.level ≠ .u ∨ s.cur.frame ≠ none ∨ s.cur.spec.commit ≠ .none ∨
    ∃ k, k < 64 ∧ (s.slot (s.myTile * 64 + k)).status = .saving) : exec (.eviction s.curId) s = .next s := by
  have hnot : s.leavesNow = false := by
    unfold State.leavesNow State.atBoundary
    obtain h | h | h | h | ⟨k, hk, h⟩ := h
    · simp [h]
    · simp [h]
    · simp [h]
    · simp [h]
    · rw [Bool.and_eq_false_iff]
      exact Or.inr (by simpa using ⟨k, hk, h⟩)
  rw [exec_eviction_within, State.within_self rfl (by rw [if_neg (by simp [hnot])]), if_neg (by simp [hnot])]

end

/-! ### SAVE_COMPLETE (R23) -/

/-- The records of a tile with those of the saved placement complete. -/
def doneRecs (slot : Nat) (ctx : W32) (l : Map SaveRec) : Map SaveRec :=
  l.map fun e => (e.1, if e.2.from_ == slot && e.2.ctx == ctx then { e.2 with done := true } else e.2)

/-- What the writing of records leaves. -/
def OnlyMem (s t : State) : Prop := t = { s with mem := t.mem }

theorem OnlyMem.refl (s : State) : OnlyMem s s := rfl

theorem OnlyMem.trans {s t u : State} (h : OnlyMem s t) (h' : OnlyMem t u) : OnlyMem s u := by
  unfold OnlyMem at *
  rw [h', h]

theorem onlyMem_storeRec (s : State) (tile ix : Nat) (r : SaveRec) : OnlyMem s (s.storeRec tile ix r) := by
  unfold State.storeRec
  generalize Memory.writeN _ _ _ = m
  rfl

theorem storeRec_mem (s : State) (tile ix : Nat) (r : SaveRec) :
    (s.storeRec tile ix r).mem = s.mem.writeN (sramByte tile (0x3A8000 + 2560 * ix)) (r.slot.image r.line) := by
  rw [State.storeRec]

theorem onlyMem_storeRecs (s : State) (p : SaveRec → Bool) : OnlyMem s (s.storeRecs p) := by
  unfold State.storeRecs
  refine foldl_keeps OnlyMem.refl OnlyMem.trans (fun s e => foldl_keeps OnlyMem.refl OnlyMem.trans (fun s r => ?_) ..) ..
  split
  · exact onlyMem_storeRec ..
  · exact .refl s

theorem saveComplete_frees {s : State} (hst : s.cur.status = .saving) :
    let v := s.updTile s.myTile fun t => { t with recs := doneRecs s.curId s.cur.mc.ctxser t.recs }
    let w := v.storeRecs fun r => r.from_ == s.curId && r.ctx == s.cur.mc.ctxser
    ∃ t, exec (.saveComplete s.curId) s = .next t ∧ t = { w with cur := s.cur.freed, net := t.net } ∧ ∃ p ∈ t.net.pend, p.ev = .dispatch s.curId := by
  intro v w
  have hw : OnlyMem v w := onlyMem_storeRecs ..
  have hslot : s.slot s.curId = s.cur := if_pos rfl
  have hfree : w.updSlot s.curId Slot.freed = { w with cur := s.cur.freed } := by
    have hid : s.curId = w.curId := by rw [hw]; rfl
    have hcur : w.cur = s.cur := by rw [hw]; rfl
    rw [hid, State.updSlot_focus, State.updCur, hcur]
  refine ⟨(w.updSlot s.curId Slot.freed).afterOnce 1 (.dispatch s.curId), ?_, ?_, State.afterOnce_listed ..⟩
  · rw [exec_saveComplete, execSaveComplete, hslot, if_neg (by simp [hst])]
    rfl
  · rw [State.afterOnce_rest, hfree]

/-- The bytes of a record of the tile in focus, where it is the only one. -/
theorem storeRecs_single {s : State} {tile ix : Nat} {z : Tile} {q : SaveRec} {p : SaveRec → Bool} (ht : s.tiles = [(tile, z)]) (hz : z.recs = [(ix, q)])
    (hp : p q = true) : s.storeRecs p = s.storeRec tile ix q := by
  unfold State.storeRecs
  rw [ht]
  simp [hz, hp]

theorem flatMap_length_const {α β : Type} (l : List α) (f : α → List β) (k : Nat) (h : ∀ a ∈ l, (f a).length = k) : (l.flatMap f).length = l.length * k := by
  induction l with
  | nil => simp
  | cons a l ih =>
    rw [List.flatMap_cons, List.length_append, h a List.mem_cons_self, ih fun b hb => h b (List.mem_cons_of_mem _ hb), List.length_cons, Nat.succ_mul,
      Nat.add_comm]

theorem length_leBytes (n v : Nat) : (leBytes n v).length = n := by
  rw [leBytes_eq_bytesOfNat, bytesOfNat, List.length_map, List.length_range]

/-- A record takes 2560 bytes (Table 4.9). -/
theorem image_length (x : Slot) (line : Nat) : (x.image line).length = 2560 := by
  have hg : ((List.range 31).flatMap fun k => leBytes 8 (x.regs.g.getD (k + 1) 0).toNat).length = 248 := by
    rw [flatMap_length_const _ _ 8 fun _ _ => length_leBytes .., List.length_range]
  have hv : ((List.range 32).flatMap fun k => (x.regs.v.getD k (.replicate 16 0)).toList.flatMap fun e => leBytes 4 e.toNat).length = 2048 := by
    rw [flatMap_length_const _ _ 64 fun k _ => by rw [flatMap_length_const _ _ 4 fun _ _ => length_leBytes .., Vector.length_toList], List.length_range]
  have hp : ((List.range 7).flatMap fun k => leBytes 2 (x.regs.p.getD (k + 1) 0).toNat).length = 14 := by
    rw [flatMap_length_const _ _ 2 fun _ _ => length_leBytes .., List.length_range]
  have hs : (x.regs.shadow.toList.flatMap fun v => leBytes 8 v.toNat).length = 32 := by
    rw [flatMap_length_const _ _ 8 fun _ _ => length_leBytes .., Vector.length_toList]
  have hd : (x.u.dacc.toList.flatMap fun e => leBytes 4 e.toNat).length = 64 := by
    rw [flatMap_length_const _ _ 4 fun _ _ => length_leBytes .., Vector.length_toList]
  unfold Slot.image
  simp only [List.length_append, List.length_cons, length_leBytes, hg, hv, hp, hs, hd]

theorem Memory.read_writeN {m : Memory} (hm : m.wf = true) (k : Nat) (l : List Byte) (j : Nat) :
    (m.writeN k l).read j = if k ≤ j ∧ j < k + l.length then l.getD (j - k) 0 else m.read j := by
  induction l generalizing m k with
  | nil => exact (if_neg (by simp only [List.length_nil]; omega)).symm
  | cons b l ih =>
    rw [Memory.writeN, ih (Memory.wf_write k b hm) (k + 1), Memory.read_write hm, List.length_cons]
    by_cases hj : j = k
    · rw [if_neg (by omega), if_pos hj, if_pos (by omega), hj, Nat.sub_self, List.getD_cons_zero]
    · by_cases hin : k + 1 ≤ j ∧ j < k + 1 + l.length
      · obtain ⟨d, rfl⟩ := Nat.exists_eq_add_of_le hin.1
        rw [if_pos hin, if_pos (by omega), show k + 1 + d - k = d + 1 by omega, Nat.add_sub_cancel_left, List.getD_cons_succ]
      · rw [if_neg hin, if_neg hj, if_neg (by omega)]

/-- The end of a save. -/
theorem saveComplete_done {s : State} (hst : s.cur.status = .saving) :
    ∃ t, exec (.saveComplete s.curId) s = .next t ∧ t.attrs = s.attrs ∧ t.cur.status = .free ∧ t.cur.mc = s.cur.mc ∧
      (t.tile s.myTile).recs = doneRecs s.curId s.cur.mc.ctxser (s.tile s.myTile).recs ∧
      (∀ ix z q n, s.mem.wf = true → s.tiles = [(s.myTile, z)] → z.recs = [(ix, q)] → q.from_ = s.curId → q.ctx = s.cur.mc.ctxser → n < 2560 →
        t.mem.read (sramByte s.myTile (0x3A8000 + 2560 * ix) + n) = (q.slot.image q.line).getD n 0) ∧
      ∃ p ∈ t.net.pend, p.ev = .dispatch s.curId := by
  obtain ⟨t, hgo, hrest, hpend⟩ := saveComplete_frees hst
  have hw := onlyMem_storeRecs (s.updTile s.myTile fun t => { t with recs := doneRecs s.curId s.cur.mc.ctxser t.recs })
    fun r => r.from_ == s.curId && r.ctx == s.cur.mc.ctxser
  refine ⟨t, hgo, ?_, ?_, ?_, ?_, fun ix z q n hm ht hz hfrom hctx hn => ?_, hpend⟩
  · rw [hrest, hw]
    rfl
  · rw [hrest]
    rfl
  · rw [hrest]
    rfl
  · have htiles : t.tiles = (s.updTile s.myTile fun t => { t with recs := doneRecs s.curId s.cur.mc.ctxser t.recs }).tiles := by rw [hrest, hw]
    unfold State.tile
    rw [htiles]
    exact congrArg Tile.recs ((State.tile_updTile ..).trans (if_pos rfl))
  · have htile : s.tile s.myTile = z := by
      unfold State.tile
      rw [ht]
      exact if_pos rfl
    have htiles : (s.updTile s.myTile fun t => { t with recs := doneRecs s.curId s.cur.mc.ctxser t.recs }).tiles =
        [(s.myTile, { z with recs := doneRecs s.curId s.cur.mc.ctxser z.recs })] := by
      unfold State.updTile
      dsimp only
      rw [htile, ht, Map.set, if_neg (Nat.lt_irrefl _), if_pos rfl]
    have hrecs : doneRecs s.curId s.cur.mc.ctxser z.recs = [(ix, { q with done := true })] := by
      rw [hz]
      simp [doneRecs, hfrom, hctx]
    have hmem : t.mem = _ := (congrArg State.mem hrest).trans
      ((congrArg State.mem (storeRecs_single htiles hrecs (by simp [hfrom, hctx]))).trans (storeRec_mem ..))
    rw [hmem]
    dsimp only
    rw [Memory.read_writeN (m := (s.updTile s.myTile _).mem) hm, if_pos (by rw [image_length]; omega), Nat.add_sub_cancel_left]

end Sys2Proof.Machine
end


section
/-! PROOF. User events and the end of an ALIGN (R78, R364), and the statement on events of tasks. -/

namespace Sys2Proof.Machine

/-! ### USER_EVENT_DELIVERY (R78) -/

theorem dueEvent_first {x : Slot} {k : Nat} (hk : k < 3) (hen : x.u.uemask.getLsbD 0 = true) (hp : x.u.uepend.getLsbD k = true)
    (hm : x.u.uemask.getLsbD (k + 1) = true) (hlow : ∀ j, j < k → (x.u.uepend.getLsbD j && x.u.uemask.getLsbD (j + 1)) = false) :
    x.dueEvent = some k := by
  unfold Slot.dueEvent
  rw [if_pos hen, List.find?_range_eq_some]
  exact ⟨by rw [hp, hm]; rfl, List.mem_range.2 hk, fun j hj => by rw [hlow j hj]; rfl⟩

section
variable {s : State}

theorem userEvent_delivers {k : Nat} (hk : k < 3) (hat : s.cur.atUserEvent = true) (hh : s.pkg.halted = false) (hen : s.cur.u.uemask.getLsbD 0 = true)
    (hp : s.cur.u.uepend.getLsbD k = true) (hm : s.cur.u.uemask.getLsbD (k + 1) = true)
    (hlow : ∀ j, j < k → (s.cur.u.uepend.getLsbD j && s.cur.u.uemask.getLsbD (j + 1)) = false) :
    exec (.userEventDelivery s.curId) s = .next (s.updCur fun x => x.deliver k) := by
  have hact : s.userEvent = s.updCur fun x => x.deliver k := by
    unfold State.userEvent
    rw [dueEvent_first hk hen hp hm hlow]
    exact if_pos (by rw [hat, hh]; rfl)
  rw [exec_userEventDelivery, execUserEventDelivery, State.within_self rfl (by rw [hact]; rfl), hact]

theorem userEvent_waits (h : s.cur.level ≠ .u ∨ s.cur.u.active = true ∨ s.cur.frame ≠ none ∨ s.cur.ops ≠ []) :
    exec (.userEventDelivery s.curId) s = .next s := by
  have hat : s.cur.atUserEvent = false := by
    unfold Slot.atUserEvent
    obtain h | h | h | h := h <;> simp [h]
  have hact : s.userEvent = s := by
    unfold State.userEvent
    split
    · rfl
    · exact if_neg (by rw [hat, Bool.false_and]; decide)
  rw [exec_userEventDelivery, execUserEventDelivery, State.within_self rfl (by rw [hact]), hact]

end

/-! ### ALIGN_TIMEOUT (R364) -/

/-- A hold at an address is over. -/
def released (pc : Addr) (a : Option AlignHold) : Option AlignHold := a.bind fun o => if o.pc = pc then none else some o

theorem released_released (pc : Addr) (a : Option AlignHold) : released pc (released pc a) = released pc a := by
  cases a with
  | none => rfl
  | some o =>
    unfold released
    by_cases h : o.pc = pc <;> simp [h]

/-- The release of one core. -/
def State.releaseCore (s : State) (pc : Addr) (c : Nat) : State := if s.heldAtPc c pc then s.updCore c fun k => { k with align := none } else s

theorem releaseCore_rest (s : State) (pc : Addr) (c : Nat) : s.releaseCore pc c = { s with cores := (s.releaseCore pc c).cores } := by
  unfold State.releaseCore
  split <;> rfl

theorem releaseCore_align (s : State) (pc : Addr) (c k : Nat) :
    ((s.releaseCore pc c).core k).align = if k = c then released pc (s.core k).align else (s.core k).align := by
  unfold State.releaseCore State.heldAtPc
  cases ha : (s.core c).align with
  | none =>
    by_cases hk : k = c
    · subst hk
      simp [released, ha]
    · simp [hk]
  | some o =>
    by_cases hpc : o.pc = pc
    · rw [if_pos (by simpa using hpc), State.core_updCore]
      by_cases hk : k = c
      · subst hk
        simp [released, ha, hpc]
      · simp [hk]
    · rw [if_neg (by simpa using hpc)]
      by_cases hk : k = c
      · subst hk
        simp [released, ha, hpc]
      · simp [hk]

/-- The release of several cores. -/
theorem releaseCores_align (l : List Nat) (f : Nat → Nat) (pc : Addr) (s : State) :
    let t := l.foldl (fun s c => s.releaseCore pc (f c)) s
    t = { s with cores := t.cores } ∧ ∀ k, (t.core k).align = if k ∈ l.map f then released pc (s.core k).align else (s.core k).align := by
  induction l generalizing s with
  | nil => exact ⟨rfl, fun k => by simp⟩
  | cons c l ih =>
    obtain ⟨hrest, halign⟩ := ih (s.releaseCore pc (f c))
    refine ⟨?_, fun k => ?_⟩
    · rw [List.foldl_cons, hrest, releaseCore_rest]
    · rw [List.foldl_cons, halign, releaseCore_align]
      by_cases hk : k = f c <;> by_cases hl : k ∈ l.map f <;> simp [hk, hl, released_released]

theorem alignTimeout_releases {s : State} {core : Nat} {h : AlignHold} (ha : (s.core core).align = some h) :
    ∃ t, exec (.alignTimeout core h.since) s = .next t ∧ t = { s with cores := t.cores } ∧
      ∀ c, c / 8 = core / 8 → (t.core c).align = released h.pc (s.core c).align := by
  obtain ⟨hrest, halign⟩ := releaseCores_align (List.range 8) (fun c => core / 8 * 8 + c) h.pc s
  rw [exec_alignTimeout, execAlignTimeout, ha]
  refine ⟨_, if_pos rfl, hrest, fun c hc => (halign c).trans (if_pos (List.mem_map.2 ⟨c % 8, List.mem_range.2 (by omega), ?_⟩))⟩
  omega

/-- Settles O40, by the one item or record that the dispatcher finds, and by the frame of each step of a save. -/
theorem taskEvents : Obligations.TaskEvents := by
  intro s slot l
  dsimp only
  refine ⟨?_, ?_, ?_, ?_, ?_, ?_, ?_, userEvent_waits, ?_⟩
  · rintro wl w q ⟨hlaunch, hfits, hkept⟩ hp hrecs hmov hw hwl hlt hfinal hc hflags hcount
    obtain ⟨t, hgo, hq, hin, htask, hpre, hl⟩ := dispatch_places ⟨hlaunch, hfits, hkept⟩ hp hrecs hmov hw hwl hlt hfinal hc hflags hcount
    exact ⟨t, hgo, hq, hin.status, hin.level, hin.pc, hin.g, hin.v, hin.p, hin.u, hin.lkey, hin.serial, hin.ctxser, hin.asid, hin.piste,
      htask.1, htask.2.1, htask.2.2, hpre, hl⟩
  · rintro ix r ⟨hlaunch, hfits, hkept⟩ hrecs hmov hr hd hl hf
    obtain ⟨t, hgo, hq, ha, htask, hgone⟩ := refill_places ⟨hlaunch, hfits, hkept⟩ hrecs hmov hr hd hl hf
    exact ⟨t, hgo, hq, ⟨ha.status, ha.level, ha.pc, ha.regs, ha.u, ha.skip, ha.ctxser, ha.ops, ha.lkey, ha.asid, ha.piste, ha.rmask⟩, htask, hgone⟩
  · rintro m ⟨hlaunch, hfits, hkept⟩ hslot hmov htile hl hf
    obtain ⟨t, hgo, hq, ha, htask, hgone⟩ := migration_places ⟨hlaunch, hfits, hkept⟩ hslot hmov htile hl hf
    exact ⟨t, hgo, hq, ⟨ha.status, ha.level, ha.pc, ha.regs, ha.u, ha.skip, ha.ctxser, ha.ops, ha.lkey, ha.asid, ha.piste, ha.rmask⟩, htask, hgone⟩
  · rintro rfl hleave hst hlevel hframe hhold hspec hops hrsv hbusy hrecs
    obtain ⟨hq, hid, hsaved⟩ := startSave_saves hspec hops hrsv hst hrecs
    exact ⟨_, evicts hleave hst hlevel hframe hhold hspec hops hbusy hid, hq, hsaved⟩
  · rintro rfl h
    exact evicts_not h
  · rintro rfl hst
    exact saveComplete_done hst
  · rintro k rfl hk hat hh hen hp hm hlow
    exact ⟨_, userEvent_delivers hk hat hh hen hp hm hlow, rfl, rfl, rfl, rfl, rfl⟩
  · rintro core stamp h ha rfl
    exact alignTimeout_releases ha

end Sys2Proof.Machine
end


section
/-! PROOF. The matrix engine: a command is taken, fills its latch, starts, writes its rows and completes (R189, R196 to R198, R347, R348, R351). -/

namespace Sys2Proof.Machine

@[simp] theorem State.core_updTile (s : State) (t : Nat) (f : Tile → Tile) (c : Nat) : (s.updTile t f).core c = s.core c := rfl
@[simp] theorem State.tile_updCore (s : State) (c : Nat) (f : Core → Core) (t : Nat) : (s.updCore c f).tile t = s.tile t := rfl

@[simp] theorem State.core_after (s : State) (n : Nat) (e : Event) (c : Nat) : (s.after n e).core c = s.core c := rfl

@[simp] theorem State.core_updTask (s : State) (tid : W64) (f : Task → Task) (c : Nat) : (s.updTask tid f).core c = s.core c := rfl
@[simp] theorem State.task_updCur (s : State) (f : Slot → Slot) (tid : W64) : (s.updCur f).task tid = s.task tid := rfl

/-! ### Arbitration (R196) -/

/-- Only the place in the round of a tile, and other tiles' records, differ. -/
def OnlyRound (tile : Nat) (s t : State) : Prop :=
  t = { s with tiles := t.tiles } ∧ t.tile tile = { s.tile tile with mrr := (t.tile tile).mrr }

theorem OnlyRound.refl (tile : Nat) (s : State) : OnlyRound tile s s := ⟨rfl, rfl⟩

theorem onlyRound_settleRound (s : State) (tile : Nat) : OnlyRound tile s (s.settleRound tile) := by
  unfold State.settleRound
  dsimp only
  split
  · exact .refl tile s
  · refine ⟨rfl, ?_⟩
    rw [State.tile_updTile, if_pos rfl]

/-- Every queue of matrix commands at a tile is empty. -/
def State.noMatrix (s : State) (tile : Nat) : Prop := ∀ c, c < 8 → (s.core (tile * 8 + c)).q0 = []

theorem nextCore_none {s : State} {tile : Nat} (h : s.noMatrix tile) (c n : Nat) : s.nextCore tile c n = none := by
  unfold State.nextCore
  rw [List.find?_eq_none]
  intro e he
  obtain ⟨k, hk, rfl⟩ := List.mem_map.1 he
  obtain ⟨hk, -⟩ := List.mem_filter.1 hk
  simp [h k (List.mem_range.1 hk)]

theorem onlyRound_grant {s : State} {tile : Nat} (h : s.noMatrix tile) : OnlyRound tile s (s.grantMatrix tile) := by
  unfold State.grantMatrix
  dsimp only
  rw [nextCore_none h, nextCore_none h]
  split
  · exact .refl tile s
  · exact onlyRound_settleRound s tile

section
variable {s : State} {tile core : Nat} (hothers : ∀ c, c < 8 → c ≠ core → (s.core (tile * 8 + c)).q0 = [])
include hothers

theorem nextCore_only (c n : Nat) : s.nextCore tile c n = none ∨ ∃ m, s.nextCore tile c n = some (core, m) := by
  cases h : s.nextCore tile c n with
  | none => exact .inl rfl
  | some e =>
    have hgood := List.find?_some h
    obtain ⟨k, hk, rfl⟩ := List.mem_map.1 (List.mem_of_find?_eq_some h)
    obtain ⟨hk, -⟩ := List.mem_filter.1 hk
    have hkc : k = core := by
      by_contra hne
      simp [hothers k (List.mem_range.1 hk) hne] at hgood
    exact .inr ⟨_, by rw [hkc]⟩

theorem nextCore_served (hcore : core < 8) (hq : (s.core (tile * 8 + core)).q0 ≠ []) (c n : Nat) :
    ∃ m, (s.nextCore tile c n).or (s.nextCore tile 0 0) = some (core, m) := by
  obtain h | ⟨m, h⟩ := nextCore_only hothers c n
  · obtain h0 | ⟨m, h0⟩ := nextCore_only hothers 0 0
    · exfalso
      unfold State.nextCore at h0
      rw [List.find?_eq_none] at h0
      have hmem : (core, 0) ∈ ((List.range 8).filter fun k => decide (0 ≤ k)).map fun k => (k, if k = 0 then 0 else 0) :=
        List.mem_map.2 ⟨core, List.mem_filter.2 ⟨List.mem_range.2 hcore, by simp⟩, by simp⟩
      have := h0 _ hmem
      simp [hq, Tile.weight] at this
    · exact ⟨m, by rw [h, h0]; rfl⟩
  · exact ⟨m, by rw [h]; rfl⟩

end

/-- A command has been taken into the only latch of its tile. -/
structure Granted (s t : State) (tile k : Nat) (cmd : MCmd) : Prop where
  rest : t = { s with cores := t.cores, tiles := t.tiles }
  core : t.core k = { s.core k with q0 := [] }
  others : ∀ c, c ≠ k → t.core c = s.core c
  tile : t.tile tile = { s.tile tile with mrr := (t.tile tile).mrr, latches := [s.fillLatch k cmd] }

theorem granted_grant {s : State} {tile core : Nat} {cmd : MCmd} (hcore : core < 8)
    (hothers : ∀ c, c < 8 → c ≠ core → (s.core (tile * 8 + c)).q0 = []) (hl : (s.tile tile).latches = [])
    (hq : (s.core (tile * 8 + core)).q0 = [cmd])
    (hlines : (cmd.readLines.any fun l => (s.stored (tile * 8 + core)).contains l || s.rowWaits tile cmd.asid l false) = false) :
    Granted s (s.grantMatrix tile) tile (tile * 8 + core) cmd := by
  obtain ⟨m, hnext⟩ := nextCore_served hothers hcore (by rw [hq]; simp) (s.tile tile).mrr.1 (s.tile tile).mrr.2
  unfold State.grantMatrix
  dsimp only
  rw [if_neg (by simp [hl]), hnext]
  simp only [hq]
  rw [if_neg (by rw [hlines]; decide)]
  generalize hu : State.updTile (s.updCore (tile * 8 + core) fun k => { k with q0 := [] }) tile _ = u
  have hgu : Granted s u tile (tile * 8 + core) cmd := by
    rw [← hu]
    refine ⟨rfl, ?_, fun c hc => ?_, ?_⟩
    · rw [State.core_updTile, State.core_updCore, if_pos rfl]
    · rw [State.core_updTile, State.core_updCore, if_neg hc]
    · rw [State.tile_updTile, if_pos rfl, State.tile_updCore, hl, List.nil_append]
  obtain ⟨hrest, htile⟩ := onlyRound_settleRound u tile
  have hcores : (u.settleRound tile).cores = u.cores := by rw [hrest]
  refine ⟨?_, ?_, fun c hc => ?_, ?_⟩
  · rw [hrest, hgu.rest]
  · exact (congrArg (fun m => Map.getD Core.reset m (tile * 8 + core)) hcores).trans hgu.core
  · exact (congrArg (fun m => Map.getD Core.reset m c) hcores).trans (hgu.others c hc)
  · rw [htile, hgu.tile]

/-! ### A start (R196, R197) -/

/-- A command of a core joins those that have started. -/
def State.startRun (s : State) (core : Nat) (r : MRun) : State :=
  (s.updCore core fun k => { k with run0 := k.run0 ++ [r] }).after (r.done - s.now) (.matrixCommandComplete (core / 8) (core % 8))

@[simp] theorem State.core_startRun (s : State) (k : Nat) (r : MRun) (c : Nat) : (s.startRun k r).core c =
    if c = k then { s.core k with run0 := (s.core k).run0 ++ [r] } else s.core c :=
  State.core_updCore s k c fun k => { k with run0 := k.run0 ++ [r] }

/-- The engine's step has been made, and no command is left in the tile's queues. -/
structure EngineStepped (tile : Nat) (u t : State) : Prop where
  rest : t = { u with tiles := t.tiles, net := t.net }
  latches : t.tile tile = { u.tile tile with mrr := (t.tile tile).mrr }
  pend : u.net.pend ⊆ t.net.pend
  again : ∃ p ∈ t.net.pend, p.ev = .matrixCommandStart tile

theorem stepped_afterOnce (tile n : Nat) (s : State) : EngineStepped tile s (s.afterOnce n (.matrixCommandStart tile)) := by
  have hrest := State.afterOnce_rest s n (.matrixCommandStart tile)
  have htile : (s.afterOnce n (.matrixCommandStart tile)).tile tile = s.tile tile := by
    rw [hrest]
    rfl
  refine ⟨?_, by rw [htile], (State.afterOnce_pend ..).1.subset, State.afterOnce_listed ..⟩
  unfold State.afterOnce
  split <;> rfl

theorem EngineStepped.of_round {tile : Nat} {u v t : State} (h : OnlyRound tile u v) (ht : EngineStepped tile v t) : EngineStepped tile u t := by
  obtain ⟨hrest, htile⟩ := h
  refine ⟨by rw [ht.rest, hrest], by rw [ht.latches, htile], ?_, ht.again⟩
  have hnet : v.net = u.net := by rw [hrest]
  exact hnet ▸ ht.pend

theorem EngineStepped.core {tile : Nat} {u t : State} (h : EngineStepped tile u t) (c : Nat) : t.core c = u.core c := by
  rw [h.rest]
  rfl

theorem State.noMatrix.of_round {s t : State} {tile : Nat} (h : s.noMatrix tile) (hr : OnlyRound tile s t) : t.noMatrix tile := by
  intro c hc
  rw [hr.1]
  exact h c hc

/-- The step of the engine, from the state in which its latches have been seen to last. -/
theorem stepped_start {s u : State} {tile : Nat} (hu : ((s.feedMatrix tile).grantMatrix tile).feedMatrix tile = u) (hq : u.noMatrix tile)
    (hl : (u.tile tile).latches ≠ []) : ∃ t, exec (.matrixCommandStart tile) s = .next t ∧ EngineStepped tile u t := by
  rw [exec_matrixCommandStart, execMatrixCommandStart]
  dsimp only
  rw [hu]
  have hround := onlyRound_grant hq
  generalize u.grantMatrix tile = v at hround ⊢
  have hlv : (v.tile tile).latches.isEmpty = false := by
    rw [hround.2]
    simp [hl]
  rw [if_neg (by rw [hlv]; simp)]
  exact ⟨_, rfl, .of_round hround (stepped_afterOnce ..)⟩

theorem feedMatrix_busy {s : State} {tile : Nat} (h : s.now < (s.tile tile).mbusy) : s.feedMatrix tile = s := by
  unfold State.feedMatrix
  exact if_pos h

section
variable {s : State} {tile : Nat} (hb : (s.tile tile).mbusy ≤ s.now)
include hb

theorem feedMatrix_empty (hl : (s.tile tile).latches = []) : s.feedMatrix tile = s.updTile tile fun t => { t with latches := [] } := by
  unfold State.feedMatrix
  dsimp only
  rw [if_neg (by omega), hl]
  rfl

theorem feedMatrix_waits {l : MLatch} (hl : (s.tile tile).latches = [l]) (hon : l.on = false) (hr : s.now < l.ready) :
    s.feedMatrix tile = s.updTile tile fun t => { t with latches := [l] } := by
  unfold State.feedMatrix
  dsimp only
  rw [if_neg (by omega), hl, List.filter_cons_of_pos (by simp [hon]), List.filter_nil]
  exact if_pos hr

theorem feedMatrix_starts {l : MLatch} (hl : (s.tile tile).latches = [l]) (hon : l.on = false) (hr : l.ready ≤ s.now) :
    s.feedMatrix tile = ((s.updTile tile fun t => { t with latches := [l] }).startMatrix l).updTile tile fun t =>
      { t with latches := [{ l with on := true }], mbusy := s.now + l.cmd.op.occupancy } := by
  unfold State.feedMatrix
  dsimp only
  rw [if_neg (by omega), hl, List.filter_cons_of_pos (by simp [hon]), List.filter_nil]
  exact if_neg (Nat.not_lt.2 hr)

end

/-! ### What a start leaves of each operation -/

/-- The elements of an accumulator. -/
def Core.elems (c : Core) (n : Nat) : Vector W32 256 := (c.accs.getD n Acc.free).elems

/-- The accumulators of a core with the elements of one replaced. -/
def Core.accsWith (c : Core) (n : Nat) (e : Vector W32 256) : Vector Acc 8 := c.accs.setIfInBounds n { c.accs.getD n Acc.free with elems := e }

@[simp] theorem State.core_setAcc (s : State) (k n : Nat) (e : Vector W32 256) (c : Nat) :
    (s.setAcc k n e).core c = if c = k then { s.core k with accs := (s.core k).accsWith n e } else s.core c :=
  State.core_updCore ..

theorem elems_accsWith (c : Core) (m : PredNo) (e : Vector W32 256) (n : Nat) :
    ((c.accsWith m.toNat e).getD n Acc.free).elems = if n = m.toNat then e else c.elems n := by
  have hm : m.toNat < 8 := m.isLt
  unfold Core.accsWith
  rw [vget_set _ _ _ _ _ hm]
  split <;> rfl

theorem State.tally_rest (s : State) (tile c n : Nat) : s.tally tile c n = { s with tiles := (s.tally tile c n).tiles } := by
  unfold State.tally
  dsimp only
  split <;> rfl

@[simp] theorem State.core_tally (s : State) (tile c n k : Nat) : (s.tally tile c n).core k = s.core k := by
  rw [State.tally_rest]
  rfl

section
variable (s : State) {l : MLatch}

theorem startMatrix_poisoned (hp : l.poison = true) (ho : l.cmd.op = .mlda) :
    s.startMatrix l = s.startRun l.core ⟨l.cmd, [], l.poison, s.now + 4, 0, matrixStatus l.cmd 0 l.poison⟩ := by
  unfold State.startMatrix
  simp only [ho, hp]
  rfl

variable (hp : l.poison = false)
include hp

theorem startMatrix_mma {ty : MTy} {ix z tr : Bool} (ho : l.cmd.op = .mma ty ix z tr) :
    s.startMatrix l = ((s.tally (l.core / 8) 7 1).setAcc l.core l.cmd.md.toNat
        (l.cmd.product ty tr l.a l.b ((s.core l.core).elems l.cmd.md.toNat)).1).startRun l.core
      ⟨l.cmd, [], l.poison, s.now + 12, 0,
        matrixStatus l.cmd (l.cmd.product ty tr l.a l.b ((s.core l.core).elems l.cmd.md.toNat)).2 l.poison⟩ := by
  unfold State.startMatrix
  simp only [ho, hp]
  rfl

theorem startMatrix_mmov {a : PredNo} (ho : l.cmd.op = .mmov a) :
    s.startMatrix l = (s.setAcc l.core l.cmd.md.toNat ((s.core l.core).elems a.toNat)).startRun l.core
      ⟨l.cmd, [], l.poison, s.now + 1, 0, matrixStatus l.cmd 0 l.poison⟩ := by
  unfold State.startMatrix
  simp only [ho, hp]
  rfl

theorem startMatrix_mzero (ho : l.cmd.op = .mzero) :
    s.startMatrix l = (s.setAcc l.core l.cmd.md.toNat (.replicate 256 0)).startRun l.core
      ⟨l.cmd, [], l.poison, s.now + 1, 0, matrixStatus l.cmd 0 l.poison⟩ := by
  unfold State.startMatrix
  simp only [ho, hp]
  rfl

end

/-! ### The integer product (R347, R350) -/

theorem foldl_add_sum {α : Type} (f : α → Int) (l : List α) (a : Int) : l.foldl (fun sum e => sum + f e) a = a + (l.map f).sum := by
  induction l generalizing a with
  | nil => simp
  | cons e l ih => simp [ih, Int.add_assoc]

theorem getD_map_toInt (l : List Byte) (n : Nat) : (l.map BitVec.toInt).getD n 0 = (l.getD n 0).toInt := by
  rw [List.getD_eq_getElem?_getD, List.getElem?_map, List.getD_eq_getElem?_getD]
  cases l[n]? <;> rfl

theorem getD_map_rows (l : List (List Byte)) (n : Nat) : (l.map fun b => b.map BitVec.toInt).getD n [] = (l.getD n []).map BitVec.toInt := by
  rw [List.getD_eq_getElem?_getD, List.getElem?_map, List.getD_eq_getElem?_getD]
  cases l[n]? <;> rfl

theorem product_i8 {c : MCmd} {ix z tr : Bool} (ho : c.op = .mma .i8 ix z tr) (ha : fmtOf c.ga = 1) (hb : fmtOf c.gb = 1)
    (a b : List (List Byte)) (acc : Vector W32 256) {i j : Nat} (hi : i < 16) (hj : j < 16) :
    (c.product .i8 tr a b acc).1.getD (16 * i + j) 0 = BitVec.ofInt 32 ((if z then 0 else (acc.getD (16 * i + j) 0).toInt) +
      ((List.range 32).map fun k => ((a.getD i []).getD k 0).toInt *
        (if tr then (b.getD j []).getD k 0 else (b.getD k []).getD j 0).toInt).sum) := by
  unfold MCmd.product
  rw [if_pos (show MTy.i8.isInt = true from rfl), ha, hb, vget, dif_pos (by omega), Vector.getElem_ofFn]
  have hrow : (16 * i + j) / 16 = i := by omega
  have hcol : (16 * i + j) % 16 = j := by omega
  have hmap : ∀ m : List (List Byte), m.map (rowInts 1) = m.map fun b => b.map BitVec.toInt := fun m => rfl
  simp only [hrow, hcol, hmap, getD_map_rows, getD_map_toInt, foldl_add_sum, MCmd.columns, MOp.zeroes, ho, MTy.k, List.map_map]
  congr 3
  cases tr <;> rfl

/-! ### The step as a whole -/

/-- A latch has fed the engine: its command has joined those that have started. -/
structure Started (s t : State) (tile k : Nat) (l : MLatch) (r : MRun) (accs : Vector Acc 8) : Prop where
  quiet : t.mem = s.mem ∧ t.attrs = s.attrs
  cur : t.cur = s.cur
  busy : (t.tile tile).mbusy = s.now + l.cmd.op.occupancy
  latches : (t.tile tile).latches = [{ l with on := true }]
  core : t.core k = { s.core k with run0 := (s.core k).run0 ++ [r], accs := accs }
  pend : ⟨s.now + (r.done - s.now), .matrixCommandComplete (k / 8) (k % 8)⟩ ∈ t.net.pend

/-- `v` is the state with the accumulators and counters that the command has set, before it joins; `s` is the state from which its latch fed the engine. -/
theorem started_feed {s₀ s u u' v : State} {tile core : Nat} {l : MLatch} {r : MRun} {accs : Vector Acc 8}
    (hfeed : ((s₀.feedMatrix tile).grantMatrix tile).feedMatrix tile = u') (hround : OnlyRound tile u u')
    (hu : u = (v.startRun (tile * 8 + core) r).updTile tile fun t => { t with latches := [{ l with on := true }], mbusy := s.now + l.cmd.op.occupancy })
    (hv : v = { s with tiles := v.tiles, cores := v.cores }) (hq : u.noMatrix tile)
    (hk : v.core (tile * 8 + core) = { s.core (tile * 8 + core) with accs := accs }) :
    ∃ t, exec (.matrixCommandStart tile) s₀ = .next t ∧ Started s t tile (tile * 8 + core) l r accs := by
  have htile : u.tile tile = { v.tile tile with latches := [{ l with on := true }], mbusy := s.now + l.cmd.op.occupancy } := by
    rw [hu, State.tile_updTile, if_pos rfl]
    rfl
  obtain ⟨t, ht, hstep⟩ := stepped_start hfeed (hq.of_round hround) (by rw [hround.2, htile]; simp)
  have hstep := hstep.of_round hround
  have hpend : u.net.pend = v.net.pend ++ [⟨v.now + (r.done - v.now), .matrixCommandComplete ((tile * 8 + core) / 8) ((tile * 8 + core) % 8)⟩] := by
    rw [hu]
    rfl
  have hnow : v.now = s.now := by
    rw [hv]
    rfl
  have hcore : u.core (tile * 8 + core) = { v.core (tile * 8 + core) with run0 := (v.core (tile * 8 + core)).run0 ++ [r] } := by
    rw [hu, State.core_updTile, State.core_startRun, if_pos rfl]
  have hrest : u.mem = s.mem ∧ u.attrs = s.attrs ∧ u.cur = s.cur := by
    rw [hu, hv]
    exact ⟨rfl, rfl, rfl⟩
  obtain ⟨hmem, hattrs, hcur⟩ := hrest
  refine ⟨t, ht, ⟨by rw [hstep.rest]; exact hmem, by rw [hstep.rest]; exact hattrs⟩, by rw [hstep.rest]; exact hcur, ?_, ?_, ?_, ?_⟩
  · rw [hstep.latches, htile]
  · rw [hstep.latches, htile]
  · rw [hstep.core, hcore, hk]
  · refine hstep.pend ?_
    rw [hpend, hnow]
    exact List.mem_append_right _ (List.mem_singleton.2 rfl)

end Sys2Proof.Machine
end


section
/-! PROOF. What a matrix command's start and completion do (R189, R190, R196 to R198, R347, R348, R351). -/

namespace Sys2Proof.Machine

/-! ### A latch that is full (R197) -/

theorem occupancy_pos (op : MOp) : 0 < op.occupancy := by
  unfold MOp.occupancy
  split <;> decide

section
variable {s : State} {tile core : Nat} (hcore : core < 8) (hb : (s.tile tile).mbusy ≤ s.now)
  (hothers : ∀ c, c < 8 → c ≠ core → (s.core (tile * 8 + c)).q0 = [])
include hothers

theorem noMatrix_of_core {u : State} (hq : (u.core (tile * 8 + core)).q0 = []) (hc : ∀ c, c ≠ tile * 8 + core → u.core c = s.core c) :
    u.noMatrix tile := by
  intro c h8
  by_cases h : c = core
  · rw [h, hq]
  · rw [hc _ (by omega), hothers c h8 h]

include hb

theorem latch_starts {l : MLatch} (hl : (s.tile tile).latches = [l]) (hq : (s.core (tile * 8 + core)).q0 = []) (hon : l.on = false) (hr : l.ready ≤ s.now)
    {v : State} {r : MRun} {accs : Vector Acc 8}
    (hstart : (s.updTile tile fun t => { t with latches := [l] }).startMatrix l = v.startRun (tile * 8 + core) r)
    (hv : v = { s with tiles := v.tiles, cores := v.cores }) (hk : v.core (tile * 8 + core) = { s.core (tile * 8 + core) with accs := accs })
    (hrest : ∀ c, c ≠ tile * 8 + core → v.core c = s.core c) :
    ∃ t, exec (.matrixCommandStart tile) s = .next t ∧ Started s t tile (tile * 8 + core) l r accs := by
  have hfeed := feedMatrix_starts hb hl hon hr
  rw [hstart] at hfeed
  generalize hu : State.updTile (v.startRun (tile * 8 + core) r) tile _ = u at hfeed
  have hno : u.noMatrix tile := by
    refine noMatrix_of_core hothers ?_ fun c hc => ?_
    · rw [← hu, State.core_updTile, State.core_startRun, if_pos rfl, hk, hq]
    · rw [← hu, State.core_updTile, State.core_startRun, if_neg hc, hrest c hc]
  have hround := onlyRound_grant hno
  refine started_feed (u' := u.grantMatrix tile) ?_ hround hu.symm hv hno hk
  rw [hfeed]
  refine feedMatrix_busy ?_
  have hnow : (u.grantMatrix tile).now = s.now := by
    rw [hround.1, ← hu, hv]
    rfl
  have htile : (u.tile tile).mbusy = s.now + l.cmd.op.occupancy := by rw [← hu, State.tile_updTile, if_pos rfl]
  rw [hnow, hround.2, htile]
  have := occupancy_pos l.cmd.op
  omega

/-- A command that sets an accumulator. -/
theorem latch_sets {l : MLatch} (hl : (s.tile tile).latches = [l]) (hq : (s.core (tile * 8 + core)).q0 = []) (hon : l.on = false) (hr : l.ready ≤ s.now)
    (hc : l.core = tile * 8 + core) {n lat : Nat} {w : W64} {e : Vector W32 256}
    (hstart : ∀ u : State, u.core (tile * 8 + core) = s.core (tile * 8 + core) → u.now = s.now →
      ∃ v : State, (∀ c, v.core c = u.core c) ∧ v = { u with tiles := v.tiles } ∧
        u.startMatrix l = (v.setAcc l.core n e).startRun l.core ⟨l.cmd, [], l.poison, s.now + lat, 0, w⟩) :
    ∃ t, exec (.matrixCommandStart tile) s = .next t ∧ Started s t tile (tile * 8 + core) l ⟨l.cmd, [], l.poison, s.now + lat, 0, w⟩
      ((s.core (tile * 8 + core)).accsWith n e) := by
  obtain ⟨v, hcores, hrest, hgo⟩ := hstart (s.updTile tile fun t => { t with latches := [l] }) rfl rfl
  rw [hc] at hgo
  refine latch_starts hb hothers hl hq hon hr hgo ?_ ?_ fun c hne => ?_
  · rw [hrest]
    rfl
  · rw [State.core_setAcc, if_pos rfl, hcores]
    rfl
  · rw [State.core_setAcc, if_neg hne, hcores]
    rfl

end

/-- The status word of a command without flags (Table 8.5). -/
def MCmd.plainWord (c : MCmd) : W64 := BitVec.ofNat 64 (c.ser.toNat + c.md.toNat * 2 ^ 21)

theorem matrixStatus_plain (c : MCmd) : matrixStatus c 0 false = c.plainWord := by
  simp [matrixStatus, MCmd.plainWord]

theorem matrixStatus_poison (c : MCmd) : matrixStatus c 0 true = c.plainWord + 7 * 2 ^ 24 := by
  unfold matrixStatus MCmd.plainWord
  rw [if_pos rfl, show (0 : Flags).toNat * 2 ^ 16 = 0 from rfl, Nat.add_zero, BitVec.ofNat_add]
  rfl

theorem Started.shape {s t : State} {tile core lat : Nat} {l : MLatch} {w : W64} {accs : Vector Acc 8} (hcore : core < 8)
    (h : Started s t tile (tile * 8 + core) l ⟨l.cmd, [], l.poison, s.now + lat, 0, w⟩ accs) :
    (t.mem = s.mem ∧ t.attrs = s.attrs) ∧ (t.tile tile).mbusy = s.now + l.cmd.op.occupancy ∧ (t.tile tile).latches = [{ l with on := true }] ∧
      ∃ r, (t.core (tile * 8 + core)).run0 = (s.core (tile * 8 + core)).run0 ++ [r] ∧ r.cmd = l.cmd ∧ r.word = w ∧
        ⟨r.done, .matrixCommandComplete tile core⟩ ∈ t.net.pend := by
  refine ⟨h.quiet, h.busy, h.latches, _, by rw [h.core], rfl, rfl, ?_⟩
  have hp := h.pend
  have hdone : s.now + (s.now + lat - s.now) = s.now + lat := by omega
  have htile : (tile * 8 + core) / 8 = tile := by omega
  have hmod : (tile * 8 + core) % 8 = core := by omega
  rw [htile, hmod] at hp
  exact hdone ▸ hp

/-! ### What a full latch starts (R197, R347, R348, R351) -/

section
variable {s : State} {tile core : Nat} (hcore : core < 8)
  (hidle : (s.tile tile).mbusy ≤ s.now ∧ (s.tile tile).mrr.1 < 8 ∧ ∀ c, c < 8 → c ≠ core → (s.core (tile * 8 + c)).q0 = [])
  {l : MLatch} (hl : (s.tile tile).latches = [l]) (hq : (s.core (tile * 8 + core)).q0 = []) (hc : l.core = tile * 8 + core) (hon : l.on = false)
  (hr : l.ready ≤ s.now)
include hidle hl hq hc hon hr

theorem starts_mma {ix z tr : Bool} (hp : l.poison = false) (ho : l.cmd.op = .mma .i8 ix z tr) :
    ∃ t, exec (.matrixCommandStart tile) s = .next t ∧
      Started s t tile (tile * 8 + core) l ⟨l.cmd, [], l.poison, s.now + 12, 0, l.cmd.plainWord⟩ ((s.core (tile * 8 + core)).accsWith l.cmd.md.toNat
        (l.cmd.product .i8 tr l.a l.b ((s.core (tile * 8 + core)).elems l.cmd.md.toNat)).1) := by
  obtain ⟨hbusy, -, hothers⟩ := hidle
  refine latch_sets hbusy hothers hl hq hon hr hc fun u hu hnow => ⟨u.tally (l.core / 8) 7 1, fun c => State.core_tally .., State.tally_rest .., ?_⟩
  have hflags : (l.cmd.product .i8 tr l.a l.b ((s.core (tile * 8 + core)).elems l.cmd.md.toNat)).2 = 0 := by
    unfold MCmd.product
    rw [if_pos (show MTy.i8.isInt = true from rfl)]
  rw [startMatrix_mma u hp ho, hc, hu, hnow, hflags, hp, matrixStatus_plain]

theorem starts_mmov {a : PredNo} (hp : l.poison = false) (ho : l.cmd.op = .mmov a) :
    ∃ t, exec (.matrixCommandStart tile) s = .next t ∧
      Started s t tile (tile * 8 + core) l ⟨l.cmd, [], l.poison, s.now + 1, 0, l.cmd.plainWord⟩
        ((s.core (tile * 8 + core)).accsWith l.cmd.md.toNat ((s.core (tile * 8 + core)).elems a.toNat)) := by
  obtain ⟨hbusy, -, hothers⟩ := hidle
  refine latch_sets hbusy hothers hl hq hon hr hc fun u hu hnow => ⟨u, fun c => rfl, rfl, ?_⟩
  rw [startMatrix_mmov u hp ho, hc, hu, hnow, hp, matrixStatus_plain]

theorem starts_poisoned (hp : l.poison = true) (ho : l.cmd.op = .mlda) :
    ∃ t, exec (.matrixCommandStart tile) s = .next t ∧
      Started s t tile (tile * 8 + core) l ⟨l.cmd, [], l.poison, s.now + 4, 0, l.cmd.plainWord + 7 * 2 ^ 24⟩ (s.core (tile * 8 + core)).accs := by
  obtain ⟨hbusy, -, hothers⟩ := hidle
  have hgo := startMatrix_poisoned (s.updTile tile fun t => { t with latches := [l] }) hp ho
  rw [hc, hp, matrixStatus_poison] at hgo
  rw [hp]
  exact latch_starts hbusy hothers hl hq hon hr hgo rfl rfl fun c _ => rfl

include hcore

/-- A latch that is full starts its command, which is an integer product, a move, or a load that met poison. -/
theorem latch_fed :
    let k := tile * 8 + core
    let acc (t : State) (n : Nat) := ((t.core k).accs.getD n Acc.free).elems
    let started (w : W64) (n : Nat) (t : State) : Prop := (t.mem = s.mem ∧ t.attrs = s.attrs) ∧ (t.tile tile).mbusy = s.now + n ∧
      (t.tile tile).latches = [{ l with on := true }] ∧
      ∃ r, (t.core k).run0 = (s.core k).run0 ++ [r] ∧ r.cmd = l.cmd ∧ r.word = w ∧ ⟨r.done, .matrixCommandComplete tile core⟩ ∈ t.net.pend
    let plain : W64 := BitVec.ofNat 64 (l.cmd.ser.toNat + l.cmd.md.toNat * 2 ^ 21)
    (∀ ix z tr, l.poison = false → l.cmd.op = .mma .i8 ix z tr → fmtOf l.cmd.ga = 1 → fmtOf l.cmd.gb = 1 →
      ∃ t, exec (.matrixCommandStart tile) s = .next t ∧ started plain 2 t ∧ (∀ n, n ≠ l.cmd.md.toNat → acc t n = acc s n) ∧
        ∀ i j, i < 16 → j < 16 → (acc t l.cmd.md.toNat).getD (16 * i + j) 0 = BitVec.ofInt 32
          ((if z then 0 else ((acc s l.cmd.md.toNat).getD (16 * i + j) 0).toInt) + ((List.range 32).map fun c => ((l.a.getD i []).getD c 0).toInt *
            (if tr then (l.b.getD j []).getD c 0 else (l.b.getD c []).getD j 0).toInt).sum)) ∧
    (∀ a, l.poison = false → l.cmd.op = .mmov a → ∃ t, exec (.matrixCommandStart tile) s = .next t ∧ started plain 1 t ∧
      acc t l.cmd.md.toNat = acc s a.toNat) ∧
    (l.poison = true → l.cmd.op = .mlda → ∃ t, exec (.matrixCommandStart tile) s = .next t ∧ started (plain + 7 * 2 ^ 24) 4 t ∧
      (t.core k).accs = (s.core k).accs) := by
  dsimp only
  refine ⟨fun ix z tr hp ho ha hb => ?_, fun a hp ho => ?_, fun hp ho => ?_⟩
  · obtain ⟨t, ht, hs⟩ := starts_mma hidle hl hq hc hon hr hp ho
    refine ⟨t, ht, ?_, fun n hn => ?_, fun i j hi hj => ?_⟩
    · have h := hs.shape hcore
      rw [ho] at h
      exact h
    · rw [hs.core, elems_accsWith, if_neg hn]
      rfl
    · rw [hs.core, elems_accsWith, if_pos rfl]
      exact product_i8 ho ha hb _ _ _ hi hj
  · obtain ⟨t, ht, hs⟩ := starts_mmov hidle hl hq hc hon hr hp ho
    refine ⟨t, ht, ?_, ?_⟩
    · have h := hs.shape hcore
      rw [ho] at h
      exact h
    · rw [hs.core, elems_accsWith, if_pos rfl]
      rfl
  · obtain ⟨t, ht, hs⟩ := starts_poisoned hidle hl hq hc hon hr hp ho
    refine ⟨t, ht, ?_, by rw [hs.core]⟩
    have h := hs.shape hcore
    rw [ho] at h
    exact h

end

/-! ### A command taken from its queue (R196, R197) -/

theorem fillTime_pos {l : List Nat} (h : l ≠ []) : 0 < fillTime l := by
  unfold fillTime
  rw [if_neg (by simp [h])]
  exact Nat.lt_of_lt_of_le Nat.one_pos ((Nat.le_max_left 1 _).trans (Nat.le_max_left _ _))

section
variable {s : State} {tile core : Nat} (hcore : core < 8)
  (hidle : (s.tile tile).mbusy ≤ s.now ∧ (s.tile tile).mrr.1 < 8 ∧ ∀ c, c < 8 → c ≠ core → (s.core (tile * 8 + c)).q0 = [])
  {cmd : MCmd} (hl : (s.tile tile).latches = []) (hq : (s.core (tile * 8 + core)).q0 = [cmd])
include hcore hidle hl hq

/-- A command whose operand lines let it is taken. -/
theorem granted_start
    (hlines : ∀ n ∈ cmd.readLines, (s.core (tile * 8 + core)).run0 = [] ∧ s.rowWaits tile cmd.asid n false = false) :
    Granted s ((s.feedMatrix tile).grantMatrix tile) tile (tile * 8 + core) cmd := by
  obtain ⟨hbusy, -, hothers⟩ := hidle
  rw [feedMatrix_empty hbusy hl]
  generalize hu : (s.updTile tile fun t => { t with latches := [] }) = u
  have htile : u.tile tile = { s.tile tile with latches := [] } := by rw [← hu, State.tile_updTile, if_pos rfl]
  have hcores : ∀ c, u.core c = s.core c := fun c => by rw [← hu]; rfl
  have hnet : u.net = s.net := by rw [← hu]; rfl
  have hg : Granted u (u.grantMatrix tile) tile (tile * 8 + core) cmd := by
    refine granted_grant hcore (fun c h8 hne => by rw [hcores, hothers c h8 hne]) (by rw [htile]) (by rw [hcores, hq]) ?_
    rw [List.any_eq_false]
    intro n hn
    obtain ⟨hrun, hwait⟩ := hlines n hn
    have hk : (tile * 8 + core) / 8 = tile := by omega
    have hstored : u.stored (tile * 8 + core) = [] := by
      unfold State.stored
      rw [hcores, hrun, hk, htile]
      rfl
    have hrow : u.rowWaits tile cmd.asid n false = s.rowWaits tile cmd.asid n false := by
      unfold State.rowWaits State.lineWaits State.lossComing State.portAhead
      rw [hnet]
    rw [hstored, hrow, hwait]
    simp
  refine ⟨?_, by rw [hg.core, hcores], fun c hc => by rw [hg.others c hc, hcores], ?_⟩
  · rw [hg.rest, ← hu]
    rfl
  · rw [hg.tile, htile]
    have hfill : u.fillLatch (tile * 8 + core) cmd = s.fillLatch (tile * 8 + core) cmd := by
      rw [← hu]
      rfl
    rw [hfill]

theorem mzero_starts (ho : cmd.op = .mzero) :
    ∃ t, exec (.matrixCommandStart tile) s = .next t ∧ (t.mem = s.mem ∧ t.attrs = s.attrs) ∧ t.cur = s.cur ∧ (t.core (tile * 8 + core)).q0 = [] ∧
      ((t.core (tile * 8 + core)).accs.getD cmd.md.toNat Acc.free).elems = .replicate 256 0 ∧
      (∀ n, n ≠ cmd.md.toNat → ((t.core (tile * 8 + core)).accs.getD n Acc.free).elems = ((s.core (tile * 8 + core)).accs.getD n Acc.free).elems) ∧
      ⟨s.now + 1, .matrixCommandComplete tile core⟩ ∈ t.net.pend := by
  have hnone : cmd.readLines = [] := by
    unfold MCmd.readLines MCmd.rows MCmd.aRows MCmd.bRows MOp.shape
    rw [ho]
    rfl
  have hg := granted_start hcore hidle hl hq (by rw [hnone]; simp)
  obtain ⟨hbusy, -, hothers⟩ := hidle
  generalize hgt : (s.feedMatrix tile).grantMatrix tile = g at hg
  have hnow : g.now = s.now := by
    rw [hg.rest]
    rfl
  have hready : (s.fillLatch (tile * 8 + core) cmd).ready = s.now ∧ (s.fillLatch (tile * 8 + core) cmd).poison = false := by
    unfold State.fillLatch
    dsimp only
    rw [hnone]
    exact ⟨rfl, rfl⟩
  have hlatch : (g.tile tile).latches = [s.fillLatch (tile * 8 + core) cmd] := by rw [hg.tile]
  have hfeed := feedMatrix_starts (s := g) (by rw [hg.tile, hnow]; exact hbusy) hlatch rfl (by rw [hready.1, hnow])
  rw [startMatrix_mzero _ hready.2 ho] at hfeed
  generalize hv : State.setAcc (g.updTile tile _) _ _ _ = v at hfeed
  have hvk : v.core (tile * 8 + core) = { g.core (tile * 8 + core) with accs := (s.core (tile * 8 + core)).accsWith cmd.md.toNat (.replicate 256 0) } := by
    rw [← hv]
    refine (State.core_setAcc ..).trans ((if_pos rfl).trans ?_)
    rw [State.core_updTile]
    show ({ g.core (tile * 8 + core) with accs := (g.core (tile * 8 + core)).accsWith _ _ } : Core) = _
    rw [hg.core]
    rfl
  generalize hu : State.updTile (v.startRun _ _) tile _ = u at hfeed
  have hno : u.noMatrix tile := by
    refine noMatrix_of_core hothers ?_ fun c hc => ?_
    · rw [← hu, State.core_updTile]
      refine (congrArg Core.q0 ((State.core_startRun ..).trans (if_pos rfl))).trans ?_
      show (v.core (tile * 8 + core)).q0 = []
      rw [hvk, hg.core]
    · rw [← hu, State.core_updTile]
      refine ((State.core_startRun ..).trans (if_neg hc)).trans ?_
      rw [← hv]
      exact ((State.core_setAcc ..).trans (if_neg hc)).trans (hg.others c hc)
  obtain ⟨t, ht, hs⟩ := started_feed (s₀ := s) (s := g) (by rw [hgt, hfeed]) (OnlyRound.refl tile u) hu.symm (by rw [← hv]; rfl) hno hvk
  refine ⟨t, ht, ?_, ?_, ?_, ?_, fun n hn => ?_, ?_⟩
  · obtain ⟨hmem, hattrs⟩ := hs.quiet
    rw [hmem, hattrs, hg.rest]
    exact ⟨rfl, rfl⟩
  · rw [hs.cur, hg.rest]
  · rw [hs.core, hg.core]
  · rw [hs.core, elems_accsWith, if_pos rfl]
  · rw [hs.core, elems_accsWith, if_neg hn]
    rfl
  · have hp := hs.pend
    have hdone : g.now + (g.now + 1 - g.now) = s.now + 1 := by omega
    have htile : (tile * 8 + core) / 8 = tile := by omega
    have hmod : (tile * 8 + core) % 8 = core := by omega
    rw [htile, hmod] at hp
    exact hdone ▸ hp

theorem matrix_latched (hrun : (s.core (tile * 8 + core)).run0 = []) (hlines : cmd.readLines ≠ [])
    (hw : ∀ n ∈ cmd.readLines, s.rowWaits tile cmd.asid n false = false) :
    ∃ t, exec (.matrixCommandStart tile) s = .next t ∧ (t.mem = s.mem ∧ t.attrs = s.attrs) ∧ t.cur = s.cur ∧ (t.core (tile * 8 + core)).q0 = [] ∧
      (t.core (tile * 8 + core)).accs = (s.core (tile * 8 + core)).accs ∧
      (∃ l, (t.tile tile).latches = [l] ∧ l.core = tile * 8 + core ∧ l.cmd = cmd ∧ l.on = false ∧ l.ready = s.now + fillTime cmd.readLines ∧
        l.poison = cmd.readLines.any fun n => s.poisoned (64 + tile) n) ∧ ∃ p ∈ t.net.pend, p.ev = .matrixCommandStart tile := by
  have hg := granted_start hcore hidle hl hq fun n hn => ⟨hrun, hw n hn⟩
  obtain ⟨hbusy, -, hothers⟩ := hidle
  generalize hgt : (s.feedMatrix tile).grantMatrix tile = g at hg
  have hnow : g.now = s.now := by
    rw [hg.rest]
    rfl
  have hlatch : (g.tile tile).latches = [s.fillLatch (tile * 8 + core) cmd] := by rw [hg.tile]
  have hready : (s.fillLatch (tile * 8 + core) cmd).ready = s.now + fillTime cmd.readLines := rfl
  have hpos := fillTime_pos hlines
  have hfeed := feedMatrix_waits (s := g) (by rw [hg.tile, hnow]; exact hbusy) hlatch rfl (by rw [hready, hnow]; omega)
  generalize hu : State.updTile g tile _ = u at hfeed
  have hcores : ∀ c, u.core c = g.core c := fun c => by rw [← hu]; rfl
  have hulatch : (u.tile tile).latches = [s.fillLatch (tile * 8 + core) cmd] := by rw [← hu, State.tile_updTile, if_pos rfl]
  have hno : u.noMatrix tile := noMatrix_of_core hothers (by rw [hcores, hg.core]) fun c hc => by rw [hcores, hg.others c hc]
  obtain ⟨t, ht, hstep⟩ := stepped_start (s := s) (by rw [hgt, hfeed]) hno (by rw [hulatch]; simp)
  have hrest : t = { s with cores := t.cores, tiles := t.tiles, net := t.net } := by
    rw [hstep.rest, ← hu, hg.rest]
    rfl
  have hdiv : 64 + (tile * 8 + core) / 8 = 64 + tile := by omega
  refine ⟨t, ht, ?_, by rw [hrest], by rw [hstep.core, hcores, hg.core], by rw [hstep.core, hcores, hg.core],
    ⟨_, by rw [hstep.latches]; exact hulatch, rfl, rfl, rfl, rfl, ?_⟩, hstep.again⟩
  · rw [hrest]
    exact ⟨rfl, rfl⟩
  · show (cmd.readLines.any fun n => s.poisoned (64 + (tile * 8 + core) / 8) n) = _
    rw [hdiv]

end
/-! ### Writes of an engine to a slice -/

/-- What a write of an engine to a slice leaves of the state, apart from tables and messages. -/
structure EnginePut (s t : State) (u off n : Nat) (data : List Byte) : Prop where
  rest : t = { s with tiles := t.tiles, mem := t.mem, attrs := { s.attrs with poison := t.attrs.poison }, net := t.net }
  wrote : Wrote s t (sramByte u off) n (2 ^ n - 1) data

theorem enginePut_performWrite {s : State} (hm : s.mem.wf = true) {u off n ack : Nat} {data : List Byte} (hd : data.length = n) :
    EnginePut s (s.performWrite (64 + u) (off / 64) none ((2 ^ n - 1) * 2 ^ (off % 64)) (List.replicate (off % 64) 0 ++ data) ack none).2 u off n data := by
  rw [State.performWrite_slice]
  have hw := wrote_wroteLine hm u off (2 ^ n - 1) n data hd
  have hrest := State.wroteLine_rest s u (off / 64) ((2 ^ n - 1) * 2 ^ (off % 64)) (List.replicate (off % 64) 0 ++ data)
  generalize s.wroteLine u _ _ _ = w at hw hrest ⊢
  obtain ⟨hn, -⟩ := noticed_notify w u (off / 64) ack
  refine ⟨?_, fun a => by rw [hn.mem]; exact hw a⟩
  have hv := hn.only.rest
  have hattrs := hn.attrs
  generalize (w.notify (64 + u) (off / 64) ack none).2 = v at hv hattrs ⊢
  rw [hv, hattrs, hrest]

/-- A write of a whole line clears its poison (R109). -/
theorem poisoned_wroteLine (s : State) (u line : Nat) (data : List Byte) (ack : Nat) :
    (s.performWrite (64 + u) line none fullMask data ack none).2.poisoned (64 + u) line = false := by
  rw [State.performWrite_slice]
  unfold State.poisoned
  rw [(noticed_notify _ u line ack).1.attrs]
  unfold State.wroteLine
  dsimp only
  rw [if_pos (show fullMask % 2 ^ 64 = fullMask by decide)]
  unfold State.setPoison
  rw [NatSet.has_put, if_pos rfl]

/-! ### Completion (R189, R196, R198) -/

section
variable {s : State} {tile core : Nat} {r : MRun} (hrun : (s.core (tile * 8 + core)).run0 = [r]) (hdone : r.done ≤ s.now)
include hrun hdone

theorem matrix_stores {off : Nat} {data : List Byte} (hleft : r.left ≠ 0) (hline : r.lines[16 - r.left]? = some (off, data))
    (hw : s.rowWaits tile r.cmd.asid (off / 64) true = false) (hd : data.length = 64) (ho : off % 64 = 0) (hm : s.mem.wf = true) :
    ∃ t, exec (.matrixCommandComplete tile core) s = .next t ∧ Wrote s t (sramByte tile off) 64 (2 ^ 64 - 1) data ∧ t.attrs.full = s.attrs.full ∧
      t.poisoned (64 + tile) (off / 64) = false ∧ (t.core (tile * 8 + core)).run0 = [{ r with left := r.left - 1 }] ∧
      ⟨s.now + 1, .matrixCommandComplete tile core⟩ ∈ t.net.pend := by
  have hput : EnginePut s (s.storeRow tile (tile * 8 + core) r.cmd off data) tile off 64 data ∧
      (s.storeRow tile (tile * 8 + core) r.cmd off data).poisoned (64 + tile) (off / 64) = false := by
    have hbase := enginePut_performWrite (s := s.fresh.2) hm (u := tile) (off := off) (ack := s.net.nextId) hd
    have hmask : (2 ^ 64 - 1) * 2 ^ (off % 64) = fullMask := by
      rw [ho]
      rfl
    rw [hmask, ho, List.replicate_zero, List.nil_append] at hbase
    have hpois := poisoned_wroteLine s.fresh.2 tile (off / 64) data s.net.nextId
    unfold State.storeRow
    dsimp only [State.fresh] at hbase hpois ⊢
    generalize State.performWrite _ (64 + tile) (off / 64) none fullMask data _ none = w at hbase hpois
    split
    · exact ⟨⟨by rw [hbase.rest], hbase.wrote⟩, hpois⟩
    · exact ⟨⟨by rw [hbase.rest]; rfl, hbase.wrote⟩, hpois⟩
  rw [exec_matrixCommandComplete, execMatrixCommandComplete]
  dsimp only
  simp only [hrun, hline]
  rw [if_neg (by omega), if_pos hleft, hw]
  obtain ⟨hput, hpois⟩ := hput
  generalize s.storeRow tile _ _ off data = w at hput hpois ⊢
  refine ⟨_, rfl, hput.wrote, ?_, hpois, ?_, ?_⟩
  · show w.attrs.full = _
    rw [hput.rest]
  · rw [State.core_after, State.core_updCore, if_pos rfl]
  · have hnow : w.now = s.now := by
      rw [hput.rest]
      rfl
    rw [← hnow]
    exact List.mem_append_right _ (List.mem_singleton.2 rfl)

end

/-- The slot in focus with what a completion word does to it: a pop that waits for the queue may go on. -/
def Slot.wokenBy (x : Slot) (q : Nat) : Slot := if x.status == .blocked (.queue q) then { x with status := .ready } else x

theorem Slot.wokenBy_woken (x : Slot) (q : Nat) : (x.status = .blocked (.queue q) → (x.wokenBy q).status = .ready) ∧
    (x.status ≠ .blocked (.queue q) → (x.wokenBy q).status = x.status) := by
  unfold Slot.wokenBy
  exact ⟨fun h => by rw [if_pos (by rw [h]; simp)], fun h => by rw [if_neg (by simpa using h)]⟩

theorem Slot.wokenBy_same (x : Slot) (q : Nat) :
    (x.wokenBy q).regs = x.regs ∧ (x.wokenBy q).pc = x.pc ∧ (x.wokenBy q).u = x.u ∧ (x.wokenBy q).ops = x.ops := by
  unfold Slot.wokenBy
  split <;> exact ⟨rfl, rfl, rfl, rfl⟩

/-- A word that reaches a queue of the task in focus. -/
theorem State.pushWord_focus {s : State} {tid : W64} (hp : (s.task tid).place = .slot s.curId) (hx : s.cur.u.tid = tid) (q : Nat) (w : W64) :
    s.pushWord tid q w = (s.updTask tid fun t => t.setWords q (t.words q ++ [w])).updCur fun x => x.wokenBy q := by
  unfold State.pushWord
  rw [if_neg (by rw [hp]; simp)]
  have hplace : ((s.updTask tid fun t => t.setWords q (t.words q ++ [w])).task tid).place = .slot s.curId := by
    rw [State.task_updTask, if_pos rfl]
    unfold Task.setWords
    split
    · exact hp
    · split <;> exact hp
  rw [State.wakeTask_focus (s := s.updTask tid _) hplace]
  unfold State.updCur Slot.wokenBy
  simp [hx]

section
variable {s : State} {tile core : Nat} {r : MRun} (hrun : (s.core (tile * 8 + core)).run0 = [r]) (hdone : r.done ≤ s.now)
include hrun hdone

theorem matrix_completes (hleft : r.left = 0) (hreqs : s.net.reqs = []) (hmine : (s.task r.cmd.tid).place = .slot s.curId ∧ s.cur.u.tid = r.cmd.tid)
    (hops : s.cur.ops = []) :
    ∃ t, exec (.matrixCommandComplete tile core) s = .next t ∧ (t.mem = s.mem ∧ t.attrs = s.attrs) ∧ (t.core (tile * 8 + core)).run0 = [] ∧
      t.task r.cmd.tid = { s.task r.cmd.tid with q1 := (s.task r.cmd.tid).q1 ++ [r.word], out1 := (s.task r.cmd.tid).out1 - 1 } ∧
      t.cur = s.cur.wokenBy 1 := by
  obtain ⟨hplace, hx⟩ := hmine
  rw [exec_matrixCommandComplete, execMatrixCommandComplete]
  dsimp only
  simp only [hrun]
  rw [if_neg (by omega), if_neg (by omega), hreqs]
  refine ⟨_, rfl, ?_⟩
  unfold State.finishMatrix
  dsimp only
  rw [if_neg (by show ¬(s.task r.cmd.tid).place = _; rw [hplace]; simp)]
  generalize hu : State.updTask (s.updCore _ _) r.cmd.tid _ = u
  have htask : u.task r.cmd.tid = { s.task r.cmd.tid with out1 := (s.task r.cmd.tid).out1 - 1 } := by
    rw [← hu, State.task_updTask, if_pos rfl]
    rfl
  have hcore : (u.core (tile * 8 + core)).run0 = [] := by
    rw [← hu, State.core_updTask, State.core_updCore, if_pos rfl, hrun]
    rfl
  have hrest : u.curId = s.curId ∧ u.cur = s.cur ∧ u.mem = s.mem ∧ u.attrs = s.attrs := by
    rw [← hu]
    exact ⟨rfl, rfl, rfl, rfl⟩
  obtain ⟨hid, hcur, hmem, hattrs⟩ := hrest
  rw [State.pushWord_focus (by rw [htask, hid]; exact hplace) (by rw [hcur, hx])]
  generalize hv : State.updCur (u.updTask _ _) _ = v
  have hvtask : v.task r.cmd.tid = { u.task r.cmd.tid with q1 := (u.task r.cmd.tid).q1 ++ [r.word] } := by
    rw [← hv, State.task_updCur, State.task_updTask, if_pos rfl]
    rfl
  have hvcur : v.cur = s.cur.wokenBy 1 ∧ v.curId = s.curId ∧ v.core (tile * 8 + core) = u.core (tile * 8 + core) ∧ v.mem = s.mem ∧ v.attrs = s.attrs := by
    rw [← hv, ← hcur, ← hid, ← hmem, ← hattrs]
    exact ⟨rfl, rfl, rfl, rfl, rfl⟩
  obtain ⟨hvc, hvid, hvcore, hvmem, hvattrs⟩ := hvcur
  have hvplace : (v.task r.cmd.tid).place = .slot v.curId := by rw [hvtask, htask, hvid]; exact hplace
  have hidle : v.mwaitDone = v := by
    unfold State.mwaitDone
    split
    · rfl
    · have hnone : v.cur.ops = [] := by
        rw [hvc, (Slot.wokenBy_same s.cur 1).2.2.2, hops]
      rw [hnone]
      rfl
  rw [hvplace]
  dsimp only
  rw [State.within_self rfl (by rw [hidle, ite_self]), hidle, ite_self]
  exact ⟨⟨hvmem, hvattrs⟩, by rw [hvcore, hcore], by rw [hvtask, htask], hvc⟩

end
end Sys2Proof.Machine
end


section
/-! PROOF. Accesses of engines to the lines of a slice (R110, R113, R122, R135), and the ends of their commands (R63, R78, R207, R232). -/

namespace Sys2Proof.Machine

/-! ### Lines -/

/-- A line that an engine's access reaches in a slice, with nothing ahead of it at the tile's port. -/
def OnLine (s : State) (tile : Nat) (asid : BitVec 14) (va u off : Nat) (write : Bool) : Prop :=
  InSlice s tile asid va u off write ∧ s.portAhead tile asid (64 + u, off / 64) = false

theorem pieces_one {n va : Nat} (hn : 0 < n) (h : va % 64 + n ≤ 64) : pieces (n / 64 + 2) va n = [(va, n)] := by
  have hk : Nat.min n (64 - va % 64) = n := Nat.min_eq_left (by omega)
  rw [pieces, if_neg (by omega)]
  dsimp only
  rw [hk, Nat.sub_self, pieces, if_pos rfl]

theorem pieces_two {va : Nat} (ha : va % 64 = 0) : pieces (128 / 64 + 2) va 128 = [(va, 64), (va + 64, 64)] := by
  simp [pieces, ha, show (va + 64) % 64 = 0 by omega]

section
variable {s : State} {tile : Nat} {asid : BitVec 14} {va u off : Nat} {write : Bool}

theorem spot_slice (h : InSlice s tile asid va u off write) (whole : Bool) :
    s.spot tile asid va write whole = (.ok ⟨64 + u, off, none, false⟩, s) := by
  obtain ⟨hcls, hwin, hpois, -, hwait⟩ := h
  unfold State.spot State.spotRaw
  simp only [hcls, hwin, hpois, Bool.false_and, Bool.false_eq_true, if_false, hwait]

theorem linesAhead_slice {l : List (Nat × Nat)}
    (h : ∀ e ∈ l, ∃ u off, s.classify tile asid .s e.1 = .sram u off ∧ s.portAhead tile asid (64 + u, off / 64) = false) :
    s.linesAhead tile asid l = false := by
  unfold State.linesAhead
  rw [List.any_eq_false]
  intro e he
  obtain ⟨u, off, hcls, hport⟩ := h e he
  rw [hcls, show Cls.key (.sram u off) = (64 + u, off / 64) from rfl, hport]
  decide

theorem vread1_slice (h : InSlice s tile asid va u off false) {n : Nat} (hn : va % 64 + n ≤ 64) :
    s.vread1 tile asid va n = (.ok (seenBytes s u off n), s) := by
  have hoff : off % 64 + n ≤ 64 := by
    obtain ⟨-, -, -, hmod, -⟩ := h
    omega
  unfold State.vread1
  rw [spot_slice h]
  dsimp only
  rw [State.readHome_slice s hoff]

theorem engRead_slice (h : OnLine s tile asid va u off false) {n : Nat} (h0 : 0 < n) (hn : va % 64 + n ≤ 64) (hva : va + n ≤ 2 ^ 48) :
    s.engRead tile asid va n = (.ok (seenBytes s u off n), s) := by
  obtain ⟨hin, hport⟩ := h
  unfold State.engRead
  rw [if_neg (by omega), Int.toNat_natCast]
  dsimp only
  rw [pieces_one h0 hn, linesAhead_slice (by simpa using ⟨u, off, hin.1, hport⟩)]
  simp only [State.vreadL, vread1_slice hin hn, List.nil_append]
  rfl

theorem engRead_two (h : OnLine s tile asid va u off false) (h' : OnLine s tile asid (va + 64) u (off + 64) false) (ha : va % 64 = 0)
    (hva : va + 128 ≤ 2 ^ 48) : s.engRead tile asid va 128 = (.ok (seenBytes s u off 64 ++ seenBytes s u (off + 64) 64), s) := by
  obtain ⟨hin, hport⟩ := h
  obtain ⟨hin', hport'⟩ := h'
  unfold State.engRead
  rw [if_neg (by omega), Int.toNat_natCast]
  dsimp only
  rw [pieces_two ha, linesAhead_slice (by
    simp only [List.mem_cons, List.not_mem_nil, or_false, forall_eq_or_imp, forall_eq]
    exact ⟨⟨u, off, hin.1, hport⟩, u, off + 64, hin'.1, hport'⟩)]
  simp only [State.vreadL, vread1_slice hin (show va % 64 + 64 ≤ 64 by omega), vread1_slice hin' (show (va + 64) % 64 + 64 ≤ 64 by omega),
    List.nil_append]
  rfl

/-- A write of an engine to a line of a slice. -/
theorem engWrite_slice (h : OnLine s tile asid va u off true) {c : ECmd} (hc : c.asid = asid) {data : List Byte} {n : Nat} (hd : data.length = n)
    (h0 : 0 < n) (hn : va % 64 + n ≤ 64) (hva : va + n ≤ 2 ^ 48) (hm : s.mem.wf = true) (lane : Nat) :
    ∃ t, s.engWrite tile lane c va data = (.ok (), t) ∧ EnginePut s t u off n data := by
  obtain ⟨hin, hport⟩ := h
  have hpieces := pieces_one h0 hn
  subst hd hc
  unfold State.engWrite
  dsimp only
  rw [if_neg (by omega), Int.toNat_natCast, hpieces, linesAhead_slice (by simpa using ⟨u, off, hin.1, hport⟩), if_neg (by decide)]
  dsimp only [State.fresh]
  generalize hv : ({ s with net := { s.net with nextId := s.net.nextId + 1 } } : State) = v
  have hinv : InSlice v tile c.asid va u off true := by
    rw [← hv]
    exact hin
  have hmv : v.mem.wf = true := by rw [← hv]; exact hm
  have hput := enginePut_performWrite hmv (u := u) (off := off) (ack := s.net.nextId) (data := data) rfl
  have hbase : ∀ t, EnginePut v t u off data.length data → EnginePut s t u off data.length data := fun t ht =>
    ⟨by rw [ht.rest, ← hv], fun a => by rw [ht.wrote a, ← hv]⟩
  have hvw : v.vwrite tile c.asid va data s.net.nextId = (.ok (v.performWrite (64 + u) (off / 64) none ((2 ^ data.length - 1) * 2 ^ (off % 64))
      (List.replicate (off % 64) 0 ++ data) s.net.nextId none).1, (v.performWrite (64 + u) (off / 64) none ((2 ^ data.length - 1) * 2 ^ (off % 64))
      (List.replicate (off % 64) 0 ++ data) s.net.nextId none).2) := by
    unfold State.vwrite
    dsimp only
    rw [hpieces]
    simp only [State.blocker, State.vwriteL, State.vwrite1, spot_slice hinv, List.take_length, Nat.zero_add]
  rw [hvw]
  generalize v.performWrite (64 + u) (off / 64) none _ _ s.net.nextId none = r at hput
  refine ⟨_, rfl, hbase _ ?_⟩
  split
  · exact hput
  · exact ⟨by rw [hput.rest]; rfl, hput.wrote⟩

end

/-! ### The end of a command (R63, R78, R207, R232) -/

/-- A task whose command has completed with a word. -/
def Task.completed (t : Task) (q : Nat) (w : W64) : Task :=
  if q = 3 then { t with q3 := t.q3 ++ [w], out3 := t.out3 - 1 } else { t with q5 := t.q5 ++ [w], out5 := t.out5 - 1 }

/-- What the end of a command of the task in focus leaves. -/
structure Completed (s t : State) (tid : W64) (q kind : Nat) (event : Bool) (w : W64) : Prop where
  rest : t = { s with cur := t.cur, tasks := t.tasks }
  task : t.task tid = (s.task tid).completed q w
  same : t.cur.regs = s.cur.regs ∧ t.cur.pc = s.cur.pc ∧ t.cur.u.fflags = s.cur.u.fflags
  woken : (s.cur.status = .blocked (.queue q) → t.cur.status = .ready) ∧ (s.cur.status ≠ .blocked (.queue q) → t.cur.status = s.cur.status)
  bell : event = true → t.cur.u.uepend.getLsbD kind = true
  still : event = false → t.cur.u.uepend = s.cur.u.uepend

theorem Slot.addDelay_rest (x : Slot) (now cls delay : Nat) : x.addDelay now cls delay = { x with u := { x.u with dacc := (x.addDelay now cls delay).u.dacc } } := by
  unfold Slot.addDelay
  dsimp only
  split <;> rfl

theorem Slot.latch_rest (x : Slot) (kind : Nat) (tag : W32) :
    x.latch kind tag = { x with u := { x.u with uepend := (x.latch kind tag).u.uepend, uetags := (x.latch kind tag).u.uetags } } := by
  unfold Slot.latch
  split <;> rfl

theorem Slot.latch_pends (x : Slot) {kind : Nat} (hk : kind < 3) (tag : W32) : (x.latch kind tag).u.uepend.getLsbD kind = true := by
  unfold Slot.latch
  split
  · assumption
  · show (x.u.uepend ||| BitVec.ofNat 3 (2 ^ kind)).getLsbD kind = true
    have hbit : (BitVec.ofNat 3 (2 ^ kind)).getLsbD kind = true := by
      interval_cases kind <;> decide
    rw [BitVec.getLsbD_or, hbit, Bool.or_true]

theorem completed_completeCmd {s : State} {c : ECmd} {q kind : Nat} (hmine : (s.task c.tid).place = .slot s.curId ∧ s.cur.u.tid = c.tid)
    (hq : q = 3 ∨ q = 5) (hk : kind < 3) (cls : Nat) (tag : W32) (status : Nat) (fl : Flags) (event : Bool) :
    Completed s (s.completeCmd c q kind cls tag status fl event) c.tid q kind event (completionWord tag status fl) := by
  obtain ⟨hp, hx⟩ := hmine
  unfold State.completeCmd
  dsimp only
  rw [if_neg (by rw [hp]; simp)]
  generalize hu : s.updTask c.tid _ = u
  have hutask : u.task c.tid = if q = 3 then { s.task c.tid with out3 := (s.task c.tid).out3 - 1 } else { s.task c.tid with out5 := (s.task c.tid).out5 - 1 } := by
    rw [← hu, State.task_updTask, if_pos rfl]
  have hurest : u = { s with tasks := u.tasks } := by
    rw [← hu]
    rfl
  have huplace : (u.task c.tid).place = .slot u.curId := by
    rw [hutask, hurest]
    split <;> exact hp
  have hucur : u.cur = s.cur := by rw [hurest]
  rw [State.updHolder_focus huplace]
  generalize hv : u.updCur _ = v
  have hvcur : v.cur = s.cur.addDelay u.now cls (u.now - c.issued) := by
    rw [← hv]
    show (if u.cur.u.tid == c.tid then _ else _) = _
    rw [hucur, if_pos (by rw [hx]; simp)]
  have hvtask : v.task c.tid = u.task c.tid := by
    rw [← hv]
    rfl
  have hvrest : v = { s with cur := v.cur, tasks := v.tasks } := by
    rw [← hv, hurest]
    rfl
  have hvid : v.curId = u.curId := by
    rw [← hv]
    rfl
  have hdelay := Slot.addDelay_rest s.cur u.now cls (u.now - c.issued)
  rw [← hvcur] at hdelay
  have hvtid : v.cur.u.tid = c.tid := by
    rw [hdelay]
    exact hx
  rw [State.pushWord_focus (by rw [hvtask, hvid]; exact huplace) hvtid]
  generalize hw : State.updCur (v.updTask _ _) _ = w
  have hwcur : w.cur = v.cur.wokenBy q := by
    rw [← hw]
    rfl
  have hwtask : w.task c.tid = (s.task c.tid).completed q (completionWord tag status fl) := by
    rw [← hw, State.task_updCur, State.task_updTask, if_pos rfl, hvtask, hutask]
    unfold Task.completed
    obtain rfl | rfl := hq <;> rfl
  have hwrest : w = { s with cur := w.cur, tasks := w.tasks } := by
    rw [← hw, hvrest]
    rfl
  have hwid : w.curId = s.curId := by rw [hwrest]
  obtain ⟨hregs, hpc, hwu, -⟩ := Slot.wokenBy_same v.cur q
  have hstatus := Slot.wokenBy_woken v.cur q
  have hvs : v.cur.status = s.cur.status := by rw [hdelay]
  rw [← hwcur] at hregs hpc hwu hstatus
  rw [hvs] at hstatus
  have hbase : (w.cur.regs = s.cur.regs ∧ w.cur.pc = s.cur.pc ∧ w.cur.u.fflags = s.cur.u.fflags) ∧ w.cur.u.uepend = s.cur.u.uepend := by
    rw [hregs, hpc, hwu, hdelay]
    exact ⟨⟨rfl, rfl, rfl⟩, rfl⟩
  obtain ⟨hsame, hpend⟩ := hbase
  cases event with
  | false => exact ⟨hwrest, hwtask, hsame, hstatus, (fun h => nomatch h), fun _ => hpend⟩
  | true =>
    rw [if_pos rfl, State.updHolder_focus (by
      rw [hwtask, hwid]
      unfold Task.completed
      split <;> exact hp)]
    have hbell : (if w.cur.u.tid == c.tid then w.cur.latch kind tag else w.cur) = w.cur.latch kind tag := if_pos (by rw [hwu, hvtid]; simp)
    have hlatch := Slot.latch_rest w.cur kind tag
    have hpends := Slot.latch_pends w.cur hk tag
    unfold State.updCur
    dsimp only
    rw [hbell]
    generalize w.cur.latch kind tag = y at hlatch hpends
    refine ⟨?_, hwtask, ?_, ?_, fun _ => hpends, (fun h => nomatch h)⟩
    · rw [hwrest]
    · rw [hlatch]
      exact hsame
    · rw [hlatch]
      exact hstatus

end Sys2Proof.Machine
end


section
/-! PROOF. The copy engine: a command reads its descriptor and starts, makes a transfer, and completes (R126, R189, R201 to R207). -/

namespace Sys2Proof.Machine

/-! ### A core's turn (R201) -/

/-- Two states in which an engine's accesses meet the same windows, lines and bytes. -/
structure SameView (s t : State) : Prop where
  windows : ∀ k, (t.tile k).windows = (s.tile k).windows
  userTop : ∀ k, (t.tile k).userTop = (s.tile k).userTop
  pkg : t.pkg = s.pkg
  mem : t.mem = s.mem
  attrs : t.attrs = s.attrs
  net : t.net = s.net

section
variable {s t : State} (h : SameView s t)
include h

theorem SameView.classify (tile : Nat) (asid : BitVec 14) (l : Level) (va : Nat) : t.classify tile asid l va = s.classify tile asid l va := by
  unfold State.classify State.window?
  rw [h.windows, h.pkg]

theorem SameView.onLine {tile : Nat} {asid : BitVec 14} {va u off : Nat} {write : Bool} (hl : OnLine s tile asid va u off write) :
    OnLine t tile asid va u off write := by
  unfold OnLine InSlice State.windowFault State.window? State.poisoned State.lineWaits State.lossComing State.portAhead at *
  rw [h.classify, h.windows, h.userTop, h.attrs, h.net]
  exact hl

theorem SameView.seenBytes (u off n : Nat) : seenBytes t u off n = seenBytes s u off n := by
  unfold Machine.seenBytes
  rw [h.attrs, h.mem]

end

theorem sameView_passCopy (s : State) (k : Nat) : SameView s (s.passCopy k) := by
  have htile : ∀ j, (s.passCopy k).tile j = if j = k / 8 then { s.tile (k / 8) with crr := (k + 1) % 8 } else s.tile j := fun j =>
    State.tile_updTile ..
  refine ⟨fun j => ?_, fun j => ?_, rfl, rfl, rfl, rfl⟩
  · rw [htile]
    split
    · rename_i hj
      rw [hj]
    · rfl
  · rw [htile]
    split
    · rename_i hj
      rw [hj]
    · rfl

/-! ### Running copies -/

/-- The running copy of a core is replaced, and goes on in the next cycle. -/
theorem copy_goesOn {s v : State} {tile core : Nat} (hcore : core < 8) {q : List ECmd} (hv : v = { s with tiles := v.tiles, cores := v.cores })
    (hk : v.core (tile * 8 + core) = { s.core (tile * 8 + core) with q2 := q }) (r : CopyRun) :
    let t := (v.setCopy (tile * 8 + core) r).copyOn (tile * 8 + core) 1
    (t.mem = s.mem ∧ t.attrs = s.attrs) ∧ t.cur = s.cur ∧ t.core (tile * 8 + core) = { s.core (tile * 8 + core) with q2 := q, run2 := some r } ∧
      ∃ p ∈ t.net.pend, p.ev = .copyCommandComplete tile core := by
  have htile : (tile * 8 + core) / 8 = tile := by omega
  have hmod : (tile * 8 + core) % 8 = core := by omega
  dsimp only
  unfold State.copyOn
  rw [htile, hmod]
  have hlisted := State.afterOnce_listed (v.setCopy (tile * 8 + core) r) 1 (.copyCommandComplete tile core)
  have hrest := State.afterOnce_rest (v.setCopy (tile * 8 + core) r) 1 (.copyCommandComplete tile core)
  generalize (v.setCopy _ r).afterOnce 1 _ = t at hlisted hrest ⊢
  have hcoreT : t.core (tile * 8 + core) = (v.setCopy (tile * 8 + core) r).core (tile * 8 + core) := by
    rw [hrest]
    rfl
  refine ⟨?_, ?_, ?_, hlisted⟩
  · rw [hrest, hv]
    exact ⟨rfl, rfl⟩
  · rw [hrest, hv]
    rfl
  · rw [hcoreT, State.setCopy, State.core_updCore, if_pos rfl, hk]

/-- The command is taken from its queue, and runs. -/
def CopyRuns (s : State) (tile core : Nat) (rest : List ECmd) (r : CopyRun) : Prop :=
  ∃ t, exec (.copyCommandStart tile core) s = .next t ∧ (t.mem = s.mem ∧ t.attrs = s.attrs) ∧ t.cur = s.cur ∧
    t.core (tile * 8 + core) = { s.core (tile * 8 + core) with q2 := rest, run2 := some r } ∧ ∃ p ∈ t.net.pend, p.ev = .copyCommandComplete tile core

/-- What a command whose turn it is comes to, from the state in which it has been taken. -/
theorem copyRuns_of_exec {s : State} {tile core : Nat} (hcore : core < 8) {rest : List ECmd} {r : CopyRun} (h : exec (.copyCommandStart tile core) s =
    .next (((((s.passCopy (tile * 8 + core)).updCore (tile * 8 + core) fun k => { k with q2 := rest })).setCopy (tile * 8 + core) r).copyOn (tile * 8 + core) 1)) :
    CopyRuns s tile core rest r := by
  refine ⟨_, h, copy_goesOn hcore (q := rest) rfl ?_ r⟩
  rw [State.core_updCore, if_pos rfl]
  rfl

section
variable {s : State} {tile core : Nat} (hcore : core < 8) {c : ECmd} {rest : List ECmd} (hrun : (s.core (tile * 8 + core)).run2 = none)
  (hq : (s.core (tile * 8 + core)).q2 = c :: rest)
include hrun hq

theorem copyStart_waits (ht : s.copyTurn tile ≠ some core) : ∃ t, exec (.copyCommandStart tile core) s = .next t ∧ t = { s with net := t.net } ∧
    ∃ p ∈ t.net.pend, p.ev = .copyCommandStart tile core := by
  rw [exec_copyCommandStart, execCopyCommandStart]
  dsimp only
  simp only [hrun, hq]
  rw [if_pos (by simpa using ht)]
  exact ⟨_, rfl, State.afterOnce_rest .., State.afterOnce_listed ..⟩

include hcore

variable (ht : s.copyTurn tile = some core)
include ht

theorem copyStart_badPointer (h : c.desc.extractLsb' 48 4 ≠ 0 ∨ 2 ^ 48 < vaOf c.desc + 128) :
    CopyRuns s tile core rest ⟨c, [], 0, none, none, 0, 2, 0, .none, true⟩ := by
  refine copyRuns_of_exec hcore ?_
  rw [exec_copyCommandStart, execCopyCommandStart]
  dsimp only
  simp only [hrun, hq]
  rw [if_neg (by simpa using ht)]
  by_cases h4 : c.desc.extractLsb' 48 4 ≠ 0
  · exact if_pos h4
  · exact (if_neg h4).trans (if_pos (h.resolve_left h4))

theorem copyStart_misaligned (h4 : c.desc.extractLsb' 48 4 = 0) (hva : vaOf c.desc + 128 ≤ 2 ^ 48) (ha : vaOf c.desc % 64 ≠ 0) :
    CopyRuns s tile core rest ⟨c, [], 0, none, none, 0, 4, 0, .none, true⟩ := by
  refine copyRuns_of_exec hcore ?_
  rw [exec_copyCommandStart, execCopyCommandStart]
  dsimp only
  simp only [hrun, hq]
  rw [if_neg (by simpa using ht)]
  exact (if_neg (by simpa using h4)).trans ((if_neg (by omega)).trans (if_pos ha))

/-- A descriptor without an acquire is used as it is read. -/
theorem copyStart_reads {u off : Nat} {d : List Byte} (h4 : c.desc.extractLsb' 48 4 = 0) (ha : vaOf c.desc % 64 = 0) (hva : vaOf c.desc + 128 ≤ 2 ^ 48)
    (hl : OnLine s tile c.asid (vaOf c.desc) u off false) (hl' : OnLine s tile c.asid (vaOf c.desc + 64) u (off + 64) false)
    (hd : d = seenBytes s u off 64 ++ seenBytes s u (off + 64) 64) (hacq : (CopyPlan.of d).acq = false)
    {sram : Bool} (hsram : sram = true ↔ ∃ w o, s.classify tile c.asid .s (vaOf (CopyPlan.of d).dst) = .sram w o) :
    let st := ((CopyPlan.of d).refusal sram).getD 0
    CopyRuns s tile core rest ⟨c, d, 0, none, none, 0, st, 0, .none, st != 0⟩ := by
  dsimp only
  refine copyRuns_of_exec hcore ?_
  have hview := sameView_passCopy s (tile * 8 + core)
  have htile : (tile * 8 + core) / 8 = tile := by omega
  rw [exec_copyCommandStart, execCopyCommandStart]
  dsimp only
  simp only [hrun, hq]
  rw [if_neg (by simpa using ht), if_neg (by simpa using h4), if_neg (by omega), if_neg (by omega),
    engRead_two (hview.onLine hl) (hview.onLine hl') ha hva, hview.seenBytes, hview.seenBytes, ← hd]
  dsimp only
  have hacquired : (s.passCopy (tile * 8 + core)).copyAcquired c d = true := by
    unfold State.copyAcquired
    dsimp only
    rw [hacq]
    split <;> rfl
  rw [if_pos hacquired]
  unfold State.startCopy
  dsimp only
  rw [htile]
  have hcls : State.classify ((s.passCopy (tile * 8 + core)).updCore (tile * 8 + core) fun k => { k with q2 := rest }) tile c.asid .s
      (vaOf (CopyPlan.of d).dst) = s.classify tile c.asid .s (vaOf (CopyPlan.of d).dst) := hview.classify ..
  rw [hcls]
  cases hc : s.classify tile c.asid .s (vaOf (CopyPlan.of d).dst) with
  | sram w o =>
    obtain rfl := hsram.2 ⟨w, o, hc⟩
    rfl
  | hbm va =>
    obtain rfl : sram = false := by simpa [hc] using hsram
    rfl
  | pod p a =>
    obtain rfl : sram = false := by simpa [hc] using hsram
    rfl
  | control o =>
    obtain rfl : sram = false := by simpa [hc] using hsram
    rfl

end

/-! ### A transfer (R201, R203) -/

theorem spanFault_one {al va n : Nat} (hva : va + n ≤ 2 ^ 48) (ha : va % al = 0) : spanFault al [((va : Int), n)] = none := by
  unfold spanFault
  have hmod : (va : Int) % (al : Int) = 0 := by exact_mod_cast ha
  rw [List.findSome?_cons]
  dsimp only
  rw [if_neg (by omega), if_neg (by simpa using hmod)]
  rfl

section
variable {s : State} {tile core : Nat} (hcore : core < 8) {r : CopyRun} {p : CopyPlan} (hsame : p.same = true) (hsingle : p.single = false)
include hcore hsame hsingle

/-- The bytes of a transfer between sides of one format are written as they were read. -/
theorem putUnit_slice {raw : List Byte} {vb v o n : Nat} (hraw : raw.length = n) (hm : s.mem.wf = true) (h0 : 0 < n) (hn : vb % 64 + n ≤ 64)
    (hvb : vb + n ≤ 2 ^ 48) (ha : vb % p.dstAlign = 0) (hw : p.writeRun r.unit r.units r.idx = [((vb : Int), n)])
    (hl : OnLine s tile r.cmd.asid vb v o true) :
    ∃ w, s.putUnit (tile * 8 + core) r p raw = w.nextUnit (tile * 8 + core) r p n 0 ∧ EnginePut s w v o n raw := by
  have htile : (tile * 8 + core) / 8 = tile := by omega
  have htake : raw.take n = raw := by rw [← hraw, List.take_length]
  obtain ⟨w, hput, hw'⟩ := engWrite_slice hl (c := r.cmd) rfl hraw h0 hn hvb hm (200 + (tile * 8 + core) % 8)
  refine ⟨w, ?_, hw'⟩
  have hdata : s.copyData (tile * 8 + core) r p raw [((vb : Int), n)] = (.ok (raw, 0), s) := by
    unfold State.copyData
    dsimp only
    rw [hsingle, CopyPlan.convert, hsame]
    rfl
  unfold State.putUnit
  dsimp only
  rw [hw, spanFault_one hvb ha]
  dsimp only
  rw [hdata]
  dsimp only
  rw [State.writeSpans, htile, htake, hput]
  rfl

/-- A transfer between two lines of slices. -/
theorem copyUnit_slice {va vb u off v o n m : Nat} (hm : s.mem.wf = true) (hmode : p.mode = 0) (hdata : r.data = none) (hidx : r.idx = none)
    (hhere : ∀ q a, s.classify tile r.cmd.asid .s ((p.reads r.unit none).headD (0, 0)).1.toNat ≠ .pod q a)
    (hhere' : ∀ q a, s.classify tile r.cmd.asid .s ((p.writes r.unit none).headD (0, 0)).1.toNat ≠ .pod q a)
    (hmr : m = p.runLen r.unit none false false) (hrd : p.readRun r.unit m none = [((va : Int), n)]) (hwr : p.writeRun r.unit m none = [((vb : Int), n)])
    (h0 : 0 < n) (hn : va % 64 + n ≤ 64) (hn' : vb % 64 + n ≤ 64) (hva : va + n ≤ 2 ^ 48) (hvb : vb + n ≤ 2 ^ 48) (ha : va % p.srcAlign = 0)
    (ha' : vb % p.dstAlign = 0) (hl : OnLine s tile r.cmd.asid va u off false) (hl' : OnLine s tile r.cmd.asid vb v o true) :
    ∃ w, s.copyUnit (tile * 8 + core) r p =
        w.nextUnit (tile * 8 + core) { r with data := some (seenBytes s u off n), units := m } p n 0 ∧
      EnginePut (s.setCopy (tile * 8 + core) { r with data := some (seenBytes s u off n), units := m }) w v o n (seenBytes s u off n) := by
  have htile : (tile * 8 + core) / 8 = tile := by omega
  have hput := putUnit_slice (s := s.setCopy (tile * 8 + core) { r with data := some (seenBytes s u off n), units := m }) hcore
    (r := { r with data := some (seenBytes s u off n), units := m }) hsame hsingle (seenBytes_length s u off n) hm h0 hn' hvb ha' (by rw [hidx, hwr]) hl'
  unfold State.copyUnit
  dsimp only
  rw [if_neg (by rw [hmode]; simp), hdata, htile, hidx]
  dsimp only
  have hread : s.readSpans tile r.cmd.asid [((va : Int), n)] [] = (.ok (seenBytes s u off n), s) := by
    rw [State.readSpans, engRead_slice hl h0 hn hva]
    rfl
  rw [hidx] at hput
  generalize hk : p.runLen r.unit none _ _ = k
  have hkm : k = m := by
    rw [← hk, hmr]
    congr 1
    · split
      · rename_i q a hq
        exact absurd hq (hhere q a)
      · rfl
    · split
      · rename_i q a hq
        exact absurd hq (hhere' q a)
      · rfl
  rw [hkm, hrd, spanFault_one hva ha]
  dsimp only
  rw [hread]
  exact hput

end

/-! ### The steps of a running copy -/

section
variable {s : State} {tile core : Nat} (hcore : core < 8) {r : CopyRun} (hrun : (s.core (tile * 8 + core)).run2 = some r)
include hrun

theorem copy_parked (hw : r.wait = .page) : exec (.copyCommandComplete tile core) s = .next s := by
  rw [exec_copyCommandComplete, execCopyCommandComplete]
  dsimp only
  rw [hrun]
  dsimp only
  rw [hw]

theorem copy_finishes {p : CopyPlan} (hp : CopyPlan.of r.desc = p) (hw : r.wait = .none) (hf : r.fin = true) (hrel : p.rel = false)
    (hmine : (s.task r.cmd.tid).place = .slot s.curId ∧ s.cur.u.tid = r.cmd.tid) :
    ∃ t, exec (.copyCommandComplete tile core) s = .next t ∧ (t.mem = s.mem ∧ t.attrs = s.attrs) ∧ (t.core (tile * 8 + core)).run2 = none ∧
      ((t.cur.regs = s.cur.regs ∧ t.cur.pc = s.cur.pc ∧ t.cur.u.fflags = s.cur.u.fflags) ∧
        ((s.cur.status = .blocked (.queue 3) → t.cur.status = .ready) ∧ (s.cur.status ≠ .blocked (.queue 3) → t.cur.status = s.cur.status)) ∧
        t.task r.cmd.tid = (s.task r.cmd.tid).completed 3 (completionWord (r.cmd.tag.getD p.tag) r.status r.flags)) ∧
      (p.event = true → t.cur.u.uepend.getLsbD 0 = true) ∧ (p.event = false → t.cur.u.uepend = s.cur.u.uepend) ∧
      ∃ p ∈ t.net.pend, p.ev = .copyCommandStart tile core := by
  rw [exec_copyCommandComplete, execCopyCommandComplete]
  dsimp only
  rw [hrun]
  dsimp only
  rw [hw, hp]
  dsimp only
  rw [if_neg (by rw [hf]; simp), if_neg (by rw [hrel]; simp)]
  refine ⟨_, rfl, ?_⟩
  generalize hu : s.updCore (tile * 8 + core) _ = u
  have hurest : u = { s with cores := u.cores } := by
    rw [← hu]
    rfl
  have hutask : u.task r.cmd.tid = s.task r.cmd.tid := by rw [← hu]; rfl
  have hucur : u.cur = s.cur := by rw [hurest]
  have hucore : (u.core (tile * 8 + core)).run2 = none := by rw [← hu, State.core_updCore, if_pos rfl]
  have hc := completed_completeCmd (s := u) (c := r.cmd) (q := 3) (kind := 0) (by rw [hutask, hucur, hurest]; exact hmine) (.inl rfl) (by decide) 13
    (r.cmd.tag.getD p.tag) r.status r.flags p.event
  generalize u.completeCmd r.cmd 3 0 13 _ _ _ _ = v at hc ⊢
  have hlisted := State.afterOnce_listed v 1 (.copyCommandStart tile core)
  have hrest := State.afterOnce_rest v 1 (.copyCommandStart tile core)
  generalize v.afterOnce 1 _ = t at hlisted hrest ⊢
  have hcur : t.cur = v.cur := by rw [hrest]
  have htask : t.task r.cmd.tid = v.task r.cmd.tid := by rw [hrest]; rfl
  have hcore : t.core (tile * 8 + core) = u.core (tile * 8 + core) := by
    rw [hrest, hc.rest]
    rfl
  refine ⟨?_, by rw [hcore, hucore], ⟨?_, ?_, ?_⟩, ?_, ?_, hlisted⟩
  · rw [hrest, hc.rest, hurest]
    exact ⟨rfl, rfl⟩
  · rw [hcur, ← hucur]
    exact hc.same
  · rw [hcur, ← hucur]
    exact hc.woken
  · rw [htask, hc.task, hutask]
  · rw [hcur]
    exact hc.bell
  · rw [hcur, ← hucur]
    exact hc.still

include hcore

theorem copy_waits (hw : r.wait = .none) (hf : r.fin = false) (ht : s.copyTurn tile ≠ some core) :
    ∃ t, exec (.copyCommandComplete tile core) s = .next t ∧ t = { s with net := t.net } ∧ ∃ p ∈ t.net.pend, p.ev = .copyCommandComplete tile core := by
  have htile : (tile * 8 + core) / 8 = tile := by omega
  have hmod : (tile * 8 + core) % 8 = core := by omega
  rw [exec_copyCommandComplete, execCopyCommandComplete]
  dsimp only
  rw [hrun]
  dsimp only
  rw [hw]
  dsimp only
  rw [if_pos (by rw [hf]; rfl), if_pos (by simpa using ht), State.copyOn, htile, hmod]
  exact ⟨_, rfl, State.afterOnce_rest .., State.afterOnce_listed ..⟩

theorem copy_transfers {p : CopyPlan} (hp : CopyPlan.of r.desc = p) {va vb u off v o n m : Nat} (hw : r.wait = .none) (hf : r.fin = false)
    (ht : s.copyTurn tile = some core) (hdesc : r.desc ≠ []) (hdata : r.data = none) (htotal : r.unit < p.total) (hmode : p.mode = 0)
    (hsame : p.same = true) (hsingle : p.single = false) (hm : s.mem.wf = true)
    (hhere : ∀ q a, s.classify tile r.cmd.asid .s ((p.reads r.unit none).headD (0, 0)).1.toNat ≠ .pod q a)
    (hhere' : ∀ q a, s.classify tile r.cmd.asid .s ((p.writes r.unit none).headD (0, 0)).1.toNat ≠ .pod q a)
    (hmr : m = p.runLen r.unit none false false) (hrd : p.readRun r.unit m none = [((va : Int), n)]) (hwr : p.writeRun r.unit m none = [((vb : Int), n)])
    (hidx : r.idx = none) (h0 : 0 < n) (hn : va % 64 + n ≤ 64) (hn' : vb % 64 + n ≤ 64) (hva : va + n ≤ 2 ^ 48) (hvb : vb + n ≤ 2 ^ 48)
    (ha : va % p.srcAlign = 0) (ha' : vb % p.dstAlign = 0) (hl : OnLine s tile r.cmd.asid va u off false) (hl' : OnLine s tile r.cmd.asid vb v o true) :
    ∃ t, exec (.copyCommandComplete tile core) s = .next t ∧ Wrote s t (sramByte v o) n (2 ^ n - 1) (seenBytes s u off n) ∧ t.attrs.full = s.attrs.full ∧
      t.cur = s.cur ∧ (t.core (tile * 8 + core)).run2 = some { r with unit := r.unit + m, units := 0 } ∧
      ∃ p ∈ t.net.pend, p.ev = .copyCommandComplete tile core := by
  have hview := sameView_passCopy s (tile * 8 + core)
  have htile : (tile * 8 + core) / 8 = tile := by omega
  have hmod : (tile * 8 + core) % 8 = core := by omega
  obtain ⟨w, hunit, hput⟩ := copyUnit_slice (s := s.passCopy (tile * 8 + core)) hcore hsame hsingle hm hmode hdata hidx
    (by simpa only [hview.classify] using hhere) (by simpa only [hview.classify] using hhere') hmr hrd hwr h0 hn hn' hva hvb ha ha' (hview.onLine hl)
    (hview.onLine hl')
  rw [hview.seenBytes] at hunit hput
  rw [exec_copyCommandComplete, execCopyCommandComplete]
  dsimp only
  rw [hrun]
  dsimp only
  rw [hw, hp]
  dsimp only
  rw [if_pos (by rw [hf]; rfl), if_neg (by simpa using ht), if_neg (by simpa using hdesc), if_neg (by omega), hunit]
  refine ⟨_, rfl, ?_⟩
  unfold State.nextUnit State.copyOn
  dsimp only
  rw [htile, hmod, hidx, ite_self]
  generalize hx : State.setCopy (w.tally _ _ _) _ _ = x
  have hxrest : x = { s with tiles := x.tiles, cores := x.cores, mem := w.mem, attrs := { s.attrs with poison := w.attrs.poison }, net := w.net } := by
    rw [← hx, State.tally_rest, hput.rest]
    rfl
  have hxcore : (x.core (tile * 8 + core)).run2 = some { r with unit := r.unit + m, units := 0 } := by
    rw [← hx, State.setCopy, State.core_updCore, if_pos rfl]
    rw [show r.flags ||| (0 : Flags) = r.flags from BitVec.or_zero, hdata, hw, hidx]
  have hlisted := State.afterOnce_listed x 1 (.copyCommandComplete tile core)
  have hrest := State.afterOnce_rest x 1 (.copyCommandComplete tile core)
  generalize x.afterOnce 1 _ = t at hlisted hrest ⊢
  refine ⟨fun a => ?_, ?_, ?_, ?_, hlisted⟩
  · rw [hrest, hxrest]
    exact hput.wrote a
  · rw [hrest, hxrest]
  · rw [hrest, hxrest]
  · rw [hrest]
    exact hxcore.trans (by rw [hidx, hw])

end

end Sys2Proof.Machine
end


section
/-! PROOF. The collective unit: commands join, and end without joining (R126, R189, R208 to R211). -/

namespace Sys2Proof.Machine

/-! ### Collectives by their key -/

@[simp] theorem coll?_setColl_some (s : State) (c : Coll) : (s.setColl c.key (some c)).coll? c.key = some c := by
  unfold State.coll? State.setColl
  dsimp only
  rw [List.find?_append, List.find?_eq_none.2 (by
    intro o ho
    have := (List.mem_filter.1 ho).2
    simpa using this)]
  simp

@[simp] theorem coll?_setColl_none (s : State) (k : CollKey) : (s.setColl k none).coll? k = none := by
  unfold State.coll? State.setColl
  dsimp only
  rw [Option.toList_none, List.append_nil, List.find?_eq_none]
  intro o ho
  have := (List.mem_filter.1 ho).2
  simpa using this

theorem coll?_setColl {s : State} {k : CollKey} {c : Coll} (hk : c.key = k) : (s.setColl k (some c)).coll? k = some c := by
  subst hk
  exact coll?_setColl_some s c

theorem State.afterOnce_colls (s : State) (n : Nat) (e : Event) : (s.afterOnce n e).net.colls = s.net.colls := by
  unfold State.afterOnce
  split <;> rfl

@[simp] theorem coll?_afterOnce (s : State) (n : Nat) (e : Event) (k : CollKey) : (s.afterOnce n e).coll? k = s.coll? k := by
  unfold State.coll?
  rw [State.afterOnce_colls]

/-! ### A command that takes no part (R210) -/

/-- What a collective command's end leaves of the task in focus. -/
def CollectedWith (s t : State) (tid : W64) (w : W64) (colls : Map Nat) : Prop :=
  (t.cur.regs = s.cur.regs ∧ t.cur.pc = s.cur.pc ∧ t.cur.u.fflags = s.cur.u.fflags) ∧
  ((s.cur.status = .blocked (.queue 5) → t.cur.status = .ready) ∧ (s.cur.status ≠ .blocked (.queue 5) → t.cur.status = s.cur.status)) ∧
  t.task tid = { s.task tid with q5 := (s.task tid).q5 ++ [w], out5 := (s.task tid).out5 - 1, colls := colls }

section
variable {s : State} {tile core : Nat} {c : ECmd} {rest : List ECmd}

theorem dropColl_collects {u : State} (hu : u = { s with tasks := u.tasks }) {colls : Map Nat}
    (htask : u.task c.tid = { s.task c.tid with colls := colls }) (hq : (s.core (tile * 8 + core)).q4 = c :: rest)
    (hmine : (s.task c.tid).place = .slot s.curId ∧ s.cur.u.tid = c.tid) (tag : W32) (event : Bool) (status : Nat) :
    let t := u.dropColl (tile * 8 + core) c tag event status
    (t.mem = s.mem ∧ t.attrs = s.attrs) ∧ (t.core (tile * 8 + core)).q4 = rest ∧ CollectedWith s t c.tid (completionWord tag status 0) colls := by
  dsimp only
  unfold State.dropColl
  dsimp only
  generalize hv : u.updCore (tile * 8 + core) _ = v
  have hvrest : v = { s with cores := v.cores, tasks := u.tasks } := by
    rw [← hv, hu]
    rfl
  have hvtask : v.task c.tid = { s.task c.tid with colls := colls } := by
    rw [← hv, ← htask]
    rfl
  have hvcore : (v.core (tile * 8 + core)).q4 = rest := by
    have hcu : u.core (tile * 8 + core) = s.core (tile * 8 + core) := by
      rw [hu]
      rfl
    rw [← hv, State.core_updCore, if_pos rfl, hcu, hq]
    rfl
  have hvcur : v.cur = s.cur := by rw [hvrest]
  have hc := completed_completeCmd (s := v) (c := c) (q := 5) (kind := 1) (by rw [hvtask, hvcur, hvrest]; exact hmine) (.inr rfl) (by decide) 9 tag status 0
    event
  generalize v.completeCmd c 5 1 9 _ _ _ _ = w at hc ⊢
  have hrest := State.afterOnce_rest w 1 (.collectiveJoin ((tile * 8 + core) / 8) ((tile * 8 + core) % 8))
  generalize w.afterOnce 1 _ = t at hrest ⊢
  have hcur : t.cur = w.cur := by rw [hrest]
  refine ⟨?_, ?_, ?_, ?_, ?_⟩
  · rw [hrest, hc.rest, hvrest]
    exact ⟨rfl, rfl⟩
  · rw [hrest, hc.rest]
    exact hvcore
  · rw [hcur, ← hvcur]
    exact hc.same
  · rw [hcur, ← hvcur]
    exact hc.woken
  · have ht : t.task c.tid = w.task c.tid := by
      rw [hrest]
      rfl
    rw [ht, hc.task, hvtask]
    rfl

variable (hq : (s.core (tile * 8 + core)).q4 = c :: rest) (hparks : s.net.parks = []) (hreqs : s.podReqs tile (300 + core) = [])
  {j : JoinRun} (hj : s.joinReady c ((s.core (tile * 8 + core)).join4.getD ⟨none, none, []⟩) = j)
include hq hparks hreqs hj

theorem join_fails {st : Nat} (hstep : s.joinStep tile c j = .fail st) :
    exec (.collectiveJoin tile core) s = .next (s.failJoin (tile * 8 + core) c j st) := by
  rw [exec_collectiveJoin, execCollectiveJoin]
  dsimp only
  simp only [hq, hparks, hreqs, hj, hstep]
  rfl

theorem join_reads {va n : Nat} (hstep : s.joinStep tile c j = .read va n) {b : List Byte} (hread : s.engRead tile c.asid va n = (.ok b, s)) :
    exec (.collectiveJoin tile core) s = .next (s.joinData (tile * 8 + core) j b) := by
  rw [exec_collectiveJoin, execCollectiveJoin]
  dsimp only
  simp only [hq, hparks, hreqs, hj, hstep, hread]
  rfl

/-- A command that joins at the root of this package. -/
theorem join_joins {pos : Nat} (hstep : s.joinStep tile c j = .join pos s.pkg.podIndex.toNat) {d : List Byte} (hd : j.desc = some d) :
    let p := CollPlan.of d
    let u := (s.bumpColl c p.collid).updCore (tile * 8 + core) fun k => { k with q4 := k.q4.drop 1, join4 := none }
    exec (.collectiveJoin tile core) s = .next ((u.joinColl ⟨c.asid, p.collid, s.collCount c p.collid⟩
      ⟨s.pkg.podIndex.toNat, pos, c, d, j.mask.getD [], j.src, 0⟩).afterOnce 1 (.collectiveJoin tile core)) := by
  rw [exec_collectiveJoin, execCollectiveJoin]
  dsimp only
  simp only [hq, hparks, hreqs, hj, hstep, hd]
  rw [if_neg (by simp), if_neg (by simp), if_pos trivial]
  rfl

end

/-! ### The next step of a command (R126, R208, R210) -/

theorem maskPkgs_here (own : Nat) (b : List Byte) : maskPkgs own false b = [own] := rfl

theorem joinReady_new (s : State) (c : ECmd) : s.joinReady c ⟨none, none, []⟩ = ⟨none, none, []⟩ := rfl

theorem joinReady_described (s : State) (c : ECmd) (d : List Byte) (m : Option (List Byte)) (src : List Byte) :
    s.joinReady c ⟨some d, m, src⟩ = ⟨some d, m, src⟩ := rfl

section
variable {s : State} {tile : Nat} {c : ECmd}

theorem joinStep_badPointer (h : c.desc.extractLsb' 48 4 ≠ 0 ∨ 2 ^ 48 < vaOf c.desc + 64) : s.joinStep tile c ⟨none, none, []⟩ = .fail 2 :=
  if_pos h

theorem joinStep_misaligned (h4 : c.desc.extractLsb' 48 4 = 0) (hva : vaOf c.desc + 64 ≤ 2 ^ 48) (ha : vaOf c.desc % 64 ≠ 0) :
    s.joinStep tile c ⟨none, none, []⟩ = .fail 4 :=
  (if_neg (by rw [h4]; simp; omega)).trans (if_pos ha)

theorem joinStep_descriptor (h4 : c.desc.extractLsb' 48 4 = 0) (hva : vaOf c.desc + 64 ≤ 2 ^ 48) (ha : vaOf c.desc % 64 = 0) :
    s.joinStep tile c ⟨none, none, []⟩ = .read (vaOf c.desc) 64 :=
  (if_neg (by rw [h4]; simp; omega)).trans ((if_neg (by simpa using ha)).trans (if_neg (by simp)))

theorem joinStep_unclear {d src : List Byte} {m : Option (List Byte)} (h : (CollPlan.of d).clear tile = false) :
    s.joinStep tile c ⟨some d, m, src⟩ = .fail 1 := by
  unfold State.joinStep
  dsimp only
  rw [h]
  rfl

theorem joinStep_joins {d src : List Byte} {p : CollPlan} (hp : CollPlan.of d = p) (hspan : p.span = false) (hclear : p.clear tile = true)
    (hsuits : p.suits p.tcnt = true) (hptr : p.pointerFault (tile - p.tfirst) p.tcnt = none) (hsrc : src.length = p.srcLen (tile - p.tfirst)) :
    s.joinStep tile c ⟨some d, some [], src⟩ = .join (tile - p.tfirst) s.pkg.podIndex.toNat := by
  have hpos : p.position s.pkg.podIndex.toNat tile [s.pkg.podIndex.toNat] = tile - p.tfirst := by
    simp [CollPlan.position]
  unfold State.joinStep
  dsimp only
  rw [hp, hclear, hspan, maskPkgs_here, if_neg (by simp), List.length_singleton, Nat.mul_one, hpos, hsuits, if_neg (by simp), hptr]
  dsimp only
  rw [hsrc, Nat.sub_self, if_pos rfl]
  rfl

end

/-! ### Commands that take no part -/

section
variable {s : State} {tile core : Nat} {c : ECmd} {rest : List ECmd} (hq : (s.core (tile * 8 + core)).q4 = c :: rest) (hparks : s.net.parks = [])
  (hreqs : s.podReqs tile (300 + core) = [])
include hq hparks hreqs

/-- The command leaves its queue with a status, and its completion word is pushed. -/
def Dropped (s : State) (tile core : Nat) (c : ECmd) (rest : List ECmd) (w : W64) (colls : Map Nat) : Prop :=
  (s.task c.tid).place = .slot s.curId ∧ s.cur.u.tid = c.tid → ∃ t, exec (.collectiveJoin tile core) s = .next t ∧ (t.mem = s.mem ∧ t.attrs = s.attrs) ∧
    (t.core (tile * 8 + core)).q4 = rest ∧ CollectedWith s t c.tid w colls

theorem dropped_undescribed (hnew : (s.core (tile * 8 + core)).join4 = none) {st : Nat} (hstep : s.joinStep tile c ⟨none, none, []⟩ = .fail st) :
    Dropped s tile core c rest (completionWord 0 st 0) (s.task c.tid).colls := by
  intro hmine
  refine ⟨_, join_fails hq hparks hreqs (by rw [hnew]; exact joinReady_new s c) hstep, ?_⟩
  exact dropColl_collects rfl rfl hq hmine 0 false st

theorem dropped_unclear {d src : List Byte} (hjoin : (s.core (tile * 8 + core)).join4 = some ⟨some d, some [], src⟩)
    (hclear : (CollPlan.of d).clear tile = false) :
    Dropped s tile core c rest (completionWord (CollPlan.of d).tag 1 0)
      ((s.task c.tid).colls.set (CollPlan.of d).collid.toNat ((s.task c.tid).colls.getD 0 (CollPlan.of d).collid.toNat + 1)) := by
  intro hmine
  refine ⟨_, join_fails hq hparks hreqs (by rw [hjoin]; exact joinReady_described ..) (joinStep_unclear hclear), ?_⟩
  refine dropColl_collects (u := s.bumpColl c (CollPlan.of d).collid) rfl ?_ hq hmine _ _ 1
  rw [State.bumpColl, State.task_updTask, if_pos rfl]
  rfl

theorem join_describes {u off : Nat} {d : List Byte} (hnew : (s.core (tile * 8 + core)).join4 = none) (h4 : c.desc.extractLsb' 48 4 = 0)
    (ha : vaOf c.desc % 64 = 0) (hva : vaOf c.desc + 64 ≤ 2 ^ 48) (hl : OnLine s tile c.asid (vaOf c.desc) u off false)
    (hd : seenBytes s u off 64 = d) (hacq : (CollPlan.of d).acq = false) (hcore : core < 8) :
    ∃ t, exec (.collectiveJoin tile core) s = .next t ∧ (t.mem = s.mem ∧ t.attrs = s.attrs) ∧ t.cur = s.cur ∧ t.tasks = s.tasks ∧
      t.core (tile * 8 + core) = { s.core (tile * 8 + core) with
        join4 := some ⟨some d, if (CollPlan.of d).span then none else some [], []⟩ } ∧
      ∃ e ∈ t.net.pend, e.ev = .collectiveJoin tile core := by
  have htile : (tile * 8 + core) / 8 = tile := by omega
  have hmod : (tile * 8 + core) % 8 = core := by omega
  refine ⟨_, join_reads hq hparks hreqs (by rw [hnew]; exact joinReady_new s c) (joinStep_descriptor h4 hva ha)
    (engRead_slice hl (by decide) (by omega) hva), ?_⟩
  unfold State.joinData
  dsimp only
  rw [hd, hacq, htile, hmod, if_pos (by simp)]
  generalize hv : s.updCore (tile * 8 + core) _ = v
  have hvcore : v.core (tile * 8 + core) = { s.core (tile * 8 + core) with
      join4 := some ⟨some d, if (CollPlan.of d).span then none else some [], []⟩ } := by
    rw [← hv, State.core_updCore, if_pos rfl]
  have hvrest : v = { s with cores := v.cores } := by rw [← hv]; rfl
  have hlisted := State.afterOnce_listed v 1 (.collectiveJoin tile core)
  have hrest := State.afterOnce_rest v 1 (.collectiveJoin tile core)
  generalize v.afterOnce 1 _ = t at hlisted hrest ⊢
  refine ⟨?_, ?_, ?_, ?_, hlisted⟩
  · rw [hrest, hvrest]
    exact ⟨rfl, rfl⟩
  · rw [hrest, hvrest]
  · rw [hrest, hvrest]
  · rw [hrest]
    exact hvcore

end

/-! ### Joining (R209 to R211) -/

/-- What the root decides at once: the members disagree. -/
theorem decide_mismatch {c : Coll} (h : ¬∀ z, c.at 0 = some z → ∀ a ∈ c.members, a.differs z = false) : c.decide_ = some (10, [], 0) := by
  push Not at h
  obtain ⟨z, hz, a, ha, hdiff⟩ := h
  unfold Coll.decide_ Coll.mismatch
  rw [hz]
  exact if_pos (List.any_eq_true.2 ⟨a, ha, by simpa using hdiff⟩)

section
variable {c : Coll} (halike : ∀ z, c.at 0 = some z → ∀ a ∈ c.members, a.differs z = false) (htime : c.timedOut = false)
include halike

theorem mismatch_alike : c.mismatch = false := by
  unfold Coll.mismatch
  split
  · rfl
  · rename_i z hz
    rw [List.any_eq_false]
    intro a ha
    rw [halike z hz a ha]
    decide

include htime

theorem decide_waits (h : c.at 0 = none ∨ c.members.length < c.need) : c.decide_ = none := by
  unfold Coll.decide_
  rw [mismatch_alike halike, htime, if_neg (by decide), if_neg (by decide)]
  split
  · rfl
  · rename_i z hz
    exact if_pos (h.resolve_left (by rw [hz]; simp))

/-- The contribution of the member at a position. -/
def Coll.srcAt (c : Coll) (i : Nat) : List Byte := ((c.at i).map (·.src)).getD []

variable {z : CollMember} (hz : c.at 0 = some z) (hall : c.members.length = c.need) {p : CollPlan} (hp : CollPlan.of z.desc = p)
include hz hall hp

theorem decide_barrier (hk : p.kind = 3) : c.decide_ = some (0, [], 0) := by
  unfold Coll.decide_
  rw [mismatch_alike halike, htime, if_neg (by decide), if_neg (by decide), hz]
  dsimp only
  rw [if_neg (by omega), hp, hk]
  rfl

theorem decide_broadcast (hk : p.kind = 2) (hroot : p.root < c.need) : c.decide_ = some (0, c.srcAt p.root, 0) := by
  unfold Coll.decide_
  rw [mismatch_alike halike, htime, if_neg (by decide), if_neg (by decide), hz]
  dsimp only
  rw [if_neg (by omega), hp, hk]
  show some (0, ((List.range c.need).map c.srcAt).getD p.root [], 0) = some (0, c.srcAt p.root, 0)
  rw [List.getD_eq_getElem?_getD, List.getElem?_map, List.getElem?_range hroot]
  rfl

theorem decide_reduce (hk : p.kind = 0 ∨ p.kind = 1) : c.decide_ =
    let r := collReduce (fmtOf p.src) p.op ((collBytes p.src).getD 4) p.count p.tcnt ((List.range c.need).map c.srcAt)
    some (0, r.1, r.2) := by
  unfold Coll.decide_
  rw [mismatch_alike halike, htime, if_neg (by decide), if_neg (by decide), hz]
  dsimp only
  rw [if_neg (by omega), hp]
  obtain hk | hk := hk <;> rw [hk] <;> rfl

end

/-! ### Integer sums (R55, R209) -/

theorem pairUp_length {α : Type} (f : α → α → α) (l : List α) : (pairUp f l).length = (l.length + 1) / 2 := by
  induction l using pairUp.induct with
  | case1 a b r ih => simp [pairUp, ih]; omega
  | case2 l hl =>
    match l, hl with
    | [], _ => simp [pairUp]
    | [a], _ => simp [pairUp]
    | a :: b :: r, h => exact absurd rfl (h a b r)

/-- The sum of two 32-bit numbers, modulo 2^32. -/
def sum32 (x y : Nat) : Nat := (x + y) % 2 ^ 32

theorem collStep_sum {fmt : Nat} (hf : fmt = 5 ∨ fmt = 6) (x y : Nat) : collStep fmt 0 (x, 0) (y, 0) = (sum32 x y, 0) := by
  unfold collStep sum32
  dsimp only
  rw [if_neg (by omega), if_neg (by omega)]
  simp [BitVec.toNat_add]

theorem pairUp_leaves {fmt : Nat} (hf : fmt = 5 ∨ fmt = 6) (l : List Nat) :
    pairUp (collStep fmt 0) (l.map fun x => (x, (0 : Flags))) = (pairUp sum32 l).map fun x => (x, 0) := by
  induction l using pairUp.induct with
  | case1 a b r ih =>
    rw [List.map_cons, List.map_cons, pairUp, pairUp, ih, collStep_sum hf, List.map_cons]
  | case2 l hl =>
    match l, hl with
    | [], _ => simp [pairUp]
    | [a], _ => simp [pairUp]
    | a :: b :: r, h => exact absurd rfl (h a b r)

theorem pairUp_sum (l : List Nat) : (pairUp sum32 l).sum % 2 ^ 32 = l.sum % 2 ^ 32 := by
  induction l using pairUp.induct with
  | case1 a b r ih =>
    simp only [pairUp, List.sum_cons, sum32]
    omega
  | case2 l hl =>
    match l, hl with
    | [], _ => simp [pairUp]
    | [a], _ => simp [pairUp]
    | a :: b :: r, h => exact absurd rfl (h a b r)

theorem pairUp_lt {l : List Nat} (h : ∀ x ∈ l, x < 2 ^ 32) : ∀ x ∈ pairUp sum32 l, x < 2 ^ 32 := by
  induction l using pairUp.induct with
  | case1 a b r ih =>
    simp only [pairUp, List.mem_cons, forall_eq_or_imp]
    exact ⟨Nat.mod_lt _ (by decide), ih fun x hx => h x (List.mem_cons_of_mem _ (List.mem_cons_of_mem _ hx))⟩
  | case2 l hl =>
    match l, hl with
    | [], _ => simp [pairUp]
    | [a], _ => simpa [pairUp] using h
    | a :: b :: r, h => exact absurd rfl (h a b r)

theorem pairTree_sum {fmt : Nat} (hf : fmt = 5 ∨ fmt = 6) (n : Nat) {l : List Nat} (hne : 0 < l.length) (hn : l.length ≤ n + 1)
    (hlt : ∀ x ∈ l, x < 2 ^ 32) : pairTree (collStep fmt 0) n (l.map fun x => (x, (0 : Flags))) = [(l.sum % 2 ^ 32, 0)] := by
  have hone : ∀ l : List Nat, l.length = 1 → (∀ x ∈ l, x < 2 ^ 32) → l.map (fun x => (x, (0 : Flags))) = [(l.sum % 2 ^ 32, 0)] := by
    intro l h hlt
    obtain ⟨a, rfl⟩ := List.length_eq_one_iff.1 h
    have ha := hlt a (List.mem_singleton.2 rfl)
    rw [List.map_singleton, List.sum_singleton, Nat.mod_eq_of_lt ha]
  induction n generalizing l with
  | zero => exact hone l (by omega) hlt
  | succ n ih =>
    unfold pairTree
    rw [List.length_map]
    split
    · exact hone l (by omega) hlt
    · rw [pairUp_leaves hf, ih (by rw [pairUp_length]; omega) (by rw [pairUp_length]; omega) (pairUp_lt hlt), pairUp_sum]

theorem collElem_sum {fmt per : Nat} (hf : fmt = 5 ∨ fmt = 6) {l : List Nat} (hl : l.length = per) (h0 : 0 < per) (hlt : ∀ x ∈ l, x < 2 ^ 32) :
    collElem fmt 0 per l = (l.sum % 2 ^ 32, 0) := by
  have hcount : (l.length + per - 1) / per = 1 := by
    rw [hl]
    refine Nat.div_eq_of_lt_le (by omega) (by omega)
  have htake : (l.map fun x => (x, (0 : Flags))).take per = l.map fun x => (x, 0) := by
    rw [List.take_of_length_le (by rw [List.length_map, hl])]
  unfold collElem
  dsimp only
  rw [hcount, List.range_one, List.flatMap_singleton, Nat.mul_zero, List.drop_zero, htake, pairTree_sum hf per (by omega) (by omega) hlt,
    if_neg (by omega)]
  rfl

theorem collReduce_sum {fmt per : Nat} (hf : fmt = 5 ∨ fmt = 6) {srcs : List (List Byte)} (hl : srcs.length = per) (h0 : 0 < per)
    (h4 : ∀ b ∈ srcs, b.length = 4) : collReduce fmt 0 4 1 per srcs = (bytesOfNat 4 ((srcs.map numberOf).sum % 2 ^ 32), 0) := by
  have hnum : (srcs.map fun b => leNat ((b.drop (0 * 4)).take 4)) = srcs.map numberOf := by
    refine List.map_congr_left fun b hb => ?_
    rw [Nat.zero_mul, List.drop_zero, List.take_of_length_le (by rw [h4 b hb]), leNat_eq_numberOf]
  have hlt : ∀ x ∈ srcs.map numberOf, x < 2 ^ 32 := by
    intro x hx
    obtain ⟨b, hb, rfl⟩ := List.mem_map.1 hx
    have := numberOf_lt b
    rwa [h4 b hb] at this
  unfold collReduce
  dsimp only
  rw [List.range_one, List.map_singleton, hnum, collElem_sum hf (by rw [List.length_map, hl]) h0 hlt, List.flatMap_singleton, leBytes_eq_bytesOfNat,
    List.foldl_cons, List.foldl_nil]
  exact congrArg _ (show (0 : Flags) ||| 0 = 0 by decide)

end Sys2Proof.Machine
end


section
/-! PROOF. The root of a collective decides, its members are served, and the time-out (R209 to R211). -/

namespace Sys2Proof.Machine

/-! ### What the root decides reaches its members (R209) -/

section
variable {s : State} {c : Coll} (hown : ∀ z ∈ c.members, z.pkg = s.pkg.podIndex.toNat) (hserved : c.served = [])
include hown hserved

theorem spreadColl_here (v : Nat × List Byte × BitVec 5) :
    s.spreadColl c v = (s.setColl c.key (some { c with verdict := some v })).afterOnce 35 (.collectiveComplete c.key) := by
  have haway : (c.members.filter fun m => m.pkg != s.pkg.podIndex.toNat && !c.served.contains m.pos) = [] := by
    rw [List.filter_eq_nil_iff]
    intro m hm
    simp [hown m hm]
  unfold State.spreadColl
  dsimp only
  simp only [haway, List.map_nil, List.append_nil, List.dedup_nil, List.foldl_nil]
  rw [if_neg (by rw [hserved]; simp; omega)]

/-- The verdict is known at once, and the members are served 35 cycles later. -/
theorem spreadColl_decides {k : CollKey} (hk : c.key = k) (v : Nat × List Byte × BitVec 5) :
    s.spreadColl c v = { s with net := (s.spreadColl c v).net } ∧ (s.spreadColl c v).coll? k = some { c with verdict := some v } ∧
      ∃ e ∈ (s.spreadColl c v).net.pend, e.ev = .collectiveComplete k := by
  subst hk
  rw [spreadColl_here hown hserved]
  refine ⟨?_, ?_, State.afterOnce_listed ..⟩
  · rw [State.afterOnce_rest]
    rfl
  · rw [coll?_afterOnce]
    exact coll?_setColl rfl

end

theorem colltmo_expires {s : State} {key : CollKey} {o : Coll} (ho : s.coll? key = some o) (hk : o.key = key) (hv : o.verdict = none) (hserved : o.served = [])
    (hown : ∀ z ∈ o.members, z.pkg = s.pkg.podIndex.toNat) :
    ∃ t, exec (.colltmoExpiry key) s = .next t ∧ t = { s with net := t.net } ∧
      t.coll? key = some { o with timedOut := true, verdict := some (11, [], 0) } ∧ ∃ e ∈ t.net.pend, e.ev = .collectiveComplete key := by
  rw [exec_colltmoExpiry, execColltmoExpiry]
  simp only [ho]
  rw [if_neg (by rw [hv]; simp)]
  obtain ⟨hrest, hcoll, hpend⟩ := spreadColl_decides (s := s.setColl key (some { o with timedOut := true })) (c := { o with timedOut := true }) hown hserved
    hk (11, [], 0)
  exact ⟨_, rfl, hrest, hcoll, hpend⟩

theorem colltmo_decided {s : State} {key : CollKey} {o : Coll} (ho : s.coll? key = some o) (hv : o.verdict ≠ none) :
    exec (.colltmoExpiry key) s = .next s := by
  rw [exec_colltmoExpiry, execColltmoExpiry]
  simp only [ho]
  exact if_pos (Option.isSome_iff_ne_none.2 hv)

/-! ### A member joins (R209, R210) -/

/-- A collective that nobody has joined. -/
def Coll.new (s : State) (key : CollKey) : Coll := ⟨key, s.now, [], false, 0, s.pkg.podIndex.toNat, none, [], [], []⟩

/-- The collective with a member more, which joins in this package alone. -/
def Coll.withMember (o : Coll) (m : CollMember) (pos tcnt : Nat) : Coll :=
  { o with members := o.members ++ [m], need := if pos = 0 then tcnt else o.need }

section
variable {s : State} {key : CollKey} {o : Coll} {m : CollMember} {p : CollPlan} (ho : (s.coll? key).getD (Coll.new s key) = o)
  (hp : CollPlan.of m.desc = p) (hspan : p.span = false) (hk : o.key = key) (hv : o.verdict = none)
include ho hp hspan hk hv

/-- Listing the collective with its new member starts its time-out where it has none yet. -/
theorem joinColl_listed : ∃ u : State, u = { s with net := u.net } ∧ u.coll? key = some (o.withMember m m.pos p.tcnt) ∧
    s.joinColl key m = match (o.withMember m m.pos p.tcnt).decide_ with
      | some v => u.spreadColl (o.withMember m m.pos p.tcnt) v
      | none => u := by
  have hpkgs : m.pkgs = [m.pkg] := by
    unfold CollMember.pkgs
    rw [hp, hspan, maskPkgs_here]
  have hneed : (if m.pos = 0 then (CollPlan.of m.desc).tcnt * m.pkgs.length else o.need) = if m.pos = 0 then p.tcnt else o.need := by
    rw [hp, hpkgs, List.length_singleton, Nat.mul_one]
  have hlisted := coll?_setColl (s := s) (k := key) (c := o.withMember m m.pos p.tcnt) hk
  unfold State.joinColl
  dsimp only
  rw [show (s.coll? key).getD ⟨key, s.now, [], false, 0, s.pkg.podIndex.toNat, none, [], [], []⟩ = o from ho, hneed]
  generalize hc : o.withMember m m.pos p.tcnt = c at hlisted
  rw [show ({ o with members := o.members ++ [m], need := if m.pos = 0 then p.tcnt else o.need } : Coll) = c from hc, hv, Option.none_or]
  by_cases hfresh : ((s.coll? key).isNone && (s.setColl key (some c)).pkg.colltmo != 0) = true
  · simp only [if_pos hfresh]
    refine ⟨(s.setColl key (some c)).after ((s.setColl key (some c)).pkg.colltmo.toNat * 2400) (.colltmoExpiry key), rfl, hlisted, ?_⟩
    cases c.decide_ <;> rfl
  · simp only [if_neg hfresh]
    refine ⟨s.setColl key (some c), rfl, hlisted, ?_⟩
    cases c.decide_ <;> rfl

theorem joinColl_open (hdec : (o.withMember m m.pos p.tcnt).decide_ = none) :
    s.joinColl key m = { s with net := (s.joinColl key m).net } ∧ (s.joinColl key m).coll? key = some (o.withMember m m.pos p.tcnt) := by
  obtain ⟨u, hrest, hcoll, hjoin⟩ := joinColl_listed ho hp hspan hk hv
  rw [hjoin, hdec]
  exact ⟨hrest, hcoll⟩

theorem joinColl_decides {v : Nat × List Byte × BitVec 5} (hdec : (o.withMember m m.pos p.tcnt).decide_ = some v) (hserved : o.served = [])
    (hown : ∀ z ∈ o.members, z.pkg = s.pkg.podIndex.toNat) (hm : m.pkg = s.pkg.podIndex.toNat) :
    s.joinColl key m = { s with net := (s.joinColl key m).net } ∧
      (s.joinColl key m).coll? key = some { o.withMember m m.pos p.tcnt with verdict := some v } ∧
      ∃ e ∈ (s.joinColl key m).net.pend, e.ev = .collectiveComplete key := by
  obtain ⟨u, hrest, hcoll, hjoin⟩ := joinColl_listed ho hp hspan hk hv
  have hpkg : u.pkg = s.pkg := by rw [hrest]
  have hall : ∀ z ∈ (o.withMember m m.pos p.tcnt).members, z.pkg = u.pkg.podIndex.toNat := by
    rw [hpkg]
    intro z hz
    obtain hz | hz := List.mem_append.1 hz
    · exact hown z hz
    · rw [List.mem_singleton.1 hz, hm]
  obtain ⟨hrest', hcoll', hpend⟩ := spreadColl_decides hall hserved (k := key) hk v
  rw [hjoin, hdec]
  refine ⟨?_, hcoll', hpend⟩
  dsimp only
  rw [hrest', hrest]

end

/-! ### A member is served (R209, R211) -/

theorem colls_completeCmd {s t : State} {tid : W64} {q kind : Nat} {event : Bool} {w : W64} (h : Completed s t tid q kind event w) :
    t.net = s.net := by
  rw [h.rest]

theorem serveMember_collects {s : State} {o : Coll} {m : CollMember} {key : CollKey} {p : CollPlan} (hp : CollPlan.of m.desc = p) (hk : o.key = key)
    (hserved : o.served = []) (hmine : (s.task m.cmd.tid).place = .slot s.curId ∧ s.cur.u.tid = m.cmd.tid) (status : Nat) (fl : Flags) :
    let t := s.serveMember o m status fl
    (t.mem = s.mem ∧ t.attrs = s.attrs) ∧ CollectedWith s t m.cmd.tid (completionWord p.tag status fl) (s.task m.cmd.tid).colls ∧
      (p.event = true → t.cur.u.uepend.getLsbD 1 = true) ∧ (o.need = 1 → t.coll? key = none) ∧
      (1 < o.need → t.coll? key = some { o with served := [m.pos] }) := by
  subst hk
  have hc := completed_completeCmd hmine (q := 5) (kind := 1) (.inr rfl) (by decide) 9 p.tag status fl p.event
  dsimp only
  unfold State.serveMember
  dsimp only
  rw [hp, hserved, List.nil_append, List.length_singleton]
  generalize s.completeCmd m.cmd 5 1 9 _ _ _ _ = u at hc ⊢
  have hend : ∀ t : State, t = { u with net := t.net } →
      (t.mem = s.mem ∧ t.attrs = s.attrs) ∧ CollectedWith s t m.cmd.tid (completionWord p.tag status fl) (s.task m.cmd.tid).colls ∧
        (p.event = true → t.cur.u.uepend.getLsbD 1 = true) := by
    intro t ht
    have hcur : t.cur = u.cur := by rw [ht]
    have htask : t.task m.cmd.tid = u.task m.cmd.tid := by
      rw [ht]
      rfl
    refine ⟨?_, ⟨?_, ?_, ?_⟩, ?_⟩
    · rw [ht, hc.rest]
      exact ⟨rfl, rfl⟩
    · rw [hcur]
      exact hc.same
    · rw [hcur]
      exact hc.woken
    · rw [htask, hc.task]
      rfl
    · rw [hcur]
      exact hc.bell
  by_cases hdone : (decide (0 < o.need) && decide (o.need ≤ 1)) = true
  · rw [if_pos hdone, if_pos hdone]
    obtain ⟨hquiet, hcollected, hbell⟩ := hend (u.setColl o.key none) rfl
    simp only [Bool.and_eq_true, decide_eq_true_eq] at hdone
    exact ⟨hquiet, hcollected, hbell, fun _ => coll?_setColl_none .., fun h => by omega⟩
  · rw [if_neg hdone, if_neg hdone]
    have hlisted := coll?_setColl (s := u) (k := o.key) (c := { o with served := [m.pos] }) rfl
    obtain ⟨hquiet, hcollected, hbell⟩ := hend ((u.setColl o.key (some { o with served := [m.pos] })).afterOnce 1 (.collectiveComplete o.key)) (by
      rw [State.afterOnce_rest]
      rfl)
    simp only [Bool.and_eq_true, decide_eq_true_eq] at hdone
    exact ⟨hquiet, hcollected, hbell, fun h => by omega, fun _ => by rw [coll?_afterOnce, hlisted]⟩

/-- The only member is the one to be served next. -/
theorem next_member {s : State} {key : CollKey} {o : Coll} {m : CollMember} (hm : o.members = [m]) (hpkg : m.pkg = s.pkg.podIndex.toNat)
    (hserved : o.served = []) (hparks : s.net.parks = []) :
    (o.members.find? fun m => m.pkg == s.pkg.podIndex.toNat && !o.served.contains m.pos && !s.net.parks.any fun p => p.who == .member key m.pos) =
      some m := by
  rw [hm, hserved, hparks, List.find?_cons_of_pos (by simp [hpkg])]

section
variable {s : State} {tile core : Nat} {key : CollKey} {o : Coll} {m : CollMember} {v : Nat × List Byte × BitVec 5}
  (ho : s.coll? key = some o) (hm : o.members = [m]) (hpkg : m.pkg = s.pkg.podIndex.toNat) (hv : o.verdict = some v) (hserved : o.served = [])
  (hparks : s.net.parks = [])
include ho hm hpkg hv hserved hparks

theorem collComplete_refused (h : v.1 ≠ 0) : exec (.collectiveComplete key) s = .next (s.serveMember o m v.1 0) := by
  rw [exec_collectiveComplete, execCollectiveComplete]
  simp only [ho, hv, next_member hm hpkg hserved hparks]
  exact if_pos h

variable (h0 : v.1 = 0)
include h0

theorem collComplete_pageRefused (hr : o.refused = [m.pos]) : exec (.collectiveComplete key) s = .next (s.serveMember o m 6 0) := by
  rw [exec_collectiveComplete, execCollectiveComplete]
  simp only [ho, hv, next_member hm hpkg hserved hparks]
  rw [if_neg (by simpa using h0), if_pos (by rw [hr]; simp)]

variable (hr : o.refused = [])
include hr

theorem collComplete_written (hw : o.wrote = [m.pos]) (hrel : (CollPlan.of m.desc).rel = false) :
    exec (.collectiveComplete key) s = .next (s.serveMember o m 0 v.2.2) := by
  rw [exec_collectiveComplete, execCollectiveComplete]
  simp only [ho, hv, next_member hm hpkg hserved hparks]
  rw [if_neg (by simpa using h0), if_neg (by rw [hr]; simp), if_pos (by rw [hw]; simp), if_neg (by rw [hrel]; simp)]

variable (hw : o.wrote = [])
include hw

theorem collComplete_nothing (hput : (m.share v.2.1).length ≤ m.put) :
    exec (.collectiveComplete key) s = .next ((s.setColl key (some (o.wrote_ m 0 (m.share v.2.1).length))).afterOnce 1 (.collectiveComplete key)) := by
  rw [exec_collectiveComplete, execCollectiveComplete]
  simp only [ho, hv, next_member hm hpkg hserved hparks]
  rw [if_neg (by simpa using h0), if_neg (by rw [hr]; simp), if_neg (by rw [hw]; simp), if_pos hput]

theorem collComplete_writes (htile : tileOf m.cmd.slot = tile) (hcore : coreOf m.cmd.slot % 8 = core) (hreqs : s.podReqs tile (300 + core) = [])
    (hput : m.put = 0) (hb : 0 < (m.share v.2.1).length) (h64 : (m.share v.2.1).length ≤ 64) {t : State}
    (hwrite : s.engWrite tile (300 + core) m.cmd (vaOf (CollPlan.of m.desc).dst : Nat) (m.share v.2.1) = (.ok (), t)) :
    exec (.collectiveComplete key) s =
      .next ((t.setColl key (some (o.wrote_ m (m.share v.2.1).length (m.share v.2.1).length))).afterOnce 1 (.collectiveComplete key)) := by
  have hn : Nat.min 4096 (m.share v.2.1).length = (m.share v.2.1).length := Nat.min_eq_right (by omega)
  rw [exec_collectiveComplete, execCollectiveComplete]
  simp only [ho, hv, next_member hm hpkg hserved hparks, htile, hcore, hreqs, hput, Nat.sub_zero, Nat.add_zero, List.drop_zero, hn,
    List.take_length, hwrite]
  rw [if_neg (by simpa using h0), if_neg (by rw [hr]; simp), if_neg (by rw [hw]; simp), if_neg (by omega), if_neg (by simp)]

end

theorem wrote_only {o : Coll} {m : CollMember} (hm : o.members = [m]) (hw : o.wrote = []) {n total : Nat} (h : total ≤ m.put + n) :
    o.wrote_ m n total = { o with members := [{ m with put := m.put + n }], wrote := [m.pos] } := by
  unfold Coll.wrote_
  rw [hm, hw, List.map_singleton, if_pos rfl, if_pos h, List.nil_append]

/-- A collective is listed anew, and its members are served on. -/
theorem setColl_goesOn {s : State} {key : CollKey} {c : Coll} (hk : c.key = key) :
    let t := (s.setColl key (some c)).afterOnce 1 (.collectiveComplete key)
    t = { s with net := t.net } ∧ t.coll? key = some c ∧ ∃ e ∈ t.net.pend, e.ev = .collectiveComplete key := by
  refine ⟨?_, ?_, State.afterOnce_listed ..⟩
  · rw [State.afterOnce_rest]
    rfl
  · rw [coll?_afterOnce, coll?_setColl hk]

/-! ### Commands that join -/

section
variable {s : State} {tile core : Nat} {c : ECmd} {rest : List ECmd} (hq : (s.core (tile * 8 + core)).q4 = c :: rest) (hparks : s.net.parks = [])
  (hreqs : s.podReqs tile (300 + core) = []) {d src : List Byte} (hjoin : (s.core (tile * 8 + core)).join4 = some ⟨some d, some [], src⟩)
  {p : CollPlan} (hp : CollPlan.of d = p) (hspan : p.span = false) (hclear : p.clear tile = true) (hsuits : p.suits p.tcnt = true)
  (hptr : p.pointerFault (tile - p.tfirst) p.tcnt = none) (hsrc : src.length = p.srcLen (tile - p.tfirst))
include hq hparks hreqs hjoin hp hspan hclear hsuits hptr hsrc

/-- The state in which the command joins, and the state that it leaves. -/
theorem join_leaves {key : CollKey} (hkey : ⟨c.asid, p.collid, (s.task c.tid).colls.getD 0 p.collid.toNat⟩ = key) {m : CollMember}
    (hm : (⟨s.pkg.podIndex.toNat, tile - p.tfirst, c, d, [], src, 0⟩ : CollMember) = m) :
    ∃ u : State, u.now = s.now ∧ u.pkg = s.pkg ∧ u.net = s.net ∧ ∀ w, u.joinColl key m = { u with net := w } →
      ∃ t, exec (.collectiveJoin tile core) s = .next t ∧ (t.mem = s.mem ∧ t.attrs = s.attrs) ∧ t.cur = s.cur ∧ (t.core (tile * 8 + core)).q4 = rest ∧
        (t.task c.tid).colls.getD 0 p.collid.toNat = (s.task c.tid).colls.getD 0 p.collid.toNat + 1 ∧
        (∀ k, t.coll? k = (u.joinColl key m).coll? k) ∧ (u.joinColl key m).net.pend ⊆ t.net.pend := by
  have hexec := join_joins hq hparks hreqs (by rw [hjoin]; exact joinReady_described ..) (joinStep_joins hp hspan hclear hsuits hptr hsrc) rfl
  dsimp only at hexec
  rw [hp, Option.getD_some, show s.collCount c p.collid = (s.task c.tid).colls.getD 0 p.collid.toNat from rfl, hkey, hm] at hexec
  generalize hu : State.updCore (s.bumpColl c p.collid) _ _ = u at hexec
  have hurest : u = { s with cores := u.cores, tasks := u.tasks } := by
    rw [← hu]
    rfl
  have hucore : (u.core (tile * 8 + core)).q4 = rest := by
    have hb : (s.bumpColl c p.collid).core (tile * 8 + core) = s.core (tile * 8 + core) := rfl
    rw [← hu, State.core_updCore, if_pos rfl, hb, hq]
    rfl
  have hutask : (u.task c.tid).colls.getD 0 p.collid.toNat = (s.task c.tid).colls.getD 0 p.collid.toNat + 1 := by
    rw [← hu]
    show ((s.bumpColl c p.collid).task c.tid).colls.getD 0 p.collid.toNat = _
    rw [State.bumpColl, State.task_updTask, if_pos rfl, Map.getD_set_same]
    rfl
  refine ⟨u, by rw [hurest]; rfl, by rw [hurest], by rw [hurest], fun w hw => ⟨_, hexec, ?_⟩⟩
  generalize u.joinColl key m = j at hw
  have hpend := (State.afterOnce_pend j 1 (.collectiveJoin tile core)).1.subset
  have hcolls := coll?_afterOnce j 1 (.collectiveJoin tile core)
  have hrest := State.afterOnce_rest j 1 (.collectiveJoin tile core)
  generalize j.afterOnce 1 _ = t at hpend hcolls hrest ⊢
  refine ⟨?_, ?_, ?_, ?_, hcolls, hpend⟩
  · rw [hrest, hw, hurest]
    exact ⟨rfl, rfl⟩
  · rw [hrest, hw, hurest]
  · rw [hrest, hw]
    exact hucore
  · rw [hrest, hw]
    exact hutask

end

end Sys2Proof.Machine
end


section
/-! PROOF. The statement on engine events: matrix commands, copies and collectives (R126, R189, R190, R196 to R198, R201 to R211, R348). -/

namespace Sys2Proof.Machine

/-- The command at the head of a queue of collectives joins, and the task's count goes on. -/
def Joins (s : State) (tile core : Nat) (c : ECmd) (rest : List ECmd) (id : W32) (P : State → Prop) : Prop :=
  ∃ t, exec (.collectiveJoin tile core) s = .next t ∧ (t.mem = s.mem ∧ t.attrs = s.attrs) ∧ t.cur = s.cur ∧ (t.core (tile * 8 + core)).q4 = rest ∧
    (t.task c.tid).colls.getD 0 id.toNat = (s.task c.tid).colls.getD 0 id.toNat + 1 ∧ P t

section
variable {s : State} {tile core : Nat} {c : ECmd} {rest : List ECmd} (hq : (s.core (tile * 8 + core)).q4 = c :: rest) (hparks : s.net.parks = [])
  (hreqs : s.podReqs tile (300 + core) = []) {d src : List Byte} (hjoin : (s.core (tile * 8 + core)).join4 = some ⟨some d, some [], src⟩)
  {p : CollPlan} (hp : CollPlan.of d = p) (hspan : p.span = false) (hclear : p.clear tile = true) (hsuits : p.suits p.tcnt = true)
  (hptr : p.pointerFault (tile - p.tfirst) p.tcnt = none) (hsrc : src.length = p.srcLen (tile - p.tfirst))
  {key : CollKey} (hkey : ⟨c.asid, p.collid, (s.task c.tid).colls.getD 0 p.collid.toNat⟩ = key) {m : CollMember}
  (hm : (⟨s.pkg.podIndex.toNat, tile - p.tfirst, c, d, [], src, 0⟩ : CollMember) = m)
  {o : Coll} (ho : (s.coll? key).getD (Coll.new s key) = o) (hk : o.key = key) (hv : o.verdict = none)
include hq hparks hreqs hjoin hp hspan hclear hsuits hptr hsrc hkey hm ho hk hv

theorem joins_open (hdec : (o.withMember m (tile - p.tfirst) p.tcnt).decide_ = none) :
    Joins s tile core c rest p.collid fun t => t.coll? key = some (o.withMember m (tile - p.tfirst) p.tcnt) := by
  obtain ⟨u, hnow, hpkg, hnet, hleave⟩ := join_leaves hq hparks hreqs hjoin hp hspan hclear hsuits hptr hsrc hkey hm
  have hou : (u.coll? key).getD (Coll.new u key) = o := by
    unfold State.coll? Coll.new at *
    rw [hnet, hnow, hpkg]
    exact ho
  subst hm
  obtain ⟨hrest, hcoll⟩ := joinColl_open hou hp hspan hk hv hdec
  obtain ⟨t, ht, hquiet, hcur, hq4, hcount, hcolls, -⟩ := hleave _ hrest
  exact ⟨t, ht, hquiet, hcur, hq4, hcount, (hcolls key).trans hcoll⟩

theorem joins_decided {v : Nat × List Byte × BitVec 5} (hdec : (o.withMember m (tile - p.tfirst) p.tcnt).decide_ = some v) (hserved : o.served = [])
    (hown : ∀ z ∈ o.members, z.pkg = s.pkg.podIndex.toNat) :
    Joins s tile core c rest p.collid fun t => t.coll? key = some { o.withMember m (tile - p.tfirst) p.tcnt with verdict := some v } ∧
      ∃ e ∈ t.net.pend, e.ev = .collectiveComplete key := by
  obtain ⟨u, hnow, hpkg, hnet, hleave⟩ := join_leaves hq hparks hreqs hjoin hp hspan hclear hsuits hptr hsrc hkey hm
  have hou : (u.coll? key).getD (Coll.new u key) = o := by
    unfold State.coll? Coll.new at *
    rw [hnet, hnow, hpkg]
    exact ho
  subst hm
  obtain ⟨hrest, hcoll, e, he, hev⟩ := joinColl_decides hou hp hspan hk hv hdec hserved (by rw [hpkg]; exact hown) (by rw [hpkg])
  obtain ⟨t, ht, hquiet, hcur, hq4, hcount, hcolls, hpend⟩ := hleave _ hrest
  exact ⟨t, ht, hquiet, hcur, hq4, hcount, (hcolls key).trans hcoll, e, hpend he, hev⟩

end

theorem reduced_eq {c : Coll} {p : CollPlan} (hcount : p.count = 1) (hop : p.op = 0) (hf : fmtOf p.src = 5 ∨ fmtOf p.src = 6)
    (hneed : c.need = p.tcnt) (h0 : 0 < p.tcnt) (h4 : ∀ i, i < c.need → (c.srcAt i).length = 4) :
    collReduce (fmtOf p.src) p.op ((collBytes p.src).getD 4) p.count p.tcnt ((List.range c.need).map c.srcAt) =
      (bytesOfNat 4 (((List.range c.need).map fun i => numberOf (c.srcAt i)).sum % 2 ^ 32), 0) := by
  have hbytes : (collBytes p.src).getD 4 = 4 := by
    unfold collBytes
    obtain hf | hf := hf <;> rw [hf] <;> rfl
  rw [hcount, hop, hbytes, collReduce_sum hf (by rw [List.length_map, List.length_range, hneed]) h0 (by
    intro b hb
    obtain ⟨i, hi, rfl⟩ := List.mem_map.1 hb
    exact h4 i (List.mem_range.1 hi)), List.map_map]
  rfl

/-- Settles O43, by the engine's step from its latches for matrix commands, by the accesses of engines to slices for copies, and by what the root decides
for collectives. -/
theorem engineEvents : Obligations.EngineEvents := by
  intro s tile core hcore
  dsimp only
  refine ⟨fun cmd hidle hl hq ho => mzero_starts hcore hidle hl hq ho, fun cmd hidle hl hq hrun hlines hw => matrix_latched hcore hidle hl hq hrun hlines hw,
    fun l hidle hl hq hc hon hr => latch_fed hcore hidle hl hq hc hon hr, fun r hrun hdone => ⟨?_, ?_⟩, fun c rest hrun hq => ⟨?_, fun ht => ⟨?_, ?_, ?_⟩⟩,
    fun r hrun => ⟨?_, ?_, ?_, ?_⟩, fun c rest hq hparks hreqs => ⟨fun hnew => ⟨?_, ?_, ?_⟩, fun d src hjoin => ⟨?_, ?_⟩⟩,
    fun key o m v ho hk hm hpkg hv hserved hparks htile hcoreOf hreqs => ⟨?_, ?_, ?_, ?_, ?_⟩, fun key o ho hk => ⟨?_, ?_⟩⟩
  · intro hleft hreqs hmine hops
    obtain ⟨t, ht, hquiet, hrun', htask, hcur⟩ := matrix_completes hrun hdone hleft hreqs hmine hops
    obtain ⟨hregs, hpc, hu, -⟩ := Slot.wokenBy_same s.cur 1
    refine ⟨t, ht, hquiet, hrun', htask, ?_, ?_⟩
    · rw [hcur, hregs, hpc, hu]
      exact ⟨rfl, rfl, rfl⟩
    · rw [hcur]
      exact Slot.wokenBy_woken ..
  · exact fun off data hleft hline hw hd ho hm => matrix_stores hrun hdone hleft hline hw hd ho hm
  · exact fun ht => copyStart_waits hrun hq ht
  · exact fun h => copyStart_badPointer hcore hrun hq ht h
  · exact fun h4 hva ha => copyStart_misaligned hcore hrun hq ht h4 hva ha
  · intro u off d sram h4 ha hva hl hl' hd hacq hsram
    have hruns := copyStart_reads hcore hrun hq ht h4 ha hva hl hl' hd hacq hsram
    refine ⟨fun hr => ?_, fun st hr hst => ?_⟩
    · rw [hr] at hruns
      exact hruns
    · rw [hr] at hruns
      have hfin : (st != 0) = true := by simpa using hst
      simp only [Option.getD_some, hfin] at hruns
      exact hruns
  · exact fun hw => copy_parked hrun hw
  · exact fun hw hf ht => copy_waits hcore hrun hw hf ht
  · intro va n u off vb v o hw hf ht hdesc hdata htotal hmode hsame hsingle hm hhere hhere' hrd hwr hidx h0 hn hn' hva hvb ha ha' hl hl'
    exact copy_transfers hcore hrun rfl hw hf ht hdesc hdata htotal hmode hsame hsingle hm hhere hhere' rfl hrd hwr hidx h0 hn hn' hva hvb ha ha' hl hl'
  · exact fun hw hf hrel hmine => copy_finishes hrun rfl hw hf hrel hmine
  · exact fun h => dropped_undescribed hq hparks hreqs hnew (joinStep_badPointer h)
  · exact fun h4 hva ha => dropped_undescribed hq hparks hreqs hnew (joinStep_misaligned h4 hva ha)
  · exact fun u off h4 ha hva hl hacq => join_describes hq hparks hreqs hnew h4 ha hva hl rfl hacq hcore
  · exact fun _ hclear => dropped_unclear hq hparks hreqs hjoin hclear
  · intro hspan hclear hsuits hptr hsrc hk hv htime hserved hown
    have hdecided := fun v h => joins_decided (v := v) hq hparks hreqs hjoin rfl hspan hclear hsuits hptr hsrc rfl rfl rfl hk hv h hserved hown
    refine ⟨fun h => joins_open hq hparks hreqs hjoin rfl hspan hclear hsuits hptr hsrc rfl rfl rfl hk hv (decide_waits (fun z hz => ?_) htime
      (h.imp_right And.right)), fun h => hdecided _ (decide_mismatch h), fun z hz halike hall => ⟨fun hkind => ?_, fun hkind hroot => ?_,
      fun hkind hop hcount hf hneed h0 h4 => ?_⟩⟩
    · obtain hnone | ⟨halike, -⟩ := h
      · exact absurd (hz.symm.trans hnone) (by simp)
      · exact halike z hz
    · exact hdecided _ (decide_barrier halike htime hz hall rfl hkind)
    · exact hdecided _ (decide_broadcast halike htime hz hall rfl hkind hroot)
    · refine hdecided _ ((decide_reduce halike htime hz hall rfl hkind).trans ?_)
      dsimp only
      rw [reduced_eq hcount hop hf hneed h0 h4]
      rfl
  · exact fun h hmine => ⟨_, collComplete_refused ho hm hpkg hv hserved hparks h, serveMember_collects rfl hk hserved hmine _ _⟩
  · exact fun h0 hr hmine => ⟨_, collComplete_pageRefused ho hm hpkg hv hserved hparks h0 hr, serveMember_collects rfl hk hserved hmine _ _⟩
  · exact fun h0 hr hw hrel hmine => ⟨_, collComplete_written ho hm hpkg hv hserved hparks h0 hr hw hrel, serveMember_collects rfl hk hserved hmine _ _⟩
  · intro h0 hr hw hput
    obtain ⟨hrest, hcoll, hpend⟩ := setColl_goesOn (s := s) (c := o.wrote_ m 0 (m.share v.2.1).length) hk
    refine ⟨_, collComplete_nothing ho hm hpkg hv hserved hparks h0 hr hw hput, ?_, by rw [hrest], ?_, hpend⟩
    · rw [hrest]
      exact ⟨rfl, rfl⟩
    · rw [hcoll, wrote_only hm hw hput]
  · intro u off h0 hr hw hput hb hmem hva hl hn
    obtain ⟨-, -, -, hmod, -⟩ := hl.1
    obtain ⟨t, hwrite, hput'⟩ := engWrite_slice hl (c := m.cmd) rfl rfl hb (by omega) hva hmem (300 + core)
    obtain ⟨hrest, hcoll, hpend⟩ := setColl_goesOn (s := t) (c := o.wrote_ m (m.share v.2.1).length (m.share v.2.1).length) hk
    refine ⟨_, collComplete_writes ho hm hpkg hv hserved hparks h0 hr hw htile hcoreOf hreqs hput hb (by omega) hwrite, fun a => ?_, ?_, ?_, ?_, hpend⟩
    · rw [hrest]
      exact hput'.wrote a
    · rw [hrest, hput'.rest]
    · rw [hrest, hput'.rest]
    · rw [hcoll, wrote_only hm hw (by omega)]
  · exact fun hv hserved hown => colltmo_expires ho hk hv hserved hown
  · exact fun hv => colltmo_decided ho hv

end Sys2Proof.Machine
end


section
/-! PROOF. The messages of worklists: what sending one changes, within a package and over the pod (R157, R169, R170, R422). -/

namespace Sys2Proof.Machine

/-! ### Worklists by their number -/

theorem wl?_updWl {s : State} {wl : Nat} {w : WorkList} (h : s.wl? wl = some w) (f : WorkList → WorkList) : (s.updWl wl f).wl? wl = some (f w) := by
  unfold State.updWl
  rw [h]
  exact Map.get?_set_same ..

@[simp] theorem State.updWl_net (s : State) (wl : Nat) (f : WorkList → WorkList) : (s.updWl wl f).net = s.net := by
  unfold State.updWl
  split <;> rfl

@[simp] theorem wl?_after (s : State) (n : Nat) (e : Event) (wl : Nat) : (s.after n e).wl? wl = s.wl? wl := rfl

@[simp] theorem wl?_afterOnce (s : State) (n : Nat) (e : Event) (wl : Nat) : (s.afterOnce n e).wl? wl = s.wl? wl := by
  rw [State.afterOnce_rest]
  rfl

@[simp] theorem wl?_updRecs (s : State) (p : SaveRec → Bool) (f : SaveRec → SaveRec) (wl : Nat) : (s.updRecs p f).wl? wl = s.wl? wl := rfl

/-! ### A step of a worklist -/

/-- What the messages of worklists change: worklists, save records, and what is on its way, of which nothing is lost. -/
structure WlStep (s t : State) : Prop where
  rest : t = { s with tiles := t.tiles, pkg := { s.pkg with wls := t.pkg.wls }, net := t.net }
  pend : s.net.pend ⊆ t.net.pend
  outbox : s.net.outbox ⊆ t.net.outbox
  wlTiles : ∀ w, t.wlTiles w = s.wlTiles w

theorem WlStep.refl (s : State) : WlStep s s := ⟨rfl, fun _ h => h, fun _ h => h, fun _ => rfl⟩

theorem WlStep.trans {s t u : State} (h : WlStep s t) (h' : WlStep t u) : WlStep s u :=
  ⟨by rw [h'.rest, h.rest], List.Subset.trans h.pend h'.pend, List.Subset.trans h.outbox h'.outbox, fun w => (h'.wlTiles w).trans (h.wlTiles w)⟩

theorem WlStep.now_eq {s t : State} (h : WlStep s t) : t.now = s.now := by
  rw [h.rest]
  rfl

theorem WlStep.own_eq {s t : State} (h : WlStep s t) : t.own = s.own := by
  rw [h.rest]
  rfl

theorem WlStep.mem_eq {s t : State} (h : WlStep s t) : t.mem = s.mem := by
  rw [h.rest]

theorem WlStep.podPort_eq {s t : State} (h : WlStep s t) (unit pkg : Nat) : t.podPort unit pkg = s.podPort unit pkg := by
  rw [h.rest]
  rfl

theorem WlStep.quiet {s t : State} (h : WlStep s t) : t.cur = s.cur ∧ t.tasks = s.tasks ∧ t.slots = s.slots := by
  rw [h.rest]
  exact ⟨rfl, rfl, rfl⟩

theorem wlStep_after (s : State) (n : Nat) (e : Event) : WlStep s (s.after n e) :=
  ⟨rfl, List.subset_append_left _ _, fun _ h => h, fun _ => rfl⟩

theorem wlStep_afterOnce (s : State) (n : Nat) (e : Event) : WlStep s (s.afterOnce n e) := by
  unfold State.afterOnce
  split
  · exact .refl s
  · exact wlStep_after ..

theorem wlStep_updWl (s : State) (wl : Nat) (f : WorkList → WorkList) : WlStep s (s.updWl wl f) := by
  unfold State.updWl
  split
  · exact ⟨rfl, fun _ h => h, fun _ h => h, fun _ => rfl⟩
  · exact .refl s

theorem wlStep_post (s : State) (pkg : Nat) (e : Event) : WlStep s (s.post pkg e) :=
  ⟨rfl, fun _ h => h, List.subset_append_left _ _, fun _ => rfl⟩

theorem wlStep_updRecs (s : State) (p : SaveRec → Bool) (f : SaveRec → SaveRec) : WlStep s (s.updRecs p f) := by
  refine ⟨rfl, fun _ h => h, fun _ h => h, fun w => ?_⟩
  unfold State.wlTiles State.updRecs
  simp only [List.filter_map, List.map_map]
  rfl

theorem wlStep_foldl {α : Type} {f : State → α → State} (h : ∀ s a, WlStep s (f s a)) (l : List α) (s : State) : WlStep s (l.foldl f s) :=
  foldl_keeps WlStep.refl WlStep.trans h l s

theorem wlStep_lantern (s : State) (pkg delay wl : Nat) (m : WlMsg) : WlStep s (s.lantern pkg delay wl m) := by
  unfold State.lantern
  split
  · split
    · exact wlStep_after ..
    · exact .refl s
  · split
    · exact .refl s
    · dsimp only
      have hpost : ∀ (u : State) (asid : BitVec 14) (lid : W32), WlStep u (u.postWl pkg wl asid lid m) := by
        intro u asid lid
        unfold State.postWl State.postMsg
        split
        · exact .refl u
        · exact wlStep_post ..
      split
      · exact (wlStep_updWl ..).trans (hpost ..)
      · exact hpost ..

/-! ### Sending a message (R169, R170, R422) -/

theorem wl?_postWl (s : State) (pkg wl j : Nat) (asid : BitVec 14) (lid : W32) (m : WlMsg) : (s.postWl pkg wl asid lid m).wl? j = s.wl? j := by
  unfold State.postWl State.postMsg
  split <;> rfl

/-- The sender notes an item that it sends to another package, and nothing else of the worklist changes. -/
theorem wl?_lantern {s : State} {wl : Nat} {w : WorkList} (h : s.wl? wl = some w) (pkg delay : Nat) (m : WlMsg) :
    ∃ n, (s.lantern pkg delay wl m).wl? wl = some { w with sent := n } := by
  unfold State.lantern
  split
  · split <;> exact ⟨w.sent, h⟩
  · simp only [h]
    rw [wl?_postWl]
    split
    · exact ⟨_, wl?_updWl h _⟩
    · exact ⟨w.sent, h⟩

theorem wl?_lantern_bare (s : State) (pkg delay j : Nat) {m : WlMsg} (hm : hasItem m = false) (wl : Nat) :
    (s.lantern pkg delay j m).wl? wl = s.wl? wl := by
  unfold State.lantern
  split
  · split <;> rfl
  · split
    · rfl
    · dsimp only
      rw [wl?_postWl, hm, if_neg (by decide)]

theorem Sends.mono {s t u : State} {wl pkg delay : Nat} {w : WorkList} {m : WlMsg} (h : Sends s t wl w pkg delay m) (hs : WlStep t u) :
    Sends s u wl w pkg delay m := by
  obtain ⟨hhere, haway⟩ := h
  refine ⟨fun hp => ?_, fun hp port hport => ?_⟩
  · obtain ⟨e, he, hmem⟩ := hhere hp
    exact ⟨e, he, hs.pend hmem⟩
  · obtain ⟨q, hq, hrest⟩ := haway hp port hport
    exact ⟨q, hs.outbox hq, hrest⟩

/-- What a message carries to another package. -/
theorem postWl_outbox {s : State} {pkg wl port : Nat} (hport : s.podPort 512 pkg = some port) (asid : BitVec 14) (lid : W32) (m : WlMsg) :
    ∃ q, (s.postWl pkg wl asid lid m).net.outbox = s.net.outbox ++ [(pkg, .podRequest port q)] ∧ q.asid = asid ∧ q.kind = 6 ∧
      q.msg = some (.lantern wl lid m) := by
  unfold State.postWl State.postMsg
  rw [hport]
  exact ⟨_, rfl, rfl, rfl, rfl⟩

theorem sends_lantern {s u : State} (hs : WlStep s u) {wl : Nat} {v w : WorkList} (hv : u.wl? wl = some v) (hasid : v.asid = w.asid)
    (hlaunch : v.launch = w.launch) (pkg delay : Nat) {m : WlMsg} {e : Event} (he : eventOf wl m = some e) :
    Sends s (u.lantern pkg delay wl m) wl w pkg delay m := by
  refine ⟨fun hp => ⟨e, he, ?_⟩, fun hp port hport => ?_⟩
  · unfold State.lantern
    rw [if_pos (hp.trans hs.own_eq.symm), he, ← hs.now_eq]
    exact List.mem_append_right _ (List.mem_singleton.2 rfl)
  · unfold State.lantern
    rw [if_neg (fun h => hp (h.trans hs.own_eq))]
    simp only [hv]
    generalize hx : (if hasItem m = true then u.updWl wl fun w => { w with sent := w.sent.set pkg (w.sent.getD 0 pkg + 1) } else u) = x
    have hux : WlStep u x := by
      rw [← hx]
      split
      · exact wlStep_updWl ..
      · exact .refl u
    obtain ⟨q, hq, hqa, hqk, hqm⟩ := postWl_outbox (wl := wl) (((hs.trans hux).podPort_eq 512 pkg).trans hport) v.asid (BitVec.ofNat 32 v.launch) m
    refine ⟨q, ?_, hqa.trans hasid, hqk, by rw [hqm, hlaunch]⟩
    rw [hq]
    exact List.mem_append_right _ (List.mem_singleton.2 rfl)

/-! ### Following a worklist through a step -/

/-- The state after a step of worklists, and what a worklist is there. -/
structure Tracks (s t : State) (wl : Nat) (v : WorkList) : Prop where
  step : WlStep s t
  list : t.wl? wl = some v

theorem Tracks.start {s : State} {wl : Nat} {w : WorkList} (h : s.wl? wl = some w) : Tracks s s wl w := ⟨.refl s, h⟩

section
variable {s t : State} {wl : Nat} {v : WorkList} (h : Tracks s t wl v)
include h

theorem Tracks.after (n : Nat) (e : Event) : Tracks s (t.after n e) wl v := ⟨h.step.trans (wlStep_after ..), h.list⟩

theorem Tracks.afterOnce (n : Nat) (e : Event) : Tracks s (t.afterOnce n e) wl v :=
  ⟨h.step.trans (wlStep_afterOnce ..), (wl?_afterOnce ..).trans h.list⟩

theorem Tracks.updRecs (p : SaveRec → Bool) (f : SaveRec → SaveRec) : Tracks s (t.updRecs p f) wl v := ⟨h.step.trans (wlStep_updRecs ..), h.list⟩

theorem Tracks.updWl (f : WorkList → WorkList) : Tracks s (t.updWl wl f) wl (f v) := ⟨h.step.trans (wlStep_updWl ..), wl?_updWl h.list f⟩

theorem Tracks.lantern (pkg delay : Nat) (m : WlMsg) : ∃ n, Tracks s (t.lantern pkg delay wl m) wl { v with sent := n } := by
  obtain ⟨n, hn⟩ := wl?_lantern h.list pkg delay m
  exact ⟨n, h.step.trans (wlStep_lantern ..), hn⟩

theorem Tracks.lantern_bare (pkg delay : Nat) {j : Nat} {m : WlMsg} (hm : hasItem m = false) : Tracks s (t.lantern pkg delay j m) wl v :=
  ⟨h.step.trans (wlStep_lantern ..), (wl?_lantern_bare t pkg delay j hm wl).trans h.list⟩

/-- A message that needs no item's count, sent to each of a list. -/
theorem Tracks.lanterns {α : Type} (l : List α) (pkg delay : α → Nat) (m : α → WlMsg) (hm : ∀ a, hasItem (m a) = false) :
    Tracks s (l.foldl (fun s a => s.lantern (pkg a) (delay a) wl (m a)) t) wl v := by
  induction l generalizing t with
  | nil => exact h
  | cons a l ih => exact ih (h.lantern_bare (pkg a) (delay a) (hm a))

theorem Tracks.afters {α : Type} (l : List α) (delay : α → Nat) (e : α → Event) :
    Tracks s (l.foldl (fun s a => s.after (delay a) (e a)) t) wl v := by
  induction l generalizing t with
  | nil => exact h
  | cons a l ih => exact ih (h.after (delay a) (e a))

theorem Tracks.sends {w : WorkList} (hasid : v.asid = w.asid) (hlaunch : v.launch = w.launch) (pkg delay : Nat) {m : WlMsg} {e : Event}
    (he : eventOf wl m = some e) : Sends s (t.lantern pkg delay wl m) wl w pkg delay m :=
  sends_lantern h.step h.list hasid hlaunch pkg delay he

/-- Each of a list of messages is sent. -/
theorem Tracks.sends_each {w : WorkList} (hasid : v.asid = w.asid) (hlaunch : v.launch = w.launch) {α : Type} (l : List α) (pkg delay : α → Nat)
    (m : α → WlMsg) (hm : ∀ a, hasItem (m a) = false) (e : α → Event) (he : ∀ a, eventOf wl (m a) = some (e a)) :
    ∀ a ∈ l, Sends s (l.foldl (fun s a => s.lantern (pkg a) (delay a) wl (m a)) t) wl w (pkg a) (delay a) (m a) := by
  induction l generalizing t with
  | nil => exact fun _ ha => absurd ha List.not_mem_nil
  | cons b l ih =>
    intro a ha
    obtain rfl | ha := List.mem_cons.1 ha
    · exact (h.sends hasid hlaunch (pkg a) (delay a) (he a)).mono (wlStep_foldl (fun s c => wlStep_lantern ..) l _)
    · exact ih (h.lantern_bare (pkg b) (delay b) (hm b)) a ha

/-- Each of a list of events is on its way. -/
theorem Tracks.posts_each {α : Type} (l : List α) (delay : α → Nat) (e : α → Event) :
    ∀ a ∈ l, ⟨s.now + delay a, e a⟩ ∈ (l.foldl (fun s a => s.after (delay a) (e a)) t).net.pend := by
  induction l generalizing t with
  | nil => exact fun _ ha => absurd ha List.not_mem_nil
  | cons b l ih =>
    intro a ha
    obtain rfl | ha := List.mem_cons.1 ha
    · refine (wlStep_foldl (fun s c => wlStep_after ..) l _).pend ?_
      rw [← h.step.now_eq]
      exact List.mem_append_right _ (List.mem_singleton.2 rfl)
    · exact ih (h.after (delay b) (e b)) a ha

end

end Sys2Proof.Machine
end


section
/-! PROOF. What lamps do: pushes, pops, demotions and copies of K (R157, R160, R161, R164, R168, R170, R386, R387, Table 7.3). -/

namespace Sys2Proof.Machine

/-! ### Operations that several messages share -/

/-- The state in which a push has been counted, where it is accepted. -/
def State.notePush (s : State) (m : PushMsg) (status : Nat) : State :=
  if status = 0 then s.updWl m.wl fun w => { w with pushes := w.pushes + BitVec.ofNat 64 m.q.size } else s

theorem State.answerPush_eq (s : State) {m : PushMsg} (hby : m.by_ ≠ .keeper) (status hop : Nat) : s.answerPush m status hop =
    (s.notePush m status).lantern (m.tile / 512) hop m.wl (.pushAnswer { m with since := s.now } status) := by
  have hnow : (s.notePush m status).now = s.now := by
    unfold State.notePush
    split
    · exact (wlStep_updWl ..).now_eq
    · rfl
  unfold State.answerPush
  rw [if_neg (by simpa using hby)]
  show (if tilePkg m.tile = (s.notePush m status).own then _ else _) = _
  by_cases hp : tilePkg m.tile = (s.notePush m status).own
  · rw [if_pos hp, ← hnow]
    exact (if_pos hp).symm
  · rw [if_neg hp, ← hnow]
    rfl

section
variable {s t : State} {wl : Nat} {v : WorkList} (h : Tracks s t wl v)
include h

theorem Tracks.watchWl : Tracks s (t.watchWl wl) wl v := by
  unfold State.watchWl
  split
  · split
    · exact h
    · exact h.afterOnce ..
  · exact h

/-- The watchdog of a worklist that held nothing counts from here. -/
theorem Tracks.stirWatch : ∃ n, Tracks s (t.stirWatch wl) wl { v with lastPop := n } := by
  unfold State.stirWatch
  split
  · exact ⟨_, (h.updWl _).watchWl⟩
  · exact ⟨v.lastPop, h⟩

theorem Tracks.sendPop (w : WorkList) (m : PopMsg) : Tracks s (t.sendPop w m) wl v := by
  unfold State.sendPop
  exact h.lantern_bare _ _ rfl

/-- A blocked pop tries again, and dispatchers prefetch. -/
theorem Tracks.stirWl : ∃ l, Tracks s (t.stirWl wl) wl { v with waiters := l } := by
  unfold State.stirWl
  rw [h.list]
  dsimp only
  split
  · exact ⟨v.waiters, h⟩
  · have hwait : ∃ l, Tracks s (match v.waiters with
        | [] => t
        | m :: rest => (t.updWl wl fun w => { w with waiters := rest }).sendPop v m) wl { v with waiters := l } := by
      split
      · exact ⟨v.waiters, h⟩
      · exact ⟨_, (h.updWl _).sendPop ..⟩
    obtain ⟨l, hl⟩ := hwait
    have hrecs := hl.updRecs (fun r => r.slot.status == .blocked (.worklist wl) && r.slot.sc.asid == v.asid) fun r =>
      { r with ready := true, slot := { r.slot with occurred := true } }
    refine ⟨l, foldl_holds (P := fun u => Tracks s u wl { v with waiters := l }) hrecs fun u a _ hu => ?_⟩
    split
    · exact hu
    · exact hu.afterOnce ..

theorem Tracks.stirAll : ∃ l, Tracks s (t.stirAll wl) wl { v with waiters := l } := by
  unfold State.stirAll
  refine foldl_holds (P := fun u => ∃ l, Tracks s u wl { v with waiters := l }) ⟨v.waiters, h⟩ fun u _ _ hu => ?_
  obtain ⟨l, hl⟩ := hu
  obtain ⟨l', hl'⟩ := hl.stirWl
  exact ⟨l', hl'⟩

/-- An accepted push is counted (R170). -/
theorem Tracks.notePush {m : PushMsg} (hm : m.wl = wl) (status : Nat) : Tracks s (t.notePush m status) wl { v with
    pushes := if status = 0 then v.pushes + BitVec.ofNat 64 m.q.size else v.pushes } := by
  subst hm
  unfold State.notePush
  split
  · exact h.updWl _
  · exact h

theorem Tracks.answerPush {m : PushMsg} (hm : m.wl = wl) (status hop : Nat) : ∃ n, Tracks s (t.answerPush m status hop) wl { v with
    pushes := if status = 0 ∧ m.by_ ≠ .keeper then v.pushes + BitVec.ofNat 64 m.q.size else v.pushes, sent := n } := by
  by_cases hk : m.by_ = .keeper
  · rw [if_neg (fun hc => hc.2 hk), State.answerPush, if_pos (by rw [hk]; rfl)]
    exact ⟨v.sent, h⟩
  · subst hm
    rw [State.answerPush_eq t hk]
    obtain ⟨n, hn⟩ := (h.notePush rfl status).lantern (m.tile / 512) hop (.pushAnswer { m with since := t.now } status)
    have hif : (if status = 0 ∧ m.by_ ≠ .keeper then v.pushes + BitVec.ofNat 64 m.q.size else v.pushes) =
        if status = 0 then v.pushes + BitVec.ofNat 64 m.q.size else v.pushes := if_congr (and_iff_left hk) rfl rfl
    exact ⟨n, by rw [hif]; exact hn⟩

theorem Tracks.answerPush_sends {w : WorkList} (hasid : v.asid = w.asid) (hlaunch : v.launch = w.launch) {m : PushMsg} (hm : m.wl = wl)
    (hby : m.by_ ≠ .keeper) (status hop : Nat) :
    Sends s (t.answerPush m status hop) wl w (m.tile / 512) hop (.pushAnswer { m with since := s.now } status) := by
  subst hm
  rw [State.answerPush_eq t hby, h.step.now_eq]
  exact (h.notePush rfl status).sends hasid hlaunch _ _ rfl

end
theorem ahead_iff {p : Nat} {k : Option Nat} : ahead p k = true ↔ ∀ c, k = some c → p < c := by
  cases k <;> simp [ahead]

/-! ### What the keeper waits for (R164) -/

/-- Nothing is left of what the keeper has asked for. -/
def KeeperOp.over (o : KeeperOp) : Prop := o.lamps = [] ∧ o.calls = [] ∧ o.loose = 0

theorem tryEndPull_none {t : State} {wl : Nat} {v : WorkList} (h : t.wl? wl = some v) (hp : v.pull = none) : t.tryEndPull wl = t := by
  unfold State.tryEndPull
  rw [h]
  dsimp only
  rw [hp]

theorem tryEndPull_left {t : State} {wl : Nat} {v : WorkList} (h : t.wl? wl = some v) {p : Pull} (hp : v.pull = some p) (hl : p.left ≠ []) :
    t.tryEndPull wl = t := by
  unfold State.tryEndPull
  rw [h]
  dsimp only
  rw [hp]
  exact if_neg (by simp [hl])

section
variable {s t : State} {wl : Nat} {v : WorkList} (h : Tracks s t wl v) {f : KeeperOp → KeeperOp} {r : KeeperOp} (hr : v.op = some r)
include h

theorem opStep_idle (hnone : v.op = none) : t.opStep wl f = t := by
  unfold State.opStep
  rw [h.list]
  dsimp only
  rw [hnone]
  rfl

include hr

theorem opStep_goesOn (ho : ¬(f r).over) : t.opStep wl f = t.updWl wl fun w => { w with op := some (f r) } := by
  unfold State.opStep
  rw [h.list]
  dsimp only
  rw [hr, Option.map_some]
  exact if_neg (by simpa [KeeperOp.over, and_assoc] using ho)

theorem opStep_ends (hp : v.pull = none) (ho : (f r).over) : Tracks s (t.opStep wl f) wl { v with op := none, inbox := [] } ∧
    ∀ e ∈ (f r).next.toList ++ v.inbox, ⟨s.now, e⟩ ∈ (t.opStep wl f).net.pend := by
  have hbase := h.updWl fun w => { w with op := none, inbox := [] }
  have hgo := hbase.afters ((f r).next.toList ++ v.inbox) (fun _ => 0) fun e => e
  have heq : t.opStep wl f = ((f r).next.toList ++ v.inbox).foldl (fun s e => s.after 0 e) (t.updWl wl fun w => { w with op := none, inbox := [] }) := by
    unfold State.opStep
    rw [h.list]
    dsimp only
    rw [hr, Option.map_some]
    exact (if_pos (by simpa [KeeperOp.over, and_assoc] using ho)).trans (tryEndPull_none hgo.list hp)
  rw [heq]
  exact ⟨hgo, hbase.posts_each _ (fun _ => 0) fun e => e⟩

end

/-- A step of what the keeper is about: it ends it and takes up what has waited, or goes on. -/
theorem Tracks.opStep {s t : State} {wl : Nat} {v : WorkList} (h : Tracks s t wl v) (hp : v.pull = none) (f : KeeperOp → KeeperOp) :
    ∃ o i, Tracks s (t.opStep wl f) wl { v with op := o, inbox := i } ∧ ∀ r, v.op = some r → (¬(f r).over → o = some (f r)) ∧
      ((f r).over → o = none ∧ ∀ e ∈ (f r).next.toList ++ v.inbox, ⟨s.now, e⟩ ∈ (t.opStep wl f).net.pend) := by
  cases hop : v.op with
  | none =>
    rw [opStep_idle h hop]
    refine ⟨none, v.inbox, ?_, fun r hr => by cases hr⟩
    rw [← hop]
    exact h
  | some r =>
    by_cases ho : (f r).over
    · obtain ⟨hend, hposts⟩ := opStep_ends h hop hp ho
      refine ⟨none, [], hend, fun r' hr => ?_⟩
      cases hr
      exact ⟨fun hn => absurd ho hn, fun _ => ⟨rfl, hposts⟩⟩
    · rw [opStep_goesOn h hop ho]
      refine ⟨_, v.inbox, h.updWl _, fun r' hr => ?_⟩
      cases hr
      exact ⟨fun _ => rfl, fun hc => absurd hc ho⟩

/-! ### FPUSH (R160, R161, R170) -/

/-- The lamp inserts an item, which becomes poppable, and answers the push. -/
def State.takeItem (s : State) (lamp : Nat) (m : PushMsg) (back : Nat) : State :=
  (((s.stirWatch m.wl).updWl m.wl fun w => w.putFront lamp m.q.first none).stirWl m.wl).answerPush m 0 back

/-- The worklist with an item more at a lamp. -/
structure TookItem (v x : WorkList) (lamp : Nat) (m : PushMsg) : Prop where
  rest : x = { v with parts := v.parts.set lamp (v.part lamp ++ [⟨m.q.first, none⟩]), lastPop := x.lastPop, waiters := x.waiters, pushes := x.pushes, sent := x.sent }
  pushes : x.pushes = if m.by_ = .keeper then v.pushes else v.pushes + BitVec.ofNat 64 m.q.size

theorem TookItem.part {v x : WorkList} {lamp : Nat} {m : PushMsg} (h : TookItem v x lamp m) : x.part lamp = v.part lamp ++ [⟨m.q.first, none⟩] := by
  rw [h.rest]
  exact Map.getD_set_same ..

section
variable {s t : State} {wl : Nat} {v : WorkList} (h : Tracks s t wl v) {m : PushMsg} (hm : m.wl = wl)
include h hm

theorem Tracks.takeItem (lamp back : Nat) : ∃ x, Tracks s (t.takeItem lamp m back) wl x ∧ TookItem v x lamp m := by
  subst hm
  obtain ⟨a, ha⟩ := h.stirWatch
  obtain ⟨l, hl⟩ := (ha.updWl fun w => w.putFront lamp m.q.first none).stirWl
  obtain ⟨n, hn⟩ := hl.answerPush rfl 0 back
  refine ⟨_, hn, rfl, ?_⟩
  by_cases hk : m.by_ = .keeper <;> simp [hk, WorkList.putFront]

theorem Tracks.takeItem_sends {w : WorkList} (hasid : v.asid = w.asid) (hlaunch : v.launch = w.launch) (hby : m.by_ ≠ .keeper) (lamp back : Nat) :
    Sends s (t.takeItem lamp m back) wl w (m.tile / 512) back (.pushAnswer { m with since := s.now } 0) := by
  subst hm
  obtain ⟨a, ha⟩ := h.stirWatch
  obtain ⟨l, hl⟩ := (ha.updWl fun w => w.putFront lamp m.q.first none).stirWl
  exact hl.answerPush_sends hasid hlaunch rfl hby 0 back

end

section
variable {s : State} {wl lamp : Nat} {w : WorkList} {m : PushMsg} (hw : s.wl? wl = some w) (hopen : w.closed = false) (hm : m.wl = wl)
include hw hopen hm

theorem fpush_taken (hstage : m.stage ≠ .placed) (hsize : m.q.size = 1) (hv : m.v = (w.lampK.getD (none, 0) lamp).2)
    (hhome : w.home = s.pkg.podIndex.toNat → (w.lampK.getD (none, 0) lamp).2 = w.v)
    (hahead : ∀ c, (w.lampK.getD (none, 0) lamp).1 = some c → m.q.pos < c) (hplaces : w.places ≠ 0) (hentry : s.hasEntry w lamp = true) :
    exec (.fpush lamp m) s = .next ((s.updWl wl fun w => { w with places := w.places - 1 }).takeItem lamp (m.hop s.now)
      (hopDie (m.tile % 512) (lamp % 4))) := by
  subst hm
  rw [exec_fpush, execFpush]
  dsimp only
  rw [show (m.hop s.now).wl = m.wl from rfl, hw]
  dsimp only
  rw [hopen, if_neg (by decide), if_neg (by simpa [PushMsg.hop] using hstage), if_pos ⟨hv, hhome, ahead_iff.2 hahead, hplaces, hsize, hentry⟩]
  rfl

theorem fpush_forwarded (hstage : m.stage ≠ .placed) (h : m.v ≠ (w.lampK.getD (none, 0) lamp).2 ∨
    (w.home = s.pkg.podIndex.toNat ∧ (w.lampK.getD (none, 0) lamp).2 ≠ w.v) ∨
    ¬(∀ c, (w.lampK.getD (none, 0) lamp).1 = some c → m.q.pos < c) ∨ w.places = 0 ∨ m.q.size ≠ 1 ∨ s.hasEntry w lamp = false) :
    exec (.fpush lamp m) s = .next (s.lantern w.home (hopDies (lamp % 4) (w.keeperLamp % 4)) wl (.fwd lamp (m.hop s.now))) := by
  subst hm
  rw [exec_fpush, execFpush]
  dsimp only
  rw [show (m.hop s.now).wl = m.wl from rfl, hw]
  dsimp only
  rw [hopen, if_neg (by decide), if_neg (by simpa [PushMsg.hop] using hstage), if_neg (by
    rintro ⟨hv, hhome, hahead, hplaces, hsize, hentry⟩
    have hb := ahead_iff.1 hahead
    have hh : w.home = s.pkg.podIndex.toNat → (w.lampK.getD (none, 0) lamp).2 = w.v := hhome
    rw [hentry] at h
    tauto)]
  rfl

/-- What the keeper has placed is inserted, and the keeper hears of it. -/
theorem fpush_placed (hstage : m.stage = .placed) (hentry : s.hasEntry w lamp = true) :
    exec (.fpush lamp m) s = .next (let t := s.takeItem lamp (m.hop s.now) (hopDie (m.tile % 512) (lamp % 4))
      if w.home = s.pkg.podIndex.toNat then t.opStep wl fun o => { o with loose := o.loose - 1 } else t.updWl wl fun w => { w with answered := w.answered + 1 }) := by
  subst hm
  rw [exec_fpush, execFpush]
  dsimp only
  rw [show (m.hop s.now).wl = m.wl from rfl, hw]
  dsimp only
  rw [hopen, if_neg (by decide), if_pos (by simpa [PushMsg.hop] using hstage), if_pos hentry]
  obtain ⟨x, hx, -⟩ := (Tracks.start hw).takeItem (m := m.hop s.now) rfl lamp (hopDie (m.tile % 512) (lamp % 4))
  have hown : w.home = (s.takeItem lamp (m.hop s.now) (hopDie (m.tile % 512) (lamp % 4))).own ↔ w.home = s.pkg.podIndex.toNat := by
    rw [hx.step.own_eq]
    rfl
  exact congrArg _ (if_congr hown rfl rfl)

end

end Sys2Proof.Machine
end


section
/-! PROOF. What reserves do with pushes, and the steps of FPUSH and RPUSH (R162, R163, R170, Table 7.3). -/

namespace Sys2Proof.Machine

/-- A step changes no slot and no task. -/
def Quiet (s t : State) : Prop := t.cur = s.cur ∧ t.tasks = s.tasks ∧ t.slots = s.slots

theorem Tracks.quiet {s t : State} {wl : Nat} {v : WorkList} (h : Tracks s t wl v) : Quiet s t := h.step.quiet

/-! ### FPUSH -/

section
variable {s : State} {wl lamp : Nat} {w : WorkList} {m : PushMsg} (hw : s.wl? wl = some w) (hopen : w.closed = false) (hm : m.wl = wl)
include hw hopen hm

theorem fpush_takes (hstage : m.stage ≠ .placed) (hsize : m.q.size = 1) (hv : m.v = (w.lampK.getD (none, 0) lamp).2)
    (hhome : w.home = s.pkg.podIndex.toNat → (w.lampK.getD (none, 0) lamp).2 = w.v)
    (hahead : ∀ c, (w.lampK.getD (none, 0) lamp).1 = some c → m.q.pos < c) (hplaces : w.places ≠ 0) (hentry : s.hasEntry w lamp = true) :
    ∃ t, exec (.fpush lamp m) s = .next t ∧ Quiet s t ∧
      (m.by_ ≠ .keeper → Sends s t wl w (m.tile / 512) (hopDie (m.tile % 512) (lamp % 4)) (.pushAnswer (m.hop s.now) 0)) ∧
      ∃ v, t.wl? wl = some v ∧ v.part lamp = w.part lamp ++ [⟨m.q.first, none⟩] ∧ v.places = w.places - 1 ∧
        (v.pushes = if m.by_ = .keeper then w.pushes else w.pushes + BitVec.ofNat 64 1) ∧ v.k = w.k ∧ v.heap = w.heap := by
  have hbase := (Tracks.start hw).updWl fun w => { w with places := w.places - 1 }
  obtain ⟨x, hx, ht⟩ := hbase.takeItem (m := m.hop s.now) hm lamp (hopDie (m.tile % 512) (lamp % 4))
  refine ⟨_, fpush_taken hw hopen hm hstage hsize hv hhome hahead hplaces hentry, hx.quiet,
    fun hby => hbase.takeItem_sends (m := m.hop s.now) hm rfl rfl hby lamp _, x, hx.list, ht.part, ?_, ?_, ?_, ?_⟩
  · rw [ht.rest]
  · rw [← hsize]
    exact ht.pushes
  · rw [ht.rest]
  · rw [ht.rest]

theorem fpush_forwards (hstage : m.stage ≠ .placed) (h : m.v ≠ (w.lampK.getD (none, 0) lamp).2 ∨
    (w.home = s.pkg.podIndex.toNat ∧ (w.lampK.getD (none, 0) lamp).2 ≠ w.v) ∨
    ¬(∀ c, (w.lampK.getD (none, 0) lamp).1 = some c → m.q.pos < c) ∨ w.places = 0 ∨ m.q.size ≠ 1 ∨ s.hasEntry w lamp = false) :
    ∃ t, exec (.fpush lamp m) s = .next t ∧ Quiet s t ∧ Sends s t wl w w.home (hopDies (lamp % 4) (w.keeperLamp % 4)) (.fwd lamp (m.hop s.now)) ∧
      ∃ v, t.wl? wl = some v ∧ v.parts = w.parts ∧ v.places = w.places ∧ v.k = w.k ∧ v.heap = w.heap := by
  obtain ⟨n, hn⟩ := (Tracks.start hw).lantern w.home (hopDies (lamp % 4) (w.keeperLamp % 4)) (.fwd lamp (m.hop s.now))
  exact ⟨_, fpush_forwarded hw hopen hm hstage h, hn.quiet, (Tracks.start hw).sends rfl rfl _ _ rfl, _, hn.list, rfl, rfl, rfl, rfl⟩

theorem fpush_places (hstage : m.stage = .placed) (hentry : s.hasEntry w lamp = true) (hpull : w.pull = none) :
    ∃ t, exec (.fpush lamp m) s = .next t ∧
      (m.by_ ≠ .keeper → Sends s t wl w (m.tile / 512) (hopDie (m.tile % 512) (lamp % 4)) (.pushAnswer (m.hop s.now) 0)) ∧
      (∀ r, w.home = s.pkg.podIndex.toNat → w.op = some r → r.lamps = [] → r.calls = [] → r.loose = 1 →
        ∀ e ∈ r.next.toList ++ w.inbox, ⟨s.now, e⟩ ∈ t.net.pend) ∧
      ∃ v, t.wl? wl = some v ∧ v.part lamp = w.part lamp ++ [⟨m.q.first, none⟩] ∧ v.places = w.places ∧
        (v.answered = if w.home = s.pkg.podIndex.toNat then w.answered else w.answered + 1) ∧
        ∀ r, w.home = s.pkg.podIndex.toNat → w.op = some r →
          v.op = if r.lamps = [] ∧ r.calls = [] ∧ r.loose = 1 then none else some { r with loose := r.loose - 1 } := by
  have hstart := Tracks.start hw
  have hgo := fpush_placed hw hopen hm hstage hentry
  obtain ⟨x, hx, ht⟩ := hstart.takeItem (m := m.hop s.now) hm lamp (hopDie (m.tile % 512) (lamp % 4))
  have hsend := fun hby => hstart.takeItem_sends (m := m.hop s.now) hm rfl rfl (w := w) hby lamp (hopDie (m.tile % 512) (lamp % 4))
  have hxop : x.op = w.op := by rw [ht.rest]
  have hxpull : x.pull = none := by rw [ht.rest]; exact hpull
  have hxinbox : x.inbox = w.inbox := by rw [ht.rest]
  have hxplaces : x.places = w.places := by rw [ht.rest]
  have hxans : x.answered = w.answered := by rw [ht.rest]
  have hlast : ∀ r : KeeperOp, KeeperOp.over { r with loose := r.loose - 1 } ↔ r.lamps = [] ∧ r.calls = [] ∧ r.loose = 1 := by
    intro r
    unfold KeeperOp.over
    exact and_congr_right fun _ => and_congr_right fun _ => sub_eq_zero
  by_cases hhome : w.home = s.pkg.podIndex.toNat
  · obtain ⟨o, i, hstep, hcase⟩ := (Tracks.start hx.list).opStep hxpull fun o => { o with loose := o.loose - 1 }
    rw [hxop, hxinbox, hx.step.now_eq] at hcase
    refine ⟨_, hgo.trans (congrArg _ (if_pos hhome)), fun hby => (hsend hby).mono hstep.step, fun r _ hr hl hc hn e he => ?_,
      _, hstep.list, ht.part, hxplaces, hxans.trans (if_pos hhome).symm, fun r _ hr => ?_⟩
    · exact ((hcase r hr).2 ((hlast r).2 ⟨hl, hc, hn⟩)).2 e he
    · by_cases hover : r.lamps = [] ∧ r.calls = [] ∧ r.loose = 1
      · exact ((hcase r hr).2 ((hlast r).2 hover)).1.trans (if_pos hover).symm
      · exact ((hcase r hr).1 (mt (hlast r).1 hover)).trans (if_neg hover).symm
  · have hdone := hx.updWl fun w => { w with answered := w.answered + 1 }
    refine ⟨_, hgo.trans (congrArg _ (if_neg hhome)), fun hby => (hsend hby).mono (wlStep_updWl ..), fun r hr => absurd hr hhome,
      _, hdone.list, ht.part, hxplaces, ?_, fun r hr => absurd hr hhome⟩
    rw [if_neg hhome, ← hxans]

end

/-! ### RPUSH -/

theorem mem_insertItem {l : List QItem} {p q : QItem} : p ∈ insertItem l q ↔ p = q ∨ p ∈ l := by
  induction l with
  | nil => simp [insertItem]
  | cons a l ih =>
    unfold insertItem
    split
    · exact List.mem_cons
    · rw [List.mem_cons, ih, List.mem_cons]
      tauto

/-- The items of a tile's heap with one more. -/
def WorkList.withItem (w : WorkList) (tile : Nat) (q : QItem) : WorkList := { w with heap := w.heap.set tile (insertItem (w.heap.getD [] tile) q) }

theorem WorkList.mem_withItem (w : WorkList) (tile : Nat) (q p : QItem) :
    p ∈ (w.withItem tile q).heap.getD [] tile ↔ p = q ∨ p ∈ w.heap.getD [] tile := by
  show p ∈ (w.heap.set tile _).getD [] tile ↔ _
  rw [Map.getD_set_same, mem_insertItem]

theorem WorkList.heap_withItem_ne (w : WorkList) {tile a : Nat} (h : a ≠ tile) (q : QItem) :
    (w.withItem tile q).heap.getD [] a = w.heap.getD [] a := by
  show (w.heap.set tile _).getD [] a = _
  rw [Map.getD_set, if_neg h]

/-- The worklist with a run more at a tile, of the first items that its heap and one more make. -/
def WorkList.withRun (w : WorkList) (tile slot : Nat) (q : QItem) : WorkList :=
  let all := insertItem (w.heap.getD [] tile) q
  { w with heap := w.heap.set tile (all.drop 64), nruns := w.nruns + 1,
           runs := w.runs.set tile (w.runs.getD [] tile ++ [⟨slot, all.take 64, (all.take 64).length, none⟩]) }

theorem Tracks.sendHead {s t : State} {wl : Nat} {v : WorkList} (h : Tracks s t wl v) (tile : Nat) : Tracks s (t.sendHead wl tile) wl v := by
  unfold State.sendHead
  rw [h.list]
  dsimp only
  exact iteInduction (motive := fun u => Tracks s u wl v) (fun _ => h) fun _ => h.lantern_bare _ _ rfl

section
variable {s : State} {wl : Nat} {w : WorkList} (hw : s.wl? wl = some w) (tile : Nat) (q : QItem) (d : Bool)
include hw

theorem insertReserve_room (h : s.heapRoom w tile = true) :
    s.insertReserve wl tile q d = .done ((s.updWl wl fun w => w.withItem tile q).sendHead wl tile) := by
  unfold State.insertReserve
  rw [hw]
  exact if_pos h

theorem insertReserve_full (h : s.heapRoom w tile = false) (hrun : s.freeRun w tile d = none) : s.insertReserve wl tile q d = .full := by
  unfold State.insertReserve
  rw [hw]
  dsimp only
  rw [h, if_neg (by decide), hrun]

theorem insertReserve_run (h : s.heapRoom w tile = false) {slot : Nat} (hrun : s.freeRun w tile d = some slot) {r : Nat} {s' : State}
    (hwrite : s.vwrite tile w.asid (w.runVa tile slot) (runBytes ((insertItem (w.heap.getD [] tile) q).take 64)) 0 = (.ok r, s')) :
    s.insertReserve wl tile q d = .done ((s'.updWl wl fun v => { v with
      heap := v.heap.set tile ((insertItem (w.heap.getD [] tile) q).drop 64), nruns := v.nruns + 1,
      runs := v.runs.set tile (v.runs.getD [] tile ++ [⟨slot, (insertItem (w.heap.getD [] tile) q).take 64,
        ((insertItem (w.heap.getD [] tile) q).take 64).length, none⟩]) }).sendHead wl tile) := by
  unfold State.insertReserve
  rw [hw]
  dsimp only
  rw [h, if_neg (by decide), hrun]
  dsimp only
  rw [hwrite]

end

section
variable {s : State} {wl : Nat} {w : WorkList} {m : PushMsg} (hw : s.wl? wl = some w) (hopen : w.closed = false) (hm : m.wl = wl)
include hw hopen hm

theorem rpush_demoted (hstage : m.stage = .demoted) {t : State} (hdone : s.insertReserve wl (m.tile % 512) m.q true = .done t) :
    exec (.rpush m) s = .next (t.after (hopDie (m.tile % 512) (w.keeperLamp % 4)) (.pushAnswer { m.hop s.now with since := t.now } 0)) := by
  subst hm
  rw [exec_rpush, execRpush]
  dsimp only
  rw [show (m.hop s.now).wl = m.wl from rfl, hw, show (m.hop s.now).stage = .demoted from hstage]
  dsimp only
  rw [hopen, if_neg (by decide), if_pos (by decide), if_neg (by decide),
    show s.insertReserve m.wl (tileIx (m.hop s.now).tile) (m.hop s.now).q true = .done t from hdone]
  dsimp only
  rw [← hstage]
  rfl

/-- A push that its tile may not take at its version is a new one. -/
theorem rpush_again (hstage : m.stage = .new) (h : (∀ c, (w.tileK.getD (none, 0) (m.tile % 512)).1 = some c → m.q.pos < c) ∨
    m.v ≠ (w.tileK.getD (none, 0) (m.tile % 512)).2) : exec (.rpush m) s = .next (s.sendPush (m.hop s.now)) := by
  subst hm
  rw [exec_rpush, execRpush]
  dsimp only
  rw [show (m.hop s.now).wl = m.wl from rfl, hw, show (m.hop s.now).stage = .new from hstage]
  dsimp only
  have h' : ahead m.q.pos (w.tileK.getD (none, 0) (m.tile % 512)).1 = true ∨ m.v ≠ (w.tileK.getD (none, 0) (m.tile % 512)).2 := h.imp_left ahead_iff.2
  simp only [hopen, show (PushStage.new == .spill) = false from rfl, show (PushStage.new == .demoted) = false from rfl, Bool.false_eq_true, if_false]
  exact if_pos (by simpa [PushMsg.hop, tileIx] using h')

section
variable (hstage : m.stage = .new ∨ m.stage = .reserve) (hahead : ¬∀ c, (w.tileK.getD (none, 0) (m.tile % 512)).1 = some c → m.q.pos < c)
    (hv : m.stage = .new → m.v = (w.tileK.getD (none, 0) (m.tile % 512)).2)
include hstage hahead hv

/-- What the tile's insert into its reserve comes to. -/
theorem rpush_inserts : exec (.rpush m) s = match (s.stirWatch wl).insertReserve wl (m.tile % 512) m.q false with
    | .done s' => .next (s'.answerPush (m.hop s.now) (match s'.wl? wl with | some w => if w.closed then 2 else 0 | none => 2) (hopTile (m.tile % 512) (m.tile % 512)))
    | .again s' => .next (s'.after 1 (.rpush m))
    | .full => if s.isKeeper w (m.tile % 512) then .next (s.answerPush (m.hop s.now) 1 (hopTile (m.tile % 512) (m.tile % 512)))
        else .next (s.lantern w.home (hopTile (m.tile % 512) (w.ktile % 512)) wl (.rpush { m.hop s.now with stage := .spill })) := by
  subst hm
  have hspill : ((m.hop s.now).stage == .spill) = false := by
    show (m.stage == .spill) = false
    obtain h | h := hstage <;> rw [h] <;> rfl
  have hdem : ((m.hop s.now).stage == .demoted) = false := by
    show (m.stage == .demoted) = false
    obtain h | h := hstage <;> rw [h] <;> rfl
  have hnot : (ahead m.q.pos (w.tileK.getD (none, 0) (m.tile % 512)).1 || m.stage == .new && m.v != (w.tileK.getD (none, 0) (m.tile % 512)).2) = false := by
    have ha : ahead m.q.pos (w.tileK.getD (none, 0) (m.tile % 512)).1 = false := Bool.eq_false_iff.2 fun h => hahead (ahead_iff.1 h)
    simpa [ha] using hv
  rw [exec_rpush, execRpush]
  dsimp only
  rw [show (m.hop s.now).wl = m.wl from rfl, hw]
  dsimp only
  rw [hopen, if_neg (by decide), hspill, hdem]
  simp only [Bool.false_eq_true, if_false]
  rw [show (ahead (m.hop s.now).q.pos (w.tileK.getD (none, 0) (tileIx (m.hop s.now).tile)).1 ||
    (m.hop s.now).stage == .new && (m.hop s.now).v != (w.tileK.getD (none, 0) (tileIx (m.hop s.now).tile)).2) = false from hnot, if_neg (by decide)]
  rfl

theorem rpush_room (hroom : (s.stirWatch wl).heapRoom w (m.tile % 512) = true) : ∃ t, exec (.rpush m) s = .next t ∧ Quiet s t ∧
    (m.by_ ≠ .keeper → Sends s t wl w (m.tile / 512) (hopTile (m.tile % 512) (m.tile % 512)) (.pushAnswer (m.hop s.now) 0)) ∧
    ∃ v, t.wl? wl = some v ∧ (v.pushes = if m.by_ = .keeper then w.pushes else w.pushes + BitVec.ofNat 64 m.q.size) ∧ v.parts = w.parts ∧ v.k = w.k ∧
      (∀ q, q ∈ v.heap.getD [] (m.tile % 512) ↔ q = m.q ∨ q ∈ w.heap.getD [] (m.tile % 512)) ∧
      ∀ a, a ≠ m.tile % 512 → v.heap.getD [] a = w.heap.getD [] a := by
  obtain ⟨n, hn⟩ := (Tracks.start hw).stirWatch
  have hx := (hn.updWl fun w => w.withItem (m.tile % 512) m.q).sendHead (m.tile % 512)
  have hgo := rpush_inserts hw hopen hm hstage hahead hv
  rw [insertReserve_room hn.list _ _ _ hroom] at hgo
  dsimp only at hgo
  rw [hx.list] at hgo
  simp only [show ((WorkList.withItem { w with lastPop := n } (m.tile % 512) m.q).closed) = false from hopen, Bool.false_eq_true, if_false] at hgo
  obtain ⟨k, hk⟩ := hx.answerPush (m := m.hop s.now) hm 0 (hopTile (m.tile % 512) (m.tile % 512))
  refine ⟨_, hgo, hk.quiet, fun hby => hx.answerPush_sends (m := m.hop s.now) rfl rfl hm hby 0 _, _, hk.list, ?_, rfl, rfl,
    fun q => WorkList.mem_withItem w _ m.q q, fun a ha => WorkList.heap_withItem_ne w ha m.q⟩
  by_cases hk : m.by_ = .keeper
  · rw [if_pos hk]
    exact if_neg fun h => h.2 hk
  · rw [if_neg hk]
    exact if_pos ⟨rfl, hk⟩

theorem rpush_run {slot r : Nat} {s' : State} (hroom : (s.stirWatch wl).heapRoom w (m.tile % 512) = false)
    (hrun : (s.stirWatch wl).freeRun w (m.tile % 512) false = some slot)
    (hwrite : (s.stirWatch wl).vwrite (m.tile % 512) w.asid (w.runVa (m.tile % 512) slot)
      (runBytes ((insertItem (w.heap.getD [] (m.tile % 512)) m.q).take 64)) 0 = (.ok r, s'))
    (hwls : s'.pkg.wls = (s.stirWatch wl).pkg.wls) : ∃ t, exec (.rpush m) s = .next t ∧ t.mem = s'.mem ∧
    ∃ v, t.wl? wl = some v ∧ (v.pushes = if m.by_ = .keeper then w.pushes else w.pushes + BitVec.ofNat 64 m.q.size) ∧
      v.heap.getD [] (m.tile % 512) = (insertItem (w.heap.getD [] (m.tile % 512)) m.q).drop 64 ∧ v.nruns = w.nruns + 1 ∧
      v.runs.getD [] (m.tile % 512) = w.runs.getD [] (m.tile % 512) ++ [⟨slot, (insertItem (w.heap.getD [] (m.tile % 512)) m.q).take 64,
        ((insertItem (w.heap.getD [] (m.tile % 512)) m.q).take 64).length, none⟩] := by
  obtain ⟨n, hn⟩ := (Tracks.start hw).stirWatch
  have hlist : s'.wl? wl = some { w with lastPop := n } := (congrArg (Map.get? · wl) hwls).trans hn.list
  have hx := ((Tracks.start hlist).updWl fun v => { v with
      heap := v.heap.set (m.tile % 512) ((insertItem (w.heap.getD [] (m.tile % 512)) m.q).drop 64), nruns := v.nruns + 1,
      runs := v.runs.set (m.tile % 512) (v.runs.getD [] (m.tile % 512) ++ [⟨slot, (insertItem (w.heap.getD [] (m.tile % 512)) m.q).take 64,
        ((insertItem (w.heap.getD [] (m.tile % 512)) m.q).take 64).length, none⟩]) }).sendHead (m.tile % 512)
  have hgo := rpush_inserts hw hopen hm hstage hahead hv
  rw [insertReserve_run hn.list _ _ _ hroom hrun hwrite] at hgo
  dsimp only at hgo
  rw [hx.list] at hgo
  simp only [hopen, Bool.false_eq_true, if_false] at hgo
  obtain ⟨k, hk⟩ := hx.answerPush (m := m.hop s.now) hm 0 (hopTile (m.tile % 512) (m.tile % 512))
  refine ⟨_, hgo, hk.step.mem_eq, _, hk.list, ?_, Map.getD_set_same .., rfl, Map.getD_set_same ..⟩
  by_cases hk : m.by_ = .keeper
  · rw [if_pos hk]
    exact if_neg fun h => h.2 hk
  · rw [if_neg hk]
    exact if_pos ⟨rfl, hk⟩

theorem rpush_full (hroom : (s.stirWatch wl).heapRoom w (m.tile % 512) = false) (hrun : (s.stirWatch wl).freeRun w (m.tile % 512) false = none) :
    ∃ t, exec (.rpush m) s = .next t ∧ Quiet s t ∧
      (w.ktile = s.pkg.podIndex.toNat * 512 + m.tile % 512 → m.by_ ≠ .keeper →
        Sends s t wl w (m.tile / 512) (hopTile (m.tile % 512) (m.tile % 512)) (.pushAnswer (m.hop s.now) 1)) ∧
      (w.ktile ≠ s.pkg.podIndex.toNat * 512 + m.tile % 512 →
        Sends s t wl w w.home (hopTile (m.tile % 512) (w.ktile % 512)) (.rpush { m.hop s.now with stage := .spill })) := by
  have hstart := Tracks.start hw
  obtain ⟨n, hn⟩ := hstart.stirWatch
  have hgo := rpush_inserts hw hopen hm hstage hahead hv
  rw [insertReserve_full hn.list _ _ _ hroom hrun] at hgo
  dsimp only at hgo
  have hkeeper : s.isKeeper w (m.tile % 512) = true ↔ w.ktile = s.pkg.podIndex.toNat * 512 + m.tile % 512 := beq_iff_eq
  by_cases hk : w.ktile = s.pkg.podIndex.toNat * 512 + m.tile % 512
  · obtain ⟨k, hx⟩ := hstart.answerPush (m := m.hop s.now) hm 1 (hopTile (m.tile % 512) (m.tile % 512))
    exact ⟨_, hgo.trans (if_pos (hkeeper.2 hk)), hx.quiet,
      fun _ hby => hstart.answerPush_sends (m := m.hop s.now) rfl rfl hm hby 1 _, fun hn => absurd hk hn⟩
  · obtain ⟨k, hx⟩ := hstart.lantern w.home (hopTile (m.tile % 512) (w.ktile % 512)) (.rpush { m.hop s.now with stage := .spill })
    exact ⟨_, hgo.trans (if_neg (mt hkeeper.1 hk)), hx.quiet, fun h => absurd h hk, fun _ => hstart.sends rfl rfl _ _ rfl⟩

end

theorem rpush_demotes (hstage : m.stage = .demoted) (hroom : s.heapRoom w (m.tile % 512) = true) : ∃ t, exec (.rpush m) s = .next t ∧ Quiet s t ∧
    ⟨s.now + hopDie (m.tile % 512) (w.keeperLamp % 4), .pushAnswer (m.hop s.now) 0⟩ ∈ t.net.pend ∧
    ∃ v, t.wl? wl = some v ∧ v.parts = w.parts ∧ ∀ q, q ∈ v.heap.getD [] (m.tile % 512) ↔ q = m.q ∨ q ∈ w.heap.getD [] (m.tile % 512) := by
  have hx := ((Tracks.start hw).updWl fun w => w.withItem (m.tile % 512) m.q).sendHead (m.tile % 512)
  refine ⟨_, rpush_demoted hw hopen hm hstage (insertReserve_room hw _ _ _ hroom), (hx.after _ _).quiet, ?_, _, hx.list, rfl,
    fun q => WorkList.mem_withItem w _ m.q q⟩
  rw [hx.step.now_eq]
  refine List.mem_append_right _ (List.mem_singleton.2 ?_)
  rw [hx.step.now_eq]
  rfl

theorem rpush_renewed (hstage : m.stage = .new) (h : (∀ c, (w.tileK.getD (none, 0) (m.tile % 512)).1 = some c → m.q.pos < c) ∨
    m.v ≠ (w.tileK.getD (none, 0) (m.tile % 512)).2) : ∃ t, exec (.rpush m) s = .next t ∧ Quiet s t ∧
    ((∀ c, (w.tileK.getD (none, 0) (m.tile % 512)).1 = some c → m.q.pos < c) →
      Sends s t wl w (w.lampOf m.tile / 4) (hopDie (m.tile % 512) (w.lampOf m.tile % 4))
        (.fpush (w.lampOf m.tile) { m.hop s.now with v := (w.tileK.getD (none, 0) (m.tile % 512)).2 })) ∧
    ((¬∀ c, (w.tileK.getD (none, 0) (m.tile % 512)).1 = some c → m.q.pos < c) →
      ⟨s.now + hopTile (m.tile % 512) (m.tile % 512), .rpush { m.hop s.now with v := (w.tileK.getD (none, 0) (m.tile % 512)).2 }⟩ ∈ t.net.pend) := by
  have hgo := rpush_again hw hopen hm hstage h
  have hmsg : { m.hop s.now with v := (w.tileK.getD (none, 0) (m.tile % 512)).2, stage := .new, since := s.now } =
      { m.hop s.now with v := (w.tileK.getD (none, 0) (m.tile % 512)).2 } := by
    rw [← hstage]
    rfl
  subst hm
  have hsend : s.sendPush (m.hop s.now) = if ahead m.q.pos (w.tileK.getD (none, 0) (m.tile % 512)).1 = true then
      s.lantern (w.lampOf m.tile / 4) (hopDie (m.tile % 512) (w.lampOf m.tile % 4)) m.wl
        (.fpush (w.lampOf m.tile) { m.hop s.now with v := (w.tileK.getD (none, 0) (m.tile % 512)).2 })
      else s.after (hopTile (m.tile % 512) (m.tile % 512)) (.rpush { m.hop s.now with v := (w.tileK.getD (none, 0) (m.tile % 512)).2 }) := by
    rw [← hmsg]
    unfold State.sendPush
    rw [show (m.hop s.now).wl = m.wl from rfl, hw]
    rfl
  have hstart := Tracks.start hw
  by_cases ha : ∀ c, (w.tileK.getD (none, 0) (m.tile % 512)).1 = some c → m.q.pos < c
  · rw [hsend, if_pos (ahead_iff.2 ha)] at hgo
    obtain ⟨k, hk⟩ := hstart.lantern (w.lampOf m.tile / 4) (hopDie (m.tile % 512) (w.lampOf m.tile % 4))
      (.fpush (w.lampOf m.tile) { m.hop s.now with v := (w.tileK.getD (none, 0) (m.tile % 512)).2 })
    exact ⟨_, hgo, hk.quiet, fun _ => hstart.sends rfl rfl _ _ rfl, fun hn => absurd ha hn⟩
  · rw [hsend, if_neg (mt ahead_iff.1 ha)] at hgo
    exact ⟨_, hgo, (hstart.after _ _).quiet, fun h => absurd h ha, fun _ => List.mem_append_right _ (List.mem_singleton.2 rfl)⟩

end

end Sys2Proof.Machine
end


section
/-! PROOF. What the keeper does with forwarded pushes, and how it lowers K (R160, R161, R163, R164, R166, Table 7.3, FWD). -/

namespace Sys2Proof.Machine

/-! ### DEMOTE and CUT go out (R164) -/

/-- What the keeper waits for while lamps answer its DEMOTEs. -/
def WorkList.asked (w : WorkList) (own : Nat) (loose : Nat) (next : Option Event) : KeeperOp :=
  { lamps := w.lamps.filter fun d => lampPkg d == own, calls := (w.lamps.filter fun d => lampPkg d != own).map lampPkg, loose := loose, next := next }

theorem foldl_after_overPod (l : List Nat) (delay : Nat → Nat) (e : Nat → Event) (t : State) :
    l.foldl (fun s a => s.after (delay a) (e (s.overPod a))) t = l.foldl (fun s a => s.after (delay a) (e (t.overPod a))) t := by
  induction l generalizing t with
  | nil => rw [List.foldl_nil, List.foldl_nil]
  | cons a l ih =>
    rw [List.foldl_cons, List.foldl_cons, ih]
    rfl

theorem WlStep.overPod_eq {s t : State} (h : WlStep s t) (a : Nat) : t.overPod a = s.overPod a := by
  unfold State.overPod
  rw [h.own_eq]

section
variable {s t : State} {wl : Nat} {v : WorkList} (h : Tracks s t wl v)
include h

/-- Each tile of this package is sent an event that names it over the pod. -/
theorem Tracks.tileAfters (l : List Nat) (delay : Nat → Nat) (e : Nat → Event) :
    Tracks s (l.foldl (fun s a => s.after (delay a) (e (s.overPod a))) t) wl v ∧
    ∀ a ∈ l, ⟨s.now + delay a, e (s.overPod a)⟩ ∈ (l.foldl (fun s a => s.after (delay a) (e (s.overPod a))) t).net.pend := by
  rw [foldl_after_overPod]
  refine ⟨h.afters l delay fun a => e (t.overPod a), fun a ha => ?_⟩
  rw [← h.step.overPod_eq]
  exact h.posts_each l delay (fun a => e (t.overPod a)) a ha

theorem Tracks.demoteAll (ends : Bool) (loose : Nat) (next : Option Event) :
    Tracks s (t.demoteAll wl ends loose next) wl { v with op := some (v.asked s.own loose next) } ∧
    ∀ w : WorkList, v.asid = w.asid → v.launch = w.launch → ∀ d ∈ v.lamps,
      Sends s (t.demoteAll wl ends loose next) wl w (d / 4) (hopDies (v.keeperLamp % 4) (d % 4)) (.demote d v.k ends none) := by
  have hbase := h.updWl fun w => { w with op := some (w.asked t.own loose next) }
  have heq : t.demoteAll wl ends loose next = v.lamps.foldl (fun s d => s.lantern (d / 4) (hopDies (v.keeperLamp % 4) (d % 4)) wl (.demote d v.k ends none))
      (t.updWl wl fun w => { w with op := some (w.asked t.own loose next) }) := by
    unfold State.demoteAll
    rw [h.list]
    rfl
  rw [heq, ← h.step.own_eq]
  exact ⟨hbase.lanterns v.lamps _ _ _ fun _ => rfl, fun w ha hl => hbase.sends_each ha hl v.lamps _ _ _ (fun _ => rfl) _ fun _ => rfl⟩

theorem Tracks.sendCut (ends : Option Nat) : Tracks s (t.sendCut wl ends) wl { v with v := v.v + 1 } ∧
    (∀ w : WorkList, v.asid = w.asid → v.launch = w.launch → ∀ d ∈ v.lamps,
      Sends s (t.sendCut wl ends) wl w (d / 4) (hopDies (v.keeperLamp % 4) (d % 4)) (.cut true d v.k (v.v + 1) ends)) ∧
    ∀ a ∈ s.wlTiles v, ⟨s.now + hopDie a (v.keeperLamp % 4), .cut wl false (s.overPod a) v.k ⟨v.v + 1, ends⟩⟩ ∈ (t.sendCut wl ends).net.pend := by
  have hbase := h.updWl fun w => { w with v := w.v + 1 }
  have hlamps := hbase.lanterns v.lamps (· / 4) (fun d => hopDies (v.keeperLamp % 4) (d % 4)) (fun d => .cut true d v.k (v.v + 1) ends) fun _ => rfl
  have hsent := fun (w : WorkList) ha hl => hbase.sends_each (w := w) ha hl v.lamps (· / 4) (fun d => hopDies (v.keeperLamp % 4) (d % 4))
    (fun d => .cut true d v.k (v.v + 1) ends) (fun _ => rfl) _ fun _ => rfl
  generalize hu : v.lamps.foldl (fun s d => s.lantern (d / 4) (hopDies (v.keeperLamp % 4) (d % 4)) wl (.cut true d v.k (v.v + 1) ends))
    (t.updWl wl fun w => { w with v := w.v + 1 }) = u at hlamps hsent
  have hpkgs := hlamps.lanterns (v.pkgs.filter (· != u.own)) (fun p => p) (fun _ => 0) (fun p => .cut false (p * 512) v.k (v.v + 1) ends) fun _ => rfl
  have hpkgs' := wlStep_foldl (f := fun s p => s.lantern p 0 wl (.cut false (p * 512) v.k (v.v + 1) ends)) (fun s a => wlStep_lantern ..)
    (v.pkgs.filter (· != u.own)) u
  generalize hx : (v.pkgs.filter (· != u.own)).foldl (fun s p => s.lantern p 0 wl (.cut false (p * 512) v.k (v.v + 1) ends)) u = x at hpkgs hpkgs'
  obtain ⟨htiles, hposts⟩ := hpkgs.tileAfters (x.wlTiles v) (fun a => hopDie a (v.keeperLamp % 4)) fun p => .cut wl false p v.k ⟨v.v + 1, ends⟩
  have heq : t.sendCut wl ends = (x.wlTiles v).foldl (fun s a => s.after (hopDie a (v.keeperLamp % 4)) (.cut wl false (s.overPod a) v.k ⟨v.v + 1, ends⟩)) x := by
    subst hx hu
    unfold State.sendCut
    rw [h.list]
    rfl
  rw [heq]
  refine ⟨htiles, fun w ha hl d hd => ((hsent w ha hl d hd).mono hpkgs').mono (wlStep_foldl (fun s a => wlStep_after ..) ..), ?_⟩
  rw [← hpkgs.step.wlTiles]
  exact hposts

end

/-- DEMOTE and CUT for a lowered K are on their way. -/
def Lowered (s t : State) (wl : Nat) (w : WorkList) (p : Nat) : Prop :=
  (∀ d ∈ w.lamps, Sends s t wl w (d / 4) (hopDies (w.keeperLamp % 4) (d % 4)) (.demote d (some p) false none) ∧
    Sends s t wl w (d / 4) (hopDies (w.keeperLamp % 4) (d % 4)) (.cut true d (some p) (w.v + 1) none)) ∧
  ∀ a ∈ s.wlTiles w, ⟨s.now + hopDie a (w.keeperLamp % 4), .cut wl false (s.overPod a) (some p) ⟨w.v + 1, none⟩⟩ ∈ t.net.pend

theorem Lowered.mono {s t u : State} {wl p : Nat} {w : WorkList} (h : Lowered s t wl w p) (hs : WlStep t u) : Lowered s u wl w p :=
  ⟨fun d hd => ⟨(h.1 d hd).1.mono hs, (h.1 d hd).2.mono hs⟩, fun a ha => hs.pend (h.2 a ha)⟩

theorem lowerK_tracks {s : State} {wl : Nat} {w : WorkList} (hw : s.wl? wl = some w) (k loose : Nat) (next : Option Event) :
    ∃ p, Tracks s (s.lowerK wl k loose next) wl { w with k := some k, pull := p, op := some (w.asked s.own loose next), v := w.v + 1 } ∧
      Lowered s (s.lowerK wl k loose next) wl w k := by
  have hbase := (Tracks.start hw).updWl fun w => { w with k := some k, pull := w.pull.map fun p => { p with low := minK p.low (some k) } }
  obtain ⟨hdem, hdems⟩ := hbase.demoteAll false loose next
  obtain ⟨hcut, hcuts, htiles⟩ := hdem.sendCut none
  have hstep : WlStep _ _ := ((Tracks.start hdem.list).sendCut none).1.step
  exact ⟨_, hcut, fun d hd => ⟨(hdems w rfl rfl d hd).mono hstep, hcuts w rfl rfl d hd⟩, htiles⟩

/-- The message that brings an item to the keeper tile's reserve. -/
abbrev downMsg (s : State) (wl : Nat) (w : WorkList) (q : QItem) : WlMsg := .rpush ⟨wl, q, 0, w.ktile, .keeper, .demoted, none, 0, s.now⟩

theorem Tracks.sendDown {s t : State} {wl : Nat} {v : WorkList} (h : Tracks s t wl v) {w : WorkList} (hasid : v.asid = w.asid)
    (hlaunch : v.launch = w.launch) (q : QItem) (hop : Nat) : (∃ n, Tracks s (t.sendDown w wl q hop) wl { v with sent := n }) ∧
    Sends s (t.sendDown w wl q hop) wl w w.home hop (downMsg s wl w q) := by
  unfold State.sendDown
  rw [h.step.now_eq]
  exact ⟨h.lantern _ _ _, h.sends hasid hlaunch _ _ rfl⟩

theorem wlStep_sendDown (s : State) (w : WorkList) (wl : Nat) (q : QItem) (hop : Nat) : WlStep s (s.sendDown w wl q hop) := wlStep_lantern ..

/-- K is lowered to where an item goes that the keeper tile takes. -/
theorem lowerDown_tracks {s : State} {wl : Nat} {w : WorkList} (hw : s.wl? wl = some w) (k loose : Nat) (next : Option Event) (q : QItem) (hop : Nat) :
    ∃ v, Tracks s ((s.lowerK wl k loose next).sendDown w wl q hop) wl v ∧ v.k = some k ∧ v.v = w.v + 1 ∧
      Lowered s ((s.lowerK wl k loose next).sendDown w wl q hop) wl w k ∧
      Sends s ((s.lowerK wl k loose next).sendDown w wl q hop) wl w w.home hop (downMsg s wl w q) := by
  obtain ⟨p, hlow, hsent⟩ := lowerK_tracks hw k loose next
  obtain ⟨⟨n, hn⟩, hdown⟩ := hlow.sendDown (w := w) rfl rfl q hop
  exact ⟨_, hn, rfl, rfl, hsent.mono (wlStep_sendDown ..), hdown⟩

/-! ### The keeper inserts an item (R160) -/

/-- The lamp that the keeper tries where the one that a push came to has no entry. -/
def WorkList.altLamp (w : WorkList) (m : PushMsg) : Nat := m.alt.getD (w.roomiest fun _ => 0)

/-- The lamp at which the keeper has a push inserted that came to a lamp of its package. -/
def State.insertLamp (s : State) (w : WorkList) (lamp : Nat) (m : PushMsg) : Nat := if s.hasEntry w lamp then lamp else w.altLamp m

/-- The keeper is busy until a lamp has taken an item. -/
def WorkList.placing (w : WorkList) (own d : Nat) (next : Option Event) : WorkList :=
  { w with places := w.places - 1,
           op := some ⟨[], if lampPkg d != own then [lampPkg d] else [], if lampPkg d != own then 0 else 1, next⟩ }

theorem insertAt_tracks {s : State} {wl lamp : Nat} {w : WorkList} (hw : s.wl? wl = some w) (hlamp : lamp / 4 = s.pkg.podIndex.toNat) (m : PushMsg)
    (next : Option Event) : ∃ n o, Tracks s (s.insertAt wl lamp m next) wl { w with places := w.places - 1, op := some o, sent := n } ∧
      (s.insertLamp w lamp m / 4 = s.pkg.podIndex.toNat → o = ⟨[], [], 1, next⟩) ∧
      Sends s (s.insertAt wl lamp m next) wl w (s.insertLamp w lamp m / 4) (hopDies (w.keeperLamp % 4) (s.insertLamp w lamp m % 4))
        (.fpush (s.insertLamp w lamp m) { m with stage := .placed, alt := some (w.altLamp m), since := s.now }) := by
  have hat : (if lampPkg lamp = s.own && !s.hasEntry w lamp then w.altLamp m else lamp) = s.insertLamp w lamp m := by
    unfold State.insertLamp
    rw [show lampPkg lamp = s.own from hlamp]
    cases s.hasEntry w lamp <;> simp
  generalize hd : s.insertLamp w lamp m = d at hat
  have hbase := (Tracks.start hw).updWl fun w => w.placing s.own d next
  have heq : s.insertAt wl lamp m next = (s.updWl wl fun w => w.placing s.own d next).lantern (d / 4) (hopDies (w.keeperLamp % 4) (d % 4)) wl
      (.fpush d { m with stage := .placed, alt := some (w.altLamp m), since := s.now }) := by
    unfold State.insertAt
    rw [hw]
    dsimp only
    rw [show m.alt.getD (w.roomiest fun _ => 0) = w.altLamp m from rfl, hat, ← (wlStep_updWl s wl fun w => w.placing s.own d next).now_eq]
    rfl
  rw [heq]
  obtain ⟨n, hn⟩ := hbase.lantern (d / 4) (hopDies (w.keeperLamp % 4) (d % 4))
    (.fpush d { m with stage := .placed, alt := some (w.altLamp m), since := s.now })
  refine ⟨n, _, hn, fun hown => ?_, hbase.sends rfl rfl _ _ rfl⟩
  rw [show lampPkg d = s.own from hown]
  simp

section
variable {s : State} {wl lamp : Nat} {w : WorkList} (hw : s.wl? wl = some w) (m : PushMsg) (retry : Nat → Event) (kept : Event) (next : Option Event)
include hw

theorem placeFront_insert (h : w.places ≠ 0) : s.placeFront wl lamp m retry kept next = s.insertAt wl lamp m next := by
  unfold State.placeFront
  rw [hw]
  exact if_pos (by simpa [WorkList.full] using h)

theorem placeFront_down {x : Known} (h : w.places = 0) (hlast : w.lastFront = some x) (hx : x.pos < m.q.pos) :
    s.placeFront wl lamp m retry kept next = (s.lowerK wl m.q.pos 1 (some kept)).sendDown w wl m.q w.downHop := by
  unfold State.placeFront
  rw [hw]
  dsimp only
  rw [if_neg (by simp [WorkList.full, h]), hlast]
  exact if_pos hx

theorem placeFront_retry {x : Known} (h : w.places = 0) (hlast : w.lastFront = some x) (hx : m.q.pos ≤ x.pos) :
    s.placeFront wl lamp m retry kept next = s.lowerK wl x.pos 0 (some (retry x.lamp)) := by
  unfold State.placeFront
  rw [hw]
  dsimp only
  rw [if_neg (by simp [WorkList.full, h]), hlast]
  exact if_neg (by omega)

end

/-! ### FWD -/

/-- Whether the last front item has to go to make room for an item. -/
def WorkList.makesRoom (w : WorkList) (q : QItem) : Bool :=
  w.full && (match w.lastFront with | some x => decide (q.pos ≤ x.pos) | none => false)

section
variable {s : State} {wl lamp : Nat} {w : WorkList} {m : PushMsg} (hw : s.wl? wl = some w) (hopen : w.closed = false) (hm : m.wl = wl)
include hw hopen hm

theorem fwd_queued (hstage : m.stage ≠ .placed) (hop : w.op ≠ none) :
    exec (.fwd lamp m) s = .next (s.queue wl (.fwd lamp (m.hop s.now))) := by
  subst hm
  rw [exec_fwd, execFwd]
  dsimp only
  rw [show (m.hop s.now).wl = m.wl from rfl, hw]
  dsimp only
  rw [hopen, if_neg (by decide), if_neg (by simpa [PushMsg.hop] using hstage), if_pos (Option.isSome_iff_ne_none.2 hop)]

section
variable (hop : w.op = none)
include hop

theorem fwd_kept (hstage : m.stage = .kept) :
    exec (.fwd lamp m) s = .next (s.answerPush (m.hop s.now) 0 (hopDie (m.tile % 512) (w.keeperLamp % 4))) := by
  obtain ⟨wl', q, v, tile, by_, stage, alt, path, since⟩ := m
  dsimp only at hstage hm
  subst hstage hm
  rw [exec_fwd, execFwd]
  dsimp only [PushMsg.hop]
  rw [hw]
  dsimp only
  simp only [hopen, hop, show (PushStage.kept == .placed) = false from rfl, Option.isSome_none, Bool.false_eq_true, if_false]
  rfl

theorem fwd_rest (hstage : m.stage = .rest) : exec (.fwd lamp m) s =
    if !ahead m.q.pos w.k then
      .next ((s.updWl wl fun w => { w with op := some ⟨[], [], 1, some (.fwd lamp { m.hop s.now with stage := .kept })⟩ }).sendDown w wl m.q w.downHop)
    else if w.lends then .next (s.callIn wl (.fwd lamp (m.hop s.now)))
    else if w.live.any fun i => !ahead i.pos (some m.q.pos) then .next (s.lowerK wl m.q.pos 0 (some (.fwd lamp (m.hop s.now))))
    else .next ((s.lowerK wl m.q.pos 1 (some (.fwd lamp { m.hop s.now with stage := .kept }))).sendDown w wl m.q w.downHop) := by
  obtain ⟨wl', q, v, tile, by_, stage, alt, path, since⟩ := m
  dsimp only at hstage hm
  subst hstage hm
  rw [exec_fwd, execFwd]
  dsimp only [PushMsg.hop]
  rw [hw]
  dsimp only
  simp only [hopen, hop, show (PushStage.rest == .placed) = false from rfl, Option.isSome_none, Bool.false_eq_true, if_false]
  rfl

theorem fwd_new (hstage : m.stage = .new) : exec (.fwd lamp m) s =
    if !ahead m.q.pos w.k then
      .next (s.lantern (m.tile / 512) (hopDie (m.tile % 512) (w.keeperLamp % 4)) wl (.rpush { m.hop s.now with stage := .reserve }))
    else if w.full && w.lends then .next (s.callIn wl (.fwd lamp (m.hop s.now)))
    else match m.q.rest with
      | none => .next (s.placeFront wl lamp { m.hop s.now with q := m.q.first } (fun d => .fwd lamp { m.hop s.now with alt := some d })
          (.fwd lamp { m.hop s.now with stage := .kept }) none)
      | some r => .next (
          if w.makesRoom m.q then
            s.placeFront wl lamp { m.hop s.now with q := m.q.first, by_ := .keeper } (fun d => .fwd lamp { m.hop s.now with alt := some d })
              (.fwd lamp { m.hop s.now with q := r, stage := .rest }) (some (.fwd lamp { m.hop s.now with q := r, stage := .rest }))
          else (s.placeFront wl lamp { m.hop s.now with q := m.q.first, by_ := .keeper } (fun d => .fwd lamp { m.hop s.now with alt := some d })
            (.fwd lamp { m.hop s.now with q := r, stage := .rest }) (some (.fwd lamp { m.hop s.now with q := r, stage := .rest }))).updWl wl
              fun w => { w with pushes := w.pushes + 1 }) := by
  obtain ⟨wl', q, v, tile, by_, stage, alt, path, since⟩ := m
  dsimp only at hstage hm
  subst hstage hm
  rw [exec_fwd, execFwd]
  dsimp only [PushMsg.hop]
  rw [hw]
  dsimp only
  simp only [hopen, hop, show (PushStage.new == .placed) = false from rfl, Option.isSome_none, Bool.false_eq_true, if_false]
  rfl

end

end

end Sys2Proof.Machine
end


section
/-! PROOF. The steps of FWD (R160, R161, R163, R164, R166, Table 7.3). -/

namespace Sys2Proof.Machine

theorem QItem.rest_none {q : QItem} (h : q.size ≤ 1) : q.rest = none := if_pos h

theorem QItem.rest_some {q : QItem} (h : 1 < q.size) : ∃ r, q.rest = some r := ⟨_, if_neg (by omega)⟩

theorem not_ahead_iff {p : Nat} {k : Option Nat} : (!ahead p k) = true ↔ ¬∀ c, k = some c → p < c := by
  rw [Bool.not_eq_true', ← Bool.not_eq_true, ahead_iff]

section
variable {s : State} {wl lamp : Nat} {w : WorkList} {m : PushMsg} (hw : s.wl? wl = some w) (hopen : w.closed = false) (hm : m.wl = wl)
include hw hopen hm

theorem fwd_waits (hstage : m.stage ≠ .placed) (hop : w.op ≠ none) : ∃ t, exec (.fwd lamp m) s = .next t ∧ Quiet s t ∧ t.net = s.net ∧
    ∃ v, t.wl? wl = some v ∧ v = { w with inbox := if w.inbox.contains (.fwd lamp (m.hop s.now)) then w.inbox else w.inbox ++ [.fwd lamp (m.hop s.now)] } := by
  have hx := (Tracks.start hw).updWl fun w =>
    if w.inbox.contains (.fwd lamp (m.hop s.now)) then w else { w with inbox := w.inbox ++ [.fwd lamp (m.hop s.now)] }
  refine ⟨_, fwd_queued hw hopen hm hstage hop, hx.quiet, State.updWl_net .., _, hx.list, ?_⟩
  split <;> rfl

section
variable (hop : w.op = none)
include hop

theorem fwd_returns (hstage : m.stage = .new) (h : ¬∀ c, w.k = some c → m.q.pos < c) : ∃ t, exec (.fwd lamp m) s = .next t ∧ Quiet s t ∧
    Sends s t wl w (m.tile / 512) (hopDie (m.tile % 512) (w.keeperLamp % 4)) (.rpush { m.hop s.now with stage := .reserve }) := by
  have hgo := fwd_new (lamp := lamp) hw hopen hm hop hstage
  rw [if_pos (not_ahead_iff.2 h)] at hgo
  obtain ⟨n, hn⟩ := (Tracks.start hw).lantern (m.tile / 512) (hopDie (m.tile % 512) (w.keeperLamp % 4)) (.rpush { m.hop s.now with stage := .reserve })
  exact ⟨_, hgo, hn.quiet, (Tracks.start hw).sends rfl rfl _ _ rfl⟩

theorem fwd_inserts (hlamp : lamp / 4 = s.pkg.podIndex.toNat) (hstage : m.stage = .new) (h : ∀ c, w.k = some c → m.q.pos < c) (hplaces : w.places ≠ 0) :
    ∃ t at_ alt, exec (.fwd lamp m) s = .next t ∧ Quiet s t ∧
      (s.hasEntry w lamp = true → at_ = lamp) ∧ (s.hasEntry w lamp = false → at_ = alt) ∧ (∀ d, m.alt = some d → alt = d) ∧
      (m.alt = none → alt = w.roomiest fun _ => 0) ∧
      (m.q.size ≤ 1 → Sends s t wl w (at_ / 4) (hopDies (w.keeperLamp % 4) (at_ % 4))
          (.fpush at_ { m.hop s.now with q := m.q.first, stage := .placed, alt := some alt }) ∧
        ∃ v, t.wl? wl = some v ∧ v.places = w.places - 1 ∧ v.pushes = w.pushes ∧ (at_ / 4 = s.pkg.podIndex.toNat → v.op = some ⟨[], [], 1, none⟩)) ∧
      (1 < m.q.size → Sends s t wl w (at_ / 4) (hopDies (w.keeperLamp % 4) (at_ % 4))
          (.fpush at_ { m.hop s.now with q := m.q.first, by_ := .keeper, stage := .placed, alt := some alt }) ∧
        ∃ v, t.wl? wl = some v ∧ v.places = w.places - 1 ∧ v.pushes = w.pushes + 1 ∧ ∀ r, m.q.rest = some r → at_ / 4 = s.pkg.podIndex.toNat →
          v.op = some ⟨[], [], 1, some (.fwd lamp { m.hop s.now with q := r, stage := .rest })⟩) := by
  have hfull : (w.full && w.lends) = false := by simp [WorkList.full, hplaces]
  have hgo := fwd_new (lamp := lamp) hw hopen hm hop hstage
  rw [if_neg (mt not_ahead_iff.1 (not_not.2 h)), if_neg (by rw [hfull]; decide)] at hgo
  have halt : (∀ d, m.alt = some d → w.altLamp m = d) ∧ (m.alt = none → w.altLamp m = w.roomiest fun _ => 0) := by
    unfold WorkList.altLamp
    constructor
    · intro d hd
      rw [hd]
      rfl
    · intro hn
      rw [hn]
      rfl
  have hat : (s.hasEntry w lamp = true → s.insertLamp w lamp m = lamp) ∧ (s.hasEntry w lamp = false → s.insertLamp w lamp m = w.altLamp m) :=
    ⟨fun he => if_pos he, fun he => if_neg (by rw [he]; decide)⟩
  by_cases hsize : m.q.size ≤ 1
  · rw [QItem.rest_none hsize] at hgo
    dsimp only at hgo
    rw [placeFront_insert hw _ _ _ _ hplaces] at hgo
    obtain ⟨n, o, hx, ho, hsend⟩ := insertAt_tracks hw hlamp { m.hop s.now with q := m.q.first } none
    exact ⟨_, s.insertLamp w lamp m, w.altLamp m, hgo, hx.quiet, hat.1, hat.2, halt.1, halt.2,
      fun _ => ⟨hsend, _, hx.list, rfl, rfl, fun hown => congrArg some (ho hown)⟩, fun hn => absurd hsize (by omega)⟩
  · obtain ⟨r, hr⟩ := QItem.rest_some (Nat.lt_of_not_le hsize)
    have hroom : w.makesRoom m.q = false := by simp [WorkList.makesRoom, WorkList.full, hplaces]
    rw [hr] at hgo
    dsimp only at hgo
    rw [hroom, if_neg (by decide), placeFront_insert hw _ _ _ _ hplaces] at hgo
    obtain ⟨n, o, hx, ho, hsend⟩ := insertAt_tracks hw hlamp { m.hop s.now with q := m.q.first, by_ := .keeper }
      (some (.fwd lamp { m.hop s.now with q := r, stage := .rest }))
    have hx' := hx.updWl fun w => { w with pushes := w.pushes + 1 }
    refine ⟨_, s.insertLamp w lamp m, w.altLamp m, hgo, hx'.quiet, hat.1, hat.2, halt.1, halt.2, fun hn => absurd hn hsize,
      fun _ => ⟨hsend.mono (wlStep_updWl ..), _, hx'.list, rfl, rfl, fun r' hr' hown => ?_⟩⟩
    cases hr.symm.trans hr'
    exact congrArg some (ho hown)

theorem fwd_lowers {x : Known} (hstage : m.stage = .new) (hsize : m.q.size ≤ 1) (h : ∀ c, w.k = some c → m.q.pos < c) (hplaces : w.places = 0)
    (hlends : w.lends = false) (hlast : w.lastFront = some x) : ∃ t, exec (.fwd lamp m) s = .next t ∧ Quiet s t ∧
      (x.pos < m.q.pos → ((∃ v, t.wl? wl = some v ∧ v.k = some m.q.pos ∧ v.v = w.v + 1) ∧ Lowered s t wl w m.q.pos) ∧
        Sends s t wl w w.home (hopDie (w.ktile % 512) (w.keeperLamp % 4)) (downMsg s wl w m.q.first)) ∧
      (m.q.pos ≤ x.pos → ((∃ v, t.wl? wl = some v ∧ v.k = some x.pos ∧ v.v = w.v + 1) ∧ Lowered s t wl w x.pos) ∧
        ∃ v, t.wl? wl = some v ∧ ∃ r, v.op = some r ∧ r.next = some (.fwd lamp { m.hop s.now with alt := some x.lamp })) := by
  have hgo := fwd_new (lamp := lamp) hw hopen hm hop hstage
  rw [if_neg (mt not_ahead_iff.1 (not_not.2 h)), if_neg (by rw [hlends, Bool.and_false]; decide), QItem.rest_none hsize] at hgo
  dsimp only at hgo
  by_cases hx : x.pos < m.q.pos
  · have hplace := placeFront_down (lamp := lamp) hw { m.hop s.now with q := m.q.first } (fun d => .fwd lamp { m.hop s.now with alt := some d })
      (.fwd lamp { m.hop s.now with stage := .kept }) none hplaces hlast hx
    obtain ⟨v, hv, hk, hvv, hlow, hdown⟩ := lowerDown_tracks hw m.q.pos 1 (some (.fwd lamp { m.hop s.now with stage := .kept })) m.q.first w.downHop
    exact ⟨_, hgo.trans (congrArg _ hplace), hv.quiet, fun _ => ⟨⟨⟨v, hv.list, hk, hvv⟩, hlow⟩, hdown⟩, fun hn => absurd hx (by omega)⟩
  · have hplace := placeFront_retry (lamp := lamp) hw { m.hop s.now with q := m.q.first } (fun d => .fwd lamp { m.hop s.now with alt := some d })
      (.fwd lamp { m.hop s.now with stage := .kept }) none hplaces hlast (Nat.le_of_not_lt hx)
    obtain ⟨p, hv, hlow⟩ := lowerK_tracks hw x.pos 0 (some (.fwd lamp { m.hop s.now with alt := some x.lamp }))
    exact ⟨_, hgo.trans (congrArg _ hplace), hv.quiet, fun hn => absurd hn hx, fun _ => ⟨⟨⟨_, hv.list, rfl, rfl⟩, hlow⟩, _, hv.list, _, rfl, rfl⟩⟩

theorem fwd_restKept (hstage : m.stage = .rest) (h : ¬∀ c, w.k = some c → m.q.pos < c) : ∃ t, exec (.fwd lamp m) s = .next t ∧ Quiet s t ∧
    Sends s t wl w w.home (hopDie (w.ktile % 512) (w.keeperLamp % 4)) (downMsg s wl w m.q) ∧
    ∃ v, t.wl? wl = some v ∧ v.k = w.k ∧ v.op = some ⟨[], [], 1, some (.fwd lamp { m.hop s.now with stage := .kept })⟩ := by
  have hgo := fwd_rest (lamp := lamp) hw hopen hm hop hstage
  rw [if_pos (not_ahead_iff.2 h)] at hgo
  obtain ⟨⟨n, hn⟩, hdown⟩ := ((Tracks.start hw).updWl fun w => { w with op := some ⟨[], [], 1, some (.fwd lamp { m.hop s.now with stage := .kept })⟩ }).sendDown
    (w := w) rfl rfl m.q w.downHop
  exact ⟨_, hgo, hn.quiet, hdown, _, hn.list, rfl, rfl⟩

theorem fwd_restLowers (hstage : m.stage = .rest) (h : ∀ c, w.k = some c → m.q.pos < c) (hlends : w.lends = false) (hall : ∀ i ∈ w.live, i.pos < m.q.pos) :
    ∃ t, exec (.fwd lamp m) s = .next t ∧ Quiet s t ∧ ((∃ v, t.wl? wl = some v ∧ v.k = some m.q.pos ∧ v.v = w.v + 1) ∧ Lowered s t wl w m.q.pos) ∧
      Sends s t wl w w.home (hopDie (w.ktile % 512) (w.keeperLamp % 4)) (downMsg s wl w m.q) := by
  have hany : (w.live.any fun i => !ahead i.pos (some m.q.pos)) = false := by
    refine List.any_eq_false.2 fun i hi => ?_
    simpa [ahead] using hall i hi
  have hgo := fwd_rest (lamp := lamp) hw hopen hm hop hstage
  rw [if_neg (mt not_ahead_iff.1 (not_not.2 h)), hlends, if_neg (by decide), hany, if_neg (by decide)] at hgo
  obtain ⟨v, hv, hk, hvv, hlow, hdown⟩ := lowerDown_tracks hw m.q.pos 1 (some (.fwd lamp { m.hop s.now with stage := .kept })) m.q w.downHop
  exact ⟨_, hgo, hv.quiet, ⟨⟨v, hv.list, hk, hvv⟩, hlow⟩, hdown⟩

theorem fwd_restDemotes (hstage : m.stage = .rest) (h : ∀ c, w.k = some c → m.q.pos < c) (hlends : w.lends = false) (hsome : ∃ i ∈ w.live, m.q.pos ≤ i.pos) :
    ∃ t, exec (.fwd lamp m) s = .next t ∧ Quiet s t ∧ (∃ v, t.wl? wl = some v ∧ v.k = some m.q.pos ∧ v.v = w.v + 1) ∧ Lowered s t wl w m.q.pos := by
  have hany : (w.live.any fun i => !ahead i.pos (some m.q.pos)) = true := by
    obtain ⟨i, hi, hpos⟩ := hsome
    refine List.any_eq_true.2 ⟨i, hi, ?_⟩
    simpa [ahead] using hpos
  have hgo := fwd_rest (lamp := lamp) hw hopen hm hop hstage
  rw [if_neg (mt not_ahead_iff.1 (not_not.2 h)), hlends, if_neg (by decide), hany, if_pos rfl] at hgo
  obtain ⟨p, hv, hlow⟩ := lowerK_tracks hw m.q.pos 0 (some (.fwd lamp (m.hop s.now)))
  exact ⟨_, hgo, hv.quiet, ⟨_, hv.list, rfl, rfl⟩, hlow⟩

theorem fwd_answers (hstage : m.stage = .kept) : ∃ t, exec (.fwd lamp m) s = .next t ∧ Quiet s t ∧
    (m.by_ ≠ .keeper → Sends s t wl w (m.tile / 512) (hopDie (m.tile % 512) (w.keeperLamp % 4)) (.pushAnswer (m.hop s.now) 0)) ∧
    ∃ v, t.wl? wl = some v ∧ v.pushes = if m.by_ = .keeper then w.pushes else w.pushes + BitVec.ofNat 64 m.q.size := by
  obtain ⟨n, hn⟩ := (Tracks.start hw).answerPush (m := m.hop s.now) hm 0 (hopDie (m.tile % 512) (w.keeperLamp % 4))
  refine ⟨_, fwd_kept hw hopen hm hop hstage, hn.quiet, fun hby => (Tracks.start hw).answerPush_sends (m := m.hop s.now) rfl rfl hm hby 0 _, _, hn.list, ?_⟩
  by_cases hk : m.by_ = .keeper
  · rw [if_pos hk]
    exact if_neg fun h => h.2 hk
  · rw [if_neg hk]
    exact if_pos ⟨rfl, hk⟩

end

end

end Sys2Proof.Machine
end


section
/-! PROOF. Pulls: the keeper starts one, reserves answer, and it ends (R164, R165, R166, R387, Table 7.3). -/

namespace Sys2Proof.Machine

/-! ### HEAD and LOW -/

theorem min?_of_sorted {l p : List Nat} (hp : p.Perm l) (hs : p.Pairwise (· ≤ ·)) : l.min? = p.head? := by
  cases p with
  | nil =>
    rw [List.nil_perm.1 hp]
    rfl
  | cons a q =>
    refine List.min?_eq_some_iff.2 ⟨hp.subset List.mem_cons_self, fun b hb => ?_⟩
    obtain rfl | hb := List.mem_cons.1 (hp.symm.subset hb)
    · exact le_refl _
    · exact List.rel_of_pairwise_cons hs hb

/-- The least of the heads. -/
def leastHead (heads : List Nat) : Nat := heads.foldl Nat.min (heads.headD 0)

theorem min?_leastHead {heads : List Nat} (h : heads ≠ []) : heads.min? = some (leastHead heads) := by
  cases heads with
  | nil => exact absurd rfl h
  | cons a l =>
    rw [List.min?_cons']
    show _ = some (l.foldl Nat.min (Nat.min a a))
    rw [show Nat.min a a = a from Nat.min_self a]

/-- The new cutoff of a pull is the second of the heads in order. -/
theorem min?_erase_leastHead (heads : List Nat) : (heads.erase (leastHead heads)).min? = (heads.mergeSort fun a b => decide (a ≤ b))[1]? := by
  have hperm := List.mergeSort_perm heads fun a b => decide (a ≤ b)
  have hsort : (heads.mergeSort fun a b => decide (a ≤ b)).Pairwise (· ≤ ·) :=
    (List.pairwise_mergeSort (le := fun a b => decide (a ≤ b)) (by simpa using fun a b c => Nat.le_trans) (by simpa using Nat.le_total) heads).imp (by simp)
  generalize heads.mergeSort (fun a b => decide (a ≤ b)) = p at hperm hsort
  cases p with
  | nil =>
    rw [List.nil_perm.1 hperm]
    rfl
  | cons a q =>
    have hne : heads ≠ [] := fun h => by
      rw [h] at hperm
      exact absurd (List.perm_nil.1 hperm) (List.cons_ne_nil _ _)
    have hleast : leastHead heads = a := Option.some.inj ((min?_leastHead hne).symm.trans (min?_of_sorted hperm hsort))
    have hq : q.Perm (heads.erase a) := by
      have h := hperm.erase a
      rwa [List.erase_cons_head] at h
    rw [hleast, min?_of_sorted hq hsort.of_cons, List.getElem?_cons_succ, List.head?_eq_getElem?]

/-- The pull that the keeper starts. -/
def State.newPull (s : State) (w : WorkList) : Pull :=
  ⟨((w.heads.filterMap (·.2)).mergeSort fun a b => decide (a ≤ b))[1]?, w.places, w.v,
    (s.wlTiles w).map s.overPod ++ (w.pkgs.filter (· != s.pkg.podIndex.toNat)).map (· * 512), none, none, 0⟩

section
variable {s : State} {wl : Nat} {w : WorkList} (hw : s.wl? wl = some w)
include hw

theorem head_set (tile : Nat) (pos : Option Nat) : ∃ t, exec (.head wl tile pos) s = .next t ∧ Quiet s t ∧ t.net = s.net ∧
    ∃ v, t.wl? wl = some v ∧ v = { w with heads := w.heads.set tile pos } := by
  have hx := (Tracks.start hw).updWl fun w => { w with heads := w.heads.set tile pos }
  exact ⟨_, exec_head .., hx.quiet, State.updWl_net .., _, hx.list, rfl⟩

theorem low_waits (lamp : Nat) (hop : w.op ≠ none) : ∃ t, exec (.low wl lamp) s = .next t ∧ Quiet s t ∧ t.net = s.net ∧
    ∃ v, t.wl? wl = some v ∧ v = { w with inbox := if w.inbox.contains (.low wl lamp) then w.inbox else w.inbox ++ [.low wl lamp] } := by
  have hx := (Tracks.start hw).updWl fun w => if w.inbox.contains (.low wl lamp) then w else { w with inbox := w.inbox ++ [.low wl lamp] }
  have hgo : exec (.low wl lamp) s = .next (s.queue wl (.low wl lamp)) := by
    rw [exec_low, execLow, hw]
    exact if_pos (Option.isSome_iff_ne_none.2 hop)
  refine ⟨_, hgo, hx.quiet, State.updWl_net .., _, hx.list, ?_⟩
  split <;> rfl

theorem startPull_eq (hopen : w.closed = false) (hpull : w.pull = none) (hlends : w.lends = false) (hheads : w.heads.filterMap (·.2) ≠ []) :
    s.startPull wl = (s.wlTiles w).foldl (fun u a => u.after (hopDie a (w.keeperLamp % 4)) (.pull wl (u.overPod a) (s.newPull w).kn w.places w.v))
      ((w.pkgs.filter (· != s.pkg.podIndex.toNat)).foldl (fun u p => u.lantern p 0 wl (.pull (p * 512) (s.newPull w).kn w.places w.v))
        (s.updWl wl fun v => { v with pull := some { s.newPull w with m := v.places, v := v.v } })) := by
  have hkn : (s.newPull w).kn = ((w.heads.filterMap (·.2)).erase (leastHead (w.heads.filterMap (·.2)))).min? := (min?_erase_leastHead _).symm
  have hbare : (w.heads.filterMap fun e => e.2).isEmpty = false := by simpa using hheads
  unfold State.startPull
  rw [hw]
  dsimp only
  rw [hpull, hopen, hlends, hbare]
  simp only [Option.isSome_none, Bool.and_false, Bool.false_and, Bool.or_false, Bool.false_eq_true, if_false, hkn]
  cases hl : (w.heads.filterMap (·.2)).erase (leastHead (w.heads.filterMap (·.2))) with
  | nil =>
    simp only [show (w.heads.filterMap fun e => e.2).erase ((w.heads.filterMap fun e => e.2).foldl Nat.min ((w.heads.filterMap fun e => e.2).headD 0)) = _ from hl]
    rfl
  | cons a l =>
    simp only [show (w.heads.filterMap fun e => e.2).erase ((w.heads.filterMap fun e => e.2).foldl Nat.min ((w.heads.filterMap fun e => e.2).headD 0)) = _ from hl,
      List.min?_cons']
    rfl

theorem low_pulls (lamp : Nat) (hopen : w.closed = false) (hpull : w.pull = none) (hop : w.op = none) (hlends : w.lends = false)
    (hheads : w.heads.filterMap (·.2) ≠ []) : ∃ t, exec (.low wl lamp) s = .next t ∧ Quiet s t ∧
      (∃ v, t.wl? wl = some v ∧ v = { w with pull := some (s.newPull w) }) ∧
      (∀ a ∈ s.wlTiles w, ⟨s.now + hopDie a (w.keeperLamp % 4), .pull wl (s.overPod a) (s.newPull w).kn (s.newPull w).m w.v⟩ ∈ t.net.pend) ∧
      ∀ a ∈ w.pkgs, a ≠ s.pkg.podIndex.toNat → Sends s t wl w a 0 (.pull (a * 512) (s.newPull w).kn (s.newPull w).m w.v) := by
  have hgo : exec (.low wl lamp) s = .next (s.startPull wl) := by
    rw [exec_low, execLow, hw]
    exact if_neg (by rw [hop]; decide)
  rw [startPull_eq hw hopen hpull hlends hheads] at hgo
  have hbase := (Tracks.start hw).updWl fun v => { v with pull := some { s.newPull w with m := v.places, v := v.v } }
  have hpkgs := hbase.lanterns (w.pkgs.filter (· != s.pkg.podIndex.toNat)) (fun p => p) (fun _ => 0)
    (fun p => .pull (p * 512) (s.newPull w).kn w.places w.v) fun _ => rfl
  have hsent := hbase.sends_each (w := w) rfl rfl (w.pkgs.filter (· != s.pkg.podIndex.toNat)) (fun p => p) (fun _ => 0)
    (fun p => .pull (p * 512) (s.newPull w).kn w.places w.v) (fun _ => rfl) _ fun _ => rfl
  obtain ⟨htiles, hposts⟩ := hpkgs.tileAfters (s.wlTiles w) (fun a => hopDie a (w.keeperLamp % 4)) fun p => .pull wl p (s.newPull w).kn w.places w.v
  exact ⟨_, hgo, htiles.quiet, ⟨_, htiles.list, rfl⟩, hposts, fun a ha hne =>
    (hsent a (List.mem_filter.2 ⟨ha, by simpa using hne⟩)).mono (wlStep_foldl (fun s a => wlStep_after ..) ..)⟩

end

/-! ### PULL (R162, R165) -/

theorem foldl_least_mem (l : List QItem) (acc : Option QItem) {q : QItem}
    (h : l.foldl (fun acc q => match acc with | none => some q | some p => if q.pos < p.pos then some q else some p) acc = some q) :
    q ∈ l ∨ acc = some q := by
  induction l generalizing acc with
  | nil => exact .inr h
  | cons a l ih =>
    obtain hm | ha := ih _ h
    · exact .inl (List.mem_cons_of_mem _ hm)
    · cases acc with
      | none => exact .inl (List.mem_cons.2 (.inl (Option.some.inj ha).symm))
      | some p =>
        dsimp only at ha
        split at ha
        · exact .inl (List.mem_cons.2 (.inl (Option.some.inj ha).symm))
        · exact .inr ha

theorem headOf_mem {w : WorkList} {tile : Nat} {q : QItem} (h : w.headOf tile = some q) : q ∈ w.reserve tile := by
  obtain hm | hn := foldl_least_mem _ _ h
  · exact hm
  · cases hn

theorem headOf_none {w : WorkList} {tile : Nat} (h : w.reserve tile = []) : w.headOf tile = none := by
  unfold WorkList.headOf
  rw [h]
  rfl

theorem takeHead_isSome {w : WorkList} {tile : Nat} {q : QItem} (h : w.headOf tile = some q) : ∃ w', w.takeHead tile = some (q.first, w') := by
  unfold WorkList.takeHead
  rw [h]
  exact ⟨_, rfl⟩

/-- A reserve whose first item does not precede the cutoff. -/
def WorkList.spent (w : WorkList) (tile : Nat) (kn : Option Nat) : Prop := ∀ q, w.headOf tile = some q → ahead q.pos kn = false

section
variable {w : WorkList} {tile : Nat} {kn : Option Nat} (h : w.spent tile kn)
include h

theorem reach_spent (n : Nat) : w.reach tile kn n = [] := by
  cases n with
  | zero => rfl
  | succ n =>
    unfold WorkList.reach
    cases hq : w.headOf tile with
    | none => rfl
    | some q =>
      obtain ⟨w', hw'⟩ := takeHead_isSome hq
      rw [hw']
      exact if_pos (by rw [h q hq]; rfl)

theorem sendItems_spent {s : State} {wl : Nat} (hw : s.wl? wl = some w) (v n : Nat) : s.sendItems wl tile kn v n = s := by
  cases n with
  | zero => rfl
  | succ n =>
    unfold State.sendItems
    rw [hw]
    dsimp only
    cases hq : w.headOf tile with
    | none =>
      rw [show w.takeHead tile = none by unfold WorkList.takeHead; rw [hq]]
    | some q =>
      obtain ⟨w', hw'⟩ := takeHead_isSome hq
      rw [hw']
      exact if_pos (by rw [show q.first.pos = q.pos from rfl, h q hq]; rfl)

end

/-- The items of a reserve, counted. -/
def WorkList.reserveSize (w : WorkList) (tile : Nat) : Nat := ((w.reserve tile).map QItem.size).sum

section
variable {s : State} {wl : Nat} {w : WorkList} (hw : s.wl? wl = some w) (hopen : w.closed = false) (tile : Nat) (kn : Option Nat) (n v : Nat)
include hw hopen

/-- A pull that reaches no run takes its items, and the reserve answers. -/
theorem pull_answers (hreach : w.reach (tile % 512) kn n = []) {x : WorkList} (hx : (s.sendItems wl (tile % 512) kn v n).wl? wl = some x)
    (hnext : x.spent (tile % 512) kn) : exec (.pull wl tile kn n v) s =
      .next ((((s.sendItems wl (tile % 512) kn v n).updWl wl fun w => { w with tileK := w.tileK.set (tile % 512) (kn, v) }).sendHead wl (tile % 512)).after
        (hopDie (tile % 512) (w.keeperLamp % 4)) (.pack wl tile ⟨none, w.reserveSize (tile % 512) - x.reserveSize (tile % 512)⟩)) := by
  rw [exec_pull, execPull, hw]
  dsimp only
  rw [hopen, if_neg (by decide), show tileIx tile = tile % 512 from rfl, hreach]
  dsimp only [State.readRuns]
  simp only [hw, hx, Option.map_some, Option.bind_some, Option.getD_some]
  cases hq : x.headOf (tile % 512) with
  | none =>
    simp only [ite_self]
    rfl
  | some q =>
    simp only [hnext q hq, Bool.false_eq_true, if_false, ite_self]
    rfl

theorem pull_finds_none (h : ∀ q ∈ w.reserve (tile % 512), ¬∀ c, kn = some c → q.pos < c) :
    ∃ t, exec (.pull wl tile kn n v) s = .next t ∧ Quiet s t ∧
      (∃ x, t.wl? wl = some x ∧ x = { w with tileK := w.tileK.set (tile % 512) (kn, v) }) ∧
      ⟨s.now + hopDie (tile % 512) (w.keeperLamp % 4), .pack wl tile ⟨none, 0⟩⟩ ∈ t.net.pend := by
  have hspent : w.spent (tile % 512) kn := fun q hq => Bool.eq_false_iff.2 fun ha => h q (headOf_mem hq) (ahead_iff.1 ha)
  have hgo := pull_answers hw hopen tile kn n v (reach_spent hspent n) (x := w) (by rw [sendItems_spent hspent hw]; exact hw) hspent
  rw [sendItems_spent hspent hw, Nat.sub_self] at hgo
  have hx := ((Tracks.start hw).updWl fun w => { w with tileK := w.tileK.set (tile % 512) (kn, v) }).sendHead (tile % 512)
  refine ⟨_, hgo, (hx.after _ _).quiet, ⟨_, (hx.after _ _).list, rfl⟩, ?_⟩
  rw [← hx.step.now_eq]
  exact List.mem_append_right _ (List.mem_singleton.2 rfl)

/-- A pull that reaches a run whose page is pending waits with it. -/
theorem pull_waits {q : QItem} {r : OvRun} (hn : n ≠ 0) (hq : w.headOf (tile % 512) = some q) (hahead : ∀ c, kn = some c → q.pos < c)
    (hr : w.runWith (tile % 512) q.pos = some r) (hwait : r.wait ≠ none) :
    ∃ t, exec (.pull wl tile kn n v) s = .next t ∧ t = { s with net := t.net } ∧ Posts s t 16 (.pull wl tile kn n v) := by
  obtain ⟨m, rfl⟩ := Nat.exists_eq_succ_of_ne_zero hn
  obtain ⟨w', hw'⟩ := takeHead_isSome hq
  have hreach : w.reach (tile % 512) kn (m + 1) = r :: w'.reach (tile % 512) kn m := by
    rw [WorkList.reach, hq, hw']
    dsimp only
    rw [if_neg (by rw [ahead_iff.2 hahead]; decide), hr]
    rfl
  have hgo : exec (.pull wl tile kn (m + 1) v) s = .next (s.after 16 (.pull wl tile kn (m + 1) v)) := by
    rw [exec_pull, execPull, hw]
    dsimp only
    rw [hopen, if_neg (by decide), show tileIx tile = tile % 512 from rfl, hreach, State.readRuns, if_pos (Option.isSome_iff_ne_none.2 hwait)]
  exact ⟨_, hgo, rfl, rfl⟩

end

/-- An item leaves a reserve for a lamp, or for the keeper's package. -/
theorem Tracks.sendRitem {s t : State} {wl : Nat} {v : WorkList} (h : Tracks s t wl v) (tile : Nat) (q : QItem) (n : Nat) :
    (∃ f k, Tracks s (t.sendRitem wl tile q n) wl { v with far := f, sent := k }) ∧
    ∀ w : WorkList, v.asid = w.asid → v.launch = w.launch →
      (v.home = s.pkg.podIndex.toNat →
        Sends s (t.sendRitem wl tile q n) wl w (t.freest wl v / 4) (hopDie tile (t.freest wl v % 4)) (.ritem (t.freest wl v) q n)) ∧
      (v.home ≠ s.pkg.podIndex.toNat → Sends s (t.sendRitem wl tile q n) wl w v.home 0 (.ritem 1024 q n)) := by
  have hown : t.own = s.pkg.podIndex.toNat := h.step.own_eq
  unfold State.sendRitem
  rw [h.list]
  dsimp only
  by_cases hhome : v.home = s.pkg.podIndex.toNat
  · rw [if_neg (by simpa [hown] using hhome)]
    generalize hd : t.freest wl v = d
    have hfar : ∃ f, Tracks s (if lampPkg d = t.own then t else t.updWl wl fun w => { w with far := w.far.map fun (e : Nat × WlNews) =>
        (e.1, if e.1 = lampPkg d then { e.2 with parts := e.2.parts ++ [(d, [(q.pos, true)])] } else e.2) }) wl { v with far := f } := by
      split
      · exact ⟨v.far, h⟩
      · exact ⟨_, h.updWl _⟩
    obtain ⟨f, hf⟩ := hfar
    obtain ⟨k, hk⟩ := hf.lantern (lampPkg d) (hopDie tile (lampDie d)) (.ritem d q n)
    exact ⟨⟨f, k, hk⟩, fun w ha hl => ⟨fun _ => hf.sends (w := w) ha hl _ _ rfl, fun hn => absurd hhome hn⟩⟩
  · rw [if_pos (by simpa [hown] using hhome)]
    obtain ⟨k, hk⟩ := h.lantern v.home 0 (.ritem anyLamp q n)
    exact ⟨⟨v.far, k, hk⟩, fun w ha hl => ⟨fun hc => absurd hc hhome, fun _ => h.sends (w := w) ha hl _ _ rfl⟩⟩

section
variable {s : State} {wl : Nat} {w : WorkList} (hw : s.wl? wl = some w) (hopen : w.closed = false) (tile : Nat) (kn : Option Nat) (n v : Nat)
include hw hopen

/-- A reserve of one item sends it, and answers that it has sent one. -/
theorem pull_takes_one {q : QItem} (hn : n ≠ 0) (hheap : w.heap.getD [] (tile % 512) = [q]) (hruns : w.runs.getD [] (tile % 512) = []) (hsize : q.size = 1)
    (hahead : ∀ c, kn = some c → q.pos < c) : ∃ t, exec (.pull wl tile kn n v) s = .next t ∧ Quiet s t ∧
      (∃ x, t.wl? wl = some x ∧ x.heap.getD [] (tile % 512) = [] ∧ x.tileK.getD (none, 0) (tile % 512) = (kn, v)) ∧
      (w.home = s.pkg.podIndex.toNat →
        Sends s t wl w (s.freest wl w / 4) (hopDie (tile % 512) (s.freest wl w % 4)) (.ritem (s.freest wl w) q.first v)) ∧
      (w.home ≠ s.pkg.podIndex.toNat → Sends s t wl w w.home 0 (.ritem 1024 q.first v)) ∧
      ⟨s.now + hopDie (tile % 512) (w.keeperLamp % 4), .pack wl tile ⟨none, 1⟩⟩ ∈ t.net.pend := by
  obtain ⟨m, rfl⟩ := Nat.exists_eq_succ_of_ne_zero hn
  have hres : w.reserve (tile % 512) = [q] := by rw [WorkList.reserve, hheap, hruns]; rfl
  have hhead : w.headOf (tile % 512) = some q := by rw [WorkList.headOf, hres]; rfl
  have htake : w.takeHead (tile % 512) = some (q.first, { w with heap := w.heap.set (tile % 512) [], runs := w.runs.set (tile % 512) [] }) := by
    unfold WorkList.takeHead
    rw [hhead]
    dsimp only
    rw [hheap, hruns]
    simp [QItem.rest_none (Nat.le_of_eq hsize)]
  generalize hw' : ({ w with heap := w.heap.set (tile % 512) [], runs := w.runs.set (tile % 512) [] } : WorkList) = w' at htake
  have hheap' : w'.heap.getD [] (tile % 512) = [] := by rw [← hw']; exact Map.getD_set_same ..
  have hruns' : w'.runs.getD [] (tile % 512) = [] := by rw [← hw']; exact Map.getD_set_same ..
  have hempty : ∀ f k, WorkList.reserve { w' with far := f, sent := k } (tile % 512) = [] := by
    intro f k
    show w'.heap.getD [] (tile % 512) ++ (w'.runs.getD [] (tile % 512)).flatMap (·.items) = []
    rw [hheap', hruns']
    rfl
  have hspent : ∀ f k, WorkList.spent { w' with far := f, sent := k } (tile % 512) kn := fun f k p hp => by
    rw [headOf_none (hempty f k)] at hp
    cases hp
  have hreach : w.reach (tile % 512) kn (m + 1) = [] := by
    have hrun : w.runWith (tile % 512) q.pos = none := by rw [WorkList.runWith, hruns]; rfl
    rw [WorkList.reach, hhead, htake]
    dsimp only
    rw [if_neg (by rw [ahead_iff.2 hahead]; decide), hrun]
    exact reach_spent (hspent w'.far w'.sent) m
  have hbase := (Tracks.start hw).updWl fun _ => w'
  obtain ⟨⟨f, k, hx⟩, hsend⟩ := hbase.sendRitem (tile % 512) q.first v
  have hitems : s.sendItems wl (tile % 512) kn v (m + 1) = (s.updWl wl fun _ => w').sendRitem wl (tile % 512) q.first v := by
    rw [State.sendItems, hw]
    dsimp only
    rw [htake]
    dsimp only
    rw [if_neg (by rw [show q.first.pos = q.pos from rfl, ahead_iff.2 hahead]; decide)]
    exact sendItems_spent (hspent f k) hx.list v m
  have hgo := pull_answers hw hopen tile kn (m + 1) v hreach (by rw [hitems]; exact hx.list) (hspent f k)
  have hcount : w.reserveSize (tile % 512) - WorkList.reserveSize { w' with far := f, sent := k } (tile % 512) = 1 := by
    rw [WorkList.reserveSize, WorkList.reserveSize, hempty, hres]
    simp [hsize]
  rw [hitems, hcount] at hgo
  have hfreest : (s.updWl wl fun _ => w').freest wl w' = s.freest wl w := by
    unfold State.freest State.coming
    rw [State.updWl_net, ← hw']
    rfl
  rw [hfreest] at hsend
  have hsends := hsend w (by rw [← hw']) (by rw [← hw'])
  have hhome : w'.home = w.home := by rw [← hw']
  rw [hhome] at hsends
  have hy := (hx.updWl fun w => { w with tileK := w.tileK.set (tile % 512) (kn, v) }).sendHead (tile % 512)
  have hfrom := (((Tracks.start hx.list).updWl fun w => { w with tileK := w.tileK.set (tile % 512) (kn, v) }).sendHead (tile % 512)).step
  refine ⟨_, hgo, (hy.after _ _).quiet, ⟨_, (hy.after _ _).list, hheap', Map.getD_set_same ..⟩,
    fun h => ((hsends.1 h).mono hfrom).mono (wlStep_after ..), fun h => ((hsends.2 h).mono hfrom).mono (wlStep_after ..), ?_⟩
  rw [← hy.step.now_eq]
  exact List.mem_append_right _ (List.mem_singleton.2 rfl)

end

end Sys2Proof.Machine
end


section
/-! PROOF. Pulls end, and lamps move items down and take new copies of K (R161, R164, R165, Table 7.3: RITEM, PACK, DEMOTE, CUT). -/

namespace Sys2Proof.Machine

/-! ### RITEM and PACK -/

section
variable {s : State} {wl : Nat} {w : WorkList} (hw : s.wl? wl = some w) (hopen : w.closed = false)
include hw hopen

theorem ritem_waits {lamp : Nat} (q : QItem) (v : Nat) (hlamp : lamp ≠ 1024) (hleft : ∀ p, w.pull = some p → p.left ≠ []) :
    ∃ t, exec (.ritem wl lamp ⟨q, v⟩) s = .next t ∧ Quiet s t ∧
      ∃ x, t.wl? wl = some x ∧ x.part lamp = w.part lamp ++ [⟨q, some v⟩] ∧ x.k = w.k ∧ x.heap = w.heap := by
  have hx := (Tracks.start hw).updWl fun w => w.putFront lamp q (some v)
  have hend : (s.updWl wl fun w => w.putFront lamp q (some v)).tryEndPull wl = s.updWl wl fun w => w.putFront lamp q (some v) := by
    cases hp : w.pull with
    | none => exact tryEndPull_none hx.list hp
    | some p => exact tryEndPull_left hx.list hp (hleft p hp)
  have hgo : exec (.ritem wl lamp ⟨q, v⟩) s = .next (s.updWl wl fun w => w.putFront lamp q (some v)) := by
    rw [exec_ritem, execRitem, hw]
    dsimp only
    rw [hopen, if_neg (by decide), if_neg (show ¬lamp = anyLamp from hlamp), hend]
  exact ⟨_, hgo, hx.quiet, _, hx.list, Map.getD_set_same .., rfl, rfl⟩

end

/-- A pull after what a reserve has answered. -/
def Pull.answer (p : Pull) (tile : Nat) (cap : Option Nat) (n : Nat) : Pull :=
  { p with left := p.left.filter (· != tile), cap := minK p.cap cap, sent := p.sent + n }

section
variable {s : State} {wl : Nat} {w : WorkList} (hw : s.wl? wl = some w) (hhome : w.home = s.pkg.podIndex.toNat) {p : Pull} (hp : w.pull = some p)
  (tile : Nat) (cap : Option Nat) (n : Nat)
include hw hhome hp

/-- The keeper notes what a reserve answers, and looks whether the pull is over. -/
theorem pack_noted : exec (.pack wl tile ⟨cap, n⟩) s = .next ((s.updWl wl fun w => { w with
    pull := some (p.answer tile cap n) }).tryEndPull wl) := by
  rw [exec_pack, execPack, hw]
  dsimp only
  rw [hp]
  exact if_neg (by simp [show w.home = s.own from hhome])

theorem pack_waits (hleft : ∃ a ∈ p.left, a ≠ tile) : ∃ t, exec (.pack wl tile ⟨cap, n⟩) s = .next t ∧ Quiet s t ∧ t.net = s.net ∧
    ∃ v, t.wl? wl = some v ∧ v = { w with pull := some (p.answer tile cap n) } := by
  have hx := (Tracks.start hw).updWl fun w => { w with
    pull := some (p.answer tile cap n) }
  obtain ⟨a, ha, hne⟩ := hleft
  have hgo := pack_noted hw hhome hp tile cap n
  rw [tryEndPull_left hx.list rfl (List.ne_nil_of_mem (List.mem_filter.2 ⟨ha, by simpa using hne⟩))] at hgo
  exact ⟨_, hgo, hx.quiet, State.updWl_net .., _, hx.list, rfl⟩

end

theorem tryEndPull_ends {s : State} {wl : Nat} {w : WorkList} (hw : s.wl? wl = some w) {p : Pull} (hp : w.pull = some p)
    (hhome : w.home = s.pkg.podIndex.toNat) (hop : w.op = none) (hleft : p.left = []) (hsent : (w.known.filter (·.waits)).length = p.sent) :
    s.tryEndPull wl = s.endPull wl w p := by
  unfold State.tryEndPull
  rw [hw]
  dsimp only
  rw [hp]
  exact if_pos (by simp [hop, hleft, hsent, show w.home = s.own from hhome])

/-- A pull that brought no item at or after the new K, and no more than the front holds, ends at once. -/
theorem endPull_fits {s : State} {wl : Nat} {w : WorkList} {p : Pull} {k0 : Option Nat} (hk : minK (minK p.kn p.cap) p.low = k0)
    (hlen : w.known.length ≤ w.rho + 1) (hall : ∀ i ∈ w.known, ∀ c, k0 = some c → i.pos < c) :
    s.endPull wl w p = (s.updWl wl fun v => { v with k := k0, pull := none, places := v.places - (w.known.filter (·.waits)).length }).sendCut wl (some p.v) := by
  have hnone : (((w.known.map (·.pos)).filter fun x => ahead x k0).mergeSort fun a b => decide (a ≤ b))[w.rho + 1]? = none := by
    refine List.getElem?_eq_none ?_
    rw [List.length_mergeSort]
    exact (List.length_filter_le _ _).trans ((List.length_map ..).trans_le hlen)
  have hany : (w.known.any fun i => !ahead i.pos k0) = false := List.any_eq_false.2 fun i hi => by simp [ahead_iff.2 (hall i hi)]
  unfold State.endPull
  dsimp only
  rw [hk]
  simp only [hnone, hany, Bool.false_eq_true, if_false]

section
variable {s : State} {wl : Nat} {w : WorkList} (hw : s.wl? wl = some w) (hhome : w.home = s.pkg.podIndex.toNat) {p : Pull} (hp : w.pull = some p)
include hw hhome hp

theorem pack_ends (tile : Nat) (cap : Option Nat) (n : Nat) (hop : w.op = none) (hleft : ∀ a ∈ p.left, a = tile)
    (hsent : (w.known.filter (·.waits)).length = p.sent + n) {k0 : Option Nat} (hk : minK (minK p.kn (minK p.cap cap)) p.low = k0)
    (hlen : w.known.length ≤ w.rho + 1) (hall : ∀ i ∈ w.known, ∀ c, k0 = some c → i.pos < c) :
    ∃ t, exec (.pack wl tile ⟨cap, n⟩) s = .next t ∧ Quiet s t ∧
      (∃ v, t.wl? wl = some v ∧ v.pull = none ∧ v.k = k0 ∧ v.v = w.v + 1 ∧ v.parts = w.parts ∧ v.places = w.places - (w.known.filter (·.waits)).length) ∧
      (∀ d ∈ w.lamps, Sends s t wl w (d / 4) (hopDies (w.keeperLamp % 4) (d % 4)) (.cut true d k0 (w.v + 1) (some p.v))) ∧
      ∀ a ∈ s.wlTiles w, ⟨s.now + hopDie a (w.keeperLamp % 4), .cut wl false (s.overPod a) k0 ⟨w.v + 1, (some p.v)⟩⟩ ∈ t.net.pend := by
  have hx := (Tracks.start hw).updWl fun w => { w with
    pull := some (p.answer tile cap n) }
  have hnil : p.left.filter (· != tile) = [] := List.filter_eq_nil_iff.2 fun a ha => by simp [hleft a ha]
  have hgo := pack_noted hw hhome hp tile cap n
  rw [tryEndPull_ends hx.list rfl (hhome.trans (congrArg BitVec.toNat (by rw [hx.step.rest]))) hop hnil hsent] at hgo
  rw [endPull_fits (w := { w with pull := some (p.answer tile cap n) }) (k0 := k0) hk hlen hall] at hgo
  obtain ⟨hcut, hcuts, htiles⟩ := (hx.updWl fun v => { v with k := k0, pull := none, places := v.places - (w.known.filter (·.waits)).length }).sendCut (some p.v)
  exact ⟨_, hgo, hcut.quiet, ⟨_, hcut.list, rfl, rfl, rfl, rfl, rfl⟩, hcuts w rfl rfl, htiles⟩

end

/-! ### DEMOTE -/

theorem Tracks.sendDowns {s t : State} {wl : Nat} {v : WorkList} (h : Tracks s t wl v) {w : WorkList} (hasid : v.asid = w.asid)
    (hlaunch : v.launch = w.launch) (l : List FrontItem) (hop : Nat) :
    (∃ n, Tracks s (l.foldl (fun u f => u.sendDown w wl f.q hop) t) wl { v with sent := n }) ∧
    ∀ f ∈ l, Sends s (l.foldl (fun u f => u.sendDown w wl f.q hop) t) wl w w.home hop (downMsg s wl w f.q) := by
  induction l generalizing t v with
  | nil => exact ⟨⟨v.sent, h⟩, fun f hf => absurd hf List.not_mem_nil⟩
  | cons a l ih =>
    obtain ⟨⟨n, hn⟩, hsend⟩ := h.sendDown hasid hlaunch a.q hop
    obtain ⟨⟨k, hk⟩, hsends⟩ := ih hn hasid hlaunch
    refine ⟨⟨k, hk⟩, fun f hf => ?_⟩
    obtain rfl | hf := List.mem_cons.1 hf
    · exact hsend.mono (wlStep_foldl (fun u f => wlStep_sendDown ..) l _)
    · exact hsends f hf

theorem Tracks.lowIf {s t : State} {wl : Nat} {v : WorkList} (h : Tracks s t wl v) (lamp : Nat) : Tracks s (t.lowIf wl lamp) wl v := by
  unfold State.lowIf
  rw [h.list]
  dsimp only
  split
  · unfold State.sendLow
    rw [h.list]
    exact h.lantern_bare _ _ rfl
  · exact h

/-- A lamp's part without a list of items. -/
def WorkList.cutAll (w : WorkList) (lamp : Nat) (l : List FrontItem) : WorkList := l.foldl (fun w f => w.cutFront lamp f.q.pos) w

theorem WorkList.cutAll_rest (w : WorkList) (lamp : Nat) (l : List FrontItem) : w.cutAll lamp l = { w with parts := (w.cutAll lamp l).parts } := by
  unfold WorkList.cutAll
  induction l generalizing w with
  | nil => rfl
  | cons a l ih =>
    rw [List.foldl_cons]
    exact ih (w.cutFront lamp a.q.pos)

theorem WorkList.mem_cutAll (w : WorkList) (lamp : Nat) (l : List FrontItem) (f : FrontItem) :
    f ∈ (w.cutAll lamp l).part lamp ↔ f ∈ w.part lamp ∧ ∀ e ∈ l, f.q.pos ≠ e.q.pos := by
  unfold WorkList.cutAll
  induction l generalizing w with
  | nil => simp
  | cons a l ih =>
    rw [List.foldl_cons, ih]
    have hcut : (w.cutFront lamp a.q.pos).part lamp = (w.part lamp).filter fun f => f.q.pos != a.q.pos := Map.getD_set_same ..
    rw [hcut, List.mem_filter, List.forall_mem_cons, bne_iff_ne, and_assoc]

/-- The places that items leave which were front items. -/
def freed (l : List FrontItem) : Nat := (l.filter (·.pull.isNone)).length

section
variable {s : State} {wl lamp : Nat} {w : WorkList} (hw : s.wl? wl = some w) (hopen : w.closed = false)
include hw hopen

theorem demote_moves {kd : Option Nat} {ends : Bool} {late : List FrontItem}
    (hlate : (w.part lamp).filter (fun f => !ahead f.q.pos kd && (f.pull.isNone || ends)) = late) :
    ∃ t, exec (.demote wl lamp ⟨kd, ends, none⟩) s = .next t ∧ Quiet s t ∧
      (∀ f ∈ late, Sends s t wl w w.home (hopDie (w.ktile % 512) (lamp % 4)) (downMsg s wl w f.q)) ∧
      (w.home = s.pkg.podIndex.toNat →
        ⟨s.now + hopDies (lamp % 4) (w.keeperLamp % 4), .demote wl lamp ⟨kd, ends, some late.length⟩⟩ ∈ t.net.pend) ∧
      ∃ v, t.wl? wl = some v ∧ (∀ f, f ∈ v.part lamp ↔ f ∈ w.part lamp ∧ ∀ e ∈ late, f.q.pos ≠ e.q.pos) ∧
        v.demotes = w.demotes + BitVec.ofNat 32 late.length ∧
        (w.home = s.pkg.podIndex.toNat → v.places = w.places + freed late) ∧
        (w.home ≠ s.pkg.podIndex.toNat → v.gave = w.gave + freed late ∧ v.answered = w.answered + 1) := by
  have hgo : exec (.demote wl lamp ⟨kd, ends, none⟩) s = .next (
      let t := ((late.foldl (fun u f => u.sendDown w wl f.q (hopDie (w.ktile % 512) (lamp % 4))) s).updWl wl fun w =>
        { w.cutAll lamp late with demotes := (w.cutAll lamp late).demotes + BitVec.ofNat 32 late.length })
      let t := if late.length = 0 then t else t.lowIf wl lamp
      if w.home = t.own then ((t.updWl wl fun w => { w with places := w.places + freed late }).after (hopDies (lamp % 4) (w.keeperLamp % 4))
        (.demote wl lamp ⟨kd, ends, some late.length⟩))
      else t.updWl wl fun w => { w with gave := w.gave + freed late, answered := w.answered + 1 }) := by
    rw [exec_demote, execDemote, hw]
    dsimp only
    rw [hopen, if_neg (by decide), hlate]
    exact (apply_ite _ _ _ _).symm
  obtain ⟨⟨n, hdown⟩, hsends⟩ := (Tracks.start hw).sendDowns (w := w) rfl rfl late (hopDie (w.ktile % 512) (lamp % 4))
  have hcut := hdown.updWl fun w => { w.cutAll lamp late with demotes := (w.cutAll lamp late).demotes + BitVec.ofNat 32 late.length }
  have hfrom := wlStep_updWl (late.foldl (fun u f => u.sendDown w wl f.q (hopDie (w.ktile % 512) (lamp % 4))) s) wl fun w =>
    { w.cutAll lamp late with demotes := (w.cutAll lamp late).demotes + BitVec.ofNat 32 late.length }
  generalize hu : (late.foldl (fun u f => u.sendDown w wl f.q (hopDie (w.ktile % 512) (lamp % 4))) s).updWl wl (fun w =>
    { w.cutAll lamp late with demotes := (w.cutAll lamp late).demotes + BitVec.ofNat 32 late.length }) = u at hgo hcut hfrom
  generalize hv : ({ WorkList.cutAll { w with sent := n } lamp late with
    demotes := (WorkList.cutAll { w with sent := n } lamp late).demotes + BitVec.ofNat 32 late.length } : WorkList) = v at hcut
  have hlow : Tracks u (if late.length = 0 then u else u.lowIf wl lamp) wl v := by
    split
    · exact .start hcut.list
    · exact (Tracks.start hcut.list).lowIf lamp
  dsimp only at hgo
  generalize (if late.length = 0 then u else u.lowIf wl lamp) = y at hgo hlow
  have hy : Tracks s y wl v := ⟨hcut.step.trans hlow.step, hlow.list⟩
  have hown : y.own = s.pkg.podIndex.toNat := hy.step.own_eq
  have hrest := WorkList.cutAll_rest { w with sent := n } lamp late
  have hmem : ∀ f, f ∈ v.part lamp ↔ f ∈ w.part lamp ∧ ∀ e ∈ late, f.q.pos ≠ e.q.pos := by
    rw [← hv]
    exact WorkList.mem_cutAll { w with sent := n } lamp late
  have hdem : v.demotes = w.demotes + BitVec.ofNat 32 late.length := by rw [← hv, hrest]
  have hplaces : v.places = w.places := by rw [← hv, hrest]
  have hgave : v.gave = w.gave := by rw [← hv, hrest]
  have hans : v.answered = w.answered := by rw [← hv, hrest]
  by_cases hhome : w.home = s.pkg.podIndex.toNat
  · have hz := hy.updWl fun w => { w with places := w.places + freed late }
    have hto := (((Tracks.start hy.list).updWl fun w => { w with places := w.places + freed late }).after (hopDies (lamp % 4) (w.keeperLamp % 4))
        (.demote wl lamp ⟨kd, ends, some late.length⟩)).step
    refine ⟨_, hgo.trans (congrArg _ (if_pos (hhome.trans hown.symm))), (hz.after _ _).quiet,
      fun f hf => ((hsends f hf).mono hfrom).mono (hlow.step.trans hto), fun _ => ?_, _, (hz.after _ _).list, hmem, hdem,
      fun _ => congrArg (· + freed late) hplaces, fun hn => absurd hhome hn⟩
    rw [← hz.step.now_eq]
    exact List.mem_append_right _ (List.mem_singleton.2 rfl)
  · have hz := hy.updWl fun w => { w with gave := w.gave + freed late, answered := w.answered + 1 }
    exact ⟨_, hgo.trans (congrArg _ (if_neg (hown ▸ hhome))), hz.quiet,
      fun f hf => ((hsends f hf).mono hfrom).mono (hlow.step.trans (wlStep_updWl ..)), fun h => absurd h hhome, _, hz.list, hmem, hdem,
      fun h => absurd h hhome, fun _ => ⟨congrArg (· + freed late) hgave, congrArg (· + 1) hans⟩⟩

end

/-- The items of a lamp's part become poppable that waited for the end of a pull. -/
def WorkList.endWait (w : WorkList) (lamp : Nat) (ends : Option Nat) : List FrontItem :=
  (w.part lamp).map fun f => if ends ≠ none ∧ f.pull = ends then { f with pull := none } else f

/-- A lamp's part once a pull may have ended. -/
def WorkList.endPart (w : WorkList) (lamp : Nat) (ends : Option Nat) : WorkList :=
  let part := (w.part lamp).map fun f => if ends.isSome && f.pull == ends then { f with pull := none } else f
  { w with parts := if (w.part lamp).isEmpty then w.parts else w.parts.set lamp part }

theorem WorkList.endPart_part (w : WorkList) (lamp : Nat) (ends : Option Nat) : (w.endPart lamp ends).part lamp = w.endWait lamp ends := by
  have hif : ∀ f : FrontItem, (if ends.isSome && f.pull == ends then { f with pull := none } else f) =
      if ends ≠ none ∧ f.pull = ends then { f with pull := none } else f := fun f => if_congr (by simp [Option.isSome_iff_ne_none]) rfl rfl
  unfold WorkList.endPart WorkList.endWait
  simp only [hif]
  by_cases he : w.part lamp = []
  · rw [he, List.isEmpty_nil, if_pos rfl]
    exact he
  · rw [if_neg (by simpa using he)]
    exact Map.getD_set_same ..

theorem WorkList.endPart_part_ne (w : WorkList) (lamp : Nat) (ends : Option Nat) {d : Nat} (h : d ≠ lamp) :
    (w.endPart lamp ends).part d = w.part d := by
  unfold WorkList.endPart WorkList.part
  dsimp only
  split
  · rfl
  · rw [Map.getD_set, if_neg h]

/-- A lamp's copy of K and V, where a larger V replaces it. -/
def WorkList.newCopy (w : WorkList) (lamp : Nat) (kc : Option Nat) (v : Nat) : WorkList :=
  if (w.lampK.getD (none, 0) lamp).2 < v then { w with lampK := w.lampK.set lamp (kc, v) } else w

theorem WorkList.newCopy_rest (w : WorkList) (lamp : Nat) (kc : Option Nat) (v : Nat) : w.newCopy lamp kc v = { w with
    lampK := if (w.lampK.getD (none, 0) lamp).2 < v then w.lampK.set lamp (kc, v) else w.lampK } := by
  unfold WorkList.newCopy
  split <;> rfl

section
variable {s : State} {wl lamp : Nat} {w : WorkList} (hw : s.wl? wl = some w)
include hw

/-- A lamp has answered the keeper's DEMOTE. -/
theorem demote_answered (kd : Option Nat) (ends : Bool) (n : Nat) {r : KeeperOp} (hop : w.op = some r) (hpull : w.pull = none) :
    ∃ t, exec (.demote wl lamp ⟨kd, ends, some n⟩) s = .next t ∧ Quiet s t ∧
      (r.lamps.erase lamp = [] ∧ r.calls = [] ∧ r.loose + n = 0 → (∃ v, t.wl? wl = some v ∧ v = { w with op := none, inbox := [] }) ∧
        ∀ e ∈ r.next.toList ++ w.inbox, ⟨s.now, e⟩ ∈ t.net.pend) ∧
      (¬(r.lamps.erase lamp = [] ∧ r.calls = [] ∧ r.loose + n = 0) → t.net = s.net ∧
        ∃ v, t.wl? wl = some v ∧ v = { w with op := some { r with lamps := r.lamps.erase lamp, loose := r.loose + n } }) := by
  have hgo : exec (.demote wl lamp ⟨kd, ends, some n⟩) s =
      .next (s.opStep wl fun o => { o with lamps := o.lamps.erase lamp, loose := o.loose + n }) := by
    rw [exec_demote, execDemote, hw]
  have hstart := Tracks.start hw
  by_cases ho : r.lamps.erase lamp = [] ∧ r.calls = [] ∧ r.loose + n = 0
  · obtain ⟨hend, hposts⟩ := opStep_ends hstart (f := fun o => { o with lamps := o.lamps.erase lamp, loose := o.loose + n }) hop hpull ho
    exact ⟨_, hgo, hend.quiet, fun _ => ⟨⟨_, hend.list, rfl⟩, hposts⟩, fun hn => absurd ho hn⟩
  · rw [opStep_goesOn hstart (f := fun o => { o with lamps := o.lamps.erase lamp, loose := o.loose + n }) hop ho] at hgo
    have hx := hstart.updWl fun w => { w with op := some { r with lamps := r.lamps.erase lamp, loose := r.loose + n } }
    exact ⟨_, hgo, hx.quiet, fun h => absurd h ho, fun _ => ⟨State.updWl_net .., _, hx.list, rfl⟩⟩

/-! ### CUT -/

theorem cut_lamp (kc : Option Nat) (v : Nat) (ends : Option Nat) : ∃ t, exec (.cut wl true lamp kc ⟨v, ends⟩) s = .next t ∧ Quiet s t ∧
    ∃ x, t.wl? wl = some x ∧ x.part lamp = w.endWait lamp ends ∧ (∀ d, d ≠ lamp → x.part d = w.part d) ∧ x.k = w.k ∧
      x.lampK = if (w.lampK.getD (none, 0) lamp).2 < v then w.lampK.set lamp (kc, v) else w.lampK := by
  have hgo : exec (.cut wl true lamp kc ⟨v, ends⟩) s = .next (if ends.isSome then (s.updWl wl fun w => (w.endPart lamp ends).newCopy lamp kc v).stirAll wl
      else s.updWl wl fun w => (w.endPart lamp ends).newCopy lamp kc v) := by
    rw [exec_cut]
    rfl
  have hx := (Tracks.start hw).updWl fun w => (w.endPart lamp ends).newCopy lamp kc v
  have hy : ∃ l, Tracks s (if ends.isSome then (s.updWl wl fun w => (w.endPart lamp ends).newCopy lamp kc v).stirAll wl
      else s.updWl wl fun w => (w.endPart lamp ends).newCopy lamp kc v) wl { (w.endPart lamp ends).newCopy lamp kc v with waiters := l } := by
    split
    · exact hx.stirAll
    · exact ⟨_, hx⟩
  obtain ⟨l, hl⟩ := hy
  rw [WorkList.newCopy_rest] at hl
  exact ⟨_, hgo, hl.quiet, _, hl.list, w.endPart_part lamp ends, fun d hd => w.endPart_part_ne lamp ends hd, rfl, rfl⟩

theorem cut_tile (tile : Nat) (kc : Option Nat) (v : Nat) (ends : Option Nat) : ∃ t, exec (.cut wl false tile kc ⟨v, ends⟩) s = .next t ∧ Quiet s t ∧
    t.net = s.net ∧ ∃ x, t.wl? wl = some x ∧ x = { w with
      tileK := if (w.tileK.getD (none, 0) (tile % 512)).2 < v then w.tileK.set (tile % 512) (kc, v) else w.tileK } := by
  have hx := (Tracks.start hw).updWl fun w =>
    if (w.tileK.getD (none, 0) (tile % 512)).2 < v then { w with tileK := w.tileK.set (tile % 512) (kc, v) } else w
  refine ⟨_, exec_cut .., hx.quiet, State.updWl_net .., _, hx.list, ?_⟩
  split <;> rfl

end

end Sys2Proof.Machine
end


section
/-! PROOF. What the end of a launch leaves of the messages that are on their way (R180). -/

namespace Sys2Proof.Machine

/-! ### A launch that may be over (R180) -/

/-- Nothing in the slots or the tasks changes, and nothing that is on its way is lost. -/
structure Posting (s t : State) : Prop where
  quiet : Quiet s t
  pend : s.net.pend ⊆ t.net.pend
  outbox : s.net.outbox ⊆ t.net.outbox
  same : t.attrs = s.attrs ∧ t.curId = s.curId ∧ t.now = s.now

theorem Posting.refl (s : State) : Posting s s := ⟨⟨rfl, rfl, rfl⟩, fun _ h => h, fun _ h => h, rfl, rfl, rfl⟩

theorem Posting.trans {s t u : State} (h : Posting s t) (h' : Posting t u) : Posting s u :=
  ⟨⟨h'.quiet.1.trans h.quiet.1, h'.quiet.2.1.trans h.quiet.2.1, h'.quiet.2.2.trans h.quiet.2.2⟩, List.Subset.trans h.pend h'.pend,
    List.Subset.trans h.outbox h'.outbox, h'.same.1.trans h.same.1, h'.same.2.1.trans h.same.2.1, h'.same.2.2.trans h.same.2.2⟩

theorem WlStep.posting {s t : State} (h : WlStep s t) : Posting s t := ⟨h.quiet, h.pend, h.outbox, by rw [h.rest], by rw [h.rest], h.now_eq⟩

theorem Sends.kept {s t u : State} {wl pkg delay : Nat} {w : WorkList} {m : WlMsg} (h : Sends s t wl w pkg delay m) (hs : Posting t u) :
    Sends s u wl w pkg delay m := by
  obtain ⟨hhere, haway⟩ := h
  refine ⟨fun hp => ?_, fun hp port hport => ?_⟩
  · obtain ⟨e, he, hmem⟩ := hhere hp
    exact ⟨e, he, hs.pend hmem⟩
  · obtain ⟨q, hq, hrest⟩ := haway hp port hport
    exact ⟨q, hs.outbox hq, hrest⟩

theorem posting_updLaunch (s : State) (key : Nat) (f : Launch → Launch) : Posting s (s.updLaunch key f) := by
  unfold State.updLaunch
  split <;> exact ⟨⟨rfl, rfl, rfl⟩, fun _ h => h, fun _ h => h, rfl, rfl, rfl⟩

theorem posting_updCtx (s : State) (asid : BitVec 14) (f : Ctx → Ctx) : Posting s (s.updCtx asid f) := by
  unfold State.updCtx
  split <;> exact ⟨⟨rfl, rfl, rfl⟩, fun _ h => h, fun _ h => h, rfl, rfl, rfl⟩

theorem wl?_updWl_ne (s : State) {wl j : Nat} (h : wl ≠ j) (f : WorkList → WorkList) : (s.updWl j f).wl? wl = s.wl? wl := by
  unfold State.updWl
  split
  · exact (Map.get?_set ..).trans (if_neg h)
  · rfl

theorem wlStep_closeWl (s : State) (j : Nat) : WlStep s (s.closeWl j) := by
  unfold State.closeWl
  split
  · exact .refl s
  · exact (((wlStep_updWl ..).trans (wlStep_foldl (fun s m => wlStep_after ..) ..)).trans (wlStep_foldl (fun s e => wlStep_after ..) ..)).trans
      (wlStep_updRecs ..)

theorem wl?_foldl_after {α : Type} (l : List α) (delay : State → α → Nat) (e : State → α → Event) (s : State) (wl : Nat) :
    (l.foldl (fun s a => s.after (delay s a) (e s a)) s).wl? wl = s.wl? wl :=
  foldl_holds (P := fun u : State => u.wl? wl = s.wl? wl) rfl fun _ _ _ hu => hu

theorem wl?_closeWl_ne (s : State) {wl j : Nat} (h : wl ≠ j) : (s.closeWl j).wl? wl = s.wl? wl := by
  unfold State.closeWl
  split
  · rfl
  · rw [wl?_updRecs]
    exact ((wl?_foldl_after _ (fun _ _ => 0) (fun _ e => e) _ wl).trans (wl?_foldl_after _ _ _ _ wl)).trans (wl?_updWl_ne s h _)

theorem wakeWaiting_step (s : State) : WlStep s s.wakeWaiting := by
  unfold State.wakeWaiting
  exact wlStep_foldl (fun s e => iteInduction (motive := fun u => WlStep s u) (fun _ => wlStep_after ..) fun _ => .refl s) _ s

theorem wl?_wakeWaiting (s : State) (wl : Nat) : s.wakeWaiting.wl? wl = s.wl? wl := by
  unfold State.wakeWaiting
  exact foldl_holds (P := fun u : State => u.wl? wl = s.wl? wl) rfl fun u e _ hu =>
    iteInduction (motive := fun u : State => u.wl? wl = s.wl? wl) (fun _ => hu) fun _ => hu

/-- The worklist of a launch that is over is closed, here and in the other packages that it spans. -/
def State.closeOf (s : State) (l : Launch) (frozen : Bool) : State :=
  match s.wl? l.h.wlid with
  | some w =>
    if w.launch = l.key then
      ((w.pkgs.filter (· != s.own)).foldl (fun (s : State) p => s.lantern p 0 l.h.wlid (.close frozen)) s).closeWl l.h.wlid
    else s
  | none => s

theorem wlStep_closeOf (s : State) (l : Launch) (frozen : Bool) : WlStep s (s.closeOf l frozen) := by
  unfold State.closeOf
  split
  · exact iteInduction (motive := fun u => WlStep s u)
      (fun _ => (wlStep_foldl (fun s p => wlStep_lantern ..) _ s).trans (wlStep_closeWl ..)) fun _ => .refl s
  · exact .refl s

theorem wl?_closeOf_ne (s : State) {l : Launch} {wl : Nat} (h : wl ≠ l.h.wlid) (frozen : Bool) : (s.closeOf l frozen).wl? wl = s.wl? wl := by
  unfold State.closeOf
  split
  · refine iteInduction (motive := fun u : State => u.wl? wl = s.wl? wl) (fun _ => ?_) fun _ => rfl
    rw [wl?_closeWl_ne _ h]
    exact foldl_holds (P := fun u : State => u.wl? wl = s.wl? wl) rfl fun u p _ hu => (wl?_lantern_bare u _ _ _ rfl wl).trans hu
  · rfl

/-- A launch that is over: no slot is kept for it, its barriers go, and its record is written. -/
def State.freeLaunch (s : State) (l : Launch) : State := { s with
  tiles := s.tiles.map fun (e : Nat × Tile) => (e.1, { e.2 with reserved := e.2.reserved.filter fun r => r.2 != l.key })
  dies := s.dies.map fun (e : Nat × Die) => (e.1, { e.2 with bars := e.2.bars.filter fun b =>
    !(b.key.gkey != 0 && b.key.gkey.extractLsb' 0 32 == l.id) }) }

theorem posting_freeLaunch (s : State) (l : Launch) : Posting s (s.freeLaunch l) := ⟨⟨rfl, rfl, rfl⟩, fun _ h => h, fun _ h => h, rfl, rfl, rfl⟩

theorem finishLaunch_eq (s : State) (l : Launch) (st : LState) (reason : Nat) (frozen : Bool) : s.finishLaunch l st reason frozen =
    (((((s.updLaunch l.key fun l => { l with st := st, reason := reason, fin := s.now }).closeOf l frozen).freeLaunch l).updCtx l.h.asid
      fun c => { c with waiting := c.waiting ++ [l.id] }).after 1 (.launchRecordWrite l.h.asid)) := rfl

theorem finishLaunch_posting (s : State) (l : Launch) (st : LState) (reason : Nat) (frozen : Bool) : Posting s (s.finishLaunch l st reason frozen) := by
  rw [finishLaunch_eq]
  exact (((posting_updLaunch ..).trans (wlStep_closeOf ..).posting).trans (posting_freeLaunch ..)).trans
    ((posting_updCtx ..).trans (wlStep_after ..).posting)

theorem wl?_finishLaunch_ne (s : State) {l : Launch} {wl : Nat} (h : wl ≠ l.h.wlid) (st : LState) (reason : Nat) (frozen : Bool) :
    (s.finishLaunch l st reason frozen).wl? wl = s.wl? wl := by
  have hctx : ∀ (u : State) (asid : BitVec 14) (f : Ctx → Ctx), (u.updCtx asid f).wl? wl = u.wl? wl := by
    intro u asid f
    unfold State.updCtx
    split <;> rfl
  have hlaunch : ∀ f : Launch → Launch, (s.updLaunch l.key f).wl? wl = s.wl? wl := by
    intro f
    unfold State.updLaunch
    split <;> rfl
  rw [finishLaunch_eq, wl?_after, hctx]
  exact (wl?_closeOf_ne _ h frozen).trans (hlaunch _)

theorem checkLaunch_cases (s : State) (key : Nat) : s.checkLaunch key = s ∨ ∃ l, s.wlIdle l.h.wlid = true ∧
    (s.checkLaunch key = (s.finishLaunch l .completed 0 false).wakeWaiting ∨
      s.checkLaunch key = (s.updLaunch key fun l => { l with st := .triggered }).wakeWaiting) := by
  unfold State.checkLaunch
  split
  · exact .inl rfl
  · next l hl =>
    by_cases hc : (l.away.isNone && (l.st == .running || l.st == .triggered) && l.pushed && !l.h.persist && s.wlIdle l.h.wlid) = true
    · have hidle : s.wlIdle l.h.wlid = true := (Bool.and_eq_true _ _ ▸ hc).2
      rw [if_pos hc]
      dsimp only
      split
      · exact .inr ⟨l, hidle, .inl rfl⟩
      · split
        · exact .inr ⟨l, hidle, .inr rfl⟩
        · exact .inl rfl
    · exact .inl (if_neg hc)

theorem checkWl_posting (s : State) (wl : Nat) : Posting s (s.checkWl wl) := by
  unfold State.checkWl
  split
  · obtain h | ⟨l, -, h | h⟩ := checkLaunch_cases s (WorkList.launch ‹_›) <;> rw [h]
    · exact .refl s
    · exact (finishLaunch_posting ..).trans (wakeWaiting_step _).posting
    · exact (posting_updLaunch ..).trans (wakeWaiting_step _).posting
  · exact .refl s

/-- A worklist with an item on its way to a tile is not idle. -/
theorem wlIdle_of_carried {s : State} {wl : Nat} {p : Pending} (hp : p ∈ s.net.pend) (hc : carries wl p.ev = true) : s.wlIdle wl = false := by
  have hlen : 0 < (s.net.pend.filter fun p => carries wl p.ev).length := List.length_pos_of_mem (List.mem_filter.2 ⟨hp, hc⟩)
  have hbusy : (s.wlBusy wl == 0) = false := by
    unfold State.wlBusy
    exact beq_false_of_ne (by omega)
  unfold State.wlIdle
  rw [hbusy, Bool.and_false]

theorem wl?_checkWl {s : State} {wl : Nat} (hbusy : s.wlIdle wl = false) : (s.checkWl wl).wl? wl = s.wl? wl := by
  unfold State.checkWl
  split
  · obtain h | ⟨l, hl, h | h⟩ := checkLaunch_cases s (WorkList.launch ‹_›) <;> rw [h]
    · rw [wl?_wakeWaiting]
      exact wl?_finishLaunch_ne s (fun hw => by rw [hw, hl] at hbusy; cases hbusy) ..
    · rw [wl?_wakeWaiting]
      unfold State.updLaunch
      split <;> rfl
  · rfl

end Sys2Proof.Machine
end


section
/-! PROOF. Pops and prefetches (R168, R170, R179, R386). -/

namespace Sys2Proof.Machine

/-! ### POP: the item -/

/-- The earlier of an item found so far and one more. -/
def earlier (acc : Option QItem) (f : FrontItem) : Option QItem :=
  match acc with | none => some f.q | some p => if f.q.pos < p.pos then some f.q else some p

theorem foldl_earlier {q : QItem} (l : List FrontItem) (acc : Option QItem) (hfirst : ∀ f ∈ l, f.q ≠ q → q.pos < f.q.pos)
    (hacc : ∀ p, acc = some p → p ≠ q → q.pos < p.pos) (hmem : acc = some q ∨ ∃ f ∈ l, f.q = q) : l.foldl earlier acc = some q := by
  induction l generalizing acc with
  | nil =>
    obtain h | ⟨f, hf, -⟩ := hmem
    · exact h
    · exact absurd hf List.not_mem_nil
  | cons a l ih =>
    have ha := hfirst a List.mem_cons_self
    refine ih _ (fun f hf => hfirst f (List.mem_cons_of_mem _ hf)) ?_ ?_
    · intro p hp hne
      cases acc with
      | none =>
        obtain rfl := Option.some.inj hp
        exact ha hne
      | some b =>
        unfold earlier at hp
        dsimp only at hp
        split at hp
        · obtain rfl := Option.some.inj hp
          exact ha hne
        · exact hacc p hp hne
    · by_cases haq : a.q = q
      · refine .inl ?_
        cases acc with
        | none => exact congrArg some haq
        | some b =>
          unfold earlier
          dsimp only
          by_cases hb : b = q
          · rw [hb, haq, ite_self]
          · rw [haq, if_pos (hacc b rfl hb)]
      · obtain h | ⟨f, hf, hfq⟩ := hmem
        · refine .inl ?_
          rw [h]
          exact if_neg (Nat.lt_asymm (ha haq))
        · obtain rfl | hf := List.mem_cons.1 hf
          · exact absurd hfq haq
          · exact .inr ⟨f, hf, hfq⟩

theorem best_eq {w : WorkList} {lamp : Nat} {q : QItem} (hq : ⟨q, none⟩ ∈ w.part lamp)
    (hfirst : ∀ f ∈ w.part lamp, f.pull = none → f.q ≠ q → q.pos < f.q.pos) : w.best lamp = some q := by
  refine foldl_earlier _ none (fun f hf hne => ?_) (fun p hp => nomatch hp) (.inr ⟨⟨q, none⟩, List.mem_filter.2 ⟨hq, rfl⟩, rfl⟩)
  obtain ⟨hf, hpull⟩ := List.mem_filter.1 hf
  exact hfirst f hf (Option.isNone_iff_eq_none.1 hpull) hne

theorem best_none {w : WorkList} {lamp : Nat} (h : ∀ f ∈ w.part lamp, f.pull ≠ none) : w.best lamp = none := by
  unfold WorkList.best
  rw [List.filter_eq_nil_iff.2 fun f hf => by simpa using h f hf]
  rfl

section
variable {s : State} {wl lamp : Nat} {w : WorkList} {o : PopMsg} (hw : s.wl? wl = some w) (hopen : w.closed = false) (ho : o.wl = wl)
include hw hopen ho

theorem pop_best {q : QItem} (hserves : s.serves w = true) (hbest : w.best lamp = some q) : exec (.pop lamp o) s = .next
    ((((((s.updWl wl fun w => (w.countPop s.own q.pos s.now).cutFront lamp q.pos).lowIf wl lamp).watchWl wl).lantern (o.tile / 512)
      (hopDie (o.tile % 512) (lamp % 4)) wl (.popReply (o.hop s.now) (.item q))).checkWl wl)) := by
  subst ho
  rw [exec_pop, execPop]
  dsimp only
  rw [show (o.hop s.now).wl = o.wl from rfl, hw]
  dsimp only
  rw [hopen, if_neg (by decide), if_pos hserves, hbest]
  rfl

theorem pop_none (hnone : s.serves w = false ∨ ∀ f ∈ w.part lamp, f.pull ≠ none) : exec (.pop lamp o) s =
    if o.visited + 1 < w.lamps.length then .next (s.lantern (w.nextLamp lamp / 4) (hopDies (lamp % 4) (w.nextLamp lamp % 4)) wl
      (.pop (w.nextLamp lamp) { o.hop s.now with visited := o.visited + 1 }))
    else .next ((s.sendLow wl lamp).lantern (o.tile / 512) (hopDie (o.tile % 512) (lamp % 4)) wl (.popReply (o.hop s.now) .empty)) := by
  subst ho
  have hbest : (if s.serves w = true then w.best lamp else none) = none := by
    obtain h | h := hnone
    · rw [h]
      rfl
    · rw [best_none h, ite_self]
  rw [exec_pop, execPop]
  dsimp only
  rw [show (o.hop s.now).wl = o.wl from rfl, hw]
  dsimp only
  rw [hopen, if_neg (by decide), hbest]
  rfl

theorem pop_takes {q : QItem} (hserves : s.serves w = true) (hq : ⟨q, none⟩ ∈ w.part lamp)
    (hfirst : ∀ f ∈ w.part lamp, f.pull = none → f.q ≠ q → q.pos < f.q.pos) : ∃ t, exec (.pop lamp o) s = .next t ∧
      Sends s t wl w (o.tile / 512) (hopDie (o.tile % 512) (lamp % 4)) (.popReply (o.hop s.now) (.item q)) ∧
      (o.tile / 512 = s.pkg.podIndex.toNat → Quiet s t ∧ ∃ n, t.wl? wl =
        some { (w.countPop s.pkg.podIndex.toNat q.pos s.now).cutFront lamp q.pos with sent := n }) := by
  have hx := (((Tracks.start hw).updWl fun w => (w.countPop s.own q.pos s.now).cutFront lamp q.pos).lowIf lamp).watchWl
  have hasid : ((w.countPop s.own q.pos s.now).cutFront lamp q.pos).asid = w.asid := by
    unfold WorkList.countPop
    dsimp only
    split <;> rfl
  have hlaunch : ((w.countPop s.own q.pos s.now).cutFront lamp q.pos).launch = w.launch := by
    unfold WorkList.countPop
    dsimp only
    split <;> rfl
  have hsend := hx.sends hasid hlaunch (o.tile / 512) (hopDie (o.tile % 512) (lamp % 4)) (m := .popReply (o.hop s.now) (.item q)) rfl
  obtain ⟨n, hn⟩ := hx.lantern (o.tile / 512) (hopDie (o.tile % 512) (lamp % 4)) (.popReply (o.hop s.now) (.item q))
  have hcheck := checkWl_posting ((((s.updWl wl fun w => (w.countPop s.own q.pos s.now).cutFront lamp q.pos).lowIf wl lamp).watchWl wl).lantern (o.tile / 512)
    (hopDie (o.tile % 512) (lamp % 4)) wl (.popReply (o.hop s.now) (.item q))) wl
  refine ⟨_, pop_best hw hopen ho hserves (best_eq hq hfirst), hsend.kept hcheck, fun hown => ⟨(hn.step.posting.trans hcheck).quiet, n, ?_⟩⟩
  obtain ⟨e, he, hmem⟩ := hsend.1 hown
  obtain rfl := Option.some.inj he
  have hcarries : carries wl (.popReply (o.hop s.now) (.item q)) = true := by
    show (o.wl == wl) = true
    rw [ho]
    exact beq_self_eq_true wl
  rw [wl?_checkWl (wlIdle_of_carried hmem hcarries)]
  exact hn.list

end

/-! ### POP: its count (R170) -/

section
variable (w : WorkList) (lamp pos now own : Nat) (k : Map Nat)

theorem popped_part : ({ (w.countPop own pos now).cutFront lamp pos with sent := k } : WorkList).part lamp =
    (w.part lamp).filter fun f => f.q.pos != pos := by
  have hparts : (w.countPop own pos now).part lamp = w.part lamp := by
    unfold WorkList.countPop
    dsimp only
    split <;> rfl
  exact (Map.getD_set_same ..).trans (by rw [hparts])

theorem countPop_home (h : w.home = own) :
    let ahead := ((w.front.filter fun f => f.pull.isNone).filter fun f => decide (f.q.pos < pos)).length
    let others := w.live.length - (w.front.filter fun f => f.pull.isNone).length
    w.countPop own pos now = { w with
      pops := w.pops + 1, lastPop := now, worst := Nat.max w.worst (ahead + others), xpkg := w.xpkg || decide (others ≠ 0), places := w.places + 1 } := by
  dsimp only
  unfold WorkList.countPop
  exact if_pos h

theorem countPop_away (h : w.home ≠ own) : w.countPop own pos now = { w with
    pops := w.pops + 1
    lastPop := now
    before := w.before ++ [((w.front.filter fun f => f.pull.isNone).filter fun f => decide (f.q.pos < pos)).length]
    gave := w.gave + 1 } := by
  unfold WorkList.countPop
  exact if_neg h

end

/-! ### POP: no item -/

theorem lantern_bare_net (s : State) (pkg delay wl : Nat) {m : WlMsg} (hm : hasItem m = false) :
    s.lantern pkg delay wl m = { s with net := (s.lantern pkg delay wl m).net } := by
  unfold State.lantern
  split
  · split <;> rfl
  · split
    · rfl
    · dsimp only
      rw [hm, if_neg (by decide)]
      unfold State.postWl State.postMsg
      split <;> rfl

theorem lantern_bare_frame (s : State) (pkg delay wl : Nat) {m : WlMsg} (hm : hasItem m = false) :
    Quiet s (s.lantern pkg delay wl m) ∧ (s.lantern pkg delay wl m).tiles = s.tiles := by
  rw [lantern_bare_net s pkg delay wl hm]
  exact ⟨⟨rfl, rfl, rfl⟩, rfl⟩

section
variable {s : State} {wl lamp : Nat} {w : WorkList} {o : PopMsg} (hw : s.wl? wl = some w) (hopen : w.closed = false) (ho : o.wl = wl)
include hw hopen ho

section
variable (hnone : s.serves w = false ∨ ∀ f ∈ w.part lamp, f.pull ≠ none)
include hnone

theorem pop_passes (hmore : o.visited + 1 < w.lamps.length) : ∃ t, exec (.pop lamp o) s = .next t ∧ t = { s with net := t.net } ∧
    Sends s t wl w (w.nextLamp lamp / 4) (hopDies (lamp % 4) (w.nextLamp lamp % 4)) (.pop (w.nextLamp lamp) { o.hop s.now with visited := o.visited + 1 }) :=
  ⟨_, (pop_none hw hopen ho hnone).trans (if_pos hmore), lantern_bare_net _ _ _ _ rfl, (Tracks.start hw).sends rfl rfl _ _ rfl⟩

theorem pop_ends (hlast : w.lamps.length ≤ o.visited + 1) : ∃ t, exec (.pop lamp o) s = .next t ∧ Quiet s t ∧
    Sends s t wl w (o.tile / 512) (hopDie (o.tile % 512) (lamp % 4)) (.popReply (o.hop s.now) .empty) ∧
    Sends s t wl w w.home (hopDies (lamp % 4) (w.keeperLamp % 4)) (.low lamp) := by
  have hlow : s.sendLow wl lamp = s.lantern w.home (hopDies (lamp % 4) (w.keeperLamp % 4)) wl (.low lamp) := by
    unfold State.sendLow
    rw [hw]
    rfl
  have hgo := (pop_none hw hopen ho hnone).trans (if_neg (Nat.not_lt.2 hlast))
  rw [hlow] at hgo
  have hx := (Tracks.start hw).lantern_bare w.home (hopDies (lamp % 4) (w.keeperLamp % 4)) (j := wl) (m := .low lamp) rfl
  exact ⟨_, hgo, (hx.lantern_bare _ _ rfl).quiet, hx.sends rfl rfl _ _ rfl, ((Tracks.start hw).sends rfl rfl _ _ rfl).mono (wlStep_lantern ..)⟩

end

/-- A pop that found the worklist empty blocks its task. -/
theorem popReply_blocks {tid : W64} {ctx : W32} {opId : Nat} (hby : o.by_ = .task tid s.curId ctx opId) (hctx : s.cur.mc.ctxser = ctx)
    (htid : s.cur.u.tid = tid) (hready : s.cur.status = .ready) (hempty : s.serves w = false ∨ s.poppable w = 0) :
    ∃ t, exec (.popReply o .empty) s = .next t ∧ t.cur = { s.cur with status := .blocked (.worklist wl) } ∧ t.net = s.net ∧
      ∃ v, t.wl? wl = some v ∧ v = { w with waiters := w.waiters ++ [o.hop s.now] } := by
  subst ho
  have hx := (Tracks.start hw).updWl fun w => { w with waiters := w.waiters ++ [o.hop s.now] }
  have hcurId : (s.updWl o.wl fun w => { w with waiters := w.waiters ++ [o.hop s.now] }).curId = s.curId := by rw [hx.step.rest]
  have hcur := hx.quiet.1
  have hnet := State.updWl_net s o.wl fun w => { w with waiters := w.waiters ++ [o.hop s.now] }
  have hlist := hx.list
  have hself : s.slot s.curId = s.cur := if_pos rfl
  have hwaits : s.popWaits (o.hop s.now) s.curId = (s.updWl o.wl fun w => { w with waiters := w.waiters ++ [o.hop s.now] }).updSlot s.curId
      fun x => if x.status == .ready then { x with status := .blocked (.worklist o.wl) } else x := by
    unfold State.popWaits
    rw [show (o.hop s.now).wl = o.wl from rfl, hw]
    dsimp only
    rw [hopen, if_neg (by decide)]
    exact if_neg (by obtain h | h := hempty <;> simp [h])
  have hgo : exec (.popReply o .empty) s = .next (s.popWaits (o.hop s.now) s.curId) := by
    rw [exec_popReply, execPopReply]
    dsimp only
    rw [show (o.hop s.now).by_ = .task tid s.curId ctx opId from hby]
    dsimp only
    rw [hself, if_pos (by simp [hctx, htid, hready])]
    exact fun _ h => nomatch h
  rw [hwaits] at hgo
  generalize s.updWl o.wl (fun w => { w with waiters := w.waiters ++ [o.hop s.now] }) = u at hgo hcurId hcur hnet hlist
  rw [← hcurId, State.updSlot_focus] at hgo
  refine ⟨_, hgo, ?_, hnet, _, hlist, rfl⟩
  rw [State.updCur_cur, hcur, hready]
  rfl

end

/-! ### PREFETCH (R179, R386) -/

theorem prefetch_asks {s : State} {wl tile : Nat} {w : WorkList} (hw : s.wl? wl = some w) (hopen : w.closed = false)
    (hasking : (s.tile tile).asking.contains wl = false) (hroom : ((s.tile tile).prefetched.filter fun p => p.1 == wl).length < 4)
    (htile : (s.wlTiles w).contains tile = true) (hpresent : s.present wl ≠ 0) (hserves : s.serves w = true)
    (hlaunch : ∀ l, s.launch? w.launch = some l → l.h.piste = false ∧ (l.h.cosched = true ∨ l.h.persist = true → s.mayPrefetch tile wl w = true)) :
    ∃ t, exec (.prefetch tile wl) s = .next t ∧ Quiet s t ∧ t.tile tile = { s.tile tile with asking := (s.tile tile).asking ++ [wl] } ∧
      Sends s t wl w (w.lampOf (s.pkg.podIndex.toNat * 512 + tile) / 4)
        (hopDie ((s.pkg.podIndex.toNat * 512 + tile) % 512) (w.lampOf (s.pkg.podIndex.toNat * 512 + tile) % 4))
        (.pop (w.lampOf (s.pkg.podIndex.toNat * 512 + tile)) ⟨wl, 0, s.pkg.podIndex.toNat * 512 + tile, .tile, 0, s.now⟩) := by
  obtain ⟨l, hl⟩ : ∃ l, s.launch? w.launch = some l := by
    unfold State.serves at hserves
    cases h : s.launch? w.launch with
    | some l => exact ⟨l, rfl⟩
    | none =>
      rw [h] at hserves
      cases hserves
  obtain ⟨hpiste, hbinds⟩ := hlaunch l hl
  have hfree : wl ∉ (s.tile tile).asking := by simpa using hasking
  have hhere : tile ∈ s.wlTiles w := by simpa using htile
  have hmay : s.mayPrefetch tile wl w = true := by
    by_cases hb : l.h.cosched = true ∨ l.h.persist = true
    · exact hbinds hb
    · rw [not_or, Bool.not_eq_true, Bool.not_eq_true] at hb
      unfold State.mayPrefetch
      simp [hfree, hroom, hl, hb]
  have hgo : exec (.prefetch tile wl) s = .next ((s.updTile tile fun t => { t with asking := t.asking ++ [wl] }).sendPop w
      ⟨wl, 0, s.overPod tile, .tile, 0, 0⟩) := by
    rw [exec_prefetch, execPrefetch, hw]
    exact if_neg (by simp [hopen, hmay, hhere, hpresent, hserves, hl, hpiste])
  have hbase : (s.updTile tile fun t => { t with asking := t.asking ++ [wl] }).wl? wl = some w := hw
  obtain ⟨hquiet, htiles⟩ := lantern_bare_frame (s.updTile tile fun t => { t with asking := t.asking ++ [wl] })
    (w.lampOf (s.pkg.podIndex.toNat * 512 + tile) / 4) (hopDie ((s.pkg.podIndex.toNat * 512 + tile) % 512) (w.lampOf (s.pkg.podIndex.toNat * 512 + tile) % 4))
    wl (m := .pop (w.lampOf (s.pkg.podIndex.toNat * 512 + tile)) ⟨wl, 0, s.pkg.podIndex.toNat * 512 + tile, .tile, 0, s.now⟩) rfl
  exact ⟨_, hgo, hquiet, (congrArg (Map.getD _ · tile) htiles).trans (Map.getD_set_same ..), (Tracks.start hbase).sends rfl rfl _ _ rfl⟩

end Sys2Proof.Machine
end


section
/-! PROOF. The settlement of the worklist messages (Table 7.3, R157 to R170, R179). -/

namespace Sys2Proof.Machine

/-- Settles O39: each message's step is followed from the unit that has it to the messages that it sends. -/
theorem worklistMessages : Obligations.WorklistMessages := by
  unfold Obligations.WorklistMessages
  intro s wl lamp tile w m o hw hopen hm ho hlamp
  refine ⟨?_, ?_, ?_, ?_, ?_, ?_, ?_, ?_, ?_, ?_, ?_, ?_, ?_, ?_, ?_, ?_, ?_, ?_, ?_, ?_, ?_, ?_, ?_, ?_, ?_, ?_, ?_, ?_⟩
  · exact prefetch_asks hw hopen
  · exact fpush_takes hw hopen hm
  · exact fpush_forwards hw hopen hm
  · exact fpush_places hw hopen hm
  · rintro hstage rfl hahead hv
    exact ⟨rpush_room hw hopen hm hstage hahead hv, fun slot r s' hroom hrun hwrite hwls => rpush_run hw hopen hm hstage hahead hv hroom hrun hwrite hwls,
      rpush_full hw hopen hm hstage hahead hv⟩
  · rintro hstage rfl h
    exact rpush_renewed hw hopen hm hstage h
  · rintro hstage rfl hroom
    exact rpush_demotes hw hopen hm hstage hroom
  · exact fwd_waits hw hopen hm
  · exact fun hstage hop => fwd_returns hw hopen hm hop hstage
  · exact fun hstage hop => fwd_inserts hw hopen hm hop hlamp hstage
  · exact fun x hstage hsize hop hahead hplaces hlends hlast => fwd_lowers hw hopen hm hop hstage hsize hahead hplaces hlends hlast
  · exact fun hstage hop => ⟨fwd_restKept hw hopen hm hop hstage, fwd_restLowers hw hopen hm hop hstage, fwd_restDemotes hw hopen hm hop hstage⟩
  · exact fun hstage hop => fwd_answers hw hopen hm hop hstage
  · exact fun pos => head_set hw tile pos
  · exact fun hpull hop => low_pulls hw lamp hopen hpull hop
  · exact low_waits hw lamp
  · exact fun kn n v _ => pull_finds_none hw hopen tile kn n v
  · exact fun kn n v q hn hheap hruns hsize => pull_takes_one hw hopen tile kn n v hn hheap hruns hsize
  · exact fun kn n v q r hn => pull_waits hw hopen tile kn n v hn
  · exact fun q v => ritem_waits hw hopen q v
  · exact fun p cap n hhome hp => pack_waits hw hhome hp tile cap n
  · exact fun p cap n hhome hop hp hleft hsent => pack_ends hw hhome hp tile cap n hop hleft hsent rfl
  · exact fun kd ends late => demote_moves hw hopen
  · exact fun kd ends n r => demote_answered hw kd ends n
  · exact fun kc v ends => ⟨cut_lamp hw kc v ends, cut_tile hw tile kc v ends⟩
  · intro q hserves hq hfirst
    obtain ⟨t, hgo, hsend, hhere⟩ := pop_takes hw hopen ho hserves hq hfirst
    refine ⟨t, hgo, hsend, fun hown => ?_⟩
    obtain ⟨hquiet, n, hn⟩ := hhere hown
    refine ⟨hquiet, _, hn, popped_part .., ?_⟩
    by_cases hhome : w.home = s.pkg.podIndex.toNat
    · rw [countPop_home w q.pos s.now s.pkg.podIndex.toNat hhome]
      exact ⟨rfl, rfl, fun _ => ⟨rfl, rfl, rfl⟩, fun hn => absurd hhome hn⟩
    · rw [countPop_away w q.pos s.now s.pkg.podIndex.toNat hhome]
      exact ⟨rfl, rfl, fun h => absurd h hhome, fun _ => ⟨rfl, rfl⟩⟩
  · exact fun hnone => ⟨pop_passes hw hopen ho hnone, pop_ends hw hopen ho hnone⟩
  · rintro tid slot ctx opId rfl hby
    exact popReply_blocks hw hopen ho hby

end Sys2Proof.Machine
end


section
/-! PROOF. The instructions of worklists send pushes and pops (R124, R156, R168, R357 to R359). -/

namespace Sys2Proof.Machine

/-! ### Messages that an instruction sends -/

/-- A message has left for another package. -/
def Crosses (s : State) (id : Nat) (w : WorkList) (pkg : Nat) (m : WlMsg) (t : State) : Prop :=
  t.mem = s.mem ∧ t.attrs = s.attrs ∧ t.homes = s.homes ∧ t.net.pend = s.net.pend ∧
    ∀ port, s.podPort 512 pkg = some port → ∃ q, t.net.outbox = s.net.outbox ++ [(pkg, .podRequest port q)] ∧ q.asid = w.asid ∧ q.kind = 6 ∧
      q.msg = some (.lantern id (BitVec.ofNat 32 w.launch) m)

/-- A push has left its tile: for a lamp where it precedes the tile's copy of K, else for the tile's reserve. -/
def PushLeaves (s : State) (w : WorkList) (m : PushMsg) (t : State) : Prop :=
  let own := s.pkg.podIndex.toNat
  let tile := own * 512 + s.myTile
  let here := tile % 512
  let kv := w.tileK.getD (none, 0) here
  let n := { m with v := kv.2 }
  let lamp := w.lampOf tile
  let first : Prop := ∀ c, kv.1 = some c → m.q.pos < c
  (first → lamp / 4 = own → Confined s t ∧ Posts s t (hopDie here (lamp % 4)) (.fpush lamp n)) ∧
  (first → lamp / 4 ≠ own → Crosses s m.wl w (lamp / 4) (.fpush lamp n) t) ∧
  (¬first → Confined s t ∧ Posts s t 5 (.rpush n))

/-- Nothing is in flight of the slot's and nothing to be awaited at a scope. -/
def AllOver (s : State) (sc : Scope) : Prop := s.cur.ops = [] ∧ Released s sc

theorem awaitAll_over {s : State} {sc : Scope} (h : AllOver s sc) (act : State → Act) : awaitAll s.charge sc act = act s.charge := by
  unfold awaitAll
  rw [State.charge_ops, h.1]
  exact (if_neg (by decide)).trans (awaitRelease_released act h.2)

theorem Confined.now_eq {s u : State} (h : Confined s u) : u.now = s.now := congrArg (fun p : Pkg => p.cycle.toNat) h.pkg

theorem Confined.own_eq {s u : State} (h : Confined s u) : u.own = s.pkg.podIndex.toNat := congrArg (fun p : Pkg => p.podIndex.toNat) h.pkg

/-- An event put in flight by what leaves the network as it is. -/
theorem Confined.posts {s u t : State} (h : Confined s u) (hn : u.net.pend = s.net.pend) {delay : Nat} {e : Event} (ht : OnlySlot (u.after delay e) t) :
    Confined s t ∧ Posts s t delay e := by
  refine ⟨(h.after delay e).onlySlot ht, ?_⟩
  unfold Posts
  rw [ht.net, ← hn, ← h.now_eq]
  rfl

theorem Confined.podPort_eq {s u : State} (h : Confined s u) (unit pkg : Nat) : u.podPort unit pkg = s.podPort unit pkg := by
  rw [h.rest]
  rfl

theorem Confined.memory {s u : State} (h : Confined s u) : u.mem = s.mem ∧ u.attrs = s.attrs ∧ u.homes = s.homes := by
  rw [h.rest]
  exact ⟨rfl, rfl, rfl⟩

theorem WlStep.memory {s u : State} (h : WlStep s u) : u.mem = s.mem ∧ u.attrs = s.attrs ∧ u.homes = s.homes := by
  rw [h.rest]
  exact ⟨rfl, rfl, rfl⟩

theorem OnlySlot.memory {s u : State} (h : OnlySlot s u) : u.mem = s.mem ∧ u.attrs = s.attrs ∧ u.homes = s.homes := by
  rw [h.rest]
  exact ⟨rfl, rfl, rfl⟩

section
variable {s u t : State} {wl : Nat} {w : WorkList} (hu : Confined s u) (hn : u.net.pend = s.net.pend) (hw : u.wl? wl = some w)
include hu hn

theorem lantern_here {pkg : Nat} (hp : pkg = s.pkg.podIndex.toNat) (delay : Nat) {m : WlMsg} {e : Event} (he : eventOf wl m = some e)
    (ht : OnlySlot (u.lantern pkg delay wl m) t) : Confined s t ∧ Posts s t delay e := by
  have hsend : u.lantern pkg delay wl m = u.after delay e := by
    unfold State.lantern
    rw [if_pos (hp.trans hu.own_eq.symm), he]
  rw [hsend] at ht
  exact hu.posts hn ht

include hw

theorem lantern_away (ho : u.net.outbox = s.net.outbox) {pkg : Nat} (hp : pkg ≠ s.pkg.podIndex.toNat) (delay : Nat) (m : WlMsg) (ht : OnlySlot (u.lantern pkg delay wl m) t) :
    Crosses s wl w pkg m t := by
  have hstep := wlStep_lantern u pkg delay wl m
  obtain ⟨hmem, hattrs, hhomes⟩ := hu.memory
  obtain ⟨hmem', hattrs', hhomes'⟩ := hstep.memory
  obtain ⟨hmem'', hattrs'', hhomes''⟩ := ht.memory
  obtain ⟨y, hy, hsend⟩ : ∃ y, (WlStep u y ∧ y.net = u.net) ∧ u.lantern pkg delay wl m = y.postWl pkg wl w.asid (BitVec.ofNat 32 w.launch) m := by
    unfold State.lantern
    rw [if_neg (fun h => hp (h.trans hu.own_eq)), hw]
    dsimp only
    split
    · exact ⟨_, ⟨wlStep_updWl .., State.updWl_net ..⟩, rfl⟩
    · exact ⟨_, ⟨.refl u, rfl⟩, rfl⟩
  refine ⟨hmem''.trans (hmem'.trans hmem), hattrs''.trans (hattrs'.trans hattrs), hhomes''.trans (hhomes'.trans hhomes), ?_, fun port hport => ?_⟩
  · rw [ht.net, hsend, ← hn, ← congrArg Net.pend hy.2]
    unfold State.postWl State.postMsg
    split <;> rfl
  · obtain ⟨q, hq, hrest⟩ := postWl_outbox (wl := wl) ((hy.1.podPort_eq 512 pkg).trans ((hu.podPort_eq 512 pkg).trans hport)) w.asid (BitVec.ofNat 32 w.launch) m
    refine ⟨q, ?_, hrest⟩
    rw [ht.net, hsend, hq, hy.2, ho]

end

/-- A new push of the slot in focus leaves. -/
theorem sendPush_goes {s u t : State} {w : WorkList} {m : PushMsg} (hu : Confined s u) (hn : u.net = s.net) (hw : u.wl? m.wl = some w)
    (htile : m.tile = s.pkg.podIndex.toNat * 512 + s.myTile) (hstage : m.stage = .new) (hsince : m.since = s.now) (ht : OnlySlot (u.sendPush m) t) :
    PushLeaves s w m t := by
  obtain ⟨wl, q, v, tile, by_, stage, alt, path, since⟩ := m
  dsimp only at htile hstage hsince hw
  subst htile hstage hsince
  have hsend : ∀ kv, w.tileK.getD (none, 0) ((s.pkg.podIndex.toNat * 512 + s.myTile) % 512) = kv → u.sendPush ⟨wl, q, v, s.pkg.podIndex.toNat * 512 + s.myTile, by_, .new, alt, path, s.now⟩ =
      if ahead q.pos kv.1 then u.lantern (w.lampOf (s.pkg.podIndex.toNat * 512 + s.myTile) / 4)
        (hopDie ((s.pkg.podIndex.toNat * 512 + s.myTile) % 512) (w.lampOf (s.pkg.podIndex.toNat * 512 + s.myTile) % 4)) wl
        (.fpush (w.lampOf (s.pkg.podIndex.toNat * 512 + s.myTile)) ⟨wl, q, kv.2, s.pkg.podIndex.toNat * 512 + s.myTile, by_, .new, alt, path, s.now⟩)
      else u.after 5 (.rpush ⟨wl, q, kv.2, s.pkg.podIndex.toNat * 512 + s.myTile, by_, .new, alt, path, s.now⟩) := by
    rintro kv rfl
    unfold State.sendPush
    rw [hw]
    dsimp only
    rw [hu.now_eq, hopTile, if_pos rfl]
    rfl
  rw [hsend _ rfl] at ht
  refine ⟨fun hfirst hlamp => ?_, fun hfirst hlamp => ?_, fun hfirst => ?_⟩
  · rw [if_pos (ahead_iff.2 hfirst)] at ht
    exact lantern_here hu (congrArg Net.pend hn) hlamp _ rfl ht
  · rw [if_pos (ahead_iff.2 hfirst)] at ht
    exact lantern_away hu (congrArg Net.pend hn) hw (congrArg Net.outbox hn) hlamp _ _ ht
  · rw [if_neg (mt ahead_iff.1 hfirst)] at ht
    exact hu.posts (congrArg Net.pend hn) ht

theorem wlStep_sendPush (s : State) (m : PushMsg) : WlStep s (s.sendPush m) := by
  unfold State.sendPush
  split
  · exact .refl s
  · dsimp only
    split
    · exact wlStep_lantern ..
    · exact wlStep_after ..

end Sys2Proof.Machine
end


section
/-! PROOF. WLPSH and WLPOP (R124, R155, R156, R168, R357, R358). -/

namespace Sys2Proof.Machine

/-! ### What an issue leaves of worklists and launches -/

@[simp] theorem charge_wl? (s : State) (wl : Nat) : s.charge.wl? wl = s.wl? wl := congrArg (fun p : Pkg => p.wls.get? wl) s.charge_pkg

@[simp] theorem charge_launch? (s : State) (key : Nat) : s.charge.launch? key = s.launch? key := congrArg (fun p : Pkg => p.launches.get? key) s.charge_pkg

@[simp] theorem charge_wlScope (s : State) (wl : Nat) : s.charge.wlScope wl = s.wlScope wl := by
  unfold State.wlScope
  rw [charge_wl?]

@[simp] theorem charge_rangesOut (s : State) (slot : Nat) : s.charge.rangesOut slot = s.rangesOut slot := by
  unfold State.rangesOut
  rw [State.charge_pkg]

@[simp] theorem charge_overPod (s : State) (tile : Nat) : s.charge.overPod tile = s.overPod tile := by
  unfold State.overPod State.own
  rw [State.charge_pkg]

@[simp] theorem charge_slotIdent (s : State) (slot : Nat) : s.charge.slotIdent slot = s.slotIdent slot := by
  unfold State.slotIdent
  rw [State.charge_pkg]

@[simp] theorem charge_logical (s : State) (slot : Nat) (asid : BitVec 14) : s.charge.logical slot asid = s.logical slot asid := by
  unfold State.logical State.window?
  rw [State.tile_charge]

@[simp] theorem charge_pushIdent (s : State) : s.charge.pushIdent = s.pushIdent := by
  unfold State.pushIdent
  have hlkey : s.charge.cur.lkey = s.cur.lkey := by rw [State.charge_cur]
  simp [hlkey]

theorem wlOf_eq (v : W64) : wlOf v = v.toNat % 1024 := by
  unfold wlOf
  rw [BitVec.extractLsb'_toNat, Nat.shiftRight_zero]

/-- The worklist is one of the slot's address space. -/
def Listed (s : State) (wl : Nat) (w : WorkList) : Prop := s.wl? wl = some w ∧ w.asid = s.cur.sc.asid

theorem Listed.myWl {s : State} {wl : Nat} {w : WorkList} (h : Listed s wl w) : s.charge.myWl wl s.charge.cur.sc.asid = some w := by
  unfold State.myWl
  rw [charge_wl?, h.1, State.charge_sc]
  exact if_pos h.2

theorem myWl_none {s : State} {wl : Nat} (h : ∀ w, s.wl? wl = some w → w.asid ≠ s.cur.sc.asid) : s.charge.myWl wl s.charge.cur.sc.asid = none := by
  unfold State.myWl
  rw [charge_wl?, State.charge_sc]
  cases hw : s.wl? wl with
  | none => rfl
  | some w => exact if_neg (h w hw)

/-- The slot holds issue for an answer to what it has sent. -/
theorem waiting_of_conclude {i : Instr} {s u : State} {k : Nat} (he : exec i s = .next (s.conclude s.charge (encode i) (.hold u (.answer k))))
    (hu : u.cur = s.charge.cur) : ∃ t, exec i s = .next t ∧ OnlySlot u t ∧ Waiting i s.cur t.cur (.answer k) := by
  refine ⟨_, he, ?_⟩
  dsimp only [State.conclude]
  refine ⟨.updCur .., ?_⟩
  unfold Waiting
  rw [State.updCur_cur, hu, State.charge_cur]

/-! ### WLPSH -/

/-- The push that a WLPSH of the slot in focus makes. -/
def State.pushOf (s : State) (wl : Nat) (item : Item) : PushMsg :=
  ⟨wl, ⟨item, s.pushIdent⟩, 0, s.pkg.podIndex.toNat * 512 + s.myTile, .wlpsh s.curId s.cur.mc.ctxser, .new, none, 0, s.now⟩

/-- What a WLPSH does once nothing is to be awaited. -/
def State.pushAct (s : State) (wl : Nat) (item : Item) (hi : W64) : Act :=
  match s.charge.myWl wl s.charge.cur.sc.asid with
  | none => .trap causeWl 1 hi
  | some w =>
    match (s.launch? w.launch).bind fun l => itemFault item l.h with
    | some c => .trap causeWl c hi
    | none =>
      if s.rangesOut s.curId then .hold s.charge (.again 0)
      else .hold (if w.closed then s.charge.after (2 * hopDie s.myTile (w.lampOf (s.pkg.podIndex.toNat * 512 + s.myTile) % 4)) (.pushAnswer (s.pushOf wl item) 2)
        else s.charge.sendPush (s.pushOf wl item)) (.answer 0)

section
variable {s : State} {d a b : RegNo} {wl : Nat} (hwl : (s.cur.readG a).toNat % 1024 = wl) (hover : AllOver s (s.wlScope wl))
include hwl hover

theorem wlpsh_eq (hc : CanIssue (.wlpsh d a b) s) : exec (.wlpsh d a b) s = .next (s.conclude s.charge (encode (.wlpsh d a b))
    (s.pushAct wl (itemOf (s.cur.readG b) (s.cur.readG (b + 1))) (s.cur.readG (b + 1)))) := by
  refine (exec_wlpsh ..).trans ((issue_go _ hc).trans ?_)
  have hmsg : (⟨wl, ⟨itemOf (s.cur.readG b) (s.cur.readG (b + 1)), s.charge.pushIdent⟩, 0, s.charge.overPod s.charge.myTile,
      .wlpsh s.charge.curId s.charge.cur.mc.ctxser, .new, none, 0, s.charge.now⟩ : PushMsg) = s.pushOf wl (itemOf (s.cur.readG b) (s.cur.readG (b + 1))) := by
    rw [charge_pushIdent, charge_overPod, State.charge_myTile, State.charge_curId, State.charge_mc, charge_now_eq]
    rfl
  dsimp only
  rw [wlOf_eq, State.charge_readG, State.charge_readG, hwl, charge_wlScope, awaitAll_over hover]
  unfold State.pushAct
  rw [State.charge_readG, hmsg]
  simp only [charge_launch?, charge_rangesOut, State.charge_curId, State.charge_myTile, charge_overPod]
  simp only [lampDie, State.overPod, State.own] <;> rfl

variable {w : WorkList} (hw : Listed s wl w) {l : Launch} (hl : s.launch? w.launch = some l)
include hw hl

theorem wlpsh_faults {c : Nat} (hfault : itemFault (itemOf (s.cur.readG b) (s.cur.readG (b + 1))) l.h = some c) :
    Traps (.wlpsh d a b) s 0x15 c (s.cur.readG (b + 1)) := by
  intro hc
  rw [wlpsh_eq hwl hover hc]
  unfold State.pushAct
  rw [hw.myWl]
  dsimp only
  rw [hl, Option.bind_some, hfault]
  rfl

variable (hfault : itemFault (itemOf (s.cur.readG b) (s.cur.readG (b + 1))) l.h = none) (hranges : s.rangesOut s.curId = false)
include hfault hranges

theorem wlpsh_pushes (hopen : w.closed = false) : Completes (.wlpsh d a b) s fun t => Waiting (.wlpsh d a b) s.cur t.cur (.answer 0) ∧ t.tasks = s.tasks ∧
    PushLeaves s w (s.pushOf wl (itemOf (s.cur.readG b) (s.cur.readG (b + 1)))) t := by
  intro hc
  have hact : s.pushAct wl (itemOf (s.cur.readG b) (s.cur.readG (b + 1))) (s.cur.readG (b + 1)) =
      .hold (s.charge.sendPush (s.pushOf wl (itemOf (s.cur.readG b) (s.cur.readG (b + 1))))) (.answer 0) := by
    unfold State.pushAct
    rw [hw.myWl]
    dsimp only
    rw [hl, Option.bind_some, hfault]
    dsimp only
    rw [hranges, hopen, if_neg (by decide), if_neg (by decide)]
  have hstep := wlStep_sendPush s.charge (s.pushOf wl (itemOf (s.cur.readG b) (s.cur.readG (b + 1))))
  have hexec := wlpsh_eq hwl hover hc
  rw [hact] at hexec
  obtain ⟨t, hgo, ht, hwait⟩ := waiting_of_conclude hexec hstep.quiet.1
  exact ⟨t, hgo, hwait, ht.tasks.trans (hstep.quiet.2.1.trans s.charge_tasks),
    sendPush_goes (Confined.charge s) s.charge_net ((charge_wl? ..).trans hw.1) rfl rfl rfl ht⟩

theorem wlpsh_refused (hclosed : w.closed = true) : Completes (.wlpsh d a b) s fun t => (Confined s t ∧ Waiting (.wlpsh d a b) s.cur t.cur (.answer 0)) ∧
    Posts s t (2 * hopDie s.myTile (w.lampOf (s.pkg.podIndex.toNat * 512 + s.myTile) % 4))
      (.pushAnswer (s.pushOf wl (itemOf (s.cur.readG b) (s.cur.readG (b + 1)))) 2) := by
  intro hc
  have hact : s.pushAct wl (itemOf (s.cur.readG b) (s.cur.readG (b + 1))) (s.cur.readG (b + 1)) =
      .hold (s.charge.after (2 * hopDie s.myTile (w.lampOf (s.pkg.podIndex.toNat * 512 + s.myTile) % 4))
        (.pushAnswer (s.pushOf wl (itemOf (s.cur.readG b) (s.cur.readG (b + 1)))) 2)) (.answer 0) := by
    unfold State.pushAct
    rw [hw.myWl]
    dsimp only
    rw [hl, Option.bind_some, hfault]
    dsimp only
    rw [hranges, hclosed, if_neg (by decide), if_pos rfl]
  have hexec := wlpsh_eq hwl hover hc
  rw [hact] at hexec
  obtain ⟨t, hgo, ht, hwait⟩ := waiting_of_conclude hexec rfl
  obtain ⟨hconf, hpost⟩ := (Confined.charge s).posts (congrArg Net.pend s.charge_net) ht
  exact ⟨t, hgo, ⟨hconf, hwait⟩, hpost⟩

end

theorem wlpsh_unlisted {s : State} {d a b : RegNo} {wl : Nat} (hwl : (s.cur.readG a).toNat % 1024 = wl) (hover : AllOver s (s.wlScope wl))
    (hnone : ∀ w, s.wl? wl = some w → w.asid ≠ s.cur.sc.asid) : Traps (.wlpsh d a b) s 0x15 1 (s.cur.readG (b + 1)) := by
  intro hc
  rw [wlpsh_eq hwl hover hc]
  unfold State.pushAct
  rw [myWl_none hnone]
  rfl

/-! ### WLPOP -/

section
variable {s : State} {d a : RegNo} {la : BitVec 4} {wl : Nat} (hwl : (s.cur.readG a).toNat % 1024 = wl)
include hwl

theorem wlpop_unlisted (hnone : ∀ w, s.wl? wl = some w → w.asid ≠ s.cur.sc.asid) : Traps (.wlpop d a la) s 0x15 1 (s.cur.readG a) := by
  refine traps_of_trap (exec_wlpop ..) ?_
  dsimp only
  rw [wlOf_eq, State.charge_readG, hwl, myWl_none hnone]

variable {w : WorkList} (hw : Listed s wl w)
include hw

theorem wlpop_full (hfull : ∀ j, 1 ≤ j → j ≤ 4 → (s.task s.cur.u.tid).held.getD j none ≠ none) : Traps (.wlpop d a la) s 0x15 5 (s.cur.readG a) := by
  have hall : ((List.range 4).all fun k => ((s.task s.cur.u.tid).held.getD (k + 1) none).isSome) = true := by
    refine List.all_eq_true.2 fun k hk => Option.isSome_iff_ne_none.2 (hfull (k + 1) (by omega) ?_)
    have := List.mem_range.1 hk
    omega
  refine traps_of_trap (exec_wlpop ..) ?_
  dsimp only
  rw [wlOf_eq, State.charge_readG, hwl, hw.myWl]
  dsimp only
  rw [State.charge_myTid, State.charge_task, if_pos hall]

/-- The state with an operation more of the slot in focus. -/
def State.lists (s : State) (o : LongOp) : State :=
  { s with cur := { s.cur with ops := s.cur.ops ++ [o] }, net := { s.net with nextId := s.net.nextId + 1 } }

/-- The pop that a WLPOP makes, once it has been listed as an operation. -/
def State.popOf (s : State) (wl op : Nat) : PopMsg :=
  ⟨wl, 0, s.pkg.podIndex.toNat * 512 + s.myTile, .task s.cur.u.tid s.curId s.cur.mc.ctxser op, 0, s.now⟩

theorem wlpop_pops (hroom : ∃ j, 1 ≤ j ∧ j ≤ 4 ∧ (s.task s.cur.u.tid).held.getD j none = none) : Completes (.wlpop d a la) s fun t => ∃ o,
    Opened s.cur t.cur o ∧ t.cur.regs = s.cur.regs ∧ t.cur.u.fflags = s.cur.u.fflags ∧ o.kind = .acquiring ∧ o.la = la.toNat ∧
    o.dests = [.g d, .g (d + 1), .g (d + 2)] ∧ o.due = none ∧ t.tasks = s.tasks ∧
    (w.lampOf (s.pkg.podIndex.toNat * 512 + s.myTile) / 4 = s.pkg.podIndex.toNat → Confined s t ∧
      Posts s t (hopDie ((s.pkg.podIndex.toNat * 512 + s.myTile) % 512) (w.lampOf (s.pkg.podIndex.toNat * 512 + s.myTile) % 4))
        (.pop (w.lampOf (s.pkg.podIndex.toNat * 512 + s.myTile)) (s.popOf wl o.id))) ∧
    (w.lampOf (s.pkg.podIndex.toNat * 512 + s.myTile) / 4 ≠ s.pkg.podIndex.toNat →
      Crosses s wl w (w.lampOf (s.pkg.podIndex.toNat * 512 + s.myTile) / 4) (.pop (w.lampOf (s.pkg.podIndex.toNat * 512 + s.myTile)) (s.popOf wl o.id)) t) := by
  intro hc
  have hany : ¬((List.range 4).all fun k => ((s.task s.cur.u.tid).held.getD (k + 1) none).isSome) = true := by
    obtain ⟨j, hj1, hj4, hj⟩ := hroom
    intro hall
    have h := List.all_eq_true.1 hall (j - 1) (List.mem_range.2 (by omega))
    rw [Nat.sub_add_cancel hj1, hj] at h
    cases h
  have hopen : s.charge.openOp (.wlpop d a la) .acquiring none 1 .none =
      (s.charge.net.nextId, s.charge.lists (s.charge.opOf (.wlpop d a la) .acquiring none 1 .none)) := State.openOp_eq ..
  have hconf : Confined s (s.charge.lists (s.charge.opOf (.wlpop d a la) .acquiring none 1 .none)) := by
    have h := (Confined.charge s).openOp (.wlpop d a la) .acquiring none 1 .none
    rwa [hopen] at h
  have hid : (s.charge.opOf (.wlpop d a la) .acquiring none 1 .none).id = s.charge.net.nextId := rfl
  have hpc : (s.charge.opOf (.wlpop d a la) .acquiring none 1 .none).pc = s.cur.pc := State.charge_pc s
  obtain ⟨hkind, hla, hdests, hdue⟩ : (s.charge.opOf (.wlpop d a la) .acquiring none 1 .none).kind = .acquiring ∧
    (s.charge.opOf (.wlpop d a la) .acquiring none 1 .none).la = la.toNat ∧
    (s.charge.opOf (.wlpop d a la) .acquiring none 1 .none).dests = [.g d, .g (d + 1), .g (d + 2)] ∧
    (s.charge.opOf (.wlpop d a la) .acquiring none 1 .none).due = none := ⟨rfl, rfl, rfl, rfl⟩
  generalize s.charge.opOf (.wlpop d a la) .acquiring none 1 .none = o at *
  have hact : exec (.wlpop d a la) s = .next ((s.charge.lists o).sendPop w (s.popOf wl o.id)).advance := by
    refine (exec_wlpop ..).trans ((issue_go _ hc).trans ?_)
    dsimp only
    rw [wlOf_eq, State.charge_readG, hwl, hw.myWl]
    dsimp only
    rw [State.charge_myTid, State.charge_task, if_neg hany, hopen, ← hid]
    have hmsg : (⟨wl, 0, (s.charge.lists o).overPod (s.charge.lists o).myTile, .task (s.charge.lists o).myTid (s.charge.lists o).curId
        (s.charge.lists o).cur.mc.ctxser o.id, 0, (s.charge.lists o).now⟩ : PopMsg) = s.popOf wl o.id := by
      show (⟨wl, 0, s.charge.overPod s.charge.myTile, .task s.charge.cur.u.tid s.charge.curId s.charge.cur.mc.ctxser o.id, 0, s.charge.now⟩ : PopMsg) = _
      rw [charge_overPod, State.charge_myTile, State.charge_curId, State.charge_mc, State.charge_u_tid, charge_now_eq]
      rfl
    dsimp only
    rw [hmsg]
    rfl
  have hpend : (s.charge.lists o).net.pend = s.net.pend := by
    rw [← State.charge_net s]
    rfl
  have hout : (s.charge.lists o).net.outbox = s.net.outbox := by
    rw [← State.charge_net s]
    rfl
  have hlist : (s.charge.lists o).wl? wl = some w := (charge_wl? ..).trans hw.1
  have hstep : WlStep (s.charge.lists o) ((s.charge.lists o).sendPop w (s.popOf wl o.id)) := wlStep_lantern ..
  have hcur : ((s.charge.lists o).sendPop w (s.popOf wl o.id)).cur = { s.charge.cur with ops := s.cur.ops ++ [o] } :=
    hstep.quiet.1.trans (by rw [← State.charge_ops]; rfl)
  obtain ⟨honly, hopened, hregs, hflags⟩ := hc.opened (f := id) (fun x => rfl) rfl hcur hpc
  have hsince : ({ s.popOf wl o.id with visited := 0, since := (s.charge.lists o).now } : PopMsg) = s.popOf wl o.id := by
    rw [hconf.now_eq]
    rfl
  have hsend : (s.charge.lists o).sendPop w (s.popOf wl o.id) = (s.charge.lists o).lantern (w.lampOf (s.pkg.podIndex.toNat * 512 + s.myTile) / 4)
      (hopDie ((s.pkg.podIndex.toNat * 512 + s.myTile) % 512) (w.lampOf (s.pkg.podIndex.toNat * 512 + s.myTile) % 4)) wl
      (.pop (w.lampOf (s.pkg.podIndex.toNat * 512 + s.myTile)) (s.popOf wl o.id)) := by
    unfold State.sendPop
    rw [hsince]
    rfl
  have htasks := honly.tasks.trans (hstep.quiet.2.1.trans s.charge_tasks)
  rw [hsend] at hact honly hopened hregs hflags htasks
  exact ⟨_, hact, o, hopened, hregs.trans s.charge_regs, hflags.trans s.charge_u_fflags, hkind, hla, hdests, hdue, htasks,
    fun hlamp => lantern_here hconf hpend hlamp _ rfl honly, fun hlamp => lantern_away hconf hpend hlist hout hlamp _ _ honly⟩

end

end Sys2Proof.Machine
end


section
/-! PROOF. WLACK, WLRET and WLSTA (R124, R156, R170, R174, R359, R360). -/

namespace Sys2Proof.Machine

/-! ### Answers that the slot in focus gives itself -/

theorem hopTile_self (a : Nat) : hopTile a a = 5 := if_pos rfl

theorem answerIn_posts {s u t : State} (hu : Confined s u) (hn : u.net.pend = s.net.pend) (hctx : u.cur.mc = s.cur.mc) {delay : Nat} {v : W64}
    (ht : OnlySlot (u.answerIn delay v) t) : Confined s t ∧ Posts s t delay (.controlReply s.curId s.cur.mc.ctxser v) := by
  unfold State.answerIn at ht
  rw [hctx, hu.curId] at ht
  exact hu.posts hn ht

/-! ### Held items (R359) -/

section
variable {s : State} {a : RegNo} {k : Nat} (hk : (s.cur.readG a).toNat % 8 = k)
include hk

theorem heldAt_eq : s.charge.heldAt a = if 5 ≤ k then none else (s.task s.cur.u.tid).held.getD k none := by
  unfold State.heldAt
  rw [State.charge_readG, State.charge_myTid, State.charge_task, BitVec.extractLsb'_toNat, Nat.shiftRight_zero]
  rw [show 2 ^ 3 = 8 from rfl, hk]

theorem dropHeld_eq : s.charge.dropHeld a = s.charge.updTask s.cur.u.tid fun t => { t with held := t.held.setIfInBounds k none } := by
  unfold State.dropHeld
  rw [State.charge_readG, State.charge_myTid, BitVec.extractLsb'_toNat, Nat.shiftRight_zero]
  rw [show 2 ^ 3 = 8 from rfl, hk]

theorem dropHeld_confined : Confined s (s.charge.dropHeld a) := by
  rw [dropHeld_eq hk]
  exact (Confined.charge s).updTask rfl _

theorem dropHeld_task : (s.charge.dropHeld a).task s.cur.u.tid = { s.task s.cur.u.tid with held := (s.task s.cur.u.tid).held.setIfInBounds k none } := by
  rw [dropHeld_eq hk, State.task_updTask_same, State.charge_task]

theorem held_missing (h : 5 ≤ k ∨ (s.task s.cur.u.tid).held.getD k none = none) :
    Traps (.wlack a) s 0x15 6 (s.cur.readG a) ∧ Traps (.wlret a) s 0x15 6 (s.cur.readG a) := by
  have hnone : s.charge.heldAt a = none := by
    rw [heldAt_eq hk]
    obtain h | h := h
    · exact if_pos h
    · rw [h, ite_self]
  constructor
  · refine traps_of_trap (exec_wlack ..) ?_
    rw [hnone, State.charge_readG]
  · intro hc
    refine traps_of_trap (exec_wlret ..) ?_ hc
    rw [hnone, State.charge_readG]
    exact if_pos (by rw [State.charge_hold, hc.hold]; rfl)

section
variable {h : HeldItem} (hlt : k < 5) (hheld : (s.task s.cur.u.tid).held.getD k none = some h)
include hlt hheld

theorem heldAt_some : s.charge.heldAt a = some h := by
  rw [heldAt_eq hk, if_neg (Nat.not_le.2 hlt), hheld]

theorem wlack_drops : Completes (.wlack a) s fun t => Waiting (.wlack a) s.cur t.cur (.answer 0) ∧
    t.task s.cur.u.tid = { s.task s.cur.u.tid with held := (s.task s.cur.u.tid).held.setIfInBounds k none } ∧
    t.mem = s.mem ∧ t.attrs = s.attrs ∧ ⟨s.now + 2 * 5, .controlReply s.curId s.cur.mc.ctxser 0⟩ ∈ t.net.pend ∧
    ((s.charge.dropHeld a).checkWl h.wl = s.charge.dropHeld a → Confined s t) := by
  intro hc
  have hcheck := checkWl_posting (s.charge.dropHeld a) h.wl
  have hmem : ((s.charge.dropHeld a).checkWl h.wl).mem = s.mem := by
    rw [State.checkWl_mem, dropHeld_eq hk]
    exact s.charge_mem
  have hconf := dropHeld_confined hk
  have htask := dropHeld_task hk
  have hcur : (s.charge.dropHeld a).cur = s.charge.cur := by rw [dropHeld_eq hk]; rfl
  have hattrs : (s.charge.dropHeld a).attrs = s.attrs := hconf.memory.2.1
  have hpend : (s.charge.dropHeld a).net.pend = s.net.pend := by
    rw [dropHeld_eq hk]
    exact congrArg Net.pend s.charge_net
  have hbody : (fun s => match s.heldAt a with
      | none => .trap causeWl 6 (s.cur.readG a)
      | some h => .hold (((s.dropHeld a).checkWl h.wl).answerIn (2 * hopTile s.myTile s.myTile) 0) (.answer 0) : State → Act) s.charge =
      .hold (((s.charge.dropHeld a).checkWl h.wl).answerIn (2 * 5) 0) (.answer 0) := by
    dsimp only
    rw [heldAt_some hk hlt hheld, hopTile_self]
  obtain ⟨t, hgo, ht, hwait⟩ := waiting_of_hold (exec_wlack ..) hc hbody (hcheck.quiet.1.trans hcur)
  refine ⟨t, hgo, hwait, ?_, ht.memory.1.trans hmem, ht.memory.2.1.trans (hcheck.same.1.trans hattrs), ?_, fun hidle => ?_⟩
  · rw [← htask]
    exact congrArg (Map.getD _ · _) (ht.tasks.trans hcheck.quiet.2.1)
  · rw [ht.net]
    refine List.mem_append_right _ (List.mem_singleton.2 ?_)
    rw [hcheck.same.2.1, hcheck.same.2.2, hcheck.quiet.1, hcur, State.charge_mc, hconf.curId, hconf.now_eq]
  · rw [hidle] at ht
    exact (answerIn_posts hconf hpend (by rw [hcur, State.charge_mc]) ht).1

/-- The push that a WLRET makes of a held item. -/
def State.returnOf (s : State) (h : HeldItem) : PushMsg :=
  ⟨h.wl, h.q, 0, s.pkg.podIndex.toNat * 512 + s.myTile, .wlret s.curId s.cur.mc.ctxser, .new, none, 0, s.now⟩

/-- What a WLRET does once nothing is to be awaited. -/
theorem wlret_eq (hover : AllOver s (s.wlScope h.wl)) (hc : CanIssue (.wlret a) s) : exec (.wlret a) s = .next (s.conclude s.charge (encode (.wlret a)) (
    if (s.charge.dropHeld a).wlOpen h.wl then .hold ((s.charge.dropHeld a).sendPush (s.returnOf h)) (.answer 0)
    else .hold ((s.charge.dropHeld a).answerIn (2 * 5) 0) (.answer 0))) := by
  have hconf := dropHeld_confined hk
  have hmsg : (⟨h.wl, h.q, 0, (s.charge.dropHeld a).overPod (s.charge.dropHeld a).myTile, .wlret (s.charge.dropHeld a).curId
      (s.charge.dropHeld a).cur.mc.ctxser, .new, none, 0, (s.charge.dropHeld a).now⟩ : PushMsg) = s.returnOf h := by
    rw [show (s.charge.dropHeld a).cur.mc = s.charge.cur.mc by rw [dropHeld_eq hk]; rfl, State.charge_mc, hconf.curId, hconf.now_eq, hconf.myTile]
    rw [show (s.charge.dropHeld a).overPod s.myTile = (s.charge.dropHeld a).own * 512 + s.myTile from rfl, hconf.own_eq]
    rfl
  refine (exec_wlret ..).trans ((issue_go _ hc).trans ?_)
  dsimp only
  rw [heldAt_some hk hlt hheld]
  dsimp only
  rw [charge_wlScope, awaitAll_over hover, hopTile_self, hmsg]

theorem wlret_pushes {w : WorkList} (hover : AllOver s (s.wlScope h.wl)) (hw : s.wl? h.wl = some w) (hopen : w.closed = false) :
    Completes (.wlret a) s fun t => Waiting (.wlret a) s.cur t.cur (.answer 0) ∧
      t.task s.cur.u.tid = { s.task s.cur.u.tid with held := (s.task s.cur.u.tid).held.setIfInBounds k none } ∧ PushLeaves s w (s.returnOf h) t := by
  intro hc
  have hlist : (s.charge.dropHeld a).wl? h.wl = some w := by rw [dropHeld_eq hk]; exact (charge_wl? ..).trans hw
  have hgo := wlret_eq hk hlt hheld hover hc
  rw [if_pos (by unfold State.wlOpen; rw [hlist]; simp [hopen])] at hgo
  have hnet : (s.charge.dropHeld a).net = s.net := by rw [dropHeld_eq hk]; exact s.charge_net
  have hstep := wlStep_sendPush (s.charge.dropHeld a) (s.returnOf h)
  have hcur : (s.charge.dropHeld a).cur = s.charge.cur := by rw [dropHeld_eq hk]; rfl
  obtain ⟨t, hgo, ht, hwait⟩ := waiting_of_conclude hgo (hstep.quiet.1.trans hcur)
  refine ⟨t, hgo, hwait, ?_, sendPush_goes (dropHeld_confined hk) hnet hlist rfl rfl rfl ht⟩
  rw [← dropHeld_task hk]
  exact congrArg (Map.getD _ · _) (ht.tasks.trans hstep.quiet.2.1)

theorem wlret_discards {w : WorkList} (hover : AllOver s (s.wlScope h.wl)) (hw : s.wl? h.wl = some w) (hclosed : w.closed = true) :
    Completes (.wlret a) s fun t => (Confined s t ∧ Waiting (.wlret a) s.cur t.cur (.answer 0)) ∧
      t.task s.cur.u.tid = { s.task s.cur.u.tid with held := (s.task s.cur.u.tid).held.setIfInBounds k none } ∧
      Posts s t (2 * 5) (.controlReply s.curId s.cur.mc.ctxser 0) := by
  intro hc
  have hlist : (s.charge.dropHeld a).wl? h.wl = some w := by rw [dropHeld_eq hk]; exact (charge_wl? ..).trans hw
  have hgo := wlret_eq hk hlt hheld hover hc
  rw [if_neg (by unfold State.wlOpen; rw [hlist]; simp [hclosed])] at hgo
  have hpend : (s.charge.dropHeld a).net.pend = s.net.pend := by rw [dropHeld_eq hk]; exact congrArg Net.pend s.charge_net
  have hcur : (s.charge.dropHeld a).cur = s.charge.cur := by rw [dropHeld_eq hk]; rfl
  obtain ⟨t, hgo, ht, hwait⟩ := waiting_of_conclude hgo hcur
  obtain ⟨hconf, hposts⟩ := answerIn_posts (dropHeld_confined hk) hpend (by rw [hcur, State.charge_mc]) ht
  refine ⟨t, hgo, ⟨hconf, hwait⟩, ?_, hposts⟩
  rw [← dropHeld_task hk]
  exact congrArg (Map.getD _ · _) ht.tasks

end

end

/-! ### WLSTA (R170, R360) -/

theorem charge_wlStat (s : State) (wl : Nat) (w : WorkList) (n : Nat) : s.charge.wlStat wl w n = s.wlStat wl w n := by
  have hpresent : s.charge.present wl = s.present wl := by
    unfold State.present State.midway State.own
    rw [charge_wl?, State.charge_net, State.charge_pkg]
  unfold State.wlStat
  rw [hpresent]

section
variable {s : State} {d a b : RegNo} {wl : Nat} (hwl : (s.cur.readG a).toNat % 1024 = wl)
include hwl

theorem wlsta_denied {o : BitVec 14} (ho : s.pkg.wlOwner.get? wl = some o) (hne : o ≠ s.cur.sc.asid) : Traps (.wlsta d a b) s 0x15 7 (s.cur.readG a) := by
  refine traps_of_trap (exec_wlsta ..) ?_
  dsimp only
  rw [wlOf_eq, State.charge_readG, hwl, State.charge_pkg, ho]
  dsimp only
  rw [State.charge_sc, if_pos hne]

theorem wlsta_free (ho : s.pkg.wlOwner.get? wl = none) : Completes (.wlsta d a b) s fun t => (Confined s t ∧ Waiting (.wlsta d a b) s.cur t.cur (.answer 0)) ∧
    ∃ n, Posts s t n (.controlReply s.curId s.cur.mc.ctxser 0) := by
  intro hc
  have hgo : exec (.wlsta d a b) s = .next (s.conclude s.charge (encode (.wlsta d a b)) (.hold (s.charge.answerIn (2 * hopDie s.myTile 0) 0) (.answer 0))) := by
    refine (exec_wlsta ..).trans ((issue_go _ hc).trans ?_)
    dsimp only
    rw [wlOf_eq, State.charge_readG, hwl, State.charge_pkg, ho, State.charge_myTile]
  obtain ⟨t, hgo, ht, hwait⟩ := waiting_of_conclude hgo rfl
  obtain ⟨hconf, hposts⟩ := answerIn_posts (Confined.charge s) (congrArg Net.pend s.charge_net) s.charge_mc ht
  exact ⟨t, hgo, ⟨hconf, hwait⟩, _, hposts⟩

variable (ho : s.pkg.wlOwner.get? wl = some s.cur.sc.asid) {w : WorkList} (hw : s.wl? wl = some w)
include ho hw

theorem wlsta_eq (hc : CanIssue (.wlsta d a b) s) : exec (.wlsta d a b) s = .next (s.conclude s.charge (encode (.wlsta d a b)) (
    if w.home = s.pkg.podIndex.toNat then
      .hold (s.charge.answerIn (2 * hopDie s.myTile (w.keeperLamp % 4)) (s.wlStat wl w (s.cur.readG b).toNat)) (.answer 0)
    else .hold (s.charge.lantern w.home 0 wl (.stat (s.cur.readG b).toNat s.curId s.cur.mc.ctxser)) (.answer 0))) := by
  refine (exec_wlsta ..).trans ((issue_go _ hc).trans ?_)
  dsimp only
  rw [wlOf_eq, State.charge_readG, hwl, State.charge_pkg, ho]
  dsimp only
  rw [State.charge_sc, if_neg (not_not.2 rfl), charge_wl?, hw]
  dsimp only
  rw [charge_wlStat, State.charge_readG, State.charge_myTile, State.charge_curId, State.charge_mc]
  exact congrArg _ (congrArg _ (if_congr (by rw [(Confined.charge s).own_eq]) rfl rfl))

theorem wlsta_here (hhome : w.home = s.pkg.podIndex.toNat) : Completes (.wlsta d a b) s fun t =>
    (Confined s t ∧ Waiting (.wlsta d a b) s.cur t.cur (.answer 0)) ∧ t.tasks = s.tasks ∧
    Posts s t (2 * hopDie s.myTile (w.keeperLamp % 4)) (.controlReply s.curId s.cur.mc.ctxser (s.wlStat wl w (s.cur.readG b).toNat)) := by
  intro hc
  have hgo := wlsta_eq (d := d) (b := b) hwl ho hw hc
  rw [if_pos hhome] at hgo
  obtain ⟨t, hgo, ht, hwait⟩ := waiting_of_conclude hgo rfl
  obtain ⟨hconf, hposts⟩ := answerIn_posts (Confined.charge s) (congrArg Net.pend s.charge_net) s.charge_mc ht
  exact ⟨t, hgo, ⟨hconf, hwait⟩, ht.tasks.trans s.charge_tasks, hposts⟩

theorem wlsta_away (hhome : w.home ≠ s.pkg.podIndex.toNat) : Completes (.wlsta d a b) s fun t => Waiting (.wlsta d a b) s.cur t.cur (.answer 0) ∧
    t.tasks = s.tasks ∧ Crosses s wl w w.home (.stat (s.cur.readG b).toNat s.curId s.cur.mc.ctxser) t := by
  intro hc
  have hgo := wlsta_eq (d := d) (b := b) hwl ho hw hc
  rw [if_neg hhome] at hgo
  have hstep := wlStep_lantern s.charge w.home 0 wl (.stat (s.cur.readG b).toNat s.curId s.cur.mc.ctxser)
  obtain ⟨t, hgo, ht, hwait⟩ := waiting_of_conclude hgo hstep.quiet.1
  exact ⟨t, hgo, hwait, ht.tasks.trans (hstep.quiet.2.1.trans s.charge_tasks), lantern_away (Confined.charge s) (congrArg Net.pend s.charge_net)
    ((charge_wl? ..).trans hw) (congrArg Net.outbox s.charge_net) hhome _ _ ht⟩

end

/-! ### Statistics words (Table 7.5) -/

theorem wlStat_counts {s : State} {wl : Nat} {w : WorkList} : s.wlStat wl w 3 =
    BitVec.ofNat 64 ((w.nruns.toNat + (w.far.map fun e => e.2.runs).sum) % 2 ^ 32 + (w.demotes.toNat + (w.far.map fun e => e.2.demotes).sum) % 2 ^ 32 * 2 ^ 32) := by
  apply BitVec.eq_of_toNat_eq
  show ((w.demotes + BitVec.ofNat 32 (w.far.map fun e => e.2.demotes).sum) ++ (w.nruns + BitVec.ofNat 32 (w.far.map fun e => e.2.runs).sum)).toNat = _
  rw [BitVec.toNat_append, BitVec.toNat_add, BitVec.toNat_add, BitVec.toNat_ofNat, BitVec.toNat_ofNat, BitVec.toNat_ofNat, Nat.add_mod_mod, Nat.add_mod_mod]
  generalize hx : (w.nruns.toNat + _) % 2 ^ 32 = x
  generalize hy : (w.demotes.toNat + _) % 2 ^ 32 = y
  have hx' : x < 2 ^ 32 := hx ▸ Nat.mod_lt _ (by decide)
  have hy' : y < 2 ^ 32 := hy ▸ Nat.mod_lt _ (by decide)
  rw [Nat.shiftLeft_add_eq_or_of_lt hx' y |>.symm, Nat.shiftLeft_eq, Nat.mod_eq_of_lt (by omega), Nat.add_comm]

end Sys2Proof.Machine
end


section
/-! PROOF. What WLCFG reads leaves the slot in focus as it was (R110, R361). -/

namespace Sys2Proof.Machine

/-- The slot in focus is as it was, and the cycle is the same. -/
structure InPlace (s t : State) : Prop where
  curId : t.curId = s.curId
  cur : t.cur = s.cur
  now_eq : t.now = s.now

theorem InPlace.refl (s : State) : InPlace s s := ⟨rfl, rfl, rfl⟩

theorem InPlace.trans {s t u : State} (h : InPlace s t) (h' : InPlace t u) : InPlace s u :=
  ⟨h'.curId.trans h.curId, h'.cur.trans h.cur, h'.now_eq.trans h.now_eq⟩

theorem InPlace.myTile {s t : State} (h : InPlace s t) : t.myTile = s.myTile := by
  unfold State.myTile
  rw [h.curId]

/-! ### Translation and reads of units -/

theorem inPlace_updHome (s : State) (home : Nat) (f : Home → Home) : InPlace s (s.updHome home f) := ⟨rfl, rfl, rfl⟩

theorem inPlace_updFrame (s : State) (frame : Nat) (f : FrameEnt → FrameEnt) : InPlace s (s.updFrame frame f) := ⟨rfl, rfl, rfl⟩

theorem inPlace_touchTlb (s : State) (home : Nat) (e : Tlb) : InPlace s (s.touchTlb home e) := ⟨rfl, rfl, rfl⟩

theorem inPlace_updHost (s : State) (f : HostSt → HostSt) : InPlace s (s.updHost f) := ⟨rfl, rfl, rfl⟩

theorem inPlace_afterOnce (s : State) (n : Nat) (e : Event) : InPlace s (s.afterOnce n e) := by
  unfold State.afterOnce
  split <;> exact ⟨rfl, rfl, rfl⟩

theorem inPlace_writeLine (s : State) (home line : Nat) (key : Option (BitVec 512)) (mask : Nat) (data : List Byte) :
    InPlace s (s.writeLine home line key mask data) := by
  unfold State.writeLine
  dsimp only
  split <;> exact ⟨rfl, rfl, rfl⟩

theorem inPlace_writePte (s : State) (pa v : Nat) : InPlace s (s.writePte pa v) := inPlace_writeLine ..

theorem inPlace_warmFrame (s : State) (frame : Nat) : InPlace s (s.warmFrame frame) := by
  unfold State.warmFrame
  split <;> exact ⟨rfl, rfl, rfl⟩

theorem inPlace_fillTlb (s : State) (home : Nat) (asid : BitVec 14) (va pte e : Nat) (large : Bool) : InPlace s (s.fillTlb home asid va pte e large) := by
  unfold State.fillTlb
  exact (inPlace_updHome ..).trans (inPlace_warmFrame ..)

theorem inPlace_ite {s u v : State} {c : Prop} [Decidable c] (hu : InPlace s u) (hv : InPlace s v) : InPlace s (if c then u else v) :=
  iteInduction (motive := InPlace s) (fun _ => hu) fun _ => hv

theorem inPlace_runWalk (s : State) (home : Nat) (asid : BitVec 14) (va : Nat) : InPlace s (s.runWalk home asid va).2 := by
  have hres : ∀ (o : Option Tlb) (u : State) (b : Bool), InPlace s u → InPlace s (match o with | some t => (Xl.ok t b, u) | none => (.pending, u)).2 := by
    intro o u b hu
    cases o <;> exact hu
  unfold State.runWalk
  split
  · exact .refl s
  · exact .refl s
  · exact hres _ _ _ ((inPlace_ite (.refl s) (inPlace_writePte ..)).trans (inPlace_fillTlb ..))
  · split
    · exact .refl s
    · refine hres _ _ _ (InPlace.trans ?_ (inPlace_fillTlb ..))
      refine InPlace.trans ?_ (inPlace_updFrame ..)
      refine InPlace.trans ?_ (inPlace_writePte ..)
      refine InPlace.trans ?_ (inPlace_ite (inPlace_updHost ..) (.refl _))
      refine InPlace.trans ?_ (inPlace_ite (.refl _) (inPlace_afterOnce ..))
      exact inPlace_updHome ..

theorem inPlace_xlate (s : State) (asid : BitVec 14) (va : Nat) : InPlace s (s.xlate asid va).2 := by
  unfold State.xlate
  dsimp only
  split
  · exact .refl s
  · split
    · exact .refl s
    · split
      · exact inPlace_touchTlb ..
      · split
        · exact .refl s
        · exact inPlace_runWalk ..

theorem inPlace_spot (s : State) (tile : Nat) (asid : BitVec 14) (va : Nat) : InPlace s (s.spot tile asid va false false).2 := by
  have hraw : InPlace s (s.spotRaw tile asid va false false).2 := by
    unfold State.spotRaw
    split
    · exact .refl s
    · exact .refl s
    · split
      · exact .refl s
      · split <;> exact .refl s
    · next v _ =>
      have hx := inPlace_xlate s asid v
      dsimp only
      split <;> rename_i hres <;> rw [hres] at hx
      · exact hx
      · exact hx
      · exact hx
      · split
        · exact hx
        · split <;> exact hx
  unfold State.spot
  split
  · next p t hp =>
    rw [hp] at hraw
    split
    · exact .refl s
    · exact hraw
  · exact hraw

theorem inPlace_vread1 (s : State) (tile : Nat) (asid : BitVec 14) (va n : Nat) : InPlace s (s.vread1 tile asid va n).2 := by
  have hspot := inPlace_spot s tile asid va
  unfold State.vread1
  split <;> rename_i hres <;> rw [hres] at hspot <;> exact hspot


/-! ### What a WLCFG reads -/

theorem cfgPends_not_ok (s : State) (q : Req) (r : List Byte) (t : State) : s.cfgPends q ≠ (.ok r, t) := by
  unfold State.cfgPends
  split <;> exact fun h => by cases h

theorem cfgRead_inPlace {base : W64} (l : List (Nat × Nat)) {acc r : List Byte} {s t : State} (h : s.cfgRead base l acc = (.ok r, t)) : InPlace s t := by
  induction l generalizing acc s with
  | nil =>
    cases h
    exact .refl _
  | cons a l ih =>
    unfold State.cfgRead at h
    dsimp only at h
    split at h
    · cases h
    · split at h
      · cases h
      · split at h
        · cases h
        · split at h
          · split at h
            · cases h
            · split at h
              · exact ih h
              · cases h
              · exact absurd h (cfgPends_not_ok _ _ _ _)
          · cases h
    · have hread := inPlace_vread1 s s.myTile s.cur.sc.asid a.1 a.2
      split at h <;> rename_i hres <;> rw [hres] at hread
      · exact hread.trans (ih h)
      · cases h
      · cases h
      · cases h
      · exact absurd h (cfgPends_not_ok _ _ _ _)

theorem cfgSpan_inPlace {s t : State} {p : W64} {n al : Nat} {r : List Byte} (h : s.cfgSpan p n al = (.ok r, t)) : InPlace s t := by
  unfold State.cfgSpan at h
  split at h
  · cases h
  · split at h
    · cases h
    · split at h
      · cases h
      · exact cfgRead_inPlace _ h

end Sys2Proof.Machine
end


section
/-! PROOF. What the creation of a launch leaves of the launches, of the worklists and of the slot in focus (R172, R174, R185). -/

namespace Sys2Proof.Machine

/-- Launches keep what they were created with, worklists their launch and address space, and the slot in focus its registers. -/
structure KeepsLists (s t : State) : Prop where
  curId : t.curId = s.curId
  regs : t.cur.regs = s.cur.regs
  mc : t.cur.mc = s.cur.mc
  now_eq : t.now = s.now
  next : t.pkg.nextLaunch = s.pkg.nextLaunch
  launches : ∀ k l, s.launch? k = some l → ∃ l', t.launch? k = some l' ∧ l'.h = l.h ∧ l'.entries = l.entries ∧ l'.creator = l.creator
  wls : ∀ k w, s.wl? k = some w → ∃ w', t.wl? k = some w' ∧ w'.launch = w.launch ∧ w'.asid = w.asid

theorem KeepsLists.of {s t : State} (hid : t.curId = s.curId) (hcur : t.cur = s.cur) (hpkg : t.pkg = s.pkg) : KeepsLists s t where
  curId := hid
  regs := by rw [hcur]
  mc := by rw [hcur]
  now_eq := congrArg (fun p : Pkg => p.cycle.toNat) hpkg
  next := by rw [hpkg]
  launches k l h := ⟨l, (congrArg (fun p : Pkg => p.launches.get? k) hpkg).trans h, rfl, rfl, rfl⟩
  wls k w h := ⟨w, (congrArg (fun p : Pkg => p.wls.get? k) hpkg).trans h, rfl, rfl⟩

theorem KeepsLists.refl (s : State) : KeepsLists s s := .of rfl rfl rfl

theorem KeepsLists.trans {s t u : State} (h : KeepsLists s t) (h' : KeepsLists t u) : KeepsLists s u where
  curId := h'.curId.trans h.curId
  regs := h'.regs.trans h.regs
  mc := h'.mc.trans h.mc
  now_eq := h'.now_eq.trans h.now_eq
  next := h'.next.trans h.next
  launches k l hl := by
    obtain ⟨l', hl', hh, he, hc⟩ := h.launches k l hl
    obtain ⟨l'', hl'', hh', he', hc'⟩ := h'.launches k l' hl'
    exact ⟨l'', hl'', hh'.trans hh, he'.trans he, hc'.trans hc⟩
  wls k w hw := by
    obtain ⟨w', hw', hl, ha⟩ := h.wls k w hw
    obtain ⟨w'', hw'', hl', ha'⟩ := h'.wls k w' hw'
    exact ⟨w'', hw'', hl'.trans hl, ha'.trans ha⟩

theorem keepsLists_foldl {α : Type} {f : State → α → State} (h : ∀ s a, KeepsLists s (f s a)) (l : List α) (s : State) : KeepsLists s (l.foldl f s) :=
  foldl_keeps KeepsLists.refl KeepsLists.trans h l s

theorem keepsLists_ite {s u v : State} {c : Prop} [Decidable c] (hu : KeepsLists s u) (hv : KeepsLists s v) : KeepsLists s (if c then u else v) :=
  iteInduction (motive := KeepsLists s) (fun _ => hu) fun _ => hv

/-! ### Changes of one launch, worklist, context or slot -/

theorem keepsLists_updLaunch (s : State) (key : Nat) {f : Launch → Launch} (hf : ∀ l, (f l).h = l.h ∧ (f l).entries = l.entries ∧ (f l).creator = l.creator) :
    KeepsLists s (s.updLaunch key f) := by
  unfold State.updLaunch
  cases hl : s.launch? key with
  | none => exact .refl s
  | some l =>
    refine ⟨rfl, rfl, rfl, rfl, rfl, fun k m hm => ?_, fun k w hw => ⟨w, hw, rfl, rfl⟩⟩
    by_cases hk : k = key
    · subst hk
      obtain rfl := Option.some.inj (hl.symm.trans hm)
      exact ⟨f l, Map.get?_set_same .., hf l⟩
    · exact ⟨m, (Map.get?_set ..).trans ((if_neg hk).trans hm), rfl, rfl, rfl⟩

theorem keepsLists_updWl (s : State) (wl : Nat) {f : WorkList → WorkList} (hf : ∀ w, (f w).launch = w.launch ∧ (f w).asid = w.asid) :
    KeepsLists s (s.updWl wl f) := by
  unfold State.updWl
  cases hw : s.wl? wl with
  | none => exact .refl s
  | some w =>
    refine ⟨rfl, rfl, rfl, rfl, rfl, fun k l hl => ⟨l, hl, rfl, rfl, rfl⟩, fun k v hv => ?_⟩
    by_cases hk : k = wl
    · subst hk
      obtain rfl := Option.some.inj (hw.symm.trans hv)
      exact ⟨f w, Map.get?_set_same .., hf w⟩
    · exact ⟨v, (Map.get?_set ..).trans ((if_neg hk).trans hv), rfl, rfl⟩

theorem keepsLists_updCtx (s : State) (asid : BitVec 14) (f : Ctx → Ctx) : KeepsLists s (s.updCtx asid f) := by
  unfold State.updCtx
  split
  · exact ⟨rfl, rfl, rfl, rfl, rfl, fun k l h => ⟨l, h, rfl, rfl, rfl⟩, fun k w h => ⟨w, h, rfl, rfl⟩⟩
  · exact .refl s

theorem keepsLists_updSlot (s : State) (k : Nat) {f : Slot → Slot} (hf : ∀ x, (f x).regs = x.regs ∧ (f x).mc = x.mc) : KeepsLists s (s.updSlot k f) := by
  unfold State.updSlot State.setSlot
  split
  · next hk =>
    subst hk
    have hself : s.slot s.curId = s.cur := if_pos rfl
    refine ⟨rfl, ?_, ?_, rfl, rfl, fun k l h => ⟨l, h, rfl, rfl, rfl⟩, fun k w h => ⟨w, h, rfl, rfl⟩⟩
    · exact (hf _).1.trans (congrArg Slot.regs hself)
    · exact (hf _).2.trans (congrArg Slot.mc hself)
  · exact .of rfl rfl rfl

theorem keepsLists_after (s : State) (n : Nat) (e : Event) : KeepsLists s (s.after n e) := .of rfl rfl rfl

/-! ### Messages and worklists that close -/

theorem keepsLists_postWl (s : State) (pkg wl : Nat) (asid : BitVec 14) (lid : W32) (m : WlMsg) : KeepsLists s (s.postWl pkg wl asid lid m) := by
  unfold State.postWl State.postMsg
  split <;> exact .of rfl rfl rfl

theorem keepsLists_lantern (s : State) (pkg delay wl : Nat) (m : WlMsg) : KeepsLists s (s.lantern pkg delay wl m) := by
  unfold State.lantern
  split
  · split <;> exact .of rfl rfl rfl
  · split
    · exact .refl s
    · refine KeepsLists.trans ?_ (keepsLists_postWl ..)
      split
      · exact keepsLists_updWl _ _ fun _ => ⟨rfl, rfl⟩
      · exact .refl s

theorem keepsLists_sendPush (s : State) (m : PushMsg) : KeepsLists s (s.sendPush m) := by
  unfold State.sendPush
  split
  · exact .refl s
  · exact keepsLists_ite (keepsLists_lantern ..) (keepsLists_after ..)

theorem keepsLists_updRecs (s : State) (p : SaveRec → Bool) (f : SaveRec → SaveRec) : KeepsLists s (s.updRecs p f) := .of rfl rfl rfl

theorem keepsLists_closeWl (s : State) (wl : Nat) : KeepsLists s (s.closeWl wl) := by
  unfold State.closeWl
  split
  · exact .refl s
  · refine KeepsLists.trans ?_ (keepsLists_updRecs ..)
    refine KeepsLists.trans ?_ (keepsLists_foldl (fun s e => keepsLists_after ..) ..)
    refine KeepsLists.trans ?_ (keepsLists_foldl (fun s m => keepsLists_after ..) ..)
    exact keepsLists_updWl _ _ fun _ => ⟨rfl, rfl⟩

theorem keepsLists_closeOf (s : State) (l : Launch) (frozen : Bool) : KeepsLists s (s.closeOf l frozen) := by
  unfold State.closeOf
  split
  · exact keepsLists_ite ((keepsLists_foldl (fun s p => keepsLists_lantern ..) _ s).trans (keepsLists_closeWl ..)) (.refl s)
  · exact .refl s

theorem keepsLists_freeLaunch (s : State) (l : Launch) : KeepsLists s (s.freeLaunch l) := .of rfl rfl rfl

theorem keepsLists_finishLaunch (s : State) (l : Launch) (st : LState) (reason : Nat) (frozen : Bool) : KeepsLists s (s.finishLaunch l st reason frozen) := by
  rw [finishLaunch_eq]
  refine KeepsLists.trans ?_ (keepsLists_after ..)
  refine KeepsLists.trans ?_ (keepsLists_updCtx ..)
  refine KeepsLists.trans ?_ (keepsLists_freeLaunch ..)
  refine KeepsLists.trans ?_ (keepsLists_closeOf ..)
  exact keepsLists_updLaunch _ _ fun _ => ⟨rfl, rfl, rfl⟩

theorem keepsLists_wakeWaiting (s : State) : KeepsLists s s.wakeWaiting := by
  unfold State.wakeWaiting
  exact keepsLists_foldl (fun s e => keepsLists_ite (keepsLists_after ..) (.refl s)) _ s

/-! ### Tasks that stop (R185) -/

theorem keepsLists_sendRelease (s : State) (slot : Nat) (ctx : W32) (home line mode : Nat) : KeepsLists s (s.sendRelease slot ctx home line mode) := by
  unfold State.sendRelease
  split <;> exact .of rfl rfl rfl

theorem keepsLists_repushHeld (s : State) (tid : W64) (tile : Nat) : KeepsLists s (s.repushHeld tid tile) := by
  unfold State.repushHeld
  refine KeepsLists.trans (t := s.updTask tid fun t => { t with held := .replicate 5 none }) (.of rfl rfl rfl) (keepsLists_foldl (fun s h => ?_) ..)
  split
  · exact .refl s
  · split
    · exact keepsLists_ite (.refl s) (keepsLists_sendPush ..)
    · exact .refl s

theorem keepsLists_releaseWatches (recs : List SaveRec) (s : State) :
    KeepsLists s (recs.foldl (fun s r => r.slot.spec.watch.foldl (fun s w => s.sendRelease r.from_ r.ctx w.home w.line w.mode) s) s) :=
  keepsLists_foldl (fun s r => keepsLists_foldl (fun s w => keepsLists_sendRelease s r.from_ r.ctx w.home w.line w.mode) r.slot.spec.watch s) recs s

theorem keepsLists_releaseAccs (s : State) (tid : W64) : KeepsLists s (s.releaseAccs tid) := .of rfl rfl rfl

theorem keepsLists_dropQueues (s : State) (tid : W64) : KeepsLists s (s.dropQueues tid) := .of rfl rfl rfl

theorem keepsLists_forgetTask (s : State) (tid : W64) : KeepsLists s (s.forgetTask tid) := .of rfl rfl rfl

theorem keepsLists_endSaved (s : State) (tid : W64) (tile : Nat) : KeepsLists s (s.endSaved tid tile) := by
  unfold State.endSaved
  extract_lets r q u v
  have hr : KeepsLists s r := keepsLists_releaseWatches _ s
  have hq : KeepsLists r q := keepsLists_repushHeld r tid tile
  have hu : KeepsLists q u := (keepsLists_releaseAccs q tid).trans (keepsLists_dropQueues _ tid)
  have hv : KeepsLists u v := keepsLists_forgetTask u tid
  exact (((hr.trans hq).trans hu).trans hv).trans (.of rfl rfl rfl)

theorem keepsLists_stopTasks (s : State) (key : Nat) : KeepsLists s (s.stopTasks key) := by
  unfold State.stopTasks
  refine keepsLists_foldl (fun s e => ?_) _ s
  dsimp only
  split
  · exact keepsLists_ite ((keepsLists_endSaved ..).trans (keepsLists_updSlot _ _ fun _ => ⟨rfl, rfl⟩))
      (KeepsLists.trans (t := s.dropQueues (BitVec.ofNat 64 e.1)) (.of rfl rfl rfl) (keepsLists_updSlot _ _ fun _ => ⟨rfl, rfl⟩))
  · exact keepsLists_endSaved ..
  · exact keepsLists_endSaved ..
  · exact .refl s

theorem keepsLists_discardItems (s : State) (wl : Nat) : KeepsLists s (s.discardItems wl) := by
  unfold State.discardItems
  refine KeepsLists.trans (keepsLists_updWl s wl ?_) (.of rfl rfl rfl)
  exact fun _ => ⟨rfl, rfl⟩

theorem keepsLists_stopLaunch (s : State) (id : W32) (st : LState) (reason : Nat) : KeepsLists s (s.stopLaunch id st reason) := by
  unfold State.stopLaunch
  split
  · exact .refl s
  · exact keepsLists_ite (.refl s) (((keepsLists_discardItems ..).trans (keepsLists_finishLaunch ..)).trans (keepsLists_stopTasks ..))

end Sys2Proof.Machine
end


section
/-! PROOF. WLCFG (R158, R172, R174, R361). -/

namespace Sys2Proof.Machine

/-! ### The launch that a creation lists -/

/-- The launch that a creation lists. -/
def State.newLaunch (s : State) (b : List Byte) (hdrVa : Addr) (entries : List W64) (creator : Option Nat) (regions : List (Nat × Nat)) : Launch :=
  (Header.of b).launch s.pkg.nextLaunch none hdrVa entries creator regions

/-- A launch and its worklist have been listed. -/
def State.listsLaunch (s : State) (b : List Byte) (pkgs : List Nat) (l : Launch) : State :=
  s.updPkg fun p => { p with
    nextLaunch := p.nextLaunch + 1
    launches := p.launches.set s.pkg.nextLaunch.toNat l
    wls := p.wls.set (Header.of b).wlid ((Header.of b).worklist s.pkg.nextLaunch.toNat s.own s.own pkgs s.now)
    wlOwner := p.wlOwner.set (Header.of b).wlid (Header.of b).asid }

theorem createLaunch_fst (s : State) (b : List Byte) (hdrVa : Addr) (entries : List W64) (pkgs : List Nat) (creator : Option Nat)
    (regions : List (Nat × Nat)) : (s.createLaunch b hdrVa entries pkgs creator regions).1 = s.pkg.nextLaunch := by
  unfold State.createLaunch
  dsimp only
  repeat' split
  all_goals rfl

theorem createLaunch_keeps (s : State) (b : List Byte) (hdrVa : Addr) (entries : List W64) (pkgs : List Nat) (creator : Option Nat)
    (regions : List (Nat × Nat)) : KeepsLists (s.listsLaunch b pkgs (s.newLaunch b hdrVa entries creator regions))
      (s.createLaunch b hdrVa entries pkgs creator regions).2 := by
  have hpost : KeepsLists (s.listsLaunch b pkgs (s.newLaunch b hdrVa entries creator regions)) ((pkgs.filter (· != s.own)).foldl
      (fun (s' : State) p => s'.postWl p (Header.of b).wlid (Header.of b).asid s.pkg.nextLaunch (.begin_ s.pkg.nextLaunch hdrVa b entries pkgs))
      (s.listsLaunch b pkgs (s.newLaunch b hdrVa entries creator regions))) :=
    keepsLists_foldl (fun s' p => keepsLists_postWl ..) _ _
  refine hpost.trans ?_
  unfold State.createLaunch
  dsimp only
  split
  · exact keepsLists_stopLaunch ..
  · split
    · exact (keepsLists_finishLaunch ..).trans (keepsLists_wakeWaiting _)
    · split
      · exact keepsLists_after ..
      · exact .refl _

/-- A launch is listed with its worklist under the next launch id. -/
structure Creates (s : State) (b : List Byte) (entries : List W64) (creator : Option Nat) (t : State) : Prop where
  mem : t.mem = s.mem
  curId : t.curId = s.curId
  regs : t.cur.regs = s.cur.regs
  mc : t.cur.mc = s.cur.mc
  now_eq : t.now = s.now
  next : t.pkg.nextLaunch = s.pkg.nextLaunch + 1
  launch : ∃ l, t.launch? s.pkg.nextLaunch.toNat = some l ∧ l.h = Header.of b ∧ l.entries = entries ∧ l.creator = creator
  worklist : ∃ w, t.wl? (Header.of b).wlid = some w ∧ w.launch = s.pkg.nextLaunch.toNat ∧ w.asid = (Header.of b).asid

theorem createLaunch_creates (s : State) (b : List Byte) (hdrVa : Addr) (entries : List W64) (pkgs : List Nat) (creator : Option Nat)
    (regions : List (Nat × Nat)) : Creates s b entries creator (s.createLaunch b hdrVa entries pkgs creator regions).2 := by
  have hk := createLaunch_keeps s b hdrVa entries pkgs creator regions
  obtain ⟨l, hl, hh, he, hc⟩ := hk.launches s.pkg.nextLaunch.toNat _ (Map.get?_set_same ..)
  obtain ⟨w, hw, hwl, hwa⟩ := hk.wls (Header.of b).wlid _ (Map.get?_set_same ..)
  exact ⟨State.createLaunch_mem .., hk.curId, hk.regs, hk.mc, hk.now_eq, hk.next, ⟨l, hl, hh, he, hc⟩, ⟨w, hw, hwl, hwa⟩⟩

/-! ### The decision -/

theorem launchPkgs_own (s : State) : s.launchPkgs 0 [] = [s.own] := rfl

/-- A launch that spans no other package is decided at once. -/
theorem mayCreate_own {s : State} {by_ : Nat} (hidle : ∀ o ∈ s.pkg.openings, o.by_ ≠ by_) (b : List Byte) (entries : List W64) (owned : Bool) :
    s.mayCreate by_ b entries (s.launchPkgs 0 []) owned = (some (s.refuseLaunch b entries (s.launchPkgs 0 []) owned by_ 0), s) := by
  have hfind : s.pkg.openings.find? (fun o => o.by_ == by_) = none := by
    refine List.find?_eq_none.2 fun o ho => ?_
    simpa using hidle o ho
  have hothers : ((s.launchPkgs 0 []).filter fun p => p != s.own && s.pkg.members.contains p) = [] := by
    rw [launchPkgs_own]
    simp
  unfold State.mayCreate
  dsimp only
  rw [hfind, hothers]
  cases s.refuseLaunch b entries (s.launchPkgs 0 []) owned by_ 0 <;> rfl

/-! ### The answers of other packages are forgotten -/

/-- Only requests have gone and the refusal of the slot in focus. -/
structure Forgets (s t : State) : Prop where
  mem : t.mem = s.mem
  pkg : t.pkg = s.pkg
  curId : t.curId = s.curId
  regs : t.cur.regs = s.cur.regs
  mc : t.cur.mc = s.cur.mc

theorem Forgets.now_eq {s t : State} (h : Forgets s t) : t.now = s.now := congrArg (fun p : Pkg => p.cycle.toNat) h.pkg

theorem forgets_delReqs (l : List Req) (s : State) : Forgets s (l.foldl (fun s r => s.delReq r.id) s) := by
  induction l generalizing s with
  | nil => exact ⟨rfl, rfl, rfl, rfl, rfl⟩
  | cons r l ih =>
    obtain ⟨hmem, hpkg, hid, hregs, hmc⟩ := ih (s.delReq r.id)
    exact ⟨hmem, hpkg, hid, hregs, hmc⟩

theorem cfgEnd_forgets (s : State) : Forgets s s.cfgEnd := by
  obtain ⟨hmem, hpkg, hid, hregs, hmc⟩ := forgets_delReqs (s.podReqs s.myTile (cfgLane s.curId)) s
  exact ⟨hmem, hpkg, hid, hregs, hmc⟩

/-! ### The instruction -/

section
variable {s : State} {d a : RegNo}

theorem wlcfg_denied (hu : s.cur.level = .u) : Traps (.wlcfg d a) s 0x15 7 (s.cur.readG a) := by
  refine traps_of_trap (exec_wlcfg ..) ?_
  dsimp only
  rw [State.charge_level, hu, State.charge_readG]
  exact if_pos rfl

variable (hu : s.cur.level ≠ .u) (hover : AllOver s .pkg)
include hu hover

theorem wlcfg_waits {s1 : State} (hread : s.charge.cfgSpan (s.cur.readG a) 128 64 = (.wait, s1)) : Completes (.wlcfg d a) s fun t =>
    t.cur.hold = .again 0 ∧ t.cur.regs = s1.cur.regs ∧ t.cur.pc = s1.cur.pc ∧ t.mem = s1.mem := by
  intro hc
  refine ⟨_, (exec_wlcfg ..).trans (issue_again (u := s1) (n := 0) hc ?_), rfl, rfl, rfl, rfl⟩
  dsimp only
  rw [State.charge_level, if_neg (by simpa using hu), awaitAll_over hover, State.charge_readG, hread]

theorem wlcfg_fails {s1 : State} {c n : Nat} {y : W64} (hread : s.charge.cfgSpan (s.cur.readG a) 128 64 = (.fail c n y, s1)) :
    Completes (.wlcfg d a) s fun t => t = s1.cfgEnd.issueTrap (encode (.wlcfg d a)) c n y := by
  intro hc
  refine ⟨_, (exec_wlcfg ..).trans (issue_trapIn hc ?_), rfl⟩
  dsimp only
  rw [State.charge_level, if_neg (by simpa using hu), awaitAll_over hover, State.charge_readG, hread]

section
variable {hb eb : List Byte} {s1 s2 : State} (hhead : s.charge.cfgSpan (s.cur.readG a) 128 64 = (.ok hb, s1)) (hmask : (Header.of hb).pmaskp = 0)
  (htable : s1.cfgSpan (Header.of hb).entryp (8 * ((Header.of hb).nent + 1)) 8 = (.ok eb, s2)) (hidle : ∀ o ∈ s2.pkg.openings, o.by_ ≠ s.curId)
include hhead hmask htable hidle

/-- What a WLCFG does of a launch of its own package once it has read the header and the entry table. -/
theorem wlcfg_eq (hc : CanIssue (.wlcfg d a) s) : exec (.wlcfg d a) s = .next (s.conclude s.charge (encode (.wlcfg d a)) (
    match s2.refuseLaunch hb (wordsOf eb) (s2.launchPkgs 0 []) ((Header.of hb).asid == s.cur.sc.asid) s.curId 0 with
    | some c => .hold (s2.cfgEnd.answerIn (2 * hopDie s.myTile 0) (BitVec.ofNat 64 c)) (.answer 0)
    | none =>
      .hold ((s2.cfgEnd.createLaunch hb ((s.cur.readG a).extractLsb' 0 48) (wordsOf eb) (s2.launchPkgs 0 []) (some s.curId) []).2.answerIn
        (2 * hopDie s.myTile 0) (BitVec.ofNat 64 (s2.pkg.nextLaunch.toNat * 2 ^ 32))) (.answer 0))) := by
  have hplace := (cfgSpan_inPlace hhead).trans (cfgSpan_inPlace htable)
  have hid : s2.curId = s.curId := hplace.curId.trans s.charge_curId
  have htile : s2.myTile = s.myTile := hplace.myTile.trans s.charge_myTile
  refine (exec_wlcfg ..).trans ((issue_go _ hc).trans ?_)
  dsimp only
  rw [State.charge_level, if_neg (by simpa using hu), awaitAll_over hover, State.charge_readG, hhead]
  dsimp only
  rw [if_pos hmask]
  dsimp only
  rw [htable]
  dsimp only
  rw [hmask, hid, htile, State.charge_sc, mayCreate_own hidle]
  cases s2.refuseLaunch hb (wordsOf eb) (s2.launchPkgs 0 []) ((Header.of hb).asid == s.cur.sc.asid) s.curId 0 with
  | some c => rfl
  | none =>
    dsimp only
    rw [createLaunch_fst, (cfgEnd_forgets s2).pkg, hid]

theorem wlcfg_refuses {c : Nat}
    (hrefuse : s2.refuseLaunch hb (wordsOf eb) (s2.launchPkgs 0 []) ((Header.of hb).asid == s.cur.sc.asid) s.curId 0 = some c) :
    Completes (.wlcfg d a) s fun t => t.cur.hold = .answer 0 ∧ t.cur.regs = s.cur.regs ∧ t.pkg = s2.pkg ∧ t.mem = s2.mem ∧
      ⟨s.now + 2 * hopDie s.myTile 0, .controlReply s.curId s.cur.mc.ctxser (BitVec.ofNat 64 c)⟩ ∈ t.net.pend := by
  intro hc
  have hplace := (cfgSpan_inPlace hhead).trans (cfgSpan_inPlace htable)
  have hend := cfgEnd_forgets s2
  have hexec := wlcfg_eq hu hover hhead hmask htable hidle hc
  rw [hrefuse] at hexec
  refine ⟨_, hexec, rfl, ?_, hend.pkg, hend.mem, List.mem_append_right _ (List.mem_singleton.2 ?_)⟩
  · exact hend.regs.trans ((congrArg Slot.regs hplace.cur).trans s.charge_regs)
  · rw [hend.now_eq, hplace.now_eq, charge_now_eq, hend.curId, hplace.curId, State.charge_curId, hend.mc, hplace.cur, State.charge_mc]

theorem wlcfg_creates
    (hrefuse : s2.refuseLaunch hb (wordsOf eb) (s2.launchPkgs 0 []) ((Header.of hb).asid == s.cur.sc.asid) s.curId 0 = none) :
    Completes (.wlcfg d a) s fun t => t.cur.hold = .answer 0 ∧ t.cur.regs = s.cur.regs ∧ t.mem = s2.mem ∧
      t.pkg.nextLaunch = s2.pkg.nextLaunch + 1 ∧
      (∃ l, t.launch? s2.pkg.nextLaunch.toNat = some l ∧ l.h = Header.of hb ∧ l.entries = wordsOf eb ∧ l.creator = some s.curId) ∧
      (∃ w, t.wl? (Header.of hb).wlid = some w ∧ w.launch = s2.pkg.nextLaunch.toNat ∧ w.asid = (Header.of hb).asid) ∧
      ⟨s.now + 2 * hopDie s.myTile 0, .controlReply s.curId s.cur.mc.ctxser (BitVec.ofNat 64 (s2.pkg.nextLaunch.toNat * 2 ^ 32))⟩ ∈ t.net.pend := by
  intro hc
  have hplace := (cfgSpan_inPlace hhead).trans (cfgSpan_inPlace htable)
  have hend := cfgEnd_forgets s2
  have hexec := wlcfg_eq hu hover hhead hmask htable hidle hc
  rw [hrefuse] at hexec
  have hnew := createLaunch_creates s2.cfgEnd hb ((s.cur.readG a).extractLsb' 0 48) (wordsOf eb) (s2.launchPkgs 0 []) (some s.curId) []
  dsimp only at hexec
  generalize (s2.cfgEnd.createLaunch hb ((s.cur.readG a).extractLsb' 0 48) (wordsOf eb) (s2.launchPkgs 0 []) (some s.curId) []).2 = u at hexec hnew
  obtain ⟨hmem, hid, hregs, hmc, hnow, hnext, hlaunch, hwl⟩ := hnew
  rw [hend.pkg] at hnext hlaunch hwl
  refine ⟨_, hexec, rfl, ?_, hmem.trans hend.mem, hnext, hlaunch, hwl, List.mem_append_right _ (List.mem_singleton.2 ?_)⟩
  · exact hregs.trans (hend.regs.trans ((congrArg Slot.regs hplace.cur).trans s.charge_regs))
  · rw [hnow, hend.now_eq, hplace.now_eq, charge_now_eq, hid, hend.curId, hplace.curId, State.charge_curId, hmc, hend.mc, hplace.cur, State.charge_mc]

end

end

/-! ### The statistics words -/

/-- The words of Table 7.5 that a WLSTA may ask for. -/
theorem wlsta_words (s : State) (wl : Nat) (w : WorkList) (b : W64) :
    let v := s.wlStat wl w b.toNat
    let far (f : WlNews → Nat) : Nat := (w.far.map fun e => f e.2).sum
    (b = 0 → v = BitVec.ofNat 64 (w.worst + w.rho * 2 ^ 10 + (if w.xpkg then 2 ^ 20 else 0) +
      (match w.k with | some c => c / 2 ^ 80 | none => 2 ^ 32 - 1) * 2 ^ 32)) ∧
    (b = 1 → v = w.pushes + BitVec.ofNat 64 (far (·.pushes))) ∧ (b = 2 → v = w.pops + BitVec.ofNat 64 (far (·.pops))) ∧
    (b = 3 → v = BitVec.ofNat 64 ((w.nruns.toNat + far (·.runs)) % 2 ^ 32 + (w.demotes.toNat + far (·.demotes)) % 2 ^ 32 * 2 ^ 32)) ∧
    (b = 4 → v = BitVec.ofNat 64 (s.present wl)) := by
  refine ⟨?_, ?_, ?_, ?_, ?_⟩ <;> rintro rfl
  · unfold State.wlStat
    cases w.k <;> rfl
  · rfl
  · rfl
  · exact wlStat_counts
  · rfl

/-- Settles O30: each clause is the instruction's own rule, where nothing is in flight of the slot's and nothing to be awaited. -/
theorem worklistInstructions : Obligations.WorklistInstructions := by
  intro s d a b la
  refine ⟨?_, ?_, ?_, ?_, ?_, ?_, ?_, ?_, ?_, ?_, ?_, ?_, ?_, ?_⟩
  · rintro w l ⟨hw, hopen⟩ hover hl hfault hranges
    exact wlpsh_pushes rfl hover hw hl hfault hranges hopen
  · intro w l hw hclosed hover hl hfault hranges
    exact wlpsh_refused rfl hover hw hl hfault hranges hclosed
  · intro w l c hw hover hl hfault
    exact wlpsh_faults rfl hover hw hl hfault
  · intro hnone
    exact ⟨fun hover => wlpsh_unlisted rfl hover hnone, wlpop_unlisted rfl hnone⟩
  · intro w hw hroom
    exact wlpop_pops rfl hw hroom
  · intro w hw hfull
    exact wlpop_full rfl hw hfull
  · intro h hlt hheld
    exact ⟨wlack_drops rfl hlt hheld, fun w hover hw hopen => wlret_pushes rfl hlt hheld hover hw hopen,
      fun w hover hw hclosed => wlret_discards rfl hlt hheld hover hw hclosed⟩
  · exact held_missing rfl
  · intro w ho hw
    refine ⟨fun hhome hc => ?_, wlsta_away rfl ho hw⟩
    obtain ⟨t, hgo, hwaits, htasks, hposts⟩ := wlsta_here (d := d) (b := b) rfl ho hw hhome hc
    exact ⟨t, hgo, hwaits, htasks, _, hposts, wlsta_words s _ w (s.cur.readG b)⟩
  · intro o ho hne
    exact wlsta_denied rfl ho hne
  · exact wlsta_free rfl
  · exact wlcfg_denied
  · intro hu hover
    exact ⟨fun s1 => wlcfg_waits hu hover, fun c n y s1 => wlcfg_fails hu hover⟩
  · intro hb eb s1 s2 hu hover hhead hmask htable hidle
    exact ⟨fun c => wlcfg_refuses hu hover hhead hmask htable hidle, wlcfg_creates hu hover hhead hmask htable hidle⟩

end Sys2Proof.Machine
end
